-- ==== Sys2Proof/Word.lean ====
section
/-! DEFINITION. The word types of the model and their plainest arithmetic. -/

namespace Sys2Proof

/-- One byte. -/
abbrev Byte := BitVec 8

/-- A byte string, in the order it is sent or stored. -/
abbrev Bytes := List (BitVec 8)

/-- A 32-bit word. -/
abbrev Word := BitVec 32

end Sys2Proof
end

