-- ==== Sys2Proof/Syntax.lean ====
section
/-! DEFINITION. The commands of the block: one constructor of Instr for each row of spec/opcode_table.json. -/

namespace Sys2Proof

/-- The physical condition met by one admission. R198: an outcome that reports the physical condition of the device is
part of the admission's input. -/
inductive Phys where
  | ok            -- no fault
  | entropy       -- masks could not be claimed: an entropy test had failed at service start (R389)
  | engine        -- twin-datapath mismatch (R255)
  | tagEngine     -- the same, in the session tag of check 4 (R107, R255)
  | tagCompare    -- MATCH equal to MATCH_N in the session tag of check 4 (R285)
  | compare       -- MATCH equal to MATCH_N (R286)
  | resultCheck   -- public-key result check failed (R298)
  | store         -- ring commit failed verification or met an uncorrectable word (R394)
deriving DecidableEq, Repr

/-- An operand, with the physical condition that the admission or the compare meets (R198, R285). -/
structure Under (α : Type) where
  op : α
  phys : Phys
deriving DecidableEq, Repr

/-- A session trailer (R119). -/
structure Trailer where
  slot : Nat
  rsv : Nat
  counter : Nat
  tag : Bytes
deriving DecidableEq, Repr

/-- What every BDP request carries beside its object and body (R103): its origin (R102), header bits and trailer; and the
physical condition its admission meets. -/
structure Hdr where
  origin : Nat
  flags : Nat          -- reserved flag bits [7:1]
  txn : Nat
  rsv : Nat            -- header byte 7
  trailer : Option Trailer
  phys : Phys
deriving DecidableEq, Repr

/-- A BDP request (R103) without its service code, which the command names. -/
structure Req where
  h : Hdr
  idx : Nat
  sub : Nat
  body : Bytes
deriving DecidableEq, Repr

/-- The body of a WRITE_SEG (R105). -/
structure Seg where
  num : Nat
  flags : Nat          -- bit 0 END, [7:1] reserved
  rsv : Nat
  len : Nat            -- the data length field
  data : Bytes
deriving DecidableEq, Repr

/-- The payload of a FIELD_REPORT cell (R171). -/
structure FieldReport where
  conducting : Byte
  faults : Byte
  inputs : BitVec 16
  vguard : BitVec 20
  temp : BitVec 20
  status : BitVec 3
  seconds : Word
  dropped : Word
  cellsDropped : Word
deriving DecidableEq, Repr

/-- One entry of an INPUT_EVENT cell (R171). -/
structure InputEntry where
  input : Fin 16
  event : BitVec 8
  time : Word
deriving DecidableEq, Repr

/-- The payload of a NET_STATUS cell (R171). -/
structure NetStatus where
  port : Fin 7
  state : Byte
  tec : Byte
  recv : Byte
  received : Word
  sent : Word
  dropped : Word
deriving DecidableEq, Repr

/-- The supervised rails (R39). -/
inductive Rail where
  | vcore | vddah | vddps | vddioh | vddlvds | vfcore | vfio | vddaf | vguard
deriving DecidableEq, Repr

/-- The width of a pulse on RESET_N or FRST_N (R54). Between 100 ns and 1 us the outcome is open: the pulse is
ignored or acts, and the physical device decides which. -/
inductive PulseWidth where
  | short          -- below 100 ns
  | between (acts : Bool)
  | long           -- 1 us or longer
deriving DecidableEq, Repr

/-- The clocks whose loss is a tamper alarm (R73). -/
inductive LostClock where
  | tempo | cipher | monitor | pll
deriving DecidableEq, Repr

/-- The health tests of R372, in the order of the cause bits of R390. -/
inductive EntropyTest where
  | oscBand | oscDead | oscLocked | balance | rct | apt
deriving DecidableEq, Repr

/-- What one background window runs (R192). -/
inductive BackWork where
  | idle                                        -- nothing to do
  | laneCheck (lane : Fin 2) (ok : Bool)        -- twin-datapath fixed vector (R256)
  | dgeCheck (ok : Bool)                        -- one-block known answer (R256)
  | pleCheck (core : Fin 3) (ok : Bool)         -- M0, M1, polynomial core (R300, R301)
  | paritySweep (bad : List Nat)                -- cache entries that fail parity (R335)
  | sramScrub (uncorrectable : Bool)            -- R194
  | storeScrub (corrected : Nat) (rings : List (Fin 2048)) (passDone : Bool)   -- R398, R404: words corrected, and the counter rings of those that lie in one
  | storeLost (region : Fin 16) (unit word : Nat)    -- an uncorrectable word found by scrub (R398)
  | relocate (k : Fin 2048)                     -- counter-ring relocation (R404)
  | compaction                                  -- dictionary log compaction (R395)
  | adcCalibration                              -- monitor-ADC calibration (R192, R474)
deriving DecidableEq, Repr

/-- Why a unit declares the Sheaf link lost (R528). -/
inductive LinkLossCause where
  | silence | resends | lock | vddLvds
deriving DecidableEq, Repr

/-- The HELLO of a join (R532), with the silicon revision that R524 compares. -/
structure JoinHello where
  partner : Byte
  serial : Bytes
  firmware : Word
  nonce : Bytes
  lastAdm : Nat
  chain : Bytes
  restarted : Bool
  revision : BitVec 16
deriving DecidableEq, Repr

/-- An ADMIT message (R529). -/
structure AdmitMsg where
  kind : Byte
  flags : Byte
  origin : Nat
  channel : Nat
  adm : Nat
  time : Nat
  payload : Bytes
deriving DecidableEq, Repr

/-- A VERDICT message (R529, R541). -/
structure VerdictMsg where
  adm : Nat
  code : Word
  digests : List (Byte × Nat × Bytes)
  data : Bytes
deriving DecidableEq, Repr

/-- The commands, in the order of spec/opcode_table.json. -/
inductive Instr where
  /-- SEND (R135). Host SEND frame carrying one BDP request is checked for length and CRC and buffered for admission, or answered with a BUSY or LINK_ERROR reply. -/
  | send (frame : Bytes) (whole : Bool)
  /-- FETCH (R139). Host FETCH frame clocks out the oldest queued reply, or EMPTY, and removes the reply only when it is delivered whole. -/
  | fetch (clocked : Nat)
  /-- REFETCH (R139). Host REFETCH frame repeats the last reply delivered whole, or EMPTY. -/
  | refetch (clocked : Nat)
  /-- STATUS (R141). Host STATUS frame returns the cause word, start-up stage and outstanding reply count with a CRC. -/
  | status
  /-- CLEAR (R141). Host CLEAR frame clears the RW1C cause bits set in its mask, or is ignored on a framing or CRC fault. -/
  | clear (frame : Bytes) (whole : Bool)
  /-- UNKNOWN_OPCODE_FRAME (R134). A host-link frame with an unlisted opcode is ignored up to QSPI_CS_N high and counted as a link error. -/
  | unknownOpcodeFrame (opcode : Byte)
  /-- READ (R106). Expedited BDP READ returns an object value of at most 24 bytes, ordered but not numbered. -/
  | read (r : Req)
  /-- WRITE (R108). Expedited BDP WRITE of an object without behaviour of its own is checked and, if accepted, replaces the value and writes a change record. -/
  | write (r : Req)
  /-- READ_SEG_INIT (R113). Opens a segmented read transfer and captures the object value at that point in the order. -/
  | readSegInit (r : Req)
  /-- READ_SEG (R113). Returns the next segment of the captured value of an open read transfer, setting END on the last. -/
  | readSeg (r : Req)
  /-- WRITE_SEG_INIT (R111). Opens a segmented write transfer with a declared total length, discarding any transfer the origin had open. -/
  | writeSegInit (r : Req)
  /-- WRITE_SEG (R110). Delivers one segment of an open write transfer; the END segment completes and commits the value. -/
  | writeSeg (r : Req)
  /-- ABORT_TRANSFER (R110). Discards the origin's open segmented transfer and answers ABT_TRANSFER_ABORTED. -/
  | abortTransfer (r : Req)
  /-- BIND_REQUEST (R114). Reserves a session slot for a role and credential, frees expired pending slots and returns a device challenge. -/
  | bindRequest (r : Req)
  /-- BIND_RESPONSE (R116). Checks the client proof for a pending slot, binds the session and returns the device proof, or counts a failed bind. -/
  | bindResponse (r : Req)
  /-- UNBIND (R121). Ends the session on which it is sent. -/
  | unbind (r : Req)
  /-- DESCRIBE (R105). Returns the public descriptor of a populated object to any origin. -/
  | describe (r : Req)
  /-- UNKNOWN_SERVICE (R105). A BDP request with an unlisted service code is refused with ABT_SERVICE_UNKNOWN before admission. -/
  | unknownService (svc : Byte) (r : Req)
  /-- RANDOM_READ (R385). Read of a 0x2310 random object draws fresh bytes from the session slot's tiller or answers a not-ready or failed code with zero bytes. -/
  | randomRead (h : Hdr) (sub : Fin 3)
  /-- CORE_RESET_REQUEST (R80). Write of 0x01 to 0x2100.0C is journaled and schedules a core-die reset 1 ms after its release. -/
  | coreResetRequest (h : Hdr)
  /-- FIELD_DIE_RESET_REQUEST (R80). Write of 0x01 to 0x2100.0D is journaled and schedules a field-die reset 1 ms after its release. -/
  | fieldDieResetRequest (h : Hdr)
  /-- LOAD_IMAGE (R130). Segmented write of a firmware image into the inactive slot, erasing its valid marker at INIT and setting Load status. -/
  | loadImage (h : Hdr) (g : Seg)
  /-- VERIFY (R130). Long operation that verifies the inactive firmware slot and sets Load status to verified or invalid. -/
  | verify (h : Hdr)
  /-- ACTIVATE (R130). Makes a verified inactive image preferred and schedules a core reset with cause FIRMWARE. -/
  | activate (h : Hdr)
  /-- RAISE_FLOOR (R131). Long operation that burns the security version floor to the running image's version. -/
  | raiseFloor (h : Hdr) (v : Word)
  /-- FULL_SELF_TEST (R127). Long operation running every known-answer, lockstep and twin-datapath test. -/
  | fullSelfTest (h : Hdr)
  /-- RECOVER_NOW (R156). Write of 0x01 to a CAN FD controller's Recover now sends a bus-off recovery request to the field die when recovery is on command. -/
  | recoverNow (h : Hdr) (can : Fin 4)
  /-- CHANNEL_OPEN (R211). Open write of 0x01 commits durable epoch plus one, moves the channel to OPENING and schedules its switch admission. -/
  | channelOpen (h : Hdr) (n : Fin 32768)
  /-- CHANNEL_CLOSE (R211). Open write of 0x00 moves the channel to CLOSED, sending a CLOSE frame from OPEN or REKEYING. -/
  | channelClose (h : Hdr) (n : Fin 32768)
  /-- REKEY (R225). Rekey write of 0x01 on an OPEN channel commits durable epoch plus one and moves it to REKEYING. -/
  | rekey (h : Hdr) (n : Fin 32768)
  /-- FLAG_CLEAR (R214). Write to a channel's Flag clear clears the matching event bits. -/
  | flagClear (h : Hdr) (n : Fin 32768) (mask : Word)
  /-- KEY_NODE_WRITE (R211). Write of a channel's Key node moves it to CLOSED or UNUSED and empties its receive queue. -/
  | keyNodeWrite (h : Hdr) (n : Fin 32768) (handle : Word)
  /-- HEARTBEAT_INTERVAL_WRITE (R240). Write of a channel's heartbeat interval recomputes the next due time and the interval carried in control frames. -/
  | heartbeatIntervalWrite (h : Hdr) (n : Fin 32768) (ms : BitVec 16)
  /-- CHANNEL_SEND (R232). Segmented write to a channel's Send object checks the send and queues a DATA frame on the internal queue. -/
  | channelSend (h : Hdr) (n : Fin 32768) (g : Seg)
  /-- RECEIVE_RELEASE (R233). Write of the head record's sequence removes that receive record and frees its cell. -/
  | receiveRelease (h : Hdr) (n : Fin 32768) (seq : Word)
  /-- BEGIN (R272). Begin write starts a stream in a slot, taking ownership and building the stream nonce. -/
  | beginStream (h : Hdr) (slot : Fin 16) (value : Bytes)
  /-- STREAM_INPUT (R274). Segmented write of stream input processes each segment through CIE or DGE and appends or stages output. -/
  | streamInput (h : Hdr) (slot : Fin 16) (g : Seg)
  /-- END_OF_DATA (R277). Ends an active stream early with ABT_LENGTH_SHORT and moves the slot to FAILED. -/
  | endOfData (h : Hdr) (slot : Fin 16)
  /-- PARK (R279). Wraps an active stream context under the session's context-wrap key and frees the slot. -/
  | park (h : Hdr) (slot : Fin 16)
  /-- UNPARK (R279). Write of a parked context unwraps it and resumes the stream once in an idle slot. -/
  | unpark (h : Hdr) (slot : Fin 16) (g : Seg)
  /-- SLOT_RELEASE (R278). Zeroises a stream slot and returns it to IDLE. -/
  | slotRelease (h : Hdr) (slot : Fin 16)
  /-- PLE_INPUT (R305). Segmented write of a PLE request takes or reuses a PLE slot and loads its header and data. -/
  | pleInput (h : Hdr) (slot : Fin 8) (g : Seg)
  /-- RUN (R308). Runs the loaded PLE request, released at its operation latency with the slot DONE or FAILED. -/
  | pleSlotRun (h : Hdr) (slot : Fin 8)
  /-- PLE_SLOT_RELEASE (R304). Zeroises a PLE slot and returns it to IDLE. -/
  | pleSlotRelease (h : Hdr) (slot : Fin 8)
  /-- CREATE (R345). Creates a key node under a parent, allocating the lowest free node number. -/
  | createNode (h : Hdr) (g : Seg)
  /-- REMOVE_NODE (R347). Frees the node number of an orphaned created node without children. -/
  | removeNode (h : Hdr) (handle : Word)
  /-- BUMP (R348). Raises a node's epoch, orphaning its descendants and forming a cut set. -/
  | bump (h : Hdr) (handle target : Word)
  /-- EXPORT (R352). Wraps an exportable key under a session secret node into the Export result. -/
  | exportKey (h : Hdr) (source secret : Word)
  /-- TAKE_OWNERSHIP (R356). Long operation that decapsulates under TRANSFER, bumps OWNER and SERVICE and wraps a new OWNER credential. -/
  | takeOwnership (h : Hdr) (g : Seg)
  /-- RECOVER_OWNER (R356). In CALDERA, long operation that bumps OWNER alone and wraps a new OWNER credential. -/
  | recoverOwner (h : Hdr) (g : Seg)
  /-- PAIR_SECRET (R357). Long operation that unwraps and stores the pair secret and bumps OWNER and SERVICE. -/
  | pairSecret (h : Hdr) (g : Seg)
  /-- PAIR_SECRET_CLEAR (R357). Long operation that erases the pair secret and bumps OWNER and SERVICE. -/
  | pairSecretClear (h : Hdr)
  /-- RETIRE (R359). Accepted Retire stops admission, drains earlier releases and leads to the retire fuse being blown. -/
  | retire (h : Hdr)
  /-- SERVICE_RETIRE (R359). In CALDERA, retires the device as Retire does. -/
  | serviceRetire (h : Hdr)
  /-- RETIRE_FUSE_BLOW (R359). After every earlier admission has been released, the Retire's ring entry is written and the retire fuse blown. -/
  | retireFuseBlow
  /-- ATTEST (R361). Produces a CMAC-tagged or ML-DSA-signed attestation report for the requesting origin. -/
  | attest (h : Hdr) (value : Bytes)
  /-- INCREMENT (R401). Dictionary write to a counter's Increment increments it after the token-bucket and expected-value checks. -/
  | increment (h : Hdr) (k : Fin 2048) (expected : BitVec 64)
  /-- ADVANCE (R401). Dictionary write to a counter's Advance sets it to a larger value under PROVISION. -/
  | advance (h : Hdr) (k : Fin 2048) (w : BitVec 64)
  /-- EXPORT_START (R415). Long operation that opens a journal export run from a given admission number. -/
  | exportStart (h : Hdr) (value : Bytes)
  /-- JOURNAL_RELEASE_THROUGH (R417). Releases every unpinned journal record at or below the written admission number. -/
  | journalReleaseThrough (h : Hdr) (x : BitVec 64)
  /-- EXPORT_CLOSE (R415). Closes the open journal export. -/
  | exportClose (h : Hdr)
  /-- LOG_RELEASE_THROUGH (R205). Removes every AUDIT log record at or below the written admission number. -/
  | logReleaseThrough (h : Hdr) (x : BitVec 64)
  /-- LOAD_MANIFEST (R437). Segmented write of an applet manifest into the volatile staging area. -/
  | loadManifest (h : Hdr) (g : Seg)
  /-- INSTALL (R438). Long operation that stops the target cell, checks the staged manifest and installs it. -/
  | install (h : Hdr) (cell : Byte)
  /-- APPLET_REMOVE (R440). Bumps the cell root, frees its nodes and leaves the cell EMPTY. -/
  | appletRemove (h : Hdr) (cell : Byte)
  /-- CONTROL_START (R432). Cell Control write of 0x01 moves a stopped or faulted cell to STARTING. -/
  | controlStart (h : Hdr) (c : Fin 32)
  /-- CONTROL_STOP (R432). Cell Control write of 0x02 stops a starting or running cell. -/
  | controlStop (h : Hdr) (c : Fin 32)
  /-- CONTROL_RESTART (R432). Cell Control write of 0x03 restarts the cell. -/
  | controlRestart (h : Hdr) (c : Fin 32)
  /-- MAILBOX_IN (R441). Write of a cell's Mailbox in raises the cell's MAILBOX event. -/
  | mailboxIn (h : Hdr) (c : Fin 32) (value : Bytes)
  /-- GUARD_ON (R459). Command write of 0x01 turns a guard output on through a GUARD_SET. -/
  | guardOn (h : Hdr) (n : Fin 8)
  /-- GUARD_OFF (R459). Command write of 0x00 turns a guard output off and clears its trip latch. -/
  | guardOff (h : Hdr) (n : Fin 8)
  /-- PERMIT_RUN_START (R473). Permit run write of 0x01 commands PERMIT_OUT to run. -/
  | permitRunStart (h : Hdr)
  /-- PERMIT_RUN_STOP (R473). Permit run write of 0x00 commands PERMIT_OUT to stop. -/
  | permitRunStop (h : Hdr)
  /-- OUTPUT_SET (R473). Sets the Commands of the masked guard outputs in one GUARD_SET. -/
  | outputSet (h : Hdr) (mask on : Byte)
  /-- OWNER_ACKNOWLEDGE (R492). Owner acknowledgement unpins tamper records, empties the Sinter log and leaves TAMPER_HELD. -/
  | ownerAcknowledge (h : Hdr) (x : BitVec 64)
  /-- SERVICE_ACKNOWLEDGE (R492). Service acknowledgement does what the owner acknowledgement does, and is the only one allowed in CALDERA. -/
  | serviceAcknowledge (h : Hdr) (x : BitVec 64)
  /-- CALDERA_LEAVE (R501). Leave write of 0x01 ends CALDERA after owner recovery and unfreezes counters. -/
  | calderaLeave (h : Hdr)
  /-- SENSOR_CONFIG_WRITE (R482). Write of a tamper sensor setting takes effect and empties the sensor's history. -/
  | sensorConfigWrite (h : Hdr) (k : Byte) (sub : Byte) (value : Bytes)
  /-- SERVICE_SET (R504). Setting SERVICE starts the service grants. -/
  | serviceSet (h : Hdr)
  /-- SERVICE_CLEAR (R504). Clearing SERVICE ends the grants, disables tagging and discards granted Send transfers. -/
  | serviceClear (h : Hdr)
  /-- ISLAND_SET (R504). Setting ISLAND ends host-link sessions and closes the host link. -/
  | islandSet (h : Hdr)
  /-- ISLAND_CLEAR (R504). Clearing ISLAND reopens the host link and sets STARTED. -/
  | islandClear (h : Hdr)
  /-- VIGIL_SET (R483). Setting VIGIL switches every sensor to its VIGIL set and empties histories. -/
  | vigilSet (h : Hdr)
  /-- VIGIL_CLEAR (R483). Clearing VIGIL restores the normal sensor sets and empties histories. -/
  | vigilClear (h : Hdr)
  /-- AUDIT_SET (R201). Setting AUDIT begins the admission log. -/
  | auditSet (h : Hdr)
  /-- AUDIT_CLEAR (R504). Clearing AUDIT discards every held log record. -/
  | auditClear (h : Hdr)
  /-- PROVISION_SET (R506). Setting PROVISION records its time and starts or restarts its lapse. -/
  | provisionSet (h : Hdr)
  /-- PROVISION_CLEAR (R504). Clearing PROVISION withdraws provisioning permission. -/
  | provisionClear (h : Hdr)
  /-- SERVICE_ALLOWED_WRITE (R504). Write of Service allowed; writing 0 also clears SERVICE. -/
  | serviceAllowedWrite (h : Hdr) (value : Byte)
  /-- PROVISION_LAPSE_WRITE (R506). Write of Provision lapse recomputes the lapse time and may clear PROVISION at once. -/
  | provisionLapseWrite (h : Hdr) (seconds : Word)
  /-- JOIN (R533). Long operation that joins the Sheaf pair by catch-up or full copy. -/
  | join (h : Hdr)
  /-- JOIN_FULL_COPY (R535). Join write of 0x02 joins the pair forcing full copy. -/
  | joinFullCopy (h : Hdr)
  /-- SHEAF_LEAVE (R553). Leave clears SHEAF on both units or on the writing unit and closes its open channels. -/
  | sheafLeave (h : Hdr)
  /-- RESET_PARTNER (R554). Resets the other unit's core die 1 ms after release with cause PARTNER. -/
  | resetPartner (h : Hdr)
  /-- CONCUR (R549). Records a pending concurrence for a PAIR-role write. -/
  | concur (h : Hdr) (value : Bytes)
  /-- COUNTER_CONTROL_WRITE (R560). Write of a performance block's Control sets ENABLE and CHAIN bits, zeroing pairs whose CHAIN bit changes. -/
  | counterControlWrite (h : Hdr) (b : Fin 14) (value : Word)
  /-- COUNTER_CLEAR (R559). Zeroes the selected performance counters and their overflow bits. -/
  | counterClear (h : Hdr) (b : Fin 14) (mask : Word)
  /-- SNAPSHOT (R562). READ_SEG_INIT of 0xE100.01 sweeps every performance counter and captures the snapshot. -/
  | snapshot (h : Hdr)
  /-- TAGGING_ENABLE (R566). Write of the tagging Enable turns instruction tagging on or off. -/
  | taggingEnable (h : Hdr) (value : Byte)
  /-- SYSCALL_READ (R445). Applet READ system call reads a dictionary object into cell memory. -/
  | syscallRead (c : Fin 32) (phys : Phys)
  /-- SYSCALL_WRITE (R445). Applet WRITE system call writes a dictionary object within the manifest's write ranges. -/
  | syscallWrite (c : Fin 32) (phys : Phys)
  /-- TIME (R423). Returns the call's own admission number and admitted device time. -/
  | sysTime (c : Fin 32)
  /-- NOTIFY (R444). Sets the cell's Mailbox out. -/
  | sysNotify (c : Fin 32)
  /-- STOP (R432). The cell stops itself. -/
  | sysStop (c : Fin 32)
  /-- WAIT (R448). Blocks the cell, unadmitted, until its event mask meets pending events. -/
  | sysWait (c : Fin 32)
  /-- WAIT_DEADLINE (R452). Device time reaches a waiting cell's deadline and DEADLINE becomes pending. -/
  | waitDeadline (c : Fin 32)
  /-- CTR_INCREMENT (R447). Increments a counter by single-word commit. -/
  | ctrIncrement (c : Fin 32) (phys : Phys)
  /-- CTR_ADVANCE (R447). Advances a counter owned by the cell to a larger value. -/
  | ctrAdvance (c : Fin 32) (phys : Phys)
  /-- CH_SEND (R447). Sends a DATA frame on a channel owned by the cell. -/
  | chSend (c : Fin 32) (phys : Phys)
  /-- CH_RECV (R447). Takes the head receive record of a channel owned by the cell. -/
  | chRecv (c : Fin 32)
  /-- KEY_CREATE (R449). Creates a key node under the cell's applet root. -/
  | keyCreate (c : Under (Fin 32))
  /-- KEY_REMOVE (R449). Removes a key node under the cell's applet root. -/
  | keyRemove (c : Under (Fin 32))
  /-- KEY_REVOKE (R449). Bumps the cell's applet root. -/
  | keyRevoke (c : Under (Fin 32))
  /-- STREAM_BEGIN (R450). Begins one of the cell's two streams. -/
  | streamBegin (c : Fin 32)
  /-- STREAM_DATA (R450). Processes one segment of a cell stream. -/
  | streamData (c : Fin 32) (phys : Phys)
  /-- STREAM_RELEASE (R450). Zeroises a cell stream and returns it to IDLE. -/
  | streamRelease (c : Fin 32)
  /-- PLE_LOAD (R451). Stages PLE request input for the cell. -/
  | pleLoad (c : Fin 32)
  /-- PLE_RUN (R451). Runs the cell's staged PLE request. -/
  | pleRun (c : Fin 32) (phys : Phys)
  /-- SYSCALL_UNKNOWN (R443). ECALL with an unknown call number returns ABT_SERVICE_UNKNOWN without admission. -/
  | syscallUnknown (c : Fin 32)
  /-- RNG_DATA_READ (R386). Word load of RNG_DATA takes the next word from the cell's tiller, stalling if the buffer is empty. -/
  | rngDataRead (c : Fin 32)
  /-- RNG_DATA_STALL_TIMEOUT (R386). An RNG_DATA read unserved after 2,048 tc ends in the cell's entropy fault. -/
  | rngDataStallTimeout (c : Fin 32)
  /-- CELL_LOAD_COMPLETE (R428). A starting cell's memory is loaded and its registers set, and it becomes RUNNING. -/
  | cellLoadComplete (c : Fin 32)
  /-- QUANTUM_EXPIRY (R429). A cell's 8,000 tc quantum ends and the pair switches to the next runnable cell. -/
  | quantumExpiry
  /-- BUDGET_FAULT (R430). A cell retires 2^28 instructions without a system call and faults. -/
  | budgetFault (c : Fin 32)
  /-- FAULT_ADMISSION (R434). Internal admission records a cell fault, its cause and pc. -/
  | faultAdmission (c : Fin 32)
  /-- ILLEGAL_INSTRUCTION (R424). An encoding outside the implemented set causes the ILLEGAL fault. -/
  | illegalInstruction (c : Fin 32)
  /-- LUI (R424). Loads an upper immediate into a register. -/
  | lui (c : Fin 32) (rd : Fin 32) (imm : BitVec 20)
  /-- AUIPC (R424). Adds an upper immediate to pc into a register. -/
  | auipc (c : Fin 32) (rd : Fin 32) (imm : BitVec 20)
  /-- JAL (R424). Jumps to a pc-relative target and links. -/
  | jal (c : Fin 32) (rd : Fin 32) (off : BitVec 21)
  /-- JALR (R424). Jumps to a register-relative target and links. -/
  | jalr (c : Fin 32) (rd : Fin 32) (rs1 : Fin 32) (imm : BitVec 12)
  /-- BEQ (R424). Branches if equal. -/
  | beq (c : Fin 32) (rs1 : Fin 32) (rs2 : Fin 32) (off : BitVec 13)
  /-- BNE (R424). Branches if not equal. -/
  | bne (c : Fin 32) (rs1 : Fin 32) (rs2 : Fin 32) (off : BitVec 13)
  /-- BLT (R424). Branches if less, signed. -/
  | blt (c : Fin 32) (rs1 : Fin 32) (rs2 : Fin 32) (off : BitVec 13)
  /-- BGE (R424). Branches if greater or equal, signed. -/
  | bge (c : Fin 32) (rs1 : Fin 32) (rs2 : Fin 32) (off : BitVec 13)
  /-- BLTU (R424). Branches if less, unsigned. -/
  | bltu (c : Fin 32) (rs1 : Fin 32) (rs2 : Fin 32) (off : BitVec 13)
  /-- BGEU (R424). Branches if greater or equal, unsigned. -/
  | bgeu (c : Fin 32) (rs1 : Fin 32) (rs2 : Fin 32) (off : BitVec 13)
  /-- LB (R424). Loads a sign-extended byte. -/
  | lb (c : Fin 32) (rd : Fin 32) (rs1 : Fin 32) (imm : BitVec 12)
  /-- LH (R424). Loads a sign-extended halfword. -/
  | lh (c : Fin 32) (rd : Fin 32) (rs1 : Fin 32) (imm : BitVec 12)
  /-- LW (R424). Loads a word. -/
  | lw (c : Fin 32) (rd : Fin 32) (rs1 : Fin 32) (imm : BitVec 12)
  /-- LBU (R424). Loads a zero-extended byte. -/
  | lbu (c : Fin 32) (rd : Fin 32) (rs1 : Fin 32) (imm : BitVec 12)
  /-- LHU (R424). Loads a zero-extended halfword. -/
  | lhu (c : Fin 32) (rd : Fin 32) (rs1 : Fin 32) (imm : BitVec 12)
  /-- SB (R424). Stores a byte. -/
  | sb (c : Fin 32) (rs1 : Fin 32) (rs2 : Fin 32) (imm : BitVec 12)
  /-- SH (R424). Stores a halfword. -/
  | sh (c : Fin 32) (rs1 : Fin 32) (rs2 : Fin 32) (imm : BitVec 12)
  /-- SW (R424). Stores a word. -/
  | sw (c : Fin 32) (rs1 : Fin 32) (rs2 : Fin 32) (imm : BitVec 12)
  /-- ADDI (R424). Adds an immediate. -/
  | addi (c : Fin 32) (rd : Fin 32) (rs1 : Fin 32) (imm : BitVec 12)
  /-- SLTI (R424). Sets if less than an immediate, signed. -/
  | slti (c : Fin 32) (rd : Fin 32) (rs1 : Fin 32) (imm : BitVec 12)
  /-- SLTIU (R424). Sets if less than an immediate, unsigned. -/
  | sltiu (c : Fin 32) (rd : Fin 32) (rs1 : Fin 32) (imm : BitVec 12)
  /-- XORI (R424). Exclusive-ors an immediate. -/
  | xori (c : Fin 32) (rd : Fin 32) (rs1 : Fin 32) (imm : BitVec 12)
  /-- ORI (R424). Ors an immediate. -/
  | ori (c : Fin 32) (rd : Fin 32) (rs1 : Fin 32) (imm : BitVec 12)
  /-- ANDI (R424). Ands an immediate. -/
  | andi (c : Fin 32) (rd : Fin 32) (rs1 : Fin 32) (imm : BitVec 12)
  /-- SLLI (R424). Shifts left logically by an immediate. -/
  | slli (c : Fin 32) (rd : Fin 32) (rs1 : Fin 32) (sh : BitVec 5)
  /-- SRLI (R424). Shifts right logically by an immediate. -/
  | srli (c : Fin 32) (rd : Fin 32) (rs1 : Fin 32) (sh : BitVec 5)
  /-- SRAI (R424). Shifts right arithmetically by an immediate. -/
  | srai (c : Fin 32) (rd : Fin 32) (rs1 : Fin 32) (sh : BitVec 5)
  /-- ADD (R424). Adds two registers. -/
  | add (c : Fin 32) (rd : Fin 32) (rs1 : Fin 32) (rs2 : Fin 32)
  /-- SUB (R424). Subtracts two registers. -/
  | sub (c : Fin 32) (rd : Fin 32) (rs1 : Fin 32) (rs2 : Fin 32)
  /-- SLL (R424). Shifts left logically by a register. -/
  | sll (c : Fin 32) (rd : Fin 32) (rs1 : Fin 32) (rs2 : Fin 32)
  /-- SLT (R424). Sets if less, signed. -/
  | slt (c : Fin 32) (rd : Fin 32) (rs1 : Fin 32) (rs2 : Fin 32)
  /-- SLTU (R424). Sets if less, unsigned. -/
  | sltu (c : Fin 32) (rd : Fin 32) (rs1 : Fin 32) (rs2 : Fin 32)
  /-- XOR (R424). Exclusive-ors two registers. -/
  | xor (c : Fin 32) (rd : Fin 32) (rs1 : Fin 32) (rs2 : Fin 32)
  /-- SRL (R424). Shifts right logically by a register. -/
  | srl (c : Fin 32) (rd : Fin 32) (rs1 : Fin 32) (rs2 : Fin 32)
  /-- SRA (R424). Shifts right arithmetically by a register. -/
  | sra (c : Fin 32) (rd : Fin 32) (rs1 : Fin 32) (rs2 : Fin 32)
  /-- OR (R424). Ors two registers. -/
  | or (c : Fin 32) (rd : Fin 32) (rs1 : Fin 32) (rs2 : Fin 32)
  /-- AND (R424). Ands two registers. -/
  | and (c : Fin 32) (rd : Fin 32) (rs1 : Fin 32) (rs2 : Fin 32)
  /-- FENCE (R424). Performs no operation. -/
  | fence (c : Fin 32)
  /-- MUL (R424). Multiplies, low word. -/
  | mul (c : Fin 32) (rd : Fin 32) (rs1 : Fin 32) (rs2 : Fin 32)
  /-- MULH (R424). Multiplies signed by signed, high word. -/
  | mulh (c : Fin 32) (rd : Fin 32) (rs1 : Fin 32) (rs2 : Fin 32)
  /-- MULHSU (R424). Multiplies signed by unsigned, high word. -/
  | mulhsu (c : Fin 32) (rd : Fin 32) (rs1 : Fin 32) (rs2 : Fin 32)
  /-- MULHU (R424). Multiplies unsigned, high word. -/
  | mulhu (c : Fin 32) (rd : Fin 32) (rs1 : Fin 32) (rs2 : Fin 32)
  /-- DIV (R425). Divides signed in fixed 34 tc. -/
  | div (c : Fin 32) (rd : Fin 32) (rs1 : Fin 32) (rs2 : Fin 32)
  /-- DIVU (R425). Divides unsigned in fixed 34 tc. -/
  | divu (c : Fin 32) (rd : Fin 32) (rs1 : Fin 32) (rs2 : Fin 32)
  /-- REM (R425). Takes the signed remainder in fixed 34 tc. -/
  | rem (c : Fin 32) (rd : Fin 32) (rs1 : Fin 32) (rs2 : Fin 32)
  /-- REMU (R425). Takes the unsigned remainder in fixed 34 tc. -/
  | remu (c : Fin 32) (rd : Fin 32) (rs1 : Fin 32) (rs2 : Fin 32)
  /-- C_ADDI4SPN (R424). Compressed add of a scaled immediate to sp. -/
  | cAddi4spn (c : Fin 32) (rd : Fin 32) (u : BitVec 10)
  /-- C_LW (R424). Compressed word load. -/
  | cLw (c : Fin 32) (rd : Fin 32) (rs1 : Fin 32) (u : BitVec 7)
  /-- C_SW (R424). Compressed word store. -/
  | cSw (c : Fin 32) (rs1 : Fin 32) (rs2 : Fin 32) (u : BitVec 7)
  /-- C_NOP (R424). Compressed no operation. -/
  | cNop (c : Fin 32)
  /-- C_ADDI (R424). Compressed add immediate. -/
  | cAddi (c : Fin 32) (rd : Fin 32) (imm : BitVec 6)
  /-- C_JAL (R424). Compressed jump and link. -/
  | cJal (c : Fin 32) (off : BitVec 12)
  /-- C_LI (R424). Compressed load immediate. -/
  | cLi (c : Fin 32) (rd : Fin 32) (imm : BitVec 6)
  /-- C_ADDI16SP (R424). Compressed add of a scaled immediate to sp. -/
  | cAddi16sp (c : Fin 32) (imm : BitVec 10)
  /-- C_LUI (R424). Compressed load upper immediate. -/
  | cLui (c : Fin 32) (rd : Fin 32) (imm : BitVec 6)
  /-- C_SRLI (R424). Compressed logical right shift. -/
  | cSrli (c : Fin 32) (rd : Fin 32) (sh : BitVec 6)
  /-- C_SRAI (R424). Compressed arithmetic right shift. -/
  | cSrai (c : Fin 32) (rd : Fin 32) (sh : BitVec 6)
  /-- C_ANDI (R424). Compressed and immediate. -/
  | cAndi (c : Fin 32) (rd : Fin 32) (imm : BitVec 6)
  /-- C_SUB (R424). Compressed subtract. -/
  | cSub (c : Fin 32) (rd : Fin 32) (rs2 : Fin 32)
  /-- C_XOR (R424). Compressed exclusive or. -/
  | cXor (c : Fin 32) (rd : Fin 32) (rs2 : Fin 32)
  /-- C_OR (R424). Compressed or. -/
  | cOr (c : Fin 32) (rd : Fin 32) (rs2 : Fin 32)
  /-- C_AND (R424). Compressed and. -/
  | cAnd (c : Fin 32) (rd : Fin 32) (rs2 : Fin 32)
  /-- C_J (R424). Compressed jump. -/
  | cJ (c : Fin 32) (off : BitVec 12)
  /-- C_BEQZ (R424). Compressed branch if zero. -/
  | cBeqz (c : Fin 32) (rs1 : Fin 32) (off : BitVec 9)
  /-- C_BNEZ (R424). Compressed branch if not zero. -/
  | cBnez (c : Fin 32) (rs1 : Fin 32) (off : BitVec 9)
  /-- C_SLLI (R424). Compressed logical left shift. -/
  | cSlli (c : Fin 32) (rd : Fin 32) (sh : BitVec 6)
  /-- C_LWSP (R424). Compressed sp-relative word load. -/
  | cLwsp (c : Fin 32) (rd : Fin 32) (u : BitVec 8)
  /-- C_JR (R424). Compressed jump to register. -/
  | cJr (c : Fin 32) (rs1 : Fin 32)
  /-- C_MV (R424). Compressed register move. -/
  | cMv (c : Fin 32) (rd : Fin 32) (rs2 : Fin 32)
  /-- C_JALR (R424). Compressed jump to register and link. -/
  | cJalr (c : Fin 32) (rs1 : Fin 32)
  /-- C_ADD (R424). Compressed register add. -/
  | cAdd (c : Fin 32) (rd : Fin 32) (rs2 : Fin 32)
  /-- C_SWSP (R424). Compressed sp-relative word store. -/
  | cSwsp (c : Fin 32) (rs2 : Fin 32) (u : BitVec 8)
  /-- BARRIER_CELL_RECEIVE (R166). A barrier cell is checked against the sequence window and its tag and joins message assembly or is dropped. -/
  | barrierCellReceive (lane : Fin 2) (cell : Under Bytes)
  /-- CELL_DROP_LIMIT (R166). Sixteen consecutive cell drops count as link loss. -/
  | cellDropLimit (lane : Fin 2)
  /-- BRINGUP_START (R174). The core die starts a barrier bring-up by sending HELLO with a new bring-up number. -/
  | bringupStart
  /-- CORE_HELLO (R174). The field die receives the core HELLO, answers, cuts outputs and enters KEYING. -/
  | coreHello (b fw : Word)
  /-- FIELD_HELLO (R174). The core die receives the field HELLO and sends KEY with a fresh link key, or treats it as link loss or a wake request. -/
  | fieldHello (b rom gen : Word) (cause : Byte)
  /-- KEY (R174). The field die checks the KEY cell, installs the link key and sends KEY_ACK. -/
  | keyCell (key : Bytes) (b : Word) (tag : Bytes)
  /-- KEY_ACK (R174). The core die checks KEY_ACK and the barrier link is up. -/
  | keyAck (b : Word) (tag : Under Bytes)
  /-- BRINGUP_TIMEOUT (R174). A bring-up attempt without an answer within 1 ms fails. -/
  | bringupTimeout
  /-- BRINGUP_RETRY (R91). The core die retries barrier bring-up every 10 ms while the link is down. -/
  | bringupRetry
  /-- IDLE (R175). A keepalive IDLE cell is received and advances the sequence. -/
  | idleCell (lane : Fin 2)
  /-- IDLE_TIMER (R175). A side that has sent no cell for 10 µs sends IDLE. -/
  | idleTimer (lane : Fin 2)
  /-- FIELD_BARRIER_TIMEOUT (R175). 100 µs without a valid lane-1 cell puts the field die in CORE_ABSENT with outputs cut. -/
  | fieldBarrierTimeout
  /-- CORE_BARRIER_TIMEOUT (R176). 100 µs without a valid lane-0 cell is link loss on the core die. -/
  | coreBarrierTimeout
  /-- FIELD_STATE_ADMISSION (R78). Internal admission records a change of the field die state, setting 0x2100.09, 0x1F00.04 and FIELD. -/
  | fieldStateAdmission
  /-- BDP_REQ (R173). An assembled BDP_REQ message enters the barrier admission input, or is discarded when the input is full. -/
  | bdpReq (origin : Nat) (msg : Bytes)
  /-- CHF_UP (R173). An assembled upstream channel frame enters the barrier admission input. -/
  | chfUp (port : Fin 7) (node : Nat) (frame : Bytes)
  /-- CHANNEL_RECEIVE (R231). Admission of an upstream channel frame checks, opens and accepts it into a receive record or refuses it. -/
  | channelReceive (port : Fin 7) (node : Nat) (frame : Bytes) (phys : Phys)
  /-- BDP_RESP (R170). The field die routes an assembled BDP response to its port and node. -/
  | bdpResp (origin : Nat) (msg : Bytes)
  /-- CHF_DOWN (R170). The field die forwards an assembled downstream channel frame by its route table. -/
  | chfDown (frame : Bytes)
  /-- ROUTE (R170). The field die adds or removes channel routes. -/
  | route (entries : List (BitVec 16 × BitVec 16))
  /-- GUARD_SET (R454). The field die applies guard output and PERMIT_OUT commands when the toggle is live and the link up. -/
  | guardSet (mask on permit : Byte)
  /-- NET_CONFIG (R172). The field die stages one network setting. -/
  | netConfig (idx sub : Nat) (value : Bytes)
  /-- NET_CONFIG_COMMIT (R172). The field die writes staged settings with a configuration generation and applies them. -/
  | netConfigCommit (gen : Word)
  /-- POWER_NOTICE (R519). The field die takes the core die's awake, asleep or hibernating notice. -/
  | powerNotice (value : Byte)
  /-- BUS_OFF_RECOVERY_REQUEST (R156). The field die starts bus-off recovery of a controller if it is in bus-off. -/
  | busOffRecoveryRequest (can : Fin 4)
  /-- FIELD_REPORT (R458). Internal admission of a FIELD_REPORT updates field health and clears commands on permit loss, undervoltage or pulse end. -/
  | fieldReport (p : FieldReport)
  /-- INPUT_EVENT (R469). Internal admission of an INPUT_EVENT updates guard input state and counts. -/
  | inputEvent (entries : List InputEntry)
  /-- OUTPUT_SENSE (R461). Internal admission of OUTPUT_SENSE updates guard output currents and states. -/
  | outputSense (current : List (BitVec 20))
  /-- ANALOG_SENSE (R472). Internal admission of ANALOG_SENSE updates readings and limit status. -/
  | analogSense (reading : List (BitVec 20)) (ovr : Byte)
  /-- NET_STATUS (R171). Internal admission of NET_STATUS updates a port's state and counts. -/
  | netStatus (p : NetStatus)
  /-- FIELD_REPORT_PERIOD (R171). The field die sends FIELD_REPORT every 1 ms. -/
  | fieldReportPeriod
  /-- OUTPUT_SENSE_PERIOD (R455). The field die sends OUTPUT_SENSE every 10 ms. -/
  | outputSensePeriod (current : List (BitVec 20))
  /-- ANALOG_REPORT_PERIOD (R455). The field die sends ANALOG_SENSE once per analog report interval: the conversions of each input in it, not yet
  clamped, and which of them a calibration has replaced. -/
  | analogReportPeriod (samples : List (List Int)) (calibration : Option Nat)
  /-- NET_STATUS_PERIOD (R171). The field die sends NET_STATUS for each enabled port every 100 ms. -/
  | netStatusPeriod
  /-- GUARD_INPUT_SAMPLE (R467). Each 50 µs tick samples the guard inputs and updates filtered levels and events. -/
  | guardInputSample (levels : BitVec 16)
  /-- EVENT_WINDOW_CLOSE (R467). An input's event window closes, sending a chatter entry and any level event. -/
  | eventWindowClose (n : Fin 16)
  /-- STUCK_TIME_EXPIRY (R468). An input active for its stuck time sends 0x03 and enters STUCK. -/
  | stuckTimeExpiry (n : Fin 16)
  /-- PULSE_EXPIRY (R459). A pulsed guard output is turned off after its pulse time. -/
  | pulseExpiry (n : Fin 8)
  /-- OUTPUT_TRIP (R460). A guard output in current limit for 200 µs or overheating trips off. -/
  | outputTrip (n : Fin 8)
  /-- RETRY_INTERVAL_EXPIRY (R460). A tripped output is energised again after its retry interval. -/
  | retryIntervalExpiry (n : Fin 8)
  /-- FAULT_CLEAR_TIMER (R460). An output conducting 100 ms without trip clears its fault bit and retry count. -/
  | faultClearTimer (n : Fin 8)
  /-- PERMIT_TOGGLE_ABSENT (R463). The field die finds the permit toggle absent and cuts every guard output and PERMIT_OUT. -/
  | permitToggleAbsent
  /-- PERMIT_TOGGLE_LIVE (R177). The field die sees the permit toggle return and reports PERMIT_LIVE. -/
  | permitToggleLive
  /-- TOGGLE_RECORD_ADMISSION (R457). Internal admission records a start or stop of the permit toggle, clearing commands on a stop. -/
  | toggleRecordAdmission
  /-- VGUARD_UNDERVOLTAGE (R39). VGUARD below its falling threshold turns all guard outputs off and PERMIT_OUT low. -/
  | vguardUndervoltage (reading : BitVec 20)
  /-- VGUARD_RECOVERY (R42). VGUARD above its rising threshold lets PERMIT_OUT resume; outputs stay off. -/
  | vguardRecovery (reading : BitVec 20)
  /-- CAN_SINGLE (R147). A CAN FD SINGLE frame carrying a whole BDP message is checked and sent across the barrier. -/
  | canSingle (can : Fin 4) (node : Nat) (data : Bytes)
  /-- CAN_FIRST (R147). A CAN FD FIRST frame opens a reassembly context for a BDP message. -/
  | canFirst (can : Fin 4) (node : Nat) (data : Bytes)
  /-- CAN_CONSECUTIVE (R147). A CAN FD consecutive frame continues or completes a reassembly. -/
  | canConsecutive (can : Fin 4) (node : Nat) (data : Bytes)
  /-- CAN_CHANNEL_FRAME (R221). A CAN FD frame carrying an upstream channel frame is checked against its route and sent across. -/
  | canChannelFrame (can : Fin 4) (node : Nat) (data : Bytes)
  /-- REASSEMBLY_TIMEOUT (R149). More than 20 ms between frames of a message discards the reassembly. -/
  | reassemblyTimeout (can : Fin 4) (node : Nat)
  /-- BUS_OFF_AUTO_RECOVERY (R145). After 128 × 11 recessive bits a bus-off controller recovers automatically. -/
  | busOffAutoRecovery (can : Fin 4)
  /-- ETH_BDP_FRAME (R151). An Ethernet-class frame of kind BDP from a listed client is sent across the barrier. -/
  | ethBdpFrame (port : Fin 3) (frame : Bytes)
  /-- ETH_CHANNEL_FRAME (R151). An Ethernet-class frame carrying a channel frame is checked against its route and sent across. -/
  | ethChannelFrame (port : Fin 3) (frame : Bytes)
  /-- CORE_RESET_RELEASE (R37). Host rails in range for 2 ms release the core-die reset and start-up begins. -/
  | coreResetRelease
  /-- FIELD_RESET_RELEASE (R93). Field rails in range for 1 ms release the field-die reset and the field die starts. -/
  | fieldResetRelease
  /-- POWER_FAIL (R40). A host rail below its falling threshold stops admission and the toggle and lets commits in progress finish. -/
  | powerFail (rail : Rail)
  /-- POWER_FAIL_RESET (R40). When the commits in progress have completed the core die enters reset. -/
  | powerFailReset
  /-- FIELD_SUPPLY_FAIL (R39). A field rail below its falling threshold resets the field die. -/
  | fieldSupplyFail (rail : Rail)
  /-- RESET_N_ASSERT (R54). A RESET_N low pulse of 1 µs or longer resets the core die. -/
  | resetNAssert (width : PulseWidth)
  /-- RESET_N_RELEASE (R54). RESET_N rising lets the core die begin start-up from CLEAR. -/
  | resetNRelease
  /-- FRST_N_ASSERT (R54). An FRST_N low pulse of 1 µs or longer resets the field die. -/
  | frstNAssert (width : PulseWidth)
  /-- FRST_N_RELEASE (R54). FRST_N rising lets the field die start. -/
  | frstNRelease
  /-- FIELD_CLOCK_LOSS (R73). A lost field clock resets the field die. -/
  | fieldClockLoss
  /-- CLOCK_LOST (R73). A tempo, cipher or monitor clock without edges for 256 reference cycles, or an unlocked PLL, raises a RESET-class alarm. -/
  | clockLost (clock : LostClock)
  /-- LOCKSTEP_MISMATCH (R422). A lockstep compare mismatch resets the core die with cause LOCKSTEP. -/
  | lockstepMismatch
  /-- WATCHDOG_EXPIRY (R75). Firmware not servicing the watchdog for 50 ms resets the core die. -/
  | watchdogExpiry
  /-- STAGE_OVERRUN (R81). A start-up stage that overruns its maximum raises the watchdog reset. -/
  | stageOverrun
  /-- DEFERRED_CORE_RESET (R80). A core-die reset requested, activated, retired or partner-ordered begins 1 ms after its release. -/
  | deferredCoreReset
  /-- DEFERRED_FIELD_RESET (R80). A requested field-die reset begins 1 ms after its release. -/
  | deferredFieldReset
  /-- CLEAR_STAGE (R81). Start-up clears SRAM, reads fuses, decodes lifecycle and starts the Fumaroles. -/
  | clearStage
  /-- CLOCKS_STAGE (R81). Start-up locks the tempo PLL and runs known-answer tests. -/
  | clocksStage (katOk : Bool)
  /-- FIRMWARE_STAGE (R85). Start-up selects and verifies a firmware image, falling back or halting. -/
  | firmwareStage
  /-- RECOVER_STAGE (R87). Once firmware is verified and seeding complete, start-up completes or discards commits and sets admission number and device time. -/
  | recoverStage
  /-- TAMPER_EVAL_STAGE (R497). Start-up applies the Sinter log and latch and performs the start-up admission. -/
  | tamperEvalStage
  /-- APPLETS_STAGE (R91). Start-up checks each applet image against its install digest. -/
  | appletsStage
  /-- BARRIER_STAGE (R91). Start-up brings the barrier up with a new link key. -/
  | barrierStage
  /-- MODES_STAGE (R91). Start-up restores the mode word and enters READY or TAMPER_HELD. -/
  | modesStage
  /-- CONDITIONED_BLOCK (R370). The conditioner produces a full-entropy block into the seed pool. -/
  | conditionedBlock (raw : BitVec 512)
  /-- TILLER_INSTANTIATE (R380). A tiller is instantiated from conditioned blocks. -/
  | tillerInstantiate (t : Fin 64)
  /-- TILLER_RESEED (R374). A tiller reseeds after 2^20 generate requests. -/
  | tillerReseed (t : Fin 64)
  /-- TILLER_REFILL (R377). A tiller refills its output buffer with a 512-byte generate. -/
  | tillerRefill (t : Fin 64)
  /-- BALANCE_WINDOW (R367). Each 4,096-bit window moves a Fumarole's bias trim toward balance. -/
  | balanceWindow (f : Fin 4) (ones : Nat)
  /-- ENTROPY_FAILURE (R388). A failed health test stops and zeroises the conditioner, seed pool, tillers and unclaimed masks. -/
  | entropyFailure (cause : EntropyTest) (f : Fin 4)
  /-- ENTROPY_FAILURE_ADMISSION (R388). Internal admission sets the entropy state to FAILED and records the cause. -/
  | entropyFailureAdmission
  /-- DEVICE_TIME_TICK (R182). Device time advances by 1 µs every 400 tc. -/
  | deviceTimeTick
  /-- RESPONSE_RELEASE (R186). An admitted request's response is released exactly at admission plus its class latency. -/
  | responseRelease (id : Nat)
  /-- HEARTBEAT_DUE (R239). Device time reaches a channel's heartbeat due time and a heartbeat send is queued. -/
  | heartbeatDue (n : Fin 32768) (phys : Phys)
  /-- SWITCH_ADMISSION (R225). 3,200 tc after an Open or rekey, the switch admission adopts the new epoch and sends OPEN or REKEY. -/
  | switchAdmission (n : Fin 32768) (phys : Phys)
  /-- FORCED_REKEY (R226). A channel sequence at 0xFFFF_0000 or above starts a rekey through an internal admission. -/
  | forcedRekey (n : Under (Fin 32768))
  /-- HELLO_REKEY (R227). An authenticated endpoint HELLO starts a rekey through an internal admission. -/
  | helloRekey (n : Under (Fin 32768))
  /-- CUT_ADMISSION (R237). Internal admission withholds or taints the work of a cut set after an epoch bump. -/
  | cutAdmission
  /-- QUEUED_SEND (R232). A DATA send queued by a Send object is admitted in the channel-frame class. -/
  | queuedSend (n : Fin 32768) (phys : Phys)
  /-- OPEN_AT_STARTUP (R249). At READY each CLOSED channel whose template says so is opened by internal admission. -/
  | openAtStartup (n : Under (Fin 32768))
  /-- TIME_CHECKPOINT (R87). Once per second of device time an internal admission checkpoints device time and the Sinter counter. -/
  | timeCheckpoint
  /-- STATISTICS_ADMISSION (R143). One internal admission per millisecond carries changed statistics into the dictionary. -/
  | statisticsAdmission
  /-- PROVISION_LAPSE (R506). At the lapse time an internal admission clears PROVISION. -/
  | provisionLapse
  /-- ISLAND_CLOSE (R505). The host link stops answering when its queue empties or 100 ms after ISLAND was set. -/
  | islandClose
  /-- BACKGROUND_WINDOW (R192). Every 16th window of a shared unit runs scrub, calibration, relocation or fixed-vector checks. -/
  | backgroundWindow (work : BackWork)
  /-- BACKGROUND_REPORT (R193). Internal admission carries a background result such as a relocation or engine status. -/
  | backgroundReport
  /-- STORE_FAULT_REPORT (R194). Internal admission reports an uncorrectable store word found by scrub and mends it. -/
  | storeFaultReport
  /-- TELEMETRY_ADMISSION (R568). At each telemetry interval an internal admission carries monitor-ADC values. -/
  | telemetryAdmission (temp vcore vddah vddps vddio vlvds : BitVec 20)
  /-- SENSOR_EVENT (R479). A tamper sensor event is filtered and may fire the sensor at its class. -/
  | sensorEvent (code : Byte) (reading : BitVec 20)
  /-- TAMPER_LATCH_COMMIT (R487). After commits in progress end, the tamper latch word is committed and the core-die reset asserted. -/
  | tamperLatchCommit
  /-- SENSOR_WINDOW_EXPIRY (R479). A FIRED sensor returns to CLEAR after its window without an event. -/
  | sensorWindowExpiry (code : Byte)
  /-- SUPPLY_WINDOW_HOLD (R476). A low-side supply-window fire is acted on after 500 µs unless power loss intervened. -/
  | supplyWindowHold (code : Byte)
  /-- LID_MESH_COMPARE (R477). Every 1 µs a new lid-mesh pattern is driven and the sensed pattern compared. -/
  | lidMeshCompare (sensed : BitVec 16)
  /-- ENCLOSURE_MESH_COMPARE (R478). Every 10 µs an enclosure mesh pattern is compared. -/
  | enclosureMeshCompare (m : Fin 4) (sensed : BitVec 16)
  /-- CLOCK_WINDOW_CHECK (R72). Each 4,096-cycle window compares a clock's edge count with its reference. -/
  | clockWindowCheck (row : Fin 5) (count : Nat)
  /-- TAMPER_ADMISSION (R485). Internal admission records a NOTE or CHECK fire and updates the alarm object. -/
  | tamperAdmission
  /-- SINTER_MESH_CHECK (R493). Every 8 ms the Sinter domain checks the meshes. -/
  | sinterMeshCheck (lid m0 m1 m2 m3 : BitVec 16)
  /-- SINTER_LIGHT_CHECK (R493). Every 32 ms the Sinter domain checks the light sensor. -/
  | sinterLightCheck (reading : BitVec 20)
  /-- SINTER_TEMP_CHECK (R493). Every 1 s the Sinter domain checks core die temperature. -/
  | sinterTempCheck (reading : BitVec 20)
  /-- POWER_STATE_CHOICE (R517). With nothing pending the device enters the deepest power state that fits the next known event. -/
  | powerStateChoice
  /-- SCHEDULED_WAKE (R517). The device wakes in time for the next known event. -/
  | scheduledWake
  /-- WAKE_REQUEST (R520). Two IDLE cells less than 1 µs apart wake the core die. -/
  | wakeRequest
  /-- HIBERNATE_HELLO_TIMER (R522). While a request is pending during HIBERNATE the field die sends a HELLO with B = 0 every 1 ms. -/
  | hibernateHelloTimer
  /-- HIBERNATE_WAKE (R523). Wake from HIBERNATE restores the image and brings the barrier up, or becomes a full start-up. -/
  | hibernateWake (readable : Bool)
  /-- SHEAF_FRAME_RECEIVE (R528). A Sheaf frame is accepted in counter order and its acknowledgement applied, or dropped. -/
  | sheafFrameReceive (frame : Under Bytes)
  /-- SHEAF_RESEND (R528). Unacknowledged frames are resent when Ack through has not advanced for 4 µs. -/
  | sheafResend
  /-- SHEAF_IDLE (R528). An empty SEALED frame is sent after 2 µs without sending. -/
  | sheafIdle
  /-- SHEAF_LINK_LOSS (R528). 20 µs without a frame, 8 resends, lost lock or VDD_LVDS low declare the partner lost. -/
  | sheafLinkLoss (cause : LinkLossCause)
  /-- SHEAF_DEADLINE (R546). A VERDICT, COMMIT_ACK or DIGEST not arrived by its deadline is partner loss. -/
  | sheafDeadline (adm : Nat)
  /-- SHEAF_HELLO (R532). A join HELLO from the partner is checked for partner number, firmware and revision. -/
  | sheafHello (m : JoinHello)
  /-- PROOF (R532). The partner's join proof is checked and the link key installed. -/
  | sheafProof (proof : Under Bytes)
  /-- ADMIT (R539). The follower executes the leader's admission in admission order. -/
  | sheafAdmit (m : AdmitMsg)
  /-- REQUEST (R539). A follower-homed request enters the leader's sequencer. -/
  | sheafRequest (origin : Nat) (kind : Byte) (payload : Bytes)
  /-- REFUSAL (R539). The follower answers a requester refused before admission on the leader. -/
  | sheafRefusal (origin : Nat) (code : Word) (header : Bytes)
  /-- DIGEST (R547). The partner's result digest is compared with the unit's own. -/
  | sheafDigest (adm : Nat) (digest : Bytes)
  /-- COMMIT_ACK (R545). The partner's counter commit is confirmed so the result can be released. -/
  | commitAck (adm : Nat) (code : Word)
  /-- VERDICT (R541). The non-executor applies the executor's outcome, digests and delivered data. -/
  | verdict (m : VerdictMsg)
  /-- READ_RELAY (R544). A read relayed by the partner is ordered and executed on this unit. -/
  | readRelay (origin : Nat) (request : Bytes)
  /-- READ_RESULT (R544). A relayed read's response is released to the requester. -/
  | readResult (origin : Nat) (response : Bytes)
  /-- SYNC (R536). A transferred mirrored item is applied during a join. -/
  | sync (kind : Byte) (item : Nat) (stamp : Nat) (value : Bytes)
  /-- SYNC_END (R536). A transfer pass ends. -/
  | syncEnd (pass : Byte) (items : Nat)
  /-- TRANSFER_PASS (R536). The leader sends the items marked in its dirty map during the previous pass. -/
  | transferPass
  /-- CUT_OVER (R538). The first common admission sets JOINED and SHEAF on both units. -/
  | cutOver
  /-- AUTO_JOIN (R533). At READY with SHEAF restored the device starts a join itself. -/
  | autoJoin
  /-- PARTITION_ADMISSION (R550). On partner loss an internal admission sets PARTNER_LOST and marks unmirrored counters. -/
  | partitionAdmission
  /-- SUSPENSION_ADMISSION (R548). On a digest mismatch an internal admission suspends the pair. -/
  | suspensionAdmission
  /-- VBAT_LOSS (R45). VBAT falls below 1.80 V while VDDA_H is absent, so the Sinter key, log and real-time counter are lost and the loss is flagged for the next power-up. -/
  | vbatLoss
  /-- NET_STATE_CHANGE (R171). A field network port changes state (CAN error active, error passive or bus-off, T1S PLCA beacon, 100BASE-TX link and auto-negotiation result), and the field die sends NET_STATUS at once. -/
  | netStateChange (port : Fin 7) (state tec recv : Byte)
  /-- PERMIT_OUT_HALF_PERIOD (R464). Each 500 µs of field time while PERMIT_OUT runs, the field die flips the PERMIT_OUT level, starting with a high half-period at the next whole millisecond after the GUARD_SET. -/
  | permitOutHalfPeriod
  /-- JOIN_TIMEOUT (R534). A join whose lanes are not trained within 1 ms, whose HELLO does not arrive within 100 ms, or whose transfer has not reached cut-over by 1,950 ms fails, and both units return to their state before the join. -/
  | joinTimeout
  /-- CACHE_FILL (R262). KHU completes filling a level-1 or level-2 node into the key-node cache on a lane, which lets the waiting request be admitted and counts a cache fill. -/
  | cacheFill (node : BitVec 16)
  /-- MASK_RESERVE_REFILL (R252). A lane refills its reserve of 4,096 block masks from whichever of its tillers 0-11 has output ready. -/
  | maskReserveRefill (lane : Fin 2) (t : Fin 12)
deriving DecidableEq, Repr

end Sys2Proof
end

