-- ==== Sys2Proof/Decode.lean ====
section
/-! DEFINITION. Decoding of opcode-table words. No row of spec/opcode_table.json gives bits: commands reach the block as events
and messages, whose own bytes the meanings read (R103, R134, R163, R527). -/

namespace Sys2Proof

/-- The command that a table word spells: none, since the table gives no row bits. -/
def decodeTableWord (_nbits _w : Nat) : Option Instr := none

end Sys2Proof
end

