-- ==== Sys2Proof/Machine/Operands.lean ====
section
/-! DEFINITION. The instruction encodings of the applet cores (R424): RV32I, M and C, from the encodings that the RISC-V
names of R424 stand for, with each row of the command table as the instruction decoded. -/

namespace Sys2Proof.Machine

/-- What an encoding spells. -/
inductive RvI where
  | insn (i : Instr)
  | ecall
  | illegal
deriving DecidableEq, Repr

namespace Rv

/-- n bits of w from bit a up. -/
def bits (w a n : Nat) : Nat := w / 2 ^ a % 2 ^ n

/-- Register field of 5 bits at bit a, and of 3 bits (x8 to x15). -/
def reg (w a : Nat) : Fin 32 := Fin.ofNat 32 (bits w a 5)
def regC (w a : Nat) : Fin 32 := Fin.ofNat 32 (8 + bits w a 3)

def immI (w : Nat) : BitVec 12 := BitVec.ofNat 12 (bits w 20 12)
def immS (w : Nat) : BitVec 12 := BitVec.ofNat 12 (bits w 25 7 * 32 + bits w 7 5)
def immB (w : Nat) : BitVec 13 := BitVec.ofNat 13 (bits w 31 1 * 4096 + bits w 7 1 * 2048 + bits w 25 6 * 32 + bits w 8 4 * 2)
def immJ (w : Nat) : BitVec 21 :=
  BitVec.ofNat 21 (bits w 31 1 * 1048576 + bits w 12 8 * 4096 + bits w 20 1 * 2048 + bits w 21 10 * 2)
def immU (w : Nat) : BitVec 20 := BitVec.ofNat 20 (bits w 12 20)

/-- The OP group by funct7 and funct3. -/
def decodeOp (c : Fin 32) (w : Nat) : RvI :=
  let rd := reg w 7
  let a := reg w 15
  let b := reg w 20
  match bits w 25 7, bits w 12 3 with
  | 0, 0 => .insn (.add c rd a b)
  | 0x20, 0 => .insn (.sub c rd a b)
  | 0, 1 => .insn (.sll c rd a b)
  | 0, 2 => .insn (.slt c rd a b)
  | 0, 3 => .insn (.sltu c rd a b)
  | 0, 4 => .insn (.xor c rd a b)
  | 0, 5 => .insn (.srl c rd a b)
  | 0x20, 5 => .insn (.sra c rd a b)
  | 0, 6 => .insn (.or c rd a b)
  | 0, 7 => .insn (.and c rd a b)
  | 1, 0 => .insn (.mul c rd a b)
  | 1, 1 => .insn (.mulh c rd a b)
  | 1, 2 => .insn (.mulhsu c rd a b)
  | 1, 3 => .insn (.mulhu c rd a b)
  | 1, 4 => .insn (.div c rd a b)
  | 1, 5 => .insn (.divu c rd a b)
  | 1, 6 => .insn (.rem c rd a b)
  | 1, 7 => .insn (.remu c rd a b)
  | _, _ => .illegal

/-- The OP-IMM group. -/
def decodeImm (c : Fin 32) (w : Nat) : RvI :=
  let rd := reg w 7
  let a := reg w 15
  let i := immI w
  let sh := BitVec.ofNat 5 (bits w 20 5)
  match bits w 12 3 with
  | 0 => .insn (.addi c rd a i)
  | 1 => if bits w 25 7 = 0 then .insn (.slli c rd a sh) else .illegal
  | 2 => .insn (.slti c rd a i)
  | 3 => .insn (.sltiu c rd a i)
  | 4 => .insn (.xori c rd a i)
  | 5 => if bits w 25 7 = 0 then .insn (.srli c rd a sh) else if bits w 25 7 = 0x20 then .insn (.srai c rd a sh) else .illegal
  | 6 => .insn (.ori c rd a i)
  | _ => .insn (.andi c rd a i)

/-- A 32-bit encoding. -/
def decode32 (c : Fin 32) (w : Nat) : RvI :=
  let rd := reg w 7
  let a := reg w 15
  let b := reg w 20
  match bits w 0 7 with
  | 0x37 => .insn (.lui c rd (immU w))
  | 0x17 => .insn (.auipc c rd (immU w))
  | 0x6F => .insn (.jal c rd (immJ w))
  | 0x67 => if bits w 12 3 = 0 then .insn (.jalr c rd a (immI w)) else .illegal
  | 0x63 =>
    match bits w 12 3 with
    | 0 => .insn (.beq c a b (immB w))
    | 1 => .insn (.bne c a b (immB w))
    | 4 => .insn (.blt c a b (immB w))
    | 5 => .insn (.bge c a b (immB w))
    | 6 => .insn (.bltu c a b (immB w))
    | 7 => .insn (.bgeu c a b (immB w))
    | _ => .illegal
  | 0x03 =>
    match bits w 12 3 with
    | 0 => .insn (.lb c rd a (immI w))
    | 1 => .insn (.lh c rd a (immI w))
    | 2 => .insn (.lw c rd a (immI w))
    | 4 => .insn (.lbu c rd a (immI w))
    | 5 => .insn (.lhu c rd a (immI w))
    | _ => .illegal
  | 0x23 =>
    match bits w 12 3 with
    | 0 => .insn (.sb c a b (immS w))
    | 1 => .insn (.sh c a b (immS w))
    | 2 => .insn (.sw c a b (immS w))
    | _ => .illegal
  | 0x13 => decodeImm c w
  | 0x33 => decodeOp c w
  | 0x0F => if bits w 12 3 = 0 then .insn (.fence c) else .illegal
  | 0x73 => if w = 0x73 then .ecall else .illegal
  | _ => .illegal

def immC6 (w : Nat) : BitVec 6 := BitVec.ofNat 6 (bits w 12 1 * 32 + bits w 2 5)
def uimm4spn (w : Nat) : BitVec 10 := BitVec.ofNat 10 (bits w 11 2 * 16 + bits w 7 4 * 64 + bits w 6 1 * 4 + bits w 5 1 * 8)
def uimmW (w : Nat) : BitVec 7 := BitVec.ofNat 7 (bits w 10 3 * 8 + bits w 6 1 * 4 + bits w 5 1 * 64)
def offJ (w : Nat) : BitVec 12 :=
  BitVec.ofNat 12 (bits w 12 1 * 2048 + bits w 11 1 * 16 + bits w 9 2 * 256 + bits w 8 1 * 1024 + bits w 7 1 * 64 + bits w 6 1 * 128 +
    bits w 3 3 * 2 + bits w 2 1 * 32)
def imm16sp (w : Nat) : BitVec 10 :=
  BitVec.ofNat 10 (bits w 12 1 * 512 + bits w 6 1 * 16 + bits w 5 1 * 64 + bits w 3 2 * 128 + bits w 2 1 * 32)
def offB (w : Nat) : BitVec 9 :=
  BitVec.ofNat 9 (bits w 12 1 * 256 + bits w 10 2 * 8 + bits w 5 2 * 64 + bits w 3 2 * 2 + bits w 2 1 * 32)
def uimmLwsp (w : Nat) : BitVec 8 := BitVec.ofNat 8 (bits w 12 1 * 32 + bits w 4 3 * 4 + bits w 2 2 * 64)
def uimmSwsp (w : Nat) : BitVec 8 := BitVec.ofNat 8 (bits w 9 4 * 4 + bits w 7 2 * 64)

/-- Quadrant 0. -/
def decodeQ0 (c : Fin 32) (w : Nat) : RvI :=
  match bits w 13 3 with
  | 0 => if uimm4spn w = 0 then .illegal else .insn (.cAddi4spn c (regC w 2) (uimm4spn w))
  | 2 => .insn (.cLw c (regC w 2) (regC w 7) (uimmW w))
  | 6 => .insn (.cSw c (regC w 7) (regC w 2) (uimmW w))
  | _ => .illegal

/-- Quadrant 1. -/
def decodeQ1 (c : Fin 32) (w : Nat) : RvI :=
  let rd := reg w 7
  match bits w 13 3 with
  | 0 => if rd = 0 then .insn (.cNop c) else .insn (.cAddi c rd (immC6 w))
  | 1 => .insn (.cJal c (offJ w))
  | 2 => .insn (.cLi c rd (immC6 w))
  | 3 =>
    if immC6 w = 0 then .illegal
    else if rd = 2 then .insn (.cAddi16sp c (imm16sp w)) else .insn (.cLui c rd (immC6 w))
  | 4 =>
    let rc := regC w 7
    match bits w 10 2 with
    | 0 => if bits w 12 1 = 1 then .illegal else .insn (.cSrli c rc (immC6 w))
    | 1 => if bits w 12 1 = 1 then .illegal else .insn (.cSrai c rc (immC6 w))
    | 2 => .insn (.cAndi c rc (immC6 w))
    | _ =>
      if bits w 12 1 = 1 then .illegal
      else match bits w 5 2 with
        | 0 => .insn (.cSub c rc (regC w 2))
        | 1 => .insn (.cXor c rc (regC w 2))
        | 2 => .insn (.cOr c rc (regC w 2))
        | _ => .insn (.cAnd c rc (regC w 2))
  | 5 => .insn (.cJ c (offJ w))
  | 6 => .insn (.cBeqz c (regC w 7) (offB w))
  | _ => .insn (.cBnez c (regC w 7) (offB w))

/-- Quadrant 2. -/
def decodeQ2 (c : Fin 32) (w : Nat) : RvI :=
  let rd := reg w 7
  let rs2 := reg w 2
  match bits w 13 3 with
  | 0 => if bits w 12 1 = 1 then .illegal else .insn (.cSlli c rd (immC6 w))
  | 2 => if rd = 0 then .illegal else .insn (.cLwsp c rd (uimmLwsp w))
  | 4 =>
    if bits w 12 1 = 0 then
      if rs2 = 0 then (if rd = 0 then .illegal else .insn (.cJr c rd)) else .insn (.cMv c rd rs2)
    else if rs2 = 0 then (if rd = 0 then .illegal else .insn (.cJalr c rd)) else .insn (.cAdd c rd rs2)
  | 6 => .insn (.cSwsp c rs2 (uimmSwsp w))
  | _ => .illegal

/-- Whether an encoding takes 4 bytes. -/
def isLong (w : Nat) : Bool := decide (w % 4 = 3)

/-- The instruction of cell c that an encoding spells; a compressed one lies in the low 16 bits. -/
def decode (c : Fin 32) (w : Nat) : RvI :=
  match w % 4 with
  | 0 => decodeQ0 c (w % 65536)
  | 1 => decodeQ1 c (w % 65536)
  | 2 => decodeQ2 c (w % 65536)
  | _ => decode32 c w

end Rv

end Sys2Proof.Machine
end

