-- ==== Sys2Proof/Config.lean ====
section
/-! DEFINITION. What one device fixes (fuses, boot ROM, factory values) and the free values: constants without a body,
so that nothing can be proved from a value the spec does not give. -/

namespace Sys2Proof.Config

/-- The 256-bit device root secret in OTP (R317, R354). The spec gives no value. -/
opaque uds : Bytes
/-- 0x1000.03 Serial number, 16 bytes, unique per device (R132). -/
opaque serial : Bytes
/-- 0x1F00.01 Field die serial, 16 bytes, unique per field die (R160). -/
opaque fieldSerial : Bytes
/-- 0x1F00.02 Field ROM version (R160). -/
opaque fieldRomVersion : Nat
/-- The 4 bytes of the factory MAC addresses that no rule gives (R157). -/
opaque macBody : Nat
/-- Factory MAC address of an Ethernet-class port, 0 T1S 0, 1 T1S 1, 2 100BASE-TX (R157): the first byte is 0x02, so the address
is unicast and locally administered, and the last byte tells the ports apart (log 93). -/
def factoryMac (p : Nat) : Bytes := [0x02] ++ (List.range 4).map (fun i => BitVec.ofNat 8 (macBody / 256 ^ i)) ++ [BitVec.ofNat 8 p]
/-- ML-DSA-65 public key under which firmware images verify, by its digest in boot ROM (R85). -/
opaque lemganFirmwareKey : Bytes
/-- 0xD100.05 Lemgan applet key (R437). -/
opaque lemganAppletKey : Bytes
/-- 0xCA10.05 Lemgan endorsement (R360, R364). -/
opaque endorsement : Bytes
/-- The firmware image shipped in slot A (R11, R129). -/
opaque shippedImage : Bytes
/-- The fixed public conditioning key in boot ROM (R370). -/
opaque conditioningKey : Bytes
/-- The bytes with which an internal admission enters the AUDIT log, by admission kind and its numbers: R203 says that the
payload is the admitted request, and no rule lays it out for internal admissions. -/
opaque internalPayload : Nat → List Nat → Bytes
/-- The header bytes that an empty image slot shows (R128): no rule gives the contents of an erased slot. -/
opaque erasedHeader : Bytes
/-- Which of two codes refuses Recover owner and Service retire outside CALDERA (R355 states no code): ABT_MODE, or
ABT_VALUE_CONFLICT. -/
opaque outsideCaldera : Bool
/-- What the field die reads of itself (R161): VGUARD at kind 0 and its temperature at kind 1, as S20, at its n-th reading. -/
opaque fieldReading : Nat → Nat → BitVec 20
/-- How many events an occupancy counter of R555 adds at one tick, by block,
counter and the model's own draw number. -/
opaque freeCount : Nat → Nat → Nat → Nat
/-- The 16-bit mesh pattern of the Sinter pattern generator, a 64-bit LFSR whose taps no rule gives (R477), from its state. -/
opaque lfsrNext : BitVec 64 → BitVec 64
/-- Whether the dictionary entries of an admission end a lap of the dictionary log (0xDC20.07), by subindex
and admission number: no rule gives the length of an entry (R397). -/
opaque lapEnds : Nat → Nat → Bool
/-- The free value drawn n-th by the model, of the width asked: a number that the spec leaves open. -/
opaque freeValue : Nat → Nat → Nat

end Sys2Proof.Config
end

