-- ==== Sys2Proof/Machine/Sha.lean ====
section
/-! DEFINITION. SHA-256, SHA-384 and SHA-512 (FIPS 180-4), SHA3-256 and the SHAKE functions (FIPS 202), HMAC
(FIPS 198-1), as R258, R282, R283, R284 and R290 name them, and the byte-order helpers they share. -/

namespace Sys2Proof.Machine

/-- n zero bytes. -/
def zeros (n : Nat) : Bytes := List.replicate n 0

/-- The low n bytes of x, least significant first (R6). -/
def leBytes : Nat → Nat → Bytes
  | 0, _ => []
  | n + 1, x => BitVec.ofNat 8 x :: leBytes n (x / 256)

/-- The low n bytes of x, most significant first (R6). -/
def beBytes (n x : Nat) : Bytes := (leBytes n x).reverse

/-- The number that bytes spell least significant first. -/
def leNat : Bytes → Nat
  | [] => 0
  | b :: bs => b.toNat + 256 * leNat bs

/-- The number that bytes spell most significant first. -/
def beNat (b : Bytes) : Nat := leNat b.reverse

/-- A byte string cut into pieces of n bytes, by fuel. -/
def chunksAux (n : Nat) : Nat → Bytes → List Bytes
  | 0, _ => []
  | f + 1, b => if b.isEmpty then [] else b.take n :: chunksAux n f (b.drop n)

/-- A byte string cut into pieces of n bytes, the last possibly shorter. -/
def chunks (n : Nat) (b : Bytes) : List Bytes := chunksAux n b.length b

/-- Bytewise exclusive or, of the shorter length. -/
def xorBytes (a b : Bytes) : Bytes := List.zipWith (fun x y => x ^^^ y) a b

/-- b cut or zero-filled to n bytes. -/
def fitBytes (n : Nat) (b : Bytes) : Bytes := (b ++ zeros (n - b.length)).take n

namespace Sha

/-- n words of 64 bits, the first one highest. -/
def words : Nat → Nat → List Nat
  | 0, _ => []
  | n + 1, x => x / 2 ^ (64 * n) % 2 ^ 64 :: words n x

/-- The first 64 bits behind the point of the cube roots of the first 80 primes, 8 words to a numeral. The first 32 bits of the first 64
are the constants of SHA-256. -/
def cubeRoots : List Nat := [
  0x428A2F98D728AE227137449123EF65CDB5C0FBCFEC4D3B2FE9B5DBA58189DBBC3956C25BF348B53859F111F1B605D019923F82A4AF194F9BAB1C5ED5DA6D8118,
  0xD807AA98A303024212835B0145706FBE243185BE4EE4B28C550C7DC3D5FFB4E272BE5D74F27B896F80DEB1FE3B1696B19BDC06A725C71235C19BF174CF692694,
  0xE49B69C19EF14AD2EFBE4786384F25E30FC19DC68B8CD5B5240CA1CC77AC9C652DE92C6F592B02754A7484AA6EA6E4835CB0A9DCBD41FBD476F988DA831153B5,
  0x983E5152EE66DFABA831C66D2DB43210B00327C898FB213FBF597FC7BEEF0EE4C6E00BF33DA88FC2D5A79147930AA72506CA6351E003826F142929670A0E6E70,
  0x27B70A8546D22FFC2E1B21385C26C9264D2C6DFC5AC42AED53380D139D95B3DF650A73548BAF63DE766A0ABB3C77B2A881C2C92E47EDAEE692722C851482353B,
  0xA2BFE8A14CF10364A81A664BBC423001C24B8B70D0F89791C76C51A30654BE30D192E819D6EF5218D69906245565A910F40E35855771202A106AA07032BBD1B8,
  0x19A4C116B8D2D0C81E376C085141AB532748774CDF8EEB9934B0BCB5E19B48A8391C0CB3C5C95A634ED8AA4AE3418ACB5B9CCA4F7763E373682E6FF3D6B2B8A3,
  0x748F82EE5DEFB2FC78A5636F43172F6084C87814A1F0AB728CC702081A6439EC90BEFFFA23631E28A4506CEBDE82BDE9BEF9A3F7B2C67915C67178F2E372532B,
  0xCA273ECEEA26619CD186B8C721C0C207EADA7DD6CDE0EB1EF57D4F7FEE6ED17806F067AA72176FBA0A637DC5A2C898A6113F9804BEF90DAE1B710B35131C471B,
  0x28DB77F523047D8432CAAB7B40C724933C9EBE0A15C9BEBC431D67C49C100D4C4CC5D4BECB3E42B6597F299CFC657E2A5FCB6FAB3AD6FAEC6C44198C4A475817]

def k512 : List Nat := cubeRoots.flatMap (words 8)

/-- The first 64 bits behind the point of the square roots of the first 8 primes, and of the next 8. -/
def squareRoots : Nat := 0x6A09E667F3BCC908BB67AE8584CAA73B3C6EF372FE94F82BA54FF53A5F1D36F1510E527FADE682D19B05688C2B3E6C1F1F83D9ABFB41BD6B5BE0CD19137E2179
def squareRoots2 : Nat := 0xCBBB9D5DC1059ED8629A292A367CD5079159015A3070DD17152FECD8F70E593967332667FFC00B318EB44A8768581511DB0C2E0D64F98FA747B5481DBEFA4FA4

def iv512 : List Nat := words 8 squareRoots
def iv384 : List Nat := words 8 squareRoots2
def iv256 : List Nat := iv512.map (· / 2 ^ 32)

/-- The parameters that tell SHA-256 from SHA-384 and SHA-512: word width, block length, rounds, constants, rotations. -/
structure Params where
  w : Nat
  block : Nat
  rounds : List Nat
  s0 : Nat × Nat × Nat
  s1 : Nat × Nat × Nat
  e0 : Nat × Nat × Nat
  e1 : Nat × Nat × Nat

def p256 : Params := ⟨32, 64, (k512.take 64).map (· / 2 ^ 32), (7, 18, 3), (17, 19, 10), (2, 13, 22), (6, 11, 25)⟩
def p512 : Params := ⟨64, 128, k512, (1, 8, 7), (19, 61, 6), (28, 34, 39), (14, 18, 41)⟩

/-- Rotation right by n within w bits. -/
def rotr (w n x : Nat) : Nat := (x >>> n ||| x <<< (w - n)) % 2 ^ w

def sig (w : Nat) (r : Nat × Nat × Nat) (x : Nat) : Nat := rotr w r.1 x ^^^ rotr w r.2.1 x ^^^ (x >>> r.2.2)
def big (w : Nat) (r : Nat × Nat × Nat) (x : Nat) : Nat := rotr w r.1 x ^^^ rotr w r.2.1 x ^^^ rotr w r.2.2 x

/-- The rounds, over a sliding window of the last 16 schedule words, oldest first. -/
def roundsGo (p : Params) : List Nat → List Nat → List Nat → List Nat
  | [], _, st => st
  | k :: ks, win, st =>
    let m := 2 ^ p.w
    let w0 := win.headD 0
    let nxt := (sig p.w p.s1 (win.getD 14 0) + win.getD 9 0 + sig p.w p.s0 (win.getD 1 0) + w0) % m
    match st with
    | [a, b, c, d, e, f, g, h] =>
      let t1 := (h + big p.w p.e1 e + ((e &&& f) ^^^ ((m - 1 - e) &&& g)) + k + w0) % m
      let t2 := (big p.w p.e0 a + ((a &&& b) ^^^ (a &&& c) ^^^ (b &&& c))) % m
      roundsGo p ks (win.tail ++ [nxt]) [(t1 + t2) % m, a, b, c, (d + t1) % m, e, f, g]
    | other => other

/-- One block of the compression function. -/
def compress (p : Params) (st : List Nat) (blk : Bytes) : List Nat :=
  let win := (chunks (p.w / 8) blk).map beNat
  List.zipWith (fun x y => (x + y) % 2 ^ p.w) st (roundsGo p p.rounds win st)

/-- The padding appended after len message bytes (R283). -/
def pad (p : Params) (len : Nat) : Bytes :=
  let lf := p.w / 4
  let z := (2 * p.block - (len + 1 + lf) % p.block) % p.block
  [0x80] ++ zeros z ++ beBytes lf (8 * len)

/-- The running hash words after whole blocks. -/
def absorb (p : Params) (st : List Nat) (b : Bytes) : List Nat := (chunks p.block b).foldl (compress p) st

/-- The hash words as bytes. -/
def out (p : Params) (st : List Nat) : Bytes := st.flatMap (beBytes (p.w / 8))

def hash (p : Params) (iv : List Nat) (n : Nat) (m : Bytes) : Bytes :=
  (out p (absorb p iv (m ++ pad p m.length))).take n

/-- The 24 round constants of Keccak-f[1600]. -/
def keccakRc : List (BitVec 64) := [
  0x0000000000000001, 0x0000000000008082, 0x800000000000808A, 0x8000000080008000, 0x000000000000808B, 0x0000000080000001,
  0x8000000080008081, 0x8000000000008009, 0x000000000000008A, 0x0000000000000088, 0x0000000080008009, 0x000000008000000A,
  0x000000008000808B, 0x800000000000008B, 0x8000000000008089, 0x8000000000008003, 0x8000000000008002, 0x8000000000000080,
  0x000000000000800A, 0x800000008000000A, 0x8000000080008081, 0x8000000000008080, 0x0000000080000001, 0x8000000080008008]

/-- Rotation offsets of rho by lane x + 5y. -/
def rho : List Nat := [0, 1, 62, 28, 27, 36, 44, 6, 55, 20, 3, 10, 43, 25, 39, 41, 45, 15, 21, 8, 18, 2, 61, 56, 14]

/-- One round of Keccak-f[1600] over 25 lanes, lane x + 5y. -/
def keccakRound (a : List (BitVec 64)) (rc : BitVec 64) : List (BitVec 64) :=
  let g := fun i => a.getD i 0
  let c := (List.range 5).map fun x => g x ^^^ g (x + 5) ^^^ g (x + 10) ^^^ g (x + 15) ^^^ g (x + 20)
  let d := (List.range 5).map fun x => c.getD ((x + 4) % 5) 0 ^^^ (c.getD ((x + 1) % 5) 0).rotateLeft 1
  let r := (List.range 25).map fun i => (g i ^^^ d.getD (i % 5) 0).rotateLeft (rho.getD i 0)
  -- pi: lane (x, y) takes lane (x + 3y, x)
  let b := (List.range 25).map fun i => r.getD ((i % 5 + 3 * (i / 5)) % 5 + 5 * (i % 5)) 0
  let e := (List.range 25).map fun i =>
    let y := 5 * (i / 5)
    b.getD i 0 ^^^ (~~~ (b.getD (y + (i + 1) % 5) 0) &&& b.getD (y + (i + 2) % 5) 0)
  match e with
  | [] => []
  | h :: t => (h ^^^ rc) :: t

def keccakF (a : List (BitVec 64)) : List (BitVec 64) := keccakRc.foldl keccakRound a

def lanesOf (b : Bytes) : List (BitVec 64) := (chunks 8 b).map fun x => BitVec.ofNat 64 (leNat x)
def bytesOfLanes (a : List (BitVec 64)) : Bytes := a.flatMap fun x => leBytes 8 x.toNat

/-- The permutation over the FIPS 202 byte string. -/
def keccakBytes (st : Bytes) : Bytes := bytesOfLanes (keccakF (lanesOf st))

/-- One rate block absorbed into the 200-byte state. -/
def keccakAbsorb (st : Bytes) (blk : Bytes) : Bytes := keccakBytes (xorBytes st (fitBytes 200 blk))

/-- pad10*1 after the domain bits dom, for a rate of r bytes and len message bytes. -/
def keccakPad (r : Nat) (dom : BitVec 8) (len : Nat) : Bytes :=
  let n := r - len % r
  if n = 1 then [dom ||| 0x80] else [dom] ++ zeros (n - 2) ++ [0x80]

/-- n rate blocks squeezed. -/
def keccakSqueeze (r : Nat) : Nat → Bytes → Bytes
  | 0, _ => []
  | n + 1, st => st.take r ++ keccakSqueeze r n (keccakBytes st)

/-- The sponge: rate r, domain byte dom, n output bytes. -/
def sponge (r : Nat) (dom : BitVec 8) (n : Nat) (m : Bytes) : Bytes :=
  let st := (chunks r (m ++ keccakPad r dom m.length)).foldl keccakAbsorb (zeros 200)
  (keccakSqueeze r ((n + r - 1) / r) st).take n

end Sha

/-- SHA-256 (FIPS 180-4). -/
def sha256 (m : Bytes) : Bytes := Sha.hash Sha.p256 Sha.iv256 32 m
/-- SHA-384 (FIPS 180-4). -/
def sha384 (m : Bytes) : Bytes := Sha.hash Sha.p512 Sha.iv384 48 m
/-- SHA-512 (FIPS 180-4). -/
def sha512 (m : Bytes) : Bytes := Sha.hash Sha.p512 Sha.iv512 64 m
/-- SHA3-256 (FIPS 202). -/
def sha3_256 (m : Bytes) : Bytes := Sha.sponge 136 0x06 32 m
def sha3_512 (m : Bytes) : Bytes := Sha.sponge 72 0x06 64 m
def shake128 (n : Nat) (m : Bytes) : Bytes := Sha.sponge 168 0x1F n m
def shake256 (n : Nat) (m : Bytes) : Bytes := Sha.sponge 136 0x1F n m

/-- The first 16 bytes of SHA-256, as records and digests use it (R123, R200). -/
def digest16 (m : Bytes) : Bytes := (sha256 m).take 16

/-- HMAC (FIPS 198-1) for a hash of block length blk, with a key no longer than a block (R284). -/
def hmac (blk : Nat) (hf : Bytes → Bytes) (key m : Bytes) : Bytes :=
  let k0 := fitBytes blk key
  hf (k0.map (· ^^^ 0x5c) ++ hf (k0.map (· ^^^ 0x36) ++ m))

def hmacSha256 (key m : Bytes) : Bytes := hmac 64 sha256 key m
def hmacSha384 (key m : Bytes) : Bytes := hmac 128 sha384 key m
def hmacSha512 (key m : Bytes) : Bytes := hmac 128 sha512 key m

/-- One bit step of the reflected CRC-32C (R136). -/
def crcBit (c : Nat) : Nat := if c % 2 = 1 then (c / 2) ^^^ 0x82F63B78 else c / 2
def crcByte (c : Nat) (b : BitVec 8) : Nat :=
  crcBit (crcBit (crcBit (crcBit (crcBit (crcBit (crcBit (crcBit (c ^^^ b.toNat))))))))

/-- CRC-32C over a byte string (R136). -/
def crc32c (b : Bytes) : Nat := (b.foldl crcByte 0xFFFFFFFF) ^^^ 0xFFFFFFFF

/-- The chain value before the first journal record (R410). -/
def genesis : Bytes := sha256 ([0x54, 0x45, 0x50, 0x48, 0x52, 0x41] ++ fitBytes 16 Config.serial)

end Sys2Proof.Machine
end

