-- ==== Sys2Proof/Machine/Curve.lean ====
section
/-! DEFINITION. ECDSA over P-256 and P-384 with RFC 6979 nonces, and Ed25519 (R288), as results: the fixed schedules and
the blinding of R295 and R296 change no result. -/

namespace Sys2Proof.Machine

/-- a raised to e modulo m, over n exponent bits. -/
def powModGo (m : Nat) : Nat → Nat → Nat → Nat → Nat
  | 0, _, _, acc => acc
  | n + 1, b, e, acc => powModGo m n (b * b % m) (e / 2) (if e % 2 = 1 then acc * b % m else acc)

def powMod (m b e : Nat) : Nat := powModGo m (Nat.log2 e + 1) (b % m) e (1 % m)

/-- The inverse modulo a prime. -/
def invMod (p a : Nat) : Nat := powMod p a (p - 2)

namespace Ec

/-- A short Weierstrass curve with a = -3, its base point, order and coordinate length. -/
structure Curve where
  p : Nat
  b : Nat
  gx : Nat
  gy : Nat
  n : Nat
  len : Nat

def p256 : Curve where
  p := 0xffffffff00000001000000000000000000000000ffffffffffffffffffffffff
  b := 0x5ac635d8aa3a93e7b3ebbd55769886bc651d06b0cc53b0f63bce3c3e27d2604b
  gx := 0x6b17d1f2e12c4247f8bce6e563a440f277037d812deb33a0f4a13945d898c296
  gy := 0x4fe342e2fe1a7f9b8ee7eb4a7c0f9e162bce33576b315ececbb6406837bf51f5
  n := 0xffffffff00000000ffffffffffffffffbce6faada7179e84f3b9cac2fc632551
  len := 32

def p384 : Curve where
  p := 0xfffffffffffffffffffffffffffffffffffffffffffffffffffffffffffffffeffffffff0000000000000000ffffffff
  b := 0xb3312fa7e23ee7e4988e056be3f82d19181d9c6efe8141120314088f5013875ac656398d8a2ed19d2a85c8edd3ec2aef
  gx := 0xaa87ca22be8b05378eb1c71ef320ad746e1d3b628ba79b9859f741e082542a385502f25dbf55296c3a545e3872760ab7
  gy := 0x3617de4a96262c6f5d9e98bf9292dc29f8f41dbd289a147ce9da3113b5f0b8c00a60b1ce1d7e819d7a431d7c90ea0e5f
  n := 0xffffffffffffffffffffffffffffffffffffffffffffffffc7634d81f4372ddf581a0db248b0a77aecec196accc52973
  len := 48

/-- Jacobian point: z = 0 is the point at infinity. -/
structure Pt where
  x : Nat
  y : Nat
  z : Nat

def inf : Pt := ⟨1, 1, 0⟩

def dbl (c : Curve) (q : Pt) : Pt :=
  let p := c.p
  let d := q.z * q.z % p
  let g := q.y * q.y % p
  let b := q.x * g % p
  let a := 3 * ((q.x + p - d) % p) * ((q.x + d) % p) % p
  let x := (a * a + 8 * (p - b)) % p
  let z := ((q.y + q.z) * (q.y + q.z) + 2 * p - g - d) % p
  ⟨x, (a * ((4 * b + p - x) % p) + 8 * (p - g * g % p)) % p, z⟩

def add (c : Curve) (q r : Pt) : Pt :=
  if q.z = 0 then r else if r.z = 0 then q else
    let p := c.p
    let zz1 := q.z * q.z % p
    let zz2 := r.z * r.z % p
    let u1 := q.x * zz2 % p
    let u2 := r.x * zz1 % p
    let s1 := q.y * r.z % p * zz2 % p
    let s2 := r.y * q.z % p * zz1 % p
    if u1 = u2 then (if s1 = s2 then dbl c q else inf) else
      let h := (u2 + p - u1) % p
      let rr := (s2 + p - s1) % p
      let h2 := h * h % p
      let h3 := h * h2 % p
      let v := u1 * h2 % p
      let x := (rr * rr + 3 * p - h3 - 2 * v) % p
      ⟨x, (rr * ((v + p - x) % p) + (p - s1 * h3 % p)) % p, h * q.z % p * r.z % p⟩

/-- k·Q over n bits of k, from the highest. -/
def mulGo (c : Curve) (k : Nat) (q : Pt) : Nat → Pt → Pt
  | 0, acc => acc
  | n + 1, acc =>
    let d := dbl c acc
    mulGo c k q n (if k.testBit n then add c d q else d)

def mul (c : Curve) (k : Nat) (q : Pt) : Pt := mulGo c k q (Nat.log2 k + 1) inf

/-- Affine coordinates, or none at infinity. -/
def affine (c : Curve) (q : Pt) : Option (Nat × Nat) :=
  if q.z = 0 then none else
    let zi := invMod c.p q.z
    let z2 := zi * zi % c.p
    some (q.x * z2 % c.p, q.y * (z2 * zi % c.p) % c.p)

def base (c : Curve) : Pt := ⟨c.gx, c.gy, 1⟩

/-- Whether (x, y) lies on the curve. -/
def onCurve (c : Curve) (x y : Nat) : Bool :=
  decide (x < c.p) && decide (y < c.p) && decide (y * y % c.p = (x * x % c.p * x + 3 * (c.p - x) + c.b) % c.p)

/-- 0x04 ‖ X ‖ Y (R289). -/
def encode (c : Curve) (q : Pt) : Bytes :=
  match affine c q with
  | none => []
  | some (x, y) => [0x04] ++ beBytes c.len x ++ beBytes c.len y

/-- The point of an uncompressed encoding, where it is valid and on the curve (R307). -/
def decode (c : Curve) (e : Bytes) : Option Pt :=
  let x := beNat ((e.drop 1).take c.len)
  let y := beNat ((e.drop 1).drop c.len)
  if e.length = 2 * c.len + 1 ∧ e.head? = some 0x04 ∧ onCurve c x y then some ⟨x, y, 1⟩ else none

/-- The private scalar from a seed (R291). -/
def scalar (c : Curve) (seed : Bytes) : Nat := beNat (seed.take (c.len + 8)) % (c.n - 1) + 1

def publicKey (c : Curve) (d : Nat) : Bytes := encode c (mul c d (base c))

/-- The HMAC of RFC 6979 for the curve (R288). -/
def prf (c : Curve) (key m : Bytes) : Bytes := if c.len = 32 then hmacSha256 key m else hmacSha384 key m

/-- The candidates of RFC 6979 step h, at most f of them: the first in range. -/
def nonceGo (c : Curve) : Nat → Bytes → Bytes → Option Nat
  | 0, _, _ => none
  | f + 1, k, v =>
    let v := prf c k v
    let t := beNat v
    if 0 < t ∧ t < c.n then some t
    else
      let k := prf c k (v ++ [0x00])
      nonceGo c f k (prf c k v)

/-- ECDSA signature r ‖ s over a digest of the order's length; extra is the additional data k' of HEDGE, or empty (R294).
Four candidates are computed, and the first in range is used (R302); r or s of zero fails the result check (R298), and so do four
candidates out of range (log 107). -/
def sign (c : Curve) (d : Nat) (digest extra : Bytes) : Option Bytes :=
  let z := beNat digest % c.n
  let seed := beBytes c.len d ++ beBytes c.len z ++ extra
  let k := prf c (zeros c.len) (List.replicate c.len 0x01 ++ [0x00] ++ seed)
  let v := prf c k (List.replicate c.len 0x01)
  let k := prf c k (v ++ [0x01] ++ seed)
  let v := prf c k v
  match nonceGo c 4 k v with
  | none => none
  | some t =>
    match affine c (mul c t (base c)) with
    | none => none
    | some (x, _) =>
      let r := x % c.n
      let s := invMod c.n t * ((z + r * d) % c.n) % c.n
      if r = 0 ∨ s = 0 then none else some (beBytes c.len r ++ beBytes c.len s)

def verify (c : Curve) (q : Pt) (digest sig : Bytes) : Bool :=
  let r := beNat (sig.take c.len)
  let s := beNat (sig.drop c.len)
  if sig.length = 2 * c.len ∧ 0 < r ∧ r < c.n ∧ 0 < s ∧ s < c.n then
    let w := invMod c.n s
    let pt := add c (mul c (beNat digest % c.n * w % c.n) (base c)) (mul c (r * w % c.n) q)
    match affine c pt with
    | none => false
    | some (x, _) => decide (x % c.n = r)
  else false

end Ec

namespace Ed

def p : Nat := 2 ^ 255 - 19
def l : Nat := 2 ^ 252 + 27742317777372353535851937790883648493
def d : Nat := (p - 121665) * invMod p 121666 % p
def sqrtM1 : Nat := powMod p 2 ((p - 1) / 4)

/-- A point in extended coordinates. -/
structure Pt where
  x : Nat
  y : Nat
  z : Nat
  t : Nat

def neutral : Pt := ⟨0, 1, 1, 0⟩

def add (dd : Nat) (a b : Pt) : Pt :=
  let q := p
  let aa := (a.y + q - a.x) * (b.y + q - b.x) % q
  let bb := (a.y + a.x) * (b.y + b.x) % q
  let cc := 2 * a.t * dd % q * b.t % q
  let zz := 2 * a.z * b.z % q
  let e := (bb + q - aa) % q
  let f := (zz + q - cc) % q
  let g := (zz + cc) % q
  let h := (bb + aa) % q
  ⟨e * f % q, g * h % q, f * g % q, e * h % q⟩

def mulGo (dd k : Nat) (q : Pt) : Nat → Pt → Pt
  | 0, acc => acc
  | n + 1, acc =>
    let r := add dd acc acc
    mulGo dd k q n (if k.testBit n then add dd r q else r)

def mul (k : Nat) (q : Pt) : Pt := mulGo d k q (Nat.log2 k + 1) neutral

/-- x from y and its low bit; none where no square root exists or x = 0 with the bit set. -/
def recoverX (y sign : Nat) : Option Nat :=
  let x2 := (y * y + p - 1) % p * invMod p ((d * (y * y % p) + 1) % p) % p
  if x2 = 0 then (if sign = 1 then none else some 0) else
    let x := powMod p x2 ((p + 3) / 8)
    let x := if x * x % p = x2 then x else x * sqrtM1 % p
    if x * x % p ≠ x2 then none else
      some (if x % 2 = sign then x else p - x)

/-- Decoding that rejects a non-canonical y (R288). -/
def decode (e : Bytes) : Option Pt :=
  if e.length ≠ 32 then none else
    let n := leNat e
    let y := n % 2 ^ 255
    if y ≥ p then none else
      match recoverX y (n / 2 ^ 255) with
      | none => none
      | some x => some ⟨x, y, 1, x * y % p⟩

def encode (q : Pt) : Bytes :=
  let zi := invMod p q.z
  leBytes 32 (q.y * zi % p + 2 ^ 255 * (q.x * zi % p % 2))

def base : Pt :=
  let y := 4 * invMod p 5 % p
  match recoverX y 0 with
  | none => neutral
  | some x => ⟨x, y, 1, x * y % p⟩

/-- The clamped scalar and the hash half that seeds the nonce. -/
def expand (key : Bytes) : Nat × Bytes :=
  let h := sha512 key
  let a := leNat (h.take 32)
  (a % 2 ^ 254 - a % 8 + 2 ^ 254, h.drop 32)

def publicKey (key : Bytes) : Bytes := encode (mul (expand key).1 base)

def sign (key m : Bytes) : Bytes :=
  let x := expand key
  let pk := publicKey key
  let r := leNat (sha512 (x.2 ++ m)) % l
  let rb := encode (mul r base)
  let k := leNat (sha512 (rb ++ pk ++ m)) % l
  rb ++ leBytes 32 ((r + k * x.1) % l)

/-- Equality of projective points. -/
def same (a b : Pt) : Bool := decide (a.x * b.z % p = b.x * a.z % p) && decide (a.y * b.z % p = b.y * a.z % p)

/-- Cofactored verification: [8][S]B = [8]R + [8][k]A (R288). -/
def verify (pk : Bytes) (m sig : Bytes) : Bool :=
  if sig.length ≠ 64 then false else
    match decode pk, decode (sig.take 32) with
    | some a, some r =>
      let s := leNat (sig.drop 32)
      let k := leNat (sha512 (sig.take 32 ++ pk ++ m)) % l
      decide (s < l) && same (mul 8 (mul s base)) (mul 8 (add d r (mul k a)))
    | _, _ => false

end Ed

end Sys2Proof.Machine
end

