-- ==== Sys2Proof/Machine/Lattice.lean ====
section
/-! DEFINITION. ML-DSA-65 (FIPS 204) and ML-KEM-768 (FIPS 203), as results (R288): the masking and the fixed budgets of
R295 and R296 change no result. -/

namespace Sys2Proof.Machine

namespace Lat

/-- A polynomial: 256 coefficients, each below its modulus. -/
abbrev Poly := List Nat

def padd (q : Nat) (a b : Poly) : Poly := List.zipWith (fun x y => (x + y) % q) a b
def psub (q : Nat) (a b : Poly) : Poly := List.zipWith (fun x y => (x + q - y) % q) a b
def pscale (q k : Nat) (a : Poly) : Poly := a.map fun x => k * x % q
def pmulPoint (q : Nat) (a b : Poly) : Poly := List.zipWith (fun x y => x * y % q) a b
def pzero : Poly := List.replicate 256 0

/-- The low n bits of k in reverse order. -/
def bitrev : Nat → Nat → Nat
  | 0, _ => 0
  | n + 1, k => (k % 2) * 2 ^ n + bitrev n (k / 2)

/-- The forward transform: depth levels, root of unity z with indices of n bits, tree node k. -/
def ntt (q z n : Nat) : Nat → Nat → Poly → Poly
  | 0, _, a => a
  | lv + 1, k, a =>
    let h := a.length / 2
    let t := pscale q (powMod q z (bitrev n k)) (a.drop h)
    ntt q z n lv (2 * k) (padd q (a.take h) t) ++ ntt q z n lv (2 * k + 1) (psub q (a.take h) t)

/-- The inverse transform without its final scaling. -/
def intt (q z n : Nat) : Nat → Nat → Poly → Poly
  | 0, _, a => a
  | lv + 1, k, a =>
    let h := a.length / 2
    let x := intt q z n lv (2 * k) (a.take h)
    let y := intt q z n lv (2 * k + 1) (a.drop h)
    padd q x y ++ pscale q (invMod q (powMod q z (bitrev n k))) (psub q x y)

/-- Coefficients packed at n bits each, least significant first. -/
def pack (n : Nat) (a : List Nat) : Bytes :=
  leBytes (a.length * n / 8) (a.foldr (fun c acc => c % 2 ^ n + 2 ^ n * acc) 0)

def unpack (n count : Nat) (b : Bytes) : List Nat :=
  let x := leNat b
  (List.range count).map fun i => (x >>> (n * i)) % 2 ^ n

def dot (q : Nat) (mulp : Poly → Poly → Poly) (a b : List Poly) : Poly :=
  (List.zipWith mulp a b).foldl (padd q) pzero

end Lat

namespace Kem
open Sys2Proof.Machine.Lat

def q : Nat := 3329
def fwd (a : Poly) : Poly := ntt q 17 7 7 1 a
def inv (a : Poly) : Poly := pscale q (invMod q 128) (intt q 17 7 7 1 a)

/-- Products modulo X^2 - gamma, pair by pair. -/
def mulGo : Nat → Nat → Poly → Poly → Poly
  | 0, _, _, _ => []
  | f + 1, i, a0 :: a1 :: as, b0 :: b1 :: bs =>
    let g := powMod q 17 (2 * bitrev 7 i + 1)
    ((a0 * b0 + a1 * b1 % q * g) % q) :: ((a0 * b1 + a1 * b0) % q) :: mulGo f (i + 1) as bs
  | _, _, _, _ => []

def mulp (a b : Poly) : Poly := mulGo 128 0 a b

/-- SampleNTT over a stream of candidates. -/
def sampleGo : Nat → Bytes → Poly
  | 0, _ => []
  | f + 1, c0 :: c1 :: c2 :: cs =>
    let d1 := c0.toNat + 256 * (c1.toNat % 16)
    let d2 := c1.toNat / 16 + 16 * c2.toNat
    (if d1 < q then [d1] else []) ++ (if d2 < q then [d2] else []) ++ sampleGo f cs
  | _, _ => []

def sampleNtt (seed : Bytes) : Poly := (sampleGo 560 (shake128 1680 seed)).take 256

/-- Centred binomial sampling with eta = 2. -/
def cbd (b : Bytes) : Poly :=
  let x := leNat b
  (List.range 256).map fun i =>
    let n := (x >>> (4 * i)) % 16
    (n % 2 + n / 2 % 2 + q - n / 4 % 2 - n / 8) % q

def prf (s : Bytes) (n : Nat) : Bytes := shake256 128 (s ++ [BitVec.ofNat 8 n])

def compress (d x : Nat) : Nat := (x * 2 ^ d + 1664) / q % 2 ^ d
def decompress (d y : Nat) : Nat := (q * y + 2 ^ (d - 1)) / 2 ^ d

/-- Row i of the matrix, or of its transpose. -/
def row (rho : Bytes) (tr : Bool) (i : Nat) : List Poly :=
  (List.range 3).map fun j =>
    sampleNtt (rho ++ (if tr then [BitVec.ofNat 8 i, BitVec.ofNat 8 j] else [BitVec.ofNat 8 j, BitVec.ofNat 8 i]))

structure Keys where
  ek : Bytes
  sHat : List Poly
  z : Bytes

/-- ML-KEM.KeyGen_internal. -/
def keyGen (d z : Bytes) : Keys :=
  let g := sha3_512 (d ++ [3])
  let rho := g.take 32
  let sig := g.drop 32
  let s := (List.range 3).map fun n => fwd (cbd (prf sig n))
  let e := (List.range 3).map fun n => fwd (cbd (prf sig (n + 3)))
  let t := (List.range 3).map fun i => padd q (dot q mulp (row rho false i) s) (e.getD i pzero)
  ⟨t.flatMap (pack 12) ++ rho, s, z⟩

/-- K-PKE.Encrypt. -/
def encrypt (ek m r : Bytes) : Bytes :=
  let t := (List.range 3).map fun i => (unpack 12 256 ((ek.drop (384 * i)).take 384)).map (· % q)
  let rho := ek.drop 1152
  let y := (List.range 3).map fun n => fwd (cbd (prf r n))
  let u := (List.range 3).map fun i => padd q (inv (dot q mulp (row rho true i) y)) (cbd (prf r (i + 3)))
  let mu := (unpack 1 256 m).map (decompress 1)
  let v := padd q (padd q (inv (dot q mulp t y)) (cbd (prf r 6))) mu
  u.flatMap (fun p => pack 10 (p.map (compress 10))) ++ pack 4 (v.map (compress 4))

/-- The modulus check of an encapsulation key. -/
def ekOk (ek : Bytes) : Bool :=
  decide (ek.length = 1184) && (List.range 3).all fun i => (unpack 12 256 ((ek.drop (384 * i)).take 384)).all fun c => decide (c < q)

/-- ML-KEM.Encaps_internal: the shared secret and the ciphertext. -/
def encaps (ek m : Bytes) : Bytes × Bytes :=
  let g := sha3_512 (m ++ sha3_256 ek)
  (g.take 32, encrypt ek m (g.drop 32))

/-- ML-KEM.Decaps_internal with implicit rejection (R299). -/
def decaps (k : Keys) (c : Bytes) : Bytes :=
  let u := (List.range 3).map fun i => (unpack 10 256 ((c.drop (320 * i)).take 320)).map (decompress 10)
  let v := (unpack 4 256 (c.drop 960)).map (decompress 4)
  let w := psub q v (inv (dot q mulp k.sHat (u.map fwd)))
  let m := pack 1 (w.map (compress 1))
  let g := sha3_512 (m ++ sha3_256 k.ek)
  if encrypt k.ek m (g.drop 32) = c then g.take 32 else shake256 32 (k.z ++ c)

end Kem

namespace Dsa
open Sys2Proof.Machine.Lat

def q : Nat := 8380417
def gamma1 : Nat := 524288
def gamma2 : Nat := 261888
def fwd (a : Poly) : Poly := ntt q 1753 8 8 1 a
def inv (a : Poly) : Poly := pscale q (invMod q 256) (intt q 1753 8 8 1 a)
def mulp (a b : Poly) : Poly := pmulPoint q a b

def rejGo : Nat → Bytes → Poly
  | 0, _ => []
  | f + 1, c0 :: c1 :: c2 :: cs =>
    let z := (c2.toNat % 128) * 65536 + c1.toNat * 256 + c0.toNat
    if z < q then z :: rejGo f cs else rejGo f cs
  | _, _ => []

def rejNtt (seed : Bytes) : Poly := (rejGo 336 (shake128 1008 seed)).take 256

/-- Coefficients of absolute value at most 4, from half bytes. -/
def rejBounded (seed : Bytes) : Poly :=
  ((shake256 544 seed).flatMap fun b =>
    let f := fun n => if n < 9 then [(q + 4 - n) % q] else []
    f (b.toNat % 16) ++ f (b.toNat / 16)).take 256

def expandRow (rho : Bytes) (r : Nat) : List Poly :=
  (List.range 5).map fun s => rejNtt (rho ++ [BitVec.ofNat 8 s, BitVec.ofNat 8 r])

/-- Absolute value of a residue taken about zero. -/
def absq (x : Nat) : Nat := min x (q - x)
def norm (a : List Poly) : Nat := (a.map fun p => (p.map absq).foldl max 0).foldl max 0

/-- Decompose: r1, and r0 as a residue modulo q. -/
def decompose (r : Nat) : Nat × Nat :=
  let m := r % (2 * gamma2)
  let r0 := if m > gamma2 then m + q - 2 * gamma2 else m
  let hi := (r + q - r0) % q
  if hi = q - 1 then (0, (r0 + q - 1) % q) else (hi / (2 * gamma2), r0)

def highBits (p : Poly) : Poly := p.map fun r => (decompose r).1
def lowBits (p : Poly) : Poly := p.map fun r => (decompose r).2

def useHint (h r : Nat) : Nat :=
  let d := decompose r
  if h = 1 then (if 0 < d.2 ∧ d.2 ≤ q / 2 then (d.1 + 1) % 16 else (d.1 + 15) % 16) else d.1

/-- The position of the next byte at most i. -/
def pick (i : Nat) : Bytes → Option (Nat × Bytes)
  | [] => none
  | b :: bs => if b.toNat ≤ i then some (b.toNat, bs) else pick i bs

def ballGo (signs : Nat) : Nat → Nat → Bytes → Poly → Poly
  | 0, _, _, c => c
  | f + 1, i, bs, c =>
    match pick i bs with
    | none => c
    | some (j, bs') =>
      let v := if signs.testBit (i + 49 - 256) then q - 1 else 1
      ballGo signs f (i + 1) bs' ((c.set i (c.getD j 0)).set j v)

/-- SampleInBall with 49 non-zero coefficients. -/
def ball (seed : Bytes) : Poly :=
  let s := shake256 680 seed
  ballGo (leNat (s.take 8)) 49 207 (s.drop 8) pzero

/-- BitPack of z at 20 bits. -/
def packZ (p : Poly) : Bytes := pack 20 (p.map fun c => (gamma1 + q - c) % q)
def unpackZ (b : Bytes) : Poly := (unpack 20 256 b).map fun c => (gamma1 + q - c) % q

structure Keys where
  rho : Bytes
  k : Bytes
  s1 : List Poly
  s2 : List Poly
  t0 : List Poly
  pk : Bytes

/-- ML-DSA.KeyGen_internal. -/
def keyGen (xi : Bytes) : Keys :=
  let h := shake256 128 (xi ++ [6, 5])
  let rho := h.take 32
  let rp := (h.drop 32).take 64
  let s1 := (List.range 5).map fun r => rejBounded (rp ++ leBytes 2 r)
  let s2 := (List.range 6).map fun r => rejBounded (rp ++ leBytes 2 (r + 5))
  let s1h := s1.map fwd
  let t := (List.range 6).map fun r => padd q (inv (dot q mulp (expandRow rho r) s1h)) (s2.getD r pzero)
  -- Power2Round: t = t1 * 2^13 + t0 with t0 in (-2^12, 2^12]
  let t1 := t.map (·.map fun c => (c + 4095) / 8192)
  let t0 := List.zipWith (fun a b => List.zipWith (fun c d => (c + q - d * 8192 % q) % q) a b) t t1
  ⟨rho, h.drop 96, s1, s2, t0, rho ++ t1.flatMap (pack 10)⟩

def w1Encode (w : List Poly) : Bytes := w.flatMap (pack 4)

/-- HintBitPack of the hint polynomials. -/
def packHint (h : List Poly) : Bytes :=
  let idx := h.map fun p => (List.range 256).filter fun j => p.getD j 0 = 1
  let pos := (idx.flatten.map (BitVec.ofNat 8 ·))
  let ends := (List.range 6).map fun i => BitVec.ofNat 8 ((idx.take (i + 1)).flatten.length)
  fitBytes 55 pos ++ ends

/-- HintBitUnpack, by row: none where the encoding is malformed. -/
def unpackHintGo (y : Bytes) : Nat → Nat → Nat → Option (List Poly)
  | 0, _, start => if (y.drop start).take (55 - start) |>.all (· = 0) then some [] else none
  | f + 1, i, start =>
    let e := (y.getD (55 + i) 0).toNat
    if e < start ∨ e > 55 then none else
      let js := ((y.drop start).take (e - start)).map (·.toNat)
      let rising := (List.zipWith (fun a b => decide (a < b)) js js.tail).all id
      match rising, unpackHintGo y f (i + 1) e with
      | true, some ps => some (((List.range 256).map fun j => if js.contains j then 1 else 0) :: ps)
      | _, _ => none

/-- The attempt rounds of signing, at most f of them (R297). -/
def signGo (key : Keys) (mu rpp : Bytes) (ah : List (List Poly)) (s1h s2h t0h : List Poly) : Nat → Nat → Option Bytes
  | 0, _ => none
  | f + 1, kappa =>
    let y := (List.range 5).map fun r => unpackZ (shake256 640 (rpp ++ leBytes 2 (kappa + r)))
    let yh := y.map fwd
    let w := ah.map fun row => inv (dot q mulp row yh)
    let ct := shake256 48 (mu ++ w1Encode (w.map highBits))
    let ch := fwd (ball ct)
    let z := List.zipWith (fun a s => padd q a (inv (mulp ch s))) y s1h
    let wcs2 := List.zipWith (fun a s => psub q a (inv (mulp ch s))) w s2h
    if norm z ≥ gamma1 - 196 ∨ norm (wcs2.map lowBits) ≥ gamma2 - 196 then
      signGo key mu rpp ah s1h s2h t0h f (kappa + 5)
    else
      let ct0 := t0h.map fun t => inv (mulp ch t)
      let h := List.zipWith (fun a b => List.zipWith (fun r c =>
        if (decompose r).1 = (decompose ((r + c) % q)).1 then 0 else 1) a b) wcs2 ct0
      if norm ct0 ≥ gamma2 ∨ (h.map List.sum).sum > 55 then signGo key mu rpp ah s1h s2h t0h f (kappa + 5)
      else some (ct ++ z.flatMap packZ ++ packHint h)

/-- Pure ML-DSA signature of message m under context ctx, with rnd of 32 bytes (R294). -/
def sign (key : Keys) (ctx m rnd : Bytes) : Option Bytes :=
  let mu := shake256 64 (shake256 64 key.pk ++ ([0, BitVec.ofNat 8 ctx.length] ++ ctx ++ m))
  let rpp := shake256 64 (key.k ++ rnd ++ mu)
  signGo key mu rpp ((List.range 6).map (expandRow key.rho)) (key.s1.map fwd) (key.s2.map fwd) (key.t0.map fwd) 128 0

/-- Pure ML-DSA verification. -/
def verify (pk ctx m sig : Bytes) : Bool :=
  if pk.length ≠ 1952 ∨ sig.length ≠ 3309 then false else
    match unpackHintGo (sig.drop 3248) 6 0 0 with
    | none => false
    | some h =>
      let ct := sig.take 48
      let z := (List.range 5).map fun i => unpackZ ((sig.drop (48 + 640 * i)).take 640)
      let t1 := (List.range 6).map fun i => unpack 10 256 ((pk.drop (32 + 320 * i)).take 320)
      let mu := shake256 64 (shake256 64 pk ++ ([0, BitVec.ofNat 8 ctx.length] ++ ctx ++ m))
      let ch := fwd (ball ct)
      let zh := z.map fwd
      let w := (List.range 6).map fun r =>
        inv (psub q (dot q mulp (expandRow (pk.take 32) r) zh) (mulp ch (fwd (pscale q 8192 (t1.getD r pzero)))))
      let w1 := List.zipWith (fun a b => List.zipWith useHint a b) h w
      decide (norm z < gamma1 - 196) && decide (ct = shake256 48 (mu ++ w1Encode w1))

end Dsa

end Sys2Proof.Machine
end

