-- ==== Sys2Proof/Machine/Aes.lean ====
section
/-! DEFINITION. AES (FIPS 197) and the modes of R258: GCM, CCM, CTR, CBC, CMAC, KW and KWP; and CTR_DRBG (SP 800-90A)
over AES-256. -/

namespace Sys2Proof.Machine

namespace Aes

/-- The S-box of FIPS 197, by high nibble. -/
def sboxRows : List Bytes := [
  [0x63, 0x7c, 0x77, 0x7b, 0xf2, 0x6b, 0x6f, 0xc5, 0x30, 0x01, 0x67, 0x2b, 0xfe, 0xd7, 0xab, 0x76],
  [0xca, 0x82, 0xc9, 0x7d, 0xfa, 0x59, 0x47, 0xf0, 0xad, 0xd4, 0xa2, 0xaf, 0x9c, 0xa4, 0x72, 0xc0],
  [0xb7, 0xfd, 0x93, 0x26, 0x36, 0x3f, 0xf7, 0xcc, 0x34, 0xa5, 0xe5, 0xf1, 0x71, 0xd8, 0x31, 0x15],
  [0x04, 0xc7, 0x23, 0xc3, 0x18, 0x96, 0x05, 0x9a, 0x07, 0x12, 0x80, 0xe2, 0xeb, 0x27, 0xb2, 0x75],
  [0x09, 0x83, 0x2c, 0x1a, 0x1b, 0x6e, 0x5a, 0xa0, 0x52, 0x3b, 0xd6, 0xb3, 0x29, 0xe3, 0x2f, 0x84],
  [0x53, 0xd1, 0x00, 0xed, 0x20, 0xfc, 0xb1, 0x5b, 0x6a, 0xcb, 0xbe, 0x39, 0x4a, 0x4c, 0x58, 0xcf],
  [0xd0, 0xef, 0xaa, 0xfb, 0x43, 0x4d, 0x33, 0x85, 0x45, 0xf9, 0x02, 0x7f, 0x50, 0x3c, 0x9f, 0xa8],
  [0x51, 0xa3, 0x40, 0x8f, 0x92, 0x9d, 0x38, 0xf5, 0xbc, 0xb6, 0xda, 0x21, 0x10, 0xff, 0xf3, 0xd2],
  [0xcd, 0x0c, 0x13, 0xec, 0x5f, 0x97, 0x44, 0x17, 0xc4, 0xa7, 0x7e, 0x3d, 0x64, 0x5d, 0x19, 0x73],
  [0x60, 0x81, 0x4f, 0xdc, 0x22, 0x2a, 0x90, 0x88, 0x46, 0xee, 0xb8, 0x14, 0xde, 0x5e, 0x0b, 0xdb],
  [0xe0, 0x32, 0x3a, 0x0a, 0x49, 0x06, 0x24, 0x5c, 0xc2, 0xd3, 0xac, 0x62, 0x91, 0x95, 0xe4, 0x79],
  [0xe7, 0xc8, 0x37, 0x6d, 0x8d, 0xd5, 0x4e, 0xa9, 0x6c, 0x56, 0xf4, 0xea, 0x65, 0x7a, 0xae, 0x08],
  [0xba, 0x78, 0x25, 0x2e, 0x1c, 0xa6, 0xb4, 0xc6, 0xe8, 0xdd, 0x74, 0x1f, 0x4b, 0xbd, 0x8b, 0x8a],
  [0x70, 0x3e, 0xb5, 0x66, 0x48, 0x03, 0xf6, 0x0e, 0x61, 0x35, 0x57, 0xb9, 0x86, 0xc1, 0x1d, 0x9e],
  [0xe1, 0xf8, 0x98, 0x11, 0x69, 0xd9, 0x8e, 0x94, 0x9b, 0x1e, 0x87, 0xe9, 0xce, 0x55, 0x28, 0xdf],
  [0x8c, 0xa1, 0x89, 0x0d, 0xbf, 0xe6, 0x42, 0x68, 0x41, 0x99, 0x2d, 0x0f, 0xb0, 0x54, 0xbb, 0x16]]

/-- The inverse S-box of FIPS 197, by high nibble. -/
def invRows : List Bytes := [
  [0x52, 0x09, 0x6a, 0xd5, 0x30, 0x36, 0xa5, 0x38, 0xbf, 0x40, 0xa3, 0x9e, 0x81, 0xf3, 0xd7, 0xfb],
  [0x7c, 0xe3, 0x39, 0x82, 0x9b, 0x2f, 0xff, 0x87, 0x34, 0x8e, 0x43, 0x44, 0xc4, 0xde, 0xe9, 0xcb],
  [0x54, 0x7b, 0x94, 0x32, 0xa6, 0xc2, 0x23, 0x3d, 0xee, 0x4c, 0x95, 0x0b, 0x42, 0xfa, 0xc3, 0x4e],
  [0x08, 0x2e, 0xa1, 0x66, 0x28, 0xd9, 0x24, 0xb2, 0x76, 0x5b, 0xa2, 0x49, 0x6d, 0x8b, 0xd1, 0x25],
  [0x72, 0xf8, 0xf6, 0x64, 0x86, 0x68, 0x98, 0x16, 0xd4, 0xa4, 0x5c, 0xcc, 0x5d, 0x65, 0xb6, 0x92],
  [0x6c, 0x70, 0x48, 0x50, 0xfd, 0xed, 0xb9, 0xda, 0x5e, 0x15, 0x46, 0x57, 0xa7, 0x8d, 0x9d, 0x84],
  [0x90, 0xd8, 0xab, 0x00, 0x8c, 0xbc, 0xd3, 0x0a, 0xf7, 0xe4, 0x58, 0x05, 0xb8, 0xb3, 0x45, 0x06],
  [0xd0, 0x2c, 0x1e, 0x8f, 0xca, 0x3f, 0x0f, 0x02, 0xc1, 0xaf, 0xbd, 0x03, 0x01, 0x13, 0x8a, 0x6b],
  [0x3a, 0x91, 0x11, 0x41, 0x4f, 0x67, 0xdc, 0xea, 0x97, 0xf2, 0xcf, 0xce, 0xf0, 0xb4, 0xe6, 0x73],
  [0x96, 0xac, 0x74, 0x22, 0xe7, 0xad, 0x35, 0x85, 0xe2, 0xf9, 0x37, 0xe8, 0x1c, 0x75, 0xdf, 0x6e],
  [0x47, 0xf1, 0x1a, 0x71, 0x1d, 0x29, 0xc5, 0x89, 0x6f, 0xb7, 0x62, 0x0e, 0xaa, 0x18, 0xbe, 0x1b],
  [0xfc, 0x56, 0x3e, 0x4b, 0xc6, 0xd2, 0x79, 0x20, 0x9a, 0xdb, 0xc0, 0xfe, 0x78, 0xcd, 0x5a, 0xf4],
  [0x1f, 0xdd, 0xa8, 0x33, 0x88, 0x07, 0xc7, 0x31, 0xb1, 0x12, 0x10, 0x59, 0x27, 0x80, 0xec, 0x5f],
  [0x60, 0x51, 0x7f, 0xa9, 0x19, 0xb5, 0x4a, 0x0d, 0x2d, 0xe5, 0x7a, 0x9f, 0x93, 0xc9, 0x9c, 0xef],
  [0xa0, 0xe0, 0x3b, 0x4d, 0xae, 0x2a, 0xf5, 0xb0, 0xc8, 0xeb, 0xbb, 0x3c, 0x83, 0x53, 0x99, 0x61],
  [0x17, 0x2b, 0x04, 0x7e, 0xba, 0x77, 0xd6, 0x26, 0xe1, 0x69, 0x14, 0x63, 0x55, 0x21, 0x0c, 0x7d]]

def sub (x : Byte) : Byte := (sboxRows.getD (x.toNat / 16) []).getD (x.toNat % 16) 0
def invSub (x : Byte) : Byte := (invRows.getD (x.toNat / 16) []).getD (x.toNat % 16) 0

/-- Multiplication by x in GF(2^8). -/
def xtime (b : Byte) : Byte := if b.msb then (b <<< 1) ^^^ 0x1b else b <<< 1

/-- One column of MixColumns. -/
def mixCol : Bytes → Bytes
  | [a, b, c, d] =>
    let t := a ^^^ b ^^^ c ^^^ d
    [a ^^^ t ^^^ xtime (a ^^^ b), b ^^^ t ^^^ xtime (b ^^^ c), c ^^^ t ^^^ xtime (c ^^^ d), d ^^^ t ^^^ xtime (d ^^^ a)]
  | x => x

/-- One column of InvMixColumns. -/
def invMixCol : Bytes → Bytes
  | [a, b, c, d] =>
    let u := xtime (xtime (a ^^^ c))
    let v := xtime (xtime (b ^^^ d))
    mixCol [a ^^^ u, b ^^^ v, c ^^^ u, d ^^^ v]
  | x => x

/-- Byte i of the state moves: ShiftRows takes byte (row r, column c) from column c + r. -/
def shiftRows (s : Bytes) : Bytes := (List.range 16).map fun i => s.getD ((i + 4 * (i % 4)) % 16) 0
def invShiftRows (s : Bytes) : Bytes := (List.range 16).map fun i => s.getD ((i + 12 * (i % 4)) % 16) 0

/-- The key expansion as a list of 4-byte words, newest first, until n words exist. -/
def expandGo (nk : Nat) : Nat → Nat → Byte → List Bytes → List Bytes
  | 0, _, _, ws => ws
  | f + 1, i, rc, ws =>
    let prev := ws.headD []
    let old := ws.getD (nk - 1) []
    let t := if i % nk = 0 then
        match prev.map sub with
        | [a, b, c, d] => [b ^^^ rc, c, d, a]
        | x => x
      else if nk > 6 ∧ i % nk = 4 then prev.map sub else prev
    expandGo nk f (i + 1) (if i % nk = 0 then xtime rc else rc) (xorBytes old t :: ws)

/-- The round keys, 16 bytes each, first to last: 11 for a 16-byte key, 15 for a 32-byte key (R250). -/
def roundKeys (key : Bytes) : List Bytes :=
  let nk := key.length / 4
  let ws := expandGo nk (4 * (nk + 7) - nk) nk 0x01 (chunks 4 key).reverse
  chunks 16 ws.reverse.flatten

def encGo : List Bytes → Bytes → Bytes
  | [], s => s
  | [k], s => xorBytes (shiftRows (s.map sub)) k
  | k :: ks, s => encGo ks (xorBytes ((chunks 4 (shiftRows (s.map sub))).flatMap mixCol) k)

def decGo : List Bytes → Bytes → Bytes
  | [], s => s
  | [k], s => xorBytes ((invShiftRows s).map invSub) k
  | k :: ks, s => decGo ks ((chunks 4 (xorBytes ((invShiftRows s).map invSub) k)).flatMap invMixCol)

end Aes

/-- One AES block under a 16-byte or 32-byte key (R250). -/
def aesEnc (key blk : Bytes) : Bytes :=
  match Aes.roundKeys key with
  | [] => blk
  | k :: ks => Aes.encGo ks (xorBytes blk k)

/-- One AES inverse block. -/
def aesDec (key blk : Bytes) : Bytes :=
  match (Aes.roundKeys key).reverse with
  | [] => blk
  | k :: ks => Aes.decGo ks (xorBytes blk k)

/-- Doubling in GF(2^128) as SP 800-38B takes it. -/
def cmacDbl (b : Bytes) : Bytes :=
  let n := beNat b
  beBytes 16 (if n ≥ 2 ^ 127 then (2 * n) ^^^ 0x87 else 2 * n)

/-- The chain of AES over whole blocks (CBC-MAC), from a running value. -/
def cbcMac (key : Bytes) (v : Bytes) (data : Bytes) : Bytes :=
  (chunks 16 data).foldl (fun v b => aesEnc key (xorBytes v (fitBytes 16 b))) v

/-- The last step of CMAC: the running value and the pending last block, of at most 16 bytes. -/
def cmacFinish (key v last : Bytes) : Bytes :=
  let l := aesEnc key (zeros 16)
  let k1 := cmacDbl l
  let m := if last.length = 16 then xorBytes last k1 else xorBytes (fitBytes 16 (last ++ [0x80])) (cmacDbl k1)
  aesEnc key (xorBytes v m)

/-- AES-CMAC (SP 800-38B). -/
def cmac (key m : Bytes) : Bytes :=
  let n := if m.length = 0 then 0 else (m.length - 1) / 16
  cmacFinish key (cbcMac key (zeros 16) (m.take (16 * n))) (m.drop (16 * n))

/-- The counter block with its low 32 bits raised by one (SP 800-38D inc32; R258 for CTR). -/
def inc32 (b : Bytes) : Bytes := b.take 12 ++ beBytes 4 (beNat (b.drop 12) + 1)

/-- Counter-mode keystream applied to data from counter block c: the first block uses c itself; answers the data and the next block. -/
def ctrGo (key : Bytes) : List Bytes → Bytes → Bytes × Bytes
  | [], c => ([], c)
  | b :: bs, c =>
    let r := ctrGo key bs (inc32 c)
    (xorBytes b (aesEnc key c) ++ r.1, r.2)

def ctrXor (key c data : Bytes) : Bytes × Bytes := ctrGo key (chunks 16 data) c

/-- GF(2^128) multiplication of GHASH, over 128 bits of x from the first. -/
def gfMulGo (x : Nat) : Nat → Nat → Nat → Nat
  | 0, _, z => z
  | f + 1, v, z =>
    let z' := if x.testBit f then z ^^^ v else z
    gfMulGo x f (if v % 2 = 1 then (v / 2) ^^^ (0xE1 * 2 ^ 120) else v / 2) z'

def gfMul (x h : Nat) : Nat := gfMulGo x 128 h 0

/-- GHASH over data zero-filled to blocks, from an accumulator. -/
def ghash (h : Nat) (acc : Nat) (data : Bytes) : Nat :=
  (chunks 16 data).foldl (fun a b => gfMul (a ^^^ beNat (fitBytes 16 b)) h) acc

/-- The hash key of GCM. -/
def gcmH (key : Bytes) : Nat := beNat (aesEnc key (zeros 16))

/-- The GCM tag from the accumulator after AAD and ciphertext. -/
def gcmTag (key nonce : Bytes) (acc aadLen ctLen : Nat) : Bytes :=
  let s := gfMul (acc ^^^ (aadLen * 8 * 2 ^ 64 + ctLen * 8)) (gcmH key)
  xorBytes (aesEnc key (nonce ++ [0, 0, 0, 1])) (beBytes 16 s)

/-- AES-GCM encryption with a 96-bit nonce (SP 800-38D): ciphertext and full tag. -/
def gcmSeal (key nonce aad pt : Bytes) : Bytes × Bytes :=
  let ct := (ctrXor key (nonce ++ [0, 0, 0, 2]) pt).1
  let h := gcmH key
  (ct, gcmTag key nonce (ghash h (ghash h 0 aad) ct) aad.length ct.length)

/-- AES-GCM decryption: the plaintext where the tag, of its own length, agrees. -/
def gcmOpen (key nonce aad ct tag : Bytes) : Option Bytes :=
  let h := gcmH key
  let t := gcmTag key nonce (ghash h (ghash h 0 aad) ct) aad.length ct.length
  if t.take tag.length = tag then some (ctrXor key (nonce ++ [0, 0, 0, 2]) ct).1 else none

/-- B0 of CCM with a 13-byte nonce, q = 2 (R258). -/
def ccmB0 (nonce : Bytes) (aadLen dataLen tagLen : Nat) : Bytes :=
  [BitVec.ofNat 8 ((if aadLen > 0 then 64 else 0) + 8 * ((tagLen - 2) / 2) + 1)] ++ nonce ++ beBytes 2 dataLen

/-- The AAD of CCM with its length field, zero-filled to blocks (at most 65,279 bytes, R258). -/
def ccmAad (aad : Bytes) : Bytes :=
  if aad.length = 0 then [] else
    let x := beBytes 2 aad.length ++ aad
    fitBytes ((x.length + 15) / 16 * 16) x

/-- Counter block i of CCM. -/
def ccmCtr (nonce : Bytes) (i : Nat) : Bytes := [0x01] ++ nonce ++ beBytes 2 i

/-- The default integrity value of KW. -/
def kwIcv : Bytes := List.replicate 8 0xA6

/-- The W function of SP 800-38F over n semiblocks. -/
def kwWrapGo (key : Bytes) : Nat → Nat → Bytes → List Bytes → List Bytes → Bytes × List Bytes
  | 0, _, a, done, rest => (a, done.reverse ++ rest)
  | f + 1, t, a, done, rest =>
    match rest with
    | [] =>
      match done.reverse with
      | [] => (a, [])
      | r :: rs =>
        let b := aesEnc key (a ++ r)
        kwWrapGo key f (t + 1) (xorBytes (b.take 8) (beBytes 8 t)) [b.drop 8] rs
    | r :: rs =>
      let b := aesEnc key (a ++ r)
      kwWrapGo key f (t + 1) (xorBytes (b.take 8) (beBytes 8 t)) (b.drop 8 :: done) rs

def kwW (key a : Bytes) (r : List Bytes) : Bytes :=
  let x := kwWrapGo key (6 * r.length) 1 a [] r
  x.1 ++ x.2.flatten

/-- The inverse of W: the list is kept reversed, so the last semiblock is taken first. -/
def kwUnwrapGo (key : Bytes) : Nat → Bytes → List Bytes → List Bytes → Bytes × List Bytes
  | 0, a, done, rest => (a, (done.reverse ++ rest).reverse)
  | t + 1, a, done, rest =>
    match rest with
    | [] =>
      match done.reverse with
      | [] => (a, [])
      | r :: rs =>
        let b := aesDec key (xorBytes a (beBytes 8 (t + 1)) ++ r)
        kwUnwrapGo key t (b.take 8) [b.drop 8] rs
    | r :: rs =>
      let b := aesDec key (xorBytes a (beBytes 8 (t + 1)) ++ r)
      kwUnwrapGo key t (b.take 8) (b.drop 8 :: done) rs

def kwUnW (key c : Bytes) : Bytes × Bytes :=
  let r := (chunks 8 (c.drop 8)).reverse
  let x := kwUnwrapGo key (6 * r.length) (c.take 8) [] r
  (x.1, x.2.flatten)

/-- AES-KW wrap (SP 800-38F) of a multiple of 8 bytes, default ICV. -/
def kwWrap (key p : Bytes) : Bytes := kwW key kwIcv (chunks 8 p)

/-- AES-KW unwrap: the plaintext, and whether the integrity value agrees. -/
def kwUnwrap (key c : Bytes) : Bytes × Bool :=
  let x := kwUnW key c
  (x.2, x.1 = kwIcv)

/-- AES-KWP wrap of at least one byte. -/
def kwpWrap (key p : Bytes) : Bytes :=
  let a := [0xA6, 0x59, 0x59, 0xA6] ++ beBytes 4 p.length
  let q := fitBytes ((p.length + 7) / 8 * 8) p
  if q.length = 8 then aesEnc key (a ++ q) else kwW key a (chunks 8 q)

/-- AES-KWP unwrap: the plaintext, and whether the integrity value, the length and the padding agree. -/
def kwpUnwrap (key c : Bytes) : Bytes × Bool :=
  let x := if c.length = 16 then let b := aesDec key c; (b.take 8, b.drop 8) else kwUnW key c
  let n := beNat (x.1.drop 4)
  let ok := x.1.take 4 = [0xA6, 0x59, 0x59, 0xA6] ∧ n ≤ x.2.length ∧ x.2.length < n + 8 ∧ (x.2.drop n).all (· = 0)
  (x.2.take n, ok)

/-- CBC encryption of whole blocks from a chaining value: the ciphertext and the next chaining value. -/
def cbcEnc (key : Bytes) : List Bytes → Bytes → Bytes × Bytes
  | [], v => ([], v)
  | b :: bs, v =>
    let c := aesEnc key (xorBytes b v)
    let r := cbcEnc key bs c
    (c ++ r.1, r.2)

/-- CBC decryption of whole blocks. -/
def cbcDec (key : Bytes) : List Bytes → Bytes → Bytes × Bytes
  | [], v => ([], v)
  | b :: bs, v =>
    let r := cbcDec key bs b
    (xorBytes (aesDec key b) v ++ r.1, r.2)

/-- The working state of a CTR_DRBG with AES-256 (SP 800-90A 10.2.1). -/
structure Drbg where
  key : Bytes
  v : Bytes
  count : Nat
deriving DecidableEq, Repr

namespace Drbg

/-- n blocks of output: V is raised by one before each. -/
def blocks (key : Bytes) : Nat → Bytes → Bytes × Bytes
  | 0, v => ([], v)
  | n + 1, v =>
    let v' := beBytes 16 (beNat v + 1)
    let r := blocks key n v'
    (aesEnc key v' ++ r.1, r.2)

/-- CTR_DRBG_Update with 48 bytes of provided data. -/
def update (d : Drbg) (data : Bytes) : Drbg :=
  let t := xorBytes (blocks d.key 3 d.v).1 data
  ⟨t.take 32, t.drop 32, d.count⟩

/-- Instantiation without a derivation function, from 48 bytes of seed material. -/
def instantiate (seed : Bytes) : Drbg := ⟨(update ⟨zeros 32, zeros 16, 0⟩ seed).key, (update ⟨zeros 32, zeros 16, 0⟩ seed).v, 1⟩

/-- Reseed from 48 bytes of seed material. -/
def reseed (d : Drbg) (seed : Bytes) : Drbg := { update d seed with count := 1 }

/-- Generate n bytes without additional input. -/
def generate (d : Drbg) (n : Nat) : Bytes × Drbg :=
  let r := blocks d.key ((n + 15) / 16) d.v
  (r.1.take n, { update ⟨d.key, r.2, d.count⟩ (zeros 48) with count := d.count + 1 })

end Drbg

end Sys2Proof.Machine
end

