-- ==== Sys2Proof/Machine/SMap.lean ====
section
/-! DEFINITION. Sparse maps from numbers, as sorted lists: the canonical form in which State holds memories, tables and
the dictionary. -/

namespace Sys2Proof.Machine

/-- A sparse map: pairs of a key and a value, keys strictly rising. -/
abbrev SMap (α : Type) := List (Nat × α)

namespace SMap

variable {α : Type}

/-- The value at a key. -/
def look : SMap α → Nat → Option α
  | [], _ => none
  | (k, v) :: m, q => if k = q then some v else look m q

/-- The value at a key, or the default. -/
def at' (m : SMap α) (q : Nat) (d : α) : α := (look m q).getD d

/-- The map with v at key q. -/
def put : SMap α → Nat → α → SMap α
  | [], q, v => [(q, v)]
  | (k, w) :: m, q, v =>
    if q < k then (q, v) :: (k, w) :: m else if q = k then (q, v) :: m else (k, w) :: put m q v

/-- The map without key q. -/
def del : SMap α → Nat → SMap α
  | [], _ => []
  | (k, w) :: m, q => if k = q then del m q else (k, w) :: del m q

/-- The map with v at q, where v equal to the default d removes the entry. -/
def store [DecidableEq α] (m : SMap α) (q : Nat) (v d : α) : SMap α := if v = d then del m q else put m q v

/-- f applied to the value at q (d where there is none). -/
def upd (m : SMap α) (q : Nat) (d : α) (f : α → α) : SMap α := put m q (f (at' m q d))

/-- The values in key order. -/
def vals (m : SMap α) : List α := List.map (fun p => p.2) m

/-- The canonical form: keys strictly rising. -/
def wf : SMap α → Bool
  | [] => true
  | [_] => true
  | (k, _) :: (l, w) :: m => decide (k < l) && wf ((l, w) :: m)

end SMap

/-- Saturating increment of a 32-bit statistic. -/
def sat32 (n k : Nat) : Nat := min (n + k) 0xFFFFFFFF

end Sys2Proof.Machine
end

