-- ==== Sys2Proof/Machine/State.lean ====
section
/-! DEFINITION. The state of the block: every register, object, queue, buffer and counter that the spec gives it. Each
field's docstring gives its width, the rule of spec/ that names it and its reset value. -/

namespace Sys2Proof.Machine

/-- Why a command stops the block. No command of this block faults: the type stands for the interface. -/
inductive Fault where
  /-- A cell memory access outside the cell, kept for a checker of the memory operations; no meaning raises it. Safe. -/
  | outsideMemory
deriving DecidableEq, Repr

/-- Why a command has no meaning. -/
inductive Refusal where
  /-- Raised by the arm of exec of a command that is not modelled. Safe. -/
  | notModelled (mnemonic : String)
deriving DecidableEq, Repr

/-- The value of a dictionary object: a number of the object's width, or the bytes of an OCTETS, LABEL or DOMAIN. -/
inductive Val where
  | num (n : Nat)
  | oct (b : Bytes)
deriving DecidableEq, Repr

/-- A message of the lane-1 queue (R169, R164). -/
inductive Lane1 where
  | bdpResp (origin : Nat) (msg : Bytes)
  | chfDown (frame : Bytes)
  | route (entries : List (Nat × Nat))
  | guardSet (mask on permit : Nat)
  | netConfig (idx sub : Nat) (value : Bytes)
  | netCommit (gen : Nat)
  | power (v : Nat)
  | recover (can : Nat)
  | hello (b fw : Nat)
  | key (k : Bytes) (b : Nat) (tag : Bytes)
  | idle
deriving DecidableEq, Repr

/-- A message of the lane-0 queue (R164). -/
inductive Lane0 where
  | hello (b rom gen cause : Nat)
  | keyAck (b : Nat) (tag : Bytes)
  | idle
  | bdpReq (origin : Nat) (msg : Bytes)
  | chfUp (frame : Bytes)
  | fieldReport (p : FieldReport)
  | inputEvent (e : List InputEntry)
  | outputSense (current : List Nat)
  | analogSense (reading : List Nat) (ovr : Nat)
  | netStatus (p : NetStatus)
deriving DecidableEq, Repr

/-- Admitted work that a cut may reach (R338). -/
inductive Work where
  | none
  | frameDown (n : Nat)          -- channel number
  | frameUp (field : Nat)        -- channel field as the frame carries it
  | segment (field : Nat)
  | pleRun (field : Nat)
  | attest
  | output (field : Nat)        -- Export, or a long operation that uses a key
deriving DecidableEq, Repr

/-- A receive record (R233). -/
structure RxRec where
  epoch : Nat
  seq : Nat
  adm : Nat
  time : Nat
  payload : Bytes
deriving DecidableEq, Repr

/-- The open journal export (R415). -/
structure ExportRun where
  stream : Bytes
  blocks : List Nat
  first : Nat
  last : Nat
deriving DecidableEq, Repr

/-- What a journal record says beside its admission, its time and its body: type, role and credential, slot, sub, index and
origin (R408). -/
structure RecHead where
  type : Nat
  rc : Nat
  slot : Nat
  sub : Nat
  idx : Nat
  origin : Nat
deriving DecidableEq, Repr

/-- What a release does beside sending its response (R186). -/
inductive Act where
  | lane1 (m : Lane1)                          -- joins the lane-1 queue
  | cause (bits : Nat)                         -- host-link cause bits
  | event (cell bits : Nat)                    -- applet event bits become pending
  | coreReset (cause : Nat)                    -- the core-die reset begins 1 ms later
  | fieldReset                                 -- the field-die reset begins 1 ms later
  | rxJoin (n : Nat) (rx : RxRec)              -- the record joins the channel's queue
  | streamOut (field : Nat) (b : Bytes)        -- bytes join the stream's Output
  | streamZero (field : Nat)                   -- tainted staging is zeroised
  | pleOut (field : Nat) (b : Bytes) (secret : Option (Bytes × Nat × Nat))   -- output; secret: key, holder, source node
  | endSession (slot : Nat)
  | cellRet (c : Nat) (regs : List (Nat × Nat)) (mem : List (Nat × Bytes))   -- the system call returns
  | cellStop (c : Nat)
  | setObj (key : Nat) (v : Val)               -- a staged persistent or volatile value (R339)
  | streamNonce (field : Nat) (b : Bytes)      -- 0x09 of a stream shows its IV (R272)
  | burnFloor (v : Nat)                        -- fuses of the security version floor (R131)
  | takeOwner (kt : Bytes) (service : Bool)    -- staged ownership (R356, R339)
  | pairSet (wrapped : Bytes)                  -- staged pair secret (R357, R339)
  | retireReset                                -- the reset of R359 begins 1 ms later
  | install (cell : Nat) (m : Bytes) (code : Nat)   -- an applet install ends with its code (R438)
  | openExport (run : ExportRun)               -- the journal export opens (R415)
  | ready (started : Bool)                     -- the toggle may start, and STARTED is set (R141, R177, R492)
  | hostOpen                                   -- the host link serves again (R504)
  | hostClose                                  -- the host link begins to close (R505)
  | attestReport (origin : Nat) (b : Bytes)
  | exportResult (slot : Nat) (b : Bytes)
  | sheaf (m : Bytes)                          -- a message to the partner
  | alarm (word : Nat)                         -- ALARM_N follows the alarm word of the admission (R485, R491)
  | fired (code cls : Nat) (body : Bytes)      -- an admission of this NOTE or CHECK fire is unreleased till here (R489)
  | lapse                                      -- a write of 0x2000.09 has brought the lapse of PROVISION to its own time (R506)
deriving DecidableEq, Repr

/-- One admitted or ordered request that has not been released (R186). -/
structure Slot where
  id : Nat                  -- the model's own number
  adm : Nat                 -- admission number, or that of the admission before a read
  numbered : Bool
  origin : Nat
  due : Nat                 -- device time of the release
  resp : Option Bytes
  bare : Option Bytes       -- the response without trailer, for a cut session (R338)
  code : Nat
  long : Bool               -- a long operation (R126)
  work : Work
  sess : Option Nat         -- the session that the response carries a trailer of
  nodes : List Nat          -- node numbers whose keys the work uses
  acts : List Act
deriving DecidableEq, Repr

/-- One session slot in use (R114 to R121). -/
structure Session where
  origin : Nat              -- 16 bits
  role : Nat                -- R99
  cred : Nat                -- 0 to 15
  bound : Bool
  nonce : Bytes             -- 16-byte client nonce
  chal : Bytes              -- 16-byte device challenge
  time : Nat                -- admitted time of BIND_REQUEST, then of the last admitted request
  last : Nat                -- last accepted counter
  orphaned : Bool           -- an ancestor of the credential was bumped (R121)
  epoch : Nat               -- credential epoch under which the session keys are derived (R349)
  parked : List Nat         -- admission numbers of outstanding parked contexts (R279)
  created : Nat             -- handle of 0xCA00.02
  exported : Bytes          -- 0xCA00.06
deriving DecidableEq, Repr

/-- An open segmented transfer (R109). -/
structure Transfer where
  origin : Nat
  sess : Option Nat
  writing : Bool
  idx : Nat
  sub : Nat
  total : Nat
  got : Nat                 -- bytes moved
  next : Nat                -- next expected segment number
  lastData : Bytes
  buf : Bytes               -- captured value, or bytes received
  time : Nat                -- device time of the last admitted or ordered segment
  inHost : Bool             -- the captured value depends on an open export (R418)
deriving DecidableEq, Repr

/-- A key node record (R318, R341). -/
structure Node where
  parent : Nat              -- parent node number; 0 for the fuse root
  level : Nat
  kind : Nat
  alg : Nat
  attrs : Nat
  label : Bytes
  pEpoch : Nat              -- parent epoch recorded
deriving DecidableEq, Repr

/-- A session secret node (R311). -/
structure Secret where
  key : Bytes
  holder : Nat              -- session slot, or 0x100 + cell
  source : Nat              -- source node of a decapsulate, or 0
  dead : Bool               -- ended by an epoch bump
deriving DecidableEq, Repr

/-- A counter ring (R399, R404). -/
structure Ring where
  words : SMap Nat          -- 64-bit word by position 0 to 127; unwritten positions absent
  bad : List Nat            -- unreadable positions
  corrected : Nat           -- corrected words found by scrub
  spare : Option Nat        -- spare ring that the map names
  aside : Option Nat        -- the spare location of R400, where a value was skipped to and the ring not yet relocated
deriving DecidableEq, Repr

/-- One entry of the persistent dictionary log (R395): the object, its value, and whether its words can be read. -/
structure DEntry where
  key : Nat
  val : Val
  readable : Bool
deriving DecidableEq, Repr

/-- One entry of the commit ring (R393): its admission, its byte position, and its commit mark. -/
structure CEntry where
  adm : Nat
  pos : Nat
  marked : Bool
deriving DecidableEq, Repr

/-- The commit ring (R392, R393): entries not yet overwritten, newest first, and the position of the next one. -/
structure CRing where
  entries : List CEntry
  pos : Nat
deriving DecidableEq, Repr

/-- Laps of the commit ring, of the dictionary log and of the journal ring, in rotating records (R392, R397). -/
structure Laps where
  commit : Nat
  dict : Nat
  jour : Nat
deriving DecidableEq, Repr

/-- A journal record in its position (R408). -/
structure JRec where
  bytes : Bytes             -- 64 bytes
  held : Bool
  pinned : Bool
  readable : Bool
deriving DecidableEq, Repr

/-- The Tephra journal (R407 to R413). -/
structure Journal where
  recs : SMap JRec          -- by position 0 to 66,559
  head : Nat                -- position of the next record
  chain : Bytes             -- chain value C
  anchors : SMap Bytes      -- by block
  order : List Nat          -- blocks in chain order, oldest first
  broken : Option Nat       -- position of the record that broke the chain
deriving DecidableEq, Repr

/-- A firmware image slot (R129). -/
structure Image where
  bytes : Bytes
  valid : Bool              -- valid marker
  shipped : Bool            -- the image of R11, which verifies (log 2)
  bad : Bool                -- scrub found a word that it cannot correct (R398)
deriving DecidableEq, Repr

/-- The manifest and image an applet cell holds in the applet store (R436). -/
structure AppletImage where
  manifest : Bytes
  readable : Bool
deriving DecidableEq, Repr

/-- The OTP fuses (R354). They are the only part of the block that no write can undo. -/
structure Otp where
  /-- 8 bits; 00 R9, 10 R354; reset 0xA5 PERSONALISED, DESIGN CHOICE (log 2). -/
  lifecycle : Nat
  /-- 1 bit; 10 R354, R359; reset not blown, DESIGN CHOICE (log 2). -/
  retired : Bool
  /-- 32 bits; 03 R85, 04 R131; reset 0, DESIGN CHOICE (log 2). -/
  floor : Nat
deriving DecidableEq, Repr

/-- The persistent store (R23, R391 to R398). -/
structure Pers where
  /-- persistent dictionary, objects that differ from their default; 12 R395; reset: nothing written, DESIGN CHOICE (log 2). -/
  dict : SMap Val
  /-- the log that the persistent dictionary is kept in, oldest entry first; 12 R395; reset empty, DESIGN CHOICE (log 2). -/
  dlog : List DEntry
  /-- the commit ring, 512 KB; 12 R392, R393; reset empty, DESIGN CHOICE (log 2). -/
  cring : CRing
  /-- lap counts, 32 bits each; 12 R397; reset 0, DESIGN CHOICE (log 2). -/
  laps : Laps
  /-- unreadable words of the journal anchors, the block table, the ring map and the rotating and reserved parts, by region code and word;
  12 R391, R570; reset none. -/
  lost : List (Nat × Nat)
  /-- 2,048 counter rings; 12 R399; reset: nothing written, DESIGN CHOICE (log 2). -/
  rings : SMap Ring
  /-- numbers of spare rings in use; 12 R404; reset none, DESIGN CHOICE (log 2). -/
  spares : List Nat
  /-- created nodes and applet roots by number; 10 R318, R321; reset none, DESIGN CHOICE (log 2). -/
  nodes : SMap Node
  /-- earlier allocations of a node number; 10 R321; reset none. -/
  allocs : SMap Nat
  /-- epoch table, 24 bits by node; 10 R327; reset 0 (R327, R331). -/
  epochs : SMap Nat
  /-- second copies of five epochs that are unreadable; 10 R332; reset none. -/
  badCopies : List Nat
  /-- epoch-table entries that are unreadable; 12 R398; reset none. -/
  badEpochs : List Nat
  /-- the Tephra journal; 12 R407; reset empty with the genesis chain (R410). -/
  jour : Journal
  /-- firmware slot A; 04 R129; reset the shipped image, DESIGN CHOICE (log 2). -/
  imageA : Image
  /-- firmware slot B; 04 R129; reset empty, DESIGN CHOICE (log 2). -/
  imageB : Image
  /-- preferred slot, 0 A, 1 B; 03 R85; reset A, DESIGN CHOICE (log 2). -/
  preferred : Nat
  /-- admission-block reservation; 03 R87; reset 0, DESIGN CHOICE (log 2). -/
  reserved : Nat
  /-- time checkpoint: device time; 03 R87; reset 0, DESIGN CHOICE (log 2). -/
  cpTime : Nat
  /-- time checkpoint: Sinter counter; 03 R87; reset 0, DESIGN CHOICE (log 2). -/
  cpRtc : Nat
  /-- greatest device time at which a commit completed; 03 R87; reset 0, DESIGN CHOICE (log 2). -/
  commitTime : Nat
  /-- wrapped pair secret; 10 R357; reset none, DESIGN CHOICE (log 2). -/
  pair : Option Bytes
  /-- applet store by cell; 13 R436; reset none, DESIGN CHOICE (log 2). -/
  applets : SMap AppletImage
  /-- tamper latch word: pending class, fires, lowest sensor code; 15 R487; reset clear, DESIGN CHOICE (log 2). -/
  latch : Option (Nat × Nat × Nat)
deriving DecidableEq, Repr

/-- The admission sequencer (R179 to R185). -/
structure Seq where
  /-- 64 bits, microseconds; 06 R182; reset 0, DESIGN CHOICE (log 2). -/
  time : Nat
  /-- 64 bits; 06 R185 0x2200.01; reset 0, DESIGN CHOICE (log 2). -/
  adm : Nat
  /-- 64 bits; 06 R185 0x2200.02; reset 0, DESIGN CHOICE (log 2). -/
  admTime : Nat
  /-- store budget in 1/4,000 of a token, of at most 4,096 tokens; 12 R396; reset full. -/
  budget : Int
  /-- admitted device time of the last budget evaluation; 12 R396; reset 0. -/
  budgetAt : Nat
  /-- a Retire has been admitted; 10 R359; reset no. -/
  retiring : Bool
  /-- a power failure stops admission; 02 R40; reset no. -/
  failing : Bool
  /-- device time of the last statistics admission; 05 R143; reset 0. -/
  statAt : Nat
  /-- role and credential byte, session slot and origin that the records of the admission in force carry; 12 R408; reset none (0xFF, 0xFF, 0). -/
  who : Nat × Nat × Nat
  /-- commits that have begun and not completed, newest first: admitted time, and the store before each; 02 R40, R41; reset none. -/
  commits : List (Nat × Pers)
  /-- increments and advances committed in the last second, by admitted time, newest first; 12 R401; reset none. -/
  counted : List (Nat × Nat)
  /-- the model's own slot numbers; log 15; reset 0, DESIGN CHOICE. -/
  nextId : Nat
  /-- the model's own count of free values drawn; log 15; reset 0, DESIGN CHOICE. -/
  draws : Nat
deriving DecidableEq, Repr

/-- The host-link controller (R134 to R142). -/
structure HostLink where
  /-- at most 4 buffered SEND messages; 05 R138; reset empty. -/
  buf : List Bytes
  /-- at most 16 queued replies, whole wire form; 05 R138, R139; reset empty. -/
  replies : List Bytes
  /-- requests sent to the partner and not yet answered or admitted; 05 R138, 17 R539; reset empty. -/
  away : List Bytes
  /-- last reply delivered whole; 05 R139; reset none. -/
  last : Option Bytes
  /-- what the last frame drove on QSPI_IO; 05 R134; reset empty. -/
  out : Bytes
  /-- RW1C cause bits; 05 R141; reset 0. -/
  cause : Nat
  /-- deadline of the closing of R505; 16 R505; reset none. -/
  closing : Option Nat
  /-- the link does not answer; 16 R505; reset no. -/
  closed : Bool
deriving DecidableEq, Repr

/-- An in-flight cell: its 16-byte descriptor and the frame it holds (R209). -/
structure InCell where
  field : Nat
  dir : Nat                 -- 1 down, 2 up
  adm : Nat
  tainted : Bool
  frame : Bytes
deriving DecidableEq, Repr

/-- The descriptor of a record cell (R209); the record that it holds carries its admission number. -/
structure RecCell where
  field : Nat
  tainted : Bool
  next : Option Nat         -- next record cell in the channel's queue
  adm : Nat
deriving DecidableEq, Repr

/-- The hidden part of a channel context (R208, R216). -/
structure Chan where
  /-- template values in use: interval, reply required, lost threshold, depth, maximum payload, failure limit (R216). -/
  tmpl : List Nat
  /-- missed heartbeat replies, 8 bits (R241). -/
  missed : Nat
  /-- consecutive authentication failures, 8 bits (R235). -/
  fails : Nat
  /-- next heartbeat due, device time (R239). -/
  due : Nat
  /-- a heartbeat is on the internal queue (R239). -/
  beating : Bool
  /-- last HELLO-driven rekey (R227). -/
  helloAt : Option Nat
  /-- switch admissions due, earliest first (R225). -/
  switchAt : List Nat
  /-- receive queue, oldest first (R233). -/
  queue : List RxRec
deriving DecidableEq, Repr

/-- A stream context (R267). -/
structure SCtx where
  mode : Nat
  dec : Bool
  tagLen : Nat
  handle : Nat
  epoch : Nat
  aadLen : Nat
  dataLen : Nat
  aadDone : Nat
  dataDone : Nat
  pend : Bytes
  segs : Nat
  iv : Bytes
  run : Bytes               -- 200 bytes, R268
  started : Bool
  beginAdm : Nat
  owner : Nat               -- origin
  sess : Nat                -- session slot
  parkAdm : Nat
deriving DecidableEq, Repr

/-- A stream slot (R266, R270): host slot s is 0 to 15; stream i of applet cell c is 0x100 + 2c + i. -/
structure Stream where
  state : Nat
  ctx : Option SCtx         -- discarded when the stream ends
  ownOrigin : Nat
  ownSess : Nat
  out : Bytes               -- readable output (R275)
  staged : Bytes            -- staged output (R276)
  result : Nat
  flags : Nat
  remain : Nat              -- bytes remaining
  nonce : Bytes             -- 0x09
  parked : Bytes            -- 0x0C
  hold : Bytes              -- input held in staging: KW data, or a MAC to compare
  withheld : Bool           -- Output is readable in DONE only (R276)
  mode : Nat                -- of the stream last begun: it sets the class of a segment after the end too (R274)
deriving DecidableEq, Repr

/-- A PLE slot (R304): host slot s is 0 to 7; the applet of cell c is 0x100 + c. -/
structure Ple where
  state : Nat
  ownOrigin : Nat
  ownSess : Nat
  input : Bytes
  out : Bytes
  result : Nat
  flags : Nat
  handle : Nat
deriving DecidableEq, Repr

/-- An entry of the internal queue (R179, origin 0x0000). -/
inductive IntReq where
  | forced (n : Nat)                           -- R226
  | hello (n : Nat)                            -- R227
  | cut (entries : List (Nat × Nat × Nat))     -- R237: field, direction, admission number
  | send (n : Nat) (payload : Bytes)           -- R232
  | heartbeat (n : Nat)                        -- R239
  | openUp (n : Nat)                           -- R249
  | fieldState (st : Nat) (hello : Option (Nat × Nat × Nat × Nat)) -- R78; of a completed bring-up B, ROM version, generation, cause
  | toggle (on : Bool)                         -- R457
  | entropy (cause : Nat)                      -- R388
  | report (changes : List (Nat × Val)) (store : Option (Nat × Nat × Nat × Nat))   -- R193
  | storeFault (region unit word : Nat)        -- R194
  | cellFault (c cause pc : Nat)               -- R434
  | tamper (code cls : Nat) (body : Bytes)     -- R485: the 24 bytes of R490
  | partition                                  -- R550
  | suspension (adm : Nat)                     -- R548
  | autoJoin                                   -- R91, R533
  | clocks (word : Nat)                        -- R79, R193: the clock monitor status without FIELD_CLK_OK
  | lapse                                      -- R506
  | pairState (v : Nat)                        -- R193, R533, R534: 0xF000.01 of a unit that a HELLO brings into a join, and after one that fails
deriving DecidableEq, Repr

/-- One key-node cache entry (R334). -/
structure CacheEnt where
  node : Nat
  used : Nat                -- the model's stamp of its last use
  key : Bytes               -- the node's key
  subkeys : Bytes           -- its two CMAC subkeys of 16 bytes
deriving DecidableEq, Repr

/-- A tiller (R374, R377): none before it is instantiated. -/
structure Tiller where
  drbg : Option Drbg
  buf : Bytes               -- output buffer of tillers 16 to 63
deriving DecidableEq, Repr

/-- The continuous health tests of one Fumarole (R372): its last raw bit and the run that it ends, and of the window of 1,024 bits the
first bit, how often it has come, and the bits seen. -/
structure Health where
  last : Option Bool
  run : Nat
  first : Bool
  same : Nat
  seen : Nat
deriving DecidableEq, Repr

/-- The tests as they begin (R380). -/
def Health.start : Health := ⟨none, 0, false, 0, 0⟩

/-- The entropy source (R366 to R391). -/
structure Rng where
  /-- the Fumaroles run; 11 R380; reset no. -/
  on : Bool
  /-- repetition count and adaptive proportion tests by Fumarole; 11 R372; reset with no bit seen. -/
  health : List Health
  /-- the trims in force in the last four windows of each Fumarole, newest first, the one at the start among them; 11 R380; reset none. -/
  recent : List (List Nat)
  /-- the start-up checks of R380: 9 while a balance loop has not converged, then the blocks of 128 bits still to be tested and discarded;
  reset 9. -/
  startup : Nat
  /-- 6-bit bias trims and windows at an end stop, by Fumarole; 11 R367, R380; reset mid-scale 32, 0. -/
  trims : List (Nat × Nat)
  /-- at most 16 conditioned blocks; 11 R371; reset empty. -/
  pool : List Bytes
  /-- 64 tillers; 11 R374; reset not instantiated. -/
  tillers : SMap Tiller
  /-- block masks in the reserve of lanes 0 and 1, at most 4,096 each; 08 R252; reset 0. -/
  masks : List Nat
  /-- failure cause, in the bits of 0x2300.02; 11 R390; reset 0. -/
  cause : Nat
  /-- reseeds since start-up, 32 bits; 11 R390; reset 0. -/
  reseeds : Nat
  /-- tillers that reseed before their next generate after SLUMBER; 11 R383; reset none. -/
  stale : List Nat
  /-- the value of 0x2100.02 read in CLEAR, 32 bits; 11 R374; reset 0, before CLEAR reads it. -/
  resets : Nat
deriving DecidableEq, Repr

/-- One record of the AUDIT log (R201, R203). -/
structure LogRec where
  adm : Nat
  bytes : Bytes
  reserve : Bool            -- it stands in the 4 KB reserve
deriving DecidableEq, Repr

/-- The AUDIT log (R201, R202). -/
structure Audit where
  /-- records held, oldest first; 06 R201; reset none. -/
  recs : List LogRec
  /-- the next record carries RESTART; 06 R201; reset no. -/
  restart : Bool
  /-- the length of the next record, for which the ring has no room, so that inputs are held; 0 for none; 06 R201; reset 0. -/
  need : Nat
deriving DecidableEq, Repr

/-- An applet cell (R426 to R434). -/
structure Cell where
  /-- x1 to x31, 32 bits, unlisted registers 0; 13 R429; reset 0 (R428). -/
  regs : SMap Word
  /-- 32 bits; 13 R428; reset 0, DESIGN CHOICE (log 2). -/
  pc : Word
  /-- 196,608 bytes, unlisted bytes 0; 13 R426; reset 0 (R76). -/
  mem : SMap Byte
  /-- C, the code length rounded up to 256; 13 R426; reset 0. -/
  code : Nat
  /-- why the cell started; 13 R428; reset 0. -/
  reason : Nat
  /-- blocked in a system call until its release; 13 R443; reset no. -/
  blocked : Bool
  /-- event mask and deadline of a WAIT, deadline 0 for none; 13 R448; reset none. -/
  waiting : Option (Nat × Nat)
  /-- pending event bits, 5 bits; 13 R448; reset 0. -/
  events : Nat
  /-- instructions retired since the last system call; 13 R430; reset 0. -/
  retired : Nat
  /-- an RNG_DATA read waits for its word, since this device time; 11 R386; reset none. -/
  stalled : Option Nat
  /-- stopped by a fault that waits for its admission; 13 R434; reset no. -/
  dead : Bool
  /-- blocked in a system call that waits for its admission; 06 R180, R184, 13 R429; reset no. -/
  issued : Bool
deriving DecidableEq, Repr

/-- The lockstep pair and applet install (R421 to R439). -/
structure Twc where
  /-- the cells; 13 R426; reset as no cell has run. -/
  cells : SMap Cell
  /-- the cell on the pair; 13 R429; reset none. -/
  current : Option Nat
  /-- the cell last run; 13 R429; reset 31, so that cell 0 comes first. -/
  last : Nat
  /-- tempo cycles of the current quantum; 13 R429; reset 0. -/
  cycles : Nat
  /-- origin that stages a manifest; 13 R437; reset none. -/
  stager : Option Nat
  /-- the staged manifest; 13 R437; reset empty. -/
  staged : Bytes
  /-- cells found faulted at this start-up, for the START record; 03 R89; reset none. -/
  failed : List Nat
deriving DecidableEq, Repr

/-- A join in progress on this unit (R534). -/
structure JoinRun where
  /-- 0xF000.01 before the join. -/
  prev : Nat
  /-- admitted device time of the join, or of the partner's HELLO. -/
  t0 : Nat
  full : Bool
  own : Bytes               -- nonce of this unit
  hello : Option (Bytes × Bytes × Nat × Bytes × Bool)   -- partner serial, nonce, last admission, chain, restarted
  proved : Bool
  pass : Nat                -- transfer passes ended
  sent : Nat                -- items of the pass under way
  theirs : Bool             -- the partner's own items have all come (R537)
  slot : Option Nat         -- model number of the Join's own slot
  outcome : Nat             -- abort code so far
deriving DecidableEq, Repr

/-- What one admission still waits for from the partner (R546). -/
structure Await where
  adm : Nat
  kind : Nat                -- 0x20 DIGEST, 0x21 COMMIT_ACK, 0x22 VERDICT
  due : Nat
deriving DecidableEq, Repr

/-- The Sheaf link controller and pair state (R524 to R554). -/
structure Sheaf where
  /-- K_sl, 32 bytes; 17 R531; reset none. -/
  key : Option Bytes
  /-- frame counter sent last, 64 bits; 17 R527; reset 0. -/
  sent : Nat
  /-- frame counter accepted last, 64 bits; 17 R527, R528; reset 0. -/
  got : Nat
  /-- frames kept until acknowledged, with their counters, oldest first; 17 R528; reset none. -/
  kept : List (Nat × Bytes)
  /-- resends of the oldest kept frame; 17 R528; reset 0. -/
  resends : Nat
  /-- messages queued for the partner; 17 R529; reset none. -/
  out : List Bytes
  /-- frames that have left on the link, oldest first; 17 R527; reset none. -/
  line : List Bytes
  /-- part of a message whose MORE flag is set; 17 R529; reset empty. -/
  part : Bytes
  /-- messages received and not yet acted on; 17 R529; reset none. -/
  inbox : List Bytes
  /-- the join in progress; 17 R534; reset none. -/
  join : Option JoinRun
  /-- pending concurrences: time, index, subindex, digest, whether homed on the follower; 17 R549; reset none. -/
  concur : List (Nat × Nat × Nat × Bytes × Bool)
  /-- own result digests not yet compared, whether whole, and abort codes; 17 R547; reset none. -/
  digests : SMap (Bytes × Bool × Nat)
  /-- partner digests that arrived first; 17 R547; reset none. -/
  theirs : SMap Bytes
  /-- what admissions wait for; 17 R546; reset none. -/
  awaits : List Await
  /-- dirty map: the last admission that changed an item, by 2^32 * item kind + number; 17 R536; reset none. -/
  dirty : SMap Nat
  /-- Local target by origin; 17 R554; reset 0xFF. -/
  targets : SMap Nat
  /-- the unit has started since it last applied a pair admission; 17 R532; reset no. -/
  restarted : Bool
  /-- X_L or X_F: last admission applied as part of the pair; 17 R535; reset 0. -/
  lastPair : Nat
  /-- the Tephra chain value after that admission, 32 bytes; 17 R532, R535; reset none. -/
  lastChain : Bytes
  /-- this unit follows its own sequence as a surviving follower; 17 R551; reset no. -/
  apart : Bool
  /-- the ADMIT of an internal admission of the follower: number, time and payload; 17 R539; reset none. -/
  grant : Option (Nat × Nat × Bytes)
  /-- payloads of internal admissions sent to the leader and not yet granted; 17 R525; reset none. -/
  asked : List Bytes
  /-- delivery table: records that await an owner homed here, by channel; 17 R542; reset empty. -/
  delivery : SMap (List RxRec)
  /-- items received and not applied before the cut-over: kind, number, stamp, value; 17 R536; reset none. -/
  items : List (Nat × Nat × Nat × Bytes)
  /-- device time of the last accepted frame; 17 R528; reset 0. -/
  heard : Nat
  /-- device time at which Ack through last advanced, or the oldest kept frame left; 17 R528; reset 0. -/
  acked : Nat
  /-- device time of the last frame sent; 17 R528; reset 0. -/
  spoke : Nat
  /-- the effects of admissions that the partner executes, as they enter the digest with its verdict: where it succeeds, and where not;
  17 R541, R547; reset none. -/
  owed : SMap (List Bytes × List Bytes)
deriving DecidableEq, Repr

/-- The history of one tamper sensor (R479). -/
structure Sense where
  fired : Bool
  times : List Nat          -- its last N - 1 events, newest first, in microseconds
  last : Nat                -- its last event
deriving DecidableEq, Repr

/-- A response of class RESET or higher under way (R486). -/
structure Resp where
  cls : Nat
  fires : Nat
  code : Nat                -- lowest sensor code of the class
  began : Nat               -- device time of its first fire
  at' : Nat                 -- device time of the fire that executes
  exec : Nat                -- sensor code of the fire that executes
  word : Nat × Nat × Nat    -- class, fires and code of the last latch commit that can begin in time (R489)
deriving DecidableEq, Repr

/-- TEM (R474 to R490). -/
structure Tem where
  /-- sensor histories by code; 15 R479; reset clear. -/
  sense : SMap Sense
  /-- low-side supply-window fires held: code, reading, threshold, time; 15 R476; reset none. -/
  held : List (Nat × Nat × Nat × Nat)
  /-- the response under way; 15 R486; reset none. -/
  resp : Option Resp
  /-- lid-mesh pattern driven, 16 bits; 15 R477; reset 0, DESIGN CHOICE (log 2). -/
  lid : BitVec 16
  /-- enclosure-mesh patterns driven, 16 bits each; 15 R478; reset 0, DESIGN CHOICE (log 2). -/
  mesh : SMap (BitVec 16)
  /-- SINTER_LOST and BATTERY_EVENTS await acknowledgement, bits 4 and 5 of 0xD800.01; 15 R491; reset 0. -/
  sticky : Nat
  /-- 0xD800.01 as ALARM_N shows it: the word of the last admission that has been released; 15 R485, R491; reset 0. -/
  alarm : Nat
deriving DecidableEq, Repr

/-- A Sinter log entry (R495), and what its TAMPER record carries beside the entry's 16 bytes (R489, R490; log 24). -/
structure SLog where
  time : Nat                -- 48 bits
  code : Nat
  cls : Nat
  flags : Nat
  reading : Nat             -- S20
  n : Nat
  thr : Nat                 -- threshold crossed, S20, or 0
  w : Nat                   -- window in force
  done : Bool               -- EXECUTED
  supp : Bool               -- SUPPRESSED
deriving DecidableEq, Repr

/-- The Sinter domain (R493 to R498). -/
structure Sinter where
  /-- real-time counter, 48 bits; 15 R498; reset 0, DESIGN CHOICE (log 2). -/
  rtc : Nat
  /-- fraction of a counter step, in 1/15,625; the model's own (log 15); reset 0. -/
  frac : Nat
  /-- Sinter key, 256 bits; 10 R350; reset none. -/
  key : Option Bytes
  /-- at most 64 entries, oldest first; 15 R495; reset empty, DESIGN CHOICE (log 2). -/
  log : List SLog
  /-- overflow count, 16 bits; 15 R495; reset 0. -/
  overflow : Nat
  /-- SEAL latch; 15 R484; reset clear. -/
  sealLatch : Bool
  /-- Sinter pending class; 15 R486, R494; reset none. -/
  pend : Option Nat
  /-- a loss of R45 is flagged; 02 R45, 15 R496; reset no. -/
  lost : Bool
  /-- consecutive events of the schedule by sensor; 15 R494; reset none. -/
  hits : SMap Nat
  /-- VIGIL when the schedule began; 15 R494; reset no. -/
  vigil : Bool
  /-- pattern generator, 64 bits; 15 R477; reset 1, DESIGN CHOICE (log 2). -/
  lfsr : BitVec 64
  /-- mesh patterns driven in the schedule: lid, meshes 0 to 3; 15 R493; reset 0, DESIGN CHOICE (log 2). -/
  pats : SMap (BitVec 16)
  /-- the 32.768 kHz oscillator runs; 02 R45, 03 R79; reset yes. -/
  osc : Bool
  /-- the 32-bit CRC over key, latch, counter and log agrees with them; 15 R496; reset yes. No rule gives its polynomial, so its value is not
  held (log 135). -/
  crcOk : Bool
deriving DecidableEq, Repr

/-- Supplies, resets and the permit toggle of the core die, and the board's part in them. -/
structure Boot where
  /-- every host rail but VDD_LVDS above its rising threshold; 02 R37, R39; reset yes. -/
  rails : Bool
  /-- VDDA_H in range; 02 R43; reset yes. -/
  vddah : Bool
  /-- VDD_LVDS in range; 02 R39; reset yes. -/
  lvds : Bool
  /-- RESET_N is low; 02 R54; reset no. -/
  pinLow : Bool
  /-- the core die waits for CORE_RESET_RELEASE; 02 R37; reset no. -/
  held : Bool
  /-- reset cause of the run, 0x2100.01; 03 R75; reset 0x01 POWER. -/
  cause : Nat
  /-- microseconds since reset release; 03 R78; reset 0. -/
  since : Nat
  /-- a deferred core-die reset: device time and cause; 03 R80; reset none. -/
  deferred : Option (Nat × Nat)
  /-- a deferred field-die reset: device time; 03 R80; reset none. -/
  deferredField : Option Nat
  /-- the core die drives the permit toggle; 01 R16, 05 R177; reset no. -/
  toggle : Bool
  /-- a self-test failed, so the next start-up halts; 04 R127; reset no. -/
  halt : Bool
  /-- device time of the last wake from HIBERNATE; 16 R521; reset none. -/
  woken : Option Nat
  /-- FIRMWARE has ended with an image; 03 R81; reset no. -/
  verified : Bool
  /-- RECOVER has ended in this run; 03 R82; reset no. -/
  recovered : Bool
  /-- a wake from HIBERNATE still instantiates its tillers, and serves nothing; 16 R523; reset no. -/
  waking : Bool
  /-- the start-up admission of this run has been made; 03 R89, R571; reset no. -/
  admitted : Bool
  /-- the clock monitor status as the monitors see it, without FIELD_CLK_OK; 03 R79; reset 0. -/
  clock : Nat
deriving DecidableEq, Repr

/-- One lane of the barrier link as its receiver keeps it (R165 to R168). -/
structure Lane where
  exp : Nat                 -- E, 64 bits
  drops : Nat               -- consecutive drops, to 16
  parts : SMap Bytes        -- message in assembly by cell type
deriving DecidableEq, Repr

/-- The core die's end of the barrier link (R163 to R178). -/
structure Bar where
  /-- bring-up number, 32 bits; 05 R174; reset 0, DESIGN CHOICE (log 2). -/
  b : Nat
  /-- a bring-up attempt is under way; 05 R174; reset no. -/
  trying : Bool
  /-- the link is up; 05 R174; reset no. -/
  up : Bool
  /-- K_link, 16 bytes, drawn or installed; 05 R174; reset none. -/
  key : Option Bytes
  /-- configuration generation, ROM version and reset cause of the field HELLO; 05 R174; reset none. -/
  hello : Option (Nat × Nat × Nat)
  /-- lane 0 as received; 05 R166; reset E = 1. -/
  rx : Lane
  /-- extended sequence of the last cell sent on lane 1; 05 R165; reset 0. -/
  sent : Nat
  /-- the lane-1 queue; 05 R169; reset empty. -/
  lane1 : List Lane1
  /-- messages and report cells assembled on lane 0 that await their step; 05 R168; reset none. -/
  ready : List Lane0
  /-- the barrier admission input, at most 1,024 messages; 06 R184; reset empty. -/
  input : List Lane0
  /-- output faults of the latest admitted FIELD_REPORT, 8 bits; 14 R461; reset 0. -/
  faults : Nat
  /-- release time of the admission that last commanded an output on, by output; 14 R458; reset none. -/
  cmdAt : SMap Nat
  /-- the cells that have left on lane 1, oldest first: what the lane shows; 05 R163, R164; reset none. -/
  wire : List Bytes
  /-- microseconds since reset release at which the last bring-up attempt began; 05 R174; reset none. -/
  tryAt : Option Nat
  /-- the same for the last valid cell on lane 0; 05 R176; reset 0. -/
  heard : Nat
  /-- the same for the last cell sent on lane 1; 05 R175; reset 0. -/
  spoke : Nat
  /-- the notice that the core die sent last: 0 awake, 1 asleep, 2 hibernating; 16 R519; reset 0. -/
  told : Nat
deriving DecidableEq, Repr

/-- A guard output of the field die (R459, R460). -/
structure FOut where
  on : Bool                 -- commanded on
  conducting : Bool
  fault : Bool
  retries : Nat             -- retries made
  first : Option Nat        -- field time at which it first conducted, microseconds
  since : Option Nat        -- field time at which it last began to conduct
  tripped : Option Nat      -- field time of the trip that waits for a retry
deriving DecidableEq, Repr

/-- A guard input of the field die (R467, R468). -/
structure FIn where
  f : Bool
  r : Bool
  run : Nat
  win : Option Nat          -- tick of the last raise while the window is open
  suppressed : Bool
  active : Option Nat       -- tick since which r is active
  stuck : Bool
deriving DecidableEq, Repr

/-- A network port of the field die (R155, R157, R171). -/
structure FPort where
  state : Nat
  tec : Nat
  recv : Nat
  received : Nat
  sent : Nat
  dropped : Nat
  recovering : Bool         -- bus-off recovery has been commanded (R156)
deriving DecidableEq, Repr

/-- A CAN FD reassembly context (R149). -/
structure Reasm where
  len : Nat
  data : Bytes
  next : Nat                -- next sequence, modulo 16
  time : Nat                -- field time of the last frame
deriving DecidableEq, Repr

/-- A frame that has left on a field network: the controller, its 11-bit identifier, whether BRS and ESI are set and the data field of a
CAN FD frame (R145 to R148), or the port and the bytes before the FCS of an Ethernet-class frame (R151). -/
inductive NetFrame where
  | can (ctl id : Nat) (brs esi : Bool) (data : Bytes)
  | eth (port : Nat) (frame : Bytes)
deriving DecidableEq, Repr

/-- What the field die does next at its own times (R455, R466, R171): the next tick of the sampler, and the field time at which each periodic
report was last sent (log 134). -/
structure FDue where
  tick : Nat
  report : Nat
  sense : Nat
  analog : Nat
  net : Nat
deriving DecidableEq, Repr

/-- The field die (R93, R144 to R178, R454 to R471, R519 to R522). -/
structure Field where
  /-- VFCORE, VFIO and VDDA_F above their rising thresholds; 02 R38, R39; reset yes. -/
  rails : Bool
  /-- VGUARD above its rising threshold; 02 R39; reset yes. -/
  vguardOk : Bool
  /-- FRST_N is low; 02 R54; reset no. -/
  pinLow : Bool
  /-- the field die runs; 03 R93; reset yes. -/
  run : Bool
  /-- last field reset cause; 03 R75; reset 0x01 FIELD_POWER. -/
  cause : Nat
  /-- field time in microseconds; 14 R467; reset 0. -/
  time : Nat
  /-- the permit toggle is live; 01 R16; reset no. -/
  toggle : Bool
  /-- 0 CORE_ABSENT, 1 KEYING, 2 link up; 05 R160; reset 0. -/
  link : Nat
  /-- bring-up number of KEYING; 05 R174; reset 0. -/
  b : Nat
  /-- K_link; 05 R174; reset none. -/
  key : Option Bytes
  /-- lane 1 as received; 05 R166; reset E = 1. -/
  rx : Lane
  /-- extended sequence of the last cell sent on lane 0; 05 R165; reset 0. -/
  sent : Nat
  /-- lane-1 cells dropped, 32 bits; 05 R161; reset 0. -/
  cellsDropped : Nat
  /-- network frames dropped, 32 bits; 05 R161; reset 0. -/
  framesDropped : Nat
  /-- the lane-0 queue; 05 R169; reset empty. -/
  lane0 : List Lane0
  /-- messages assembled on lane 1 that await their step; 05 R168; reset none. -/
  ready : List Lane1
  /-- route table: port and node by channel; 05 R170; reset empty. -/
  routes : SMap Nat
  /-- non-volatile settings by object key; 05 R159; reset none, the defaults, DESIGN CHOICE (log 2). -/
  nv : SMap Bytes
  /-- configuration generation of that copy, 32 bits; 05 R159; reset 0, DESIGN CHOICE (log 2). -/
  gen : Nat
  /-- settings received since the last commit; 05 R172; reset none. -/
  staged : List (Nat × Bytes)
  /-- guard outputs 0 to 7; 14 R459; reset off. -/
  outs : SMap FOut
  /-- PERMIT_OUT is commanded to run; 14 R464; reset no. -/
  permitCmd : Bool
  /-- the wave runs; 14 R464; reset no. -/
  wave : Bool
  /-- PERMIT_OUT level; 02 R49; reset low. -/
  permitOut : Bool
  /-- guard inputs 0 to 15, none before the first sample; 14 R467; reset none. -/
  ins : SMap FIn
  /-- INPUT_EVENT entries that wait to be sent; 14 R455; reset none. -/
  events : List InputEntry
  /-- VGUARD reading, S20; 05 R161; reset 0, DESIGN CHOICE (log 2). -/
  vguard : BitVec 20
  /-- field die temperature, S20; 05 R161; reset 0, DESIGN CHOICE (log 2). -/
  temp : BitVec 20
  /-- VGUARD_UV; 05 R161; reset clear. -/
  uv : Bool
  /-- network ports 0 to 6; 05 R171; reset disabled. -/
  ports : SMap FPort
  /-- reassembly contexts by 256 * controller + node; 05 R149; reset none. -/
  reasm : SMap Reasm
  /-- the core die's notice: 0 awake, 1 asleep, 2 hibernating; 16 R519; reset 0. -/
  notice : Nat
  /-- the 64 KB wake buffer, oldest first; 16 R520; reset empty. -/
  wake : List Lane0
  /-- the frames that have left on the networks, oldest first; 05 R144 to R151, R170; reset none. -/
  net : List NetFrame
  /-- the cells that have left on lane 0, oldest first: what the lane shows; 05 R163, R164; reset none. -/
  wire : List Bytes
  /-- field time of the last valid cell on lane 1; 05 R175; reset 0. -/
  heard : Nat
  /-- field time of the last cell sent on lane 0; 05 R175; reset 0. -/
  spoke : Nat
  /-- the model's own count of readings that the field die has taken of itself; log 15; reset 0, DESIGN CHOICE. -/
  samples : Nat
  /-- the sampler and the report periods; 05 R171, 14 R455, R466; reset 0. -/
  due : FDue
deriving DecidableEq, Repr

/-- The image that HIBERNATE writes (R522): what it holds, and its encryption under the image key of R350 with the tag, as they stand in
the store. -/
structure HibImage where
  adm : Nat
  time : Nat
  dict : SMap Val
  credit : SMap (Nat × Nat)
  budget : Int
  cause : Nat
  reports : List (Nat × Bytes)     -- attestation reports by origin, 0xCA10.02
  stager : Option Nat              -- origin of the staged manifest
  staged : Bytes                   -- the staged manifest, 0xD100.01
  cipher : Bytes
  tag : Bytes
deriving DecidableEq, Repr

/-- What the modes and power states keep beside their objects (R506, R510, R517, R522). -/
structure Modes where
  /-- origin whose write set PROVISION; 16 R510; reset 0. -/
  provBy : Nat
  /-- device time of the scheduled wake; 16 R517; reset none. -/
  wakeAt : Option Nat
  /-- the valid HIBERNATE image; 16 R522; reset none. -/
  image : Option HibImage
deriving DecidableEq, Repr

/-- Committed backlog of the modular PLE cores (R303): the admitted time at which each has drained its work, in 1/1,125 us, so that a
microsecond drains the 562.5 cc that background windows leave (R190, R301); and the core that took the last operation. -/
structure Cores where
  m0 : Nat
  m1 : Nat
  last : Nat
deriving DecidableEq, Repr

/-- Performance counters and tags (R555 to R567). -/
structure Perf where
  /-- 84 counters of 32 bits by 8 * block + counter; 18 R555; reset 0 (R558). -/
  cnt : SMap Nat
  /-- overflow bits, 8 bits by block; 18 R556; reset 0 (R558). -/
  ovf : SMap Nat
  /-- retired instructions to the next tag; 18 R565; reset none. -/
  next : Option Nat
  /-- 0xE200.04, 32 bits; 18 R566; reset 0. -/
  tags : Nat
  /-- the last 256 tag records, oldest first; 18 R566; reset empty. -/
  recs : List Bytes
  /-- tagging stopped for want of entropy; 18 R565; reset no. -/
  stuck : Bool
deriving DecidableEq, Repr


/-- The state of the block. -/
structure State where
  /-- commands that wait, first in, first out; the model's own; reset empty. -/
  pending : List Instr
  /-- OTP fuses; 10 R354. -/
  otp : Otp
  /-- the persistent store; 12 R391. -/
  pers : Pers
  /-- the admission sequencer; 06 R179. -/
  seq : Seq
  /-- the host link; 05 R134. -/
  host : HostLink
  /-- volatile dictionary image, objects that differ from their default; 04 R100; reset defaults. -/
  dict : SMap Val
  /-- statistics counted in hardware and not yet in the dictionary; 05 R143; reset 0. -/
  hw : SMap Nat
  /-- session slots 0 to 63; 04 R114; reset free. -/
  sessions : SMap Session
  /-- consecutive failed binds by origin, and the end of its lockout; 04 R118; reset none. -/
  lockouts : SMap (Nat × Option Nat)
  /-- by 16 * origin + event: the time of the last ACCESS record, none where there was no place for one, and the count since; 12 R411; reset
  none. -/
  access : SMap (Option Nat × Nat)
  /-- open segmented transfers, at most 16; 04 R109; reset none. -/
  transfers : List Transfer
  /-- requests admitted or ordered and not released; 06 R186; reset none. -/
  slots : List Slot
  /-- the internal queue; 06 R179; reset empty. -/
  internal : List IntReq
  /-- hidden channel contexts by channel; 07 R208; reset none. -/
  chans : SMap Chan
  /-- in-flight cells 0 to 2,047; 07 R209; reset empty. -/
  inflight : SMap InCell
  /-- record cells 0 to 14,335; 07 R209; reset empty. -/
  records : SMap RecCell
  /-- stream slots; 08 R270; reset idle. -/
  streams : SMap Stream
  /-- PLE slots; 09 R304; reset idle. -/
  ples : SMap Ple
  /-- session secret nodes; 09 R311; reset none. -/
  secrets : SMap Secret
  /-- attestation reports by order of attesting, origin first; 10 R361; reset none. -/
  reports : List (Nat × Bytes)
  /-- at most 256 entries, the five domain roots among them from RECOVER on; 10 R334; reset empty. -/
  cache : List CacheEnt
  /-- token-bucket credit and its time by counter; 12 R402; reset 0 at the start-up time. -/
  credit : SMap (Nat × Nat)
  /-- the open journal export; 12 R415; reset none. -/
  exportRun : Option ExportRun
  /-- the failure instant F of a health test has passed; 11 R388; reset no. -/
  entropyDown : Bool
  /-- the entropy source; 11 R366. -/
  rng : Rng
  /-- start-up stage, 0x2100.03, codes of R81; 0 while the core die is held in reset; 03 R78, R81; reset 0x01 CLEAR. -/
  stage : Nat
  /-- engine and PLE core faults: unit and times; 08 R256, 09 R300; reset none. -/
  unitFaults : SMap (List Nat)
  /-- modular cores; 09 R303; reset idle. -/
  cores : Cores
  /-- units whose fixed-vector check the next background window runs; 08 R256, 09 R300; reset none. -/
  forced : List Nat
  /-- the AUDIT log; 06 R201. -/
  audit : Audit
  /-- the lockstep pair and the cells; 13 R421. -/
  twc : Twc
  /-- the Sheaf link and pair; 17 R524. -/
  sheaf : Sheaf
  /-- power state of the core die, codes of R511; 16 R511; reset 0 RUN. -/
  power : Nat
  /-- TEM; 15 R474. -/
  tem : Tem
  /-- the Sinter domain; 15 R493. -/
  sinter : Sinter
  /-- supplies and resets of the core die; 02 R37, 03 R75. -/
  boot : Boot
  /-- the core die's end of the barrier; 05 R163. -/
  bar : Bar
  /-- the field die; 03 R93. -/
  field : Field
  /-- modes and power states; 16 R502. -/
  modes : Modes
  /-- performance counters and tags; 18 R555. -/
  perf : Perf
deriving DecidableEq, Repr

/-! The state after reset. -/

/-- The core die as a core-die reset leaves it (R76, R81): everything volatile at its start, at stage CLEAR. What the reset
keeps is given: the commands that wait, the fuses, the store, the Sinter domain, the supplies, the field die, device time as
numbering last held it, and the model's own counts. -/
def State.start (pending : List Instr) (otp : Otp) (pers : Pers) (sinter : Sinter) (boot : Boot) (field : Field) (b told nextId draws : Nat) : State :=
  { pending := pending, otp := otp, pers := pers
    seq := ⟨0, 0, 0, 4096 * 4000, 0, false, false, 0, (0xFF, 0xFF, 0), [], [], nextId, draws⟩
    host := ⟨[], [], [], none, [], 0, none, false⟩
    dict := [], hw := [], sessions := [], lockouts := [], access := [], transfers := [], slots := [], internal := [], chans := []
    inflight := [], records := [], streams := [], ples := [], secrets := [], reports := [], cache := [], credit := [], exportRun := none
    entropyDown := false
    rng := ⟨false, List.replicate 4 Health.start, List.replicate 4 [], 9, [(32, 0), (32, 0), (32, 0), (32, 0)], [], [], [0, 0], 0, 0, [], 0⟩
    stage := 1, unitFaults := [], forced := [], cores := ⟨0, 0, 0⟩
    audit := ⟨[], false, 0⟩
    twc := ⟨[], none, 31, 0, none, [], []⟩
    sheaf := ⟨none, 0, 0, [], 0, [], [], [], [], none, [], [], [], [], [], [], false, 0, [], false, none, [], [], [], 0, 0, 0, []⟩
    power := 0
    tem := ⟨[], [], none, 0, [], 0, 0⟩
    sinter := sinter, boot := boot
    bar := ⟨b, false, false, none, none, ⟨1, 0, []⟩, 0, [], [], [], 0, [], [], none, 0, 0, told⟩
    field := field
    modes := ⟨0, none, none⟩
    perf := ⟨[], [], none, 0, [], false⟩ }

/-- The persistent store as shipped (log 2). -/
def Pers.shipped : Pers :=
  { dict := [], dlog := [], cring := ⟨[], 0⟩, laps := ⟨0, 0, 0⟩, lost := [], rings := [], spares := [], nodes := [], allocs := [], epochs := [], badCopies := [], badEpochs := []
    jour := ⟨[], 0, genesis, [], [], none⟩
    imageA := ⟨Config.shippedImage, true, true, false⟩, imageB := ⟨[], false, false, false⟩, preferred := 0, reserved := 0, cpTime := 0
    cpRtc := 0, commitTime := 0, pair := none, applets := [], latch := none }

def Sinter.shipped : Sinter := ⟨0, 0, none, [], 0, false, none, false, [], false, 1, [], true, true⟩

def Boot.start : Boot := ⟨true, true, true, false, false, 1, 0, none, none, false, false, none, false, false, false, false, 0⟩

/-- The field die after its own power-on reset (R93). -/
def Field.start : Field :=
  { rails := true, vguardOk := true, pinLow := false, run := true, cause := 1, time := 0, toggle := false, link := 0, b := 0
    key := none, rx := ⟨1, 0, []⟩, sent := 0, cellsDropped := 0, framesDropped := 0, lane0 := [], ready := [], routes := []
    nv := [], gen := 0, staged := [], outs := [], permitCmd := false, wave := false, permitOut := false, ins := [], events := []
    vguard := 0, temp := 0, uv := false, ports := [], reasm := [], notice := 0, wake := [], net := [], wire := [], heard := 0, spoke := 0
    samples := 0, due := ⟨0, 0, 0, 0, 0⟩ }

/-- The block right after power-on: both dies out of reset with every rail in range, the core die at CLEAR (R81), a unit as
Lemgan ships it (log 2). -/
def State.reset : State :=
  State.start [] ⟨0xA5, false, 0⟩ Pers.shipped Sinter.shipped Boot.start Field.start 0 0 0 0

end Sys2Proof.Machine
end

