-- ==== Sys2Proof/Machine/Objects.lean ====
section
/-! DEFINITION. The object dictionary: types, access classes, roles, defaults and persistence of every object (R94 to
R101 and the object tables of every chapter), and the lookup of a descriptor. -/

namespace Sys2Proof.Machine

/-- Data types (R96). -/
inductive Ty where
  | bool | u8 | u16 | u32 | u64 | i32 | s20 | octets | label | handle | time64 | adm64 | domain
deriving DecidableEq, Repr

/-- Access classes (R98). -/
inductive Acc where
  | const | ro | rw | wo | rwx
deriving DecidableEq, Repr

/-- Role requirements (R99). -/
inductive Role where
  | any | operator | owner | service | pair
deriving DecidableEq, Repr

/-- The descriptor of an object: type, encoded size or maximum, access, role, PERSISTENT, LONG_OP, default. -/
structure Desc where
  ty : Ty
  size : Nat
  acc : Acc
  role : Role
  pers : Bool
  longOp : Bool
  dflt : Val
deriving DecidableEq, Repr

/-- A sensor of R474: class, filter count, window, low and high threshold, VIGIL class, count and window, minimum class,
bounds of the thresholds it uses, and whether it is fixed. -/
structure SensorRow where
  cls : Nat
  n : Nat
  w : Nat
  low : Int
  high : Int
  vcls : Nat
  vn : Nat
  vw : Nat
  min : Nat
  lowB : Option (Int × Int)
  highB : Option (Int × Int)
  fixed : Bool
deriving DecidableEq, Repr

namespace Dict

/-- 0x2100 (R78). -/
def tReset : List (Nat × Desc) := [
  (0x01, ⟨.u8, 1, .ro, .any, false, false, .num 0⟩),  -- Last core reset cause
  (0x02, ⟨.u32, 4, .ro, .any, true, false, .num 0⟩),  -- Core reset count
  (0x03, ⟨.u8, 1, .ro, .any, false, false, .num 0⟩),  -- Start-up stage
  (0x04, ⟨.u8, 1, .ro, .any, false, false, .num 0⟩),  -- Active firmware image
  (0x05, ⟨.u32, 4, .ro, .any, false, false, .num 0⟩),  -- Firmware security version
  (0x06, ⟨.u32, 4, .ro, .any, false, false, .num 0⟩),  -- Last start-up duration
  (0x07, ⟨.time64, 8, .ro, .any, true, false, .num 0⟩),  -- Device time at start-up
  (0x08, ⟨.adm64, 8, .ro, .any, true, false, .num 0⟩),  -- Start-up admission number
  (0x09, ⟨.u8, 1, .ro, .any, false, false, .num 0⟩),  -- Field die state
  (0x0A, ⟨.u8, 1, .ro, .any, false, false, .num 0⟩),  -- Last field reset cause
  (0x0B, ⟨.u32, 4, .ro, .any, false, false, .num 0⟩),  -- Clock monitor status
  (0x0C, ⟨.u8, 1, .rwx, .owner, false, false, .num 0⟩),  -- Core reset request
  (0x0D, ⟨.u8, 1, .rwx, .owner, false, false, .num 0⟩),  -- Field die reset request
  (0x0E, ⟨.bool, 1, .ro, .any, false, false, .num 0⟩)]  -- Image fallback

/-- 0x1010 (R122). -/
def tSessions : List (Nat × Desc) := [
  (0x01, ⟨.u8, 1, .ro, .any, false, false, .num 0⟩),  -- Active sessions
  (0x02, ⟨.u32, 4, .rw, .owner, true, false, .num 0x12c⟩),  -- Idle timeout
  (0x03, ⟨.u32, 4, .rw, .owner, true, false, .num 0x3c⟩),  -- Bind lockout
  (0x04, ⟨.u32, 4, .ro, .any, false, false, .num 0⟩),  -- Failed binds
  (0x05, ⟨.u32, 4, .ro, .any, false, false, .num 0⟩),  -- Tag failures
  (0x06, ⟨.u32, 4, .ro, .any, false, false, .num 0⟩),  -- Transfers discarded
  (0x07, ⟨.u64, 8, .ro, .any, false, false, .num 0⟩),  -- Slot map
  (0x08, ⟨.u8, 1, .ro, .any, false, false, .num 0⟩),  -- Pending binds
  (0x09, ⟨.u32, 4, .ro, .any, false, false, .num 0⟩)]  -- Last client abort code

/-- 0x1100 (R128). -/
def tFirmware : List (Nat × Desc) := [
  (0x01, ⟨.domain, 1048576, .wo, .owner, true, false, .oct []⟩),  -- Load image
  (0x02, ⟨.u8, 1, .ro, .any, false, false, .num 0⟩),  -- Load status
  (0x03, ⟨.u8, 1, .rwx, .owner, false, true, .num 0⟩),  -- Verify
  (0x04, ⟨.u8, 1, .rwx, .owner, false, false, .num 0⟩),  -- Activate
  (0x05, ⟨.u32, 4, .rwx, .owner, false, true, .num 0⟩),  -- Raise floor
  (0x06, ⟨.u32, 4, .ro, .any, false, false, .num 0⟩),  -- Security version floor
  (0x07, ⟨.octets, 32, .ro, .any, false, false, .oct (zeros 32)⟩),  -- Image A header digest
  (0x08, ⟨.octets, 32, .ro, .any, false, false, .oct (zeros 32)⟩)]  -- Image B header digest

/-- 0x1000 (R132). -/
def tIdentity : List (Nat × Desc) := [
  (0x01, ⟨.u32, 4, .const, .any, false, false, .num 0x4c4d⟩),  -- Vendor identifier
  (0x02, ⟨.u32, 4, .const, .any, false, false, .num 0x2820⟩),  -- Product code
  (0x03, ⟨.octets, 16, .const, .any, false, false, .oct (zeros 16)⟩),  -- Serial number
  (0x04, ⟨.u8, 1, .ro, .any, false, false, .num 0⟩),  -- Lifecycle state
  (0x05, ⟨.u16, 2, .ro, .any, false, false, .num 0⟩),  -- Silicon revision
  (0x06, ⟨.u32, 4, .ro, .any, false, false, .num 0⟩),  -- Firmware version
  (0x07, ⟨.label, 33, .rw, .operator, true, false, .oct [0]⟩),  -- Installation label
  (0x08, ⟨.u16, 2, .const, .any, false, false, .num 0x100⟩)]  -- Dictionary version

/-- 0x1020 (R142). -/
def tHostLink : List (Nat × Desc) := [
  (0x01, ⟨.u32, 4, .ro, .any, false, false, .num 0⟩),  -- SEND frames accepted
  (0x02, ⟨.u32, 4, .ro, .any, false, false, .num 0⟩),  -- Link errors
  (0x03, ⟨.u32, 4, .ro, .any, false, false, .num 0⟩),  -- Overruns
  (0x04, ⟨.u32, 4, .rw, .any, false, false, .num 0x1ff⟩)]  -- HIRQ enable

/-- 0x1200+n (R155). -/
def tCan : List (Nat × Desc) := [
  (0x01, ⟨.bool, 1, .rw, .owner, true, false, .num 0⟩),  -- Enable
  (0x02, ⟨.u32, 4, .rw, .owner, true, false, .num 0x7a120⟩),  -- Nominal bit rate
  (0x03, ⟨.u32, 4, .rw, .owner, true, false, .num 0x1e8480⟩),  -- Data bit rate
  (0x04, ⟨.u16, 2, .rw, .owner, true, false, .num 0x320⟩),  -- Nominal sample point
  (0x05, ⟨.u16, 2, .rw, .owner, true, false, .num 0x2ee⟩),  -- Data sample point
  (0x06, ⟨.u8, 1, .rw, .owner, true, false, .num 0⟩),  -- TDC offset
  (0x07, ⟨.u8, 1, .rw, .owner, true, false, .num 0⟩),  -- Bus-off recovery
  (0x08, ⟨.u8, 1, .rwx, .owner, false, false, .num 0⟩),  -- Recover now
  (0x09, ⟨.u8, 1, .ro, .any, false, false, .num 3⟩),  -- Bus state
  (0x0A, ⟨.u16, 2, .ro, .any, false, false, .num 0⟩),  -- Error counters
  (0x0B, ⟨.u32, 4, .ro, .any, false, false, .num 0⟩),  -- Frames received
  (0x0C, ⟨.u32, 4, .ro, .any, false, false, .num 0⟩),  -- Frames sent
  (0x0D, ⟨.u32, 4, .ro, .any, false, false, .num 0⟩)]  -- Frames dropped

/-- 0x1210+n (R157). -/
def tT1s : List (Nat × Desc) := [
  (0x01, ⟨.bool, 1, .rw, .owner, true, false, .num 0⟩),  -- Enable
  (0x02, ⟨.octets, 6, .rw, .owner, true, false, .oct (zeros 6)⟩),  -- MAC address
  (0x03, ⟨.bool, 1, .rw, .owner, true, false, .num 1⟩),  -- PLCA enable / PHY address
  (0x04, ⟨.u8, 1, .rw, .owner, true, false, .num 0⟩),  -- PLCA node ID
  (0x05, ⟨.u8, 1, .rw, .owner, true, false, .num 8⟩),  -- PLCA node count
  (0x06, ⟨.u8, 1, .rw, .owner, true, false, .num 0x20⟩),  -- PLCA TO timer
  (0x07, ⟨.u8, 1, .ro, .any, false, false, .num 0⟩),  -- Link state
  (0x08, ⟨.u32, 4, .ro, .any, false, false, .num 0⟩),  -- Frames received
  (0x09, ⟨.u32, 4, .ro, .any, false, false, .num 0⟩),  -- Frames sent
  (0x0A, ⟨.u32, 4, .ro, .any, false, false, .num 0⟩)]  -- Frames dropped

/-- 0x1F00 (R160). -/
def tFieldId : List (Nat × Desc) := [
  (0x01, ⟨.octets, 16, .const, .any, false, false, .oct (zeros 16)⟩),  -- Field die serial
  (0x02, ⟨.u32, 4, .const, .any, false, false, .num 0⟩),  -- Field ROM version
  (0x03, ⟨.u32, 4, .const, .any, false, false, .num 0x2820⟩),  -- Product code
  (0x04, ⟨.u8, 1, .ro, .any, false, false, .num 0⟩),  -- Core link state
  (0x05, ⟨.u8, 1, .ro, .any, false, false, .num 0⟩)]  -- Last field reset cause

/-- 0x1F01 (R161). -/
def tFieldHealth : List (Nat × Desc) := [
  (0x01, ⟨.s20, 4, .ro, .any, false, false, .num 0⟩),  -- VGUARD
  (0x02, ⟨.s20, 4, .ro, .any, false, false, .num 0⟩),  -- Field die temperature
  (0x03, ⟨.u8, 1, .ro, .any, false, false, .num 0⟩),  -- Guard outputs conducting
  (0x04, ⟨.u16, 2, .ro, .any, false, false, .num 0⟩),  -- Guard inputs active
  (0x05, ⟨.u32, 4, .ro, .any, false, false, .num 0⟩),  -- Seconds since field reset
  (0x06, ⟨.u32, 4, .ro, .any, false, false, .num 0⟩),  -- Network frames dropped
  (0x07, ⟨.u32, 4, .ro, .any, false, false, .num 0⟩),  -- Barrier cells dropped
  (0x08, ⟨.u32, 4, .ro, .any, false, false, .num 0⟩)]  -- Field status

/-- 0x1030 (R178). -/
def tBarrier : List (Nat × Desc) := [
  (0x01, ⟨.u32, 4, .ro, .any, false, false, .num 0⟩),  -- Bring-ups
  (0x02, ⟨.u32, 4, .ro, .any, false, false, .num 0⟩),  -- Link losses
  (0x03, ⟨.u64, 8, .ro, .any, false, false, .num 0⟩),  -- Cells received
  (0x04, ⟨.u64, 8, .ro, .any, false, false, .num 0⟩),  -- Cells sent
  (0x05, ⟨.u32, 4, .ro, .any, false, false, .num 0⟩),  -- Tag failures
  (0x06, ⟨.u32, 4, .ro, .any, false, false, .num 0⟩),  -- Window failures
  (0x07, ⟨.u32, 4, .ro, .any, false, false, .num 0⟩),  -- Cells lost
  (0x08, ⟨.u32, 4, .ro, .any, false, false, .num 0⟩),  -- Malformed cells
  (0x09, ⟨.u32, 4, .ro, .any, false, false, .num 0⟩),  -- Messages discarded
  (0x0A, ⟨.u32, 4, .ro, .any, true, false, .num 0⟩)]  -- Configuration generation

/-- 0x2200 (R185). -/
def tSequencer : List (Nat × Desc) := [
  (0x01, ⟨.adm64, 8, .ro, .any, false, false, .num 0⟩),  -- Last admission number
  (0x02, ⟨.time64, 8, .ro, .any, false, false, .num 0⟩),  -- Last admitted device time
  (0x03, ⟨.u32, 4, .ro, .any, false, false, .num 0⟩),  -- Input discards
  (0x04, ⟨.u16, 2, .const, .any, false, false, .num 0x100⟩)]  -- Release table version

/-- 0xDC80 (R205). -/
def tAudit : List (Nat × Desc) := [
  (0x01, ⟨.domain, 262144, .ro, .owner, false, false, .oct []⟩),  -- Log stream
  (0x02, ⟨.adm64, 8, .rw, .owner, false, false, .num 0⟩),  -- Release through
  (0x03, ⟨.adm64, 8, .ro, .any, false, false, .num 0⟩),  -- Oldest held
  (0x04, ⟨.u32, 4, .ro, .any, false, false, .num 0⟩),  -- Bytes held
  (0x05, ⟨.u32, 4, .ro, .any, false, false, .num 0⟩),  -- Holds
  (0x06, ⟨.adm64, 8, .ro, .any, false, false, .num 0⟩),  -- Log break
  (0x07, ⟨.u32, 4, .ro, .any, false, false, .num 0⟩)]  -- Breaks

/-- 0x4000+n (R212). -/
def tChannel : List (Nat × Desc) := [
  (0x01, ⟨.u8, 1, .ro, .any, false, false, .num 0⟩),  -- State
  (0x02, ⟨.handle, 4, .rw, .owner, true, false, .num 0⟩),  -- Key node
  (0x03, ⟨.u8, 1, .rw, .owner, true, false, .num 0⟩),  -- Template
  (0x04, ⟨.u16, 2, .rw, .owner, true, false, .num 0⟩),  -- Route
  (0x05, ⟨.u16, 2, .rw, .owner, true, false, .num 1⟩),  -- Owner
  (0x06, ⟨.u8, 1, .rwx, .operator, false, false, .num 0⟩),  -- Open
  (0x07, ⟨.u8, 1, .rwx, .operator, false, false, .num 0⟩),  -- Rekey
  (0x08, ⟨.u32, 4, .ro, .any, false, false, .num 0⟩),  -- Epoch
  (0x09, ⟨.u32, 4, .ro, .any, false, false, .num 0⟩),  -- Next down sequence
  (0x0A, ⟨.u32, 4, .ro, .any, false, false, .num 0⟩),  -- Last up sequence
  (0x0B, ⟨.u32, 4, .ro, .any, false, false, .num 0⟩),  -- Flags
  (0x0C, ⟨.u32, 4, .rwx, .operator, false, false, .num 0⟩),  -- Flag clear
  (0x0D, ⟨.u16, 2, .rw, .operator, true, false, .num 0⟩),  -- Heartbeat interval
  (0x0E, ⟨.domain, 212, .wo, .operator, false, false, .oct []⟩),  -- Send
  (0x0F, ⟨.domain, 244, .ro, .operator, false, false, .oct []⟩),  -- Receive
  (0x10, ⟨.u32, 4, .rwx, .operator, false, false, .num 0⟩),  -- Receive release
  (0x11, ⟨.u8, 1, .ro, .any, false, false, .num 0⟩),  -- Queue depth
  (0x12, ⟨.u32, 4, .ro, .any, false, false, .num 0⟩),  -- Frames sent
  (0x13, ⟨.u32, 4, .ro, .any, false, false, .num 0⟩),  -- Frames received
  (0x14, ⟨.u32, 4, .ro, .any, false, false, .num 0⟩),  -- Authentication failures
  (0x15, ⟨.u32, 4, .ro, .any, false, false, .num 0⟩),  -- Replays
  (0x16, ⟨.u32, 4, .ro, .any, false, false, .num 0⟩),  -- Rekeys
  (0x17, ⟨.time64, 8, .ro, .any, false, false, .num 0⟩),  -- Last upstream time
  (0x18, ⟨.u32, 4, .ro, .any, false, false, .num 0⟩)]  -- Endpoint status

/-- 0x3000+t (R215). -/
def tTemplate : List (Nat × Desc) := [
  (0x01, ⟨.u16, 2, .rw, .owner, true, false, .num 0x3e8⟩),  -- Heartbeat interval
  (0x02, ⟨.bool, 1, .rw, .owner, true, false, .num 1⟩),  -- Reply required
  (0x03, ⟨.u8, 1, .rw, .owner, true, false, .num 3⟩),  -- Lost threshold
  (0x04, ⟨.u8, 1, .rw, .owner, true, false, .num 4⟩),  -- Receive queue depth
  (0x05, ⟨.u8, 1, .rw, .owner, true, false, .num 0x24⟩),  -- Maximum payload
  (0x06, ⟨.u8, 1, .rw, .owner, true, false, .num 8⟩),  -- Authentication failure limit
  (0x07, ⟨.bool, 1, .rw, .owner, true, false, .num 0⟩)]  -- Open at start-up

/-- 0x3100 (R217). -/
def tPool : List (Nat × Desc) := [
  (0x01, ⟨.u16, 2, .const, .any, false, false, .num 0x3800⟩),  -- Record cells
  (0x02, ⟨.u16, 2, .ro, .any, false, false, .num 0x3800⟩),  -- Record cells free
  (0x03, ⟨.u16, 2, .ro, .any, false, false, .num 0x3800⟩),  -- Minimum free
  (0x04, ⟨.u32, 4, .ro, .any, false, false, .num 0⟩),  -- Pool-empty refusals
  (0x05, ⟨.u32, 4, .ro, .any, false, false, .num 0⟩)]  -- Tainted cells zeroised

/-- 0x3200 (R218). -/
def tHeartbeat : List (Nat × Desc) := [
  (0x01, ⟨.u32, 4, .ro, .any, false, false, .num 0⟩),  -- Heartbeat load
  (0x02, ⟨.u32, 4, .const, .any, false, false, .num 0x493e0⟩),  -- Load limit
  (0x03, ⟨.u32, 4, .ro, .any, false, false, .num 0xffffffff⟩)]  -- Lowest flagged channel

/-- 0xCF00+s (R270). -/
def tStream : List (Nat × Desc) := [
  (0x01, ⟨.u8, 1, .ro, .any, false, false, .num 0⟩),  -- State
  (0x02, ⟨.octets, 24, .rwx, .operator, false, false, .oct (zeros 24)⟩),  -- Begin
  (0x03, ⟨.domain, 32768, .wo, .operator, false, false, .oct []⟩),  -- Input
  (0x04, ⟨.domain, 32800, .ro, .operator, false, false, .oct []⟩),  -- Output
  (0x05, ⟨.u32, 4, .ro, .any, false, false, .num 0⟩),  -- Owner
  (0x06, ⟨.u32, 4, .ro, .operator, false, false, .num 0⟩),  -- Result
  (0x07, ⟨.u8, 1, .ro, .operator, false, false, .num 0⟩),  -- Compare flags
  (0x08, ⟨.u32, 4, .ro, .operator, false, false, .num 0⟩),  -- Bytes remaining
  (0x09, ⟨.octets, 16, .ro, .operator, false, false, .oct (zeros 16)⟩),  -- Stream nonce
  (0x0A, ⟨.u8, 1, .rwx, .operator, false, false, .num 0⟩),  -- End of data
  (0x0B, ⟨.u8, 1, .rwx, .operator, false, false, .num 0⟩),  -- Park
  (0x0C, ⟨.domain, 424, .rw, .operator, false, false, .oct []⟩),  -- Parked context
  (0x0D, ⟨.u8, 1, .rwx, .operator, false, false, .num 0⟩)]  -- Release

/-- 0xCF20 (R287). -/
def tEngine : List (Nat × Desc) := [
  (0x01, ⟨.u8, 1, .ro, .any, false, false, .num 0⟩),  -- Lane 0 state
  (0x02, ⟨.u8, 1, .ro, .any, false, false, .num 0⟩),  -- Lane 1 state
  (0x03, ⟨.u8, 1, .ro, .any, false, false, .num 0⟩),  -- DGE state
  (0x04, ⟨.u32, 4, .ro, .any, false, false, .num 0⟩),  -- Lane 0 twin mismatches
  (0x05, ⟨.u32, 4, .ro, .any, false, false, .num 0⟩),  -- Lane 1 twin mismatches
  (0x06, ⟨.u32, 4, .ro, .any, false, false, .num 0⟩),  -- DGE twin mismatches
  (0x07, ⟨.u32, 4, .ro, .any, false, false, .num 0⟩),  -- Compare fault alarms
  (0x08, ⟨.u8, 1, .ro, .any, false, false, .num 0⟩),  -- Host slots in use
  (0x09, ⟨.u16, 2, .ro, .any, false, false, .num 0⟩)]  -- Parked contexts outstanding

/-- 0xCF30+s (R304). -/
def tPle : List (Nat × Desc) := [
  (0x01, ⟨.u8, 1, .ro, .any, false, false, .num 0⟩),  -- State
  (0x02, ⟨.domain, 8192, .wo, .operator, false, false, .oct []⟩),  -- Input
  (0x03, ⟨.u8, 1, .rwx, .operator, false, false, .num 0⟩),  -- Run
  (0x04, ⟨.domain, 4096, .ro, .operator, false, false, .oct []⟩),  -- Output
  (0x05, ⟨.u32, 4, .ro, .any, false, false, .num 0⟩),  -- Owner
  (0x06, ⟨.u32, 4, .ro, .operator, false, false, .num 0⟩),  -- Result
  (0x07, ⟨.u8, 1, .ro, .operator, false, false, .num 0⟩),  -- Compare flags
  (0x08, ⟨.handle, 4, .ro, .operator, false, false, .num 0⟩),  -- Result handle
  (0x09, ⟨.u8, 1, .rwx, .operator, false, false, .num 0⟩)]  -- Release

/-- 0xCF38 (R316). -/
def tPleStatus : List (Nat × Desc) := [
  (0x01, ⟨.u8, 1, .ro, .any, false, false, .num 0⟩),  -- M0 state
  (0x02, ⟨.u8, 1, .ro, .any, false, false, .num 0⟩),  -- M1 state
  (0x03, ⟨.u8, 1, .ro, .any, false, false, .num 0⟩),  -- Polynomial core state
  (0x04, ⟨.u32, 4, .ro, .any, false, false, .num 0⟩),  -- Result-check failures
  (0x05, ⟨.u8, 1, .ro, .any, false, false, .num 0⟩),  -- Slots in use
  (0x06, ⟨.u16, 2, .ro, .any, false, false, .num 0⟩)]  -- Session secret nodes

/-- 0xCA00 (R343). -/
def tKeys : List (Nat × Desc) := [
  (0x01, ⟨.octets, 44, .rwx, .owner, false, false, .oct (zeros 44)⟩),  -- Create
  (0x02, ⟨.handle, 4, .ro, .owner, false, false, .num 0⟩),  -- Created handle
  (0x03, ⟨.handle, 4, .rwx, .owner, false, false, .num 0⟩),  -- Remove
  (0x04, ⟨.octets, 8, .rwx, .owner, false, false, .oct (zeros 8)⟩),  -- Bump
  (0x05, ⟨.octets, 8, .rwx, .owner, false, false, .oct (zeros 8)⟩),  -- Export
  (0x06, ⟨.octets, 48, .ro, .owner, false, false, .oct (zeros 48)⟩),  -- Export result
  (0x07, ⟨.u32, 4, .ro, .any, false, false, .num 0⟩),  -- Nodes allocated
  (0x08, ⟨.u32, 4, .ro, .any, false, false, .num 0⟩),  -- Cache fills
  (0x09, ⟨.u16, 2, .ro, .any, false, false, .num 5⟩),  -- Cache entries in use
  (0x0A, ⟨.u8, 1, .ro, .any, true, false, .num 0⟩)]  -- Owner root source

/-- 0xCA20 (R355). -/
def tOwnership : List (Nat × Desc) := [
  (0x01, ⟨.domain, 1088, .rwx, .any, false, true, .oct []⟩),  -- Take ownership
  (0x02, ⟨.octets, 48, .ro, .any, false, false, .oct (zeros 48)⟩),  -- Owner credential
  (0x03, ⟨.octets, 44, .rwx, .owner, false, true, .oct (zeros 44)⟩),  -- Pair secret
  (0x04, ⟨.u8, 1, .rwx, .owner, false, true, .num 0⟩),  -- Pair secret clear
  (0x05, ⟨.u32, 4, .rwx, .owner, false, true, .num 0⟩),  -- Retire
  (0x06, ⟨.bool, 1, .ro, .any, true, false, .num 0⟩),  -- Pair secret present
  (0x07, ⟨.domain, 1088, .rwx, .service, false, true, .oct []⟩),  -- Recover owner
  (0x08, ⟨.u32, 4, .rwx, .service, false, true, .num 0⟩)]  -- Service retire

/-- 0xCA10 (R360). -/
def tAttest : List (Nat × Desc) := [
  (0x01, ⟨.octets, 24, .rwx, .any, false, false, .oct (zeros 24)⟩),  -- Attest
  (0x02, ⟨.domain, 3389, .ro, .any, false, false, .oct []⟩),  -- Report
  (0x03, ⟨.domain, 1952, .const, .any, false, false, .oct []⟩),  -- Identity public key
  (0x04, ⟨.domain, 1184, .const, .any, false, false, .oct []⟩),  -- Transfer public key
  (0x05, ⟨.domain, 3309, .const, .any, false, false, .oct []⟩),  -- Lemgan endorsement
  (0x06, ⟨.octets, 16, .ro, .any, false, false, .oct (zeros 16)⟩)]  -- Applet set digest

/-- 0x2310 (R384). -/
def tRandom : List (Nat × Desc) := [
  (0x01, ⟨.octets, 16, .ro, .operator, false, false, .oct (zeros 16)⟩),  -- Random 16
  (0x02, ⟨.octets, 24, .ro, .operator, false, false, .oct (zeros 24)⟩),  -- Random 24
  (0x03, ⟨.domain, 1024, .ro, .operator, false, false, .oct []⟩)]  -- Random block

/-- 0x2300 (R390). -/
def tEntropy : List (Nat × Desc) := [
  (0x01, ⟨.u8, 1, .ro, .any, false, false, .num 0⟩),  -- State
  (0x02, ⟨.u16, 2, .ro, .any, false, false, .num 0⟩),  -- Failure cause
  (0x03, ⟨.time64, 8, .ro, .any, false, false, .num 0⟩),  -- Failed at
  (0x04, ⟨.u64, 8, .ro, .any, false, false, .num 0⟩),  -- Tillers instantiated
  (0x05, ⟨.u32, 4, .ro, .any, false, false, .num 0⟩),  -- Reseeds
  (0x06, ⟨.u16, 2, .const, .any, false, false, .num 0x1f4⟩),  -- Assessed min-entropy
  (0x07, ⟨.u16, 2, .const, .any, false, false, .num 0x51⟩),  -- RCT cutoff
  (0x08, ⟨.u16, 2, .const, .any, false, false, .num 0x33a⟩)]  -- APT cutoff

/-- 0xC000+k (R405). -/
def tCounter : List (Nat × Desc) := [
  (0x01, ⟨.u64, 8, .ro, .any, true, false, .num 0⟩),  -- Value
  (0x02, ⟨.u64, 8, .rwx, .operator, false, false, .num 0⟩),  -- Increment
  (0x03, ⟨.u64, 8, .rwx, .owner, false, false, .num 0⟩),  -- Advance
  (0x04, ⟨.u16, 2, .rw, .owner, true, false, .num 0⟩),  -- Owner
  (0x05, ⟨.u16, 2, .ro, .any, false, false, .num 0⟩),  -- Tokens
  (0x06, ⟨.adm64, 8, .ro, .any, false, false, .num 0⟩),  -- Last change admission
  (0x07, ⟨.time64, 8, .ro, .any, false, false, .num 0⟩),  -- Last change time
  (0x08, ⟨.adm64, 8, .ro, .any, false, false, .num 0⟩),  -- Unmirrored since
  (0x09, ⟨.u8, 1, .ro, .any, false, false, .num 0⟩),  -- Ring state
  (0x0A, ⟨.u8, 1, .rw, .pair, true, false, .num 0⟩)]  -- Custody

/-- 0xDC00 (R414). -/
def tJournal : List (Nat × Desc) := [
  (0x01, ⟨.u8, 1, .rw, .owner, true, false, .num 0⟩),  -- Policy
  (0x02, ⟨.u32, 4, .ro, .any, false, false, .num 0⟩),  -- Records held
  (0x03, ⟨.u16, 2, .ro, .any, false, false, .num 0⟩),  -- Pinned records
  (0x04, ⟨.u16, 2, .ro, .any, false, false, .num 0⟩),  -- Pinned blocks
  (0x05, ⟨.u64, 8, .ro, .any, true, false, .num 0⟩),  -- Records lost
  (0x06, ⟨.adm64, 8, .ro, .any, false, false, .num 0⟩),  -- Newest admission
  (0x07, ⟨.adm64, 8, .ro, .any, true, false, .num 0⟩),  -- Released through
  (0x08, ⟨.octets, 32, .ro, .any, false, false, .oct (zeros 32)⟩),  -- Chain head
  (0x09, ⟨.u32, 4, .ro, .any, false, false, .num 0⟩),  -- Status
  (0x0A, ⟨.u32, 4, .ro, .any, true, false, .num 0⟩)]  -- Pin overflows

/-- 0xDC10 (R415). -/
def tExport : List (Nat × Desc) := [
  (0x01, ⟨.octets, 16, .rwx, .owner, false, true, .oct (zeros 16)⟩),  -- Start
  (0x02, ⟨.domain, 4304845, .ro, .owner, false, false, .oct []⟩),  -- Stream
  (0x03, ⟨.u8, 1, .ro, .any, false, false, .num 0⟩),  -- State
  (0x04, ⟨.octets, 16, .ro, .any, false, false, .oct (zeros 16)⟩),  -- Range
  (0x05, ⟨.adm64, 8, .rwx, .owner, false, false, .num 0⟩),  -- Release through
  (0x06, ⟨.u8, 1, .rwx, .owner, false, false, .num 0⟩)]  -- Close

/-- 0xDC20 (R419). -/
def tStore : List (Nat × Desc) := [
  (0x01, ⟨.u16, 2, .ro, .any, false, false, .num 0x1000⟩),  -- Store budget
  (0x02, ⟨.u32, 4, .ro, .any, false, false, .num 0⟩),  -- Corrected words
  (0x03, ⟨.u32, 4, .ro, .any, true, false, .num 0⟩),  -- Uncorrectable words
  (0x04, ⟨.u8, 1, .ro, .any, true, false, .num 0x40⟩),  -- Spare rings free
  (0x05, ⟨.u32, 4, .ro, .any, false, false, .num 0⟩),  -- Wear status
  (0x06, ⟨.u32, 4, .ro, .any, true, false, .num 0⟩),  -- Commit ring laps
  (0x07, ⟨.u32, 4, .ro, .any, true, false, .num 0⟩),  -- Dictionary log laps
  (0x08, ⟨.u32, 4, .ro, .any, true, false, .num 0⟩),  -- Journal laps
  (0x09, ⟨.u32, 4, .ro, .any, false, false, .num 0⟩)]  -- Scrub passes

/-- 0xD100 (R437). -/
def tInstall : List (Nat × Desc) := [
  (0x01, ⟨.domain, 203360, .wo, .owner, false, false, .oct []⟩),  -- Load manifest
  (0x02, ⟨.u8, 1, .ro, .any, false, false, .num 0⟩),  -- Load status
  (0x03, ⟨.u8, 1, .rwx, .owner, false, true, .num 0⟩),  -- Install
  (0x04, ⟨.u8, 1, .rwx, .owner, false, false, .num 0⟩),  -- Remove
  (0x05, ⟨.domain, 1952, .const, .any, false, false, .oct []⟩),  -- Lemgan applet key
  (0x06, ⟨.domain, 1952, .rw, .owner, true, false, .oct []⟩),  -- Owner applet key
  (0x07, ⟨.u32, 4, .ro, .any, false, false, .num 0⟩)]  -- Last install result

/-- 0xD000+c (R441). -/
def tCell : List (Nat × Desc) := [
  (0x01, ⟨.u8, 1, .ro, .any, false, false, .num 0⟩),  -- State
  (0x02, ⟨.octets, 16, .ro, .any, true, false, .oct (zeros 16)⟩),  -- Applet identifier
  (0x03, ⟨.u32, 4, .ro, .any, true, false, .num 0⟩),  -- Applet version
  (0x04, ⟨.octets, 32, .ro, .any, true, false, .oct (zeros 32)⟩),  -- Install digest
  (0x05, ⟨.u8, 1, .ro, .any, true, false, .num 0⟩),  -- Granted role
  (0x06, ⟨.u8, 1, .ro, .any, true, false, .num 0⟩),  -- Manifest flags
  (0x07, ⟨.u8, 1, .ro, .any, false, false, .num 0⟩),  -- Fault cause
  (0x08, ⟨.u32, 4, .ro, .any, false, false, .num 0⟩),  -- Fault pc
  (0x09, ⟨.u8, 1, .rwx, .owner, false, false, .num 0⟩),  -- Control
  (0x0A, ⟨.bool, 1, .rw, .owner, true, false, .num 1⟩),  -- Run at start-up
  (0x0B, ⟨.octets, 24, .rw, .operator, false, false, .oct (zeros 24)⟩),  -- Mailbox in
  (0x0C, ⟨.octets, 24, .ro, .operator, false, false, .oct (zeros 24)⟩),  -- Mailbox out
  (0x0D, ⟨.u32, 4, .ro, .any, false, false, .num 0⟩),  -- System calls admitted
  (0x0E, ⟨.u32, 4, .ro, .any, false, false, .num 0⟩),  -- Faults
  (0x0F, ⟨.octets, 32, .ro, .any, true, false, .oct (zeros 32)⟩)]  -- Write ranges

/-- 0xDB00+n (R462). -/
def tOutput : List (Nat × Desc) := [
  (0x01, ⟨.u8, 1, .rwx, .operator, false, false, .num 0⟩),  -- Command
  (0x02, ⟨.u16, 2, .rw, .owner, true, false, .num 0⟩),  -- Pulse time
  (0x03, ⟨.u8, 1, .rw, .owner, true, false, .num 3⟩),  -- Retry count
  (0x04, ⟨.u16, 2, .rw, .owner, true, false, .num 0x3e8⟩),  -- Retry interval
  (0x05, ⟨.u16, 2, .rw, .owner, true, false, .num 0⟩),  -- Open-load threshold
  (0x06, ⟨.u8, 1, .ro, .any, false, false, .num 0⟩),  -- State
  (0x07, ⟨.s20, 4, .ro, .any, false, false, .num 0⟩),  -- Current
  (0x08, ⟨.u32, 4, .ro, .any, false, false, .num 0⟩)]  -- Trips

/-- 0xDB10+n (R470). -/
def tInput : List (Nat × Desc) := [
  (0x01, ⟨.bool, 1, .ro, .any, false, false, .num 0⟩),  -- Level
  (0x02, ⟨.u8, 1, .ro, .any, false, false, .num 0⟩),  -- State
  (0x03, ⟨.u8, 1, .rw, .owner, true, false, .num 4⟩),  -- Filter count
  (0x04, ⟨.u16, 2, .rw, .owner, true, false, .num 0x64⟩),  -- Event window
  (0x05, ⟨.u16, 2, .rw, .owner, true, false, .num 0⟩),  -- Stuck time
  (0x06, ⟨.bool, 1, .rw, .owner, true, false, .num 0⟩),  -- Invert
  (0x07, ⟨.u32, 4, .ro, .any, false, false, .num 0⟩),  -- Events
  (0x08, ⟨.u16, 2, .ro, .any, false, false, .num 0⟩),  -- Chatter windows
  (0x09, ⟨.u32, 4, .ro, .any, false, false, .num 0⟩),  -- Last event time
  (0x0A, ⟨.adm64, 8, .ro, .any, false, false, .num 0⟩)]  -- Last event admission

/-- 0xDB20+n (R472). -/
def tAnalog : List (Nat × Desc) := [
  (0x01, ⟨.s20, 4, .ro, .any, false, false, .num 0⟩),  -- Reading
  (0x02, ⟨.bool, 1, .rw, .owner, true, false, .num 0⟩),  -- Enable
  (0x03, ⟨.s20, 4, .rw, .operator, true, false, .num 0xfff80000⟩),  -- Low limit
  (0x04, ⟨.s20, 4, .rw, .operator, true, false, .num 0x7ffff⟩),  -- High limit
  (0x05, ⟨.u8, 1, .ro, .any, false, false, .num 0⟩),  -- Limit status
  (0x06, ⟨.u32, 4, .ro, .any, false, false, .num 0⟩)]  -- Limit crossings

/-- 0xDB30 (R473). -/
def tFieldIo : List (Nat × Desc) := [
  (0x01, ⟨.u8, 1, .rwx, .operator, false, false, .num 0⟩),  -- Permit run
  (0x02, ⟨.u8, 1, .ro, .any, false, false, .num 0⟩),  -- Permit state
  (0x03, ⟨.octets, 2, .rwx, .operator, false, false, .oct (zeros 2)⟩),  -- Output set
  (0x04, ⟨.u16, 2, .rw, .owner, true, false, .num 0x64⟩),  -- Analog report interval
  (0x05, ⟨.bool, 1, .rw, .owner, true, false, .num 0⟩),  -- AREF enable
  (0x06, ⟨.u8, 1, .ro, .any, false, false, .num 0⟩),  -- Toggle recorded
  (0x07, ⟨.u32, 4, .ro, .any, false, false, .num 0⟩)]  -- Permit cuts

/-- 0xDA00+k (R481). -/
def tSensor : List (Nat × Desc) := [
  (0x01, ⟨.u8, 1, .rw, .owner, true, false, .num 0⟩),  -- Class
  (0x02, ⟨.u8, 1, .rw, .owner, true, false, .num 0⟩),  -- Filter count
  (0x03, ⟨.u32, 4, .rw, .owner, true, false, .num 0⟩),  -- Window
  (0x04, ⟨.s20, 4, .rw, .owner, true, false, .num 0⟩),  -- Low threshold
  (0x05, ⟨.s20, 4, .rw, .owner, true, false, .num 0⟩),  -- High threshold
  (0x06, ⟨.u8, 1, .rw, .owner, true, false, .num 0⟩),  -- VIGIL class
  (0x07, ⟨.u8, 1, .rw, .owner, true, false, .num 0⟩),  -- VIGIL filter count
  (0x08, ⟨.u32, 4, .rw, .owner, true, false, .num 0⟩),  -- VIGIL window
  (0x09, ⟨.u8, 1, .const, .any, false, false, .num 0⟩),  -- Minimum class
  (0x0A, ⟨.s20, 4, .ro, .any, false, false, .num 0⟩),  -- Reading
  (0x0B, ⟨.u8, 1, .ro, .any, false, false, .num 0⟩),  -- State
  (0x0C, ⟨.u16, 2, .ro, .any, true, false, .num 0⟩),  -- Event count
  (0x0D, ⟨.adm64, 8, .ro, .any, false, false, .num 0⟩)]  -- Last event admission

/-- 0xD800 (R491). -/
def tTamper : List (Nat × Desc) := [
  (0x01, ⟨.u32, 4, .ro, .any, false, false, .num 0⟩),  -- Alarm
  (0x02, ⟨.u8, 1, .ro, .any, false, false, .num 0xff⟩),  -- Highest class
  (0x03, ⟨.u16, 2, .ro, .any, false, false, .num 0xffff⟩),  -- Last sensor
  (0x04, ⟨.adm64, 8, .ro, .any, false, false, .num 0⟩),  -- Last event admission
  (0x05, ⟨.adm64, 8, .ro, .any, false, false, .num 0⟩),  -- Newest unacknowledged
  (0x06, ⟨.u16, 2, .ro, .any, false, false, .num 0⟩),  -- Pinned tamper records
  (0x07, ⟨.u32, 4, .ro, .any, true, false, .num 0⟩),  -- Responses
  (0x08, ⟨.u16, 2, .ro, .any, false, false, .num 0⟩)]  -- Sinter log overflow

/-- 0xD810 (R498). -/
def tSinter : List (Nat × Desc) := [
  (0x01, ⟨.u64, 8, .ro, .any, false, false, .num 0⟩),  -- Real-time counter
  (0x02, ⟨.u8, 1, .ro, .any, false, false, .num 0⟩),  -- Log entries
  (0x03, ⟨.domain, 1024, .ro, .any, false, false, .oct []⟩),  -- Log
  (0x04, ⟨.s20, 4, .ro, .any, false, false, .num 0⟩),  -- VBAT
  (0x05, ⟨.u32, 4, .ro, .any, false, false, .num 0⟩)]  -- Status

/-- 0xD802 (R501). -/
def tCaldera : List (Nat × Desc) := [
  (0x01, ⟨.u8, 1, .ro, .any, true, false, .num 0⟩),  -- State
  (0x02, ⟨.u32, 4, .ro, .any, true, false, .num 0⟩),  -- Entries
  (0x03, ⟨.adm64, 8, .ro, .any, true, false, .num 0⟩),  -- Entered at
  (0x04, ⟨.u8, 1, .rwx, .service, false, false, .num 0⟩)]  -- Leave

/-- 0x2000 (R502). -/
def tModes : List (Nat × Desc) := [
  (0x01, ⟨.u32, 4, .ro, .any, false, false, .num 0⟩),  -- Mode word
  (0x02, ⟨.bool, 1, .ro, .any, true, false, .num 0⟩),  -- SHEAF
  (0x03, ⟨.u8, 1, .rwx, .service, false, false, .num 0⟩),  -- SERVICE
  (0x04, ⟨.u8, 1, .rwx, .owner, true, false, .num 0⟩),  -- ISLAND
  (0x05, ⟨.u8, 1, .rwx, .operator, true, false, .num 0⟩),  -- VIGIL
  (0x06, ⟨.u8, 1, .rwx, .owner, true, false, .num 0⟩),  -- AUDIT
  (0x07, ⟨.u8, 1, .rwx, .owner, false, false, .num 0⟩),  -- PROVISION
  (0x08, ⟨.bool, 1, .rw, .owner, true, false, .num 0⟩),  -- Service allowed
  (0x09, ⟨.u32, 4, .rw, .owner, true, false, .num 0x384⟩),  -- Provision lapse
  (0x0A, ⟨.time64, 8, .ro, .any, false, false, .num 0⟩),  -- Provision set at
  (0x0B, ⟨.u8, 1, .ro, .any, false, false, .num 4⟩)]  -- Mode power cap

/-- 0x2010 (R515). -/
def tPower : List (Nat × Desc) := [
  (0x01, ⟨.u8, 1, .rw, .owner, true, false, .num 4⟩),  -- Deepest state
  (0x02, ⟨.u32, 4, .rw, .owner, true, false, .num 0x7d0⟩),  -- Wake ceiling
  (0x03, ⟨.u8, 1, .ro, .any, false, false, .num 4⟩),  -- Effective cap
  (0x04, ⟨.u32, 4, .const, .any, false, false, .num 0x258⟩),  -- HIBERNATE hold-off
  (0x05, ⟨.u32, 4, .const, .any, false, false, .num 0xc000⟩)]  -- HIBERNATE image limit

/-- 0xF000 (R554). -/
def tSheaf : List (Nat × Desc) := [
  (0x01, ⟨.u8, 1, .ro, .any, false, false, .num 0⟩),  -- State
  (0x02, ⟨.u8, 1, .rw, .owner, true, false, .num 0⟩),  -- Partner number
  (0x03, ⟨.octets, 16, .rw, .owner, true, false, .oct (zeros 16)⟩),  -- Partner serial
  (0x04, ⟨.u8, 1, .rwx, .owner, false, true, .num 0⟩),  -- Join
  (0x05, ⟨.u8, 1, .rwx, .owner, false, false, .num 0⟩),  -- Leave
  (0x06, ⟨.u8, 1, .rwx, .owner, false, false, .num 0⟩),  -- Reset partner
  (0x07, ⟨.adm64, 8, .ro, .any, false, false, .num 0⟩),  -- Last common admission
  (0x08, ⟨.adm64, 8, .ro, .any, false, false, .num 0⟩),  -- Unmirrored since
  (0x09, ⟨.adm64, 8, .ro, .any, false, false, .num 0⟩),  -- Suspended at
  (0x0A, ⟨.u32, 4, .ro, .any, true, false, .num 0⟩),  -- Joins
  (0x0B, ⟨.u32, 4, .ro, .any, true, false, .num 0⟩),  -- Partner losses
  (0x0C, ⟨.u32, 4, .ro, .any, false, false, .num 0⟩),  -- Frames resent
  (0x0D, ⟨.u8, 1, .rw, .any, false, false, .num 0xff⟩),  -- Local target
  (0x0E, ⟨.octets, 24, .rwx, .owner, false, false, .oct (zeros 24)⟩)]  -- Concur

/-- 0xE000+b (R559). -/
def tPerf : List (Nat × Desc) := [
  (0x01, ⟨.u32, 4, .ro, .any, false, false, .num 0⟩),  -- Counter 0–7
  (0x02, ⟨.u32, 4, .ro, .any, false, false, .num 0⟩),  -- Counter 0–7
  (0x03, ⟨.u32, 4, .ro, .any, false, false, .num 0⟩),  -- Counter 0–7
  (0x04, ⟨.u32, 4, .ro, .any, false, false, .num 0⟩),  -- Counter 0–7
  (0x05, ⟨.u32, 4, .ro, .any, false, false, .num 0⟩),  -- Counter 0–7
  (0x06, ⟨.u32, 4, .ro, .any, false, false, .num 0⟩),  -- Counter 0–7
  (0x07, ⟨.u32, 4, .ro, .any, false, false, .num 0⟩),  -- Counter 0–7
  (0x08, ⟨.u32, 4, .ro, .any, false, false, .num 0⟩),  -- Counter 0–7
  (0x09, ⟨.u64, 8, .ro, .any, false, false, .num 0⟩),  -- Pair 0–3
  (0x0A, ⟨.u64, 8, .ro, .any, false, false, .num 0⟩),  -- Pair 0–3
  (0x0B, ⟨.u64, 8, .ro, .any, false, false, .num 0⟩),  -- Pair 0–3
  (0x0C, ⟨.u64, 8, .ro, .any, false, false, .num 0⟩),  -- Pair 0–3
  (0x0D, ⟨.u32, 4, .rw, .owner, false, false, .num 0⟩),  -- Control
  (0x0E, ⟨.u32, 4, .ro, .any, false, false, .num 0⟩),  -- Overflow
  (0x0F, ⟨.u32, 4, .rwx, .owner, false, false, .num 0⟩),  -- Clear
  (0x10, ⟨.u8, 1, .const, .any, false, false, .num 0⟩)]  -- Counters

/-- 0xE200 (R566). -/
def tTagging : List (Nat × Desc) := [
  (0x01, ⟨.u8, 1, .rw, .service, false, false, .num 0⟩),  -- Enable
  (0x02, ⟨.u8, 1, .rw, .service, false, false, .num 0x10⟩),  -- Interval exponent
  (0x03, ⟨.u8, 1, .ro, .service, false, false, .num 0⟩),  -- Status
  (0x04, ⟨.u32, 4, .ro, .service, false, false, .num 0⟩),  -- Tag count
  (0x05, ⟨.domain, 4096, .ro, .service, false, false, .oct []⟩)]  -- Tag buffer

/-- 0xE300 (R569). -/
def tTelemetry : List (Nat × Desc) := [
  (0x01, ⟨.u16, 2, .rw, .owner, true, false, .num 0x3e8⟩),  -- Interval
  (0x02, ⟨.s20, 4, .ro, .any, false, false, .num 0⟩),  -- Core die temperature
  (0x03, ⟨.s20, 4, .ro, .any, false, false, .num 0⟩),  -- VCORE
  (0x04, ⟨.s20, 4, .ro, .any, false, false, .num 0⟩),  -- VDDA_H
  (0x05, ⟨.s20, 4, .ro, .any, false, false, .num 0⟩),  -- VDD_PS
  (0x06, ⟨.s20, 4, .ro, .any, false, false, .num 0⟩),  -- VDDIO_H
  (0x07, ⟨.s20, 4, .ro, .any, false, false, .num 0⟩),  -- VDD_LVDS
  (0x08, ⟨.time64, 8, .ro, .any, false, false, .num 0⟩),  -- Sample time
  (0x09, ⟨.s20, 4, .ro, .any, false, false, .num 0⟩),  -- Lowest core temperature
  (0x0A, ⟨.s20, 4, .ro, .any, false, false, .num 0⟩)]  -- Highest core temperature

/-- The sensors of R474 and R475, supply, clock and light. -/
def sensorsA : List (Nat × SensorRow) := [
  (0x00, ⟨0, 8, 10, 7800, 8200, 1, 8, 10, 0, some (7760, 8000), some (8000, 8240), false⟩),
  (0x01, ⟨0, 8, 10, 17300, 18700, 1, 8, 10, 0, some (17100, 18000), some (18000, 18900), false⟩),
  (0x02, ⟨0, 8, 10, 11600, 12400, 1, 8, 10, 0, some (11400, 12000), some (12000, 12600), false⟩),
  (0x08, ⟨2, 1, 1, 0, 400, 3, 1, 1, 1, none, some (200, 800), false⟩),
  (0x09, ⟨2, 1, 1, 0, 900, 3, 1, 1, 1, none, some (450, 1500), false⟩),
  (0x0A, ⟨2, 1, 1, 0, 600, 3, 1, 1, 1, none, some (300, 1000), false⟩),
  (0x0B, ⟨2, 1, 1, 0, 1500, 3, 1, 1, 1, none, some (750, 2500), false⟩),
  (0x10, ⟨2, 2, 200, 0, 61, 2, 1, 200, 1, none, some (31, 61), false⟩),
  (0x11, ⟨2, 2, 200, 0, 1638, 2, 1, 200, 1, none, some (1311, 1638), false⟩),
  (0x12, ⟨2, 2, 200, 0, 2458, 2, 1, 200, 1, none, some (1966, 2458), false⟩),
  (0x13, ⟨2, 2, 200, 0, 26, 2, 1, 200, 1, none, some (21, 26), false⟩),
  (0x14, ⟨1, 2, 200, 0, 2048, 1, 1, 200, 0, none, some (1638, 2048), false⟩),
  (0x18, ⟨2, 1, 1, 1000, 0, 3, 1, 1, 2, some (750, 1125), none, false⟩),
  (0x19, ⟨2, 1, 1, 667, 0, 3, 1, 1, 2, some (500, 750), none, false⟩),
  (0x1A, ⟨2, 1, 1, 1600, 0, 3, 1, 1, 2, some (1200, 1800), none, false⟩),
  (0x1B, ⟨1, 1, 1, 2000, 0, 1, 1, 1, 0, some (1500, 2250), none, false⟩),
  (0x1C, ⟨2, 1, 0, 0, 0, 2, 1, 0, 2, none, none, true⟩),
  (0x20, ⟨3, 4, 1, 0, 2000, 4, 1, 1, 2, none, some (200, 20000), false⟩),
  (0x28, ⟨1, 4, 10000, -50000, 0, 2, 4, 10000, 0, some (-60000, -42000), none, false⟩),
  (0x29, ⟨2, 4, 10000, 0, 130000, 2, 4, 10000, 1, none, some (120000, 140000), false⟩),
  (0x2A, ⟨1, 2, 1000000, 0, 20000, 2, 1, 1000000, 0, none, some (5000, 50000), false⟩),
  (0x2B, ⟨1, 4, 10000, 0, 130000, 1, 4, 10000, 0, none, some (120000, 140000), false⟩),
  (0x30, ⟨3, 2, 10, 0, 0, 4, 1, 10, 2, none, none, false⟩),
  (0x38, ⟨2, 3, 100, 0, 0, 3, 2, 100, 0, none, none, false⟩),
  (0x39, ⟨2, 3, 100, 0, 0, 3, 2, 100, 0, none, none, false⟩),
  (0x3A, ⟨2, 3, 100, 0, 0, 3, 2, 100, 0, none, none, false⟩)]

/-- The other sensors of R474. -/
def sensorsB : List (Nat × SensorRow) := [
  (0x3B, ⟨2, 3, 100, 0, 0, 3, 2, 100, 0, none, none, false⟩),
  (0x40, ⟨255, 1, 1000000, 0, 0, 255, 1, 1000000, 255, none, none, false⟩),
  (0x41, ⟨255, 1, 1000000, 0, 0, 255, 1, 1000000, 255, none, none, false⟩),
  (0x42, ⟨255, 1, 1000000, 0, 0, 255, 1, 1000000, 255, none, none, false⟩),
  (0x43, ⟨255, 1, 1000000, 0, 0, 255, 1, 1000000, 255, none, none, false⟩),
  (0x44, ⟨255, 1, 1000000, 0, 0, 255, 1, 1000000, 255, none, none, false⟩),
  (0x45, ⟨255, 1, 1000000, 0, 0, 255, 1, 1000000, 255, none, none, false⟩),
  (0x46, ⟨255, 1, 1000000, 0, 0, 255, 1, 1000000, 255, none, none, false⟩),
  (0x47, ⟨255, 1, 1000000, 0, 0, 255, 1, 1000000, 255, none, none, false⟩),
  (0x48, ⟨255, 1, 1000000, 0, 0, 255, 1, 1000000, 255, none, none, false⟩),
  (0x49, ⟨255, 1, 1000000, 0, 0, 255, 1, 1000000, 255, none, none, false⟩),
  (0x4A, ⟨255, 1, 1000000, 0, 0, 255, 1, 1000000, 255, none, none, false⟩),
  (0x4B, ⟨255, 1, 1000000, 0, 0, 255, 1, 1000000, 255, none, none, false⟩),
  (0x4C, ⟨255, 1, 1000000, 0, 0, 255, 1, 1000000, 255, none, none, false⟩),
  (0x4D, ⟨255, 1, 1000000, 0, 0, 255, 1, 1000000, 255, none, none, false⟩),
  (0x4E, ⟨255, 1, 1000000, 0, 0, 255, 1, 1000000, 255, none, none, false⟩),
  (0x4F, ⟨255, 1, 1000000, 0, 0, 255, 1, 1000000, 255, none, none, false⟩),
  (0x50, ⟨1, 1, 1000000, 0, 0, 2, 1, 1000000, 0, none, none, false⟩),
  (0x58, ⟨1, 1, 0, 0, 0, 1, 1, 0, 1, none, none, true⟩),
  (0x59, ⟨2, 1, 0, 0, 0, 2, 1, 0, 1, none, none, true⟩),
  (0x5A, ⟨1, 1, 0, 0, 0, 1, 1, 0, 1, none, none, true⟩),
  (0x5B, ⟨1, 1, 0, 0, 0, 1, 1, 0, 1, none, none, true⟩),
  (0x5C, ⟨2, 1, 0, 0, 0, 2, 1, 0, 2, none, none, true⟩),
  (0x5D, ⟨2, 1, 0, 0, 0, 2, 1, 0, 2, none, none, true⟩),
  (0x60, ⟨0, 3, 10000000, 22000, 0, 0, 3, 10000000, 0, some (20000, 30000), none, false⟩),
  (0x61, ⟨1, 1, 0, 0, 0, 1, 1, 0, 1, none, none, true⟩),
  (0x62, ⟨1, 1, 0, 0, 0, 1, 1, 0, 0, none, none, true⟩)]

def sensors : List (Nat × SensorRow) := sensorsA ++ sensorsB

/-- The row of sensor k. -/
def sensor (k : Nat) : Option SensorRow := SMap.look sensors k

/-- An S20 as its 32-bit container (R96). -/
def s20 (x : Int) : Nat := (x % 4294967296).toNat

/-- Objects of sensor k with the defaults of R474. -/
def tSensorOf (r : SensorRow) : List (Nat × Desc) :=
  tSensor.map fun (s, d) => (s, { d with dflt := match s with
    | 1 => .num r.cls | 2 => .num r.n | 3 => .num r.w | 4 => .num (s20 r.low) | 5 => .num (s20 r.high)
    | 6 => .num r.vcls | 7 => .num r.vn | 8 => .num r.vw | 9 => .num r.min
    | 11 => .num (if r.cls = 255 then 2 else 0) | _ => d.dflt })

/-- The 100BASE-TX port (R157): a PHY address in place of PLCA enable, and read-only 0x04 to 0x06. -/
def tTx : List (Nat × Desc) :=
  tT1s.map fun (s, d) => (s, match s with
    | 3 => { d with ty := .u8, dflt := .num 0 }
    | 4 | 5 | 6 => { d with acc := .ro, pers := false, dflt := .num 0 }
    | _ => d)

/-- One client-table entry (R158). -/
def dClient : Desc := ⟨.octets, 6, .rw, .owner, true, false, .oct (zeros 6)⟩

/-- A node descriptor and a node label (R341). -/
def dNode : Desc := ⟨.octets, 24, .ro, .any, false, false, .oct (zeros 24)⟩
def dNodeLabel : Desc := ⟨.label, 33, .ro, .any, false, false, .oct [0]⟩

/-- A type definition (R96): index is the type code. OCTETS(n), whose size an object gives, reads 0 as DOMAIN and LABEL do (DESIGN CHOICE,
log 114). -/
def typeSize : List Nat := [1, 1, 2, 4, 8, 4, 4, 0, 0, 4, 8, 8, 0]

/-- 0xD801 (R492), 0xE100 (R564), 0xE800 (R127). -/
def tAck : List (Nat × Desc) := [
  (0x01, ⟨.adm64, 8, .rwx, .owner, false, false, .num 0⟩), (0x02, ⟨.adm64, 8, .rwx, .service, false, false, .num 0⟩)]
def tReader : List (Nat × Desc) := [(0x01, ⟨.domain, 408, .ro, .any, false, false, .oct []⟩)]
def tSelfTest : List (Nat × Desc) := [(0x01, ⟨.u8, 1, .rwx, .owner, false, true, .num 0⟩)]

/-- Counters of each performance block (R555). -/
def perfBlocks : List Nat := [8, 8, 8, 8, 4, 6, 4, 4, 8, 4, 6, 4, 4, 8]
def perfCount (b : Nat) : Nat := perfBlocks.getD b 0

/-- The objects of performance block b (R559): only its own counters and pairs, every counter enabled. -/
def tPerfOf (b : Nat) : List (Nat × Desc) :=
  let n := perfCount b
  (tPerf.filter fun p => decide (p.1 > 12) || (decide (p.1 ≤ 8) && decide (p.1 ≤ n)) || (decide (p.1 ≥ 9) && decide (2 * (p.1 - 9) + 1 < n))).map
    fun p => (p.1, if p.1 = 13 then { p.2 with dflt := .num (2 ^ n - 1) } else if p.1 = 16 then { p.2 with dflt := .num n } else p.2)

/-- The objects of one channel, with the partner-1 copies of R207. -/
def tChannelAll : List (Nat × Desc) := tChannel ++ tChannel.map fun (s, d) => (s + 0x40, d)

/-- Indices that hold one object table each. -/
def single : List (Nat × List (Nat × Desc)) := [
  (0x1000, tIdentity), (0x1010, tSessions), (0x1020, tHostLink), (0x1030, tBarrier), (0x1100, tFirmware),
  (0x1210, tT1s), (0x1211, tT1s), (0x1220, tTx), (0x1F00, tFieldId), (0x1F01, tFieldHealth), (0x2000, tModes),
  (0x2010, tPower), (0x2100, tReset), (0x2200, tSequencer), (0x2300, tEntropy), (0x2310, tRandom), (0x3100, tPool),
  (0x3200, tHeartbeat), (0xCA00, tKeys), (0xCA10, tAttest), (0xCA20, tOwnership), (0xCF20, tEngine),
  (0xCF38, tPleStatus), (0xD100, tInstall), (0xD800, tTamper), (0xD801, tAck), (0xD802, tCaldera), (0xD810, tSinter),
  (0xDB30, tFieldIo), (0xDC00, tJournal), (0xDC10, tExport), (0xDC20, tStore), (0xDC80, tAudit), (0xE100, tReader),
  (0xE200, tTagging), (0xE300, tTelemetry), (0xE800, tSelfTest), (0xF000, tSheaf)]

/-- Families of objects: first index, number of indices, table. -/
def families : List (Nat × Nat × List (Nat × Desc)) := [
  (0x1200, 4, tCan), (0x3000, 64, tTemplate), (0x4000, 32768, tChannelAll), (0xC000, 2048, tCounter), (0xCF00, 16, tStream),
  (0xCF30, 8, tPle), (0xD000, 32, tCell), (0xDB00, 8, tOutput), (0xDB10, 16, tInput), (0xDB20, 4, tAnalog)]

/-- The table of a family index. -/
def familyTable (i : Nat) : List (Nat × Nat × List (Nat × Desc)) → Option (List (Nat × Desc))
  | [] => none
  | (b, n, t) :: r => if b ≤ i ∧ i < b + n then some t else familyTable i r

/-- Whether an index is populated, and the descriptor at a subindex (R95). -/
def find (i s : Nat) : Bool × Option Desc :=
  match SMap.look single i with
  | some t => (true, SMap.look t s)
  | none =>
    match familyTable i families with
    | some t => (true, SMap.look t s)
    | none =>
      if 1 ≤ i ∧ i ≤ 13 then
        (true, if s = 1 then some ⟨.u32, 4, .const, .any, false, false, .num (typeSize.getD (i - 1) 0)⟩ else none)
      else if 0x1230 ≤ i ∧ i ≤ 0x1232 then (true, if 1 ≤ s ∧ s ≤ 0x7F then some dClient else none)
      else if 0xC800 ≤ i ∧ i ≤ 0xC8FF then (true, if 1 ≤ s ∧ s ≤ 255 then some dNode else none)
      else if 0xC900 ≤ i ∧ i ≤ 0xC9FF then (true, if 1 ≤ s ∧ s ≤ 255 then some dNodeLabel else none)
      else if 0xE000 ≤ i ∧ i ≤ 0xE00D then (true, SMap.look (tPerfOf (i - 0xE000)) s)
      else if 0xDA00 ≤ i ∧ i ≤ 0xDAFF then
        match sensor (i - 0xDA00) with
        | some r => (true, SMap.look (tSensorOf r) s)
        | none => (false, none)
      else (false, none)

end Dict

namespace Ty

/-- The type code (R96). -/
def code : Ty → Nat
  | .bool => 1 | .u8 => 2 | .u16 => 3 | .u32 => 4 | .u64 => 5 | .i32 => 6 | .s20 => 7 | .octets => 8 | .label => 9
  | .handle => 10 | .time64 => 11 | .adm64 => 12 | .domain => 13

end Ty

/-- The access code (R98). -/
def Acc.code : Acc → Nat
  | .const => 0 | .ro => 1 | .rw => 2 | .wo => 3 | .rwx => 4

/-- The role code (R99). -/
def Role.code : Role → Nat
  | .any => 0 | .operator => 1 | .owner => 2 | .service => 3 | .pair => 4

/-- The key of an object in a dictionary map. -/
def objKey (idx sub : Nat) : Nat := idx * 256 + sub

/-- The encoded value of an object (R96). -/
def Val.bytes (size : Nat) : Val → Bytes
  | .num n => leBytes size n
  | .oct b => b

/-- The number in a value (little-endian where it is bytes). -/
def Val.toNat : Val → Nat
  | .num n => n
  | .oct b => leNat b

/-- The bytes in a value of OCTETS, LABEL or DOMAIN type. -/
def Val.toBytes : Val → Bytes
  | .num _ => []
  | .oct b => b

/-- The value that encoded bytes stand for. -/
def Desc.decode (d : Desc) (b : Bytes) : Val :=
  match d.ty with
  | .octets | .label | .domain => .oct b
  | _ => .num (leNat b)

/-- Key n of a per-source default of MAC addresses (R157). -/
def macDefault (idx : Nat) : Bytes :=
  if idx = 0x1210 then fitBytes 6 (Config.factoryMac 0)
  else if idx = 0x1211 then fitBytes 6 (Config.factoryMac 1) else fitBytes 6 (Config.factoryMac 2)

/-- The default of an object: constants of the device are Config's (R132, R157, R160, R360, R437). -/
def dfltOf (idx sub : Nat) (d : Desc) : Val :=
  if sub = 2 ∧ (idx = 0x1210 ∨ idx = 0x1211 ∨ idx = 0x1220) then .oct (macDefault idx)
  else match idx, sub with
    | 0x1000, 3 => .oct (fitBytes 16 Config.serial)
    | 0x1000, 5 => .num 0x4201
    | 0x1F00, 1 => .oct (fitBytes 16 Config.fieldSerial)
    | 0x1F00, 2 => .num (Config.fieldRomVersion % 2 ^ 32)
    | 0xCA10, 5 => .oct (fitBytes 3309 Config.endorsement)
    | 0xD100, 5 => .oct (fitBytes 1952 Config.lemganAppletKey)
    | _, _ => d.dflt

end Sys2Proof.Machine
end

