-- ==== Sys2Proof/Machine/Ops.lean ====
section
/-! DEFINITION. The named operations over the dictionary, the key hierarchy, the epoch table, the journal and the store. -/

namespace Sys2Proof.Machine

/-! The abort codes of R133. -/
namespace Abt
def none : Nat := 0
def serviceUnknown : Nat := 0x01010001
def headerReserved : Nat := 0x01010002
def segmentOrder : Nat := 0x01020001
def transferTimeout : Nat := 0x01020002
def noTransfer : Nat := 0x01020003
def transferAborted : Nat := 0x01020004
def lengthShort : Nat := 0x01030001
def lengthLong : Nat := 0x01030002
def sizeMismatch : Nat := 0x01030003
def objectUnknown : Nat := 0x01040001
def subindexUnknown : Nat := 0x01040002
def role : Nat := 0x02010001
def noSession : Nat := 0x02010002
def pairNotConcurred : Nat := 0x02010003
def readOnly : Nat := 0x02020001
def writeOnly : Nat := 0x02020002
def lifecycle : Nat := 0x02030001
def valueRange : Nat := 0x03010001
def valueReserved : Nat := 0x03010002
def valueEncoding : Nat := 0x03010003
def valueConflict : Nat := 0x03020001
def noSessionSlot : Nat := 0x04010001
def noTransferSlot : Nat := 0x04010002
def framePoolEmpty : Nat := 0x04020001
def channelQueueFull : Nat := 0x04020002
def appletMemory : Nat := 0x04030001
def signatureInvalid : Nat := 0x05010001
def challengeStale : Nat := 0x05010002
def authFail : Nat := 0x05010003
def keyOrphaned : Nat := 0x05020001
def handleInvalid : Nat := 0x05020002
def keyUsage : Nat := 0x05020003
def epochExhausted : Nat := 0x05020004
def engineFault : Nat := 0x05030001
def compareFault : Nat := 0x05030002
def resultCheck : Nat := 0x05030003
def replay : Nat := 0x05040001
def rollback : Nat := 0x05050001
def busy : Nat := 0x06010001
def opInProgress : Nat := 0x06010002
def mode : Nat := 0x06020001
def tamperHeld : Nat := 0x06030001
def caldera : Nat := 0x06030002
def channelClosed : Nat := 0x06040001
def partnerAbsent : Nat := 0x06050001
def pairSuspended : Nat := 0x06050002
def appletFaulted : Nat := 0x06060001
def appletStopped : Nat := 0x06060002
def coreAbsent : Nat := 0x06070001
def notReady : Nat := 0x07010001
def entropyFailed : Nat := 0x07010002
def storeFault : Nat := 0x08010001
def wearLimit : Nat := 0x08030001
def journalFull : Nat := 0x08040001
def counterRate : Nat := 0x08050001
def counterExhausted : Nat := 0x08050002
def counterFrozen : Nat := 0x08050003
end Abt

/-- The bytes of an ASCII text. -/
def ascii (t : String) : Bytes := t.toList.map fun c => BitVec.ofNat 8 c.toNat

/-- Whether bit i of n is set. -/
def bit (n i : Nat) : Bool := n.testBit i

/-- n with bit i set to b. -/
def setBit (n i : Nat) (b : Bool) : Nat := if b then n ||| 2 ^ i else if n.testBit i then n - 2 ^ i else n

/-- The bits of n that m does not hold. -/
def clearBits (n m : Nat) : Nat := n - (n &&& m)

/-! The dictionary. -/

/-- The value stored in an object, or its default (R98, R100). -/
def getObj (s : State) (i k : Nat) : Val :=
  match (Dict.find i k).2 with
  | none => .num 0
  | some d => SMap.at' (if d.pers then s.pers.dict else s.dict) (objKey i k) (dfltOf i k d)

/-- The persistent dictionary with a new value of one object: its entry is appended to the log where the value changes (R395). -/
def Pers.write (p : Pers) (key : Nat) (v dflt : Val) : Pers :=
  { p with dict := SMap.store p.dict key v dflt, dlog := if SMap.at' p.dict key dflt = v then p.dlog else p.dlog ++ [⟨key, v, true⟩] }

/-- The object with a new value; the default is not listed. -/
def setObj (s : State) (i k : Nat) (v : Val) : State :=
  match (Dict.find i k).2 with
  | none => s
  | some d =>
    if d.pers then { s with pers := s.pers.write (objKey i k) v (dfltOf i k d) }
    else { s with dict := SMap.store s.dict (objKey i k) v (dfltOf i k d) }

/-- The default of the object with this key. -/
def dfltKey (key : Nat) : Val := ((Dict.find (key / 256) (key % 256)).2.map fun d => dfltOf (key / 256) (key % 256) d).getD (.num 0)

/-- The dictionary image that a log gives: of each object the newest value that can be read (R395, R398). -/
def rebuild (l : List DEntry) : SMap Val := l.foldl (fun m e => if e.readable then SMap.store m e.key e.val (dfltKey e.key) else m) []

/-- Compaction copies the live values forward: of each object the newest value that can be read stays (R395). -/
def compact : List DEntry → List DEntry
  | [] => []
  | e :: l => if e.readable && !(l.any fun x => decide (x.key = e.key) && x.readable) then e :: compact l else compact l

/-- The newest readable entry of an object, from a log given newest first, made unreadable. -/
def spoilEntry (key : Nat) : List DEntry → List DEntry
  | [] => []
  | e :: l => if e.key = key ∧ e.readable then { e with readable := false } :: l else e :: spoilEntry key l

/-- The newest value of object i.k in the log has become unreadable (R398): an older copy is used where the log holds one, else the object
reads its default. -/
def loseObject (s : State) (i k : Nat) : State :=
  let l := (spoilEntry (objKey i k) s.pers.dlog.reverse).reverse
  let v := ((l.filter fun e => decide (e.key = objKey i k) && e.readable).getLast?.map fun e => e.val).getD (dfltKey (objKey i k))
  { s with pers := { s.pers with dlog := l, dict := SMap.store s.pers.dict (objKey i k) v (dfltKey (objKey i k)) } }

def num (s : State) (i k : Nat) : Nat := (getObj s i k).toNat
def oct (s : State) (i k : Nat) : Bytes := (getObj s i k).toBytes
def setNum (s : State) (i k n : Nat) : State := setObj s i k (.num n)
def setOct (s : State) (i k : Nat) (b : Bytes) : State := setObj s i k (.oct b)

/-- A 32-bit statistic raised by one, saturating. -/
def incObj (s : State) (i k : Nat) : State := setNum s i k (sat32 (num s i k) 1)

/-- A statistic kept in hardware until a statistics admission (R143), raised by n from the value the dictionary holds,
saturating at 32 bits. -/
def incHw (s : State) (i k n : Nat) : State := { s with hw := SMap.upd s.hw (objKey i k) (num s i k) fun x => sat32 x n }

/-- The same for a 64-bit count, which does not saturate in the life of the device. -/
def addHw (s : State) (i k n : Nat) : State := { s with hw := SMap.upd s.hw (objKey i k) (num s i k) (· + n) }

/-! Performance counters (R555 to R557). -/

def perfAt (s : State) (b i : Nat) : Nat := SMap.at' s.perf.cnt (8 * b + i) 0

/-- Counter i of block b at v, and its sticky overflow bit where it wrapped. -/
def perfSet (s : State) (b i v : Nat) : State :=
  let p := { s.perf with cnt := SMap.store s.perf.cnt (8 * b + i) (v % 4294967296) 0 }
  { s with perf := if v < 4294967296 then p else { p with ovf := SMap.upd p.ovf b 0 fun x => setBit x i true } }

/-- n events of counter i of block b, under its ENABLE and CHAIN bits. -/
def count (s : State) (b i n : Nat) : State :=
  let ctl := num s (0xE000 + b) 13
  if n = 0 then s
  else if bit ctl (8 + i / 2) then
    if i % 2 = 1 ∨ !bit ctl i then s
    else
      let lo := perfAt s b i + n
      perfSet { s with perf := { s.perf with cnt := SMap.store s.perf.cnt (8 * b + i) (lo % 4294967296) 0 } } b (i + 1)
        (perfAt s b (i + 1) + lo / 4294967296)
  else if bit ctl i then perfSet s b i (perfAt s b i + n) else s

/-- Counter i of block b zeroed with its overflow bit. -/
def perfZero (s : State) (b i : Nat) : State :=
  { s with perf := { s.perf with cnt := SMap.del s.perf.cnt (8 * b + i), ovf := SMap.upd s.perf.ovf b 0 fun x => setBit x i false } }

/-- The flag bits of the mode word 0x2000.01 (R502): SHEAF, SERVICE, ISLAND, VIGIL, AUDIT, PROVISION. -/
def modeFlag (s : State) (k : Nat) : Bool := num s 0x2000 k ≠ 0
def sheafOn (s : State) : Bool := modeFlag s 2
def serviceOn (s : State) : Bool := modeFlag s 3
def islandOn (s : State) : Bool := modeFlag s 4
def vigilOn (s : State) : Bool := modeFlag s 5
def auditOn (s : State) : Bool := modeFlag s 6
def provisionOn (s : State) : Bool := modeFlag s 7

/-- CALDERA (R499, 0xD802.01 not 0). -/
def calderaOn (s : State) : Bool := num s 0xD802 1 ≠ 0

/-- The lifecycle code as it decodes (R9, R359): a fuse pattern of no state reads as RETIRED. -/
def lifecycle (s : State) : Nat := if s.otp.retired ∨ !([0, 0xA5, 0x5A].contains s.otp.lifecycle) then 0xFF else s.otp.lifecycle

/-! The key hierarchy (R317 to R333). -/

/-- The fixed nodes of R320, but for the applet roots, which the store holds while a cell holds an applet. The attributes of
LMG-FACTORY are the model's: MAC and ENCRYPT, without which R361 could never use it (log 17). -/
def fixedNode (n : Nat) : Option Node :=
  let mk := fun (p l k a : Nat) (lb : Bytes) => some (Node.mk p l k a 0 lb 0)
  match n with
  | 0x01 => mk 0 1 0x01 0 (ascii "OWNER")
  | 0x02 => mk 0 1 0x01 0 (ascii "SERVICE")
  | 0x03 => mk 0 1 0x01 0 (ascii "ATTEST")
  | 0x04 => mk 0 1 0x01 0 (ascii "PAIR")
  | 0x05 => mk 0 1 0x01 0 (ascii "SINTER")
  | 0x10 => mk 1 2 0x02 0 (ascii "ROLE-OPERATOR")
  | 0x11 => mk 1 2 0x02 0 (ascii "ROLE-OWNER")
  | 0x12 => mk 2 2 0x02 0 (ascii "ROLE-SERVICE")
  | 0x13 => mk 1 2 0x05 0 (ascii "DEVICE")
  | 0x14 => mk 3 2 0x13 7 (ascii "IDENTITY")
  | 0x15 => mk 3 2 0x05 0 (ascii "VERIFIERS")
  | 0x16 => mk 3 2 0x14 10 (ascii "TRANSFER")
  | 0x17 => mk 4 2 0x15 0 (ascii "PAIR-STORE")
  | 0x18 => mk 5 2 0x12 0 (ascii "HIBERNATE")
  | 0x19 => some ⟨0x15, 3, 0x16, 0, 0x0A, ascii "LMG-FACTORY", 0⟩
  | 0x70 => mk 0x13 3 0x17 0 (ascii "CHALLENGE")
  | _ =>
    if 0x40 ≤ n ∧ n < 0x70 then
      mk (0x10 + (n - 0x40) / 16) 3 0x10 0 (ascii "CRED" ++ [BitVec.ofNat 8 (n % 16)])
    else none

/-- The record of node n, where it is allocated. -/
def nodeOf (s : State) (n : Nat) : Option Node :=
  match fixedNode n with
  | some x => some x
  | none => SMap.look s.pers.nodes n

/-- The current epoch of node n (R327). -/
def epochOf (s : State) (n : Nat) : Nat := SMap.at' s.pers.epochs n 0

/-- Whether node n is live, over at most f links (R328). -/
def liveGo (s : State) : Nat → Nat → Bool
  | 0, _ => false
  | f + 1, n =>
    match fixedNode n with
    | some _ => true
    | none =>
      match SMap.look s.pers.nodes n with
      | none => false
      | some x => decide (epochOf s x.parent = x.pEpoch) && liveGo s f x.parent

def live (s : State) (n : Nat) : Bool := liveGo s 4 n

/-- Whether x is n or an ancestor of n, over at most f links. -/
def belowGo (s : State) (x : Nat) : Nat → Nat → Bool
  | 0, _ => false
  | f + 1, n =>
    if n = 0 then false else if n = x then true
    else match nodeOf s n with
      | none => false
      | some r => belowGo s x f r.parent

def atOrBelow (s : State) (x n : Nat) : Bool := belowGo s x 5 n

/-- Strictly below x. -/
def below (s : State) (x n : Nat) : Bool := decide (x ≠ n) && atOrBelow s x n

/-- The PRF of R322: l bits of output (R323). -/
def kdf (key : Bytes) (kind level : Nat) (label : Bytes) (pEpoch word half l : Nat) : Bytes :=
  let input := fun i => [BitVec.ofNat 8 i, BitVec.ofNat 8 kind, BitVec.ofNat 8 level, BitVec.ofNat 8 label.length]
    ++ fitBytes 32 label ++ [0] ++ beBytes 3 pEpoch ++ beBytes 4 word ++ beBytes 2 half ++ beBytes 2 l
  ((List.range ((l + 127) / 128)).flatMap fun i => cmac key (input (i + 1))).take (l / 8)

/-- The output length of a node's key by its kind (R325). -/
def keyBits (x : Node) : Nat :=
  if x.kind = 0x13 ∨ x.kind = 0x14 then 512 else if x.kind = 0x12 ∧ bit x.attrs 0 then 128 else 256

/-- The context word of a node's key (R325). -/
def keyWord (x : Node) : Nat := if x.kind = 0x13 then x.alg else if x.kind = 0x14 then 10 else 0

/-- The key of node n that the key-node cache holds (R334). -/
def cachedKey (s : State) (n : Nat) : Option Bytes := (s.cache.find? fun e => decide (e.node = n)).map fun e => e.key

/-- The UDS as KHU takes it: the blown retire fuse cuts its path at once (R354). -/
def udsPath (s : State) : Bytes := if s.otp.retired then [] else fitBytes 32 Config.uds

/-- The key of a node: that of its cache entry (R334), or derived from its parent's; pair is S_pair where OWNER and SERVICE derive under
it (R324). -/
def keyGo (s : State) (pair : Option Bytes) : Nat → Nat → Bytes
  | 0, _ => []
  | f + 1, n =>
    match cachedKey s n, nodeOf s n with
    | some k, _ => k
    | none, none => []
    | none, some x =>
      if x.parent = 0 then
        kdf (match pair with
          | some p => if n = 1 ∨ n = 2 then p else udsPath s
          | none => udsPath s) x.kind x.level x.label 0 0 0 256
      else kdf (keyGo s pair f x.parent) x.kind x.level x.label (epochOf s x.parent) (keyWord x) 0 (keyBits x)

/-- S_pair, unwrapped under PAIR-STORE (R357). -/
def pairSecretOf (s : State) : Option Bytes :=
  match s.pers.pair with
  | none => none
  | some w => some (kwUnwrap (keyGo s none 3 0x17) w).1

/-- The key of node n (R318, R324). -/
def nodeKey (s : State) (n : Nat) : Bytes := keyGo s (pairSecretOf s) 4 n

/-- The two CMAC subkeys of a key (R261, R334). -/
def cmacSubkeys (key : Bytes) : Bytes := let k1 := cmacDbl (aesEnc key (zeros 16)); k1 ++ cmacDbl k1

/-- The cache entry of node n, derived now. -/
def cacheEnt (s : State) (n stamp : Nat) : CacheEnt := ⟨n, stamp, nodeKey s n, cmacSubkeys (nodeKey s n)⟩

/-- The domain roots. -/
def isRoot (n : Nat) : Bool := decide (1 ≤ n ∧ n ≤ 5)

/-- The five domain roots loaded into the cache, where they stay to the next reset (R334). -/
def loadRoots (s : State) : State :=
  let t := { s with cache := s.cache.filter fun e => !isRoot e.node }
  { t with cache := [1, 2, 3, 4, 5].map (cacheEnt t · 0) ++ t.cache }

/-- The handle of an allocated node (R319). -/
def handleOf (s : State) (n : Nat) : Nat :=
  match nodeOf s n with
  | none => 0
  | some x =>
    let reuse := if n < 0x100 then 0 else (SMap.at' s.pers.allocs n 1 - 1) % 256
    n + x.level * 0x10000 + reuse * 0x1000000

/-- The node a handle names (R319): none where it names no node. -/
def nodeByHandle (s : State) (h : Nat) : Option Nat :=
  let n := h % 0x10000
  if h ≠ 0 ∧ (nodeOf s n).isSome ∧ handleOf s n = h then some n else none

/-- The session secret node a handle names (R311): class 0x8, by workspace index. -/
def secretByHandle (s : State) (h : Nat) : Option (Nat × Secret) :=
  let i := h % 0x10000
  match SMap.look s.secrets i with
  | some x => if h = i + 0x800000 then some (i, x) else none
  | none => none

/-- The credential node of role r, credential c (R320, R349). -/
def credNode (r c : Nat) : Nat := 0x30 + 0x10 * r + c

/-- The session key and the context-wrap key (R325, R349). -/
def sessionKeys (kCred : Bytes) (epoch role cred slot origin : Nat) (nonce chal : Bytes) : Bytes :=
  let w := origin * 0x10000 + slot * 0x100 + role
  let f := fun k => kdf kCred k 4 (nonce ++ chal) epoch w (cred * 0x100) 256
  f 0x41 ++ f 0x42

/-- K_sess and K_cw of the session in slot k, derived at each use: no key of level 4 is stored (R318, R349). -/
def Session.keys (s : State) (k : Nat) (z : Session) : Bytes :=
  sessionKeys (nodeKey s (credNode z.role z.cred)) z.epoch z.role z.cred k z.origin z.nonce z.chal

/-- K_msg of a frame (R325, R326). -/
def msgKey (kCh : Bytes) (epoch seq dir : Nat) : Bytes := kdf kCh 0x40 4 [] epoch seq dir 256

/-- The blob-wrap key of wrapping node n (R325). -/
def blobKey (s : State) (n : Nat) : Bytes := kdf (nodeKey s n) 0x43 4 [] (epochOf s n) 0 0 256

/-! The journal (R407 to R413). -/

namespace Jour

def ringBlocks : Nat := 1024
def allBlocks : Nat := 1040

/-- Whether a held record lies in block b, and whether a pinned one does. -/
def heldIn (j : Journal) (b : Nat) : Bool := j.recs.any fun p => decide (p.1 / 64 = b) && (p.2.held || p.2.pinned)
def pinIn (j : Journal) (b : Nat) : Bool := j.recs.any fun p => decide (p.1 / 64 = b) && p.2.pinned

def heldCount (j : Journal) : Nat := (j.recs.filter fun p => p.2.held || p.2.pinned).length
def pinCount (j : Journal) : Nat := (j.recs.filter fun p => p.2.pinned).length
def pinBlocks (j : Journal) : List Nat := ((j.recs.filter fun p => p.2.pinned).map fun p => p.1 / 64).dedup

/-- The next ring block after b, skipping blocks that hold a pin (R412), over f blocks. -/
def nextRing (j : Journal) : Nat → Nat → Nat
  | 0, b => b
  | f + 1, b =>
    let c := (b + 1) % ringBlocks
    if pinIn j c then nextRing j f c else c

/-- The first free reserve block. -/
def freeReserve (j : Journal) : Option Nat :=
  ((List.range 16).map (· + ringBlocks)).find? fun b => !heldIn j b

def reserveFree (j : Journal) : Nat := (((List.range 16).map (· + ringBlocks)).filter fun b => !heldIn j b).length

/-- The records of a block discarded: how many were held, and their first and last admission numbers. -/
def discard (j : Journal) (b : Nat) : Journal × List Nat :=
  let mine := j.recs.filter fun p => decide (p.1 / 64 = b) && p.2.held
  ({ j with recs := j.recs.filter fun p => p.1 / 64 ≠ b }, mine.map fun p => leNat ((p.2.bytes.drop 8).take 8))

/-- One record put at the head with its link (R408, R410). The first record of a block stores the anchor, and ends what the block still
held of released records (R417). -/
def put (j : Journal) (r : JRec) : Journal :=
  let c := sha256 (j.chain ++ r.bytes.take 56)
  let b := j.head / 64
  let j := if j.head % 64 = 0 then
      { j with recs := j.recs.filter fun p => p.1 / 64 ≠ b, anchors := SMap.put j.anchors b j.chain, order := (j.order.filter (· ≠ b)) ++ [b] } else j
  { j with recs := SMap.put j.recs j.head { r with bytes := r.bytes.take 56 ++ c.take 8 }, chain := c, head := j.head + 1 }

/-- A new record put at the head, held. -/
def place (j : Journal) (head56 : Bytes) (pinned : Bool) : Journal := put j ⟨head56, true, pinned, true⟩

/-- Bytes 0 to 55 of a record (R408). -/
def head56 (h : RecHead) (adm time : Nat) (body : Bytes) : Bytes :=
  [BitVec.ofNat 8 h.type, BitVec.ofNat 8 h.rc, BitVec.ofNat 8 h.slot, BitVec.ofNat 8 h.sub] ++ leBytes 2 h.idx ++
    leBytes 2 h.origin ++ leBytes 8 adm ++ leBytes 8 time ++ fitBytes 32 body

/-- What moving the head found: go on with this journal after losing these records, or no place is left. -/
inductive Room where
  | ok (j : Journal) (lost : List Nat)
  | full

/-- The head stands in the reserve: inside one of its blocks, or at the end of one. -/
def inReserve (j : Journal) : Bool := decide ((j.head - 1) / 64 ≥ ringBlocks)

/-- The newest ring block, where the head has left it. -/
def lastRing (j : Journal) : Nat :=
  if inReserve j then (j.order.reverse.find? (· < ringBlocks)).getD (ringBlocks - 1)
  else if j.head / 64 = 0 then ringBlocks - 1 else j.head / 64 - 1

/-- The ring block that the head enters next. -/
def nextBlock (j : Journal) : Nat := nextRing j ringBlocks (lastRing j)

/-- Journal k, whose head has moved on from j, begins another lap of the ring (R397). -/
def newLap (j k : Journal) : Bool :=
  decide (j.order ≠ [] ∧ k.head % 64 = 0 ∧ k.head / 64 < ringBlocks ∧ k.head / 64 ≤ lastRing j)

/-- Room for the next record (R412, R413): over says whether OVERWRITE applies, reserve whether the record may go to the
reserve, last whether it may take the last reserve block. The head goes on in its block; from the reserve it returns to the ring as soon
as a ring block is free, and a change of policy counts at the next block. -/
def room (j : Journal) (over' reserve last : Bool) : Room :=
  let mid := decide (j.head % 64 ≠ 0)
  let c := nextBlock j
  let discarded :=
    let d := discard j c
    Room.ok { d.1 with head := c * 64 } d.2
  if mid ∧ !inReserve j then .ok j []
  else if !heldIn j c then .ok { j with head := c * 64 } []
  else if over' then (if mid then .ok j [] else discarded)
  else if !reserve then .full
  else if mid then (if reserveFree j > 0 ∨ last then .ok j [] else .full)
  else match freeReserve j with
    | some r => if reserveFree j > 1 ∨ last then .ok { j with head := r * 64 } [] else .full
    | none => if last then discarded else .full

end Jour

/-- HALT_WRITES, and no place for the next record, of a write that may or may not use the reserve. -/
def noRoom (s : State) (reserve : Bool) : Bool :=
  decide (num s 0xDC00 1 = 1) &&
    match Jour.room s.pers.jour false reserve false with
    | .full => true
    | .ok _ _ => false

/-- Whether the journal is full: HALT_WRITES, and no ring block for the next record (R413). -/
def journalFull (s : State) : Bool := noRoom s false

/-- The journal is full and only its last reserve block is left, which refuses the session services too (R124, R413). -/
def reserveFull (s : State) : Bool := noRoom s true

/-- What a record may use when the head stops: nothing, the reserve, or the last reserve block too (R413). -/
inductive Place where
  | ring
  | reserve
  | last
deriving DecidableEq, Repr

/-- The head of a record that the device writes in the admission in force: with its role and credential, session slot and origin (R408). -/
def recHead (s : State) (type sub idx : Nat) : RecHead := ⟨type, s.seq.who.1, s.seq.who.2.1, sub, idx, s.seq.who.2.2⟩

/-- An open export is cancelled before the head enters a block of its run, whatever that block still holds (R418). -/
def cancelExport (s : State) (j : Journal) : State :=
  match s.exportRun with
  | some e => if j.head % 64 = 0 ∧ e.blocks.contains (j.head / 64) then setNum { s with exportRun := none } 0xDC10 3 2 else s
  | none => s

/-- The lap count at which a region of the store takes no more, but for start-up and tamper responses (R397). -/
def lapLimit : Nat := 100000000

/-- A record of admission adm at its time (R408, R411); a GAP record goes first where a block was discarded, under the caller of the
admission. There is none where the journal is full, or where a worn region keeps it out (R397). -/
def journalNo (s : State) (adm time : Nat) (pl : Place) (pin : Bool) (h : RecHead) (body : Bytes) : State :=
  let over' := decide (num s 0xDC00 1 = 0)
  let worn := decide (pl ≠ .last ∧ (lapLimit ≤ s.pers.laps.commit ∨ lapLimit ≤ s.pers.laps.jour))
  match (if worn then .full else Jour.room s.pers.jour over' (pl ≠ .ring) (pl = .last)) with
  | .full => s
  | .ok j lost =>
    let s := cancelExport s j
    let s := if Jour.newLap s.pers.jour j then { s with pers := { s.pers with laps := { s.pers.laps with jour := s.pers.laps.jour + 1 } } } else s
    let s := if lost.isEmpty then s else setNum s 0xDC00 5 (num s 0xDC00 5 + lost.length)
    let gap := leBytes 4 lost.length ++ zeros 4 ++ leBytes 8 (lost.foldl min (lost.headD 0)) ++ leBytes 8 (lost.foldl max 0)
    let j := if lost.isEmpty then j else
      Jour.place j (Jour.head56 (recHead s 3 0 0) adm time gap) false
    let pb := Jour.pinBlocks j
    let pinOk := pin && (pb.contains (j.head / 64) || decide (pb.length < 64))
    let s := if pin ∧ !pinOk then incObj s 0xDC00 10 else s
    let j := Jour.place j (Jour.head56 h adm time body) pinOk
    count { s with pers := { s.pers with jour := j } } 8 2 (if lost.isEmpty then 1 else 2)

/-- A record written in the admission now in force. -/
def journalAt (s : State) (pl : Place) (pin : Bool) (h : RecHead) (body : Bytes) : State :=
  journalNo s s.seq.adm s.seq.admTime pl pin h body

def journal (s : State) (h : RecHead) (body : Bytes) : State := journalAt s .ring false h body

/-- The role and credential byte of a record (R408). -/
def rcByte (x : Option Session) : Nat :=
  match x with
  | some x => x.role * 16 + x.cred
  | none => 0xFF

/-- An ACCESS record under the rate rule of R411; ev is its event code. An event that is not recorded, or for whose record there is no
place, is counted for the next one. -/
def journalAccess (s : State) (ev origin cred : Nat) : State :=
  let k := origin * 16 + ev
  let old := SMap.at' s.access k (none, 0)
  let due := (old.1.map fun t => decide (s.seq.admTime > t + 1000000)).getD true
  let t := journalAt s .reserve false { recHead s 5 ev 0 with origin := origin } (leBytes 4 old.2 ++ [BitVec.ofNat 8 cred])
  if due ∧ t.pers.jour.head ≠ s.pers.jour.head then { t with access := SMap.put t.access k (some s.seq.admTime, 0) }
  else { s with access := SMap.put s.access k (old.1, old.2 + 1) }

/-- A STORE record (R409). -/
def journalStore (s : State) (ev region unit word : Nat) : State :=
  journal s (recHead s 7 ev 0) ([BitVec.ofNat 8 region, 0] ++ leBytes 2 unit ++ leBytes 4 word)

/-! Counters (R399 to R404). -/

def emptyRing : Ring := ⟨[], [], 0, none, none⟩
def ringOf (s : State) (k : Nat) : Ring := SMap.at' s.pers.rings k emptyRing

/-- The largest value held by a readable word of the ring, or by the spare location that a skipped value went to (R399, R400). -/
def ringValue (r : Ring) : Nat := ((r.words.filter fun p => !r.bad.contains p.1).map fun p => p.2).foldl max (r.aside.getD 0)

def counterValue (s : State) (k : Nat) : Nat := ringValue (ringOf s k)

/-- Relocation is triggered by four corrected words in a ring, or any unreadable one (R404). -/
def mustMove (r : Ring) : Bool := decide (r.corrected ≥ 4) || !r.bad.isEmpty

/-- The lowest free spare ring (R404, 0xDC20.04). -/
def freeSpare (s : State) : Option Nat := (List.range 64).find? fun i => !s.pers.spares.contains i

/-- Worn out: two unreadable words, and no spare ring to relocate to (R404). -/
def wornOut (s : State) (r : Ring) : Bool := decide (r.bad.length ≥ 2) && (freeSpare s).isNone

/-- The word v written at position v mod 128 (R399). -/
def writeRing (s : State) (k v : Nat) : State :=
  let r := ringOf s k
  let r := { r with words := SMap.put r.words (v % 128) v, bad := r.bad.filter (· ≠ v % 128) }
  let s := count { s with pers := { s.pers with rings := SMap.put s.pers.rings k r } } 8 0 1
  setNum (setNum s (0xC000 + k) 6 s.seq.adm) (0xC000 + k) 7 s.seq.admTime

/-- Token bucket of R402 at the admitted time: the credit after the addition. -/
def creditNow (s : State) (k : Nat) : Nat :=
  let c := SMap.at' s.credit k (0, num s 0x2100 7)
  min (c.1 + (s.seq.admTime - c.2)) 400000000

def setCredit (s : State) (k c : Nat) : State :=
  setNum { s with credit := SMap.put s.credit k (c, s.seq.admTime) } (0xC000 + k) 5 (c / 40000)

/-- The store budget (R396) at the admitted time, in 1/4,000 of a token. -/
def budgetNow (s : State) : Int :=
  min (s.seq.budget + (s.seq.admTime - s.seq.budgetAt : Nat)) (4096 * 4000)

/-- One ring commit draws one token. -/
def drawBudget (s : State) : State :=
  count { s with seq := { s.seq with budget := budgetNow s - 4000, budgetAt := s.seq.admTime } } 8 1 1

end Sys2Proof.Machine
end

