-- ==== Sys2Proof/Machine/Effect.lean ====
section
/-! DEFINITION. What one admission does beside its number: the outcome of an effect, the epoch bump with its consequences
and the cut (R236, R237, R280, R335 to R340), and the event bits that channels raise (R214). -/

namespace Sys2Proof.Machine

/-- The outcome of the effect of a request. -/
structure Eff where
  s : State
  code : Nat
  body : Bytes
  lat : Nat                 -- microseconds from admission to release
  acts : List Act
  work : Work
  nodes : List Nat
  random : Bool             -- RANDOM flag of R203
  long : Bool               -- a long operation started (R125)

def Eff.ok (s : State) (lat : Nat) : Eff := ⟨s, 0, [], lat, [], .none, [], false, false⟩
def Eff.fail (s : State) (lat code : Nat) : Eff := ⟨s, code, [], lat, [], .none, [], false, false⟩

/-- The effect of a state and a code in one class. -/
def Eff.of (lat : Nat) (r : State × Nat) : Eff := Eff.fail r.1 lat r.2

/-- Who makes a request, as the object checks see it: the bound role (none without a session), session slot, credential,
origin, and whether it is an applet. -/
structure Ctx where
  role : Option Nat
  slot : Option Nat
  cred : Nat
  origin : Nat
deriving DecidableEq, Repr


/-! Release latencies of R188 in microseconds: tempo cycles over 400. -/
namespace Lat
def read : Nat := 2
def step : Nat := 2
def write : Nat := 10
def domain : Nat := 16
def session : Nat := 12
def frame : Nat := 4
def increment : Nat := 8
def cipher : Nat := 40
def digest : Nat := 20
def internal : Nat := 2
/-- A signed Attest (R365). -/
def attest : Nat := 1500
end Lat

/-- Whether masked work can claim its masks (R389). -/
def entropyOk (s : State) : Bool := !s.entropyDown && decide (num s 0x2300 1 ≠ 3)

/-! Channel objects. In SHEAF the objects of partner 1 stand 0x40 higher (R207). -/

/-- This unit's pair number: 0 outside SHEAF (R208). -/
def pairNo (s : State) : Nat := if sheafOn s then num s 0xF000 2 % 2 else 0
def chSub (s : State) (k : Nat) : Nat := k + 0x40 * pairNo s
def cnum (s : State) (n k : Nat) : Nat := num s (0x4000 + n) (chSub s k)
def setC (s : State) (n k v : Nat) : State := setNum s (0x4000 + n) (chSub s k) v
def incC (s : State) (n k : Nat) : State := setC s n k (sat32 (cnum s n k) 1)

/-- The channel field of R208. -/
def chanField (s : State) (n : Nat) : Nat := n + 0x8000 * pairNo s

/-! Channel states (R210). -/
namespace Ch
def unused : Nat := 0
def closed : Nat := 1
def opening : Nat := 2
def isOpen : Nat := 3
def rekeying : Nat := 4
def orphaned : Nat := 5
def exhausted : Nat := 6
end Ch

def chanState (s : State) (n : Nat) : Nat := cnum s n 1

/-- The default hidden context of a channel. -/
def chan0 : Chan := ⟨[], 0, 0, 0, false, none, [], []⟩
def chanOf (s : State) (n : Nat) : Chan := SMap.at' s.chans n chan0
def setChan (s : State) (n : Nat) (c : Chan) : State := { s with chans := SMap.put s.chans n c }
def updChan (s : State) (n : Nat) (f : Chan → Chan) : State := setChan s n (f (chanOf s n))

/-- An event bit of R214 set: it raises the EVENT cause of the host link or the CHANNEL event of the owner's cell. -/
def setFlag (s : State) (n i : Nat) : State := setC s n 0x0B (setBit (cnum s n 0x0B) i true)

/-- What the owner of a channel sees when a record joins its queue (rx) or an event bit is set: EVENT (bit 7 of the cause
word) on the host link, RX (bit 0) or CHANNEL (bit 1) of the owning cell (R214, R448). The host link of a follower is 0x4001 (R540). -/
def ownerActs (s : State) (n : Nat) (rx : Bool) : List Act :=
  let o := cnum s n 5
  if clearBits o 0x4000 = 1 then [.cause 0x80] else if 0x100 ≤ o ∧ o < 0x120 then [.event (o - 0x100) (if rx then 1 else 2)] else []

/-- Channels whose Key node object is not null, with that handle, of this unit. -/
def keyedChans (s : State) : List (Nat × Nat) :=
  s.pers.dict.filterMap fun p =>
    if 0x4000 ≤ p.1 / 256 ∧ p.1 / 256 < 0xC000 ∧ p.1 % 256 = chSub s 2 then some (p.1 / 256 - 0x4000, p.2.toNat) else none

/-- The work field of a stream slot (R280). -/
def streamNode (x : SCtx) : Nat := x.handle % 0x10000

/-- Whether a Key node object names a node key that p accepts: of this unit's channels, and of its partner's while the two are a pair
(R347, R348, R542). -/
def keySet (s : State) (p : Nat → Bool) : Bool :=
  s.pers.dict.any fun x =>
    decide (0x4000 ≤ x.1 / 256 ∧ x.1 / 256 < 0xC000 ∧ (x.1 % 256 = chSub s 2 ∨ sheafOn s ∧ x.1 % 64 = 2)) && p x.2.toNat

/-- A level-4 key below node n in a slot's list of the nodes its work depends on: a blob-wrap key (R325, R338). -/
def keyBelow (n : Nat) : Nat := n + 0x10000

/-- Work that depends on n depends on y: on a node below y, or on a level-4 key of y itself (R338). -/
def depends (s : State) (y n : Nat) : Bool := if n < 0x10000 then below s y n else atOrBelow s y (n - 0x10000)

/-- The cut-set entries of a slot for bumped nodes xs (R338): of its work, and of its response where its session's credential lies
below them. -/
def cutEntries (s : State) (xs : List Nat) (x : Slot) : List (Nat × Nat × Nat) :=
  let hit := x.nodes.any fun n => xs.any fun y => depends s y n
  let w := match x.work with
    | .none => []
    | .frameDown n => [(chanField s n, 1, x.adm)]
    | .frameUp f => [(f, 2, x.adm)]
    | .segment f => [(f, 3, x.adm)]
    | .pleRun f => [(0x200 + f, 4, x.adm)]
    | .attest => [(0, 6, x.adm)]
    | .output f => [(f, 7, x.adm)]
  let r := match x.sess.bind fun k => (SMap.look s.sessions k).map fun y => (k, y) with
    | some (k, y) => if x.numbered ∧ xs.any (fun z => atOrBelow s z (credNode y.role y.cred)) then [(k, 5, x.adm)] else []
    | none => []
  (if hit then w else []) ++ r

/-- The consequences of bumping nodes xs, in the bumping admission (R236, R280, R311, R335, R337, R121). -/
def afterBump (s : State) (xs : List Nat) : State :=
  let hit := fun n => xs.any fun y => below s y n
  let s1 := (keyedChans s).foldl (fun t p => if hit (p.2 % 0x10000) ∧ chanState t p.1 ≠ 0 then setC t p.1 1 Ch.orphaned else t) s
  let entries := s.slots.flatMap (cutEntries s xs)
  { s1 with
    streams := s1.streams.map fun p => match p.2.ctx with
      | some x =>
        let dead := if x.handle / 0x100000 % 16 = 8 then
            match SMap.look s.secrets (x.handle % 0x10000) with
            | some y => hit y.source
            | none => false
          else hit (streamNode x)
        if p.2.state = 1 ∧ dead then (p.1, { p.2 with state := 4, out := [], staged := p.2.staged ++ p.2.out }) else p
      | none => p
    sessions := s1.sessions.map fun p =>
      if xs.any (fun z => atOrBelow s z (credNode p.2.role p.2.cred)) then (p.1, { p.2 with orphaned := true }) else p
    secrets := s1.secrets.map fun p => if p.2.source ≠ 0 ∧ hit p.2.source then (p.1, { p.2 with dead := true }) else p
    cache := s1.cache.filter fun e => isRoot e.node || !(xs.any fun z => atOrBelow s z e.node)
    internal := if entries.isEmpty then s1.internal else .cut entries :: s1.internal }

/-- The nodes whose epochs have a second copy (R332). -/
def copied (n : Nat) : Bool := decide (n = 1 ∨ n = 2 ∨ n = 4 ∨ n = 0x15 ∨ n = 0x18)

/-- Epoch entry n written, in both its copies where it has two: it is readable again (R332). -/
def writeEpoch (s : State) (n v : Nat) : State :=
  { s with pers := { s.pers with
      epochs := SMap.put s.pers.epochs n v, badCopies := s.pers.badCopies.filter (· ≠ n), badEpochs := s.pers.badEpochs.filter (· ≠ n) } }

/-- Epoch entries raised by one (R329); the nodes must not be exhausted. -/
def raiseEpochs (s : State) (xs : List Nat) : State := count (xs.foldl (fun t n => writeEpoch t n (epochOf t n + 1)) s) 8 0 xs.length

/-- The stored pair secret cleared (R348, R357). -/
def clearPair (s : State) : State := setNum (setNum { s with pers := { s.pers with pair := none } } 0xCA20 6 0) 0xCA00 10 0

/-- What a bump of nodes xs bumps: where PAIR takes the pair secret with it, OWNER and SERVICE too, in one admission (R340, R348, R357). -/
def withPair (s : State) (xs : List Nat) : List Nat := if xs.contains 4 ∧ s.pers.pair.isSome then (xs ++ [1, 2]).dedup else xs

/-- The resident entries of the domain roots derived anew, where RECOVER has loaded them (R335). -/
def reRoot (s : State) : State := if s.cache.any fun e => isRoot e.node then loadRoots s else s

/-- The pair secret goes with a bump of PAIR (R348). -/
def losePair (s : State) (xs : List Nat) : State := if xs.contains 4 ∧ s.pers.pair.isSome then reRoot (clearPair s) else s

/-- A bump of several nodes in one admission, with one cut (R340). -/
def bumpNodes (s : State) (xs : List Nat) : State := losePair (raiseEpochs (afterBump s (withPair s xs)) (withPair s xs)) xs

/-- Whether one of the nodes xs has no higher epoch, so that a bump of them all is refused (R329). -/
def spentAny (s : State) (xs : List Nat) : Bool := xs.any fun n => decide (epochOf s n ≥ 0xFFFFFF)

/-- A tamper-driven bump: an exhausted node hands the bump to its parent; none where a domain root is exhausted (R330). -/
def tamperTarget (s : State) : Nat → Nat → Option Nat
  | 0, _ => none
  | f + 1, n =>
    if epochOf s n < 0xFFFFFF then some n
    else match nodeOf s n with
      | some x => if x.parent = 0 then none else tamperTarget s f x.parent
      | none => none

/-- The free value drawn n-th: the value, of w bits, and the state with the count advanced. -/
def draw (s : State) (w : Nat) : Nat × State :=
  (Config.freeValue s.seq.draws w % 2 ^ w, { s with seq := { s.seq with draws := s.seq.draws + 1 } })

end Sys2Proof.Machine
end

