-- ==== Sys2Proof/Machine/Rng.lean ====
section
/-! DEFINITION. The entropy source and the tillers (R366 to R390). -/

namespace Sys2Proof.Machine

/-- Block_Cipher_df of SP 800-90A with AES-256 to 48 bytes. -/
def blockCipherDf (input : Bytes) : Bytes :=
  let x := beBytes 4 input.length ++ beBytes 4 48 ++ input ++ [0x80]
  let x := fitBytes ((x.length + 15) / 16 * 16) x
  let k0 := (List.range 32).map (BitVec.ofNat 8 ·)
  let t := (List.range 3).flatMap fun i => cbcMac k0 (zeros 16) (beBytes 4 i ++ zeros 12 ++ x)
  let k := t.take 32
  let a := aesEnc k (t.drop 32)
  let b := aesEnc k a
  a ++ b ++ aesEnc k b

def tiller0 : Tiller := ⟨none, []⟩
def tillerOf (s : State) (t : Nat) : Tiller := SMap.at' s.rng.tillers t tiller0
def setTiller (s : State) (t : Nat) (x : Tiller) : State :=
  { s with rng := { s.rng with tillers := SMap.store s.rng.tillers t x tiller0 } }

def instantiated (s : State) (t : Nat) : Bool := (tillerOf s t).drbg.isSome

/-- The masking tillers of both lanes are seeded (R20, R376). -/
def masksReady (s : State) : Bool := (List.range 12).all (instantiated s)

/-- The personalisation string of a tiller (R374). -/
def tillerPers (s : State) (t : Nat) : Bytes :=
  fitBytes 16 Config.serial ++ [BitVec.ofNat 8 t] ++ beBytes 4 s.rng.resets

/-- k blocks taken from the seed pool, where it holds them. -/
def takePool (s : State) (k : Nat) : Option (Bytes × State) :=
  if s.rng.pool.length < k then none
  else some ((s.rng.pool.take k).flatten, { s with rng := { s.rng with pool := s.rng.pool.drop k } })

/-- Instantiation of tiller t from 4 conditioned blocks (R374, R380). -/
def instantiateTiller (s : State) (t : Nat) : Option State :=
  match takePool s 4 with
  | none => none
  | some (e, s1) => some (setTiller s1 t ⟨some (Drbg.instantiate (blockCipherDf (e ++ tillerPers s t))), []⟩)

/-- Reseed of tiller t from 3 conditioned blocks (R374, R379). -/
def reseedTiller (s : State) (t : Nat) : Option State :=
  match (tillerOf s t).drbg, takePool s 3 with
  | some d, some (e, s1) =>
    let s2 := setTiller s1 t { tillerOf s t with drbg := some (d.reseed (blockCipherDf e)) }
    some { s2 with rng := { s2.rng with reseeds := sat32 s2.rng.reseeds 1, stale := s2.rng.stale.filter (· ≠ t) } }
  | _, _ => none

/-- A reseed is due: past 2^20 requests, or after SLUMBER (R374, R379, R383). -/
def reseedDue (s : State) (t : Nat) : Bool :=
  ((tillerOf s t).drbg.map fun d => decide (d.count > 2 ^ 20)).getD false || s.rng.stale.contains t

/-- A tiller whose reseed is due reseeds first (R374, R383): none where the pool holds too few blocks. -/
def readyTiller (s : State) (t : Nat) : Option State := if reseedDue s t then (reseedTiller s t).map fun u => count u 7 2 1 else some s

/-- One generate request of n bytes, at most 4,096 (R374): none where the tiller is not instantiated or cannot reseed as it must, or the
source failed. -/
def genOnce (s : State) (t n : Nat) : Option (Bytes × State) :=
  if s.entropyDown then none
  else (readyTiller s t).bind fun u => (tillerOf u t).drbg.map fun d =>
    let r := d.generate n
    (r.1, setTiller u t { tillerOf u t with drbg := some r.2 })

/-- n bytes from tiller t, in requests of at most 4,096 bytes (R374). -/
def genTiller (s : State) (t n : Nat) : Option (Bytes × State) :=
  (List.range ((n - 1) / 4096)).foldl
    (fun r _ => r.bind fun p => (genOnce p.2 t 4096).map fun q => (p.1 ++ q.1, q.2))
    (genOnce s t (n - (n - 1) / 4096 * 4096))

/-- n bytes for an internal consumer of tiller t (R387). Where the tiller cannot deliver, which R378 rules out while the
source is healthy, the bytes are free. -/
def drawTiller (t : Nat) (s : State) (n : Nat) : Bytes × State :=
  match genTiller s t n with
  | some r => r
  | none => let r := draw s (8 * n); (leBytes n r.1, r.2)

/-- n bytes from the output buffer of tiller t (R377, R384): none where it holds too few. -/
def takeBuffer (s : State) (t n : Nat) : Option (Bytes × State) :=
  let x := tillerOf s t
  if x.buf.length < n then none else some (x.buf.take n, setTiller s t { x with buf := x.buf.drop n })

/-- The failure instant F (R388): everything in RNG is zeroised. -/
def entropyStop (s : State) (cause : Nat) : State :=
  { s with entropyDown := true
           rng := { s.rng with on := false, pool := [], tillers := [], masks := [0, 0], cause := s.rng.cause ||| cause } }

/-- A window of the balance loop (R367): one trim step toward balance; failure after 4 windows at an end stop. -/
def balanceStep (x : Nat × Nat) (ones : Nat) : Nat × Nat :=
  let t := if ones > 2048 then x.1 - 1 else if ones < 2048 then min (x.1 + 1) 63 else x.1
  (t, if t = 0 ∨ t = 63 then x.2 + 1 else 0)

/-- One raw bit under the tests of its Fumarole: the tests after it, and whether the repetition count or the adaptive proportion has
reached its cutoff, by the methods of SP 800-90B, in which the first bit of a window counts (R372). -/
def Health.step (h : Health) (b : Bool) : Health × Bool × Bool :=
  let run := if h.last = some b then h.run + 1 else 1
  let h' : Health := if h.seen = 0 ∨ h.seen ≥ 1024 then ⟨some b, run, b, 1, 1⟩
    else ⟨some b, run, h.first, if b = h.first then h.same + 1 else h.same, h.seen + 1⟩
  (h', decide (81 ≤ run), decide (826 ≤ h'.same))

/-- The cause bits of one bit of each Fumarole (R390): the tests that fail, and the Fumaroles that fail them. -/
def failBits (rs : List (Health × Bool × Bool)) : Nat :=
  (if rs.any fun r => r.2.1 then 16 else 0) + (if rs.any fun r => r.2.2 then 32 else 0) +
    ((List.range 4).map fun f => if (rs.map fun r => r.2.1 || r.2.2).getD f false then 2 ^ (8 + f) else 0).sum

/-- The j-th of 128 raw bits of each Fumarole; the bits of a block are interleaved in Fumarole order, the first of them leading (R370,
log 119). -/
def rawBits (raw : BitVec 512) (j : Nat) : List Bool := (List.range 4).map fun f => raw.getMsbD (4 * j + f)

/-- The raw bits of one block under the health tests, which go on from bit to bit and from block to block: the tests after it, and the cause
bits of the first failure, 0 for none (R371, R372). -/
def judged (hs : List Health) (raw : BitVec 512) : List Health × Nat :=
  (List.range 128).foldl (fun a j =>
    if a.2 ≠ 0 then a
    else
      let rs := List.zipWith Health.step a.1 (rawBits raw j)
      (rs.map fun r => r.1, failBits rs)) (hs, 0)

/-- A balance loop has converged: the trims in force in four consecutive windows lie within two steps of the first of them (R380,
log 131). -/
def converged (w : List Nat) : Bool := decide (w.length = 4) && w.all fun x => decide (x ≤ w.getLastD 0 + 2 ∧ w.getLastD 0 ≤ x + 2)

/-- Seeding is complete: tillers 0 to 15 are instantiated (R81). -/
def seeded (s : State) : Bool := (List.range 16).all (instantiated s)

/-- RECOVER begins when FIRMWARE has ended with an image and seeding is complete (R81). -/
def enterRecover (s : State) : State := if s.stage = 3 ∧ s.boot.verified ∧ seeded s then { s with stage := 4 } else s

end Sys2Proof.Machine
end

