-- ==== Sys2Proof/Machine/Frames.lean ====
section
/-! DEFINITION. Channels and Brixyth channel frames: sealing and opening, the transitions of R211, the writes of the
channel objects, and the internal admissions of CHQ (R207 to R249). -/

namespace Sys2Proof.Machine

/-- A slot joins the unreleased requests. -/
def pushSlot (s : State) (x : Slot) : State :=
  { s with slots := s.slots ++ [{ x with id := s.seq.nextId }], seq := { s.seq with nextId := s.seq.nextId + 1 } }

/-! Engine units, masks and the key-node cache under work (R252, R254 to R257, R262, R300). -/

/-- The units that a piece of work needs: a CIE lane, DGE, and a PLE core (1 a modular one, 2 the polynomial one). -/
structure Needs where
  lane : Bool
  dge : Bool
  core : Nat

def Needs.onLane : Needs := ⟨true, false, 0⟩

/-- The needed core is in service (R300). -/
def coreUp (s : State) (core : Nat) : Bool :=
  match core with
  | 0 => true
  | 1 => decide (num s 0xCF38 1 = 0) || decide (num s 0xCF38 2 = 0)
  | _ => decide (num s 0xCF38 3 = 0)

/-- k block masks claimed from the reserve of a lane in service, the fuller one of two (R252, log 103). -/
def claimMasks (s : State) (k : Nat) : State :=
  let m := fun l => s.rng.masks.getD l 0
  let lane := if num s 0xCF20 1 ≠ 0 then 1 else if num s 0xCF20 2 ≠ 0 then 0 else if m 1 > m 0 then 1 else 0
  { s with rng := { s.rng with masks := s.rng.masks.set lane (m lane - k) } }

/-- Blocks of a channel frame of n payload bytes: two derivations, the hash key, the data and the tag mask (R261, R263). -/
def frameBlocks (n : Nat) : Nat := 15 + (n + 15) / 16

/-- Blocks of the derivation of node n's key (R261): three for each PRF call. -/
def keyBlocks (s : State) (n : Nat) : Nat := ((nodeOf s n).map fun x => 3 * ((keyBits x + 127) / 128)).getD 0

/-- Whether a node may have an entry in the key-node cache: level 1 or 2, kinds 0x01 to 0x05, not a domain root, and live (R334). -/
def cacheable (s : State) (n : Nat) : Bool :=
  match nodeOf s n with
  | none => false
  | some x => decide (x.parent ≠ 0 ∧ x.level ≤ 2 ∧ 1 ≤ x.kind ∧ x.kind ≤ 5) && live s n

/-- A fill, which evicts the least recently used entry of a full cache, or a use of an entry held: 251 entries beside the five domain
roots, which no fill evicts (R334). -/
def cacheUse (s : State) (n : Nat) : State :=
  let stamp := (s.cache.map fun e => e.used).foldl max 0 + 1
  if s.cache.any fun e => decide (e.node = n) then
    { s with cache := s.cache.map fun e => if e.node = n then { e with used := stamp } else e }
  else
    let s1 := count (count (incHw s 0xCA00 8 1) 3 6 1) 6 2 1
    let others := s.cache.filter fun e => !isRoot e.node
    let oldest := (others.map fun e => e.used).foldl min stamp
    if others.length < 251 then { s1 with cache := s1.cache ++ [cacheEnt s n stamp] }
    else count { s1 with cache := (s1.cache.filter fun e => isRoot e.node || decide (e.used ≠ oldest)) ++ [cacheEnt s n stamp] } 6 3 1

/-- The key path of node n made ready: the node of it that the cache may hold is filled or used (R262; the wait is timing, log 88). -/
def warm (s : State) (n : Nat) : State :=
  let path := n :: (match nodeOf s n with
    | some x => x.parent :: (match nodeOf s x.parent with
      | some y => [y.parent]
      | none => [])
    | none => [])
  match path.find? (cacheable s) with
  | some m => cacheUse s m
  | none => s

/-! The frame pool (R209). Of several free cells the lowest is taken (log 100). -/

/-- The lowest number that a map does not use. -/
def lowestFree {α : Type} (m : SMap α) : Nat := ((List.range (m.length + 1)).find? fun i => (SMap.look m i).isNone).getD m.length

/-- A frame of the admission now in force takes an in-flight cell. -/
def holdFrame (s : State) (field dir : Nat) (tainted : Bool) (f : Bytes) : State :=
  { s with inflight := SMap.put s.inflight (lowestFree s.inflight) ⟨field, dir, s.seq.adm, tainted, f⟩ }

/-- The in-flight cells of an admission's frame are zeroised, and a tainted record cell with them (R209, R234). -/
def dropFrame (s : State) (field dir adm : Nat) : State :=
  { s with
    inflight := s.inflight.filter fun p => !decide (p.2.field = field ∧ p.2.dir = dir ∧ p.2.adm = adm)
    records := s.records.filter fun p => !(p.2.tainted && decide (p.2.field = field ∧ dir = 2 ∧ p.2.adm = adm)) }

/-- A record of the admission now in force takes a record cell. -/
def holdRecord (s : State) (field : Nat) : State :=
  { s with records := SMap.put s.records (lowestFree s.records) ⟨field, false, none, s.seq.adm⟩ }

/-- The record cell of the admission that comes first in an order, where there is one. -/
def pickCell (first : Nat → Nat → Bool) (m : SMap RecCell) : Option (Nat × RecCell) :=
  m.foldl (fun a p => match a with
    | some q => if first p.2.adm q.2.adm then some p else some q
    | none => some p) none

/-- The cell of the record of admission adm of a channel. -/
def recordCell (s : State) (field adm : Nat) : Option Nat :=
  (s.records.find? fun p => decide (p.2.field = field ∧ p.2.adm = adm)).map fun p => p.1

/-- The record of admission adm joins its channel's queue: the last cell of the queue names its cell (R209, R233). -/
def linkRecord (s : State) (field adm : Nat) : State :=
  match recordCell s field adm with
  | none => s
  | some c =>
    let older := s.records.filter fun p => decide (p.2.field = field ∧ p.2.adm < adm) && !p.2.tainted
    match pickCell (fun a b => decide (b < a)) older with
    | some q => { s with records := s.records.map fun p => if p.1 = q.1 then (p.1, { p.2 with next := some c }) else p }
    | none => s

/-- A slot of the admission now in force without a response. -/
def actSlot (s : State) (lat : Nat) (w : Work) (nodes : List Nat) (acts : List Act) : Slot :=
  ⟨0, s.seq.adm, true, 0, s.seq.admTime + lat, none, none, 0, false, w, none, nodes, acts⟩

/-- Some CIE lane is in service (R257). -/
def cipherUp (s : State) : Bool := decide (num s 0xCF20 1 = 0) || decide (num s 0xCF20 2 = 0)

/-- The level-1 node above n: its domain (R222). -/
def domainOf (s : State) : Nat → Nat → Nat
  | 0, n => n
  | f + 1, n =>
    match nodeOf s n with
    | some x => if x.parent = 0 then n else domainOf s f x.parent
    | none => n

def keyNodeOf (s : State) (n : Nat) : Nat := cnum s n 2 % 0x10000

/-- The 96-bit nonce of a frame (R222). -/
def frameNonce (s : State) (n epoch seq dir : Nat) : Bytes :=
  [BitVec.ofNat 8 (domainOf s 4 (keyNodeOf s n))] ++ beBytes 2 (chanField s n) ++ beBytes 3 epoch ++ beBytes 4 seq ++ beBytes 2 dir

/-- The 12-byte frame header (R219). -/
def frameHead (s : State) (n kind len epoch seq : Nat) : Bytes :=
  [BitVec.ofNat 8 (0x40 + kind), BitVec.ofNat 8 (28 + len)] ++ leBytes 2 (chanField s n) ++ leBytes 3 epoch ++ [0] ++ leBytes 4 seq

/-- A sealed downstream frame (R223). -/
def sealFrame (s : State) (n kind seq : Nat) (payload : Bytes) : Bytes :=
  let e := cnum s n 8
  let h := frameHead s n kind payload.length e seq
  let k := msgKey (nodeKey s (keyNodeOf s n)) e seq 1
  let c := gcmSeal k (frameNonce s n e seq 1) h payload
  h ++ c.1 ++ c.2

/-- Template values in force: interval, reply, lost threshold, depth, maximum payload, failure limit (R215, R216). -/
def tmplNow (s : State) (n : Nat) : List Nat := (List.range 6).map fun k => num s (0x3000 + cnum s n 3) (k + 1)
def tmplAt (s : State) (n k d : Nat) : Nat := (chanOf s n).tmpl.getD k d

/-- Heartbeat interval in use, in ms (R212.0D, R240). -/
def interval (s : State) (n : Nat) : Nat :=
  let v := cnum s n 0x0D
  if v ≠ 0 then v else tmplAt s n 0 (num s (0x3000 + cnum s n 3) 1)

def ceilRate (ms : Nat) : Nat := if ms = 0 then 0 else (1000 + ms - 1) / ms

/-- Heartbeat load (R218). -/
def heartbeatLoad (s : State) : Nat :=
  ((keyedChans s).map fun p => if chanState s p.1 = 2 ∨ chanState s p.1 = 3 ∨ chanState s p.1 = 4
    then ceilRate (interval s p.1) else 0).sum

/-- The control payload of R220. -/
def controlPayload (s : State) (ms : Nat) (reply : Bool) : Bytes :=
  leBytes 2 ms ++ [if reply then 1 else 0, 0] ++ leBytes 8 s.seq.admTime

/-- A forced rekey is due on an OPEN channel (R226). -/
def forceIfHigh (s : State) (n seq : Nat) : State :=
  if chanState s n = Ch.isOpen ∧ seq ≥ 0xFFFF0000 ∧ !s.internal.contains (.forced n) then
    { s with internal := .forced n :: s.internal } else s

/-- One downstream frame admitted now, with kind and payload (R230 from check 4, R239): the outcome, and the state in
which the sequence is consumed and, on success, the frame waits for its release to the barrier 4 us later. -/
def sendFrame (s : State) (n kind : Nat) (payload : Bytes) (phys : Phys) : State × Nat :=
  let seq := cnum s n 9
  if seq ≥ 0xFFFFFFFF then (s, Abt.replay)
  else if num s 0x2300 1 = 3 then (s, Abt.entropyFailed)
  else
    let frame := sealFrame s n kind seq payload
    let s := claimMasks (warm s (keyNodeOf s n)) (frameBlocks payload.length)
    let s1 := forceIfHigh (setC s n 9 (seq + 1)) n (seq + 1)
    if phys = .entropy ∨ s.entropyDown then (s1, Abt.entropyFailed)
    else if phys = .engine ∨ !cipherUp s then (s1, Abt.engineFault)
    else
      let s2 := count (incC s1 n 0x12) 1 0 1
      let s3 := updChan s2 n fun c => { c with due := s.seq.admTime + 1000 * interval s n, beating := false }
      (pushSlot (holdFrame s3 (chanField s n) 1 false frame) (actSlot s3 Lat.frame (.frameDown n) [keyNodeOf s n] [.lane1 (.chfDown frame)]), 0)

/-- The CLOSE frame, where one can be sent, and the state CLOSED (R211, R248). -/
def closeFrom (s : State) (n : Nat) (phys : Phys) : State :=
  let s1 := if chanState s n = Ch.isOpen ∨ chanState s n = Ch.rekeying
    then (sendFrame s n 5 (controlPayload s 0 false) phys).1 else s
  setC s1 n 1 Ch.closed

/-- The starting admission of an Open or a rekey: durable epoch + 1 (R211, R225, R228). -/
def startEpoch (s : State) (n dest : Nat) (phys : Phys) : State × Nat :=
  let k := keyNodeOf s n
  if epochOf s k ≥ 0xFFFFFF then
    let s1 := if chanState s n = Ch.isOpen then closeFrom s n .ok else s
    (setC s1 n 1 Ch.exhausted, Abt.epochExhausted)
  else if phys = .store then ((if chanState s n = Ch.isOpen then closeFrom s n .ok else s), Abt.storeFault)
  else
    let s1 := raiseEpochs s [k]
    (updChan (setC s1 n 1 dest) n fun c => { c with switchAt := c.switchAt ++ [s.seq.admTime + 8] }, 0)

/-- The route entry of a channel (R170). -/
def routeEntry (s : State) (n : Nat) : Nat × Nat := (0x8000 + n, cnum s n 4)

/-- Open with 0x01 (R211, R213, R216, R218). -/
def openChannel (s : State) (n : Nat) (phys : Phys) : State × Nat :=
  let st := chanState s n
  if st = Ch.unused then (s, Abt.channelClosed)
  else if st = Ch.orphaned then (s, Abt.keyOrphaned)
  else if st = Ch.exhausted then (s, Abt.epochExhausted)
  else if st ≠ Ch.closed then (s, 0)
  else if cnum s n 4 = 0 then (s, Abt.valueConflict)
  else
    let s1 := updChan s n fun c => { c with tmpl := tmplNow s n }
    if heartbeatLoad s + ceilRate (interval s1 n) > 300000 then (s, Abt.valueConflict)
    else startEpoch s1 n Ch.opening phys

/-- Open with 0x00 (R211, R213). -/
def closeChannel (s : State) (n : Nat) (phys : Phys) : State :=
  let st := chanState s n
  if st = Ch.opening ∨ st = Ch.isOpen ∨ st = Ch.rekeying then closeFrom s n phys else s

/-- Rekey with 0x01 (R211, R213). -/
def rekeyChannel (s : State) (n : Nat) (phys : Phys) : State × Nat :=
  let st := chanState s n
  if st = Ch.rekeying then (s, Abt.valueConflict)
  else if st = Ch.orphaned then (s, Abt.keyOrphaned)
  else if st ≠ Ch.isOpen then (s, Abt.channelClosed)
  else startEpoch s n Ch.rekeying phys

/-- The switch admission (R211, R225): in-use epoch, sequences, OPEN or REKEY frame. -/
def switchChannel (s : State) (n : Nat) (phys : Phys) : State × Nat :=
  let st := chanState s n
  let s := updChan s n fun c => { c with switchAt := c.switchAt.tail }
  if st = Ch.orphaned then (s, Abt.keyOrphaned)
  else if st ≠ Ch.opening ∧ st ≠ Ch.rekeying then (s, 0)
  else
    let s1 := setC (setC (setC s n 8 (epochOf s (keyNodeOf s n))) n 9 0) n 0x0A 0
    let s2 := setC s1 n 0x0B (setBit (cnum s1 n 0x0B) 0 false)
    let s3 := incC (setC s2 n 1 Ch.isOpen) n 0x16
    let reply := tmplAt s3 n 1 1 ≠ 0
    if st = Ch.opening then
      let s4 := pushSlot s3 (actSlot s3 Lat.frame .none [] [.lane1 (.route [routeEntry s n])])
      sendFrame s4 n 3 (controlPayload s4 (interval s4 n) reply) phys
    else
      let s4 := setFlag s3 n 4
      let s5 := pushSlot s4 (actSlot s4 Lat.frame .none [] (ownerActs s4 n false))
      sendFrame s5 n 4 (controlPayload s5 (interval s5 n) reply) phys

/-- Freed record cells (R209, R217). -/
def freeCells (s : State) (k : Nat) : State := setNum s 0x3100 2 (num s 0x3100 2 + k)

/-- The records of channel n that wait for their release are dropped. -/
def dropJoins (n : Nat) (x : Slot) : Slot :=
  { x with acts := x.acts.filter fun a => match a with
      | .rxJoin k _ => decide (k ≠ n)
      | _ => true }

/-- The receive queue emptied and its cells zeroised, those of records not yet released among them (R211, R233). -/
def emptyQueue (s : State) (n : Nat) : State :=
  let d := cnum s n 0x11
  let s0 := { s with slots := s.slots.map (dropJoins n), records := s.records.filter fun p => decide (p.2.field ≠ chanField s n) }
  let s1 := freeCells (setC s0 n 0x11 0) d
  updChan (setC s1 n 0x0B (setBit (cnum s1 n 0x0B) 1 false)) n fun c => { c with queue := [] }

/-- The node checks of a Key node write (R213). -/
def keyNodeCheck (s : State) (n h : Nat) : Nat :=
  match nodeByHandle s h with
  | none => Abt.handleInvalid
  | some k =>
    match nodeOf s k with
    | none => Abt.handleInvalid
    | some x =>
      let d := domainOf s 4 k
      if x.level ≠ 3 ∨ x.kind ≠ 0x11 ∨ (d ≠ 1 ∧ d ≠ 2) then Abt.keyUsage
      else if !live s k then Abt.keyOrphaned
      else if cnum s n 2 ≠ h ∧ keySet s (fun x => decide (x = h)) then Abt.valueConflict
      else 0

/-- Key node written (R211, R213). -/
def writeKeyNode (s : State) (n h : Nat) : State × Nat :=
  let st := chanState s n
  if st = Ch.opening ∨ st = Ch.isOpen ∨ st = Ch.rekeying then (s, Abt.valueConflict)
  else
    let c := if h = 0 then 0 else keyNodeCheck s n h
    if c ≠ 0 then (s, c)
    else
      let s1 := setC (emptyQueue s n) n 2 h
      (setC s1 n 1 (if h = 0 then Ch.unused else Ch.closed), 0)

/-- A frame as its header reads (R219). -/
structure FrameHdr where
  ctl : Nat
  len : Nat
  field : Nat
  epoch : Nat
  rsv : Nat
  seq : Nat

def parseHdr (f : Bytes) : FrameHdr :=
  ⟨(f.getD 0 0).toNat, (f.getD 1 0).toNat, leNat ((f.drop 2).take 2), leNat ((f.drop 4).take 3), (f.getD 7 0).toNat,
   leNat ((f.drop 8).take 4)⟩

/-- Check 1 of R231. -/
def upFormOk (s : State) (n : Nat) (f : Bytes) : Bool :=
  let h := parseHdr f
  let kind := h.ctl % 16
  let maxp := tmplAt s n 4 (num s (0x3000 + cnum s n 3) 5)
  decide (f.length ≥ 28) && decide (h.ctl / 16 = 4) && decide (h.rsv = 0) && decide (h.len = f.length) && decide (h.len ≤ 240) &&
    (decide (kind = 1 ∧ h.len - 28 ≤ maxp) || decide (kind = 2 ∧ h.len = 36) || decide (kind = 6 ∧ h.len = 28)) &&
    decide ((h.seq = 0xFFFFFFFF) ↔ kind = 6)

/-- An authentication failure counted (R235). -/
def countAuthFail (s : State) (n : Nat) : State :=
  let s1 := count (incC s n 0x14) 1 2 1
  let f := min ((chanOf s1 n).fails + 1) 255
  let s2 := updChan s1 n fun c => { c with fails := f }
  if f = tmplAt s2 n 5 (num s (0x3000 + cnum s n 3) 6) ∧ (chanOf s1 n).fails < f then
    let s3 := setFlag s2 n 3
    let s4 := pushSlot s3 (actSlot s3 Lat.frame .none [] (ownerActs s3 n false))
    journal s4 ⟨6, 0xFF, 0xFF, 0x0B, 0x4000 + n, 0x8000 + cnum s4 n 4⟩ (leBytes 2 (chanField s n) ++ [BitVec.ofNat 8 f])
  else s2

def taint (s : State) : State := incObj s 0x3100 5

/-- A frame accepted (R231): kind, sequence and plaintext. -/
def acceptUp (s : State) (n kind seq : Nat) (pt : Bytes) : State :=
  let s1 := count (setC (incC s n 0x13) n 0x17 s.seq.admTime) 1 1 1
  let s2 := updChan s1 n fun c => { c with missed := 0, fails := 0 }
  if kind = 6 then
    let due : Bool := match (chanOf s2 n).helloAt with
      | none => true
      | some t => decide (s.seq.admTime ≥ t + 1000000)
    if chanState s2 n = Ch.isOpen ∧ due then
      { updChan s2 n (fun c => { c with helloAt := some s.seq.admTime }) with internal := s2.internal ++ [.hello n] }
    else s2
  else
    let s3 := setC (setFlag s2 n 0) n 0x0A seq
    let s4 := forceIfHigh s3 n seq
    if kind = 2 then setC s4 n 0x18 (leNat ((pt.drop 4).take 4))
    else
      let free := num s4 0x3100 2 - 1
      let s5 := holdRecord (setNum (setNum (setC s4 n 0x11 (cnum s4 n 0x11 + 1)) 0x3100 2 free) 0x3100 3 (min (num s4 0x3100 3) free)) (chanField s n)
      setFlag (count s5 1 6 1) n 1

/-- What the admission of an upstream frame gives: the state, the outcome, whether the frame's cell is tainted, and what the
release does. -/
structure UpOut where
  s : State
  code : Nat
  tainted : Bool
  acts : List Act

/-- The checks of R231 and the acceptance, for a frame from a port and node. -/
def openFrame (s : State) (port node : Nat) (f : Bytes) (phys : Phys) : UpOut :=
  let h := parseHdr f
  let n := h.field % 0x8000
  let kind := h.ctl % 16
  let refuse := fun (t : State) (code : Nat) => UpOut.mk t code false []
  let spoil := fun (t : State) (code : Nat) => UpOut.mk (taint t) code true []
  if !upFormOk s n f then refuse s Abt.valueEncoding
  else if h.field / 0x8000 ≠ pairNo s ∨ cnum s n 4 ≠ port * 256 + node then refuse s Abt.channelClosed
  else
    let st := chanState s n
    if st = Ch.orphaned then refuse s Abt.keyOrphaned
    else if st ≠ Ch.isOpen ∧ st ≠ Ch.rekeying then refuse s Abt.channelClosed
    else
      let e := cnum s n 8
      if h.epoch < e ∨ (bit (cnum s n 0x0B) 0 ∧ h.seq ≤ cnum s n 0x0A) then refuse (incC s n 0x15) Abt.replay
      else if h.epoch > e then refuse (countAuthFail s n) Abt.authFail
      else if phys = .entropy ∨ !entropyOk s then refuse s Abt.entropyFailed
      else if phys = .engine ∨ !cipherUp s then spoil s Abt.engineFault
      else if phys = .compare then spoil s Abt.compareFault
      else
        let k := msgKey (nodeKey s (keyNodeOf s n)) e h.seq 2
        let s := claimMasks (warm s (keyNodeOf s n)) (frameBlocks (f.length - 28))
        match gcmOpen k (frameNonce s n e h.seq 2) (f.take 12) ((f.drop 12).take (f.length - 28)) (f.drop (f.length - 16)) with
        | none => spoil (countAuthFail s n) Abt.authFail
        | some pt =>
          if kind = 1 ∧ cnum s n 0x11 ≥ tmplAt s n 3 4 then refuse s Abt.channelQueueFull
          else if kind = 1 ∧ num s 0x3100 2 = 0 then refuse (incObj s 0x3100 4) Abt.framePoolEmpty
          else
            ⟨acceptUp s n kind h.seq pt, 0, false,
              if kind = 1 then .rxJoin n ⟨e, h.seq, s.seq.adm, s.seq.admTime, pt⟩ :: ownerActs s n true else []⟩

/-- The admission of an upstream frame from a port and node (R231): whatever the outcome, the frame keeps its in-flight cell to the
release 4 us later (R209). -/
def receiveFrame (s : State) (port node : Nat) (f : Bytes) (phys : Phys) : State × Nat :=
  let field := (parseHdr f).field
  let n := field % 0x8000
  let r := openFrame s port node f phys
  let nodes := if field / 0x8000 = pairNo s ∧ cnum s n 2 ≠ 0 then [keyNodeOf s n] else []
  (pushSlot (holdFrame r.s field 2 r.tainted f) { actSlot r.s Lat.frame (.frameUp field) nodes r.acts with code := r.code }, r.code)

/-- The receive record of R233. -/
def RxRec.bytes (r : RxRec) : Bytes :=
  [1, 0] ++ leBytes 2 r.payload.length ++ leBytes 4 r.epoch ++ leBytes 4 r.seq ++ zeros 4 ++ leBytes 8 r.adm ++ leBytes 8 r.time ++ r.payload

/-- The oldest record cell of a channel that is not tainted: the cell of its head record. -/
def headCell (s : State) (field : Nat) : Option Nat :=
  (pickCell (fun a b => decide (a < b)) (s.records.filter fun p => decide (p.2.field = field) && !p.2.tainted)).map fun p => p.1

/-- The head record removed, and its cell freed (R233). -/
def popRecord (s : State) (n : Nat) : State :=
  let s0 := match headCell s (chanField s n) with
    | some c => { s with records := SMap.del s.records c }
    | none => s
  let s1 := freeCells (setC s0 n 0x11 (cnum s0 n 0x11 - 1)) 1
  let s2 := updChan s1 n fun c => { c with queue := c.queue.tail }
  if cnum s2 n 0x11 = 0 then setC s2 n 0x0B (setBit (cnum s2 n 0x0B) 1 false) else s2

/-- A heartbeat admission (R239, R241). -/
def heartbeat (s : State) (n : Nat) (phys : Phys) : State × Nat :=
  let st := chanState s n
  let s := updChan s n fun c => { c with beating := false }
  if st = Ch.orphaned then (s, Abt.keyOrphaned)
  else if st ≠ Ch.isOpen ∧ st ≠ Ch.rekeying then (s, Abt.channelClosed)
  else
    let reply := tmplAt s n 1 1 ≠ 0
    let r := sendFrame (count s 1 4 1) n 2 (controlPayload s (interval s n) reply) phys
    if reply ∧ r.2 = 0 then
      let m := min ((chanOf r.1 n).missed + 1) 255
      let s1 := updChan r.1 n fun c => { c with missed := m }
      if m ≥ tmplAt s n 2 3 ∧ !bit (cnum s1 n 0x0B) 2 then
        let s2 := setFlag s1 n 2
        (pushSlot s2 (actSlot s2 Lat.frame .none [] (ownerActs s2 n false)), r.2)
      else (s1, r.2)
    else r

/-- A queued DATA send (R232). -/
def queuedData (s : State) (n : Nat) (payload : Bytes) (phys : Phys) : State × Nat :=
  let st := chanState s n
  let r := if payload.length > tmplAt s n 4 (num s (0x3000 + cnum s n 3) 5) then (s, Abt.sizeMismatch)
    else if st = Ch.orphaned then (s, Abt.keyOrphaned)
    else if st ≠ Ch.isOpen ∧ st ≠ Ch.rekeying then (s, Abt.channelClosed)
    else sendFrame s n 1 payload phys
  if r.2 = Abt.entropyFailed ∨ r.2 = Abt.engineFault then
    let s1 := setFlag r.1 n 6
    (pushSlot s1 (actSlot s1 Lat.frame .none [] (ownerActs s1 n false)), r.2)
  else r

/-- Lowest channel with an event bit set, whatever its state (R218). -/
def lowestFlagged (s : State) : Nat :=
  (s.dict.find? fun p => decide (0x4000 ≤ p.1 / 256 ∧ p.1 / 256 < 0xC000 ∧ p.1 % 256 = chSub s 0x0B ∧ p.2.toNat / 2 ≠ 0)).elim 0xFFFFFFFF
    fun p => p.1 / 256 - 0x4000 + 0x8000 * pairNo s

end Sys2Proof.Machine
end

