-- ==== Sys2Proof/Machine/Streams.lean ====
section
/-! DEFINITION. Engine streams (R258 to R281): Begin and its checks, the segments of each mode over the running state of
R268, ends, Park and unpark. -/

namespace Sys2Proof.Machine

/-- An idle stream slot. -/
def stream0 : Stream := ⟨0, none, 0, 0, [], [], 0, 0, 0, zeros 16, [], [], false, 0⟩
def streamOf (s : State) (f : Nat) : Stream := SMap.at' s.streams f stream0
def setStream (s : State) (f : Nat) (x : Stream) : State := { s with streams := SMap.store s.streams f x stream0 }
def updStream (s : State) (f : Nat) (g : Stream → Stream) : State := setStream s f (g (streamOf s f))

/-- Who asks for engine work: role (R99 code), origin, session slot, and the holder number of session secret nodes. -/
structure Caller where
  role : Nat
  origin : Nat
  slot : Nat
  holder : Nat

namespace Str

def isAead (m : Nat) : Bool := decide (m = 1 ∨ m = 2)
def isKw (m : Nat) : Bool := decide (m = 6 ∨ m = 7)
def isSha (m : Nat) : Bool := decide (0x10 ≤ m ∧ m ≤ 0x13)
def isHmac (m : Nat) : Bool := decide (0x18 ≤ m ∧ m ≤ 0x1A)
def isMac (m : Nat) : Bool := decide (m = 5) || isHmac m
def known (m : Nat) : Bool := decide (1 ≤ m ∧ m ≤ 7) || isSha m || isHmac m

/-- The digest length of a SHA or HMAC mode (R258). -/
def digestLen (m : Nat) : Nat :=
  match m with
  | 0x10 | 0x13 | 0x18 => 32
  | 0x11 | 0x19 => 48
  | 0x12 | 0x1A => 64
  | _ => 0

/-- Tag lengths of R258. -/
def tagOk (m t : Nat) : Bool :=
  match m with
  | 1 => decide (12 ≤ t ∧ t ≤ 16)
  | 2 => decide (4 ≤ t ∧ t ≤ 16 ∧ t % 2 = 0)
  | 5 => decide (8 ≤ t ∧ t ≤ 16)
  | 0x18 | 0x19 | 0x1A => decide (16 ≤ t ∧ t ≤ digestLen m)
  | _ => decide (t = 0)

/-- Length limits of R258 and R276; cap is the staging limit of the slot. -/
def lenOk (m : Nat) (dec : Bool) (aad data cap : Nat) : Bool :=
  (isAead m || decide (aad = 0)) &&
  match m with
  | 1 => !dec || decide (data ≤ cap)
  | 2 => decide (data ≤ 65535 ∧ aad ≤ 65279) && (!dec || decide (data ≤ cap))
  | 4 => decide (data ≠ 0 ∧ data % 16 = 0)
  | 6 => if dec then decide (24 ≤ data ∧ data ≤ 1024 ∧ data % 8 = 0) else decide (16 ≤ data ∧ data ≤ 1016 ∧ data % 8 = 0)
  | 7 => if dec then decide (16 ≤ data ∧ data ≤ 1024 ∧ data % 8 = 0) else decide (1 ≤ data ∧ data ≤ 1016)
  | _ => true

/-- Bytes of nonce that a DECRYPT input carries, and bytes of tag or digest (R273). -/
def nonceLen (m : Nat) : Nat :=
  match m with
  | 1 => 12
  | 2 => 13
  | 3 | 4 => 16
  | _ => 0
def tailLen (m t : Nat) : Nat := if isSha m then digestLen m else t

/-- The declared input length (R273). -/
def total (m : Nat) (dec : Bool) (t aad data : Nat) : Nat :=
  data + aad + (if dec then nonceLen m + tailLen m t else 0)

/-- The nonce built by the hardware (R259); for CBC the block whose cipher is the IV. -/
def buildNonce (m adm : Nat) : Bytes :=
  match m with
  | 1 => [0x80, 0, 0, 0] ++ beBytes 8 adm
  | 2 => [0x80, 0, 0, 0, 0] ++ beBytes 8 adm
  | 3 => [0x80, 0, 0, 0] ++ beBytes 8 adm ++ [0, 0, 0, 1]
  | 4 => [0x81, 0, 0, 0] ++ beBytes 8 adm ++ [0, 0, 0, 0]
  | _ => []

end Str

/-- Attributes and role against a mode and direction (R272, R342). -/
def usageOk (x : Node) (m : Nat) (dec : Bool) (role : Nat) : Bool :=
  let dir := bit x.attrs (if dec then 2 else 1)
  let roleOk := decide (role ≠ 1) || bit x.attrs 7
  roleOk &&
    if Str.isKw m then bit x.attrs 4 && (decide (x.kind = 0x15) || (decide (x.kind = 0x12) && dir))
    else if Str.isMac m then (decide (x.kind = 0x12) || decide (x.kind = 0x16)) && bit x.attrs 3 && dir
    else decide (x.kind = 0x12) && dir

/-- A cell uses only nodes under its own applet root, and a session none under any applet root (R449). -/
def keyDomainOk (s : State) (origin n : Nat) : Bool :=
  if 0x100 ≤ origin ∧ origin < 0x120 then below s (origin - 0x100 + 0x20) n
  else !((List.range 32).any fun c => below s (0x20 + c) n)

/-- The key a handle gives to a stream or a Run, or the refusal: handle checks of R272 and R307. ok judges the node. A cell is refused
another's session secret as it is any handle not its own (R449). -/
def keyForHandle (s : State) (h : Nat) (c : Caller) (secretOk : Bool) (ok : Node → Bool) : Nat :=
  if h / 0x100000 % 16 = 8 then
    match secretByHandle s h with
    | none => Abt.handleInvalid
    | some (_, x) =>
      if x.holder ≠ c.holder then (if 0x100 ≤ c.origin ∧ c.origin < 0x120 then Abt.keyUsage else Abt.handleInvalid) else if x.dead then Abt.keyOrphaned
      else if secretOk then 0 else Abt.keyUsage
  else
    match nodeByHandle s h with
    | none => Abt.handleInvalid
    | some n =>
      if !live s n then Abt.keyOrphaned
      else match nodeOf s n with
        | none => Abt.handleInvalid
        | some x => if ok x ∧ keyDomainOk s c.origin n then 0 else Abt.keyUsage

/-- The key bytes that a checked handle names. -/
def handleKey (s : State) (h : Nat) : Bytes :=
  if h / 0x100000 % 16 = 8 then
    match secretByHandle s h with
    | some (_, x) => x.key
    | none => []
  else nodeKey s (h % 0x10000)

/-- The epoch recorded at Begin (R267 offset 8). -/
def handleEpoch (s : State) (h : Nat) : Nat := if h / 0x100000 % 16 = 8 then 0 else epochOf s (h % 0x10000)

/-- Output, and the IV, of an earlier stream of slot f that has not been released is dropped. -/
def stripStream (s : State) (f : Nat) : State :=
  { s with slots := s.slots.map fun x => { x with acts := x.acts.filter fun a => match a with
      | .streamOut g _ => decide (g ≠ f)
      | .streamZero g => decide (g ≠ f)
      | .streamNonce g _ => decide (g ≠ f)
      | _ => true } }

/-- Begin on stream slot f with its 24-byte value (R271, R272); cap is the staging limit. -/
def beginStreamOp (s : State) (f : Nat) (c : Caller) (v : Bytes) (cap : Nat) : State × Nat :=
  let b := fun i => (v.getD i 0).toNat
  let m := b 0
  let dec := bit (b 1) 0
  let t := b 2
  let h := leNat ((v.drop 4).take 4)
  let aad := leNat ((v.drop 8).take 4)
  let data := leNat ((v.drop 12).take 4)
  if (streamOf s f).state = 1 then (s, Abt.valueConflict)
  else if b 1 / 2 ≠ 0 ∨ b 3 ≠ 0 ∨ !((v.drop 16).all (· = 0)) then (s, Abt.valueReserved)
  else if !Str.known m ∨ !Str.tagOk m t ∨ !Str.lenOk m dec aad data cap then (s, Abt.valueRange)
  else
    let code := if Str.isSha m then (if h = 0 then 0 else Abt.handleInvalid)
      else if h = 0 then Abt.handleInvalid
      else keyForHandle s h c (decide (m ≤ 7) || decide (m = 0x18)) (fun x => usageOk x m dec c.role)
    if code ≠ 0 then (s, code)
    else
      let iv := if dec then [] else Str.buildNonce m s.seq.adm
      let x : SCtx := ⟨m, dec, t, h, handleEpoch s h, aad, data, 0, 0, [], 0, iv, zeros 200, false, s.seq.adm, c.origin, c.slot, 0⟩
      (setStream (stripStream s f) f ⟨1, some x, c.origin, c.slot, [], [], 0, 0, Str.total m dec t aad data,
        fitBytes 16 (if m = 4 then [] else iv), [], [], (dec && Str.isAead m) || Str.isKw m, m⟩, 0)

namespace Str

def r0 (x : SCtx) : Bytes := x.run.take 16
def r1 (x : SCtx) : Bytes := (x.run.drop 16).take 16
def setRun (x : SCtx) (a b : Bytes) : SCtx := { x with run := fitBytes 16 a ++ fitBytes 16 b ++ zeros 168 }

/-- The block length of a digest mode. -/
def blockLen (m : Nat) : Nat :=
  match m with
  | 0x10 | 0x18 => 64
  | 0x13 => 136
  | _ => 128

def shaParams (m : Nat) : Sha.Params := if m = 0x10 ∨ m = 0x18 then Sha.p256 else Sha.p512
def shaIv (m : Nat) : List Nat :=
  if m = 0x10 ∨ m = 0x18 then Sha.iv256 else if m = 0x11 ∨ m = 0x19 then Sha.iv384 else Sha.iv512

/-- The running hash as words, from the 200 bytes of R268. -/
def hashWords (m : Nat) (run : Bytes) : List Nat :=
  let w := (shaParams m).w / 8
  (chunks w (run.take (8 * w))).map beNat

/-- Whole blocks absorbed into the running state of a digest mode. -/
def absorb (m : Nat) (run b : Bytes) : Bytes :=
  if m = 0x13 then (chunks 136 b).foldl Sha.keccakAbsorb run
  else fitBytes 200 (Sha.out (shaParams m) (Sha.absorb (shaParams m) (hashWords m run) b))

/-- The digest from the running state and the pending bytes, n bytes hashed in all (R283). -/
def finishHash (m : Nat) (run pend : Bytes) (n : Nat) : Bytes :=
  if m = 0x13 then ((Sha.keccakAbsorb run (pend ++ Sha.keccakPad 136 0x06 n))).take 32
  else (absorb m run (pend ++ Sha.pad (shaParams m) n)).take (digestLen m)

/-- The outer hash of HMAC (R284). -/
def hmacOuter (m : Nat) (key inner : Bytes) : Bytes :=
  let k0 := (fitBytes (blockLen m) key).map (· ^^^ 0x5c)
  match m with
  | 0x18 => sha256 (k0 ++ inner)
  | 0x19 => sha384 (k0 ++ inner)
  | _ => sha512 (k0 ++ inner)

/-- The bytes of segment d, first at stream position p, that lie in positions a to b. -/
def part (d : Bytes) (p a b : Nat) : Bytes := (d.drop (a - p)).take (b - max a p)

/-- State set up at the first segment: the CBC IV, the HMAC inner key block, the SHA start. -/
def start (x : SCtx) (key : Bytes) : SCtx :=
  if x.started then x else
    let x := { x with started := true }
    if x.mode = 4 ∧ !x.dec then let iv := aesEnc key x.iv; setRun { x with iv := iv } iv []
    else if isHmac x.mode then
      let iv := fitBytes 200 (Sha.out (shaParams x.mode) (shaIv x.mode))
      let ipad := (fitBytes (blockLen x.mode) key).map (· ^^^ 0x36)
      { x with run := absorb x.mode iv ipad }
    else if isSha x.mode ∧ x.mode ≠ 0x13 then { x with run := fitBytes 200 (Sha.out (shaParams x.mode) (shaIv x.mode)) }
    else x

/-- AAD bytes: whole blocks go into the accumulator, the rest waits; the end of the AAD is zero-filled (GCM, CCM). -/
def aad (x : SCtx) (key a : Bytes) : SCtx :=
  if a = [] then x else
    let done := x.aadDone + a.length
    let lead := if x.mode = 2 ∧ x.aadDone = 0 then beBytes 2 x.aadLen else []
    let buf := x.pend ++ lead ++ a
    let k := if done = x.aadLen then buf.length else buf.length / 16 * 16
    let acc := if x.mode = 1 then beBytes 16 (ghash (gcmH key) (beNat (r0 x)) (buf.take k)) else cbcMac key (r0 x) (buf.take k)
    { setRun x acc (r1 x) with pend := buf.drop k, aadDone := done }

/-- What precedes AAD and data once the nonce is known: counter blocks, and B0 of CCM. -/
def arm (x : SCtx) (key : Bytes) : SCtx :=
  match x.mode with
  | 1 => setRun x (r0 x) (x.iv ++ [0, 0, 0, 2])
  | 2 => setRun x (aesEnc key (ccmB0 x.iv x.aadLen x.dataLen x.tagLen)) (ccmCtr x.iv 1)
  | 3 => setRun x [] x.iv
  | 4 => if x.dec then setRun x x.iv [] else x
  | _ => x

/-- Data bytes: the context after the blocks they complete, and the output (R275). fin: no data byte follows. -/
def data (x : SCtx) (key d : Bytes) (fin : Bool) : SCtx × Bytes :=
  let buf := x.pend ++ d
  let whole := buf.length / 16 * 16
  let k := if fin then buf.length else whole
  let bk := buf.take k
  match x.mode with
  | 1 =>
    let o := ctrXor key (r1 x) bk
    let ct := if x.dec then bk else o.1
    ({ setRun x (beBytes 16 (ghash (gcmH key) (beNat (r0 x)) ct)) o.2 with pend := buf.drop k }, o.1)
  | 2 =>
    let o := ctrXor key (r1 x) bk
    let pt := if x.dec then o.1 else bk
    ({ setRun x (cbcMac key (r0 x) pt) o.2 with pend := buf.drop k }, o.1)
  | 3 => let o := ctrXor key (r1 x) bk; ({ setRun x [] o.2 with pend := buf.drop k }, o.1)
  | 4 =>
    let o := if x.dec then cbcDec key (chunks 16 (buf.take whole)) (r0 x) else cbcEnc key (chunks 16 (buf.take whole)) (r0 x)
    ({ setRun x o.2 [] with pend := buf.drop whole }, o.1)
  | 5 =>
    -- the last block waits for the end of the stream
    let k := if buf.length = 0 then 0 else (buf.length - 1) / 16 * 16
    ({ setRun x (cbcMac key (r0 x) (buf.take k)) [] with pend := buf.drop k }, [])
  | _ =>
    let n := blockLen x.mode
    let k := buf.length / n * n
    ({ x with run := absorb x.mode x.run (buf.take k), pend := buf.drop k }, [])

/-- The context past its last data byte: what was pending of a MAC or digest goes into the running state, so that the pending bytes are
free for a tag or digest that the input carries (R267, R268, R273). -/
def close (x : SCtx) (key : Bytes) : SCtx :=
  match x.mode with
  | 5 => { setRun x (cmacFinish key (r0 x) x.pend) [] with pend := [] }
  | 1 | 2 | 3 | 4 => x
  | m => { x with run := fitBytes 200 (finishHash m x.run x.pend ((if isHmac m then blockLen m else 0) + x.dataLen)), pend := [] }

/-- The tag, MAC or digest of a closed context (R273). -/
def finish (x : SCtx) (key : Bytes) : Bytes :=
  match x.mode with
  | 1 => (gcmTag key x.iv (beNat (r0 x)) x.aadLen x.dataLen).take x.tagLen
  | 2 => (xorBytes (aesEnc key (ccmCtr x.iv 0)) (r0 x)).take x.tagLen
  | 5 => (r0 x).take x.tagLen
  | 3 | 4 => []
  | m => if isHmac m then (hmacOuter m key (x.run.take (digestLen m))).take x.tagLen else x.run.take (digestLen m)

/-- The context is past its last data byte. -/
def closed (x : SCtx) : Bool := x.started && decide (x.aadDone + x.dataDone ≥ (if x.dec then nonceLen x.mode else 0) + x.aadLen + x.dataLen)

end Str

/-- One segment of a stream (R274 to R276): the next context, the tag bytes held, and the output. -/
def streamSegment (x : SCtx) (hold key d : Bytes) : SCtx × Bytes × Bytes :=
  let m := x.mode
  let nl := if x.dec then Str.nonceLen m else 0
  let p := x.aadDone + x.dataDone
  let first := !x.started
  let x := Str.start x key
  let nonce := Str.part d p 0 nl
  let x := { x with iv := x.iv ++ nonce, dataDone := x.dataDone + nonce.length }
  let armed := if x.dec ∧ nl > 0 then decide (p < nl) && decide (p + d.length ≥ nl) else first
  let x := if armed then Str.arm x key else x
  let a := Str.part d p nl (nl + x.aadLen)
  let x := Str.aad x key a
  let d0 := nl + x.aadLen
  let body := Str.part d p d0 (d0 + x.dataLen)
  let fin := decide (p + d.length ≥ d0 + x.dataLen)
  let r0 := if body = [] then (x, []) else Str.data x key body fin
  let r := (if fin ∧ (first ∨ p < d0 + x.dataLen) then Str.close r0.1 key else r0.1, r0.2)
  let tail := Str.part d p (d0 + x.dataLen) (d0 + x.dataLen + Str.tailLen m x.tagLen)
  let y := { r.1 with dataDone := r.1.dataDone + body.length + tail.length, segs := min (r.1.segs + 1) 65535 }
  (y, hold ++ tail, (if first ∧ !x.dec ∧ nl = 0 ∧ Str.nonceLen m > 0 then y.iv else []) ++ r.2)

/-- The latency class of a stream segment (R188). -/
def streamLat (m : Nat) : Nat := if m ≥ 0x10 then Lat.digest else Lat.cipher

/-- The slot ended with a code: FAILED, the context discarded and the staging zeroised (R255, R274, R277). -/
def failStream (s : State) (f code : Nat) : State :=
  updStream s f fun y => { y with state := 3, ctx := none, staged := [], hold := [], result := code }

/-- The physical outcome of engine work, as an abort code (R198, R255, R257, R281, R286, R296, R298, R300): only lane work and work with
random inputs needs entropy (R389). -/
def unitsFault (s : State) (phys : Phys) (n : Needs) (random : Bool) : Nat :=
  if (n.lane ∨ random) ∧ (phys = .entropy ∨ !entropyOk s) then Abt.entropyFailed
  else if ((n.lane ∨ n.dge) ∧ phys = .engine) ∨ (n.lane ∧ !cipherUp s) ∨ (n.dge ∧ num s 0xCF20 3 ≠ 0) ∨ !coreUp s n.core then Abt.engineFault
  else if n.core ≠ 0 ∧ phys = .compare then Abt.compareFault
  else if n.core ≠ 0 ∧ phys = .resultCheck then Abt.resultCheck
  else 0

/-- The same for masked work of a CIE lane. -/
def cipherFault (s : State) (phys : Phys) : Nat := unitsFault s phys Needs.onLane false

/-- The units of a stream segment (R254): digests run on DGE, and an HMAC derives its key on a lane at the first segment and at the end,
and at no other time (R284). last says that the segment ends the stream. -/
def streamNeeds (x : SCtx) (last : Bool) : Needs :=
  ⟨decide (x.mode < 0x10) || (Str.isHmac x.mode && (!x.started || last)), decide (x.mode ≥ 0x10), 0⟩

/-- The units of a segment of n bytes of the Input of slot f. -/
def segNeeds (s : State) (f n : Nat) : Needs :=
  ((streamOf s f).ctx.map fun x => streamNeeds x (decide ((streamOf s f).remain ≤ n))).getD Needs.onLane

/-- A handle of a session secret node (R311). -/
def isSecretHandle (h : Nat) : Bool := decide (h / 0x100000 % 16 = 8)

/-- The data bytes of a segment of n bytes, with those that wait in the context, and whether no data byte follows (R260). -/
def dataBytes (x : SCtx) (n : Nat) : Nat × Bool :=
  let p := x.aadDone + x.dataDone
  let d0 := (if x.dec then Str.nonceLen x.mode else 0) + x.aadLen
  let e := d0 + x.dataLen
  ((if p ≥ d0 then x.pend.length else 0) + (min (p + n) e - max p d0), decide (p + n ≥ e))

/-- AES blocks of a segment of n bytes on its lane (R260, R261): the derivation of the key, where the handle names a key node, and what the
mode costs; last says that the segment ends the stream. -/
def segBlocks (s : State) (x : SCtx) (n : Nat) (last : Bool) : Nat :=
  let key := if x.handle = 0 ∨ isSecretHandle x.handle then 0 else keyBlocks s (x.handle % 0x10000)
  let d := dataBytes x n
  let b := if d.2 then (d.1 + 15) / 16 else d.1 / 16
  let first := if x.started then 0 else 1
  let fin := if last then 1 else 0
  let semi := ((if x.dec then n - 8 else n) + 7) / 8
  match x.mode with
  | 1 => key + 1 + b + fin
  | 2 => key + 2 * b + fin + first * (1 + (if x.aadLen = 0 then 0 else (x.aadLen + 17) / 16))
  | 3 => key + b
  | 4 => key + b + (if x.dec then 0 else first)
  | 5 => key + 1 + (if d.2 then max b 1 else (d.1 - 1) / 16)
  | 6 | 7 => key + (if semi ≤ 1 then 1 else 6 * semi)
  | _ => if (streamNeeds x last).lane then key else 0

/-- The alarm of a doubled compare unit: which pair it shows is free (R286, log 106). -/
def alarmPair (s : State) : Nat × State := let r := draw s 1; (if r.1 = 0 then 4 else 7, r.2)

/-- A failed comparison at the end of a stream (R276, R286): FAILED with its code and flags, and what was staged stays, tainted, to the
release of the segment. -/
def failCompare (s : State) (f code flags : Nat) (staged : Bytes) : State :=
  updStream (failStream s f code) f fun z => { z with staged := staged, flags := flags, remain := 0 }

/-- The end of a verify, an authenticated decrypt or an unwrap (R276, R286): out is what a match releases. -/
def streamCompare (s : State) (f lat : Nat) (nodes : List Nat) (phys : Phys) (good : Bool) (out : Option Bytes) : Eff :=
  let bad := fun (t : State) (code flags : Nat) =>
    { Eff.fail (failCompare t f code flags (out.getD [])) lat code with acts := [.streamZero f], work := .segment f, nodes := nodes }
  if phys = .compare then let r := alarmPair s; bad r.2 Abt.compareFault r.1
  else if good then
    { Eff.ok (updStream s f fun z => { z with state := 2, ctx := none, staged := [], flags := 5, result := 0, remain := 0 }) lat with
      acts := (match out with | some b => [.streamOut f b] | none => []), work := .segment f, nodes := nodes }
  else bad s Abt.authFail 6

/-- The latency of a segment of the Input of slot f, an empty one too (R188, R265, R274). -/
def inputLat (s : State) (f : Nat) : Nat := streamLat (streamOf s f).mode

/-- The nodes that a handle makes work depend on: its key node, or the source of a session secret (R280, R311). -/
def handleNodes (s : State) (h : Nat) : List Nat :=
  if h = 0 then []
  else if isSecretHandle h then (match SMap.look s.secrets (h % 0x10000) with | some y => (if y.source = 0 then [] else [y.source]) | none => [])
  else [h % 0x10000]

/-- The segment d of the Input of slot f, in its own admission (R274 to R277, R281). The IV of a CBC encryption shows at the release of
the first segment (R272). -/
def streamInputOp (s0 : State) (f : Nat) (d : Bytes) (phys : Phys) : Eff :=
  let y := streamOf s0 f
  match y.ctx with
  | none => Eff.fail s0 (streamLat y.mode) (if y.state = 4 then Abt.keyOrphaned else Abt.valueConflict)
  | some x =>
    let lat := streamLat x.mode
    let nodes := handleNodes s0 x.handle
    let rest := y.remain - d.length
    let last := decide (rest = 0)
    let needs := streamNeeds x last
    let fault := unitsFault s0 phys needs false
    if y.state = 4 then Eff.fail s0 lat Abt.keyOrphaned
    else if d = [] then Eff.ok s0 lat
    else if fault ≠ 0 then Eff.fail (updStream (failStream s0 f fault) f fun z => { z with remain := rest }) lat fault
    else
      let s := if !needs.lane then s0
        else claimMasks (if isSecretHandle x.handle then s0 else warm s0 (x.handle % 0x10000)) (segBlocks s0 x d.length last)
      let key := handleKey s0 x.handle
      if Str.isKw x.mode then
        if rest ≠ 0 then Eff.fail (updStream (failStream s f Abt.lengthShort) f fun z => { z with remain := rest }) lat Abt.lengthShort
        else if x.dec then
          let r := if x.mode = 6 then kwUnwrap key d else kwpUnwrap key d
          streamCompare s f lat nodes phys r.2 (some r.1)
        else
          let w := if x.mode = 6 then kwWrap key d else kwpWrap key d
          { Eff.ok (updStream s f fun z => { z with state := 2, ctx := none, result := 0, remain := 0 }) lat with
            acts := [.streamOut f w], work := .segment f, nodes := nodes }
      else
        let r := streamSegment x y.hold key d
        let nx := r.1
        let late := decide (x.mode = 4 ∧ !x.dec)
        let show' := if late ∧ !x.started then [Act.streamNonce f (fitBytes 16 nx.iv)] else []
        let s1 := updStream s f fun z => { z with ctx := some nx, hold := r.2.1, remain := rest, result := 0,
                                                  nonce := if late then z.nonce else fitBytes 16 nx.iv }
        let staged := x.dec && Str.isAead x.mode
        if rest ≠ 0 then
          if staged then { Eff.ok (updStream s1 f fun z => { z with staged := z.staged ++ r.2.2 }) lat with work := .segment f, nodes := nodes }
          else { Eff.ok s1 lat with acts := show' ++ [.streamOut f r.2.2], work := .segment f, nodes := nodes }
        else
          let t := Str.finish nx key
          let s1 := if Str.isHmac x.mode then count s1 4 2 1 else s1
          if staged then streamCompare s1 f lat nodes phys (decide (t = r.2.1)) (some (y.staged ++ r.2.2))
          else if x.dec ∧ (Str.isMac x.mode ∨ Str.isSha x.mode) then streamCompare s1 f lat nodes phys (decide (t = r.2.1)) none
          else
            { Eff.ok (updStream s1 f fun z => { z with state := 2, ctx := none }) lat with
              acts := show' ++ [.streamOut f (r.2.2 ++ t)], work := .segment f, nodes := nodes }

/-- An Input INIT: its total against Bytes remaining, and Output cleared (R274, R275). -/
def streamInit (s : State) (f total : Nat) : State × Nat :=
  let y := streamOf s f
  if y.state = 4 then (s, Abt.keyOrphaned)
  else if y.state ≠ 1 then (s, Abt.valueConflict)
  else if total > 32768 ∨ total > y.remain ∨ total = 0 then (s, Abt.sizeMismatch)
  else (updStream s f fun z => { z with out := [] }, 0)

/-- The 416-byte context (R267). -/
def SCtx.bytes (x : SCtx) : Bytes :=
  let n := fun k v => leBytes k v
  n 1 1 ++ n 1 x.mode ++ n 1 ((if x.dec then 1 else 0) + (if x.started then 2 else 0)) ++ n 1 x.tagLen ++ n 4 x.handle ++
    n 3 x.epoch ++ n 1 0 ++ n 4 x.aadLen ++ n 4 x.dataLen ++ n 4 x.aadDone ++ n 4 x.dataDone ++ n 1 x.pend.length ++ n 1 0 ++
    n 2 x.segs ++ fitBytes 16 x.iv ++ fitBytes 200 x.run ++ fitBytes 136 x.pend ++ n 8 x.beginAdm ++ n 2 x.owner ++ n 1 x.sess ++
    n 1 0 ++ n 8 x.parkAdm ++ zeros 12

/-- The context that 416 bytes spell (R267). -/
def parseCtx (b : Bytes) : SCtx :=
  let g := fun i k => leNat ((b.drop i).take k)
  let m := g 1 1
  let dec := bit (g 2 1) 0
  let done := g 24 4
  let iv := (b.drop 32).take 16
  let iv := if dec ∧ Str.nonceLen m > 0 then iv.take (min done (Str.nonceLen m)) else iv.take (Str.nonceLen m)
  ⟨m, dec, g 3 1, g 4 4, g 8 3, g 12 4, g 16 4, g 20 4, done, (b.drop 248).take (g 28 1), g 30 2, iv, (b.drop 48).take 200,
   bit (g 2 1) 1, g 384 8, g 392 2, g 394 1, g 396 8⟩

/-- Park (R279): the session is that of the caller. -/
def parkStream (s : State) (f : Nat) (inputOpen : Bool) (phys : Phys) : Eff :=
  let y := streamOf s f
  match y.ctx, SMap.look s.sessions y.ownSess with
  | some x, some z =>
    if y.state ≠ 1 ∨ inputOpen ∨ y.staged ≠ [] ∨ z.parked.length ≥ 16 then
      Eff.fail s Lat.cipher (if y.state = 4 then Abt.keyOrphaned else Abt.valueConflict)
    else
      let fault := cipherFault s phys
      if fault ≠ 0 then Eff.fail (failStream s f fault) Lat.cipher fault
      else
        let x := { x with parkAdm := s.seq.adm, pend := x.pend ++ y.hold }
        let w := kwWrap ((Session.keys s y.ownSess z).drop 32) x.bytes
        let s1 := setStream (claimMasks s 312) f { stream0 with parked := w, ownOrigin := y.ownOrigin, ownSess := y.ownSess }
        Eff.ok { s1 with sessions := SMap.put s1.sessions y.ownSess { z with parked := s.seq.adm :: z.parked } } Lat.cipher
  | _, _ => Eff.fail s Lat.cipher (if y.state = 4 then Abt.keyOrphaned else Abt.valueConflict)

/-- Unpark (R279): a 424-byte value written by session k into an idle slot. One that cannot claim its masks, or whose lane faults, leaves
the slot FAILED (R255, R389). -/
def unparkStream (s : State) (f k : Nat) (c : Caller) (v : Bytes) (phys : Phys) : Eff :=
  let y := streamOf s f
  match SMap.look s.sessions k with
  | none => Eff.fail s Lat.cipher Abt.noSession
  | some z =>
    let fault := cipherFault s phys
    if y.state ≠ 0 then Eff.fail s Lat.cipher Abt.valueConflict
    else if fault ≠ 0 then
      Eff.fail (setStream s f { stream0 with state := 3, ownOrigin := c.origin, ownSess := c.slot, result := fault, parked := y.parked }) Lat.cipher fault
    else if phys = .compare then Eff.fail s Lat.cipher Abt.compareFault
    else
      let u := kwUnwrap ((Session.keys s k z).drop 32) v
      let s := claimMasks s 312
      let p := parseCtx u.1
      let hold := if Str.closed p then p.pend else []
      let x := if Str.closed p then { p with pend := [] } else p
      let drop' := { s with sessions := SMap.put s.sessions k { z with parked := z.parked.filter (· ≠ x.parkAdm) } }
      if !u.2 then Eff.fail s Lat.cipher Abt.authFail
      else if u.1.head? ≠ some 1 then Eff.fail s Lat.cipher Abt.valueEncoding
      else if !z.parked.contains x.parkAdm then Eff.fail s Lat.cipher Abt.replay
      else if x.epoch ≠ handleEpoch s x.handle ∨ (x.handle ≠ 0 ∧ x.handle / 0x100000 % 16 ≠ 8 ∧ !live s (x.handle % 0x10000)) then
        Eff.fail drop' Lat.cipher Abt.keyOrphaned
      else
        let rest := Str.total x.mode x.dec x.tagLen x.aadLen x.dataLen - (x.aadDone + x.dataDone)
        Eff.ok (setStream (stripStream drop' f) f ⟨1, some { x with owner := c.origin, sess := c.slot }, c.origin, c.slot, [], [], 0, 0, rest,
          fitBytes 16 x.iv, [], hold, (x.dec && Str.isAead x.mode) || Str.isKw x.mode, x.mode⟩) Lat.cipher

/-- A slot zeroised (R278): the parked context stays readable only while its owner holds the slot. -/
def releaseStream (s : State) (f : Nat) : State := setStream s f stream0

end Sys2Proof.Machine
end

