-- ==== Sys2Proof/Machine/PleOps.lean ====
section
/-! DEFINITION. The public-key and lattice engine (R288 to R315): the request header, the checks of R307, key blobs and
the operations of R302. -/

namespace Sys2Proof.Machine

def ple0 : Ple := ⟨0, 0, 0, [], [], 0, 0, 0⟩
def pleOf (s : State) (f : Nat) : Ple := SMap.at' s.ples f ple0
def setPle (s : State) (f : Nat) (x : Ple) : State := { s with ples := SMap.store s.ples f x ple0 }
def updPle (s : State) (f : Nat) (g : Ple → Ple) : State := setPle s f (g (pleOf s f))

/-- The request header of R306. -/
structure PleHdr where
  op : Nat
  flags : Nat
  ctxLen : Nat
  alg : Nat
  handle : Nat
  msgLen : Nat
  rsv : Nat

namespace PleReq

def parse (b : Bytes) : PleHdr :=
  let g := fun i k => leNat ((b.drop i).take k)
  ⟨g 0 1, g 1 1, g 2 1, g 3 1, g 4 4, g 8 2, g 10 6⟩

def blob (h : PleHdr) : Bool := bit h.flags 0
def hedge (h : PleHdr) : Bool := bit h.flags 1

/-- The sign code (or 0x0A) of the algorithm an operation uses (R302, R306). -/
def algOf (h : PleHdr) : Nat :=
  match h.op with
  | 1 | 2 => 1
  | 3 | 4 => 3
  | 5 | 6 => 5
  | 7 | 8 => 7
  | 9 | 10 => 10
  | _ => h.alg

def isSign (o : Nat) : Bool := decide (o = 1 ∨ o = 3 ∨ o = 5 ∨ o = 7)
def isVerify (o : Nat) : Bool := decide (o = 2 ∨ o = 4 ∨ o = 6 ∨ o = 8)

/-- Release latencies of R302, in microseconds. -/
def latency (o : Nat) : Nat :=
  match o with
  | 1 => 1000 | 2 => 2000 | 3 => 2500 | 4 => 6000 | 5 => 1000 | 6 => 2000 | 7 => 1500 | 8 => 500 | 9 => 300 | 10 => 300
  | 11 => 3000 | 12 => 3000
  | _ => Lat.write

def algKnown (a : Nat) : Bool := decide (a = 1 ∨ a = 3 ∨ a = 5 ∨ a = 7 ∨ a = 10)

/-- Operation, algorithm, context and message length (R306, R307). -/
def rangeOk (h : PleHdr) : Bool :=
  decide (1 ≤ h.op ∧ h.op ≤ 12) &&
  (if h.op ≥ 11 then algKnown h.alg else decide (h.alg = 0)) &&
  (decide (h.ctxLen = 0) || decide (h.op = 7 ∨ h.op = 8)) &&
  (match h.op with
    | 1 | 2 => decide (h.msgLen = 32)
    | 3 | 4 => decide (h.msgLen = 48)
    | 5 | 6 | 7 | 8 => decide (h.msgLen ≤ 2048)
    | _ => decide (h.msgLen = 0)) &&
  (!hedge h || decide (h.op = 12)) && (!blob h || decide (h.op ≠ 12))

def pkLen (a : Nat) : Nat :=
  match a with
  | 1 => 65 | 3 => 97 | 5 => 32 | 7 => 1952 | _ => 1184
def sigLen (a : Nat) : Nat :=
  match a with
  | 1 => 64 | 3 => 96 | 5 => 64 | 7 => 3309 | _ => 1088

def hasPk (h : PleHdr) : Bool := (isVerify h.op || decide (h.op = 9)) && decide (h.handle = 0)
def hasSig (h : PleHdr) : Bool := isVerify h.op || decide (h.op = 10)

/-- The items of R306 after the header. -/
def blobAt (h : PleHdr) (b : Bytes) : Bytes := if blob h then (b.drop 16).take 104 else []
def off1 (h : PleHdr) : Nat := 16 + if blob h then 104 else 0
def pkAt (h : PleHdr) (b : Bytes) : Bytes := if hasPk h then (b.drop (off1 h)).take (pkLen (algOf h)) else []
def off2 (h : PleHdr) : Nat := off1 h + if hasPk h then pkLen (algOf h) else 0
def sigAt (h : PleHdr) (b : Bytes) : Bytes := if hasSig h then (b.drop (off2 h)).take (sigLen (algOf h)) else []
def off3 (h : PleHdr) : Nat := off2 h + if hasSig h then sigLen (algOf h) else 0
def ctxAt (h : PleHdr) (b : Bytes) : Bytes := (b.drop (off3 h)).take h.ctxLen
def msgAt (h : PleHdr) (b : Bytes) : Bytes := (b.drop (off3 h + h.ctxLen)).take h.msgLen
def totalLen (h : PleHdr) : Nat := off3 h + h.ctxLen + h.msgLen

end PleReq

/-- The public key of algorithm a from a seed (R291). -/
def seedPublic (a : Nat) (seed : Bytes) : Bytes :=
  match a with
  | 1 => Ec.publicKey Ec.p256 (Ec.scalar Ec.p256 seed)
  | 3 => Ec.publicKey Ec.p384 (Ec.scalar Ec.p384 seed)
  | 5 => Ed.publicKey (seed.take 32)
  | 7 => (Dsa.keyGen (seed.take 32)).pk
  | _ => (Kem.keyGen (seed.take 32) ((seed.drop 32).take 32)).ek

/-- Bytes 0 to 15 of a key blob (R292). -/
def blobHead (alg flags handle epoch : Nat) : Bytes :=
  [1, BitVec.ofNat 8 alg, BitVec.ofNat 8 flags, 0] ++ leBytes 4 handle ++ leBytes 3 epoch ++ zeros 5

/-- A blob unwrapped (R293): the seed and the HEDGE flag, or the refusal. -/
def openBlob (s : State) (n alg : Nat) (b : Bytes) : Except Nat (Bytes × Bool) :=
  if leNat ((b.drop 8).take 3) ≠ epochOf s n then .error Abt.keyOrphaned
  else
    let u := kwUnwrap (blobKey s n) (b.drop 16)
    if !u.2 ∨ u.1.take 16 ≠ b.take 16 ∨ b.getD 0 0 ≠ 1 ∨ (b.getD 1 0).toNat ≠ alg then .error Abt.authFail
    else .ok (u.1.drop 16, bit (b.getD 2 0).toNat 0)

/-- Whether a node may serve an operation (R307, R342). Fixed nodes serve only the uses that R320 lists (log 18). -/
def pleUsage (n : Nat) (x : Node) (h : PleHdr) (role : Nat) : Bool :=
  (decide (role ≠ 1) || bit x.attrs 7) &&
  if PleReq.blob h ∨ h.op = 12 then
    (decide (x.kind = 0x15) || decide (x.kind = 0x12)) && bit x.attrs 4 && !(decide (h.op = 12 ∧ h.alg = 5) && PleReq.hedge h)
  else
    decide (n ≥ 0x100) && decide (x.alg = PleReq.algOf h) && (decide (x.kind = 0x13) || decide (x.kind = 0x14))

/-- The private seed of a checked request: from the node, or from the blob. -/
def pleSeed (s : State) (h : PleHdr) (b : Bytes) : Except Nat (Bytes × Bool) :=
  let n := h.handle % 0x10000
  if h.handle = 0 then .ok ([], false)
  else if PleReq.blob h then openBlob s n (PleReq.algOf h) (PleReq.blobAt h b)
  else match nodeOf s n with
    | some x => .ok (nodeKey s n, bit x.attrs 6)
    | none => .error Abt.handleInvalid

/-- Whether a public key is a valid encoding (R307). -/
def pkOk (a : Nat) (pk : Bytes) : Bool :=
  match a with
  | 1 => (Ec.decode Ec.p256 pk).isSome
  | 3 => (Ec.decode Ec.p384 pk).isSome
  | 5 => (Ed.decode pk).isSome
  | 7 => decide (pk.length = 1952)
  | _ => Kem.ekOk pk

/-- Session secret nodes that a session or a cell holds, those of its Runs in service among them; a node that an epoch bump ended is held
no more (R311). -/
def secretsOf (s : State) (holder : Nat) : Nat :=
  (s.secrets.filter fun p => p.2.holder = holder ∧ !p.2.dead).length +
    (s.slots.filter fun x => x.acts.any fun a => match a with
      | .pleOut _ _ (some (_, h, _)) => decide (h = holder)
      | _ => false).length

/-- The checks of R307 from the second on: 0, or the refusal. -/
def pleCheck (s : State) (b : Bytes) (c : Caller) : Nat :=
  let h := PleReq.parse b
  let a := PleReq.algOf h
  let n := h.handle % 0x10000
  if h.flags / 4 ≠ 0 ∨ h.rsv ≠ 0 then Abt.valueReserved
  else if !PleReq.rangeOk h then Abt.valueRange
  else if b.length ≠ PleReq.totalLen h then Abt.sizeMismatch
  else
    let needs := !(PleReq.isVerify h.op || decide (h.op = 9)) || PleReq.blob h
    if h.handle = 0 ∧ needs then Abt.handleInvalid
    else
      let node := if h.handle = 0 then 0 else
        match nodeByHandle s h.handle with
        | none => Abt.handleInvalid
        | some _ =>
          if !live s n then Abt.keyOrphaned
          else match nodeOf s n with
            | none => Abt.handleInvalid
            | some x => if pleUsage n x h c.role ∧ keyDomainOk s c.origin n then 0 else Abt.keyUsage
      if node ≠ 0 then node
      else match pleSeed s h b with
        | .error e => e
        | .ok _ =>
          if PleReq.hasPk h ∧ !pkOk a (PleReq.pkAt h b) then Abt.valueEncoding
          else if sheafOn s ∧ h.op = 9 then Abt.mode
          else if (h.op = 9 ∨ h.op = 10) ∧ secretsOf s c.holder ≥ 8 then Abt.noSessionSlot
          else 0

/-- The result of an operation that ran: code, output, shared secret, whether it holds random values. -/
structure PleOut where
  code : Nat
  out : Bytes
  secret : Option Bytes
  random : Bool

def PleOut.good (b : Bytes) : PleOut := ⟨0, b, none, false⟩

/-- How many random bytes an operation draws (R292, R294). -/
def pleDraws (h : PleHdr) (hedged : Bool) : Nat :=
  match h.op with
  | 1 => if hedged then 32 else 0
  | 3 => if hedged then 48 else 0
  | 7 => if hedged then 32 else 0
  | 9 => 32
  | 12 => 64
  | _ => 0

/-- The operation itself (R288 to R299), with its random bytes. -/
def pleCompute (s : State) (b seed rnd : Bytes) : PleOut :=
  let h := PleReq.parse b
  let a := PleReq.algOf h
  let m := PleReq.msgAt h b
  let sg := PleReq.sigAt h b
  let pk := if h.handle = 0 then PleReq.pkAt h b else seedPublic a seed
  let ofSig := fun (x : Option Bytes) => match x with
    | some y => ⟨0, y, none, !rnd.isEmpty⟩
    | none => (⟨Abt.resultCheck, [], none, false⟩ : PleOut)
  let ofBool := fun (x : Bool) => (⟨if x then 0 else Abt.signatureInvalid, [], none, false⟩ : PleOut)
  match h.op with
  | 1 => ofSig (Ec.sign Ec.p256 (Ec.scalar Ec.p256 seed) m rnd)
  | 2 => ofBool (match Ec.decode Ec.p256 pk with | some q => Ec.verify Ec.p256 q m sg | none => false)
  | 3 => ofSig (Ec.sign Ec.p384 (Ec.scalar Ec.p384 seed) m rnd)
  | 4 => ofBool (match Ec.decode Ec.p384 pk with | some q => Ec.verify Ec.p384 q m sg | none => false)
  | 5 => ofSig (some (Ed.sign (seed.take 32) m))
  | 6 => ofBool (Ed.verify pk m sg)
  | 7 => ofSig (Dsa.sign (Dsa.keyGen (seed.take 32)) (PleReq.ctxAt h b) m (if rnd.isEmpty then zeros 32 else rnd))
  | 8 => ofBool (Dsa.verify pk (PleReq.ctxAt h b) m sg)
  | 9 => let e := Kem.encaps pk rnd; ⟨0, e.2, some e.1, true⟩
  | 10 => ⟨0, [], some (Kem.decaps (Kem.keyGen (seed.take 32) ((seed.drop 32).take 32)) sg), false⟩
  | 11 => PleOut.good (seedPublic a seed)
  | _ =>
    let n := h.handle % 0x10000
    let hd := blobHead a (if PleReq.hedge h then 1 else 0) h.handle (epochOf s n)
    ⟨0, hd ++ kwWrap (blobKey s n) (hd ++ rnd) ++ seedPublic a rnd, none, true⟩

/-- The PLE core that an algorithm runs on: 1 a modular one, 2 the polynomial one (R289). -/
def coreOf (a : Nat) : Nat := if a = 7 ∨ a = 10 then 2 else 1

/-- The cores an operation needs are in service (R300). -/
def pleUp (s : State) (a : Nat) : Bool := coreUp s (coreOf a)

/-- The units of an operation (R254, R290): RFC 6979 and the SHA-512 of Ed25519 run on DGE, derivations and blob wraps on a lane. -/
def pleNeeds (h : PleHdr) : Needs :=
  let a := PleReq.algOf h
  ⟨decide (h.handle ≠ 0), decide (h.op = 1 ∨ h.op = 3 ∨ a = 5), coreOf a⟩

/-- Whether an operation takes random values: seeds, and blinding or shares where a secret takes part (R292, R294, R296). -/
def pleRandom (h : PleHdr) : Bool := decide (h.handle ≠ 0 ∨ h.op = 9)

/-- The fault outcome of a Run (R198, R257, R296, R298, R300). The table of R298 has no result check for an encapsulation, and of a
decapsulation the comparison alone. -/
def pleFault (s : State) (h : PleHdr) (phys : Phys) : Nat :=
  let f := unitsFault s phys (pleNeeds h) (pleRandom h)
  if (f = Abt.resultCheck ∧ (h.op = 9 ∨ h.op = 10)) ∨ (f = Abt.compareFault ∧ h.op = 9) then 0 else f

/-- What a Run depends on (R280, R311, R338): its node, the source of its session secret, or the blob-wrap key of its wrapping node. -/
def pleNodes (s : State) (h : PleHdr) : List Nat :=
  if h.handle = 0 then [] else if isSecretHandle h.handle then handleNodes s h.handle
  else if PleReq.blob h ∨ h.op = 12 then [keyBelow (h.handle % 0x10000)] else [h.handle % 0x10000]

/-- Bytes of blinding and shares of an operation on a secret, by algorithm (R296, log 105): a 64-bit multiple of the order, one
projective coordinate and one scalar share; or one share of each secret polynomial. -/
def blindBytes (a : Nat) : Nat :=
  match a with
  | 1 | 5 => 72
  | 3 => 104
  | 7 => 22 * 768
  | _ => 3 * 384

/-- Core service of an elliptic-curve operation in cc (R302). -/
def coreCost (h : PleHdr) : Nat :=
  match h.op with
  | 1 => 93750 | 2 => 225000 | 3 => 281250 | 4 => 703125 | 5 => 75000 | 6 => 187500
  | _ => match h.alg with
    | 1 => 84375 | 3 => 253125 | _ => 65625

/-- An elliptic-curve operation goes to the modular core in service with the smaller committed backlog, M0 on a tie (R303). -/
def takeCore (s : State) (cc : Nat) : State :=
  let now := 1125 * s.seq.admTime
  let a := max s.cores.m0 now
  let b := max s.cores.m1 now
  if num s 0xCF38 1 = 0 ∧ (num s 0xCF38 2 ≠ 0 ∨ a ≤ b) then { s with cores := { s.cores with m0 := a + 2 * cc, last := 0 } }
  else { s with cores := { s.cores with m1 := b + 2 * cc, last := 1 } }

/-- n bytes that an operation uses up and never shows, from tiller t where it can deliver (R296). -/
def blind (s : State) (t n : Nat) : State := ((genTiller s t n).map fun r => r.2).getD s

/-- Blinding comes from tiller 12 for M0 and the polynomial core, and from tiller 13 for M1 (R376, log 105). -/
def pleBlind (s : State) (h : PleHdr) : State :=
  let a := PleReq.algOf h
  if h.handle = 0 then s else blind s (if coreOf a = 1 ∧ s.cores.last = 1 then 13 else 12) (blindBytes a)

/-- The tiller of an operation's random bytes: 15 for HEDGE values, 14 for seeds and for the message of an encapsulation (R376, log 105). -/
def pleTiller (h : PleHdr) : Nat := if h.op = 9 ∨ h.op = 12 then 14 else 15

/-- What a Run takes from its units once it is checked: its core, the masks and the cached node of its key path, and its blinding. -/
def pleStart (s : State) (h : PleHdr) : State :=
  let s1 := if coreOf (PleReq.algOf h) = 1 then takeCore s (coreCost h) else s
  let s2 := if h.handle = 0 then s1 else claimMasks (warm s1 (h.handle % 0x10000)) (if PleReq.blob h ∨ h.op = 12 then 78 else 12)
  pleBlind s2 h

/-- What a Run of input b gives: refused with a code, or run with a result and its state. -/
inductive PleRun where
  | refused (code : Nat)
  | ran (s : State) (o : PleOut)

/-- A Run (R307, R308). -/
def pleRunOp (s : State) (b : Bytes) (c : Caller) (phys : Phys) : PleRun :=
  let code := pleCheck s b c
  if code ≠ 0 then .refused code
  else
    let h := PleReq.parse b
    let f := pleFault s h phys
    if f = Abt.entropyFailed ∨ f = Abt.engineFault then .ran s ⟨f, [], none, false⟩
    else match pleSeed s h b with
      | .error e => .refused e
      | .ok (seed, hedged) =>
        let t := pleStart s h
        let n := pleDraws h hedged
        let r := if n = 0 then ([], t) else drawTiller (pleTiller h) t n
        if f ≠ 0 then .ran r.2 ⟨f, [], none, false⟩ else .ran (count r.2 5 3 1) (pleCompute s b seed r.1)

/-- Compare flags of a verify (R310, R286); which pair an alarm shows is free. -/
def pleFlags (s : State) (op code : Nat) : Nat × State :=
  if !PleReq.isVerify op then (0, s)
  else if code = 0 then (5, s) else if code = Abt.signatureInvalid then (6, s) else if code = Abt.compareFault then alarmPair s else (0, s)

/-- The lowest free workspace index (R311, R319). -/
def freeSecret (m : SMap Secret) : Nat := ((List.range 1024).find? fun i => (SMap.look m i).isNone).getD 1024

/-- The release latency of a Run: that of the operation which the loaded header names (R308). -/
def pleLat (y : Ple) : Nat := if y.state = 1 ∨ y.input = [] then Lat.write else PleReq.latency (PleReq.parse y.input).op

/-- Write of Run on host slot f (R307, R308). -/
def pleSlotRunOp (s : State) (f : Nat) (c : Caller) (phys : Phys) : Eff :=
  let y := pleOf s f
  let h := PleReq.parse y.input
  let lat := pleLat y
  if y.state ≠ 2 then Eff.fail s lat Abt.valueConflict
  else match pleRunOp s y.input c phys with
    | .refused code => Eff.fail s lat code
    | .ran t o =>
      let fl := pleFlags t h.op o.code
      let t := updPle fl.2 f fun z => { z with state := if o.code = 0 then 3 else 4, input := [], result := o.code, flags := fl.1 }
      let src := if h.op = 10 then h.handle % 0x10000 else 0
      let sec := o.secret.map fun k => (k, c.holder, src)
      { Eff.fail t lat o.code with
        acts := [.pleOut f o.out sec], work := .pleRun f, random := o.random
        nodes := pleNodes s h }

end Sys2Proof.Machine
end

