-- ==== Sys2Proof/Machine/KeyOps.lean ====
section
/-! DEFINITION. The writes of the key hierarchy, of ownership and of attestation (R341 to R365). -/

namespace Sys2Proof.Machine

/-- The caller of engine work from a request's context. -/
def Ctx.caller (c : Ctx) : Caller :=
  ⟨c.role.getD 0, c.origin, c.slot.getD 0xFF, if c.origin / 0x100 = 1 then c.origin else c.slot.getD 0xFF⟩

/-- Every allocated node number: fixed and stored (R343.07). -/
def fixedNumbers : List Nat :=
  [1, 2, 3, 4, 5, 0x10, 0x11, 0x12, 0x13, 0x14, 0x15, 0x16, 0x17, 0x18, 0x19] ++ (List.range 48).map (· + 0x40) ++ [0x70]

def nodesAllocated (s : State) : Nat := fixedNumbers.length + s.pers.nodes.length

/-- Child nodes allocated below n (R341). -/
def childCount (s : State) (n : Nat) : Nat :=
  (fixedNumbers.filter fun k => match fixedNode k with | some x => decide (x.parent = n) | none => false).length +
    (s.pers.nodes.filter fun p => p.2.parent = n).length

/-- The descriptor of node n (R341). -/
def nodeDescriptor (s : State) (n : Nat) : Bytes :=
  match nodeOf s n with
  | none => zeros 24
  | some x =>
    let pe := if (fixedNode n).isSome then epochOf s x.parent else x.pEpoch
    leBytes 4 (handleOf s n) ++ leBytes 4 (if x.parent = 0 then 0 else handleOf s x.parent) ++ leBytes 1 x.kind ++
      leBytes 1 (if live s n then 1 else 2) ++ leBytes 2 x.attrs ++ leBytes 3 (epochOf s n) ++ leBytes 1 x.alg ++
      leBytes 3 (if x.parent = 0 then 0 else pe) ++ [0] ++ leBytes 4 (childCount s n)

/-- The label object of node n (R341). -/
def nodeLabel (s : State) (n : Nat) : Bytes :=
  match nodeOf s n with
  | none => [0]
  | some x => BitVec.ofNat 8 x.label.length :: x.label

/-- Whether a parent allows a kind (R345); applet says the Create is KEY_CREATE (R449). -/
def kindAllowed (s : State) (p kind : Nat) (applet : Bool) : Bool :=
  match nodeOf s p with
  | none => false
  | some x =>
    let leaf := decide (0x12 ≤ kind ∧ kind ≤ 0x15)
    if p = 1 ∨ p = 2 then decide (kind = 4) || leaf
    else if x.kind = 0x04 then decide (kind = 0x11) || leaf
    else if x.kind = 0x03 then applet && leaf
    else if p = 0x15 then decide (kind = 0x16)
    else false

/-- Algorithm and attributes allowed for a kind (R342, R345). -/
def attrsAllowed (kind alg attrs : Nat) : Bool :=
  let only := fun (m : Nat) => decide (clearBits attrs m = 0)
  match kind with
  | 0x12 => decide (alg = 0) && only 0xBF
  | 0x13 => decide (alg = 1 ∨ alg = 3 ∨ alg = 5 ∨ alg = 7) && only 0xC0 && !(decide (alg = 5) && bit attrs 6)
  | 0x14 => decide (alg = 10) && only 0x80
  | 0x15 => decide (alg = 0) && only 0x90
  | 0x16 => decide (alg = 0) && only 0x8E
  | _ => decide (alg = 0) && only 0x80

/-- The lowest free created number (R321). -/
def freeNode (s : State) : Option Nat :=
  ((List.range 0xFEFF).map (· + 0x101)).find? fun n => decide (n % 256 ≠ 0) && (SMap.look s.pers.nodes n).isNone

/-- Node n stored with its record: epoch 0, one allocation more (R321, R327). -/
def allocNode (s0 : State) (n : Nat) (x : Node) : State :=
  let s := writeEpoch s0 n 0
  { s with pers := { s.pers with
      nodes := SMap.put s.pers.nodes n x
      allocs := SMap.upd s.pers.allocs n 0 (· + 1) } }

/-- Create (R345, R346) from its 44-byte value; the handle is in the result. Reserved attribute bits (R342) are refused as
reserved (R7). A KEY_CREATE of cell c, in applet, has the limits of R449 among the same checks: no EXPORTABLE, and 64 nodes at most. -/
def createNodeOp (s : State) (v : Bytes) (applet : Option Nat) : State × Nat × Nat :=
  let g := fun i k => leNat ((v.drop i).take k)
  let ph := g 0 4
  let kind := g 4 1
  let alg := g 5 1
  let attrs := g 6 2
  let ll := g 8 1
  let field := (v.drop 9).take 32
  let p := ph % 0x10000
  if g 41 3 ≠ 0 ∨ attrs / 256 ≠ 0 ∨ !((field.drop ll).all (· = 0)) then (s, Abt.valueReserved, 0)
  else if ll > 32 then (s, Abt.valueEncoding, 0)
  else if (nodeByHandle s ph).isNone then (s, Abt.handleInvalid, 0)
  else if !live s p then (s, Abt.keyOrphaned, 0)
  else if !kindAllowed s p kind applet.isSome || (match applet with | some c => decide (p ≠ 0x20 + c) | none => false) then (s, Abt.keyUsage, 0)
  else if !attrsAllowed kind alg attrs ∨ (applet.isSome ∧ bit attrs 5) then (s, Abt.keyUsage, 0)
  else
    let label := if ll = 0 then 0x4E :: leBytes 8 s.seq.adm else field.take ll
    let dup := (fixedNumbers ++ s.pers.nodes.map fun q => q.1).any fun n =>
      ((nodeOf s n).map fun y => decide (y.parent = p ∧ y.kind = kind ∧ y.alg = alg ∧ y.label = label)).getD false && live s n
    if dup ∨ (applet.isSome ∧ 64 ≤ (s.pers.nodes.filter fun q => q.2.parent = p).length) then (s, Abt.valueConflict, 0)
    else match freeNode s with
      | none => (s, Abt.valueConflict, 0)
      | some n =>
        let lvl := match nodeOf s p with
          | some x => x.level + 1
          | none => 2
        let s1 := allocNode s n ⟨p, lvl, kind, alg, attrs, label, epochOf s p⟩
        (s1, 0, handleOf s1 n)

/-- Remove (R347). -/
def removeNodeOp (s : State) (h : Nat) : State × Nat :=
  match nodeByHandle s h with
  | none => (s, Abt.handleInvalid)
  | some n =>
    if n < 0x100 then (s, Abt.handleInvalid)
    else if live s n ∨ childCount s n ≠ 0 ∨ keySet s (fun h => decide (h % 0x10000 = n)) then (s, Abt.valueConflict)
    else ({ s with pers := { s.pers with nodes := SMap.del s.pers.nodes n } }, 0)

/-- A host or field session is refused the nodes under applet roots (R449); r is the outcome otherwise. -/
def hostNodes (s : State) (h : Nat) (r : State × Nat) : State × Nat :=
  match nodeByHandle s h with
  | some n => if keyDomainOk s 0 n then r else (s, Abt.keyUsage)
  | none => r

/-- Bump (R348, R329): target 0 raises the epoch by one. Where PAIR takes the pair secret with it, the nodes that this bumps too are
cut with it in one admission (R340, R357). -/
def bumpOp (s : State) (h target : Nat) : State × Nat :=
  match nodeByHandle s h with
  | none => (s, Abt.handleInvalid)
  | some n =>
    match nodeOf s n with
    | none => (s, Abt.handleInvalid)
    | some x =>
      if n = 3 ∨ n = 5 ∨ x.kind = 0x13 ∨ x.kind = 0x14 ∨ x.kind = 0x17 then (s, Abt.keyUsage)
      else if keySet s (fun k => decide (k = h)) then (s, Abt.valueConflict)
      else if target ≠ 0 ∧ (target ≤ epochOf s n ∨ target > 0xFFFFFF) then (s, Abt.valueRange)
      else if target = 0 ∧ epochOf s n ≥ 0xFFFFFF then (s, Abt.epochExhausted)
      else if n = 4 ∧ s.pers.pair.isSome ∧ spentAny s [1, 2] then (s, Abt.epochExhausted)
      else
        let v := if target = 0 then epochOf s n + 1 else target
        let xs := withPair s [n]
        (losePair (raiseEpochs (writeEpoch (afterBump s xs) n v) (xs.erase n)) [n], 0)

/-- The 40-byte plaintext of an export (R352). -/
def exportPlain (s : State) (n : Nat) : Bytes :=
  match nodeOf s n with
  | none => zeros 40
  | some x => leBytes 4 (handleOf s n) ++ leBytes 1 x.kind ++ leBytes 3 (epochOf s n) ++ fitBytes 32 (nodeKey s n)

/-- Export (R352) by the session in slot k. -/
def exportOp (s : State) (src sec : Nat) (k : Nat) (phys : Phys) : Eff :=
  match nodeByHandle s src, secretByHandle s sec with
  | some n, some (_, y) =>
    if y.holder ≠ k then Eff.fail s Lat.write Abt.handleInvalid
    else if !live s n ∨ y.dead then Eff.fail s Lat.write Abt.keyOrphaned
    else match nodeOf s n with
      | none => Eff.fail s Lat.write Abt.handleInvalid
      | some x =>
        if !(decide (x.kind = 0x10 ∨ x.kind = 0x11 ∨ x.kind = 0x16) || (decide (x.kind = 0x12) && bit x.attrs 5)) then
          Eff.fail s Lat.write Abt.keyUsage
        else if !keyDomainOk s 0 n then Eff.fail s Lat.write Abt.keyUsage
        else
          let f := cipherFault s phys
          if f ≠ 0 then Eff.fail s Lat.write f
          else { Eff.ok (claimMasks (warm s n) 42) Lat.write with
                 acts := [.exportResult k (kwWrap y.key (exportPlain s n))], work := .output k, nodes := [n] }
  | _, _ => Eff.fail s Lat.write Abt.handleInvalid

/-- The 80-byte body of an attestation report (R362). -/
def appletSetDigest (s : State) : Bytes :=
  digest16 ((List.range 32).flatMap fun c => BitVec.ofNat 8 c :: oct s (0xD000 + c) 4)

def runningVersion (s : State) : Nat :=
  let im := if num s 0x2100 4 = 0 then s.pers.imageA else s.pers.imageB
  leNat ((im.bytes.drop 12).take 4)

def reportBody (s : State) (verifier : Nat) (chal : Bytes) : Bytes :=
  let fl := (if calderaOn s then 1 else 0) + (if s.stage = 0x10 then 2 else 0) + (if sheafOn s then 4 else 0) +
    (if num s 0x2100 14 = 1 then 8 else 0) + (if s.pers.pair.isSome then 16 else 0)
  leBytes 1 1 ++ leBytes 1 (lifecycle s) ++ leBytes 1 fl ++ leBytes 1 (num s 0x2100 4) ++ leBytes 4 (runningVersion s) ++
    leBytes 4 (num s 0x2100 5) ++ leBytes 4 s.otp.floor ++ fitBytes 16 chal ++ leBytes 8 s.seq.adm ++ leBytes 8 s.seq.admTime ++
    leBytes 4 verifier ++ leBytes 4 (epochOf s 1) ++ leBytes 4 (epochOf s 2) ++ zeros 4 ++ appletSetDigest s

def serialBytes : Bytes := fitBytes 16 Config.serial

/-- Attest (R361, R363, R365). -/
def attestOp (s : State) (v : Bytes) (origin : Nat) (phys : Phys) : Eff :=
  let h := leNat (v.take 4)
  let fl := (v.getD 4 0).toNat
  let chal := v.drop 8
  let signed := bit fl 0
  let lat := if signed then Lat.attest else Lat.write
  let n := h % 0x10000
  if fl / 4 ≠ 0 ∨ leNat ((v.drop 5).take 3) ≠ 0 then Eff.fail s lat Abt.valueReserved
  else
    let code := if signed then (if h = 0 then 0 else Abt.valueConflict) else
      match nodeByHandle s h with
      | none => Abt.handleInvalid
      | some n =>
        if !live s n then Abt.keyOrphaned
        else match nodeOf s n with
          | some x => if x.kind = 0x16 ∧ bit x.attrs 3 then 0 else Abt.keyUsage
          | none => Abt.handleInvalid
    if code ≠ 0 then Eff.fail s lat code
    else if sheafOn s ∧ bit fl 1 ≠ decide (pairNo s = 1) then Eff.ok s lat
    else
      let f := if signed then unitsFault s phys ⟨true, false, 2⟩ true else cipherFault s phys
      if f ≠ 0 then Eff.fail s lat f
      else
        let b := reportBody s h chal
        let t := claimMasks (warm (if signed then blind s 12 (blindBytes 7) else s) (if signed then 0x14 else n)) 18
        if signed then
          match Dsa.sign (Dsa.keyGen ((nodeKey s 0x14).take 32)) (ascii "FL2820-ATT") (serialBytes ++ b) (zeros 32) with
          | none => Eff.fail t lat Abt.resultCheck
          | some sig => { Eff.ok (count t 5 3 1) lat with acts := [.attestReport origin (b ++ sig)], work := .attest, nodes := [0x14] }
        else { Eff.ok t lat with
               acts := [.attestReport origin (b ++ cmac (nodeKey s n) ([0x41] ++ serialBytes ++ b))], work := .attest, nodes := [n] }

/-- The report joins those of the last 16 attesting origins (R361). -/
def keepReport (s : State) (origin : Nat) (b : Bytes) : State :=
  { s with reports := ((origin, b) :: s.reports.filter fun p => p.1 ≠ origin).take 16 }

/-- The identity and transfer public keys (R360). -/
def identityPublic (s : State) : Bytes := seedPublic 7 (nodeKey s 0x14)
def transferPublic (s : State) : Bytes := seedPublic 10 (nodeKey s 0x16)

/-- A provisioning long operation that ends well: 10 ms (R125, R355). -/
def Eff.longOp (s : State) (lat : Nat) (acts : List Act) (nodes : List Nat) (f : Nat) : Eff :=
  { Eff.ok s lat with acts := acts, nodes := nodes, work := .output f, long := true }

/-- Take ownership, or owner recovery (R356): the ciphertext decapsulated under TRANSFER. -/
def takeOwnershipOp (s : State) (ct : Bytes) (withService : Bool) (slot : Nat) (phys : Phys) : Eff :=
  let f := unitsFault s phys ⟨true, false, 2⟩ true
  if spentAny s (if withService then [1, 2] else [1]) then Eff.fail s Lat.write Abt.epochExhausted
  else if f ≠ 0 then { Eff.fail s 10000 f with long := true }
  else
    let sd := nodeKey s 0x16
    let kt := Kem.decaps (Kem.keyGen (sd.take 32) ((sd.drop 32).take 32)) ct
    Eff.longOp (claimMasks (blind (warm s 0x16) 12 (blindBytes 10)) 12) 10000 [.takeOwner kt withService] [0x16] slot

/-- What a take-over commits at its release (R356, R339). -/
def takeOwnerNow (s : State) (kt : Bytes) (withService : Bool) : State :=
  let s1 := bumpNodes s (if withService then [1, 2] else [1])
  setOct s1 0xCA20 2 (kwWrap kt (exportPlain s1 0x50))

/-- Pair secret written by the session in slot k (R357). A value that does not unwrap is refused: it starts no long operation, changes
nothing and writes no record (R108, R125). -/
def pairSecretOp (s : State) (v : Bytes) (k : Nat) (phys : Phys) : Eff :=
  let f := cipherFault s phys
  match secretByHandle s (leNat (v.take 4)) with
  | none => Eff.fail s Lat.write Abt.handleInvalid
  | some (_, y) =>
    if y.holder ≠ k then Eff.fail s Lat.write Abt.handleInvalid
    else if y.dead then Eff.fail s Lat.write Abt.keyOrphaned
    else if spentAny s [1, 2] then Eff.fail s Lat.write Abt.epochExhausted
    else if f ≠ 0 then { Eff.fail s 10000 f with long := true }
    else if phys = .compare then { Eff.fail s 10000 Abt.compareFault with long := true }
    else
      let u := kwUnwrap y.key (v.drop 4)
      if !u.2 then Eff.fail (claimMasks s 24) Lat.write Abt.authFail
      else Eff.longOp (claimMasks (warm s 0x17) 60) 10000 [.pairSet (kwWrap (nodeKey s 0x17) u.1)] [0x17] k

def pairSetNow (s : State) (w : Bytes) : State :=
  reRoot (bumpNodes (setNum (setNum { s with pers := { s.pers with pair := some w } } 0xCA20 6 1) 0xCA00 10 1) [1, 2])

end Sys2Proof.Machine
end

