-- ==== Sys2Proof/Machine/Request.lean ====
section
/-! DEFINITION. BDP requests and responses (R102 to R107, R114 to R121): the message as bytes, the session check, the
response with its trailer, and how a response leaves the device. -/

namespace Sys2Proof.Machine

/-- One BDP request (R103). -/
structure Rq where
  svc : Nat
  flags : Nat               -- reserved bits [7:1] of the flags byte
  txn : Nat
  idx : Nat
  sub : Nat
  rsv : Nat
  origin : Nat
  body : Bytes
  trailer : Option Trailer
  phys : Phys
deriving DecidableEq, Repr

/-- The request that a command carries. -/
def reqRq (r : Req) (svc : Nat) : Rq :=
  ⟨svc, r.h.flags, r.h.txn, r.idx, r.sub, r.h.rsv, r.h.origin, r.body, r.h.trailer, r.h.phys⟩

def hdrRq (h : Hdr) (svc idx sub : Nat) (body : Bytes) : Rq :=
  ⟨svc, h.flags, h.txn, idx, sub, h.rsv, h.origin, body, h.trailer, h.phys⟩

/-- An expedited write of a value (R105, R106). -/
def rqWrite (h : Hdr) (idx sub : Nat) (v : Bytes) : Rq := hdrRq h 2 idx sub (leBytes 2 v.length ++ v)

/-- The body of a WRITE_SEG (R105). -/
def segBody (g : Seg) : Bytes := leBytes 2 g.num ++ [BitVec.ofNat 8 g.flags, BitVec.ofNat 8 g.rsv] ++ leBytes 2 g.len ++ g.data

def rqSeg (h : Hdr) (idx sub : Nat) (g : Seg) : Rq := hdrRq h 6 idx sub (segBody g)

namespace Rq

/-- The 8-byte header (R103). -/
def head (r : Rq) : Bytes :=
  [BitVec.ofNat 8 r.svc, BitVec.ofNat 8 (r.flags / 2 * 2 + if r.trailer.isSome then 1 else 0)] ++ leBytes 2 r.txn ++ leBytes 2 r.idx ++
    [BitVec.ofNat 8 r.sub, BitVec.ofNat 8 r.rsv]

/-- The trailer bytes before the tag (R119). -/
def trailerHead (t : Trailer) : Bytes := [BitVec.ofNat 8 t.slot] ++ leBytes 3 t.rsv ++ leBytes 4 t.counter

/-- Every byte before the tag, or the whole message without a session. -/
def signed (r : Rq) : Bytes := r.head ++ r.body ++ (match r.trailer with | some t => trailerHead t | none => [])

/-- The message as it entered the sequencer. A trailer without a tag stands for a message that has SESSION set and is too short
for a trailer (log 90). -/
def bytes (r : Rq) : Bytes :=
  match r.trailer with
  | some t => if t.tag = [] then r.head ++ r.body else r.signed ++ fitBytes 8 t.tag
  | none => r.signed

/-- The value an expedited write carries, after its Length field. -/
def value (r : Rq) : Bytes := r.body.drop 2

/-- Services that address no object (R103). -/
def noObject (r : Rq) : Bool := [0x07, 0x10, 0x11, 0x12].contains r.svc

/-- Check 2 of R107: the refusal, or 0. -/
def check2 (r : Rq) : Nat :=
  let b := fun i => (r.body.getD i 0).toNat
  if !([1, 2, 3, 4, 5, 6, 7, 0x10, 0x11, 0x12, 0x20].contains r.svc) then Abt.serviceUnknown
  else if r.flags / 2 ≠ 0 ∨ r.rsv ≠ 0 then Abt.headerReserved
  else if r.noObject ∧ (r.idx ≠ 0 ∨ r.sub ≠ 0) then Abt.headerReserved
  else
    let bad := match r.svc with
      | 0x04 => decide (b 2 ≠ 0 ∨ b 3 ≠ 0)
      | 0x06 => decide (b 2 / 2 ≠ 0 ∨ b 3 ≠ 0)
      | 0x10 => decide (b 2 ≠ 0 ∨ b 3 ≠ 0)
      | 0x11 => decide (b 1 ≠ 0 ∨ b 2 ≠ 0 ∨ b 3 ≠ 0)
      | _ => false
    if bad then Abt.headerReserved else 0

/-- A response without a trailer (R104). -/
def response (r : Rq) (code : Nat) (body : Bytes) : Bytes :=
  [BitVec.ofNat 8 (r.svc ||| 0x80), BitVec.ofNat 8 (r.flags / 2 * 2)] ++ (r.head.drop 2) ++ leBytes 4 code ++
    (if code = 0 ∨ code = Abt.coreAbsent ∨ code = Abt.notReady ∨ code = Abt.entropyFailed then body else [])

/-- A response with the device's own trailer (R119). -/
def sealed (r : Rq) (key : Bytes) (code : Nat) (body : Bytes) : Bytes :=
  match r.trailer with
  | none => r.response code body
  | some t =>
    let m := r.response code body
    let m := m.take 1 ++ [(m.getD 1 0) ||| 1] ++ m.drop 2 ++ trailerHead { t with rsv := 0 }
    m ++ (cmac key (1 :: m)).take 8

end Rq

/-- A BDP message as its bytes carry it. -/
def parseRq (origin : Nat) (b : Bytes) : Rq :=
  let g := fun i => (b.getD i 0).toNat
  let rest := b.drop 8
  let n := rest.length - 16
  let t := rest.drop n
  let sess := bit (g 1) 0 && decide (16 ≤ rest.length)
  let tr : Option Trailer :=
    if sess then some ⟨(t.getD 0 0).toNat, leNat ((t.drop 1).take 3), leNat ((t.drop 4).take 4), t.drop 8⟩
    else if bit (g 1) 0 then some ⟨0xFF, 0, 0, []⟩ else none
  ⟨g 0, g 1 / 2 * 2, leNat ((b.drop 2).take 2), leNat ((b.drop 4).take 2), g 6, g 7, origin, if sess then rest.take n else rest, tr, .ok⟩

/-! Sessions. -/

/-- What check 4 of R107 finds. -/
structure SessRes where
  code : Nat
  ctx : Ctx
  sealBy : Option Nat       -- the slot whose key seals the response: the tag verified
  ends : Bool               -- the session ends in this admission
deriving DecidableEq, Repr

/-- Seconds of 0x1010.02 in microseconds. -/
def idleLimit (s : State) : Nat := num s 0x1010 2 * 1000000

/-- K_sess of the session that a request names in its trailer. -/
def trailerKey (s : State) (slot : Option Nat) : Bytes :=
  ((slot.bind fun k => (SMap.look s.sessions k).map fun z => (Session.keys s k z).take 32)).getD []

/-- Work of a stream slot, whose own claim of masks may come after that of the tag (R281, R389). -/
def streamWork (r : Rq) : Bool :=
  decide (0xCF00 ≤ r.idx ∧ r.idx < 0xCF10) && (decide (r.svc = 6 ∧ (r.sub = 3 ∨ r.sub = 12)) || decide (r.svc = 2 ∧ r.sub = 11))

/-- Check 4 of R107 at device time t: slot, orphaned credential, idle expiry, the masks of R389, tag and counter, in that
order. The reserved bytes of a request's trailer are not looked at beside the tag that covers them (DESIGN CHOICE, log 112). -/
def sessionCheck (s : State) (r : Rq) (t : Nat) : SessRes :=
  let anon : Ctx := ⟨none, none, 0, r.origin⟩
  match r.trailer with
  | none => ⟨0, anon, none, false⟩
  | some tr =>
    if tr.tag = [] then ⟨Abt.authFail, anon, none, false⟩
    else match SMap.look s.sessions tr.slot with
    | none => ⟨Abt.noSession, anon, none, false⟩
    | some z =>
      let key := (Session.keys s tr.slot z).take 32
      if z.origin ≠ r.origin ∨ !z.bound then ⟨Abt.noSession, anon, none, false⟩
      else if z.orphaned then ⟨Abt.keyOrphaned, anon, none, true⟩
      else if t > z.time + idleLimit s then ⟨Abt.noSession, anon, none, true⟩
      else if (r.phys = .entropy ∧ !streamWork r) ∨ !entropyOk s then ⟨Abt.entropyFailed, anon, none, false⟩
      else if r.phys = .tagEngine ∨ !cipherUp s then ⟨Abt.engineFault, anon, none, false⟩
      else if r.phys = .tagCompare then ⟨Abt.compareFault, anon, none, false⟩
      else if (cmac key (0 :: r.signed)).take 8 ≠ fitBytes 8 tr.tag ∨ tr.tag.length ≠ 8 then ⟨Abt.authFail, anon, none, false⟩
      else
        let ctx : Ctx := ⟨some z.role, some tr.slot, z.cred, r.origin⟩
        if tr.counter ≤ z.last then ⟨Abt.replay, ctx, some tr.slot, false⟩
        else ⟨0, ctx, some tr.slot, decide (tr.counter = 0xFFFFFFFF)⟩

/-- Bound and pending slots as 0x1010.01, 0x1010.07 and 0x1010.08 show them (R122). -/
def boundSlots (s : State) : List Nat := (s.sessions.filter fun p => p.2.bound).map fun p => p.1
def slotMap (s : State) : Nat := ((boundSlots s).map (2 ^ ·)).sum
def pendingSlots (s : State) : Nat := (s.sessions.filter fun p => !p.2.bound).length

/-- The end of a session: its streams, PLE slots and session secret nodes end with it (R121, R278, R304, R311). A transfer opened on it
belongs to no session that can come, the next one of the same slot included (R110): 64 is no slot. -/
def endSession (s : State) (k : Nat) : State :=
  { s with
    sessions := SMap.del s.sessions k
    transfers := s.transfers.map fun t => if t.sess = some k then { t with sess := some 64 } else t
    streams := s.streams.filter fun p => !(decide (p.1 < 0x100 ∧ p.2.ownSess = k) && decide (p.2.state ≠ 0 ∨ p.2.parked ≠ []))
    ples := s.ples.filter fun p => !decide (p.1 < 0x100 ∧ p.2.ownSess = k)
    secrets := s.secrets.filter fun p => p.2.holder ≠ k }

/-- The session after a verified admitted request (R120, R121). -/
def touchSession (s : State) (k t counter : Nat) (advance : Bool) : State :=
  { s with sessions := s.sessions.map fun p =>
      if p.1 = k then (p.1, { p.2 with time := t, last := if advance then counter else p.2.last }) else p }

/-! How a response leaves (R138, R139, R169). -/

/-- A full reply of the host link (R139). -/
def fullReply (m : Bytes) : Bytes :=
  let b := [0x69, 0x00] ++ leBytes 2 m.length ++ m
  b ++ leBytes 4 (crc32c b)

def busyReply : Bytes := List.replicate 4 0xB5
def emptyReply : Bytes := List.replicate 4 0xE0
def linkErrorReply : Bytes := List.replicate 4 0xEE

/-- A reply joins the host link's queue. -/
def joinReply (s : State) (b : Bytes) : State := { s with host := { s.host with replies := s.host.replies ++ [b] } }

/-- A buffered message that is the request's own leaves the SEND buffer when it is ordered (R138). -/
def takeBuffered (s : State) (m : Bytes) : State :=
  { s with host := { s.host with buf := s.host.buf.erase m } }

/-- The transfers discarded by an event counted in 0x1010.06 (R122). -/
def countDiscard (s : State) : State := incHw s 0x1010 6 1

/-- The long operation that runs, with its origin (R126, R127). -/
def longOps (s : State) : List Slot := s.slots.filter fun x => x.long
def busy (s : State) (origin : Nat) : Bool := (longOps s).any fun x => decide (x.origin = origin)
def longRuns (s : State) : Bool := (longOps s) ≠ []

end Sys2Proof.Machine
end

