-- ==== Sys2Proof/Machine/StoreOps.lean ====
section
/-! DEFINITION. Counters (R399 to R406), the journal export and release (R415 to R418), and what scrub and relocation do
to rings, records and epochs (R398, R400, R404, R410). -/

namespace Sys2Proof.Machine

/-- The largest 64-bit value. -/
def max64 : Nat := 0xFFFFFFFFFFFFFFFF

def setRing (s : State) (k : Nat) (r : Ring) : State := { s with pers := { s.pers with rings := SMap.put s.pers.rings k r } }

/-- The ring state code 0xC000 + k.09 (R405). -/
def ringState (s : State) (r : Ring) : Nat :=
  if wornOut s r then 3 else if mustMove r && (freeSpare s).isNone then 2 else if r.spare.isSome then 1 else 0

/-- The region of a ring, and the offset in it of its word at position p (R570): its home ring, or the spare ring that the map names. -/
def ringWord (r : Ring) (k p : Nat) : Nat × Nat :=
  match r.spare with
  | some i => (0x0C, i * 128 + p)
  | none => (5, k * 128 + p)

/-- Relocation of a ring that must be relocated (R404): the value goes to position v mod 128 of a free spare ring. Where none is free the
counter keeps its ring. -/
def relocateRing (s : State) (k : Nat) : State :=
  let r := ringOf s k
  let v := ringValue r
  match (if mustMove r then freeSpare s else none) with
  | none => s
  | some i =>
    let words := if r.words = [] ∧ r.aside = none then [] else [(v % 128, v)]
    let s1 := count (setRing s k ⟨words, [], 0, some i, none⟩) 8 4 1
    { s1 with pers := { s1.pers with spares := i :: (match r.spare with | some j => s1.pers.spares.filter (· ≠ j) | none => s1.pers.spares) } }

/-- Whether the word after the largest readable one is unreadable (R400). -/
def skips (r : Ring) : Bool := r.bad.contains ((ringValue r + 1) % 128)

/-- The value skips to m + 1, which is written to a spare location at once, with a STORE record (R400). The ring, which has an unreadable
word, is relocated in a background window (R404). -/
def skipValue (s : State) (k : Nat) : State :=
  let r := ringOf s k
  let v := ringValue r + 1
  let w := ringWord r k (v % 128)
  journalStore (setRing s k { r with aside := some v }) 2 w.1 k w.2

/-- Whether a caller is allowed by a counter's Owner (R405): the host link by origin, a cell by its origin. -/
def counterOwner (s : State) (k origin : Nat) : Bool :=
  let o := num s (0xC000 + k) 4
  decide (o = 0) || decide (o = origin)

/-- An increment or advance in its admission (R401 to R403): the code. v is the value written; sys says the caller is a
system call, which has no expected value. -/
def counterOp (s : State) (k origin : Nat) (advance : Bool) (v : Nat) (phys : Phys) : State × Nat :=
  let cur := counterValue s k
  if calderaOn s then (s, Abt.counterFrozen)
  else if !counterOwner s k origin then (s, Abt.role)
  else if skips (ringOf s k) then (skipValue s k, Abt.storeFault)
  else if !advance ∧ v ≠ max64 ∧ v ≠ cur then (s, Abt.valueConflict)
  else if advance ∧ v ≤ cur then (s, Abt.valueRange)
  else if cur = max64 ∨ wornOut s (ringOf s k) then (s, Abt.counterExhausted)
  else
    let c := creditNow s k
    if c < 40000 then (count (setCredit s k c) 8 3 1, Abt.counterRate)
    else if phys = .store then (setCredit s k c, Abt.storeFault)
    else (writeRing (setCredit s k (c - 40000)) k (if advance then v else cur + 1), 0)

/-! The journal export. -/

namespace Jour

def admOf (r : JRec) : Nat := leNat ((r.bytes.drop 8).take 8)
def isHeld (r : JRec) : Bool := r.held || r.pinned

/-- The records of block b by position, in order. -/
def inBlock (j : Journal) (b : Nat) : List (Nat × JRec) := j.recs.filter fun p => p.1 / 64 = b

/-- The chain value before the record at position p of block b. -/
def chainBefore (j : Journal) (b p : Nat) : Bytes :=
  (((inBlock j b).filter fun q => q.1 < p).foldl (fun c q => sha256 (c ++ q.2.bytes.take 56)) (SMap.at' j.anchors b (zeros 32)))

/-- The held records of a block in runs without a released record between them: no export includes released records (R417, log 37). -/
def heldRuns : List (Nat × JRec) → List (List (Nat × JRec))
  | [] => []
  | p :: ps =>
    if !isHeld p.2 then [] :: heldRuns ps
    else match heldRuns ps with
      | [] => [[p]]
      | r :: rs => (p :: r) :: rs

/-- One block entry (R416) of a run rs of held records of block b: the entry, its records and the chain value after it. -/
def entry (j : Journal) (prev : Option Bytes) (b : Nat) (rs : List (Nat × JRec)) : Bytes × List JRec × Bytes :=
  let p0 := (rs.head?.map fun p => p.1).getD (b * 64)
  let anchor := chainBefore j b p0
  let after' := rs.foldl (fun c p => sha256 (c ++ p.2.bytes.take 56)) anchor
  let island := match prev with
    | none => true
    | some c => decide (c ≠ anchor)
  (leBytes 4 p0 ++ [BitVec.ofNat 8 rs.length, if island then 1 else 0, 0, 0] ++ anchor ++ (rs.flatMap fun p => p.2.bytes),
    rs.map fun p => p.2, after')

/-- The runs of a list of blocks in order, each with its block. -/
def runsOf (j : Journal) (bs : List Nat) : List (Nat × List (Nat × JRec)) :=
  bs.flatMap fun b => ((heldRuns (inBlock j b)).filter fun r => r ≠ []).map fun r => (b, r)

/-- The entries of a list of runs in order. -/
def entries (j : Journal) : Option Bytes → List (Nat × List (Nat × JRec)) → Bytes × List JRec × Bytes
  | prev, [] => ([], [], prev.getD (zeros 32))
  | prev, b :: bs =>
    let e := entry j prev b.1 b.2
    let r := entries j (some e.2.2) bs
    (e.1 ++ r.1, e.2.1 ++ r.2.1, r.2.2)

/-! Records taken back: those of admissions whose effects turn out to be absent (R23, R339). -/

/-- The end of the newest block. -/
def lastEnd (order : List Nat) : Nat := (order.getLast?.map fun b => b * 64 + 64).getD 0

/-- The newest record taken off, and the journal before it. -/
def pop (j : Journal) : Option (JRec × Journal) :=
  match j.head with
  | 0 => none
  | p + 1 => (SMap.look j.recs p).map fun r =>
    let b := p / 64
    let t := { j with recs := SMap.del j.recs p, chain := chainBefore j b p }
    (r, if p % 64 = 0 then { t with anchors := SMap.del j.anchors b, order := j.order.filter (· ≠ b), head := lastEnd (j.order.filter (· ≠ b)) }
      else { t with head := p })

/-- The records of admission n and of later ones taken off, oldest first; f bounds their number. -/
def rewind (n : Nat) : Nat → Journal → List JRec → List JRec × Journal
  | 0, j, rs => (rs, j)
  | f + 1, j, rs => match pop j with
    | some (r, t) => if admOf r < n then (rs, j) else rewind n f t (r :: rs)
    | none => (rs, j)

/-- Records put back in their order. -/
def replay (j : Journal) (rs : List JRec) : Journal :=
  rs.foldl (fun j r => match room j false true true with
    | .ok k _ => put k r
    | .full => j) j

/-- The journal without the CHANGE record of admission n, which has turned out to have no effect: what later admissions wrote moves up
(R23, R339, R407, log 132). -/
def withdraw (j : Journal) (n : Nat) : Journal :=
  if j.recs.any fun p => decide (admOf p.2 = n ∧ p.2.bytes.head? = some 4) then
    let r := rewind n j.recs.length j []
    replay r.2 (r.1.filter fun x => !decide (admOf x = n ∧ x.bytes.head? = some 4))
  else j

/-- Held records in chain order. -/
def heldList (j : Journal) : List (Nat × JRec) := j.order.flatMap fun b => (inBlock j b).filter fun p => isHeld p.2

/-- The oldest held record with an admission number at or above x. -/
def oldestFrom (j : Journal) (x : Nat) : Option (Nat × JRec) := (heldList j).find? fun p => admOf p.2 ≥ x

/-- The blocks of a run that starts at block b, to the head. -/
def runFrom (j : Journal) (b : Nat) : List Nat := (j.order.dropWhile (· ≠ b)).filter fun c => (inBlock j c).any fun p => isHeld p.2

/-- Blocks with pins that lie before the run. -/
def islands (j : Journal) (b : Nat) : List Nat := (j.order.takeWhile (· ≠ b)).filter fun c => pinIn j c

/-- Records at or below x released where unpinned (R417). -/
def release (j : Journal) (x : Nat) : Journal :=
  { j with recs := j.recs.map fun p => if admOf p.2 ≤ x ∧ !p.2.pinned then (p.1, { p.2 with held := false }) else p
           broken := match j.broken with
             | some p => match SMap.look j.recs p with
               | some r => if admOf r ≤ x ∧ !r.pinned then none else some p
               | none => none
             | none => none }

end Jour

/-- The stream of R416 over blocks bs, for a Start admitted as adm: none where no signing candidate is accepted (R297). -/
def exportStream (s : State) (bs : List Nat) : Option ExportRun :=
  let rs := Jour.runsOf s.pers.jour bs
  let e := Jour.entries s.pers.jour none rs
  let serial := fitBytes 16 Config.serial
  let first := (e.2.1.head?.map Jour.admOf).getD 0
  let last := (e.2.1.getLast?.map Jour.admOf).getD 0
  let head := [0x54, 0x50, 0x48, 0x58, 1, 0] ++ leBytes 2 rs.length ++ serial ++ leBytes 8 first ++ leBytes 8 last ++
    leBytes 8 s.seq.adm ++ leBytes 4 e.2.1.length ++ zeros 12
  let body := head ++ e.1 ++ e.2.2
  let kp := Dsa.keyGen ((nodeKey s 0x14).take 32)
  (Dsa.sign kp (ascii "FL2820-JRN") (serial ++ sha256 body) (zeros 32)).map fun sig => ⟨body ++ sig, bs, first, last⟩

/-- Start (R415): refused, or the blocks of its run. -/
def exportStartOp (s : State) (v : Bytes) : Except Nat (List Nat) :=
  let x := leNat (v.take 8)
  if (v.getD 8 0).toNat / 2 ≠ 0 ∨ !((v.drop 9).all (· = 0)) then .error Abt.valueReserved
  else if Jour.heldList s.pers.jour = [] then .error Abt.valueConflict
  else match Jour.oldestFrom s.pers.jour x with
    | none => .error Abt.valueRange
    | some (p, _) =>
      let b := p / 64
      let isl := if bit (v.getD 8 0).toNat 0 then Jour.islands s.pers.jour b else []
      .ok (isl ++ Jour.runFrom s.pers.jour b)

/-- The CHANGE record of admission n taken back. -/
def withdrawRecord (s : State) (n : Nat) : State := { s with pers := { s.pers with jour := Jour.withdraw s.pers.jour n } }

/-- The export opens: State OPEN and its Range (R415). -/
def openExportNow (s : State) (run : ExportRun) : State :=
  setOct (setNum { s with exportRun := some run } 0xDC10 3 1) 0xDC10 4 (leBytes 8 run.first ++ leBytes 8 run.last)

/-- Close (R415). -/
def closeExport (s : State) : State := setNum { s with exportRun := none } 0xDC10 3 0

/-- Journal release through X (R417). -/
def releaseThrough (s : State) (x : Nat) : State × Nat :=
  let last := leNat ((oct s 0xDC10 4).drop 8)
  if x < num s 0xDC00 7 ∨ x > last then (s, Abt.valueRange)
  else (setNum { s with pers := { s.pers with jour := Jour.release s.pers.jour x } } 0xDC00 7 x, 0)

/-- The epoch of a node whose two copies are lost: one above the highest that a child records, or 1 (R332). -/
def raisedEpoch (s : State) (n : Nat) : Nat := ((s.pers.nodes.filter fun p => p.2.parent = n).map fun p => p.2.pEpoch).foldl max 0 + 1

/-- An unreadable epoch entry mended: its parent is bumped as a tamper-driven bump does, or it is restored where the parent's
epoch never changes (R332, R398). Where PAIR goes and OWNER or SERVICE has no higher epoch, a domain root is exhausted (R330). -/
def epochLost (s : State) (n : Nat) : State :=
  let p := match nodeOf s n with
    | some x => x.parent
    | none => 0
  let s1 := { s with pers := { s.pers with badEpochs := s.pers.badEpochs.filter (· ≠ n) } }
  if p = 0 ∨ p = 3 ∨ p = 5 then
    if copied n ∧ s.pers.badCopies.contains n then
      let xs := withPair s1 [n]
      if spentAny s1 (xs.erase n) then { s1 with otp := { s1.otp with retired := true } }
      else losePair (raiseEpochs (writeEpoch (afterBump s1 xs) n (raisedEpoch s n)) (xs.erase n)) [n]
    else writeEpoch s1 n (epochOf s1 n)
  else match tamperTarget s1 4 p with
    | some y => if spentAny s1 (withPair s1 [y]) then { s1 with otp := { s1.otp with retired := true } } else bumpNodes s1 [y]
    | none => { s1 with otp := { s1.otp with retired := true } }

end Sys2Proof.Machine
end

