-- ==== Sys2Proof/Machine/Live.lean ====
section
/-! DEFINITION. The values that the device computes from its state, as far as admissions change them, and what a release does to
the state beside its transports: both enter the result digest (R200). -/

namespace Sys2Proof.Machine

/-! Homes of the pair (R525). -/

/-- The origin as this unit's transports number it. -/
def localOrigin (o : Nat) : Nat := clearBits o 0x4000

/-- Whether an origin is homed on the follower (R525). -/
def onFollower (o : Nat) : Bool := decide (o = 2) || bit o 14

/-- Whether the origin's home is this unit. -/
def homeHere (s : State) (o : Nat) : Bool := !sheafOn s || decide (onFollower o = decide (pairNo s = 1))

/-! The mode word and its cap. -/

/-- 0x2000.01 (R502). -/
def modeWord (s : State) : Nat :=
  ((List.range 6).map fun i => if num s 0x2000 (i + 2) ≠ 0 then 2 ^ i else 0).sum

/-- The cap that the mode word sets (R514, 0x2000.0B). -/
def modeCap (s : State) : Nat :=
  if serviceOn s ∨ provisionOn s then 1 else if sheafOn s then 2
  else if islandOn s ∨ vigilOn s ∨ auditOn s then 3 else 4

/-- The effective cap 0x2010.03 (R514). -/
def effectiveCap (s : State) : Nat :=
  min (min (num s 0x2010 1) (modeCap s)) (if num s 0x2300 1 = 3 then 3 else 4)

/-! Sensors, outputs and the permit. -/

/-- A sensor's class, filter count and window (R481 to R483); defaults until the end of RECOVER (R82). -/
def sensorSet (s : State) (k : Nat) : Nat × Nat × Nat :=
  let row := (Dict.sensor k).getD ⟨255, 1, 0, 0, 0, 255, 1, 0, 255, none, none, true⟩
  if !s.boot.recovered then (row.cls, row.n, row.w)
  else
    let i := 0xDA00 + k
    if vigilOn s then (num s i 6, num s i 7, num s i 8) else (num s i 1, num s i 2, num s i 3)

/-- The state object of a sensor (R481): DISABLED where its class is OFF, else as the last admission left it. -/
def sensorState (s : State) (k : Nat) : Nat := if (sensorSet s k).1 = 255 then 2 else num s (0xDA00 + k) 0x0B

/-- An S20 container as a number (R96). -/
def s20Int (x : Nat) : Int := if x < 0x80000000 then x else (x : Int) - 0x100000000

/-- The state of output n from the latest admitted reports, as their admission derives it (R461): the threshold is in mA, the current in
steps of 2 uA, and one that flows backwards lies below it. -/
def outputState (s : State) (n : Nat) : Nat :=
  let cond := bit (num s 0x1F01 3) n
  let thr := num s (0xDB00 + n) 5
  let low := decide (thr ≠ 0) && decide (s20Int (num s (0xDB00 + n) 7) * 2 < (thr * 1000 : Nat))
  if bit s.bar.faults n then (if cond then 2 else 3) else if !cond then 0 else if low then 4 else 1

/-- 0xDB30.02 as a report's admission derives it (R473). -/
def permitState (s : State) : Nat :=
  let st := num s 0x1F01 8
  if num s 0xDB30 1 = 0 then 0 else if bit st 2 ∧ !bit st 1 then 1 else 2

/-! Computed values. -/

/-- Header bytes 0x000 to 0x03F of an image slot. -/
def header64 (x : Image) : Bytes := if x.bytes = [] then fitBytes 64 Config.erasedHeader else fitBytes 64 (x.bytes.take 64)

/-- The journal status word (R414). -/
def journalStatus (s : State) : Nat :=
  let j := s.pers.jour
  (if journalFull s then 1 else 0) + (if j.recs.any fun p => decide (p.1 / 64 ≥ 1024) && Jour.isHeld p.2 then 2 else 0) +
    (if Jour.reserveFree j ≤ 1 then 4 else 0) + (if j.broken.isSome then 8 else 0) + (if (Jour.pinBlocks j).length ≥ 64 then 16 else 0) +
    (if s.exportRun.isSome then 32 else 0)

/-- The admission number of the newest record (R414). -/
def newestRecord (s : State) : Nat :=
  match s.pers.jour.head with
  | 0 => 0
  | n + 1 => ((SMap.look s.pers.jour.recs n).map Jour.admOf).getD 0

/-- The record cells of the channel a subindex belongs to: its number in the table of R212. -/
def chanBase (k : Nat) : Nat := k % 0x40

/-- The partner that a channel subindex belongs to (R207). -/
def chanPair (k : Nat) : Nat := k / 0x40

/-- An owner word (R270, R304). -/
def ownerWord (state origin slot : Nat) : Nat := if state = 0 then 0 else origin + slot * 0x10000

/-- A stream slot's objects (R270). -/
def streamVal (s : State) (f k : Nat) : Option Val :=
  let y := streamOf s f
  match k with
  | 1 => some (.num y.state)
  | 4 => some (.oct y.out)
  | 5 => some (.num (ownerWord y.state y.ownOrigin y.ownSess))
  | 6 => some (.num y.result)
  | 7 => some (.num y.flags)
  | 8 => some (.num y.remain)
  | 9 => some (.oct y.nonce)
  | 12 => some (.oct y.parked)
  | _ => none

/-- A PLE slot's objects (R304). -/
def pleVal (s : State) (f k : Nat) : Option Val :=
  let y := pleOf s f
  match k with
  | 1 => some (.num y.state)
  | 4 => some (.oct y.out)
  | 5 => some (.num (ownerWord y.state y.ownOrigin y.ownSess))
  | 6 => some (.num y.result)
  | 7 => some (.num y.flags)
  | 8 => some (.num y.handle)
  | _ => none

/-- The value of a computed object that admissions change, the same for every reader. -/
def liveVal (s : State) (i k : Nat) : Option Val :=
  match i, k with
  | 0x1000, 4 => some (.num (lifecycle s))
  | 0x1000, 6 => some (.num (runningVersion s))
  | 0x1010, 1 => some (.num (boundSlots s).length)
  | 0x1010, 7 => some (.num (slotMap s))
  | 0x1010, 8 => some (.num (pendingSlots s))
  | 0x1100, 6 => some (.num s.otp.floor)
  | 0x1100, 7 => some (.oct (sha256 (header64 s.pers.imageA)))
  | 0x1100, 8 => some (.oct (sha256 (header64 s.pers.imageB)))
  | 0x2000, 1 => some (.num (modeWord s))
  | 0x2000, 11 => some (.num (modeCap s))
  | 0x2010, 3 => some (.num (effectiveCap s))
  | 0x3200, 1 => some (.num (heartbeatLoad s))
  | 0x3200, 3 => some (.num (lowestFlagged s))
  | 0xCA00, 7 => some (.num (nodesAllocated s))
  | 0xCA10, 6 => some (.oct (appletSetDigest s))
  | 0xDC00, 2 => some (.num (Jour.heldCount s.pers.jour))
  | 0xDC00, 3 => some (.num (Jour.pinCount s.pers.jour))
  | 0xDC00, 4 => some (.num (Jour.pinBlocks s.pers.jour).length)
  | 0xDC00, 6 => some (.num (newestRecord s))
  | 0xDC00, 8 => some (.oct s.pers.jour.chain)
  | 0xDC00, 9 => some (.num (journalStatus s))
  | 0xDC10, 2 => some (.oct ((s.exportRun.map fun e => e.stream).getD []))
  | 0xDC20, 1 => some (.num (budgetNow s / 4000).toNat)
  | 0xDC20, 4 => some (.num (64 - s.pers.spares.length))
  | _, _ =>
    if 0x4000 ≤ i ∧ i < 0xC000 then
      if chanBase k = 15 ∧ chanPair k = pairNo s then some (.oct (((chanOf s (i - 0x4000)).queue.head?.map RxRec.bytes).getD [])) else none
    else if 0xC000 ≤ i ∧ i < 0xC800 ∧ k = 9 then some (.num (ringState s (ringOf s (i - 0xC000))))
    else if 0xC800 ≤ i ∧ i < 0xC900 then some (.oct (nodeDescriptor s ((i - 0xC800) * 256 + k)))
    else if 0xC900 ≤ i ∧ i < 0xCA00 then some (.oct (nodeLabel s ((i - 0xC900) * 256 + k)))
    else if 0xCF00 ≤ i ∧ i < 0xCF10 then streamVal s (i - 0xCF00) k
    else if 0xCF30 ≤ i ∧ i < 0xCF38 then pleVal s (i - 0xCF30) k
    else if 0xDA00 ≤ i ∧ i < 0xDB00 then (if k = 11 then some (.num (sensorState s (i - 0xDA00))) else none)
    else none

/-- The keys of the computed objects that may differ from those of an empty device, in two states at once. What a journal record changes of
0xDC00 and of the store tokens is no effect of its own: the example of R205 shows a recorded write with its one object and its record (R200,
log 115). -/
def liveKeys (a b : State) : List Nat :=
  let both := fun (f : State → List Nat) => f a ++ f b
  let one := [(0x1000, [4, 6]), (0x1010, [1, 7, 8]), (0x1100, [6, 7, 8]), (0x2000, [1, 11]), (0x2010, [3]), (0x3200, [1, 3]), (0xCA00, [7]),
    (0xCA10, [6]), (0xDC10, [2]), (0xDC20, [4])].flatMap fun p => p.2.map (objKey p.1)
  let nodes := fixedNumbers ++ both fun s => s.pers.nodes.map fun p => p.1
  (one ++ (both fun s => s.chans.map fun p => objKey (0x4000 + p.1) (chSub s 15)) ++ (both fun s => s.pers.rings.map fun p => objKey (0xC000 + p.1) 9) ++
    (nodes.flatMap fun n => [objKey (0xC800 + n / 256) (n % 256), objKey (0xC900 + n / 256) (n % 256)]) ++
    ((both fun s => (s.streams.filter fun p => p.1 < 0x100).map fun p => p.1).flatMap fun f => [1, 4, 5, 6, 7, 8, 9, 12].map (objKey (0xCF00 + f))) ++
    ((both fun s => (s.ples.filter fun p => p.1 < 0x100).map fun p => p.1).flatMap fun f => [1, 4, 5, 6, 7, 8].map (objKey (0xCF30 + f))) ++
    ((List.range 256).map fun k => objKey (0xDA00 + k) 11)).dedup

/-! Installed applets. -/

/-- The State object of cell c (R431, R441). -/
def cellState (s : State) (c : Nat) : Nat := num s (0xD000 + c) 1

def setCellState (s : State) (c v : Nat) : State :=
  let s1 := setNum s (0xD000 + c) 1 v
  if v = 4 then s1 else setNum s1 (0xD000 + c) 7 0

def updTwc (s : State) (f : Twc → Twc) : State := { s with twc := f s.twc }

/-- Manifest fields (R435). -/
def mf (m : Bytes) (i k : Nat) : Nat := leNat ((m.drop i).take k)

/-- The install digest (R436) of a header and body. -/
def installDigest (m : Bytes) : Bytes := sha256 m

/-- The applet root of cell c (R320). -/
def rootOf (c : Nat) : Nat := 0x20 + c

/-- Whether the applet of this identifier keeps the root of cell c (R439). -/
def keepsRoot (s : State) (c : Nat) (ident : Bytes) : Bool :=
  live s (rootOf c) && (SMap.look s.pers.applets c).isSome && decide (oct s (0xD000 + c) 2 = ident)

/-- Created nodes below an applet root freed. -/
def freeChildren (s : State) (c : Nat) : State :=
  { s with pers := { s.pers with nodes := s.pers.nodes.filter fun p => decide (p.2.parent ≠ rootOf c) } }

/-- The root of cell c bumped where it is allocated. -/
def bumpRoot (s : State) (c : Nat) : State :=
  if (SMap.look s.pers.nodes (rootOf c)).isSome ∧ epochOf s (rootOf c) < 0xFFFFFF then bumpNodes s [rootOf c] else s

/-- The staging area emptied. -/
def emptyStaging (s : State) : State := setNum (updTwc s fun t => { t with staged := [], stager := none }) 0xD100 2 0

/-- The header objects of cell c (R441). -/
def setHeader (s : State) (c : Nat) (ident : Bytes) (ver : Nat) (dig : Bytes) (role fl : Nat) (ranges : Bytes) : State :=
  let i := 0xD000 + c
  setOct (setNum (setNum (setOct (setNum (setOct s i 2 ident) i 3 ver) i 4 dig) i 5 role) i 6 fl) i 15 ranges

/-! What a release does. -/

/-- A staged output joins the stream's Output, where the stream still stands (R275, R276). -/
def streamOutNow (s : State) (f : Nat) (b : Bytes) : State :=
  if (streamOf s f).state = 0 ∨ (streamOf s f).state = 4 then s else updStream s f fun y => { y with out := y.out ++ b }

/-- The output of a Run, and its session secret node (R309, R311). -/
def pleOutNow (s : State) (f : Nat) (b : Bytes) (sec : Option (Bytes × Nat × Nat)) : State :=
  if (pleOf s f).state ≠ 3 then s
  else match sec with
    | none => updPle s f fun y => { y with out := b }
    | some (k, holder, src) =>
      let i := freeSecret s.secrets
      updPle { s with secrets := SMap.put s.secrets i ⟨k, holder, src, false⟩ } f fun y => { y with out := b, handle := i + 0x800000 }

/-- A record joins its channel's queue; where the owner is homed on the partner the record has gone there (R233, R542). -/
def rxJoinNow (s0 : State) (n : Nat) (rx : RxRec) : State :=
  let s := linkRecord s0 (chanField s0 n) rx.adm
  if homeHere s (cnum s n 5) then updChan s n fun c => { c with queue := c.queue ++ [rx] } else s

/-- The ownership of R356 and R501 committed. -/
def ownerNow (s : State) (kt : Bytes) (service : Bool) : State :=
  let s1 := takeOwnerNow s kt service
  if !service then setNum s1 0xD802 1 2
  else if s1.otp.lifecycle = 0xA5 then { s1 with otp := { s1.otp with lifecycle := 0x5A } } else s1

/-- The pair secret set, or cleared (R357). -/
def pairNow (s : State) (w : Bytes) : State := if w = [] then reRoot (bumpNodes (clearPair s) [1, 2]) else pairSetNow s w

/-- What an Install leaves of its image, its header objects and its applet root (R438, R439). -/
def installNow (s : State) (c : Nat) (m : Bytes) (code : Nat) : State :=
  let s0 := setNum (emptyStaging s) 0xD100 7 code
  if code ≠ 0 then s0
  else
    let ident := (m.drop 8).take 16
    let s1 := if keepsRoot s c ident then s0 else
      let t := freeChildren (bumpRoot s0 c) c
      { t with pers := { t.pers with nodes := SMap.put t.pers.nodes (rootOf c) ⟨1, 2, 0x03, 0, 0, ascii "AP" ++ ident, epochOf t 1⟩ } }
    let img := m.take 128 ++ m.drop 0x1A60
    let s2 := setHeader s1 c ident (mf m 0x18 4) (installDigest img) (mf m 7 1) (mf m 6 1) ((m.drop 0x30).take 32)
    { s2 with pers := { s2.pers with applets := SMap.put s2.pers.applets c ⟨img, true⟩ } }

/-- An act of a release that changes values of the device: everything but what leaves on a transport, returns to a cell, or begins
at a later time. -/
def settle (s : State) (a : Act) : State :=
  match a with
  | .rxJoin n rx => rxJoinNow s n rx
  | .streamOut f b => streamOutNow s f b
  | .streamZero f => updStream s f fun y => { y with staged := [] }
  | .pleOut f b sec => pleOutNow s f b sec
  | .endSession k => endSession s k
  | .setObj key v => setObj s (key / 256) (key % 256) v
  | .streamNonce f b => if (streamOf s f).state = 0 then s else updStream s f fun y => { y with nonce := b }
  | .burnFloor v => { s with otp := { s.otp with floor := max s.otp.floor v } }
  | .takeOwner kt svc => ownerNow s kt svc
  | .pairSet w => pairNow s w
  | .retireReset => { s with otp := { s.otp with retired := true } }
  | .install c m code => installNow s c m code
  | .openExport run => openExportNow s run
  | .attestReport o b => keepReport s o b
  | .exportResult k b => { s with sessions := s.sessions.map fun p => if p.1 = k then (p.1, { p.2 with exported := b }) else p }
  | .lane1 _ | .cause _ | .event _ _ | .coreReset _ | .fieldReset | .cellRet _ _ _ | .cellStop _ | .ready _ | .hostOpen | .hostClose | .sheaf _ | .alarm _ | .fired _ _ _ | .lapse => s

end Sys2Proof.Machine
end

