-- ==== Sys2Proof/Machine/Admit.lean ====
section
/-! DEFINITION. One admission (R179 to R206): its number and time, what a held input means, the AUDIT record and the result
digest, the change record, and the release queue. -/

namespace Sys2Proof.Machine

/-- How an admission enters the sequencer and the log (R203). -/
structure AdmIn where
  kind : Nat                -- 1 BDP request, 2 channel frame, 3 system call, 4 internal, 5 start-up
  origin : Nat
  chan : Nat
  payload : Bytes
  redacted : Bool
  excepted : Bool           -- may use the reserve of R201
  alone : Nat               -- in SHEAF: 0 both partners execute it, 1 this unit alone, 2 the partner alone (R540), 3 the cut-over

/-- What an admission came to. -/
structure Done where
  s : State
  code : Nat
  resp : Option Bytes
  random : Bool

/-! The sequencer accepts. -/

/-- Start-up has performed its start-up admission: the stages from APPLETS on, TAMPER_HELD and READY (R81, R571). -/
def started (s : State) : Bool := decide (6 ≤ s.stage ∧ s.stage ≤ 8) || decide (s.stage = 0x10 ∨ s.stage = 0x11)

/-- TAMPER_HELD or READY: clients are served (R92). -/
def serving (s : State) : Bool := decide (s.stage = 0x10 ∨ s.stage = 0x11)

/-- The sequencer admits nothing while power fails, after a Retire, outside RUN, during a response, while a wake from HIBERNATE
instantiates its tillers, or once the retire fuse has cut the UDS path (R40, R191, R354, R359, R486, R511, R523). -/
def sequencerUp (s : State) : Bool := started s && !s.seq.failing && !s.seq.retiring && decide (s.power = 0) && s.tem.resp.isNone && !s.boot.waking &&
  !s.otp.retired

/-! The AUDIT ring (R201, R202). -/

def ringSize : Nat := 262144
def reserveSize : Nat := 4096

/-- Bytes held in the ring, and in the reserve. -/
def auditBytes (s : State) : Nat := ((s.audit.recs.filter fun p => !p.reserve).map fun p => p.bytes.length).sum
def reserveBytes (s : State) : Nat := ((s.audit.recs.filter fun p => p.reserve).map fun p => p.bytes.length).sum

/-- Whether this unit keeps the log: AUDIT, and in SHEAF only the leader (R510). -/
def keepsLog (s : State) : Bool := auditOn s && !(sheafOn s && decide (num s 0xF000 2 % 2 = 1))

/-- Whether every input is held: the ring has no room for the next record, whose length is known since the hold began (R201). -/
def inHold (s : State) : Bool :=
  keepsLog s && decide (num s 0xDC80 6 = 0) && decide (s.audit.need ≠ 0) && decide (auditBytes s + s.audit.need > ringSize)

/-- Whether an input is held (R201): the inputs are, or the ring cannot take a record with this payload. -/
def auditHolds (s : State) (i : AdmIn) : Bool :=
  keepsLog s && decide (num s 0xDC80 6 = 0) && !i.excepted &&
    (inHold s || decide (auditBytes s + 48 + i.payload.length > ringSize))

/-- Fault outcomes (R198). -/
def isFaultCode (c : Nat) : Bool :=
  [Abt.engineFault, Abt.compareFault, Abt.resultCheck, Abt.storeFault, Abt.notReady, Abt.entropyFailed].contains c

/-! The result digest (R200). -/

/-- Keys whose value differs between two maps. -/
def diffKeys {α : Type} [DecidableEq α] (a b : SMap α) : List Nat :=
  ((a.map fun p => p.1).filter fun k => (SMap.look b k).isNone) ++ ((b.filter fun p => SMap.look a p.1 ≠ some p.2).map fun p => p.1)

/-- A write-only DOMAIN: the dictionary keeps only the digest of its value (R123). -/
def isWoDomain (i k : Nat) : Bool :=
  ((Dict.find i k).2.map fun d => decide (d.ty = .domain) && decide (d.acc = .wo)).getD false

/-- Encoded size of an object. -/
def sizeOf' (i k : Nat) : Nat := ((Dict.find i k).2.map fun d => d.size).getD 0

/-- The effects of an admission: id and value by kind, ids rising. -/
def dictEffects (a b : State) : SMap Bytes :=
  (diffKeys a.pers.dict b.pers.dict ++ diffKeys a.dict b.dict).foldl
    (fun m k => SMap.put m k ((getObj b (k / 256) (k % 256)).bytes (sizeOf' (k / 256) (k % 256)))) []

def counterEffects (a b : State) : SMap Bytes :=
  ((diffKeys a.pers.rings b.pers.rings).filter fun k => counterValue a k ≠ counterValue b k).foldl
    (fun m k => SMap.put m k (beBytes 8 (counterValue b k))) []

def epochEffects (a b : State) : SMap Bytes :=
  ((diffKeys a.pers.epochs b.pers.epochs).filter fun k => epochOf a k ≠ epochOf b k).foldl
    (fun m k => SMap.put m k (beBytes 3 (epochOf b k))) []

def journalEffects (a b : State) : SMap Bytes :=
  (b.pers.jour.recs.filter fun p => (SMap.look a.pers.jour.recs p.1).map (·.bytes) ≠ some p.2.bytes).foldl
    (fun m p => SMap.put m p.1 p.2.bytes) []

/-- What the slots of this admission do at their release, in order. -/
def freshActs (a b : State) : List Act := (b.slots.filter fun x => x.id ≥ a.seq.nextId).flatMap fun x => x.acts

/-- The computed objects that differ (R200, log 115). -/
def liveEffects (a b : State) : SMap Bytes :=
  let v := fun (s : State) (k : Nat) => ((liveVal s (k / 256) (k % 256)).getD (.num 0)).bytes (sizeOf' (k / 256) (k % 256))
  ((liveKeys a b).filter fun k => v a k ≠ v b k).foldl (fun m k => SMap.put m k (v b k)) []

def frameEffects (a b : State) : SMap Bytes :=
  (freshActs a b).foldl
    (fun m x => match x with
      | .lane1 (.chfDown f) => SMap.put m (leNat ((f.drop 2).take 2)) f
      | _ => m) []

def effectList (a b : State) : List (Nat × Nat × Bytes) :=
  let c := (freshActs a b).foldl settle b
  let objects := (liveEffects a c).foldl (fun m p => SMap.put m p.1 p.2) (dictEffects a c)
  objects.map (fun p => (1, p.1, p.2)) ++ (counterEffects a c).map (fun p => (2, p.1, p.2)) ++
    (epochEffects a c).map (fun p => (3, p.1, p.2)) ++ (journalEffects a c).map (fun p => (4, p.1, p.2)) ++
    (frameEffects a b).map (fun p => (5, p.1, p.2))

/-- The Output of a public-key slot. -/
def pleOutput (e : Nat × Nat × Bytes) : Bool := decide (e.1 = 1 ∧ 0xCF30 ≤ e.2.1 / 256 ∧ e.2.1 / 256 < 0xCF38 ∧ e.2.1 % 256 = 4)

/-- The 21 bytes of an effect in the input of the result digest, with its value as digested (R200). -/
def effectEntry (kind id : Nat) (value : Bytes) : Bytes := [BitVec.ofNat 8 kind] ++ beBytes 4 id ++ value

/-- The effects that led from a to b, as the result digest takes them. Where the admission drew from a tiller, the Output of its Run enters
as zeros. -/
def effectEntries (a b : State) (random : Bool) : List Bytes :=
  (effectList a b).map fun e => effectEntry e.1 e.2.1
    (if random && pleOutput e then zeros 16 else if e.1 = 1 ∧ isWoDomain (e.2.1 / 256) (e.2.1 % 256) then e.2.2 else digest16 e.2.2)

/-- The 16-byte result digest of an admission with this status, these effects and this response (R200). -/
def digestOf (adm code : Nat) (entries : List Bytes) (resp : Option Bytes) : Bytes :=
  digest16 (beBytes 8 adm ++ beBytes 4 code ++ entries.flatten ++ (resp.map digest16).getD (zeros 16))

/-- The result digest of what an admission came to. A response that carries bytes drawn from a tiller enters as zeros. -/
def resultDigest (a : State) (d : Done) : Bytes :=
  digestOf d.s.seq.adm d.code (effectEntries a d.s d.random) (d.resp.filter fun m => !(d.random && decide (m.length > 28)))

/-- One log record (R203). -/
def auditRecord (i : AdmIn) (d : Done) (digest : Bytes) (restart resumed : Bool) : Bytes :=
  let fl := (if i.redacted then 1 else 0) + (if d.random then 2 else 0) + (if isFaultCode d.code then 4 else 0) +
    (if restart then 8 else 0) + (if resumed then 16 else 0)
  leBytes 2 (48 + i.payload.length) ++ [BitVec.ofNat 8 i.kind, BitVec.ofNat 8 fl] ++ leBytes 2 i.origin ++ leBytes 2 i.chan ++
    leBytes 8 d.s.seq.adm ++ leBytes 8 d.s.seq.admTime ++ leBytes 4 d.code ++ digest ++ leBytes 2 i.payload.length ++ [0, 0] ++
    i.payload

/-- The record of an admission appended to the ring, or to the reserve where the ring has no room; the log breaks where neither
takes it, and resumes with the first admission after both are empty, whose own effects hold the return of 0xDC80.06 to 0 (R201,
R202). -/
def appendLog (a : State) (i : AdmIn) (d : Done) : State :=
  let s := d.s
  if !keepsLog s then s
  else
    let n := 48 + i.payload.length
    let broken := num s 0xDC80 6 ≠ 0
    let ring := decide (auditBytes s + n ≤ ringSize)
    if broken ∧ a.audit.recs ≠ [] then s
    else if ring ∨ (i.excepted ∧ reserveBytes s + n ≤ reserveSize) then
      let s1 := if broken then setNum s 0xDC80 6 0 else s
      let r := auditRecord i { d with s := s1 } (resultDigest a { d with s := s1 }) s.audit.restart broken
      { s1 with audit := ⟨s1.audit.recs ++ [⟨s.seq.adm, r, !ring⟩], false, if i.excepted then s1.audit.need else 0⟩ }
    else if broken then s else incObj (setNum s 0xDC80 6 s.seq.adm) 0xDC80 7

/-! Numbering. -/

/-- The state in which an admission's effect is computed: its number and its admitted device time (R181, R182). A block of
2^20 numbers is reserved durably when numbering first enters it (R87). -/
def number (s : State) : State :=
  let n := s.seq.adm + 1
  let s1 := count { s with seq := { s.seq with adm := n, admTime := s.seq.time, who := (0xFF, 0xFF, 0) } } 0 1 1
  if n % 1048576 = 0 then { s1 with pers := { s1.pers with reserved := n % 2 ^ 63 / 1048576 } } else s1

/-- The two forms of a commit (R393). -/
inductive CommitForm where
  | nothing
  | single
  | ring
deriving DecidableEq, Repr

/-- Words of counter rings, of the epoch table, two entries to a word and two copies of five entries, and of rotating records that differ
(R332, R392, R393). -/
def wordsChanged (a b : Pers) : Nat :=
  let n := fun (x : Bool) => if x then 1 else 0
  let es := diffKeys a.epochs b.epochs
  ((diffKeys a.rings b.rings).map fun k =>
      let x := SMap.at' a.rings k emptyRing
      let y := SMap.at' b.rings k emptyRing
      n (decide (x.words ≠ y.words)) + n (decide (x.aside ≠ y.aside)) + n (decide (x.spare ≠ y.spare))).sum +
    (es.map (· / 2)).dedup.length + (es.filter copied).length +
    n (decide (a.preferred ≠ b.preferred)) + n (decide (a.reserved ≠ b.reserved)) + n (decide (a.cpTime ≠ b.cpTime ∨ a.cpRtc ≠ b.cpRtc)) +
    n (decide (a.pair ≠ b.pair))

/-- The form of the commit that leads from store a to store b (R393): one word in place, or an entry of the commit ring for everything else.
The DOMAIN bytes of an image are written as they come; what commits them is the marker that makes them valid. -/
def commitForm (a b : Pers) : CommitForm :=
  if a.dict ≠ b.dict ∨ a.nodes ≠ b.nodes ∨ a.allocs ≠ b.allocs ∨ a.jour ≠ b.jour ∨ a.imageA.valid ≠ b.imageA.valid ∨
      a.imageB.valid ≠ b.imageB.valid then .ring
  else match wordsChanged a b with
    | 0 => .nothing
    | 1 => .single
    | _ => .ring

/-- An entry of the commit ring with its mark (R393), of 352 bytes (log 64); the ring begins another lap where it has no room for one more. -/
def appendEntry (p : Pers) (adm : Nat) : Pers :=
  let wraps := decide (p.cring.pos + 352 > 524288)
  let pos := if wraps then 0 else p.cring.pos
  { p with cring := ⟨⟨adm, pos, true⟩ :: p.cring.entries.take 1488, pos + 352⟩
           laps := if wraps then { p.laps with commit := p.laps.commit + 1 } else p.laps }

/-- The ring-commit entry of admission adm, where what leads from a to b is a ring commit, and the laps of the dictionary log (R393, R397,
log 64). -/
def ringEntry (a b : State) (adm : Nat) : State :=
  if commitForm a.pers b.pers = .ring then
    let p := appendEntry b.pers adm
    { b with pers := if a.pers.dict ≠ b.pers.dict ∧ Config.lapEnds 7 adm then { p with laps := { p.laps with dict := p.laps.dict + 1 } } else p }
  else b

/-- The greatest device time at which persistent effects were committed (R87), the entry of a ring commit (R393), and the commits still in
progress: each takes 8 us from its start (R40). -/
def noteCommit (a b : State) : State :=
  if commitForm a.pers b.pers = .nothing then b
  else
    let busy := b.seq.commits.filter fun c => decide (b.seq.admTime < c.1 + 8)
    let t := ringEntry a b b.seq.adm
    { t with pers := { t.pers with commitTime := b.seq.admTime }, seq := { t.seq with commits := (b.seq.admTime, a.pers) :: busy } }

/-- The ADMIT that the leader sends for an admission (R529, R539). -/
def admitMsg (i : AdmIn) (s : State) (restart : Bool) : Bytes :=
  [BitVec.ofNat 8 i.kind, if restart then 8 else 0] ++ leBytes 2 i.origin ++ leBytes 2 i.chan ++ leBytes 8 s.seq.adm ++
    leBytes 8 s.seq.admTime ++ leBytes 2 i.payload.length ++ [0, 0] ++ i.payload

/-- A message as it is queued for the Sheaf link (R529). -/
def sheafQueue (s : State) (type : Nat) (body : Bytes) : State :=
  { s with sheaf := { s.sheaf with out := s.sheaf.out ++ [[BitVec.ofNat 8 type, 0] ++ leBytes 2 body.length ++ body] } }

/-- Whether the pair is JOINED (0xF000.01), and whether this unit leads (R524). -/
def joined (s : State) : Bool := decide (num s 0xF000 1 = 2)
def leads (s : State) : Bool := decide (num s 0xF000 2 % 2 = 0)

/-- An origin as the pair numbers it: bit 14 marks what enters the follower's own inputs (R525). -/
def pairOrigin (s : State) (o : Nat) : Nat :=
  if sheafOn s ∧ pairNo s = 1 ∧ (o = 1 ∨ o ≥ 0x8000) ∧ !bit o 14 then o + 0x4000 else o

/-- What a verdict carries for the home partner to deliver (R541, R542): for a channel its field and event bits, with a receive
record, the sequence of a sent frame, or the event bits alone; an attestation report; an export result. The layout is the model's (log 9). -/
def verdictData (s : State) (chan : Nat) (fresh : List Slot) : Bytes :=
  let head := fun (n tag : Nat) => leBytes 2 (chanField s n) ++ leBytes 4 (cnum s n 0x0B) ++ [BitVec.ofNat 8 tag, 0]
  let acts := fresh.flatMap fun x => x.acts
  let raised := acts.any fun a => match a with
    | .event _ 2 => true
    | _ => false
  (if chan = chanField s (chan % 0x8000) ∧ raised then head (chan % 0x8000) 0 else []) ++ acts.flatMap fun a => match a with
    | .rxJoin n rx =>
      if homeHere s (cnum s n 5) then head n 0
      else head n 1 ++ leBytes 2 rx.payload.length ++ leBytes 4 rx.epoch ++ leBytes 4 rx.seq ++ leBytes 8 rx.adm ++ leBytes 8 rx.time ++ rx.payload
    | .lane1 (.chfDown f) => head (leNat ((f.drop 2).take 2) % 0x8000) 2 ++ (f.drop 8).take 4
    | .attestReport o b => if homeHere s o then [] else b
    | .exportResult _ b => b
    | _ => []

/-- The VERDICT of an admission that this unit executed alone (R529, R541): digests of the frames it released, and the data. -/
def verdictBody (a : State) (chan : Nat) (d : Done) : Bytes :=
  let fx := frameEffects a d.s
  let data := verdictData d.s chan (d.s.slots.filter fun x => x.id ≥ a.seq.nextId)
  leBytes 8 d.s.seq.adm ++ leBytes 4 d.code ++ [BitVec.ofNat 8 fx.length, 0, 0, 0] ++
    (fx.flatMap fun p => [5] ++ leBytes 4 p.1 ++ digest16 p.2) ++ leBytes 2 data.length ++ data

/-- Items whose value differs between two states: by 2^32 * kind + number, with the kinds of R200 and 6 key node, 9 applet
image, 10 node number allocations. -/
def changedItems (a b : State) : List Nat :=
  let of' := fun (k : Nat) (xs : List Nat) => xs.map (k * 4294967296 + ·)
  of' 1 (diffKeys a.pers.dict b.pers.dict ++ diffKeys a.dict b.dict) ++ of' 2 (diffKeys a.pers.rings b.pers.rings) ++
    of' 3 (diffKeys a.pers.epochs b.pers.epochs) ++ of' 4 (diffKeys a.pers.jour.recs b.pers.jour.recs) ++
    of' 6 (diffKeys a.pers.nodes b.pers.nodes) ++ of' 9 (diffKeys a.pers.applets b.pers.applets) ++
    of' 10 (diffKeys a.pers.allocs b.pers.allocs)

/-- The dirty map takes what changed from a to b (R536). -/
def markDirty (a b : State) : State :=
  if sheafOn b ∨ b.sheaf.join.isSome then
    { b with sheaf := { b.sheaf with dirty := (changedItems a b).foldl (fun m k => SMap.put m k b.seq.adm) b.sheaf.dirty } }
  else b

/-- The partner has matched the digest of admission n, or owes none: 0xF000.07 and the dirty map follow (R547). -/
def matched (s : State) (n : Nat) : State :=
  let ds := SMap.del s.sheaf.digests n
  let x := match ds with
    | [] => s.sheaf.lastPair
    | p :: _ => p.1 - 1
  let h := { s.sheaf with
    digests := ds, theirs := SMap.del s.sheaf.theirs n, dirty := s.sheaf.dirty.filter fun p => decide (x < p.2)
    awaits := s.sheaf.awaits.filter fun w => !decide (w.adm = n ∧ w.kind = 0x20) }
  setNum { s with sheaf := h } 0xF000 7 x

/-- A digest of admission n against one's own (R547, R548): a mismatch puts the suspension at the head of the queue. An
admission that one partner executed alone is checked on its abort code, which the VERDICT carries. -/
def compareDigest (s : State) (n : Nat) (own : Bytes × Bool × Nat) (dg : Bytes) : State :=
  let bad := own.2.1 && decide (own.1 ≠ dg)
  let t := { s with sheaf := { s.sheaf with awaits := s.sheaf.awaits.filter fun w => !decide (w.adm = n ∧ w.kind = 0x20) } }
  if bad then
    if s.internal.any fun e => match e with | .suspension _ => true | _ => false then t
    else { t with internal := .suspension n :: t.internal }
  else matched s n

/-- The effects of an admission that the partner executes alone: with what its slots will do at their release, where the verdict brings
success, and without it, the CHANGE record taken back, where not (R541, log 71). -/
def owedEffects (a : State) (d : Done) : List Bytes × List Bytes :=
  let sets := (freshActs a d.s).any fun x => match x with
    | .setObj _ _ => true
    | _ => false
  let bare := { d.s with slots := d.s.slots.filter fun x => decide (x.id < a.seq.nextId) }
  (effectEntries a d.s d.random, effectEntries a (if sets then { bare with pers := { bare.pers with jour := a.pers.jour } } else bare) d.random)

/-- What an admission sends to the partner and waits for (R539, R541, R545 to R547): on the leader an ADMIT; on its executor a
VERDICT where it executed alone; a COMMIT_ACK where a counter was committed; on both a DIGEST, on the unit that does not execute it once
the VERDICT has come. -/
def sheafAfter (a : State) (i : AdmIn) (d : Done) : State :=
  let s := markDirty a d.s
  let was := sheafOn a && joined a
  let is' := sheafOn s && joined s
  if !((was || is') && s.sheaf.key.isSome) then s
  else
    let n := s.seq.adm
    let dg := resultDigest a d
    let s1 := if leads s then sheafQueue s 0x10 (admitMsg i s false) else s
    let s2 := if i.alone = 1 then sheafQueue s1 0x22 (verdictBody a i.chan d) else s1
    let ctr := !(counterEffects a s).isEmpty
    let s3 := if ctr then sheafQueue s2 0x21 (leBytes 8 n ++ leBytes 4 d.code) else s2
    let s4 := if i.alone = 2 then s3 else sheafQueue s3 0x20 (leBytes 8 n ++ dg)
    if !is' then s4
    else
      let ws := (if ctr then [⟨n, 0x21, s.seq.admTime + 16⟩] else []) ++ [(⟨n, 0x20, s.seq.admTime + 40⟩ : Await)]
      let own := (dg, decide (i.alone = 0), d.code)
      let h := { s4.sheaf with digests := SMap.put s4.sheaf.digests n own, awaits := s4.sheaf.awaits ++ ws }
      let s5 := { s4 with sheaf := { h with lastPair := n, lastChain := s.pers.jour.chain } }
      if i.alone = 2 then { s5 with sheaf := { s5.sheaf with owed := SMap.put s5.sheaf.owed n (owedEffects a d) } }
      else match SMap.look s.sheaf.theirs n with
        | some x => compareDigest s5 n own x
        | none => s5

/-- The store token of an admission that makes a ring commit (R396). The start-up admission and those of tamper responses take theirs too. -/
def takeToken (a b : State) : State := if commitForm a.pers b.pers = .ring then drawBudget b else b

/-- A region that the commit from a to b needs is at its limit (R397): the commit ring, the dictionary log or the journal ring. -/
def wears (a b : State) : Bool :=
  decide (commitForm a.pers b.pers = .ring) && (decide (lapLimit ≤ a.pers.laps.commit) ||
    (decide (lapLimit ≤ a.pers.laps.dict) && decide (a.pers.dict ≠ b.pers.dict)) ||
    (decide (lapLimit ≤ a.pers.laps.jour) && decide (a.pers.jour ≠ b.pers.jour)))

/-- Counters that the admission of a request or a call has written, kept for one second (R401). -/
def noteCounters (i : AdmIn) (a b : State) : State :=
  let k := (counterEffects a b).length
  if k = 0 ∨ (i.kind ≠ 1 ∧ i.kind ≠ 3) then b
  else { b with seq := { b.seq with counted := (b.seq.admTime, k) :: b.seq.counted.filter fun p => decide (b.seq.admTime < p.1 + 1000000) } }

/-- Increments and advances in the second before the admitted device time (R401). -/
def countedNow (s : State) : Nat := ((s.seq.counted.filter fun p => decide (s.seq.admTime < p.1 + 1000000)).map fun p => p.2).sum

/-- The request or call that leads from s to t stays at its input, where it would take a store token while none is there, or write a
counter while the counter unit has committed 100,000 within a second (R183, R396, R401, log 118). -/
def capacityHolds (s t : State) : Bool :=
  (decide (budgetNow (number s) < 4000) && decide (budgetNow t < budgetNow (number s))) ||
    (decide (100000 ≤ countedNow (number s)) && !(counterEffects s t).isEmpty)

/-- One admission: none where the AUDIT ring holds the inputs (R201), else the state after it. -/
def admitOne (s : State) (i : AdmIn) (f : State → Done) : Option Done :=
  if auditHolds s i then none
  else
    let s0 := number s
    let d := f s0
    let s1 := noteCounters i s (noteCommit s (takeToken s0 d.s))
    let d1 := { d with s := s1 }
    let s2 := appendLog s0 i d1
    some { d1 with s := sheafAfter s0 i { d1 with s := s2 } }

/-- The inputs are held for want of room for input i: counted once per hold, in 0xDC80.05, which reaches the dictionary through a
statistics admission (R143, R196). -/
def noteHold (s : State) (i : AdmIn) : State :=
  if inHold s then s else { incHw s 0xDC80 5 1 with audit := { s.audit with need := 48 + i.payload.length } }

/-- The slot of a read that the partner orders, while its READ_RESULT has not come (R544): its bare response says that the partner is
absent, or holds the address and the room of a cell's buffer. -/
def relayed (x : Slot) : Bool := !x.numbered && x.resp.isNone && x.bare.isSome && x.acts.isEmpty

/-- The cell of an applet origin (R102). -/
def originCell (o : Nat) : Option Nat := if 0x100 ≤ o ∧ o < 0x120 then some (o - 0x100) else none

/-- The read of slot x answered by the partner, with this response: a cell takes the value where its buffer has the room (R443, R544). -/
def readBack (x : Slot) (m : Bytes) : Slot :=
  match originCell x.origin with
  | none => { x with resp := some m }
  | some c =>
    let room := leNat ((x.bare.getD []).drop 4)
    let code := leNat ((m.drop 8).take 4)
    let n := leNat ((m.drop 12).take 2)
    let bad := if code ≠ 0 then code else if room < n then Abt.sizeMismatch else 0
    { x with bare := none, acts := [if bad ≠ 0 then .cellRet c [(10, bad)] []
      else .cellRet c [(10, 0), (11, n)] [(leNat ((x.bare.getD []).take 4), (m.drop 14).take n)]] }

/-- The read of slot x answered that the partner is absent. -/
def readAbsent (x : Slot) : Slot :=
  match originCell x.origin with
  | none => { x with resp := x.bare }
  | some c => { x with bare := none, acts := [.cellRet c [(10, Abt.partnerAbsent)] []] }

/-- Reads that the partner was to order are answered that it is absent: no READ_RESULT comes any more (R138, log 127). -/
def answerRelayed (s : State) : State := { s with slots := s.slots.map fun x => if relayed x then readAbsent x else x }

/-! Change records (R123). -/

/-- The role and credential byte, the session slot and the origin of a caller (R408). -/
def Ctx.who (c : Ctx) : Nat × Nat × Nat :=
  (match c.role with
    | some r => r * 16 + (if c.slot.isSome then c.cred else 15)
    | none => 0xFF, c.slot.getD 0xFF, c.origin)

/-- The records of the admission in force are those of caller c. -/
def calledBy (s : State) (c : Ctx) : State := { s with seq := { s.seq with who := c.who } }

/-- The head of the CHANGE record of an object written by c (R408). -/
def changeHead (c : Ctx) (idx sub : Nat) : RecHead := ⟨4, c.who.1, c.who.2.1, sub, idx, c.who.2.2⟩

/-- The CHANGE record of an accepted write, from the digests of the old and new values. -/
def journalDigests (s : State) (c : Ctx) (idx sub : Nat) (old new : Bytes) : State :=
  journalAt s (if idx = 0xDC10 ∨ idx = 0xD801 then Place.last else Place.ring) false (changeHead c idx sub) (old ++ new)

def journalChange (s : State) (c : Ctx) (idx sub : Nat) (old new : Bytes) : State :=
  journalDigests s c idx sub (digest16 old) (digest16 new)

/-- An internal admission without a response (R188): kind 4, origin 0x0000. Its payload is the device's own (log 9). -/
def internalIn (kind : Nat) (nums : List Nat) (excepted : Bool) : AdmIn :=
  ⟨4, 0, 0xFFFF, Config.internalPayload kind nums, false, excepted, 1⟩

/-- An admission under a number and a time that the leader gave (R539, R543, R546): what it leaves to be released, and what it
waits for, is timed from its arrival here. -/
def followAt (s : State) (adm time : Nat) (f : State → State) : State :=
  let t := f { s with seq := { s.seq with adm := adm - 1, time := time } }
  if t.seq.adm ≠ adm then { t with seq := { t.seq with adm := s.seq.adm, time := s.seq.time } }
  else
    { t with
      seq := { t.seq with time := s.seq.time }
      slots := t.slots.map fun x => if x.id ≥ s.seq.nextId then { x with due := x.due + s.seq.time - time } else x
      sheaf := { t.sheaf with awaits := t.sheaf.awaits.map fun w => if w.adm = adm then { w with due := w.due + s.seq.time - time } else w } }

/-- The write of the ring entry of an internal admission in state s fails verification: a physical condition, free (R194, R394; log 130). -/
def commitFails (s : State) : Bool := decide ((draw s 1).1 = 1)

/-- The effect r of an internal or start-up admission on state u. Where it makes a ring commit and a region that this needs is worn out it is
refused, but for start-up and tamper responses, which still commit (R397); where the write of the entry fails it ends with ABT_STORE_FAULT,
and none of its effects is applied (R194, R394). -/
def ringCommit (exempt : Bool) (r : State × Nat) (u : State) : State × Nat :=
  if commitForm u.pers r.1.pers ≠ .ring then r
  else if !exempt && wears u r.1 then (u, Abt.wearLimit)
  else if commitFails u then ((draw u 1).2, Abt.storeFault)
  else ({ r.1 with seq := { r.1.seq with draws := r.1.seq.draws + 1 } }, r.2)

/-- An internal admission in this unit's own numbers: unchanged where the sequencer is not up or the log holds it. -/
def admitOwn (s : State) (i : AdmIn) (f : State → State × Nat) : State :=
  if !sequencerUp s then s
  else match admitOne s i (fun t => let r := ringCommit i.excepted (f t) t; ⟨r.1, r.2, none, false⟩) with
    | none => noteHold s i
    | some d => count d.s 0 5 1

/-- An internal admission (R179). The follower of a joined pair has the leader number it: it sends a REQUEST under origin
0x0002, and performs it when the ADMIT has come (R525, R539, R540). -/
def admitInternal (s : State) (i : AdmIn) (f : State → State × Nat) : State :=
  if sheafOn s ∧ joined s ∧ !leads s then
    match s.sheaf.grant with
    | some (adm, time, payload) =>
      if payload = i.payload then
        followAt { s with sheaf := { s.sheaf with grant := none, asked := s.sheaf.asked.erase i.payload } } adm time
          fun t => admitOwn t { i with origin := 2 } f
      else s
    | none =>
      if s.sheaf.asked.contains i.payload then s
      else
        let s1 := sheafQueue s 0x11 ([2, 0, 4, 0] ++ i.payload)
        { s1 with sheaf := { s1.sheaf with asked := s1.sheaf.asked ++ [i.payload] } }
  else admitOwn s i f

/-- The internal admissions that R201 excepts: those that record a tamper fire, a cut, an entropy failure, a partition or a
suspension. -/
def IntReq.excepted : IntReq → Bool
  | .tamper _ _ _ | .cut _ | .entropy _ | .partition | .suspension _ => true
  | _ => false

/-- The entry at the head of the internal queue, where it is the one that a command names (R180); while the log holds the inputs,
the first excepted one (R201). -/
def popInternal (s : State) (ok : IntReq → Bool) : Option (IntReq × State) :=
  match s.internal with
  | [] => none
  | e :: r =>
    if ok e then some (e, { s with internal := r })
    else if inHold s ∧ !e.excepted then
      match r.find? IntReq.excepted with
      | some x => if ok x then some (x, { s with internal := e :: r.erase x }) else none
      | none => none
    else none

/-- A follower of a joined pair, which has the leader number its admissions (R525, R539). -/
def follows (s : State) : Bool := sheafOn s && joined s && !leads s

/-- The internal queue holds a request that can be admitted now, ahead of every other input (R180). -/
def internalTurn (s : State) : Bool :=
  match s.internal with
  | [] => false
  | e :: r => !follows s && (!inHold s || e.excepted || r.any IntReq.excepted)

/-- The admission of the entry at the head of the internal queue; it stays there where it is not admitted. -/
def admitHead (s : State) (ok : IntReq → Bool) (i : IntReq → AdmIn) (f : IntReq → State → State × Nat) : State :=
  match popInternal s ok with
  | none => s
  | some (e, t) =>
    let u := admitInternal t (i e) (f e)
    if u.seq.adm = s.seq.adm then { u with internal := s.internal } else u

/-- An entry at the head, and at the tail, of the internal queue. -/
def pushFront (s : State) (e : IntReq) : State := { s with internal := e :: s.internal }
def pushBack (s : State) (e : IntReq) : State := { s with internal := s.internal ++ [e] }

/-! Status that an internal admission brings into the dictionary (R79, R193, R534). -/

/-- The clock monitor status that the dictionary holds, or will when what waits is admitted. -/
def clockWord (s : State) : Nat :=
  ((s.internal.filterMap fun e => match e with | .clocks w => some w | _ => none).getLast?).getD (num s 0x2100 11 &&& 0x17F)

/-- A clock monitor status in 0x2100.0B, whose FIELD_CLK_OK comes with FIELD_REPORT (R79). -/
def showClocks (s : State) (w : Nat) : State := setNum s 0x2100 11 (w ||| (num s 0x2100 11 &&& 0x80))

/-- Bit i of the clock monitor status as the monitors see it (R79). From the start-up admission on, 0x2100.0B follows through an internal
admission (R193, R195). -/
def clockBit (s : State) (i : Nat) (b : Bool) : State :=
  let w := setBit s.boot.clock i b
  let t := { s with boot := { s.boot with clock := w } }
  if !s.boot.admitted then showClocks t w else if clockWord s = w then t else pushBack t (.clocks w)

/-- 0xF000.01 as it is, or as it will be when what waits is admitted. -/
def pairState (s : State) : Nat :=
  ((s.internal.filterMap fun e => match e with | .pairState v => some v | _ => none).getLast?).getD (num s 0xF000 1)

/-- No report of 0xF000.01 waits any more: an admission sets it. -/
def dropPairState (s : State) : State :=
  { s with internal := s.internal.filter fun e => match e with | .pairState _ => false | _ => true }

/-- A report of 0xF000.01 admitted: JOINING, but for a unit that is JOINED by now; what stood before, where a join has failed. -/
def pairStateOp (s : State) (v : Nat) : State :=
  if (v = 1 ∧ num s 0xF000 1 ≠ 2) ∨ (v ≠ 1 ∧ num s 0xF000 1 = 1) then setNum s 0xF000 1 v else s

end Sys2Proof.Machine
end

