-- ==== Sys2Proof/Machine/TamperOps.lean ====
section
/-! DEFINITION. Tamper monitoring (R474 to R501): the filter, fires and responses, the Sinter log and its schedule, TAMPER
records, the alarm object and acknowledgement. -/

namespace Sys2Proof.Machine

/-! Settings in force. -/

def isFixed (k : Nat) : Bool := ((Dict.sensor k).map fun r => r.fixed).getD true

/-- The 32-bit container of a 20-bit sample. -/
def s20Ext (x : BitVec 20) : Nat := (x.signExtend 32).toNat

/-- The threshold in force (R481, R82). -/
def threshold (s : State) (k sub : Nat) : Nat :=
  if !s.boot.recovered then
    match Dict.sensor k with
    | some r => Dict.s20 (if sub = 4 then r.low else r.high)
    | none => 0
  else num s (0xDA00 + k) sub

/-- Whether a reading is an event of sensor k, and the threshold crossed (R474). A sensor without thresholds takes every
report as an event. -/
def crosses (s : State) (k reading : Nat) : Option Nat :=
  match Dict.sensor k with
  | none => none
  | some r =>
    let v := s20Int reading
    let lo := threshold s k 4
    let hi := threshold s k 5
    if r.lowB.isSome ∧ v < s20Int lo then some lo
    else if r.highB.isSome ∧ v > s20Int hi then some hi
    else if r.lowB.isNone ∧ r.highB.isNone then some 0
    else none

/-! The filter (R479). -/

def sense0 : Sense := ⟨false, [], 0⟩
def senseOf (s : State) (k : Nat) : Sense := SMap.at' s.tem.sense k sense0
def setSense (s : State) (k : Nat) (x : Sense) : State :=
  { s with tem := { s.tem with sense := SMap.store s.tem.sense k x sense0 } }

/-- The State object of sensor k reads FIRED, or will when the admission of its fire has come. -/
def showsFired (s : State) (k : Nat) : Bool :=
  decide (num s (0xDA00 + k) 0x0B = 1) || s.internal.any fun e => match e with
    | .tamper c _ _ => decide (c = k)
    | _ => false

/-- The report that brings the State object of sensor k back to CLEAR (R193, R479). -/
def clearReport (k : Nat) : IntReq := .report [(objKey (0xDA00 + k) 0x0B, .num 0)] none
def showClear (s : State) (k : Nat) : State := if showsFired s k then pushBack s (clearReport k) else s

/-- One event of sensor k at time t: the state, and whether it fires. A FIRED sensor to which no event came for W is CLEAR again. -/
def filter (s : State) (k t : Nat) : State × Bool :=
  let p := sensorSet s k
  let n := p.2.1
  let w := p.2.2
  let x := senseOf s k
  if p.1 = 255 then (s, false)
  else if isFixed k then (s, true)
  else if x.fired ∧ t < x.last + w then (setSense s k { x with last := t }, false)
  else
    let ts := (t :: if x.fired then [] else x.times).take n
    if ts.length = n ∧ (ts.getLastD t) + w ≥ t then (setSense s k ⟨true, [], t⟩, true)
    else (setSense (if x.fired then showClear s k else s) k ⟨false, ts.take (n - 1), t⟩, false)

/-- The times of events move with device time where a start-up sets it anew: sensors time their events on the monitor clock (R479). -/
def shiftTimes (x : Tem) (old new : Nat) : Tem :=
  let f := fun t => t + new - old
  { x with sense := x.sense.map fun p => (p.1, { p.2 with times := p.2.times.map f, last := f p.2.last })
           held := x.held.map fun h => (h.1, h.2.1, h.2.2.1, f h.2.2.2) }

/-! The Sinter domain. -/

/-- An entry joins the Sinter log (R495). -/
def logSinter (x : Sinter) (e : SLog) : Sinter :=
  if x.log.length < 64 then { x with log := x.log ++ [e] }
  else match x.log.find? fun y => y.cls < e.cls with
    | some y => { x with log := x.log.erase y ++ [e] }
    | none => { x with overflow := min (x.overflow + 1) 65535 }

/-- The further effect of a class in the Sinter domain (R484, R486, R494). -/
def sinterAct (x : Sinter) (cls : Nat) : Sinter :=
  let x := if cls = 3 ∨ cls = 4 then { x with key := none } else x
  if cls = 4 then { x with sealLatch := true } else x

def raisePend (x : Sinter) (cls : Nat) : Sinter :=
  { x with pend := some (match x.pend with | some c => max c cls | none => cls) }

/-- Flags of a log entry (R495). -/
def entryFlags (vigil : Bool) (cls : Nat) (pre journaled : Bool) : Nat :=
  (if vigil then 1 else 0) + (if cls = 3 ∨ cls = 4 then 2 else 0) + (if cls = 4 then 4 else 0) + (if pre then 8 else 0) +
    (if journaled then 16 else 0)

/-- The 16 bytes of a log entry (R495). -/
def SLog.bytes (e : SLog) : Bytes :=
  leBytes 6 e.time ++ leBytes 2 e.code ++ leBytes 1 e.cls ++ leBytes 1 e.flags ++ leBytes 3 (e.reading % 0x1000000) ++
    leBytes 1 e.n ++ [0, 0]

def isBattery (e : SLog) : Bool := !bit e.flags 3
def isJournaled (e : SLog) : Bool := bit e.flags 4

/-! Fires and responses. -/

/-- VIGIL's sets are in force (R82, R483). -/
def vigilSets (s : State) : Bool := s.boot.recovered && vigilOn s

/-- The 24 bytes of R490. -/
def tamperBody (s : State) (k reading thr flags : Nat) : Bytes :=
  let p := sensorSet s k
  leBytes 4 reading ++ leBytes 4 thr ++ leBytes 1 p.2.1 ++ leBytes 1 (flags + if vigilSets s then 1 else 0) ++ [0, 0] ++
    leBytes 4 p.2.2 ++ leBytes 2 s.sinter.overflow ++ zeros 6

/-- A NOTE or CHECK fire that a response overtakes, in the Sinter log: journaled says that its own admission has begun its commit, which the
response lets complete (R486, R489). -/
def keepFire (journaled : Bool) (s : State) (f : Nat × Nat × Bytes) : State :=
  let b := f.2.2
  let e : SLog := ⟨s.sinter.rtc, f.1, f.2.1, entryFlags (bit (b.getD 9 0).toNat 0) 0 true journaled, leNat (b.take 4), (b.getD 8 0).toNat,
    leNat ((b.drop 4).take 4), leNat ((b.drop 12).take 4), true, false⟩
  { s with sinter := logSinter s.sinter e }

/-- The fires of class NOTE or CHECK whose admissions are unreleased when a response begins: admitted ones, and those that wait on the
internal queue (R489). -/
def keepQueued (s : State) : State :=
  let done := s.slots.flatMap fun x => x.acts.filterMap fun a => match a with
    | .fired k c b => some (k, c, b)
    | _ => none
  let due := s.internal.filterMap fun e => match e with
    | .tamper k c b => some (k, c, b)
    | _ => none
  due.foldl (keepFire false) (done.foldl (keepFire true) s)

/-- The Sinter entry of a fire, its class for the flags c, EXECUTED and SUPPRESSED as given (R489, R495). -/
def fireEntry (s : State) (k reading thr cls c : Nat) (done supp : Bool) : SLog :=
  let p := sensorSet s k
  ⟨s.sinter.rtc, k, cls, entryFlags (vigilSets s) c true false, reading, p.2.1, thr, p.2.2, done, supp⟩

/-- The entry that has executed so far gives EXECUTED up to another fire of the same monitor cycle (R489). -/
def giveUp (x : Sinter) (code : Nat) : Sinter :=
  { x with log := x.log.map fun e =>
      if e.done ∧ e.code = code ∧ bit e.flags 3 then { e with done := false, flags := setBit (setBit e.flags 1 false) 2 false } else e }

/-- The Sinter domain logs a fire that executes, and acts on its class (R486). -/
def sinterFire (x : Sinter) (e : SLog) (cls : Nat) : Sinter := sinterAct (raisePend (logSinter x e) cls) cls

/-- A fire while response r is in force (R489). Fires at one device time count as those of one monitor cycle (DESIGN CHOICE, log 135). A
higher class, or in the same cycle a lower code of the same class, executes in place of the one before; any other fire is only logged, with
SUPPRESSED where it comes in a later cycle. What comes by 18 us after the first fire still enters a latch commit. -/
def respondAgain (s : State) (r : Resp) (k reading thr cls : Nat) : State :=
  let same := decide (r.at' = s.seq.time)
  let up := decide (cls > r.cls) || (same && decide (cls = r.cls ∧ k < r.exec))
  let code := if cls > r.cls then k else if cls = r.cls then min r.code k else r.code
  let r1 := { r with cls := max r.cls cls, fires := min (r.fires + 1) 255, code := code }
  let r2 := if up then { r1 with at' := s.seq.time, exec := k } else r1
  let r3 := if s.seq.time ≤ r.began + 18 then { r2 with word := (r2.cls, r2.fires, r2.code) } else r2
  let sn := if up then sinterFire (if same then giveUp s.sinter r.exec else s.sinter) (fireEntry s k reading thr cls cls true false) cls
    else logSinter s.sinter (fireEntry s k reading thr cls 0 false (!same))
  { s with sinter := sn, tem := { s.tem with resp := some r3 } }

/-- A fire of class RESET or higher (R486, R489): the toggle stops, the key paths are isolated, the Sinter domain logs the
fire and acts; one during a response is that response's. -/
def respond (s : State) (k reading thr cls : Nat) : State :=
  match s.tem.resp with
  | some r => respondAgain s r k reading thr cls
  | none =>
    let s1 := keepQueued s
    { s1 with sinter := sinterFire s1.sinter (fireEntry s k reading thr cls cls true false) cls
              tem := { s1.tem with resp := some ⟨cls, 1, k, s.seq.time, s.seq.time, k, (cls, 1, k)⟩ }
              boot := { s1.boot with toggle := false } }

/-- A fire of sensor k (R484 to R489). Its own admission's record has EXECUTED set (R490). -/
def fire (s : State) (k reading thr : Nat) : State :=
  let cls := (sensorSet s k).1
  let s := if cls = 255 then s else count s 9 2 1
  if cls = 255 then s
  else if cls ≥ 2 then respond s k reading thr cls
  else match s.tem.resp with
    | some _ => respond s k reading thr cls
    | none => pushFront { s with internal := s.internal.filter (· ≠ clearReport k) } (.tamper k cls (tamperBody s k reading thr 4))

/-- One event of sensor k at time t with its reading (R479, R480); low-side supply-window fires are held (R476). -/
def sensorEvent (s : State) (k t reading thr : Nat) : State :=
  let r := filter (count s 9 1 1) k t
  if !r.2 then r.1
  else if k ≤ 2 ∧ s20Int reading < s20Int thr then
    { r.1 with tem := { r.1.tem with held := r.1.tem.held ++ [(k, reading, thr, t)] } }
  else fire r.1 k reading thr

/-! Records and the alarm object. -/

/-- Pinned TAMPER records: admission number and class. -/
def pinnedTamper (s : State) : List (Nat × Nat) :=
  (s.pers.jour.recs.filter fun p => p.2.pinned && decide (p.2.bytes.head? = some 2)).map fun p =>
    (leNat ((p.2.bytes.drop 8).take 8), (p.2.bytes.getD 3 0).toNat)

/-- A sensor of class CHECK or higher reads FIRED. -/
def sensorActive (s : State) : Bool :=
  s.dict.any fun p => decide (0xDA00 ≤ p.1 / 256 ∧ p.1 / 256 < 0xDB00 ∧ p.1 % 256 = 0x0B ∧ p.2.toNat = 1) &&
    decide (1 ≤ (sensorSet s (p.1 / 256 - 0xDA00)).1 ∧ (sensorSet s (p.1 / 256 - 0xDA00)).1 ≤ 4)

/-- The device is in TAMPER_HELD, or the start-up admission has decided that it will be (R90, R491). -/
def heldOrDue (s : State) : Bool := decide (s.stage = 0x10 ∨ (5 ≤ s.stage ∧ s.stage ≤ 8 ∧ s.tem.sticky ≠ 0))

/-- The alarm word (R491). -/
def alarmWord (s : State) : Nat :=
  (if (pinnedTamper s).any fun p => decide (1 ≤ p.2 ∧ p.2 ≤ 4) then 1 else 0) + (if heldOrDue s then 2 else 0) +
    (if calderaOn s then 4 else 0) + (if sensorActive s then 8 else 0) + s.tem.sticky

/-- The tamper status objects brought up to date; a change of the alarm sets the ALARM cause at the release of the admission, and ALARM_N
follows it then (R485, R491). -/
def updateAlarm (s : State) : State :=
  let a := alarmWord s
  let pins := pinnedTamper s
  let s1 := setNum (setNum s 0xD800 6 (pins.length % 65536)) 0xD800 5 ((pins.map fun p => p.1).foldl max 0)
  if a = num s 0xD800 1 then s1
  else
    let s2 := setNum s1 0xD800 1 a
    pushSlot s2 (actSlot s2 Lat.internal .none [] [.cause 0x10, .alarm a])

/-- A TAMPER record with its counts (R409, R485, R490): counted says whether the sensor has an event count. -/
def tamperRecord (s : State) (k cls sinterTime : Nat) (counted : Bool) (body : Bytes) : State :=
  let i := 0xDA00 + k
  let s1 := if counted then setNum s i 0x0C (min (num s i 0x0C + 1) 65535) else s
  let cnt := if counted then num s1 i 0x0C else 0
  let s2 := journalAt s1 .last true ⟨2, 0xFF, 0xFF, cls, k, 0⟩ (leBytes 2 cnt ++ leBytes 6 sinterTime ++ body)
  let s3 := if counted then setNum s2 i 0x0D s.seq.adm else s2
  let hi := num s3 0xD800 2
  let s4 := setNum s3 0xD800 2 (if cls ≤ 4 ∧ (hi = 0xFF ∨ cls > hi) then cls else hi)
  setNum (setNum s4 0xD800 3 k) 0xD800 4 s.seq.adm

/-- The TAMPER record without a sensor object (codes 0x70 to 0x72): class CHECK, with no reading and no filter (R490). -/
def noteRecord (s : State) (code : Nat) : State :=
  updateAlarm (tamperRecord s code 1 0 false
    (zeros 9 ++ leBytes 1 (4 + if vigilSets s then 1 else 0) ++ zeros 6 ++ leBytes 2 s.sinter.overflow ++ zeros 6))

/-- ALARM_N is low (R31, R92, R485, R491): until TAMPER_EVAL has evaluated the alarm, in the halts, and while the alarm word of the last
released admission is not 0. -/
def alarmLow (s : State) : Bool := decide (s.stage ≤ 5 ∨ (0xE0 ≤ s.stage ∧ s.stage ≤ 0xE3) ∨ s.stage = 0x10 ∨ s.tem.alarm ≠ 0)

/-- The payload of the admission of a NOTE or CHECK fire: sensor code, class, reading, threshold and filter settings (R485). -/
def firePayload (k cls : Nat) (body : Bytes) : Bytes := leBytes 2 k ++ leBytes 1 cls ++ body

/-- The admission of a NOTE or CHECK fire: a function of its payload (R485, R488). The sensor is FIRED by its fire, but for a fixed one, which
never reads so (R479). Until its release a response keeps the fire (R489). -/
def tamperEffect (s : State) (k cls : Nat) (body : Bytes) : State :=
  let b := body.take 16 ++ leBytes 2 s.sinter.overflow ++ zeros 6
  let s1 := setNum s (0xDA00 + k) 0x0A (leNat (body.take 4))
  let s2 := setNum s1 (0xDA00 + k) 0x0B (if isFixed k then 0 else 1)
  let s3 := updateAlarm (setNum (tamperRecord s2 k cls 0 true b) 0xD800 8 s.sinter.overflow)
  pushSlot s3 (actSlot s3 Lat.internal .none [] [.fired k cls body])

/-- 0xD810.05 as the Sinter domain now is (R498). -/
def sinterWord (s : State) : Nat :=
  (if s.sinter.sealLatch then 1 else 0) + (if s.sinter.key.isSome then 2 else 0) + (if bit (num s 0xD810 5) 2 then 4 else 0)

/-- The log and the status of the Sinter domain as an admission finds them (R498). -/
def showSinter (s : State) : State :=
  setNum (setOct (setNum s 0xD810 2 s.sinter.log.length) 0xD810 3 (s.sinter.log.flatMap SLog.bytes)) 0xD810 5 (sinterWord s)

/-! Acknowledgement (R492). -/

/-- TAMPER records at or below x unpinned. -/
def unpin (j : Journal) (x : Nat) : Journal :=
  { j with recs := j.recs.map fun p =>
      if p.2.pinned ∧ leNat ((p.2.bytes.drop 8).take 8) ≤ x then (p.1, { p.2 with pinned := false }) else p }

/-- What an accepted acknowledgement of x does; the move to READY is the caller's. -/
def acknowledge (s : State) (x : Nat) : State :=
  let s1 := { s with
    pers := { s.pers with jour := unpin s.pers.jour x }
    sinter := { s.sinter with log := [] }
    tem := { s.tem with sticky := 0 } }
  setNum (showSinter s1) 0xD800 2 0xFF

/-! Sensor settings (R482, R483). -/

/-- A sensor's history emptied: the times of its events go, and a FIRED sensor stays FIRED; a sensor of class OFF keeps
nothing (R479, R482). -/
def emptyHistory (s : State) (k : Nat) : State :=
  if (sensorSet s k).1 = 255 then setNum (setSense s k sense0) (0xDA00 + k) 0x0B 0
  else setSense s k { senseOf s k with times := [] }

/-- Every sensor's history emptied (R483). -/
def emptyHistories (s : State) : State := updateAlarm ((s.tem.sense.map fun p => p.1).foldl emptyHistory s)

/-- Whether writing v to a setting weakens it (R482). -/
def weakens (sub old new : Nat) : Bool :=
  let cls := fun x => if x = 255 then (-1 : Int) else x
  match sub with
  | 1 | 6 => decide (cls new < cls old)
  | 2 | 7 => decide (new > old)
  | 3 | 8 => decide (new < old)
  | 4 => decide (s20Int new < s20Int old)
  | _ => decide (s20Int new > s20Int old)

/-- A write to a setting of sensor k (R482): the refusal, or 0; provision says that PROVISION lets the caller weaken. -/
def sensorWriteCheck (s : State) (k sub v : Nat) (provision : Bool) : Nat :=
  match Dict.sensor k with
  | none => Abt.objectUnknown
  | some r =>
    let bound := fun (b : Option (Int × Int)) => match b with
      | none => Abt.valueConflict
      | some (lo, hi) => if lo ≤ s20Int v ∧ s20Int v ≤ hi then 0 else Abt.valueRange
    let code := match sub with
      | 1 | 6 =>
        if v = 255 then (if 0x40 ≤ k ∧ k ≤ 0x4F then 0 else Abt.valueRange)
        else if v > 4 then Abt.valueRange
        else if r.min ≠ 255 ∧ v < r.min then Abt.valueRange else 0
      | 2 | 7 => if r.fixed then Abt.valueConflict else if 1 ≤ v ∧ v ≤ 255 then 0 else Abt.valueRange
      | 3 | 8 => if r.fixed then Abt.valueConflict else if 1 ≤ v ∧ v ≤ 10000000 then 0 else Abt.valueRange
      | 4 => bound r.lowB
      | _ => bound r.highB
    if code ≠ 0 then code
    else if weakens sub (num s (0xDA00 + k) sub) v ∧ (!provision || vigilOn s) then Abt.mode
    else 0

/-- After an accepted write of a setting the sensor's history is emptied (R482); SENSOR_ACTIVE follows the class (R491). -/
def sensorReset (s : State) (k : Nat) : State := updateAlarm (emptyHistory s k)

/-! The Sinter schedule (R493, R494). -/

/-- Every host rail is in range (R37). -/
def hostRails (s : State) : Bool := s.boot.rails && s.boot.vddah && s.boot.lvds

/-- The core die is held in reset with its host rails in range (R493). -/
def heldInReset (s : State) : Bool := hostRails s && decide (s.stage = 0)

/-- The schedule runs: VDDA_H low, the core die held in reset with its rails in range, or HIBERNATE. -/
def scheduleOn (s : State) : Bool := !s.boot.vddah || heldInReset s || decide (s.power = 4)

/-- The window recorded for an entry of the Sinter schedule (R494). -/
def scheduleWindow (k : Nat) : Nat := if k = 0x20 then 32000 else if k = 0x28 ∨ k = 0x29 then 2000000 else 16000

/-- One schedule sample of sensor k, an event or none: need consecutive events make a fire. -/
def scheduleHit (s : State) (k : Nat) (event : Bool) (need : Nat) : State × Bool :=
  if !event then ({ s with sinter := { s.sinter with hits := SMap.del s.sinter.hits k } }, false)
  else
    let h := SMap.at' s.sinter.hits k 0 + 1
    ({ s with sinter := { s.sinter with hits := SMap.put s.sinter.hits k h } }, decide (h = need))

/-- The class that a fire of the schedule has (R494). -/
def scheduleClass (s : State) (k : Nat) : Nat := num s (0xDA00 + k) (if s.sinter.vigil then 6 else 1)

/-- The fires of one schedule slot, each with sensor, reading, threshold and filter count: each is logged, and the highest
class acts once, for the lowest sensor of that class (R489, R494). -/
def slotFires (s : State) (fires : List (Nat × Nat × Nat × Nat)) : State :=
  let fs := fires.filter fun f => decide (scheduleClass s f.1 ≠ 255)
  let top := (fs.map fun f => scheduleClass s f.1).foldl max 0
  let code := ((fs.filter fun f => decide (scheduleClass s f.1 = top)).map fun f => f.1).foldl min 0xFFFF
  let pre := heldInReset s
  let log := fun (x : Sinter) (f : Nat × Nat × Nat × Nat) =>
    let c := scheduleClass s f.1
    logSinter x ⟨s.sinter.rtc, f.1, c, entryFlags s.sinter.vigil (if f.1 = code then c else 0) pre false, f.2.1, f.2.2.2, f.2.2.1,
      scheduleWindow f.1, decide (f.1 = code), false⟩
  let sn := sinterAct (fs.foldl log s.sinter) top
  { s with sinter := if pre ∧ top ≥ 2 then raisePend sn top else sn }

/-- The next pattern of the Sinter generator (R477). -/
def nextPattern (s : State) : BitVec 16 × State :=
  let x := Config.lfsrNext s.sinter.lfsr
  (x.truncate 16, { s with sinter := { s.sinter with lfsr := x } })

/-- The generator takes a seed from tiller 62, at READY and at a power-down (R376, R477); it stays as it is while the tiller cannot deliver. -/
def reseedPattern (s : State) : State :=
  match (if s.entropyDown then none else takeBuffer s 62 8) with
  | some (b, t) => { t with sinter := { t.sinter with lfsr := BitVec.ofNat 64 (leNat b) } }
  | none => s

/-- The next pattern for a mesh: tiller 62, or the generator while it cannot deliver (R477, R478). -/
def meshPattern (s : State) : BitVec 16 × State :=
  match (if s.entropyDown then none else takeBuffer s 62 2) with
  | some (b, s1) => (BitVec.ofNat 16 (leNat b), s1)
  | none => nextPattern s

/-- Bits in which two patterns differ. -/
def mismatches (a b : BitVec 16) : Nat := ((List.range 16).filter fun i => (a ^^^ b).getLsbD i).length

end Sys2Proof.Machine
end

