-- ==== Sys2Proof/Machine/FieldOps.lean ====
section
/-! DEFINITION. The field die: its settings, guard lines, reports, networks and its end of the barrier link (R144 to R178,
R454 to R471, R519 to R522). Every operation here changes only the field-die part of the state. -/

namespace Sys2Proof.Machine

/-- A setting of the field die's non-volatile copy, or its default (R159, R456). -/
def fset (f : Field) (i k : Nat) : Nat :=
  match SMap.look f.nv (objKey i k) with
  | some b => leNat b
  | none => match (Dict.find i k).2 with
    | some d => (dfltOf i k d).toNat
    | none => 0

def fsetBytes (f : Field) (i k : Nat) : Bytes :=
  match SMap.look f.nv (objKey i k) with
  | some b => b
  | none => match (Dict.find i k).2 with
    | some d => (dfltOf i k d).toBytes
    | none => []

namespace Fld

def out0 : FOut := ⟨false, false, false, 0, none, none, none⟩
def port0 (p : Nat) : FPort := ⟨if p < 4 then 3 else 0, 0, 0, 0, 0, 0, false⟩
def lane0 : Lane := ⟨1, 0, []⟩
def outOf (f : Field) (n : Nat) : FOut := SMap.at' f.outs n out0
def setOut (f : Field) (n : Nat) (o : FOut) : Field := { f with outs := SMap.store f.outs n o out0 }
def portOf (f : Field) (p : Nat) : FPort := SMap.at' f.ports p (port0 p)
def setPort (f : Field) (p : Nat) (x : FPort) : Field := { f with ports := SMap.store f.ports p x (port0 p) }

/-- The index of a port's object: CAN FD 0 to 3, T1S 0 and 1, 100BASE-TX (R102, R155, R157). -/
def portIdx (p : Nat) : Nat := if p < 4 then 0x1200 + p else if p = 4 then 0x1210 else if p = 5 then 0x1211 else 0x1220
def portOn (f : Field) (p : Nat) : Bool := f.run && decide (fset f (portIdx p) 1 = 1)

/-- CANn_STB, low while the controller is enabled (R150), and AREF_OUT, driven where AREF enable is set (R473). -/
def canStb (f : Field) (n : Nat) : Bool := !portOn f n
def arefOut (f : Field) : Bool := f.run && decide (fset f 0xDB30 5 = 1)

/-- A frame dropped at a port (R144, R152). -/
def drop' (f : Field) (p : Nat) : Field :=
  let x := portOf f p
  { setPort f p { x with dropped := sat32 x.dropped 1 } with framesDropped := sat32 f.framesDropped 1 }

def countRx (f : Field) (p : Nat) : Field := let x := portOf f p; setPort f p { x with received := sat32 x.received 1 }
def countTx (f : Field) (p : Nat) : Field := let x := portOf f p; setPort f p { x with sent := sat32 x.sent 1 }

/-- Field time in 50 us ticks (R467). -/
def tick (f : Field) : Nat := f.time / 50 % 4294967296

/-! Reports (R171). -/

/-- Outputs conducting and faulted, and inputs active. -/
def maskOf (n : Nat) (p : Nat → Bool) : Nat := ((List.range n).map fun i => if p i then 2 ^ i else 0).sum
def conducting (f : Field) : Nat := maskOf 8 fun i => (outOf f i).conducting
def faults (f : Field) : Nat := maskOf 8 fun i => (outOf f i).fault
def active (f : Field) : Nat := maskOf 16 fun i => match SMap.look f.ins i with
  | some x => x.r
  | none => false

/-- Status bits [2:0] of 0x1F01.08. -/
def status (f : Field) : Nat := (if f.run then 1 else 0) + (if f.uv then 2 else 0) + (if f.toggle then 4 else 0)

def report (f : Field) : FieldReport :=
  ⟨BitVec.ofNat 8 (conducting f), BitVec.ofNat 8 (faults f), BitVec.ofNat 16 (active f), f.vguard, f.temp, BitVec.ofNat 3 (status f),
   BitVec.ofNat 32 (min (f.time / 1000000) 0xFFFFFFFF), BitVec.ofNat 32 f.framesDropped, BitVec.ofNat 32 f.cellsDropped⟩

/-- Bytes of a lane-0 message, for the wake buffer (R520). -/
def wakeSize : Lane0 → Nat
  | .bdpReq _ m => m.length + 2
  | .chfUp m => m.length
  | .inputEvent e => 6 * e.length
  | .analogSense _ _ => 12
  | .fieldReport _ => 24
  | _ => 16

def wakeUsed (f : Field) : Nat := (f.wake.map wakeSize).sum

/-- A lane-0 message is queued, or held in the wake buffer while the core die sleeps, with two IDLE cells at the first
(R520); without a link it is lost. While the core die hibernates at most 64 input entries are kept (R522). -/
def send (f : Field) (m : Lane0) : Field :=
  if f.notice = 1 ∧ f.link = 2 then
    if wakeUsed f + wakeSize m > 65536 then { f with framesDropped := sat32 f.framesDropped 1 }
    else
      let f1 := { f with wake := f.wake ++ [m] }
      if f.wake = [] then { f1 with lane0 := f1.lane0 ++ [.idle, .idle] } else f1
  else if f.link = 2 then { f with lane0 := f.lane0 ++ [m] }
  else f

/-- The change-driven FIELD_REPORT: sent when bytes 0 to 3 or 10 differ from those of g (R171). -/
def reportChange (g f : Field) : Field :=
  if conducting g = conducting f ∧ faults g = faults f ∧ active g = active f ∧ status g = status f then f
  else send f (.fieldReport (report f))

/-! Guard outputs (R459, R460). -/

/-- Output n begins to conduct. -/
def conduct (f : Field) (n : Nat) : Field :=
  let o := outOf f n
  setOut f n { o with conducting := true, first := some (o.first.getD f.time), since := some f.time, tripped := none }

/-- Commanded on: the trip latch cleared, the retry count restarted, a new pulse. -/
def turnOn (f : Field) (n : Nat) : Field :=
  let o := outOf f n
  if o.on ∧ o.conducting then setOut f n { o with retries := 0, tripped := none }
  else if f.vguardOk then conduct (setOut f n { o with on := true, fault := false, retries := 0, first := none }) n
  else setOut f n { o with retries := 0, tripped := none }

/-- Off at once, with its trip latch cleared. -/
def turnOff (f : Field) (n : Nat) : Field := setOut f n out0

/-- Every output off, its timers and latches cleared (R463). -/
def cutOutputs (f : Field) : Field := { f with outs := [] }

/-- PERMIT_OUT driven low at once (R464). -/
def stopWave (f : Field) : Field := { f with wave := false, permitOut := false }

/-- Everything cut and every command discarded (R175, R463). -/
def cutAll (f : Field) : Field := { stopWave (cutOutputs f) with permitCmd := false }

/-- GUARD_SET (R454, R457 to R459): turns on only while the toggle is live and the link is up. -/
def guardSet (f : Field) (mask on permit : Nat) : Field :=
  let able := f.toggle && decide (f.link = 2) && f.run
  let f1 := (List.range 8).foldl (fun g n =>
    if bit mask n then (if bit on n then (if able then turnOn g n else g) else turnOff g n) else g) f
  if permit = 0 then { stopWave f1 with permitCmd := false }
  else if permit = 1 ∧ able then { f1 with permitCmd := true }
  else f1

/-- A trip of output n (R460). -/
def trip (f : Field) (n : Nat) : Field :=
  let o := outOf f n
  if !o.conducting then f
  else
    let last := decide (o.retries ≥ fset f (0xDB00 + n) 3)
    setOut f n { o with conducting := false, fault := true, since := none, tripped := if last then none else some f.time }

/-- The retry of output n (R460). -/
def retry (f : Field) (n : Nat) : Field :=
  let o := outOf f n
  match o.tripped with
  | none => f
  | some t =>
    if f.time < t + fset f (0xDB00 + n) 4 * 1000 ∨ !o.on then f
    else conduct (setOut f n { o with retries := o.retries + 1 }) n

/-- The fault bit clears after 100 ms of conducting (R460). -/
def clearFault (f : Field) (n : Nat) : Field :=
  let o := outOf f n
  match o.since with
  | none => f
  | some t => if f.time < t + 100000 ∨ !o.fault then f else setOut f n { o with fault := false, retries := 0 }

/-- The end of a pulse (R459). -/
def endPulse (f : Field) (n : Nat) : Field :=
  let o := outOf f n
  let p := fset f (0xDB00 + n) 2
  match o.first with
  | none => f
  | some t => if p = 0 ∨ f.time < t + p * 1000 then f
    else setOut f n { o with on := false, conducting := false, first := none, since := none, tripped := none }

/-! Guard inputs (R466 to R468). -/

/-- An entry joins those that wait; an INPUT_EVENT carries up to 4 (R455, R171). -/
def entry (f : Field) (n : Fin 16) (e : Nat) : Field :=
  { f with events := f.events ++ [⟨n, BitVec.ofNat 8 e, BitVec.ofNat 32 (tick f)⟩] }

/-- raise(level) of R467. -/
def raise (f : Field) (n : Fin 16) (x : FIn) (level : Bool) : Field :=
  let y := { x with r := level, win := some (tick f), active := if level then some (tick f) else none, stuck := if level then x.stuck else false }
  entry { f with ins := SMap.put f.ins n y } n (if level then 1 else 2)

/-- One sample of input n (R467). -/
def sample (f : Field) (levels : BitVec 16) (n : Fin 16) : Field :=
  let s := xor (levels.getLsbD n) (decide (fset f (0xDB10 + n.val) 6 = 1))
  match SMap.look f.ins n with
  | none => { f with ins := SMap.put f.ins n ⟨s, s, 0, none, false, if s then some (tick f) else none, false⟩ }
  | some x =>
    if s = x.f then { f with ins := SMap.put f.ins n { x with run := 0 } }
    else if x.run + 1 < fset f (0xDB10 + n.val) 3 then { f with ins := SMap.put f.ins n { x with run := x.run + 1 } }
    else
      let y := { x with f := s, run := 0 }
      match x.win with
      | none => raise { f with ins := SMap.put f.ins n y } n y s
      | some _ => { f with ins := SMap.put f.ins n { y with suppressed := true } }

/-- The close of an input's event window (R467). -/
def closeWindow (f : Field) (n : Fin 16) : Field :=
  match SMap.look f.ins n with
  | none => f
  | some x =>
    match x.win with
    | none => f
    | some t =>
      if (tick f + 4294967296 - t) % 4294967296 < fset f (0xDB10 + n.val) 4 * 20 then f
      else
        let y := { x with win := none, suppressed := false }
        let f1 := { f with ins := SMap.put f.ins n y }
        let f2 := if x.suppressed then entry f1 n 4 else f1
        if x.f ≠ x.r then raise f2 n y x.f else f2

/-- The stuck time (R468). -/
def stuckTime (f : Field) (n : Fin 16) : Field :=
  let st := fset f (0xDB10 + n.val) 5
  match SMap.look f.ins n with
  | none => f
  | some x =>
    match x.active with
    | none => f
    | some t =>
      if st = 0 ∨ x.stuck ∨ !x.r ∨ (tick f + 4294967296 - t) % 4294967296 < st * 20000 then f
      else entry { f with ins := SMap.put f.ins n { x with stuck := true } } n 3

/-- Entries split into cells of 4. -/
def entryCells : Nat → List InputEntry → List Lane0
  | 0, _ => []
  | _, [] => []
  | k + 1, e => .inputEvent (e.take 4) :: entryCells k (e.drop 4)

/-- Pending entries sent, ahead of the FIELD_REPORT for the same change (R455); without a link they wait only while the core
die hibernates, at most 64 (R522). -/
def sendEvents (f : Field) : Field :=
  if f.events = [] then f
  else if f.link = 2 then
    (entryCells f.events.length f.events).foldl send { f with events := [] }
  else if f.notice = 2 then { f with events := f.events.take 64 }
  else { f with events := [] }

/-! The networks. -/

/-- The smallest CAN FD data length that holds n bytes (R148). -/
def canLen (n : Nat) : Nat := ([0, 1, 2, 3, 4, 5, 6, 7, 8, 12, 16, 20, 24, 32, 48, 64].find? fun k => n ≤ k).getD 64

/-- A data field padded with 0x00 to the smallest length that holds it (R148). -/
def canPad (b : Bytes) : Bytes := fitBytes (canLen b.length) b

/-- BRS, set when the data bit rate exceeds the nominal rate (R145). -/
def brs (f : Field) (c : Nat) : Bool := decide (fset f (0x1200 + c) 2 < fset f (0x1200 + c) 3)

/-- ESI, sent per the controller's error state: set while it is error passive (R145, R155). -/
def esi (f : Field) (c : Nat) : Bool := decide ((portOf f c).state = 1)

/-- The data fields that carry a BDP message (R147): one SINGLE, or a FIRST and its CONSECUTIVE frames. -/
def canBdp (m : Bytes) : List Bytes :=
  if m.length ≤ 61 then [canPad ([0x00] ++ leBytes 2 m.length ++ m)]
  else
    let rest := chunks 63 (m.drop 61)
    canPad ([0x40] ++ leBytes 2 m.length ++ m.take 61) ::
      (List.range rest.length).map fun i => canPad (BitVec.ofNat 8 (0x80 + (i + 1) % 16) :: rest.getD i [])

/-- An Ethernet-class frame to a MAC address (R151). -/
def ethFrame (f : Field) (p : Nat) (dst : Bytes) (kind : Nat) (content : Bytes) : Bytes :=
  let b := dst ++ fsetBytes f (portIdx p) 2 ++ [0x88, 0xB5, BitVec.ofNat 8 kind, 0] ++ leBytes 2 content.length ++ content
  if content.length + 4 < 46 then fitBytes 60 b else b

/-- Whether a controller may exchange frames: enabled and not bus-off. -/
def canOn (f : Field) (c : Nat) : Bool := portOn f c && decide ((portOf f c).state ≠ 2)

/-- The MAC address of a client node of an Ethernet-class port (R158). -/
def clientMac (f : Field) (p node : Nat) : Bytes := fsetBytes f (0x1230 + (p - 4)) node

/-- What leaves on a port for a node: CAN FD frames of an identifier, or one Ethernet-class frame of a kind. Nothing leaves on a
port that is off or bus-off, nor for a node that the client table no longer lists; a 100BASE-TX port whose link is down counts as on (log 94). -/
def transmit (f : Field) (p node id kind : Nat) (fields : List Bytes) (content : Bytes) : Field :=
  if p < 4 then
    if canOn f p then
      let x := portOf f p
      { setPort f p { x with sent := sat32 x.sent fields.length } with net := f.net ++ fields.map fun d => .can p (id + node) (brs f p) (esi f p) d }
    else f
  else if portOn f p ∧ clientMac f p node ≠ zeros 6 then
    { countTx f p with net := f.net ++ [.eth p (ethFrame f p (clientMac f p node) kind content)] }
  else f

/-- A BDP message leaves on a port for a node (R146, R147, R151). -/
def sendBdp (f : Field) (p node : Nat) (m : Bytes) : Field := transmit f p node 0x300 1 (canBdp m) m

/-- A channel frame leaves on a port for a node (R148, R151, R221). -/
def sendFrame (f : Field) (p node : Nat) (b : Bytes) : Field := transmit f p node 0x100 2 [canPad b] b

/-- The field die's own answer to a client while the core die is absent or keying (R162). -/
def localValue (f : Field) (i k : Nat) : Option Bytes :=
  let r := report f
  match i, k with
  | 0x1F00, 1 => some (fitBytes 16 Config.fieldSerial)
  | 0x1F00, 2 => some (leBytes 4 Config.fieldRomVersion)
  | 0x1F00, 3 => some (leBytes 4 0x2820)
  | 0x1F00, 4 => some (leBytes 1 f.link)
  | 0x1F00, 5 => some (leBytes 1 f.cause)
  | 0x1F01, 1 => some (leBytes 4 (s20Ext r.vguard))
  | 0x1F01, 2 => some (leBytes 4 (s20Ext r.temp))
  | 0x1F01, 3 => some (leBytes 1 r.conducting.toNat)
  | 0x1F01, 4 => some (leBytes 2 r.inputs.toNat)
  | 0x1F01, 5 => some (leBytes 4 r.seconds.toNat)
  | 0x1F01, 6 => some (leBytes 4 r.dropped.toNat)
  | 0x1F01, 7 => some (leBytes 4 r.cellsDropped.toNat)
  | 0x1F01, 8 => some (leBytes 4 r.status.toNat)
  | _, _ => none

/-- The description of a local object: type, access, role, attributes, size (R105). -/
def describe (d : Desc) : Bytes :=
  [BitVec.ofNat 8 d.ty.code, BitVec.ofNat 8 d.acc.code, BitVec.ofNat 8 d.role.code,
   (if d.pers then 1 else 0) + (if d.longOp then 2 else 0)] ++ leBytes 4 d.size

def localAnswer (f : Field) (m : Bytes) : Bytes :=
  let svc := (m.getD 0 0).toNat
  let i := leNat ((m.drop 4).take 2)
  let k := (m.getD 6 0).toNat
  let body := if svc = 1 then (match localValue f i k with
      | some v => leBytes 2 v.length ++ v
      | none => [])
    else if svc = 0x20 then (match localValue f i k, (Dict.find i k).2 with
      | some _, some d => describe d
      | _, _ => [])
    else []
  [BitVec.ofNat 8 (svc ||| 0x80), (m.getD 1 0) &&& 0xFE] ++ (m.drop 2).take 6 ++ leBytes 4 Abt.coreAbsent ++ body

/-- A complete BDP message from a client: across the barrier, or answered here (R162, R173). -/
def bdpIn (f : Field) (p node : Nat) (m : Bytes) : Field :=
  if f.link = 2 then send f (.bdpReq (0x8000 + p * 256 + node) m)
  else sendBdp { f with lane0 := if f.notice = 2 ∧ f.link = 0 then f.lane0 ++ [.hello 0 (Config.fieldRomVersion % 2 ^ 32) f.gen f.cause] else f.lane0 }
    p node (localAnswer f m)

/-- An upstream channel frame: only on its own route (R170). -/
def frameIn (f : Field) (p node : Nat) (b : Bytes) : Field :=
  let n := leNat ((b.drop 2).take 2) % 0x8000
  if SMap.look f.routes n = some (p * 256 + node) then send (countRx f p) (.chfUp b) else drop' f p

/-- Bytes past n are padding of 0x00 and the frame is no longer than needed (R148). -/
def padOk (data : Bytes) (n : Nat) : Bool := decide (data.length = canLen n) && (data.drop n).all (· = 0)

def reasmKey (c node : Nat) : Nat := c * 256 + node
def endReasm (f : Field) (c node : Nat) : Field := { f with reasm := SMap.del f.reasm (reasmKey c node) }

/-- A new message of the same node discards the one in assembly (R149). -/
def freshReasm (f : Field) (c node : Nat) : Field :=
  if (SMap.look f.reasm (reasmKey c node)).isSome then drop' (endReasm f c node) c else f

/-- A CAN FD frame is accepted at all: the controller is on the bus, and the node is 0x01 to 0x7F (R146). -/
def nodeOk (node : Nat) : Bool := decide (1 ≤ node ∧ node ≤ 0x7F)

/-- SINGLE (R147). A frame whose reserved control bits are not zero is dropped and counted, and one that is malformed discards the reassembly
open for its sender too: no rule says what the receiver does (DESIGN CHOICE, log 129). -/
def canSingle (f : Field) (c node : Nat) (d : Bytes) : Field :=
  if !canOn f c then f
  else if !nodeOk node then drop' f c
  else
    let f := freshReasm f c node
    let l := leNat ((d.drop 1).take 2)
    if d.length < 3 ∨ (d.getD 0 0).toNat ≠ 0 ∨ l < 8 ∨ l > 61 ∨ !padOk d (l + 3) then drop' f c
    else bdpIn (countRx f c) c node ((d.drop 3).take l)

/-- FIRST (R147, R149); reserved control bits and malformed frames as for SINGLE (log 129). -/
def canFirst (f : Field) (c node : Nat) (d : Bytes) : Field :=
  if !canOn f c then f
  else if !nodeOk node then drop' f c
  else
    let f := freshReasm f c node
    let l := leNat ((d.drop 1).take 2)
    if d.length ≠ 64 ∨ (d.getD 0 0).toNat ≠ 0x40 ∨ l < 62 ∨ l > 1054 then drop' f c
    else if f.reasm.length ≥ 32 then drop' f c
    else countRx { f with reasm := SMap.put f.reasm (reasmKey c node) ⟨l, d.drop 3, 1, f.time⟩ } c

/-- CONSECUTIVE (R147, R149). One for which no reassembly is open is dropped and counted, as is one with reserved control bits (DESIGN CHOICE,
log 129). -/
def canConsecutive (f : Field) (c node : Nat) (d : Bytes) : Field :=
  if !canOn f c then f
  else if !nodeOk node then drop' f c
  else match SMap.look f.reasm (reasmKey c node) with
    | none => drop' f c
    | some x =>
      let rest := x.len - x.data.length
      let ctl := (d.getD 0 0).toNat
      let bad := decide (ctl / 16 ≠ 8) || decide (ctl % 16 ≠ x.next) || decide (f.time > x.time + 20000) ||
        (if rest > 63 then decide (d.length ≠ 64) else !padOk d (rest + 1))
      if bad then drop' (endReasm f c node) c
      else if rest > 63 then
        countRx { f with reasm := SMap.put f.reasm (reasmKey c node) ⟨x.len, x.data ++ d.drop 1, (x.next + 1) % 16, f.time⟩ } c
      else bdpIn (countRx (endReasm f c node) c) c node (x.data ++ (d.drop 1).take rest)

/-- A channel frame in one CAN FD frame (R148, R221). -/
def canChannel (f : Field) (c node : Nat) (d : Bytes) : Field :=
  if !canOn f c then f
  else if !nodeOk node then drop' f c
  else
    let l := (d.getD 1 0).toNat
    if l > 64 ∨ !padOk d l then drop' f c
    else frameIn f c node (d.take l)

/-- A data length that some DLC gives (R148). -/
def dlcOk (n : Nat) : Bool := decide (canLen n = n)

/-- A frame of identifier 0x280 + node, by the kind of its control byte (R147). A data field of a length that no DLC gives
stands for a frame that ended in a protocol exception (R145, log 95): it is counted and nothing else happens. -/
def canBdpIn (f : Field) (c node : Nat) (d : Bytes) : Field :=
  if !dlcOk d.length then (if canOn f c then drop' f c else f)
  else match (d.getD 0 0).toNat / 64 with
    | 0 => canSingle f c node d
    | 1 => canFirst f c node d
    | 2 => canConsecutive f c node d
    | _ => if canOn f c then drop' f c else f

/-- A frame of identifier 0x180 + node (R146). -/
def canFrameIn (f : Field) (c node : Nat) (d : Bytes) : Field :=
  if dlcOk d.length then canChannel f c node d else if canOn f c then drop' f c else f

/-- The client table index of a port, and the node a source address is listed as (R152, R158). -/
def nodeOfMac (f : Field) (p : Nat) (mac : Bytes) : Option Nat :=
  if mac = zeros 6 then none
  else ((List.range 0x7F).map (· + 1)).find? fun k => fsetBytes f (0x1230 + (p - 4)) k = mac

/-- An Ethernet-class frame (R151, R152): the source node and the content, or what becomes of the frame. -/
def ethContent (f : Field) (p : Nat) (e : Bytes) : Except Bool (Nat × Nat × Bytes) :=
  let own := fsetBytes f (portIdx p) 2
  let etype := beNat ((e.drop 12).take 2)
  if e.take 6 ≠ own then .error false
  else if etype = 0x8100 then .error true
  else if etype ≠ 0x88B5 then .error false
  else match nodeOfMac f p ((e.drop 6).take 6) with
    | none => .error true
    | some node =>
      let n := leNat ((e.drop 16).take 2)
      let c := (e.drop 18).take n
      let kind := (e.getD 14 0).toNat
      if e.length < 18 ∨ e.length > 1514 ∨ (kind ≠ 1 ∧ kind ≠ 2) ∨ e.getD 15 0 ≠ 0 ∨ c.length ≠ n then .error true
      else if n + 4 < 46 then (if e.length = 60 ∧ (e.drop (18 + n)).all (· = 0) then .ok (node, kind, c) else .error true)
      else if e.length = 18 + n then .ok (node, kind, c) else .error true

/-- An Ethernet-class frame, by the kind of its header: an error with true drops and counts, with false ignores. A channel frame
crosses with whatever Length it states, which the core die checks (R221). -/
def ethIn (f : Field) (p : Nat) (e : Bytes) : Field :=
  if !portOn f p then f
  else match ethContent f p e with
    | .error true => drop' f p
    | .error false => f
    | .ok (node, kind, c) =>
      if kind = 1 then (if 8 ≤ c.length ∧ c.length ≤ 1054 then bdpIn (countRx f p) p node c else drop' f p)
      else frameIn f p node c

/-- NET_STATUS of a port (R171). -/
def netStatus (f : Field) (p : Fin 7) : NetStatus :=
  let x := portOf f p
  ⟨p, BitVec.ofNat 8 x.state, BitVec.ofNat 8 x.tec, BitVec.ofNat 8 x.recv, BitVec.ofNat 32 x.received, BitVec.ofNat 32 x.sent, BitVec.ofNat 32 x.dropped⟩

/-! The link. -/

/-- Leaving the link-up state (R175). -/
def leaveLink (f : Field) (next : Nat) : Field :=
  { cutAll f with link := next, routes := [], ready := [], lane0 := [], rx := lane0, sent := 0, key := none }

/-- The state of a port that has just been enabled: error active, PLCA without beacon or CSMA/CD, and link down (R155, R157). -/
def startState (f : Field) (p : Nat) : Nat := if p < 4 then 0 else if p < 6 ∧ fset f (portIdx p) 3 = 1 then 3 else 1

/-- Enable as the settings now say it, with NET_STATUS where the state changes (R171). -/
def applyEnable (f : Field) (p : Nat) : Field :=
  let x := portOf f p
  let off := if p < 4 then 3 else 0
  let st := if fset f (portIdx p) 1 ≠ 1 then off else if x.state = off then startState f p else x.state
  if st = x.state then f
  else
    let g := setPort f p { x with state := st, recovering := false }
    send g (.netStatus (netStatus g (Fin.ofNat 7 p)))

/-- The settings received since the last commit written and applied, with their generation (R172). -/
def commit (f : Field) (gen : Nat) : Field :=
  let nv := f.staged.foldl (fun m p => SMap.put m p.1 p.2) f.nv
  (List.range 7).foldl applyEnable { f with nv := nv, gen := gen, staged := [] }

/-- A field-die reset (R77, R93): outputs cut, everything volatile at its start. -/
def reset (f : Field) (cause : Nat) (run : Bool) : Field :=
  let g : Field := { f with
    run := run, cause := cause, time := 0, toggle := false, link := 0, b := 0, key := none, rx := lane0, sent := 0,
    cellsDropped := 0, framesDropped := 0, lane0 := [], ready := [], routes := [], staged := [], outs := [],
    permitCmd := false, wave := false, permitOut := false, ins := [], events := [], ports := [], reasm := [],
    notice := 0, wake := [], uv := !f.vguardOk, heard := 0, spoke := 0, due := ⟨0, 0, 0, 0, 0⟩ }
  if run then commit { g with staged := [] } f.gen else g

end Fld

/-- The field-die part of the state changed. -/
def onField (s : State) (g : Field → Field) : State := { s with field := g s.field }

/-- The same while the field die runs; a change of its report bytes sends a FIELD_REPORT (R171). -/
def whenField (s : State) (g : Field → Field) : State :=
  if s.field.run then { s with field := Fld.reportChange s.field (g s.field) } else s

end Sys2Proof.Machine
end

