-- ==== Sys2Proof/Machine/BarOps.lean ====
section
/-! DEFINITION. The barrier link (R163 to R178) at both ends: cells, the sequence window and assembly, bring-up and loss,
the settings carried to the field die, and what the report cells do in their admissions (R457 to R473). -/

namespace Sys2Proof.Machine

namespace Bar

/-! Cells (R163 to R167). -/

structure CellHdr where
  type : Nat
  pos : Nat
  len : Nat
  rsv : Nat
  seq : Nat
  payload : Bytes
  pad : Bytes
  tag : Bytes

def parse (c : Bytes) : CellHdr :=
  let ctl := (c.getD 1 0).toNat
  ⟨(c.getD 0 0).toNat, ctl / 64, ctl % 32, ctl / 32 % 2, leNat ((c.drop 2).take 2), (c.drop 4).take (ctl % 32),
   ((c.drop 4).take 24).drop (ctl % 32), (c.drop 28).take 4⟩

/-- The tag of a cell (R165): the first 4 bytes of CMAC under K_link. -/
def tag (key : Bytes) (x lane : Nat) (cell28 : Bytes) : Bytes :=
  (cmac key (beBytes 8 x ++ [BitVec.ofNat 8 lane] ++ cell28)).take 4

/-- The first 28 bytes of a single cell. -/
def cell28 (type seq : Nat) (payload : Bytes) : Bytes :=
  [BitVec.ofNat 8 type, BitVec.ofNat 8 payload.length] ++ leBytes 2 seq ++ fitBytes 24 payload

/-- Signed 20 bits packed into 3 bytes (R171). No rule says what the upper 4 bits of the third byte hold: here they repeat the sign,
and the receiver ignores them (DESIGN CHOICE, log 97). -/
def pack20 (x : BitVec 20) : Bytes := leBytes 3 (x.signExtend 24).toNat
def unpack20 (b : Bytes) : BitVec 20 := BitVec.ofNat 20 (leNat (b.take 3))

def n4 (b : Bytes) (i : Nat) : Nat := leNat ((b.drop i).take 4)
def n1 (b : Bytes) (i : Nat) : Nat := (b.getD i 0).toNat

/-- An analog reading with the OVERRANGE mark of its interval (R471). R171 gives the mark no place of its own: here the upper 4 bits of the
third byte do not agree with the sign where it is set (DESIGN CHOICE, log 33). -/
def packOver (x : BitVec 20) (ovr : Bool) : Bytes := leBytes 3 ((x.signExtend 24).toNat ^^^ (if ovr then 0xF00000 else 0))
def overMark (b : Bytes) : Bool := decide (bit (leNat (b.take 3)) 23 ≠ bit (leNat (b.take 3)) 19)

/-- The marks of an ANALOG_SENSE cell, bit n for input n. -/
def overMask (cs : List Bytes) : Nat := ((List.range cs.length).map fun i => if overMark (cs.getD i []) then 2 ^ i else 0).sum

/-- A single-cell message of lane 0 (R171, R174): none where the payload breaks its layout. -/
def msg0 (h : CellHdr) : Option Lane0 :=
  let b := h.payload
  match h.type with
  | 0x01 => if h.len = 13 then some (.hello (n4 b 0) (n4 b 4) (n4 b 8) (n1 b 12)) else none
  | 0x03 => if h.len = 4 then some (.keyAck (n4 b 0) h.tag) else none
  | 0x04 => if b = [0] then some .idle else none
  | 0x31 =>
    if h.len = 24 ∧ n1 b 11 = 0 ∧ n1 b 10 < 8 then
      some (.fieldReport ⟨b.getD 0 0, b.getD 1 0, BitVec.ofNat 16 (leNat ((b.drop 2).take 2)), unpack20 (b.drop 4), unpack20 (b.drop 7),
        BitVec.ofNat 3 (n1 b 10), BitVec.ofNat 32 (n4 b 12), BitVec.ofNat 32 (n4 b 16), BitVec.ofNat 32 (n4 b 20)⟩)
    else none
  | 0x32 =>
    let es := chunks 6 b
    if h.len % 6 = 0 ∧ 1 ≤ es.length ∧ es.all (fun e => decide (n1 e 0 < 16 ∧ 1 ≤ n1 e 1 ∧ n1 e 1 ≤ 4)) then
      some (.inputEvent (es.map fun e => ⟨Fin.ofNat 16 (n1 e 0), e.getD 1 0, BitVec.ofNat 32 (n4 e 2)⟩))
    else none
  | 0x33 => if h.len = 24 then some (.outputSense ((chunks 3 b).map fun x => (unpack20 x).toNat)) else none
  | 0x34 =>
    if h.len = 12 then
      let cs := chunks 3 b
      some (.analogSense (cs.map fun c => (unpack20 c).toNat) (overMask cs))
    else none
  | 0x35 =>
    if h.len = 16 ∧ n1 b 0 < 7 then
      some (.netStatus ⟨Fin.ofNat 7 (n1 b 0), b.getD 1 0, b.getD 2 0, b.getD 3 0, BitVec.ofNat 32 (n4 b 4), BitVec.ofNat 32 (n4 b 8),
        BitVec.ofNat 32 (n4 b 12)⟩)
    else none
  | _ => none

/-- A ROUTE entry with its reserved bits clear (R170). -/
def routeOk (e : Bytes) : Bool := decide (leNat ((e.drop 2).take 2) &&& 0xF880 = 0)

/-- A NET_CONFIG setting (R172, R519, R156). -/
def setting (idx sub : Nat) (v : Bytes) : Lane1 :=
  if idx = 0 ∧ sub = 0 ∧ v.length = 4 then .netCommit (leNat v)
  else if idx = 0 ∧ sub = 1 ∧ v.length = 1 then .power (leNat v)
  else if 0x1200 ≤ idx ∧ idx ≤ 0x1203 ∧ sub = 8 then .recover (idx - 0x1200)
  else .netConfig idx sub v

/-- A single-cell message of lane 1. -/
def msg1 (h : CellHdr) : Option Lane1 :=
  let b := h.payload
  match h.type with
  | 0x81 => if h.len = 8 then some (.hello (n4 b 0) (n4 b 4)) else none
  | 0x82 => if h.len = 20 then some (.key (b.take 16) (n4 b 16) h.tag) else none
  | 0x84 => if b = [0] then some .idle else none
  | 0xA2 =>
    let es := chunks 4 b
    if h.len % 4 = 0 ∧ es.all routeOk then some (.route (es.map fun e => (leNat (e.take 2), leNat ((e.drop 2).take 2)))) else none
  | 0xB1 => if h.len = 3 ∧ (n1 b 2 < 2 ∨ n1 b 2 = 0xFF) then some (.guardSet (n1 b 0) (n1 b 1) (n1 b 2)) else none
  | 0xC1 => if n1 b 3 + 4 = h.len ∧ 1 ≤ n1 b 3 then some (setting (leNat (b.take 2)) (n1 b 2) (b.drop 4)) else none
  | _ => none

/-! What a message is in cells (R163 to R165, R168 to R174). -/

def type0 : Lane0 → Nat
  | .hello _ _ _ _ => 0x01
  | .keyAck _ _ => 0x03
  | .idle => 0x04
  | .bdpReq _ _ => 0x11
  | .chfUp _ => 0x21
  | .fieldReport _ => 0x31
  | .inputEvent _ => 0x32
  | .outputSense _ => 0x33
  | .analogSense _ _ => 0x34
  | .netStatus _ => 0x35

/-- The payload of a lane-0 message, over all its cells. -/
def payload0 : Lane0 → Bytes
  | .hello b rom gen cause => leBytes 4 b ++ leBytes 4 rom ++ leBytes 4 gen ++ leBytes 1 cause
  | .keyAck b _ => leBytes 4 b
  | .idle => [0]
  | .bdpReq o m => leBytes 2 o ++ m
  | .chfUp f => f
  | .fieldReport p => [p.conducting, p.faults] ++ leBytes 2 p.inputs.toNat ++ pack20 p.vguard ++ pack20 p.temp ++ leBytes 1 p.status.toNat ++ [0] ++
      leBytes 4 p.seconds.toNat ++ leBytes 4 p.dropped.toNat ++ leBytes 4 p.cellsDropped.toNat
  | .inputEvent es => es.flatMap fun e => leBytes 1 e.input.val ++ [e.event] ++ leBytes 4 e.time.toNat
  | .outputSense xs => xs.flatMap fun x => pack20 (BitVec.ofNat 20 x)
  | .analogSense xs ovr => (List.range xs.length).flatMap fun n => packOver (BitVec.ofNat 20 (xs.getD n 0)) (bit ovr n)
  | .netStatus p => leBytes 1 p.port.val ++ [p.state, p.tec, p.recv] ++ leBytes 4 p.received.toNat ++ leBytes 4 p.sent.toNat ++
      leBytes 4 p.dropped.toNat

def type1 : Lane1 → Nat
  | .hello _ _ => 0x81
  | .key _ _ _ => 0x82
  | .idle => 0x84
  | .bdpResp _ _ => 0x91
  | .chfDown _ => 0xA1
  | .route _ => 0xA2
  | .guardSet _ _ _ => 0xB1
  | .netConfig _ _ _ | .netCommit _ | .power _ | .recover _ => 0xC1

/-- A NET_CONFIG payload (R172). -/
def settingCell (idx sub : Nat) (v : Bytes) : Bytes := leBytes 2 idx ++ leBytes 1 sub ++ leBytes 1 v.length ++ v

/-- The payload of a lane-1 message, over all its cells. -/
def payload1 : Lane1 → Bytes
  | .hello b fw => leBytes 4 b ++ leBytes 4 fw
  | .key k b _ => fitBytes 16 k ++ leBytes 4 b
  | .idle => [0]
  | .bdpResp o m => leBytes 2 o ++ m
  | .chfDown f => f
  | .route es => es.flatMap fun e => leBytes 2 e.1 ++ leBytes 2 e.2
  | .guardSet mask on permit => leBytes 1 mask ++ leBytes 1 on ++ leBytes 1 permit
  | .netConfig i k v => settingCell i k v
  | .netCommit g => settingCell 0 0 (leBytes 4 g)
  | .power v => settingCell 0 1 (leBytes 1 v)
  | .recover c => settingCell (0x1200 + c) 8 [1]

/-- The position of cell i of n (R163). -/
def position (i n : Nat) : Nat := if n = 1 then 0 else if i = 0 then 1 else if i + 1 = n then 3 else 2

/-- A payload in cells of a type: the first has extended sequence x (R163, R165, R168). -/
def formCells (lane : Nat) (key : Bytes) (x type : Nat) (p : Bytes) : List Bytes :=
  let parts := chunks 24 p
  (List.range parts.length).map fun i =>
    let d := parts.getD i []
    let c := [BitVec.ofNat 8 type, BitVec.ofNat 8 (position i parts.length * 64 + d.length)] ++ leBytes 2 ((x + i) % 65536) ++ fitBytes 24 d
    c ++ tag key (x + i) lane c

/-- The cells of a message after extended sequence x: HELLO with sequence and tag 0, KEY and KEY_ACK with sequence 1 and the tag that
they carry (R174). -/
def cells0 (key : Bytes) (x : Nat) (m : Lane0) : List Bytes :=
  match m with
  | .hello _ _ _ _ => [cell28 0x01 0 (payload0 m) ++ zeros 4]
  | .keyAck _ t => [cell28 0x03 1 (payload0 m) ++ fitBytes 4 t]
  | _ => formCells 0 key (x + 1) (type0 m) (payload0 m)

def cells1 (key : Bytes) (x : Nat) (m : Lane1) : List Bytes :=
  match m with
  | .hello _ _ => [cell28 0x81 0 (payload1 m) ++ zeros 4]
  | .key _ _ t => [cell28 0x82 1 (payload1 m) ++ fitBytes 4 t]
  | _ => formCells 1 key (x + 1) (type1 m) (payload1 m)

/-- The extended sequence of the last cell sent, after k cells of a message. -/
def sentAfter0 (x k : Nat) : Lane0 → Nat
  | .hello _ _ _ _ => x
  | .keyAck _ _ => 1
  | _ => x + k

def sentAfter1 (x k : Nat) : Lane1 → Nat
  | .hello _ _ => x
  | .key _ _ _ => 1
  | _ => x + k

/-- Link cells: HELLO, KEY, KEY_ACK and IDLE (R169), and those that cross while the link is down. -/
def isLink0 : Lane0 → Bool
  | .hello _ _ _ _ | .keyAck _ _ | .idle => true
  | _ => false

def isLink1 : Lane1 → Bool
  | .hello _ _ | .key _ _ _ | .idle => true
  | _ => false

/-- The order in which a queue is sent (R169). The awake notice is the first cell after a wake (R519). -/
def rank0 (m : Lane0) : Nat :=
  if isLink0 m then 0 else match m with
    | .chfUp _ => 2
    | .bdpReq _ _ => 3
    | _ => 1

def rank1 (m : Lane1) : Nat :=
  if isLink1 m then 0 else match m with
    | .power 0 => 0
    | .guardSet _ _ _ => 1
    | .chfDown _ | .route _ => 2
    | _ => 3

/-- The message that a queue sends next: the oldest of the first rank. -/
def nextOf {α : Type} (rank : α → Nat) (q : List α) : Option α := (List.range 4).findSome? fun r => q.find? fun m => decide (rank m = r)

/-! The receiver of a lane (R166 to R168). -/

/-- What one cell does at its receiver: the lane, a message where one is complete, and what is counted. -/
structure Rx where
  lane : Lane
  type : Nat
  done : Option (CellHdr × Bytes)     -- a complete message: its header and its content
  accepted : Bool
  badTag : Bool
  outside : Bool
  lost : Nat
  malformed : Bool
  discarded : Nat

/-- Types that may span cells. -/
def spans (t : Nat) : Bool := decide (t = 0x11 ∨ t = 0x21 ∨ t = 0x91 ∨ t = 0xA1)

/-- The last cell count kept at most 16. -/
def dropped (l : Lane) : Lane := { l with drops := min (l.drops + 1) 16 }

/-- A cell at its receiver; alarm says that the doubled compare unit of the core die raised an alarm, which is a mismatch (R285, R286). A
cell whose tag is right is a valid cell of R175 and R176 even where R167 drops it as malformed (accepted; DESIGN CHOICE, log 124). -/
def rxCell (lane : Nat) (key : Bytes) (l : Lane) (c : Bytes) (alarm : Bool) (single : CellHdr → Bool) : Rx :=
  let h := parse c
  let d := (h.seq + 65536 - l.exp % 65536) % 65536
  let x := l.exp + d
  if c.length ≠ 32 ∨ d ≥ 1024 then ⟨dropped l, h.type, none, false, false, true, 0, false, 0⟩
  else if alarm ∨ h.tag ≠ tag key x lane (c.take 28) then ⟨dropped l, h.type, none, false, true, false, 0, false, 0⟩
  else
    let open' := if d = 0 then l.parts else []
    let lost' := if d = 0 then 0 else l.parts.length
    let l1 : Lane := ⟨x + 1, 0, open'⟩
    let listed := if lane = 0 then [0x01, 0x03, 0x04, 0x11, 0x21, 0x31, 0x32, 0x33, 0x34, 0x35].contains h.type
      else [0x81, 0x82, 0x84, 0x91, 0xA1, 0xA2, 0xB1, 0xC1].contains h.type
    let formed := listed && decide (1 ≤ h.len ∧ h.len ≤ 24) && decide (h.rsv = 0) && h.pad.all (· = 0) &&
      (if spans h.type then decide (h.type ≠ 0x11 ∧ h.type ≠ 0x91) || decide (h.pos ≥ 2 ∨ 2 ≤ h.len) else decide (h.pos = 0) && single h)
    let mine := SMap.look open' h.type
    if !formed then
      ⟨{ l1 with parts := SMap.del open' h.type }, h.type, none, true, false, false, d, true, lost' + (if mine.isSome then 1 else 0)⟩
    else if !spans h.type then ⟨l1, h.type, some (h, h.payload), true, false, false, d, false, lost'⟩
    else
      let cut := lost' + (if mine.isSome ∧ h.pos < 2 then 1 else 0)
      match h.pos, mine with
      | 0, _ => ⟨{ l1 with parts := SMap.del open' h.type }, h.type, some (h, h.payload), true, false, false, d, false, cut⟩
      | 1, _ => ⟨{ l1 with parts := SMap.put open' h.type h.payload }, h.type, none, true, false, false, d, false, cut⟩
      | _, none => ⟨l1, h.type, none, true, false, false, d, true, lost'⟩
      | 2, some p => ⟨{ l1 with parts := SMap.put open' h.type (p ++ h.payload) }, h.type, none, true, false, false, d, false, lost'⟩
      | _, some p => ⟨{ l1 with parts := SMap.del open' h.type }, h.type, some (h, p ++ h.payload), true, false, false, d, false, lost'⟩

/-- The lane-0 message of complete content. -/
def asLane0 (h : CellHdr) (b : Bytes) : Option Lane0 :=
  if h.type = 0x11 then some (.bdpReq (leNat (b.take 2)) (b.drop 2)) else if h.type = 0x21 then some (.chfUp b) else msg0 h

def asLane1 (h : CellHdr) (b : Bytes) : Option Lane1 :=
  if h.type = 0x91 then some (.bdpResp (leNat (b.take 2)) (b.drop 2)) else if h.type = 0xA1 then some (.chfDown b) else msg1 h

end Bar

def updBar (s : State) (f : Bar → Bar) : State := { s with bar := f s.bar }

/-! The permit toggle (R177, R457). -/

/-- The toggle starts where R177 lets it: the link is up, the device is at READY, no response is under way, and neither
CALDERA nor a Retire stands (R359, R500). -/
def startToggle (s : State) : State :=
  if s.bar.up ∧ s.stage = 0x11 ∧ s.tem.resp.isNone ∧ !s.boot.toggle ∧ !calderaOn s ∧ !s.seq.retiring ∧ !s.seq.failing then
    pushBack { s with boot := { s.boot with toggle := true } } (.toggle true)
  else s

def stopToggle (s : State) : State :=
  if s.boot.toggle then pushBack { s with boot := { s.boot with toggle := false } } (.toggle false) else s

/-! Bring-up and loss on the core die (R174 to R176). -/

/-- A lane as its receiver holds it at bring-up. -/
def laneStart : Lane := ⟨1, 0, []⟩

/-- The firmware version that HELLO carries: the running image's, 0 where none runs. -/
def helloVersion (s : State) : Nat := runningVersion s

/-- A bring-up attempt (R174), none in SLUMBER or HIBERNATE, which a link loss does not end (DESIGN CHOICE, log 125), 10 ms after the last or at once after a loss (R91, R176): B advances, HELLO is sent, and the start is recorded (R78). -/
def startBringup (s : State) : State :=
  if s.bar.up ∨ s.bar.trying ∨ s.stage = 0 ∨ s.power ≥ 3 ∨ s.boot.waking ∨ !(started s) ∨ s.stage < 7 ∨ s.boot.since < (s.bar.tryAt.map (· + 10000)).getD 0 then s
  else
    let b := (s.bar.b + 1) % 2 ^ 32
    let s1 := updBar s fun x => { x with b := b, trying := true, tryAt := some s.boot.since, key := none, hello := none, lane1 := x.lane1 ++ [.hello b (helloVersion s)] }
    pushFront s1 (.fieldState 1 none)

/-- Link loss (R176): the toggle stops, what is queued or incomplete is discarded and counted, and the loss is recorded. Link cells
are no messages (R178). -/
def linkLoss (s : State) : State :=
  let n := (s.bar.lane1.filter fun m => !Bar.isLink1 m).length + s.bar.rx.parts.length
  let s1 := stopToggle s
  let s2 := updBar s1 fun x => { x with up := false, trying := false, tryAt := none, key := none, hello := none, lane1 := [], rx := laneStart, sent := 0 }
  pushFront (incHw (incHw s2 0x1030 9 n) 0x1030 2 1) (.fieldState 3 none)

/-- Settings carried to the field die (R172, R456), as index and subindex. -/
def carried : List (Nat × Nat) :=
  ((List.range 4).flatMap fun n => (List.range 7).map fun k => (0x1200 + n, k + 1)) ++
    ((List.range 2).flatMap fun n => (List.range 6).map fun k => (0x1210 + n, k + 1)) ++
    ((List.range 3).map fun k => (0x1220, k + 1)) ++
    ((List.range 3).flatMap fun n => (List.range 127).map fun k => (0x1230 + n, k + 1)) ++
    ((List.range 8).flatMap fun n => (List.range 4).map fun k => (0xDB00 + n, k + 2)) ++
    ((List.range 16).flatMap fun n => (List.range 4).map fun k => (0xDB10 + n, k + 3)) ++
    ((List.range 4).flatMap fun n => (List.range 3).map fun k => (0xDB20 + n, k + 2)) ++ [(0xDB30, 4), (0xDB30, 5)]

def isCarried (i k : Nat) : Bool :=
  (decide (0x1200 ≤ i ∧ i ≤ 0x1203) && decide (1 ≤ k ∧ k ≤ 7)) || (decide (i = 0x1210 ∨ i = 0x1211) && decide (1 ≤ k ∧ k ≤ 6)) ||
  (decide (i = 0x1220) && decide (1 ≤ k ∧ k ≤ 3)) || (decide (0x1230 ≤ i ∧ i ≤ 0x1232) && decide (1 ≤ k ∧ k ≤ 127)) ||
  (decide (0xDB00 ≤ i ∧ i ≤ 0xDB07) && decide (2 ≤ k ∧ k ≤ 5)) || (decide (0xDB10 ≤ i ∧ i ≤ 0xDB1F) && decide (3 ≤ k ∧ k ≤ 6)) ||
  (decide (0xDB20 ≤ i ∧ i ≤ 0xDB23) && decide (2 ≤ k ∧ k ≤ 4)) || (decide (i = 0xDB30) && decide (k = 4 ∨ k = 5))

/-- The value of a carried setting as its cell holds it. -/
def settingBytes (s : State) (i k : Nat) : Bytes :=
  match (Dict.find i k).2 with
  | some d => (getObj s i k).bytes d.size
  | none => []

/-- What the payload of a completed bring-up carries of the field HELLO (R78, R174): its B, ROM version, generation and cause. -/
def helloBytes (hello : Option (Nat × Nat × Nat × Nat)) : Bytes :=
  match hello with
  | some (b, rom, gen, cause) => Bar.payload0 (.hello b rom gen cause)
  | none => []

/-- The whole configuration with its generation (R172). -/
def fullConfig (s : State) : List Lane1 :=
  (carried.map fun p => Lane1.netConfig p.1 p.2 (settingBytes s p.1 p.2)) ++ [.netCommit (num s 0x1030 10)]

/-- The cells that a changed setting takes with its admission: one generation more (R172). -/
def configActs (s : State) (i k : Nat) : State × List Act :=
  let g := (num s 0x1030 10 + 1) % 2 ^ 32
  let s1 := setNum s 0x1030 10 g
  (s1, [.lane1 (.netConfig i k (settingBytes s1 i k)), .lane1 (.netCommit g)])

/-- Routes of the channels still open, 6 to a cell (R170). -/
def openRoutes (s : State) : List Lane1 :=
  let es := (keyedChans s).filterMap fun p =>
    if chanState s p.1 = Ch.isOpen ∨ chanState s p.1 = Ch.rekeying ∨ chanState s p.1 = Ch.opening then some (routeEntry s p.1) else none
  let rec go : Nat → List (Nat × Nat) → List Lane1
    | 0, _ => []
    | _, [] => []
    | f + 1, x => .route (x.take 6) :: go f (x.drop 6)
  go es.length es

/-- A field HELLO at the core die (R174, R176). While a tamper response isolates the key paths no link key is drawn (R486). -/
def fieldHelloOp (s : State) (b rom gen cause : Nat) : State :=
  if s.bar.up then (if b = 0 then s else linkLoss s)
  else if s.bar.trying ∧ b = s.bar.b ∧ s.bar.hello.isNone ∧ !s.entropyDown ∧ s.tem.resp.isNone then
    let r := drawTiller 14 s 16
    let t := Bar.tag r.1 1 1 (Bar.cell28 0x82 1 (r.1 ++ leBytes 4 b))
    updBar r.2 fun x => { x with key := some r.1, hello := some (gen, rom, cause), rx := laneStart, sent := 1,
                                 lane1 := x.lane1 ++ [.key r.1 b t] }
  else s

/-- The event of a compare alarm outside any admission (R285, R286). -/
def compareAlarm (s : State) : State := sensorEvent (incHw s 0xCF20 7 1) 0x59 s.seq.time 0 0

/-- Whether a KEY_ACK is the one that the bring-up under way waits for (R174): its B, and its tag under the key sent. -/
def ackFits (s : State) (b : Nat) (t : Bytes) : Bool :=
  match s.bar.key with
  | some k => !s.bar.up && s.bar.trying && s.bar.hello.isSome && decide (b = s.bar.b ∧ t = Bar.tag k 1 0 (Bar.cell28 0x03 1 (leBytes 4 b)))
  | none => false

/-- KEY_ACK at the core die: the link is up (R174, R176). Where the notice that the core die sent last was one of sleep, the awake notice
goes first (R519). -/
def keyAckOp (s : State) (b : Nat) (t : Bytes) (phys : Phys) : State :=
  match s.bar.hello with
  | some (gen, rom, cause) =>
    if !ackFits s b t then s
    else if phys = .compare then compareAlarm s
    else
      let cfg := if gen ≠ num s 0x1030 10 then fullConfig s else []
      let awake := if s.bar.told = 0 then [] else [Lane1.power 0]
      let s1 := updBar s fun x => { x with up := true, trying := false, rx := ⟨2, 0, []⟩, sent := 1, lane1 := x.lane1 ++ awake ++ openRoutes s ++ cfg }
      startToggle (pushFront (incHw s1 0x1030 1 1) (.fieldState 2 (some (b, rom, gen, cause))))
  | none => s

/-- A lane-1 message released (R169, R176): queued, or discarded and counted while the link is down. -/
def sendLane1 (s : State) (m : Lane1) : State :=
  if s.bar.up then updBar s fun x => { x with lane1 := x.lane1 ++ [m] } else incHw s 0x1030 9 1

/-! Messages between the dies. -/

/-- Whether message m comes next at the core die: the oldest of those that its cells have already assembled, or the next that the
field die sends (R169). -/
def crosses0 (s : State) (m : Lane0) : Bool :=
  match s.bar.ready with
  | x :: _ => decide (x = m)
  | [] => (s.bar.up || Bar.isLink0 m) && s.field.run && decide (Bar.nextOf Bar.rank0 s.field.lane0 = some m)

def crosses1 (s : State) (m : Lane1) : Bool :=
  match s.field.ready with
  | x :: _ => decide (x = m)
  | [] => decide (Bar.nextOf Bar.rank1 s.bar.lane1 = some m)

/-- What a receiver that expects e makes of cells that begin at x and end before y, all intact: cells missed on the way discard what
was in assembly, and so does a message of the same class (R166, R168). The lane, the cells lost and the messages discarded. -/
def Bar.takeCells (l : Lane) (type x y : Nat) : Lane × Nat × Nat :=
  if l.exp < x then (⟨y, 0, []⟩, x - l.exp, l.parts.length)
  else (⟨y, 0, SMap.del l.parts type⟩, 0, if Bar.spans type ∧ (SMap.look l.parts type).isSome then 1 else 0)

/-- The cells of a message leave on lane 0. -/
def leave0 (s : State) (m : Lane0) : State :=
  onField s fun f =>
    let cs := Bar.cells0 (f.key.getD []) f.sent m
    { f with lane0 := f.lane0.erase m, sent := Bar.sentAfter0 f.sent cs.length m, wire := f.wire ++ cs, spoke := f.time }

/-- n lane-0 cells accepted (R178), and a tag failure, a window failure, and n lane-1 cells sent, idle ones among them, each with its count of
R555. -/
def tookCells (s : State) (n : Nat) : State := count (addHw s 0x1030 3 n) 10 0 n
def tagFailed (s : State) : State := count (incHw s 0x1030 5 1) 10 2 1
def windowFailed (s : State) : State := count (incHw s 0x1030 6 1) 10 3 1
def sentCells (s : State) (n : Nat) (idle : Bool) : State := count (count (addHw s 0x1030 4 n) 10 1 n) 10 4 (if idle then n else 0)

/-- The window of lane 0 turns away a cell of sequence 1 (R166). -/
def outsideOne (s : State) : Bool := decide (1024 ≤ (65537 - s.bar.rx.exp % 65536) % 65536)

/-- A KEY_ACK at the receiver of lane 0: accepted where it is the one of the bring-up and the compare unit agrees; else its tag, or its
sequence, fails, where there is a key to try it under (R166, R174, R178, R286). -/
def ackCell (s : State) (b : Nat) (t : Bytes) (phys : Phys) : State :=
  if ackFits s b t ∧ phys ≠ .compare then tookCells (updBar s fun x => { x with heard := s.boot.since }) 1
  else if s.bar.key.isNone then s
  else if s.bar.up ∧ outsideOne s then windowFailed s
  else tagFailed s

/-- A lane-0 message that the field die sends in cells, all of which reach the core die (R13, R163 to R169). An IDLE cell that comes while
the link is down has no key to be tried under, and is no valid cell (R166, R174). -/
def cross0 (s : State) (m : Lane0) : State :=
  let f := s.field
  let cs := Bar.cells0 (f.key.getD []) f.sent m
  let sent := Bar.sentAfter0 f.sent cs.length m
  if m = .idle ∧ !s.bar.up then leave0 s m
  else
  let s2 := updBar (tookCells (leave0 s m) cs.length) fun x => { x with heard := s.boot.since }
  if Bar.isLink0 m ∧ m ≠ .idle then s2
  else
    let r := Bar.takeCells s.bar.rx (Bar.type0 m) (f.sent + 1) (sent + 1)
    incHw (incHw (updBar s2 fun x => { x with rx := r.1 }) 0x1030 7 r.2.1) 0x1030 9 r.2.2

/-- The same on lane 1; a field die that is held, or has no link, takes nothing of it. -/
def cross1 (s : State) (m : Lane1) : State :=
  let cs := Bar.cells1 (s.bar.key.getD []) s.bar.sent m
  let sent := Bar.sentAfter1 s.bar.sent cs.length m
  let s1 := sentCells (updBar s fun x => { x with
    lane1 := x.lane1.erase m, sent := sent, wire := x.wire ++ cs, spoke := s.boot.since
    told := match m with | .power v => v | _ => x.told }) cs.length (decide (m = .idle))
  if !s.field.run then s1
  else if Bar.isLink1 m ∧ m ≠ .idle then onField s1 fun f => { f with heard := f.time }
  else if s.field.link ≠ 2 then s1
  else onField s1 fun f => { f with rx := (Bar.takeCells f.rx (Bar.type1 m) (s.bar.sent + 1) (sent + 1)).1, heard := f.time }

/-- A message that comes next at the core die on lane 0 leaves the assembled ones, or the field die's queue in its cells. -/
def arrive0 (s : State) (m : Lane0) : State := if s.bar.ready = [] then cross0 s m else updBar s fun x => { x with ready := x.ready.tail }

/-- The same on lane 1 at the field die. -/
def arrive1 (s : State) (m : Lane1) : State := if s.field.ready = [] then cross1 s m else onField s fun f => { f with ready := f.ready.tail }

/-- A HELLO cell as R174 sends it: sequence and tag 0, in the form of R163. -/
def Bar.helloCell (h : Bar.CellHdr) (c : Bytes) : Bool :=
  decide (c.length = 32 ∧ h.seq = 0 ∧ h.tag = zeros 4 ∧ h.pos = 0 ∧ h.rsv = 0) && h.pad.all (· = 0)

/-- One cell at the core die's receiver (R166 to R168, R174). A cell that the receiver accepts has come from the field die, which has then
sent one (R175). -/
def cellAtCore (s : State) (c : Bytes) (alarm : Bool) : State :=
  let h := Bar.parse c
  let raw := if h.type = 0x01 ∧ Bar.helloCell h c then Bar.msg0 h else none
  let left := fun (t : State) (m : Option Lane0) => match m with
    | some x => onField t fun f => { f with lane0 := f.lane0.erase x }
    | none => t
  match raw with
  | some m => onField (left (tookCells (updBar s fun x => { x with ready := x.ready ++ [m], heard := s.boot.since }) 1) raw) fun f =>
      { f with spoke := f.time }
  | none => match s.bar.key with
    | none => s
    | some key =>
      let r := Bar.rxCell 0 key s.bar.rx c alarm fun h => (Bar.msg0 h).isSome
      let m := r.done.bind fun p => Bar.asLane0 p.1 p.2
      let keep := match m with
        | some .idle => []
        | some x => [x]
        | none => []
      let s1 := updBar s fun x => { x with rx := r.lane, ready := x.ready ++ keep, heard := if r.accepted then s.boot.since else x.heard }
      let s2 := left (onField s1 fun f => { f with
        sent := if r.accepted then max f.sent (r.lane.exp - 1) else f.sent, spoke := if r.accepted then f.time else f.spoke }) m
      let s3 := tookCells s2 (if r.accepted ∧ !r.malformed then 1 else 0)
      let s4 := if r.badTag then tagFailed s3 else if r.outside then windowFailed s3 else s3
      let s5 := if r.lost = 0 then s4 else incHw s4 0x1030 7 r.lost
      let s5 := if alarm ∧ r.badTag then compareAlarm s5 else s5
      let s6 := if r.malformed then incHw s5 0x1030 8 1 else s5
      if r.discarded = 0 then s6 else incHw s6 0x1030 9 r.discarded

/-- A KEY cell that R174 lets in: extended sequence 1, the form of R163 and the tag under the key that it carries. -/
def Bar.keyCell (h : Bar.CellHdr) (c : Bytes) : Bool :=
  decide (c.length = 32 ∧ h.seq = 1 ∧ h.pos = 0 ∧ h.rsv = 0 ∧ h.len = 20 ∧ h.tag = Bar.tag (h.payload.take 16) 1 1 (c.take 28)) && h.pad.all (· = 0)

/-- One cell at the field die's receiver. Each cell that comes counts as one that the core die has sent (R175, R178). -/
def cellAtField (s : State) (c : Bytes) : State :=
  let s := updBar (sentCells s 1 (decide ((Bar.parse c).type = 0x84))) fun x => { x with spoke := s.boot.since }
  if !s.field.run then s
  else
    let h := Bar.parse c
    let keying := decide (h.type = 0x82 ∧ s.field.link = 1)
    let raw := if (h.type = 0x81 ∧ Bar.helloCell h c) ∨ (keying ∧ Bar.keyCell h c) then Bar.msg1 h else none
    match raw with
    | some m => updBar (onField s fun f => { f with ready := f.ready ++ [m], heard := f.time }) fun x => { x with lane1 := x.lane1.erase m }
    | none => match s.field.key with
      | none => if keying then onField s fun f => { f with cellsDropped := sat32 f.cellsDropped 1 } else s
      | some key =>
        let r := Bar.rxCell 1 key s.field.rx c false fun h => (Bar.msg1 h).isSome
        let m := r.done.bind fun p => Bar.asLane1 p.1 p.2
        let keep := match m with
          | some .idle => []
          | some x => [x]
          | none => []
        let bad := if r.malformed ∨ r.badTag ∨ r.outside then 1 else 0
        let s1 := onField s fun f => { f with rx := r.lane, ready := f.ready ++ keep, cellsDropped := sat32 f.cellsDropped bad,
                                              heard := if r.accepted then f.time else f.heard }
        updBar s1 fun x => { x with lane1 := (match m with | some y => x.lane1.erase y | none => x.lane1),
                                    sent := if r.accepted then max x.sent (r.lane.exp - 1) else x.sent + 1 }

/-- An assembled message joins the barrier admission input, or is discarded and counted where 1,024 wait there (R173, R184). -/
def joinInput (s : State) (m : Lane0) : State :=
  let t := arrive0 s m
  if s.bar.input.length ≥ 1024 then incHw t 0x2200 3 1 else updBar t fun x => { x with input := x.input ++ [m] }

/-! Report cells in their admissions (R171, R457 to R473). -/

def setAll (s : State) (xs : List (Nat × Nat × Nat)) : State := xs.foldl (fun t p => setNum t p.1 p.2.1 p.2.2) s

/-- Every output Command at 0x00. -/
def clearCommands (s : State) : State := (List.range 8).foldl (fun t n => setNum t (0xDB00 + n) 1 0) s

/-- The FIELD event of the cells that run or start (R448). -/
def fieldEventActs (s : State) : List Act :=
  s.twc.cells.filterMap fun p => if num s (0xD000 + p.1) 1 = 3 ∨ num s (0xD000 + p.1) 1 = 2 then some (.event p.1 8) else none

/-- The states of the outputs, which a report's admission derives (R455, R461). -/
def outputStates (s : State) : State := (List.range 8).foldl (fun t n => setNum t (0xDB00 + n) 6 (outputState t n)) s

/-- A FIELD_REPORT in its admission (R458, R461, R473), with the field-die temperature sensor (R474). -/
def fieldReportOp (s : State) (p : FieldReport) : State :=
  let cond := p.conducting.toNat
  let flt := p.faults.toNat
  let st := p.status.toNat
  let acts := if num s 0x1F01 4 = p.inputs.toNat then [] else fieldEventActs s
  let s1 := setAll s [(0x1F01, 1, s20Ext p.vguard), (0x1F01, 2, s20Ext p.temp), (0x1F01, 3, cond), (0x1F01, 4, p.inputs.toNat),
    (0x1F01, 5, p.seconds.toNat), (0x1F01, 6, p.dropped.toNat), (0x1F01, 7, p.cellsDropped.toNat), (0x1F01, 8, st)]
  let s2 := setNum s1 0x2100 11 (setBit (num s1 0x2100 11) 7 (bit st 0))
  let s3 := (List.range 8).foldl (fun t n => if bit flt n ∧ !bit s.bar.faults n then incObj t (0xDB00 + n) 8 else t) s2
  let s4 := (List.range 8).foldl (fun t n =>
    if !bit cond n ∧ !bit flt n ∧ num t (0xDB00 + n) 1 = 1 ∧ num t (0xDB00 + n) 2 ≠ 0 ∧
        s.seq.admTime ≥ SMap.at' s.bar.cmdAt n 0 + 2000 then setNum t (0xDB00 + n) 1 0 else t) s3
  let s5 := if bit st 1 then clearCommands s4 else s4
  let cut := !bit st 2 && decide (num s 0xDB30 6 = 1)
  let s6 := if cut then incObj (setNum (clearCommands s5) 0xDB30 1 0) 0xDB30 7 else s5
  let s6a := outputStates (updBar s6 fun x => { x with faults := flt })
  let s7 := setNum s6a 0xDB30 2 (permitState s6a)
  let all := acts ++ if cut then [.lane1 (.guardSet 0xFF 0 0)] else []
  let hot := s20Ext p.temp
  let s8 := match crosses s7 0x2B hot with
    | some t => sensorEvent s7 0x2B s.seq.admTime hot t
    | none => s7
  if all = [] then s8 else pushSlot s8 (actSlot s8 Lat.internal .none [] all)

/-- One INPUT_EVENT entry (R469), with the guard-input sensor of entries 0x01 and 0x03. -/
def inputEntry (s : State) (e : InputEntry) : State :=
  let i := 0xDB10 + e.input.val
  let ev := e.event.toNat
  let s1 := match ev with
    | 1 => incObj (setAll s [(i, 1, 1), (i, 2, 1)]) i 7
    | 2 => incObj (setAll s [(i, 1, 0), (i, 2, 0)]) i 7
    | 3 => setNum s i 2 2
    | _ => setNum s i 8 (min (num s i 8 + 1) 65535)
  let s2 := setAll s1 [(i, 9, e.time.toNat), (i, 10, s.seq.adm)]
  if ev = 1 ∨ ev = 3 then sensorEvent s2 (0x40 + e.input.val) s2.seq.admTime 0 0 else s2

def inputEventOp (s : State) (es : List InputEntry) : State := es.foldl inputEntry s

/-- OUTPUT_SENSE (R461, R462). -/
def outputSenseOp (s : State) (xs : List (BitVec 20)) : State :=
  outputStates ((List.range 8).foldl (fun t n => setNum t (0xDB00 + n) 7 (s20Ext (xs.getD n 0#20))) s)

/-- One input of an ANALOG_SENSE (R472). -/
def analogInput (s : State) (n : Nat) (x : BitVec 20) (ovr : Bool) : State :=
  let i := 0xDB20 + n
  let on := decide (num s i 2 = 1)
  let v := if on then s20Ext x else 0
  let lowHit := on && decide (s20Int v < s20Int (num s i 3))
  let highHit := on && decide (s20Int v > s20Int (num s i 4))
  let old := num s i 5
  let st := (if lowHit then 1 else 0) + (if highHit then 2 else 0) + (if on ∧ ovr then 4 else 0)
  let s1 := setAll s [(i, 1, v), (i, 5, st)]
  if (lowHit ∧ !bit old 0) ∨ (highHit ∧ !bit old 1) then incObj s1 i 6 else s1

def analogSenseOp (s : State) (xs : List (BitVec 20)) (ovr : Nat) : State :=
  (List.range 4).foldl (fun t n => analogInput t n (xs.getD n 0#20) (bit ovr n)) s

/-- NET_STATUS (R171, R155, R157). -/
def netStatusOp (s : State) (p : NetStatus) : State :=
  let i := Fld.portIdx p.port.val
  if p.port.val < 4 then
    setAll s [(i, 9, p.state.toNat), (i, 10, p.tec.toNat * 256 + p.recv.toNat), (i, 11, p.received.toNat), (i, 12, p.sent.toNat),
      (i, 13, p.dropped.toNat)]
  else setAll s [(i, 7, p.state.toNat), (i, 8, p.received.toNat), (i, 9, p.sent.toNat), (i, 10, p.dropped.toNat)]

/-- The admission of R78, with FIELD at its release; a link loss is an event of sensor 0x50 at its time (R479). -/
def fieldStateOp (s : State) (st : Nat) (hello : Option (Nat × Nat × Nat × Nat)) : State :=
  let old := num s 0x2100 9
  let s1 := setNum s 0x2100 9 st
  let s2 := if st = 2 then
      let c := (hello.map fun h => h.2.2.2).getD 0
      setAll s1 [(0x1F00, 4, 2), (0x1F00, 5, c), (0x2100, 10, c)]
    else if st = 3 then sensorEvent (setNum s1 0x1F00 4 0) 0x50 s.seq.admTime 0 0 else s1
  if old = st then s2 else pushSlot s2 (actSlot s2 Lat.internal .none [] [.cause 0x100])

/-- The admission that records a start or a stop of the toggle (R457). -/
def toggleOp (s : State) (on : Bool) : State :=
  if on then setNum s 0xDB30 6 1 else setAll (clearCommands s) [(0xDB30, 1, 0), (0xDB30, 6, 0)]

end Sys2Proof.Machine
end

