-- ==== Sys2Proof/Machine/ModeOps.lean ====
section
/-! DEFINITION. The mode word (R502 to R510) and the power states (R511 to R521). -/

namespace Sys2Proof.Machine

/-! The mode word. -/

/-- Every session of an origin ends (R121). -/
def endOrigin (s : State) (o : Nat) : State :=
  ((s.sessions.filter fun p => p.2.origin = o).map fun p => p.1).foldl endSession s

/-- Transfers that a predicate names are discarded and counted (R122). -/
def dropTransfers (s : State) (ok : Transfer → Bool) : State :=
  let k := (s.transfers.filter ok).length
  if k = 0 then s else incHw { s with transfers := s.transfers.filter fun t => !ok t } 0x1010 6 k

/-- A channel whose key node lies under the SERVICE domain (R507). -/
def serviceChannel (s : State) (n : Nat) : Bool := decide (cnum s n 2 ≠ 0) && atOrBelow s 2 (keyNodeOf s n)

/-- The tag buffer zeroised with tagging off (R566). -/
def stopTagging (s : State) : State :=
  setNum { s with perf := { s.perf with recs := [], next := none, stuck := false } } 0xE200 1 0

/-- SERVICE cleared (R504, R566): transfers open on a Send object under a grant are discarded. -/
def clearService (s : State) : State :=
  let granted := fun (t : Transfer) =>
    decide (0x4000 ≤ t.idx ∧ t.idx < 0xC000 ∧ t.sub % 0x40 = 14) && serviceChannel s (t.idx - 0x4000) &&
      (match t.sess.bind fun k => SMap.look s.sessions k with
        | some z => decide (z.role = 3)
        | none => false)
  stopTagging (setNum (dropTransfers s granted) 0x2000 3 0)

/-- The lapse time of PROVISION (R506). -/
def lapseAt (s : State) : Nat := num s 0x2000 10 + num s 0x2000 9 * 1000000

/-- A write of v to a mode flag (R502 to R510). -/
def modeWrite (s : State) (c : Ctx) (sub v : Nat) : Eff :=
  let bad := Eff.fail s Lat.write
  let good := fun (t : State) (acts : List Act) => { Eff.ok t Lat.write with acts := acts }
  let set := fun (t : State) => setNum t 0x2000 sub v
  if v > 1 then bad Abt.valueRange
  else if num s 0x2000 sub = v then
    (if sub = 7 ∧ v = 1 then good { setNum s 0x2000 10 s.seq.admTime with modes := { s.modes with provBy := c.origin } } [] else good s [])
  else match sub, v with
    | 3, 1 =>
      if sheafOn s ∧ !joined s then bad Abt.partnerAbsent
      else if num s 0x2000 8 = 0 ∧ !calderaOn s then bad Abt.mode
      else good (set s) []
    | 3, _ => good (clearService s) []
    | 4, 1 => if lifecycle s ≠ 0x5A then bad Abt.lifecycle else good (set (endOrigin s 1)) [.hostClose]
    | 4, _ => good (set s) [.hostOpen, .cause 2]
    | 5, 1 => good (emptyHistories (set s)) []
    | 5, _ => if sheafOn s ∧ !joined s then bad Abt.partnerAbsent else good (emptyHistories (set s)) []
    | 6, 1 => good (set { setNum s 0xDC80 6 0 with audit := ⟨[], false, 0⟩ }) []
    | 6, _ => if vigilOn s then bad Abt.mode else good (set { s with audit := ⟨[], false, 0⟩ }) []
    | _, 1 =>
      if lifecycle s ≠ 0x5A then bad Abt.lifecycle
      else good { set (setNum s 0x2000 10 s.seq.admTime) with modes := { s.modes with provBy := c.origin } } []
    | _, _ => good (set s) []

/-- A write to Service allowed: 0 also clears SERVICE (R504). -/
def serviceAllowedOp (s : State) (v : Nat) : State := if v = 0 ∧ serviceOn s then clearService s else s

/-! Power states. -/

/-- A cell executes or is blocked in a system call (R452). -/
def cellBusy (s : State) : Bool :=
  s.twc.cells.any fun p => decide (num s (0xD000 + p.1) 1 = 3) && p.2.waiting.isNone && !p.2.dead

/-- The device stays in RUN (R516). -/
def staysInRun (s : State) : Bool :=
  !serving s || s.boot.waking || s.tem.resp.isSome || !s.slots.isEmpty || !s.host.buf.isEmpty || !s.bar.input.isEmpty || !s.bar.ready.isEmpty ||
    !s.internal.isEmpty || !s.sheaf.inbox.isEmpty || s.sheaf.join.isSome || cellBusy s || s.seq.failing || s.seq.retiring

/-- The earliest of two times. -/
def earlier (a : Option Nat) (b : Nat) : Option Nat := some (match a with | some x => min x b | none => b)

/-- The next known event (R516), as a device time. -/
def nextEvent (s : State) : Option Nat :=
  let hb := (keyedChans s).foldl (fun a p =>
    let st := chanState s p.1
    let a := if (st = 3 ∨ st = 4) ∧ interval s p.1 ≠ 0 then earlier a (chanOf s p.1).due else a
    match (chanOf s p.1).switchAt with
    | t :: _ => earlier a t
    | [] => a) none
  let wt := s.twc.cells.foldl (fun a p => match p.2.waiting with
    | some (_, d) => if d = 0 then a else earlier a d
    | none => a) hb
  if provisionOn s then earlier wt (lapseAt s) else wt

/-- Break-even and wake latency by state, in microseconds; the 80 tc of DOZE count as one (R511). -/
def breakEven : List Nat := [0, 2, 400, 20000, 2000000]
def wakeTime : List Nat := [0, 1, 40, 1200, 35000]

/-- The size of the HIBERNATE image in the layout of imageBytes, with its tag: 3 bytes of index and subindex and the value for each object, 18
for each counter, 6 and its bytes for each attestation report, the staged manifest, and the fixed parts (log 20). -/
def imageSize (s : State) : Nat :=
  (s.dict.map fun p => 3 + match p.2 with | .num _ => 9 | .oct b => 5 + b.length).sum + 18 * s.credit.length +
    (s.reports.map fun p => 6 + p.2.length).sum + s.twc.staged.length + 64

/-- HIBERNATE is allowed (R521). -/
def hibernateAllowed (s : State) : Bool :=
  decide (s.stage = 0x11) && !calderaOn s && decide (modeWord s = 0) && entropyOk s &&
  (keyedChans s).all (fun p => let st := chanState s p.1; decide (st ≠ 2 ∧ st ≠ 3 ∧ st ≠ 4 ∧ cnum s p.1 17 = 0)) &&
  (List.range 8).all (fun n => decide (num s (0xDB00 + n) 1 = 0)) && decide (num s 0xDB30 1 = 0) &&
  (boundSlots s).isEmpty && s.streams.isEmpty && s.ples.isEmpty && s.transfers.isEmpty && s.exportRun.isNone &&
  (List.range 32).all (fun c => decide (num s (0xD000 + c) 1 ≠ 2 ∧ num s (0xD000 + c) 1 ≠ 3)) &&
  (match s.boot.woken with | some t => decide (s.seq.time ≥ t + 600000000) | none => true) &&
  decide (imageSize s ≤ 49152)

/-- The state chosen at time to the next event (R517), from cap downward. -/
def fits (s : State) (st : Nat) : Bool :=
  let b := breakEven.getD st 0
  let w := wakeTime.getD st 0
  (decide (st ≠ 4) || hibernateAllowed s) && decide (w ≤ num s 0x2010 2) &&
    (match nextEvent s with
      | none => true
      | some t => decide (s.seq.time + b ≤ t ∧ s.seq.time + w ≤ t))

def chooseState (s : State) : Nat :=
  (((List.range 5).reverse.filter fun st => decide (1 ≤ st ∧ st ≤ effectiveCap s)).find? fun st => fits s st).getD 0

/-- Entry to SLUMBER: the entropy source stops, every tiller reseeds after the wake, and the mesh generator takes a seed from
tiller 62 (R383, R512). -/
def enterSlumber (s : State) : State :=
  let live' := (s.rng.tillers.filter fun p => p.2.drbg.isSome).map fun p => p.1
  let t := reseedPattern s
  { t with rng := { t.rng with on := false, stale := live' } }

/-- The bytes of the image (R522). Their layout is the model's (log 20). -/
def imageBytes (x : HibImage) : Bytes :=
  leBytes 8 x.adm ++ leBytes 8 x.time ++ leBytes 4 x.dict.length ++
    (x.dict.flatMap fun p => leBytes 3 p.1 ++ (match p.2 with | .num n => 0 :: leBytes 8 n | .oct b => 1 :: leBytes 4 b.length ++ b)) ++
    leBytes 4 x.credit.length ++ (x.credit.flatMap fun p => leBytes 2 p.1 ++ leBytes 8 p.2.1 ++ leBytes 8 p.2.2) ++
    leBytes 8 (x.budget % 2 ^ 64).toNat ++ leBytes 4 x.cause ++ leBytes 4 x.reports.length ++
    (x.reports.flatMap fun p => leBytes 2 p.1 ++ leBytes 4 p.2.length ++ p.2) ++
    leBytes 4 (x.stager.elim 0 (· + 1)) ++ leBytes 4 x.staged.length ++ x.staged

/-- The image key: the key of node 0x0018 XOR the Sinter key (R350). -/
def imageKey (s : State) (sinter : Bytes) : Bytes := xorBytes (fitBytes 32 (nodeKey s 0x18)) sinter

/-- The fixed nonce of the image (R522). -/
def imageNonce : Bytes := 0x82 :: zeros 11

/-- The image encrypted under AES-256-GCM, with its tag (R350, R522). -/
def sealImage (s : State) (sinter : Bytes) (x : HibImage) : HibImage :=
  let c := gcmSeal (imageKey s sinter) imageNonce [] (imageBytes x)
  { x with cipher := c.1, tag := c.2 }

/-- The image opens under the Sinter key that is present (R350). -/
def imageOpens (s : State) (x : HibImage) : Bool :=
  match s.sinter.key with
  | some k => decide (gcmOpen (imageKey s k) imageNonce [] x.cipher x.tag = some (imageBytes x))
  | none => false

/-- The start-up checks of R380 begin again, from the trims held before sleep (R383). -/
def recheck (r : Rng) : Rng :=
  { r with on := true, health := List.replicate 4 Health.start, recent := List.replicate 4 [], startup := 9, trims := r.trims.map fun x => (x.1, 0) }

/-- Entry to HIBERNATE (R350, R522): the Sinter key, the image, the toggle and the link. -/
def enterHibernate (s : State) : State :=
  let r := drawTiller 14 (reseedPattern s) 32
  let s1 := stopToggle r.2
  let img := sealImage s r.1 ⟨s.seq.adm, s.seq.time, s.dict, s.credit, s.seq.budget, s.host.cause, s.reports, s.twc.stager, s.twc.staged, [], []⟩
  { s1 with
    internal := []
    sinter := { s1.sinter with key := some r.1, vigil := vigilOn s, hits := [] }
    modes := { s1.modes with image := some img }
    rng := { s1.rng with on := false, tillers := [], pool := [], masks := [0, 0] }
    bar := { s1.bar with up := false, trying := false, key := none } }

/-- The device enters the state chosen, after its notice to the field die (R517, R519). -/
def enterState (s : State) (st : Nat) : State :=
  if st = 0 then s
  else
    let at' := (nextEvent s).map fun t => t - wakeTime.getD st 0
    let s0 := sendLane1 s (.power (if st = 4 then 2 else 1))
    let s1 := if st = 3 then enterSlumber s0 else if st = 4 then enterHibernate s0 else s0
    count { s1 with power := st, modes := { s1.modes with wakeAt := at' } } 13 (3 + st) 1

/-- The choice of R517. -/
def choosePower (s : State) : State :=
  if s.power ≠ 0 ∨ staysInRun s then s else enterState s (chooseState s)

/-- Device time after a state in which the Sinter counter carried it (R182). -/
def carriedTime (q : Seq) : Nat := max (q.admTime + 1) q.time

/-- A wake from DOZE, NAP or SLUMBER, with the awake notice first, ahead of which no notice of sleep is left to go (R518, R519). With the
link down the notice is discarded and counted as R176 says of every lane-1 message; the next bring-up sends it (R519, log 126). -/
def wake (s : State) : State :=
  if 1 ≤ s.power ∧ s.power ≤ 3 then
    let s1 := if s.power = 3 then { s with rng := if s.entropyDown then s.rng else recheck s.rng, seq := { s.seq with time := carriedTime s.seq } } else s
    let s2 := { s1 with power := 0, modes := { s1.modes with wakeAt := none } }
    if s2.bar.up then updBar s2 fun x => { x with lane1 := .power 0 :: x.lane1.filter fun m => decide (m ≠ .power 1) } else incHw s2 0x1030 9 1
  else s

/-- An unscheduled cause that waits on the internal queue ends the state (R518). -/
def wakeIfQueued (s : State) : State := if s.internal ≠ [] then wake s else s

end Sys2Proof.Machine
end

