-- ==== Sys2Proof/Machine/PerfOps.lean ====
section
/-! DEFINITION. Performance counters, instruction tagging and telemetry (R555 to R569). -/

namespace Sys2Proof.Machine

namespace Prf

/-- Bits of Control or Clear that block b has (R560). -/
def controlMask (b : Nat) : Nat := 2 ^ Dict.perfCount b - 1 + (2 ^ (Dict.perfCount b / 2) - 1) * 256
def clearMask (b : Nat) : Nat := 2 ^ Dict.perfCount b - 1

/-- A Control write (R557, R560): a changed CHAIN bit zeroes its pair. -/
def control (s : State) (b v : Nat) : State :=
  let old := num s (0xE000 + b) 13
  (List.range 4).foldl (fun t j => if bit old (8 + j) ≠ bit v (8 + j) then perfZero (perfZero t b (2 * j)) b (2 * j + 1) else t) s

/-- A Clear write (R559): either bit of a chained pair clears both. -/
def clear (s : State) (b v : Nat) : State :=
  let ctl := num s (0xE000 + b) 13
  (List.range 8).foldl (fun t i =>
    let mate := if i % 2 = 0 then i + 1 else i - 1
    if bit v i ∨ (bit ctl (8 + i / 2) ∧ bit v mate) then perfZero t b i else t) s

/-- A counter object (R559). -/
def value (s : State) (b k : Nat) : Nat :=
  if 1 ≤ k ∧ k ≤ 8 then perfAt s b (k - 1)
  else if 9 ≤ k ∧ k ≤ 12 then perfAt s b (2 * (k - 9) + 1) * 4294967296 + perfAt s b (2 * (k - 9))
  else if k = 14 then SMap.at' s.perf.ovf b 0
  else num s (0xE000 + b) k

/-- The snapshot (R564). -/
def snapshot (s : State) : Bytes :=
  [1, 14] ++ leBytes 2 84 ++ zeros 4 ++ leBytes 8 s.seq.adm ++
    (List.range 14).flatMap fun b =>
      [BitVec.ofNat 8 b, BitVec.ofNat 8 (Dict.perfCount b), BitVec.ofNat 8 (SMap.at' s.perf.ovf b 0),
       BitVec.ofNat 8 (num s (0xE000 + b) 13 / 256 % 16)] ++ (List.range (Dict.perfCount b)).flatMap fun i => leBytes 4 (perfAt s b i)

/-! Tagging (R565 to R567). -/

/-- The next interval: uniform over 1 to 2^(e+1) - 1 from tiller 60; a draw of 0 is drawn again, 8 times at most. -/
def interval (s : State) (e : Nat) : Nat → Option (Nat × State)
  | 0 => none
  | f + 1 => match (if s.entropyDown then none else takeBuffer s 60 4) with
    | none => none
    | some (b, s1) =>
      let u := leNat b % 2 ^ (e + 1)
      if u = 0 then interval s1 e f else some (u, s1)

/-- The tagger draws its next interval, or stops without entropy. -/
def arm (s : State) : State :=
  match interval s (num s 0xE200 2) 8 with
  | some (u, s1) => { s1 with perf := { s1.perf with next := some u, stuck := false } }
  | none => { s with perf := { s.perf with next := none, stuck := true } }

/-- 0xE200.03 (R566). -/
def status (s : State) : Nat := if num s 0xE200 1 = 0 then 0 else if s.perf.stuck then 2 else 1

/-- A write to Enable: setting it starts the count and draws the first interval. -/
def enable (s : State) (v : Nat) : State :=
  if v = 1 then (if num s 0xE200 1 = 1 then s else arm { s with perf := { s.perf with tags := 0 } })
  else { s with perf := { s.perf with next := none, stuck := false } }

/-- A tag record joins the buffer, which holds the last 256 (R566, R567), and the next interval is drawn. -/
def tag (s : State) (c pc insn flags cyc : Nat) : State :=
  let k := (s.perf.tags + 1) % 4294967296
  let r := leBytes 4 k ++ leBytes 4 pc ++ leBytes 4 insn ++ [BitVec.ofNat 8 c, BitVec.ofNat 8 flags] ++ leBytes 2 (min cyc 65535)
  let rs := s.perf.recs ++ [r]
  arm { s with perf := { s.perf with tags := k, recs := rs.drop (rs.length - 256) } }

/-- One instruction retired at pc in cell c, insn its encoding, flags of R567, at cycle cyc of its quantum. -/
def retire (s : State) (c pc insn flags cyc : Nat) : State :=
  if num s 0xE200 1 = 0 then s
  else
    let s := if s.perf.stuck then arm s else s
    match s.perf.next with
    | none => s
    | some u => if u > 1 then { s with perf := { s.perf with next := some (u - 1) } } else tag s c pc insn flags cyc

/-- The instruction to tag faults: FAULT and SWITCHED, since the cell leaves the pair (R434, R567). -/
def faulted (s : State) (c pc insn cyc : Nat) : State :=
  if num s 0xE200 1 = 1 ∧ s.perf.next = some 1 then tag s c pc insn 12 cyc else s

/-! Telemetry (R568, R569). -/

/-- A telemetry admission: temperature, VCORE, VDDA_H, VDD_PS, VDDIO_H, VDD_LVDS. -/
def telemetry (s : State) (xs : List (BitVec 20)) : State :=
  let t := s20Ext (xs.getD 0 0#20)
  let first := decide (num s 0xE300 8 = 0)
  let lo := if first ∨ s20Int t < s20Int (num s 0xE300 9) then t else num s 0xE300 9
  let hi := if first ∨ s20Int t > s20Int (num s 0xE300 10) then t else num s 0xE300 10
  let s1 := (List.range 6).foldl (fun u i => setNum u 0xE300 (i + 2) (s20Ext (xs.getD i 0#20))) s
  setAll s1 [(0xE300, 8, s.seq.admTime), (0xE300, 9, lo), (0xE300, 10, hi)]

/-- Whether a telemetry admission is due: a multiple of the interval has passed since the last (R568). -/
def due (s : State) : Bool :=
  let i := num s 0xE300 1 * 1000
  decide (s.seq.time / i > num s 0xE300 8 / i)

/-- What one microsecond adds to the counters of occupancy and time (R555); block activity that no rule fixes is free. -/
def tick (s : State) : State :=
  let free := fun (t : State) (b i : Nat) => count { t with seq := { t.seq with draws := t.seq.draws + 1 } } b i (Config.freeCount b i t.seq.draws)
  let held := !s.host.buf.isEmpty || !s.bar.input.isEmpty
  let run := decide (s.power = 0)
  let s1 := if s.power < 4 then count s 13 s.power 50 else s
  let s2 := count s1 9 0 50
  let s3 := if run then count s2 0 0 400 else s2
  let s4 := if run ∧ inHold s then count s3 0 7 400 else s3
  let s5 := if run ∧ held then free s4 0 4 else s4
  let stalls := s.twc.current.any fun c => (SMap.look s.twc.cells c).any fun x => x.stalled.isSome
  let s6 := if !run then s5 else if s.twc.current.isNone then count s5 2 6 400 else if stalls then count s5 2 5 400 else s5
  let s7 := if s.bar.lane1.isEmpty then s6 else count s6 10 5 250
  let s8 := if s.sheaf.awaits.any (fun a => decide (a.kind = 0x20)) then count s7 12 3 400 else s7
  let s9 := if run ∧ 1024 ≤ s.inflight.length then count s8 1 7 400 else s8
  let s10 := if run ∧ (s.seq.commits.any fun c => decide (s.seq.time ≤ c.1 + 8)) then count s9 8 7 400 else s9
  if run then
    [(0, 6), (3, 0), (3, 1), (3, 2), (3, 3), (3, 4), (3, 5), (4, 0), (4, 1), (5, 0), (5, 1), (5, 2), (5, 4), (6, 0), (6, 1),
      (7, 3), (8, 5), (9, 3)].foldl (fun t p => free t p.1 p.2) s10
  else s10

end Prf

end Sys2Proof.Machine
end

