-- ==== Sys2Proof/Machine/CellOps.lean ====
section
/-! DEFINITION. Applet cells on the lockstep pair (R421 to R434, R442): dispatch, cell memory, faults, starts and stops, and
what one retired instruction does. -/

namespace Sys2Proof.Machine

def cell0 : Cell := ⟨[], 0, [], 0, 0, false, none, 0, 0, none, false, false⟩

def setCell (s : State) (c : Nat) (x : Cell) : State := updTwc s fun t => { t with cells := SMap.put t.cells c x }

/-! Dispatch (R429). -/

/-- Whether the pair may run the cell now. -/
def runnable (s : State) (c : Nat) : Bool :=
  match SMap.look s.twc.cells c with
  | none => false
  | some x => decide (cellState s c = 3) && !x.blocked && x.waiting.isNone && !x.dead

/-- A free pair takes the next runnable cell after the one last run. -/
def dispatch (s : State) : State :=
  match s.twc.current with
  | some _ => s
  | none =>
    match ((List.range 32).map fun i => (s.twc.last + 1 + i) % 32).find? fun c => runnable s c with
    | none => s
    | some c => count (updTwc s fun t => { t with current := some c, last := c, cycles := 0 }) 2 3 1

/-- The cell on the pair gives it up. -/
def yieldPair (s : State) : State := dispatch (updTwc s fun t => { t with current := none })

/-- Cell c gives up the pair if it holds it. -/
def leavePair (s : State) (c : Nat) : State := if s.twc.current = some c then yieldPair s else dispatch s

/-! Starts, stops and faults. -/

/-- What a cell loses when it leaves STARTING or RUNNING (R433): memory, registers, outstanding output, streams, PLE input and
secrets. -/
def stripCell (s : State) (c : Nat) : State :=
  { s with
    streams := s.streams.filter fun p => decide (p.1 ≠ 0x100 + 2 * c ∧ p.1 ≠ 0x101 + 2 * c)
    ples := SMap.del s.ples (0x100 + c)
    secrets := s.secrets.filter fun p => decide (p.2.holder ≠ 0x100 + c)
    slots := s.slots.map fun x => { x with acts := x.acts.filter fun a => match a with
      | .cellRet k _ _ => decide (k ≠ c)
      | _ => true } }

def leaveCell (s : State) (c : Nat) : State :=
  let s1 := updTwc (stripCell s c) fun t => { t with cells := SMap.del t.cells c }
  leavePair s1 c

/-- A fault stops the cell and waits at the head of the internal queue (R434). -/
def faultCell (s : State) (c cause : Nat) (pc : Word) : State :=
  let s1 := setCell (stripCell s c) c { cell0 with dead := true }
  leavePair (pushFront (count s1 2 7 1) (.cellFault c cause pc.toNat)) c

/-- The fault in its admission: only a cell still RUNNING becomes FAULTED. -/
def faultAdmit (s : State) (c cause pc : Nat) : State :=
  if cellState s c ≠ 3 then s
  else
    let i := 0xD000 + c
    let s1 := incObj (setAll s [(i, 1, 4), (i, 7, cause), (i, 8, pc)]) i 14
    let s2 := updTwc s1 fun t => { t with cells := SMap.del t.cells c }
    journalChange s2 ⟨none, none, 0, 0⟩ i 1 [3] [4]

/-- The code length rounded up to 256 (R426). -/
def codeTop (m : Bytes) : Nat := (mf m 0x20 4 + 255) / 256 * 256

/-- The stored manifest: signed header and body (R436). -/
def storedManifest (s : State) (c : Nat) : Option Bytes := (SMap.look s.pers.applets c).map fun x => x.manifest

/-- Whether the stored image matches its install digest (R91). -/
def imageMatches (s : State) (c : Nat) : Bool :=
  match SMap.look s.pers.applets c with
  | none => false
  | some x => x.readable && decide (installDigest x.manifest = oct s (0xD000 + c) 4)

/-- A cell of RANDOM kind does not start in SHEAF (R453). -/
def isRandom (s : State) (c : Nat) : Bool := bit (num s (0xD000 + c) 6) 0

/-- STARTING with its reason (R428). -/
def startCell (s : State) (c reason : Nat) : State :=
  setCellState (setCell s c { cell0 with reason := reason }) c 2

/-- A start nothing commanded: a cell whose manifest sets RANDOM stays as it is in SHEAF (R453). -/
def autoStart (s : State) (c reason : Nat) : State :=
  if sheafOn s && isRandom s c then s else startCell s c reason

/-- Bytes as a memory from base up; zero bytes are not listed. -/
def memFrom (base : Nat) (b : Bytes) : SMap Byte :=
  ((List.range b.length).zip b).filterMap fun p => if p.2 = 0 then none else some (base + p.1, p.2)

/-- The cell as R428 sets it up. -/
def loadedCell (m : Bytes) (c reason : Nat) : Cell :=
  let k := mf m 0x20 4
  let top := codeTop m
  let body := m.drop 128
  let regs := [(2, 0x30000#32)] ++ (if c = 0 then [] else [(10, BitVec.ofNat 32 c)]) ++ (if reason = 0 then [] else [(11, BitVec.ofNat 32 reason)])
  { cell0 with regs := regs, pc := BitVec.ofNat 32 (mf m 0x2C 4), code := top, reason := reason
               mem := memFrom 0 (body.take k) ++ memFrom top ((body.drop k).take (mf m 0x24 4)) }

/-- The load is complete (R428, R432): STARTING becomes RUNNING. Events that became pending since the start stay pending (R448). -/
def loadComplete (s : State) (c : Nat) : State :=
  match SMap.look s.twc.cells c, storedManifest s c with
  | some x, some m => dispatch (setCellState (setCell s c { loadedCell m c x.reason with events := x.events }) c 3)
  | _, _ => s

/-- The cells that start-up finds installed, as its admission leaves them (R91, R431, R432): FAULTED with cause IMAGE where bad holds the
cell, STARTING where it runs at start-up, though it waits for READY, else STOPPED. None starts in CALDERA (R500). -/
def startCells (s : State) (bad : List Nat) : State :=
  (List.range 32).foldl (fun t c =>
    if (SMap.look t.pers.applets c).isNone then t
    else if bad.contains c then setNum (setCellState t c 4) (0xD000 + c) 7 9
    else
      let u := setCellState t c 1
      if num t (0xD000 + c) 10 = 1 ∧ !calderaOn t then autoStart u c 0 else u) s

/-- Whether a STARTING cell may complete its load: READY, its tiller instantiated, and not the follower of a pair (R91, R382,
R453, R526). -/
def mayLoad (s : State) (c : Nat) : Bool :=
  decide (cellState s c = 2) && decide (s.stage = 0x11) && instantiated s (16 + c) &&
    !(sheafOn s && (isRandom s c || decide (pairNo s = 1)))

/-- A write of v to Control (R432, R442). -/
def controlOp (s : State) (c v : Nat) : State × Nat :=
  let st := cellState s c
  let image := decide (st = 4 ∧ num s (0xD000 + c) 7 = 9)
  if v = 0 ∨ v > 3 then (s, Abt.valueRange)
  else if st = 0 then (s, Abt.appletStopped)
  else if v ≠ 2 ∧ image then (s, Abt.appletFaulted)
  else if v ≠ 2 ∧ sheafOn s ∧ isRandom s c then (s, Abt.mode)
  else match v with
    | 1 => if st = 1 ∨ st = 4 then (startCell s c 2, 0) else (s, 0)
    | 2 => if st = 2 ∨ st = 3 then (setCellState (leaveCell s c) c 1, 0) else (s, 0)
    | _ => (startCell (leaveCell s c) c 2, 0)

/-! Events (R448). -/

/-- Bits become pending in cell c, RUNNING or STARTING; a WAIT that they meet returns. -/
def raiseEvents (s : State) (c bits : Nat) : State :=
  match SMap.look s.twc.cells c with
  | none => s
  | some x =>
    if (cellState s c ≠ 3 ∧ cellState s c ≠ 2) ∨ x.dead then s
    else
      let ev := x.events ||| bits
      match x.waiting with
      | some (mask, d) =>
        if ev &&& mask ≠ 0 ∨ (bit bits 4 ∧ d ≠ 0) then
          let regs := SMap.store (SMap.store x.regs 10 0#32 0#32) 11 (BitVec.ofNat 32 (ev &&& mask)) 0#32
          dispatch (setCell s c { x with regs := regs, waiting := none, events := clearBits ev mask })
        else setCell s c { x with events := ev }
      | none => setCell s c { x with events := ev }

/-- Deadlines that device time has reached (R448, R452). -/
def raiseDeadlines (s : State) : State :=
  s.twc.cells.foldl (fun t p => match p.2.waiting with
    | some (_, d) => if d ≠ 0 ∧ d ≤ s.seq.time then raiseEvents t p.1 16 else t
    | none => t) s

/-! Registers and memory of a cell. -/

/-- A register; x0 reads as 0 (R424). -/
def reg (x : Cell) (r : Fin 32) : Word := if r = 0 then 0 else SMap.at' x.regs r.val 0

/-- A register write; x0 discards it. -/
def setReg (x : Cell) (r : Fin 32) (v : Word) : Cell := if r = 0 then x else { x with regs := SMap.store x.regs r.val v 0 }

def memTop : Nat := 0x30000

def loadByte (x : Cell) (a : Nat) : Byte := SMap.at' x.mem a 0

/-- n bytes from address a, least significant first. -/
def loadBytes (x : Cell) (a n : Nat) : Bytes := (List.range n).map fun i => loadByte x (a + i)

def storeBytes (x : Cell) (a : Nat) (b : Bytes) : Cell :=
  { x with mem := ((List.range b.length).zip b).foldl (fun m p => SMap.store m (a + p.1) p.2 0) x.mem }

/-- Whether n bytes from a lie in the code or data region, or in the data region (R426). -/
def inMemory (a n : Nat) : Bool := decide (a + n ≤ memTop)
def inData (x : Cell) (a n : Nat) : Bool := decide (x.code ≤ a ∧ a + n ≤ memTop)

/-- The encoding at pc: none outside the code region (R426). -/
def fetch (x : Cell) : Option Nat :=
  let a := x.pc.toNat
  if a + 2 > x.code ∨ a % 2 = 1 then none
  else
    let h := leNat (loadBytes x a 2)
    if !Rv.isLong h then some h else if a + 4 > x.code then none else some (leNat (loadBytes x a 4))

/-! One instruction. -/

/-- What an instruction comes to. -/
inductive RvOut where
  | done (s : State) (x : Cell)
  | trap (cause : Nat)
  | stall

/-- The cell of an instruction command, where it holds the pair within its quantum and executes (R429, R430). -/
def running (s : State) (c : Fin 32) : Option Cell :=
  match SMap.look s.twc.cells c.val with
  | none => none
  | some x =>
    if s.twc.current = some c.val ∧ runnable s c.val ∧ s.power = 0 ∧ s.stage ≠ 0 ∧ x.retired < 2 ^ 28 ∧ s.twc.cycles < 8000 then some x else none

/-- Flags of a tag record (R567): the quantum ends with the instruction, and the cell leaves the pair after it where another cell can
run. A call gives the pair up in any case (R429). -/
def tagFlags (s : State) (c cyc : Nat) (ecall : Bool) : Nat :=
  let over' := decide (cyc ≥ 8000)
  let other := (List.range 32).any fun k => decide (k ≠ c) && runnable s k
  (if ecall then 1 else 0) + (if over' then 2 else 0) + (if ecall || (over' && other) then 4 else 0)

/-- An instruction retired: its cell, its latency in tempo cycles, the counts and the tag (R425, R430, R555, R565). -/
def retired (s : State) (c lat pc insn : Nat) (ecall : Bool) (y : Cell) : State :=
  let cyc := s.twc.cycles + lat
  let s1 := updTwc (setCell s c { y with retired := y.retired + 1, stalled := none }) fun t => { t with cycles := cyc }
  Prf.retire (count (count s1 2 0 lat) 2 1 1) c pc insn (tagFlags s c cyc ecall) cyc

/-- The command of instruction i of cell c: it retires where the cell executes and its next encoding is this very instruction;
a fetch outside the code region is a fault. -/
def rvStep (s : State) (c : Fin 32) (i : Instr) (lat : Nat) (f : State → Cell → RvOut) : State :=
  match running s c with
  | none => s
  | some x =>
    match fetch x with
    | none => faultCell s c.val 2 x.pc
    | some w =>
      if Rv.decode c w ≠ .insn i then s
      else match f s x with
        | .done t y => retired t c.val lat x.pc.toNat w false y
        | .trap cause => faultCell (Prf.faulted s c.val x.pc.toNat w s.twc.cycles) c.val cause x.pc
        | .stall => setCell s c.val { x with stalled := some (x.stalled.getD s.seq.time) }

/-- The length of the encoding at pc. -/
def pcNext (x : Cell) (n : Nat) : Word := x.pc + BitVec.ofNat 32 n

/-- A register result, and pc past the n bytes of the instruction. -/
def rvSet (n : Nat) (rd : Fin 32) (v : Cell → Word) (s : State) (x : Cell) : RvOut :=
  .done s { setReg x rd (v x) with pc := pcNext x n }

/-- A jump with a link. -/
def rvJump (n : Nat) (rd : Fin 32) (target : Cell → Word) (s : State) (x : Cell) : RvOut :=
  .done s { setReg x rd (pcNext x n) with pc := target x }

/-- A branch. -/
def rvBranch (n : Nat) (taken : Cell → Bool) (off : Word) (s : State) (x : Cell) : RvOut :=
  .done s { x with pc := if taken x then x.pc + off else pcNext x n }

/-- A word of the system window (R427): none where a load there faults. RNG_DATA is rvLoad's. -/
def windowWord (s : State) (c : Fin 32) (x : Cell) (a : Nat) : Option Word :=
  match a with
  | 0x40004 => some (BitVec.ofNat 32 c.val)
  | 0x40008 => some (BitVec.ofNat 32 (num s (0xD000 + c.val) 5))
  | 0x4000C => some (BitVec.ofNat 32 (num s (0xD000 + c.val) 3))
  | 0x40010 => some (BitVec.ofNat 32 x.events)
  | _ => none

/-- A load of k bytes from the address into rd, extended by ext (R424, R426, R427, R386). -/
def rvLoad (n : Nat) (c : Fin 32) (rd : Fin 32) (addr : Cell → Word) (k : Nat) (ext : Nat → Word) (s : State) (x : Cell) : RvOut :=
  let a := (addr x).toNat
  if a % k ≠ 0 then .trap 5
  else if inMemory a k then .done s { setReg x rd (ext (leNat (loadBytes x a k))) with pc := pcNext x n }
  else if k ≠ 4 then .trap 3
  else if a = 0x40000 then
    if !isRandom s c.val then .trap 8
    else if s.entropyDown then .trap 7
    else match takeBuffer s (16 + c.val) 4 with
      | some (b, t) => .done t { setReg x rd (BitVec.ofNat 32 (leNat b)) with pc := pcNext x n }
      | none => .stall
  else match windowWord s c x a with
    | some w => .done s { setReg x rd w with pc := pcNext x n }
    | none => .trap 3

/-- A store of the low k bytes of rs2 (R424, R426). -/
def rvStore (n : Nat) (rs2 : Fin 32) (addr : Cell → Word) (k : Nat) (s : State) (x : Cell) : RvOut :=
  let a := (addr x).toNat
  if a % k ≠ 0 then .trap 5
  else if inData x a k then .done s { storeBytes x a (leBytes k (reg x rs2).toNat) with pc := pcNext x n }
  else .trap 4

/-! The arithmetic of RV32I and M. -/
namespace Alu

def slt (a b : Word) : Word := if a.slt b then 1 else 0
def sltu (a b : Word) : Word := if a.ult b then 1 else 0
def sll (a b : Word) : Word := a <<< (b.toNat % 32)
def srl (a b : Word) : Word := a >>> (b.toNat % 32)
def sra (a b : Word) : Word := a.sshiftRight (b.toNat % 32)
def mulh (a b : Word) : Word := BitVec.ofInt 32 (a.toInt * b.toInt / 4294967296)
def mulhsu (a b : Word) : Word := BitVec.ofInt 32 (a.toInt * (b.toNat : Int) / 4294967296)
def mulhu (a b : Word) : Word := BitVec.ofNat 32 (a.toNat * b.toNat / 4294967296)
/-- Division truncates; by zero it gives all ones, and the most negative number over -1 gives itself (R425). -/
def div (a b : Word) : Word := if b = 0 then BitVec.allOnes 32 else BitVec.ofInt 32 (a.toInt.tdiv b.toInt)
def divu (a b : Word) : Word := if b = 0 then BitVec.allOnes 32 else BitVec.ofNat 32 (a.toNat / b.toNat)
/-- The remainder takes the sign of the dividend; by zero it is the dividend (R425). -/
def rem (a b : Word) : Word := if b = 0 then a else BitVec.ofInt 32 (a.toInt.tmod b.toInt)
def remu (a b : Word) : Word := if b = 0 then a else BitVec.ofNat 32 (a.toNat % b.toNat)

end Alu

/-- Sign extension of an immediate. -/
def sext {w : Nat} (i : BitVec w) : Word := i.signExtend 32
def zext {w : Nat} (i : BitVec w) : Word := i.setWidth 32

end Sys2Proof.Machine
end

