-- ==== Sys2Proof/Machine/AppletOps.lean ====
section
/-! DEFINITION. Applet install and removal (R435 to R440). -/

namespace Sys2Proof.Machine

/-- An Install runs (R437, R440). -/
def installRuns (s : State) : Bool := s.slots.any fun x => x.acts.any fun a => match a with
  | .install _ _ _ => true
  | _ => false

/-- Whether the root of cell c must be bumped and cannot be (R329). -/
def rootSpent (s : State) (c : Nat) : Bool := (SMap.look s.pers.nodes (rootOf c)).isSome && decide (epochOf s (rootOf c) ≥ 0xFFFFFF)

/-- A write range with its first index above its last (R438). -/
def badRange (m : Bytes) : Bool := (chunks 4 ((m.drop 0x30).take 32)).any fun e => decide (leNat (e.take 2) > leNat (e.drop 2))

/-- The first failing outcome of an Install of manifest m into cell c, or 0 (R438). -/
def installCheck (s : State) (c : Nat) (m : Bytes) : Nat :=
  let code := mf m 0x20 4
  let data := mf m 0x24 4
  let head := m.take 128
  let body := m.drop 0x1A60
  if m.take 4 ≠ [0x46, 0x4C, 0x41, 0x50] ∨ mf m 4 2 ≠ 1 ∨ mf m 6 1 / 2 ≠ 0 ∨ !((m.drop 0x70).take 16).all (· = 0) ∨
      !((m.drop 0x1A5A).take 6).all (· = 0) ∨ code = 0 ∨ code % 2 = 1 ∨ m.length ≠ 6752 + code + data ∨ mf m 0x2C 4 % 2 = 1 ∨
      mf m 0x2C 4 ≥ code then Abt.valueEncoding
  else if codeTop m + data + mf m 0x28 4 > 196608 then Abt.appletMemory
  else if mf m 0x1C 4 > runningVersion s then Abt.valueConflict
  else if mf m 7 1 > 2 ∨ badRange m then Abt.valueRange
  else if sha256 body ≠ (m.drop 0x50).take 32 ∨ !Dsa.verify (oct s 0xD100 5) (ascii "FL2820-APV") head ((m.drop 0x80).take 3309) ∨
      !Dsa.verify (oct s 0xD100 6) (ascii "FL2820-APO") head ((m.drop 0xD6D).take 3309) then Abt.signatureInvalid
  else if (SMap.look s.pers.applets c).isSome ∧ oct s (0xD000 + c) 2 = (m.drop 8).take 16 ∧ num s (0xD000 + c) 3 > mf m 0x18 4 then Abt.rollback
  else if !keepsRoot s c ((m.drop 8).take 16) && rootSpent s c then Abt.epochExhausted
  else 0

/-- An Install write (R437, R438): refused, or the target stopped and the outcome staged for 25 ms later. -/
def installOp (s : State) (c : Nat) (phys : Phys) : Eff :=
  if c > 31 then Eff.fail s Lat.write Abt.valueRange
  else if num s 0xD100 2 ≠ 2 ∨ (oct s 0xD100 6).isEmpty then Eff.fail s Lat.write Abt.valueConflict
  else
    let s1 := setCellState (leaveCell s c) c 1
    let code := installCheck s c s.twc.staged
    let fault := unitsFault s phys ⟨false, true, 2⟩ false
    let code := if code ≠ 0 then code else if fault ≠ 0 then fault else if phys = .compare then Abt.compareFault
      else if phys = .store then Abt.storeFault else 0
    { Eff.fail s1 25000 code with acts := [.install c s.twc.staged code], long := true }

/-- A cell made EMPTY: its header, its install digest and its image go (R432, R440, R441). -/
def emptyCell (s : State) (c : Nat) : State :=
  let t := { s with pers := { s.pers with applets := SMap.del s.pers.applets c } }
  setCellState (setHeader t c (zeros 16) 0 (zeros 32) 0 0 (zeros 32)) c 0

/-- The store slot of cell c with the first k bytes of manifest m's body over those of its applet (R439). -/
def overwritten (p : Pers) (c : Nat) (m : Bytes) (k : Nat) : Pers :=
  match SMap.look p.applets c with
  | none => p
  | some x =>
    let old := x.manifest.drop 128
    { p with applets := SMap.put p.applets c { x with manifest := x.manifest.take 128 ++ ((m.drop 0x1A60).take k ++ old.drop k) } }

/-- An Install that a reset ends, or whose store write fails, may have overwritten part of the store slot: how much is the store's, hence
free (R439). -/
def spoil (s : State) (c : Nat) (m : Bytes) : State :=
  let r := draw s 18
  { r.2 with pers := overwritten r.2.pers c m r.1 }

/-- The Installs under way, each of which has passed every check, lose their store slots in part (R439). -/
def spoilInstalls (s : State) : State :=
  (s.slots.flatMap fun x => x.acts).foldl (fun t a => match a with
    | .install c m 0 => spoil t c m
    | _ => t) s

/-- The release of an Install (R432, R438, R439). -/
def installEnd (s0 : State) (c : Nat) (m : Bytes) (code : Nat) : State :=
  let s := if code = Abt.storeFault then spoil s0 c m else s0
  let t := installNow s c m code
  if code ≠ 0 ∧ !((SMap.look s.pers.applets c).isSome && imageMatches s c) then emptyCell t c else autoStart t c 1

/-- Remove (R440). -/
def removeApplet (s : State) (c : Nat) : State × Nat :=
  if c > 31 then (s, Abt.valueRange)
  else if cellState s c = 0 ∨ installRuns s then (s, Abt.valueConflict)
  else if rootSpent s c then (s, Abt.epochExhausted)
  else
    let s1 := freeChildren (bumpRoot (leaveCell s c) c) c
    (emptyCell { s1 with pers := { s1.pers with nodes := SMap.del s1.pers.nodes (rootOf c) } } c, 0)

end Sys2Proof.Machine
end

