-- ==== Sys2Proof/Machine/Values.lean ====
section
/-! DEFINITION. What a read of an object returns (R98, R113): stored values, and the values that the device computes from its
state when they are read. -/

namespace Sys2Proof.Machine

/-- The first of these records that fit n bytes together. -/
def wholeRecords : Nat → List Bytes → Bytes
  | _, [] => []
  | n, b :: r => if b.length ≤ n then b ++ wholeRecords (n - b.length) r else []

/-- The records of the AUDIT log, as far as the 262,144 bytes of a capture hold them (R205). -/
def auditStream (s : State) : Bytes := wholeRecords 262144 (s.audit.recs.map fun p => p.bytes)

/-- Start-up and the sequencer (R132, R78, R185). -/
def baseVal (s : State) (i k : Nat) : Option Val :=
  match i, k with
  | 0x2100, 1 => some (.num s.boot.cause)
  | 0x2100, 3 => some (.num s.stage)
  | 0x2200, 1 => some (.num s.seq.adm)
  | 0x2200, 2 => some (.num s.seq.admTime)
  | _, _ => none

/-- Keys, engines and the store (R343, R360, R287, R316, R355, R414, R415, R419, R205). -/
def storeVal (s : State) (c : Ctx) (i k : Nat) : Option Val :=
  let z := (c.slot.bind fun x => SMap.look s.sessions x)
  match i, k with
  | 0xCA00, 2 => some (.num ((z.map fun x => x.created).getD 0))
  | 0xCA00, 6 => some (.oct ((z.map fun x => x.exported).getD (zeros 48)))
  | 0xCA10, 2 => some (.oct ((s.reports.find? fun p => p.1 = c.origin).elim [] fun p => p.2))
  | 0xCA10, 3 => some (.oct (identityPublic s))
  | 0xCA10, 4 => some (.oct (transferPublic s))
  | 0xCA20, 3 => some (.oct (zeros 44))
  | 0xDC80, 1 => some (.oct (auditStream s))
  | 0xDC80, 3 => some (.num ((s.audit.recs.head?.map fun p => p.adm).getD 0))
  | 0xDC80, 4 => some (.num (auditBytes s))
  | 0xE100, 1 => some (.oct (Prf.snapshot s))
  | 0xE200, 3 => some (.num (Prf.status s))
  | 0xE200, 4 => some (.num s.perf.tags)
  | 0xE200, 5 => some (.oct s.perf.recs.flatten)
  | 0xF000, 13 => some (.num (SMap.at' s.sheaf.targets c.origin 0xFF))
  | _, _ => none

/-- The families whose members are computed (R207, R341, R405, R462, R559). -/
def familyVal (s : State) (i k : Nat) : Option Val :=
  if 0xC000 ≤ i ∧ i < 0xC800 ∧ k = 1 then some (.num (counterValue s (i - 0xC000)))
  else if 0xE000 ≤ i ∧ i < 0xE00E then (if k ≤ 14 then some (.num (Prf.value s (i - 0xE000) k)) else none)
  else none

/-- The value of an object as a reader with context c sees it. -/
def readVal (s : State) (c : Ctx) (i k : Nat) : Val :=
  match liveVal s i k with
  | some v => v
  | none => match baseVal s i k with
    | some v => v
    | none => match storeVal s c i k with
      | some v => v
      | none => (familyVal s i k).getD (getObj s i k)

/-- The encoded value (R96). -/
def readBytes (s : State) (c : Ctx) (i k : Nat) (d : Desc) : Bytes := (readVal s c i k).bytes d.size

/-- Refusals of a read that depend on the object's state: an empty receive queue (R233), Output of a stream (R276, R280), a
report (R361), a closed export (R418). -/
def readConflict (s : State) (c : Ctx) (i k : Nat) : Nat :=
  if 0x4000 ≤ i ∧ i < 0xC000 ∧ chanBase k = 15 then (if (chanOf s (i - 0x4000)).queue = [] then Abt.valueConflict else 0)
  else if 0xCF00 ≤ i ∧ i < 0xCF10 ∧ k = 4 then
    let y := streamOf s (i - 0xCF00)
    if y.state = 4 then Abt.keyOrphaned else if y.withheld ∧ y.state ≠ 2 then Abt.valueConflict else 0
  else if i = 0xCA10 ∧ k = 2 then (if s.reports.any fun p => p.1 = c.origin then 0 else Abt.valueConflict)
  else if i = 0xDC10 ∧ k = 2 then (if s.exportRun.isSome then 0 else Abt.valueConflict)
  else 0

end Sys2Proof.Machine
end

