-- ==== Sys2Proof/Machine/SheafBase.lean ====
section
/-! DEFINITION. Pair rules that every request meets (R525, R540, R549, R551), and the start of a join (R532 to R534). -/

namespace Sys2Proof.Machine

/-- The local objects of R540, and the index of R554. -/
def localObject (i k : Nat) : Bool :=
  (decide (i = 0x1000) && decide (3 ≤ k ∧ k ≤ 5)) || decide (i = 0x1020) || decide (i = 0x1030) || decide (0x1200 ≤ i ∧ i ≤ 0x1232) ||
    decide (0x1F00 ≤ i ∧ i < 0x2000) || decide (i = 0x2010) || decide (i = 0x2100) || decide (i = 0x2300) || decide (i = 0x2310) ||
    decide (i = 0xCA10) || decide (i = 0xCF20) || decide (i = 0xCF38) || decide (0xD800 ≤ i ∧ i ≤ 0xD810) ||
    (decide (0xDA00 ≤ i ∧ i < 0xDB00) && decide (9 ≤ k ∧ k ≤ 13)) || decide (0xDB00 ≤ i ∧ i < 0xDC00) || decide (i = 0xDC20) ||
    decide (0xE000 ≤ i ∧ i < 0xF000) || decide (i = 0xF000)

/-- The partner apart: SHEAF without JOINED. -/
def apart (s : State) : Bool := sheafOn s && !joined s

/-- Writes that a suspended pair accepts (R548). -/
def suspendExempt (i k : Nat) : Bool := decide (i = 0xD801) || (decide (i = 0xF000) && decide (4 ≤ k ∧ k ≤ 6))

/-- Custody of counter k lies with this unit (R552). -/
def custodian (s : State) (k : Nat) : Bool := decide (num s (0xC000 + k) 10 = pairNo s)

/-- The refusal of a state-changing request to object i.k while the pair is apart or suspended, or 0 (R548, R551). -/
def pairGate (s : State) (i k : Nat) : Nat :=
  if !sheafOn s then 0
  else if num s 0xF000 1 = 4 then (if suspendExempt i k then 0 else Abt.pairSuspended)
  else if joined s then 0
  else if 0x4000 ≤ i ∧ i < 0xC000 then (if chanPair k = pairNo s then 0 else Abt.partnerAbsent)
  else if 0xC000 ≤ i ∧ i < 0xC800 ∧ (k = 2 ∨ k = 3) then (if custodian s (i - 0xC000) then 0 else Abt.partnerAbsent)
  else if pairNo s = 1 then (if localObject i k then 0 else Abt.partnerAbsent)
  else 0

/-- A concurrence is pending for 10 s (R549). -/
def pendingConcur (s : State) : List (Nat × Nat × Nat × Bytes × Bool) :=
  s.sheaf.concur.filter fun e => decide (s.seq.admTime ≤ e.1 + 10000000)

/-- Whether concurrence e matches a PAIR write by an origin of value v, none for a DOMAIN. -/
def concurs (e : Nat × Nat × Nat × Bytes × Bool) (o i k : Nat) (v : Option Bytes) : Bool :=
  decide (e.2.1 = i ∧ e.2.2.1 = k ∧ e.2.2.2.1 = (match v with | some b => digest16 b | none => zeros 16) ∧ e.2.2.2.2 ≠ onFollower o)

def hasConcur (s : State) (o i k : Nat) (v : Option Bytes) : Bool := (pendingConcur s).any fun e => concurs e o i k v

/-- The first matching write consumes the concurrence. -/
def useConcur (s : State) (o i k : Nat) (v : Option Bytes) : State :=
  let es := pendingConcur s
  { s with sheaf := { s.sheaf with concur := match es.find? fun e => concurs e o i k v with
    | some e => es.erase e
    | none => es } }

/-- n bytes from the buffer of tiller t, free where it holds too few (R377, R387). -/
def drawBuffer (s : State) (t n : Nat) : Bytes × State :=
  match (if s.entropyDown then none else takeBuffer s t n) with
  | some r => r
  | none => drawTiller t s n

/-- The HELLO body (R532). -/
def helloBody (s : State) (nonce : Bytes) : Bytes :=
  leBytes 1 (num s 0xF000 2) ++ zeros 3 ++ serialBytes ++ leBytes 4 (runningVersion s) ++ nonce ++ leBytes 8 s.sheaf.lastPair ++
    fitBytes 32 s.sheaf.lastChain ++ [if s.sheaf.restarted then 1 else 0]

/-- A join starts at admitted or device time t: HELLO (R534). The frame counters start again. -/
def beginJoin (s : State) (full : Bool) (t : Nat) (slot : Option Nat) : State :=
  let r := drawBuffer s 61 16
  let s1 := sheafQueue { r.2 with sheaf := { r.2.sheaf with out := [] } } 0x01 (helloBody r.2 r.1)
  let j : JoinRun := ⟨pairState s, t, full, r.1, none, false, 0, 0, false, slot, 0⟩
  { s1 with sheaf := { s1.sheaf with join := some j, key := none, sent := 0, got := 0, kept := [], resends := 0, items := [] } }

/-- The join is given up (R534): the unit returns to its state before it; 0xF000.01 follows in an admission (R193, log 49). -/
def abandonJoin (s : State) : State :=
  match s.sheaf.join with
  | none => s
  | some j =>
    let t := pushBack s (.pairState j.prev)
    { t with sheaf := { t.sheaf with join := none, key := none, out := [], kept := [], items := [], resends := 0, inbox := [], part := [] } }

/-- JOINING in the admission that starts a join (R534). -/
def joining (s : State) : State := setNum (dropPairState s) 0xF000 1 1

end Sys2Proof.Machine
end

