-- ==== Sys2Proof/Machine/Effects.lean ====
section
/-! DEFINITION. Checks 5 to 10 of R107 and what a write of a value does (check 12, check 15), object by object. -/

namespace Sys2Proof.Machine

/-! Checks 5 to 10. -/

/-- Check 5 (R95). -/
def findObj (i k : Nat) : Except Nat Desc :=
  match Dict.find i k with
  | (false, _) => .error Abt.objectUnknown
  | (true, none) => .error Abt.subindexUnknown
  | (true, some d) => .ok d

/-- Check 6: lifecycle, where it depends on the object alone (R344, R437, R533). -/
def lifecycleCheck (s : State) (write : Bool) (i k : Nat) : Nat :=
  let lc := lifecycle s
  if i = 0xCA00 ∧ k ≤ 6 ∧ lc = 0xA5 then Abt.lifecycle
  else if i = 0xD100 ∧ [1, 3, 4, 6].contains k ∧ lc ≠ 0x5A then Abt.lifecycle
  else if i = 0xF000 ∧ k = 4 ∧ write ∧ lc ≠ 0x5A then Abt.lifecycle
  else 0

/-- The role requirement in force: PAIR in place of OWNER in SHEAF (R344, R437, R482, R510, R553). -/
def roleInForce (s : State) (write : Bool) (i k : Nat) (d : Desc) : Role :=
  if !sheafOn s then d.role
  else if d.role ≠ .owner then d.role
  else if i = 0xCA00 ∨ (i = 0xCA20 ∧ (k = 3 ∨ k = 4)) ∨ (i = 0xD100 ∧ [1, 3, 4, 6].contains k) ∨
      (0xDA00 ≤ i ∧ i < 0xDB00 ∧ k ≤ 8) ∨ (i = 0xF000 ∧ k = 5 ∧ joined s) ∨ (write = true ∧ 0xC000 ≤ i ∧ i < 0xC800 ∧ k = 3) then .pair
  else .owner

/-- Check 7: the pair, TAMPER_HELD and CALDERA (R108, R492, R548, R551). -/
def stateCheck (s : State) (write : Bool) (i k : Nat) (d : Desc) : Nat :=
  let g := if write then pairGate s i k else 0
  if g ≠ 0 then g
  else if s.stage = 0x10 ∧ !(i = 0xD801 ∨ (write = false ∧ d.role = .any)) then Abt.tamperHeld
  else if calderaOn s ∧ write = true ∧ d.role ≠ .service then Abt.caldera
  else 0

/-- Check 8 (R98). -/
def accessCheck (write : Bool) (d : Desc) : Nat :=
  if write then (if d.acc = .const ∨ d.acc = .ro then Abt.readOnly else 0) else if d.acc = .wo then Abt.writeOnly else 0

/-- Whether a caller is an applet. -/
def isApplet (c : Ctx) : Bool := decide (0x100 ≤ c.origin ∧ c.origin < 0x120)

/-- A SERVICE session granted Send and Receive on channel n (R507). -/
def granted (s : State) (c : Ctx) (n : Nat) : Bool :=
  serviceOn s && serviceChannel s n && decide (c.role = some 3) && c.slot.isSome

/-- Send, Receive and Receive release of this unit's channels. -/
def isSendRecv (i k : Nat) : Bool := decide (0x4000 ≤ i ∧ i < 0xC000) && decide (14 ≤ chanBase k ∧ chanBase k ≤ 16)

/-- Owner of a channel, a stream slot or a PLE slot (R233, R270, R304). -/
def ownerCheck (s : State) (c : Ctx) (write : Bool) (i k : Nat) : Nat :=
  if isSendRecv i k then (if granted s c (i - 0x4000) ∨ c.origin = cnum s (i - 0x4000) 5 then 0 else Abt.role)
  else if 0xCF00 ≤ i ∧ i < 0xCF10 ∧ (k = 2 ∨ k = 3 ∨ k = 4 ∨ k ≥ 6) then
    let y := streamOf s (i - 0xCF00)
    let mine := decide (y.ownOrigin = c.origin ∧ some y.ownSess = c.slot)
    if y.state ≠ 0 then (if mine then 0 else Abt.role)
    else if write = true ∧ (k = 2 ∨ k = 12) then 0
    else if write = false ∧ k = 12 ∧ mine then 0
    else Abt.role
  else if 0xCF30 ≤ i ∧ i < 0xCF38 ∧ (k = 2 ∨ k = 3 ∨ k = 4 ∨ k ≥ 6) then
    let y := pleOf s (i - 0xCF30)
    if y.state ≠ 0 then (if y.ownOrigin = c.origin ∧ some y.ownSess = c.slot then 0 else Abt.role)
    else if write = true ∧ k = 2 then 0 else Abt.role
  else 0

/-- PROVISION stands for a caller: in ISLAND only for the origin that set it (R510). -/
def provisionFor (s : State) (c : Ctx) : Bool := provisionOn s && (!islandOn s || decide (c.origin = s.modes.provBy))

/-- A sensor setting (R481). -/
def isSensorSetting (i k : Nat) : Bool := decide (0xDA00 ≤ i ∧ i < 0xDB00) && decide (1 ≤ k ∧ k ≤ 8)

/-- The VIGIL rule refuses the write of a value to a sensor setting, whatever the other modes (R482, R510). -/
def vigilRefuses (s : State) (c : Ctx) (i k : Nat) (v : Option (Option Bytes)) : Bool :=
  match v with
  | some (some b) => vigilOn s && isSensorSetting i k && decide (sensorWriteCheck s (i - 0xDA00) k (leNat b) (provisionFor s c) = Abt.mode)
  | _ => false

/-- Concurrence of a PAIR write, where its value is at hand (R549). Where a rule of VIGIL refuses the write as well, that rule's code is
reported, as VIGIL ranks above SHEAF (R509). -/
def pairCheck (s : State) (c : Ctx) (i k : Nat) (v : Option (Option Bytes)) : Nat :=
  let code := if !joined s then Abt.partnerAbsent
    else match v with
      | none => 0
      | some x => if hasConcur s c.origin i k x then 0 else Abt.pairNotConcurred
  if code ≠ 0 ∧ vigilRefuses s c i k v then Abt.mode else code

/-- Check 9 (R99): v is the value to be written, some none for a DOMAIN, none where it is not yet complete. -/
def roleCheck (s : State) (c : Ctx) (write : Bool) (i k : Nat) (d : Desc) (v : Option (Option Bytes)) : Nat :=
  let viaCell := decide (write = true ∧ k = 5 ∧ v = some (some [1])) && islandOn s
  if isApplet c ∧ i = 0x2000 ∧ !viaCell then Abt.role
  else if i = 0xCA20 ∧ k = 1 ∧ write = true ∧ lifecycle s = 0xA5 then (if c.origin = 1 then 0 else Abt.role)
  else
    let need := if i = 0xCA20 ∧ k = 1 ∧ write = true then Role.owner else roleInForce s write i k d
    if isSendRecv i k ∧ granted s c (i - 0x4000) then 0
    else
      let code := match need, c.role with
        | .any, _ => 0
        | _, none => Abt.noSession
        | .operator, some r => if r = 1 ∨ r = 2 then 0 else Abt.role
        | .owner, some r => if r = 2 then 0 else Abt.role
        | .service, some r => if r = 3 then 0 else Abt.role
        | .pair, some r =>
          if !sheafOn s then Abt.mode else if r ≠ 2 ∨ c.slot.isNone then Abt.role
          else pairCheck s c i k (if write then v else none)
      if code ≠ 0 then code else ownerCheck s c write i k

/-- Writes that need PROVISION whatever their value (R344, R356, R357, R405, R437, R554). -/
def needsProvision (s : State) (i k : Nat) : Bool :=
  (decide (i = 0xCA00) && [1, 3, 5].contains k) || (decide (i = 0xCA20) && (decide (k = 3 ∨ k = 4) || (decide (k = 1) && decide (lifecycle s = 0x5A)))) ||
    (decide (0xC000 ≤ i ∧ i < 0xC800) && decide (k = 3)) || (decide (i = 0xD100) && decide (k = 6)) ||
    (decide (i = 0xF000) && decide (k = 2 ∨ k = 3))

/-- Check 10 (R207, R205, R507, R509, R510, R80). -/
def modeCheck (s : State) (c : Ctx) (write : Bool) (i k : Nat) (d : Desc) : Nat :=
  if 0x4000 ≤ i ∧ i < 0xC000 ∧ k > 0x40 ∧ !sheafOn s then Abt.mode
  else if isSendRecv i k ∧ serviceOn s ∧ serviceChannel s (i - 0x4000) ∧ !granted s c (i - 0x4000) then Abt.mode
  else if 0xE000 ≤ i ∧ i < 0xF000 ∧ d.role = .service ∧ !serviceOn s then Abt.mode
  else if i = 0xDC80 ∧ k ≤ 2 ∧ !auditOn s then Abt.mode
  else if !write then 0
  else if i = 0x2100 ∧ k ≥ 12 ∧ sheafOn s then Abt.mode
  else if i = 0xCA20 ∧ k = 1 ∧ sheafOn s then Abt.mode
  else if needsProvision s i k ∧ !provisionFor s c then Abt.mode
  else if i = 0xCA20 ∧ (k = 7 ∨ k = 8) ∧ !calderaOn s then (if Config.outsideCaldera then Abt.mode else Abt.valueConflict)
  else 0

/-- Checks 6 to 10 in order: the first refusal, or 0. -/
def objectChecks (s : State) (c : Ctx) (write : Bool) (i k : Nat) (d : Desc) (v : Option (Option Bytes)) : Nat :=
  [lifecycleCheck s write i k, stateCheck s write i k d, accessCheck write d, roleCheck s c write i k d v, modeCheck s c write i k d].foldl
    (fun a x => if a ≠ 0 then a else x) 0

/-! Check 12: the value. -/

/-- Encoding by type (R96). -/
def encodingCheck (d : Desc) (v : Bytes) : Nat :=
  let n := leNat v
  match d.ty with
  | .bool => if n > 1 then Abt.valueEncoding else 0
  | .s20 => if n / 0x80000 = 0 ∨ n / 0x80000 = 0x1FFF then 0 else Abt.valueEncoding
  | .label => if (v.headD 0).toNat > 32 ∨ v.length ≠ 1 + (v.headD 0).toNat then Abt.valueEncoding else 0
  | _ => 0

/-- A range check. -/
def within (b : Bool) : Nat := if b then 0 else Abt.valueRange

/-- The first refusal of two. -/
def orElse (a b : Nat) : Nat := if a ≠ 0 then a else b

/-- A conflict. -/
def conflictIf (b : Bool) : Nat := if b then Abt.valueConflict else 0

/-- Network settings (R155 to R158). -/
def netCheck (s : State) (i k n : Nat) (v : Bytes) : Nat :=
  let enabled := conflictIf (decide (k ≠ 1) && decide (num s i 1 = 1))
  if i < 0x1204 then
    let r := match k with
      | 2 => within ([125000, 250000, 500000, 1000000].contains n)
      | 3 => within ([1000000, 2000000, 4000000, 5000000, 8000000].contains n)
      | 4 | 5 => within (decide (600 ≤ n ∧ n ≤ 900))
      | 6 => within (decide (n ≤ 127))
      | 7 => within (decide (n ≤ 1))
      | _ => 0
    orElse r (orElse enabled (conflictIf ((decide (k = 2) && decide (num s i 3 < n)) || (decide (k = 3) && decide (n < num s i 2)))))
  else if i < 0x1230 then
    let tx := decide (i = 0x1220)
    let r := match k with
      | 2 => within (!bit (v.headD 0).toNat 0)
      | 3 => within (!tx || decide (n ≤ 31))
      | 4 => within (decide (n ≤ 15))
      | 5 => within (decide (2 ≤ n ∧ n ≤ 16))
      | 6 => within (decide (20 ≤ n ∧ n ≤ 255))
      | _ => 0
    orElse r enabled
  else
    let dup := decide (v ≠ zeros 6) && (List.range 127).any fun m => decide (m + 1 ≠ k) && decide (oct s i (m + 1) = v)
    orElse (within (!bit (v.headD 0).toNat 0)) (conflictIf dup)

/-- The template and the port of every channel with a route: of this unit's channels, and in SHEAF of its partner's, whose Template and
Route are mirrored (R216, R542). -/
def routedChans (s : State) : List (Nat × Nat) :=
  s.pers.dict.filterMap fun p =>
    let i := p.1 / 256
    let k := p.1 % 256
    if 0x4000 ≤ i ∧ i < 0xC000 ∧ (k = chSub s 4 ∨ (sheafOn s ∧ (k = 4 ∨ k = 0x44))) ∧ p.2.toNat ≠ 0 then some (num s i (k - 1), p.2.toNat / 256) else none

/-- Template values (R215, R216). -/
def templateCheck (s : State) (i k n : Nat) : Nat :=
  match k with
  | 1 => within (decide (10 ≤ n ∧ n ≤ 10000))
  | 3 => within (decide (2 ≤ n ∧ n ≤ 16))
  | 4 => within (decide (1 ≤ n ∧ n ≤ 16))
  | 5 => orElse (within (decide (n ≤ 212)))
      (conflictIf (decide (n > 36) && (routedChans s).any fun p => decide (p.2 < 4) && decide (p.1 = i - 0x3000)))
  | 6 => within (decide (1 ≤ n))
  | _ => 0

/-- Output, input, analog and shared field settings (R462, R470, R472, R473). -/
def fieldCheck (s : State) (i k n : Nat) : Nat :=
  if i < 0xDB08 then
    match k with
    | 2 => within (decide (n = 0) || decide (10 ≤ n ∧ n ≤ 60000))
    | 3 => within (decide (n ≤ 15))
    | 4 => within (decide (10 ≤ n ∧ n ≤ 10000))
    | _ => within (decide (n ≤ 400))
  else if i < 0xDB20 then
    match k with
    | 3 => within (decide (1 ≤ n))
    | 4 => within (decide (1 ≤ n ∧ n ≤ 10000))
    | 5 => within (decide (n ≤ 3600))
    | _ => 0
  else if i < 0xDB24 then
    match k with
    | 3 => conflictIf (decide (s20Int n > s20Int (num s i 4)))
    | 4 => conflictIf (decide (s20Int (num s i 3) > s20Int n))
    | _ => 0
  else if k = 4 then within ([1, 10, 100, 1000].contains n) else 0

/-- Owners that a counter or a channel accepts. -/
def cellOrigin (n : Nat) : Bool := decide (0x100 ≤ n ∧ n < 0x120)

/-- RW objects that only hold a value: check 12, or 0. -/
def plainCheck (s : State) (i k n : Nat) (v : Bytes) : Nat :=
  match i, k with
  | 0x1010, 2 => within (decide (10 ≤ n ∧ n ≤ 86400))
  | 0x1010, 3 => within (decide (10 ≤ n ∧ n ≤ 3600))
  | 0x1020, 4 => if n / 512 ≠ 0 then Abt.valueReserved else 0
  | 0x2000, 9 => within (decide (60 ≤ n ∧ n ≤ 86400))
  | 0x2010, 1 => within (decide (n ≤ 4))
  | 0x2010, 2 => within (decide (n ≤ 100000))
  | 0xDC00, 1 => within (decide (n ≤ 1))
  | 0xE200, 2 => within (decide (10 ≤ n ∧ n ≤ 24))
  | 0xE300, 1 => within (decide (100 ≤ n ∧ n ≤ 10000))
  | 0xF000, 2 => orElse (within (decide (n ≤ 1))) (conflictIf (sheafOn s))
  | 0xF000, 3 => conflictIf (sheafOn s)
  | _, _ =>
    if 0x1200 ≤ i ∧ i < 0x1233 then netCheck s i k n v
    else if 0x3000 ≤ i ∧ i < 0x3040 then templateCheck s i k n
    else if 0xC000 ≤ i ∧ i < 0xC800 then
      if k = 4 then within (decide (n = 0 ∨ n = 1) || cellOrigin n) else within (decide (n ≤ 1))
    else if 0xDB00 ≤ i ∧ i < 0xDC00 then fieldCheck s i k n
    else 0

/-! Effects of the actions. -/

/-- An action that takes only 0x01. -/
def onlyOne (n : Nat) (lat : Nat) (s : State) (e : Eff) : Eff := if n = 1 then e else Eff.fail s lat Abt.valueRange

/-- A write with a code and, where it passes, the state after it. -/
def Eff.when (s : State) (code : Nat) (t : State) (acts : List Act) : Eff :=
  if code ≠ 0 then Eff.fail s Lat.write code else { Eff.ok t Lat.write with acts := acts }

/-- Channel n's objects of this unit (R212 to R214, R233, R240); b is the subindex in the table. -/
def chanWrite (s : State) (n b v : Nat) (phys : Phys) : Eff :=
  let st := chanState s n
  let live' := decide (st = Ch.opening ∨ st = Ch.isOpen ∨ st = Ch.rekeying)
  let can := fun (r : Nat) => decide (r ≠ 0) && decide (r / 256 < 4)
  let maxp := fun (t : Nat) => num s (0x3000 + t) 5
  match b with
  | 2 => Eff.of Lat.write (writeKeyNode s n v)
  | 3 => Eff.when s (orElse (within (decide (v ≤ 63))) (conflictIf (live' || (can (cnum s n 4) && decide (maxp v > 36))))) s []
  | 4 =>
    let rsv := v &&& 0xF880 ≠ 0
    let ok := decide (v = 0) || (decide (v / 256 ≤ 6) && decide (1 ≤ v % 256 ∧ v % 256 ≤ 127))
    Eff.when s (orElse (if rsv then Abt.valueReserved else 0) (orElse (within ok) (conflictIf (live' || (can v && decide (maxp (cnum s n 3) > 36)))))) s []
  | 5 =>
    let listed := decide (v = 1) || cellOrigin v || (sheafOn s && decide (v = 0x4001))
    let homed := !sheafOn s || cellOrigin v || decide (v = if pairNo s = 1 then 0x4001 else 1)
    Eff.when s (orElse (within listed) (conflictIf (live' || !homed))) s []
  | 6 => if v > 1 then Eff.fail s Lat.write Abt.valueRange
      else if v = 1 then Eff.of Lat.write (openChannel s n phys) else Eff.ok (closeChannel s n phys) Lat.write
  | 7 => if v > 1 then Eff.fail s Lat.write Abt.valueRange
      else if v = 1 then Eff.of Lat.write (rekeyChannel s n phys) else Eff.ok s Lat.write
  | 12 => Eff.when s (if v / 128 ≠ 0 then Abt.valueReserved else 0) (setC s n 0x0B (clearBits (cnum s n 0x0B) (v &&& 0x7C))) []
  | 13 =>
    let old := interval s n
    let new := if v ≠ 0 then v else tmplAt s n 0 (num s (0x3000 + cnum s n 3) 1)
    let over' := live' && decide (heartbeatLoad s + ceilRate new > 300000 + ceilRate old)
    let s1 := if live' then updChan s n fun c => { c with due := c.due + 1000 * new - 1000 * old } else s
    Eff.when s (orElse (within (decide (v = 0) || decide (10 ≤ v ∧ v ≤ 10000))) (conflictIf over')) s1 []
  | 16 => match (chanOf s n).queue.head? with
      | some r => if v = r.seq then Eff.ok (popRecord s n) Lat.write else Eff.fail s Lat.write Abt.valueConflict
      | none => Eff.fail s Lat.write Abt.valueConflict
  | _ => Eff.ok s Lat.write

/-- An Input transfer is open on the object. -/
def inputOpen (s : State) (i k : Nat) : Bool := s.transfers.any fun t => t.writing && decide (t.idx = i ∧ t.sub = k)

/-- Write transfers of an object discarded without a count (R277, R305). -/
def closeInput (s : State) (i k : Nat) : State :=
  { s with transfers := s.transfers.filter fun t => !(t.writing && decide (t.idx = i ∧ t.sub = k)) }

/-- Stream slot f (R271 to R279). -/
def streamWrite (s : State) (c : Ctx) (f k : Nat) (v : Bytes) (phys : Phys) : Eff :=
  let y := streamOf s f
  let i := 0xCF00 + f
  match k with
  | 2 =>
    let s0 := if y.state = 0 then setNum (setNum (setNum s i 10 0) i 11 0) i 13 0 else s
    let r := beginStreamOp s0 f c.caller v 32768
    if r.2 = 0 then Eff.ok r.1 Lat.write else Eff.fail s Lat.write r.2
  | 10 => onlyOne (leNat v) Lat.write s
      (if y.state = 4 then Eff.fail s Lat.write Abt.keyOrphaned
       else if y.state ≠ 1 ∨ y.remain = 0 then Eff.fail s Lat.write Abt.valueConflict
       else Eff.ok (failStream (closeInput s i 3) f Abt.lengthShort) Lat.write)
  | 11 => onlyOne (leNat v) Lat.cipher s (parkStream s f (inputOpen s i 3) phys)
  | _ => onlyOne (leNat v) Lat.write s (Eff.ok (releaseStream (closeInput s i 3) f) Lat.write)

/-- PLE slot f (R304 to R308). -/
def pleWrite (s : State) (c : Ctx) (f k : Nat) (v : Nat) (phys : Phys) : Eff :=
  match k with
  | 3 => onlyOne v (pleLat (pleOf s f)) s (pleSlotRunOp s f c.caller phys)
  | _ => onlyOne v Lat.write s (Eff.ok (setPle (closeInput s (0xCF30 + f) 2) f ple0) Lat.write)

/-- The needs of checks 6 and 10 that depend on the value, which come after its own codes of check 12 and before those of check 15
(R107): unmet says that one is not met. HANDLE_INVALID, KEY_USAGE and KEY_ORPHANED are codes of the effect, since the table's row of
check 12 lists none of them (DEDUCED, log 128). -/
def afterValue (s : State) (unmet : Bool) (r : State × Nat) : State × Nat :=
  if unmet ∧ !([Abt.valueRange, Abt.valueReserved, Abt.valueEncoding, Abt.valueConflict].contains r.2)
  then (s, Abt.mode) else r

/-- 0xCA00 (R343 to R348, R352, R549). -/
def keyWrite (s : State) (c : Ctx) (k : Nat) (v : Bytes) (phys : Phys) : Eff :=
  let g := fun (i n : Nat) => leNat ((v.drop i).take n)
  let setCreated := fun (t : State) (h : Nat) => match c.slot with
    | some x => { t with sessions := t.sessions.map fun p => if p.1 = x then (p.1, { p.2 with created := h }) else p }
    | none => t
  match k with
  | 1 =>
    let r := createNodeOp s v none
    Eff.of Lat.write (afterValue s (atOrBelow s 2 (g 0 4 % 0x10000) && !serviceOn s) (setCreated r.1 r.2.2, r.2.1))
  | 3 => Eff.of Lat.write (hostNodes s (g 0 4) (removeNodeOp s (g 0 4)))
  | 4 =>
    Eff.of Lat.write (afterValue s ((decide (g 0 4 % 0x10000 = 4) && sheafOn s) ||
      (decide (g 0 4 / 0x10000 % 16 = 1 ∨ g 4 4 ≠ 0) && !provisionFor s c)) (hostNodes s (g 0 4) (bumpOp s (g 0 4) (g 4 4))))
  | _ => exportOp s (g 0 4) (g 4 4) (c.slot.getD 0xFF) phys

/-- 0xCA20 (R355 to R359): numbers; the DOMAINs end in ownershipEnd. -/
def ownWrite (s : State) (c : Ctx) (k : Nat) (v : Bytes) (phys : Phys) : Eff :=
  let slot := c.slot.getD 0xFF
  match k with
  | 3 => pairSecretOp s v slot phys
  | 4 =>
    if leNat v ≠ 1 then Eff.fail s Lat.write Abt.valueRange
    else if spentAny s [1, 2] then Eff.fail s Lat.write Abt.epochExhausted
    else Eff.longOp s 10000 [.pairSet []] [] slot
  | _ =>
    if leNat v ≠ 0x52455449 then Eff.fail s Lat.write Abt.valueRange
    else Eff.longOp (stopToggle { s with seq := { s.seq with retiring := true } }) 10000 [.retireReset] [] slot

/-- The end of a Take ownership or Recover owner transfer (R356). -/
def ownershipEnd (s : State) (c : Ctx) (k : Nat) (v : Bytes) (phys : Phys) : Eff :=
  takeOwnershipOp s v (decide (k = 1)) (c.slot.getD 0xFF) phys

/-- Output commands while the toggle is recorded as stopped (R457). -/
def toggleStopped (s : State) : Bool := decide (num s 0xDB30 6 = 0)

/-- Outputs and the permit (R457, R462, R473). -/
def outputWrite (s : State) (i k : Nat) (v : Bytes) : Eff :=
  let n := leNat v
  let rel := s.seq.admTime + Lat.write
  if i = 0xDB30 ∧ k = 1 then
    Eff.when s (orElse (within (decide (n ≤ 1))) (conflictIf (decide (n = 1) && toggleStopped s))) s [.lane1 (.guardSet 0 0 n)]
  else if i = 0xDB30 then
    let mask := (v.getD 0 0).toNat
    let on := (v.getD 1 0).toNat &&& mask
    let s1 := (List.range 8).foldl (fun t o => if bit mask o then setNum t (0xDB00 + o) 1 (if bit on o then 1 else 0) else t) s
    let s2 := updBar s1 fun b => { b with cmdAt := (List.range 8).foldl (fun m o => if bit on o then SMap.put m o rel else m) b.cmdAt }
    Eff.when s (conflictIf (decide (on ≠ 0) && toggleStopped s)) s2 [.lane1 (.guardSet mask on 0xFF)]
  else
    let o := i - 0xDB00
    let s1 := if n = 1 then updBar s fun b => { b with cmdAt := SMap.put b.cmdAt o rel } else s
    Eff.when s (orElse (within (decide (n ≤ 1))) (conflictIf (decide (n = 1) && toggleStopped s))) s1
      [.lane1 (.guardSet (2 ^ o) (if n = 1 then 2 ^ o else 0) 0xFF)]

/-- The verdict on an image (R85, R129, R130): 0, or the code. -/
def imageCode (s : State) (x : Image) : Nat :=
  let b := x.bytes
  let g := fun (i n : Nat) => leNat ((b.drop i).take n)
  if x.bad then Abt.signatureInvalid
  else if x.shipped then (if g 8 4 < s.otp.floor then Abt.rollback else 0)
  else if b.take 4 ≠ [0x46, 0x4C, 0x46, 0x57] ∨ g 4 2 ≠ 1 ∨ g 6 2 ≠ 0 ∨ g 0x18 8 ≠ 0 ∨ g 0xD2D 3 ≠ 0 ∨ g 0x10 4 = 0 ∨ g 0x10 4 > 1045200 ∨
      b.length ≠ 3376 + g 0x10 4 ∨ g 0x14 4 ≥ g 0x10 4 then Abt.valueEncoding
  else if sha256 (b.drop 3376) ≠ (b.drop 0x20).take 32 ∨
      !Dsa.verify (fitBytes 1952 Config.lemganFirmwareKey) (ascii "FL2820-FW") (b.take 64) ((b.drop 0x40).take 3309) then Abt.signatureInvalid
  else if g 8 4 < s.otp.floor then Abt.rollback
  else 0

/-- The inactive slot (R128): 0 A, 1 B. -/
def inactive (s : State) : Nat := 1 - num s 0x2100 4
def imageOf (s : State) (x : Nat) : Image := if x = 0 then s.pers.imageA else s.pers.imageB
def setImage (s : State) (x : Nat) (im : Image) : State :=
  { s with pers := if x = 0 then { s.pers with imageA := im } else { s.pers with imageB := im } }

/-- Verify, Activate and Raise floor (R130, R131). -/
def firmwareWrite (s : State) (k n : Nat) (phys : Phys) : Eff :=
  match k with
  | 3 => onlyOne n Lat.write s
      (let f := unitsFault s phys ⟨false, true, 2⟩ false
       let code := if f ≠ 0 then f else imageCode s (imageOf s (inactive s))
       let im := imageOf s (inactive s)
       { Eff.fail (if code = 0 then setImage s (inactive s) { im with valid := true } else s) 20000 code with
         acts := if f ≠ 0 then [] else [.setObj (objKey 0x1100 2) (.num (if code = 0 then 3 else 4))], long := true })
  | 4 => onlyOne n Lat.write s
      (if num s 0x1100 2 ≠ 3 then Eff.fail s Lat.write Abt.valueConflict
       else { Eff.ok { s with pers := { s.pers with preferred := inactive s } } Lat.write with acts := [.coreReset 7] })
  | _ =>
    if n ≠ num s 0x2100 5 ∨ n ≤ s.otp.floor then Eff.fail s Lat.write Abt.valueConflict
    else { Eff.ok s 10000 with acts := [.burnFloor n], long := true }

/-- The full self-test (R127). -/
def selfTestWrite (s : State) (n : Nat) (phys : Phys) : Eff :=
  onlyOne n Lat.write s
    (if phys = .engine then { Eff.fail { s with boot := { s.boot with halt := true } } 60000 Abt.engineFault with long := true }
     else { Eff.ok s 60000 with long := true })

/-- Journal export, release and close, and the AUDIT release (R415 to R417, R205). -/
def journalWrite (s : State) (i k : Nat) (v : Bytes) (phys : Phys) : Eff :=
  let n := leNat v
  match i, k with
  | 0xDC10, 1 => match exportStartOp s v with
      | .error e => Eff.fail s Lat.write e
      | .ok bs =>
        let f := unitsFault s phys ⟨true, true, 2⟩ true
        let t := claimMasks (blind (warm s 0x14) 12 (blindBytes 7)) 12
        if f ≠ 0 then { Eff.fail s 12000 f with long := true }
        else match exportStream s bs with
          | none => { Eff.fail t 12000 Abt.resultCheck with long := true }
          | some run => { Eff.ok t 12000 with acts := [.openExport run], long := true, nodes := [0x14] }
  | 0xDC10, 5 => Eff.of Lat.write (releaseThrough s n)
  | 0xDC10, _ => onlyOne n Lat.write s (Eff.ok (closeExport s) Lat.write)
  | _, _ =>
    let newest := (s.audit.recs.getLast?.map fun p => p.adm).getD 0
    let a := { s.audit with recs := s.audit.recs.filter fun p => p.adm > n }
    Eff.when s (within (decide (num s 0xDC80 2 ≤ n ∧ n ≤ newest))) { s with audit := a } []

/-- READY entered from TAMPER_HELD (R492). -/
def leaveHeld (s : State) : State × List Act :=
  if s.stage = 0x10 then ({ s with stage := 0x11 }, [.ready true]) else (s, [])

/-- Acknowledgement, Leave of CALDERA and sensor settings (R482, R492, R501). -/
def tamperWrite (s : State) (c : Ctx) (i k n : Nat) : Eff :=
  if i = 0xD801 then
    if n = 0 ∨ n ≠ num s 0xD800 5 then Eff.fail s Lat.write Abt.valueConflict
    else
      let r := leaveHeld (acknowledge s n)
      { Eff.ok (updateAlarm r.1) Lat.write with acts := r.2 }
  else if i = 0xD802 then
    if n ≠ 1 then Eff.fail s Lat.write Abt.valueRange
    else if num s 0xD802 1 ≠ 2 ∨ bit (num s 0xD800 1) 0 then Eff.fail s Lat.write Abt.valueConflict
    else
      let s1 := setNum s 0xD802 1 0
      let s2 := (List.range 32).foldl (fun t x => if (cellState t x = 1 ∨ cellState t x = 4 ∧ num t (0xD000 + x) 7 ≠ 9) ∧ num t (0xD000 + x) 10 = 1
        then autoStart t x 0 else t) s1
      { Eff.ok (updateAlarm s2) Lat.write with acts := if s.stage = 0x11 then [.ready false] else [] }
  else
    let x := i - 0xDA00
    Eff.when s (sensorWriteCheck s x k n (provisionFor s c)) s []

/-- Control and Mailbox in of cell x (R432, R442). -/
def cellWrite (s : State) (x k n : Nat) : Eff :=
  match k with
  | 9 => Eff.of Lat.write (controlOp s x n)
  | 11 =>
    let st := cellState s x
    if st = 4 then Eff.fail s Lat.write Abt.appletFaulted
    else if st = 0 ∨ st = 1 then Eff.fail s Lat.write Abt.appletStopped
    else { Eff.ok s Lat.write with acts := [.event x 4] }
  | _ => Eff.ok s Lat.write

/-- Leave (R553). -/
def leavePair' (s : State) (phys : Phys) : State :=
  let s1 := (keyedChans s).foldl (fun t p => closeChannel t p.1 phys) s
  let s2 := setNum (setNum (dropPairState s1) 0xF000 1 0) 0x2000 2 0
  setNum (setNum { answerRelayed s2 with sheaf := { s2.sheaf with join := none, awaits := [], digests := [], theirs := [], owed := [], dirty := [], apart := false } } 0xF000 8 0) 0xF000 9 0

/-- The Sheaf objects (R533, R549, R553, R554). -/
def sheafWrite (s : State) (c : Ctx) (k : Nat) (v : Bytes) (phys : Phys) : Eff :=
  let n := leNat v
  match k with
  | 4 =>
    if n ≠ 1 ∧ n ≠ 2 then Eff.fail s Lat.write Abt.valueRange
    else if joined s ∨ num s 0xCA20 6 = 0 ∨ oct s 0xF000 3 = zeros 16 ∨ s.sheaf.join.isSome then Eff.fail s Lat.write Abt.valueConflict
    else { Eff.ok (joining (beginJoin s (decide (n = 2)) s.seq.admTime (some s.seq.adm))) 2000000 with
           long := true, work := .output (c.slot.getD 0xFF), nodes := [0x17] }
  | 5 => if n ≠ 1 then Eff.fail s Lat.write Abt.valueRange else if sheafOn s then Eff.ok (leavePair' s phys) Lat.write else Eff.ok s Lat.write
  | 6 =>
    if n ≠ 1 then Eff.fail s Lat.write Abt.valueRange
    else if !(sheafOn s && joined s) then Eff.fail s Lat.write Abt.partnerAbsent
    else { Eff.ok s Lat.write with acts := if homeHere s c.origin then [] else [.coreReset 10] }
  | 13 =>
    Eff.when s (within (decide (n ≤ 1 ∨ n = 0xFF))) { s with sheaf := { s.sheaf with targets := SMap.store s.sheaf.targets c.origin n 0xFF } } []
  | _ =>
    let i := leNat (v.take 2)
    let x := (v.getD 2 0).toNat
    let isPair := match (Dict.find i x).2 with
      | some d => decide (roleInForce s true i x d = .pair)
      | none => false
    let rsv := (v.getD 3 0) ≠ 0 ∨ (v.drop 20).any (· ≠ 0)
    let pairToo := isPair || (decide (i = 0x2000 ∧ x = 7) && sheafOn s)
    Eff.when s (if rsv then Abt.valueReserved else conflictIf (!pairToo || decide ((pendingConcur s).length ≥ 4)))
      { s with sheaf := { s.sheaf with concur := pendingConcur s ++ [(s.seq.admTime, i, x, (v.drop 4).take 16, onFollower c.origin)] } } []

/-- Setting PROVISION is a PAIR action in SHEAF (R510). -/
def modesWrite (s : State) (c : Ctx) (k n : Nat) (v : Bytes) : Eff :=
  if k = 8 then Eff.ok (serviceAllowedOp s n) Lat.write
  else if k = 9 then
    Eff.when s (plainCheck s 0x2000 9 n v) s (if provisionOn s ∧ num s 0x2000 10 + n * 1000000 ≤ s.seq.admTime then [.lapse] else [])
  else
    let e := modeWrite s c k n
    if k = 7 ∧ n = 1 ∧ e.code = 0 ∧ sheafOn s then
      let code := pairCheck s c 0x2000 7 (some (some v))
      if code ≠ 0 then Eff.fail s Lat.write code else e
    else e

/-- The effect of writing value v to object i.k, past checks 5 to 11: check 12 and the effect. -/
def writeValue (s : State) (c : Ctx) (i k : Nat) (d : Desc) (v : Bytes) (phys : Phys) : Eff :=
  let n := leNat v
  let enc := encodingCheck d v
  if enc ≠ 0 then Eff.fail s Lat.write enc
  else if 0x4000 ≤ i ∧ i < 0xC000 then chanWrite s (i - 0x4000) (chanBase k) n phys
  else if 0xC000 ≤ i ∧ i < 0xC800 ∧ (k = 2 ∨ k = 3) then
    let r := counterOp s (i - 0xC000) c.origin (decide (k = 3)) n phys
    Eff.of (if sheafOn s then 20 else Lat.write) r
  else if 0xCF00 ≤ i ∧ i < 0xCF10 then streamWrite s c (i - 0xCF00) k v phys
  else if 0xCF30 ≤ i ∧ i < 0xCF38 then pleWrite s c (i - 0xCF30) k n phys
  else if 0xD000 ≤ i ∧ i < 0xD020 then cellWrite s (i - 0xD000) k n
  else if 0xDA00 ≤ i ∧ i < 0xDB00 then tamperWrite s c i k n
  else if (0xDB00 ≤ i ∧ i < 0xDB08 ∧ k = 1) ∨ (i = 0xDB30 ∧ (k = 1 ∨ k = 3)) then outputWrite s i k v
  else if 0xE000 ≤ i ∧ i < 0xE00E then
    let b := i - 0xE000
    let mask := if k = 13 then Prf.controlMask b else Prf.clearMask b
    Eff.when s (if clearBits n mask ≠ 0 then Abt.valueReserved else 0) (if k = 13 then Prf.control s b n else Prf.clear s b n) []
  else if 0x1200 ≤ i ∧ i < 0x1204 ∧ k = 8 then
    Eff.when s (orElse (within (decide (n = 1))) (conflictIf (decide (num s i 7 = 0)))) s [.lane1 (.recover (i - 0x1200))]
  else match i with
    | 0x1100 => firmwareWrite s k n phys
    | 0x2000 => modesWrite s c k n v
    | 0x2100 => onlyOne n Lat.write s { Eff.ok s Lat.write with acts := [if k = 12 then .coreReset 6 else .fieldReset] }
    | 0xCA00 => keyWrite s c k v phys
    | 0xCA10 => attestOp s v c.origin phys
    | 0xCA20 => ownWrite s c k v phys
    | 0xD100 => if k = 3 then installOp s n phys else Eff.of Lat.write (removeApplet s n)
    | 0xD801 => tamperWrite s c i k n
    | 0xD802 => tamperWrite s c i k n
    | 0xDC10 => journalWrite s i k v phys
    | 0xDC80 => journalWrite s i k v phys
    | 0xE200 => if k = 1 then Eff.when s (within (decide (n ≤ 1))) (Prf.enable s n) [] else Eff.when s (plainCheck s i k n v) s []
    | 0xE800 => selfTestWrite s n phys
    | 0xF000 => if k ≤ 3 then Eff.when s (plainCheck s i k n v) s [] else sheafWrite s c k v phys
    | _ => Eff.when s (plainCheck s i k n v) s []

end Sys2Proof.Machine
end

