-- ==== Sys2Proof/Machine/Writes.lean ====
section
/-! DEFINITION. An admitted write of a value (R107 checks 12 to 15, R108, R123, R124): the order in which its refusals are
reported, and what an accepted write stores and records. -/

namespace Sys2Proof.Machine

/-- Codes that a value earns at check 12, and the value-dependent codes of checks 6 and 10 that follow them (R107; log 128). -/
def atCheck12 (code : Nat) : Bool :=
  [Abt.valueRange, Abt.valueReserved, Abt.valueEncoding, Abt.valueConflict, Abt.mode, Abt.lifecycle, Abt.partnerAbsent,
    Abt.pairNotConcurred, Abt.role].contains code

/-- A counter's Increment or Advance, whose own refusals come after check 14 (R403). -/
def countsUp (i k : Nat) : Bool := decide (0xC000 ≤ i ∧ i < 0xC800) && decide (k = 2 ∨ k = 3)

/-- Writes that a full journal lets through (R124). -/
def journalExempt (i : Nat) : Bool := decide (i = 0xDC10 ∨ i = 0xD801)

/-- A region that the write needs is at its endurance limit (R397). -/
def wornRegion (s : State) (d : Desc) : Bool :=
  let w := s.pers.laps
  decide (lapLimit ≤ w.commit ∨ lapLimit ≤ w.jour) || (decide (lapLimit ≤ w.dict) && d.pers)

/-- Writes whose own effect reports a store fault: counters, Open, Rekey and Install. -/
def ownsStoreFault (i k : Nat) : Bool :=
  countsUp i k ||
    (decide (0x4000 ≤ i ∧ i < 0xC000) && decide (chanBase k = 6 ∨ chanBase k = 7)) || (decide (i = 0xD100) && decide (k = 3))

/-- Checks 13 and 14, and the wear limit of check 15. -/
def capacityCheck (s : State) (i : Nat) (d : Desc) : Nat :=
  if d.longOp ∧ longRuns s then Abt.opInProgress
  else if journalFull s ∧ !journalExempt i then Abt.journalFull
  else if wornRegion s d then Abt.wearLimit
  else 0

/-- The release latency of a write of value v, whatever its outcome (R188, R302, R308, R365). -/
def writeLat (s : State) (i k : Nat) (v : Bytes) : Nat :=
  if 0xC000 ≤ i ∧ i < 0xC800 ∧ (k = 2 ∨ k = 3) then (if sheafOn s then 20 else Lat.write)
  else if 0xCF00 ≤ i ∧ i < 0xCF10 ∧ k = 11 then Lat.cipher
  else if 0xCF30 ≤ i ∧ i < 0xCF38 ∧ k = 3 then pleLat (pleOf s (i - 0xCF30))
  else if i = 0xCA10 ∧ k = 1 ∧ bit (v.getD 4 0).toNat 0 then Lat.attest
  else Lat.write

/-- The digest of the value that stood before: a write-only DOMAIN keeps only its digest. -/
def oldDigest (s : State) (i k : Nat) (d : Desc) : Bytes :=
  let v := getObj s i k
  if isWoDomain i k then (if v.toBytes = [] then digest16 [] else v.toBytes) else digest16 (v.bytes d.size)

/-- A persistent effect that waits for the release of its write (R131, R339, R359, R438). -/
def stagesEffect (a : Act) : Bool :=
  match a with
  | .burnFloor _ | .takeOwner _ _ | .pairSet _ | .retireReset | .install _ _ _ => true
  | _ => false

/-- An accepted write whose effect is e: the value stands, the CHANGE record is written (R123), a carried setting goes to the
field die (R172), a sensor's history empties (R482), and a concurrence is used up (R549). The record comes first, since a change of policy
takes effect at the next block that the head enters (R413). Where its persistent effects wait for the release, the value waits with them; the
record stands in the order of admissions, and is taken back where they do not come about (R23, R339, R407, log 132). -/
def commitWrite (s : State) (c : Ctx) (i k : Nat) (d : Desc) (v : Bytes) (e : Eff) : Eff :=
  let new := digest16 v
  let val := if isWoDomain i k then .oct new else d.decode v
  let old := oldDigest s i k d
  let staged := e.acts.any stagesEffect
  let t1 := journalDigests e.s c i k old new
  let t2 := if staged then t1 else setObj t1 i k val
  let held := if staged then [.setObj (objKey i k) val] else []
  let t3 := if roleInForce s true i k d = .pair ∧ d.ty ≠ .domain then useConcur t2 c.origin i k (some v)
    else if i = 0x2000 ∧ k = 7 ∧ sheafOn s then useConcur t2 c.origin i k (some v) else t2
  let r := if isCarried i k ∧ getObj s i k ≠ d.decode v then configActs t3 i k else (t3, [])
  let t4 := if isSensorSetting i k then sensorReset r.1 (i - 0xDA00) else r.1
  { e with s := t4, acts := held ++ e.acts ++ r.2 }

/-- A write that passed every check: it succeeded, or its operation ran and ended with a code (R125, R308). -/
def accepted (e : Eff) : Bool :=
  decide (e.code = 0) || e.long || (match e.work with
    | .pleRun _ => true
    | _ => false)

/-- A write of a value of a non-DOMAIN object past check 11: checks 12 to 15 and the effect. -/
def performWrite (s : State) (c : Ctx) (i k : Nat) (d : Desc) (v : Bytes) (phys : Phys) : Eff :=
  let e := writeValue s c i k d v phys
  if atCheck12 e.code ∧ !accepted e ∧ !countsUp i k then Eff.fail s e.lat e.code
  else
    let cap := capacityCheck s i d
    if cap ≠ 0 then Eff.fail s (writeLat s i k v) cap
    else if phys = .store ∧ !ownsStoreFault i k then Eff.fail s (writeLat s i k v) Abt.storeFault
    else if !accepted e then e
    else commitWrite s c i k d v e

/-- Check 11 of an expedited write (R105, R106). -/
def writeLengthCheck (d : Desc) (body : Bytes) : Nat :=
  let n := leNat (body.take 2)
  let v := body.drop 2
  let size := if d.ty = .label then 1 + (v.headD 0).toNat else d.size
  if body.length < 2 then Abt.lengthShort
  else if d.ty = .domain ∨ n > 24 ∨ n ≠ size then Abt.sizeMismatch
  else if v.length < n then Abt.lengthShort
  else if v.length > n then Abt.lengthLong
  else 0

/-- WRITE (R105 to R108). -/
def writeOp (s : State) (c : Ctx) (i k : Nat) (body : Bytes) (phys : Phys) : Eff :=
  let lat := writeLat s i k (body.drop 2)
  match findObj i k with
  | .error e => Eff.fail s lat e
  | .ok d =>
    let v := body.drop 2
    let code := objectChecks s c true i k d (if d.ty = .domain then some none else some (some v))
    if code ≠ 0 then Eff.fail s lat code
    else
      let len := writeLengthCheck d body
      if len ≠ 0 then Eff.fail s lat len else performWrite s c i k d v phys

/-! Reads. -/

/-- A read held, or answered. -/
inductive ReadOut where
  | wait
  | out (e : Eff)

/-- The body of a read of n zero bytes under a fault of the entropy source (R104). -/
def zeroBody (seg : Bool) (n : Nat) : Bytes := if seg then leBytes 4 n else leBytes 2 n ++ zeros n

/-- Bytes of the random objects (R384). -/
def randomSize (k : Nat) : Nat := if k = 1 then 16 else if k = 2 then 24 else 1024

/-- The value of a random object for session slot x (R385): the bytes drawn, a code, or a wait. -/
def randomRead (s : State) (x n : Nat) : Option (Except Nat (Bytes × State)) :=
  let t := 48 + x % 12
  if s.entropyDown then some (.error Abt.entropyFailed)
  else if !instantiated s t then some (.error Abt.notReady)
  else (takeBuffer s t n).map .ok

/-- Value of object i.k for a reader, past the checks: seg says a READ_SEG_INIT; ok is handed the value. An empty receive queue refuses a
plain read too (R233). -/
def readWith (s : State) (c : Ctx) (i k : Nat) (body : Bytes) (seg : Bool) (lat : Nat) (ok : State → Bytes → Eff) : ReadOut :=
  match findObj i k with
  | .error e => .out (Eff.fail s lat e)
  | .ok d =>
    let code := objectChecks s c false i k d none
    let v := readBytes s c i k d
    let size := if d.ty = .label then v.length else d.size
    if code ≠ 0 then .out (Eff.fail s lat code)
    else if 0x4000 ≤ i ∧ i < 0xC000 ∧ chanBase k = 15 ∧ readConflict s c i k ≠ 0 then .out (Eff.fail s lat (readConflict s c i k))
    else if !seg ∧ (d.ty = .domain ∨ size > 24) then .out (Eff.fail s lat Abt.sizeMismatch)
    else if body ≠ [] then .out (Eff.fail s lat Abt.lengthLong)
    else if i = 0x2310 then
      let n := randomSize k
      match randomRead s (c.slot.getD 0) n with
      | none => .wait
      | some (.error e) => .out { Eff.fail s lat e with body := zeroBody seg n, random := true }
      | some (.ok r) => .out { ok r.2 r.1 with random := true }
    else
      let bad := readConflict s c i k
      if bad ≠ 0 then .out (Eff.fail s lat bad) else .out (ok s v)

/-- READ (R106). -/
def readOp (s : State) (c : Ctx) (i k : Nat) (body : Bytes) (lat : Nat) : ReadOut :=
  readWith s c i k body false lat fun t v => { Eff.ok t lat with body := leBytes 2 v.length ++ v }

/-- DESCRIBE (R105). -/
def describeOp (s : State) (i k : Nat) (body : Bytes) : Eff :=
  match findObj i k with
  | .error e => Eff.fail s Lat.read e
  | .ok d => if body ≠ [] then Eff.fail s Lat.read Abt.lengthLong else { Eff.ok s Lat.read with body := Fld.describe d }

end Sys2Proof.Machine
end

