-- ==== Sys2Proof/Machine/Transfers.lean ====
section
/-! DEFINITION. Segmented transfers (R109 to R113): the opening of one, its segments, its end and its discard, and what each
DOMAIN object does with the bytes. -/

namespace Sys2Proof.Machine

/-- The open transfer of an origin. -/
def transferOf (s : State) (o : Nat) : Option Transfer := s.transfers.find? fun t => decide (t.origin = o)

def dropTransfer (s : State) (o : Nat) : State := { s with transfers := s.transfers.filter fun t => decide (t.origin ≠ o) }

def setTransfer (s : State) (t : Transfer) : State :=
  { s with transfers := (s.transfers.filter fun x => decide (x.origin ≠ t.origin)) ++ [t] }

/-- What a discarded write transfer does to its DOMAIN object (R111, R274, R305, R437): ends says that R110 or R111 discards
it with this code. -/
def discarded (s : State) (t : Transfer) (ends : Option Nat) : State :=
  if !t.writing then s
  else if 0xCF00 ≤ t.idx ∧ t.idx < 0xCF10 ∧ t.sub = 3 then
    (match ends with
      | some code => if (streamOf s (t.idx - 0xCF00)).state = 1 then failStream s (t.idx - 0xCF00) code else s
      | none => s)
  else if 0xCF30 ≤ t.idx ∧ t.idx < 0xCF38 ∧ t.sub = 2 then setPle s (t.idx - 0xCF30) ple0
  else if t.idx = 0x1100 ∧ t.sub = 1 then setNum (setImage s (inactive s) ⟨[], false, false, false⟩) 0x1100 2 0
  else if t.idx = 0xD100 ∧ t.sub = 1 then emptyStaging s
  else s

/-- A transfer discarded under R110 or R111, and counted (R122). -/
def discardTransfer (s : State) (t : Transfer) (code : Nat) : State := countDiscard (discarded (dropTransfer s t.origin) t (some code))

/-- An INIT discards its origin's open transfer as soon as it passes check 3 (R109). -/
def replaceTransfer (s : State) (o : Nat) : State :=
  match transferOf s o with
  | some t => discarded (dropTransfer s o) t none
  | none => s

/-- Room for one more transfer, after transfers idle for more than 1 s are reclaimed where 16 are open (R109). A transfer reclaimed
is not counted in 0x1010.06, whose list names timeout, order, length and client abort alone (R122; DESIGN CHOICE, log 110). -/
def reclaim (s : State) : State :=
  if s.transfers.length < 16 then s
  else
    let old := s.transfers.filter fun t => decide (s.seq.admTime > t.time + 1000000)
    old.foldl (fun x t => discarded (dropTransfer x t.origin) t none) s

/-- The transfer opens, or ABT_NO_TRANSFER_SLOT. -/
def openTransfer (s : State) (t : Transfer) (lat : Nat) (body : Bytes) : Eff :=
  let s1 := reclaim s
  if s1.transfers.length ≥ 16 then Eff.fail s lat Abt.noTransferSlot
  else { Eff.ok (setTransfer s1 t) lat with body := body }

/-! DOMAIN objects. -/

/-- A Run of the slot has been admitted and not released. -/
def runPending (s : State) (f : Nat) : Bool := s.slots.any fun x => decide (x.work = .pleRun f)

/-- The largest DATA payload that channel n sends (R216, R230). -/
def maxPayload (s : State) (n : Nat) : Nat := tmplAt s n 4 (num s (0x3000 + cnum s n 3) 5)

/-- What an INIT of a DOMAIN write of n bytes does (R130, R232, R274, R305, R437): a refusal, or the state after it. -/
def domainInit (s : State) (c : Ctx) (i k n : Nat) : Except Nat State :=
  if 0x4000 ≤ i ∧ i < 0xC000 then (if n > maxPayload s (i - 0x4000) then .error Abt.sizeMismatch else .ok s)
  else if 0xCF00 ≤ i ∧ i < 0xCF10 then
    (if k = 12 then (if n = 424 then .ok s else .error Abt.sizeMismatch)
     else let r := streamInit s (i - 0xCF00) n; if r.2 = 0 then .ok r.1 else .error r.2)
  else if 0xCF30 ≤ i ∧ i < 0xCF38 then
    let f := i - 0xCF30
    if runPending s f then .error Abt.valueConflict
    else
      let s1 := if (pleOf s f).state = 0 then setNum (setNum s i 3 0) i 9 0 else s
      .ok (setPle (closeInput s1 i 2) f ⟨1, c.origin, c.slot.getD 0, [], [], 0, 0, 0⟩)
  else match i, k with
    | 0x1100, 1 => .ok (setNum (setImage s (inactive s) ⟨[], false, false, false⟩) 0x1100 2 1)
    | 0xD100, 1 =>
      if n < 6752 then .error Abt.sizeMismatch
      else if (num s 0xD100 2 = 1 ∧ s.twc.stager ≠ some c.origin) ∨ installRuns s then .error Abt.valueConflict
      else .ok (setNum (updTwc s fun t => { t with staged := [], stager := some c.origin }) 0xD100 2 1)
    | _, _ => .ok s

/-- A DOMAIN segment of data before its END, in its own admission; a stream processes it (R274). -/
def domainData (s : State) (i k : Nat) (data : Bytes) (phys : Phys) : Eff :=
  if 0xCF00 ≤ i ∧ i < 0xCF10 ∧ k = 3 then
    (if data = [] ∧ (streamOf s (i - 0xCF00)).state ≠ 4 then Eff.ok s (inputLat s (i - 0xCF00)) else streamInputOp s (i - 0xCF00) data phys)
  else if i = 0x1100 then
    let x := inactive s
    Eff.ok (setImage s x ⟨(imageOf s x).bytes ++ data, false, false, false⟩) Lat.domain
  else if i = 0xD100 ∧ k = 1 then Eff.ok (updTwc s fun t => { t with staged := t.staged ++ data }) Lat.domain
  else Eff.ok s Lat.domain

/-- Checks 1 to 4 of R230 for a host-link send, and its place at the head of the internal queue (R232). -/
def sendEnd (s : State) (c : Ctx) (n k : Nat) (v : Bytes) : Eff :=
  let own := ownerCheck s c true (n + 0x4000) k
  let st := chanState s n
  if own ≠ 0 then Eff.fail s Lat.domain own
  else if st = Ch.orphaned then Eff.fail s Lat.domain Abt.keyOrphaned
  else if st ≠ Ch.isOpen ∧ st ≠ Ch.rekeying then Eff.fail s Lat.domain Abt.channelClosed
  else if cnum s n 9 ≥ 0xFFFFFFFF then Eff.fail s Lat.domain Abt.replay
  else Eff.ok (pushFront s (.send n v)) Lat.domain

/-- The completion of a DOMAIN object with its whole value v (R112); data is the END segment's. -/
def domainEnd (s : State) (c : Ctx) (i k : Nat) (v data : Bytes) (phys : Phys) : Eff :=
  if 0x4000 ≤ i ∧ i < 0xC000 then sendEnd s c (i - 0x4000) k v
  else if 0xCF00 ≤ i ∧ i < 0xCF10 then
    (if k = 12 then unparkStream s (i - 0xCF00) (c.slot.getD 0) c.caller v phys else domainData s i k data phys)
  else if 0xCF30 ≤ i ∧ i < 0xCF38 then Eff.ok (updPle s (i - 0xCF30) fun y => { y with state := 2, input := v }) Lat.domain
  else match i, k with
    | 0x1100, 1 =>
      let total := 3376 + leNat ((v.drop 16).take 4)
      if v.length < total then Eff.fail s Lat.domain Abt.lengthShort
      else if v.length > total then Eff.fail s Lat.domain Abt.lengthLong
      else Eff.ok (setNum (setImage s (inactive s) ⟨v, false, false, false⟩) 0x1100 2 2) Lat.domain
    | 0xCA20, _ => if v.length ≠ 1088 then Eff.fail s Lat.domain Abt.lengthShort else ownershipEnd s c k v phys
    | 0xD100, 1 =>
      if v.length ≠ 6752 + mf v 0x20 4 + mf v 0x24 4 then Eff.fail s Lat.domain Abt.sizeMismatch
      else Eff.ok (setNum (updTwc s fun t => { t with staged := v }) 0xD100 2 2) Lat.domain
    | _, _ => Eff.ok s Lat.domain

/-! The services. -/

/-- The bytes of a WRITE_SEG or READ_SEG body. -/
structure SegBody where
  num : Nat
  fin : Bool
  len : Nat
  data : Bytes

def parseSeg (b : Bytes) : SegBody :=
  ⟨leNat (b.take 2), bit (b.getD 2 0).toNat 0, leNat ((b.drop 4).take 2), b.drop 6⟩

/-- A writable DOMAIN. -/
def isDomain (i k : Nat) : Bool := ((Dict.find i k).2.map fun d => decide (d.ty = .domain)).getD false

/-- The release latency of a segment service by its object (R188, R274, R279). -/
def initLat (i k : Nat) : Nat := if isDomain i k then Lat.write else Lat.step
def segLat (s : State) (i k : Nat) (fin : Bool) : Nat :=
  if 0xCF00 ≤ i ∧ i < 0xCF10 ∧ k = 3 then
    inputLat s (i - 0xCF00)
  else if 0xCF00 ≤ i ∧ i < 0xCF10 ∧ k = 12 ∧ fin then Lat.cipher
  else if isDomain i k then Lat.domain
  else if fin then Lat.write else Lat.step

/-- READ_SEG_INIT (R111, R113): the value is captured. -/
def readInitOp (s : State) (c : Ctx) (i k : Nat) (body : Bytes) (lat : Nat) : ReadOut :=
  readWith s c i k body true lat fun t v =>
    openTransfer t ⟨c.origin, c.slot, false, i, k, v.length, 0, 0, [], v, t.seq.admTime, decide (i = 0xDC10)⟩ lat (leBytes 4 v.length)

/-- WRITE_SEG_INIT (R109, R111). -/
def writeInitOp (s : State) (c : Ctx) (i k : Nat) (body : Bytes) : Eff :=
  let lat := initLat i k
  match findObj i k with
  | .error e => Eff.fail s lat e
  | .ok d =>
    let dom := decide (d.ty = .domain)
    let code := objectChecks s c true i k d (if dom then some none else none)
    let n := leNat body
    let sizeOk := decide (n ≠ 0) && (if dom || decide (d.ty = .label) then decide (n ≤ d.size) else decide (n = d.size))
    if code ≠ 0 then Eff.fail s lat code
    else if body.length < 4 then Eff.fail s lat Abt.lengthShort
    else if body.length > 4 then Eff.fail s lat Abt.lengthLong
    else if !sizeOk then Eff.fail s lat Abt.sizeMismatch
    else match (if dom then domainInit s c i k n else .ok s) with
      | .error e => Eff.fail s lat e
      | .ok t =>
        let e := openTransfer t ⟨c.origin, c.slot, true, i, k, n, 0, 0, [], [], s.seq.admTime, false⟩ lat []
        if e.code ≠ 0 then Eff.fail s lat e.code
        else if dom ∧ roleInForce s true i k d = .pair then { e with s := useConcur e.s c.origin i k none } else e

/-- The refusal of a segment that does not belong to the open transfer (R110): direction, session, object, then the gap. A transfer
opened without a session takes a segment on any; times are admitted device times, a segment that takes no number having that of the
admission before it (R183, DEDUCED, log 117). -/
def segContext (s : State) (c : Ctx) (i k : Nat) (writing : Bool) (t : Transfer) : Nat :=
  if t.writing ≠ writing ∨ t.idx ≠ i ∨ t.sub ≠ k ∨ (t.sess.isSome ∧ t.sess ≠ c.slot) then Abt.segmentOrder
  else if s.seq.admTime > t.time + 1000000 then Abt.transferTimeout
  else 0

/-- READ_SEG (R110, R113). A transfer of an export's stream does not outlast the export (R418). A body of a wrong length discards the transfer and is counted, as a WRITE_SEG's wrong length is (DESIGN
CHOICE, log 109). After its END segment the transfer stays open, and keeps its place among the 16, until its origin opens another
or it is discarded: END may be repeated, and a segment after it is out of order (DESIGN CHOICE, log 109). -/
def readSegOp (s : State) (c : Ctx) (i k : Nat) (body : Bytes) : Eff :=
  match transferOf s c.origin with
  | none => Eff.fail s Lat.read Abt.noTransfer
  | some t =>
    let bad := fun code => Eff.fail (discardTransfer s t code) Lat.read code
    let code := segContext s c i k false t
    let n := leNat (body.take 2)
    if code ≠ 0 then bad code
    else if body.length < 4 then bad Abt.lengthShort
    else if body.length > 4 then bad Abt.lengthLong
    else if t.inHost ∧ (s.exportRun.map fun e => e.stream) ≠ some t.buf then bad Abt.valueConflict
    else
      let again := decide (t.next ≠ 0 ∧ n + 1 = t.next)
      let pos := if again then t.got - t.lastData.length else t.got
      if !again ∧ (n ≠ t.next ∨ (t.next ≠ 0 ∧ t.got = t.total)) then bad Abt.segmentOrder
      else
        let d := (t.buf.drop pos).take 1024
        let fin := decide (pos + d.length = t.total)
        let t1 := { t with got := pos + d.length, next := n + 1, lastData := d, time := s.seq.admTime }
        { Eff.ok (setTransfer s t1) Lat.read with
          body := leBytes 2 n ++ [if fin then 1 else 0, 0] ++ leBytes 2 d.length ++ d }

/-- The concurrence of a non-DOMAIN PAIR write is matched with its whole value (R549). -/
def endPairCheck (s : State) (c : Ctx) (i k : Nat) (d : Desc) (v : Bytes) : Nat :=
  if roleInForce s true i k d = .pair then pairCheck s c i k (some (some v)) else 0

/-- Codes of checks 11 and 12 that the whole value of a DOMAIN earns, ahead of those of checks 13 and 14 (R107). -/
def endsEarly (code : Nat) : Bool := [Abt.lengthShort, Abt.lengthLong, Abt.sizeMismatch].contains code || atCheck12 code

/-- The END segment of a transfer whose bytes are whole. -/
def segEnd (s : State) (c : Ctx) (t : Transfer) (d : Desc) (v data : Bytes) (lat : Nat) (phys : Phys) : Eff :=
  let i := t.idx
  let k := t.sub
  if d.ty ≠ .domain then
    let s1 := dropTransfer s c.origin
    let p := endPairCheck s1 c i k d v
    if p ≠ 0 then Eff.fail s1 lat p else performWrite s1 c i k d v phys
  else
    let cap := capacityCheck s i d
    let e := domainEnd (dropTransfer s c.origin) c i k v data phys
    let early := decide (e.code ≠ 0 ∧ !e.long) && endsEarly e.code
    if cap ≠ 0 ∧ !early then Eff.fail (discarded (dropTransfer s c.origin) t (some cap)) lat cap
    else if phys = .store ∧ !early then Eff.fail (discarded (dropTransfer s c.origin) t (some Abt.storeFault)) lat Abt.storeFault
    else
      if e.code ≠ 0 ∧ !e.long then
        (let s1 := if 0xCF00 ≤ i ∧ i < 0xCF10 then e.s else discarded e.s t (some e.code)
         { e with s := if e.code = Abt.lengthShort ∨ e.code = Abt.lengthLong then countDiscard s1 else s1 })
      else commitWrite (dropTransfer s c.origin) c i k d v e

/-- WRITE_SEG (R110 to R112). Whether a transfer is open and the segment belongs to it is reported before the length codes of check 11
(DESIGN CHOICE, log 108); a segment of more than 1,024 bytes, or of none without END, is ABT_SIZE_MISMATCH, discards the transfer
and is counted (DESIGN CHOICE, log 108). -/
def writeSegOp (s : State) (c : Ctx) (i k : Nat) (body : Bytes) (phys : Phys) : Eff :=
  let g := parseSeg body
  let lat := segLat s i k g.fin
  match transferOf s c.origin, (Dict.find i k).2 with
  | some t, some d =>
    let bad := fun code => Eff.fail (discardTransfer s t code) lat code
    let code := segContext s c i k true t
    let reply := leBytes 2 g.num ++ [0, 0]
    if code ≠ 0 then bad code
    else if body.length < 6 then bad Abt.lengthShort
    else if t.next ≠ 0 ∧ g.num + 1 = t.next ∧ g.data = t.lastData ∧ g.len = g.data.length then
      { Eff.ok (setTransfer s { t with time := s.seq.admTime }) lat with body := reply }
    else if g.num ≠ t.next then bad Abt.segmentOrder
    else if g.data.length < g.len then bad Abt.lengthShort
    else if g.data.length > g.len then bad Abt.lengthLong
    else if g.len > 1024 ∨ (g.len = 0 ∧ !g.fin) then bad Abt.sizeMismatch
    else if t.got + g.len > t.total then bad Abt.lengthLong
    else if g.fin ∧ t.got + g.len < t.total then bad Abt.lengthShort
    else
      let v := t.buf ++ g.data
      let t1 := { t with got := t.got + g.len, next := g.num + 1, lastData := g.data, buf := v, time := s.seq.admTime }
      let e := if g.fin then segEnd s c t1 d v g.data lat phys
        else if d.ty = .domain then
          let e := domainData (setTransfer s t1) i k g.data phys
          if e.code ≠ 0 then { e with s := dropTransfer e.s c.origin } else e
        else Eff.ok (setTransfer s t1) lat
      if e.code = 0 then { e with body := reply } else e
  | some t, none => Eff.fail (discardTransfer s t Abt.segmentOrder) lat Abt.segmentOrder
  | none, _ => Eff.fail s lat Abt.noTransfer

/-- ABORT_TRANSFER (R110). -/
def abortOp (s : State) (c : Ctx) (body : Bytes) : Eff :=
  match transferOf s c.origin with
  | none => Eff.fail s Lat.step Abt.noTransfer
  | some t =>
    let lat := if t.writing ∧ isDomain t.idx t.sub then Lat.write else Lat.step
    if body.length < 4 then Eff.fail s lat Abt.lengthShort
    else if body.length > 4 then Eff.fail s lat Abt.lengthLong
    else
      let s1 := discardTransfer s t Abt.transferAborted
      Eff.fail { s1 with hw := SMap.put s1.hw (objKey 0x1010 9) (leNat body) } lat Abt.transferAborted

end Sys2Proof.Machine
end

