-- ==== Sys2Proof/Machine/Sessions.lean ====
section
/-! DEFINITION. Binding and unbinding (R114 to R118, R121). -/

namespace Sys2Proof.Machine

/-- Pending slots whose BIND_RESPONSE never came are freed in the admission of a BIND_REQUEST (R117). -/
def expirePending (s : State) : State :=
  { s with sessions := s.sessions.filter fun p => p.2.bound || decide (s.seq.admTime ≤ p.2.time + 2000000) }

/-- The lowest free session slot. -/
def freeSlot (s : State) : Option Nat := (List.range 64).find? fun k => (SMap.look s.sessions k).isNone

/-- Slots that an origin holds (R114). -/
def slotsHeld (s : State) (o : Nat) : Nat := (s.sessions.filter fun p => p.2.origin = o).length

/-- The device challenge (R117). -/
def challenge (s : State) : Bytes := cmac (nodeKey s 0x70) (beBytes 8 s.seq.adm ++ beBytes 8 s.seq.admTime)

/-- The proofs of R116: tag byte 0x43 for the client, 0x44 for the device. -/
def bindProof (key : Bytes) (tag : Byte) (z : Session) (slot : Nat) : Bytes :=
  cmac key ([tag, BitVec.ofNat 8 z.role, BitVec.ofNat 8 z.cred, BitVec.ofNat 8 slot] ++ beBytes 2 z.origin ++ z.nonce ++ z.chal)

/-- A CMAC of a bind that a fault ends (R198, R255, R257, R389). -/
def bindFault (s : State) (phys : Phys) : Nat := cipherFault s phys

/-- BIND_REQUEST (R114, R115, R117). ABT_JOURNAL_FULL is check 14 and comes ahead of the limits of 64 slots and of 4 for each origin,
which are the effect's (DEDUCED, log 128). -/
def bindRequestOp (s0 : State) (origin : Nat) (body : Bytes) (phys : Phys) : Eff :=
  let s := expirePending s0
  let role := (body.getD 0 0).toNat
  let cred := (body.getD 1 0).toNat
  let lat := Lat.session
  if body.length < 20 then Eff.fail s lat Abt.lengthShort
  else if body.length > 20 then Eff.fail s lat Abt.lengthLong
  else if role = 0 ∨ role > 3 ∨ cred > 15 then Eff.fail s lat Abt.valueRange
  else if reserveFull s then Eff.fail s lat Abt.journalFull
  else match freeSlot s with
    | none => Eff.fail s lat Abt.noSessionSlot
    | some k =>
      let f := bindFault s phys
      if slotsHeld s origin ≥ 4 then Eff.fail s lat Abt.noSessionSlot
      else if f ≠ 0 then Eff.fail s lat f
      else
        let ch := challenge s
        let z : Session := ⟨origin, role, cred, false, (body.drop 4).take 16, ch, s.seq.admTime, 0, false, 0, [], 0, zeros 48⟩
        let s1 := claimMasks (warm { s with sessions := SMap.put s.sessions k z } 0x70) 7
        { Eff.ok s1 lat with body := [BitVec.ofNat 8 k, 0, 0, 0] ++ ch, nodes := [0x70] }

/-- The count of consecutive failures of an origin, and whether its lockout stands (R118). -/
def lockState (s : State) (o : Nat) : Nat × Bool :=
  match SMap.look s.lockouts o with
  | none => (0, false)
  | some (n, none) => (n, false)
  | some (n, some t) => if s.seq.admTime < t then (n, true) else (0, false)

/-- A failed bind counted and recorded (R118, R411). -/
def failedBind (s : State) (origin cred : Nat) : State :=
  journalAccess (incHw s 0x1010 4 1) 1 origin cred

def freeSession (s : State) (k : Nat) : State := { s with sessions := SMap.del s.sessions k }

/-- The pending slot that a BIND_RESPONSE of an origin names. -/
def pendingFor (s : State) (origin k : Nat) : Option Session :=
  match SMap.look s.sessions k with
  | some z => if z.origin = origin ∧ !z.bound then some z else none
  | none => none

/-- A client proof that does not match (R118). The end of a lockout is fixed, from the value that 0x1010.03 has then, by the failure that
begins it (DESIGN CHOICE, log 113). -/
def wrongProof (s : State) (origin k cred : Nat) : State :=
  let n := (lockState s origin).1 + 1
  let s1 := failedBind (freeSession s k) origin cred
  if n < 5 then { s1 with lockouts := SMap.put s1.lockouts origin (n, none) }
  else
    let until' := s.seq.admTime + num s 0x1010 3 * 1000000
    journalAccess { s1 with lockouts := SMap.put s1.lockouts origin (n, some until') } 3 origin cred

/-- BIND_RESPONSE (R116 to R118). -/
def bindResponseOp (s : State) (origin : Nat) (body : Bytes) (phys : Phys) : Eff :=
  let lat := Lat.session
  let k := (body.getD 0 0).toNat
  let proof := body.drop 4
  if (lockState s origin).2 then
    match (if body = [] then none else pendingFor s origin k) with
    | some z => Eff.fail (failedBind (freeSession s k) origin z.cred) lat Abt.authFail
    | none => Eff.fail (failedBind s origin 0xFF) lat Abt.authFail
  else if body.length < 20 then Eff.fail s lat Abt.lengthShort
  else if body.length > 20 then Eff.fail s lat Abt.lengthLong
  else match pendingFor s origin k with
    | none => Eff.fail (journalAccess s 4 origin 0xFF) lat Abt.challengeStale
    | some z =>
      if s.seq.admTime > z.time + 2000000 then Eff.fail (journalAccess (freeSession s k) 4 origin z.cred) lat Abt.challengeStale
      else
        let f := bindFault s phys
        let node := credNode z.role z.cred
        let key := nodeKey s node
        if f ≠ 0 then Eff.fail s lat f
        else if phys = .compare then Eff.fail s lat Abt.compareFault
        else if proof ≠ bindProof key 0x43 z k then Eff.fail (wrongProof s origin k z.cred) lat Abt.authFail
        else if reserveFull s then Eff.fail s lat Abt.journalFull
        else
          let z1 := { z with bound := true, time := s.seq.admTime, orphaned := false, epoch := epochOf s node }
          let s1 := { s with sessions := SMap.put s.sessions k z1, lockouts := SMap.del s.lockouts origin }
          { Eff.ok (claimMasks (warm s1 node) 42) lat with body := bindProof key 0x44 z k, nodes := [node] }

/-- UNBIND (R121): the session of the request ends. One that comes without a session is refused with ABT_NO_SESSION, for which the spec gives
no code (DESIGN CHOICE, log 128). -/
def unbindOp (s : State) (c : Ctx) (body : Bytes) : Eff :=
  match c.slot with
  | none => Eff.fail s Lat.session Abt.noSession
  | some k => if body ≠ [] then Eff.fail s Lat.session Abt.lengthLong
    else if reserveFull s then Eff.fail s Lat.session Abt.journalFull else Eff.ok (endSession s k) Lat.session

end Sys2Proof.Machine
end

