-- ==== Sys2Proof/Machine/Admission.lean ====
section
/-! DEFINITION. A BDP request at the admission point (R107, R179 to R191): what is refused before it, what is ordered and what
is numbered, the held inputs, the response and its slot, and the answers of start-up (R571). -/

namespace Sys2Proof.Machine

/-! What is ordered and what is numbered (R17, R18, R112, R188, R510). -/

/-- A read of an object that R507 grants, recorded under VIGIL or AUDIT (R510). -/
def recordedRead (s : State) (r : Rq) : Bool :=
  let role := (r.trailer.bind fun t => SMap.look s.sessions t.slot).map fun z => z.role
  serviceOn s && (vigilOn s || auditOn s) && decide (r.svc = 1 ∨ r.svc = 3) &&
    ((decide (0xE000 ≤ r.idx ∧ r.idx < 0xF000) && decide ((Dict.find r.idx r.sub).2.map (·.role) = some .service)) ||
      (isSendRecv r.idx r.sub && serviceChannel s (r.idx - 0x4000) && decide (role = some 3)))

/-- Whether a request takes an admission number. -/
def isNumbered (s : State) (r : Rq) : Bool :=
  match r.svc with
  | 0x02 | 0x10 | 0x11 | 0x12 => true
  | 0x05 => isDomain r.idx r.sub
  | 0x06 => isDomain r.idx r.sub || bit (r.body.getD 2 0).toNat 0
  | 0x07 => match transferOf s r.origin with
    | some t => t.writing && isDomain t.idx t.sub
    | none => false
  | _ => recordedRead s r

/-- The latency of a request that check 4 refuses (R188). -/
def classLat (s : State) (r : Rq) (numbered : Bool) : Nat :=
  match r.svc with
  | 0x01 | 0x03 => if numbered then Lat.write else Lat.read
  | 0x02 => writeLat s r.idx r.sub (r.body.drop 2)
  | 0x05 => initLat r.idx r.sub
  | 0x06 => segLat s r.idx r.sub (bit (r.body.getD 2 0).toNat 0)
  | 0x07 => if numbered then Lat.write else Lat.step
  | 0x10 | 0x11 | 0x12 => Lat.session
  | _ => Lat.read

/-- Check 7 for services that address no object: ABORT_TRANSFER alone is refused (R108). -/
def abortState (s : State) : Nat :=
  if s.stage = 0x10 then Abt.tamperHeld else if calderaOn s then Abt.caldera else 0

/-- The service of a request, past check 4. A segment with no open transfer is ABT_NO_TRANSFER in TAMPER_HELD and in CALDERA too, where
ABORT_TRANSFER meets check 7 first (DESIGN CHOICE, log 111). -/
def service (s : State) (c : Ctx) (r : Rq) (numbered : Bool) : ReadOut :=
  let lat := classLat s r numbered
  match r.svc with
  | 0x01 => readOp s c r.idx r.sub r.body lat
  | 0x02 => .out (writeOp s c r.idx r.sub r.body r.phys)
  | 0x03 => readInitOp s c r.idx r.sub r.body lat
  | 0x04 => .out (readSegOp s c r.idx r.sub r.body)
  | 0x05 => .out (writeInitOp s c r.idx r.sub r.body)
  | 0x06 => .out (writeSegOp s c r.idx r.sub r.body r.phys)
  | 0x07 => .out (let code := abortState s; if code ≠ 0 then Eff.fail s lat code else abortOp s c r.body)
  | 0x10 => .out (bindRequestOp s r.origin r.body r.phys)
  | 0x11 => .out (bindResponseOp s r.origin r.body r.phys)
  | 0x12 => .out (unbindOp s c r.body)
  | _ => .out (describeOp s r.idx r.sub r.body)

/-! The response. -/

/-- The slot of a request that came to e. -/
def slotFor (s : State) (r : Rq) (x : SessRes) (key : Bytes) (numbered : Bool) (e : Eff) : Slot :=
  let bare := r.response e.code e.body
  let full := if x.sealBy.isSome then r.sealed key e.code e.body else bare
  let t0 := if numbered then s.seq.admTime else s.seq.time
  ⟨0, s.seq.adm, numbered, r.origin, t0 + e.lat, some full, some bare, e.code, e.long, e.work, x.sealBy, e.nodes, e.acts⟩

/-- The body of a read of a random object that check 4 ends (R104). -/
def refusedBody (r : Rq) (code : Nat) : Bytes :=
  if code = Abt.entropyFailed ∧ r.idx = 0x2310 ∧ (r.svc = 1 ∨ r.svc = 3) ∧ 1 ≤ r.sub ∧ r.sub ≤ 3 then
    zeroBody (decide (r.svc = 3)) (randomSize r.sub) else []

/-- The state object of a unit: lanes 0 and 1, DGE, M0, M1 and the polynomial core (R287, R316). -/
def unitObject (u : Nat) : Nat × Nat := if u < 3 then (0xCF20, u + 1) else (0xCF38, u - 2)

/-- The unit is withdrawn through an internal admission (R256, R300, R193). -/
def withdraw (s : State) (u : Nat) : State :=
  let o := unitObject u
  let e := IntReq.report [(objKey o.1 o.2, .num 1)] none
  if num s o.1 o.2 = 1 ∨ s.internal.contains e then s else pushBack s e

/-- A fault of a unit: its next background window runs its check, and a second fault within 1,000,000 us withdraws it (R256, R300). -/
def unitFault (s : State) (u : Nat) : State :=
  let s1 := { s with unitFaults := SMap.put s.unitFaults u [s.seq.time], forced := s.forced.filter (· ≠ u) ++ [u] }
  match SMap.look s.unitFaults u with
  | some (t :: _) => if s.seq.time ≤ t + 1000000 then withdraw s1 u else s1
  | _ => s1

/-- A mismatch of unit u: its event and its counters (R255, R555). -/
def mismatch (s : State) (u : Nat) : State :=
  unitFault (count (sensorEvent (incHw s 0xCF20 (4 + u) 1) 0x58 s.seq.time 0 0) (if u = 2 then 4 else 3) (if u = 2 then 3 else 7) 1) u

/-- Sensors that a fault outcome raises, with the counters of its unit (R255, R286, R298, R555). Of several units in service that the
work needs, which one it was is free; the session tag of check 4 is lane work. -/
def raiseFault (s : State) (code : Nat) (phys : Phys) (n : Needs) : State :=
  if code = Abt.engineFault ∧ (phys = .engine ∨ phys = .tagEngine) then
    let tag := decide (phys = .tagEngine)
    let us := ((if tag || n.lane then [0, 1] else []) ++ (if n.dge && !tag then [2] else [])).filter fun u => decide (num s 0xCF20 (u + 1) = 0)
    match us with
    | [] => s
    | [u] => mismatch s u
    | _ => let r := draw s 2; mismatch r.2 (us.getD (r.1 % us.length) 0)
  else if code = Abt.compareFault then sensorEvent (incHw s 0xCF20 7 1) 0x59 s.seq.time 0 0
  else if code = Abt.resultCheck then
    unitFault (count (sensorEvent (incHw s 0xCF38 4 1) 0x5A s.seq.time 0 0) 5 5 1) (if n.core = 2 then 5 else 3 + s.cores.last)
  else s

/-- The units of the work behind a write of n bytes to object i.k (R254, R289, R290). -/
def objectNeeds (s : State) (i k n : Nat) : Needs :=
  if 0xCF00 ≤ i ∧ i < 0xCF10 ∧ k = 3 then segNeeds s (i - 0xCF00) n
  else if 0xCF30 ≤ i ∧ i < 0xCF38 then pleNeeds (PleReq.parse (pleOf s (i - 0xCF30)).input)
  else match i with
    | 0x1100 => ⟨false, true, 2⟩
    | 0xCA10 | 0xCA20 => ⟨true, false, 2⟩
    | 0xD100 => ⟨false, true, 2⟩
    | 0xDC10 => ⟨true, true, 2⟩
    | 0xE800 => ⟨true, true, 0⟩
    | _ => Needs.onLane

/-- Blocks of CMAC over n bytes. -/
def tagBlocks (n : Nat) : Nat := (n + 15) / 16

/-- Masks of the session tags of a request and its response (R119, R252, log 103). -/
def claimTags (s : State) (r : Rq) (x : SessRes) (e : Eff) : State :=
  if x.sealBy.isSome then claimMasks s (tagBlocks (r.bytes.length - 7) + tagBlocks (21 + e.body.length)) else s

/-- The session after an admitted request on it (R120, R121): the counter advances, a replay renews it only. -/
def afterSession (s : State) (r : Rq) (x : SessRes) : State :=
  match r.trailer, x.sealBy with
  | some t, some k => touchSession s k s.seq.admTime t.counter (decide (x.code = 0))
  | _, _ => s

/-- A tag failure of an admitted request (R119, R411): the caller is not one that a session stands for. -/
def tagFailure (s : State) (r : Rq) : State :=
  let z := r.trailer.bind fun t => SMap.look s.sessions t.slot
  journalAccess (incHw s 0x1010 5 1) 2 r.origin ((z.map (·.cred)).getD 0xFF)

/-- An admission on a SERVICE session under VIGIL is recorded (R510). -/
def recordService (s : State) (x : SessRes) : State :=
  if x.ctx.role = some 3 ∧ x.ctx.slot.isSome ∧ serviceOn s ∧ vigilOn s then noteRecord s 0x70 else s

/-- An effect whose ring commit cannot be made: a region that it needs is worn out, or the write of its entry fails; it then has no effect
(R194, R394, R397). Writes report both themselves, in the order of R107, and a failed proof keeps its own code. -/
def keptOut (s : State) (r : Rq) (e : Eff) : Eff :=
  if e.code ≠ 0 ∨ r.svc = 2 ∨ r.svc = 6 ∨ commitForm s.pers e.s.pers ≠ .ring then e
  else if wears s e.s then Eff.fail s e.lat Abt.wearLimit
  else if r.phys = .store then Eff.fail s e.lat Abt.storeFault
  else e

/-- A read of an object that R507 grants is recorded under VIGIL whatever its session (R510). -/
def needsRecord (s : State) (r : Rq) : Bool := recordedRead s r && vigilOn s

/-- That record, where the session of role SERVICE does not bring it itself: ahead of an ACCESS record of the same admission (R411). -/
def recordRead (s : State) (r : Rq) (x : SessRes) : State :=
  if needsRecord s r ∧ !(x.ctx.role = some 3) then noteRecord s 0x70 else s

/-- The whole of a numbered request in its admission: none where a random read must wait. A BIND_REQUEST is admitted, and pending slots
expire in its admission, whatever check then refuses it (R117). -/
def perform (s : State) (r : Rq) : Option (Eff × SessRes × Bytes) :=
  let x := sessionCheck s r s.seq.admTime
  let key := trailerKey s (r.trailer.map (·.slot))
  let s := recordRead (calledBy s x.ctx) r x
  if x.code ≠ 0 then
    let s1 := afterSession (if r.svc = 0x10 then expirePending s else s) r x
    let s2 := if x.code = Abt.authFail then tagFailure s1 r else recordService s1 x
    let s3 := if x.ends then endSession s2 ((r.trailer.map (·.slot)).getD 0) else s2
    some ({ Eff.fail s3 (classLat s r true) x.code with body := refusedBody r x.code }, x, key)
  else
    let s1 := afterSession s r x
    let s2 := recordService s1 x
    match service s2 x.ctx r true with
    | .wait => none
    | .out e0 =>
      let e := keptOut s2 r e0
      let s3 := if x.ends then endSession e.s ((r.trailer.map (·.slot)).getD 0) else e.s
      some ({ e with s := s3 }, x, key)

/-- The admission of a numbered request, with its slot: none where a random read must wait. -/
def performDone (s : State) (r : Rq) : Option Done :=
  match perform s r with
  | none => none
  | some (e, x, key) =>
    let y := slotFor e.s r x key true e
    some ⟨raiseFault (pushSlot (claimTags e.s r x e) y) e.code r.phys (objectNeeds s r.idx r.sub (parseSeg r.body).data.length), e.code, y.resp, e.random⟩

/-! Redaction (R204). -/

/-- The object whose writes carry key material (log 31). -/
def keyMaterial (i k : Nat) : Bool := decide (i = 0xCA20 ∧ k = 3)

/-- The payload of a request in the AUDIT log (R112, R203, R204). -/
def auditPayload (s : State) (r : Rq) : Bytes × Bool :=
  let g := parseSeg r.body
  let tail := r.bytes.drop (8 + r.body.length)
  let whole := match transferOf s r.origin with
    | some t => t.buf ++ g.data
    | none => g.data
  if r.svc = 6 ∧ !isDomain r.idx r.sub then
    let v := if keyMaterial r.idx r.sub then sha256 whole else whole
    (r.head ++ r.body.take 4 ++ leBytes 2 v.length ++ v ++ tail, keyMaterial r.idx r.sub)
  else if r.svc = 2 ∧ keyMaterial r.idx r.sub then (r.head ++ r.body.take 2 ++ sha256 (r.body.drop 2) ++ tail, true)
  else (r.bytes, false)

/-- The whole value that a write, or the END segment of one, brings to an object that is no DOMAIN. -/
def writtenValue (s : State) (r : Rq) : Option Bytes :=
  let g := parseSeg r.body
  if r.svc = 2 then some (r.body.drop 2)
  else if r.svc = 6 ∧ g.fin ∧ !isDomain r.idx r.sub then some (((transferOf s r.origin).map fun t => t.buf ++ g.data).getD g.data)
  else none

/-- The target partner of an origin (0xF000.0D, R554). -/
def target (s : State) (o : Nat) : Nat :=
  match SMap.at' s.sheaf.targets o 0xFF with
  | 0 => 0
  | 1 => 1
  | _ => if onFollower o then 1 else 0

/-- The partner that alone reads or writes an object for an origin, for a channel object and for a local one (R540). -/
def objectPartner (s : State) (origin i k : Nat) : Option Nat :=
  if 0x4000 ≤ i ∧ i < 0xC000 then some (chanPair k)
  else if i = 0x2310 then none
  else if i = 0xF000 then (if k = 6 then some (if onFollower origin then 0 else 1) else none)
  else if localObject i k then some (target s origin) else none

/-- The partner that executes work on an object for an origin, where one of them does alone (R540). -/
def executor (s : State) (r : Rq) : Option Nat :=
  let i := r.idx
  if r.svc = 0x20 ∨ r.noObject then none
  else if i = 0xCA10 ∧ r.sub = 1 then (writtenValue s r).map fun v => if bit (v.getD 4 0).toNat 1 then 1 else 0
  else if i = 0xCA00 ∧ r.sub = 5 then
    (writtenValue s r).bind fun v => if [3, 4, 5].any fun x => atOrBelow s x (leNat (v.take 2)) then some (target s r.origin) else none
  else objectPartner s r.origin i r.sub

/-- Who executes a request (R540): both partners, this unit alone, or the partner alone. -/
def aloneOf (s : State) (r : Rq) : Nat :=
  match executor s r with
  | none => 0
  | some p => if p = pairNo s then 1 else 2

/-- How a request enters the log; a write to 0xDC80.02, expedited or by the end of a transfer, may use the reserve (R201). -/
def requestIn (s : State) (r : Rq) : AdmIn :=
  let p := auditPayload s r
  ⟨1, r.origin, 0xFFFF, p.1, p.2, decide (r.idx = 0xDC80 ∧ r.sub = 2 ∧ (r.svc = 2 ∨ r.svc = 6)), aloneOf s r⟩

/-- The numbered request admitted, or the state as it was where it is held. -/
def admitRequest (s : State) (r : Rq) : State :=
  match performDone (number s) r with
  | none => s
  | some _ =>
    match admitOne s (requestIn s r) fun t => (performDone t r).getD ⟨t, 0, none, false⟩ with
    | none => noteHold s (requestIn s r)
    | some d => if capacityHolds s d.s then s else d.s

/-- A read or transfer step ordered (R18): no number, no session effect; a tag failure is counted (R119). -/
def orderRequest (s : State) (r : Rq) : State :=
  let x := sessionCheck s r s.seq.admTime
  let key := trailerKey s (r.trailer.map (·.slot))
  let s := count s 0 2 1
  if x.code ≠ 0 then
    let s1 := if x.code = Abt.authFail then incHw s 0x1010 5 1 else s
    let e := { Eff.fail s1 (classLat s r false) x.code with body := refusedBody r x.code }
    raiseFault (pushSlot (claimTags s1 r x e) (slotFor s1 r x key false e)) x.code r.phys Needs.onLane
  else match service s x.ctx r false with
    | .wait => s
    | .out e => pushSlot (claimTags e.s r x e) (slotFor e.s r x key false e)

/-- Whether the read waits unordered (R385). -/
def readWaits (s : State) (r : Rq) : Bool :=
  let x := sessionCheck s r s.seq.admTime
  decide (x.code = 0) && (match service s x.ctx r false with
    | .wait => true
    | .out _ => false)

/-! Transports. -/

/-- An answer that leaves at once, in no slot (R187): to the host link, to the field network, or to the partner. -/
def answerNow (s : State) (r : Rq) (code : Nat) : State :=
  let m := r.response code []
  let o := localOrigin r.origin
  let s1 := count s 0 3 1
  if !homeHere s r.origin then sheafQueue s1 0x12 (leBytes 2 r.origin ++ leBytes 4 code ++ r.head)
  else if o = 1 then joinReply s1 (fullReply m)
  else sendLane1 s1 (.bdpResp o m)

/-- A refusal for busy (R126): the BUSY reply on the host link, ABT_BUSY elsewhere. -/
def answerBusy (s : State) (r : Rq) : State :=
  if homeHere s r.origin ∧ localOrigin r.origin = 1 then count (joinReply (count s 0 3 1) busyReply) 11 3 1
  else answerNow s r Abt.busy

/-- A request that the partner has answered or the leader has admitted is away no longer. -/
def comeBack (s : State) (origin : Nat) (head : Bytes) : State :=
  if homeHere s origin ∧ localOrigin origin = 1 then
    { s with host := { s.host with away := s.host.away.eraseP fun m => decide (m.take 8 = head.take 8) } }
  else s

/-- The request leaves its input buffer when it is ordered or answered (R138, R184). -/
def takeInput (s : State) (r : Rq) : State :=
  let o := localOrigin r.origin
  if o = 1 then takeBuffered s r.bytes
  else if o ≥ 0x8000 then updBar s fun b => { b with input := b.input.erase (.bdpReq o r.bytes) }
  else s

/-! Before the start-up admission, and in the halts (R92, R571). -/

/-- NO_FIRMWARE and the other halts. -/
def halted (s : State) : Bool := decide (0xE0 ≤ s.stage ∧ s.stage ≤ 0xE3)

/-- A read of identity or of reset status, whole or in segments (R92, R106). -/
def statusRead (r : Rq) : Bool := decide (r.svc = 1 ∨ r.svc = 3 ∨ r.svc = 4) && decide (r.idx = 0x1000 ∨ r.idx = 0x2100)

/-- The firmware objects that the boot ROM serves in NO_FIRMWARE (R92, R130). -/
def bootObject (r : Rq) : Bool :=
  decide (r.idx = 0x1100) && decide (1 ≤ r.sub ∧ r.sub ≤ 4) || (decide (r.svc = 7) && decide (r.idx = 0))

/-- An answer of the boot ROM, or of the firmware before the start-up admission: 2 us later, without ordering. What a boot ROM
write does stands; it writes no record and takes no number. No session is bound yet, so check 4 ends a request with a trailer. -/
def bootAnswer (s : State) (r : Rq) (c : Ctx) : State :=
  match (if r.trailer.isSome then .out (Eff.fail s 2 Abt.noSession) else service s c r false) with
  | .wait => s
  | .out e =>
    let t := { e.s with pers := { e.s.pers with jour := s.pers.jour }, seq := { s.seq with nextId := e.s.seq.nextId, draws := e.s.seq.draws } }
    pushSlot t ⟨0, 0, false, r.origin, s.seq.time + (if e.long then e.lat else 2), some (r.response e.code e.body), none, e.code, e.long, .none,
      none, [], e.acts⟩

/-- A host-link request outside TAMPER_HELD and READY (R92, R109, R571); none is served while power fails (R40). -/
def bootRequest (s : State) (r : Rq) : State :=
  if r.origin ≠ 1 ∨ s.seq.failing ∨ s.tem.resp.isSome then s
  else
    let t := takeInput s r
    let anon : Ctx := ⟨none, none, 0, 1⟩
    let busy' := count (joinReply t busyReply) 11 3 1
    let u := if r.svc = 3 ∨ r.svc = 5 then replaceTransfer t r.origin else t
    if r.check2 ≠ 0 then (if 4 ≤ s.stage then busy' else s)
    else if 4 ≤ s.stage ∧ s.stage ≤ 8 then (if statusRead r then (if started s then orderRequest u r else bootAnswer u r anon) else busy')
    else if halted s then
      (if statusRead r then (if s.boot.admitted then orderRequest u r else bootAnswer u r anon)
       else if s.stage = 0xE0 ∧ bootObject r then (if busy t 1 then busy' else bootAnswer u r { anon with role := some 2 })
       else busy')
    else s

/-! The admission point. -/

/-- A follower's own requests go to the leader, but for reads (R539, R544). -/
def forwards (s : State) (r : Rq) : Bool :=
  sheafOn s && joined s && decide (pairNo s = 1) && homeHere s r.origin && (isNumbered s r || [5, 6, 7].contains r.svc)

/-- A value that the partner's verdict confirms or refuses (R541): set at the release, with its CHANGE record in the order of admissions (R123,
R407, log 132). -/
def keepValue (s : State) (c : Ctx) (i k : Nat) (d : Desc) (v : Bytes) : State × List Act :=
  if d.pers ∧ !localObject i k then
    (journalDigests s c i k (oldDigest s i k d) (digest16 ((d.decode v).bytes d.size)), [.setObj (objKey i k) (d.decode v)])
  else (s, [])

/-- Work that the partner executes: this unit waits for its VERDICT, and answers at the end of its class and 10 us (R541,
R543, R546). The value written is kept for the verdict; its CHANGE record stands in the order of admissions, and is taken back where the
verdict refuses the write (R123, R407, log 132). -/
def awaitVerdict (s : State) (r : Rq) : State :=
  let x := sessionCheck s r s.seq.admTime
  let key := trailerKey s (r.trailer.map (·.slot))
  if x.code ≠ 0 then ((performDone s r).map (·.s)).getD s
  else
    let s1 := afterSession s r x
    let lat := classLat s r true
    let s2 := if r.svc = 6 ∧ (writtenValue s r).isSome then dropTransfer s1 r.origin else s1
    let p : State × List Act := match (Dict.find r.idx r.sub).2, writtenValue s r with
      | some d, some v =>
        if r.idx = 0xCA10 then (s2, [Act.attestReport r.origin []])
        else if r.idx = 0xCA00 then (s2, [Act.exportResult ((r.trailer.map (·.slot)).getD 0xFF) []])
        else keepValue s2 x.ctx r.idx r.sub d v
      | _, _ => (s2, [])
    let t := pushSlot p.1 (slotFor p.1 r x key true { Eff.ok p.1 (lat + 10) with acts := p.2 })
    { t with sheaf := { t.sheaf with awaits := t.sheaf.awaits ++ [⟨s.seq.adm, 0x22, s.seq.admTime + lat + 6⟩] } }

/-- Whether the other partner executes a request. -/
def partnerRuns (s : State) (r : Rq) : Bool :=
  sheafOn s && joined s && (match executor s r with
    | some p => decide (p ≠ pairNo s)
    | none => false)

/-- A request at the admission point of a unit that serves (R107, R539, R544). -/
def serveRequest (s : State) (r : Rq) : State :=
  let numbered := isNumbered s r
  let s1 := takeInput s r
  if r.check2 ≠ 0 then answerNow s1 r r.check2
  else if forwards s r then
    let s2 := if localOrigin r.origin = 1 then { s1 with host := { s1.host with away := s1.host.away ++ [r.bytes] } } else s1
    sheafQueue s2 0x11 (leBytes 2 r.origin ++ [1, 0] ++ r.bytes)
  else if busy s r.origin then answerBusy s1 r
  else
    let s2 := if r.svc = 3 ∨ r.svc = 5 then replaceTransfer s1 r.origin else s1
    if numbered then
      if partnerRuns s2 r then
        (match admitOne s2 (requestIn s2 r) fun t => ⟨awaitVerdict t r, 0, none, false⟩ with
          | none => noteHold s (requestIn s2 r)
          | some d => if capacityHolds s2 d.s then s else d.s)
      else
        let t := admitRequest s2 r
        if t.seq.adm = s.seq.adm then { s with hw := t.hw, audit := t.audit } else t
    else if partnerRuns s2 r then
      pushSlot (sheafQueue s2 0x30 (leBytes 2 r.origin ++ r.bytes))
        ⟨0, s.seq.adm, false, r.origin, s.seq.time + 12, none, some (r.response Abt.partnerAbsent []), 0, false, .none, none, [], []⟩
    else if readWaits s2 r then s
    else orderRequest s2 r

/-- The host link answers nothing in ISLAND (R505). -/
def closedTo (s : State) (o : Nat) : Bool := decide (localOrigin o = 1) && s.host.closed

/-! The order of the inputs (R180). -/

/-- Within its input a request comes in arrival order: it is the oldest of those that wait there, where any do. A request of a field
network comes over the barrier alone (R13, R173). -/
def atHead (s : State) (r : Rq) : Bool :=
  let o := localOrigin r.origin
  if o = 1 then (match s.host.buf with
    | m :: _ => decide (m = r.bytes)
    | [] => true)
  else if o ≥ 0x8000 then decide (s.bar.input.head? = some (.bdpReq o r.bytes))
  else true

/-- The Sheaf link holds a REQUEST that the leader can admit now. -/
def sheafTurn (s : State) : Bool :=
  sheafOn s && joined s && leads s && !inHold s && decide ((s.sheaf.inbox.headD []).head? = some 0x11)

/-- The barrier input holds a message that can be admitted or ordered now; a frame moves once the masks are seeded (R20). -/
def barrierTurn (s : State) : Bool :=
  match s.bar.input with
  | [] => false
  | .bdpReq o m :: _ => decide ((serveRequest s (parseRq (pairOrigin s o) m)).bar.input.length < s.bar.input.length)
  | .chfUp _ :: _ => !follows s && !inHold s && (masksReady s || s.entropyDown)
  | _ :: _ => !follows s && !inHold s

/-- The host-link input holds a request that can be admitted or ordered now. -/
def hostTurn (s : State) : Bool :=
  match s.host.buf with
  | [] => false
  | m :: _ => decide ((serveRequest s (parseRq (pairOrigin s 1) m)).host.buf.length < s.host.buf.length)

/-- Input k may be served: no input before it in the order of R180 holds a request that could be. The inputs are 1 the Sheaf link,
2 barrier lane 0, 3 the host link and 4 the applet cells, after the internal queue. -/
def turn (s : State) (k : Nat) : Bool :=
  !internalTurn s && (decide (k < 2) || !sheafTurn s) && (decide (k < 3) || !barrierTurn s) && (decide (k < 4) || !hostTurn s)

/-- A BDP request of any origin as it reaches the admission point; a request wakes the device (R518). -/
def request (s0 : State) (r0 : Rq) : State :=
  let s := wake s0
  let r := { r0 with origin := pairOrigin s r0.origin }
  if closedTo s r.origin ∨ s.stage = 0 ∨ s.power ≠ 0 ∨ s.boot.waking ∨ !atHead s r then s0
  else if !serving s then bootRequest s r
  else if !sequencerUp s ∨ !turn s (if localOrigin r.origin = 1 then 3 else 2) then s0
  else serveRequest s r

end Sys2Proof.Machine
end

