-- ==== Sys2Proof/Machine/Release.lean ====
section
/-! DEFINITION. The release of admitted work (R186, R187), what each release does, the cut (R237, R280, R338), and the tick of
device time (R182). -/

namespace Sys2Proof.Machine

/-! Recoding: a response whose outcome is known only after its admission. -/

/-- A message with another abort code and no body. -/
def withCode (m : Bytes) (code : Nat) (body : Bytes) : Bytes := m.take 8 ++ leBytes 4 code ++ body

/-- The slot with outcome code and body; a sealed response is sealed again. -/
def recode (s : State) (x : Slot) (code : Nat) (body : Bytes) : Slot :=
  let bare := x.bare.map fun b => withCode b code body
  let seal' := fun (m b : Bytes) =>
    match x.sess.bind fun k => SMap.look s.sessions k with
    | some _ =>
      let h := b.take 1 ++ [(b.getD 1 0) ||| 1] ++ b.drop 2 ++ (m.drop (m.length - 16)).take 8
      h ++ (cmac (trailerKey s x.sess) (1 :: h)).take 8
    | none => b
  let resp := match x.resp, bare with
    | some m, some b => some (if x.sess.isSome then seal' m b else b)
    | _, b => b
  { x with code := code, bare := bare, resp := resp }

/-! What a release does. -/

/-- A system call returns to its cell (R443): the results in its registers, and bytes in its memory. -/
def cellRetNow (s : State) (c : Nat) (regs : List (Nat × Nat)) (mem : List (Nat × Bytes)) : State :=
  match SMap.look s.twc.cells c with
  | none => s
  | some x =>
    let r := regs.foldl (fun m p => SMap.store m p.1 (BitVec.ofNat 32 p.2) 0#32) x.regs
    let y := mem.foldl (fun z p => storeBytes z p.1 p.2) { x with regs := r, blocked := false }
    dispatch (setCell s c y)

/-- The earlier of two deferred core-die resets (R80). -/
def deferCore (s : State) (t cause : Nat) : State :=
  match s.boot.deferred with
  | some (u, _) => if u ≤ t then s else { s with boot := { s.boot with deferred := some (t, cause) } }
  | none => { s with boot := { s.boot with deferred := some (t, cause) } }

def setCause (s : State) (bits : Nat) : State := { s with host := { s.host with cause := s.host.cause ||| bits } }

/-- READY entered (R91, R141, R177, R249, R533): the toggle may start, STARTED is set, the channels that open at start-up are placed on
the internal queue in ascending order, and a restored SHEAF starts its join. The applet cells that run at start-up are STARTING since the
start-up admission, and load from here (R431). -/
def enterReady (s : State) : State :=
  let ns := (keyedChans s).filter fun p => decide (chanState s p.1 = Ch.closed ∧ num s (0x3000 + cnum s p.1 3) 7 = 1)
  let s1 := reseedPattern (setCause (startToggle s) 2)
  { s1 with internal := s1.internal ++ (ns.map fun p => .openUp p.1) ++ (if sheafOn s then [.autoJoin] else []) }

/-- PROVISION has come to its lapse, and no write that moved the lapse to a past time still waits for its release (R506). -/
def lapseDue (s : State) : Bool :=
  serving s && provisionOn s && decide (lapseAt s ≤ s.seq.time) && !(s.slots.any fun x => x.acts.contains .lapse) && !s.internal.contains .lapse

/-- The admission that clears PROVISION placed at the head of the internal queue, at its time (R506). -/
def placeLapse (s : State) : State := if lapseDue s then wakeIfQueued (pushFront s .lapse) else s

/-- One act of a release in slot x. -/
def runAct (x : Slot) (s : State) (a : Act) : State :=
  match a with
  | .lane1 m => sendLane1 s m
  | .cause bits => setCause s bits
  | .event c bits => raiseEvents s c bits
  | .coreReset cause => deferCore s (x.due + 1000) cause
  | .fieldReset => { s with boot := { s.boot with deferredField := some (min (s.boot.deferredField.getD (x.due + 1000)) (x.due + 1000)) } }
  | .cellRet c regs mem => cellRetNow s c regs mem
  | .cellStop c => leaveCell s c
  | .retireReset => deferCore (settle s a) (x.due + 1000) 9
  | .install c m code => installEnd s c m code
  | .ready first => if first then enterReady s else startToggle s
  | .hostOpen => { s with host := { s.host with closed := false, closing := none } }
  | .hostClose => { s with host := { s.host with closing := some (x.due + 100000) } }
  | .rxJoin _ _ | .streamOut _ _ | .streamZero _ | .pleOut _ _ _ | .endSession _ | .setObj _ _ | .streamNonce _ _
  | .burnFloor _ | .takeOwner _ _ | .pairSet _ | .openExport _ | .attestReport _ _ | .exportResult _ _ => settle s a
  | .sheaf m => { s with sheaf := { s.sheaf with out := s.sheaf.out ++ [m] } }
  | .alarm w => { s with tem := { s.tem with alarm := w } }
  | .fired _ _ _ => s
  | .lapse => placeLapse s

/-- A response leaves on its origin's transport (R138, R169); what was ordered here for the partner returns to it (R544). -/
def deliver (s : State) (numbered : Bool) (origin : Nat) (m : Bytes) : State :=
  let o := localOrigin origin
  if !homeHere s origin then (if numbered then s else sheafQueue s 0x31 (leBytes 2 origin ++ m))
  else if o = 1 then (if s.host.closed then s else joinReply s (fullReply m))
  else if o ≥ 0x8000 then sendLane1 s (.bdpResp o m)
  else s

/-- The in-flight cell of a slot's frame is zeroised at the end of the slot (R209). -/
def endFrame (s : State) (x : Slot) : State :=
  match x.work with
  | .frameDown n => dropFrame s (chanField s n) 1 x.adm
  | .frameUp f => dropFrame s f 2 x.adm
  | _ => s

/-- A release would carry the epoch of a domain root past its end: it bumps nothing, and is refused (R329). -/
def exhausts (s : State) (x : Slot) : Bool :=
  x.acts.any fun a => match a with
    | .takeOwner _ svc => spentAny s (if svc then [1, 2] else [1])
    | .pairSet _ => spentAny s [1, 2]
    | _ => false

/-- The CHANGE record of a slot whose staged effects do not come about goes with them (R23, R339). -/
def dropStaged (s : State) (x : Slot) : State := if x.acts.any stagesEffect then withdrawRecord s x.adm else s

/-- The CHANGE record of a value that waited for the partner's verdict, taken back where none confirms the value (R123, log 132). -/
def unconfirmedRecord (s : State) (x : Slot) : State :=
  if x.acts.any fun a => match a with
    | .setObj _ _ => true
    | _ => false then withdrawRecord s x.adm else s

/-- The slot of an admission whose partner is absent (R550): it says so, and what waited for a verdict does not come about. -/
def absentSlot (s : State) (owed : Bool) (x : Slot) : Slot :=
  let act := fun (a : Act) => match a with
    | .cellRet c _ _ => some (Act.cellRet c [(10, Abt.partnerAbsent)] [])
    | .setObj k v => if owed then none else some (.setObj k v)
    | .attestReport _ [] | .exportResult _ [] => none
    | b => some b
  { recode s x Abt.partnerAbsent [] with acts := x.acts.filterMap act }

/-- The slot waits for the partner's verdict (R541). -/
def awaitsCode (s : State) (x : Slot) : Bool := x.numbered && s.sheaf.awaits.any fun w => decide (w.adm = x.adm ∧ w.kind = 0x22)

/-- The slot waits for the partner's verdict, or for its COMMIT_ACK where the result is released here (R541, R545). -/
def awaitsPartner (s : State) (x : Slot) : Bool :=
  awaitsCode s x || (x.numbered && homeHere s x.origin && s.sheaf.awaits.any fun w => decide (w.adm = x.adm ∧ w.kind = 0x21))

/-- A slot as it is released: refused where an epoch is spent by then, and without its partner where what it waits for can come no more (R329,
R550, log 137). -/
def asReleased (s : State) (x : Slot) : State × Slot :=
  if exhausts s x then (dropStaged s x, { recode s x Abt.epochExhausted [] with acts := [] })
  else if awaitsPartner s x then (if awaitsCode s x then unconfirmedRecord s x else s, absentSlot s (awaitsCode s x) x)
  else (s, x)

/-- The release of slot x: it leaves the unreleased work, its response joins its transport, and its acts take place. What a release commits
takes its ring-commit entry then (R339, R393). -/
def releaseSlot (s0 : State) (x0 : Slot) : State :=
  let x := (asReleased s0 x0).2
  let s := (asReleased s0 x0).1
  let s1 := endFrame { s with slots := s.slots.filter fun y => decide (y.id ≠ x.id) } x
  let s2 := match x.resp with
    | some m => deliver s1 x.numbered x.origin m
    | none => s1
  markDirty s2 (ringEntry s2 (x.acts.foldl (runAct x) s2) x.adm)

/-- The release of a slot may take place: a read that the partner orders has its answer (R544, log 127), the verdict or the COMMIT_ACK that it
waits for has come or can come no more (R541, R545, log 137), no tamper response isolates the results (R22), and while power fails nothing is
released that would begin a commit (R40). -/
def mayRelease (s : State) (x : Slot) : Bool :=
  s.tem.resp.isNone && !relayed x && !(awaitsPartner s x && (joined s || s.sheaf.key.isSome)) && !(s.seq.failing && x.acts.any stagesEffect)

/-- RESPONSE_RELEASE of the slot with this number, at its time and not before; a tamper response of class RESET or higher
releases nothing more (R22). -/
def releaseById (s : State) (id : Nat) : State :=
  match s.slots.find? fun x => decide (x.id = id) with
  | some x => if x.due ≤ s.seq.time ∧ mayRelease s x then releaseSlot s x else s
  | none => s

/-- Every overdue slot that may be released, in the order of admission; f bounds the number. -/
def releaseDue : Nat → State → State
  | 0, s => s
  | f + 1, s =>
    match s.slots.find? fun x => decide (x.due ≤ s.seq.time) && mayRelease s x with
    | some x => releaseDue f (releaseSlot s x)
    | none => s

/-! The cut. -/

/-- The field of a slot's work, and its direction (R338). -/
def workField (s : State) (x : Slot) : Option (Nat × Nat) :=
  match x.work with
  | .none => none
  | .frameDown n => some (chanField s n, 1)
  | .frameUp f => some (f, 2)
  | .segment f => some (f, 3)
  | .pleRun f => some (0x200 + f, 4)
  | .attest => some (0, 6)
  | .output f => some (f, 7)

/-- Whether entry e of a cut names slot x. -/
def cuts (s : State) (e : Nat × Nat × Nat) (x : Slot) : Bool :=
  decide (x.adm = e.2.2 ∧ x.numbered) &&
    (if e.2.1 = 5 then decide (x.sess = some e.1) else decide (workField s x = some (e.1, e.2.1)))

/-- An event bit of a channel with what its owner sees at the release of the admission (R214). -/
def flagNow (s : State) (n i : Nat) : State :=
  let s1 := setFlag s n i
  let acts := ownerActs s1 n false
  if acts = [] then s1 else pushSlot s1 (actSlot s1 Lat.frame .none [] acts)

/-- The cells of an admission's upstream frame marked tainted, and counted where the frame was not tainted before (R234). -/
def taintFrame (s : State) (field adm : Nat) : State :=
  let mine := fun (p : Nat × InCell) => decide (p.2.field = field ∧ p.2.dir = 2 ∧ p.2.adm = adm)
  let s1 := if s.inflight.any fun p => mine p && !p.2.tainted then taint s else s
  { s1 with
    inflight := s1.inflight.map fun p => if mine p then (p.1, { p.2 with tainted := true }) else p
    records := s1.records.map fun p => if p.2.field = field ∧ p.2.adm = adm then (p.1, { p.2 with tainted := true }) else p }

/-- A cut frame of channel n: withheld or tainted, CUT set, and the send that a queued 0x0E made marked (R232, R237). Frames sent stays
where it has saturated (R212). A receive record gives its place back. -/
def cutFrame (s : State) (n dir adm : Nat) (queued record : Bool) : State :=
  let s1 := count (flagNow s n 5) 1 3 1
  if dir = 1 then
    let k := cnum s1 n 0x12
    let s2 := dropFrame (if k = 0xFFFFFFFF then s1 else setC s1 n 0x12 (k - 1)) (chanField s n) 1 adm
    if queued then flagNow s2 n 6 else s2
  else
    let s2 := taintFrame s1 (chanField s n) adm
    if !record then s2
    else
      let s3 := freeCells (setC s2 n 0x11 (cnum s2 n 0x11 - 1)) 1
      if cnum s3 n 0x11 = 0 then setC s3 n 0x0B (setBit (cnum s3 n 0x0B) 1 false) else s3

/-- A slot holds a DATA frame that a write of 0x0E queued: neither a system call nor the device itself made it (R232, R447). -/
def queuedSlot (x : Slot) : Bool :=
  (x.acts.any fun a => match a with
    | .lane1 (.chfDown f) => decide ((f.getD 0 0).toNat % 16 = 1)
    | _ => false) && !(x.acts.any fun a => match a with
    | .cellRet _ _ _ => true
    | _ => false)

/-- The system call of a cut slot returns ABT_KEY_ORPHANED. -/
def orphanRet (acts : List Act) : List Act :=
  acts.filterMap fun a => match a with
    | .cellRet c _ _ => some (.cellRet c [(10, Abt.keyOrphaned)] [])
    | _ => none

/-- The session secret that a cell's cut Run made for it goes (R312, R338). -/
def dropSecret (s : State) (x : Slot) : State :=
  x.acts.foldl (fun t a => match a with
    | .cellRet _ rs _ => { t with secrets := t.secrets.filter fun p => !(rs.any fun r => decide (r = (12, 0x800000 + p.1))) }
    | _ => t) s

/-- The stream of a cut segment (R280): ORPHANED with its Result, what it put out or staged tainted. A slot whose last segment is cut,
DONE at its admission, is ORPHANED too (log 101). -/
def orphanStream (s : State) (f : Nat) : State :=
  updStream s f fun y =>
    if y.state = 0 ∨ y.state = 3 then y
    else { y with state := 4, ctx := none, out := [], staged := y.staged ++ y.out, hold := [], result := Abt.keyOrphaned }

/-- Slot x under entry e of a cut. -/
def cutSlot (s : State) (e : Nat × Nat × Nat) (x : Slot) : State :=
  let swap := fun (t : State) (y : Slot) => { t with slots := t.slots.map fun z => if z.id = x.id then y else z }
  let lost := { recode s x Abt.keyOrphaned [] with acts := orphanRet x.acts, work := .none }
  match e.2.1 with
  | 1 | 2 =>
    cutFrame (swap s { lost with work := if e.2.1 = 2 then x.work else .none }) (e.1 % 0x8000) e.2.1 x.adm (queuedSlot x)
      (x.acts.any fun a => match a with | .rxJoin _ _ => true | _ => false)
  | 3 => orphanStream (swap s { lost with work := x.work }) e.1
  | 4 => updPle (dropSecret (swap s { lost with work := x.work }) x) (e.1 - 0x200) fun y => if y.state = 0 then y else { y with state := 4, out := [], result := Abt.keyOrphaned }
  | 5 => swap s { x with resp := x.bare, sess := none }
  | _ =>
    let t := dropStaged (swap s lost) x
    if x.long ∧ (s.sheaf.join.bind fun j => j.slot) = some x.adm then abandonJoin t else t

/-- The cut admission (R237, R280, R312, R338); tainted stream bytes go at the end of its release slot. -/
def applyCut (s : State) (entries : List (Nat × Nat × Nat)) : State :=
  let t := entries.foldl (fun t e => match t.slots.find? fun x => cuts t e x with
    | some x => cutSlot t e x
    | none => t) s
  let tainted := t.streams.filterMap fun p => if p.2.state = 4 ∧ p.2.staged ≠ [] then some (Act.streamZero p.1) else none
  if tainted = [] then t else pushSlot t (actSlot t Lat.internal .none [] tainted)

/-! Device time. -/

/-- Real-time counter of the Sinter domain: 32,768 steps a second (R498). -/
def tickSinter (x : Sinter) : Sinter :=
  let f := x.frac + 512
  if f ≥ 15625 then { x with frac := f - 15625, rtc := (x.rtc + 1) % 2 ^ 48 } else { x with frac := f }

/-- The time after which the host link is closed, or its queue is empty (R505). -/
def closeHost (s : State) : State :=
  match s.host.closing with
  | some t => if s.host.replies = [] ∨ s.seq.time ≥ t then { s with host := { s.host with closed := true, closing := none } } else s
  | none => s

/-- One microsecond of the core die while it runs: overdue work is released first, then device time advances (R182, R186). -/
def tickCore (s : State) : State :=
  let s1 := releaseDue (s.slots.length + 64) s
  let s2 := { s1 with seq := { s1.seq with time := s1.seq.time + 1 }, boot := { s1.boot with since := s1.boot.since + 1 } }
  placeLapse (raiseDeadlines (closeHost (Prf.tick s2)))

/-- One microsecond everywhere: a core die held in reset has no device time, one that sleeps carries it (R182). -/
def tick (s : State) : State :=
  let s1 := { s with sinter := tickSinter s.sinter, field := { s.field with time := s.field.time + 1 } }
  if s.stage = 0 then s1 else tickCore s1

end Sys2Proof.Machine
end

