-- ==== Sys2Proof/Machine/HostOps.lean ====
section
/-! DEFINITION. The host-link controller (R134 to R142, R505): one frame for each assertion of QSPI_CS_N. -/

namespace Sys2Proof.Machine

namespace Hl

/-- The controller answers frames: the core die is out of reset, and ISLAND has not closed the link. -/
def serves (s : State) : Bool := decide (s.stage ≠ 0) && !s.host.closed

/-- Only FETCH and REFETCH are served while the link closes (R505). -/
def openFor (s : State) : Bool := serves s && s.host.closing.isNone

/-- CLEAR, CLOCKS and FIRMWARE (R92, R139). -/
def early (s : State) : Bool := decide (1 ≤ s.stage ∧ s.stage ≤ 3)

/-- Replies outstanding: from the acceptance of the SEND to the delivery of the reply (R138), also while the partner has the request
(R539) or the read that it orders (R544). -/
def outstanding (s : State) : Nat :=
  s.host.buf.length + s.host.replies.length + s.host.away.length +
    (s.slots.filter fun x => decide (localOrigin x.origin = 1) && homeHere s x.origin && (x.resp.isSome || (!x.numbered && x.acts.isEmpty))).length

/-- What the device drives for n bytes clocked: the data, then 0xFF (R134). -/
def drive (s : State) (b : Bytes) (n : Nat) : State := { s with host := { s.host with out := (b ++ List.replicate n 0xFF).take n } }

/-- QSPI_CLK cycles of a frame with n bytes in and m bytes out after the dummy clocks. -/
def clocks (s : State) (n m : Nat) (dummy : Bool) : State := count s 11 0 (2 * n + 2 * m + if dummy then 8 else 0)

/-- A link error counted (R134, R137). -/
def linkError (s : State) : State := incHw s 0x1020 2 1

/-- The length field and the message of a SEND frame that passes R137. -/
def message (frame : Bytes) (whole : Bool) : Option Bytes :=
  let l := leNat ((frame.drop 1).take 2)
  let body := frame.take (l + 3)
  if whole ∧ 8 ≤ l ∧ l ≤ 1054 ∧ frame.length = l + 7 ∧ frame.head? = some 0x5A ∧ frame.drop (l + 3) = leBytes 4 (crc32c body) then
    some ((frame.drop 3).take l)
  else none

/-- SEND (R135, R137, R138, R140). -/
def send (s0 : State) (frame : Bytes) (whole : Bool) : State :=
  if !openFor s0 then s0
  else
    let s := { clocks s0 frame.length 0 false with host := { s0.host with out := [] } }
    if early s then s
    else
      let s1 := count s 11 1 1
      if s.host.buf.length ≥ 4 ∨ outstanding s ≥ 16 then setCause (incHw s1 0x1020 3 1) 0x20
      else
        let s2 := incHw s1 0x1020 1 1
        match message frame whole with
        | none => setCause (linkError (joinReply s2 linkErrorReply)) 0x40
        | some m =>
          if busy s (pairOrigin s 1) then count (joinReply s2 busyReply) 11 3 1
          else wake { s2 with host := { s2.host with buf := s2.host.buf ++ [m] } }

/-- The reply at the head of the queue, or EMPTY (R139). -/
def head (s : State) : Bytes := s.host.replies.headD emptyReply

/-- FETCH of n bytes (R139). -/
def fetch (s0 : State) (n : Nat) : State :=
  if !serves s0 then s0
  else
    let s := clocks s0 1 n true
    if early s then drive s busyReply n
    else
      let s1 := drive (count s 11 2 1) (head s) n
      match s.host.replies with
      | r :: rest => if n ≥ r.length then { s1 with host := { s1.host with replies := rest, last := some r } } else s1
      | [] => s1

/-- REFETCH of n bytes (R139). -/
def refetch (s0 : State) (n : Nat) : State :=
  if !serves s0 then s0
  else
    let s := clocks s0 1 n true
    if early s then drive s busyReply n else drive s (s.host.last.getD emptyReply) n

/-- The cause word (R141). -/
def causeWord (s : State) : Nat :=
  (if s.host.replies ≠ [] then 1 else 0) + (if halted s then 4 else 0) + (if s.stage = 0x10 then 8 else 0) + (s.host.cause &&& 0x1F2)

/-- The status block: 8 bytes and their CRC (R141). -/
def statusBlock (s : State) : Bytes :=
  let b := leBytes 4 (causeWord s) ++ [BitVec.ofNat 8 s.stage, BitVec.ofNat 8 (outstanding s), 0, 0]
  b ++ leBytes 4 (crc32c b)

/-- STATUS (R141). -/
def status (s0 : State) : State :=
  if !openFor s0 then s0
  else
    let s := clocks s0 1 12 true
    if early s then drive s busyReply 12 else drive s (statusBlock s) 12

/-- A CLEAR frame that passes R137: its mask. -/
def clearMask (frame : Bytes) (whole : Bool) : Option Nat :=
  if whole ∧ frame.length = 9 ∧ frame.head? = some 0xC3 ∧ frame.drop 5 = leBytes 4 (crc32c (frame.take 5)) then
    some (leNat ((frame.drop 1).take 4)) else none

/-- CLEAR (R137, R141). -/
def clear (s0 : State) (frame : Bytes) (whole : Bool) : State :=
  if !openFor s0 then s0
  else
    let s := { clocks s0 frame.length 0 false with host := { s0.host with out := [] } }
    if early s then s
    else match clearMask frame whole with
      | none => linkError s
      | some m => { s with host := { s.host with cause := clearBits s.host.cause (m &&& 0x1F2) } }

/-- The listed opcodes (R134). -/
def opcodes : List Nat := [0x5A, 0xA5, 0xA6, 0x3C, 0xC3]

/-- A frame with another opcode (R134). -/
def unknown (s : State) (op : Byte) : State :=
  if !openFor s ∨ opcodes.contains op.toNat then s
  else linkError { clocks s 1 0 false with host := { s.host with out := [] } }

/-- BUSY_N is low (R92, R140). -/
def busyLow (s : State) : Bool :=
  !serving s || s.host.closed || busy s (pairOrigin s 1) || decide (s.host.buf.length ≥ 4) || decide (outstanding s ≥ 16)

/-- HIRQ_N is low (R92, R141). -/
def hirqLow (s : State) : Bool :=
  !s.host.closed && (halted s || decide (s.stage = 0x10) || decide (s.stage = 0x11 ∧ causeWord s &&& num s 0x1020 4 ≠ 0))

end Hl

end Sys2Proof.Machine
end

