-- ==== Sys2Proof/Machine/InternalOps.lean ====
section
/-! DEFINITION. Internal admissions and background work (R87, R143, R192 to R194, R225 to R241, R334, R388, R390, R398, R404,
R506, R568): each takes the entry of the internal queue that it names, or meets its own time. -/

namespace Sys2Proof.Machine

namespace Intern

/-! Numbers of the internal admissions, for their payloads (log 9). -/
def chan (s : State) (kind n : Nat) : AdmIn := { internalIn kind [n] false with chan := chanField s n }

/-- An effect with the sensors that its fault outcome raises. -/
def faulty (phys : Phys) (r : State × Nat) : State × Nat := (raiseFault r.1 r.2 phys Needs.onLane, r.2)

/-- Frame work of channel n, which a suspended pair refuses (R548). -/
def framed (s : State) (n : Nat) (phys : Phys) (f : State → State × Nat) : State × Nat :=
  if sheafOn s ∧ num s 0xF000 1 = 4 then (updChan s n fun c => { c with beating := false }, Abt.pairSuspended) else faulty phys (f s)

/-! Channels (R225 to R241, R249). -/

/-- A heartbeat is placed where it is due, and admitted when it comes to the head (R239, R241). -/
def heartbeatDue (s : State) (n : Nat) (phys : Phys) : State :=
  let st := chanState s n
  let c := chanOf s n
  let due := decide (st = Ch.isOpen ∨ st = Ch.rekeying) && decide (interval s n ≠ 0) && decide (c.due ≤ s.seq.time) && !c.beating
  let t := if due then pushBack (updChan s n fun x => { x with beating := true }) (.heartbeat n) else s
  admitHead t (· = .heartbeat n) (fun _ => chan s 3 n) fun _ u => framed u n phys fun t => heartbeat t n phys

/-- The switch admission, at its time (R225). -/
def switchDue (s : State) (n : Nat) (phys : Phys) : State :=
  match (chanOf s n).switchAt with
  | t :: _ => if t ≤ s.seq.time then admitInternal s (chan s 6 n) fun u => framed u n phys fun t => switchChannel t n phys else s
  | [] => s

/-- A forced rekey, or one that a HELLO drives (R226, R227). -/
def forcedRekey (s : State) (n : Nat) (phys : Phys) : State :=
  admitHead s (· = .forced n) (fun _ => chan s 1 n) fun _ u => rekeyChannel (count u 1 5 1) n phys

def helloRekey (s : State) (n : Nat) (phys : Phys) : State :=
  admitHead s (· = .hello n) (fun _ => chan s 2 n) fun _ u =>
    if chanState u n = Ch.isOpen then startEpoch u n Ch.rekeying phys
    else (u, if chanState u n = Ch.orphaned then Abt.keyOrphaned else 0)

/-- A queued send (R232). -/
def queuedSend (s : State) (n : Nat) (phys : Phys) : State :=
  admitHead s (fun e => match e with | .send k _ => decide (k = n) | _ => false) (fun _ => chan s 5 n) fun e u =>
    match e with
    | .send _ v => framed u n phys fun t => queuedData t n v phys
    | _ => (u, 0)

/-- The Open of a channel at start-up, with the effects of an Open write of 0x01 (R98, R123, R211, R249), of origin 0x0000 and no session. -/
def openUpOp (s : State) (n : Nat) (phys : Phys) : State × Nat :=
  match (Dict.find (0x4000 + n) (chSub s 6)).2 with
  | some d => let e := performWrite s ⟨none, none, 0, 0⟩ (0x4000 + n) (chSub s 6) d [1] phys; (e.s, e.code)
  | none => (s, 0)

/-- A channel that opens at start-up (R249). -/
def openAtStartup (s : State) (n : Nat) (phys : Phys) : State :=
  admitHead s (· = .openUp n) (fun _ => chan s 7 n) fun _ u => openUpOp u n phys

/-- The cut admission (R237): its payload lists the cut set. -/
def cutPayload (es : List (Nat × Nat × Nat)) : Bytes := es.flatMap fun e => leBytes 2 e.1 ++ leBytes 1 e.2.1 ++ [0] ++ leBytes 8 e.2.2

def cut (s : State) : State :=
  admitHead s (fun e => match e with | .cut _ => true | _ => false)
    (fun e => { internalIn 4 [] true with payload := match e with | .cut es => cutPayload es | _ => [] }) fun e u =>
    match e with
    | .cut es => (applyCut u es, 0)
    | _ => (u, 0)

/-- A channel receive that writes an ALERT record makes a ring commit (R235, R393): refused where a region for it is worn out, and without effect
where its write fails (R194, R394, R397). -/
def recorded (s : State) (phys : Phys) (r : State × Nat) : State × Nat :=
  if commitForm s.pers r.1.pers ≠ .ring then r else if wears s r.1 then (s, Abt.wearLimit) else if phys = .store then (s, Abt.storeFault) else r

/-- A frame that has crossed the barrier, admitted as a channel receive (R173, R231). It waits while its record would take a store token and none
is there (R396). -/
def channelReceive (s : State) (port node : Nat) (f : Bytes) (phys : Phys) : State :=
  let t := updBar s fun b => { b with input := b.input.tail }
  let i : AdmIn := ⟨2, pairOrigin s (0x8000 + port * 256 + node), (parseHdr f).field, f, false, false, 1⟩
  let go := fun (u : State) => match admitOne u i (fun v =>
      let r := recorded v phys (framed v ((parseHdr f).field % 0x8000) phys (fun t => receiveFrame t port node f phys))
      ⟨r.1, r.2, none, false⟩) with
    | none => noteHold u i
    | some d => if capacityHolds u d.s then u else d.s
  if s.bar.input.head? ≠ some (.chfUp f) ∨ !sequencerUp s ∨ !turn s 2 ∨ !(masksReady s || s.entropyDown) then s
  else if sheafOn s ∧ joined s ∧ !leads s then
    match s.sheaf.grant with
    | some (adm, time, payload) =>
      if payload = f then followAt { t with sheaf := { t.sheaf with grant := none, asked := t.sheaf.asked.erase f } } adm time go else s
    | none =>
      if s.sheaf.asked.contains f then s
      else
        let s1 := sheafQueue s 0x11 (leBytes 2 i.origin ++ [2, 0] ++ f)
        { s1 with sheaf := { s1.sheaf with asked := s1.sheaf.asked ++ [f] } }
  else
    let u := go t
    if u.seq.adm = s.seq.adm then { s with hw := u.hw, audit := u.audit } else u

/-! Time, statistics and modes. -/

/-- Once per second of device time (R87): device time and the Sinter counter are checkpointed, and 0xD810.01 set. -/
def checkpoint (s : State) : State :=
  if s.seq.time / 1000000 ≤ s.pers.cpTime / 1000000 ∨ internalTurn s then s
  else admitInternal s (internalIn 8 [s.sinter.rtc] false) fun u =>
    (setNum { u with pers := { u.pers with cpTime := u.seq.admTime, cpRtc := u.sinter.rtc } } 0xD810 1 u.sinter.rtc, 0)

/-- The values of the entropy source that statistics admissions carry (R390): state, tillers and reseeds. -/
def rngStats (s : State) : List (Nat × Nat) :=
  let n := ((List.range 64).map fun t => if instantiated s t then 2 ^ t else 0).sum
  let st := if (List.range 64).all (instantiated s) then 2 else if (List.range 16).all (instantiated s) then 1 else num s 0x2300 1
  [(objKey 0x2300 1, if num s 0x2300 1 = 3 then 3 else max st (num s 0x2300 1)), (objKey 0x2300 4, n), (objKey 0x2300 5, s.rng.reseeds)]

/-- What statistics admissions carry of the key-node cache, of the stream slots and of the PLE slots (R143, R287, R316, R343): entries
held, slots in use, parked contexts and session secrets held; and the laps of the store's rings (R397, R419). -/
def heldStats (s : State) : List (Nat × Nat) :=
  [(objKey 0xCA00 9, s.cache.length), (objKey 0xCF20 8, (s.streams.filter fun p => p.1 < 0x100 ∧ p.2.state ≠ 0).length),
    (objKey 0xCF20 9, (s.sessions.map fun p => p.2.parked.length).sum),
    (objKey 0xDC20 6, s.pers.laps.commit), (objKey 0xDC20 7, s.pers.laps.dict), (objKey 0xDC20 8, s.pers.laps.jour),
    (objKey 0xCF38 5, (s.ples.filter fun p => p.1 < 0x100 ∧ p.2.state ≠ 0).length), (objKey 0xCF38 6, (s.secrets.filter fun p => !p.2.dead).length)]

/-- Counts that differ from what the dictionary holds (R143). After an entropy failure State is left to the admission of R388; the tillers,
zeroised at the failure, are instantiated no more, and the reseeds up to it still come (R390, log 131). -/
def changedStats (s : State) : List (Nat × Nat) :=
  (s.hw ++ heldStats s ++ (rngStats s).filter fun p => !s.entropyDown || decide (p.1 ≠ objKey 0x2300 1)).filter fun p => decide (num s (p.1 / 256) (p.1 % 256) ≠ p.2)

/-- Wear bits of 0xDC20.05 by lap count: object, warning bit (R397, R419). -/
def wearRows : List (Nat × Nat × Nat) := [(6, 0, 8), (7, 2, 4), (8, 4, 6)]

/-- A lap count that has reached its warning or its limit, with its STORE record (R397, R409, R570). -/
def wearNow (s : State) (row : Nat × Nat × Nat) : State :=
  let laps := num s 0xDC20 row.1
  let mark := fun (t : State) (b ev lim : Nat) =>
    if laps ≥ lim ∧ !bit (num t 0xDC20 5) b then journalStore (setNum t 0xDC20 5 (setBit (num t 0xDC20 5) b true)) ev row.2.2 0 0 else t
  mark (mark s row.2.1 5 95000000) (row.2.1 + 1) 6 100000000

/-- A statistics admission (R143): at most one a millisecond. -/
def statistics (s : State) : State :=
  let xs := changedStats s
  if xs = [] ∨ s.seq.time / 1000 ≤ s.seq.statAt / 1000 ∨ internalTurn s then s
  else
    let u := admitInternal s (internalIn 9 (xs.flatMap fun p => [p.1, p.2]) false) fun u =>
      (wearRows.foldl wearNow (xs.foldl (fun t p => setNum t (p.1 / 256) (p.1 % 256) p.2) u), 0)
    if u.seq.adm = s.seq.adm then u else { u with seq := { u.seq with statAt := s.seq.time } }

/-- The admission at the lapse of PROVISION (R506); an exit from a mode is recorded (R504), here under origin 0x0000 without a session. -/
def lapseEffect (s : State) : State :=
  if provisionOn s ∧ lapseAt s ≤ s.seq.admTime then journalChange (setNum s 0x2000 7 0) ⟨none, none, 0, 0⟩ 0x2000 7 [1] [0] else s

/-- PROVISION_LAPSE: the entry at the head of the internal queue admitted. -/
def provisionLapse (s : State) : State :=
  admitHead (placeLapse s) (· = .lapse) (fun _ => internalIn 10 [] false) fun _ u => (lapseEffect u, 0)

/-- A telemetry admission, at its interval; it takes no token (R568). -/
def telemetry (s : State) (xs : List (BitVec 20)) : State :=
  if Prf.due s ∧ !internalTurn s then admitInternal s (internalIn 13 (xs.map BitVec.toNat) false) fun u => (Prf.telemetry u xs, 0) else s

/-! Barrier reports (R173). -/

/-- A report cell at the admission point: it joins the barrier input behind what waits there (R180, R184), and is admitted when it
is the oldest. -/
def report (s : State) (m : Lane0) (f : State → State) : State :=
  let s1 := if s.bar.input.head? ≠ some m ∧ crosses0 s m then joinInput s m else s
  if s1.bar.input.head? ≠ some m ∨ !turn s1 2 then s1
  else
    let u := admitInternal (updBar s1 fun b => { b with input := b.input.tail }) { internalIn 0 [] false with payload := Bar.payload0 m } fun t => (f t, 0)
    if u.seq.adm = s.seq.adm then { s1 with hw := u.hw, audit := u.audit, sheaf := u.sheaf } else u

/-- The state of the field die recorded (R78), and a start or stop of the toggle (R457). -/
def fieldState (s : State) : State :=
  admitHead s (fun e => match e with | .fieldState _ _ => true | _ => false)
    (fun e => match e with
      | .fieldState st h => { internalIn 14 [] false with payload := Config.internalPayload 14 [st] ++ helloBytes h }
      | _ => internalIn 14 [] false) fun e u =>
    match e with
    | .fieldState st h => (fieldStateOp u st h, 0)
    | _ => (u, 0)

def toggleRecord (s : State) : State :=
  admitHead s (fun e => match e with | .toggle _ => true | _ => false)
    (fun e => match e with | .toggle b => internalIn 15 [if b then 1 else 0] false | _ => internalIn 15 [] false) fun e u =>
    match e with
    | .toggle b => (toggleOp u b, 0)
    | _ => (u, 0)

/-! Faults. -/

/-- An entropy failure at instant F (R388, R389): the source stops, the sensor fires, and the admission goes to the head of the
queue. The cell that waits for a random word faults. -/
def entropyFailure (s : State) (bits : Nat) : State :=
  if s.entropyDown ∨ !s.rng.on then s
  else
    let s0 := if s.stage = 3 ∧ s.boot.verified then { s with stage := 0xE2 } else s
    let s1 := sensorEvent (entropyStop s0 bits) 0x5B s.seq.time 0 0
    let s2 := pushFront s1 (.entropy bits)
    s2.twc.cells.foldl (fun t p => if p.2.stalled.isSome then faultCell t p.1 7 p.2.pc else t) s2

def entropyAdmission (s : State) : State :=
  admitHead s (fun e => match e with | .entropy _ => true | _ => false)
    (fun e => match e with | .entropy c => internalIn 16 [c] true | _ => internalIn 16 [] true) fun e u =>
    match e with
    | .entropy c => (setNum (setNum (setNum u 0x2300 1 3) 0x2300 2 c) 0x2300 3 u.seq.admTime, 0)
    | _ => (u, 0)

/-- A NOTE or CHECK fire recorded (R485). -/
def tamperAdmission (s : State) : State :=
  admitHead s (fun e => match e with | .tamper _ _ _ => true | _ => false)
    (fun e => match e with | .tamper k c b => { internalIn 17 [k, c] true with payload := firePayload k c b } | _ => internalIn 17 [] true) fun e u =>
    match e with
    | .tamper k c b => (tamperEffect u k c b, 0)
    | _ => (u, 0)

/-- A cell fault recorded (R434). -/
def faultAdmission (s : State) (c : Nat) : State :=
  admitHead s (fun e => match e with | .cellFault k _ _ => decide (k = c) | _ => false)
    (fun e => match e with | .cellFault k a p => internalIn 18 [k, a, p] false | _ => internalIn 18 [] false) fun e u =>
    match e with
    | .cellFault k a p => (faultAdmit u k a p, 0)
    | _ => (u, 0)

/-! Background work (R192 to R194). -/

/-- The fixed-vector check of a unit in its background window. The first window after a fault of the unit runs the check that decides
its withdrawal; another check of a lane or DGE that fails is itself a mismatch (R256, R300; PLE cores: log 102). -/
def unitCheck (s0 : State) (u : Nat) (ok : Bool) : State :=
  let forced := s0.forced.contains u
  let s := { s0 with forced := s0.forced.filter (· ≠ u) }
  if ok then s
  else
    let s1 := if u < 3 then sensorEvent (incHw s 0xCF20 (4 + u) 1) 0x58 s.seq.time 0 0 else s
    if forced ∨ u ≥ 3 then withdraw s1 u else unitFault s1 u

/-- A word that is unreadable and whose loss no rule lets change a value at once (R391, R398). -/
def markLost (s : State) (region word : Nat) : State :=
  if s.pers.lost.contains (region, word) then s else { s with pers := { s.pers with lost := s.pers.lost ++ [(region, word)] } }

/-- What the loss of a word leaves unreadable (R391, R398): it shows from its admission on (R193, log 99). -/
def loseWord (s : State) (region unit word : Nat) : State :=
  let p := s.pers
  let spoil := fun (x : Image) => { x with bad := true }
  match region with
  | 1 => { s with pers := { p with imageA := spoil p.imageA } }
  | 2 => { s with pers := { p with imageB := spoil p.imageB } }
  | 3 => { s with pers := { p with applets := p.applets.map fun x => if x.1 = unit then (x.1, { x.2 with readable := false }) else x } }
  | 5 | 0x0C => let r := ringOf s unit; if r.bad.contains (word % 128) then s else setRing s unit { r with bad := r.bad ++ [word % 128] }
  | 6 | 9 =>
    let q := word / 8 + (if region = 9 then 65536 else 0)
    let mark := fun (x : Nat × JRec) => if x.1 = q then (x.1, { x.2 with readable := false }) else x
    { s with pers := { p with jour := { p.jour with recs := p.jour.recs.map mark } } }
  | 7 => if p.badEpochs.contains unit then s else { s with pers := { p with badEpochs := p.badEpochs ++ [unit] } }
  | 0x0E =>
    if !copied unit then markLost s region word
    else if p.badCopies.contains unit then s else { s with pers := { p with badCopies := p.badCopies ++ [unit] } }
  | 0x0A | 0x0B | 0x0D | 0x0F => markLost s region word
  | _ => s

/-- The windows that a power state leaves: all in RUN and in DOZE, the SRAM scrub alone in NAP and in SLUMBER (R512). -/
def windowRuns (s : State) (w : BackWork) : Bool :=
  decide (s.power ≤ 1) || (decide (s.power ≤ 3) && (match w with | .sramScrub _ => true | _ => false))

/-- One background window (R192). What it has to report ends a power state (R518). -/
def window (s : State) (w : BackWork) : State :=
  if s.stage = 0 ∨ !windowRuns s w ∨ s.seq.failing then s
  else wakeIfQueued <| match w with
    | .idle => s
    | .laneCheck l ok => unitCheck s l.val ok
    | .dgeCheck ok => unitCheck s 2 ok
    | .pleCheck k ok => unitCheck s (3 + k.val) ok
    | .paritySweep bad => { s with cache := s.cache.filter fun e => isRoot e.node || !bad.contains e.node }
    | .sramScrub bad => if bad then sensorEvent s 0x5C s.seq.time 0 0 else s
    | .storeScrub k rings done =>
      let s0 := rings.foldl (fun t x => let r := ringOf t x.val; setRing t x.val { r with corrected := r.corrected + 1 }) s
      let s1 := if k = 0 then s0 else count (incHw s0 0xDC20 2 k) 8 6 k
      if done then incHw s1 0xDC20 9 1 else s1
    | .storeLost region unit word => if region = 0 then s else pushBack s (.storeFault region.val unit word)
    | .relocate k =>
      let w := ringWord (ringOf s k.val) k.val 0
      let e := IntReq.report [] (some (4, w.1, k.val, w.2))
      if (relocateRing s k.val).pers.spares = s.pers.spares ∨ s.internal.contains e then s else pushBack s e
    | .compaction => if s.tem.resp.isSome then s else { s with pers := { s.pers with dlog := compact s.pers.dlog } }
    | .adcCalibration => s

/-- A background result, or a status that a monitor or the Sheaf link has changed, admitted (R193). -/
def backgroundReport (s : State) : State :=
  let nums := fun (e : IntReq) => match e with
    | .report cs _ => cs.flatMap fun p => [p.1, p.2.toNat]
    | .clocks w => [objKey 0x2100 11, w]
    | .pairState v => [objKey 0xF000 1, v]
    | _ => []
  admitHead s (fun e => match e with | .report _ _ | .clocks _ | .pairState _ => true | _ => false) (fun e => internalIn 11 (nums e) false) fun e u =>
    match e with
    | .clocks w => (showClocks u w, 0)
    | .pairState v => (pairStateOp u v, 0)
    | .report cs st =>
      let t := cs.foldl (fun t p => setObj t (p.1 / 256) (p.1 % 256) p.2) u
      (updateAlarm (match st with
        | some (ev, region, unit, word) =>
          let v := if ev = 4 then relocateRing t unit else t
          journalStore v ev region unit word
        | none => t), 0)
    | _ => (u, 0)

/-- An uncorrectable word that scrub found (R194, R398): counted and recorded; a counter skips a value, an epoch entry is
mended, a lost object reads an older value or its default, which a carried setting sends to the field die (R172). -/
def storeFaultEffect (s : State) (region unit word : Nat) : State :=
  let s0 := loseWord s region unit word
  let s1 := incObj s0 0xDC20 3
  let s2 := if region = 8 then s1 else journalStore s1 1 region unit word
  match region with
  | 4 => match (Dict.find unit (word % 256)).2 with
    | some d =>
      if !d.pers then s2
      else
        let s3 := loseObject s2 unit (word % 256)
        if isCarried unit (word % 256) ∧ getObj s2 unit (word % 256) ≠ getObj s3 unit (word % 256) then
          (let r := configActs s3 unit (word % 256); pushSlot r.1 (actSlot r.1 Lat.internal .none [] r.2))
        else s3
    | none => s2
  | 5 | 0x0C => if skips (ringOf s2 unit) then skipValue s2 unit else s2
  | 7 =>
    let s3 := if s2.pers.badEpochs.contains unit then epochLost s2 unit else s2
    if s3.otp.retired ≠ s.otp.retired then pushSlot s3 (actSlot s3 Lat.internal .none [] [.retireReset]) else s3
  | _ => s2

def storeFaultReport (s : State) : State :=
  admitHead s (fun e => match e with | .storeFault _ _ _ => true | _ => false)
    (fun e => match e with | .storeFault r u w => internalIn 12 [r, u, w] false | _ => internalIn 12 [] false) fun e t =>
    match e with
    | .storeFault r u w => (storeFaultEffect t r u w, Abt.storeFault)
    | _ => (t, 0)

/-- A cell's load is complete: an internal admission makes it RUNNING, since cell states change only in admissions (R428, R431, log 121). -/
def loadAdmission (s : State) (c : Nat) : State :=
  if mayLoad s c ∧ !internalTurn s then admitInternal s (internalIn 24 [c] false) fun u => (loadComplete u c, 0) else s

/-! The key-node cache (R262, R334). -/

/-- A fill by KHU for a request that waits (R262). -/
def cacheFill (s : State) (n : Nat) : State := if s.stage = 0 ∨ s.entropyDown ∨ !cacheable s n then s else cacheUse s n

/-! The entropy source (R366 to R383). -/

/-- A block mask is 32 bytes from one of the lane's tillers (R252, R376): the reserve is filled as far as 4,096 bytes go. -/
def maskRefill (s : State) (lane t : Nat) : State :=
  let have' := s.rng.masks.getD lane 0
  if t / 6 ≠ lane ∨ have' ≥ 4096 then s
  else
    let k := min 128 (4096 - have')
    match genTiller s t (32 * k) with
    | none => s
    | some (_, s1) => count { s1 with rng := { s1.rng with masks := s1.rng.masks.set lane (have' + k) } } 7 1 (2 * k)

/-- A conditioned block joins the seed pool, where that has room (R370, R371). -/
def poolBlock (s : State) (raw : BitVec 512) : State :=
  if s.rng.pool.length ≥ 16 then s
  else count { s with rng := { s.rng with pool := s.rng.pool ++ [cmac (fitBytes 32 Config.conditioningKey) (beBytes 64 raw.toNat)] } } 7 0 1

/-- 128 raw bits of each Fumarole. They run through the health tests, whatever becomes of them; bits that fail one make no block, and the
source has failed (R371, R372, R388). Until the balance loops have converged they are not used, the next 1,024 bits are tested and discarded,
and from then on they make a conditioned block (R370, R380, R383). -/
def conditioned (s : State) (raw : BitVec 512) : State :=
  if !s.rng.on ∨ s.entropyDown then s
  else
    let r := judged s.rng.health raw
    let s1 := { s with rng := { s.rng with health := r.1 } }
    if r.2 ≠ 0 then entropyFailure s1 r.2
    else if s.rng.startup = 0 then poolBlock s1 raw
    else if s.rng.startup ≤ 8 then { s1 with rng := { s1.rng with startup := s.rng.startup - 1 } }
    else s1

/-- Tillers 0 to 15 are instantiated first, in ascending order, then 16 to 63 (R380). -/
def instantiate (s : State) (t : Nat) : State :=
  if !s.rng.on ∨ s.entropyDown ∨ instantiated s t ∨ !(List.range t).all (instantiated s) then s
  else enterRecover ((instantiateTiller s t).getD s)

/-- A reseed that is due (R374, R379, R383). -/
def reseed (s : State) (t : Nat) : State := if s.entropyDown then s else (readyTiller s t).getD s

/-- A 512-byte refill of an output buffer that holds 512 bytes or fewer (R377). -/
def refill (s : State) (t : Nat) : State :=
  if t < 16 ∨ (tillerOf s t).buf.length > 512 then s
  else match genTiller s t 512 with
    | none => s
    | some (b, s1) => count (setTiller s1 t { tillerOf s1 t with buf := (tillerOf s1 t).buf ++ b }) 7 1 32

/-- A window of 4,096 raw bits (R367). -/
def balance (s : State) (f ones : Nat) : State :=
  if !s.rng.on ∨ s.entropyDown then s
  else
    let old := s.rng.trims.getD f (32, 0)
    let x := balanceStep old (min ones 4096)
    let w := s.rng.recent.getD f []
    let ws := s.rng.recent.set f ((x.1 :: (if w = [] then [old.1] else w)).take 4)
    let s1 := { s with rng := { s.rng with
      trims := s.rng.trims.set f x, recent := ws, startup := if s.rng.startup = 9 ∧ ws.all converged then 8 else s.rng.startup } }
    if x.2 ≥ 4 then entropyFailure s1 (8 + 2 ^ (8 + f)) else s1

/-- Cause bits of a failed test of Fumarole f (R390). -/
def testBits (c : EntropyTest) (f : Nat) : Nat :=
  (match c with | .oscBand => 1 | .oscDead => 2 | .oscLocked => 4 | .balance => 8 | .rct => 16 | .apt => 32) + 2 ^ (8 + f)

end Intern

end Sys2Proof.Machine
end

