-- ==== Sys2Proof/Machine/SyscallOps.lean ====
section
/-! DEFINITION. Applet system calls (R443 to R453): the ECALL, what is refused before admission, the effect of each call and
its release. -/

namespace Sys2Proof.Machine

namespace Sys

/-- What a call comes to: its effect, the registers it writes beside a0, and the bytes it writes to cell memory. -/
structure Out where
  e : Eff
  regs : List (Nat × Nat)
  mem : List (Nat × Bytes)

def Out.just (e : Eff) : Out := ⟨e, [], []⟩
def Out.fail (s : State) (lat code : Nat) : Out := .just (Eff.fail s lat code)

/-- Registers only where the call succeeded. -/
def Out.regsIf (e : Eff) (r : List (Nat × Nat)) : Out := ⟨e, if e.code = 0 then r else [], []⟩

/-- The caller of a dictionary call (R445): the granted role, no session. -/
def ctx (s : State) (c : Nat) : Ctx := ⟨some (num s (0xD000 + c) 5), none, 15, 0x100 + c⟩

/-- The call numbers (R444). -/
def known : List Nat := [1, 2, 3, 4, 5, 6, 0x10, 0x11, 0x20, 0x21, 0x30, 0x31, 0x32, 0x40, 0x41, 0x42, 0x48, 0x49]

/-- How many of a0 to a5 a call uses (R444, R446). -/
def arity (n : Nat) : Nat :=
  match n with
  | 1 | 2 => 4
  | 3 | 4 | 0x30 | 0x31 | 0x42 => 1
  | 0x10 | 0x11 | 6 | 0x20 | 0x48 => 3
  | 0x21 | 0x40 | 0x49 => 2
  | 0x41 => 5
  | _ => 0

/-- The input buffer of a call: address and length, as the call names them (R443). -/
def inBuf (n : Nat) (a : List Nat) : Nat × Nat :=
  let g := fun i => a.getD i 0
  match n with
  | 2 => (g 2, g 3)
  | 4 => (g 0, 24)
  | 0x20 => (g 1, g 2)
  | 0x30 => (g 0, 40)
  | 0x40 => (g 1, 24)
  | 0x41 => (g 1, g 2)
  | 0x48 => (g 0, g 1)
  | _ => (0, 0)

/-- The bytes of its input that a call takes in, and its log payload with it: no more than it can use. -/
def taken (n : Nat) (a : List Nat) : Nat := min (inBuf n a).2 (if n = 2 then 256 else 1024)

/-- The output buffer of a call: address and length. -/
def outBuf (n : Nat) (a : List Nat) : Nat × Nat :=
  let g := fun i => a.getD i 0
  match n with
  | 1 => (g 2, g 3)
  | 3 => (g 0, 16)
  | 0x21 => (g 1, 244)
  | 0x41 => (g 3, g 4)
  | 0x49 => (g 0, g 1)
  | _ => (0, 0)

/-- The stream of a call, by cell and number (R450). -/
def streamKey (c i : Nat) : Nat := 0x100 + 2 * c + i

/-- A stream whose output is staged (R276). -/
def isStaged (y : Stream) : Bool := decide (y.state = 1) && y.withheld

/-- The output room that STREAM_DATA needs (R450). -/
def needRoom (s : State) (c : Nat) (a : List Nat) : Nat :=
  let y := streamOf s (streamKey c (a.getD 0 0 % 2))
  let n := a.getD 2 0
  if isStaged y ∧ n ≥ y.remain then (y.ctx.map fun x => x.dataLen).getD 0 + 64 else n + 64

/-- The refusal before admission, or 0 (R443). -/
def early (s : State) (c : Nat) (x : Cell) (n : Nat) (a : List Nat) : Nat :=
  let i := inBuf n a
  let o := outBuf n a
  if !known.contains n then Abt.serviceUnknown
  else if i.2 ≠ 0 ∧ !inMemory i.1 i.2 then Abt.appletMemory
  else if o.2 ≠ 0 ∧ !inData x o.1 o.2 then Abt.appletMemory
  else if n = 0x41 ∧ o.2 < needRoom s c a then Abt.appletMemory
  else 0

/-! Dictionary calls (R445). -/

/-- Objects that no applet reaches. -/
def closed (i : Nat) (d : Desc) : Bool :=
  d.longOp || decide (i = 0x2310) || decide (0xC800 ≤ i ∧ i < 0xD000) || decide (0xD000 ≤ i ∧ i < 0xD800)

/-- The index lies in a write range of the cell's manifest. -/
def inRange (s : State) (c i : Nat) : Bool :=
  (chunks 4 (oct s (0xD000 + c) 15)).any fun e => decide (leNat (e.take 2) ≤ i ∧ i ≤ leNat (e.drop 2))

/-- Checks 6 to 10 with the refusals of R445 at check 9. -/
def checks (s : State) (c : Nat) (write : Bool) (i k : Nat) (d : Desc) (v : Option (Option Bytes)) : Nat :=
  let x := ctx s c
  let shut := if closed i d ∨ (write = true ∧ !inRange s c i) then Abt.role else 0
  [lifecycleCheck s write i k, stateCheck s write i k d, accessCheck write d, shut, roleCheck s x write i k d v, modeCheck s x write i k d].foldl
    orElse 0

def read (s : State) (c : Nat) (a : List Nat) : Out :=
  let g := fun i => a.getD i 0
  match findObj (g 0) (g 1) with
  | .error e => .fail s Lat.read e
  | .ok d =>
    let code := checks s c false (g 0) (g 1) d none
    let v := readBytes s (ctx s c) (g 0) (g 1) d
    if code ≠ 0 then .fail s Lat.read code
    else if d.ty = .domain ∨ v.length > g 3 then .fail s Lat.read Abt.sizeMismatch
    else
      let bad := readConflict s (ctx s c) (g 0) (g 1)
      if bad ≠ 0 then .fail s Lat.read bad else ⟨Eff.ok s Lat.read, [(11, v.length)], [(g 2, v)]⟩

def write (s : State) (c : Nat) (a : List Nat) (v : Bytes) (phys : Phys) : Out :=
  let g := fun i => a.getD i 0
  let lat := writeLat s (g 0) (g 1) v
  match findObj (g 0) (g 1) with
  | .error e => .fail s lat e
  | .ok d =>
    let code := checks s c true (g 0) (g 1) d (if d.ty = .domain then some none else some (some v))
    let size := if d.ty = .label then 1 + (v.headD 0).toNat else d.size
    if code ≠ 0 then .fail s lat code
    else if d.ty = .domain ∨ g 3 ≠ size ∨ g 3 > 256 then .fail s lat Abt.sizeMismatch
    else .just (performWrite s (ctx s c) (g 0) (g 1) d v phys)

/-! Counters and channels (R447). -/

def ctrLat (s : State) : Nat := if sheafOn s then 20 else Lat.increment

def counter (s : State) (c : Nat) (advance : Bool) (a : List Nat) (phys : Phys) : Out :=
  let k := a.getD 0 0
  let v := a.getD 1 0 + a.getD 2 0 * 4294967296
  let gate := pairGate s (0xC000 + k) (if advance then 3 else 2)
  if k ≥ 2048 then .fail s (ctrLat s) Abt.objectUnknown
  else if gate ≠ 0 then .fail s (ctrLat s) gate
  else if calderaOn s then .fail s (ctrLat s) Abt.counterFrozen
  else if advance ∧ num s (0xC000 + k) 4 ≠ 0x100 + c then .fail s (ctrLat s) Abt.role
  else
    let r := counterOp s k (0x100 + c) advance v phys
    let n := counterValue r.1 k
    .regsIf (Eff.of (ctrLat s) r) [(11, n % 4294967296), (12, n / 4294967296)]

/-- The refusal of a channel call to channel field f that its caller earns (R230, R233, R447, R507), or 0. -/
def chanCheck (s : State) (c f : Nat) : Nat :=
  let n := f % 0x8000
  if f > 0xFFFF then Abt.objectUnknown
  else if !sheafOn s ∧ f ≥ 0x8000 then Abt.mode
  else if num s (0x4000 + n) (5 + 0x40 * (f / 0x8000)) ≠ 0x100 + c then Abt.role
  else if serviceOn s ∧ serviceChannel s n then Abt.mode
  else 0

/-- The refusal of a channel call while the pair is apart or suspended (R230, R548, R551), or 0. -/
def chanGate (s : State) (f : Nat) : Nat := pairGate s (0x4000 + f % 0x8000) (0x0E + 0x40 * (f / 0x8000))

/-- CH_SEND (R230, R447): the checks of a downstream send in their order. -/
def chSend (s : State) (c : Nat) (a : List Nat) (v : Bytes) (phys : Phys) : Out :=
  let f := a.getD 0 0
  let n := f % 0x8000
  let st := chanState s n
  let code := chanCheck s c f
  let mine := decide (f / 0x8000 = pairNo s)
  if code ≠ 0 then .fail s Lat.frame code
  else if mine ∧ a.getD 2 0 > tmplAt s n 4 (num s (0x3000 + cnum s n 3) 5) then .fail s Lat.frame Abt.sizeMismatch
  else if chanGate s f ≠ 0 then .fail s Lat.frame (chanGate s f)
  else if !mine then .just (Eff.ok s Lat.frame)
  else if st = Ch.orphaned then .fail s Lat.frame Abt.keyOrphaned
  else if st ≠ Ch.isOpen ∧ st ≠ Ch.rekeying then .fail s Lat.frame Abt.channelClosed
  else
    let q := cnum s n 9
    .regsIf (Eff.of Lat.frame (sendFrame s n 1 v phys)) [(11, q)]

/-- Records delivered by verdicts of the partner's channel (R542). -/
def delivered (s : State) (f : Nat) : List RxRec := SMap.at' s.sheaf.delivery f []

/-- The oldest of them taken, which leaves rs, and its record cell freed. -/
def takeDelivered (s : State) (f : Nat) (rs : List RxRec) : State :=
  let t := match headCell s f with
    | some k => { s with records := SMap.del s.records k }
    | none => s
  freeCells { t with sheaf := { t.sheaf with delivery := SMap.store t.sheaf.delivery f rs [] } } 1

def chRecv (s : State) (c : Nat) (a : List Nat) : Out :=
  let f := a.getD 0 0
  let n := f % 0x8000
  let code := orElse (chanCheck s c f) (chanGate s f)
  let mine := decide (f / 0x8000 = pairNo s)
  let q := if mine then (chanOf s n).queue else delivered s f
  if code ≠ 0 then .fail s 3 code
  else match q with
    | [] => ⟨Eff.ok (if mine ∧ !homeHere s (0x100 + c) ∧ cnum s n 0x11 ≠ 0 then popRecord s n else s) 3, [(11, 0)], []⟩
    | r :: rs =>
      let t := if mine then popRecord s n else takeDelivered s f rs
      ⟨Eff.ok t 3, [(11, r.bytes.length)], [(a.getD 1 0, r.bytes)]⟩

/-! Key calls (R449). -/

/-- A commit of the store, for which a region may be worn out, or whose write may fail (R194, R394, R397): an operation that would succeed
then has no effect. -/
def storing (s : State) (phys : Phys) (r : State × Nat) : State × Nat :=
  if r.2 ≠ 0 then r else if wears s r.1 then (s, Abt.wearLimit) else if phys = .store then (s, Abt.storeFault) else r

def keyCreate (s : State) (c : Nat) (v : Bytes) (phys : Phys) : Out :=
  let value := leBytes 4 (handleOf s (rootOf c)) ++ v.take 5 ++ (v.drop 8).take 32 ++ (v.drop 5).take 3
  let r := createNodeOp s value (some c)
  .regsIf (Eff.of Lat.write (storing s phys (r.1, r.2.1))) [(11, r.2.2)]

def keyRemove (s : State) (c : Nat) (a : List Nat) (phys : Phys) : Out :=
  match nodeByHandle s (a.getD 0 0) with
  | none => .fail s Lat.write Abt.handleInvalid
  | some n => if below s (rootOf c) n then .just (Eff.of Lat.write (storing s phys (removeNodeOp s (a.getD 0 0)))) else .fail s Lat.write Abt.keyUsage

def keyRevoke (s : State) (c : Nat) (phys : Phys) : Out :=
  if epochOf s (rootOf c) ≥ 0xFFFFFF then .fail s Lat.write Abt.epochExhausted
  else if phys = .store then .fail s Lat.write Abt.storeFault
  else
    let t := bumpNodes s [rootOf c]
    ⟨Eff.ok t Lat.write, [(11, epochOf t (rootOf c))], []⟩

/-! Streams and PLE (R450, R451). -/

def streamBegin (s : State) (c : Nat) (a : List Nat) (v : Bytes) : Out :=
  let i := a.getD 0 0
  let m := (v.getD 0 0).toNat
  let staged := (bit (v.getD 1 0).toNat 0 && Str.isAead m) || Str.isKw m
  if i > 1 then .fail s Lat.write Abt.valueRange
  else if staged ∧ isStaged (streamOf s (streamKey c (1 - i))) then .fail s Lat.write Abt.valueConflict
  else .just (Eff.of Lat.write (beginStreamOp s (streamKey c i) (ctx s c).caller v 8192))

def streamData (s : State) (c : Nat) (a : List Nat) (v : Bytes) (phys : Phys) : Out :=
  let i := a.getD 0 0
  let f := streamKey c i
  let y := streamOf s f
  let lat := streamLat y.mode
  if i > 1 ∨ a.getD 2 0 = 0 ∨ a.getD 2 0 > 1024 then .fail s Lat.cipher Abt.valueRange
  else if y.state = 1 ∧ v.length > y.remain then .fail (failStream s f Abt.lengthLong) lat Abt.lengthLong
  else
    let e := streamInputOp s f v phys
    let out := e.acts.flatMap fun x => match x with
      | .streamOut _ b => b
      | _ => []
    let rest := e.acts.filter fun x => match x with
      | .streamOut _ _ => false
      | _ => true
    ⟨{ e with acts := rest }, [(11, out.length), (12, (streamOf e.s f).flags)], [(a.getD 3 0, out)]⟩

def streamRelease (s : State) (c : Nat) (a : List Nat) : Out :=
  if a.getD 0 0 > 1 then .fail s Lat.read Abt.valueRange else .just (Eff.ok (releaseStream s (streamKey c (a.getD 0 0))) Lat.read)

def pleLoad (s : State) (c : Nat) (a : List Nat) (v : Bytes) : Out :=
  let f := 0x100 + c
  let old := if a.getD 2 0 = 1 then [] else (pleOf s f).input
  if a.getD 1 0 = 0 ∨ a.getD 1 0 > 1024 ∨ a.getD 2 0 > 1 then .fail s Lat.domain Abt.valueRange
  else if old.length + v.length > 8192 then .fail (updPle s f fun y => { y with input := [] }) Lat.domain Abt.lengthLong
  else ⟨Eff.ok (updPle s f fun y => { y with input := old ++ v }) Lat.domain, [(11, old.length + v.length)], []⟩

/-- Bytes of output of an operation (R309). -/
def outLen (h : PleHdr) : Nat :=
  if PleReq.isSign h.op then PleReq.sigLen (PleReq.algOf h)
  else if h.op = 9 then 1088
  else if h.op = 11 then PleReq.pkLen (PleReq.algOf h)
  else if h.op = 12 then 104 + PleReq.pkLen (PleReq.algOf h)
  else 0

def pleRun (s : State) (c : Nat) (a : List Nat) (phys : Phys) : Out :=
  let f := 0x100 + c
  let b := (pleOf s f).input
  let h := PleReq.parse b
  let lat := if b = [] then Lat.write else PleReq.latency h.op
  if b = [] then .fail s lat Abt.valueConflict
  else
    let code := pleCheck s b (ctx s c).caller
    if code ≠ 0 then .fail s lat code
    else if a.getD 1 0 < outLen h then .fail s lat Abt.sizeMismatch
    else match pleRunOp s b (ctx s c).caller phys with
      | .refused e => .fail s lat e
      | .ran t o =>
        let fl := pleFlags t h.op o.code
        let t1 := updPle fl.2 f fun y => { y with input := [] }
        let i := freeSecret t1.secrets
        let src := if h.op = 10 then h.handle % 0x10000 else 0
        let t2 := match o.secret with
          | some k => { t1 with secrets := SMap.put t1.secrets i ⟨k, f, src, false⟩ }
          | none => t1
        let flag := if o.secret.isSome then i + 0x800000 else fl.1
        let nodes := pleNodes s h
        ⟨{ Eff.fail t2 lat o.code with work := .pleRun f, nodes := nodes, random := o.random }, [(11, o.out.length), (12, flag)],
          [(a.getD 0 0, o.out)]⟩

/-! The calls. -/

/-- The effect of call n of cell c with arguments a and input bytes v, in its admission. -/
def effect (s : State) (c n : Nat) (a : List Nat) (v : Bytes) (phys : Phys) : Out :=
  match n with
  | 1 => read s c a
  | 2 => write s c a v phys
  | 3 => ⟨Eff.ok s Lat.read, [], [(a.getD 0 0, leBytes 8 s.seq.adm ++ leBytes 8 s.seq.admTime)]⟩
  | 4 => .just (Eff.ok (setOct s (0xD000 + c) 12 v) Lat.write)
  | 5 => .just (Eff.ok (setCellState (leaveCell s c) c 1) Lat.write)
  | 0x10 => counter s c false a phys
  | 0x11 => counter s c true a phys
  | 0x20 => chSend s c a v phys
  | 0x21 => chRecv s c a
  | 0x30 => keyCreate s c v phys
  | 0x31 => keyRemove s c a phys
  | 0x32 => keyRevoke s c phys
  | 0x40 => streamBegin s c a v
  | 0x41 => streamData s c a v phys
  | 0x42 => streamRelease s c a
  | 0x48 => pleLoad s c a v
  | _ => pleRun s c a phys

/-- The payload of a call in the log (R446). -/
def payload (n : Nat) (a : List Nat) (v : Bytes) : Bytes :=
  [BitVec.ofNat 8 n, 0] ++ leBytes 2 v.length ++ ((List.range 6).flatMap fun i => leBytes 4 (if i < arity n then a.getD i 0 else 0)) ++ v

/-- Who executes a call of cell c in a joined pair (R540): its channel's partner, the partner of a channel object or the target of a local
one, or both. -/
def alone (s : State) (c n : Nat) (a : List Nat) : Nat :=
  let f := a.getD 0 0
  let by' := if !(sheafOn s && joined s) then none
    else if n = 0x20 ∨ n = 0x21 then (if f > 0xFFFF then none else some (f / 0x8000))
    else if n = 1 ∨ n = 2 then (if a.getD 1 0 > 0xFF then none else objectPartner s (0x100 + c) f (a.getD 1 0))
    else none
  match by' with
  | none => 0
  | some p => if p = pairNo s then 1 else 2

/-- A WRITE that the partner executes: the value is kept for its verdict (R541). -/
def writeAway (s : State) (c : Nat) (a : List Nat) (v : Bytes) : Out :=
  let i := a.getD 0 0
  let k := a.getD 1 0
  let p := match (Dict.find i k).2 with
    | some d => keepValue s (ctx s c) i k d v
    | none => (s, [])
  .just { Eff.ok p.1 (writeLat s i k v) with acts := p.2 }

/-- A READ that the partner orders (R544): a READ_RELAY, and a slot that holds the address and the room of the buffer until the READ_RESULT
comes. -/
def readAway (s : State) (c : Nat) (a : List Nat) : State :=
  let g := fun i => a.getD i 0
  pushSlot (sheafQueue s 0x30 (leBytes 2 (0x100 + c) ++ [1, 0, 0, 0] ++ leBytes 2 (g 0) ++ leBytes 1 (g 1) ++ [0]))
    ⟨0, s.seq.adm, false, 0x100 + c, s.seq.time + 12, none, some (leBytes 4 (g 2) ++ leBytes 4 (g 3)), 0, false, .none, none, [], []⟩

/-- What a call leaves to be released: its results, in the slot of its frame where it sent one. STOP does not return (R444). -/
def leave (s : State) (c n : Nat) (o : Out) (numbered : Bool) (sent : Bool) : State :=
  let t0 := if numbered then s.seq.admTime else s.seq.time
  let ret := if n = 5 then [] else [Act.cellRet c ((10, o.e.code) :: o.regs) o.mem]
  if sent then
    { s with slots := s.slots.map fun x => if x.id + 1 = s.seq.nextId then { x with acts := x.acts ++ ret } else x }
  else
    pushSlot s ⟨0, s.seq.adm, numbered, 0x100 + c, t0 + o.e.lat, none, none, o.e.code, false, o.e.work, none, o.e.nodes, o.e.acts ++ ret⟩

/-- The admission of a call (R443): its effect, the count of calls, and its release, 10 us later where the partner executes it (R543). -/
def perform (s : State) (c n : Nat) (a : List Nat) (v : Bytes) (phys : Phys) : Done :=
  let needs := if n = 0x41 then segNeeds s (streamKey c (a.getD 0 0 % 2)) (a.getD 2 0)
    else if n = 0x49 then pleNeeds (PleReq.parse (pleOf s (0x100 + c)).input)
    else if n = 2 then objectNeeds s (a.getD 0 0) (a.getD 1 0) 0 else Needs.onLane
  let s0 := calledBy (incObj s (0xD000 + c) 13) (ctx s c)
  let away := decide (alone s c n a = 2)
  let o := if away ∧ n = 2 then writeAway s0 c a v else effect s0 c n a v phys
  let sent := decide (n = 0x20 ∧ o.e.code = 0 ∧ a.getD 0 0 / 0x8000 = pairNo s)
  let t := leave o.e.s c n (if away then { o with e := { o.e with lat := o.e.lat + 10 } } else o) true sent
  let t1 := if away then { t with sheaf := { t.sheaf with awaits := t.sheaf.awaits ++ [⟨s.seq.adm, 0x22, s.seq.admTime + o.e.lat + 6⟩] } } else t
  ⟨raiseFault t1 o.e.code phys needs, o.e.code, none, o.e.random⟩

/-- How a call enters the sequencer: a value that carries key material is logged as its digest (R204), and a write to 0xDC80.02 may use
the reserve (R201). -/
def callIn (s : State) (c n : Nat) (a : List Nat) (v : Bytes) : AdmIn :=
  let key := decide (n = 2) && keyMaterial (a.getD 0 0) (a.getD 1 0)
  ⟨3, 0x100 + c, 0xFFFF, payload n a (if key then sha256 v else v), key, decide (n = 2 ∧ a.getD 0 0 = 0xDC80 ∧ a.getD 1 0 = 2), alone s c n a⟩

/-- Whether a call is a read, ordered and not numbered (R18, R445). -/
def isRead (n : Nat) : Bool := decide (n = 1)

/-! The ECALL. -/

/-- The cell past its ECALL: its count of instructions starts again, and it gives up the pair (R429, R430). -/
def past (s : State) (c : Nat) (x : Cell) (f : Cell → Cell) : State :=
  let s1 := count (retired s c 1 x.pc.toNat 0x73 true { x with pc := x.pc + 4 }) 2 2 1
  yieldPair (setCell s1 c (f { x with pc := x.pc + 4, retired := 0, stalled := none }))

/-- A refusal before admission returns at once (R443). -/
def refuse (s : State) (c : Nat) (x : Cell) (code : Nat) : State := past s c x fun y => setReg y 10 (BitVec.ofNat 32 code)

/-- WAIT (R448): not admitted. -/
def wait (s : State) (c : Nat) (x : Cell) (a : List Nat) : State :=
  let mask := a.getD 0 0
  let dl := a.getD 1 0 + a.getD 2 0 * 4294967296
  if mask = 0 ∧ dl = 0 then refuse s c x Abt.valueRange
  else if x.events &&& mask ≠ 0 then
    past s c x fun y => { setReg (setReg y 10 0) 11 (BitVec.ofNat 32 (x.events &&& mask)) with events := clearBits x.events mask }
  else raiseDeadlines (past s c x fun y => { y with waiting := some (mask, dl) })

/-- The arguments a0 to a5. -/
def args (x : Cell) : List Nat := (List.range 6).map fun i => (SMap.at' x.regs (10 + i) 0#32).toNat

/-- The admission of a call that its cell x has issued, or its ordering where it is a read: none where it is held (R18, R183, R201). -/
def admitCall (s : State) (c : Nat) (x : Cell) (phys : Phys) : Option State :=
  let n := (reg x 17).toNat
  let a := args x
  let v := loadBytes x (inBuf n a).1 (taken n a)
  if isRead n ∧ alone s c n a = 2 then some (readAway s c a)
  else if isRead n then
    let o := effect s c n a v phys
    some (leave (count o.e.s 0 2 1) c n o false false)
  else match admitOne s (callIn s c n a v) fun t => perform t c n a v phys with
    | none => none
    | some d => if capacityHolds s d.s then none else some d.s

/-- Among the calls that wait, that of the lowest cell number whose admission is possible goes first (R180). -/
def cellTurn (s : State) (c : Nat) : Bool :=
  (List.range c).all fun d => match SMap.look s.twc.cells d with
    | some x => !(x.issued && (admitCall s d x .ok).isSome)
    | none => true

/-- A call of cell c: admitted from state go, where it can be; else it stays issued, as in state stay (R180, R184). -/
def submit (s go stay : State) (c : Nat) (x : Cell) (phys : Phys) : State :=
  let n := (reg x 17).toNat
  let i := callIn go c n (args x) (loadBytes x (inBuf n (args x)).1 (taken n (args x)))
  if !sequencerUp s ∨ !turn s 4 ∨ !cellTurn s c then stay
  else match admitCall go c x phys with
    | some t => t
    | none => if !isRead n && auditHolds go i then noteHold stay i else stay

/-- A system call of cell c whose number a command names. It is issued where the cell executes and its next instruction is an ECALL with
that number: the cell gives up the pair, and waits, blocked, until the call is admitted (R180, R429, R443). The same command admits a call
that waits. -/
def call (s : State) (c : Fin 32) (want : Nat → Bool) (phys : Phys) : State :=
  match running s c with
  | none => match SMap.look s.twc.cells c.val with
    | some x => if x.issued ∧ want (reg x 17).toNat then submit s (setCell s c.val { x with issued := false }) s c.val x phys else s
    | none => s
  | some x =>
    let n := (reg x 17).toNat
    let code := early s c.val x n (args x)
    if fetch x ≠ some 0x73 ∨ !want n then s
    else if code ≠ 0 then refuse s c.val x code
    else if n = 6 then wait s c.val x (args x)
    else submit s (past s c.val x fun y => { y with blocked := true }) (past s c.val x fun y => { y with blocked := true, issued := true }) c.val x phys

end Sys

end Sys2Proof.Machine
end

