-- ==== Sys2Proof/Machine/SheafOps.lean ====
section
/-! DEFINITION. The Sheaf link and the pair (R524 to R553): frames, the join and its transfer, the admissions of the pair, and
what separates it. -/

namespace Sys2Proof.Machine

namespace Shf

def upd (s : State) (f : Sheaf → Sheaf) : State := { s with sheaf := f s.sheaf }

/-- This unit's partner number (0xF000.02), whether or not SHEAF is set. -/
def me (s : State) : Nat := num s 0xF000 2 % 2

/-- The core die runs and serves, no tamper response isolates its key paths (R486), and VDD_LVDS is in range, without which the Sheaf link is
down (R39). -/
def awake (s : State) : Bool := serving s && decide (s.power ≤ 2) && s.boot.lvds && s.tem.resp.isNone

/-! Frames (R527 to R529). -/

/-- The nonce of a SEALED frame from partner p (R527). -/
def nonce (p ctr : Nat) : Bytes := [0x83, BitVec.ofNat 8 p, 0, 0] ++ beBytes 8 ctr

def frameHead (type len ctr ack : Nat) : Bytes := [BitVec.ofNat 8 type, 0] ++ leBytes 2 len ++ leBytes 8 ctr ++ leBytes 8 ack

/-- A frame with this payload: SEALED under K_sl, or JOIN in the clear. -/
def frame (s : State) (ctr : Nat) (payload : Bytes) : Bytes :=
  match s.sheaf.key with
  | some k =>
    let h := frameHead 2 payload.length ctr s.sheaf.got
    let c := gcmSeal k (nonce (me s) ctr) h payload
    h ++ c.1 ++ c.2
  | none => frameHead 1 payload.length ctr s.sheaf.got ++ payload ++ zeros 16

/-- A frame sent, and kept until it is acknowledged. -/
def transmit (s : State) (payload : Bytes) : State :=
  let n := s.sheaf.sent + 1
  let b := frame s n payload
  let first := s.sheaf.kept = []
  upd (count s 12 0 1) fun h => { h with
    sent := n, kept := h.kept ++ [(n, b)], line := h.line ++ [b], spoke := s.seq.time
    acked := if first then s.seq.time else h.acked }

/-- The priority of a message (R529). -/
def priority (m : Bytes) : Nat :=
  match (m.getD 0 0).toNat with
  | 0x01 | 0x02 | 0x10 => 1
  | 0x12 | 0x20 | 0x21 | 0x22 | 0x31 => 2
  | 0x11 | 0x30 => 3
  | _ => 4

/-- A message in pieces that each fit a frame: every piece but the last carries MORE. -/
def pieces (m : Bytes) : List Bytes :=
  let bs := chunks 252 (m.drop 4)
  let n := bs.length
  if n = 0 then [m]
  else (List.range n).map fun i =>
    let b := bs.getD i []
    [m.getD 0 0, if i + 1 < n then 1 else 0] ++ leBytes 2 b.length ++ b

/-- Payloads of frames that carry the pieces in their order: at most 256 bytes each. -/
def pack (ps : List Bytes) : List Bytes :=
  let r := ps.foldl (fun (a : List Bytes × Bytes) p =>
    if a.2.length + p.length ≤ 256 then (a.1, a.2 ++ p) else (a.1 ++ [a.2], p)) ([], [])
  if r.2 = [] then r.1 else r.1 ++ [r.2]

/-- Queued messages leave in the order of their priority. Before K_sl only those of a join leave. -/
def flush (s : State) : State :=
  if s.sheaf.out = [] ∨ !awake s then s
  else
    let ms := s.sheaf.out.filter fun m => s.sheaf.key.isSome || decide ((m.getD 0 0).toNat ≤ 2)
    let sorted := [1, 2, 3, 4].flatMap fun p => ms.filter fun m => decide (priority m = p)
    (pack (sorted.flatMap pieces)).foldl transmit (upd s fun h => { h with out := [] })

/-- SHEAF_RX_LOCK (R79). -/
def setLock (s : State) (b : Bool) : State := clockBit s 8 b

/-- Messages of a payload: each with its MORE flag; fuel bounds their number. -/
def messages : Nat → Bytes → List (Bool × Bytes)
  | 0, _ => []
  | f + 1, b =>
    if b.length < 4 then []
    else
      let n := leNat ((b.drop 2).take 2)
      (bit (b.getD 1 0).toNat 0, b.take (4 + n)) :: messages f (b.drop (4 + n))

/-- A piece joins what came before it; a whole message joins the inbox. -/
def takePiece (h : Sheaf) (p : Bool × Bytes) : Sheaf :=
  let body := (h.part.drop 4) ++ p.2.drop 4
  let m := [p.2.getD 0 0, 0] ++ leBytes 2 body.length ++ body
  if p.1 then { h with part := m } else { h with part := [], inbox := h.inbox ++ [m] }

/-- Whether this unit may take part in a join that its partner starts (R533), but for the caller's numbers. -/
def mayJoin (s : State) : Bool :=
  let st := pairState s
  decide (s.stage = 0x11) && s.boot.lvds && !calderaOn s && decide (st = 0 ∨ st = 3 ∨ st = 4)

/-- What a frame with a right counter and tag does: its acknowledgement and its messages. -/
def accept (s : State) (ctr ack : Nat) (payload : Bytes) : State :=
  let kept := s.sheaf.kept.filter fun p => decide (ack < p.1)
  let moved := decide (kept.length < s.sheaf.kept.length)
  setLock (upd (count s 12 1 1) fun h => (messages (payload.length + 1) payload).foldl takePiece { h with
    got := ctr, heard := s.seq.time, kept := kept, resends := if moved then 0 else h.resends
    acked := if moved then s.seq.time else h.acked }) true

/-- SHEAF_FRAME_RECEIVE (R527, R528). A JOIN frame is in the clear with a zero tag; the first one of a join that the partner
starts begins its counter. -/
def receive (s : State) (f : Bytes) (phys : Phys) : State :=
  let n := leNat ((f.drop 2).take 2)
  let ctr := leNat ((f.drop 4).take 8)
  let ack := leNat ((f.drop 12).take 8)
  let body := (f.drop 20).take n
  let tag := f.drop (20 + n)
  let next := decide (ctr = s.sheaf.got + 1)
  if !awake s ∨ f.length ≠ 36 + n ∨ n > 256 then s
  else match (f.getD 0 0).toNat with
    | 1 =>
      if tag ≠ zeros 16 ∨ s.sheaf.key.isSome then s
      else if s.sheaf.join.isSome then (if next ∨ s.sheaf.got = 0 then accept s ctr ack body else s)
      else if mayJoin s then accept (upd s fun h => { h with sent := 0, kept := [], out := [], inbox := [], part := [] }) ctr ack body
      else s
    | 2 =>
      match s.sheaf.key with
      | none => s
      | some k =>
        match (if next then gcmOpen k (nonce (1 - me s) ctr) (f.take 20) body tag else none) with
        | some b => if phys = .compare then compareAlarm s else accept s ctr ack b
        | none => s
    | _ => s

/-- SHEAF_RESEND (R528): from the oldest unacknowledged frame. -/
def resend (s : State) : State :=
  if s.sheaf.kept = [] ∨ s.seq.time < s.sheaf.acked + 4 ∨ !awake s ∨ s.sheaf.resends ≥ 8 then s
  else
    let t := upd s fun h => { h with resends := h.resends + 1, acked := s.seq.time, spoke := s.seq.time, line := h.line ++ h.kept.map (·.2) }
    count (incHw t 0xF000 12 s.sheaf.kept.length) 12 2 s.sheaf.kept.length

/-- SHEAF_IDLE (R528): what waits is sent, or an empty SEALED frame. -/
def idle (s : State) : State :=
  if s.sheaf.key.isNone ∨ s.seq.time < s.sheaf.spoke + 2 ∨ !awake s then s
  else if s.sheaf.out = [] then transmit s [] else flush s

/-! A message that a command acts on leaves the inbox. -/

def take (s : State) (type : Nat) (body : Bytes) : State :=
  upd s fun h => { h with inbox := h.inbox.erase ([BitVec.ofNat 8 type, 0] ++ leBytes 2 body.length ++ body) }

/-! Join (R532 to R536). -/

/-- The slot of the Join that this unit's join answers, recoded. -/
def answerJoin (s : State) (j : JoinRun) (code : Nat) : State :=
  match j.slot with
  | none => s
  | some n => { s with slots := s.slots.map fun x => if x.adm = n ∧ x.numbered ∧ x.long then recode s x code [] else x }

/-- A join that fails (R534): its Join is answered. -/
def failJoin (s : State) (code : Nat) : State :=
  match s.sheaf.join with
  | none => s
  | some j => abandonJoin (answerJoin s j code)

/-- The JOIN_TIMEOUT occasions of R534: lanes not trained within 1 ms, no HELLO within 100 ms, or no cut-over by 1,950 ms. -/
def joinLate (s : State) (j : JoinRun) : Bool :=
  decide (bit s.boot.clock 8 = false ∧ j.t0 + 1000 ≤ s.seq.time) || decide (j.hello.isNone ∧ j.t0 + 100000 ≤ s.seq.time) ||
    decide (j.t0 + 1950000 ≤ s.seq.time)

def joinTimeout (s : State) : State :=
  match s.sheaf.join with
  | some j => if joinLate s j then failJoin s Abt.partnerAbsent else s
  | none => s

/-- A join does not outlast its response. -/
def expire (s : State) : State :=
  match s.sheaf.join with
  | some j => if j.t0 + 1950000 < s.seq.time then failJoin s Abt.partnerAbsent else s
  | none => s

/-- K_pj and K_sl (R531). -/
def joinKey (s : State) : Bytes := kdf ((pairSecretOf s).getD []) 0x44 1 (ascii "SHEAF-JOIN") 0 0 0 256
def linkKey (s : State) (nl nf : Bytes) : Bytes := kdf ((pairSecretOf s).getD []) 0x45 1 (nl ++ nf) 0 0 0 256

/-- Own and partner's serial and nonce, the leader's first: serials, then nonces. -/
def pairText (s : State) (j : JoinRun) : Bytes × Bytes × Bytes × Bytes :=
  match j.hello with
  | some (serial, nonce', _) => if me s = 0 then (serialBytes, serial, j.own, nonce') else (serial, serialBytes, nonce', j.own)
  | none => ([], [], [], [])

/-- The proof of the leader (0x4C) or the follower (0x46) (R532); the firmware version goes most significant byte first (R6). -/
def proof (s : State) (j : JoinRun) (c : Byte) : Bytes :=
  let t := pairText s j
  cmac (joinKey s) (c :: (t.1 ++ t.2.1 ++ t.2.2.1 ++ t.2.2.2 ++ beBytes 4 (runningVersion s)))

/-- The partner's HELLO in a join under way. -/
def helloIn (s : State) (j : JoinRun) (m : JoinHello) : State :=
  if m.partner.toNat ≠ 1 - me s ∨ m.firmware.toNat ≠ runningVersion s ∨ m.revision.toNat ≠ num s 0x1000 5 then failJoin s Abt.valueConflict
  else
    let k := { j with hello := some (fitBytes 16 m.serial, fitBytes 16 m.nonce, m.lastAdm, fitBytes 32 m.chain, m.restarted) }
    sheafQueue (upd s fun h => { h with join := some k }) 0x02 (proof s k (if me s = 0 then 0x4C else 0x46))

/-- The HELLO body as R532 lays it out. -/
def helloBytes (m : JoinHello) : Bytes :=
  [m.partner, 0, 0, 0] ++ fitBytes 16 m.serial ++ leBytes 4 m.firmware.toNat ++ fitBytes 16 m.nonce ++ leBytes 8 m.lastAdm ++
    fitBytes 32 m.chain ++ [if m.restarted then 1 else 0]

/-- SHEAF_HELLO (R532, R533): in a join of this unit's own, or one that it takes part in, whose 0xF000.01 becomes JOINING in an admission
(R193, log 49). -/
def hello (s0 : State) (m : JoinHello) : State :=
  let s := take s0 0x01 (helloBytes m)
  match s.sheaf.join with
  | some j => if j.hello.isNone then helloIn s j m else s
  | none =>
    if mayJoin s ∧ m.partner.toNat = 1 - me s ∧ oct s 0xF000 3 = fitBytes 16 m.serial ∧ s.pers.pair.isSome ∧ !s.entropyDown then
      let got := s.sheaf.got
      let t := upd (pushBack (beginJoin s false s.seq.time none) (.pairState 1)) fun h => { h with got := got }
      match t.sheaf.join with
      | some j => helloIn t j m
      | none => t
    else s

/-- Sessions homed on the follower end (R534). -/
def endFollowers (s : State) : State :=
  let own := decide (me s = 1) && !sheafOn s
  (s.sessions.filter fun p => own || onFollower p.2.origin).foldl (fun t p => endSession t p.1) s

/-- PROOF (R532): a match installs K_sl. -/
def proofIn (s0 : State) (p : Bytes) (phys : Phys) : State :=
  let s := take s0 0x02 p
  match s.sheaf.join with
  | none => s
  | some j =>
    if j.hello.isNone ∨ j.proved then s
    else if phys = .compare then failJoin (compareAlarm s) Abt.compareFault
    else if p ≠ proof s j (if me s = 0 then 0x46 else 0x4C) then failJoin s Abt.authFail
    else
      let t := pairText s j
      let s1 := flush s
      endFollowers (upd s1 fun h => { h with
        key := some (linkKey s t.2.2.1 t.2.2.2), sent := 0, got := 0, kept := [], resends := 0, heard := s.seq.time, spoke := s.seq.time
        join := some { j with proved := true } })

/-! The mirrored state (R536). -/

/-- A node whose epoch entry each unit keeps for itself: ATTEST, PAIR, SINTER and the nodes below them. -/
def ownNode (s : State) (n : Nat) : Bool := [3, 4, 5].any fun x => atOrBelow s x n

def isChannel (i : Nat) : Bool := decide (0x4000 ≤ i ∧ i < 0xC000)

/-- An item on which the follower has the last word (R537): its channel objects and the epochs of their key nodes, and the
counters in its custody. -/
def followers (s : State) (kind n : Nat) : Bool :=
  match kind with
  | 1 => isChannel (n / 256) && decide (chanPair (n % 256) = 1)
  | 2 => decide (num s (0xC000 + n) 10 = 1)
  | 3 => s.pers.dict.any fun p => decide (0x4000 ≤ p.1 / 256 ∧ p.1 / 256 < 0xC000 ∧ p.1 % 256 = 0x42 ∧ p.2.toNat % 0x10000 = n)
  | _ => false

/-- A mirrored item: of the objects of a channel its persistent values alone (R536, R542). -/
def mirrored (s : State) (kind n : Nat) : Bool :=
  match kind with
  | 1 => !localObject (n / 256) (n % 256) && ((Dict.find (n / 256) (n % 256)).2.any fun d => d.pers || !isChannel (n / 256))
  | 3 => !ownNode s n
  | _ => true

def nodeBytes (x : Node) : Bytes :=
  leBytes 2 x.parent ++ leBytes 1 x.level ++ leBytes 1 x.kind ++ leBytes 1 x.alg ++ leBytes 1 x.attrs ++ leBytes 3 x.pEpoch ++ x.label

def nodeFrom (b : Bytes) : Node :=
  let g := fun i => (b.getD i 0).toNat
  ⟨leNat (b.take 2), g 2, g 3, g 4, g 5, b.drop 9, leNat ((b.drop 6).take 3)⟩

/-- A session as the cut-over carries it: the mirrored state of R536 names no session, and both units execute its requests. Its keys do not
leave the unit (R351): the partner derives them, under the same roots. -/
def sessionItem (z : Session) : Bytes :=
  leBytes 2 z.origin ++ [BitVec.ofNat 8 z.role, BitVec.ofNat 8 z.cred, if z.bound then 1 else 0, if z.orphaned then 1 else 0] ++
    leBytes 4 z.epoch ++ leBytes 8 z.time ++ leBytes 8 z.last ++ leBytes 4 z.created ++ fitBytes 16 z.nonce ++ fitBytes 16 z.chal ++
    leBytes 2 z.exported.length ++ z.exported ++ z.parked.flatMap (leBytes 8)

def sessionFrom (b : Bytes) : Session :=
  let g := fun i n => leNat ((b.drop i).take n)
  let e := g 62 2
  ⟨g 0 2, g 2 1, g 3 1, b.getD 4 0 ≠ 0, (b.drop 30).take 16, (b.drop 46).take 16, g 10 8, g 18 8, b.getD 5 0 ≠ 0, g 6 4,
    (chunks 8 (b.drop (64 + e))).map leNat, g 26 4, (b.drop 64).take e⟩

/-- The value of an item: empty where it is absent. The kinds are those of R200, 6 a key node, 7 a journal anchor, 8 the head of
the journal, 9 an applet image, 10 the allocations of a node number, 12 a journal record to append (log 32). -/
def itemValue (s : State) (kind n : Nat) : Bytes :=
  match kind with
  | 1 => (getObj s (n / 256) (n % 256)).bytes (sizeOf' (n / 256) (n % 256))
  | 2 => leBytes 8 (counterValue s n)
  | 3 => leBytes 3 (epochOf s n)
  | 4 => match SMap.look s.pers.jour.recs n with
    | some r => r.bytes ++ [if r.held then 1 else 0, if r.pinned then 1 else 0]
    | none => []
  | 6 => match SMap.look s.pers.nodes n with
    | some x => nodeBytes x
    | none => []
  | 7 => (SMap.look s.pers.jour.anchors n).getD []
  | 9 => match SMap.look s.pers.applets n with
    | some x => [if x.readable then 1 else 0] ++ x.manifest
    | none => []
  | _ => leBytes 4 (SMap.at' s.pers.allocs n 0)

/-- Every item that this unit holds. -/
def allItems (s : State) : List (Nat × Nat) :=
  (s.pers.dict.map fun p => (1, p.1)) ++ (s.dict.map fun p => (1, p.1)) ++ (s.pers.rings.map fun p => (2, p.1)) ++
    (s.pers.epochs.map fun p => (3, p.1)) ++ (s.pers.jour.recs.map fun p => (4, p.1)) ++ (s.pers.nodes.map fun p => (6, p.1)) ++
    (s.pers.applets.map fun p => (9, p.1)) ++ (s.pers.allocs.map fun p => (10, p.1))

def dirtyItems (s : State) : List (Nat × Nat) := s.sheaf.dirty.map fun p => (p.1 / 4294967296, p.1 % 4294967296)

/-- The journal's head, and whether the copy replaces what the follower holds after X_L. -/
def journalHead (s : State) (full : Bool) (xl : Nat) : Bytes :=
  let j := s.pers.jour
  [if full then 1 else 0] ++ leBytes 8 xl ++ leBytes 4 j.head ++ fitBytes 32 j.chain ++ j.order.flatMap fun b => leBytes 2 b

def sendItem (s : State) (kind n stamp : Nat) (v : Bytes) : State :=
  sheafQueue s 0x40 ([BitVec.ofNat 8 kind] ++ leBytes 4 n ++ leBytes 8 stamp ++ leBytes 2 v.length ++ v)

/-- The journal as it goes with any pass: its anchors and its head. -/
def sendJournal (s : State) (full : Bool) (xl : Nat) : State :=
  let a := s.pers.jour.anchors.foldl (fun t p => sendItem t 7 p.1 s.seq.adm p.2) s
  sendItem a 8 0 s.seq.adm (journalHead s full xl)

/-- Nodes whose epoch the items that have come raise (R537). -/
def raisedBy (s : State) : List Nat :=
  s.sheaf.items.filterMap fun x => if x.1 = 3 ∧ mirrored s 3 x.2.1 ∧ epochOf s x.2.1 < leNat x.2.2.2 then some x.2.1 else none

/-- The leader's sessions, as the epochs that C raises leave them, and its lockouts go with the cut-over: kinds 13 and 14. -/
def sendSessions (s : State) : State :=
  let t := (afterBump s (raisedBy s)).sessions.foldl (fun t p => sendItem t 13 p.1 s.seq.adm (sessionItem p.2)) s
  s.lockouts.foldl (fun t p => sendItem t 14 p.1 s.seq.adm (leBytes 8 p.2.1 ++ match p.2.2 with
    | some x => leBytes 8 x
    | none => [])) t

def sendItems (s : State) (xs : List (Nat × Nat)) : State :=
  xs.foldl (fun t p => sendItem t p.1 p.2 (SMap.at' s.sheaf.dirty (p.1 * 4294967296 + p.2) s.seq.adm) (itemValue s p.1 p.2)) s

/-- The chain value after the last record of admission x or earlier, from the anchor of that record's block (R410). -/
def chainAt (s : State) (x : Nat) : Bytes :=
  let j := s.pers.jour
  let early := fun (p : Nat × JRec) => decide (leNat ((p.2.bytes.drop 8).take 8) ≤ x)
  match j.order.reverse.find? fun b => j.recs.any fun p => decide (p.1 / 64 = b) && early p with
  | none => genesis
  | some b =>
    let rs := j.recs.filter fun p => decide (p.1 / 64 = b) && early p
    rs.foldl (fun c p => sha256 (c ++ p.2.bytes.take 56)) ((SMap.look j.anchors b).getD genesis)

/-- Whether the resync is a full copy (R535), as the leader chooses. -/
def fullCopy (s : State) (j : JoinRun) : Bool :=
  match j.hello with
  | none => true
  | some (_, _, xf, chain, restarted) =>
    j.full || restarted || s.sheaf.restarted || decide (xf < num s 0xF000 7) || decide (chainAt s xf ≠ chain) || decide (j.prev = 4)

/-- Records of this unit's own separate sequence, in chain order (R537, R551). -/
def apartRecords (s : State) : List Bytes :=
  let j := s.pers.jour
  j.order.flatMap fun b =>
    (j.recs.filter fun p => decide (p.1 / 64 = b ∧ leNat ((p.2.bytes.drop 8).take 8) ≥ 2 ^ 63)).map fun p => p.2.bytes

def endPass (s : State) (j : JoinRun) (n : Nat) : State :=
  let t := sheafQueue s 0x41 ([BitVec.ofNat 8 (j.pass + 1)] ++ leBytes 4 n)
  upd t fun h => { h with join := some { j with pass := j.pass + 1, sent := n } }

/-- The kinds of item of which each unit takes the larger value: counters and epochs (R537). -/
def larger (kind : Nat) : Bool := decide (kind = 2 ∨ kind = 3)

/-- TRANSFER_PASS (R536, R537): the leader's next pass, or the follower's own items, and the counters and epochs that may be the larger. -/
def transferPass (s : State) : State :=
  match s.sheaf.join with
  | none => s
  | some j =>
    if !j.proved ∨ s.sheaf.key.isNone then s
    else if me s = 0 then
      let full := fullCopy s j
      let xs := (if j.pass = 0 ∧ full then allItems s else dirtyItems s).filter fun p => mirrored s p.1 p.2
      let t := sendItems (if j.pass = 0 then sendJournal s full (num s 0xF000 7) else s) xs
      endPass (upd t fun h => { h with dirty := [] }) j xs.length
    else if j.pass ≠ 0 then s
    else
      let xs := (allItems s).filter fun p => mirrored s p.1 p.2 && (followers s p.1 p.2 || larger p.1)
      let rs := apartRecords s
      let t := (List.range rs.length).foldl (fun t i => sendItem t 12 i s.seq.adm (rs.getD i [])) (sendItems s xs)
      endPass t j (xs.length + rs.length)

/-- SYNC (R536): the item is kept and takes effect in the cut-over, so that a join that fails leaves the state as it was. -/
def sync (s0 : State) (kind n stamp : Nat) (v : Bytes) : State :=
  let s := take s0 0x40 ([BitVec.ofNat 8 kind] ++ leBytes 4 n ++ leBytes 8 stamp ++ leBytes 2 v.length ++ v)
  match s.sheaf.join with
  | some j => if j.proved then upd s fun h => { h with items := (h.items.filter fun x => !decide (x.1 = kind ∧ x.2.1 = n)) ++ [(kind, n, stamp, v)] } else s
  | none => s

/-- SYNC_END (R536). -/
def syncEnd (s0 : State) (pass items : Nat) : State :=
  let s := take s0 0x41 ([BitVec.ofNat 8 pass] ++ leBytes 4 items)
  match s.sheaf.join with
  | some j => if j.proved then upd s fun h => { h with join := some { j with theirs := true, pass := if me s = 1 then max j.pass 1 else j.pass } } else s
  | none => s

/-! The cut-over (R537, R538). -/

/-- A separate record appended to the pair journal in C (R537): it carries C's number and keeps every other byte. -/
def appendApart (s : State) (b : Bytes) : State :=
  let g := fun i => (b.getD i 0).toNat
  let t := { s with seq := { s.seq with admTime := leNat ((b.drop 16).take 8) } }
  let u := journalAt t .last (decide (g 0 = 2)) ⟨g 0, g 1, g 2, g 3, leNat ((b.drop 4).take 2), leNat ((b.drop 6).take 2)⟩ ((b.drop 24).take 32)
  { u with seq := { u.seq with admTime := s.seq.admTime } }

/-- The journal takes the leader's head: records beyond X_L that the leader does not hold are gone. -/
def takeHead (s : State) (v : Bytes) (held : List Nat) : State :=
  let full := bit (v.getD 0 0).toNat 0
  let xl := leNat ((v.drop 1).take 8)
  let keep := fun (p : Nat × JRec) => held.contains p.1 || (!full && decide (leNat ((p.2.bytes.drop 8).take 8) ≤ xl))
  let j := s.pers.jour
  { s with pers := { s.pers with jour := { j with
      recs := j.recs.filter keep, head := leNat ((v.drop 9).take 4), chain := (v.drop 13).take 32
      order := (chunks 2 (v.drop 45)).map leNat } } }

/-- One item applied. A counter and an epoch take the larger value; every other item the value sent. -/
def applyItem (s : State) (x : Nat × Nat × Nat × Bytes) : State :=
  let n := x.2.1
  let v := x.2.2.2
  match x.1 with
  | 1 => match (Dict.find (n / 256) (n % 256)).2 with
    | some d => setObj s (n / 256) (n % 256) (d.decode v)
    | none => s
  | 2 => if leNat v > counterValue s n then writeRing s n (leNat v) else s
  | 3 => { s with pers := { s.pers with epochs := SMap.store s.pers.epochs n (max (epochOf s n) (leNat v)) 0 } }
  | 4 =>
    let j := s.pers.jour
    let r : JRec := ⟨v.take 64, (v.getD 64 0) ≠ 0, (v.getD 65 0) ≠ 0, true⟩
    { s with pers := { s.pers with jour := { j with recs := if v = [] then SMap.del j.recs n else SMap.put j.recs n r } } }
  | 6 => { s with pers := { s.pers with nodes := if v = [] then SMap.del s.pers.nodes n else SMap.put s.pers.nodes n (nodeFrom v) } }
  | 7 => { s with pers := { s.pers with jour := { s.pers.jour with anchors := SMap.put s.pers.jour.anchors n v } } }
  | 9 =>
    let y : AppletImage := ⟨v.drop 1, (v.getD 0 0) ≠ 0⟩
    { s with pers := { s.pers with applets := if v = [] then SMap.del s.pers.applets n else SMap.put s.pers.applets n y } }
  | 10 => { s with pers := { s.pers with allocs := SMap.store s.pers.allocs n (leNat v) 0 } }
  | 13 => { s with sessions := SMap.put s.sessions n (sessionFrom v) }
  | 14 => { s with lockouts := SMap.put s.lockouts n (leNat (v.take 8), if v.length > 8 then some (leNat (v.drop 8)) else none) }
  | _ => s

/-- What a full copy replaces: every mirrored object and node that is not the follower's own. -/
def clearMirrored (s : State) : State :=
  let keep := fun (p : Nat × Val) => !mirrored s 1 p.1 || followers s 1 p.1
  { s with dict := s.dict.filter keep, pers := { s.pers with dict := s.pers.dict.filter keep, nodes := [], applets := [], allocs := [] } }

/-- The items of the transfer applied in C (R537). -/
def applyItems (s : State) : State :=
  let xs := s.sheaf.items
  if me s = 0 then
    let t := (xs.filter fun x => mirrored s x.1 x.2.1 && (followers s x.1 x.2.1 || larger x.1)).foldl applyItem s
    ((xs.filter fun x => decide (x.1 = 12)).map fun x => x.2.2.2).foldl appendApart t
  else
    let mine := apartRecords s
    let hd := xs.find? fun x => decide (x.1 = 8)
    let s1 := if (hd.map fun x => bit (x.2.2.2.getD 0 0).toNat 0).getD false then clearMirrored s else s
    let s2 := (xs.filter fun x => mirrored s x.1 x.2.1 && !(decide (x.1 = 1) && followers s x.1 x.2.1)).foldl applyItem
      { s1 with sessions := [], lockouts := [] }
    let s3 := match hd with
      | some x => takeHead s2 x.2.2.2 ((xs.filter fun y => decide (y.1 = 4)).map fun y => y.2.1)
      | none => s2
    mine.foldl appendApart s3

/-- Counters' Unmirrored since, set to x (R538, R550). -/
def setUnmirrored (s : State) (x : Nat) : State :=
  let ks := if x = 0 then s.dict.filterMap fun p => if 0xC000 ≤ p.1 / 256 ∧ p.1 / 256 < 0xC800 ∧ p.1 % 256 = 8 then some (p.1 / 256) else none
    else (List.range 2048).map (0xC000 + ·)
  let ps := if x = 0 then s.pers.dict.filterMap fun p => if 0xC000 ≤ p.1 / 256 ∧ p.1 / 256 < 0xC800 ∧ p.1 % 256 = 8 then some (p.1 / 256) else none
    else []
  (ks ++ ps).foldl (fun t i => setNum t i 8 x) s

/-- What the transfer brings, with the consequences of the epochs that it raises, and every sensor's history emptied where it sets or clears
VIGIL (R483, R537). -/
def takeItems (s : State) : State :=
  let t := applyItems (afterBump s (raisedBy s))
  if vigilOn t = vigilOn s then t else emptyHistories t

/-- The record cells of delivered records freed (R209, R542). -/
def freeDelivered (s : State) : State :=
  let held := s.records.filter fun p => (SMap.look s.sheaf.delivery p.2.field).isSome
  freeCells { s with records := s.records.filter fun p => (SMap.look s.sheaf.delivery p.2.field).isNone } held.length

/-- C on either unit (R538): JOINED, SHEAF, and the pair's numbers. -/
def cutOverEffect (s0 : State) (j : JoinRun) : State :=
  let s := freeDelivered s0
  let s1 := setUnmirrored (setNum (setNum (dropPairState (takeItems s)) 0xF000 1 2) 0x2000 2 1) 0
  let s2 := setNum (setNum (setNum (incObj s1 0xF000 10) 0xF000 7 s.seq.adm) 0xF000 8 0) 0xF000 9 0
  upd (answerJoin s2 j 0) fun h => { h with
    join := none, items := [], dirty := [], apart := false, restarted := false, digests := [], theirs := [], owed := [], awaits := [], delivery := [] }

def cutOverIn (s : State) : AdmIn := { internalIn 23 [s.seq.adm] false with alone := 3 }

/-- C admitted on either unit, in state u; the join fails with ABT_STORE_FAULT where its commit has (R534). -/
def admitCutOver (u : State) (i : AdmIn) (j : JoinRun) : State :=
  let t := admitOwn u i fun v => (cutOverEffect v j, 0)
  if t.seq.adm ≠ u.seq.adm ∧ t.sheaf.join.isSome then failJoin t Abt.storeFault else t

/-- CUT_OVER (R536, R538) on the leader: fewer than 4,096 items are left, and the follower's own have come. -/
def cutOver (s : State) : State :=
  match s.sheaf.join with
  | none => s
  | some j =>
    let xs := (dirtyItems s).filter fun p => mirrored s p.1 p.2
    if me s ≠ 0 ∨ !j.proved ∨ j.pass = 0 ∨ !j.theirs ∨ xs.length ≥ 4096 then s
    else
      let t := sheafQueue (sendSessions (sendItems s xs)) 0x41 ([BitVec.ofNat 8 (j.pass + 1)] ++ leBytes 4 xs.length)
      let u := admitCutOver (flush (sendJournal t (fullCopy s j) (num s 0xF000 7))) (cutOverIn s) j
      if u.seq.adm = s.seq.adm then { s with hw := u.hw, audit := u.audit } else u

/-- AUTO_JOIN (R91, R533). -/
def autoJoin (s : State) : State :=
  admitHead s (· = .autoJoin) (fun _ => internalIn 22 [] false) fun _ u =>
    if u.stage = 0x11 ∧ !calderaOn u ∧ !joined u ∧ u.sheaf.join.isNone ∧ !u.entropyDown then (joining (beginJoin u false u.seq.admTime none), 0) else (u, 0)

/-! Partner loss (R528, R546, R550, R551). -/

/-- What this unit has sent to the leader, or left to the partner to order, is answered that the partner is absent (R138, R551, log 116,
log 127). -/
def answerAway (s : State) : State :=
  s.host.away.foldl (fun t m => answerNow t (parseRq (pairOrigin s 1) m) Abt.partnerAbsent)
    (answerRelayed { s with host := { s.host with away := [] } })

/-- Partner loss declared: the link goes down, and a joined pair's partition comes to the head of the queue. -/
def lose (s : State) : State :=
  if s.sheaf.join.isSome then failJoin s Abt.partnerAbsent
  else
    let t := upd s fun h => { h with key := none, out := [], kept := [], resends := 0, inbox := [], part := [] }
    if joined s then (if t.internal.contains .partition then t else pushFront t .partition) else answerAway t

/-- SHEAF_LINK_LOSS (R528), on its occasion. -/
def linkLost (s : State) (c : LinkLossCause) : State :=
  if s.stage = 0 ∨ (s.sheaf.key.isNone ∧ s.sheaf.join.isNone) then s
  else match c with
    | .silence => if s.sheaf.key.isSome ∧ s.sheaf.heard + 20 ≤ s.seq.time then lose s else s
    | .resends => if s.sheaf.resends ≥ 8 then lose s else s
    | .lock => lose (setLock s false)
    | .vddLvds => if s.boot.lvds then s else lose (setLock s false)

/-- SHEAF_DEADLINE (R546). -/
def deadline (s : State) (n : Nat) : State :=
  if s.sheaf.awaits.any fun w => decide (w.adm = n ∧ w.due ≤ s.seq.time) then lose s else s

/-- Admissions whose digests the partner has not matched. -/
def unconfirmed (s : State) : List Nat := s.sheaf.digests.map fun p => p.1

/-- The payload of P (R550): X_L, the last admission before P, and the bitmap of what is not confirmed. -/
def partitionPayload (s : State) : Bytes :=
  let xl := num s 0xF000 7
  let n := s.seq.adm - xl
  let un := unconfirmed s
  leBytes 8 xl ++ leBytes 8 s.seq.adm ++ (List.range ((n + 7) / 8)).map fun i =>
    BitVec.ofNat 8 (((List.range 8).map fun b => if un.contains (xl + 1 + 8 * i + b) then 2 ^ b else 0).sum)

/-- Unreleased slots of the marked admissions answer that the partner is absent (R550). -/
def absentSlots (s : State) (un : List Nat) : State :=
  let t := (s.slots.filter fun x => un.contains x.adm && awaitsCode s x).foldl unconfirmedRecord s
  { t with slots := s.slots.map fun x => if x.numbered ∧ un.contains x.adm then absentSlot s (awaitsCode s x) x else x }

/-- The partition admission on either unit (R550). Requests that the follower has sent and the leader has not admitted are answered
that the partner is absent, as R551 answers those that come later (log 116). -/
def partitionEffect (s : State) : State :=
  let s1 := setNum (setNum (incObj s 0xF000 11) 0xF000 1 3) 0xF000 8 s.seq.adm
  let s2 := absentSlots s1 (unconfirmed s)
  let s3 := upd s2 fun h => { h with awaits := [], digests := [], theirs := [], owed := [], grant := none, asked := [] }
  if leads s then noteRecord (setUnmirrored (answerRelayed s3) s.seq.adm) 0x72
  else upd (answerAway s3) fun h => { h with apart := true }

/-- PARTITION_ADMISSION (R550, R551): the follower numbers it in its own sequence, which has bit 63 set. -/
def partition (s : State) : State :=
  match popInternal s (· = .partition) with
  | none => s
  | some (_, t) =>
    let own := if leads s ∨ 2 ^ 63 ≤ s.seq.adm then t
      else { t with seq := { t.seq with adm := 2 ^ 63 + (s.pers.reserved + 1) * 1048576 - 1 } }
    let i := { internalIn 20 [] true with payload := partitionPayload s }
    let u := admitOwn own i fun v => (partitionEffect v, 0)
    if u.seq.adm = own.seq.adm then { s with hw := u.hw, audit := u.audit } else u

/-! Suspension (R548). -/

def suspensionIn (n : Nat) : AdmIn := { internalIn 21 [n] true with alone := 3 }

def suspensionEffect (s : State) (n : Nat) : State := setNum (setNum (noteRecord s 0x71) 0xF000 1 4) 0xF000 9 n

/-- SUSPENSION_ADMISSION: the leader numbers its own; the follower executes it under the number of the leader's ADMIT. -/
def suspension (s : State) : State :=
  match popInternal s fun e => match e with | .suspension _ => true | _ => false with
  | some (.suspension n, t) =>
    let go := fun (u : State) => admitOwn u (suspensionIn n) fun v => (suspensionEffect v n, 0)
    if leads s then
      let u := go t
      if u.seq.adm = s.seq.adm then { s with hw := u.hw, audit := u.audit } else u
    else match s.sheaf.grant with
      | some (adm, time, payload) =>
        if payload = (suspensionIn n).payload then followAt (upd t fun h => { h with grant := none }) adm time go else s
      | none => s
  | _ => s

/-! The pair's admissions (R539 to R546). -/

/-- The END segment of a write as the log carries it, with the whole value (R203): a transfer is put in place that its last
segment completes, and the trailer is signed anew, since the leader has verified the message that it replaces. -/
def wholeWrite (s : State) (r : Rq) : State × Rq :=
  if r.svc ≠ 6 ∨ isDomain r.idx r.sub then (s, r)
  else
    let g := parseSeg r.body
    let k := g.data.length - 1024
    let num' := leNat (r.body.take 2)
    let slot := r.trailer.map (·.slot)
    let x : Transfer := ⟨r.origin, slot, true, r.idx, r.sub, g.data.length, k, num', [], g.data.take k, s.seq.time, false⟩
    let q := { r with body := r.body.take 4 ++ leBytes 2 (g.data.length - k) ++ g.data.drop k }
    let key := trailerKey s slot
    let q1 := { q with trailer := q.trailer.map fun t => { t with tag := if t.tag = [] then [] else (cmac key (0 :: q.signed)).take 8 } }
    ({ s with transfers := (s.transfers.filter fun t => t.origin ≠ r.origin) ++ [x] }, q1)

/-- This unit records an admission and waits for its partner's verdict. -/
def recordOnly (s : State) (i : AdmIn) (lat : Nat) : State :=
  match admitOne s { i with alone := 2 } fun t => ⟨upd t fun h => { h with awaits := h.awaits ++ [⟨t.seq.adm, 0x22, t.seq.admTime + lat + 6⟩] }, 0, none, false⟩ with
  | none => noteHold s i
  | some d => d.s

/-- The follower executes a BDP request that the leader admitted. -/
def followRequest (s : State) (m : AdmitMsg) : State :=
  let p := wholeWrite (comeBack s m.origin m.payload) (parseRq m.origin m.payload)
  followAt p.1 m.adm m.time fun t =>
    let d := if partnerRuns t p.2 then admitOne t (requestIn t p.2) fun u => ⟨awaitVerdict u p.2, 0, none, false⟩
      else admitOne t (requestIn t p.2) fun u => (performDone u p.2).getD ⟨u, 0, none, false⟩
    match d with
    | none => t
    | some d => d.s

/-- A system call executed from its logged payload (R446, R526). -/
def followCall (s : State) (m : AdmitMsg) : State :=
  let c := (m.origin - 0x100) % 32
  let n := (m.payload.getD 0 0).toNat
  let v := m.payload.drop 28
  let a := (List.range 6).map fun i => leNat ((m.payload.drop (4 + 4 * i)).take 4)
  followAt s m.adm m.time fun t =>
    match admitOne t (Sys.callIn t c n a v) fun u => Sys.perform u c n a v .ok with
    | none => t
    | some d => d.s

/-- An ADMIT body (R529). -/
def admitBytes (m : AdmitMsg) : Bytes :=
  [m.kind, m.flags] ++ leBytes 2 m.origin ++ leBytes 2 m.channel ++ leBytes 8 m.adm ++ leBytes 8 m.time ++ leBytes 2 m.payload.length ++ [0, 0] ++
    m.payload

/-- Suspensions that an ADMIT may name: those of unmatched digests and those queued. -/
def suspensions (s : State) : List Nat :=
  (s.internal.filterMap fun e => match e with | .suspension n => some n | _ => none) ++ unconfirmed s

/-- ADMIT on the follower (R539, R540): strictly in ascending number, and not while one of its own internal admissions has its
number and has not been performed. C waits for the items that were sent before it. -/
def admitIn (s0 : State) (m : AdmitMsg) : State :=
  let s := take s0 0x10 (admitBytes m)
  let grant := upd s fun h => { h with grant := some (m.adm, m.time, m.payload) }
  if me s ≠ 1 ∨ s.sheaf.key.isNone ∨ s.sheaf.grant.isSome ∨ !sequencerUp s then s0
  else match s.sheaf.join with
    | some j =>
      let left := s.sheaf.inbox.any fun x => decide (64 ≤ (x.getD 0 0).toNat ∧ (x.getD 0 0).toNat ≤ 65)
      if m.kind = 4 ∧ j.proved ∧ j.theirs ∧ !left then
        followAt s m.adm m.time fun t => admitCutOver t { cutOverIn t with payload := m.payload } j
      else s0
    | none =>
      if !joined s ∨ m.adm ≠ s.seq.adm + 1 then s0
      else match m.kind.toNat with
        | 1 => followRequest s m
        | 2 => if onFollower m.origin then grant else followAt s m.adm m.time fun t => recordOnly t ⟨2, m.origin, m.channel, m.payload, false, false, 2⟩ Lat.frame
        | 3 => followCall s m
        | _ =>
          if m.origin = 2 then grant
          else match (suspensions s).find? fun n => decide ((suspensionIn n).payload = m.payload) with
            | some n => if s.internal.contains (.suspension n) then grant else pushFront grant (.suspension n)
            | none => followAt s m.adm m.time fun t => recordOnly t ⟨4, m.origin, m.channel, m.payload, false, false, 2⟩ Lat.internal

/-- REQUEST on the leader (R539): an input of its sequencer. One that comes when the pair is no longer JOINED is refused to the follower
as R548 and R551 refuse those that come later (log 116). -/
def requestIn' (s0 : State) (origin kind : Nat) (payload : Bytes) : State :=
  let s := take s0 0x11 (leBytes 2 origin ++ [BitVec.ofNat 8 kind, 0] ++ payload)
  if me s = 0 ∧ !joined s ∧ s.sheaf.key.isSome ∧ serving s ∧ kind = 1 then
    sheafQueue s 0x12 (leBytes 2 origin ++ leBytes 4 (if num s 0xF000 1 = 4 then Abt.pairSuspended else Abt.partnerAbsent) ++ (parseRq origin payload).head)
  else if me s ≠ 0 ∨ !joined s ∨ !sheafOn s ∨ s.sheaf.key.isNone ∨ !sequencerUp s ∨ !turn s0 1 then s0
  else match kind with
    | 1 => serveRequest s (parseRq origin payload)
    | 2 => recordOnly s ⟨2, origin, (parseHdr payload).field, payload, false, false, 2⟩ Lat.frame
    | 4 => recordOnly s ⟨4, origin, 0xFFFF, payload, false, false, 2⟩ Lat.internal
    | _ => s

/-- REFUSAL on the follower: it answers the requester. -/
def refusal (s0 : State) (origin code : Nat) (header : Bytes) : State :=
  let s := take s0 0x12 (leBytes 2 origin ++ leBytes 4 code ++ header)
  if s.sheaf.key.isNone ∨ !homeHere s origin then s
  else
    let t := comeBack s origin header
    let r := parseRq origin header
    if code = Abt.busy then answerBusy t r else answerNow t r code

/-- DIGEST (R547). Where the partner executes the admission, its digest is compared once its VERDICT has come. -/
def digest (s0 : State) (n : Nat) (dg : Bytes) : State :=
  let s := take s0 0x20 (leBytes 8 n ++ dg)
  if s.sheaf.key.isNone ∨ !joined s then s
  else match SMap.look s.sheaf.digests n with
    | some own =>
      if own.2.1 ∨ (SMap.look s.sheaf.owed n).isNone then compareDigest s n own (fitBytes 16 dg)
      else upd s fun h => { h with theirs := SMap.put h.theirs n (fitBytes 16 dg) }
    | none => if n ≤ num s 0xF000 7 then s else upd s fun h => { h with theirs := SMap.put h.theirs n (fitBytes 16 dg) }

/-- COMMIT_ACK (R545). -/
def ack (s0 : State) (n code : Nat) : State :=
  let s := take s0 0x21 (leBytes 8 n ++ leBytes 4 code)
  upd s fun h => { h with awaits := h.awaits.filter fun w => !decide (w.adm = n ∧ w.kind = 0x21) }

/-! VERDICT (R541, R542). -/

/-- One delivered item of a channel: field, event bits, and a record or the sequence of a sent frame. -/
structure Item where
  field : Nat
  bits : Nat
  rx : Option RxRec
  seq : Option Nat

def items : Nat → Bytes → List Item
  | 0, _ => []
  | f + 1, b =>
    if b.length < 8 then []
    else
      let field := leNat (b.take 2)
      let bits := leNat ((b.drop 2).take 4)
      let d := b.drop 8
      match (b.getD 6 0).toNat with
      | 1 =>
        let n := leNat (d.take 2)
        let g := fun i k => leNat ((d.drop i).take k)
        ⟨field, bits, some ⟨g 2 4, g 6 4, g 10 8, g 18 8, (d.drop 26).take n⟩, none⟩ :: items f (d.drop (26 + n))
      | 2 => ⟨field, bits, none, some (leNat (d.take 4))⟩ :: items f (d.drop 4)
      | _ => ⟨field, bits, none, none⟩ :: items f d

/-- A delivered record takes a record cell and joins its owner's queue (R209, R542). -/
def keepDelivered (s : State) (field : Nat) (r : RxRec) : State :=
  let t := linkRecord { s with records := SMap.put s.records (lowestFree s.records) ⟨field, false, none, r.adm⟩ } field r.adm
  upd (setNum t 0x3100 2 (num t 0x3100 2 - 1)) fun h => { h with delivery := SMap.upd h.delivery field [] fun q => q ++ [r] }

/-- The owner's unit takes a delivered item: its record, or the event bits of R214 that stand, with the event for the owner (R542). -/
def deliverItem (s : State) (x : Item) : State :=
  let o := num s (0x4000 + x.field % 0x8000) (5 + 0x40 * (x.field / 0x8000))
  if !homeHere s o then s
  else
    let s1 := match x.rx with
      | some r => keepDelivered s x.field r
      | none => s
    if x.rx.isNone ∧ x.bits < 4 then s1
    else if 0x100 ≤ o ∧ o < 0x120 then raiseEvents s1 (o - 0x100) (if x.rx.isSome then 1 else 2)
    else if localOrigin o = 1 then setCause s1 0x80
    else s1

/-- The slot of an admission under its verdict. -/
def judged (s : State) (m : VerdictMsg) (seq : Option Nat) (x : Slot) : Slot :=
  let code := m.code.toNat
  let act := fun (a : Act) => match a with
    | .attestReport o [] => if code = 0 then some (Act.attestReport o m.data) else none
    | .exportResult k [] => if code = 0 then some (.exportResult k m.data) else none
    | .setObj k v => if code = 0 then some (.setObj k v) else none
    | .cellRet c rs bs =>
      if code ≠ 0 then some (.cellRet c [(10, code)] [])
      else some (.cellRet c (rs ++ (match seq with | some q => [(11, q)] | none => [])) bs)
    | b => some b
  { recode s x code [] with acts := x.acts.filterMap act }

/-- A VERDICT body (R529). -/
def verdictBytes (m : VerdictMsg) : Bytes :=
  leBytes 8 m.adm ++ leBytes 4 m.code.toNat ++ [BitVec.ofNat 8 m.digests.length, 0, 0, 0] ++
    (m.digests.flatMap fun d => [d.1] ++ leBytes 4 d.2.1 ++ d.2.2) ++ leBytes 2 m.data.length ++ m.data

/-- An effect in its place in the order of kinds and ids, for the one with the same kind and id where there is one (R200, R541). -/
def placeEntry (e : Bytes) : List Bytes → List Bytes
  | [] => [e]
  | x :: r =>
    if x.take 5 = e.take 5 then e :: r
    else if beNat (e.take 5) < beNat (x.take 5) then e :: x :: r else x :: placeEntry e r

/-- The log's record of admission n with the status and the digest that the verdict settles (R200, R203). -/
def logVerdict (s : State) (n code : Nat) (dg : Bytes) : State :=
  let fix := fun (b : Bytes) =>
    b.take 3 ++ [b.getD 3 0 ||| (if isFaultCode code then 4 else 0)] ++ (b.drop 4).take 20 ++ leBytes 4 code ++ dg ++ b.drop 44
  { s with audit := { s.audit with recs := s.audit.recs.map fun p => if p.adm = n then { p with bytes := fix p.bytes } else p } }

/-- The digest of an admission that the partner has executed, with the digests that its VERDICT substitutes: into the log, and to the partner
(R541, R547). -/
def conclude (s : State) (n code : Nat) (subst : List (Byte × Nat × Bytes)) : State :=
  match SMap.look s.sheaf.owed n with
  | none => s
  | some es =>
    let entries := subst.foldl (fun l d => placeEntry (effectEntry d.1.toNat d.2.1 d.2.2) l) (if code = 0 then es.1 else es.2)
    let resp := (s.slots.find? fun x => decide (x.adm = n) && x.numbered).bind fun x => x.resp
    let dg := digestOf n code entries resp
    let own := (dg, false, code)
    let t := upd (logVerdict (sheafQueue s 0x20 (leBytes 8 n ++ dg)) n code dg) fun h => { h with
      owed := SMap.del h.owed n, digests := if (SMap.look h.digests n).isSome then SMap.put h.digests n own else h.digests }
    match SMap.look s.sheaf.theirs n with
    | some x => compareDigest t n own x
    | none => t

/-- VERDICT: the slot of the admission and what it delivers here. -/
def verdict (s0 : State) (m : VerdictMsg) : State :=
  let s := take s0 0x22 (verdictBytes m)
  if s.seq.failing then s0
  else if !s.sheaf.awaits.any fun w => decide (w.adm = m.adm ∧ w.kind = 0x22) then conclude s m.adm m.code.toNat m.digests
  else
    let xs := s.slots.filter fun x => decide (x.adm = m.adm) && x.numbered
    let plain := !(xs.any fun x => x.acts.any fun a => match a with
      | .attestReport _ [] => true
      | .exportResult _ [] => true
      | _ => false)
    let its := if plain then items (m.data.length + 1) m.data else []
    let seq := (its.filterMap fun x => x.seq).head?
    let s1 := if m.code = 0 then s else xs.foldl unconfirmedRecord s
    let s2 := { s1 with slots := s1.slots.map fun x => if x.adm = m.adm ∧ x.numbered then judged s1 m seq x else x }
    let s3 := upd s2 fun h => { h with awaits := h.awaits.filter fun w => !decide (w.adm = m.adm ∧ w.kind = 0x22) }
    conclude (markDirty s (its.foldl deliverItem s3)) m.adm m.code.toNat m.digests

/-! Relayed reads (R544). -/

/-- A read of a cell of the partner's, ordered here under its granted role (R445, R544). -/
def cellRead (s : State) (origin c : Nat) (r : Rq) : State :=
  let o := Sys.read s c [r.idx, r.sub, 0, 0xFFFFFFFF]
  let body := o.mem.flatMap fun p => leBytes 2 p.2.length ++ p.2
  pushSlot (count o.e.s 0 2 1)
    ⟨0, s.seq.adm, false, origin, s.seq.time + o.e.lat, some (r.response o.e.code body), none, o.e.code, false, .none, none, [], []⟩

/-- READ_RELAY: the read is ordered here on arrival. -/
def readRelay (s0 : State) (origin : Nat) (b : Bytes) : State :=
  let s := take s0 0x30 (leBytes 2 origin ++ b)
  let r := parseRq origin b
  if !(joined s || decide (num s 0xF000 1 = 4)) ∨ s.sheaf.key.isNone ∨ !serving s ∨ homeHere s origin ∨ r.idx = 0x2310 then s
  else match originCell origin with
    | some c => cellRead s origin c r
    | none => if readWaits s r then s0 else orderRequest s r

/-- READ_RESULT: the response is released at the home partner's ordering cycle and 12 us, or when it comes where that has passed
(log 127). -/
def readResult (s0 : State) (origin : Nat) (b : Bytes) : State :=
  let s := take s0 0x31 (leBytes 2 origin ++ b)
  if !homeHere s origin ∨ s.sheaf.key.isNone then s
  else match s.slots.find? fun x => decide (x.origin = origin) && relayed x with
    | some y => { s with slots := s.slots.map fun x => if x.id = y.id then readBack x b else x }
    | none => s

end Shf

end Sys2Proof.Machine
end

