-- ==== Sys2Proof/Machine/BootOps.lean ====
section
/-! DEFINITION. Supplies and resets (R37 to R54, R75 to R80), the start-up stages (R81 to R93, R497), the wake from HIBERNATE
(R523) and the blowing of the retire fuse (R359). -/

namespace Sys2Proof.Machine

namespace Bt

/-! The core-die reset (R75, R76). -/

/-- The store where power fails with commits in progress (R23, R41): where the hold-up of R41 is not met the last n of them do
not complete, and their admissions are absent: their ring entries lack the mark (R394). Which complete is the board's, hence free; the
number block of R87 stays reserved, and the greatest commit time is that of the commits that stand (R87). -/
def heldUp (s : State) : Pers :=
  let open' := s.seq.commits.filter fun c => decide (s.seq.time < c.1 + 8)
  let n := (draw s 8).1 % (open'.length + 1)
  match n with
  | 0 => s.pers
  | m + 1 => match open'[m]? with
    | some c =>
      let gone := s.pers.cring.entries.filter fun e => !c.2.cring.entries.contains e
      { c.2 with reserved := s.pers.reserved, laps := s.pers.laps
                 cring := ⟨(gone.map fun e => { e with marked := false }) ++ c.2.cring.entries, s.pers.cring.pos⟩ }
    | none => s.pers

/-- A power failure or a tamper response lets no commit begin (R40, R486). -/
def commitsHeld (s : State) : Bool := s.seq.failing || s.tem.resp.isSome

/-- The core die reset with a cause, running from CLEAR, or held where stage is 0: the store, but for what an Install under way has
overwritten (R439) and the records of operations whose effects had not come about (R23, R339), the fuses, the Sinter domain, the field die, the supplies and the bring-up number stay (R76). A reset during a power failure keeps what the hold-up let complete
(R41). A Sinter schedule that begins now takes the VIGIL set where VIGIL was set (R494). -/
def coreReset (s0 : State) (cause stage : Nat) : State :=
  let s := if s0.otp.retired then s0 else s0.slots.foldl dropStaged (spoilInstalls s0)
  let b : Boot := { s.boot with cause := cause, since := 0, deferred := none, deferredField := none, toggle := false, woken := none,
                                verified := false, recovered := false, waking := false, admitted := false, clock := 0 }
  let sn : Sinter := if stage = 0 ∧ s.stage ≠ 0 then { s.sinter with vigil := vigilOn s, hits := [] } else s.sinter
  { State.start s.pending s.otp (if s.seq.failing then heldUp s else s.pers) sn b s.field s.bar.b s.bar.told s.seq.nextId
      (if s.seq.failing then s.seq.draws + 1 else s.seq.draws) with stage := stage }

/-- A reset that runs at once (R75): start-up begins where every host rail is in range, else R37 applies and the core die waits
for CORE_RESET_RELEASE. -/
def resetRun (s : State) (cause : Nat) : State :=
  if hostRails s then coreReset s cause 1
  else
    let t := coreReset s cause 0
    { t with boot := { t.boot with held := true } }

def updBoot (s : State) (f : Boot → Boot) : State := { s with boot := f s.boot }

/-- What the Sinter domain holds counts as lost at a power-up where its CRC does not agree, its oscillator does not run, or a loss was
flagged; its log, its key and the SEAL latch are then cleared, and sensor 0x61 fires in the start-up admission, whichever restarts come
before (R496). -/
def sinterPowerUp (x : Sinter) : Sinter :=
  if x.lost ∨ !x.crcOk ∨ !x.osc then { x with log := [], key := none, sealLatch := false, lost := true, crcOk := true } else x

/-- CORE_RESET_RELEASE (R37): the rails have been in range for 2 ms. While the core die runs, only VDD_LVDS can have been out
(R39). -/
def release (s : State) : State :=
  if s.stage ≠ 0 then updBoot s fun b => { b with lvds := true }
  else
    let t := updBoot s fun b => { b with rails := true, vddah := true, lvds := true, held := false, since := 0 }
    let x := if s.boot.cause = 1 then sinterPowerUp s.sinter else s.sinter
    let u := { t with sinter := { x with osc := s.sinter.osc || s.sinter.lost } }
    if t.boot.pinLow then u else { u with stage := 1 }

def isHostRail : Rail → Bool
  | .vcore | .vddah | .vddps | .vddioh => true
  | _ => false

/-- POWER_FAIL (R39, R40, R476): nothing further is admitted, and the toggle stops. VDD_LVDS takes down only the Sheaf link of a
core die that runs; it is a host rail, so one held in reset waits for it as for the others (R37). -/
def powerFail (s : State) (r : Rail) : State :=
  if r = .vddlvds then
    updBoot { s with tem := { s.tem with held := [] } } fun b => { b with lvds := false, held := b.held || decide (s.stage = 0) }
  else if !isHostRail r then s
  else
    let t := updBoot (if s.stage = 0 then s else reseedPattern s) fun b => { b with
      rails := false, vddah := b.vddah && decide (r ≠ .vddah), toggle := false
      held := b.held || decide (s.stage = 0), cause := if s.stage = 0 then 1 else b.cause }
    let sn := if r = .vddah ∧ s.boot.vddah ∧ !scheduleOn s then { t.sinter with vigil := vigilOn s, hits := [] } else t.sinter
    { t with seq := { t.seq with failing := decide (s.stage ≠ 0) }, tem := { t.tem with held := [] }, sinter := sn }

/-- POWER_FAIL_RESET (R40): the commits in progress have completed. -/
def powerFailReset (s : State) : State :=
  if s.seq.failing then updBoot (coreReset s 1 0) fun b => { b with held := true } else s

/-- Whether a low pulse acts (R54). -/
def acts : PulseWidth → Bool
  | .short => false
  | .between b => b
  | .long => true

def resetN (s : State) (w : PulseWidth) : State :=
  if acts w then updBoot (coreReset s 2 0) fun b => { b with pinLow := true } else s

/-- RESET_N rises (R54): start-up begins at once where the rails are in range; otherwise R37 applies. -/
def resetNRise (s : State) : State :=
  if !s.boot.pinLow then s
  else
    let t := updBoot s fun b => { b with pinLow := false }
    if s.stage ≠ 0 ∨ t.boot.held then t
    else if hostRails t then { t with stage := 1 }
    else updBoot t fun b => { b with held := true }

/-- A reset of a core die that runs; in a power failure the reset of R40 is the one that comes. -/
def resetNow (s : State) (cause : Nat) : State := if s.stage = 0 ∨ s.seq.failing then s else resetRun s cause

/-- LOCKSTEP_MISMATCH (R422): the fire of sensor 0x5D reaches the Sinter domain, and the reset has its own cause. -/
def lockstep (s : State) : State :=
  if s.stage = 0 then s else resetNow (sensorEvent s 0x5D s.seq.time 0 0) 4

/-- STAGE_OVERRUN (R81). -/
def overrun (s : State) : State := if 1 ≤ s.stage ∧ s.stage ≤ 8 then resetNow s 5 else s

/-- DEFERRED_CORE_RESET (R80): 1 ms after the release. -/
def deferredCore (s : State) : State :=
  match s.boot.deferred with
  | some (t, cause) => if t ≤ s.seq.time then resetNow s cause else s
  | none => s

/-! The field-die reset (R75, R77). -/

def fieldReset (s : State) (cause : Nat) (run : Bool) : State := { s with field := Fld.reset s.field cause run }

/-- DEFERRED_FIELD_RESET (R80): 1 ms after the release of a write of 0x2100.0D. No cell of R164 carries it: the model resets the field die
directly (DESIGN CHOICE, log 124). -/
def deferredField (s : State) : State :=
  match s.boot.deferredField with
  | some t =>
    if t ≤ s.seq.time then
      let u := updBoot s fun b => { b with deferredField := none }
      if s.field.run then fieldReset u 4 true else u
    else s
  | none => s

/-- FIELD_SUPPLY_FAIL (R39). -/
def fieldSupply (s : State) (r : Rail) : State :=
  match r with
  | .vfcore | .vfio | .vddaf =>
    let t := fieldReset s 1 false
    { t with field := { t.field with rails := false } }
  | .vguard =>
    if s.field.run then whenField s fun f => { Fld.stopWave (Fld.cutOutputs f) with vguardOk := false, uv := true }
    else { s with field := { s.field with vguardOk := false, uv := true } }
  | _ => s

/-- FIELD_RESET_RELEASE (R38, R93). -/
def fieldRelease (s : State) : State :=
  if s.field.run ∨ s.field.pinLow then { s with field := { s.field with rails := true } }
  else { s with field := { Fld.reset s.field s.field.cause true with rails := true } }

def frstN (s : State) (w : PulseWidth) : State :=
  if acts w then
    let t := fieldReset s 2 false
    { t with field := { t.field with pinLow := true } }
  else s

def frstNRise (s : State) : State :=
  if !s.field.pinLow then s
  else
    let f := { s.field with pinLow := false }
    { s with field := if f.rails then Fld.reset f f.cause true else f }

def fieldClockLoss (s : State) : State := if s.field.run then fieldReset s 3 true else s

/-! Stages (R81). -/

/-- The end of a stage: the next one, or ENTROPY_HALT where an entropy health test has failed (R84). -/
def next (s : State) (stage : Nat) : State := { s with stage := if s.entropyDown then 0xE2 else stage }

/-- CLEAR (R79, R81, R86, R374, R380): the cipher PLL locks, the fuses decide, and the Fumaroles start; the reset count is read
for the tillers. -/
def clear (s : State) : State :=
  if s.stage ≠ 1 ∨ s.seq.failing then s
  else
    let t := clockBit (clockBit s 1 true) 6 s.sinter.osc
    if lifecycle s = 0xFF then { t with stage := 0xE1 }
    else { t with stage := 2, rng := { s.rng with on := true, resets := num s 0x2100 2 } }

/-- CLOCKS (R79, R81, R127): the tempo PLL locks, the performance counters begin at zero (R558), and a failed known-answer test halts; it does so ahead of a failed entropy
test of the same stage, which the spec does not order (R84; DESIGN CHOICE, log 91). -/
def clocks (s : State) (ok : Bool) : State :=
  if s.stage ≠ 2 ∨ s.seq.failing then s
  else
    let t := clockBit s 0 true
    if !ok ∨ s.boot.halt then { updBoot t fun b => { b with halt := false } with stage := 0xE3 }
    else next { t with perf := { t.perf with cnt := [], ovf := [] } } 3

/-- The image of a slot runs: its number and security version (R78, R85). -/
def runImage (s : State) (x : Nat) (fallback : Bool) : State :=
  setNum (setNum (setNum s 0x2100 4 x) 0x2100 5 (leNat (((imageOf s x).bytes.drop 8).take 4))) 0x2100 14 (if fallback then 1 else 0)

/-- FIRMWARE ends with an image: RECOVER begins when seeding is complete too (R81, R84). -/
def imageFound (s : State) : State :=
  if s.entropyDown then { s with stage := 0xE2 } else enterRecover { s with boot := { s.boot with verified := true } }

/-- FIRMWARE (R85): the preferred image, the other one, or NO_FIRMWARE, in which 0x2100.04 reads the preferred
image (R128) and 0x2100.0E that it failed (R78). Whether the compare of an image's digest raises its alarm, which is a
mismatch (R285, R286), is free for each (log 123). NO_FIRMWARE goes ahead of ENTROPY_HALT (DESIGN CHOICE, log 91). -/
def firmware (s0 : State) : State :=
  if s0.stage ≠ 3 ∨ s0.boot.verified ∨ s0.seq.failing then s0
  else
    let r := draw s0 1
    let alarm := decide (r.1 = 1)
    let s := if alarm then compareAlarm r.2 else r.2
    let p := s.pers.preferred
    if imageCode s (imageOf s p) = 0 ∧ !alarm then imageFound (runImage s p false)
    else
      let r2 := draw s 1
      let alarm2 := decide (r2.1 = 1)
      let s := if alarm2 then compareAlarm r2.2 else r2.2
      if imageCode s (imageOf s (1 - p)) = 0 ∧ !alarm2 then imageFound (runImage s (1 - p) true)
      else { setNum (setNum s 0x2100 4 p) 0x2100 14 1 with stage := 0xE0 }

/-- Microseconds of a run of the Sinter counter (R87). -/
def rtcElapsed (now old : Nat) : Nat := (now + 2 ^ 48 - old) % 2 ^ 48 * 15625 / 512

/-- Device time of the start-up admission (R87). -/
def startTime (s : State) : Nat :=
  let p := s.pers
  let t := max p.commitTime (p.cpTime + 1000000)
  (if s.sinter.lost || !s.sinter.osc then t else max t (p.cpTime + rtcElapsed s.sinter.rtc p.cpRtc)) + 1

/-- The number before that of the start-up admission (R87); a follower of a pair counts in its own sequence (R551). -/
def startAdm (s : State) : Nat :=
  (if sheafOn s ∧ !leads s then 2 ^ 63 else 0) + (s.pers.reserved + 1) * 1048576 - 1

/-- The chain recomputed from the newest anchor to the head (R410): the value that it comes to, and the first record that cannot be read or
whose link does not agree. An unreadable record adds nothing to the value (log 133). -/
def rechain (j : Journal) : Bytes × Option Nat :=
  let b := (j.head - 1) / 64
  ((Jour.inBlock j b).filter fun p => decide (p.1 < j.head)).foldl (fun a p =>
    let c := sha256 (a.1 ++ p.2.bytes.take 56)
    if !p.2.readable then (a.1, some (a.2.getD p.1))
    else (c, if p.2.bytes.drop 56 = c.take 8 then a.2 else some (a.2.getD p.1))) (SMap.at' j.anchors b j.chain, none)

/-- The first broken record from the newest anchor on, or the anchor's first record where the anchor itself cannot be read. -/
def chainBreak (p : Pers) : Option Nat :=
  let b := (p.jour.head - 1) / 64
  if p.jour.head = 0 then none
  else if p.lost.any fun x => decide (x.1 = 0x0A ∧ x.2 / 4 = b) then some (b * 64) else (rechain p.jour).2

/-- What RECOVER makes of the store (R394, R395, R410): marked ring entries are applied, which changes nothing more, and the others discarded;
the dictionary image is rebuilt from its log; the chain goes on from the recomputed value. CHAIN_BROKEN stays until its record is released
(R414). -/
def recoverStore (p : Pers) : Pers :=
  let j := p.jour
  let found := chainBreak p
  { p with dict := rebuild p.dlog, cring := { p.cring with entries := [] }
           jour := { j with chain := if j.head = 0 ∨ (found.isSome ∧ (rechain j).2 = none) then j.chain else (rechain j).1
                            broken := if j.broken.isSome then j.broken else found } }

/-- RECOVER (R82, R87, R394, R395, R410): the store is made good, and the domain roots are loaded into the key-node cache (R334); the number and the device time of the start-up admission are set; the monitors take up their
configured values at its end. -/
def recover (s : State) : State :=
  if s.stage ≠ 4 ∨ commitsHeld s then s
  else
    let t := { s with
      tem := shiftTimes s.tem s.seq.time (startTime s)
      seq := { s.seq with adm := startAdm s, time := startTime s, admTime := startTime s }
      boot := { s.boot with recovered := true }
      pers := recoverStore s.pers }
    loadRoots (next t 5)

/-! The start-up admission (R89, R497). -/

/-- Cells whose stored image does not match its install digest (R91). -/
def badCells (s : State) : List Nat := (List.range 32).filter fun c => (SMap.look s.pers.applets c).isSome && !imageMatches s c

/-- The images of the installed cells judged (R91): whether the compare of a digest raises its alarm, which is a mismatch (R285, R286), is
free for each (log 123). -/
def judgeCells (s : State) : State :=
  if s.pers.applets = [] then { s with twc := { s.twc with failed := [] } }
  else
    let r := draw s 32
    let alarmed := fun c => decide ((SMap.look s.pers.applets c).isSome = true) && bit r.1 c
    let t := if (List.range 32).any alarmed then compareAlarm r.2 else r.2
    { t with twc := { t.twc with failed := (List.range 32).filter fun c => (badCells s).contains c || alarmed c } }

/-- The body of the START record (R409). -/
def startBody (s : State) : Bytes :=
  let bad := (s.twc.failed.map fun c => 2 ^ c).sum
  leBytes 1 s.boot.cause ++ leBytes 1 (num s 0x2100 4) ++ [0, 0] ++ leBytes 4 (sat32 (num s 0x2100 2) 1) ++ leBytes 4 bad ++
    leBytes 4 (modeWord s &&& 0x1D)

/-- The body of a record made from a log entry (R490). -/
def entryBody (s : State) (e : SLog) : Bytes :=
  let fl := (if bit e.flags 0 then 1 else 0) + (if isBattery e then 2 else 0x10) + (if e.done then 4 else 0) + (if e.supp then 8 else 0) +
    (if bit e.flags 1 then 0x20 else 0) + (if bit e.flags 2 then 0x40 else 0)
  leBytes 4 e.reading ++ leBytes 4 e.thr ++ leBytes 1 e.n ++ leBytes 1 fl ++ [0, 0] ++ leBytes 4 e.w ++ leBytes 2 s.sinter.overflow ++ zeros 6

/-- The record of one entry, where it has none yet. -/
def entryRecord (s : State) (e : SLog) : State :=
  if isJournaled e then s else tamperRecord s e.code e.cls e.time true (entryBody s e)

/-- Step 1 of R497: every entry without JOURNALED is recorded; battery entries are kept and marked, pre-reset entries removed. -/
def journalEntries (s : State) : State :=
  let t := s.sinter.log.foldl entryRecord s
  let keep := (s.sinter.log.filter isBattery).map fun e => { e with flags := setBit e.flags 4 true }
  { t with sinter := { t.sinter with log := keep } }

/-- A tamper-driven bump of a node (R330); none left blows the retire fuse. -/
def tamperBump (s : State) (ns : List Nat) : State :=
  let ts := ns.map fun n => tamperTarget s 4 n
  let t := bumpNodes s (ts.filterMap id).dedup
  if ts.any fun x => x.isNone then { t with otp := { t.otp with retired := true } } else t

/-- The 48 credential nodes (R330). -/
def credentialNodes : List Nat := (List.range 48).map (· + 0x40)

/-- Entry to CALDERA (R499 to R501). -/
def enterCaldera (s : State) : State := setNum (incObj (setNum s 0xD802 1 1) 0xD802 2) 0xD802 3 s.seq.adm

/-- What the Sinter domain and the latch call for in the start-up admission (R496, R497). -/
def applyTamper (s : State) : State :=
  let lost := s.sinter.lost
  let cls61 := (sensorSet s 0x61).1
  let latchSeal := s.sinter.sealLatch
  let s1 := journalEntries s
  let s2 := if lost ∧ cls61 ≠ 255 then tamperRecord s1 0x61 cls61 0 true (tamperBody s1 0x61 0 0 4) else s1
  let latch := (s.pers.latch.map fun x => x.1).getD 0
  let pend := max (max latch (s.sinter.pend.getD 0)) (if lost ∧ cls61 ≠ 255 then cls61 else 0)
  let s3 := if pend ≥ 3 then tamperBump s2 credentialNodes else s2
  let s4 := if pend ≥ 4 ∨ latchSeal then enterCaldera (tamperBump s3 [1]) else s3
  let s5 := if pend ≥ 2 then incObj s4 0xD800 7 else s4
  let sticky := (if lost then 0x10 else 0) + (if s5.sinter.log ≠ [] then 0x20 else 0)
  { s5 with
    pers := { s5.pers with latch := none }
    sinter := { s5.sinter with pend := none, sealLatch := false, lost := false }
    tem := { s5.tem with sticky := sticky } }

/-- The state in which a channel starts, from its key node and the epoch table (R88, R211, R228, R238). -/
def startState (s : State) (h : Nat) : Nat :=
  match nodeByHandle s h with
  | none => Ch.orphaned
  | some k => if !live s k then Ch.orphaned else if epochOf s k ≥ 0xFFFFFF then Ch.exhausted else Ch.closed

/-- Every channel whose Key node is not null, with the subindices of its partner, takes its state (R211). -/
def startChannels (s : State) : State :=
  (s.pers.dict.filter fun p => decide (0x4000 ≤ p.1 / 256 ∧ p.1 / 256 < 0xC000 ∧ p.1 % 64 = 2 ∧ p.2.toNat ≠ 0)).foldl
    (fun t p => setNum t (p.1 / 256) (p.1 % 256 - 1) (startState s p.2.toNat)) s

/-- The effect of the start-up admission. -/
def startEffect (s0 : State) : State :=
  let s := startChannels s0
  let body := startBody s
  let s1 := (Intern.rngStats s).foldl (fun t p => setNum t (p.1 / 256) (p.1 % 256) p.2)
    (setNum (setNum (incObj s 0x2100 2) 0x2100 7 s.seq.admTime) 0x2100 8 s.seq.adm)
  let s2 := journalAt s1 .last false ⟨1, 0xFF, 0xFF, 0, 0, 0⟩ body
  let s3 := Intern.wearRows.foldl Intern.wearNow (applyTamper s2)
  let s4 := match chainBreak s0.pers with
    | some p => if p < 65536 then journalStore s3 3 6 0 (p * 8) else journalStore s3 3 9 0 ((p - 65536) * 8)
    | none => s3
  let s5 := showSinter (setNum (setNum s4 0xD810 5 (if s.sinter.lost then 4 else 0)) 0xD800 8 s4.sinter.overflow)
  updateAlarm (startCells s5 s.twc.failed)

/-- The payload of the start-up admission: the fields of the START record, and the fires that it applies, those of the Sinter log, of the
latch word and of the pending class, and a loss (R488, R497; layout: log 9). -/
def startPayload (s : State) : Bytes :=
  let w := s.pers.latch.getD (0, 0, 0)
  fitBytes 32 (startBody s) ++ leBytes 1 w.1 ++ leBytes 1 w.2.1 ++ leBytes 2 w.2.2 ++ leBytes 1 (s.sinter.pend.getD 0) ++
    [if s.sinter.lost then 1 else 0, if s.sinter.sealLatch then 1 else 0] ++ s.sinter.log.flatMap fun e => e.bytes ++ entryBody s e

/-- TAMPER_EVAL (R89, R497): the start-up admission, at the number and the time that RECOVER set (R87), whatever device time has
passed since. Where its commit fails, none of its effects is applied (R194, R394). -/
def tamperEval (s0 : State) : State :=
  if s0.stage ≠ 5 ∨ commitsHeld s0 then s0
  else
    let s := judgeCells s0
    let t := s.seq.admTime
    let s1 := { s with seq := { s.seq with time := t, budgetAt := t, statAt := t }, audit := { s.audit with restart := true } }
    let i : AdmIn := ⟨5, 0, 0xFFFF, startPayload s, false, true, 0⟩
    match admitOne s1 i fun u => let r := ringCommit true (startEffect u, 0) u; ⟨r.1, r.2, none, false⟩ with
    | none => s
    | some d =>
      let v := { d.s with seq := { d.s.seq with time := s.seq.time }, boot := { d.s.boot with admitted := true }
                          tem := { d.s.tem with alarm := num d.s 0xD800 1 } }
      if v.otp.retired then { v with stage := 0xE1 } else next v 6

/-- APPLETS (R91): the start-up admission has brought the cells into their states, since states change only in admissions (R431). -/
def applets (s : State) : State := if s.stage ≠ 6 ∨ s.seq.failing then s else next s 7

/-- BARRIER (R91): bring-up with a new link key; an absent field die does not hold start-up. -/
def barrier (s : State) : State :=
  if s.stage ≠ 7 ∨ s.seq.failing then s
  else if s.bar.up ∨ s.bar.trying then next s 8
  else next (startBringup s) 8

/-- MODES (R90, R91, R551): PROVISION and SERVICE clear; a restored SHEAF starts apart; ISLAND closes the host link; then
TAMPER_HELD or READY. -/
def modes (s : State) : State :=
  if s.stage ≠ 8 ∨ commitsHeld s then s
  else
    let s1 := setNum (setNum (setNum s 0x2000 3 0) 0x2000 7 0) 0x2100 6 (min s.boot.since 0xFFFFFFFF)
    let h := { s1.sheaf with restarted := true, apart := decide (Shf.me s = 1) }
    let s2 := if sheafOn s then setNum { s1 with sheaf := h } 0xF000 1 3 else s1
    let s3 := if islandOn s then { s2 with host := { s2.host with closed := true } } else s2
    if s.entropyDown then { s3 with stage := 0xE2 }
    else if s.tem.sticky ≠ 0 then { s3 with stage := 0x10 }
    else enterReady { s3 with stage := 0x11 }

/-! HIBERNATE (R350, R522, R523). -/

/-- Battery entries journaled after a wake, under steps 1 and 2 of R497; the device is then in TAMPER_HELD. -/
def journalBattery (s : State) : State :=
  let t := journalEntries s
  updateAlarm (showSinter { t with tem := { t.tem with sticky := if t.sinter.log = [] then 0 else 0x20 }, stage := 0x10 })

/-- The state that the image restores; the host-link controller has kept what it holds (R512). The domain roots are loaded again (R334), the entropy source passes its start-up checks from the trims
held before (R383), and the count of reseeds since start-up goes on (R390). -/
def restored (s : State) (img : HibImage) : State :=
  let b := { s.boot with woken := some s.seq.time, toggle := false, waking := true }
  let t := State.start s.pending s.otp s.pers s.sinter b s.field s.bar.b s.bar.told s.seq.nextId s.seq.draws
  loadRoots { t with
    seq := { t.seq with time := carriedTime s.seq, adm := img.adm, admTime := s.seq.admTime, budget := img.budget, budgetAt := s.seq.budgetAt,
                        statAt := s.seq.statAt }
    tem := { t.tem with alarm := (SMap.at' img.dict (objKey 0xD800 1) (.num 0)).toNat }
    dict := img.dict, credit := img.credit, host := { s.host with cause := img.cause }, stage := 0x11
    reports := img.reports, twc := { t.twc with stager := img.stager, staged := img.staged }
    rng := { recheck t.rng with trims := s.rng.trims.map fun x => (x.1, 0), resets := s.rng.resets, reseeds := s.rng.reseeds }
    internal := if (SMap.at' img.dict (objKey 0xDB30 6) (.num 0)).toNat = 1 then [.toggle false] else [] }

/-- HIBERNATE_WAKE (R523): the image restored where it opens, or a full start-up with cause 0x08; not while power fails, where the reset of
R40 comes. The device serves nothing before every tiller is instantiated. -/
def hibernateWake (s : State) (readable : Bool) : State :=
  if s.power ≠ 4 ∨ s.seq.failing then s
  else match (if readable then s.modes.image.filter (imageOpens s) else none) with
    | none => resetRun s 8
    | some img => restored s img

/-- A status of the Sinter domain that 0xD810.05 does not show, KEY_PRESENT after HIBERNATE, is reported through an admission (R193, R498). -/
def keyReport (s : State) : State :=
  if num s 0xD810 5 = sinterWord s then s else pushBack s (IntReq.report [(objKey 0xD810 5, .num (sinterWord s))] none)

/-- The end of a wake from HIBERNATE (R523): every tiller is instantiated, or the source has failed (log 98). Battery entries are
journaled by an internal admission, the device then enters TAMPER_HELD, and the barrier is brought up. -/
def wakeEnds (s : State) : State :=
  if s.boot.waking ∧ (s.entropyDown ∨ (List.range 64).all (instantiated s)) then
    let t := keyReport { s with boot := { s.boot with waking := false } }
    startBringup (if t.sinter.log.any fun e => !isJournaled e then admitOwn t (internalIn 19 [] true) fun v => (journalBattery v, 0) else t)
  else s

/-- SCHEDULED_WAKE (R517). -/
def scheduledWake (s : State) : State :=
  match s.modes.wakeAt with
  | some t => if t ≤ s.seq.time then wake s else s
  | none => s

/-- HIBERNATE_HELLO_TIMER (R522): the field die's HELLO with B = 0. -/
def hibernateHello (s : State) : State :=
  let f := s.field
  if f.run ∧ f.notice = 2 ∧ f.link = 0 ∧ (f.wake ≠ [] ∨ f.events ≠ []) then
    { s with field := { f with lane0 := f.lane0 ++ [.hello 0 (Config.fieldRomVersion % 2 ^ 32) f.gen f.cause] } }
  else s

/-! The retire fuse (R359). -/

/-- The slot of the Retire. -/
def isRetire (x : Slot) : Bool := x.acts.any fun a => decide (a = .retireReset)

/-- RETIRE_FUSE_BLOW: every admission before the Retire has been released. Its record is written and the fuse is blown; its
release then only brings the reset. -/
def fuseBlow (s : State) : State :=
  if s.seq.retiring ∧ !commitsHeld s ∧ s.slots.all isRetire then
    let t := s.slots.foldl (fun t x => (x.acts.filter fun a => decide (a ≠ .retireReset)).foldl (runAct x) t) s
    { t with otp := { t.otp with retired := true }, slots := t.slots.map fun x => { x with acts := [.retireReset] } }
  else s

end Bt

/-! Monitors (R72, R73, R474 to R498). -/

namespace Mon

/-- TEM runs: the core die is out of reset and not in HIBERNATE (R82, R493). -/
def runs (s : State) : Bool := decide (s.stage ≠ 0 ∧ s.power ≠ 4)

/-- A reading of sensor k, with what a fire of class NOTE or CHECK wakes (R518). -/
def event (s : State) (k reading thr : Nat) : State := wakeIfQueued (sensorEvent s k s.seq.time reading thr)

/-- Sensors whose events come with admissions, or with the start-up admission (R479, R496). -/
def byAdmission (k : Nat) : Bool := decide (k = 0x2B ∨ (0x40 ≤ k ∧ k ≤ 0x50) ∨ k = 0x61)

/-- A VBAT sample that 0xD810.04 does not show is reported through an admission (R193, R498). -/
def vbatReport (s : State) (v : Nat) : State :=
  if s.boot.vddah ∧ num s 0xD810 4 ≠ v then pushBack s (IntReq.report [(objKey 0xD810 4, .num v)] none) else s

/-- SENSOR_EVENT (R474, R479): a reading of sensor k. -/
def sensor (s : State) (k : Nat) (reading : BitVec 20) : State :=
  if !runs s ∨ byAdmission k then s
  else
    let t := match crosses s k (s20Ext reading) with
      | some thr => event s k (s20Ext reading) thr
      | none => s
    if k = 0x60 then vbatReport t (s20Ext reading) else if k = 0x62 then clockBit { t with sinter := { t.sinter with osc := false } } 6 false else t

/-- CLOCK_LOST (R73, R79): a clock that a power state has stopped is not lost (R513). The tempo and the cipher clock come from
their PLLs; which PLL has lost its lock the event does not say, so it is free. -/
def clockLost (s : State) (c : LostClock) : State :=
  if !runs s ∨ (s.power = 3 ∧ c ≠ .monitor) then s
  else
    let t := match c with
      | .tempo => clockBit s 0 false
      | .cipher => clockBit s 1 false
      | .monitor => s
      | .pll => let r := draw s 1; clockBit r.2 r.1 false
    event t 0x1C 0 0

/-- Counts expected in a window, by row of R72. -/
def expected : List Nat := [6144, 32768, 49152, 512, 40960]

/-- CLOCK_WINDOW_CHECK (R72): the deviation of a window's count. No cell carries the deviation of the field clock to TEM, whose sensor 0x14
takes it (R474): the model raises the sensor directly (DESIGN CHOICE, log 124). -/
def clockWindow (s : State) (row n : Nat) : State :=
  let e := expected.getD row 0
  let d := (n - e) + (e - n)
  if !runs s ∨ (s.power = 3 ∧ row < 4) ∨ (row = 4 ∧ !s.field.run) then s
  else match crosses s (0x10 + row) d with
    | some t => event (if row < 4 then clockBit s (2 + row) false else s) (0x10 + row) d t
    | none => if row < 4 then clockBit s (2 + row) true else s

/-- The latch word after a commit of w: its class only rises (R487, R489). -/
def latchWord (old : Option (Nat × Nat × Nat)) (w : Nat × Nat × Nat) : Nat × Nat × Nat :=
  match old with
  | none => w
  | some (c, n, k) => (max c w.1, min (n + w.2.1) 255, if c > w.1 then k else if c = w.1 then min k w.2.2 else w.2.2)

/-- TAMPER_LATCH_COMMIT (R486, R487, R489): the last latch commit of the response completes, with what came in time for it, and the reset with
cause TAMPER. A latch commit not begun when power fails is not begun. -/
def latchCommit (s : State) : State :=
  match s.tem.resp with
  | none => s
  | some r =>
    if s.seq.failing then s
    else
      let w := latchWord s.pers.latch r.word
      Bt.resetRun (count { s with pers := { s.pers with latch := some w } } 8 0 1) 3

/-- SENSOR_WINDOW_EXPIRY (R479): FIRED to CLEAR after W without an event; a State object that reads FIRED follows in an
admission (R193). -/
def windowExpiry (s : State) (k : Nat) : State :=
  let x := senseOf s k
  if x.fired ∧ x.last + (sensorSet s k).2.2 ≤ s.seq.time then
    showClear (setSense s k sense0) k
  else s

/-- SUPPLY_WINDOW_HOLD (R476): 500 us have passed. -/
def supplyHold (s : State) (k : Nat) : State :=
  match s.tem.held.find? fun h => decide (h.1 = k ∧ h.2.2.2 + 500 ≤ s.seq.time) with
  | some h => if s.seq.failing then s else wakeIfQueued (fire { s with tem := { s.tem with held := s.tem.held.erase h } } k h.2.1 h.2.2.1)
  | none => s

/-- LID_MESH_COMPARE (R477): the pattern driven against what was sensed; the next pattern is driven. -/
def lidMesh (s : State) (sensed : BitVec 16) : State :=
  if !runs s then s
  else
    let m := mismatches s.tem.lid sensed
    let r := meshPattern s
    let t := { r.2 with tem := { r.2.tem with lid := r.1 } }
    if m = 0 then t else event t 0x30 m 0

/-- ENCLOSURE_MESH_COMPARE (R478). -/
def mesh (s : State) (i : Nat) (sensed : BitVec 16) : State :=
  if !runs s then s
  else
    let m := mismatches (SMap.at' s.tem.mesh i 0#16) sensed
    let r := meshPattern s
    let t := { r.2 with tem := { r.2.tem with mesh := SMap.put r.2.tem.mesh i r.1 } }
    if m = 0 then t else event t (0x38 + i) m 0

/-! The Sinter schedule (R493, R494). -/

/-- One mesh of the schedule, 0 the lid and 1 to 4 the enclosure meshes: what was sensed is compared, and the next pattern is
driven. -/
def sinterMesh (p : State × List (Nat × Nat × Nat × Nat)) (x : Nat × BitVec 16) : State × List (Nat × Nat × Nat × Nat) :=
  let s := p.1
  let k := if x.1 = 0 then 0x30 else 0x37 + x.1
  let m := mismatches (SMap.at' s.sinter.pats x.1 0#16) x.2
  let t := scheduleHit s k (decide (m ≠ 0)) 2
  let r := nextPattern t.1
  ({ r.2 with sinter := { r.2.sinter with pats := SMap.put r.2.sinter.pats x.1 r.1 } }, p.2 ++ if t.2 then [(k, m, 0, 2)] else [])

def sinterMeshes (s : State) (xs : List (BitVec 16)) : State :=
  if scheduleOn s then
    let r := ((List.range xs.length).zip xs).foldl sinterMesh (s, [])
    slotFires r.1 r.2
  else s

def sinterLight (s : State) (reading : BitVec 20) : State :=
  if scheduleOn s then
    let thr := num s 0xDA20 5
    let r := scheduleHit s 0x20 (decide (reading.toInt > s20Int thr)) 1
    slotFires r.1 (if r.2 then [(0x20, s20Ext reading, thr, 1)] else [])
  else s

def sinterTemp (s : State) (reading : BitVec 20) : State :=
  if scheduleOn s then
    let lo := num s 0xDA28 4
    let hi := num s 0xDA29 5
    let a := scheduleHit s 0x28 (decide (reading.toInt < s20Int lo)) 2
    let b := scheduleHit a.1 0x29 (decide (reading.toInt > s20Int hi)) 2
    slotFires b.1 ((if a.2 then [(0x28, s20Ext reading, lo, 2)] else []) ++ if b.2 then [(0x29, s20Ext reading, hi, 2)] else [])
  else s

/-- VBAT_LOSS (R45): what the Sinter domain held is gone; the counter starts anywhere, and whether the CRC agrees with what is left is
free. -/
def vbatLoss (s : State) : State :=
  if s.boot.vddah then s
  else
    let r := draw s 49
    { r.2 with sinter := { r.2.sinter with crcOk := bit r.1 48, rtc := r.1 % 2 ^ 48, frac := 0, key := none, log := [], overflow := 0, sealLatch := false, pend := none,
                                           lost := true, hits := [], osc := false } }

end Mon

end Sys2Proof.Machine
end

