-- ==== Sys2Proof/Machine/FieldRun.lean ====
section
/-! DEFINITION. What reaches the field die, what it does at its own times, and the events of the barrier link at both ends
(R149, R156, R163 to R177, R454 to R471, R519, R520). -/

namespace Sys2Proof.Machine

/-- A lane-1 message that comes next at the field die (R169): its cells leave lane 1, and the field die acts while it runs with the
link up. -/
def atField (s : State) (m : Lane1) (g : Field → Field) : State :=
  if !crosses1 s m then s
  else
    let t := arrive1 s m
    if s.field.link = 2 then whenField t g else t

namespace Fld

/-! Bring-up (R174) and loss (R175). -/

/-- The core die's HELLO: the field die answers, and enters KEYING. -/
def hello (f : Field) (b : Nat) : Field :=
  { leaveLink f 1 with b := b, staged := [], lane0 := [.hello b (Config.fieldRomVersion % 2 ^ 32) f.gen f.cause] }

/-- KEY with the tag and the bring-up number of this bring-up. Input entries kept through HIBERNATE go out first (R522). -/
def keyed (f : Field) (k : Bytes) (b : Nat) (t : Bytes) : Field :=
  if f.link ≠ 1 ∨ b ≠ f.b ∨ k.length ≠ 16 ∨ t ≠ Bar.tag k 1 1 (Bar.cell28 0x82 1 (k ++ leBytes 4 b)) then f
  else
    let a := Bar.tag k 1 0 (Bar.cell28 0x03 1 (leBytes 4 b))
    sendEvents { f with link := 2, key := some k, rx := ⟨2, 0, []⟩, sent := 1, routes := [], lane0 := f.lane0 ++ [.keyAck b a] }

/-- The barrier timeout of 100 us without a valid cell, and the loss of sixteen drops (R166, R175). -/
def timeout (f : Field) : Field := if f.link = 0 ∨ f.time < f.heard + 100 then f else leaveLink f 0
def dropLimit (f : Field) : Field := if f.link = 2 ∧ f.rx.drops ≥ 16 then leaveLink f 0 else f

/-- IDLE after 10 us without a cell (R175). -/
def idle (f : Field) : Field := if f.link = 2 ∧ f.lane0 = [] ∧ f.spoke + 10 ≤ f.time then { f with lane0 := [.idle] } else f

/-! Messages of lane 1. -/

/-- A BDP response leaves on the port and to the node of its origin (R170). -/
def response (f : Field) (origin : Nat) (m : Bytes) : Field :=
  if 0x8000 ≤ origin ∧ origin / 256 % 128 < 7 then sendBdp f (origin / 256 % 128) (origin % 256) m else f

/-- A downstream channel frame leaves by its route (R170). -/
def frameOut (f : Field) (b : Bytes) : Field :=
  match SMap.look f.routes (leNat ((b.drop 2).take 2) % 0x8000) with
  | some r => sendFrame f (r / 256) (r % 256) b
  | none => { f with framesDropped := sat32 f.framesDropped 1 }

/-- One entry of a ROUTE cell (R170). -/
def routeEntry (f : Field) (e : BitVec 16 × BitVec 16) : Field :=
  let n := e.1.toNat % 0x8000
  { f with routes := if bit e.1.toNat 15 then SMap.put f.routes n ((e.2.toNat / 256 % 8) * 256 + e.2.toNat % 128) else SMap.del f.routes n }

def route (f : Field) (es : List (BitVec 16 × BitVec 16)) : Field :=
  if 1 ≤ es.length ∧ es.length ≤ 6 ∧ es.all fun e => decide (e.2.toNat &&& 0xF880 = 0) then es.foldl routeEntry f else f

/-- NET_CONFIG (R172): a setting waits for its commit. -/
def stage (f : Field) (i k : Nat) (v : Bytes) : Field :=
  if isCarried i k ∧ 1 ≤ v.length ∧ v.length ≤ 20 then { f with staged := f.staged ++ [(objKey i k, v)] } else f

/-- POWER_NOTICE (R519, R520): at the awake notice what was held goes out, then one FIELD_REPORT. -/
def notice (f : Field) (v : Nat) : Field :=
  if v > 2 then f
  else if v = 0 ∧ f.notice = 1 then
    let g := { f with notice := 0, wake := [], lane0 := f.lane0 ++ f.wake }
    send g (.fieldReport (report g))
  else { f with notice := v }

/-- BUS_OFF_RECOVERY_REQUEST (R156). -/
def recover (f : Field) (c : Nat) : Field :=
  let x := portOf f c
  if x.state = 2 then setPort f c { x with recovering := true } else f

/-- The end of a bus-off recovery, automatic or commanded (R145, R155). -/
def recovered (f : Field) (c : Nat) : Field :=
  let x := portOf f c
  if portOn f c ∧ x.state = 2 ∧ (fset f (0x1200 + c) 7 = 0 ∨ x.recovering) then
    let g := setPort f c { x with state := 0, tec := 0, recv := 0, recovering := false }
    send g (.netStatus (netStatus g (Fin.ofNat 7 c)))
  else f

/-! Periodic reports (R171, R455, R520). -/

/-- The die reads VGUARD and its own temperature: values that the spec leaves open (R161). -/
def readSelf (f : Field) : Field :=
  { f with vguard := Config.fieldReading 0 f.samples, temp := Config.fieldReading 1 f.samples, samples := f.samples + 1 }

/-- A report that was last sent at field time t is due again after a period (R455; the first one comes a period after the reset: DESIGN
CHOICE, log 134). -/
def dueAt (f : Field) (t period : Nat) : Bool := decide (t + period ≤ f.time)

/-- FIELD_REPORT every 1 ms (R171). -/
def reportPeriod (f0 : Field) : Field :=
  if !dueAt f0 f0.due.report 1000 then f0 else
  let f := { f0 with due := { f0.due with report := f0.time } }
  let g := readSelf f
  if f.notice = 1 then g else send g (.fieldReport (report g))

/-- OUTPUT_SENSE every 10 ms, while the core die sleeps only if an output conducts. -/
def sensePeriod (f0 : Field) (xs : List (BitVec 20)) : Field :=
  if !dueAt f0 f0.due.sense 10000 then f0 else
  let f := { f0 with due := { f0.due with sense := f0.time } }
  let m := Lane0.outputSense ((List.range 8).map fun n => (xs.getD n 0#20).toNat)
  if f.notice = 1 then (if conducting f = 0 ∨ f.link ≠ 2 then f else { f with lane0 := f.lane0 ++ [m] }) else send f m

/-- A conversion within full scale, to which one beyond it is clamped (R471). -/
def clampScale (x : Int) : Int := max (-524288) (min 524287 x)

/-- The reading of an interval: the mean of its clamped samples, rounded toward zero (R471). -/
def mean (xs : List Int) : Int := ((xs.map clampScale).sum).tdiv xs.length

/-- A sample of the interval lay beyond full scale (R471). -/
def overrange (xs : List Int) : Bool := xs.any fun x => decide (clampScale x ≠ x)

/-- What the calibration leaves of an input's samples (R471). -/
def kept (cal : Option Nat) (xs : List Int) : List Int :=
  match cal with
  | some n => xs.eraseIdx n
  | none => xs

/-- The samples of an interval that has ended: 4,000 a second for each input, and one of them a calibration's where field time has passed a
multiple of 10 s since the last report (R471; log 134). -/
def intervalEnds (f : Field) (samples : List (List Int)) (cal : Option Nat) : Bool :=
  let ms := fset f 0xDB30 4
  dueAt f f.due.analog (ms * 1000) && samples.all (fun xs => decide (xs.length = 4 * ms)) &&
    (match cal with
      | some n => decide (n < 4 * ms ∧ f.time / 10000000 ≠ f.due.analog / 10000000)
      | none => decide (f.time / 10000000 = f.due.analog / 10000000))

/-- ANALOG_SENSE once per analog report interval: the mean of each enabled input with its OVERRANGE mark, and 0 for one that is not enabled
(R471). -/
def analogPeriod (f : Field) (samples : List (List Int)) (cal : Option Nat) : Field :=
  if !intervalEnds f samples cal then f
  else
    let on := fun n => decide (fset f (0xDB20 + n) 2 = 1)
    let xs := fun n => kept cal (samples.getD n [])
    let vs := (List.range 4).map fun n => (if on n then BitVec.ofInt 20 (mean (xs n)) else 0#20).toNat
    send { f with due := { f.due with analog := f.time } } (.analogSense vs (maskOf 4 fun n => on n && overrange (xs n)))

/-- NET_STATUS of each enabled port every 100 ms (R171). -/
def netPeriod (f0 : Field) : Field :=
  if !dueAt f0 f0.due.net 100000 then f0 else
  let f := { f0 with due := { f0.due with net := f0.time } }
  if f.notice = 1 then f
  else ((List.range 7).filter fun p => portOn f p).foldl (fun g p => send g (.netStatus (netStatus g (Fin.ofNat 7 p)))) f

/-- NET_STATE_CHANGE (R171). -/
def netState (f : Field) (p state tec recv : Nat) : Field :=
  if !portOn f p then f
  else
    let x := portOf f p
    let g := setPort f p { x with state := state, tec := tec, recv := recv, recovering := x.recovering && decide (state = 2) }
    send g (.netStatus (netStatus g (Fin.ofNat 7 p)))

/-- REASSEMBLY_TIMEOUT (R149). -/
def reasmTimeout (f : Field) (c node : Nat) : Field :=
  match SMap.look f.reasm (reasmKey c node) with
  | some x => if f.time > x.time + 20000 then drop' (endReasm f c node) c else f
  | none => f

/-! Guard inputs, VGUARD and the wave. -/

/-- A tick of the sampler, once on each 50 us of field time (R466, R467); the entries it raises go out before the FIELD_REPORT of the same change (R455). -/
def sampleAll (f : Field) (levels : BitVec 16) : Field :=
  if f.time % 50 ≠ 0 ∨ f.time / 50 < f.due.tick then f
  else sendEvents ((List.range 16).foldl (fun g n => sample g levels (Fin.ofNat 16 n)) { f with due := { f.due with tick := f.time / 50 + 1 } })

def undervoltage (f : Field) (v : BitVec 20) : Field := { stopWave (cutOutputs f) with vguardOk := false, uv := true, vguard := v }
def recovery (f : Field) (v : BitVec 20) : Field := { f with vguardOk := true, uv := false, vguard := v }

/-- PERMIT_OUT_HALF_PERIOD (R49, R464): the wave begins high at a whole millisecond of field time. -/
def halfPeriod (f : Field) : Field :=
  if !f.permitCmd ∨ !f.toggle ∨ f.link ≠ 2 ∨ !f.vguardOk then f
  else if f.wave then (if f.time % 500 = 0 then { f with permitOut := !f.permitOut } else f)
  else if f.time % 1000 = 0 then { f with wave := true, permitOut := true }
  else f

/-- The toggle at the permit detector (R16, R463, R177). -/
def toggleGone (f : Field) : Field := { cutAll f with toggle := false }
def toggleBack (f : Field) : Field := { f with toggle := true }

end Fld

namespace Lnk

/-! The barrier link as events reach it (R166, R173 to R176). -/

def cell (s : State) (lane : Fin 2) (c : Bytes) (phys : Phys) : State :=
  if lane = 0 then cellAtCore s c (decide (phys = .compare)) else cellAtField s c

/-- CELL_DROP_LIMIT (R166). -/
def dropLimit (s : State) (lane : Fin 2) : State :=
  if lane = 0 then (if s.bar.up ∧ s.bar.rx.drops ≥ 16 then linkLoss s else s) else whenField s Fld.dropLimit

/-- CORE_HELLO at the field die. -/
def coreHello (s : State) (b fw : Nat) : State :=
  if crosses1 s (.hello b fw) then whenField (arrive1 s (.hello b fw)) fun f => Fld.hello f b else s

/-- FIELD_HELLO at the core die; in HIBERNATE one with B = 0 is the wake request (R522). -/
def fieldHello (s : State) (b rom gen cause : Nat) : State :=
  let t := arrive0 s (.hello b rom gen cause)
  if !crosses0 s (.hello b rom gen cause) then s
  else if s.power = 4 then (if b = 0 then Bt.hibernateWake t true else s) else fieldHelloOp t b rom gen cause

def key (s : State) (k : Bytes) (b : Nat) (t : Bytes) : State :=
  if crosses1 s (.key k b t) then whenField (arrive1 s (.key k b t)) fun f => Fld.keyed f k b t else s

/-- KEY_ACK at the core die, in its cell; after a wake from HIBERNATE the link then carries what R174 states. -/
def keyAck (s : State) (b : Nat) (t : Bytes) (phys : Phys) : State :=
  if crosses0 s (.keyAck b t) then
    let u := if s.bar.ready = [] then leave0 s (.keyAck b t) else updBar s fun x => { x with ready := x.ready.tail }
    keyAckOp (ackCell u b t phys) b t phys
  else s

/-- BRINGUP_TIMEOUT: an attempt without its answer within 1 ms fails (R174). A field die that has not answered at all is absent (R91,
log 96). -/
def fail (s : State) : State :=
  if s.bar.trying ∧ (s.bar.tryAt.getD 0) + 1000 ≤ s.boot.since then
    let t := updBar s fun x => { x with trying := false, key := none, hello := none }
    if s.bar.hello.isNone then pushFront t (.fieldState 0 none) else t
  else s

def idle (s : State) (lane : Fin 2) : State :=
  if lane = 0 then (if crosses0 s .idle then arrive0 s .idle else s) else if crosses1 s .idle then arrive1 s .idle else s

/-- IDLE_TIMER: no cell has been sent for 10 us (R175). -/
def idleTimer (s : State) (lane : Fin 2) : State :=
  if lane = 0 then whenField s Fld.idle
  else if s.bar.up ∧ s.bar.lane1 = [] ∧ s.bar.spoke + 10 ≤ s.boot.since then updBar s fun x => { x with lane1 := [.idle] } else s

/-- CORE_BARRIER_TIMEOUT: 100 us without a valid cell (R176). -/
def coreTimeout (s : State) : State := if s.bar.up ∧ s.bar.heard + 100 ≤ s.boot.since then linkLoss s else s

/-- An assembled message at the barrier admission input, or its discard where 1,024 wait (R173, R184). -/
def input (s : State) (m : Lane0) : State := if crosses0 s m then joinInput s m else s

end Lnk

end Sys2Proof.Machine
end

