-- ==== Sys2Proof/Machine/Command.lean ====
section
/-! DEFINITION. How a command changes the state: the queue is the step's, the fuses go one way, and a field-die command touches
the field die alone. -/

namespace Sys2Proof.Machine

/-- Fuses are only ever blown (R131, R354, R359). -/
def Otp.burn (old new : Otp) : Otp :=
  ⟨if old.lifecycle = 0xA5 ∧ new.lifecycle = 0x5A then 0x5A else old.lifecycle, old.retired || new.retired, max old.floor new.floor⟩

/-- A command that blows no fuse. -/
def coreCmd (f : State → State) (s : State) : Host.Outcome State Fault Refusal := .next { f s with pending := s.pending, otp := s.otp }

/-- A command that may blow fuses. -/
def otpCmd (f : State → State) (s : State) : Host.Outcome State Fault Refusal :=
  let t := f s
  .next { t with pending := s.pending, otp := Otp.burn s.otp t.otp }

/-- What the field die does at a time or an event of its own (R14, R93). -/
def fieldCmd (g : Field → Field) (s : State) : Host.Outcome State Fault Refusal := .next { s with field := (whenField s g).field }

/-- What VGUARD does, which the field die sees also while it is held in reset (R38, R39). -/
def vguardCmd (g : Field → Field) (s : State) : Host.Outcome State Fault Refusal :=
  .next { s with field := if s.field.run then (whenField s g).field else g s.field }

/-- The services of R105. -/
def services : List Nat := [1, 2, 3, 4, 5, 6, 7, 0x10, 0x11, 0x12, 0x20]

/-- The value that Retire takes (R359). -/
def retireWord : Bytes := leBytes 4 0x52455449

/-! Events of one cell. -/

/-- WAIT_DEADLINE (R448, R452). -/
def cellDeadline (s : State) (c : Fin 32) : State :=
  match (SMap.look s.twc.cells c.val).bind fun x => x.waiting with
  | some (_, d) => if d ≠ 0 ∧ d ≤ s.seq.time then raiseEvents s c.val 16 else s
  | none => s

/-- The load at pc of a cell, where it is a load of RNG_DATA: its length, its register and its encoding (R386, R427). -/
def rngLoad (c : Fin 32) (x : Cell) (w : Nat) : Option (Instr × Nat × Fin 32) :=
  let at' := fun (a : Word) (r : Instr × Nat × Fin 32) => if a = 0x40000#32 then some r else none
  match Rv.decode c w with
  | .insn (.lw c rd rs1 imm) => at' (reg x rs1 + sext imm) (.lw c rd rs1 imm, 4, rd)
  | .insn (.cLw c rd rs1 u) => at' (reg x rs1 + zext u) (.cLw c rd rs1 u, 2, rd)
  | .insn (.cLwsp c rd u) => at' (reg x 2 + zext u) (.cLwsp c rd u, 2, rd)
  | _ => none

/-- RNG_DATA_READ (R386): the load takes the next word of the cell's tiller, or stalls. -/
def rngRead (s : State) (c : Fin 32) : State :=
  match (running s c).bind fun x => (fetch x).bind fun w => rngLoad c x w with
  | some (i, n, rd) => rvStep s c i 2 (rvLoad n c rd (fun _ => 0x40000#32) 4 fun v => BitVec.ofNat 32 v)
  | none => s

/-- RNG_DATA_STALL_TIMEOUT (R386): no word has come within 2,048 tc, which device time shows as 5 us (log 120). -/
def rngTimeout (s : State) (c : Fin 32) : State :=
  match SMap.look s.twc.cells c.val with
  | some x => if x.stalled.any fun t => decide (t + 5 ≤ s.seq.time) then faultCell s c.val 7 x.pc else s
  | none => s

/-- QUANTUM_EXPIRY (R429): 8,000 tc have passed, or the pair stands in a stalled load. -/
def quantumEnd (s : State) : State :=
  match s.twc.current.bind fun c => SMap.look s.twc.cells c with
  | some x => if s.twc.cycles ≥ 8000 ∨ x.stalled.isSome then yieldPair (count s 2 4 1) else s
  | none => s

/-- BUDGET_FAULT (R430). -/
def budgetEnd (s : State) (c : Fin 32) : State :=
  match SMap.look s.twc.cells c.val with
  | some x => if s.twc.current = some c.val ∧ runnable s c.val ∧ s.power = 0 ∧ s.stage ≠ 0 ∧ x.retired ≥ 2 ^ 28 then faultCell s c.val 6 x.pc else s
  | none => s

/-- ILLEGAL_INSTRUCTION (R424), or the FETCH fault outside the code region (R426). -/
def illegalAt (s : State) (c : Fin 32) : State :=
  match running s c with
  | none => s
  | some x =>
    match fetch x with
    | none => faultCell s c.val 2 x.pc
    | some w => if Rv.decode c w = .illegal then faultCell (Prf.faulted s c.val x.pc.toNat w s.twc.cycles) c.val 1 x.pc else s

end Sys2Proof.Machine
end

