-- ==== Sys2Proof/Machine/Barrier.lean ====
section
/-! DEFINITION. The barrier link and the messages of lane 1: one meaning for each command. -/

namespace Sys2Proof.Machine

/-- BARRIER_CELL_RECEIVE (R166). -/
def execBarrierCellReceive (lane : Fin 2) (cell : Under Bytes) (s : State) : Host.Outcome State Fault Refusal :=
  coreCmd (fun s => Lnk.cell s lane cell.op cell.phys) s

/-- CELL_DROP_LIMIT (R166). -/
def execCellDropLimit (lane : Fin 2) (s : State) : Host.Outcome State Fault Refusal :=
  coreCmd (fun s => Lnk.dropLimit s lane) s

/-- BRINGUP_START (R174). -/
def execBringupStart (s : State) : Host.Outcome State Fault Refusal :=
  coreCmd (fun s => startBringup s) s

/-- CORE_HELLO (R174). -/
def execCoreHello (b : Word) (fw : Word) (s : State) : Host.Outcome State Fault Refusal :=
  coreCmd (fun s => Lnk.coreHello s b.toNat fw.toNat) s

/-- FIELD_HELLO (R174). -/
def execFieldHello (b : Word) (rom : Word) (gen : Word) (cause : Byte) (s : State) : Host.Outcome State Fault Refusal :=
  coreCmd (fun s => Lnk.fieldHello s b.toNat rom.toNat gen.toNat cause.toNat) s

/-- KEY (R174). -/
def execKeyCell (key : Bytes) (b : Word) (tag : Bytes) (s : State) : Host.Outcome State Fault Refusal :=
  coreCmd (fun s => Lnk.key s key b.toNat tag) s

/-- KEY_ACK (R174). -/
def execKeyAck (b : Word) (tag : Under Bytes) (s : State) : Host.Outcome State Fault Refusal :=
  coreCmd (fun s => Lnk.keyAck s b.toNat tag.op tag.phys) s

/-- BRINGUP_TIMEOUT (R174). -/
def execBringupTimeout (s : State) : Host.Outcome State Fault Refusal :=
  coreCmd (fun s => Lnk.fail s) s

/-- BRINGUP_RETRY (R91). -/
def execBringupRetry (s : State) : Host.Outcome State Fault Refusal :=
  coreCmd (fun s => startBringup s) s

/-- IDLE (R175). -/
def execIdleCell (lane : Fin 2) (s : State) : Host.Outcome State Fault Refusal :=
  coreCmd (fun s => Lnk.idle s lane) s

/-- IDLE_TIMER (R175). -/
def execIdleTimer (lane : Fin 2) (s : State) : Host.Outcome State Fault Refusal :=
  coreCmd (fun s => Lnk.idleTimer s lane) s

/-- FIELD_BARRIER_TIMEOUT (R175). -/
def execFieldBarrierTimeout (s : State) : Host.Outcome State Fault Refusal :=
  fieldCmd Fld.timeout s

/-- CORE_BARRIER_TIMEOUT (R176). -/
def execCoreBarrierTimeout (s : State) : Host.Outcome State Fault Refusal :=
  coreCmd (fun s => Lnk.coreTimeout s) s

/-- FIELD_STATE_ADMISSION (R78). -/
def execFieldStateAdmission (s : State) : Host.Outcome State Fault Refusal :=
  coreCmd (fun s => Intern.fieldState s) s

/-- BDP_REQ (R173). -/
def execBdpReq (origin : Nat) (msg : Bytes) (s : State) : Host.Outcome State Fault Refusal :=
  coreCmd (fun s => Lnk.input s (.bdpReq origin msg)) s

/-- CHF_UP (R173). -/
def execChfUp (_port : Fin 7) (_node : Nat) (frame : Bytes) (s : State) : Host.Outcome State Fault Refusal :=
  coreCmd (fun s => Lnk.input s (.chfUp frame)) s

/-- CHANNEL_RECEIVE (R231). -/
def execChannelReceive (port : Fin 7) (node : Nat) (frame : Bytes) (phys : Phys) (s : State) : Host.Outcome State Fault Refusal :=
  coreCmd (fun s => Intern.channelReceive s port.val node frame phys) s

/-- BDP_RESP (R170). -/
def execBdpResp (origin : Nat) (msg : Bytes) (s : State) : Host.Outcome State Fault Refusal :=
  coreCmd (fun s => atField s (.bdpResp origin msg) fun f => Fld.response f origin msg) s

/-- CHF_DOWN (R170). -/
def execChfDown (frame : Bytes) (s : State) : Host.Outcome State Fault Refusal :=
  coreCmd (fun s => atField s (.chfDown frame) fun f => Fld.frameOut f frame) s

/-- ROUTE (R170). -/
def execRoute (entries : List (BitVec 16 × BitVec 16)) (s : State) : Host.Outcome State Fault Refusal :=
  coreCmd (fun s => atField s (.route (entries.map fun e => (e.1.toNat, e.2.toNat))) fun f => Fld.route f entries) s

/-- GUARD_SET (R454). -/
def execGuardSet (mask : Byte) (on : Byte) (permit : Byte) (s : State) : Host.Outcome State Fault Refusal :=
  coreCmd (fun s => atField s (.guardSet mask.toNat on.toNat permit.toNat) fun f => if permit.toNat < 2 ∨ permit = 0xFF then Fld.guardSet f mask.toNat on.toNat permit.toNat else f) s

/-- NET_CONFIG (R172). -/
def execNetConfig (idx : Nat) (sub : Nat) (value : Bytes) (s : State) : Host.Outcome State Fault Refusal :=
  coreCmd (fun s => atField s (.netConfig idx sub value) fun f => Fld.stage f idx sub value) s

/-- NET_CONFIG_COMMIT (R172). -/
def execNetConfigCommit (gen : Word) (s : State) : Host.Outcome State Fault Refusal :=
  coreCmd (fun s => atField s (.netCommit gen.toNat) fun f => Fld.commit f gen.toNat) s

/-- POWER_NOTICE (R519). -/
def execPowerNotice (value : Byte) (s : State) : Host.Outcome State Fault Refusal :=
  coreCmd (fun s => atField s (.power value.toNat) fun f => Fld.notice f value.toNat) s

/-- BUS_OFF_RECOVERY_REQUEST (R156). -/
def execBusOffRecoveryRequest (can : Fin 4) (s : State) : Host.Outcome State Fault Refusal :=
  coreCmd (fun s => atField s (.recover can.val) fun f => Fld.recover f can.val) s

end Sys2Proof.Machine
end

