-- ==== Sys2Proof/Machine/Bdp.lean ====
section
/-! DEFINITION. The BDP services: one meaning for each command. -/

namespace Sys2Proof.Machine

/-- READ (R106). -/
def execRead (r : Req) (s : State) : Host.Outcome State Fault Refusal :=
  coreCmd (fun s => request s (reqRq r 0x01)) s

/-- WRITE (R108). -/
def execWrite (r : Req) (s : State) : Host.Outcome State Fault Refusal :=
  coreCmd (fun s => request s (reqRq r 0x02)) s

/-- READ_SEG_INIT (R113). -/
def execReadSegInit (r : Req) (s : State) : Host.Outcome State Fault Refusal :=
  coreCmd (fun s => request s (reqRq r 0x03)) s

/-- READ_SEG (R113). -/
def execReadSeg (r : Req) (s : State) : Host.Outcome State Fault Refusal :=
  coreCmd (fun s => request s (reqRq r 0x04)) s

/-- WRITE_SEG_INIT (R111). -/
def execWriteSegInit (r : Req) (s : State) : Host.Outcome State Fault Refusal :=
  coreCmd (fun s => request s (reqRq r 0x05)) s

/-- WRITE_SEG (R110). -/
def execWriteSeg (r : Req) (s : State) : Host.Outcome State Fault Refusal :=
  coreCmd (fun s => request s (reqRq r 0x06)) s

/-- ABORT_TRANSFER (R110). -/
def execAbortTransfer (r : Req) (s : State) : Host.Outcome State Fault Refusal :=
  coreCmd (fun s => request s (reqRq r 0x07)) s

/-- BIND_REQUEST (R114). -/
def execBindRequest (r : Req) (s : State) : Host.Outcome State Fault Refusal :=
  coreCmd (fun s => request s (reqRq r 0x10)) s

/-- BIND_RESPONSE (R116). -/
def execBindResponse (r : Req) (s : State) : Host.Outcome State Fault Refusal :=
  coreCmd (fun s => request s (reqRq r 0x11)) s

/-- UNBIND (R121). -/
def execUnbind (r : Req) (s : State) : Host.Outcome State Fault Refusal :=
  coreCmd (fun s => request s (reqRq r 0x12)) s

/-- DESCRIBE (R105). -/
def execDescribe (r : Req) (s : State) : Host.Outcome State Fault Refusal :=
  coreCmd (fun s => request s (reqRq r 0x20)) s

/-- UNKNOWN_SERVICE (R105). -/
def execUnknownService (svc : Byte) (r : Req) (s : State) : Host.Outcome State Fault Refusal :=
  coreCmd (fun s => if services.contains svc.toNat then s else request s (reqRq r svc.toNat)) s

end Sys2Proof.Machine
end

