-- ==== Sys2Proof/Machine/Cells.lean ====
section
/-! DEFINITION. The events of the applet cells: one meaning for each command. -/

namespace Sys2Proof.Machine

/-- RNG_DATA_READ (R386). -/
def execRngDataRead (c : Fin 32) (s : State) : Host.Outcome State Fault Refusal :=
  coreCmd (fun s => rngRead s c) s

/-- RNG_DATA_STALL_TIMEOUT (R386). -/
def execRngDataStallTimeout (c : Fin 32) (s : State) : Host.Outcome State Fault Refusal :=
  coreCmd (fun s => rngTimeout s c) s

/-- CELL_LOAD_COMPLETE (R428): the cell becomes RUNNING in an internal admission (R431, log 121). -/
def execCellLoadComplete (c : Fin 32) (s : State) : Host.Outcome State Fault Refusal :=
  coreCmd (fun s => Intern.loadAdmission s c.val) s

/-- QUANTUM_EXPIRY (R429). -/
def execQuantumExpiry (s : State) : Host.Outcome State Fault Refusal :=
  coreCmd (fun s => quantumEnd s) s

/-- BUDGET_FAULT (R430). -/
def execBudgetFault (c : Fin 32) (s : State) : Host.Outcome State Fault Refusal :=
  coreCmd (fun s => budgetEnd s c) s

/-- FAULT_ADMISSION (R434). -/
def execFaultAdmission (c : Fin 32) (s : State) : Host.Outcome State Fault Refusal :=
  coreCmd (fun s => Intern.faultAdmission s c.val) s

/-- ILLEGAL_INSTRUCTION (R424). -/
def execIllegalInstruction (c : Fin 32) (s : State) : Host.Outcome State Fault Refusal :=
  coreCmd (fun s => illegalAt s c) s

end Sys2Proof.Machine
end

