-- ==== Sys2Proof/Machine/Entropy.lean ====
section
/-! DEFINITION. The entropy source and the tillers: one meaning for each command. -/

namespace Sys2Proof.Machine

/-- CONDITIONED_BLOCK (R370). -/
def execConditionedBlock (raw : BitVec 512) (s : State) : Host.Outcome State Fault Refusal :=
  coreCmd (fun s => Bt.wakeEnds (Intern.conditioned s raw)) s

/-- TILLER_INSTANTIATE (R380). -/
def execTillerInstantiate (t : Fin 64) (s : State) : Host.Outcome State Fault Refusal :=
  coreCmd (fun s => Bt.wakeEnds (Intern.instantiate s t.val)) s

/-- TILLER_RESEED (R374). -/
def execTillerReseed (t : Fin 64) (s : State) : Host.Outcome State Fault Refusal :=
  coreCmd (fun s => Intern.reseed s t.val) s

/-- TILLER_REFILL (R377). -/
def execTillerRefill (t : Fin 64) (s : State) : Host.Outcome State Fault Refusal :=
  coreCmd (fun s => Intern.refill s t.val) s

/-- BALANCE_WINDOW (R367). -/
def execBalanceWindow (f : Fin 4) (ones : Nat) (s : State) : Host.Outcome State Fault Refusal :=
  coreCmd (fun s => Bt.wakeEnds (Intern.balance s f.val ones)) s

/-- ENTROPY_FAILURE (R388). -/
def execEntropyFailure (cause : EntropyTest) (f : Fin 4) (s : State) : Host.Outcome State Fault Refusal :=
  coreCmd (fun s => Bt.wakeEnds (Intern.entropyFailure s (Intern.testBits cause f.val))) s

/-- ENTROPY_FAILURE_ADMISSION (R388). -/
def execEntropyFailureAdmission (s : State) : Host.Outcome State Fault Refusal :=
  coreCmd (fun s => Intern.entropyAdmission s) s

end Sys2Proof.Machine
end

