-- ==== Sys2Proof/Machine/FieldNet.lean ====
section
/-! DEFINITION. VGUARD and the field networks: one meaning for each command. -/

namespace Sys2Proof.Machine

/-- VGUARD_UNDERVOLTAGE (R39). -/
def execVguardUndervoltage (reading : BitVec 20) (s : State) : Host.Outcome State Fault Refusal :=
  vguardCmd (fun f => Fld.undervoltage f reading) s

/-- VGUARD_RECOVERY (R42). -/
def execVguardRecovery (reading : BitVec 20) (s : State) : Host.Outcome State Fault Refusal :=
  vguardCmd (fun f => Fld.recovery f reading) s

/-- CAN_SINGLE (R147). -/
def execCanSingle (can : Fin 4) (node : Nat) (data : Bytes) (s : State) : Host.Outcome State Fault Refusal :=
  fieldCmd (fun f => Fld.canBdpIn f can.val node data) s

/-- CAN_FIRST (R147). -/
def execCanFirst (can : Fin 4) (node : Nat) (data : Bytes) (s : State) : Host.Outcome State Fault Refusal :=
  fieldCmd (fun f => Fld.canBdpIn f can.val node data) s

/-- CAN_CONSECUTIVE (R147). -/
def execCanConsecutive (can : Fin 4) (node : Nat) (data : Bytes) (s : State) : Host.Outcome State Fault Refusal :=
  fieldCmd (fun f => Fld.canBdpIn f can.val node data) s

/-- CAN_CHANNEL_FRAME (R221). -/
def execCanChannelFrame (can : Fin 4) (node : Nat) (data : Bytes) (s : State) : Host.Outcome State Fault Refusal :=
  fieldCmd (fun f => Fld.canFrameIn f can.val node data) s

/-- REASSEMBLY_TIMEOUT (R149). -/
def execReassemblyTimeout (can : Fin 4) (node : Nat) (s : State) : Host.Outcome State Fault Refusal :=
  fieldCmd (fun f => Fld.reasmTimeout f can.val node) s

/-- BUS_OFF_AUTO_RECOVERY (R145). -/
def execBusOffAutoRecovery (can : Fin 4) (s : State) : Host.Outcome State Fault Refusal :=
  fieldCmd (fun f => Fld.recovered f can.val) s

/-- ETH_BDP_FRAME (R151). -/
def execEthBdpFrame (port : Fin 3) (frame : Bytes) (s : State) : Host.Outcome State Fault Refusal :=
  fieldCmd (fun f => Fld.ethIn f (4 + port.val) frame) s

/-- ETH_CHANNEL_FRAME (R151). -/
def execEthChannelFrame (port : Fin 3) (frame : Bytes) (s : State) : Host.Outcome State Fault Refusal :=
  fieldCmd (fun f => Fld.ethIn f (4 + port.val) frame) s

end Sys2Proof.Machine
end

