-- ==== Sys2Proof/Machine/HostLink.lean ====
section
/-! DEFINITION. The host-link frames: one meaning for each command. -/

namespace Sys2Proof.Machine

/-- SEND (R135). -/
def execSend (frame : Bytes) (whole : Bool) (s : State) : Host.Outcome State Fault Refusal :=
  coreCmd (fun s => Hl.send s frame whole) s

/-- FETCH (R139). -/
def execFetch (clocked : Nat) (s : State) : Host.Outcome State Fault Refusal :=
  coreCmd (fun s => Hl.fetch s clocked) s

/-- REFETCH (R139). -/
def execRefetch (clocked : Nat) (s : State) : Host.Outcome State Fault Refusal :=
  coreCmd (fun s => Hl.refetch s clocked) s

/-- STATUS (R141). -/
def execStatus (s : State) : Host.Outcome State Fault Refusal :=
  coreCmd (fun s => Hl.status s) s

/-- CLEAR (R141). -/
def execClear (frame : Bytes) (whole : Bool) (s : State) : Host.Outcome State Fault Refusal :=
  coreCmd (fun s => Hl.clear s frame whole) s

/-- UNKNOWN_OPCODE_FRAME (R134). -/
def execUnknownOpcodeFrame (opcode : Byte) (s : State) : Host.Outcome State Fault Refusal :=
  coreCmd (fun s => Hl.unknown s opcode) s

end Sys2Proof.Machine
end

