-- ==== Sys2Proof/Machine/KeyCmds.lean ====
section
/-! DEFINITION. Commands written to the stream, PLE, key and ownership objects: one meaning for each command. -/

namespace Sys2Proof.Machine

/-- BEGIN (R272). -/
def execBeginStream (h : Hdr) (slot : Fin 16) (value : Bytes) (s : State) : Host.Outcome State Fault Refusal :=
  coreCmd (fun s => request s (rqWrite h (0xCF00 + slot.val) 2 value)) s

/-- STREAM_INPUT (R274). -/
def execStreamInput (h : Hdr) (slot : Fin 16) (g : Seg) (s : State) : Host.Outcome State Fault Refusal :=
  coreCmd (fun s => request s (rqSeg h (0xCF00 + slot.val) 3 g)) s

/-- END_OF_DATA (R277). -/
def execEndOfData (h : Hdr) (slot : Fin 16) (s : State) : Host.Outcome State Fault Refusal :=
  coreCmd (fun s => request s (rqWrite h (0xCF00 + slot.val) 0x0A [1])) s

/-- PARK (R279). -/
def execPark (h : Hdr) (slot : Fin 16) (s : State) : Host.Outcome State Fault Refusal :=
  coreCmd (fun s => request s (rqWrite h (0xCF00 + slot.val) 0x0B [1])) s

/-- UNPARK (R279). -/
def execUnpark (h : Hdr) (slot : Fin 16) (g : Seg) (s : State) : Host.Outcome State Fault Refusal :=
  coreCmd (fun s => request s (rqSeg h (0xCF00 + slot.val) 0x0C g)) s

/-- SLOT_RELEASE (R278). -/
def execSlotRelease (h : Hdr) (slot : Fin 16) (s : State) : Host.Outcome State Fault Refusal :=
  coreCmd (fun s => request s (rqWrite h (0xCF00 + slot.val) 0x0D [1])) s

/-- PLE_INPUT (R305). -/
def execPleInput (h : Hdr) (slot : Fin 8) (g : Seg) (s : State) : Host.Outcome State Fault Refusal :=
  coreCmd (fun s => request s (rqSeg h (0xCF30 + slot.val) 2 g)) s

/-- RUN (R308). -/
def execPleSlotRun (h : Hdr) (slot : Fin 8) (s : State) : Host.Outcome State Fault Refusal :=
  coreCmd (fun s => request s (rqWrite h (0xCF30 + slot.val) 3 [1])) s

/-- PLE_SLOT_RELEASE (R304). -/
def execPleSlotRelease (h : Hdr) (slot : Fin 8) (s : State) : Host.Outcome State Fault Refusal :=
  coreCmd (fun s => request s (rqWrite h (0xCF30 + slot.val) 9 [1])) s

/-- CREATE (R345). -/
def execCreateNode (h : Hdr) (g : Seg) (s : State) : Host.Outcome State Fault Refusal :=
  coreCmd (fun s => request s (rqSeg h 0xCA00 1 g)) s

/-- REMOVE_NODE (R347). -/
def execRemoveNode (h : Hdr) (handle : Word) (s : State) : Host.Outcome State Fault Refusal :=
  coreCmd (fun s => request s (rqWrite h 0xCA00 3 (leBytes 4 handle.toNat))) s

/-- BUMP (R348). -/
def execBump (h : Hdr) (handle : Word) (target : Word) (s : State) : Host.Outcome State Fault Refusal :=
  coreCmd (fun s => request s (rqWrite h 0xCA00 4 (leBytes 4 handle.toNat ++ leBytes 4 target.toNat))) s

/-- EXPORT (R352). -/
def execExportKey (h : Hdr) (source : Word) (secret : Word) (s : State) : Host.Outcome State Fault Refusal :=
  coreCmd (fun s => request s (rqWrite h 0xCA00 5 (leBytes 4 source.toNat ++ leBytes 4 secret.toNat))) s

/-- TAKE_OWNERSHIP (R356). -/
def execTakeOwnership (h : Hdr) (g : Seg) (s : State) : Host.Outcome State Fault Refusal :=
  coreCmd (fun s => request s (rqSeg h 0xCA20 1 g)) s

/-- RECOVER_OWNER (R356). -/
def execRecoverOwner (h : Hdr) (g : Seg) (s : State) : Host.Outcome State Fault Refusal :=
  coreCmd (fun s => request s (rqSeg h 0xCA20 7 g)) s

/-- PAIR_SECRET (R357). -/
def execPairSecret (h : Hdr) (g : Seg) (s : State) : Host.Outcome State Fault Refusal :=
  coreCmd (fun s => request s (rqSeg h 0xCA20 3 g)) s

/-- PAIR_SECRET_CLEAR (R357). -/
def execPairSecretClear (h : Hdr) (s : State) : Host.Outcome State Fault Refusal :=
  coreCmd (fun s => request s (rqWrite h 0xCA20 4 [1])) s

/-- RETIRE (R359). -/
def execRetire (h : Hdr) (s : State) : Host.Outcome State Fault Refusal :=
  coreCmd (fun s => request s (rqWrite h 0xCA20 5 retireWord)) s

/-- SERVICE_RETIRE (R359). -/
def execServiceRetire (h : Hdr) (s : State) : Host.Outcome State Fault Refusal :=
  coreCmd (fun s => request s (rqWrite h 0xCA20 8 retireWord)) s

/-- RETIRE_FUSE_BLOW (R359). -/
def execRetireFuseBlow (s : State) : Host.Outcome State Fault Refusal :=
  otpCmd (fun s => Bt.fuseBlow s) s

end Sys2Proof.Machine
end

