-- ==== Sys2Proof/Machine/LateEvents.lean ====
section
/-! DEFINITION. Battery loss, network and wave events, caches and masks: one meaning for each command. -/

namespace Sys2Proof.Machine

/-- VBAT_LOSS (R45). -/
def execVbatLoss (s : State) : Host.Outcome State Fault Refusal :=
  coreCmd (fun s => Mon.vbatLoss s) s

/-- NET_STATE_CHANGE (R171). -/
def execNetStateChange (port : Fin 7) (state : Byte) (tec : Byte) (recv : Byte) (s : State) : Host.Outcome State Fault Refusal :=
  fieldCmd (fun f => Fld.netState f port.val state.toNat tec.toNat recv.toNat) s

/-- PERMIT_OUT_HALF_PERIOD (R464). -/
def execPermitOutHalfPeriod (s : State) : Host.Outcome State Fault Refusal :=
  fieldCmd Fld.halfPeriod s

/-- JOIN_TIMEOUT (R534). -/
def execJoinTimeout (s : State) : Host.Outcome State Fault Refusal :=
  coreCmd (fun s => Shf.joinTimeout s) s

/-- CACHE_FILL (R262). -/
def execCacheFill (node : BitVec 16) (s : State) : Host.Outcome State Fault Refusal :=
  coreCmd (fun s => Intern.cacheFill s node.toNat) s

/-- MASK_RESERVE_REFILL (R252). -/
def execMaskReserveRefill (lane : Fin 2) (t : Fin 12) (s : State) : Host.Outcome State Fault Refusal :=
  coreCmd (fun s => Intern.maskRefill s lane.val t.val) s

end Sys2Proof.Machine
end

