-- ==== Sys2Proof/Machine/ModeCmds.lean ====
section
/-! DEFINITION. Commands written to the tamper, mode, Sheaf and performance objects: one meaning for each command. -/

namespace Sys2Proof.Machine

/-- OWNER_ACKNOWLEDGE (R492). -/
def execOwnerAcknowledge (h : Hdr) (x : BitVec 64) (s : State) : Host.Outcome State Fault Refusal :=
  coreCmd (fun s => request s (rqWrite h 0xD801 1 (leBytes 8 x.toNat))) s

/-- SERVICE_ACKNOWLEDGE (R492). -/
def execServiceAcknowledge (h : Hdr) (x : BitVec 64) (s : State) : Host.Outcome State Fault Refusal :=
  coreCmd (fun s => request s (rqWrite h 0xD801 2 (leBytes 8 x.toNat))) s

/-- CALDERA_LEAVE (R501). -/
def execCalderaLeave (h : Hdr) (s : State) : Host.Outcome State Fault Refusal :=
  coreCmd (fun s => request s (rqWrite h 0xD802 4 [1])) s

/-- SENSOR_CONFIG_WRITE (R482). -/
def execSensorConfigWrite (h : Hdr) (k : Byte) (sub : Byte) (value : Bytes) (s : State) : Host.Outcome State Fault Refusal :=
  coreCmd (fun s => request s (rqWrite h (0xDA00 + k.toNat) sub.toNat value)) s

/-- SERVICE_SET (R504). -/
def execServiceSet (h : Hdr) (s : State) : Host.Outcome State Fault Refusal :=
  coreCmd (fun s => request s (rqWrite h 0x2000 3 [1])) s

/-- SERVICE_CLEAR (R504). -/
def execServiceClear (h : Hdr) (s : State) : Host.Outcome State Fault Refusal :=
  coreCmd (fun s => request s (rqWrite h 0x2000 3 [0])) s

/-- ISLAND_SET (R504). -/
def execIslandSet (h : Hdr) (s : State) : Host.Outcome State Fault Refusal :=
  coreCmd (fun s => request s (rqWrite h 0x2000 4 [1])) s

/-- ISLAND_CLEAR (R504). -/
def execIslandClear (h : Hdr) (s : State) : Host.Outcome State Fault Refusal :=
  coreCmd (fun s => request s (rqWrite h 0x2000 4 [0])) s

/-- VIGIL_SET (R483). -/
def execVigilSet (h : Hdr) (s : State) : Host.Outcome State Fault Refusal :=
  coreCmd (fun s => request s (rqWrite h 0x2000 5 [1])) s

/-- VIGIL_CLEAR (R483). -/
def execVigilClear (h : Hdr) (s : State) : Host.Outcome State Fault Refusal :=
  coreCmd (fun s => request s (rqWrite h 0x2000 5 [0])) s

/-- AUDIT_SET (R201). -/
def execAuditSet (h : Hdr) (s : State) : Host.Outcome State Fault Refusal :=
  coreCmd (fun s => request s (rqWrite h 0x2000 6 [1])) s

/-- AUDIT_CLEAR (R504). -/
def execAuditClear (h : Hdr) (s : State) : Host.Outcome State Fault Refusal :=
  coreCmd (fun s => request s (rqWrite h 0x2000 6 [0])) s

/-- PROVISION_SET (R506). -/
def execProvisionSet (h : Hdr) (s : State) : Host.Outcome State Fault Refusal :=
  coreCmd (fun s => request s (rqWrite h 0x2000 7 [1])) s

/-- PROVISION_CLEAR (R504). -/
def execProvisionClear (h : Hdr) (s : State) : Host.Outcome State Fault Refusal :=
  coreCmd (fun s => request s (rqWrite h 0x2000 7 [0])) s

/-- SERVICE_ALLOWED_WRITE (R504). -/
def execServiceAllowedWrite (h : Hdr) (value : Byte) (s : State) : Host.Outcome State Fault Refusal :=
  coreCmd (fun s => request s (rqWrite h 0x2000 8 [value])) s

/-- PROVISION_LAPSE_WRITE (R506). -/
def execProvisionLapseWrite (h : Hdr) (seconds : Word) (s : State) : Host.Outcome State Fault Refusal :=
  coreCmd (fun s => request s (rqWrite h 0x2000 9 (leBytes 4 seconds.toNat))) s

/-- JOIN (R533). -/
def execJoin (h : Hdr) (s : State) : Host.Outcome State Fault Refusal :=
  coreCmd (fun s => request s (rqWrite h 0xF000 4 [1])) s

/-- JOIN_FULL_COPY (R535). -/
def execJoinFullCopy (h : Hdr) (s : State) : Host.Outcome State Fault Refusal :=
  coreCmd (fun s => request s (rqWrite h 0xF000 4 [2])) s

/-- SHEAF_LEAVE (R553). -/
def execSheafLeave (h : Hdr) (s : State) : Host.Outcome State Fault Refusal :=
  coreCmd (fun s => request s (rqWrite h 0xF000 5 [1])) s

/-- RESET_PARTNER (R554). -/
def execResetPartner (h : Hdr) (s : State) : Host.Outcome State Fault Refusal :=
  coreCmd (fun s => request s (rqWrite h 0xF000 6 [1])) s

/-- CONCUR (R549). -/
def execConcur (h : Hdr) (value : Bytes) (s : State) : Host.Outcome State Fault Refusal :=
  coreCmd (fun s => request s (rqWrite h 0xF000 0x0E value)) s

/-- COUNTER_CONTROL_WRITE (R560). -/
def execCounterControlWrite (h : Hdr) (b : Fin 14) (value : Word) (s : State) : Host.Outcome State Fault Refusal :=
  coreCmd (fun s => request s (rqWrite h (0xE000 + b.val) 0x0D (leBytes 4 value.toNat))) s

/-- COUNTER_CLEAR (R559). -/
def execCounterClear (h : Hdr) (b : Fin 14) (mask : Word) (s : State) : Host.Outcome State Fault Refusal :=
  coreCmd (fun s => request s (rqWrite h (0xE000 + b.val) 0x0F (leBytes 4 mask.toNat))) s

/-- SNAPSHOT (R562). -/
def execSnapshot (h : Hdr) (s : State) : Host.Outcome State Fault Refusal :=
  coreCmd (fun s => request s (hdrRq h 3 0xE100 1 [])) s

/-- TAGGING_ENABLE (R566). -/
def execTaggingEnable (h : Hdr) (value : Byte) (s : State) : Host.Outcome State Fault Refusal :=
  coreCmd (fun s => request s (rqWrite h 0xE200 1 [value])) s

end Sys2Proof.Machine
end

