-- ==== Sys2Proof/Machine/Monitors.lean ====
section
/-! DEFINITION. Tamper monitors and the Sinter schedule: one meaning for each command. -/

namespace Sys2Proof.Machine

/-- SENSOR_EVENT (R479). -/
def execSensorEvent (code : Byte) (reading : BitVec 20) (s : State) : Host.Outcome State Fault Refusal :=
  coreCmd (fun s => Mon.sensor s code.toNat reading) s

/-- TAMPER_LATCH_COMMIT (R487). -/
def execTamperLatchCommit (s : State) : Host.Outcome State Fault Refusal :=
  coreCmd (fun s => Mon.latchCommit s) s

/-- SENSOR_WINDOW_EXPIRY (R479). -/
def execSensorWindowExpiry (code : Byte) (s : State) : Host.Outcome State Fault Refusal :=
  coreCmd (fun s => Mon.windowExpiry s code.toNat) s

/-- SUPPLY_WINDOW_HOLD (R476). -/
def execSupplyWindowHold (code : Byte) (s : State) : Host.Outcome State Fault Refusal :=
  coreCmd (fun s => Mon.supplyHold s code.toNat) s

/-- LID_MESH_COMPARE (R477). -/
def execLidMeshCompare (sensed : BitVec 16) (s : State) : Host.Outcome State Fault Refusal :=
  coreCmd (fun s => Mon.lidMesh s sensed) s

/-- ENCLOSURE_MESH_COMPARE (R478). -/
def execEnclosureMeshCompare (m : Fin 4) (sensed : BitVec 16) (s : State) : Host.Outcome State Fault Refusal :=
  coreCmd (fun s => Mon.mesh s m.val sensed) s

/-- CLOCK_WINDOW_CHECK (R72). -/
def execClockWindowCheck (row : Fin 5) (count : Nat) (s : State) : Host.Outcome State Fault Refusal :=
  coreCmd (fun s => Mon.clockWindow s row.val count) s

/-- TAMPER_ADMISSION (R485). -/
def execTamperAdmission (s : State) : Host.Outcome State Fault Refusal :=
  coreCmd (fun s => Intern.tamperAdmission s) s

/-- SINTER_MESH_CHECK (R493). -/
def execSinterMeshCheck (lid : BitVec 16) (m0 : BitVec 16) (m1 : BitVec 16) (m2 : BitVec 16) (m3 : BitVec 16) (s : State) : Host.Outcome State Fault Refusal :=
  coreCmd (fun s => Mon.sinterMeshes s [lid, m0, m1, m2, m3]) s

/-- SINTER_LIGHT_CHECK (R493). -/
def execSinterLightCheck (reading : BitVec 20) (s : State) : Host.Outcome State Fault Refusal :=
  coreCmd (fun s => Mon.sinterLight s reading) s

/-- SINTER_TEMP_CHECK (R493). -/
def execSinterTempCheck (reading : BitVec 20) (s : State) : Host.Outcome State Fault Refusal :=
  coreCmd (fun s => Mon.sinterTemp s reading) s

end Sys2Proof.Machine
end

