-- ==== Sys2Proof/Machine/Pair.lean ====
section
/-! DEFINITION. The Sheaf pair: one meaning for each command. -/

namespace Sys2Proof.Machine

/-- SHEAF_FRAME_RECEIVE (R528). -/
def execSheafFrameReceive (frame : Under Bytes) (s : State) : Host.Outcome State Fault Refusal :=
  coreCmd (fun s => Shf.receive s frame.op frame.phys) s

/-- SHEAF_RESEND (R528). -/
def execSheafResend (s : State) : Host.Outcome State Fault Refusal :=
  coreCmd (fun s => Shf.resend s) s

/-- SHEAF_IDLE (R528). -/
def execSheafIdle (s : State) : Host.Outcome State Fault Refusal :=
  coreCmd (fun s => Shf.idle s) s

/-- SHEAF_LINK_LOSS (R528). -/
def execSheafLinkLoss (cause : LinkLossCause) (s : State) : Host.Outcome State Fault Refusal :=
  coreCmd (fun s => Shf.linkLost s cause) s

/-- SHEAF_DEADLINE (R546). -/
def execSheafDeadline (adm : Nat) (s : State) : Host.Outcome State Fault Refusal :=
  coreCmd (fun s => Shf.deadline s adm) s

/-- SHEAF_HELLO (R532). -/
def execSheafHello (m : JoinHello) (s : State) : Host.Outcome State Fault Refusal :=
  coreCmd (fun s => Shf.hello s m) s

/-- PROOF (R532). -/
def execSheafProof (proof : Under Bytes) (s : State) : Host.Outcome State Fault Refusal :=
  coreCmd (fun s => Shf.proofIn s proof.op proof.phys) s

/-- ADMIT (R539). -/
def execSheafAdmit (m : AdmitMsg) (s : State) : Host.Outcome State Fault Refusal :=
  coreCmd (fun s => Shf.admitIn s m) s

/-- REQUEST (R539). -/
def execSheafRequest (origin : Nat) (kind : Byte) (payload : Bytes) (s : State) : Host.Outcome State Fault Refusal :=
  coreCmd (fun s => Shf.requestIn' s origin kind.toNat payload) s

/-- REFUSAL (R539). -/
def execSheafRefusal (origin : Nat) (code : Word) (header : Bytes) (s : State) : Host.Outcome State Fault Refusal :=
  coreCmd (fun s => Shf.refusal s origin code.toNat header) s

/-- DIGEST (R547). -/
def execSheafDigest (adm : Nat) (digest : Bytes) (s : State) : Host.Outcome State Fault Refusal :=
  coreCmd (fun s => Shf.digest s adm digest) s

/-- COMMIT_ACK (R545). -/
def execCommitAck (adm : Nat) (code : Word) (s : State) : Host.Outcome State Fault Refusal :=
  coreCmd (fun s => Shf.ack s adm code.toNat) s

/-- VERDICT (R541). -/
def execVerdict (m : VerdictMsg) (s : State) : Host.Outcome State Fault Refusal :=
  coreCmd (fun s => Shf.verdict s m) s

/-- READ_RELAY (R544). -/
def execReadRelay (origin : Nat) (request : Bytes) (s : State) : Host.Outcome State Fault Refusal :=
  coreCmd (fun s => Shf.readRelay s origin request) s

/-- READ_RESULT (R544). -/
def execReadResult (origin : Nat) (response : Bytes) (s : State) : Host.Outcome State Fault Refusal :=
  coreCmd (fun s => Shf.readResult s origin response) s

/-- SYNC (R536). -/
def execSync (kind : Byte) (item : Nat) (stamp : Nat) (value : Bytes) (s : State) : Host.Outcome State Fault Refusal :=
  coreCmd (fun s => Shf.sync s kind.toNat item stamp value) s

/-- SYNC_END (R536). -/
def execSyncEnd (pass : Byte) (items : Nat) (s : State) : Host.Outcome State Fault Refusal :=
  coreCmd (fun s => Shf.syncEnd s pass.toNat items) s

/-- TRANSFER_PASS (R536). -/
def execTransferPass (s : State) : Host.Outcome State Fault Refusal :=
  coreCmd (fun s => Shf.transferPass s) s

/-- CUT_OVER (R538). -/
def execCutOver (s : State) : Host.Outcome State Fault Refusal :=
  coreCmd (fun s => Shf.cutOver s) s

/-- AUTO_JOIN (R533). -/
def execAutoJoin (s : State) : Host.Outcome State Fault Refusal :=
  coreCmd (fun s => Shf.autoJoin s) s

/-- PARTITION_ADMISSION (R550). -/
def execPartitionAdmission (s : State) : Host.Outcome State Fault Refusal :=
  coreCmd (fun s => Shf.partition s) s

/-- SUSPENSION_ADMISSION (R548). -/
def execSuspensionAdmission (s : State) : Host.Outcome State Fault Refusal :=
  coreCmd (fun s => Shf.suspension s) s

end Sys2Proof.Machine
end

