-- ==== Sys2Proof/Machine/Power.lean ====
section
/-! DEFINITION. Power states: one meaning for each command. -/

namespace Sys2Proof.Machine

/-- POWER_STATE_CHOICE (R517). -/
def execPowerStateChoice (s : State) : Host.Outcome State Fault Refusal :=
  coreCmd (fun s => choosePower s) s

/-- SCHEDULED_WAKE (R517). -/
def execScheduledWake (s : State) : Host.Outcome State Fault Refusal :=
  coreCmd (fun s => Bt.scheduledWake s) s

/-- WAKE_REQUEST (R520). -/
def execWakeRequest (s : State) : Host.Outcome State Fault Refusal :=
  coreCmd (fun s => wake s) s

/-- HIBERNATE_HELLO_TIMER (R522). -/
def execHibernateHelloTimer (s : State) : Host.Outcome State Fault Refusal :=
  coreCmd (fun s => Bt.hibernateHello s) s

/-- HIBERNATE_WAKE (R523). -/
def execHibernateWake (readable : Bool) (s : State) : Host.Outcome State Fault Refusal :=
  coreCmd (fun s => Bt.hibernateWake s readable) s

end Sys2Proof.Machine
end

