-- ==== Sys2Proof/Machine/Reports.lean ====
section
/-! DEFINITION. The reports of the field die, its periods and its guard events: one meaning for each command. -/

namespace Sys2Proof.Machine

/-- FIELD_REPORT (R458). -/
def execFieldReport (p : FieldReport) (s : State) : Host.Outcome State Fault Refusal :=
  coreCmd (fun s => Intern.report s (.fieldReport p) fun t => fieldReportOp t p) s

/-- INPUT_EVENT (R469). -/
def execInputEvent (entries : List InputEntry) (s : State) : Host.Outcome State Fault Refusal :=
  coreCmd (fun s => Intern.report s (.inputEvent entries) fun t => inputEventOp t entries) s

/-- OUTPUT_SENSE (R461). -/
def execOutputSense (current : List (BitVec 20)) (s : State) : Host.Outcome State Fault Refusal :=
  coreCmd (fun s => Intern.report s (.outputSense (current.map BitVec.toNat)) fun t => outputSenseOp t current) s

/-- ANALOG_SENSE (R472). -/
def execAnalogSense (reading : List (BitVec 20)) (ovr : Byte) (s : State) : Host.Outcome State Fault Refusal :=
  coreCmd (fun s => Intern.report s (.analogSense (reading.map BitVec.toNat) ovr.toNat) fun t => analogSenseOp t reading ovr.toNat) s

/-- NET_STATUS (R171). -/
def execNetStatus (p : NetStatus) (s : State) : Host.Outcome State Fault Refusal :=
  coreCmd (fun s => Intern.report s (.netStatus p) fun t => netStatusOp t p) s

/-- FIELD_REPORT_PERIOD (R171). -/
def execFieldReportPeriod (s : State) : Host.Outcome State Fault Refusal :=
  fieldCmd Fld.reportPeriod s

/-- OUTPUT_SENSE_PERIOD (R455). -/
def execOutputSensePeriod (current : List (BitVec 20)) (s : State) : Host.Outcome State Fault Refusal :=
  fieldCmd (fun f => Fld.sensePeriod f current) s

/-- ANALOG_REPORT_PERIOD (R455). -/
def execAnalogReportPeriod (samples : List (List Int)) (calibration : Option Nat) (s : State) : Host.Outcome State Fault Refusal :=
  fieldCmd (fun f => Fld.analogPeriod f samples calibration) s

/-- NET_STATUS_PERIOD (R171). -/
def execNetStatusPeriod (s : State) : Host.Outcome State Fault Refusal :=
  fieldCmd Fld.netPeriod s

/-- GUARD_INPUT_SAMPLE (R467). -/
def execGuardInputSample (levels : BitVec 16) (s : State) : Host.Outcome State Fault Refusal :=
  fieldCmd (fun f => Fld.sampleAll f levels) s

/-- EVENT_WINDOW_CLOSE (R467). -/
def execEventWindowClose (n : Fin 16) (s : State) : Host.Outcome State Fault Refusal :=
  fieldCmd (fun f => Fld.sendEvents (Fld.closeWindow f n)) s

/-- STUCK_TIME_EXPIRY (R468). -/
def execStuckTimeExpiry (n : Fin 16) (s : State) : Host.Outcome State Fault Refusal :=
  fieldCmd (fun f => Fld.sendEvents (Fld.stuckTime f n)) s

/-- PULSE_EXPIRY (R459). -/
def execPulseExpiry (n : Fin 8) (s : State) : Host.Outcome State Fault Refusal :=
  fieldCmd (fun f => Fld.endPulse f n.val) s

/-- OUTPUT_TRIP (R460). -/
def execOutputTrip (n : Fin 8) (s : State) : Host.Outcome State Fault Refusal :=
  fieldCmd (fun f => Fld.trip f n.val) s

/-- RETRY_INTERVAL_EXPIRY (R460). -/
def execRetryIntervalExpiry (n : Fin 8) (s : State) : Host.Outcome State Fault Refusal :=
  fieldCmd (fun f => Fld.retry f n.val) s

/-- FAULT_CLEAR_TIMER (R460). -/
def execFaultClearTimer (n : Fin 8) (s : State) : Host.Outcome State Fault Refusal :=
  fieldCmd (fun f => Fld.clearFault f n.val) s

/-- PERMIT_TOGGLE_ABSENT (R463). -/
def execPermitToggleAbsent (s : State) : Host.Outcome State Fault Refusal :=
  fieldCmd Fld.toggleGone s

/-- PERMIT_TOGGLE_LIVE (R177). -/
def execPermitToggleLive (s : State) : Host.Outcome State Fault Refusal :=
  fieldCmd (fun f => if s.boot.toggle then Fld.toggleBack f else f) s

/-- TOGGLE_RECORD_ADMISSION (R457). -/
def execToggleRecordAdmission (s : State) : Host.Outcome State Fault Refusal :=
  coreCmd (fun s => Intern.toggleRecord s) s

end Sys2Proof.Machine
end

