-- ==== Sys2Proof/Machine/RvBase.lean ====
section
/-! DEFINITION. The instructions of RV32I and M: one meaning for each command. -/

namespace Sys2Proof.Machine

/-- LUI (R424). -/
def execLui (c : Fin 32) (rd : Fin 32) (imm : BitVec 20) (s : State) : Host.Outcome State Fault Refusal :=
  coreCmd (fun s => rvStep s c (.lui c rd imm) 1 (rvSet 4 rd fun _ => zext imm <<< 12)) s

/-- AUIPC (R424). -/
def execAuipc (c : Fin 32) (rd : Fin 32) (imm : BitVec 20) (s : State) : Host.Outcome State Fault Refusal :=
  coreCmd (fun s => rvStep s c (.auipc c rd imm) 1 (rvSet 4 rd fun x => x.pc + zext imm <<< 12)) s

/-- JAL (R424). -/
def execJal (c : Fin 32) (rd : Fin 32) (off : BitVec 21) (s : State) : Host.Outcome State Fault Refusal :=
  coreCmd (fun s => rvStep s c (.jal c rd off) 2 (rvJump 4 rd fun x => x.pc + sext off)) s

/-- JALR (R424). -/
def execJalr (c : Fin 32) (rd : Fin 32) (rs1 : Fin 32) (imm : BitVec 12) (s : State) : Host.Outcome State Fault Refusal :=
  coreCmd (fun s => rvStep s c (.jalr c rd rs1 imm) 2 (rvJump 4 rd fun x => (reg x rs1 + sext imm) &&& 0xFFFFFFFE#32)) s

/-- BEQ (R424). -/
def execBeq (c : Fin 32) (rs1 : Fin 32) (rs2 : Fin 32) (off : BitVec 13) (s : State) : Host.Outcome State Fault Refusal :=
  coreCmd (fun s => rvStep s c (.beq c rs1 rs2 off) 2 (rvBranch 4 (fun x => decide (reg x rs1 = reg x rs2)) (sext off))) s

/-- BNE (R424). -/
def execBne (c : Fin 32) (rs1 : Fin 32) (rs2 : Fin 32) (off : BitVec 13) (s : State) : Host.Outcome State Fault Refusal :=
  coreCmd (fun s => rvStep s c (.bne c rs1 rs2 off) 2 (rvBranch 4 (fun x => decide (reg x rs1 ≠ reg x rs2)) (sext off))) s

/-- BLT (R424). -/
def execBlt (c : Fin 32) (rs1 : Fin 32) (rs2 : Fin 32) (off : BitVec 13) (s : State) : Host.Outcome State Fault Refusal :=
  coreCmd (fun s => rvStep s c (.blt c rs1 rs2 off) 2 (rvBranch 4 (fun x => (reg x rs1).slt (reg x rs2)) (sext off))) s

/-- BGE (R424). -/
def execBge (c : Fin 32) (rs1 : Fin 32) (rs2 : Fin 32) (off : BitVec 13) (s : State) : Host.Outcome State Fault Refusal :=
  coreCmd (fun s => rvStep s c (.bge c rs1 rs2 off) 2 (rvBranch 4 (fun x => !(reg x rs1).slt (reg x rs2)) (sext off))) s

/-- BLTU (R424). -/
def execBltu (c : Fin 32) (rs1 : Fin 32) (rs2 : Fin 32) (off : BitVec 13) (s : State) : Host.Outcome State Fault Refusal :=
  coreCmd (fun s => rvStep s c (.bltu c rs1 rs2 off) 2 (rvBranch 4 (fun x => (reg x rs1).ult (reg x rs2)) (sext off))) s

/-- BGEU (R424). -/
def execBgeu (c : Fin 32) (rs1 : Fin 32) (rs2 : Fin 32) (off : BitVec 13) (s : State) : Host.Outcome State Fault Refusal :=
  coreCmd (fun s => rvStep s c (.bgeu c rs1 rs2 off) 2 (rvBranch 4 (fun x => !(reg x rs1).ult (reg x rs2)) (sext off))) s

/-- LB (R424). -/
def execLb (c : Fin 32) (rd : Fin 32) (rs1 : Fin 32) (imm : BitVec 12) (s : State) : Host.Outcome State Fault Refusal :=
  coreCmd (fun s => rvStep s c (.lb c rd rs1 imm) 2 (rvLoad 4 c rd (fun x => reg x rs1 + sext imm) 1 fun v => (BitVec.ofNat 8 v).signExtend 32)) s

/-- LH (R424). -/
def execLh (c : Fin 32) (rd : Fin 32) (rs1 : Fin 32) (imm : BitVec 12) (s : State) : Host.Outcome State Fault Refusal :=
  coreCmd (fun s => rvStep s c (.lh c rd rs1 imm) 2 (rvLoad 4 c rd (fun x => reg x rs1 + sext imm) 2 fun v => (BitVec.ofNat 16 v).signExtend 32)) s

/-- LW (R424). -/
def execLw (c : Fin 32) (rd : Fin 32) (rs1 : Fin 32) (imm : BitVec 12) (s : State) : Host.Outcome State Fault Refusal :=
  coreCmd (fun s => rvStep s c (.lw c rd rs1 imm) 2 (rvLoad 4 c rd (fun x => reg x rs1 + sext imm) 4 fun v => BitVec.ofNat 32 v)) s

/-- LBU (R424). -/
def execLbu (c : Fin 32) (rd : Fin 32) (rs1 : Fin 32) (imm : BitVec 12) (s : State) : Host.Outcome State Fault Refusal :=
  coreCmd (fun s => rvStep s c (.lbu c rd rs1 imm) 2 (rvLoad 4 c rd (fun x => reg x rs1 + sext imm) 1 fun v => BitVec.ofNat 32 v)) s

/-- LHU (R424). -/
def execLhu (c : Fin 32) (rd : Fin 32) (rs1 : Fin 32) (imm : BitVec 12) (s : State) : Host.Outcome State Fault Refusal :=
  coreCmd (fun s => rvStep s c (.lhu c rd rs1 imm) 2 (rvLoad 4 c rd (fun x => reg x rs1 + sext imm) 2 fun v => BitVec.ofNat 32 v)) s

/-- SB (R424). -/
def execSb (c : Fin 32) (rs1 : Fin 32) (rs2 : Fin 32) (imm : BitVec 12) (s : State) : Host.Outcome State Fault Refusal :=
  coreCmd (fun s => rvStep s c (.sb c rs1 rs2 imm) 1 (rvStore 4 rs2 (fun x => reg x rs1 + sext imm) 1)) s

/-- SH (R424). -/
def execSh (c : Fin 32) (rs1 : Fin 32) (rs2 : Fin 32) (imm : BitVec 12) (s : State) : Host.Outcome State Fault Refusal :=
  coreCmd (fun s => rvStep s c (.sh c rs1 rs2 imm) 1 (rvStore 4 rs2 (fun x => reg x rs1 + sext imm) 2)) s

/-- SW (R424). -/
def execSw (c : Fin 32) (rs1 : Fin 32) (rs2 : Fin 32) (imm : BitVec 12) (s : State) : Host.Outcome State Fault Refusal :=
  coreCmd (fun s => rvStep s c (.sw c rs1 rs2 imm) 1 (rvStore 4 rs2 (fun x => reg x rs1 + sext imm) 4)) s

/-- ADDI (R424). -/
def execAddi (c : Fin 32) (rd : Fin 32) (rs1 : Fin 32) (imm : BitVec 12) (s : State) : Host.Outcome State Fault Refusal :=
  coreCmd (fun s => rvStep s c (.addi c rd rs1 imm) 1 (rvSet 4 rd fun x => reg x rs1 + sext imm)) s

/-- SLTI (R424). -/
def execSlti (c : Fin 32) (rd : Fin 32) (rs1 : Fin 32) (imm : BitVec 12) (s : State) : Host.Outcome State Fault Refusal :=
  coreCmd (fun s => rvStep s c (.slti c rd rs1 imm) 1 (rvSet 4 rd fun x => Alu.slt (reg x rs1) (sext imm))) s

/-- SLTIU (R424). -/
def execSltiu (c : Fin 32) (rd : Fin 32) (rs1 : Fin 32) (imm : BitVec 12) (s : State) : Host.Outcome State Fault Refusal :=
  coreCmd (fun s => rvStep s c (.sltiu c rd rs1 imm) 1 (rvSet 4 rd fun x => Alu.sltu (reg x rs1) (sext imm))) s

/-- XORI (R424). -/
def execXori (c : Fin 32) (rd : Fin 32) (rs1 : Fin 32) (imm : BitVec 12) (s : State) : Host.Outcome State Fault Refusal :=
  coreCmd (fun s => rvStep s c (.xori c rd rs1 imm) 1 (rvSet 4 rd fun x => reg x rs1 ^^^ sext imm)) s

/-- ORI (R424). -/
def execOri (c : Fin 32) (rd : Fin 32) (rs1 : Fin 32) (imm : BitVec 12) (s : State) : Host.Outcome State Fault Refusal :=
  coreCmd (fun s => rvStep s c (.ori c rd rs1 imm) 1 (rvSet 4 rd fun x => reg x rs1 ||| sext imm)) s

/-- ANDI (R424). -/
def execAndi (c : Fin 32) (rd : Fin 32) (rs1 : Fin 32) (imm : BitVec 12) (s : State) : Host.Outcome State Fault Refusal :=
  coreCmd (fun s => rvStep s c (.andi c rd rs1 imm) 1 (rvSet 4 rd fun x => reg x rs1 &&& sext imm)) s

/-- SLLI (R424). -/
def execSlli (c : Fin 32) (rd : Fin 32) (rs1 : Fin 32) (sh : BitVec 5) (s : State) : Host.Outcome State Fault Refusal :=
  coreCmd (fun s => rvStep s c (.slli c rd rs1 sh) 1 (rvSet 4 rd fun x => reg x rs1 <<< sh.toNat)) s

/-- SRLI (R424). -/
def execSrli (c : Fin 32) (rd : Fin 32) (rs1 : Fin 32) (sh : BitVec 5) (s : State) : Host.Outcome State Fault Refusal :=
  coreCmd (fun s => rvStep s c (.srli c rd rs1 sh) 1 (rvSet 4 rd fun x => reg x rs1 >>> sh.toNat)) s

/-- SRAI (R424). -/
def execSrai (c : Fin 32) (rd : Fin 32) (rs1 : Fin 32) (sh : BitVec 5) (s : State) : Host.Outcome State Fault Refusal :=
  coreCmd (fun s => rvStep s c (.srai c rd rs1 sh) 1 (rvSet 4 rd fun x => (reg x rs1).sshiftRight sh.toNat)) s

/-- ADD (R424). -/
def execAdd (c : Fin 32) (rd : Fin 32) (rs1 : Fin 32) (rs2 : Fin 32) (s : State) : Host.Outcome State Fault Refusal :=
  coreCmd (fun s => rvStep s c (.add c rd rs1 rs2) 1 (rvSet 4 rd fun x => reg x rs1 + reg x rs2)) s

/-- SUB (R424). -/
def execSub (c : Fin 32) (rd : Fin 32) (rs1 : Fin 32) (rs2 : Fin 32) (s : State) : Host.Outcome State Fault Refusal :=
  coreCmd (fun s => rvStep s c (.sub c rd rs1 rs2) 1 (rvSet 4 rd fun x => reg x rs1 - reg x rs2)) s

/-- SLL (R424). -/
def execSll (c : Fin 32) (rd : Fin 32) (rs1 : Fin 32) (rs2 : Fin 32) (s : State) : Host.Outcome State Fault Refusal :=
  coreCmd (fun s => rvStep s c (.sll c rd rs1 rs2) 1 (rvSet 4 rd fun x => Alu.sll (reg x rs1) (reg x rs2))) s

/-- SLT (R424). -/
def execSlt (c : Fin 32) (rd : Fin 32) (rs1 : Fin 32) (rs2 : Fin 32) (s : State) : Host.Outcome State Fault Refusal :=
  coreCmd (fun s => rvStep s c (.slt c rd rs1 rs2) 1 (rvSet 4 rd fun x => Alu.slt (reg x rs1) (reg x rs2))) s

/-- SLTU (R424). -/
def execSltu (c : Fin 32) (rd : Fin 32) (rs1 : Fin 32) (rs2 : Fin 32) (s : State) : Host.Outcome State Fault Refusal :=
  coreCmd (fun s => rvStep s c (.sltu c rd rs1 rs2) 1 (rvSet 4 rd fun x => Alu.sltu (reg x rs1) (reg x rs2))) s

/-- XOR (R424). -/
def execXor (c : Fin 32) (rd : Fin 32) (rs1 : Fin 32) (rs2 : Fin 32) (s : State) : Host.Outcome State Fault Refusal :=
  coreCmd (fun s => rvStep s c (.xor c rd rs1 rs2) 1 (rvSet 4 rd fun x => reg x rs1 ^^^ reg x rs2)) s

/-- SRL (R424). -/
def execSrl (c : Fin 32) (rd : Fin 32) (rs1 : Fin 32) (rs2 : Fin 32) (s : State) : Host.Outcome State Fault Refusal :=
  coreCmd (fun s => rvStep s c (.srl c rd rs1 rs2) 1 (rvSet 4 rd fun x => Alu.srl (reg x rs1) (reg x rs2))) s

/-- SRA (R424). -/
def execSra (c : Fin 32) (rd : Fin 32) (rs1 : Fin 32) (rs2 : Fin 32) (s : State) : Host.Outcome State Fault Refusal :=
  coreCmd (fun s => rvStep s c (.sra c rd rs1 rs2) 1 (rvSet 4 rd fun x => Alu.sra (reg x rs1) (reg x rs2))) s

/-- OR (R424). -/
def execOr (c : Fin 32) (rd : Fin 32) (rs1 : Fin 32) (rs2 : Fin 32) (s : State) : Host.Outcome State Fault Refusal :=
  coreCmd (fun s => rvStep s c (.or c rd rs1 rs2) 1 (rvSet 4 rd fun x => reg x rs1 ||| reg x rs2)) s

/-- AND (R424). -/
def execAnd (c : Fin 32) (rd : Fin 32) (rs1 : Fin 32) (rs2 : Fin 32) (s : State) : Host.Outcome State Fault Refusal :=
  coreCmd (fun s => rvStep s c (.and c rd rs1 rs2) 1 (rvSet 4 rd fun x => reg x rs1 &&& reg x rs2)) s

/-- FENCE (R424). -/
def execFence (c : Fin 32) (s : State) : Host.Outcome State Fault Refusal :=
  coreCmd (fun s => rvStep s c (.fence c) 1 (fun t x => .done t { x with pc := pcNext x 4 })) s

/-- MUL (R424). -/
def execMul (c : Fin 32) (rd : Fin 32) (rs1 : Fin 32) (rs2 : Fin 32) (s : State) : Host.Outcome State Fault Refusal :=
  coreCmd (fun s => rvStep s c (.mul c rd rs1 rs2) 3 (rvSet 4 rd fun x => reg x rs1 * reg x rs2)) s

/-- MULH (R424). -/
def execMulh (c : Fin 32) (rd : Fin 32) (rs1 : Fin 32) (rs2 : Fin 32) (s : State) : Host.Outcome State Fault Refusal :=
  coreCmd (fun s => rvStep s c (.mulh c rd rs1 rs2) 3 (rvSet 4 rd fun x => Alu.mulh (reg x rs1) (reg x rs2))) s

/-- MULHSU (R424). -/
def execMulhsu (c : Fin 32) (rd : Fin 32) (rs1 : Fin 32) (rs2 : Fin 32) (s : State) : Host.Outcome State Fault Refusal :=
  coreCmd (fun s => rvStep s c (.mulhsu c rd rs1 rs2) 3 (rvSet 4 rd fun x => Alu.mulhsu (reg x rs1) (reg x rs2))) s

/-- MULHU (R424). -/
def execMulhu (c : Fin 32) (rd : Fin 32) (rs1 : Fin 32) (rs2 : Fin 32) (s : State) : Host.Outcome State Fault Refusal :=
  coreCmd (fun s => rvStep s c (.mulhu c rd rs1 rs2) 3 (rvSet 4 rd fun x => Alu.mulhu (reg x rs1) (reg x rs2))) s

/-- DIV (R425). -/
def execDiv (c : Fin 32) (rd : Fin 32) (rs1 : Fin 32) (rs2 : Fin 32) (s : State) : Host.Outcome State Fault Refusal :=
  coreCmd (fun s => rvStep s c (.div c rd rs1 rs2) 34 (rvSet 4 rd fun x => Alu.div (reg x rs1) (reg x rs2))) s

/-- DIVU (R425). -/
def execDivu (c : Fin 32) (rd : Fin 32) (rs1 : Fin 32) (rs2 : Fin 32) (s : State) : Host.Outcome State Fault Refusal :=
  coreCmd (fun s => rvStep s c (.divu c rd rs1 rs2) 34 (rvSet 4 rd fun x => Alu.divu (reg x rs1) (reg x rs2))) s

/-- REM (R425). -/
def execRem (c : Fin 32) (rd : Fin 32) (rs1 : Fin 32) (rs2 : Fin 32) (s : State) : Host.Outcome State Fault Refusal :=
  coreCmd (fun s => rvStep s c (.rem c rd rs1 rs2) 34 (rvSet 4 rd fun x => Alu.rem (reg x rs1) (reg x rs2))) s

/-- REMU (R425). -/
def execRemu (c : Fin 32) (rd : Fin 32) (rs1 : Fin 32) (rs2 : Fin 32) (s : State) : Host.Outcome State Fault Refusal :=
  coreCmd (fun s => rvStep s c (.remu c rd rs1 rs2) 34 (rvSet 4 rd fun x => Alu.remu (reg x rs1) (reg x rs2))) s

end Sys2Proof.Machine
end

