-- ==== Sys2Proof/Machine/RvCompressed.lean ====
section
/-! DEFINITION. The compressed instructions: one meaning for each command. -/

namespace Sys2Proof.Machine

/-- C_ADDI4SPN (R424). -/
def execCAddi4spn (c : Fin 32) (rd : Fin 32) (u : BitVec 10) (s : State) : Host.Outcome State Fault Refusal :=
  coreCmd (fun s => rvStep s c (.cAddi4spn c rd u) 1 (rvSet 2 rd fun x => reg x 2 + zext u)) s

/-- C_LW (R424). -/
def execCLw (c : Fin 32) (rd : Fin 32) (rs1 : Fin 32) (u : BitVec 7) (s : State) : Host.Outcome State Fault Refusal :=
  coreCmd (fun s => rvStep s c (.cLw c rd rs1 u) 2 (rvLoad 2 c rd (fun x => reg x rs1 + zext u) 4 fun v => BitVec.ofNat 32 v)) s

/-- C_SW (R424). -/
def execCSw (c : Fin 32) (rs1 : Fin 32) (rs2 : Fin 32) (u : BitVec 7) (s : State) : Host.Outcome State Fault Refusal :=
  coreCmd (fun s => rvStep s c (.cSw c rs1 rs2 u) 1 (rvStore 2 rs2 (fun x => reg x rs1 + zext u) 4)) s

/-- C_NOP (R424). -/
def execCNop (c : Fin 32) (s : State) : Host.Outcome State Fault Refusal :=
  coreCmd (fun s => rvStep s c (.cNop c) 1 (fun t x => .done t { x with pc := pcNext x 2 })) s

/-- C_ADDI (R424). -/
def execCAddi (c : Fin 32) (rd : Fin 32) (imm : BitVec 6) (s : State) : Host.Outcome State Fault Refusal :=
  coreCmd (fun s => rvStep s c (.cAddi c rd imm) 1 (rvSet 2 rd fun x => reg x rd + sext imm)) s

/-- C_JAL (R424). -/
def execCJal (c : Fin 32) (off : BitVec 12) (s : State) : Host.Outcome State Fault Refusal :=
  coreCmd (fun s => rvStep s c (.cJal c off) 2 (rvJump 2 1 fun x => x.pc + sext off)) s

/-- C_LI (R424). -/
def execCLi (c : Fin 32) (rd : Fin 32) (imm : BitVec 6) (s : State) : Host.Outcome State Fault Refusal :=
  coreCmd (fun s => rvStep s c (.cLi c rd imm) 1 (rvSet 2 rd fun _ => sext imm)) s

/-- C_ADDI16SP (R424). -/
def execCAddi16sp (c : Fin 32) (imm : BitVec 10) (s : State) : Host.Outcome State Fault Refusal :=
  coreCmd (fun s => rvStep s c (.cAddi16sp c imm) 1 (rvSet 2 2 fun x => reg x 2 + sext imm)) s

/-- C_LUI (R424). -/
def execCLui (c : Fin 32) (rd : Fin 32) (imm : BitVec 6) (s : State) : Host.Outcome State Fault Refusal :=
  coreCmd (fun s => rvStep s c (.cLui c rd imm) 1 (rvSet 2 rd fun _ => sext imm <<< 12)) s

/-- C_SRLI (R424). -/
def execCSrli (c : Fin 32) (rd : Fin 32) (sh : BitVec 6) (s : State) : Host.Outcome State Fault Refusal :=
  coreCmd (fun s => rvStep s c (.cSrli c rd sh) 1 (rvSet 2 rd fun x => reg x rd >>> sh.toNat)) s

/-- C_SRAI (R424). -/
def execCSrai (c : Fin 32) (rd : Fin 32) (sh : BitVec 6) (s : State) : Host.Outcome State Fault Refusal :=
  coreCmd (fun s => rvStep s c (.cSrai c rd sh) 1 (rvSet 2 rd fun x => (reg x rd).sshiftRight sh.toNat)) s

/-- C_ANDI (R424). -/
def execCAndi (c : Fin 32) (rd : Fin 32) (imm : BitVec 6) (s : State) : Host.Outcome State Fault Refusal :=
  coreCmd (fun s => rvStep s c (.cAndi c rd imm) 1 (rvSet 2 rd fun x => reg x rd &&& sext imm)) s

/-- C_SUB (R424). -/
def execCSub (c : Fin 32) (rd : Fin 32) (rs2 : Fin 32) (s : State) : Host.Outcome State Fault Refusal :=
  coreCmd (fun s => rvStep s c (.cSub c rd rs2) 1 (rvSet 2 rd fun x => reg x rd - reg x rs2)) s

/-- C_XOR (R424). -/
def execCXor (c : Fin 32) (rd : Fin 32) (rs2 : Fin 32) (s : State) : Host.Outcome State Fault Refusal :=
  coreCmd (fun s => rvStep s c (.cXor c rd rs2) 1 (rvSet 2 rd fun x => reg x rd ^^^ reg x rs2)) s

/-- C_OR (R424). -/
def execCOr (c : Fin 32) (rd : Fin 32) (rs2 : Fin 32) (s : State) : Host.Outcome State Fault Refusal :=
  coreCmd (fun s => rvStep s c (.cOr c rd rs2) 1 (rvSet 2 rd fun x => reg x rd ||| reg x rs2)) s

/-- C_AND (R424). -/
def execCAnd (c : Fin 32) (rd : Fin 32) (rs2 : Fin 32) (s : State) : Host.Outcome State Fault Refusal :=
  coreCmd (fun s => rvStep s c (.cAnd c rd rs2) 1 (rvSet 2 rd fun x => reg x rd &&& reg x rs2)) s

/-- C_J (R424). -/
def execCJ (c : Fin 32) (off : BitVec 12) (s : State) : Host.Outcome State Fault Refusal :=
  coreCmd (fun s => rvStep s c (.cJ c off) 2 (rvJump 2 0 fun x => x.pc + sext off)) s

/-- C_BEQZ (R424). -/
def execCBeqz (c : Fin 32) (rs1 : Fin 32) (off : BitVec 9) (s : State) : Host.Outcome State Fault Refusal :=
  coreCmd (fun s => rvStep s c (.cBeqz c rs1 off) 2 (rvBranch 2 (fun x => decide (reg x rs1 = 0)) (sext off))) s

/-- C_BNEZ (R424). -/
def execCBnez (c : Fin 32) (rs1 : Fin 32) (off : BitVec 9) (s : State) : Host.Outcome State Fault Refusal :=
  coreCmd (fun s => rvStep s c (.cBnez c rs1 off) 2 (rvBranch 2 (fun x => decide (reg x rs1 ≠ 0)) (sext off))) s

/-- C_SLLI (R424). -/
def execCSlli (c : Fin 32) (rd : Fin 32) (sh : BitVec 6) (s : State) : Host.Outcome State Fault Refusal :=
  coreCmd (fun s => rvStep s c (.cSlli c rd sh) 1 (rvSet 2 rd fun x => reg x rd <<< sh.toNat)) s

/-- C_LWSP (R424). -/
def execCLwsp (c : Fin 32) (rd : Fin 32) (u : BitVec 8) (s : State) : Host.Outcome State Fault Refusal :=
  coreCmd (fun s => rvStep s c (.cLwsp c rd u) 2 (rvLoad 2 c rd (fun x => reg x 2 + zext u) 4 fun v => BitVec.ofNat 32 v)) s

/-- C_JR (R424). -/
def execCJr (c : Fin 32) (rs1 : Fin 32) (s : State) : Host.Outcome State Fault Refusal :=
  coreCmd (fun s => rvStep s c (.cJr c rs1) 2 (rvJump 2 0 fun x => reg x rs1 &&& 0xFFFFFFFE#32)) s

/-- C_MV (R424). -/
def execCMv (c : Fin 32) (rd : Fin 32) (rs2 : Fin 32) (s : State) : Host.Outcome State Fault Refusal :=
  coreCmd (fun s => rvStep s c (.cMv c rd rs2) 1 (rvSet 2 rd fun x => reg x rs2)) s

/-- C_JALR (R424). -/
def execCJalr (c : Fin 32) (rs1 : Fin 32) (s : State) : Host.Outcome State Fault Refusal :=
  coreCmd (fun s => rvStep s c (.cJalr c rs1) 2 (rvJump 2 1 fun x => reg x rs1 &&& 0xFFFFFFFE#32)) s

/-- C_ADD (R424). -/
def execCAdd (c : Fin 32) (rd : Fin 32) (rs2 : Fin 32) (s : State) : Host.Outcome State Fault Refusal :=
  coreCmd (fun s => rvStep s c (.cAdd c rd rs2) 1 (rvSet 2 rd fun x => reg x rd + reg x rs2)) s

/-- C_SWSP (R424). -/
def execCSwsp (c : Fin 32) (rs2 : Fin 32) (u : BitVec 8) (s : State) : Host.Outcome State Fault Refusal :=
  coreCmd (fun s => rvStep s c (.cSwsp c rs2 u) 1 (rvStore 2 rs2 (fun x => reg x 2 + zext u) 4)) s

end Sys2Proof.Machine
end

