-- ==== Sys2Proof/Machine/Sequencer.lean ====
section
/-! DEFINITION. Device time, releases, internal admissions and background work: one meaning for each command. -/

namespace Sys2Proof.Machine

/-- DEVICE_TIME_TICK (R182). -/
def execDeviceTimeTick (s : State) : Host.Outcome State Fault Refusal :=
  otpCmd (fun s => Shf.flush (Shf.expire (tick s))) s

/-- RESPONSE_RELEASE (R186). -/
def execResponseRelease (id : Nat) (s : State) : Host.Outcome State Fault Refusal :=
  otpCmd (fun s => releaseById s id) s

/-- HEARTBEAT_DUE (R239). -/
def execHeartbeatDue (n : Fin 32768) (phys : Phys) (s : State) : Host.Outcome State Fault Refusal :=
  coreCmd (fun s => Intern.heartbeatDue s n.val phys) s

/-- SWITCH_ADMISSION (R225). -/
def execSwitchAdmission (n : Fin 32768) (phys : Phys) (s : State) : Host.Outcome State Fault Refusal :=
  coreCmd (fun s => Intern.switchDue s n.val phys) s

/-- FORCED_REKEY (R226). -/
def execForcedRekey (n : Under (Fin 32768)) (s : State) : Host.Outcome State Fault Refusal :=
  coreCmd (fun s => Intern.forcedRekey s n.op.val n.phys) s

/-- HELLO_REKEY (R227). -/
def execHelloRekey (n : Under (Fin 32768)) (s : State) : Host.Outcome State Fault Refusal :=
  coreCmd (fun s => Intern.helloRekey s n.op.val n.phys) s

/-- CUT_ADMISSION (R237). -/
def execCutAdmission (s : State) : Host.Outcome State Fault Refusal :=
  coreCmd (fun s => Intern.cut s) s

/-- QUEUED_SEND (R232). -/
def execQueuedSend (n : Fin 32768) (phys : Phys) (s : State) : Host.Outcome State Fault Refusal :=
  coreCmd (fun s => Intern.queuedSend s n.val phys) s

/-- OPEN_AT_STARTUP (R249). -/
def execOpenAtStartup (n : Under (Fin 32768)) (s : State) : Host.Outcome State Fault Refusal :=
  coreCmd (fun s => Intern.openAtStartup s n.op.val n.phys) s

/-- TIME_CHECKPOINT (R87). -/
def execTimeCheckpoint (s : State) : Host.Outcome State Fault Refusal :=
  coreCmd (fun s => Intern.checkpoint s) s

/-- STATISTICS_ADMISSION (R143). -/
def execStatisticsAdmission (s : State) : Host.Outcome State Fault Refusal :=
  coreCmd (fun s => Intern.statistics s) s

/-- PROVISION_LAPSE (R506). -/
def execProvisionLapse (s : State) : Host.Outcome State Fault Refusal :=
  coreCmd (fun s => Intern.provisionLapse s) s

/-- ISLAND_CLOSE (R505). -/
def execIslandClose (s : State) : Host.Outcome State Fault Refusal :=
  coreCmd (fun s => closeHost s) s

/-- BACKGROUND_WINDOW (R192). -/
def execBackgroundWindow (work : BackWork) (s : State) : Host.Outcome State Fault Refusal :=
  coreCmd (fun s => Intern.window s work) s

/-- BACKGROUND_REPORT (R193). -/
def execBackgroundReport (s : State) : Host.Outcome State Fault Refusal :=
  coreCmd (fun s => Intern.backgroundReport s) s

/-- STORE_FAULT_REPORT (R194). -/
def execStoreFaultReport (s : State) : Host.Outcome State Fault Refusal :=
  otpCmd (fun s => Intern.storeFaultReport s) s

/-- TELEMETRY_ADMISSION (R568). -/
def execTelemetryAdmission (temp : BitVec 20) (vcore : BitVec 20) (vddah : BitVec 20) (vddps : BitVec 20) (vddio : BitVec 20) (vlvds : BitVec 20) (s : State) : Host.Outcome State Fault Refusal :=
  coreCmd (fun s => Intern.telemetry s [temp, vcore, vddah, vddps, vddio, vlvds]) s

end Sys2Proof.Machine
end

