-- ==== Sys2Proof/Machine/Startup.lean ====
section
/-! DEFINITION. The stages of start-up: one meaning for each command. -/

namespace Sys2Proof.Machine

/-- CLEAR_STAGE (R81). -/
def execClearStage (s : State) : Host.Outcome State Fault Refusal :=
  coreCmd (fun s => Bt.clear s) s

/-- CLOCKS_STAGE (R81). -/
def execClocksStage (katOk : Bool) (s : State) : Host.Outcome State Fault Refusal :=
  coreCmd (fun s => Bt.clocks s katOk) s

/-- FIRMWARE_STAGE (R85). -/
def execFirmwareStage (s : State) : Host.Outcome State Fault Refusal :=
  coreCmd (fun s => Bt.firmware s) s

/-- RECOVER_STAGE (R87). -/
def execRecoverStage (s : State) : Host.Outcome State Fault Refusal :=
  coreCmd (fun s => Bt.recover s) s

/-- TAMPER_EVAL_STAGE (R497). -/
def execTamperEvalStage (s : State) : Host.Outcome State Fault Refusal :=
  otpCmd (fun s => Bt.tamperEval s) s

/-- APPLETS_STAGE (R91). -/
def execAppletsStage (s : State) : Host.Outcome State Fault Refusal :=
  coreCmd (fun s => Bt.applets s) s

/-- BARRIER_STAGE (R91). -/
def execBarrierStage (s : State) : Host.Outcome State Fault Refusal :=
  coreCmd (fun s => Bt.barrier s) s

/-- MODES_STAGE (R91). -/
def execModesStage (s : State) : Host.Outcome State Fault Refusal :=
  coreCmd (fun s => Bt.modes s) s

end Sys2Proof.Machine
end

