-- ==== Sys2Proof/Machine/StoreCmds.lean ====
section
/-! DEFINITION. Commands written to the attestation, counter, journal, applet and guard objects: one meaning for each command. -/

namespace Sys2Proof.Machine

/-- ATTEST (R361). -/
def execAttest (h : Hdr) (value : Bytes) (s : State) : Host.Outcome State Fault Refusal :=
  coreCmd (fun s => request s (rqWrite h 0xCA10 1 value)) s

/-- INCREMENT (R401). -/
def execIncrement (h : Hdr) (k : Fin 2048) (expected : BitVec 64) (s : State) : Host.Outcome State Fault Refusal :=
  coreCmd (fun s => request s (rqWrite h (0xC000 + k.val) 2 (leBytes 8 expected.toNat))) s

/-- ADVANCE (R401). -/
def execAdvance (h : Hdr) (k : Fin 2048) (w : BitVec 64) (s : State) : Host.Outcome State Fault Refusal :=
  coreCmd (fun s => request s (rqWrite h (0xC000 + k.val) 3 (leBytes 8 w.toNat))) s

/-- EXPORT_START (R415). -/
def execExportStart (h : Hdr) (value : Bytes) (s : State) : Host.Outcome State Fault Refusal :=
  coreCmd (fun s => request s (rqWrite h 0xDC10 1 value)) s

/-- JOURNAL_RELEASE_THROUGH (R417). -/
def execJournalReleaseThrough (h : Hdr) (x : BitVec 64) (s : State) : Host.Outcome State Fault Refusal :=
  coreCmd (fun s => request s (rqWrite h 0xDC10 5 (leBytes 8 x.toNat))) s

/-- EXPORT_CLOSE (R415). -/
def execExportClose (h : Hdr) (s : State) : Host.Outcome State Fault Refusal :=
  coreCmd (fun s => request s (rqWrite h 0xDC10 6 [1])) s

/-- LOG_RELEASE_THROUGH (R205). -/
def execLogReleaseThrough (h : Hdr) (x : BitVec 64) (s : State) : Host.Outcome State Fault Refusal :=
  coreCmd (fun s => request s (rqWrite h 0xDC80 2 (leBytes 8 x.toNat))) s

/-- LOAD_MANIFEST (R437). -/
def execLoadManifest (h : Hdr) (g : Seg) (s : State) : Host.Outcome State Fault Refusal :=
  coreCmd (fun s => request s (rqSeg h 0xD100 1 g)) s

/-- INSTALL (R438). -/
def execInstall (h : Hdr) (cell : Byte) (s : State) : Host.Outcome State Fault Refusal :=
  coreCmd (fun s => request s (rqWrite h 0xD100 3 [cell])) s

/-- APPLET_REMOVE (R440). -/
def execAppletRemove (h : Hdr) (cell : Byte) (s : State) : Host.Outcome State Fault Refusal :=
  coreCmd (fun s => request s (rqWrite h 0xD100 4 [cell])) s

/-- CONTROL_START (R432). -/
def execControlStart (h : Hdr) (c : Fin 32) (s : State) : Host.Outcome State Fault Refusal :=
  coreCmd (fun s => request s (rqWrite h (0xD000 + c.val) 9 [1])) s

/-- CONTROL_STOP (R432). -/
def execControlStop (h : Hdr) (c : Fin 32) (s : State) : Host.Outcome State Fault Refusal :=
  coreCmd (fun s => request s (rqWrite h (0xD000 + c.val) 9 [2])) s

/-- CONTROL_RESTART (R432). -/
def execControlRestart (h : Hdr) (c : Fin 32) (s : State) : Host.Outcome State Fault Refusal :=
  coreCmd (fun s => request s (rqWrite h (0xD000 + c.val) 9 [3])) s

/-- MAILBOX_IN (R441). -/
def execMailboxIn (h : Hdr) (c : Fin 32) (value : Bytes) (s : State) : Host.Outcome State Fault Refusal :=
  coreCmd (fun s => request s (rqWrite h (0xD000 + c.val) 0x0B value)) s

/-- GUARD_ON (R459). -/
def execGuardOn (h : Hdr) (n : Fin 8) (s : State) : Host.Outcome State Fault Refusal :=
  coreCmd (fun s => request s (rqWrite h (0xDB00 + n.val) 1 [1])) s

/-- GUARD_OFF (R459). -/
def execGuardOff (h : Hdr) (n : Fin 8) (s : State) : Host.Outcome State Fault Refusal :=
  coreCmd (fun s => request s (rqWrite h (0xDB00 + n.val) 1 [0])) s

/-- PERMIT_RUN_START (R473). -/
def execPermitRunStart (h : Hdr) (s : State) : Host.Outcome State Fault Refusal :=
  coreCmd (fun s => request s (rqWrite h 0xDB30 1 [1])) s

/-- PERMIT_RUN_STOP (R473). -/
def execPermitRunStop (h : Hdr) (s : State) : Host.Outcome State Fault Refusal :=
  coreCmd (fun s => request s (rqWrite h 0xDB30 1 [0])) s

/-- OUTPUT_SET (R473). -/
def execOutputSet (h : Hdr) (mask : Byte) (on : Byte) (s : State) : Host.Outcome State Fault Refusal :=
  coreCmd (fun s => request s (rqWrite h 0xDB30 3 [mask, on])) s

end Sys2Proof.Machine
end

