-- ==== Sys2Proof/Machine/Supplies.lean ====
section
/-! DEFINITION. Supplies, reset pins, clocks and resets: one meaning for each command. -/

namespace Sys2Proof.Machine

/-- CORE_RESET_RELEASE (R37). -/
def execCoreResetRelease (s : State) : Host.Outcome State Fault Refusal :=
  coreCmd (fun s => Bt.release s) s

/-- FIELD_RESET_RELEASE (R93). -/
def execFieldResetRelease (s : State) : Host.Outcome State Fault Refusal :=
  coreCmd (fun s => Bt.fieldRelease s) s

/-- POWER_FAIL (R40). -/
def execPowerFail (rail : Rail) (s : State) : Host.Outcome State Fault Refusal :=
  coreCmd (fun s => Bt.powerFail s rail) s

/-- POWER_FAIL_RESET (R40). -/
def execPowerFailReset (s : State) : Host.Outcome State Fault Refusal :=
  coreCmd (fun s => Bt.powerFailReset s) s

/-- FIELD_SUPPLY_FAIL (R39). -/
def execFieldSupplyFail (rail : Rail) (s : State) : Host.Outcome State Fault Refusal :=
  coreCmd (fun s => Bt.fieldSupply s rail) s

/-- RESET_N_ASSERT (R54). -/
def execResetNAssert (width : PulseWidth) (s : State) : Host.Outcome State Fault Refusal :=
  coreCmd (fun s => Bt.resetN s width) s

/-- RESET_N_RELEASE (R54). -/
def execResetNRelease (s : State) : Host.Outcome State Fault Refusal :=
  coreCmd (fun s => Bt.resetNRise s) s

/-- FRST_N_ASSERT (R54). -/
def execFrstNAssert (width : PulseWidth) (s : State) : Host.Outcome State Fault Refusal :=
  coreCmd (fun s => Bt.frstN s width) s

/-- FRST_N_RELEASE (R54). -/
def execFrstNRelease (s : State) : Host.Outcome State Fault Refusal :=
  coreCmd (fun s => Bt.frstNRise s) s

/-- FIELD_CLOCK_LOSS (R73). -/
def execFieldClockLoss (s : State) : Host.Outcome State Fault Refusal :=
  coreCmd (fun s => Bt.fieldClockLoss s) s

/-- CLOCK_LOST (R73). -/
def execClockLost (clock : LostClock) (s : State) : Host.Outcome State Fault Refusal :=
  coreCmd (fun s => Mon.clockLost s clock) s

/-- LOCKSTEP_MISMATCH (R422). -/
def execLockstepMismatch (s : State) : Host.Outcome State Fault Refusal :=
  coreCmd (fun s => Bt.lockstep s) s

/-- WATCHDOG_EXPIRY (R75). -/
def execWatchdogExpiry (s : State) : Host.Outcome State Fault Refusal :=
  coreCmd (fun s => Bt.resetNow s 5) s

/-- STAGE_OVERRUN (R81). -/
def execStageOverrun (s : State) : Host.Outcome State Fault Refusal :=
  coreCmd (fun s => Bt.overrun s) s

/-- DEFERRED_CORE_RESET (R80). -/
def execDeferredCoreReset (s : State) : Host.Outcome State Fault Refusal :=
  coreCmd (fun s => Bt.deferredCore s) s

/-- DEFERRED_FIELD_RESET (R80). -/
def execDeferredFieldReset (s : State) : Host.Outcome State Fault Refusal :=
  coreCmd (fun s => Bt.deferredField s) s

end Sys2Proof.Machine
end

