-- ==== Sys2Proof/Machine/Syscalls.lean ====
section
/-! DEFINITION. The system calls of the applet cells: one meaning for each command. -/

namespace Sys2Proof.Machine

/-- SYSCALL_READ (R445). -/
def execSyscallRead (c : Fin 32) (phys : Phys) (s : State) : Host.Outcome State Fault Refusal :=
  coreCmd (fun s => Sys.call s c (fun k => decide (k = 0x01)) phys) s

/-- SYSCALL_WRITE (R445). -/
def execSyscallWrite (c : Fin 32) (phys : Phys) (s : State) : Host.Outcome State Fault Refusal :=
  coreCmd (fun s => Sys.call s c (fun k => decide (k = 0x02)) phys) s

/-- TIME (R423). -/
def execSysTime (c : Fin 32) (s : State) : Host.Outcome State Fault Refusal :=
  coreCmd (fun s => Sys.call s c (fun k => decide (k = 0x03)) .ok) s

/-- NOTIFY (R444). -/
def execSysNotify (c : Fin 32) (s : State) : Host.Outcome State Fault Refusal :=
  coreCmd (fun s => Sys.call s c (fun k => decide (k = 0x04)) .ok) s

/-- STOP (R432). -/
def execSysStop (c : Fin 32) (s : State) : Host.Outcome State Fault Refusal :=
  coreCmd (fun s => Sys.call s c (fun k => decide (k = 0x05)) .ok) s

/-- WAIT (R448). -/
def execSysWait (c : Fin 32) (s : State) : Host.Outcome State Fault Refusal :=
  coreCmd (fun s => Sys.call s c (fun k => decide (k = 0x06)) .ok) s

/-- WAIT_DEADLINE (R452). -/
def execWaitDeadline (c : Fin 32) (s : State) : Host.Outcome State Fault Refusal :=
  coreCmd (fun s => cellDeadline s c) s

/-- CTR_INCREMENT (R447). -/
def execCtrIncrement (c : Fin 32) (phys : Phys) (s : State) : Host.Outcome State Fault Refusal :=
  coreCmd (fun s => Sys.call s c (fun k => decide (k = 0x10)) phys) s

/-- CTR_ADVANCE (R447). -/
def execCtrAdvance (c : Fin 32) (phys : Phys) (s : State) : Host.Outcome State Fault Refusal :=
  coreCmd (fun s => Sys.call s c (fun k => decide (k = 0x11)) phys) s

/-- CH_SEND (R447). -/
def execChSend (c : Fin 32) (phys : Phys) (s : State) : Host.Outcome State Fault Refusal :=
  coreCmd (fun s => Sys.call s c (fun k => decide (k = 0x20)) phys) s

/-- CH_RECV (R447). -/
def execChRecv (c : Fin 32) (s : State) : Host.Outcome State Fault Refusal :=
  coreCmd (fun s => Sys.call s c (fun k => decide (k = 0x21)) .ok) s

/-- KEY_CREATE (R449). -/
def execKeyCreate (c : Under (Fin 32)) (s : State) : Host.Outcome State Fault Refusal :=
  coreCmd (fun s => Sys.call s c.op (fun k => decide (k = 0x30)) c.phys) s

/-- KEY_REMOVE (R449). -/
def execKeyRemove (c : Under (Fin 32)) (s : State) : Host.Outcome State Fault Refusal :=
  coreCmd (fun s => Sys.call s c.op (fun k => decide (k = 0x31)) c.phys) s

/-- KEY_REVOKE (R449). -/
def execKeyRevoke (c : Under (Fin 32)) (s : State) : Host.Outcome State Fault Refusal :=
  coreCmd (fun s => Sys.call s c.op (fun k => decide (k = 0x32)) c.phys) s

/-- STREAM_BEGIN (R450). -/
def execStreamBegin (c : Fin 32) (s : State) : Host.Outcome State Fault Refusal :=
  coreCmd (fun s => Sys.call s c (fun k => decide (k = 0x40)) .ok) s

/-- STREAM_DATA (R450). -/
def execStreamData (c : Fin 32) (phys : Phys) (s : State) : Host.Outcome State Fault Refusal :=
  coreCmd (fun s => Sys.call s c (fun k => decide (k = 0x41)) phys) s

/-- STREAM_RELEASE (R450). -/
def execStreamRelease (c : Fin 32) (s : State) : Host.Outcome State Fault Refusal :=
  coreCmd (fun s => Sys.call s c (fun k => decide (k = 0x42)) .ok) s

/-- PLE_LOAD (R451). -/
def execPleLoad (c : Fin 32) (s : State) : Host.Outcome State Fault Refusal :=
  coreCmd (fun s => Sys.call s c (fun k => decide (k = 0x48)) .ok) s

/-- PLE_RUN (R451). -/
def execPleRun (c : Fin 32) (phys : Phys) (s : State) : Host.Outcome State Fault Refusal :=
  coreCmd (fun s => Sys.call s c (fun k => decide (k = 0x49)) phys) s

/-- SYSCALL_UNKNOWN (R443). -/
def execSyscallUnknown (c : Fin 32) (s : State) : Host.Outcome State Fault Refusal :=
  coreCmd (fun s => Sys.call s c (fun k => !Sys.known.contains k) .ok) s

end Sys2Proof.Machine
end

