-- ==== Sys2Proof/Machine/SystemCmds.lean ====
section
/-! DEFINITION. Commands written to the system, firmware and channel objects: one meaning for each command. -/

namespace Sys2Proof.Machine

/-- RANDOM_READ (R385). -/
def execRandomRead (h : Hdr) (sub : Fin 3) (s : State) : Host.Outcome State Fault Refusal :=
  coreCmd (fun s => request s (hdrRq h (if sub = 2 then 3 else 1) 0x2310 (sub.val + 1) [])) s

/-- CORE_RESET_REQUEST (R80). -/
def execCoreResetRequest (h : Hdr) (s : State) : Host.Outcome State Fault Refusal :=
  coreCmd (fun s => request s (rqWrite h 0x2100 0x0C [1])) s

/-- FIELD_DIE_RESET_REQUEST (R80). -/
def execFieldDieResetRequest (h : Hdr) (s : State) : Host.Outcome State Fault Refusal :=
  coreCmd (fun s => request s (rqWrite h 0x2100 0x0D [1])) s

/-- LOAD_IMAGE (R130). -/
def execLoadImage (h : Hdr) (g : Seg) (s : State) : Host.Outcome State Fault Refusal :=
  coreCmd (fun s => request s (rqSeg h 0x1100 1 g)) s

/-- VERIFY (R130). -/
def execVerify (h : Hdr) (s : State) : Host.Outcome State Fault Refusal :=
  coreCmd (fun s => request s (rqWrite h 0x1100 3 [1])) s

/-- ACTIVATE (R130). -/
def execActivate (h : Hdr) (s : State) : Host.Outcome State Fault Refusal :=
  coreCmd (fun s => request s (rqWrite h 0x1100 4 [1])) s

/-- RAISE_FLOOR (R131). -/
def execRaiseFloor (h : Hdr) (v : Word) (s : State) : Host.Outcome State Fault Refusal :=
  coreCmd (fun s => request s (rqWrite h 0x1100 5 (leBytes 4 v.toNat))) s

/-- FULL_SELF_TEST (R127). -/
def execFullSelfTest (h : Hdr) (s : State) : Host.Outcome State Fault Refusal :=
  coreCmd (fun s => request s (rqWrite h 0xE800 1 [1])) s

/-- RECOVER_NOW (R156). -/
def execRecoverNow (h : Hdr) (can : Fin 4) (s : State) : Host.Outcome State Fault Refusal :=
  coreCmd (fun s => request s (rqWrite h (0x1200 + can.val) 8 [1])) s

/-- CHANNEL_OPEN (R211). -/
def execChannelOpen (h : Hdr) (n : Fin 32768) (s : State) : Host.Outcome State Fault Refusal :=
  coreCmd (fun s => request s (rqWrite h (0x4000 + n.val) 6 [1])) s

/-- CHANNEL_CLOSE (R211). -/
def execChannelClose (h : Hdr) (n : Fin 32768) (s : State) : Host.Outcome State Fault Refusal :=
  coreCmd (fun s => request s (rqWrite h (0x4000 + n.val) 6 [0])) s

/-- REKEY (R225). -/
def execRekey (h : Hdr) (n : Fin 32768) (s : State) : Host.Outcome State Fault Refusal :=
  coreCmd (fun s => request s (rqWrite h (0x4000 + n.val) 7 [1])) s

/-- FLAG_CLEAR (R214). -/
def execFlagClear (h : Hdr) (n : Fin 32768) (mask : Word) (s : State) : Host.Outcome State Fault Refusal :=
  coreCmd (fun s => request s (rqWrite h (0x4000 + n.val) 0x0C (leBytes 4 mask.toNat))) s

/-- KEY_NODE_WRITE (R211). -/
def execKeyNodeWrite (h : Hdr) (n : Fin 32768) (handle : Word) (s : State) : Host.Outcome State Fault Refusal :=
  coreCmd (fun s => request s (rqWrite h (0x4000 + n.val) 2 (leBytes 4 handle.toNat))) s

/-- HEARTBEAT_INTERVAL_WRITE (R240). -/
def execHeartbeatIntervalWrite (h : Hdr) (n : Fin 32768) (ms : BitVec 16) (s : State) : Host.Outcome State Fault Refusal :=
  coreCmd (fun s => request s (rqWrite h (0x4000 + n.val) 0x0D (leBytes 2 ms.toNat))) s

/-- CHANNEL_SEND (R232). -/
def execChannelSend (h : Hdr) (n : Fin 32768) (g : Seg) (s : State) : Host.Outcome State Fault Refusal :=
  coreCmd (fun s => request s (rqSeg h (0x4000 + n.val) 0x0E g)) s

/-- RECEIVE_RELEASE (R233). -/
def execReceiveRelease (h : Hdr) (n : Fin 32768) (seq : Word) (s : State) : Host.Outcome State Fault Refusal :=
  coreCmd (fun s => request s (rqWrite h (0x4000 + n.val) 0x10 (leBytes 4 seq.toNat))) s

end Sys2Proof.Machine
end

