-- ==== Sys2Proof/Machine/Dispatch.lean ====
section
/-! DEFINITION. One arm for each command: its meaning on everything but the queue. -/

namespace Sys2Proof.Machine

def exec (i : Instr) (s : State) : Host.Outcome State Fault Refusal :=
  match i with
  | .send frame whole => Sys2Proof.Machine.execSend frame whole s
  | .fetch clocked => Sys2Proof.Machine.execFetch clocked s
  | .refetch clocked => Sys2Proof.Machine.execRefetch clocked s
  | .status => Sys2Proof.Machine.execStatus s
  | .clear frame whole => Sys2Proof.Machine.execClear frame whole s
  | .unknownOpcodeFrame opcode => Sys2Proof.Machine.execUnknownOpcodeFrame opcode s
  | .read r => Sys2Proof.Machine.execRead r s
  | .write r => Sys2Proof.Machine.execWrite r s
  | .readSegInit r => Sys2Proof.Machine.execReadSegInit r s
  | .readSeg r => Sys2Proof.Machine.execReadSeg r s
  | .writeSegInit r => Sys2Proof.Machine.execWriteSegInit r s
  | .writeSeg r => Sys2Proof.Machine.execWriteSeg r s
  | .abortTransfer r => Sys2Proof.Machine.execAbortTransfer r s
  | .bindRequest r => Sys2Proof.Machine.execBindRequest r s
  | .bindResponse r => Sys2Proof.Machine.execBindResponse r s
  | .unbind r => Sys2Proof.Machine.execUnbind r s
  | .describe r => Sys2Proof.Machine.execDescribe r s
  | .unknownService svc r => Sys2Proof.Machine.execUnknownService svc r s
  | .randomRead h sub => Sys2Proof.Machine.execRandomRead h sub s
  | .coreResetRequest h => Sys2Proof.Machine.execCoreResetRequest h s
  | .fieldDieResetRequest h => Sys2Proof.Machine.execFieldDieResetRequest h s
  | .loadImage h g => Sys2Proof.Machine.execLoadImage h g s
  | .verify h => Sys2Proof.Machine.execVerify h s
  | .activate h => Sys2Proof.Machine.execActivate h s
  | .raiseFloor h v => Sys2Proof.Machine.execRaiseFloor h v s
  | .fullSelfTest h => Sys2Proof.Machine.execFullSelfTest h s
  | .recoverNow h can => Sys2Proof.Machine.execRecoverNow h can s
  | .channelOpen h n => Sys2Proof.Machine.execChannelOpen h n s
  | .channelClose h n => Sys2Proof.Machine.execChannelClose h n s
  | .rekey h n => Sys2Proof.Machine.execRekey h n s
  | .flagClear h n mask => Sys2Proof.Machine.execFlagClear h n mask s
  | .keyNodeWrite h n handle => Sys2Proof.Machine.execKeyNodeWrite h n handle s
  | .heartbeatIntervalWrite h n ms => Sys2Proof.Machine.execHeartbeatIntervalWrite h n ms s
  | .channelSend h n g => Sys2Proof.Machine.execChannelSend h n g s
  | .receiveRelease h n seq => Sys2Proof.Machine.execReceiveRelease h n seq s
  | .beginStream h slot value => Sys2Proof.Machine.execBeginStream h slot value s
  | .streamInput h slot g => Sys2Proof.Machine.execStreamInput h slot g s
  | .endOfData h slot => Sys2Proof.Machine.execEndOfData h slot s
  | .park h slot => Sys2Proof.Machine.execPark h slot s
  | .unpark h slot g => Sys2Proof.Machine.execUnpark h slot g s
  | .slotRelease h slot => Sys2Proof.Machine.execSlotRelease h slot s
  | .pleInput h slot g => Sys2Proof.Machine.execPleInput h slot g s
  | .pleSlotRun h slot => Sys2Proof.Machine.execPleSlotRun h slot s
  | .pleSlotRelease h slot => Sys2Proof.Machine.execPleSlotRelease h slot s
  | .createNode h g => Sys2Proof.Machine.execCreateNode h g s
  | .removeNode h handle => Sys2Proof.Machine.execRemoveNode h handle s
  | .bump h handle target => Sys2Proof.Machine.execBump h handle target s
  | .exportKey h source secret => Sys2Proof.Machine.execExportKey h source secret s
  | .takeOwnership h g => Sys2Proof.Machine.execTakeOwnership h g s
  | .recoverOwner h g => Sys2Proof.Machine.execRecoverOwner h g s
  | .pairSecret h g => Sys2Proof.Machine.execPairSecret h g s
  | .pairSecretClear h => Sys2Proof.Machine.execPairSecretClear h s
  | .retire h => Sys2Proof.Machine.execRetire h s
  | .serviceRetire h => Sys2Proof.Machine.execServiceRetire h s
  | .retireFuseBlow => Sys2Proof.Machine.execRetireFuseBlow s
  | .attest h value => Sys2Proof.Machine.execAttest h value s
  | .increment h k expected => Sys2Proof.Machine.execIncrement h k expected s
  | .advance h k w => Sys2Proof.Machine.execAdvance h k w s
  | .exportStart h value => Sys2Proof.Machine.execExportStart h value s
  | .journalReleaseThrough h x => Sys2Proof.Machine.execJournalReleaseThrough h x s
  | .exportClose h => Sys2Proof.Machine.execExportClose h s
  | .logReleaseThrough h x => Sys2Proof.Machine.execLogReleaseThrough h x s
  | .loadManifest h g => Sys2Proof.Machine.execLoadManifest h g s
  | .install h cell => Sys2Proof.Machine.execInstall h cell s
  | .appletRemove h cell => Sys2Proof.Machine.execAppletRemove h cell s
  | .controlStart h c => Sys2Proof.Machine.execControlStart h c s
  | .controlStop h c => Sys2Proof.Machine.execControlStop h c s
  | .controlRestart h c => Sys2Proof.Machine.execControlRestart h c s
  | .mailboxIn h c value => Sys2Proof.Machine.execMailboxIn h c value s
  | .guardOn h n => Sys2Proof.Machine.execGuardOn h n s
  | .guardOff h n => Sys2Proof.Machine.execGuardOff h n s
  | .permitRunStart h => Sys2Proof.Machine.execPermitRunStart h s
  | .permitRunStop h => Sys2Proof.Machine.execPermitRunStop h s
  | .outputSet h mask on => Sys2Proof.Machine.execOutputSet h mask on s
  | .ownerAcknowledge h x => Sys2Proof.Machine.execOwnerAcknowledge h x s
  | .serviceAcknowledge h x => Sys2Proof.Machine.execServiceAcknowledge h x s
  | .calderaLeave h => Sys2Proof.Machine.execCalderaLeave h s
  | .sensorConfigWrite h k sub value => Sys2Proof.Machine.execSensorConfigWrite h k sub value s
  | .serviceSet h => Sys2Proof.Machine.execServiceSet h s
  | .serviceClear h => Sys2Proof.Machine.execServiceClear h s
  | .islandSet h => Sys2Proof.Machine.execIslandSet h s
  | .islandClear h => Sys2Proof.Machine.execIslandClear h s
  | .vigilSet h => Sys2Proof.Machine.execVigilSet h s
  | .vigilClear h => Sys2Proof.Machine.execVigilClear h s
  | .auditSet h => Sys2Proof.Machine.execAuditSet h s
  | .auditClear h => Sys2Proof.Machine.execAuditClear h s
  | .provisionSet h => Sys2Proof.Machine.execProvisionSet h s
  | .provisionClear h => Sys2Proof.Machine.execProvisionClear h s
  | .serviceAllowedWrite h value => Sys2Proof.Machine.execServiceAllowedWrite h value s
  | .provisionLapseWrite h seconds => Sys2Proof.Machine.execProvisionLapseWrite h seconds s
  | .join h => Sys2Proof.Machine.execJoin h s
  | .joinFullCopy h => Sys2Proof.Machine.execJoinFullCopy h s
  | .sheafLeave h => Sys2Proof.Machine.execSheafLeave h s
  | .resetPartner h => Sys2Proof.Machine.execResetPartner h s
  | .concur h value => Sys2Proof.Machine.execConcur h value s
  | .counterControlWrite h b value => Sys2Proof.Machine.execCounterControlWrite h b value s
  | .counterClear h b mask => Sys2Proof.Machine.execCounterClear h b mask s
  | .snapshot h => Sys2Proof.Machine.execSnapshot h s
  | .taggingEnable h value => Sys2Proof.Machine.execTaggingEnable h value s
  | .syscallRead c phys => Sys2Proof.Machine.execSyscallRead c phys s
  | .syscallWrite c phys => Sys2Proof.Machine.execSyscallWrite c phys s
  | .sysTime c => Sys2Proof.Machine.execSysTime c s
  | .sysNotify c => Sys2Proof.Machine.execSysNotify c s
  | .sysStop c => Sys2Proof.Machine.execSysStop c s
  | .sysWait c => Sys2Proof.Machine.execSysWait c s
  | .waitDeadline c => Sys2Proof.Machine.execWaitDeadline c s
  | .ctrIncrement c phys => Sys2Proof.Machine.execCtrIncrement c phys s
  | .ctrAdvance c phys => Sys2Proof.Machine.execCtrAdvance c phys s
  | .chSend c phys => Sys2Proof.Machine.execChSend c phys s
  | .chRecv c => Sys2Proof.Machine.execChRecv c s
  | .keyCreate c => Sys2Proof.Machine.execKeyCreate c s
  | .keyRemove c => Sys2Proof.Machine.execKeyRemove c s
  | .keyRevoke c => Sys2Proof.Machine.execKeyRevoke c s
  | .streamBegin c => Sys2Proof.Machine.execStreamBegin c s
  | .streamData c phys => Sys2Proof.Machine.execStreamData c phys s
  | .streamRelease c => Sys2Proof.Machine.execStreamRelease c s
  | .pleLoad c => Sys2Proof.Machine.execPleLoad c s
  | .pleRun c phys => Sys2Proof.Machine.execPleRun c phys s
  | .syscallUnknown c => Sys2Proof.Machine.execSyscallUnknown c s
  | .rngDataRead c => Sys2Proof.Machine.execRngDataRead c s
  | .rngDataStallTimeout c => Sys2Proof.Machine.execRngDataStallTimeout c s
  | .cellLoadComplete c => Sys2Proof.Machine.execCellLoadComplete c s
  | .quantumExpiry => Sys2Proof.Machine.execQuantumExpiry s
  | .budgetFault c => Sys2Proof.Machine.execBudgetFault c s
  | .faultAdmission c => Sys2Proof.Machine.execFaultAdmission c s
  | .illegalInstruction c => Sys2Proof.Machine.execIllegalInstruction c s
  | .lui c rd imm => Sys2Proof.Machine.execLui c rd imm s
  | .auipc c rd imm => Sys2Proof.Machine.execAuipc c rd imm s
  | .jal c rd off => Sys2Proof.Machine.execJal c rd off s
  | .jalr c rd rs1 imm => Sys2Proof.Machine.execJalr c rd rs1 imm s
  | .beq c rs1 rs2 off => Sys2Proof.Machine.execBeq c rs1 rs2 off s
  | .bne c rs1 rs2 off => Sys2Proof.Machine.execBne c rs1 rs2 off s
  | .blt c rs1 rs2 off => Sys2Proof.Machine.execBlt c rs1 rs2 off s
  | .bge c rs1 rs2 off => Sys2Proof.Machine.execBge c rs1 rs2 off s
  | .bltu c rs1 rs2 off => Sys2Proof.Machine.execBltu c rs1 rs2 off s
  | .bgeu c rs1 rs2 off => Sys2Proof.Machine.execBgeu c rs1 rs2 off s
  | .lb c rd rs1 imm => Sys2Proof.Machine.execLb c rd rs1 imm s
  | .lh c rd rs1 imm => Sys2Proof.Machine.execLh c rd rs1 imm s
  | .lw c rd rs1 imm => Sys2Proof.Machine.execLw c rd rs1 imm s
  | .lbu c rd rs1 imm => Sys2Proof.Machine.execLbu c rd rs1 imm s
  | .lhu c rd rs1 imm => Sys2Proof.Machine.execLhu c rd rs1 imm s
  | .sb c rs1 rs2 imm => Sys2Proof.Machine.execSb c rs1 rs2 imm s
  | .sh c rs1 rs2 imm => Sys2Proof.Machine.execSh c rs1 rs2 imm s
  | .sw c rs1 rs2 imm => Sys2Proof.Machine.execSw c rs1 rs2 imm s
  | .addi c rd rs1 imm => Sys2Proof.Machine.execAddi c rd rs1 imm s
  | .slti c rd rs1 imm => Sys2Proof.Machine.execSlti c rd rs1 imm s
  | .sltiu c rd rs1 imm => Sys2Proof.Machine.execSltiu c rd rs1 imm s
  | .xori c rd rs1 imm => Sys2Proof.Machine.execXori c rd rs1 imm s
  | .ori c rd rs1 imm => Sys2Proof.Machine.execOri c rd rs1 imm s
  | .andi c rd rs1 imm => Sys2Proof.Machine.execAndi c rd rs1 imm s
  | .slli c rd rs1 sh => Sys2Proof.Machine.execSlli c rd rs1 sh s
  | .srli c rd rs1 sh => Sys2Proof.Machine.execSrli c rd rs1 sh s
  | .srai c rd rs1 sh => Sys2Proof.Machine.execSrai c rd rs1 sh s
  | .add c rd rs1 rs2 => Sys2Proof.Machine.execAdd c rd rs1 rs2 s
  | .sub c rd rs1 rs2 => Sys2Proof.Machine.execSub c rd rs1 rs2 s
  | .sll c rd rs1 rs2 => Sys2Proof.Machine.execSll c rd rs1 rs2 s
  | .slt c rd rs1 rs2 => Sys2Proof.Machine.execSlt c rd rs1 rs2 s
  | .sltu c rd rs1 rs2 => Sys2Proof.Machine.execSltu c rd rs1 rs2 s
  | .xor c rd rs1 rs2 => Sys2Proof.Machine.execXor c rd rs1 rs2 s
  | .srl c rd rs1 rs2 => Sys2Proof.Machine.execSrl c rd rs1 rs2 s
  | .sra c rd rs1 rs2 => Sys2Proof.Machine.execSra c rd rs1 rs2 s
  | .or c rd rs1 rs2 => Sys2Proof.Machine.execOr c rd rs1 rs2 s
  | .and c rd rs1 rs2 => Sys2Proof.Machine.execAnd c rd rs1 rs2 s
  | .fence c => Sys2Proof.Machine.execFence c s
  | .mul c rd rs1 rs2 => Sys2Proof.Machine.execMul c rd rs1 rs2 s
  | .mulh c rd rs1 rs2 => Sys2Proof.Machine.execMulh c rd rs1 rs2 s
  | .mulhsu c rd rs1 rs2 => Sys2Proof.Machine.execMulhsu c rd rs1 rs2 s
  | .mulhu c rd rs1 rs2 => Sys2Proof.Machine.execMulhu c rd rs1 rs2 s
  | .div c rd rs1 rs2 => Sys2Proof.Machine.execDiv c rd rs1 rs2 s
  | .divu c rd rs1 rs2 => Sys2Proof.Machine.execDivu c rd rs1 rs2 s
  | .rem c rd rs1 rs2 => Sys2Proof.Machine.execRem c rd rs1 rs2 s
  | .remu c rd rs1 rs2 => Sys2Proof.Machine.execRemu c rd rs1 rs2 s
  | .cAddi4spn c rd u => Sys2Proof.Machine.execCAddi4spn c rd u s
  | .cLw c rd rs1 u => Sys2Proof.Machine.execCLw c rd rs1 u s
  | .cSw c rs1 rs2 u => Sys2Proof.Machine.execCSw c rs1 rs2 u s
  | .cNop c => Sys2Proof.Machine.execCNop c s
  | .cAddi c rd imm => Sys2Proof.Machine.execCAddi c rd imm s
  | .cJal c off => Sys2Proof.Machine.execCJal c off s
  | .cLi c rd imm => Sys2Proof.Machine.execCLi c rd imm s
  | .cAddi16sp c imm => Sys2Proof.Machine.execCAddi16sp c imm s
  | .cLui c rd imm => Sys2Proof.Machine.execCLui c rd imm s
  | .cSrli c rd sh => Sys2Proof.Machine.execCSrli c rd sh s
  | .cSrai c rd sh => Sys2Proof.Machine.execCSrai c rd sh s
  | .cAndi c rd imm => Sys2Proof.Machine.execCAndi c rd imm s
  | .cSub c rd rs2 => Sys2Proof.Machine.execCSub c rd rs2 s
  | .cXor c rd rs2 => Sys2Proof.Machine.execCXor c rd rs2 s
  | .cOr c rd rs2 => Sys2Proof.Machine.execCOr c rd rs2 s
  | .cAnd c rd rs2 => Sys2Proof.Machine.execCAnd c rd rs2 s
  | .cJ c off => Sys2Proof.Machine.execCJ c off s
  | .cBeqz c rs1 off => Sys2Proof.Machine.execCBeqz c rs1 off s
  | .cBnez c rs1 off => Sys2Proof.Machine.execCBnez c rs1 off s
  | .cSlli c rd sh => Sys2Proof.Machine.execCSlli c rd sh s
  | .cLwsp c rd u => Sys2Proof.Machine.execCLwsp c rd u s
  | .cJr c rs1 => Sys2Proof.Machine.execCJr c rs1 s
  | .cMv c rd rs2 => Sys2Proof.Machine.execCMv c rd rs2 s
  | .cJalr c rs1 => Sys2Proof.Machine.execCJalr c rs1 s
  | .cAdd c rd rs2 => Sys2Proof.Machine.execCAdd c rd rs2 s
  | .cSwsp c rs2 u => Sys2Proof.Machine.execCSwsp c rs2 u s
  | .barrierCellReceive lane cell => Sys2Proof.Machine.execBarrierCellReceive lane cell s
  | .cellDropLimit lane => Sys2Proof.Machine.execCellDropLimit lane s
  | .bringupStart => Sys2Proof.Machine.execBringupStart s
  | .coreHello b fw => Sys2Proof.Machine.execCoreHello b fw s
  | .fieldHello b rom gen cause => Sys2Proof.Machine.execFieldHello b rom gen cause s
  | .keyCell key b tag => Sys2Proof.Machine.execKeyCell key b tag s
  | .keyAck b tag => Sys2Proof.Machine.execKeyAck b tag s
  | .bringupTimeout => Sys2Proof.Machine.execBringupTimeout s
  | .bringupRetry => Sys2Proof.Machine.execBringupRetry s
  | .idleCell lane => Sys2Proof.Machine.execIdleCell lane s
  | .idleTimer lane => Sys2Proof.Machine.execIdleTimer lane s
  | .fieldBarrierTimeout => Sys2Proof.Machine.execFieldBarrierTimeout s
  | .coreBarrierTimeout => Sys2Proof.Machine.execCoreBarrierTimeout s
  | .fieldStateAdmission => Sys2Proof.Machine.execFieldStateAdmission s
  | .bdpReq origin msg => Sys2Proof.Machine.execBdpReq origin msg s
  | .chfUp port node frame => Sys2Proof.Machine.execChfUp port node frame s
  | .channelReceive port node frame phys => Sys2Proof.Machine.execChannelReceive port node frame phys s
  | .bdpResp origin msg => Sys2Proof.Machine.execBdpResp origin msg s
  | .chfDown frame => Sys2Proof.Machine.execChfDown frame s
  | .route entries => Sys2Proof.Machine.execRoute entries s
  | .guardSet mask on permit => Sys2Proof.Machine.execGuardSet mask on permit s
  | .netConfig idx sub value => Sys2Proof.Machine.execNetConfig idx sub value s
  | .netConfigCommit gen => Sys2Proof.Machine.execNetConfigCommit gen s
  | .powerNotice value => Sys2Proof.Machine.execPowerNotice value s
  | .busOffRecoveryRequest can => Sys2Proof.Machine.execBusOffRecoveryRequest can s
  | .fieldReport p => Sys2Proof.Machine.execFieldReport p s
  | .inputEvent entries => Sys2Proof.Machine.execInputEvent entries s
  | .outputSense current => Sys2Proof.Machine.execOutputSense current s
  | .analogSense reading ovr => Sys2Proof.Machine.execAnalogSense reading ovr s
  | .netStatus p => Sys2Proof.Machine.execNetStatus p s
  | .fieldReportPeriod => Sys2Proof.Machine.execFieldReportPeriod s
  | .outputSensePeriod current => Sys2Proof.Machine.execOutputSensePeriod current s
  | .analogReportPeriod samples calibration => Sys2Proof.Machine.execAnalogReportPeriod samples calibration s
  | .netStatusPeriod => Sys2Proof.Machine.execNetStatusPeriod s
  | .guardInputSample levels => Sys2Proof.Machine.execGuardInputSample levels s
  | .eventWindowClose n => Sys2Proof.Machine.execEventWindowClose n s
  | .stuckTimeExpiry n => Sys2Proof.Machine.execStuckTimeExpiry n s
  | .pulseExpiry n => Sys2Proof.Machine.execPulseExpiry n s
  | .outputTrip n => Sys2Proof.Machine.execOutputTrip n s
  | .retryIntervalExpiry n => Sys2Proof.Machine.execRetryIntervalExpiry n s
  | .faultClearTimer n => Sys2Proof.Machine.execFaultClearTimer n s
  | .permitToggleAbsent => Sys2Proof.Machine.execPermitToggleAbsent s
  | .permitToggleLive => Sys2Proof.Machine.execPermitToggleLive s
  | .toggleRecordAdmission => Sys2Proof.Machine.execToggleRecordAdmission s
  | .vguardUndervoltage reading => Sys2Proof.Machine.execVguardUndervoltage reading s
  | .vguardRecovery reading => Sys2Proof.Machine.execVguardRecovery reading s
  | .canSingle can node data => Sys2Proof.Machine.execCanSingle can node data s
  | .canFirst can node data => Sys2Proof.Machine.execCanFirst can node data s
  | .canConsecutive can node data => Sys2Proof.Machine.execCanConsecutive can node data s
  | .canChannelFrame can node data => Sys2Proof.Machine.execCanChannelFrame can node data s
  | .reassemblyTimeout can node => Sys2Proof.Machine.execReassemblyTimeout can node s
  | .busOffAutoRecovery can => Sys2Proof.Machine.execBusOffAutoRecovery can s
  | .ethBdpFrame port frame => Sys2Proof.Machine.execEthBdpFrame port frame s
  | .ethChannelFrame port frame => Sys2Proof.Machine.execEthChannelFrame port frame s
  | .coreResetRelease => Sys2Proof.Machine.execCoreResetRelease s
  | .fieldResetRelease => Sys2Proof.Machine.execFieldResetRelease s
  | .powerFail rail => Sys2Proof.Machine.execPowerFail rail s
  | .powerFailReset => Sys2Proof.Machine.execPowerFailReset s
  | .fieldSupplyFail rail => Sys2Proof.Machine.execFieldSupplyFail rail s
  | .resetNAssert width => Sys2Proof.Machine.execResetNAssert width s
  | .resetNRelease => Sys2Proof.Machine.execResetNRelease s
  | .frstNAssert width => Sys2Proof.Machine.execFrstNAssert width s
  | .frstNRelease => Sys2Proof.Machine.execFrstNRelease s
  | .fieldClockLoss => Sys2Proof.Machine.execFieldClockLoss s
  | .clockLost clock => Sys2Proof.Machine.execClockLost clock s
  | .lockstepMismatch => Sys2Proof.Machine.execLockstepMismatch s
  | .watchdogExpiry => Sys2Proof.Machine.execWatchdogExpiry s
  | .stageOverrun => Sys2Proof.Machine.execStageOverrun s
  | .deferredCoreReset => Sys2Proof.Machine.execDeferredCoreReset s
  | .deferredFieldReset => Sys2Proof.Machine.execDeferredFieldReset s
  | .clearStage => Sys2Proof.Machine.execClearStage s
  | .clocksStage katOk => Sys2Proof.Machine.execClocksStage katOk s
  | .firmwareStage => Sys2Proof.Machine.execFirmwareStage s
  | .recoverStage => Sys2Proof.Machine.execRecoverStage s
  | .tamperEvalStage => Sys2Proof.Machine.execTamperEvalStage s
  | .appletsStage => Sys2Proof.Machine.execAppletsStage s
  | .barrierStage => Sys2Proof.Machine.execBarrierStage s
  | .modesStage => Sys2Proof.Machine.execModesStage s
  | .conditionedBlock raw => Sys2Proof.Machine.execConditionedBlock raw s
  | .tillerInstantiate t => Sys2Proof.Machine.execTillerInstantiate t s
  | .tillerReseed t => Sys2Proof.Machine.execTillerReseed t s
  | .tillerRefill t => Sys2Proof.Machine.execTillerRefill t s
  | .balanceWindow f ones => Sys2Proof.Machine.execBalanceWindow f ones s
  | .entropyFailure cause f => Sys2Proof.Machine.execEntropyFailure cause f s
  | .entropyFailureAdmission => Sys2Proof.Machine.execEntropyFailureAdmission s
  | .deviceTimeTick => Sys2Proof.Machine.execDeviceTimeTick s
  | .responseRelease id => Sys2Proof.Machine.execResponseRelease id s
  | .heartbeatDue n phys => Sys2Proof.Machine.execHeartbeatDue n phys s
  | .switchAdmission n phys => Sys2Proof.Machine.execSwitchAdmission n phys s
  | .forcedRekey n => Sys2Proof.Machine.execForcedRekey n s
  | .helloRekey n => Sys2Proof.Machine.execHelloRekey n s
  | .cutAdmission => Sys2Proof.Machine.execCutAdmission s
  | .queuedSend n phys => Sys2Proof.Machine.execQueuedSend n phys s
  | .openAtStartup n => Sys2Proof.Machine.execOpenAtStartup n s
  | .timeCheckpoint => Sys2Proof.Machine.execTimeCheckpoint s
  | .statisticsAdmission => Sys2Proof.Machine.execStatisticsAdmission s
  | .provisionLapse => Sys2Proof.Machine.execProvisionLapse s
  | .islandClose => Sys2Proof.Machine.execIslandClose s
  | .backgroundWindow work => Sys2Proof.Machine.execBackgroundWindow work s
  | .backgroundReport => Sys2Proof.Machine.execBackgroundReport s
  | .storeFaultReport => Sys2Proof.Machine.execStoreFaultReport s
  | .telemetryAdmission temp vcore vddah vddps vddio vlvds => Sys2Proof.Machine.execTelemetryAdmission temp vcore vddah vddps vddio vlvds s
  | .sensorEvent code reading => Sys2Proof.Machine.execSensorEvent code reading s
  | .tamperLatchCommit => Sys2Proof.Machine.execTamperLatchCommit s
  | .sensorWindowExpiry code => Sys2Proof.Machine.execSensorWindowExpiry code s
  | .supplyWindowHold code => Sys2Proof.Machine.execSupplyWindowHold code s
  | .lidMeshCompare sensed => Sys2Proof.Machine.execLidMeshCompare sensed s
  | .enclosureMeshCompare m sensed => Sys2Proof.Machine.execEnclosureMeshCompare m sensed s
  | .clockWindowCheck row count => Sys2Proof.Machine.execClockWindowCheck row count s
  | .tamperAdmission => Sys2Proof.Machine.execTamperAdmission s
  | .sinterMeshCheck lid m0 m1 m2 m3 => Sys2Proof.Machine.execSinterMeshCheck lid m0 m1 m2 m3 s
  | .sinterLightCheck reading => Sys2Proof.Machine.execSinterLightCheck reading s
  | .sinterTempCheck reading => Sys2Proof.Machine.execSinterTempCheck reading s
  | .powerStateChoice => Sys2Proof.Machine.execPowerStateChoice s
  | .scheduledWake => Sys2Proof.Machine.execScheduledWake s
  | .wakeRequest => Sys2Proof.Machine.execWakeRequest s
  | .hibernateHelloTimer => Sys2Proof.Machine.execHibernateHelloTimer s
  | .hibernateWake readable => Sys2Proof.Machine.execHibernateWake readable s
  | .sheafFrameReceive frame => Sys2Proof.Machine.execSheafFrameReceive frame s
  | .sheafResend => Sys2Proof.Machine.execSheafResend s
  | .sheafIdle => Sys2Proof.Machine.execSheafIdle s
  | .sheafLinkLoss cause => Sys2Proof.Machine.execSheafLinkLoss cause s
  | .sheafDeadline adm => Sys2Proof.Machine.execSheafDeadline adm s
  | .sheafHello m => Sys2Proof.Machine.execSheafHello m s
  | .sheafProof proof => Sys2Proof.Machine.execSheafProof proof s
  | .sheafAdmit m => Sys2Proof.Machine.execSheafAdmit m s
  | .sheafRequest origin kind payload => Sys2Proof.Machine.execSheafRequest origin kind payload s
  | .sheafRefusal origin code header => Sys2Proof.Machine.execSheafRefusal origin code header s
  | .sheafDigest adm digest => Sys2Proof.Machine.execSheafDigest adm digest s
  | .commitAck adm code => Sys2Proof.Machine.execCommitAck adm code s
  | .verdict m => Sys2Proof.Machine.execVerdict m s
  | .readRelay origin request => Sys2Proof.Machine.execReadRelay origin request s
  | .readResult origin response => Sys2Proof.Machine.execReadResult origin response s
  | .sync kind item stamp value => Sys2Proof.Machine.execSync kind item stamp value s
  | .syncEnd pass items => Sys2Proof.Machine.execSyncEnd pass items s
  | .transferPass => Sys2Proof.Machine.execTransferPass s
  | .cutOver => Sys2Proof.Machine.execCutOver s
  | .autoJoin => Sys2Proof.Machine.execAutoJoin s
  | .partitionAdmission => Sys2Proof.Machine.execPartitionAdmission s
  | .suspensionAdmission => Sys2Proof.Machine.execSuspensionAdmission s
  | .vbatLoss => Sys2Proof.Machine.execVbatLoss s
  | .netStateChange port state tec recv => Sys2Proof.Machine.execNetStateChange port state tec recv s
  | .permitOutHalfPeriod => Sys2Proof.Machine.execPermitOutHalfPeriod s
  | .joinTimeout => Sys2Proof.Machine.execJoinTimeout s
  | .cacheFill node => Sys2Proof.Machine.execCacheFill node s
  | .maskReserveRefill lane t => Sys2Proof.Machine.execMaskReserveRefill lane t s

end Sys2Proof.Machine
end

