-- ==== Sys2Proof/Safety.lean ====
section
/-! DEFINITION. The terms in which statements speak of a run: a unit that admits requests, an authentic request, what every
admission leaves, and what it keeps. -/

namespace Sys2Proof.Machine

/-- A unit in READY and RUN that admits requests: no power failure, Retire, tamper response or wake stops the sequencer (R40, R359,
R486, R523), it leads where it is part of a pair (R524) and its partner has not run ahead (R547), entropy and a cipher lane serve
(R257, R388), a store token is at hand (R396), and the counter unit is within its rate (R401). -/
structure Ready (s : State) : Prop where
  stage : s.stage = 0x11
  run : s.power = 0
  powered : s.seq.failing = false
  taking : s.seq.retiring = false
  calm : s.tem.resp = none
  woken : s.boot.waking = false
  kept : s.otp.retired = false
  leads : pairNo s = 0
  first : SMap.look s.sheaf.theirs (s.seq.adm + 1) = none
  source : s.entropyDown = false
  entropy : num s 0x2300 1 ≠ 3
  lane : num s 0xCF20 1 = 0
  token : 4000 ≤ budgetNow (number s)
  pace : countedNow (number s) < 100000

/-- Request r meets nothing that stops it before its service: its reserved bits are 0 (R105), no fault strikes it (R198), it is the
oldest at its input and no input before that one holds a request that can be served (R180), its origin has no long operation (R126) and
may speak (R505), the AUDIT log has room for it (R201), and this unit runs it (R540). -/
structure Sound (s : State) (r : Rq) : Prop where
  sound : r.phys = .ok
  head : r.check2 = 0
  oldest : atHead s r = true
  turn : turn s (if localOrigin r.origin = 1 then 3 else 2) = true
  free : busy s r.origin = false
  reach : closedTo s r.origin = false
  log : auditHolds s (requestIn s r) = false
  here : partnerRuns s r = false

/-- K_sess of session z in slot k, as the unit derives it at its use (R318, R349). -/
def sessionKey (s : State) (k : Nat) (z : Session) : Bytes := (Session.keys s k z).take 32

/-- Request r is authentic on session z (R119 to R121): its trailer names the bound slot of z, in time and under a credential
that no bump has orphaned, with the right tag and a fresh counter that is not the last. -/
structure Authentic (s : State) (r : Rq) (tr : Trailer) (z : Session) : Prop extends Sound s r where
  trailer : r.trailer = some tr
  slot : SMap.look s.sessions tr.slot = some z
  origin : z.origin = r.origin
  bound : z.bound = true
  live : z.orphaned = false
  intime : s.seq.time ≤ z.time + idleLimit s
  tag : fitBytes 8 tr.tag = (cmac (sessionKey s tr.slot z) (0 :: r.signed)).take 8
  whole : tr.tag.length = 8
  fresh : z.last < tr.counter
  more : tr.counter ≠ 0xFFFFFFFF

/-- Request r comes without a session (R107). -/
structure Anonymous (s : State) (r : Rq) : Prop extends Sound s r where
  trailer : r.trailer = none

/-- The state in which the effect of a numbered request is computed: the next admission number at the present device time
(R181, R182). -/
def numberedIn (s : State) (r : Rq) : State := number (takeInput s r)

/-- The caller without a session. -/
def nobody (r : Rq) : Ctx := ⟨none, none, 0, r.origin⟩

/-- The caller that a session stands for. -/
def callerOf (r : Rq) (tr : Trailer) (z : Session) : Ctx := ⟨some z.role, some tr.slot, z.cred, r.origin⟩

/-- The caller of an authentic request, by whose name records of its admission go (R408). -/
def callerNow (s : State) (r : Rq) (tr : Trailer) : Ctx := ((SMap.look s.sessions tr.slot).map (callerOf r tr)).getD (nobody r)

/-- The same for an authentic request, whose session is renewed (R120). -/
def admittedIn (s : State) (r : Rq) (tr : Trailer) : State :=
  touchSession (calledBy (numberedIn s r) (callerNow s r tr)) tr.slot s.seq.time tr.counter true

/-- The state in which an ordered request is served (R18): its input taken, and counted. -/
def orderedIn (s : State) (r : Rq) : State := count (takeInput s r) 0 2 1

/-- The state in which an INIT is served: its input taken, and the open transfer of its origin discarded (R109); and the same counted, where
it is ordered, or numbered on its session. -/
def initIn (s : State) (r : Rq) : State := replaceTransfer (takeInput s r) r.origin
def initOrdered (s : State) (r : Rq) : State := count (initIn s r) 0 2 1
def initAdmitted (s : State) (r : Rq) (tr : Trailer) : State :=
  touchSession (calledBy (number (initIn s r)) (callerNow s r tr)) tr.slot s.seq.time tr.counter true

/-- The response that request r is answered with: sealed under its session (R119), or bare. -/
def answer (s : State) (r : Rq) (z : Option Session) (code : Nat) (body : Bytes) : Bytes :=
  match z with
  | some z => r.sealed (sessionKey s ((r.trailer.map (·.slot)).getD 0) z) code body
  | none => r.response code body

/-- What the admission of request r leaves (R104, R181, R186 to R188): the next number, at the present device time, and a
response in the release queue that leaves lat microseconds later, with these acts at its release. -/
structure Admitted (s t : State) (r : Rq) (z : Option Session) (lat code : Nat) (body : Bytes) (acts : List Act) : Prop where
  number : t.seq.adm = s.seq.adm + 1
  time : t.seq.admTime = s.seq.time
  slot : ∃ x ∈ t.slots, x.adm = s.seq.adm + 1 ∧ x.numbered = true ∧ x.origin = r.origin ∧ x.due = s.seq.time + lat ∧ x.code = code ∧
    x.acts = acts ∧ x.resp = some (answer s r z code body)

/-- What an ordered request leaves (R18, R186, R188): no number, and a response that leaves lat microseconds later. -/
structure Ordered (s t : State) (r : Rq) (z : Option Session) (lat code : Nat) (body : Bytes) : Prop where
  number : t.seq.adm = s.seq.adm
  time : t.seq.admTime = s.seq.admTime
  slot : ∃ x ∈ t.slots, x.adm = s.seq.adm ∧ x.numbered = false ∧ x.origin = r.origin ∧ x.due = s.seq.time + lat ∧ x.code = code ∧
    x.acts = [] ∧ x.resp = some (answer s r z code body)

/-- The role of a session satisfies the requirement of an object (R99). -/
def roleServes (need : Role) (r : Nat) : Bool :=
  match need with
  | .any => true
  | .operator => decide (r = 1 ∨ r = 2)
  | .owner => decide (r = 2)
  | .service => decide (r = 3)
  | .pair => false

/-- A client on the host link or the field network speaks to a ready unit in session z: request r is authentic, the session has
the role that the object needs, and a SERVICE session is not recorded under VIGIL (R510). -/
structure Client (s : State) (r : Rq) (tr : Trailer) (z : Session) (need : Role) : Prop where
  ready : Ready s
  authentic : Authentic s r tr z
  role : roleServes need z.role = true
  unrecorded : z.role = 3 → serviceOn s = false ∨ vigilOn s = false
  person : r.origin < 0x100 ∨ 0x120 ≤ r.origin

/-- No region of the store is at its endurance limit (R397). -/
def Unworn (s : State) : Prop := s.pers.laps.commit < lapLimit ∧ s.pers.laps.dict < lapLimit ∧ s.pers.laps.jour < lapLimit

/-- Room for an accepted write: the journal is not full (R124) and no region is at its endurance limit (R397). -/
structure Room (s : State) : Prop where
  journal : journalFull s = false
  wear : Unworn s

/-- The settings and actions of a unit in the field: OWNED (R9), no part of a pair (R524), not in CALDERA (R499), and with
room for the change and its record. -/
structure Open (s : State) : Prop extends Room s where
  life : s.otp.lifecycle = 0x5A
  kept : s.otp.retired = false
  single : num s 0x2000 2 = 0
  caldera : num s 0xD802 1 = 0

/-- Objects that the end of an admission may count in: the log's break and its holds, and the losses of the journal and the state of
its export. -/
def bookkeeping (i k : Nat) : Bool :=
  (decide (i = 0xDC80) && decide (5 ≤ k ∧ k ≤ 7)) || (decide (i = 0xDC00) && decide (k = 5 ∨ k = 10)) || (decide (i = 0xDC10) && decide (k = 3))

/-- Every object but those of xs and bookkeeping reads as before. -/
def OthersStand (s t : State) (xs : List (Nat × Nat)) : Prop :=
  ∀ i k, k < 256 → bookkeeping i k = false → (i, k) ∉ xs → getObj t i k = getObj s i k

/-- The objects of a write that only holds its value: checks of its range, and nothing more. -/
def holdsOnly (i : Nat) : Bool := decide (i ∈ [0x1010, 0x1020, 0x2010, 0xDC00, 0xE300]) || decide (0x3000 ≤ i ∧ i < 0x3040)

/-- The count of a statistic in hardware before its next statistics admission (R143). -/
def counted (s : State) (i k : Nat) : Nat := SMap.at' s.hw (objKey i k) (num s i k)

/-- Command i, carried by request r of session z, completes: it is admitted, its response waits lat microseconds with code 0, this
body and these acts, and P holds of the state after it. -/
def Replies (i : Instr) (s : State) (r : Rq) (z : Session) (lat : Nat) (body : Bytes) (acts : List Act) (P : State → Prop) : Prop :=
  ∃ t, exec i s = .next t ∧ Admitted s t r (some z) lat 0 body acts ∧ P t

/-- The same with no body. -/
def Completes (i : Instr) (s : State) (r : Rq) (z : Session) (lat : Nat) (acts : List Act) (P : State → Prop) : Prop :=
  Replies i s r z lat [] acts P

/-- The open transfer x of the origin of r writes object i.k on this session, and segment g is the one it expects (R110): within a
second of the last by admitted device times (R183), with its length right and its END bit set exactly where it carries the last byte. A
transfer opened without a session takes a segment on any (log 117). -/
structure NextSegment (s : State) (r : Rq) (sess : Option Nat) (i k : Nat) (g : Seg) (x : Transfer) : Prop where
  isOpen : transferOf s r.origin = some x
  writes : x.writing = true
  idx : x.idx = i
  sub : x.sub = k
  sess : x.sess = none ∨ x.sess = sess
  intime : (if isNumbered s r then s.seq.time else s.seq.admTime) ≤ x.time + 1000000
  order : g.num = x.next
  small : g.num < 65536
  len : g.len = g.data.length
  some : 0 < g.len
  most : g.len ≤ 1024
  fits : x.got + g.len ≤ x.total
  fin : g.flags = if x.got + g.len = x.total then 1 else 0

/-- The transfer after segment g, at admitted device time now (R110, R183). -/
def Transfer.took (x : Transfer) (g : Seg) (now : Nat) : Transfer :=
  { x with got := x.got + g.len, next := x.next + 1, lastData := g.data, buf := x.buf ++ g.data, time := now }

/-- Counter k has moved to value n in the next admission, no other counter has, and the 40,000 us of credit are drawn (R399, R401, R402, R405). -/
def Counts (s t : State) (k n : Nat) : Prop :=
  counterValue t k = n ∧ (∀ j, j ≠ k → counterValue t j = counterValue s j) ∧
    SMap.look t.credit k = some (creditNow (number s) k - 40000, s.seq.time) ∧ num t (0xC000 + k) 6 = s.seq.adm + 1 ∧ num t (0xC000 + k) 7 = s.seq.time

/-- The act by which the value of an accepted write to object i.k takes effect at its release, where its own effects wait for it (R23). -/
def heldWrite (i k : Nat) (v : Bytes) : List Act :=
  match (Dict.find i k).2 with
  | some d =>
    let val := if isWoDomain i k then .oct (digest16 v) else d.decode v
    [.setObj (objKey i k) val]
  | none => []

/-- The response body of a WRITE_SEG (R105). -/
def segReply (g : Seg) : Bytes := leBytes 2 g.num ++ [0, 0]

/-- A state without the dictionary and without what the end of an admission may change: the journal and its open export, the
AUDIT log, the store token, the commits with their entries, laps and time, the dictionary's log, the name under which records go, the rate of
the counter unit, the reserve of masks (R252), hardware counts, performance counters, and what is owed to a partner. -/
def bare (s : State) : State :=
  { s with
    dict := [], hw := [], audit := ⟨[], false, 0⟩, perf := ⟨[], [], none, 0, [], false⟩, exportRun := none
    seq := { s.seq with budget := 0, budgetAt := 0, commits := [], counted := [], who := (0, 0, 0) }
    rng := { s.rng with masks := [] }
    pers := { s.pers with dict := [], dlog := [], cring := ⟨[], 0⟩, laps := ⟨0, 0, 0⟩, commitTime := 0, jour := ⟨[], 0, [], [], [], none⟩ }
    sheaf := { s.sheaf with out := [], digests := [], owed := [], awaits := [], dirty := [], lastPair := 0, lastChain := [] } }

/-- State t is a but for bookkeeping: every object outside it, and everything else, stands as in a. -/
structure Settled (a t : State) : Prop where
  rest : bare t = bare a
  objects : ∀ i k, k < 256 → bookkeeping i k = false → getObj t i k = getObj a i k
  run : t.exportRun = a.exportRun ∨ t.exportRun = none

/-- The input bytes of a system call n with arguments a that the call takes in (R443, R444). -/
def callBytes (x : Cell) (n : Nat) (a : List Nat) : Bytes := loadBytes x (Sys.inBuf n a).1 (Sys.taken n a)

/-- Cell c, with state x, holds the pair at an ECALL of system call n with arguments a that nothing refuses before its admission
(R443), on a ready unit outside a pair; no input before the cells holds a request that can be served (R180), and the AUDIT log has room
for it. -/
structure Calls (s : State) (c : Fin 32) (x : Cell) (n : Nat) (a : List Nat) : Prop where
  ready : Ready s
  single : num s 0x2000 2 = 0
  cell : running s c = some x
  ecall : fetch x = some 0x73
  number : (reg x 17).toNat = n
  args : Sys.args x = a
  early : Sys.early s c.val x n a = 0
  turn : turn s 4 = true
  first : Sys.cellTurn s c.val = true
  log : auditHolds s (Sys.callIn s c.val n a (callBytes x n a)) = false

/-- Cell c past its ECALL, while the call is out (R429, R430, R443). -/
def calling (x : Cell) : Cell := { x with pc := x.pc + 4, retired := 0, stalled := none, blocked := true }

/-- The state in which the effect of an ordered call is computed, and that of an admitted one. -/
def callState (s : State) (c : Fin 32) (x : Cell) : State := Sys.past s c.val x fun y => { y with blocked := true }
def calledState (s : State) (c : Fin 32) (x : Cell) : State :=
  let u := number (callState s c x)
  calledBy (incObj u (0xD000 + c.val) 13) (Sys.ctx u c.val)

/-- What the admission of a call leaves to be released (R443): lat microseconds later the cell gets code and regs in its registers, and mem in its
memory, after the acts. -/
structure Returns (s t : State) (c : Fin 32) (lat code : Nat) (regs : List (Nat × Nat)) (mem : List (Nat × Bytes)) (acts : List Act) : Prop where
  number : t.seq.adm = s.seq.adm + 1
  time : t.seq.admTime = s.seq.time
  count : num t (0xD000 + c.val) 13 = sat32 (num s (0xD000 + c.val) 13) 1
  slot : ∃ y ∈ t.slots, y.adm = s.seq.adm + 1 ∧ y.numbered = true ∧ y.due = s.seq.time + lat ∧ y.acts = acts ++ [.cellRet c.val ((10, code) :: regs) mem]

/-- The canonical form of a cell's memory: addresses strictly rising, and no byte listed that reads as unlisted ones do (R428). -/
def Memory.wf (m : SMap Byte) : Bool := SMap.wf m && m.all fun p => p.2 ≠ 0

/-- What an instruction leaves alone outside its cell: numbering, releases, the internal queue, the store and the objects. -/
def cellsOnly (s t : State) : Prop := t.seq = s.seq ∧ t.slots = s.slots ∧ t.pers = s.pers ∧ t.dict = s.dict ∧ t.otp = s.otp ∧ t.field = s.field

/-- Instruction i of cell c retires (R421 to R425): where the cell executes and i is the instruction at its pc, and ok holds, the cell becomes
f of what it was, lat tempo cycles pass, and nothing else changes but counters and the tag. -/
def Retires (i : Instr) (c : Fin 32) (lat : Nat) (ok : Cell → Prop) (f : State → Cell → Cell) : Prop :=
  ∀ (s : State) (x : Cell) (w : Nat), running s c = some x → fetch x = some w → Rv.decode c w = .insn i → ok x →
    ∃ t, exec i s = .next t ∧ SMap.look t.twc.cells c.val = some { f s x with retired := x.retired + 1, stalled := none } ∧
      (∀ k, k ≠ c.val → SMap.look t.twc.cells k = SMap.look s.twc.cells k) ∧ t.twc.current = s.twc.current ∧
      t.twc.cycles = s.twc.cycles + lat ∧ t.internal = s.internal ∧ cellsOnly s t

/-- Instruction i of n bytes sets register rd and goes on. -/
def Sets (i : Instr) (c : Fin 32) (n lat : Nat) (rd : Fin 32) (v : Cell → Word) : Prop :=
  Retires i c lat (fun _ => True) fun _ x => { setReg x rd (v x) with pc := x.pc + BitVec.ofNat 32 n }

/-- Instruction i sets register rd and goes to an address. -/
def Jumps (i : Instr) (c : Fin 32) (rd : Fin 32) (v : Cell → Word) (pc : Cell → Word) : Prop :=
  Retires i c 2 (fun _ => True) fun _ x => { setReg x rd (v x) with pc := pc x }

/-- Instruction i of n bytes stores the low k bytes of rs2 at an address of the data region. -/
def Stores (i : Instr) (c : Fin 32) (n k : Nat) (addr : Cell → Word) (rs2 : Fin 32) : Prop :=
  Retires i c 1 (fun x => (addr x).toNat % k = 0 ∧ x.code ≤ (addr x).toNat ∧ (addr x).toNat + k ≤ 0x30000)
    fun _ x => { storeBytes x (addr x).toNat (leBytes k (reg x rs2).toNat) with pc := x.pc + BitVec.ofNat 32 n }

/-- Instruction i of n bytes loads into rd what v makes of k bytes at an address of the code or data region. -/
def Loads (i : Instr) (c : Fin 32) (n k : Nat) (addr : Cell → Word) (rd : Fin 32) (v : Bytes → Word) : Prop :=
  Retires i c 2 (fun x => (addr x).toNat % k = 0 ∧ (addr x).toNat + k ≤ 0x30000)
    fun _ x => { setReg x rd (v (loadBytes x (addr x).toNat k)) with pc := x.pc + BitVec.ofNat 32 n }

/-- A fault of cell c with this cause at this pc (R433, R434): the cell stops without registers and memory, and the fault waits at the head of the
internal queue. -/
def Faults (s t : State) (c : Fin 32) (cause : Nat) (pc : Word) : Prop :=
  t.internal = .cellFault c.val cause pc.toNat :: s.internal ∧ SMap.look t.twc.cells c.val = some { cell0 with dead := true } ∧
    t.twc.current ≠ some c.val ∧ t.seq = s.seq ∧ t.pers = s.pers ∧ t.dict = s.dict ∧ t.otp = s.otp ∧ t.field = s.field

/-- Where instruction i of cell c faults with this cause instead. -/
def Traps (i : Instr) (c : Fin 32) (cause : Nat) (bad : Cell → Prop) : Prop :=
  ∀ (s : State) (x : Cell) (w : Nat), running s c = some x → fetch x = some w → Rv.decode c w = .insn i → bad x →
    ∃ t, exec i s = .next t ∧ Faults s t c cause x.pc

/-- This unit admits internal admission i at once (R179): the sequencer is up, the unit is no part of a pair, and the AUDIT log has room (R201). -/
structure Inward (s : State) (i : AdmIn) : Prop where
  up : sequencerUp s = true
  single : num s 0x2000 2 = 0
  log : auditHolds s i = false

/-- Command c makes one admission: the next number, at the present device time (R181, R182), with the internal queue left as q; P holds after it. -/
def Admitting (c : Instr) (s : State) (q : List IntReq) (P : State → Prop) : Prop :=
  ∃ t, exec c s = .next t ∧ t.seq.adm = s.seq.adm + 1 ∧ t.seq.admTime = s.seq.time ∧ t.internal = q ∧ P t

/-- The same of an admission whose effects may be a ring commit (R393): P holds, unless the write of the ring's entry fails, which changes no
object (R194, R394). -/
def Committing (c : Instr) (s : State) (q : List IntReq) (P : State → Prop) : Prop :=
  Admitting c s q fun t => (commitFails s = false → P t) ∧ (P t ∨ OthersStand s t [])

/-- The next cell that the pair takes: the first runnable one after the cell last run (R429). -/
def nextCell (s : State) : Option Nat := ((List.range 32).map fun i => (s.twc.last + 1 + i) % 32).find? fun c => runnable s c

/-- Command c changes the field die alone, and it becomes a g with P g (R14). -/
def AtField (c : Instr) (s : State) (P : Field → Prop) : Prop := ∃ g, exec c s = .next { s with field := g } ∧ P g

/-- The field die runs, with the link up and no notice of sleep: what it sends joins the lane-0 queue at once (R171, R520). -/
structure OnLine (f : Field) : Prop where
  run : f.run = true
  link : f.link = 2
  awake : f.notice ≠ 1

/-- What an event of the guard lines leaves alone on the field die: its time, its link, its settings, its ports and networks. -/
def guardFrame (f g : Field) : Prop :=
  g.run = f.run ∧ g.time = f.time ∧ g.link = f.link ∧ g.key = f.key ∧ g.routes = f.routes ∧ g.nv = f.nv ∧ g.gen = f.gen ∧ g.ports = f.ports ∧
    g.reasm = f.reasm ∧ g.net = f.net ∧ g.notice = f.notice

/-- Output n becomes o, and nothing else of the guard lines changes. -/
def outBecomes (f g : Field) (n : Nat) (o : FOut) : Prop :=
  Fld.outOf g n = o ∧ (∀ k, k ≠ n → Fld.outOf g k = Fld.outOf f k) ∧ g.ins = f.ins ∧ g.wave = f.wave ∧ g.permitOut = f.permitOut ∧ guardFrame f g

/-- An INPUT_EVENT entry for input n at the present tick is on its way (R171, R467). -/
def entrySent (f g : Field) (n : Fin 16) (e : Byte) : Prop :=
  ∃ es, Lane0.inputEvent es ∈ g.lane0 ∧ (⟨n, e, BitVec.ofNat 32 (Fld.tick f)⟩ : InputEntry) ∈ es

/-- The state of a guard output by its bits, its current and its open-load threshold (R461, R462). -/
def loadState (cond fault : Bool) (cur thr : Nat) : Nat :=
  match cond, fault with
  | false, false => 0
  | true, true => 2
  | false, true => 3
  | true, false => if thr ≠ 0 ∧ s20Int cur * 2 < (1000 * thr : Nat) then 4 else 1

/-- Input n becomes x, and no other input or output changes. -/
def inBecomes (f g : Field) (n : Fin 16) (x : FIn) : Prop :=
  SMap.look g.ins n.val = some x ∧ (∀ k, k ≠ n.val → SMap.look g.ins k = SMap.look f.ins k) ∧ g.outs = f.outs ∧ guardFrame f g

/-- Ticks that have passed since tick t; field time wraps at 2^32 of them (R467). -/
def ticksSince (f : Field) (t : Nat) : Nat := (Fld.tick f + 4294967296 - t) % 4294967296

/-- Input n at a sample (R467): what its values were, and what they become. -/
def sampled (f : Field) (n : Fin 16) (v : Bool) : Option FIn → FIn
  | none => ⟨v, v, 0, none, false, if v then some (Fld.tick f) else none, false⟩
  | some x =>
    if v = x.f then { x with run := 0 }
    else if x.run + 1 < fset f (0xDB10 + n.val) 3 then { x with run := x.run + 1 }
    else if x.win.isSome then { x with f := v, run := 0, suppressed := true }
    else { x with f := v, run := 0, r := v, win := some (Fld.tick f), active := if v then some (Fld.tick f) else none, stuck := v && x.stuck }

/-- What a message or a network frame leaves alone on the field die: the guard lines, its time and its link. -/
def guardStands (f g : Field) : Prop :=
  g.outs = f.outs ∧ g.ins = f.ins ∧ g.events = f.events ∧ g.wave = f.wave ∧ g.permitOut = f.permitOut ∧ g.permitCmd = f.permitCmd ∧
    g.run = f.run ∧ g.time = f.time ∧ g.link = f.link ∧ g.key = f.key

/-- What a barrier message leaves alone on the core die: the store, numbering, objects, sessions, releases and the host link. -/
def dieFrame (s t : State) : Prop :=
  t.pers = s.pers ∧ t.otp = s.otp ∧ t.seq = s.seq ∧ t.dict = s.dict ∧ t.sessions = s.sessions ∧ t.slots = s.slots ∧ t.internal = s.internal ∧
    t.host = s.host ∧ t.twc = s.twc

/-- Command c brings message m of lane 1 to the field die where it comes next (R169), and the die becomes a g with P g. -/
def Delivers (c : Instr) (s : State) (m : Lane1) (P : Field → Prop) : Prop :=
  crosses1 s m = true → ∃ t, exec c s = .next t ∧ P t.field ∧ guardStands s.field t.field ∧ dieFrame s t

/-- What leaves on a port for a node (R146 to R148, R151, R158): CAN FD frames of an identifier with these data fields, or one Ethernet-class frame of a kind to the
address that the client table lists; nothing on a port that is off or bus-off. -/
def portFrames (f : Field) (p node id kind : Nat) (fields : List Bytes) (content : Bytes) : List NetFrame :=
  if p < 4 then (if Fld.portOn f p = true ∧ (Fld.portOf f p).state ≠ 2 then fields.map fun d => .can p (id + node) (Fld.brs f p) (Fld.esi f p) d else [])
  else if Fld.portOn f p = true ∧ Fld.clientMac f p node ≠ zeros 6 then [.eth p (Fld.ethFrame f p (Fld.clientMac f p node) kind content)] else []

/-- The frames xs leave on port p, and are counted there. -/
def sentAt (f g : Field) (p : Nat) (xs : List NetFrame) : Prop :=
  g.net = f.net ++ xs ∧ (xs ≠ [] → (Fld.portOf g p).sent = sat32 (Fld.portOf f p).sent xs.length)

/-- Command c brings a network frame to the field die, which becomes a g with P g. -/
def Frames (c : Instr) (s : State) (P : Field → Prop) : Prop := AtField c s fun g => P g ∧ guardStands s.field g ∧ g.routes = s.field.routes ∧ g.nv = s.field.nv

/-- The field die takes a frame: controller or port p is on, and messages go on to the core die at once. -/
def takesFrames (f : Field) (p : Nat) : Prop := OnLine f ∧ Fld.portOn f p = true ∧ (p < 4 → (Fld.portOf f p).state ≠ 2)

/-- One frame more received, or dropped, at port p. -/
def receivedAt (f g : Field) (p : Nat) : Prop := (Fld.portOf g p).received = sat32 (Fld.portOf f p).received 1
def droppedAt (f g : Field) (p : Nat) : Prop := (Fld.portOf g p).dropped = sat32 (Fld.portOf f p).dropped 1

/-- The Ethernet frame of R151 from src to own. -/
def ethFrame (own src : Bytes) (kind : Byte) (m : Bytes) : Bytes :=
  own ++ src ++ [0x88, 0xB5, kind, 0] ++ leBytes 2 m.length ++ m ++ zeros (42 - m.length)

/-- Command c makes one admission, after which P holds; what it may put on the internal queue is left open. -/
def Admitted1 (c : Instr) (s : State) (P : State → Prop) : Prop :=
  ∃ t, exec c s = .next t ∧ t.seq.adm = s.seq.adm + 1 ∧ t.seq.admTime = s.seq.time ∧ P t

/-- The barrier input with message m, where m has just crossed and does not wait at its head already (R184). -/
def atInput (s : State) (m : Lane0) : State := if s.bar.input.head? ≠ some m ∧ crosses0 s m = true then joinInput s m else s

/-- A report cell m of lane 0 meets its admission (R173): it is the oldest at the barrier input, no input before that one holds a request
(R180), and this unit admits it at once. -/
structure Reports (s : State) (m : Lane0) : Prop extends Inward s { internalIn 0 [] false with payload := Bar.payload0 m } where
  oldest : (atInput s m).bar.input.head? = some m
  turn : turn s 2 = true

/-- A release without a response waits lat microseconds with these acts. -/
def Releases (s t : State) (lat : Nat) (acts : List Act) : Prop := ∃ x ∈ t.slots, x.adm = t.seq.adm ∧ x.due = s.seq.time + lat ∧ x.resp = none ∧ x.acts = acts

/-- A cell of one lane that its receiver takes (R163 to R167): whole, d positions past the expected one and within the window, with the right tag and a
form that no check refuses. -/
structure GoodCell (c key : Bytes) (lane : Nat) (l : Lane) (d : Nat) : Prop where
  whole : c.length = 32
  near : d < 1024
  seq : (Bar.parse c).seq = (l.exp + d) % 65536
  tag : (Bar.parse c).tag = Bar.tag key (l.exp + d) lane (c.take 28)
  some : 1 ≤ (Bar.parse c).len
  most : (Bar.parse c).len ≤ 24
  reserved : (Bar.parse c).rsv = 0
  pad : (Bar.parse c).pad.all (· = 0) = true

/-- What the barrier link leaves alone: the store, objects, numbering, sessions, releases, the host link and the cells. -/
def linkStands (s t : State) : Prop :=
  t.pers = s.pers ∧ t.otp = s.otp ∧ t.seq = s.seq ∧ t.dict = s.dict ∧ t.sessions = s.sessions ∧ t.slots = s.slots ∧ t.host = s.host ∧ t.twc = s.twc

/-- The core die loses the link (R176): the toggle stops, what is queued or half received is discarded and counted, and the loss waits at the head of the
internal queue. -/
def LosesLink (c : Instr) (s : State) : Prop :=
  ∃ t, exec c s = .next t ∧ t.bar.up = false ∧ t.bar.trying = false ∧ t.bar.key = none ∧ t.bar.lane1 = [] ∧ t.bar.rx = ⟨1, 0, []⟩ ∧ t.boot.toggle = false ∧
    t.internal = .fieldState 3 none :: s.internal ++ (if s.boot.toggle then [.toggle false] else []) ∧
    counted t 0x1030 2 = sat32 (counted s 0x1030 2) 1 ∧
    counted t 0x1030 9 = sat32 (counted s 0x1030 9) ((s.bar.lane1.filter fun m => !Bar.isLink1 m).length + s.bar.rx.parts.length) ∧ linkStands s t ∧ t.field = s.field

/-- The field die without its link (R175): outputs and wave cut, every command, route and message discarded. -/
def FieldAlone (g : Field) : Prop :=
  g.outs = [] ∧ g.wave = false ∧ g.permitOut = false ∧ g.permitCmd = false ∧ g.routes = [] ∧ g.ready = [] ∧ g.key = none ∧ g.rx = ⟨1, 0, []⟩

/-- No admitted work waits for its release with persistent effects (R23, R339). -/
def noStaged (s : State) : Prop := ∀ x ∈ s.slots, ∀ a ∈ x.acts, stagesEffect a = false

/-- A core-die reset (R75, R76): the die is at this stage with this cause, and nothing volatile stands; the store, the fuses and the field die stay, but for what work that
was not released had staged. Only in a power failure may commits that were in progress be absent, the newest of them first (R23, R41); the number block stays reserved. -/
structure Restarted (s t : State) (cause stage : Nat) : Prop where
  cause : t.boot.cause = cause
  stage : t.stage = stage
  objects : t.dict = [] ∧ t.hw = []
  served : t.sessions = [] ∧ t.transfers = [] ∧ t.slots = [] ∧ t.internal = [] ∧ t.lockouts = []
  engines : t.chans = [] ∧ t.streams = [] ∧ t.ples = [] ∧ t.secrets = [] ∧ t.reports = [] ∧ t.cache = [] ∧ t.credit = []
  cells : t.twc.cells = [] ∧ t.twc.current = none
  host : t.host.buf = [] ∧ t.host.replies = [] ∧ t.host.last = none ∧ t.host.cause = 0
  link : t.bar.up = false ∧ t.bar.key = none ∧ t.bar.b = s.bar.b ∧ t.boot.toggle = false
  calm : t.power = 0 ∧ t.tem.resp = none ∧ t.seq.failing = false ∧ t.seq.retiring = false ∧ t.rng.tillers = [] ∧ t.rng.on = false
  fuses : t.otp = s.otp
  store : s.seq.failing = false → noStaged s → t.pers = s.pers
  heldUp : noStaged s → t.pers = s.pers ∨ ∃ c ∈ s.seq.commits, s.seq.time < c.1 + 8 ∧
    t.pers = { c.2 with reserved := s.pers.reserved, laps := s.pers.laps, cring := t.pers.cring }
  field : t.field = s.field

/-- Command c resets the core die so, and P holds after it. -/
def Restarts (c : Instr) (s : State) (cause stage : Nat) (P : State → Prop) : Prop := ∃ t, exec c s = .next t ∧ Restarted s t cause stage ∧ P t

/-- The field die after a reset with this cause (R77, R93): what it holds starts anew, but for its settings and their generation. -/
structure FieldStarted (f g : Field) (cause : Nat) (run : Bool) : Prop where
  run : g.run = run
  cause : g.cause = cause
  time : g.time = 0
  link : g.link = 0 ∧ g.key = none ∧ g.lane0 = [] ∧ g.ready = [] ∧ g.routes = [] ∧ g.staged = [] ∧ g.toggle = false ∧ g.notice = 0 ∧ g.wake = []
  lines : g.outs = [] ∧ g.ins = [] ∧ g.events = [] ∧ g.permitCmd = false ∧ g.wave = false ∧ g.permitOut = false
  nets : g.reasm = [] ∧ g.cellsDropped = 0 ∧ g.framesDropped = 0
  kept : g.nv = f.nv ∧ g.gen = f.gen

/-- What the entropy source leaves alone in its own work: the store, objects, numbering, releases, the internal queue, sessions, cells and the field die. -/
def entropyFrame (s t : State) : Prop :=
  t.pers = s.pers ∧ t.otp = s.otp ∧ t.dict = s.dict ∧ t.seq = s.seq ∧ t.slots = s.slots ∧ t.internal = s.internal ∧ t.sessions = s.sessions ∧ t.twc = s.twc ∧
    t.tem = s.tem ∧ t.sinter = s.sinter ∧ t.field = s.field

/-- Tiller t can deliver (R378, R379): instantiated with state d, not due to reseed, and the source has not failed. -/
structure Delivering (s : State) (t : Nat) (d : Drbg) : Prop where
  up : s.entropyDown = false
  has : (tillerOf s t).drbg = some d
  fresh : d.count ≤ 2 ^ 20
  clean : t ∉ s.rng.stale

/-- The failure instant F (R388): the source stops and is zeroised, the cause is kept, the admission waits on the internal queue, and every cell that waits for a
random word faults. -/
def FailsAt (c : Instr) (s : State) (bits : Nat) : Prop :=
  ∃ t, exec c s = .next t ∧ t.entropyDown = true ∧ t.rng.on = false ∧ t.rng.pool = [] ∧ t.rng.tillers = [] ∧ t.rng.masks = [0, 0] ∧
    t.rng.cause = s.rng.cause ||| bits ∧ IntReq.entropy bits ∈ t.internal ∧
    (∀ k x, SMap.look s.twc.cells k = some x → x.stalled.isSome = true → ∃ y, SMap.look t.twc.cells k = some y ∧ y.dead = true) ∧
    t.pers = s.pers ∧ t.dict = s.dict ∧ t.seq.adm = s.seq.adm ∧ t.sessions = s.sessions ∧ t.field = s.field

/-- A frame of this kind of channel n waits 4 us for the barrier (R219, R229). -/
def FrameOut (s t : State) (n kind : Nat) : Prop :=
  ∃ x ∈ t.slots, x.adm = s.seq.adm + 1 ∧ x.due = s.seq.time + 4 ∧ x.work = .frameDown n ∧ ∃ f, x.acts = [.lane1 (.chfDown f)] ∧
    (f.headD 0).toNat = 0x40 + kind ∧ leNat ((f.drop 2).take 2) = n

/-- A channel that can send: its sequence is not used up, and entropy and a cipher lane serve (R230, R257, R388). -/
structure CanSend (s : State) (n : Nat) : Prop where
  seq : num s (0x4000 + n) 9 < 0xFFFFFFFF
  entropy : entropyOk s = true
  lane : cipherUp s = true

/-- Sensor k is FIRED at the present time (R479): it fired, and no window without an event has passed since. -/
def firedNow (s : State) (k : Nat) : Bool := (senseOf s k).fired && decide (s.seq.time < (senseOf s k).last + (sensorSet s k).2.2)

/-- Whether an event of sensor k at the present time is a fire (R479, R480): the sensor is not off; it has a fixed filter, or it is not FIRED and this event with its last
N - 1 makes N within its window. -/
def firesNow (s : State) (k : Nat) : Bool :=
  let n := (sensorSet s k).2.1
  let ts := (s.seq.time :: if (senseOf s k).fired then [] else (senseOf s k).times).take n
  decide ((sensorSet s k).1 ≠ 255) &&
    (isFixed k || (!firedNow s k && decide (ts.length = n ∧ s.seq.time ≤ ts.getLastD s.seq.time + (sensorSet s k).2.2)))

/-- An event of sensor k that is no fire ends its FIRED state, which its State object then leaves through an admission (R193, R479). -/
def unfires (s : State) (k : Nat) : Bool :=
  decide ((sensorSet s k).1 ≠ 255) && (senseOf s k).fired && !firedNow s k && showsFired s k

/-- What a fire of sensor k does where no response is under way (R484 to R489): below class RESET its record waits at the head of the internal queue; from RESET on the response
begins, the toggle stops, and the Sinter domain takes the class, loses its key from PURGE on, and seals at SEAL. -/
def Responds (s t : State) (k reading thr : Nat) : Prop :=
  let cls := (sensorSet s k).1
  (cls < 2 → t.internal = .tamper k cls (tamperBody s k reading thr 4) :: s.internal.filter (· ≠ clearReport k) ∧ t.tem.resp = none ∧ t.boot = s.boot) ∧
    (2 ≤ cls → t.tem.resp = some ⟨cls, 1, k, s.seq.time, s.seq.time, k, (cls, 1, k)⟩ ∧ t.internal = s.internal ∧ t.boot.toggle = false ∧ t.sinter.pend ≠ none ∧
      (cls = 3 ∨ cls = 4 → t.sinter.key = none) ∧ (cls = 4 → t.sinter.sealLatch = true))

/-- State u shows bit i of the clock monitor status as b (R79): in 0x2100.0B at once before the start-up admission, from then on through the internal admission that it
puts on the queue (R193, R195). -/
def ShowsClock (s u : State) (i : Nat) (b : Bool) : Prop :=
  let w := setBit s.boot.clock i b
  u = { s with boot := { s.boot with clock := w }, dict := u.dict, internal := u.internal } ∧
    (s.boot.admitted = true → u.dict = s.dict ∧ u.internal = s.internal ++ if clockWord s = w then [] else [.clocks w]) ∧
    (s.boot.admitted = false → u.internal = s.internal ∧ num u 0x2100 11 = w ||| (num s 0x2100 11 &&& 0x80) ∧ OthersStand s u [(0x2100, 11)])

/-- State t is s after an event of sensor k with this reading across this threshold. -/
def Sensed (s t : State) (k reading thr : Nat) : Prop :=
  t.pers = s.pers ∧ t.dict = s.dict ∧ t.seq.adm = s.seq.adm ∧ t.sessions = s.sessions ∧ t.slots = s.slots ∧ t.field = s.field ∧
    (firesNow s k = false → t.internal = s.internal ++ (if unfires s k then [clearReport k] else []) ∧ t.tem.resp = none ∧ t.boot = s.boot ∧ t.sinter.key = s.sinter.key ∧ t.sinter.log = s.sinter.log) ∧
    (firesNow s k = true → k ≤ 2 → s20Int reading < s20Int thr → t.tem.held = s.tem.held ++ [(k, reading, thr, s.seq.time)] ∧ t.internal = s.internal ∧
      t.tem.resp = none) ∧
    (firesNow s k = true → (k ≤ 2 → s20Int thr ≤ s20Int reading) → Responds s t k reading thr)

/-- Command c is an event of sensor k so, and P holds after it. -/
def Senses (c : Instr) (s : State) (k reading thr : Nat) (P : State → Prop) : Prop := ∃ t, exec c s = .next t ∧ Sensed s t k reading thr ∧ P t

/-- A core die in RUN whose monitors run, without a response under way. -/
structure Watching (s : State) : Prop where
  stage : s.stage ≠ 0
  run : s.power = 0
  calm : s.tem.resp = none

/-- One sample of the Sinter schedule for sensor k (R494): consecutive events are counted, and the one that makes need of them joins the log. -/
def Scheduled (s t : State) (k : Nat) (event : Bool) : Prop :=
  SMap.look t.sinter.hits k = if event then some (SMap.at' s.sinter.hits k 0 + 1) else none

/-- What the Sheaf link leaves alone in its own work: the store, numbering, sessions, the cells, the barrier, the host link and the field die. -/
def pairFrame (s t : State) : Prop :=
  t.pers = s.pers ∧ t.otp = s.otp ∧ t.seq = s.seq ∧ t.sessions = s.sessions ∧ t.twc = s.twc ∧ t.bar = s.bar ∧ t.host = s.host ∧ t.field = s.field

/-- Command c makes a joined unit declare partner loss (R528, R546, R550): the link goes down with all that it carries, and the partition waits at the head of the
internal queue. -/
def Parts (c : Instr) (s : State) (P : State → Prop) : Prop :=
  ∃ t, exec c s = .next t ∧ t.sheaf.key = none ∧ t.sheaf.out = [] ∧ t.sheaf.kept = [] ∧ t.sheaf.resends = 0 ∧ t.sheaf.inbox = [] ∧
    (∃ q, t.internal = .partition :: s.internal ++ q ∧ ∀ e ∈ q, ∃ w, e = .clocks w) ∧ t.slots = s.slots ∧ pairFrame s t ∧ OthersStand s t [(0x2100, 11)] ∧ P t

/-- Command c ends join j with a code (R534): the unit goes back to what it was before, which 0xF000.01 shows with the admission that waits, and the Join that it answers has
that outcome. -/
def JoinFails (c : Instr) (s : State) (j : JoinRun) (code : Nat) : Prop :=
  ∃ t, exec c s = .next t ∧ t.sheaf.join = none ∧ t.sheaf.key = none ∧ t.sheaf.out = [] ∧ t.sheaf.kept = [] ∧ t.sheaf.items = [] ∧ t.sheaf.inbox = [] ∧
    (∀ x ∈ t.slots, j.slot = some x.adm → x.numbered = true → x.long = true → x.code = code) ∧ t.internal = s.internal ++ [.pairState j.prev] ∧ pairFrame s t ∧
    OthersStand s t []

/-- A message of this type as it is queued for the partner (R529). -/
def pairMessage (type : Byte) (body : Bytes) : Bytes := [type, 0] ++ leBytes 2 body.length ++ body

/-- The SYNC message of an item of s (R529, R536). -/
def syncOf (s : State) (x : Nat × Nat) : Bytes :=
  let v := Shf.itemValue s x.1 x.2
  pairMessage 0x40 ([BitVec.ofNat 8 x.1] ++ leBytes 4 x.2 ++ leBytes 8 (SMap.at' s.sheaf.dirty (x.1 * 4294967296 + x.2) s.seq.adm) ++ leBytes 2 v.length ++ v)

/-- The leader of a joined pair that admits (R524, R538). -/
structure Heads (s : State) : Prop where
  up : sequencerUp s = true
  sheaf : sheafOn s = true
  leader : num s 0xF000 2 = 0
  state : joined s = true
  key : s.sheaf.key.isSome = true

/-- The follower of a joined pair that has performed every admission that it was granted (R539). -/
structure Follows (s : State) : Prop where
  up : sequencerUp s = true
  sheaf : sheafOn s = true
  follower : num s 0xF000 2 = 1
  state : joined s = true
  key : s.sheaf.key.isSome = true
  granted : s.sheaf.grant = none
  join : s.sheaf.join = none

/-- Admission n waits for the partner's VERDICT until this time (R541, R546). -/
def awaitsVerdict (t : State) (n due : Nat) : Prop := (⟨n, 0x22, due⟩ : Await) ∈ t.sheaf.awaits

/-- A pinned TAMPER record of class CHECK with this sensor code, written in admission n (R412, R548, R550). -/
def recordOf (t : State) (code n : Nat) : Prop :=
  ∃ p ∈ t.pers.jour.recs, p.2.bytes.take 16 = [2, 0xFF, 0xFF, 1] ++ leBytes 2 code ++ [0, 0] ++ leBytes 8 n

/-- The wire form of a SEND frame around message m (R135). -/
def sendWire (m : Bytes) : Bytes :=
  let b := [0x5A] ++ leBytes 2 m.length ++ m
  b ++ leBytes 4 (crc32c b)

/-- The host link takes a frame: past the stages in which it ignores frames, with room, and no long operation of its own. -/
def takesSend (s : State) : Prop :=
  Hl.openFor s = true ∧ Hl.early s = false ∧ s.host.buf.length < 4 ∧ Hl.outstanding s < 16 ∧ busy s (pairOrigin s 1) = false

/-- What a host-link frame leaves alone: the store, the objects, sessions, transfers, releases, the internal queue, numbering and
the field die. -/
def linkFrame (s t : State) : Prop :=
  t.pers = s.pers ∧ t.dict = s.dict ∧ t.sessions = s.sessions ∧ t.transfers = s.transfers ∧ t.slots = s.slots ∧ t.internal = s.internal ∧
    t.seq = s.seq ∧ t.field = s.field ∧ t.otp = s.otp

end Sys2Proof.Machine
end

