-- ==== Sys2Proof/Certificates/Slice0/Obligations.lean ====
section
/-! DEFINITION. The statements for the provers. -/

open Sys2Proof Sys2Proof.Machine

/-! How a command runs, the queue, the fuses, and reset. -/

/-- A step takes the command at the front of the queue and runs it with the queue's rest; nothing else is added. On an empty queue the block idles: the step leaves the
state as it is. This is the model's own choice (log 1). -/
def Obligations.step_runs_front_command : Prop :=
  (∀ (c : Instr) (rest : List Instr) (s : State), Sys2Proof.Machine.step { s with pending := c :: rest } = exec c { s with pending := rest }) ∧
  (∀ s : State, s.pending = [] → Sys2Proof.Machine.step s = .next s)

/-- The state at reset as the spec gives it: the core die runs at stage CLEAR after a POWER reset (R75, R81), in RUN (R511); both dies have their rails (R37, R38);
nothing volatile stands: no session, transfer, channel context, stream, PLE slot, release, internal admission, reply or cell (R76, R88); every object has its default
(R100), every counter and epoch is 0 (R331, R399), the journal is empty under its genesis chain (R410). The queue is empty. The shipped unit's fuses and images are the
model's reading of R11 (log 2). Every object reads as its default at reset (R98, R100). -/
def Obligations.reset_state_as_given : Prop :=
  (let s := State.reset
   s.pending = [] ∧ s.stage = 1 ∧ s.power = 0 ∧ s.boot.cause = 1 ∧ s.boot.rails = true ∧ s.field.rails = true ∧ s.field.run = true ∧
     s.sessions = [] ∧ s.transfers = [] ∧ s.chans = [] ∧ s.streams = [] ∧ s.ples = [] ∧ s.secrets = [] ∧ s.slots = [] ∧ s.internal = [] ∧
     s.host.buf = [] ∧ s.host.replies = [] ∧ s.host.cause = 0 ∧ s.twc.cells = [] ∧ s.dict = [] ∧ s.pers.dict = [] ∧
     s.pers.rings = [] ∧ s.pers.epochs = [] ∧ s.pers.jour.recs = [] ∧ s.pers.jour.chain = genesis ∧ s.otp.lifecycle = 0xA5 ∧
     s.pers.imageA.shipped = true ∧ s.pers.imageB.bytes = []) ∧
  (∀ (i k : Nat) (d : Desc), (Dict.find i k).2 = some d → getObj State.reset i k = dfltOf i k d)

/-- The queue is first in, first out, whatever the command: each step takes exactly its front and adds nothing, so a run of steps consumes the queue in order. -/
def Obligations.queue_is_consumed_in_order : Prop :=
  (∀ (s t : State), Sys2Proof.Machine.step s = .next t → t.pending = s.pending.tail) ∧
    ∀ (n : Nat) (s t : State), Sys2Proof.core.run n s = .next t → t.pending = s.pending.drop n

/-- Fuses are one-way under every command in every state (R131, R354, R359): the floor never falls, a blown RETIRED fuse stays blown, OPERATIONAL never returns to
PERSONALISED, and no other lifecycle code appears. -/
def Obligations.fuses_are_one_way : Prop :=
  ∀ (s t : State), Sys2Proof.Machine.step s = .next t →
    s.otp.floor ≤ t.otp.floor ∧ (s.otp.retired = true → t.otp.retired = true) ∧
      (t.otp.lifecycle = s.otp.lifecycle ∨ (s.otp.lifecycle = 0xA5 ∧ t.otp.lifecycle = 0x5A))

/-! The host link. -/

/-- R135: a SEND frame of the layout given, with a length from 8 to 1,054, gives its message to the buffer; any other frame is discarded and answered with LINK_ERROR,
its cause bit and a count (R137, R138). -/
def Obligations.send_frames_follow_their_layout : Prop :=
  (∀ (s : State) (m : Bytes), takesSend s → 8 ≤ m.length → m.length ≤ 1054 →
    ∃ t, exec (.send (sendWire m) true) s = .next t ∧ t.host.buf = s.host.buf ++ [m] ∧ t.host.replies = s.host.replies ∧
      t.host.cause = s.host.cause) ∧
  (∀ (s : State) (f : Bytes) (whole : Bool), takesSend s → (¬∃ m : Bytes, 8 ≤ m.length ∧ m.length ≤ 1054 ∧ f = sendWire m ∧ whole = true) →
    ∃ t, exec (.send f whole) s = .next t ∧ t.host.buf = s.host.buf ∧ t.host.replies = s.host.replies ++ [linkErrorReply] ∧
      bit t.host.cause 6 = true ∧ SMap.look t.hw (objKey 0x1020 2) = some (sat32 (SMap.at' s.hw (objKey 0x1020 2) (num s 0x1020 2)) 1))

/-- The other frames of the host link (R134, R137, R139, R141): FETCH drives the reply at the head of the queue, then 0xFF, and takes it when its last byte is clocked;
REFETCH drives the last reply delivered whole; STATUS drives the status block; CLEAR clears the cause bits of its mask; another opcode counts a link error. Each leaves
everything but the link as it was. The model's readings in it: log 41 (what is driven is kept in State). -/
def Obligations.link_frames_complete : Prop :=
  ∀ s : State, Hl.openFor s = true → Hl.early s = false →
    (∀ (n : Nat) (r : Bytes) (rest : List Bytes), s.host.replies = r :: rest →
      ∃ t, exec (.fetch n) s = .next t ∧ t.host.out = (r ++ List.replicate n 0xFF).take n ∧
        (r.length ≤ n → t.host.replies = rest ∧ t.host.last = some r) ∧
        (n < r.length → t.host.replies = r :: rest ∧ t.host.last = s.host.last) ∧ linkFrame s t) ∧
    (∀ n : Nat, s.host.replies = [] →
      ∃ t, exec (.fetch n) s = .next t ∧ t.host.out = (emptyReply ++ List.replicate n 0xFF).take n ∧ t.host.replies = [] ∧ linkFrame s t) ∧
    (∀ n : Nat, ∃ t, exec (.refetch n) s = .next t ∧ t.host.out = (s.host.last.getD emptyReply ++ List.replicate n 0xFF).take n ∧
      t.host.replies = s.host.replies ∧ linkFrame s t) ∧
    (∃ t, exec .status s = .next t ∧ linkFrame s t ∧ t.host.replies = s.host.replies ∧
      ∃ b : Bytes, b = leBytes 4 (Hl.causeWord s) ++ [BitVec.ofNat 8 s.stage, BitVec.ofNat 8 (Hl.outstanding s), 0, 0] ∧
        t.host.out = b ++ leBytes 4 (crc32c b)) ∧
    (∀ mask : Word, let b : Bytes := [0xC3] ++ leBytes 4 mask.toNat
      ∃ t, exec (.clear (b ++ leBytes 4 (crc32c b)) true) s = .next t ∧ t.host.cause = clearBits s.host.cause (mask.toNat &&& 0x1F2) ∧
        t.host.replies = s.host.replies ∧ linkFrame s t) ∧
    (∀ op : Byte, op.toNat ∉ [0x5A, 0xA5, 0xA6, 0x3C, 0xC3] →
      ∃ t, exec (.unknownOpcodeFrame op) s = .next t ∧ t.host.replies = s.host.replies ∧ linkFrame s t ∧
        SMap.look t.hw (objKey 0x1020 2) = some (sat32 (SMap.at' s.hw (objKey 0x1020 2) (num s 0x1020 2)) 1))

/-! BDP requests. -/

/-- READ and DESCRIBE of an object (R18, R105, R106, R188): ordered without a number, and answered 2 us later with the value that stands at the ordering point, or with
the object's description. Nothing but the response is added. Random objects and the snapshot (R384, R385, R559, R564): a session reads random bytes from the tiller of
its slot, which the value consumes; a snapshot captures the counters in a transfer. The model's readings in it: log 59 (the size of a LABEL). -/
def Obligations.ordered_reads_complete : Prop :=
  ((∀ (s : State) (r : Req) (d : Desc) (q : Rq), q = reqRq r 1 → Ready s → Anonymous s q → isNumbered s q = false →
     Dict.find r.idx r.sub = (true, some d) → objectChecks (orderedIn s q) (nobody q) false r.idx r.sub d none = 0 →
     d.ty ≠ .domain → d.ty ≠ .label → d.size ≤ 24 → r.body = [] → r.idx ≠ 0x2310 → readConflict (orderedIn s q) (nobody q) r.idx r.sub = 0 →
     ∃ t, exec (.read r) s = .next t ∧
       Ordered s t q none 2 0 (leBytes 2 (readBytes (orderedIn s q) (nobody q) r.idx r.sub d).length ++ readBytes (orderedIn s q) (nobody q) r.idx r.sub d) ∧
       OthersStand s t [] ∧ t.pers = s.pers ∧ t.sessions = s.sessions) ∧
   (∀ (s : State) (r : Req) (d : Desc) (q : Rq), q = reqRq r 0x20 → Ready s → Anonymous s q →
     Dict.find r.idx r.sub = (true, some d) → r.body = [] →
     ∃ t, exec (.describe r) s = .next t ∧ Ordered s t q none 2 0 (Fld.describe d) ∧ OthersStand s t [] ∧ t.pers = s.pers ∧ t.sessions = s.sessions)) ∧
  ((∀ (s : State) (h : Hdr) (sub : Fin 3) (tr : Trailer) (z : Session) (q : Rq) (b : Bytes) (u : State),
     q = hdrRq h (if sub = 2 then 3 else 1) 0x2310 (sub.val + 1) [] → Client s q tr z .operator → num s 0x2000 2 = 0 →
     s.seq.admTime ≤ s.seq.time → transferOf s q.origin = none → s.transfers.length < 16 →
     instantiated s (48 + tr.slot % 12) = true →
     takeBuffer (orderedIn s q) (48 + tr.slot % 12) (if sub = 0 then 16 else if sub = 1 then 24 else 1024) = some (b, u) →
     ∃ t, exec (.randomRead h sub) s = .next t ∧ t.rng = { u.rng with masks := t.rng.masks } ∧ OthersStand s t [] ∧
       (sub ≠ 2 → Ordered s t q (some z) 2 0 (leBytes 2 b.length ++ b)) ∧
       (sub = 2 → Ordered s t q (some z) 2 0 (leBytes 4 b.length) ∧ ∃ x, transferOf t q.origin = some x ∧ x.buf = b ∧ x.writing = false)) ∧
   (∀ (s : State) (h : Hdr) (q : Rq), q = hdrRq h 3 0xE100 1 [] → Ready s → Anonymous s q → transferOf s q.origin = none →
     s.transfers.length < 16 →
     ∃ t, exec (.snapshot h) s = .next t ∧ Ordered s t q none 2 0 (leBytes 4 (Prf.snapshot (orderedIn s q)).length) ∧
       ∃ x, transferOf t q.origin = some x ∧ x.buf = Prf.snapshot (orderedIn s q) ∧ x.writing = false))

/-- READ_SEG_INIT captures the value at its ordering point, and opens a transfer in place of the one that its origin had; each READ_SEG returns the next 1,024 bytes of it
at most, END with the last (R109 to R111, R113). Times are admitted device times (log 117). -/
def Obligations.segmented_read_completes : Prop :=
  (∀ (s : State) (r : Req) (d : Desc) (q : Rq) (v : Bytes), q = reqRq r 3 → Ready s → Anonymous s q → isNumbered s q = false →
    (initIn s q).transfers.length < 16 → Dict.find r.idx r.sub = (true, some d) →
    objectChecks (initOrdered s q) (nobody q) false r.idx r.sub d none = 0 → r.body = [] → r.idx ≠ 0x2310 →
    readConflict (initOrdered s q) (nobody q) r.idx r.sub = 0 → v = readBytes (initOrdered s q) (nobody q) r.idx r.sub d →
    ∃ t, exec (.readSegInit r) s = .next t ∧ Ordered s t q none 2 0 (leBytes 4 v.length) ∧ OthersStand (initIn s q) t [] ∧
      transferOf t q.origin = some ⟨q.origin, none, false, r.idx, r.sub, v.length, 0, 0, [], v, s.seq.admTime, decide (r.idx = 0xDC10)⟩) ∧
  (∀ (s : State) (r : Req) (q : Rq) (x : Transfer) (p : Bytes), q = reqRq r 4 → Ready s → Anonymous s q →
    transferOf s q.origin = some x → x.writing = false → x.idx = r.idx → x.sub = r.sub → x.sess = none → s.seq.admTime ≤ x.time + 1000000 →
    x.next < 65536 → r.body = leBytes 2 x.next ++ [0, 0] → (x.next = 0 ∨ x.got ≠ x.total) →
    (x.inHost = true → s.exportRun.map (fun e => e.stream) = some x.buf) → p = (x.buf.drop x.got).take 1024 →
    ∃ t, exec (.readSeg r) s = .next t ∧
      Ordered s t q none 2 0 (leBytes 2 x.next ++ [if x.got + p.length = x.total then 1 else 0, 0] ++ leBytes 2 p.length ++ p) ∧
      transferOf t q.origin = some { x with got := x.got + p.length, next := x.next + 1, lastData := p, time := s.seq.admTime } ∧ OthersStand s t [])

/-- WRITE of an object that only holds its value (R106 to R108, R123): the value stands with its own admission, and the response waits 10 us. -/
def Obligations.write_stores_its_value : Prop :=
  ∀ (s : State) (r : Req) (tr : Trailer) (z : Session) (d : Desc) (v : Bytes) (q : Rq), q = reqRq r 2 →
    Client s q tr z d.role → Open s → Dict.find r.idx r.sub = (true, some d) → r.sub < 256 → (d.acc = .rw ∨ d.acc = .wo) →
    d.ty ≠ .domain → d.ty ≠ .label → v.length = d.size → d.size ≤ 24 → r.body = leBytes 2 v.length ++ v → holdsOnly r.idx = true →
    encodingCheck d v = 0 → plainCheck (admittedIn s q tr) r.idx r.sub (leNat v) v = 0 →
    ∃ t, exec (.write r) s = .next t ∧ Admitted s t q (some z) 10 0 [] [] ∧ getObj t r.idx r.sub = d.decode v ∧
      OthersStand s t [(r.idx, r.sub)]

/-- Segmented writes (R109 to R113, R183, R188). The INIT of a write to any object that its checks allow opens the transfer, in place of the one that its origin had: it is
ordered, and numbered for a DOMAIN, which does what its object does at an INIT. A segment before END is kept, and ordered; a DOMAIN takes it in an admission. The END of an
object that only holds its value is the write, with its own number. ABORT_TRANSFER ends whatever transfer its origin has open with its code, and counts it. The model's
readings in it: log 108 (codes of a WRITE_SEG), log 117 (the times of a transfer are admitted device times). -/
def Obligations.segmented_write_completes : Prop :=
  (∀ (s : State) (r : Req) (tr : Trailer) (z : Session) (d : Desc) (n : Nat) (q : Rq), q = reqRq r 5 → Client s q tr z d.role → Open s →
    Dict.find r.idx r.sub = (true, some d) → r.body = leBytes 4 n → n < 4294967296 → n ≠ 0 →
    (d.ty ≠ .domain → s.seq.admTime ≤ s.seq.time → (if d.ty = .label then n ≤ d.size else n = d.size) →
      objectChecks (initOrdered s q) (callerOf q tr z) true r.idx r.sub d none = 0 → (initIn s q).transfers.length < 16 →
      ∃ t, exec (.writeSegInit r) s = .next t ∧ Ordered s t q (some z) 2 0 [] ∧ OthersStand (initIn s q) t [] ∧
        transferOf t q.origin = some ⟨q.origin, some tr.slot, true, r.idx, r.sub, n, 0, 0, [], [], s.seq.admTime, false⟩) ∧
    (∀ u, d.ty = .domain → n ≤ d.size → objectChecks (initAdmitted s q tr) (callerOf q tr z) true r.idx r.sub d (some none) = 0 →
      domainInit (initAdmitted s q tr) (callerOf q tr z) r.idx r.sub n = .ok u → u.transfers.length < 16 →
      ∃ t, exec (.writeSegInit r) s = .next t ∧ Admitted s t q (some z) 10 0 [] [] ∧ OthersStand u t [] ∧
        transferOf t q.origin = some ⟨q.origin, some tr.slot, true, r.idx, r.sub, n, 0, 0, [], [], s.seq.time, false⟩)) ∧
  (∀ (s : State) (r : Req) (tr : Trailer) (z : Session) (d : Desc) (g : Seg) (x : Transfer) (q : Rq), q = reqRq r 6 → Client s q tr z .any →
    Dict.find r.idx r.sub = (true, some d) → r.body = segBody g → NextSegment s q (some tr.slot) r.idx r.sub g x →
    (d.ty ≠ .domain → x.got + g.len < x.total → s.seq.admTime ≤ s.seq.time →
      ∃ t, exec (.writeSeg r) s = .next t ∧ Ordered s t q (some z) 2 0 (segReply g) ∧ OthersStand s t [] ∧
        transferOf t q.origin = some (x.took g s.seq.admTime)) ∧
    (∀ e, d.ty = .domain → x.got + g.len < x.total →
      e = domainData (setTransfer (admittedIn s q tr) (x.took g s.seq.time)) r.idx r.sub g.data .ok → e.code = 0 →
      ∃ t, exec (.writeSeg r) s = .next t ∧ Admitted s t q (some z) e.lat 0 (segReply g) e.acts ∧ OthersStand e.s t [] ∧ t.transfers = e.s.transfers) ∧
    (∀ v, Open s → x.got + g.len = x.total → v = x.buf ++ g.data → r.sub < 256 → (d.acc = .rw ∨ d.acc = .wo) → d.ty ≠ .domain →
      (holdsOnly r.idx = true ∨ (r.idx = 0x1000 ∧ r.sub = 7)) → encodingCheck d v = 0 → plainCheck (admittedIn s q tr) r.idx r.sub (leNat v) v = 0 →
      ∃ t, exec (.writeSeg r) s = .next t ∧ Admitted s t q (some z) 10 0 (segReply g) [] ∧ transferOf t q.origin = none ∧
        getObj t r.idx r.sub = d.decode v ∧ OthersStand s t [(r.idx, r.sub)])) ∧
  (∀ (s : State) (r : Req) (tr : Trailer) (z : Session) (x : Transfer) (code : Word) (q : Rq), q = reqRq r 7 → Client s q tr z .any →
    num s 0xD802 1 = 0 → transferOf s q.origin = some x → r.body = leBytes 4 code.toNat →
    (x.writing = false ∨ isDomain x.idx x.sub = false → s.seq.admTime ≤ s.seq.time →
      ∃ t, exec (.abortTransfer r) s = .next t ∧ Ordered s t q (some z) 2 0x01020004 [] ∧ transferOf t q.origin = none ∧ OthersStand s t [] ∧
        counted t 0x1010 6 = sat32 (counted s 0x1010 6) 1 ∧ counted t 0x1010 9 = code.toNat) ∧
    (x.writing = true → isDomain x.idx x.sub = true →
      ∃ t, exec (.abortTransfer r) s = .next t ∧ Admitted s t q (some z) 10 0x01020004 [] [] ∧ transferOf t q.origin = none ∧
        OthersStand (discarded (dropTransfer (admittedIn s q tr) q.origin) x (some 0x01020004)) t [] ∧
        counted t 0x1010 6 = sat32 (counted s 0x1010 6) 1 ∧ counted t 0x1010 9 = code.toNat))

/-- Binding and unbinding (R114 to R118, R121, R188): BIND_REQUEST puts a pending session with the device challenge in the lowest free slot; BIND_RESPONSE with the
proof of R116 makes it bound, with the epoch, the nonce and the challenge that its keys are derived from at their use (R318, R349), and answers with the device's proof; UNBIND frees the slot. Each is answered 12 us later. A service that the
device does not know (R105, R107, R187) is refused at once, with ABT_SERVICE_UNKNOWN and in no slot: nothing is numbered, and a host-link request is answered by one
reply. The eleven services of R105 are no case of this command. -/
def Obligations.session_services_complete : Prop :=
  ((∀ (s : State) (r : Req) (role cred : Byte) (nonce : Bytes) (k : Nat) (u : State) (q : Rq), q = reqRq r 0x10 → Ready s → Anonymous s q →
     r.body = [role, cred, 0, 0] ++ nonce → nonce.length = 16 → 1 ≤ role.toNat → role.toNat ≤ 3 → cred.toNat ≤ 15 →
     u = expirePending (numberedIn s q) → k < 64 → SMap.look u.sessions k = none → (∀ j, j < k → (SMap.look u.sessions j).isSome) →
     slotsHeld u q.origin < 4 → reserveFull s = false →
     ∃ t, exec (.bindRequest r) s = .next t ∧
       Admitted s t q none 12 0 ([BitVec.ofNat 8 k, 0, 0, 0] ++ challenge u) [] ∧
       SMap.look t.sessions k = some ⟨q.origin, role.toNat, cred.toNat, false, nonce, challenge u, s.seq.time, 0, false, 0, [], 0, zeros 48⟩ ∧
       OthersStand s t []) ∧
   (∀ (s : State) (r : Req) (k : Byte) (z : Session) (u : State) (key : Bytes) (q : Rq), q = reqRq r 0x11 → Ready s → Anonymous s q →
     u = numberedIn s q → SMap.look s.sessions k.toNat = some z → z.origin = q.origin → z.bound = false → s.seq.time ≤ z.time + 2000000 →
     SMap.look s.lockouts q.origin = none → key = nodeKey u (credNode z.role z.cred) →
     r.body = [k, 0, 0, 0] ++ bindProof key 0x43 z k.toNat → reserveFull s = false →
     ∃ t, exec (.bindResponse r) s = .next t ∧ Admitted s t q none 12 0 (bindProof key 0x44 z k.toNat) [] ∧
       (∃ y, SMap.look t.sessions k.toNat = some y ∧ y.bound = true ∧ y.role = z.role ∧ y.cred = z.cred ∧ y.origin = z.origin ∧ y.last = z.last ∧
         y.time = s.seq.time ∧ y.epoch = epochOf s (credNode z.role z.cred) ∧
         y.nonce = z.nonce ∧ y.chal = z.chal) ∧ OthersStand s t []) ∧
   (∀ (s : State) (r : Req) (tr : Trailer) (z : Session) (q : Rq), q = reqRq r 0x12 → Client s q tr z .any → r.body = [] → reserveFull s = false →
     ∃ t, exec (.unbind r) s = .next t ∧ Admitted s t q (some z) 12 0 [] [] ∧ SMap.look t.sessions tr.slot = none ∧ OthersStand s t [])) ∧
  (∀ (s : State) (svc : Byte) (r : Req) (q : Rq), q = reqRq r svc.toNat → Ready s → q.origin = 1 → closedTo s 1 = false → atHead s q = true → turn s 3 = true →
     svc.toNat ∉ [1, 2, 3, 4, 5, 6, 7, 0x10, 0x11, 0x12, 0x20] →
     ∃ t, exec (.unknownService svc r) s = .next t ∧ t.host.replies = s.host.replies ++ [fullReply (q.response 0x01010001 [])] ∧
       t.seq = s.seq ∧ t.slots = s.slots ∧ t.pers = s.pers ∧ t.dict = s.dict ∧ t.sessions = s.sessions ∧ t.transfers = s.transfers)

/-! System and firmware commands. -/

/-- System actions on a unit outside a pair and CALDERA (R80, R127, R156): each is admitted and answered 10 us later, or 60 ms later for the self-test, and its reset or
its request to the field die begins at that release. No object changes but the action's own. -/
def Obligations.system_actions_complete : Prop :=
  ∀ (s : State) (h : Hdr) (tr : Trailer) (z : Session), Open s →
    (Client s (rqWrite h 0x2100 0x0C [1]) tr z .owner →
      Completes (.coreResetRequest h) s (rqWrite h 0x2100 0x0C [1]) z 10 [.coreReset 6] fun t => OthersStand s t [(0x2100, 0x0C)]) ∧
    (Client s (rqWrite h 0x2100 0x0D [1]) tr z .owner →
      Completes (.fieldDieResetRequest h) s (rqWrite h 0x2100 0x0D [1]) z 10 [.fieldReset] fun t => OthersStand s t [(0x2100, 0x0D)]) ∧
    (Client s (rqWrite h 0xE800 1 [1]) tr z .owner → longRuns s = false →
      Completes (.fullSelfTest h) s (rqWrite h 0xE800 1 [1]) z 60000 [] fun t => OthersStand s t [(0xE800, 1)]) ∧
    (∀ can : Fin 4, Client s (rqWrite h (0x1200 + can.val) 8 [1]) tr z .owner → num s (0x1200 + can.val) 7 ≠ 0 →
      Completes (.recoverNow h can) s (rqWrite h (0x1200 + can.val) 8 [1]) z 10 [.lane1 (.recover can.val)]
        fun t => OthersStand s t [(0x1200 + can.val, 8)])

/-- Firmware loading (R128 to R130): a segment joins the inactive image; the END of an image of the length that its header gives leaves it loaded; Verify ends 20 ms
later with the image's code, and its Load status at that release; Activate prefers the verified image and resets the core die. -/
def Obligations.firmware_commands_complete : Prop :=
  ∀ (s : State) (h : Hdr) (tr : Trailer) (z : Session), Open s → num s 0x2100 4 ≤ 1 →
    (∀ (g : Seg) (x : Transfer), Client s (rqSeg h 0x1100 1 g) tr z .owner → NextSegment s (rqSeg h 0x1100 1 g) (some tr.slot) 0x1100 1 g x →
      (x.got + g.len < x.total →
        Replies (.loadImage h g) s (rqSeg h 0x1100 1 g) z 16 (segReply g) [] fun t =>
          (imageOf t (inactive s)).bytes = (imageOf s (inactive s)).bytes ++ g.data ∧ imageOf t (num s 0x2100 4) = imageOf s (num s 0x2100 4)) ∧
      (x.got + g.len = x.total → (x.buf ++ g.data).length = 3376 + leNat (((x.buf ++ g.data).drop 16).take 4) →
        Replies (.loadImage h g) s (rqSeg h 0x1100 1 g) z 16 (segReply g) [] fun t =>
          num t 0x1100 2 = 2 ∧ imageOf t (inactive s) = ⟨x.buf ++ g.data, false, false, false⟩ ∧
            imageOf t (num s 0x2100 4) = imageOf s (num s 0x2100 4) ∧ transferOf t h.origin = none)) ∧
    (Client s (rqWrite h 0x1100 3 [1]) tr z .owner → longRuns s = false → num s 0xCF20 3 = 0 → num s 0xCF38 3 = 0 →
      ∃ t, exec (.verify h) s = .next t ∧ Admitted s t (rqWrite h 0x1100 3 [1]) (some z) 20000 (imageCode s (imageOf s (inactive s))) []
          [.setObj (objKey 0x1100 2) (.num (if imageCode s (imageOf s (inactive s)) = 0 then 3 else 4))] ∧
        OthersStand s t [(0x1100, 3)]) ∧
    (Client s (rqWrite h 0x1100 4 [1]) tr z .owner → num s 0x1100 2 = 3 →
      Completes (.activate h) s (rqWrite h 0x1100 4 [1]) z 10 [.coreReset 7] fun t =>
        t.pers.preferred = inactive s ∧ OthersStand s t [(0x1100, 4)])

/-- R131: Raise floor takes only the running image's security version, above the floor, and any other value is refused with ABT_VALUE_CONFLICT; its release burns the
fuses; no command takes the floor down again; and an image below the floor is invalid. -/
def Obligations.raise_floor_is_exact_and_final : Prop :=
  (∀ (s : State) (h : Hdr) (v : Word) (tr : Trailer) (z : Session), Open s → longRuns s = false →
    Client s (rqWrite h 0x1100 5 (leBytes 4 v.toNat)) tr z .owner →
    (v.toNat = num s 0x2100 5 → s.otp.floor < v.toNat →
      Completes (.raiseFloor h v) s (rqWrite h 0x1100 5 (leBytes 4 v.toNat)) z 10000
        (heldWrite 0x1100 5 (leBytes 4 v.toNat) ++ [.burnFloor v.toNat]) fun t => OthersStand s t []) ∧
    (v.toNat ≠ num s 0x2100 5 ∨ v.toNat ≤ s.otp.floor →
      ∃ t, exec (.raiseFloor h v) s = .next t ∧
        Admitted s t (rqWrite h 0x1100 5 (leBytes 4 v.toNat)) (some z) 10 0x03020001 [] [] ∧ OthersStand s t [])) ∧
  (∀ (s : State) (x : Slot) (v key : Nat) (w : Val), s.slots.find? (fun y => decide (y.id = x.id)) = some x →
    x.due ≤ s.seq.time → s.tem.resp = none → s.seq.failing = false → (∀ w ∈ s.sheaf.awaits, w.adm ≠ x.adm) → x.acts = [.setObj key w, .burnFloor v] →
    ∃ t, exec (.responseRelease x.id) s = .next t ∧ t.otp.floor = max s.otp.floor v) ∧
  (∀ (s t : State), Sys2Proof.Machine.step s = .next t → s.otp.floor ≤ t.otp.floor) ∧
  (∀ (s : State) (x : Image), leNat ((x.bytes.drop 8).take 4) < s.otp.floor → imageCode s x ≠ 0)

/-! Channels. -/

/-- Starting and ending a channel epoch (R211, R213, R216, R218, R225, R248) outside a pair: Open takes a closed channel with a route to OPENING and Rekey an open one
to REKEYING, each with the node's durable epoch one higher and the switch 8 us later; Close takes a live one to CLOSED, and sends a CLOSE frame 4 us later where frames
are sent. -/
def Obligations.channel_epochs_start_and_end : Prop :=
  ∀ (s : State) (h : Hdr) (n : Fin 32768) (tr : Trailer) (z : Session), Open s →
    (Client s (rqWrite h (0x4000 + n.val) 6 [1]) tr z .operator → num s (0x4000 + n.val) 1 = 1 → num s (0x4000 + n.val) 4 ≠ 0 →
      epochOf s (num s (0x4000 + n.val) 2 % 0x10000) < 0xFFFFFF →
      heartbeatLoad s + ceilRate (if num s (0x4000 + n.val) 13 ≠ 0 then num s (0x4000 + n.val) 13
        else num s (0x3000 + num s (0x4000 + n.val) 3) 1) ≤ 300000 →
      Completes (.channelOpen h n) s (rqWrite h (0x4000 + n.val) 6 [1]) z 10 [] fun t =>
        num t (0x4000 + n.val) 1 = 2 ∧ epochOf t (num s (0x4000 + n.val) 2 % 0x10000) = epochOf s (num s (0x4000 + n.val) 2 % 0x10000) + 1 ∧
          (chanOf t n.val).switchAt = (chanOf s n.val).switchAt ++ [s.seq.time + 8] ∧ OthersStand s t [(0x4000 + n.val, 1), (0x4000 + n.val, 6)]) ∧
    (Client s (rqWrite h (0x4000 + n.val) 6 [0]) tr z .operator →
      num s (0x4000 + n.val) 1 = 2 ∨ ((num s (0x4000 + n.val) 1 = 3 ∨ num s (0x4000 + n.val) 1 = 4) ∧ num s (0x4000 + n.val) 9 < 0xFFFFFFFF) →
      Completes (.channelClose h n) s (rqWrite h (0x4000 + n.val) 6 [0]) z 10 [] fun t =>
        num t (0x4000 + n.val) 1 = 1 ∧ (chanOf t n.val).switchAt = (chanOf s n.val).switchAt ∧
          (num s (0x4000 + n.val) 1 ≠ 2 → ∃ x ∈ t.slots, x.due = s.seq.time + 4 ∧ x.work = .frameDown n.val ∧ ∃ f, x.acts = [.lane1 (.chfDown f)] ∧
            (f.headD 0).toNat = 0x45 ∧ leNat ((f.drop 2).take 2) = n.val)) ∧
    (Client s (rqWrite h (0x4000 + n.val) 7 [1]) tr z .operator → num s (0x4000 + n.val) 1 = 3 →
      epochOf s (num s (0x4000 + n.val) 2 % 0x10000) < 0xFFFFFF →
      Completes (.rekey h n) s (rqWrite h (0x4000 + n.val) 7 [1]) z 10 [] fun t =>
        num t (0x4000 + n.val) 1 = 4 ∧ epochOf t (num s (0x4000 + n.val) 2 % 0x10000) = epochOf s (num s (0x4000 + n.val) 2 % 0x10000) + 1 ∧
          (chanOf t n.val).switchAt = (chanOf s n.val).switchAt ++ [s.seq.time + 8])

/-- The other writes of a channel's objects (R211 to R214, R218, R233, R240) outside a pair: Flag clear clears the event bits it names; Key node rebinds a channel that
is not live and empties its queue; the heartbeat interval moves the next due time of a live channel; Receive release frees the head record; the END of a Send puts the
frame at the head of the internal queue (R232). -/
def Obligations.channel_objects_complete : Prop :=
  ∀ (s : State) (h : Hdr) (n : Fin 32768) (tr : Trailer) (z : Session), Open s →
    (∀ mask : Word, Client s (rqWrite h (0x4000 + n.val) 0x0C (leBytes 4 mask.toNat)) tr z .operator → mask.toNat < 128 →
      Completes (.flagClear h n mask) s (rqWrite h (0x4000 + n.val) 0x0C (leBytes 4 mask.toNat)) z 10 [] fun t =>
        num t (0x4000 + n.val) 0x0B = clearBits (num s (0x4000 + n.val) 0x0B) (mask.toNat &&& 0x7C) ∧
          OthersStand s t [(0x4000 + n.val, 0x0B), (0x4000 + n.val, 0x0C)]) ∧
    (∀ handle : Word, Client s (rqWrite h (0x4000 + n.val) 2 (leBytes 4 handle.toNat)) tr z .owner →
      num s (0x4000 + n.val) 1 ∉ [2, 3, 4] →
      (handle = 0 ∨ ∃ k x, nodeByHandle s handle.toNat = some k ∧ nodeOf s k = some x ∧ x.level = 3 ∧ x.kind = 0x11 ∧
        (domainOf s 4 k = 1 ∨ domainOf s 4 k = 2) ∧ live s k = true ∧
        (num s (0x4000 + n.val) 2 = handle.toNat ∨ keySet s (fun p => decide (p = handle.toNat)) = false)) →
      Completes (.keyNodeWrite h n handle) s (rqWrite h (0x4000 + n.val) 2 (leBytes 4 handle.toNat)) z 10 [] fun t =>
        num t (0x4000 + n.val) 2 = handle.toNat ∧ num t (0x4000 + n.val) 1 = (if handle = 0 then 0 else 1) ∧
          (chanOf t n.val).queue = [] ∧ num t (0x4000 + n.val) 0x11 = 0) ∧
    (∀ ms : BitVec 16, Client s (rqWrite h (0x4000 + n.val) 0x0D (leBytes 2 ms.toNat)) tr z .operator →
      (ms = 0 ∨ (10 ≤ ms.toNat ∧ ms.toNat ≤ 10000)) → num s (0x4000 + n.val) 1 ∉ [2, 3, 4] →
      Completes (.heartbeatIntervalWrite h n ms) s (rqWrite h (0x4000 + n.val) 0x0D (leBytes 2 ms.toNat)) z 10 [] fun t =>
        num t (0x4000 + n.val) 0x0D = ms.toNat ∧ OthersStand s t [(0x4000 + n.val, 0x0D)]) ∧
    (∀ ms : BitVec 16, Client s (rqWrite h (0x4000 + n.val) 0x0D (leBytes 2 ms.toNat)) tr z .operator →
      10 ≤ ms.toNat → ms.toNat ≤ 10000 → num s (0x4000 + n.val) 1 ∈ [2, 3, 4] →
      heartbeatLoad s + ceilRate ms.toNat ≤ 300000 + ceilRate (interval s n.val) →
      Completes (.heartbeatIntervalWrite h n ms) s (rqWrite h (0x4000 + n.val) 0x0D (leBytes 2 ms.toNat)) z 10 [] fun t =>
        num t (0x4000 + n.val) 0x0D = ms.toNat ∧ (chanOf t n.val).due = (chanOf s n.val).due + 1000 * ms.toNat - 1000 * interval s n.val) ∧
    (∀ (seq : Word) (x : RxRec) (rest : List RxRec), Client s (rqWrite h (0x4000 + n.val) 0x10 (leBytes 4 seq.toNat)) tr z .operator →
      num s 0x2000 3 = 0 → num s (0x4000 + n.val) 5 = h.origin → (chanOf s n.val).queue = x :: rest → x.seq = seq.toNat →
      Completes (.receiveRelease h n seq) s (rqWrite h (0x4000 + n.val) 0x10 (leBytes 4 seq.toNat)) z 10 [] fun t =>
        (chanOf t n.val).queue = rest ∧ num t (0x4000 + n.val) 0x11 = num s (0x4000 + n.val) 0x11 - 1 ∧ num t 0x3100 2 = num s 0x3100 2 + 1) ∧
    (∀ (g : Seg) (x : Transfer), Client s (rqSeg h (0x4000 + n.val) 0x0E g) tr z .operator →
      NextSegment s (rqSeg h (0x4000 + n.val) 0x0E g) (some tr.slot) (0x4000 + n.val) 0x0E g x → x.got + g.len = x.total →
      num s (0x4000 + n.val) 5 = h.origin → (num s (0x4000 + n.val) 1 = 3 ∨ num s (0x4000 + n.val) 1 = 4) → num s (0x4000 + n.val) 9 < 0xFFFFFFFF →
      Replies (.channelSend h n g) s (rqSeg h (0x4000 + n.val) 0x0E g) z 16 (segReply g) [] fun t =>
        t.internal = .send n.val (x.buf ++ g.data) :: s.internal ∧ transferOf t h.origin = none)

/-- Setting a mode flag (R502 to R510) outside a pair and CALDERA: the flag stands, with what its setting does: SERVICE where it is allowed, ISLAND ends the sessions of
the host link and closes it at the release, PROVISION notes its time and its origin. Clearing a mode flag (R503 to R510), and the two settings of the mode object: the
flag is clear; SERVICE takes tagging with it (R566), ISLAND opens the host link at the release and raises its cause bit, AUDIT is cleared only outside VIGIL. -/
def Obligations.mode_flags_set_and_clear : Prop :=
  (∀ (s : State) (h : Hdr) (tr : Trailer) (z : Session), Open s →
     (Client s (rqWrite h 0x2000 3 [1]) tr z .service → num s 0x2000 8 ≠ 0 →
       Completes (.serviceSet h) s (rqWrite h 0x2000 3 [1]) z 10 [] fun t => num t 0x2000 3 = 1 ∧ OthersStand s t [(0x2000, 3)]) ∧
     (Client s (rqWrite h 0x2000 4 [1]) tr z .owner → num s 0x2000 4 = 0 →
       Completes (.islandSet h) s (rqWrite h 0x2000 4 [1]) z 10 [.hostClose] fun t =>
         num t 0x2000 4 = 1 ∧ (∀ p ∈ t.sessions, p.2.origin ≠ 1) ∧ OthersStand s t [(0x2000, 4)]) ∧
     (Client s (rqWrite h 0x2000 5 [1]) tr z .operator →
       Completes (.vigilSet h) s (rqWrite h 0x2000 5 [1]) z 10 [] fun t => num t 0x2000 5 = 1) ∧
     (Client s (rqWrite h 0x2000 6 [1]) tr z .owner →
       Completes (.auditSet h) s (rqWrite h 0x2000 6 [1]) z 10 [] fun t => num t 0x2000 6 = 1 ∧ OthersStand s t [(0x2000, 6)]) ∧
     (Client s (rqWrite h 0x2000 7 [1]) tr z .owner →
       Completes (.provisionSet h) s (rqWrite h 0x2000 7 [1]) z 10 [] fun t =>
         num t 0x2000 7 = 1 ∧ num t 0x2000 10 = s.seq.time ∧ t.modes.provBy = h.origin ∧ OthersStand s t [(0x2000, 7), (0x2000, 10)])) ∧
  (∀ (s : State) (h : Hdr) (tr : Trailer) (z : Session), Open s →
     (Client s (rqWrite h 0x2000 3 [0]) tr z .service → num s 0x2000 3 ≠ 0 →
       Completes (.serviceClear h) s (rqWrite h 0x2000 3 [0]) z 10 [] fun t =>
         num t 0x2000 3 = 0 ∧ num t 0xE200 1 = 0 ∧ OthersStand s t [(0x2000, 3), (0xE200, 1)]) ∧
     (Client s (rqWrite h 0x2000 4 [0]) tr z .owner → num s 0x2000 4 ≠ 0 →
       Completes (.islandClear h) s (rqWrite h 0x2000 4 [0]) z 10 [.hostOpen, .cause 2] fun t => num t 0x2000 4 = 0 ∧ OthersStand s t [(0x2000, 4)]) ∧
     (Client s (rqWrite h 0x2000 5 [0]) tr z .operator →
       Completes (.vigilClear h) s (rqWrite h 0x2000 5 [0]) z 10 [] fun t => num t 0x2000 5 = 0) ∧
     (Client s (rqWrite h 0x2000 6 [0]) tr z .owner → num s 0x2000 5 = 0 →
       Completes (.auditClear h) s (rqWrite h 0x2000 6 [0]) z 10 [] fun t => num t 0x2000 6 = 0 ∧ OthersStand s t [(0x2000, 6)]) ∧
     (Client s (rqWrite h 0x2000 7 [0]) tr z .owner →
       Completes (.provisionClear h) s (rqWrite h 0x2000 7 [0]) z 10 [] fun t => num t 0x2000 7 = 0 ∧ OthersStand s t [(0x2000, 7)]) ∧
     (∀ value : Byte, Client s (rqWrite h 0x2000 8 [value]) tr z .owner → value.toNat ≤ 1 →
       Completes (.serviceAllowedWrite h value) s (rqWrite h 0x2000 8 [value]) z 10 [] fun t =>
         num t 0x2000 8 = value.toNat ∧ (value = 0 → num t 0x2000 3 = 0)) ∧
     (∀ seconds : Word, Client s (rqWrite h 0x2000 9 (leBytes 4 seconds.toNat)) tr z .owner → 60 ≤ seconds.toNat → seconds.toNat ≤ 86400 →
       Completes (.provisionLapseWrite h seconds) s (rqWrite h 0x2000 9 (leBytes 4 seconds.toNat)) z 10
         (if num s 0x2000 7 ≠ 0 ∧ num s 0x2000 10 + seconds.toNat * 1000000 ≤ s.seq.time then [.lapse] else []) fun t =>
         num t 0x2000 9 = seconds.toNat ∧ OthersStand s t [(0x2000, 9)]))

/-! Engine streams and the public-key engine. -/

/-- A stream slot is begun, ended early, parked, taken up again and released (R271, R272, R277 to R279): each is admitted with code 0 by the session that holds the
slot. Begin builds the context and its nonce (R259) from the value written; End of data fails the slot; Park leaves the wrapped context, with the bytes of a tag or
digest that have come; the END of an unpark takes it up in an idle slot; Release empties the slot. The model's readings in it: log 22 (who reads a parked context), log 35 (what changes in the admission). -/
def Obligations.stream_slots_begin_park_and_end : Prop :=
  ∀ (s : State) (h : Hdr) (f : Fin 16) (tr : Trailer) (z : Session), Open s →
    (∀ (m tag : Byte) (dec : Bool) (key aad data : Word) (v : Bytes),
      v = [m, if dec then 1 else 0, tag, 0] ++ leBytes 4 key.toNat ++ leBytes 4 aad.toNat ++ leBytes 4 data.toNat ++ zeros 8 →
      Client s (rqWrite h (0xCF00 + f.val) 2 v) tr z .operator → (streamOf s f.val).state = 0 →
      Str.known m.toNat = true → Str.tagOk m.toNat tag.toNat = true → Str.lenOk m.toNat dec aad.toNat data.toNat 32768 = true →
      (if Str.isSha m.toNat = true then key = 0 else key ≠ 0 ∧ keyForHandle s key.toNat (callerOf (rqWrite h (0xCF00 + f.val) 2 v) tr z).caller
        (decide (m.toNat ≤ 7) || decide (m.toNat = 0x18)) (fun x => usageOk x m.toNat dec z.role) = 0) →
      Completes (.beginStream h f v) s (rqWrite h (0xCF00 + f.val) 2 v) z 10 [] fun t => ∃ y, streamOf t f.val = y ∧ y.state = 1 ∧
        y.ctx = some ⟨m.toNat, dec, tag.toNat, key.toNat, handleEpoch s key.toNat, aad.toNat, data.toNat, 0, 0, [], 0,
          if dec then [] else Str.buildNonce m.toNat (s.seq.adm + 1), zeros 200, false, s.seq.adm + 1, h.origin, tr.slot, 0⟩ ∧
        y.remain = Str.total m.toNat dec tag.toNat aad.toNat data.toNat ∧ y.ownOrigin = h.origin ∧ y.ownSess = tr.slot ∧ y.out = []) ∧
    ((streamOf s f.val).ownOrigin = h.origin → (streamOf s f.val).ownSess = tr.slot → (streamOf s f.val).state ≠ 0 →
      (Client s (rqWrite h (0xCF00 + f.val) 10 [1]) tr z .operator → (streamOf s f.val).state = 1 → (streamOf s f.val).remain ≠ 0 →
        Completes (.endOfData h f) s (rqWrite h (0xCF00 + f.val) 10 [1]) z 10 [] fun t =>
          (streamOf t f.val).state = 3 ∧ (streamOf t f.val).ctx = none ∧ (streamOf t f.val).result = Abt.lengthShort ∧
            OthersStand s t [(0xCF00 + f.val, 10)]) ∧
      (∀ x, Client s (rqWrite h (0xCF00 + f.val) 11 [1]) tr z .operator → (streamOf s f.val).state = 1 → (streamOf s f.val).ctx = some x →
        (streamOf s f.val).staged = [] → inputOpen s (0xCF00 + f.val) 3 = false → z.parked.length < 16 →
        Completes (.park h f) s (rqWrite h (0xCF00 + f.val) 11 [1]) z 40 [] fun t =>
          (streamOf t f.val).state = 0 ∧
          (streamOf t f.val).parked = kwWrap ((Session.keys s tr.slot z).drop 32) { x with parkAdm := s.seq.adm + 1, pend := x.pend ++ (streamOf s f.val).hold }.bytes ∧
            (∃ y, SMap.look t.sessions tr.slot = some y ∧ y.parked = (s.seq.adm + 1) :: z.parked)) ∧
      (Client s (rqWrite h (0xCF00 + f.val) 13 [1]) tr z .operator →
        Completes (.slotRelease h f) s (rqWrite h (0xCF00 + f.val) 13 [1]) z 10 [] fun t =>
          streamOf t f.val = stream0 ∧ inputOpen t (0xCF00 + f.val) 3 = false ∧ OthersStand s t [(0xCF00 + f.val, 13)])) ∧
    (∀ (g : Seg) (x : Transfer) (u : Bytes) (c : SCtx), Client s (rqSeg h (0xCF00 + f.val) 12 g) tr z .operator →
      NextSegment s (rqSeg h (0xCF00 + f.val) 12 g) (some tr.slot) (0xCF00 + f.val) 12 g x → x.got + g.len = x.total →
      (streamOf s f.val).state = 0 → kwUnwrap ((Session.keys s tr.slot z).drop 32) (x.buf ++ g.data) = (u, true) → u.head? = some 1 → c = parseCtx u →
      c.parkAdm ∈ z.parked → c.epoch = handleEpoch s c.handle →
      (c.handle = 0 ∨ c.handle / 0x100000 % 16 = 8 ∨ live s (c.handle % 0x10000) = true) →
      Replies (.unpark h f g) s (rqSeg h (0xCF00 + f.val) 12 g) z 40 (segReply g) [] fun t =>
        (streamOf t f.val).state = 1 ∧ (streamOf t f.val).hold = (if Str.closed c = true then c.pend else []) ∧
          (streamOf t f.val).ctx = some { (if Str.closed c = true then { c with pend := [] } else c) with owner := h.origin, sess := tr.slot } ∧
          (∃ y, SMap.look t.sessions tr.slot = some y ∧ c.parkAdm ∉ y.parked))

/-- A segment of a stream's Input (R273 to R276, R188) outside the key-wrap modes: it is processed in its own admission by streamSegment under the key of the handle;
its output joins Output at the release, but for an authenticated decryption, whose output waits for the tag; the IV of a CBC encryption shows at the release of the first
segment. The last byte ends the stream: COMPLETE, with the tag or digest behind the output, or against the tag or digest that came. The model's readings in it: log 35 (state in the admission, output at the release). -/
def Obligations.stream_input_is_processed : Prop :=
  ∀ (s : State) (h : Hdr) (f : Fin 16) (tr : Trailer) (z : Session) (g : Seg) (x : Transfer) (y : Stream) (c : SCtx) (r : SCtx × Bytes × Bytes) (iv : List Act),
    Open s → Client s (rqSeg h (0xCF00 + f.val) 3 g) tr z .operator →
    NextSegment s (rqSeg h (0xCF00 + f.val) 3 g) (some tr.slot) (0xCF00 + f.val) 3 g x →
    streamOf s f.val = y → y.state = 1 → y.ctx = some c → Str.isKw c.mode = false → (16 ≤ c.mode → num s 0xCF20 3 = 0) →
    r = streamSegment c y.hold (handleKey s c.handle) g.data →
    iv = (if c.mode = 4 ∧ c.dec = false ∧ c.started = false then [.streamNonce f.val (fitBytes 16 r.1.iv)] else []) →
    (g.len < y.remain →
      Replies (.streamInput h f g) s (rqSeg h (0xCF00 + f.val) 3 g) z (streamLat c.mode) (segReply g)
        (if c.dec && Str.isAead c.mode then [] else iv ++ [.streamOut f.val r.2.2]) fun t =>
          (streamOf t f.val).state = 1 ∧ (streamOf t f.val).ctx = some r.1 ∧ (streamOf t f.val).remain = y.remain - g.len ∧
            (streamOf t f.val).staged = (if c.dec && Str.isAead c.mode then y.staged ++ r.2.2 else y.staged)) ∧
    (g.len = y.remain → (c.dec = false ∨ c.mode = 3 ∨ c.mode = 4) →
      Replies (.streamInput h f g) s (rqSeg h (0xCF00 + f.val) 3 g) z (streamLat c.mode) (segReply g)
        (iv ++ [.streamOut f.val (r.2.2 ++ Str.finish r.1 (handleKey s c.handle))]) fun t =>
          (streamOf t f.val).state = 2 ∧ (streamOf t f.val).ctx = none ∧ (streamOf t f.val).remain = 0) ∧
    (g.len = y.remain → c.dec = true → Str.isAead c.mode = true → Str.finish r.1 (handleKey s c.handle) = r.2.1 →
      Replies (.streamInput h f g) s (rqSeg h (0xCF00 + f.val) 3 g) z (streamLat c.mode) (segReply g)
        [.streamOut f.val (y.staged ++ r.2.2)] fun t => (streamOf t f.val).state = 2 ∧ (streamOf t f.val).flags = 5) ∧
    (g.len = y.remain → c.dec = true → (Str.isMac c.mode || Str.isSha c.mode) = true → Str.finish r.1 (handleKey s c.handle) = r.2.1 →
      Replies (.streamInput h f g) s (rqSeg h (0xCF00 + f.val) 3 g) z (streamLat c.mode) (segReply g) [] fun t =>
        (streamOf t f.val).state = 2 ∧ (streamOf t f.val).flags = 5)

/-- A PLE slot (R304 to R311): the END of its Input makes it ready; Run ends with the operation's own code and latency, its output and its shared secret joining at the
release; Release empties the slot and its Input. The model's readings in it: log 34 (the index of a session secret), log 35 (output at the release). -/
def Obligations.ple_slots_load_and_run : Prop :=
  ∀ (s : State) (h : Hdr) (f : Fin 8) (tr : Trailer) (z : Session), Open s →
    (∀ (g : Seg) (x : Transfer), Client s (rqSeg h (0xCF30 + f.val) 2 g) tr z .operator →
      NextSegment s (rqSeg h (0xCF30 + f.val) 2 g) (some tr.slot) (0xCF30 + f.val) 2 g x → x.got + g.len = x.total →
      Replies (.pleInput h f g) s (rqSeg h (0xCF30 + f.val) 2 g) z 16 (segReply g) [] fun t =>
        (pleOf t f.val).state = 2 ∧ (pleOf t f.val).input = x.buf ++ g.data ∧ transferOf t h.origin = none ∧
          OthersStand s t [(0xCF30 + f.val, 2)]) ∧
    ((pleOf s f.val).ownOrigin = h.origin → (pleOf s f.val).ownSess = tr.slot →
      (∀ (a : State) (o : PleOut), Client s (rqWrite h (0xCF30 + f.val) 3 [1]) tr z .operator → (pleOf s f.val).state = 2 →
        pleRunOp (admittedIn s (rqWrite h (0xCF30 + f.val) 3 [1]) tr) (pleOf s f.val).input (callerOf (rqWrite h (0xCF30 + f.val) 3 [1]) tr z).caller
          .ok = .ran a o →
        ∃ t, exec (.pleSlotRun h f) s = .next t ∧
          Admitted s t (rqWrite h (0xCF30 + f.val) 3 [1]) (some z) (PleReq.latency (PleReq.parse (pleOf s f.val).input).op) o.code []
            [.pleOut f.val o.out (o.secret.map fun k => (k, (callerOf (rqWrite h (0xCF30 + f.val) 3 [1]) tr z).caller.holder,
              if (PleReq.parse (pleOf s f.val).input).op = 10 then (PleReq.parse (pleOf s f.val).input).handle % 0x10000 else 0))] ∧
          (pleOf t f.val).state = (if o.code = 0 then 3 else 4) ∧ (pleOf t f.val).result = o.code ∧ (pleOf t f.val).input = [] ∧
          t.rng.tillers = a.rng.tillers ∧ t.cores = a.cores ∧ OthersStand s t [(0xCF30 + f.val, 3)]) ∧
      (Client s (rqWrite h (0xCF30 + f.val) 9 [1]) tr z .operator → (pleOf s f.val).state ≠ 0 →
        Completes (.pleSlotRelease h f) s (rqWrite h (0xCF30 + f.val) 9 [1]) z 10 [] fun t =>
          pleOf t f.val = ple0 ∧ inputOpen t (0xCF30 + f.val) 2 = false ∧ OthersStand s t [(0xCF30 + f.val, 9)]))

/-! Keys, ownership and attestation. -/

/-- Create (R321, R345, R346) takes the lowest free node number for a node of the kind, algorithm, attributes and label written, under the parent's present epoch: epoch
0, one allocation more, its handle in the session's created handle. Here under a named label, in a unit with PROVISION (R344) outside ISLAND and outside the SERVICE
subtree. -/
def Obligations.create_allocates_the_node_written : Prop :=
  ∀ (s : State) (h : Hdr) (tr : Trailer) (z : Session) (g : Seg) (x : Transfer) (kind alg len : Byte) (ph : Word) (attrs : BitVec 16)
    (label : Bytes) (p : Node) (n : Nat), Open s → Client s (rqSeg h 0xCA00 1 g) tr z .owner → num s 0x2000 7 ≠ 0 → num s 0x2000 4 = 0 →
    NextSegment s (rqSeg h 0xCA00 1 g) (some tr.slot) 0xCA00 1 g x → x.got + g.len = x.total →
    x.buf ++ g.data = leBytes 4 ph.toNat ++ [kind, alg] ++ leBytes 2 attrs.toNat ++ [len] ++ fitBytes 32 label ++ [0, 0, 0] →
    label.length = len.toNat → 1 ≤ len.toNat → len.toNat ≤ 32 →
    nodeByHandle s ph.toNat = some (ph.toNat % 0x10000) → nodeOf s (ph.toNat % 0x10000) = some p → live s (ph.toNat % 0x10000) = true →
    atOrBelow s 2 (ph.toNat % 0x10000) = false → kindAllowed s (ph.toNat % 0x10000) kind.toNat false = true →
    attrsAllowed kind.toNat alg.toNat attrs.toNat = true →
    (∀ q ∈ s.pers.nodes, q.2.parent = ph.toNat % 0x10000 → q.2.kind = kind.toNat → q.2.alg = alg.toNat → q.2.label = label → live s q.1 = false) →
    (∀ k y, fixedNode k = some y → y.parent = ph.toNat % 0x10000 → y.kind = kind.toNat → y.alg = alg.toNat → y.label = label → live s k = false) →
    freeNode s = some n →
    Replies (.createNode h g) s (rqSeg h 0xCA00 1 g) z 10 (segReply g) [] fun t =>
      t.pers.nodes = SMap.put s.pers.nodes n ⟨ph.toNat % 0x10000, p.level + 1, kind.toNat, alg.toNat, attrs.toNat, label, epochOf s (ph.toNat % 0x10000)⟩ ∧
        epochOf t n = 0 ∧ SMap.at' t.pers.allocs n 0 = SMap.at' s.pers.allocs n 0 + 1 ∧
        (∃ y, SMap.look t.sessions tr.slot = some y ∧ y.created = handleOf t n) ∧ OthersStand s t [(0xCA00, 1)]

/-- Remove, Bump and Export (R329, R335, R347, R348, R352) of a node that is below no applet root (R449), in a unit with PROVISION outside ISLAND: Remove frees an orphaned node without children; Bump raises the
epoch of one node by one, or to a higher target, orphans the sessions of the credentials at or below it and fails the streams below it; Export wraps the node's key under a session secret of
the caller, readable after the release. -/
def Obligations.nodes_removed_bumped_and_exported : Prop :=
  ∀ (s : State) (h : Hdr) (handle : Word) (tr : Trailer) (z : Session) (n : Nat) (x : Node), Open s → num s 0x2000 7 ≠ 0 → num s 0x2000 4 = 0 →
    nodeByHandle s handle.toNat = some n → nodeOf s n = some x → keyDomainOk s 0 n = true →
    (Client s (rqWrite h 0xCA00 3 (leBytes 4 handle.toNat)) tr z .owner → 0x100 ≤ n → live s n = false → childCount s n = 0 →
      keySet s (fun k => decide (k % 0x10000 = n)) = false →
      Completes (.removeNode h handle) s (rqWrite h 0xCA00 3 (leBytes 4 handle.toNat)) z 10 [] fun t =>
        t.pers.nodes = SMap.del s.pers.nodes n ∧ t.pers.epochs = s.pers.epochs ∧ OthersStand s t [(0xCA00, 3)]) ∧
    (∀ target : Word, Client s (rqWrite h 0xCA00 4 (leBytes 4 handle.toNat ++ leBytes 4 target.toNat)) tr z .owner → n ≠ 3 → n ≠ 5 →
      (n = 4 → s.pers.pair = none) → x.kind ≠ 0x13 → x.kind ≠ 0x14 → x.kind ≠ 0x17 → keySet s (fun k => decide (k = handle.toNat)) = false →
      (if target = 0 then epochOf s n < 0xFFFFFF else epochOf s n < target.toNat ∧ target.toNat ≤ 0xFFFFFF) →
      Completes (.bump h handle target) s (rqWrite h 0xCA00 4 (leBytes 4 handle.toNat ++ leBytes 4 target.toNat)) z 10 [] fun t =>
        epochOf t n = (if target = 0 then epochOf s n + 1 else target.toNat) ∧ (∀ k, k ≠ n → epochOf t k = epochOf s k) ∧
        (∀ p ∈ t.sessions, atOrBelow s n (credNode p.2.role p.2.cred) = true → p.2.orphaned = true) ∧
        (∀ f y c, SMap.look t.streams f = some y → y.ctx = some c → c.handle / 0x100000 % 16 ≠ 8 → below s n (streamNode c) = true → y.state ≠ 1)) ∧
    (∀ (secret : Word) (i : Nat) (y : Secret), Client s (rqWrite h 0xCA00 5 (leBytes 4 handle.toNat ++ leBytes 4 secret.toNat)) tr z .owner →
      secretByHandle s secret.toNat = some (i, y) → y.holder = tr.slot → y.dead = false → live s n = true →
      (x.kind = 0x10 ∨ x.kind = 0x11 ∨ x.kind = 0x16 ∨ (x.kind = 0x12 ∧ bit x.attrs 5 = true)) →
      Completes (.exportKey h handle secret) s (rqWrite h 0xCA00 5 (leBytes 4 handle.toNat ++ leBytes 4 secret.toNat)) z 10
        [.exportResult tr.slot (kwWrap y.key (leBytes 4 handle.toNat ++ leBytes 1 x.kind ++ leBytes 3 (epochOf s n) ++ fitBytes 32 (nodeKey s n)))]
        fun t => OthersStand s t [(0xCA00, 5)])

/-- Ownership (R355, R356, R501): the END of a Take ownership ciphertext decapsulates it under TRANSFER, and its release 10 ms later bumps OWNER and SERVICE and hands
out the owner credential under the shared secret; Recover owner does so in CALDERA, without SERVICE. -/
def Obligations.ownership_is_taken_and_recovered : Prop :=
  (∀ (s : State) (h : Hdr) (tr : Trailer) (z : Session) (k : Nat) (g : Seg) (x : Transfer), k = 1 ∨ k = 7 → Room s →
    num s 0x2000 2 = 0 → (if k = 1 then num s 0xD802 1 = 0 else num s 0xD802 1 ≠ 0) → s.otp.lifecycle = 0x5A → longRuns s = false → num s 0xCF38 3 = 0 →
    Client s (rqSeg h 0xCA20 k g) tr z (if k = 1 then .owner else .service) → NextSegment s (rqSeg h 0xCA20 k g) (some tr.slot) 0xCA20 k g x →
    x.got + g.len = x.total → (x.buf ++ g.data).length = 1088 → (∀ j ∈ (if k = 1 then [1, 2] else [1]), epochOf s j < 0xFFFFFF) →
    Replies (if k = 1 then .takeOwnership h g else .recoverOwner h g) s (rqSeg h 0xCA20 k g) z 10000 (segReply g)
      (heldWrite 0xCA20 k (x.buf ++ g.data) ++
        [.takeOwner (Kem.decaps (Kem.keyGen ((nodeKey s 0x16).take 32) (((nodeKey s 0x16).drop 32).take 32)) (x.buf ++ g.data)) (decide (k = 1))])
      fun t => transferOf t h.origin = none ∧ t.pers.epochs = s.pers.epochs ∧ OthersStand s t []) ∧
  (∀ (s : State) (x : Slot) (kt : Bytes) (svc : Bool) (key : Nat) (w : Val), epochOf s 1 < 0xFFFFFF → epochOf s 2 < 0xFFFFFF →
    s.slots.find? (fun y => decide (y.id = x.id)) = some x → x.due ≤ s.seq.time → s.tem.resp = none → s.seq.failing = false →
    (∀ w ∈ s.sheaf.awaits, w.adm ≠ x.adm) → x.acts = [.setObj key w, .takeOwner kt svc] →
    ∃ t, exec (.responseRelease x.id) s = .next t ∧ epochOf t 1 = epochOf s 1 + 1 ∧ epochOf t 2 = epochOf s 2 + (if svc then 1 else 0) ∧
      (∀ k, k ≠ 1 → k ≠ 2 → epochOf t k = epochOf s k) ∧ oct t 0xCA20 2 = kwWrap kt (exportPlain t 0x50) ∧
      (svc = false → num t 0xD802 1 = 2))

/-- The pair secret and the end of life (R357, R359) outside a pair: Pair secret unwraps its value under a session secret, and wraps it again under PAIR-STORE; its
clearing and Retire take effect at their release 10 ms later, Retire admits nothing more; the fuse is blown when every other admission has been released. Attestation
(R361 to R365) outside a pair: the report of the admission is authenticated by the CMAC of a live MAC node or by the identity signature, and kept for its origin at the
release, 10 us or 1.5 ms later. -/
def Obligations.pair_secret_retirement_and_attestation : Prop :=
  (∀ (s : State) (h : Hdr) (tr : Trailer) (z : Session), Room s → num s 0x2000 2 = 0 → s.otp.lifecycle = 0x5A → longRuns s = false →
     (num s 0xD802 1 = 0 → num s 0x2000 7 ≠ 0 → num s 0x2000 4 = 0 → epochOf s 1 < 0xFFFFFF → epochOf s 2 < 0xFFFFFF →
       (∀ (g : Seg) (x : Transfer) (i : Nat) (y : Secret) (u : Bytes), Client s (rqSeg h 0xCA20 3 g) tr z .owner →
         NextSegment s (rqSeg h 0xCA20 3 g) (some tr.slot) 0xCA20 3 g x → x.got + g.len = x.total →
         secretByHandle s (leNat ((x.buf ++ g.data).take 4)) = some (i, y) → y.holder = tr.slot → y.dead = false →
         kwUnwrap y.key ((x.buf ++ g.data).drop 4) = (u, true) →
         Replies (.pairSecret h g) s (rqSeg h 0xCA20 3 g) z 10000 (segReply g)
           (heldWrite 0xCA20 3 (x.buf ++ g.data) ++ [.pairSet (kwWrap (nodeKey s 0x17) u)]) fun t =>
             t.pers.pair = s.pers.pair ∧ transferOf t h.origin = none ∧ OthersStand s t []) ∧
       (Client s (rqWrite h 0xCA20 4 [1]) tr z .owner →
         Completes (.pairSecretClear h) s (rqWrite h 0xCA20 4 [1]) z 10000
           (heldWrite 0xCA20 4 [1] ++ [.pairSet []]) fun t => t.pers.pair = s.pers.pair ∧ OthersStand s t [])) ∧
     (num s 0xD802 1 = 0 → Client s (rqWrite h 0xCA20 5 (leBytes 4 0x52455449)) tr z .owner →
       Completes (.retire h) s (rqWrite h 0xCA20 5 (leBytes 4 0x52455449)) z 10000
         (heldWrite 0xCA20 5 (leBytes 4 0x52455449) ++ [.retireReset]) fun t =>
         t.seq.retiring = true ∧ t.otp = s.otp) ∧
     (num s 0xD802 1 ≠ 0 → Client s (rqWrite h 0xCA20 8 (leBytes 4 0x52455449)) tr z .service →
       Completes (.serviceRetire h) s (rqWrite h 0xCA20 8 (leBytes 4 0x52455449)) z 10000
         (heldWrite 0xCA20 8 (leBytes 4 0x52455449) ++ [.retireReset]) fun t =>
         t.seq.retiring = true ∧ t.otp = s.otp) ∧
     (∀ a : State, a.seq.retiring = true → a.seq.failing = false → a.tem.resp = none →
       (∀ x ∈ a.slots, ∃ key w, x.acts = [.setObj key w, .retireReset] ∨ x.acts = [.retireReset]) →
       ∃ t, exec .retireFuseBlow a = .next t ∧ t.otp = { a.otp with retired := true } ∧ (∀ x ∈ t.slots, x.acts = [.retireReset]))) ∧
  (∀ (s : State) (h : Hdr) (tr : Trailer) (z : Session) (handle : Word) (chal v b : Bytes) (signed : Bool), Open s → chal.length = 16 →
     v = leBytes 4 handle.toNat ++ [if signed then 1 else 0, 0, 0, 0] ++ chal → Client s (rqWrite h 0xCA10 1 v) tr z .any →
     b = reportBody (admittedIn s (rqWrite h 0xCA10 1 v) tr) handle.toNat chal →
     (∀ (n : Nat) (x : Node), signed = false → nodeByHandle s handle.toNat = some n → live s n = true → nodeOf s n = some x → x.kind = 0x16 → bit x.attrs 3 = true →
       Completes (.attest h v) s (rqWrite h 0xCA10 1 v) z 10
         [.attestReport h.origin (b ++ cmac (nodeKey s n) ([0x41] ++ serialBytes ++ b))] fun t => OthersStand s t [(0xCA10, 1)]) ∧
     (signed = true → handle = 0 → num s 0xCF38 3 = 0 →
       let sig := Dsa.sign (Dsa.keyGen ((nodeKey s 0x14).take 32)) (ascii "FL2820-ATT") (serialBytes ++ b) (zeros 32)
       ∃ t, exec (.attest h v) s = .next t ∧ OthersStand s t [(0xCA10, 1)] ∧
         Admitted s t (rqWrite h 0xCA10 1 v) (some z) 1500 (if sig.isSome then 0 else Abt.resultCheck) []
           (match sig with | none => [] | some x => [.attestReport h.origin (b ++ x)])))

/-! Counters, the journal and applets. -/

/-- Increment and Advance by dictionary write (R399, R401 to R403, R405) on a counter whose ring holds its words in order, none unreadable: the counter takes the next
value, or the value written; no other counter changes; 40,000 us of credit are drawn. Without that credit the write is refused with ABT_COUNTER_RATE, and nothing is
drawn. -/
def Obligations.counters_advance_within_their_rate : Prop :=
  ∀ (s : State) (h : Hdr) (k : Fin 2048) (w : BitVec 64) (tr : Trailer) (z : Session), Open s →
    SMap.wf (ringOf s k.val).words = true → (ringOf s k.val).bad = [] → counterValue s k.val < 0xFFFFFFFFFFFFFFFF →
    (num s (0xC000 + k.val) 4 = 0 ∨ num s (0xC000 + k.val) 4 = h.origin) →
    (Client s (rqWrite h (0xC000 + k.val) 2 (leBytes 8 w.toNat)) tr z .operator → w.toNat = 0xFFFFFFFFFFFFFFFF ∨ w.toNat = counterValue s k.val →
      (40000 ≤ creditNow (number s) k.val →
        Completes (.increment h k w) s (rqWrite h (0xC000 + k.val) 2 (leBytes 8 w.toNat)) z 10 [] fun t =>
          Counts s t k.val (counterValue s k.val + 1) ∧
            OthersStand s t [(0xC000 + k.val, 2), (0xC000 + k.val, 5), (0xC000 + k.val, 6), (0xC000 + k.val, 7)]) ∧
      (creditNow (number s) k.val < 40000 →
        ∃ t, exec (.increment h k w) s = .next t ∧ Admitted s t (rqWrite h (0xC000 + k.val) 2 (leBytes 8 w.toNat)) (some z) 10 0x08050001 [] [] ∧
          t.pers.rings = s.pers.rings ∧ OthersStand s t [(0xC000 + k.val, 5)])) ∧
    (Client s (rqWrite h (0xC000 + k.val) 3 (leBytes 8 w.toNat)) tr z .owner → num s 0x2000 7 ≠ 0 → num s 0x2000 4 = 0 → counterValue s k.val < w.toNat →
      (40000 ≤ creditNow (number s) k.val →
        Completes (.advance h k w) s (rqWrite h (0xC000 + k.val) 3 (leBytes 8 w.toNat)) z 10 [] fun t => Counts s t k.val w.toNat ∧
          OthersStand s t [(0xC000 + k.val, 3), (0xC000 + k.val, 5), (0xC000 + k.val, 6), (0xC000 + k.val, 7)]) ∧
      (creditNow (number s) k.val < 40000 →
        ∃ t, exec (.advance h k w) s = .next t ∧ Admitted s t (rqWrite h (0xC000 + k.val) 3 (leBytes 8 w.toNat)) (some z) 10 0x08050001 [] [] ∧
          t.pers.rings = s.pers.rings ∧ OthersStand s t [(0xC000 + k.val, 5)]))

/-- The journal's export and release, and the release of the AUDIT log (R205, R415, R417): Start opens the export of the records from the one asked for, 12 ms later, or ends
then with ABT_RESULT_CHECK where no candidate for its signature is accepted (R297);
Release through frees every unpinned record up to its number; Close ends the export; a release of the log drops the records up to its number. The model's readings in
it: log 37 (what an export entry holds). -/
def Obligations.journal_and_log_released : Prop :=
  ∀ (s : State) (h : Hdr) (tr : Trailer) (z : Session), Open s →
    (∀ (v : Bytes) (bs : List Nat) (run : Option ExportRun), Client s (rqWrite h 0xDC10 1 v) tr z .owner → v.length = 16 → longRuns s = false → num s 0xCF38 3 = 0 →
      num s 0xCF20 3 = 0 →
      exportStartOp (admittedIn s (rqWrite h 0xDC10 1 v) tr) v = .ok bs → run = exportStream (admittedIn s (rqWrite h 0xDC10 1 v) tr) bs →
      ∃ t, exec (.exportStart h v) s = .next t ∧ OthersStand s t [(0xDC10, 1)] ∧
        Admitted s t (rqWrite h 0xDC10 1 v) (some z) 12000 (if run.isSome then 0 else Abt.resultCheck) []
          (match run with | none => [] | some e => [.openExport e])) ∧
    (∀ (x : Slot) (run : ExportRun), s.slots.find? (fun y => decide (y.id = x.id)) = some x → x.due ≤ s.seq.time → s.tem.resp = none →
      (∀ w ∈ s.sheaf.awaits, w.adm ≠ x.adm) → x.acts = [.openExport run] →
      ∃ t, exec (.responseRelease x.id) s = .next t ∧ t.exportRun = some run ∧ num t 0xDC10 3 = 1 ∧
        oct t 0xDC10 4 = leBytes 8 run.first ++ leBytes 8 run.last) ∧
    (∀ x : BitVec 64, Client s (rqWrite h 0xDC10 5 (leBytes 8 x.toNat)) tr z .owner → num s 0xDC00 7 ≤ x.toNat →
      x.toNat ≤ leNat ((oct s 0xDC10 4).drop 8) → x.toNat ≤ s.seq.adm → s.seq.adm < 2 ^ 63 →
      Completes (.journalReleaseThrough h x) s (rqWrite h 0xDC10 5 (leBytes 8 x.toNat)) z 10 [] fun t =>
        num t 0xDC00 7 = x.toNat ∧ (∀ p ∈ t.pers.jour.recs, Jour.admOf p.2 ≤ x.toNat → p.2.pinned = false → p.2.held = false) ∧
          OthersStand s t [(0xDC10, 5), (0xDC00, 7)]) ∧
    (Client s (rqWrite h 0xDC10 6 [1]) tr z .owner →
      Completes (.exportClose h) s (rqWrite h 0xDC10 6 [1]) z 10 [] fun t => t.exportRun = none ∧ num t 0xDC10 3 = 0) ∧
    (∀ x : BitVec 64, Client s (rqWrite h 0xDC80 2 (leBytes 8 x.toNat)) tr z .owner → num s 0x2000 6 ≠ 0 → num s 0xDC80 2 ≤ x.toNat →
      x.toNat ≤ (s.audit.recs.getLast?.map fun p => p.adm).getD 0 → x.toNat ≤ s.seq.adm →
      Completes (.logReleaseThrough h x) s (rqWrite h 0xDC80 2 (leBytes 8 x.toNat)) z 10 [] fun t =>
        num t 0xDC80 2 = x.toNat ∧ ∀ p ∈ t.audit.recs, x.toNat < p.adm)

/-- Installing an applet (R437, R438): the segments of a manifest join the staging area, its END with the length that the header gives leaves it loaded; Install stops
the target cell and ends 25 ms later with the code of its checks. The model's readings in it: log 79 (the cell state at the release). -/
def Obligations.applets_load_and_install : Prop :=
  ∀ (s : State) (h : Hdr) (tr : Trailer) (z : Session), Open s →
    (∀ (g : Seg) (x : Transfer), Client s (rqSeg h 0xD100 1 g) tr z .owner → NextSegment s (rqSeg h 0xD100 1 g) (some tr.slot) 0xD100 1 g x →
      (x.got + g.len < x.total →
        Replies (.loadManifest h g) s (rqSeg h 0xD100 1 g) z 16 (segReply g) [] fun t => t.twc.staged = s.twc.staged ++ g.data ∧ OthersStand s t []) ∧
      (x.got + g.len = x.total → (x.buf ++ g.data).length = 6752 + mf (x.buf ++ g.data) 0x20 4 + mf (x.buf ++ g.data) 0x24 4 →
        Replies (.loadManifest h g) s (rqSeg h 0xD100 1 g) z 16 (segReply g) [] fun t =>
          t.twc.staged = x.buf ++ g.data ∧ num t 0xD100 2 = 2 ∧ OthersStand s t [(0xD100, 1), (0xD100, 2)])) ∧
    (∀ cell : Byte, Client s (rqWrite h 0xD100 3 [cell]) tr z .owner → cell.toNat ≤ 31 → num s 0xD100 2 = 2 → oct s 0xD100 6 ≠ [] →
      longRuns s = false → num s 0xCF20 3 = 0 → num s 0xCF38 3 = 0 →
      ∃ t, exec (.install h cell) s = .next t ∧
        Admitted s t (rqWrite h 0xD100 3 [cell]) (some z) 25000 (installCheck s cell.toNat s.twc.staged) []
          (heldWrite 0xD100 3 [cell] ++
            [.install cell.toNat s.twc.staged (installCheck s cell.toNat s.twc.staged)]) ∧
        num t (0xD000 + cell.toNat) 1 = 1 ∧ SMap.look t.twc.cells cell.toNat = none ∧
        OthersStand s t [(0xD000 + cell.toNat, 1), (0xD000 + cell.toNat, 7)])

/-- R440 of a cell's applet: Remove bumps the root node 0x20 + c , frees the created nodes below it, clears the header and the install digest, and leaves the cell EMPTY
in one admission, answered 10 us later; an EMPTY cell, or one while an Install runs, is refused with ABT_VALUE_CONFLICT. A root that has no higher epoch is a case of
cells_controlled_and_mailed. -/
def Obligations.remove_empties_the_cell : Prop :=
  ∀ (s : State) (h : Hdr) (cell : Byte) (tr : Trailer) (z : Session) (q : Rq), q = rqWrite h 0xD100 4 [cell] → Open s → Client s q tr z .owner →
    cell.toNat ≤ 31 →
    (num s (0xD000 + cell.toNat) 1 ≠ 0 → installRuns s = false → rootSpent s cell.toNat = false →
      Completes (.appletRemove h cell) s q z 10 [] fun t =>
        ((SMap.look s.pers.nodes (0x20 + cell.toNat)).isSome = true →
          epochOf t (0x20 + cell.toNat) = epochOf s (0x20 + cell.toNat) + 1) ∧
        (∀ p ∈ t.pers.nodes, p.2.parent ≠ 0x20 + cell.toNat ∧ p.1 ≠ 0x20 + cell.toNat) ∧
        oct t (0xD000 + cell.toNat) 2 = zeros 16 ∧ num t (0xD000 + cell.toNat) 3 = 0 ∧ oct t (0xD000 + cell.toNat) 4 = zeros 32 ∧
        num t (0xD000 + cell.toNat) 5 = 0 ∧ num t (0xD000 + cell.toNat) 6 = 0 ∧ oct t (0xD000 + cell.toNat) 15 = zeros 32 ∧
        num t (0xD000 + cell.toNat) 1 = 0 ∧ SMap.look t.pers.applets cell.toNat = none ∧ SMap.look t.twc.cells cell.toNat = none) ∧
    (num s (0xD000 + cell.toNat) 1 = 0 ∨ installRuns s = true →
      ∃ t, exec (.appletRemove h cell) s = .next t ∧ Admitted s t q (some z) 10 0x03020001 [] [] ∧ OthersStand s t [] ∧ t.pers.nodes = s.pers.nodes)

/-- A cell's Control and its mailbox (R432, R441, R442, R448): start and restart leave it STARTING with reason 2, stop leaves it STOPPED and without memory; a value in
the mailbox raises the cell's MAILBOX event at the release. A Remove whose root node has no higher epoch is refused with ABT_EPOCH_EXHAUSTED and frees nothing (R329; the
model's reading, log 83). -/
def Obligations.cells_controlled_and_mailed : Prop :=
  ∀ (s : State) (h : Hdr) (c : Fin 32) (tr : Trailer) (z : Session), Open s →
    (Client s (rqWrite h (0xD000 + c.val) 9 [1]) tr z .owner →
      num s (0xD000 + c.val) 1 = 1 ∨ (num s (0xD000 + c.val) 1 = 4 ∧ num s (0xD000 + c.val) 7 ≠ 9) →
      Completes (.controlStart h c) s (rqWrite h (0xD000 + c.val) 9 [1]) z 10 [] fun t =>
        num t (0xD000 + c.val) 1 = 2 ∧ SMap.look t.twc.cells c.val = some { cell0 with reason := 2 } ∧
          OthersStand s t [(0xD000 + c.val, 1), (0xD000 + c.val, 7), (0xD000 + c.val, 9)]) ∧
    (Client s (rqWrite h (0xD000 + c.val) 9 [2]) tr z .owner → num s (0xD000 + c.val) 1 = 2 ∨ num s (0xD000 + c.val) 1 = 3 →
      Completes (.controlStop h c) s (rqWrite h (0xD000 + c.val) 9 [2]) z 10 [] fun t =>
        num t (0xD000 + c.val) 1 = 1 ∧ SMap.look t.twc.cells c.val = none ∧
          OthersStand s t [(0xD000 + c.val, 1), (0xD000 + c.val, 7), (0xD000 + c.val, 9)]) ∧
    (Client s (rqWrite h (0xD000 + c.val) 9 [3]) tr z .owner → 1 ≤ num s (0xD000 + c.val) 1 →
      ¬(num s (0xD000 + c.val) 1 = 4 ∧ num s (0xD000 + c.val) 7 = 9) →
      Completes (.controlRestart h c) s (rqWrite h (0xD000 + c.val) 9 [3]) z 10 [] fun t =>
        num t (0xD000 + c.val) 1 = 2 ∧ SMap.look t.twc.cells c.val = some { cell0 with reason := 2 } ∧
          OthersStand s t [(0xD000 + c.val, 1), (0xD000 + c.val, 7), (0xD000 + c.val, 9)]) ∧
    (∀ v : Bytes, Client s (rqWrite h (0xD000 + c.val) 0x0B v) tr z .operator → v.length = 24 →
      num s (0xD000 + c.val) 1 = 2 ∨ num s (0xD000 + c.val) 1 = 3 →
      Completes (.mailboxIn h c v) s (rqWrite h (0xD000 + c.val) 0x0B v) z 10 [.event c.val 4] fun t =>
        oct t (0xD000 + c.val) 0x0B = v ∧ OthersStand s t [(0xD000 + c.val, 0x0B)]) ∧
    (∀ cell : Byte, Client s (rqWrite h 0xD100 4 [cell]) tr z .owner → cell.toNat ≤ 31 → num s (0xD000 + cell.toNat) 1 ≠ 0 →
      installRuns s = false → rootSpent s cell.toNat = true →
      ∃ t, exec (.appletRemove h cell) s = .next t ∧ Admitted s t (rqWrite h 0xD100 4 [cell]) (some z) 10 0x05020004 [] [] ∧ OthersStand s t [] ∧
        t.pers.nodes = s.pers.nodes)

/-! The guard, tamper, Sheaf and performance objects. -/

/-- Guard output commands (R457, R459, R462, R473): the Command or Permit run object takes the value, and one GUARD_SET cell for the outputs selected leaves for the
field die at the release. Turning on needs the permit toggle to be recorded as driven; on-state bits outside the mask select nothing. -/
def Obligations.guard_commands_complete : Prop :=
  ∀ (s : State) (h : Hdr) (tr : Trailer) (z : Session), Open s →
    (∀ n : Fin 8, Client s (rqWrite h (0xDB00 + n.val) 1 [1]) tr z .operator → num s 0xDB30 6 ≠ 0 →
      Completes (.guardOn h n) s (rqWrite h (0xDB00 + n.val) 1 [1]) z 10 [.lane1 (.guardSet (2 ^ n.val) (2 ^ n.val) 0xFF)] fun t =>
        num t (0xDB00 + n.val) 1 = 1 ∧ OthersStand s t [(0xDB00 + n.val, 1)]) ∧
    (∀ n : Fin 8, Client s (rqWrite h (0xDB00 + n.val) 1 [0]) tr z .operator →
      Completes (.guardOff h n) s (rqWrite h (0xDB00 + n.val) 1 [0]) z 10 [.lane1 (.guardSet (2 ^ n.val) 0 0xFF)] fun t =>
        num t (0xDB00 + n.val) 1 = 0 ∧ OthersStand s t [(0xDB00 + n.val, 1)]) ∧
    (Client s (rqWrite h 0xDB30 1 [1]) tr z .operator → num s 0xDB30 6 ≠ 0 →
      Completes (.permitRunStart h) s (rqWrite h 0xDB30 1 [1]) z 10 [.lane1 (.guardSet 0 0 1)] fun t =>
        num t 0xDB30 1 = 1 ∧ OthersStand s t [(0xDB30, 1)]) ∧
    (Client s (rqWrite h 0xDB30 1 [0]) tr z .operator →
      Completes (.permitRunStop h) s (rqWrite h 0xDB30 1 [0]) z 10 [.lane1 (.guardSet 0 0 0)] fun t =>
        num t 0xDB30 1 = 0 ∧ OthersStand s t [(0xDB30, 1)]) ∧
    (∀ mask on : Byte, Client s (rqWrite h 0xDB30 3 [mask, on]) tr z .operator → (on &&& mask = 0 ∨ num s 0xDB30 6 ≠ 0) →
      Completes (.outputSet h mask on) s (rqWrite h 0xDB30 3 [mask, on]) z 10 [.lane1 (.guardSet mask.toNat (on.toNat &&& mask.toNat) 0xFF)] fun t =>
        (∀ n, n < 8 → num t (0xDB00 + n) 1 = if bit mask.toNat n then (if bit on.toNat n then 1 else 0) else num s (0xDB00 + n) 1) ∧
          OthersStand s t ((0xDB30, 3) :: (List.range 8).map fun n => (0xDB00 + n, 1)))

/-- Tamper objects (R482, R492, R501) outside a pair: an acknowledgement of the newest unacknowledged admission unpins the TAMPER records up to it and empties the
Sinter log; Leave ends CALDERA once no pinned record stands in the alarm; a setting that passes R482 is stored and empties the history of its sensor. -/
def Obligations.tamper_objects_complete : Prop :=
  ∀ (s : State) (h : Hdr) (tr : Trailer) (z : Session), Room s → num s 0x2000 2 = 0 →
    (∀ x : BitVec 64, num s 0xD802 1 = 0 → Client s (rqWrite h 0xD801 1 (leBytes 8 x.toNat)) tr z .owner → x ≠ 0 → x.toNat = num s 0xD800 5 →
      Completes (.ownerAcknowledge h x) s (rqWrite h 0xD801 1 (leBytes 8 x.toNat)) z 10 [] fun t =>
        (∀ p ∈ t.pers.jour.recs, p.2.pinned = true → x.toNat < Jour.admOf p.2) ∧ t.sinter.log = [] ∧ num t 0xD800 2 = 0xFF ∧
          OthersStand s t [(0xD801, 1), (0xD810, 2), (0xD800, 1), (0xD800, 2), (0xD800, 5), (0xD800, 6)]) ∧
    (∀ x : BitVec 64, Client s (rqWrite h 0xD801 2 (leBytes 8 x.toNat)) tr z .service → x ≠ 0 → x.toNat = num s 0xD800 5 →
      Completes (.serviceAcknowledge h x) s (rqWrite h 0xD801 2 (leBytes 8 x.toNat)) z 10 [] fun t =>
        (∀ p ∈ t.pers.jour.recs, p.2.pinned = true → x.toNat < Jour.admOf p.2) ∧ t.sinter.log = [] ∧ num t 0xD800 2 = 0xFF ∧
          OthersStand s t [(0xD801, 2), (0xD810, 2), (0xD800, 1), (0xD800, 2), (0xD800, 5), (0xD800, 6)]) ∧
    (Client s (rqWrite h 0xD802 4 [1]) tr z .service → num s 0xD802 1 = 2 → bit (num s 0xD800 1) 0 = false →
      Completes (.calderaLeave h) s (rqWrite h 0xD802 4 [1]) z 10 [.ready false] fun t =>
        num t 0xD802 1 = 0 ∧ ∀ c, c < 32 → num s (0xD000 + c) 1 = 1 → num s (0xD000 + c) 10 = 1 → num t (0xD000 + c) 1 = 2) ∧
    (∀ (k sub : Byte) (v : Bytes) (d : Desc), num s 0xD802 1 = 0 → Client s (rqWrite h (0xDA00 + k.toNat) sub.toNat v) tr z .owner →
      1 ≤ sub.toNat → sub.toNat ≤ 8 → Dict.find (0xDA00 + k.toNat) sub.toNat = (true, some d) → d.acc = .rw → v.length = d.size → encodingCheck d v = 0 →
      sensorWriteCheck s k.toNat sub.toNat (leNat v) (provisionFor s (callerOf (rqWrite h (0xDA00 + k.toNat) sub.toNat v) tr z)) = 0 →
      Completes (.sensorConfigWrite h k sub v) s (rqWrite h (0xDA00 + k.toNat) sub.toNat v) z 10 [] fun t =>
        getObj t (0xDA00 + k.toNat) sub.toNat = d.decode v ∧ (senseOf t k.toNat).times = [] ∧
          ((sensorSet t k.toNat).1 ≠ 255 → (senseOf t k.toNat).fired = (senseOf s k.toNat).fired ∧ (senseOf t k.toNat).last = (senseOf s k.toNat).last) ∧
          ((sensorSet t k.toNat).1 = 255 → sensorState t k.toNat = 2) ∧
          OthersStand s t [(0xDA00 + k.toNat, sub.toNat), (0xDA00 + k.toNat, 0x0B), (0xD800, 1), (0xD800, 5), (0xD800, 6)])

/-- The pair's objects (R525, R533, R534, R549, R553): a join starts with HELLO, from a full copy where asked; Leave ends SHEAF on a leader whose partner is lost; Reset
partner, executed here for a client of the partner, resets this core die; Concur keeps a concurrence for its PAIR action. The model's readings in it: log 49 (the
invited unit), log 54 (PAIR stands in place of OWNER). -/
def Obligations.sheaf_objects_complete : Prop :=
  ∀ (s : State) (h : Hdr) (tr : Trailer) (z : Session), Room s → s.otp.lifecycle = 0x5A → num s 0xD802 1 = 0 →
    (∀ full : Bool, Client s (rqWrite h 0xF000 4 [if full then 2 else 1]) tr z .owner → num s 0x2000 2 = 0 → num s 0xF000 1 ≠ 2 → num s 0xCA20 6 ≠ 0 →
      oct s 0xF000 3 ≠ zeros 16 → s.sheaf.join = none → longRuns s = false →
      Completes (if full then .joinFullCopy h else .join h) s (rqWrite h 0xF000 4 [if full then 2 else 1]) z 2000000 [] fun t =>
        num t 0xF000 1 = 1 ∧ (∃ j, t.sheaf.join = some j ∧ j.full = full) ∧ t.sheaf.out.head?.bind (·.head?) = some 0x01 ∧
          OthersStand s t [(0xF000, 1), (0xF000, 4)]) ∧
    (Client s (rqWrite h 0xF000 5 [1]) tr z .owner → num s 0x2000 2 = 1 → num s 0xF000 1 ≠ 2 →
      Completes (.sheafLeave h) s (rqWrite h 0xF000 5 [1]) z 10 [] fun t => num t 0xF000 1 = 0 ∧ num t 0x2000 2 = 0 ∧ t.sheaf.join = none) ∧
    (Client s (rqWrite h 0xF000 6 [1]) tr z .owner → num s 0x2000 2 = 1 → num s 0xF000 1 = 2 → bit h.origin 14 = true →
      Completes (.resetPartner h) s (rqWrite h 0xF000 6 [1]) z 10 [.coreReset 10] fun t => OthersStand s t [(0xF000, 6), (0xF000, 7)]) ∧
    (∀ (i : BitVec 16) (x : Byte) (dg : Bytes) (d : Desc) (v : Bytes), v = leBytes 2 i.toNat ++ [x, 0] ++ dg ++ zeros 4 → dg.length = 16 →
      Client s (rqWrite h 0xF000 0x0E v) tr z .owner → num s 0x2000 2 = 1 → num s 0xF000 1 ≠ 4 → Dict.find i.toNat x.toNat = (true, some d) →
      roleInForce s true i.toNat x.toNat d = .pair → (pendingConcur (number s)).length < 4 →
      Completes (.concur h v) s (rqWrite h 0xF000 0x0E v) z 10 [] fun t =>
        t.sheaf.concur = pendingConcur (number s) ++ [(s.seq.time, i.toNat, x.toNat, dg, onFollower h.origin)])

/-- Performance and tagging objects (R557, R559, R560, R566) outside a pair: Control stores its value, Clear zeroes the counters it names (of any block but that of the
store, which counts the write's own record), and Enable, in SERVICE, starts or stops tagging. -/
def Obligations.performance_objects_complete : Prop :=
  ∀ (s : State) (h : Hdr) (tr : Trailer) (z : Session), Open s →
    (∀ (b : Fin 14) (v : Word), Client s (rqWrite h (0xE000 + b.val) 13 (leBytes 4 v.toNat)) tr z .owner → clearBits v.toNat (Prf.controlMask b.val) = 0 →
      Completes (.counterControlWrite h b v) s (rqWrite h (0xE000 + b.val) 13 (leBytes 4 v.toNat)) z 10 [] fun t =>
        num t (0xE000 + b.val) 13 = v.toNat ∧ OthersStand s t [(0xE000 + b.val, 13)]) ∧
    (∀ (b : Fin 14) (v : Word), Client s (rqWrite h (0xE000 + b.val) 15 (leBytes 4 v.toNat)) tr z .owner → clearBits v.toNat (Prf.clearMask b.val) = 0 →
      Completes (.counterClear h b v) s (rqWrite h (0xE000 + b.val) 15 (leBytes 4 v.toNat)) z 10 [] fun t =>
        (b.val ≠ 8 → ∀ i, i < 8 → bit v.toNat i = true → perfAt t b.val i = 0) ∧ OthersStand s t [(0xE000 + b.val, 15)]) ∧
    (∀ v : Byte, Client s (rqWrite h 0xE200 1 [v]) tr z .service → num s 0x2000 3 ≠ 0 → v.toNat ≤ 1 →
      Completes (.taggingEnable h v) s (rqWrite h 0xE200 1 [v]) z 10 [] fun t =>
        num t 0xE200 1 = v.toNat ∧ (v = 0 → t.perf.next = none) ∧ (v = 1 → num s 0xE200 1 = 0 → t.perf.tags = 0) ∧ OthersStand s t [(0xE200, 1)])

/-! System calls. -/

/-- TIME, NOTIFY, STOP and the counter calls (R402, R423, R432, R441 to R444, R447): each is admitted, blocks its cell past the ECALL, and returns at its release, 2,
10 and 8 us later, but for STOP, which returns nothing. TIME writes its admission's number and time; NOTIFY sets Mailbox out; STOP leaves the cell STOPPED without memory; a counter call returns the new
value. -/
def Obligations.cell_calls_complete : Prop :=
  ∀ (s : State) (c : Fin 32) (x : Cell) (a : List Nat),
    (Calls s c x 3 a → ∃ t, exec (.sysTime c) s = .next t ∧
      Returns s t c 2 0 [] [(a.getD 0 0, leBytes 8 (s.seq.adm + 1) ++ leBytes 8 s.seq.time)] [] ∧
      SMap.look t.twc.cells c.val = some (calling x) ∧ OthersStand s t [(0xD000 + c.val, 13)]) ∧
    (Calls s c x 4 a → ∃ t, exec (.sysNotify c) s = .next t ∧ Returns s t c 10 0 [] [] [] ∧
      SMap.look t.twc.cells c.val = some (calling x) ∧ oct t (0xD000 + c.val) 12 = loadBytes x (a.getD 0 0) 24 ∧
      OthersStand s t [(0xD000 + c.val, 12), (0xD000 + c.val, 13)]) ∧
    (Calls s c x 5 a → ∃ t, exec (.sysStop c) s = .next t ∧ t.seq.adm = s.seq.adm + 1 ∧ t.seq.admTime = s.seq.time ∧
      (∃ y ∈ t.slots, y.adm = s.seq.adm + 1 ∧ y.numbered = true ∧ y.due = s.seq.time + 10 ∧ y.acts = []) ∧
      num t (0xD000 + c.val) 13 = sat32 (num s (0xD000 + c.val) 13) 1 ∧ SMap.look t.twc.cells c.val = none ∧ num t (0xD000 + c.val) 1 = 1 ∧
      OthersStand s t [(0xD000 + c.val, 1), (0xD000 + c.val, 7), (0xD000 + c.val, 13)]) ∧
    (∀ (k n : Nat) (adv : Bool), Calls s c x (if adv then 0x11 else 0x10) a → num s 0xD802 1 = 0 → a.getD 0 0 = k → k < 2048 →
      (if adv then n = a.getD 1 0 + a.getD 2 0 * 4294967296 ∧ counterValue s k < n ∧ num s (0xC000 + k) 4 = 0x100 + c.val
        else n = counterValue s k + 1 ∧ (num s (0xC000 + k) 4 = 0 ∨ num s (0xC000 + k) 4 = 0x100 + c.val) ∧
          (a.getD 1 0 + a.getD 2 0 * 4294967296 = counterValue s k ∨ a.getD 1 0 + a.getD 2 0 * 4294967296 = 0xFFFFFFFFFFFFFFFF)) →
      counterValue s k < 0xFFFFFFFFFFFFFFFF → SMap.wf (ringOf s k).words = true → (ringOf s k).bad = [] → 40000 ≤ creditNow (number s) k →
      ∃ t, exec (if adv then .ctrAdvance c .ok else .ctrIncrement c .ok) s = .next t ∧
        Returns s t c 8 0 [(11, n % 4294967296), (12, n / 4294967296)] [] [] ∧ counterValue t k = n ∧
        (∀ j, j ≠ k → counterValue t j = counterValue s j) ∧ SMap.look t.twc.cells c.val = some (calling x) ∧
        OthersStand s t [(0xC000 + k, 5), (0xC000 + k, 6), (0xC000 + k, 7), (0xD000 + c.val, 13)])

/-- WAIT, its deadline, and an unknown call (R443, R444, R448): none is admitted. WAIT returns at once with the events that its mask meets, or leaves the cell waiting;
a deadline that has passed returns with no more than its bit; an unknown number returns ABT_SERVICE_UNKNOWN. The model's readings in it: log 44 (a deadline without its
bit in the mask). -/
def Obligations.waits_and_unknown_calls_complete : Prop :=
  (∀ (s : State) (c : Fin 32) (x : Cell) (a : List Nat) (mask : Nat), Calls s c x 6 a → a.getD 0 0 = mask →
    (x.events &&& mask ≠ 0 →
      ∃ t y, exec (.sysWait c) s = .next t ∧ SMap.look t.twc.cells c.val = some y ∧ reg y 10 = 0 ∧ reg y 11 = BitVec.ofNat 32 (x.events &&& mask) ∧
        y.events = clearBits x.events mask ∧ y.pc = x.pc + 4 ∧ y.waiting = none ∧ y.mem = x.mem ∧ t.seq = s.seq ∧ t.slots = s.slots ∧ OthersStand s t []) ∧
    (x.events &&& mask = 0 → mask ≠ 0 → a.getD 1 0 = 0 → a.getD 2 0 = 0 → SMap.wf s.twc.cells = true →
      ∃ t, exec (.sysWait c) s = .next t ∧
        SMap.look t.twc.cells c.val = some { x with pc := x.pc + 4, retired := 0, stalled := none, waiting := some (mask, 0) } ∧
        t.seq = s.seq ∧ t.slots = s.slots ∧ OthersStand s t [])) ∧
  (∀ (s : State) (c : Fin 32) (x : Cell) (mask d : Nat), SMap.look s.twc.cells c.val = some x → x.waiting = some (mask, d) → d ≠ 0 → d ≤ s.seq.time →
    num s (0xD000 + c.val) 1 = 3 → x.dead = false →
    ∃ t y, exec (.waitDeadline c) s = .next t ∧ SMap.look t.twc.cells c.val = some y ∧ y.waiting = none ∧ reg y 10 = 0 ∧
      reg y 11 = BitVec.ofNat 32 ((x.events ||| 16) &&& mask) ∧ y.events = clearBits (x.events ||| 16) mask ∧ y.pc = x.pc ∧ y.mem = x.mem ∧
      t.seq = s.seq ∧ t.slots = s.slots ∧ OthersStand s t []) ∧
  (∀ (s : State) (c : Fin 32) (x : Cell), running s c = some x → fetch x = some 0x73 → (reg x 17).toNat ∉ Sys.known →
    ∃ t y, exec (.syscallUnknown c) s = .next t ∧ SMap.look t.twc.cells c.val = some y ∧ reg y 10 = 0x01010001 ∧ y.pc = x.pc + 4 ∧
      y.blocked = x.blocked ∧ y.mem = x.mem ∧ t.seq = s.seq ∧ t.slots = s.slots ∧ OthersStand s t [])

/-- READ and WRITE of a cell (R443, R445): READ is ordered, and writes the value to the cell's memory 2 us later; WRITE of an object that only holds its value, in a
write range of the manifest and within the cell's role, stores it in its admission. The model's readings in it: log 62 (which calls are numbered). -/
def Obligations.dictionary_calls_complete : Prop :=
  ∀ (s : State) (c : Fin 32) (x : Cell) (a : List Nat) (i k : Nat) (d : Desc), a.getD 0 0 = i → a.getD 1 0 = k → Dict.find i k = (true, some d) → d.ty ≠ .domain →
    (∀ (u : State) (v : Bytes), Calls s c x 1 a → u = callState s c x → Sys.checks u c.val false i k d none = 0 →
      v = readBytes u (Sys.ctx u c.val) i k d → v.length ≤ a.getD 3 0 → readConflict u (Sys.ctx u c.val) i k = 0 →
      ∃ t, exec (.syscallRead c .ok) s = .next t ∧ t.seq.adm = s.seq.adm ∧
        (∃ y ∈ t.slots, y.numbered = false ∧ y.due = s.seq.time + 2 ∧ y.acts = [.cellRet c.val [(10, 0), (11, v.length)] [(a.getD 2 0, v)]]) ∧
        SMap.look t.twc.cells c.val = some (calling x) ∧ OthersStand s t []) ∧
    (∀ v : Bytes, Calls s c x 2 a → Room s → v = callBytes x 2 a → d.ty ≠ .label → k < 256 → a.getD 3 0 = d.size → d.size ≤ 256 →
      Sys.checks s c.val true i k d (some (some v)) = 0 →
      (i = 0x1010 ∨ i = 0x1020 ∨ i = 0x2010 ∨ i = 0xDC00 ∨ i = 0xE300 ∨ (0x3000 ≤ i ∧ i < 0x3040)) →
      encodingCheck d v = 0 → plainCheck s i k (leNat v) v = 0 →
      ∃ t, exec (.syscallWrite c .ok) s = .next t ∧ Returns s t c 10 0 [] [] [] ∧ getObj t i k = d.decode v ∧
        SMap.look t.twc.cells c.val = some (calling x) ∧ OthersStand s t [(i, k), (0xD000 + c.val, 13)])

/-- Channel and key calls of a cell (R230, R233, R345, R347, R447, R449) outside SERVICE: CH_SEND seals its payload in a frame of the next sequence, released with the
result 4 us later; CH_RECV takes the head record; KEY_CREATE, KEY_REMOVE and KEY_REVOKE work below the cell's own root. The model's readings in it: log 62 (codes of
operands out of range). -/
def Obligations.channel_and_key_calls_complete : Prop :=
  ∀ (s : State) (c : Fin 32) (x : Cell) (a : List Nat), num s 0x2000 3 = 0 →
    (∀ n, Calls s c x 0x20 a → a.getD 0 0 = n → n < 0x8000 → num s (0x4000 + n) 5 = 0x100 + c.val →
      (num s (0x4000 + n) 1 = 3 ∨ num s (0x4000 + n) 1 = 4) → a.getD 2 0 ≤ tmplAt s n 4 (num s (0x3000 + num s (0x4000 + n) 3) 5) →
      num s (0x4000 + n) 9 < 0xFFFFFFFF →
      ∃ t, exec (.chSend c .ok) s = .next t ∧
        Returns s t c 4 0 [(11, num s (0x4000 + n) 9)] [] [.lane1 (.chfDown (sealFrame s n 1 (num s (0x4000 + n) 9) (callBytes x 0x20 a)))] ∧
        num t (0x4000 + n) 9 = num s (0x4000 + n) 9 + 1 ∧ SMap.look t.twc.cells c.val = some (calling x)) ∧
    (∀ n r rs, Calls s c x 0x21 a → a.getD 0 0 = n → n < 0x8000 → num s (0x4000 + n) 5 = 0x100 + c.val → (chanOf s n).queue = r :: rs →
      ∃ t, exec (.chRecv c) s = .next t ∧ Returns s t c 3 0 [(11, r.bytes.length)] [(a.getD 1 0, r.bytes)] [] ∧ (chanOf t n).queue = rs ∧
        num t 0x3100 2 = num s 0x3100 2 + 1 ∧ SMap.look t.twc.cells c.val = some (calling x)) ∧
    (∀ (n : Nat) (v label : Bytes) (p : Node), Calls s c x 0x30 a → Unworn s → v = callBytes x 0x30 a → 0x12 ≤ (v.getD 0 0).toNat → (v.getD 0 0).toNat ≤ 0x15 →
      (v.drop 5).take 3 = [0, 0, 0] → 1 ≤ (v.getD 4 0).toNat → (v.getD 4 0).toNat ≤ 32 → label = ((v.drop 8).take 32).take (v.getD 4 0).toNat →
      (((v.drop 8).take 32).drop (v.getD 4 0).toNat).all (· = 0) = true → SMap.look s.pers.nodes (0x20 + c.val) = some p → p.kind = 3 →
      p.level < 16 → live s (0x20 + c.val) = true →
      attrsAllowed (v.getD 0 0).toNat (v.getD 1 0).toNat (leNat ((v.drop 2).take 2)) = true → bit (leNat ((v.drop 2).take 2)) 5 = false →
      (s.pers.nodes.filter fun q => decide (q.2.parent = 0x20 + c.val)).length < 64 →
      (∀ q ∈ s.pers.nodes, q.2.parent = 0x20 + c.val → q.2.kind = (v.getD 0 0).toNat → q.2.alg = (v.getD 1 0).toNat → q.2.label = label → live s q.1 = false) →
      freeNode s = some n →
      ∃ t, exec (.keyCreate ⟨c, .ok⟩) s = .next t ∧ Returns s t c 10 0 [(11, handleOf t n)] [] [] ∧
        t.pers.nodes = SMap.put s.pers.nodes n ⟨0x20 + c.val, p.level + 1, (v.getD 0 0).toNat, (v.getD 1 0).toNat, leNat ((v.drop 2).take 2), label,
          epochOf s (0x20 + c.val)⟩ ∧ SMap.look t.twc.cells c.val = some (calling x)) ∧
    (∀ n, Calls s c x 0x31 a → Unworn s → nodeByHandle s (a.getD 0 0) = some n → below s (0x20 + c.val) n = true → 0x100 ≤ n → live s n = false → childCount s n = 0 →
      keySet s (fun k => decide (k % 0x10000 = n)) = false →
      ∃ t, exec (.keyRemove ⟨c, .ok⟩) s = .next t ∧ Returns s t c 10 0 [] [] [] ∧ t.pers.nodes = SMap.del s.pers.nodes n ∧
        SMap.look t.twc.cells c.val = some (calling x)) ∧
    (Calls s c x 0x32 a → epochOf s (0x20 + c.val) < 0xFFFFFF →
      ∃ t, exec (.keyRevoke ⟨c, .ok⟩) s = .next t ∧ Returns s t c 10 0 [(11, epochOf s (0x20 + c.val) + 1)] [] [] ∧
        epochOf t (0x20 + c.val) = epochOf s (0x20 + c.val) + 1 ∧ SMap.look t.twc.cells c.val = some (calling x))

/-- Stream and PLE calls of a cell (R272, R274, R278, R308, R450, R451): its two streams are begun, fed and released as host slots are, its PLE input is loaded and run;
the output goes to the cell's memory with the result. The model's readings in it: log 34 (the index of a session secret). -/
def Obligations.engine_calls_complete : Prop :=
  ∀ (s : State) (c : Fin 32) (x : Cell) (a : List Nat),
    (∀ (m tag : Byte) (dec : Bool) (key aad data : Word) (v : Bytes) (f : Nat), Calls s c x 0x40 a → a.getD 0 0 ≤ 1 → f = 0x100 + 2 * c.val + a.getD 0 0 →
      v = callBytes x 0x40 a →
      v = [m, if dec then 1 else 0, tag, 0] ++ leBytes 4 key.toNat ++ leBytes 4 aad.toNat ++ leBytes 4 data.toNat ++ zeros 8 →
      (streamOf s f).state ≠ 1 → (((dec && Str.isAead m.toNat) || Str.isKw m.toNat) = true →
        Sys.isStaged (streamOf s (0x100 + 2 * c.val + (1 - a.getD 0 0))) = false) →
      Str.known m.toNat = true → Str.tagOk m.toNat tag.toNat = true → Str.lenOk m.toNat dec aad.toNat data.toNat 8192 = true →
      (if Str.isSha m.toNat = true then key = 0 else key ≠ 0 ∧ keyForHandle s key.toNat (Sys.ctx s c.val).caller
        (decide (m.toNat ≤ 7) || decide (m.toNat = 0x18)) (fun y => usageOk y m.toNat dec (num s (0xD000 + c.val) 5)) = 0) →
      ∃ t, exec (.streamBegin c) s = .next t ∧ Returns s t c 10 0 [] [] [] ∧ (streamOf t f).state = 1 ∧
        (streamOf t f).ctx = some ⟨m.toNat, dec, tag.toNat, key.toNat, handleEpoch s key.toNat, aad.toNat, data.toNat, 0, 0, [], 0,
          if dec then [] else Str.buildNonce m.toNat (s.seq.adm + 1), zeros 200, false, s.seq.adm + 1, 0x100 + c.val, 0xFF, 0⟩ ∧
        SMap.look t.twc.cells c.val = some (calling x) ∧ OthersStand s t [(0xD000 + c.val, 13)]) ∧
    (∀ (f : Nat) (y : Stream) (k : SCtx) (v : Bytes) (r : SCtx × Bytes × Bytes), Calls s c x 0x41 a → a.getD 0 0 ≤ 1 → f = 0x100 + 2 * c.val + a.getD 0 0 →
      1 ≤ a.getD 2 0 → a.getD 2 0 ≤ 1024 → v = callBytes x 0x41 a → streamOf s f = y → y.state = 1 → y.ctx = some k → v.length < y.remain →
      Str.isKw k.mode = false → (Str.isAead k.mode && k.dec) = false → (16 ≤ k.mode → num s 0xCF20 3 = 0) →
      r = streamSegment k y.hold (handleKey s k.handle) v →
      ∃ t, exec (.streamData c .ok) s = .next t ∧ Returns s t c (streamLat k.mode) 0 [(11, r.2.2.length), (12, y.flags)] [(a.getD 3 0, r.2.2)]
          (if k.mode = 4 ∧ k.dec = false ∧ k.started = false then [.streamNonce f (fitBytes 16 r.1.iv)] else []) ∧
        (streamOf t f).ctx = some r.1 ∧ (streamOf t f).remain = y.remain - v.length ∧ SMap.look t.twc.cells c.val = some (calling x) ∧
        OthersStand s t [(0xD000 + c.val, 13)]) ∧
    (Calls s c x 0x42 a → a.getD 0 0 ≤ 1 →
      ∃ t, exec (.streamRelease c) s = .next t ∧ Returns s t c 2 0 [] [] [] ∧ streamOf t (0x100 + 2 * c.val + a.getD 0 0) = stream0 ∧
        SMap.look t.twc.cells c.val = some (calling x) ∧ OthersStand s t [(0xD000 + c.val, 13)]) ∧
    (∀ (b v : Bytes), Calls s c x 0x48 a → 1 ≤ a.getD 1 0 → a.getD 1 0 ≤ 1024 → a.getD 2 0 ≤ 1 → v = callBytes x 0x48 a →
      b = (if a.getD 2 0 = 1 then [] else (pleOf s (0x100 + c.val)).input) ++ v → b.length ≤ 8192 →
      ∃ t, exec (.pleLoad c) s = .next t ∧ Returns s t c 16 0 [(11, b.length)] [] [] ∧ (pleOf t (0x100 + c.val)).input = b ∧
        SMap.look t.twc.cells c.val = some (calling x) ∧ OthersStand s t [(0xD000 + c.val, 13)]) ∧
    (∀ (b : Bytes) (q : State) (o : PleOut), Calls s c x 0x49 a → b = (pleOf s (0x100 + c.val)).input → b ≠ [] →
      Sys.outLen (PleReq.parse b) ≤ a.getD 1 0 →
      pleRunOp (calledState s c x) b (Sys.ctx s c.val).caller .ok = .ran q o → o.secret = none →
      ∃ t, exec (.pleRun c .ok) s = .next t ∧
        Returns s t c (PleReq.latency (PleReq.parse b).op) o.code [(11, o.out.length), (12, (pleFlags q (PleReq.parse b).op o.code).1)] [(a.getD 0 0, o.out)] [] ∧
        (pleOf t (0x100 + c.val)).input = [] ∧ SMap.look t.twc.cells c.val = some (calling x) ∧ OthersStand s t [(0xD000 + c.val, 13)])

/-! The instructions of the applet cells. -/

/-- R424 on the registers: x0 reads as 0 and discards writes; a write changes its register alone. The register instructions of RV32I and M (R424, R425): each sets its
destination to the value that RISC-V gives it, goes on by four bytes and takes its fixed time. FENCE only goes on. Division by zero and signed overflow give the results
of the M extension in the same 34 cycles. The model's readings in it: log 12 (an instruction runs where it stands at the pc). -/
def Obligations.base_register_instructions : Prop :=
  (∀ (x : Cell) (r q : Fin 32) (v : Word), reg x 0 = 0 ∧ setReg x 0 v = x ∧ (r ≠ 0 → reg (setReg x r v) r = v) ∧
     (q ≠ r → reg (setReg x r v) q = reg x q)) ∧
  (∀ (c rd a b : Fin 32) (u : BitVec 20) (i : BitVec 12) (sh : BitVec 5),
     Sets (.lui c rd u) c 4 1 rd (fun _ => u ++ 0#12) ∧ Sets (.auipc c rd u) c 4 1 rd (fun x => x.pc + (u ++ 0#12)) ∧
     Sets (.addi c rd a i) c 4 1 rd (fun x => reg x a + i.signExtend 32) ∧
     Sets (.slti c rd a i) c 4 1 rd (fun x => if (reg x a).toInt < i.toInt then 1 else 0) ∧
     Sets (.sltiu c rd a i) c 4 1 rd (fun x => if (reg x a).toNat < (i.signExtend 32).toNat then 1 else 0) ∧
     Sets (.xori c rd a i) c 4 1 rd (fun x => reg x a ^^^ i.signExtend 32) ∧ Sets (.ori c rd a i) c 4 1 rd (fun x => reg x a ||| i.signExtend 32) ∧
     Sets (.andi c rd a i) c 4 1 rd (fun x => reg x a &&& i.signExtend 32) ∧ Sets (.slli c rd a sh) c 4 1 rd (fun x => reg x a <<< sh) ∧
     Sets (.srli c rd a sh) c 4 1 rd (fun x => reg x a >>> sh) ∧ Sets (.srai c rd a sh) c 4 1 rd (fun x => (reg x a).sshiftRight sh.toNat) ∧
     Sets (.add c rd a b) c 4 1 rd (fun x => reg x a + reg x b) ∧ Sets (.sub c rd a b) c 4 1 rd (fun x => reg x a - reg x b) ∧
     Sets (.sll c rd a b) c 4 1 rd (fun x => reg x a <<< (reg x b).extractLsb' 0 5) ∧
     Sets (.slt c rd a b) c 4 1 rd (fun x => if (reg x a).toInt < (reg x b).toInt then 1 else 0) ∧
     Sets (.sltu c rd a b) c 4 1 rd (fun x => if (reg x a).toNat < (reg x b).toNat then 1 else 0) ∧
     Sets (.xor c rd a b) c 4 1 rd (fun x => reg x a ^^^ reg x b) ∧ Sets (.srl c rd a b) c 4 1 rd (fun x => reg x a >>> (reg x b).extractLsb' 0 5) ∧
     Sets (.sra c rd a b) c 4 1 rd (fun x => (reg x a).sshiftRight ((reg x b).extractLsb' 0 5).toNat) ∧
     Sets (.or c rd a b) c 4 1 rd (fun x => reg x a ||| reg x b) ∧ Sets (.and c rd a b) c 4 1 rd (fun x => reg x a &&& reg x b) ∧
     Retires (.fence c) c 1 (fun _ => True) (fun _ x => { x with pc := x.pc + 4 }) ∧
     Sets (.mul c rd a b) c 4 3 rd (fun x => reg x a * reg x b) ∧
     Sets (.mulh c rd a b) c 4 3 rd (fun x => ((reg x a).signExtend 64 * (reg x b).signExtend 64).extractLsb' 32 32) ∧
     Sets (.mulhsu c rd a b) c 4 3 rd (fun x => ((reg x a).signExtend 64 * (reg x b).setWidth 64).extractLsb' 32 32) ∧
     Sets (.mulhu c rd a b) c 4 3 rd (fun x => ((reg x a).setWidth 64 * (reg x b).setWidth 64).extractLsb' 32 32) ∧
     Sets (.div c rd a b) c 4 34 rd (fun x => if reg x b = 0 then 0xFFFFFFFF
       else if reg x a = 0x80000000 ∧ reg x b = 0xFFFFFFFF then 0x80000000 else BitVec.ofInt 32 ((reg x a).toInt.tdiv (reg x b).toInt)) ∧
     Sets (.divu c rd a b) c 4 34 rd (fun x => if reg x b = 0 then 0xFFFFFFFF else reg x a / reg x b) ∧
     Sets (.rem c rd a b) c 4 34 rd (fun x => if reg x b = 0 then reg x a
       else if reg x a = 0x80000000 ∧ reg x b = 0xFFFFFFFF then 0 else BitVec.ofInt 32 ((reg x a).toInt.tmod (reg x b).toInt)) ∧
     Sets (.remu c rd a b) c 4 34 rd (fun x => if reg x b = 0 then reg x a else reg x a % reg x b))

/-- The compressed register instructions (R424, R425): each sets its destination as its expansion does, and goes on by two bytes. C.NOP only goes on. The model's
readings in it: log 12 (an instruction runs where it stands at the pc), log 39 (HINT encodings). -/
def Obligations.compressed_register_instructions : Prop :=
  ∀ (c rd b : Fin 32) (u : BitVec 10) (i : BitVec 6),
    Sets (.cAddi4spn c rd u) c 2 1 rd (fun x => reg x 2 + u.setWidth 32) ∧ Retires (.cNop c) c 1 (fun _ => True) (fun _ x => { x with pc := x.pc + 2 }) ∧
    Sets (.cAddi c rd i) c 2 1 rd (fun x => reg x rd + i.signExtend 32) ∧ Sets (.cLi c rd i) c 2 1 rd (fun _ => i.signExtend 32) ∧
    Sets (.cAddi16sp c u) c 2 1 2 (fun x => reg x 2 + u.signExtend 32) ∧ Sets (.cLui c rd i) c 2 1 rd (fun _ => i.signExtend 20 ++ 0#12) ∧
    Sets (.cSrli c rd i) c 2 1 rd (fun x => reg x rd >>> i) ∧ Sets (.cSrai c rd i) c 2 1 rd (fun x => (reg x rd).sshiftRight i.toNat) ∧
    Sets (.cAndi c rd i) c 2 1 rd (fun x => reg x rd &&& i.signExtend 32) ∧ Sets (.cSub c rd b) c 2 1 rd (fun x => reg x rd - reg x b) ∧
    Sets (.cXor c rd b) c 2 1 rd (fun x => reg x rd ^^^ reg x b) ∧ Sets (.cOr c rd b) c 2 1 rd (fun x => reg x rd ||| reg x b) ∧
    Sets (.cAnd c rd b) c 2 1 rd (fun x => reg x rd &&& reg x b) ∧ Sets (.cSlli c rd i) c 2 1 rd (fun x => reg x rd <<< i) ∧
    Sets (.cMv c rd b) c 2 1 rd (fun x => reg x b) ∧ Sets (.cAdd c rd b) c 2 1 rd (fun x => reg x rd + reg x b)

/-- Jumps and branches (R424, R425), base and compressed: the link register takes the address past the instruction, the pc its target or, for a branch not taken, the
next address; a branch changes no register. Each takes two cycles. The model's readings in it: log 12 (an instruction runs where it stands at the pc). -/
def Obligations.jumps_and_branches : Prop :=
  ∀ (c rd a b : Fin 32) (j : BitVec 21) (i : BitVec 12) (o : BitVec 13) (cj : BitVec 12) (cb : BitVec 9),
    Jumps (.jal c rd j) c rd (fun x => x.pc + 4) (fun x => x.pc + j.signExtend 32) ∧
    Jumps (.jalr c rd a i) c rd (fun x => x.pc + 4) (fun x => (reg x a + i.signExtend 32) &&& 0xFFFFFFFE) ∧
    Jumps (.beq c a b o) c 0 (fun _ => 0) (fun x => x.pc + if reg x a = reg x b then o.signExtend 32 else 4) ∧
    Jumps (.bne c a b o) c 0 (fun _ => 0) (fun x => x.pc + if reg x a = reg x b then 4 else o.signExtend 32) ∧
    Jumps (.blt c a b o) c 0 (fun _ => 0) (fun x => x.pc + if (reg x a).toInt < (reg x b).toInt then o.signExtend 32 else 4) ∧
    Jumps (.bge c a b o) c 0 (fun _ => 0) (fun x => x.pc + if (reg x a).toInt < (reg x b).toInt then 4 else o.signExtend 32) ∧
    Jumps (.bltu c a b o) c 0 (fun _ => 0) (fun x => x.pc + if (reg x a).toNat < (reg x b).toNat then o.signExtend 32 else 4) ∧
    Jumps (.bgeu c a b o) c 0 (fun _ => 0) (fun x => x.pc + if (reg x a).toNat < (reg x b).toNat then 4 else o.signExtend 32) ∧
    Jumps (.cJal c cj) c 1 (fun x => x.pc + 2) (fun x => x.pc + cj.signExtend 32) ∧ Jumps (.cJ c cj) c 0 (fun _ => 0) (fun x => x.pc + cj.signExtend 32) ∧
    Jumps (.cBeqz c a cb) c 0 (fun _ => 0) (fun x => x.pc + if reg x a = 0 then cb.signExtend 32 else 2) ∧
    Jumps (.cBnez c a cb) c 0 (fun _ => 0) (fun x => x.pc + if reg x a = 0 then 2 else cb.signExtend 32) ∧
    Jumps (.cJr c a) c 0 (fun _ => 0) (fun x => reg x a &&& 0xFFFFFFFE) ∧ Jumps (.cJalr c a) c 1 (fun x => x.pc + 2) (fun x => reg x a &&& 0xFFFFFFFE)

/-- Loads and stores in cell memory (R424 to R428): an aligned load takes its bytes, least significant first, from the code or data region, an aligned store writes the
low bytes of its register into the data region and no other byte; a word load from the system window takes the cell number, the granted role, the applet version or the
pending events. The model's readings in it: log 7 (an unlisted byte reads 0), log 12. -/
def Obligations.loads_and_stores : Prop :=
  (∀ (c rd a b : Fin 32) (i : BitVec 12) (u : BitVec 7) (v : BitVec 8),
    Loads (.lb c rd a i) c 4 1 (fun x => reg x a + i.signExtend 32) rd (fun m => (m.getD 0 0).signExtend 32) ∧
    Loads (.lh c rd a i) c 4 2 (fun x => reg x a + i.signExtend 32) rd (fun m => (m.getD 1 0 ++ m.getD 0 0).signExtend 32) ∧
    Loads (.lw c rd a i) c 4 4 (fun x => reg x a + i.signExtend 32) rd (fun m => m.getD 3 0 ++ m.getD 2 0 ++ m.getD 1 0 ++ m.getD 0 0) ∧
    Loads (.lbu c rd a i) c 4 1 (fun x => reg x a + i.signExtend 32) rd (fun m => (m.getD 0 0).setWidth 32) ∧
    Loads (.lhu c rd a i) c 4 2 (fun x => reg x a + i.signExtend 32) rd (fun m => (m.getD 1 0 ++ m.getD 0 0).setWidth 32) ∧
    Loads (.cLw c rd a u) c 2 4 (fun x => reg x a + u.setWidth 32) rd (fun m => m.getD 3 0 ++ m.getD 2 0 ++ m.getD 1 0 ++ m.getD 0 0) ∧
    Loads (.cLwsp c rd v) c 2 4 (fun x => reg x 2 + v.setWidth 32) rd (fun m => m.getD 3 0 ++ m.getD 2 0 ++ m.getD 1 0 ++ m.getD 0 0) ∧
    Stores (.sb c a b i) c 4 1 (fun x => reg x a + i.signExtend 32) b ∧ Stores (.sh c a b i) c 4 2 (fun x => reg x a + i.signExtend 32) b ∧
    Stores (.sw c a b i) c 4 4 (fun x => reg x a + i.signExtend 32) b ∧ Stores (.cSw c a b u) c 2 4 (fun x => reg x a + u.setWidth 32) b ∧
    Stores (.cSwsp c b v) c 2 4 (fun x => reg x 2 + v.setWidth 32) b) ∧
  (∀ (c rd a : Fin 32) (i : BitVec 12) (w : Fin 4),
    Retires (.lw c rd a i) c 2 (fun x => reg x a + i.signExtend 32 = BitVec.ofNat 32 (0x40004 + 4 * w.val)) fun s x =>
      { setReg x rd (BitVec.ofNat 32 ([c.val, num s (0xD000 + c.val) 5, num s (0xD000 + c.val) 3, x.events].getD w.val 0)) with pc := x.pc + 4 }) ∧
  (∀ (x : Cell) (a : Nat) (b : Bytes) (q : Nat),
    loadByte (storeBytes x a b) q = (if a ≤ q ∧ q < a + b.length then b.getD (q - a) 0 else loadByte x q) ∧
      (Memory.wf x.mem = true → Memory.wf (storeBytes x a b).mem = true))

/-- Where a load, a store or a fetch faults (R424 to R427, R433, R434): a misaligned access with cause 5, a load outside the regions and the window with cause 3, a
store outside the data region with cause 4; an encoding outside R424 with cause 1, a pc outside the code region with cause 2. The model's readings in it: log 45
(alignment is looked at first). -/
def Obligations.cells_fault_by_cause : Prop :=
  (∀ (c rd a b : Fin 32) (i : BitVec 12) (u : BitVec 7) (v : BitVec 8),
    Traps (.lh c rd a i) c 5 (fun x => (reg x a + i.signExtend 32).toNat % 2 ≠ 0) ∧ Traps (.lhu c rd a i) c 5 (fun x => (reg x a + i.signExtend 32).toNat % 2 ≠ 0) ∧
    Traps (.lw c rd a i) c 5 (fun x => (reg x a + i.signExtend 32).toNat % 4 ≠ 0) ∧ Traps (.cLw c rd a u) c 5 (fun x => (reg x a + u.setWidth 32).toNat % 4 ≠ 0) ∧
    Traps (.cLwsp c rd v) c 5 (fun x => (reg x 2 + v.setWidth 32).toNat % 4 ≠ 0) ∧ Traps (.sh c a b i) c 5 (fun x => (reg x a + i.signExtend 32).toNat % 2 ≠ 0) ∧
    Traps (.sw c a b i) c 5 (fun x => (reg x a + i.signExtend 32).toNat % 4 ≠ 0) ∧ Traps (.cSw c a b u) c 5 (fun x => (reg x a + u.setWidth 32).toNat % 4 ≠ 0) ∧
    Traps (.cSwsp c b v) c 5 (fun x => (reg x 2 + v.setWidth 32).toNat % 4 ≠ 0) ∧
    Traps (.lb c rd a i) c 3 (fun x => 0x30000 ≤ (reg x a + i.signExtend 32).toNat) ∧ Traps (.lbu c rd a i) c 3 (fun x => 0x30000 ≤ (reg x a + i.signExtend 32).toNat) ∧
    Traps (.lw c rd a i) c 3 (fun x => (reg x a + i.signExtend 32).toNat % 4 = 0 ∧ 0x30000 ≤ (reg x a + i.signExtend 32).toNat ∧
      ¬(0x40000 ≤ (reg x a + i.signExtend 32).toNat ∧ (reg x a + i.signExtend 32).toNat < 0x40014)) ∧
    Traps (.sb c a b i) c 4 (fun x => (reg x a + i.signExtend 32).toNat < x.code ∨ 0x30000 ≤ (reg x a + i.signExtend 32).toNat) ∧
    Traps (.sw c a b i) c 4 (fun x => (reg x a + i.signExtend 32).toNat % 4 = 0 ∧
      ((reg x a + i.signExtend 32).toNat < x.code ∨ 0x30000 ≤ (reg x a + i.signExtend 32).toNat))) ∧
  (∀ (s : State) (c : Fin 32) (x : Cell), running s c = some x →
    (∀ w, fetch x = some w → Rv.decode c w = .illegal → ∃ t, exec (.illegalInstruction c) s = .next t ∧ Faults s t c 1 x.pc) ∧
    (fetch x = none → ∃ t, exec (.illegalInstruction c) s = .next t ∧ Faults s t c 2 x.pc))

/-! The events of the cells. -/

/-- The events of a cell (R386, R388, R428 to R430, R434). A read of RNG_DATA takes the next four bytes of tiller 16 + c in a cell of RANDOM kind, stalls while the
buffer is empty, and faults with cause 7 without entropy, 8 in a cell that is not RANDOM; a stall that ends without a word is a fault of cause 7. A load that completes
gives the cell its memory, registers and pc, leaves it the events that became pending since its start, and makes it RUNNING, in its own admission. A quantum that ends gives the pair to the next runnable cell. A budget of 2^28 instructions ends in a
fault of cause 6. The admission of a fault makes a RUNNING cell FAULTED with its cause and pc. The model's readings in it: log 50 (when a quantum acts), log 79 (the
state at a load), log 120 (the stall bound in microseconds), log 121 (the admission of a load). -/
def Obligations.cell_events_complete : Prop :=
  ∀ (s : State) (c : Fin 32) (x : Cell),
    (∀ (w n : Nat) (i : Instr) (rd : Fin 32), running s c = some x → fetch x = some w → rngLoad c x w = some (i, n, rd) →
      (isRandom s c.val = false → ∃ t, exec (.rngDataRead c) s = .next t ∧ Faults s t c 8 x.pc) ∧
      (isRandom s c.val = true → s.entropyDown = true → ∃ t, exec (.rngDataRead c) s = .next t ∧ Faults s t c 7 x.pc) ∧
      (isRandom s c.val = true → s.entropyDown = false → 4 ≤ (tillerOf s (16 + c.val)).buf.length →
        ∃ t, exec (.rngDataRead c) s = .next t ∧ (tillerOf t (16 + c.val)).buf = (tillerOf s (16 + c.val)).buf.drop 4 ∧ cellsOnly s t ∧
          t.twc.cycles = s.twc.cycles + 2 ∧
          SMap.look t.twc.cells c.val = some { setReg x rd (BitVec.ofNat 32 (leNat ((tillerOf s (16 + c.val)).buf.take 4))) with
            pc := x.pc + BitVec.ofNat 32 n, retired := x.retired + 1, stalled := none }) ∧
      (isRandom s c.val = true → s.entropyDown = false → (tillerOf s (16 + c.val)).buf.length < 4 →
        ∃ t, exec (.rngDataRead c) s = .next t ∧ SMap.look t.twc.cells c.val = some { x with stalled := some (x.stalled.getD s.seq.time) } ∧ t.rng = s.rng ∧
          t.twc.cycles = s.twc.cycles ∧ t.internal = s.internal ∧ cellsOnly s t)) ∧
    (∀ t0, SMap.look s.twc.cells c.val = some x → x.stalled = some t0 → t0 + 5 ≤ s.seq.time →
      ∃ t, exec (.rngDataStallTimeout c) s = .next t ∧ Faults s t c 7 x.pc) ∧
    (∀ m : Bytes, mayLoad s c.val = true → SMap.look s.twc.cells c.val = some x → storedManifest s c.val = some m →
      Inward s (internalIn 24 [c.val] false) → internalTurn s = false →
      Admitting (.cellLoadComplete c) s s.internal fun t => SMap.look t.twc.cells c.val = some { loadedCell m c.val x.reason with events := x.events } ∧
        num t (0xD000 + c.val) 1 = 3 ∧ num t (0xD000 + c.val) 7 = 0 ∧ OthersStand s t [(0xD000 + c.val, 1), (0xD000 + c.val, 7)] ∧ t.slots = s.slots) ∧
    (s.twc.current = some c.val → SMap.look s.twc.cells c.val = some x → 8000 ≤ s.twc.cycles ∨ x.stalled.isSome = true →
      ∃ t, exec .quantumExpiry s = .next t ∧ t.twc.cells = s.twc.cells ∧ t.twc.current = nextCell s ∧
        (∀ d, nextCell s = some d → t.twc.last = d ∧ t.twc.cycles = 0) ∧ t.internal = s.internal ∧ cellsOnly s t) ∧
    (s.twc.current = some c.val → runnable s c.val = true → s.power = 0 → s.stage ≠ 0 → SMap.look s.twc.cells c.val = some x → 2 ^ 28 ≤ x.retired →
      ∃ t, exec (.budgetFault c) s = .next t ∧ Faults s t c 6 x.pc) ∧
    (∀ (cause pc : Nat) (rest : List IntReq), s.internal = .cellFault c.val cause pc :: rest → Inward s (internalIn 18 [c.val, cause, pc] false) → Unworn s →
      (num s (0xD000 + c.val) 1 = 3 →
        Committing (.faultAdmission c) s rest fun t =>
          num t (0xD000 + c.val) 1 = 4 ∧ num t (0xD000 + c.val) 7 = cause ∧ num t (0xD000 + c.val) 8 = pc ∧
            num t (0xD000 + c.val) 14 = sat32 (num s (0xD000 + c.val) 14) 1 ∧ SMap.look t.twc.cells c.val = none ∧
            OthersStand s t [(0xD000 + c.val, 1), (0xD000 + c.val, 7), (0xD000 + c.val, 8), (0xD000 + c.val, 14)]) ∧
      (num s (0xD000 + c.val) 1 ≠ 3 → Admitting (.faultAdmission c) s rest fun t => OthersStand s t []))

/-! The field die: its reports and its guard lines. -/

/-- The periodic reports of the field die (R171, R455, R471, R520): each joins the lane-0 queue where its period has passed, FIELD_REPORT and NET_STATUS not while the core
die sleeps, OUTPUT_SENSE then only while an output conducts; an analog value is the mean of the samples of its interval toward zero, each of them clamped to full scale and
the calibration's left out, with OVERRANGE where one lay beyond full scale, and 0 for an input that is not enabled. The guard inputs (R466 to R469, R171): a sample, once on each
50 us of field time, moves each input by its filter count and its window, and an event it raises is sent; the close of a window sends the chatter entry of a
suppressed change and raises the level that was lost; the stuck time sends its entry once. The model's readings in it: log 15 (the die's
own readings are free), log 76 (reports while the core die sleeps, the mean), log 134 (the phases of the periods). -/
def Obligations.field_observations_are_sent : Prop :=
  (∀ s : State, let f := s.field
     (OnLine f →
       (f.due.report + 1000 ≤ f.time → let g := Fld.readSelf { f with due := { f.due with report := f.time } }
         exec .fieldReportPeriod s = .next { s with field := { g with lane0 := f.lane0 ++ [.fieldReport (Fld.report g)] } }) ∧
       (f.due.net + 100000 ≤ f.time → exec .netStatusPeriod s = .next { s with field := { f with
         due := { f.due with net := f.time }
         lane0 := f.lane0 ++ ((List.range 7).filter (Fld.portOn f)).map fun p => .netStatus (Fld.netStatus f (Fin.ofNat 7 p)) } }) ∧
       (∀ xs : List (BitVec 20), xs.length = 8 → f.due.sense + 10000 ≤ f.time →
         exec (.outputSensePeriod xs) s = .next { s with field := { f with
           due := { f.due with sense := f.time }, lane0 := f.lane0 ++ [.outputSense (xs.map BitVec.toNat)] } }) ∧
       (∀ (samples : List (List Int)) (cal : Option Nat), let ms := fset f 0xDB30 4
         let passed := f.time / 10000000 ≠ f.due.analog / 10000000
         let of' := fun n => (samples.getD n []).eraseIdx (cal.getD (4 * ms))
         f.due.analog + ms * 1000 ≤ f.time → samples.length = 4 → (∀ xs ∈ samples, xs.length = 4 * ms) →
         (if passed then ∃ n, cal = some n ∧ n < 4 * ms else cal = none) →
         ∃ (xs : List (BitVec 20)) (ovr : Nat), xs.length = 4 ∧ ovr < 16 ∧
           (∀ n, n < 4 → xs.getD n 0 = if fset f (0xDB20 + n) 2 = 1
             then BitVec.ofInt 20 ((((of' n).map fun x => max (-524288) (min 524287 x)).sum).tdiv (of' n).length) else 0) ∧
           (∀ n, n < 4 → (bit ovr n = true ↔ fset f (0xDB20 + n) 2 = 1 ∧ ∃ x ∈ of' n, x < -524288 ∨ 524287 < x)) ∧
           exec (.analogReportPeriod samples cal) s = .next { s with field := { f with
             due := { f.due with analog := f.time }, lane0 := f.lane0 ++ [.analogSense (xs.map BitVec.toNat) ovr] } })) ∧
     (f.run = true → f.link = 2 → f.notice = 1 →
       (f.due.report + 1000 ≤ f.time →
         exec .fieldReportPeriod s = .next { s with field := Fld.readSelf { f with due := { f.due with report := f.time } } }) ∧
       (f.due.net + 100000 ≤ f.time → exec .netStatusPeriod s = .next { s with field := { f with due := { f.due with net := f.time } } }) ∧
       (∀ xs : List (BitVec 20), xs.length = 8 → f.due.sense + 10000 ≤ f.time →
         exec (.outputSensePeriod xs) s = .next { s with field := { f with
           due := { f.due with sense := f.time }
           lane0 := f.lane0 ++ if Fld.conducting f = 0 then [] else [.outputSense (xs.map BitVec.toNat)] } })) ∧
     (f.time < f.due.report + 1000 → exec .fieldReportPeriod s = .next s) ∧ (f.time < f.due.net + 100000 → exec .netStatusPeriod s = .next s) ∧
     (∀ xs : List (BitVec 20), f.time < f.due.sense + 10000 → exec (.outputSensePeriod xs) s = .next s)) ∧
  (∀ s : State, let f := s.field
     OnLine f →
     (∀ levels : BitVec 16, f.time % 50 = 0 → f.due.tick ≤ f.time / 50 → AtField (.guardInputSample levels) s fun g =>
       g.due = { f.due with tick := f.time / 50 + 1 } ∧
       (∀ n : Fin 16, let v := levels.getLsbD n.val ^^ decide (fset f (0xDB10 + n.val) 6 = 1)
         SMap.look g.ins n.val = some (sampled f n v (SMap.look f.ins n.val)) ∧
           (∀ x, SMap.look f.ins n.val = some x → v ≠ x.f → fset f (0xDB10 + n.val) 3 ≤ x.run + 1 → x.win = none →
             entrySent f g n (if v then 1 else 2))) ∧
       g.outs = f.outs ∧ g.wave = f.wave ∧ g.permitOut = f.permitOut ∧ guardFrame f g) ∧
     (∀ (n : Fin 16) (x : FIn) (t : Nat), SMap.look f.ins n.val = some x → x.win = some t → fset f (0xDB10 + n.val) 4 * 20 ≤ ticksSince f t →
       AtField (.eventWindowClose n) s fun g =>
         inBecomes f g n (if x.f = x.r then { x with win := none, suppressed := false }
           else { x with r := x.f, win := some (Fld.tick f), suppressed := false, active := if x.f then some (Fld.tick f) else none, stuck := x.f && x.stuck }) ∧
         (x.suppressed = true → entrySent f g n 4) ∧ (x.f ≠ x.r → entrySent f g n (if x.f then 1 else 2))) ∧
     (∀ (n : Fin 16) (x : FIn) (t : Nat), SMap.look f.ins n.val = some x → x.active = some t → fset f (0xDB10 + n.val) 5 ≠ 0 → x.stuck = false →
       x.r = true → fset f (0xDB10 + n.val) 5 * 20000 ≤ ticksSince f t →
       AtField (.stuckTimeExpiry n) s fun g => inBecomes f g n { x with stuck := true } ∧ entrySent f g n 3))

/-- The guard outputs between their commands (R39, R42, R49, R459, R460, R463, R464, R177): a pulse ends, a trip turns an output off with its fault bit, and for good
past its last retry, a retry conducts again, the bit clears after 100 ms; an absent toggle and a VGUARD undervoltage cut every output and stop the wave of PERMIT_OUT,
which starts high on a millisecond and turns each half-period; VGUARD is followed also while the die is held in reset. The model's readings in it: log 76 (the times at which PERMIT_OUT turns). -/
def Obligations.guard_outputs_follow_their_events : Prop :=
  (∀ s : State, let f := s.field
    f.run = true →
    (∀ (n : Fin 8) (o : FOut), Fld.outOf f n.val = o →
      (∀ t, o.first = some t → fset f (0xDB00 + n.val) 2 ≠ 0 → t + fset f (0xDB00 + n.val) 2 * 1000 ≤ f.time →
        AtField (.pulseExpiry n) s fun g =>
          outBecomes f g n.val { o with on := false, conducting := false, first := none, since := none, tripped := none }) ∧
      (o.conducting = true → AtField (.outputTrip n) s fun g =>
        outBecomes f g n.val { o with conducting := false, fault := true, since := none
                                      tripped := if fset f (0xDB00 + n.val) 3 ≤ o.retries then none else some f.time }) ∧
      (∀ t, o.tripped = some t → o.on = true → t + fset f (0xDB00 + n.val) 4 * 1000 ≤ f.time →
        AtField (.retryIntervalExpiry n) s fun g =>
          outBecomes f g n.val { o with retries := o.retries + 1, conducting := true, first := some (o.first.getD f.time), since := some f.time
                                        tripped := none }) ∧
      (∀ t, o.since = some t → o.fault = true → t + 100000 ≤ f.time →
        AtField (.faultClearTimer n) s fun g => outBecomes f g n.val { o with fault := false, retries := 0 })) ∧
    (AtField .permitToggleAbsent s fun g => g.toggle = false ∧ g.outs = [] ∧ g.wave = false ∧ g.permitOut = false ∧ g.permitCmd = false ∧
      g.ins = f.ins ∧ guardFrame f g) ∧
    (s.boot.toggle = true → AtField .permitToggleLive s fun g => g.toggle = true ∧ g.outs = f.outs ∧ g.wave = f.wave ∧ g.ins = f.ins ∧ guardFrame f g) ∧
    (f.permitCmd = true → f.toggle = true → f.link = 2 → f.vguardOk = true →
      (f.wave = true → f.time % 500 = 0 → exec .permitOutHalfPeriod s = .next { s with field := { f with permitOut := !f.permitOut } }) ∧
      (f.wave = false → f.time % 1000 = 0 → exec .permitOutHalfPeriod s = .next { s with field := { f with wave := true, permitOut := true } }))) ∧
  (∀ (s : State) (v : BitVec 20), let f := s.field
    (AtField (.vguardUndervoltage v) s fun g => g.vguardOk = false ∧ g.uv = true ∧ g.vguard = v ∧ g.outs = [] ∧ g.wave = false ∧ g.permitOut = false ∧
      g.permitCmd = f.permitCmd ∧ g.ins = f.ins ∧ guardFrame f g) ∧
    (AtField (.vguardRecovery v) s fun g => g.vguardOk = true ∧ g.uv = false ∧ g.vguard = v ∧ g.outs = f.outs ∧ g.ins = f.ins ∧ guardFrame f g))

/-! The field die: networks and lane-1 messages. -/

/-- Frames from the field networks (R147 to R152, R170, R221): a SINGLE, or the last CONSECUTIVE of a message, sends the BDP message to the core die under the origin of
its port and node; FIRST opens a reassembly and CONSECUTIVE continues it; a frame out of sequence and 20 ms without one end it, counted as dropped; a channel frame
crosses only on its own route; an Ethernet frame from a listed source does the same. A port's new state is reported, and a controller leaves bus-off where recovery is
automatic or was commanded (R145, R155, R171). The model's readings in it: log 76 (recovery of a bus-off controller). -/
def Obligations.network_frames_are_carried : Prop :=
  ∀ s : State, let f := s.field
    (∀ (c : Fin 4) (node : Nat), takesFrames f c.val → 1 ≤ node → node ≤ 0x7F →
      (∀ (m d : Bytes), 8 ≤ m.length → m.length ≤ 61 → d = [0] ++ leBytes 2 m.length ++ m ++ zeros (Fld.canLen (m.length + 3) - (m.length + 3)) →
        Frames (.canSingle c node d) s fun g => g.lane0 = f.lane0 ++ [.bdpReq (0x8000 + c.val * 256 + node) m] ∧ receivedAt f g c.val ∧
          SMap.look g.reasm (c.val * 256 + node) = none) ∧
      (∀ (l : Nat) (d : Bytes), 62 ≤ l → l ≤ 1054 → d.length = 61 → f.reasm.length < 32 →
        Frames (.canFirst c node ([0x40] ++ leBytes 2 l ++ d)) s fun g => SMap.look g.reasm (c.val * 256 + node) = some ⟨l, d, 1, f.time⟩ ∧
          receivedAt f g c.val ∧ g.lane0 = f.lane0) ∧
      (∀ x : Reasm, SMap.look f.reasm (c.val * 256 + node) = some x →
        (∀ d : Bytes, x.next < 16 → f.time ≤ x.time + 20000 → x.data.length + 63 < x.len → d.length = 63 →
          Frames (.canConsecutive c node (BitVec.ofNat 8 (0x80 + x.next) :: d)) s fun g => receivedAt f g c.val ∧ g.lane0 = f.lane0 ∧
            SMap.look g.reasm (c.val * 256 + node) = some ⟨x.len, x.data ++ d, (x.next + 1) % 16, f.time⟩) ∧
        (∀ d : Bytes, x.next < 16 → f.time ≤ x.time + 20000 → d.length ≤ 63 → x.len = x.data.length + d.length →
          Frames (.canConsecutive c node (BitVec.ofNat 8 (0x80 + x.next) :: d ++ zeros (Fld.canLen (d.length + 1) - (d.length + 1)))) s fun g =>
            receivedAt f g c.val ∧ g.lane0 = f.lane0 ++ [.bdpReq (0x8000 + c.val * 256 + node) (x.data ++ d)] ∧
              SMap.look g.reasm (c.val * 256 + node) = none) ∧
        (∀ d : Bytes, (d.getD 0 0).toNat / 16 = 8 → (d.getD 0 0).toNat % 16 ≠ x.next →
          Frames (.canConsecutive c node d) s fun g => droppedAt f g c.val ∧ SMap.look g.reasm (c.val * 256 + node) = none ∧ g.lane0 = f.lane0) ∧
        (x.time + 20000 < f.time → Frames (.reassemblyTimeout c node) s fun g =>
          droppedAt f g c.val ∧ SMap.look g.reasm (c.val * 256 + node) = none ∧ g.lane0 = f.lane0)) ∧
      (∀ b : Bytes, 28 ≤ b.length → b.length ≤ 64 → (b.getD 1 0).toNat = b.length →
        Frames (.canChannelFrame c node (b ++ zeros (Fld.canLen b.length - b.length))) s fun g =>
          if SMap.look f.routes (leNat ((b.drop 2).take 2) % 0x8000) = some (c.val * 256 + node) then g.lane0 = f.lane0 ++ [.chfUp b] ∧ receivedAt f g c.val
          else g.lane0 = f.lane0 ∧ droppedAt f g c.val)) ∧
    (∀ (p : Fin 3) (own src : Bytes) (node : Nat), takesFrames f (4 + p.val) → fsetBytes f (Fld.portIdx (4 + p.val)) 2 = own → own.length = 6 →
      src.length = 6 → Fld.nodeOfMac f (4 + p.val) src = some node →
      (∀ m : Bytes, 8 ≤ m.length → m.length ≤ 1054 → Frames (.ethBdpFrame p (ethFrame own src 1 m)) s fun g =>
        g.lane0 = f.lane0 ++ [.bdpReq (0x8000 + (4 + p.val) * 256 + node) m] ∧ receivedAt f g (4 + p.val)) ∧
      (∀ b : Bytes, 28 ≤ b.length → (b.getD 1 0).toNat = b.length → Frames (.ethChannelFrame p (ethFrame own src 2 b)) s fun g =>
        if SMap.look f.routes (leNat ((b.drop 2).take 2) % 0x8000) = some ((4 + p.val) * 256 + node)
        then g.lane0 = f.lane0 ++ [.chfUp b] ∧ receivedAt f g (4 + p.val) else g.lane0 = f.lane0 ∧ droppedAt f g (4 + p.val))) ∧
    (∀ (p : Fin 7) (state tec recv : Byte), OnLine f → Fld.portOn f p.val = true → Frames (.netStateChange p state tec recv) s fun g =>
      Fld.portOf g p.val = { Fld.portOf f p.val with state := state.toNat, tec := tec.toNat, recv := recv.toNat
                                                     recovering := (Fld.portOf f p.val).recovering && decide (state = 2) } ∧
        g.lane0 = f.lane0 ++ [.netStatus (Fld.netStatus g p)]) ∧
    (∀ c : Fin 4, OnLine f → Fld.portOn f c.val = true → (Fld.portOf f c.val).state = 2 →
      (fset f (0x1200 + c.val) 7 = 0 ∨ (Fld.portOf f c.val).recovering = true) → Frames (.busOffAutoRecovery c) s fun g =>
      Fld.portOf g c.val = { Fld.portOf f c.val with state := 0, tec := 0, recv := 0, recovering := false } ∧
        g.lane0 = f.lane0 ++ [.netStatus (Fld.netStatus g (Fin.ofNat 7 c.val))])

/-- The messages of lane 1 at the field die (R146 to R148, R151, R156, R170, R172, R454, R457 to R459, R519, R520), each where it comes next on its lane (R169): a response
leaves on the port and to the node of its origin, a channel frame by its route, in the frames of their network; GUARD_SET turns outputs off, and on while the toggle is
live, and starts or stops the permit; ROUTE entries set and remove routes; a setting waits for its commit, which writes what was received with its generation and turns off the ports that are no longer enabled; a notice takes effect on
receipt, and the awake notice sends what was held, then one FIELD_REPORT; a recovery request is for a controller in bus-off. The model's readings in it: log 76 (what a
notice sends). -/
def Obligations.lane_1_messages_take_effect : Prop :=
  ∀ s : State, let f := s.field
    f.run = true → f.link = 2 →
    (∀ (origin : Nat) (m : Bytes), Delivers (.bdpResp origin m) s (.bdpResp origin m) fun g => let p := origin / 256 % 128
      if 0x8000 ≤ origin ∧ p < 7 then sentAt f g p (portFrames f p (origin % 256) 0x300 1 (Fld.canBdp m) m) else g.net = f.net) ∧
    (∀ b : Bytes, Delivers (.chfDown b) s (.chfDown b) fun g =>
      match SMap.look f.routes (leNat ((b.drop 2).take 2) % 0x8000) with
      | some r => sentAt f g (r / 256) (portFrames f (r / 256) (r % 256) 0x100 2 [fitBytes (Fld.canLen b.length) b] b)
      | none => g.net = f.net ∧ g.framesDropped = sat32 f.framesDropped 1) ∧
    (∀ mask on permit : Byte, crosses1 s (.guardSet mask.toNat on.toNat permit.toNat) = true → permit.toNat < 2 ∨ permit = 0xFF →
      ∃ t, exec (.guardSet mask on permit) s = .next t ∧ dieFrame s t ∧ t.field.ins = f.ins ∧ t.field.link = 2 ∧ t.field.net = f.net ∧
        (∀ n, n < 8 → Fld.outOf t.field n =
          if bit mask.toNat n = false then Fld.outOf f n
          else if bit on.toNat n = false then Fld.out0
          else if f.toggle = false then Fld.outOf f n
          else if ((Fld.outOf f n).on && (Fld.outOf f n).conducting) || !f.vguardOk then { Fld.outOf f n with retries := 0, tripped := none }
          else ⟨true, true, false, 0, some f.time, some f.time, none⟩) ∧
        t.field.permitCmd = (if permit = 0 then false else if permit = 1 ∧ f.toggle = true then true else f.permitCmd) ∧
        (if permit = 0 then t.field.wave = false ∧ t.field.permitOut = false else t.field.wave = f.wave ∧ t.field.permitOut = f.permitOut)) ∧
    (∀ es : List (BitVec 16 × BitVec 16), 1 ≤ es.length → es.length ≤ 6 → (∀ e ∈ es, e.2 &&& 0xF880 = 0) →
      Delivers (.route es) s (.route (es.map fun e => (e.1.toNat, e.2.toNat))) fun g =>
      g.net = f.net ∧ ∀ n, SMap.look g.routes n = match es.reverse.find? (fun e => decide (e.1.toNat % 0x8000 = n)) with
        | none => SMap.look f.routes n
        | some e => if e.1.getLsbD 15 then some (e.2.toNat / 256 * 256 + e.2.toNat % 128) else none) ∧
    (∀ (i k : Nat) (v : Bytes), isCarried i k = true → 1 ≤ v.length → v.length ≤ 20 → Delivers (.netConfig i k v) s (.netConfig i k v) fun g =>
      g.staged = f.staged ++ [(objKey i k, v)] ∧ g.nv = f.nv ∧ g.gen = f.gen ∧ g.ports = f.ports) ∧
    (∀ gen : Word, Delivers (.netConfigCommit gen) s (.netCommit gen.toNat) fun g =>
      g.gen = gen.toNat ∧ g.staged = [] ∧
        (∀ q, SMap.look g.nv q = match f.staged.reverse.find? (fun e => decide (e.1 = q)) with
          | none => SMap.look f.nv q
          | some e => some e.2) ∧
        ∀ p, p < 7 → fset g (Fld.portIdx p) 1 ≠ 1 → (Fld.portOf g p).state = if p < 4 then 3 else 0) ∧
    (∀ v : Byte, v.toNat ≤ 2 → Delivers (.powerNotice v) s (.power v.toNat) fun g =>
      g.notice = v.toNat ∧ g.ports = f.ports ∧
        (if v = 0 ∧ f.notice = 1 then g.wake = [] ∧ g.lane0 = f.lane0 ++ f.wake ++ [.fieldReport (Fld.report f)]
          else g.wake = f.wake ∧ g.lane0 = f.lane0)) ∧
    (∀ c : Fin 4, Delivers (.busOffRecoveryRequest c) s (.recover c.val) fun g =>
      Fld.portOf g c.val = if (Fld.portOf f c.val).state = 2 then { Fld.portOf f c.val with recovering := true } else Fld.portOf f c.val)

/-! What the core die makes of the field die's messages. -/

/-- The report cells in their admissions (R42, R171, R173, R457, R458, R461, R469, R472): FIELD_REPORT sets 0x1F01 and bit 7 of 0x2100.0B, counts new faults, clears the
Commands of ended pulses, under VGUARD_UV all of them, and with a toggle that is recorded but not seen Permit run too; INPUT_EVENT, OUTPUT_SENSE, ANALOG_SENSE and
NET_STATUS set the objects of their inputs, outputs and ports; the first of them and OUTPUT_SENSE derive the output states, and FIELD_REPORT the permit state. No other object changes. The other messages of lane 0 and the records of link and toggle (R78, R173,
R184, R209, R231, R233, R457): a complete BDP_REQ or CHF_UP joins the barrier input, or is dropped and counted where 1,024 wait; an authentic DATA frame, the oldest of
its input, moves the sequence, takes an in-flight and a record cell and leaves a receive record that joins the queue 4 us later; the state of the field die and a start or stop of the
toggle are recorded in their own admissions. The model's readings in it: log 33 (where a reading's OVERRANGE mark stands). -/
def Obligations.lane_0_messages_are_admitted : Prop :=
  (∀ s : State,
     (∀ p : FieldReport, Reports s (.fieldReport p) → Admitted1 (.fieldReport p) s fun t =>
       num t 0x1F01 1 = s20Ext p.vguard ∧ num t 0x1F01 2 = s20Ext p.temp ∧ num t 0x1F01 3 = p.conducting.toNat ∧ num t 0x1F01 4 = p.inputs.toNat ∧
         num t 0x1F01 5 = p.seconds.toNat ∧ num t 0x1F01 6 = p.dropped.toNat ∧ num t 0x1F01 7 = p.cellsDropped.toNat ∧ num t 0x1F01 8 = p.status.toNat ∧
         num t 0x2100 11 = setBit (num s 0x2100 11) 7 (p.status.getLsbD 0) ∧ t.bar.faults = p.faults.toNat ∧
         (∀ n : Fin 8,
           num t (0xDB00 + n.val) 8 = (if p.faults.getLsbD n.val ∧ !bit s.bar.faults n.val then sat32 (num s (0xDB00 + n.val) 8) 1 else num s (0xDB00 + n.val) 8) ∧
           num t (0xDB00 + n.val) 1 = (if p.status.getLsbD 1 ∨ (!p.status.getLsbD 2 ∧ num s 0xDB30 6 = 1) ∨
             (!p.conducting.getLsbD n.val ∧ !p.faults.getLsbD n.val ∧ num s (0xDB00 + n.val) 1 = 1 ∧ num s (0xDB00 + n.val) 2 ≠ 0 ∧
               SMap.at' s.bar.cmdAt n.val 0 + 2000 ≤ s.seq.time) then 0 else num s (0xDB00 + n.val) 1)) ∧
         (if !p.status.getLsbD 2 ∧ num s 0xDB30 6 = 1 then num t 0xDB30 1 = 0 ∧ num t 0xDB30 7 = sat32 (num s 0xDB30 7) 1
           else num t 0xDB30 1 = num s 0xDB30 1 ∧ num t 0xDB30 7 = num s 0xDB30 7) ∧
         (∀ n : Fin 8, num t (0xDB00 + n.val) 6 =
           loadState (p.conducting.getLsbD n.val) (p.faults.getLsbD n.val) (num s (0xDB00 + n.val) 7) (num s (0xDB00 + n.val) 5)) ∧
         num t 0xDB30 2 = (if num t 0xDB30 1 = 0 then 0 else if p.status.getLsbD 2 ∧ !p.status.getLsbD 1 then 1 else 2) ∧
         OthersStand s t ([(0x1F01, 1), (0x1F01, 2), (0x1F01, 3), (0x1F01, 4), (0x1F01, 5), (0x1F01, 6), (0x1F01, 7), (0x1F01, 8), (0x2100, 11),
           (0xDB30, 1), (0xDB30, 2), (0xDB30, 7)] ++ (List.range 8).flatMap fun n => [(0xDB00 + n, 1), (0xDB00 + n, 6), (0xDB00 + n, 8)])) ∧
     (∀ es : List InputEntry, (es.map fun e => e.input).Nodup → Reports s (.inputEvent es) → Admitted1 (.inputEvent es) s fun t =>
       (∀ e ∈ es, let i := 0xDB10 + e.input.val
         num t i 9 = e.time.toNat ∧ num t i 10 = s.seq.adm + 1 ∧
           (e.event = 1 → num t i 1 = 1 ∧ num t i 2 = 1 ∧ num t i 7 = sat32 (num s i 7) 1 ∧ num t i 8 = num s i 8) ∧
           (e.event = 2 → num t i 1 = 0 ∧ num t i 2 = 0 ∧ num t i 7 = sat32 (num s i 7) 1 ∧ num t i 8 = num s i 8) ∧
           (e.event = 3 → num t i 1 = num s i 1 ∧ num t i 2 = 2 ∧ num t i 7 = num s i 7 ∧ num t i 8 = num s i 8) ∧
           (e.event = 4 → num t i 1 = num s i 1 ∧ num t i 2 = num s i 2 ∧ num t i 7 = num s i 7 ∧ num t i 8 = min (num s i 8 + 1) 65535)) ∧
       OthersStand s t (es.flatMap fun e => [1, 2, 7, 8, 9, 10].map fun k => (0xDB10 + e.input.val, k))) ∧
     (∀ xs : List (BitVec 20), xs.length = 8 → Reports s (.outputSense (xs.map BitVec.toNat)) → Admitted1 (.outputSense xs) s fun t =>
       (∀ n : Fin 8, num t (0xDB00 + n.val) 7 = s20Ext (xs.getD n.val 0) ∧ num t (0xDB00 + n.val) 6 =
         loadState (bit (num s 0x1F01 3) n.val) (bit s.bar.faults n.val) (s20Ext (xs.getD n.val 0)) (num s (0xDB00 + n.val) 5)) ∧
       OthersStand s t ((List.range 8).flatMap fun n => [(0xDB00 + n, 6), (0xDB00 + n, 7)])) ∧
     (∀ (xs : List (BitVec 20)) (ovr : Byte), xs.length = 4 → Reports s (.analogSense (xs.map BitVec.toNat) ovr.toNat) →
       Admitted1 (.analogSense xs ovr) s fun t =>
         (∀ n : Fin 4, let i := 0xDB20 + n.val
           if num s i 2 = 1 then
             let lo : Bool := decide ((xs.getD n.val 0).toInt < s20Int (num s i 3))
             let hi : Bool := decide (s20Int (num s i 4) < (xs.getD n.val 0).toInt)
             num t i 1 = s20Ext (xs.getD n.val 0) ∧
               num t i 5 = (if lo then 1 else 0) + (if hi then 2 else 0) + (if ovr.getLsbD n.val then 4 else 0) ∧
               num t i 6 = (if (lo ∧ !bit (num s i 5) 0) ∨ (hi ∧ !bit (num s i 5) 1) then sat32 (num s i 6) 1 else num s i 6)
           else num t i 1 = 0 ∧ num t i 5 = 0 ∧ num t i 6 = num s i 6) ∧
         OthersStand s t ((List.range 4).flatMap fun n => [(0xDB20 + n, 1), (0xDB20 + n, 5), (0xDB20 + n, 6)])) ∧
     (∀ p : NetStatus, Reports s (.netStatus p) → Admitted1 (.netStatus p) s fun t =>
       let i := Fld.portIdx p.port.val
       if p.port.val < 4 then
         num t i 9 = p.state.toNat ∧ num t i 10 = p.tec.toNat * 256 + p.recv.toNat ∧ num t i 11 = p.received.toNat ∧ num t i 12 = p.sent.toNat ∧
           num t i 13 = p.dropped.toNat ∧ OthersStand s t [(i, 9), (i, 10), (i, 11), (i, 12), (i, 13)]
       else num t i 7 = p.state.toNat ∧ num t i 8 = p.received.toNat ∧ num t i 9 = p.sent.toNat ∧ num t i 10 = p.dropped.toNat ∧
         OthersStand s t [(i, 7), (i, 8), (i, 9), (i, 10)])) ∧
  (∀ s : State,
     (∀ (c : Instr) (m : Lane0), ((∃ o b, c = .bdpReq o b ∧ m = .bdpReq o b) ∨ ∃ p k b, c = .chfUp p k b ∧ m = .chfUp b) → crosses0 s m = true →
       ∃ t, exec c s = .next t ∧ dieFrame s t ∧
         (if s.bar.input.length < 1024 then t.bar.input = s.bar.input ++ [m] ∧ SMap.look t.hw (objKey 0x2200 3) = SMap.look s.hw (objKey 0x2200 3)
           else t.bar.input = s.bar.input ∧
             SMap.look t.hw (objKey 0x2200 3) = some (sat32 (SMap.at' s.hw (objKey 0x2200 3) (num s 0x2200 3)) 1))) ∧
     (∀ (port : Fin 7) (node n : Nat) (f pt : Bytes), n < 0x8000 → s.bar.input.head? = some (.chfUp f) → turn s 2 = true → masksReady s = true →
       Inward s ⟨2, 0x8000 + port.val * 256 + node, n, f, false, false, 1⟩ → (parseHdr f).field = n → (parseHdr f).ctl = 0x41 → upFormOk s n f = true →
       num s (0x4000 + n) 4 = port.val * 256 + node → (num s (0x4000 + n) 1 = 3 ∨ num s (0x4000 + n) 1 = 4) → (parseHdr f).epoch = num s (0x4000 + n) 8 →
       (bit (num s (0x4000 + n) 0x0B) 0 = true → num s (0x4000 + n) 0x0A < (parseHdr f).seq) → entropyOk s = true → cipherUp s = true →
       gcmOpen (msgKey (nodeKey s (keyNodeOf s n)) (parseHdr f).epoch (parseHdr f).seq 2) (frameNonce s n (parseHdr f).epoch (parseHdr f).seq 2)
         (f.take 12) ((f.drop 12).take (f.length - 28)) (f.drop (f.length - 16)) = some pt →
       num s (0x4000 + n) 0x11 < tmplAt s n 3 4 → num s 0x3100 2 ≠ 0 →
       Admitted1 (.channelReceive port node f .ok) s fun t =>
         t.bar.input = s.bar.input.tail ∧ num t (0x4000 + n) 0x0A = (parseHdr f).seq ∧ num t (0x4000 + n) 0x11 = num s (0x4000 + n) 0x11 + 1 ∧
           num t (0x4000 + n) 0x13 = sat32 (num s (0x4000 + n) 0x13) 1 ∧ num t (0x4000 + n) 0x17 = s.seq.time ∧ num t 0x3100 2 = num s 0x3100 2 - 1 ∧
           (∃ x ∈ t.slots, x.adm = s.seq.adm + 1 ∧ x.due = s.seq.time + 4 ∧
             Act.rxJoin n ⟨(parseHdr f).epoch, (parseHdr f).seq, s.seq.adm + 1, s.seq.time, pt⟩ ∈ x.acts) ∧
           (∃ p ∈ t.inflight, p.2 = ⟨n, 2, s.seq.adm + 1, false, f⟩) ∧ (∃ p ∈ t.records, p.2 = ⟨n, false, none, s.seq.adm + 1⟩) ∧
           OthersStand s t [(0x4000 + n, 0x0A), (0x4000 + n, 0x0B), (0x4000 + n, 0x11), (0x4000 + n, 0x13), (0x4000 + n, 0x17), (0x3100, 2), (0x3100, 3)]) ∧
     (∀ (st : Nat) (hello : Option (Nat × Nat × Nat × Nat)) (rest : List IntReq), s.internal = .fieldState st hello :: rest →
       Inward s { internalIn 14 [] false with payload := Config.internalPayload 14 [st] ++ helloBytes hello } →
       let cause := (hello.map fun h => h.2.2.2).getD 0
       Admitted1 .fieldStateAdmission s fun t => num t 0x2100 9 = st ∧ (num s 0x2100 9 ≠ st → Releases s t 2 [.cause 0x100]) ∧
         (st = 2 → num t 0x1F00 4 = 2 ∧ num t 0x1F00 5 = cause ∧ num t 0x2100 10 = cause) ∧ (st = 3 → num t 0x1F00 4 = 0) ∧
         OthersStand s t [(0x2100, 9), (0x2100, 10), (0x1F00, 4), (0x1F00, 5)]) ∧
     (∀ (on : Bool) (rest : List IntReq), s.internal = .toggle on :: rest → Inward s (internalIn 15 [if on then 1 else 0] false) →
       Admitting .toggleRecordAdmission s rest fun t =>
         (on = true → num t 0xDB30 6 = 1 ∧ OthersStand s t [(0xDB30, 6)]) ∧
         (on = false → num t 0xDB30 6 = 0 ∧ num t 0xDB30 1 = 0 ∧ (∀ n : Fin 8, num t (0xDB00 + n.val) 1 = 0) ∧
           OthersStand s t ([(0xDB30, 6), (0xDB30, 1)] ++ (List.range 8).map fun n => (0xDB00 + n, 1)))))

/-! The barrier link. -/

/-- Cells at their receivers (R165 to R168): a cell that passes moves the expected sequence past it, counts as received, and gives the message of a single cell, or the
first or last part of a longer one; a wrong tag or a place outside the window drops it, counts it and the run of drops. IDLE cells only cross, and a lane's timer sends
one. Bring-up and loss of the link (R91, R162, R166, R174 to R177): a start or retry raises the bring-up number and sends HELLO; the field die answers with its own and
enters KEYING; the core die, where no tamper response is under way, draws the link key and sends it; the field die answers an authentic KEY and its link is up; an authentic KEY_ACK brings the link up at the
core die, with the open routes, the configuration where the generations differ, and the toggle where it may start. An attempt without its answer within 1 ms ends, and 10 ms
lie between two; the link ends at either end after 100 us without a valid cell, as after sixteen drops in a row, and IDLE keeps it up after 10 us of silence. An alarm of
the compare unit at a tag is a mismatch (R285, R286). The model's readings in it: log 40 (when cells are counted), log 51 (the tiller of the link key), log 87 (the field die
is up from KEY on), log 96 (a field die that never answers is absent), log 124 (a malformed cell is valid for the timers), log 125 (no bring-up in SLUMBER or HIBERNATE). -/
def Obligations.barrier_cells_and_link_complete : Prop :=
  (∀ (s : State) (c key : Bytes) (p : Phys),
     (s.bar.key = some key → (Bar.parse c).type ≠ 1 → p ≠ .compare →
       (∀ d m, GoodCell c key 0 s.bar.rx d → (Bar.parse c).type ∈ [0x31, 0x32, 0x33, 0x34, 0x35] → (Bar.parse c).pos = 0 → Bar.msg0 (Bar.parse c) = some m →
         ∃ t, exec (.barrierCellReceive 0 ⟨c, p⟩) s = .next t ∧ t.bar.rx.exp = s.bar.rx.exp + d + 1 ∧ t.bar.rx.drops = 0 ∧
           t.bar.ready = s.bar.ready ++ [m] ∧ t.bar.heard = s.boot.since ∧ counted t 0x1030 3 = counted s 0x1030 3 + 1 ∧ dieFrame s t) ∧
       (GoodCell c key 0 s.bar.rx 0 → (Bar.parse c).type ∈ [0x11, 0x21] →
         ((Bar.parse c).pos = 1 → ((Bar.parse c).type = 0x11 → 2 ≤ (Bar.parse c).len) →
           ∃ t, exec (.barrierCellReceive 0 ⟨c, p⟩) s = .next t ∧ t.bar.rx.exp = s.bar.rx.exp + 1 ∧ t.bar.ready = s.bar.ready ∧
             SMap.look t.bar.rx.parts (Bar.parse c).type = some (Bar.parse c).payload ∧ dieFrame s t) ∧
         (∀ b m, (Bar.parse c).pos = 3 → SMap.look s.bar.rx.parts (Bar.parse c).type = some b →
           Bar.asLane0 (Bar.parse c) (b ++ (Bar.parse c).payload) = some m →
           ∃ t, exec (.barrierCellReceive 0 ⟨c, p⟩) s = .next t ∧ t.bar.rx.exp = s.bar.rx.exp + 1 ∧ t.bar.ready = s.bar.ready ++ [m] ∧
             SMap.look t.bar.rx.parts (Bar.parse c).type = none ∧ dieFrame s t)) ∧
       (∀ d, c.length = 32 → d < 1024 → (Bar.parse c).seq = (s.bar.rx.exp + d) % 65536 →
         (Bar.parse c).tag ≠ Bar.tag key (s.bar.rx.exp + d) 0 (c.take 28) →
         ∃ t, exec (.barrierCellReceive 0 ⟨c, p⟩) s = .next t ∧ t.bar.rx = { s.bar.rx with drops := min (s.bar.rx.drops + 1) 16 } ∧
           t.bar.ready = s.bar.ready ∧ counted t 0x1030 5 = sat32 (counted s 0x1030 5) 1 ∧ dieFrame s t)) ∧
     (s.bar.key = some key → (Bar.parse c).type ≠ 1 → ∀ d, c.length = 32 → d < 1024 → (Bar.parse c).seq = (s.bar.rx.exp + d) % 65536 →
       ∃ t, exec (.barrierCellReceive 0 ⟨c, .compare⟩) s = .next t ∧ t.bar.rx = { s.bar.rx with drops := min (s.bar.rx.drops + 1) 16 } ∧
         t.bar.ready = s.bar.ready ∧ counted t 0x1030 5 = sat32 (counted s 0x1030 5) 1 ∧ counted t 0xCF20 7 = sat32 (counted s 0xCF20 7) 1 ∧
         t.pers = s.pers ∧ t.slots = s.slots ∧ t.field = s.field) ∧
     (s.field.run = true → s.field.key = some key → (Bar.parse c).type ∈ [0xA2, 0xB1, 0xC1] → (Bar.parse c).pos = 0 →
       (∀ d m, GoodCell c key 1 s.field.rx d → Bar.msg1 (Bar.parse c) = some m →
         ∃ t, exec (.barrierCellReceive 1 ⟨c, p⟩) s = .next t ∧ t.field.rx.exp = s.field.rx.exp + d + 1 ∧ t.field.rx.drops = 0 ∧
           t.field.ready = s.field.ready ++ [m] ∧ t.field.heard = s.field.time ∧ counted t 0x1030 4 = counted s 0x1030 4 + 1 ∧ dieFrame s t ∧
           guardStands s.field t.field) ∧
       (∀ d, c.length = 32 → d < 1024 → (Bar.parse c).seq = (s.field.rx.exp + d) % 65536 →
         (Bar.parse c).tag ≠ Bar.tag key (s.field.rx.exp + d) 1 (c.take 28) →
         ∃ t, exec (.barrierCellReceive 1 ⟨c, p⟩) s = .next t ∧ t.field.rx = { s.field.rx with drops := min (s.field.rx.drops + 1) 16 } ∧
           t.field.ready = s.field.ready ∧ t.field.cellsDropped = sat32 s.field.cellsDropped 1 ∧ dieFrame s t ∧ guardStands s.field t.field)) ∧
     (∀ lane : Fin 2, ∃ t, exec (.barrierCellReceive lane ⟨c, p⟩) s = .next t ∧ t.pers = s.pers ∧ t.otp = s.otp ∧ t.sessions = s.sessions ∧
       t.slots = s.slots ∧ t.host = s.host ∧ t.twc = s.twc ∧ guardStands s.field t.field ∧ (lane = 1 → t.bar.rx = s.bar.rx ∧ t.bar.ready = s.bar.ready))) ∧
  (∀ s : State,
     (s.bar.up = true → s.bar.ready = [] → crosses0 s .idle = true →
       ∃ t, exec (.idleCell 0) s = .next t ∧ t.field.lane0 = s.field.lane0.erase .idle ∧ t.bar.rx.exp = s.field.sent + 2 ∧ t.bar.heard = s.boot.since ∧
         dieFrame s t) ∧
     (s.field.ready = [] → crosses1 s .idle = true →
       ∃ t, exec (.idleCell 1) s = .next t ∧ t.bar.lane1 = s.bar.lane1.erase .idle ∧
         (s.field.run = true → s.field.link = 2 → t.field.rx.exp = s.bar.sent + 2 ∧ t.field.heard = s.field.time) ∧ dieFrame s t) ∧
     (s.field.run = true → s.field.link = 2 → s.field.lane0 = [] → s.field.spoke + 10 ≤ s.field.time →
       exec (.idleTimer 0) s = .next { s with field := { s.field with lane0 := [.idle] } }) ∧
     (s.bar.up = true → s.bar.lane1 = [] → s.bar.spoke + 10 ≤ s.boot.since →
       exec (.idleTimer 1) s = .next { s with bar := { s.bar with lane1 := [.idle] } }) ∧
     (s.bar.up = true → 16 ≤ s.bar.rx.drops → LosesLink (.cellDropLimit 0) s) ∧
     (s.field.run = true → s.field.link = 2 → 16 ≤ s.field.rx.drops →
       AtField (.cellDropLimit 1) s fun g => g.link = 0 ∧ g.lane0 = [] ∧ FieldAlone g ∧ g.ins = s.field.ins) ∧
     (s.bar.up = false → s.bar.trying = false → s.power < 3 → s.boot.waking = false → (∀ t0, s.bar.tryAt = some t0 → t0 + 10000 ≤ s.boot.since) →
       s.stage ∈ [7, 8, 0x10, 0x11] →
       let tries := fun t : State => t.bar.b = (s.bar.b + 1) % 2 ^ 32 ∧ t.bar.trying = true ∧ t.bar.tryAt = some s.boot.since ∧ t.bar.key = none ∧
         t.bar.hello = none ∧ t.bar.lane1 = s.bar.lane1 ++ [.hello ((s.bar.b + 1) % 2 ^ 32) (runningVersion s)] ∧
         t.internal = .fieldState 1 none :: s.internal ∧ linkStands s t ∧ t.field = s.field
       (∃ t, exec .bringupStart s = .next t ∧ tries t) ∧ ∃ t, exec .bringupRetry s = .next t ∧ tries t) ∧
     (∀ b fw : Word, s.field.run = true → crosses1 s (.hello b.toNat fw.toNat) = true →
       ∃ t, exec (.coreHello b fw) s = .next t ∧ t.field.link = 1 ∧ t.field.b = b.toNat ∧ t.field.staged = [] ∧
         t.field.lane0 = [.hello b.toNat (Config.fieldRomVersion % 2 ^ 32) s.field.gen s.field.cause] ∧ FieldAlone t.field ∧ dieFrame s t) ∧
     (∀ (b rom gen : Word) (cause : Byte), let m := Lane0.hello b.toNat rom.toNat gen.toNat cause.toNat
       crosses0 s m = true → s.bar.up = false → s.bar.trying = true → b.toNat = s.bar.b → s.bar.hello = none → s.entropyDown = false → s.tem.resp = none →
       s.power ≠ 4 →
       ∃ t k, exec (.fieldHello b rom gen cause) s = .next t ∧ k = (drawTiller 14 (arrive0 s m) 16).1 ∧
         t.bar.key = some k ∧ t.bar.hello = some (gen.toNat, rom.toNat, cause.toNat) ∧ t.bar.rx = ⟨1, 0, []⟩ ∧
         t.bar.lane1 = s.bar.lane1 ++ [.key k b.toNat (Bar.tag k 1 1 (Bar.cell28 0x82 1 (k ++ leBytes 4 b.toNat)))] ∧ t.bar.up = false ∧
         t.pers = s.pers ∧ t.dict = s.dict ∧ t.slots = s.slots ∧ t.internal = s.internal) ∧
     (∀ (k tag : Bytes) (b : Word), crosses1 s (.key k b.toNat tag) = true → s.field.run = true → s.field.link = 1 → b.toNat = s.field.b → k.length = 16 →
       tag = Bar.tag k 1 1 (Bar.cell28 0x82 1 (k ++ leBytes 4 b.toNat)) →
       ∃ t, exec (.keyCell k b tag) s = .next t ∧ t.field.link = 2 ∧ t.field.key = some k ∧ t.field.routes = [] ∧
         Lane0.keyAck b.toNat (Bar.tag k 1 0 (Bar.cell28 0x03 1 (leBytes 4 b.toNat))) ∈ t.field.lane0 ∧ dieFrame s t) ∧
     (∀ (k tag : Bytes) (b : Word) (gen rom cause : Nat) (p : Phys),
       crosses0 s (.keyAck b.toNat tag) = true → s.bar.key = some k → s.bar.hello = some (gen, rom, cause) → s.bar.up = false → s.bar.trying = true →
       b.toNat = s.bar.b → tag = Bar.tag k 1 0 (Bar.cell28 0x03 1 (leBytes 4 b.toNat)) → p ≠ .compare →
       ∃ t, exec (.keyAck b ⟨tag, p⟩) s = .next t ∧ t.bar.up = true ∧ t.bar.trying = false ∧
         t.internal.head? = some (.fieldState 2 (some (b.toNat, rom, gen, cause))) ∧
         t.bar.lane1 = s.bar.lane1 ++ (if s.bar.told = 0 then [] else [.power 0]) ++ openRoutes s ++
           (if gen ≠ num s 0x1030 10 then fullConfig s else []) ∧
         counted t 0x1030 1 = sat32 (counted s 0x1030 1) 1 ∧
         (s.stage = 0x11 → s.tem.resp = none → num s 0xD802 1 = 0 → s.seq.retiring = false → s.seq.failing = false → t.boot.toggle = true) ∧
         linkStands s t) ∧
     (s.bar.trying = true → s.bar.tryAt.getD 0 + 1000 ≤ s.boot.since →
       exec .bringupTimeout s = .next { s with bar := { s.bar with trying := false, key := none, hello := none },
                                               internal := (if s.bar.hello = none then [.fieldState 0 none] else []) ++ s.internal }) ∧
     (s.field.run = true → s.field.link ≠ 0 → s.field.heard + 100 ≤ s.field.time →
       AtField .fieldBarrierTimeout s fun g => g.link = 0 ∧ g.lane0 = [] ∧ FieldAlone g ∧ g.ins = s.field.ins) ∧
     (s.bar.up = true → s.bar.heard + 100 ≤ s.boot.since → LosesLink .coreBarrierTimeout s))

/-! Supplies and resets. -/

/-- Supplies and resets of both dies (R37 to R40, R54, R73, R75 to R77, R80, R81, R93, R422). Rails that come into range release the core die to CLEAR, unless RESET_N
is low, and at a power-up a Sinter domain whose content does not hold is cleared and counts as lost (R496); a failing rail stops admission and the toggle, and the reset of R40 follows, in which nothing else resets the die; each reset has its cause, runs at once where
every host rail is in range or holds the die while its pin or rail does, and leaves only the store, the fuses, the Sinter domain and the field die. The same of the field die, which keeps its settings; VGUARD cuts outputs alone. The model's
readings in it: log 16 (pulses of open width), log 73, log 75, log 80. -/
def Obligations.supplies_and_resets_complete : Prop :=
  ∀ s : State,
    (s.stage = 0 → ∃ t, exec .coreResetRelease s = .next t ∧ t.stage = (if s.boot.pinLow then 0 else 1) ∧ t.boot.rails = true ∧ t.boot.vddah = true ∧
      t.boot.lvds = true ∧ t.boot.held = false ∧ t.boot.since = 0 ∧ t.boot.cause = s.boot.cause ∧ t.pers = s.pers ∧
      t.sinter = { (if s.boot.cause = 1 ∧ (s.sinter.lost = true ∨ s.sinter.crcOk = false ∨ s.sinter.osc = false)
        then { s.sinter with log := [], key := none, sealLatch := false, lost := true, crcOk := true } else s.sinter) with
        osc := s.sinter.osc || s.sinter.lost } ∧ t.field = s.field) ∧
    (s.stage ≠ 0 → exec .coreResetRelease s = .next { s with boot := { s.boot with lvds := true } }) ∧
    (∀ r : Rail, ∃ t, exec (.powerFail r) s = .next t ∧ t.stage = s.stage ∧ t.pers = s.pers ∧ t.dict = s.dict ∧ t.slots = s.slots ∧ t.field = s.field ∧
      (if r ∈ [Rail.vcore, .vddah, .vddps, .vddioh] then t.boot.rails = false ∧ t.boot.toggle = false ∧ t.boot.vddah = (s.boot.vddah && decide (r ≠ .vddah)) ∧
         t.seq.failing = decide (s.stage ≠ 0) ∧ (s.stage ≠ 0 → sequencerUp t = false) ∧ (s.stage = 0 → t.boot.held = true ∧ t.boot.cause = 1) ∧ t.tem.held = []
       else if r = .vddlvds then
         t = { s with boot := { s.boot with lvds := false, held := s.boot.held || decide (s.stage = 0) }, tem := { s.tem with held := [] } }
       else t = s)) ∧
    (s.seq.failing = true → Restarts .powerFailReset s 1 0 fun t => t.boot.held = true ∧ t.sinter.key = s.sinter.key ∧ t.sinter.log = s.sinter.log) ∧
    (∀ w : PulseWidth, if w = .long ∨ w = .between true then
        (Restarts (.resetNAssert w) s 2 0 fun t => t.boot.pinLow = true ∧ t.sinter.key = s.sinter.key ∧ t.sinter.log = s.sinter.log) ∧
        ∃ t, exec (.frstNAssert w) s = .next t ∧ FieldStarted s.field t.field 2 false ∧ t.field.pinLow = true ∧ t = { s with field := t.field }
      else exec (.resetNAssert w) s = .next s ∧ exec (.frstNAssert w) s = .next s) ∧
    (s.boot.pinLow = true → let up := s.boot.rails && s.boot.vddah && s.boot.lvds
      ∃ t, exec .resetNRelease s = .next t ∧ t.boot.pinLow = false ∧
        t.stage = (if up = true ∧ s.boot.held = false ∧ s.stage = 0 then 1 else s.stage) ∧
        t.boot.held = (s.boot.held || (decide (s.stage = 0) && !up)) ∧ t.boot.cause = s.boot.cause ∧ t.pers = s.pers ∧ t.field = s.field) ∧
    (s.stage ≠ 0 → s.seq.failing = false → let g := if s.boot.rails && s.boot.vddah && s.boot.lvds then 1 else 0
      (Restarts .watchdogExpiry s 5 g fun t => (g = 1 → t.sinter = s.sinter) ∧ (g = 0 → t.boot.held = true)) ∧
      (Restarts .lockstepMismatch s 4 g fun t => g = 0 → t.boot.held = true) ∧
      (s.stage ≤ 8 → Restarts .stageOverrun s 5 g fun t => (g = 1 → t.sinter = s.sinter) ∧ (g = 0 → t.boot.held = true)) ∧
      (∀ (u cause : Nat), s.boot.deferred = some (u, cause) → u ≤ s.seq.time →
        Restarts .deferredCoreReset s cause g fun t => (g = 1 → t.sinter = s.sinter) ∧ (g = 0 → t.boot.held = true))) ∧
    (s.seq.failing = true → exec .watchdogExpiry s = .next s ∧ exec .stageOverrun s = .next s ∧ exec .deferredCoreReset s = .next s) ∧
    (∀ r : Rail, ∃ t, exec (.fieldSupplyFail r) s = .next t ∧ t = { s with field := t.field } ∧
      (if r ∈ [Rail.vfcore, .vfio, .vddaf] then FieldStarted s.field t.field 1 false ∧ t.field.rails = false
       else if r = .vguard then t.field.vguardOk = false ∧ t.field.uv = true ∧ t.field.run = s.field.run ∧ t.field.ins = s.field.ins ∧
         (s.field.run = true → t.field.outs = [] ∧ t.field.wave = false ∧ t.field.permitOut = false)
       else t = s)) ∧
    (s.field.run = false → s.field.pinLow = false → ∃ t, exec .fieldResetRelease s = .next t ∧ FieldStarted s.field t.field s.field.cause true ∧
      t.field.rails = true ∧ t = { s with field := t.field }) ∧
    (s.field.run = true ∨ s.field.pinLow = true → exec .fieldResetRelease s = .next { s with field := { s.field with rails := true } }) ∧
    (s.field.pinLow = true → s.field.rails = true → ∃ t, exec .frstNRelease s = .next t ∧ FieldStarted s.field t.field s.field.cause true ∧
      t.field.pinLow = false ∧ t = { s with field := t.field }) ∧
    (s.field.pinLow = true → s.field.rails = false → exec .frstNRelease s = .next { s with field := { s.field with pinLow := false } }) ∧
    (s.field.run = true → ∃ t, exec .fieldClockLoss s = .next t ∧ FieldStarted s.field t.field 3 true ∧ t = { s with field := t.field }) ∧
    (∀ u, s.boot.deferredField = some u → u ≤ s.seq.time → s.field.run = true → ∃ t, exec .deferredFieldReset s = .next t ∧ FieldStarted s.field t.field 4 true ∧
      t.boot.deferredField = none ∧ t.pers = s.pers ∧ t.stage = s.stage ∧ t.dict = s.dict ∧ t.sessions = s.sessions)

/-! Start-up. -/

/-- The stages of start-up (R78, R79, R81, R84 to R91): each does its work and hands over to the next, or to ENTROPY_HALT once an entropy test has failed. CLEAR halts a
retired unit and starts the Fumaroles; CLOCKS halts on a failed known answer; FIRMWARE runs the preferred image, else the other one, else none, and RECOVER begins once
seeding is complete too; RECOVER takes the number and the time of R87, applies the commit ring and rebuilds the dictionary from its log (R394, R395), and the start-up
admission counts and records the start at that number and time, sets the state of the keyed
channels (R211) and makes installed cells STOPPED, STARTING where they run at start-up, or FAULTED with cause 9; BARRIER
starts the bring-up; MODES clears SERVICE and PROVISION and ends in READY with STARTED, or in TAMPER_HELD where tamper status waits. The model's readings in it: log 73
(what the start-up admission applies), log 85 (the time of the last commit), log 91 (which halt goes first), log 123 (whether the compare of an image's digest raises an alarm is
free), log 130 (a commit that fails). -/
def Obligations.startup_stages_complete : Prop :=
  ∀ s : State, s.seq.failing = false →
    let after := fun n : Nat => if s.entropyDown = true then 0xE2 else n
    (s.stage = 1 → ∃ u v, ShowsClock s u 1 true ∧ ShowsClock u v 6 s.sinter.osc ∧
      exec .clearStage s = .next (if s.otp.retired = true ∨ s.otp.lifecycle ∉ [0, 0xA5, 0x5A] then { v with stage := 0xE1 }
        else { v with stage := 2, rng := { s.rng with on := true, resets := num s 0x2100 2 } })) ∧
    (∀ ok : Bool, s.stage = 2 → ∃ u, ShowsClock s u 0 true ∧ exec (.clocksStage ok) s = .next
      (if ok = false ∨ s.boot.halt = true then { u with stage := 0xE3, boot := { u.boot with halt := false } }
       else { u with stage := after 3, perf := { u.perf with cnt := [], ovf := [] } })) ∧
    (s.stage = 3 → s.boot.verified = false → let alarm := (draw s 1).1 = 1
      let again := (draw (draw s 1).2 1).1 = 1
      let p := s.pers.preferred
      ∃ t, exec .firmwareStage s = .next t ∧ OthersStand s t [(0x2100, 4), (0x2100, 5), (0x2100, 14)] ∧ t.seq.adm = s.seq.adm ∧ t.pers = s.pers ∧
      (imageCode s (imageOf s p) = 0 → ¬alarm → counted t 0xCF20 7 = counted s 0xCF20 7) ∧
      (∀ x back, (x = p ∧ back = 0 ∧ imageCode s (imageOf s x) = 0 ∧ ¬alarm) ∨
          ((imageCode s (imageOf s p) ≠ 0 ∨ alarm) ∧ x = 1 - p ∧ back = 1 ∧ imageCode s (imageOf s x) = 0 ∧ ¬again) →
        t.stage = after (if seeded s = true then 4 else 3) ∧ (s.entropyDown = false → t.boot.verified = true) ∧ num t 0x2100 4 = x ∧
        num t 0x2100 5 = leNat (((imageOf s x).bytes.drop 8).take 4) ∧ num t 0x2100 14 = back ∧
        (alarm → counted t 0xCF20 7 = sat32 (counted s 0xCF20 7) 1)) ∧
      (imageCode s (imageOf s p) ≠ 0 ∨ alarm → imageCode s (imageOf s (1 - p)) ≠ 0 ∨ again → t.stage = 0xE0 ∧
        num t 0x2100 4 = p ∧ num t 0x2100 14 = 1 ∧
        (alarm → again → counted t 0xCF20 7 = sat32 (sat32 (counted s 0xCF20 7) 1) 1))) ∧
    (let adm := (if num s 0x2000 2 ≠ 0 ∧ num s 0xF000 2 % 2 = 1 then 2 ^ 63 else 0) + (s.pers.reserved + 1) * 1048576 - 1
     let time := 1 + max (max s.pers.commitTime (s.pers.cpTime + 1000000))
       (if s.sinter.lost = true ∨ s.sinter.osc = false then 0 else s.pers.cpTime + (s.sinter.rtc + 2 ^ 48 - s.pers.cpRtc) % 2 ^ 48 * 15625 / 512)
     s.stage = 4 → s.tem.resp = none →
        ∃ t, exec .recoverStage s = .next t ∧ t.stage = after 5 ∧ t.boot.recovered = true ∧ t.seq.adm = adm ∧ t.seq.time = time ∧ t.seq.admTime = time ∧
          t.dict = s.dict ∧ t.pers.dict = rebuild s.pers.dlog ∧ t.pers.cring.entries = [] ∧ t.pers.jour.recs = s.pers.jour.recs ∧
          (∀ p, s.pers.jour.broken = some p → t.pers.jour.broken = some p) ∧ (t.cache.filter fun e => isRoot e.node).map (·.node) = [1, 2, 3, 4, 5] ∧
          t.pers.rings = s.pers.rings ∧ t.pers.epochs = s.pers.epochs) ∧
    (let v := if s.pers.applets = [] then s else (draw s 32).2
     s.stage = 5 → s.tem.resp = none → s.otp.retired = false → s.sinter.lost = false → s.sinter.log = [] → s.sinter.pend = none →
        s.sinter.sealLatch = false → s.pers.latch = none → num s 0x2000 2 = 0 →
        (s.pers.applets ≠ [] → ∀ c : Fin 32, (SMap.look s.pers.applets c.val).isSome = true → bit (draw s 32).1 c.val = false) →
        let own := (s.pers.dict.filter fun p => decide (0x4000 ≤ p.1 / 256 ∧ p.1 / 256 < 0xC000 ∧ p.1 % 64 = 2 ∧ p.2.toNat ≠ 0)).map
          fun p => (p.1 / 256, p.1 % 256 - 1)
        ∃ t, exec .tamperEvalStage s = .next t ∧ t.stage = after 6 ∧ t.boot.admitted = true ∧ t.seq.adm = s.seq.adm + 1 ∧ t.seq.admTime = s.seq.admTime ∧
          t.seq.time = s.seq.time ∧ t.pers.epochs = s.pers.epochs ∧ t.otp = s.otp ∧
          (commitFails v = true → OthersStand s t []) ∧
          (commitFails v = false →
            num t 0x2100 2 = sat32 (num s 0x2100 2) 1 ∧ num t 0x2100 7 = s.seq.admTime ∧ num t 0x2100 8 = s.seq.adm + 1 ∧
            (∃ p ∈ t.pers.jour.recs, p.2.bytes.take 16 = [1, 0xFF, 0xFF, 0, 0, 0, 0, 0] ++ leBytes 8 (s.seq.adm + 1)) ∧
            num t 0x2300 5 = s.rng.reseeds ∧
            ((s.pers.dict.map Prod.fst).Nodup → ∀ n, n < 0x8000 → num s (0x4000 + n) 2 ≠ 0 → num t (0x4000 + n) 1 =
              match nodeByHandle s (num s (0x4000 + n) 2) with
              | none => Ch.orphaned
              | some k => if live s k = false then Ch.orphaned else if 0xFFFFFF ≤ epochOf s k then Ch.exhausted else Ch.closed) ∧
            (∀ c : Fin 32, if (SMap.look s.pers.applets c.val).isNone then num t (0xD000 + c.val) 1 = num s (0xD000 + c.val) 1
              else if imageMatches s c.val = false then num t (0xD000 + c.val) 1 = 4 ∧ num t (0xD000 + c.val) 7 = 9
              else num t (0xD000 + c.val) 1 = (if num s (0xD000 + c.val) 10 = 1 ∧ num s 0xD802 1 = 0 then 2 else 1) ∧ num t (0xD000 + c.val) 7 = 0) ∧
            OthersStand s t (own ++ ((List.range 32).flatMap fun c => [(0xD000 + c, 1), (0xD000 + c, 7)]) ++
              [(0x2100, 2), (0x2100, 7), (0x2100, 8), (0x2300, 1), (0x2300, 4), (0x2300, 5), (0xDC20, 5), (0xD810, 2), (0xD810, 3), (0xD810, 5),
                (0xD800, 1), (0xD800, 5), (0xD800, 6), (0xD800, 8)]))) ∧
    (s.stage = 6 → exec .appletsStage s = .next { s with stage := after 7 }) ∧
    (s.stage = 7 → ∃ t, exec .barrierStage s = .next t ∧ t.stage = after 8 ∧ t.dict = s.dict ∧ t.pers = s.pers ∧
      (s.bar.up = true ∨ s.bar.trying = true → t.bar = s.bar ∧ t.internal = s.internal) ∧
      (s.bar.up = false → s.bar.trying = false → s.power < 3 → s.boot.waking = false → (∀ t0, s.bar.tryAt = some t0 → t0 + 10000 ≤ s.boot.since) →
        t.bar.trying = true ∧ t.bar.b = (s.bar.b + 1) % 2 ^ 32 ∧
        Lane1.hello ((s.bar.b + 1) % 2 ^ 32) (runningVersion s) ∈ t.bar.lane1 ∧ t.internal = .fieldState 1 none :: s.internal)) ∧
    (s.stage = 8 → s.tem.resp = none → num s 0x2000 2 = 0 → ∃ t, exec .modesStage s = .next t ∧
      t.stage = (if s.entropyDown = true then 0xE2 else if s.tem.sticky ≠ 0 then 0x10 else 0x11) ∧
      num t 0x2000 3 = 0 ∧ num t 0x2000 7 = 0 ∧ num t 0x2100 6 = min s.boot.since 0xFFFFFFFF ∧ (num s 0x2000 4 ≠ 0 → t.host.closed = true) ∧
      t.pers.jour = s.pers.jour ∧ t.seq.adm = s.seq.adm ∧
      (t.stage = 0x11 → t.host.cause = s.host.cause ||| 2) ∧
      (∀ c : Fin 32, num t (0xD000 + c.val) 1 = num s (0xD000 + c.val) 1))

/-! Entropy, tillers, masks and the key-node cache. -/

/-- The entropy source and what it feeds (R252, R262, R334, R366 to R390): raw bits run through the health tests, which 81 identical bits of one Fumarole fail, and 826 of 1,024
that recur; once the start-up checks are over, in which the next 1,024 bits of each Fumarole after the balance loops have converged are tested and discarded, they make a conditioned
block, which joins the pool where that has room; four blocks instantiate the next tiller, three reseed one that is due; a refill adds 512 bytes to an output buffer, and masks to a lane's reserve
of 4,096; the balance loop moves a trim one step, and four windows at an end stop, like every failed health test, stop the source at once and set it FAILED in the admission that follows; a
fill makes a node the newest of at most 251 cache entries beside the domain roots, with its key and CMAC subkeys. The model's readings in it: log 67 (the amounts of a refill of masks), log 88 (what a
fill of the cache is), log 98 (a failure of the source ends a wake), log 119 (the order of the raw bits in a block), log 130 (a commit that fails), log 131 (when a balance loop has converged). -/
def Obligations.entropy_commands_complete : Prop :=
  ∀ s : State,
    (∀ raw : BitVec 512, s.rng.on = true → s.entropyDown = false → s.boot.waking = false →
      ((judged s.rng.health raw).2 = 0 →
        ∃ t, exec (.conditionedBlock raw) s = .next t ∧ entropyFrame s t ∧ t.rng.tillers = s.rng.tillers ∧ t.rng.health = (judged s.rng.health raw).1 ∧
          t.rng.pool = s.rng.pool ++ (if s.rng.startup = 0 ∧ s.rng.pool.length < 16 then [cmac (fitBytes 32 Config.conditioningKey) (beBytes 64 raw.toNat)] else []) ∧
          t.rng.startup = if 1 ≤ s.rng.startup ∧ s.rng.startup ≤ 8 then s.rng.startup - 1 else s.rng.startup) ∧
      ((judged s.rng.health raw).2 ≠ 0 → FailsAt (.conditionedBlock raw) s (judged s.rng.health raw).2)) ∧
    (∀ (hs : List Health) (raw : BitVec 512) (f : Nat) (h : Health) (b : Bool), hs.length = 4 → f < 4 → hs[f]? = some h →
      (∀ j, j + 81 ≤ 128 → (∀ i, j ≤ i → i < j + 81 → raw.getMsbD (4 * i + f) = b) → (judged hs raw).2 ≠ 0) ∧
      (∀ n, 0 < n → n ≤ 128 → h.last = some b → 81 ≤ h.run + n → (∀ i, i < n → raw.getMsbD (4 * i + f) = b) → (judged hs raw).2 ≠ 0) ∧
      (0 < h.seen → h.seen + 128 ≤ 1024 → 826 ≤ h.same + ((List.range 128).filter fun i => raw.getMsbD (4 * i + f) = h.first).length → (judged hs raw).2 ≠ 0)) ∧
    (∀ k : Fin 64, s.rng.on = true → s.entropyDown = false → 4 ≤ s.rng.pool.length → instantiated s k.val = false → (∀ j, j < k.val → instantiated s j = true) →
      (s.boot.waking = false →
        ∃ t, exec (.tillerInstantiate k) s = .next t ∧ entropyFrame s t ∧ t.rng.pool = s.rng.pool.drop 4 ∧
          tillerOf t k.val = ⟨some (Drbg.instantiate (blockCipherDf ((s.rng.pool.take 4).flatten ++ fitBytes 16 Config.serial ++ [BitVec.ofNat 8 k.val] ++
            beBytes 4 s.rng.resets))), []⟩ ∧ (∀ j, j ≠ k.val → tillerOf t j = tillerOf s j) ∧
          (k.val = 15 → s.stage = 3 → s.boot.verified = true → t.stage = 4)) ∧
      (s.boot.waking = true → k.val = 63 → s.stage = 0x11 → s.power = 0 → s.seq.failing = false → s.seq.retiring = false → s.tem.resp = none →
        s.otp.retired = false → s.bar.up = false → s.bar.trying = false → s.bar.tryAt = none →
        ∃ t, exec (.tillerInstantiate k) s = .next t ∧ t.boot.waking = false ∧ t.bar.trying = true ∧ t.bar.b = (s.bar.b + 1) % 2 ^ 32 ∧
          (if s.sinter.log.any (fun e => !isJournaled e) then t.seq.adm = s.seq.adm + 1 ∧ (commitFails s = false → t.stage = 0x10)
            else t.stage = 0x11 ∧ t.seq.adm = s.seq.adm))) ∧
    (∀ (k : Fin 64) (d : Drbg), s.entropyDown = false → (tillerOf s k.val).drbg = some d → 3 ≤ s.rng.pool.length → (2 ^ 20 < d.count ∨ k.val ∈ s.rng.stale) →
      ∃ t, exec (.tillerReseed k) s = .next t ∧ entropyFrame s t ∧ t.rng.pool = s.rng.pool.drop 3 ∧ k.val ∉ t.rng.stale ∧
        t.rng.reseeds = sat32 s.rng.reseeds 1 ∧
        tillerOf t k.val = { tillerOf s k.val with drbg := some (d.reseed (blockCipherDf (s.rng.pool.take 3).flatten)) } ∧
        ∀ j, j ≠ k.val → tillerOf t j = tillerOf s j) ∧
    (∀ (k : Fin 64) (d : Drbg), 16 ≤ k.val → (tillerOf s k.val).buf.length ≤ 512 → Delivering s k.val d →
      ∃ t, exec (.tillerRefill k) s = .next t ∧ entropyFrame s t ∧ t.rng.pool = s.rng.pool ∧
        tillerOf t k.val = ⟨some (d.generate 512).2, (tillerOf s k.val).buf ++ (d.generate 512).1⟩ ∧ ∀ j, j ≠ k.val → tillerOf t j = tillerOf s j) ∧
    (∀ (f : Fin 4) (ones a b : Nat), s.rng.on = true → s.entropyDown = false → s.rng.trims.length = 4 → s.rng.trims.getD f.val (0, 0) = (a, b) → ones ≤ 4096 →
      let a' := if 2048 < ones then a - 1 else if ones < 2048 then min (a + 1) 63 else a
      let b' := if a' = 0 ∨ a' = 63 then b + 1 else 0
      let w := s.rng.recent.getD f.val []
      let ws := s.rng.recent.set f.val ((a' :: if w = [] then [a] else w).take 4)
      let steady := ∀ x ∈ ws, ∃ p q r u, x = [p, q, r, u] ∧ ∀ y ∈ x, y ≤ u + 2 ∧ u ≤ y + 2
      (b' < 4 → s.boot.waking = false → ∃ t n, exec (.balanceWindow f ones) s = .next t ∧ entropyFrame s t ∧
        t.rng = { s.rng with trims := s.rng.trims.set f.val (a', b'), recent := ws, startup := n } ∧
        (s.rng.startup = 9 → steady → n = 8) ∧ (¬(s.rng.startup = 9 ∧ steady) → n = s.rng.startup)) ∧
      (4 ≤ b' → s.boot.waking = false → FailsAt (.balanceWindow f ones) s (8 + 2 ^ (8 + f.val)))) ∧
    (∀ (x : EntropyTest) (f : Fin 4), s.rng.on = true → s.entropyDown = false →
      (s.boot.waking = false → FailsAt (.entropyFailure x f) s (Intern.testBits x f.val)) ∧
      (s.boot.waking = true → ∃ t, exec (.entropyFailure x f) s = .next t ∧ t.entropyDown = true ∧ t.rng.tillers = [] ∧ t.boot.waking = false)) ∧
    (∀ (bits : Nat) (rest : List IntReq), s.internal = .entropy bits :: rest → Inward s (internalIn 16 [bits] true) →
      Admitting .entropyFailureAdmission s rest fun t => num t 0x2300 1 = 3 ∧ num t 0x2300 2 = bits ∧ num t 0x2300 3 = s.seq.time ∧
        OthersStand s t [(0x2300, 1), (0x2300, 2), (0x2300, 3)]) ∧
    (∀ n : BitVec 16, s.stage ≠ 0 → s.entropyDown = false → cacheable s n.toNat = true → (s.cache.filter fun e => !isRoot e.node).length ≤ 251 →
      ∃ t, exec (.cacheFill n) s = .next t ∧ entropyFrame s t ∧ t.rng = s.rng ∧ (t.cache.filter fun e => !isRoot e.node).length ≤ 251 ∧
        (t.cache.filter fun e => isRoot e.node) = (s.cache.filter fun e => isRoot e.node) ∧
        ∃ e ∈ t.cache, e.node = n.toNat ∧ (∀ x ∈ s.cache, x.used < e.used) ∧
          ((∀ x ∈ s.cache, x.node ≠ n.toNat) → e.key = nodeKey s n.toNat ∧ e.subkeys = cmacSubkeys e.key)) ∧
    (∀ (lane : Fin 2) (k : Fin 12) (d : Drbg) (have' : Nat), k.val / 6 = lane.val → s.rng.masks.length = 2 → s.rng.masks.getD lane.val 0 = have' → have' < 4096 →
      Delivering s k.val d →
      ∃ t, exec (.maskReserveRefill lane k) s = .next t ∧ entropyFrame s t ∧ t.rng.masks = s.rng.masks.set lane.val (have' + min 128 (4096 - have')) ∧
        (tillerOf t k.val).drbg = some (d.generate (32 * min 128 (4096 - have'))).2 ∧ ∀ j, j ≠ k.val → tillerOf t j = tillerOf s j)

/-! Internal admissions and background work. -/

/-- The internal admissions of the channels (R211, R225 to R229, R232, R237 to R241, R249): the switch opens the channel under its new epoch with sequence 0 and sends
OPEN or REKEY; a forced or HELLO-driven rekey and an opening at start-up raise the durable epoch, with the switch 8 us later; a heartbeat and a queued send each use one
sequence and send their frame; a store fault raises no epoch (R194), and a ring commit that fails changes nothing (R394); a cut ends a frame not yet released with ABT_KEY_ORPHANED and CUT. The other internal admissions and the background windows (R87, R143,
R192 to R194, R398, R505, R506, R568): each sets its own objects, once a second, once a millisecond, at the lapse or at its interval; a report and a lost word found by
scrub enter through admissions of their own, and an object whose newest log entry is lost reads an older one or its default; compaction changes no value (R395); a ring with four corrected words or an
unreadable one is relocated where a spare is free (R404); the host link closes when its time is up. The model's readings in it: log 9 (their payloads have no layout), log 64 (the entries of the
dictionary log), log 99 (a lost word shows from its admission), log 130 (a commit that fails). -/
def Obligations.internal_admissions_complete : Prop :=
  (∀ (s : State) (n : Fin 32768) (rest : List IntReq),
     (∀ u us st, Inward s (Intern.chan s 6 n.val) → CanSend s n.val → (chanOf s n.val).switchAt = u :: us → u ≤ s.seq.time → num s (0x4000 + n.val) 1 = st →
       st = 2 ∨ st = 4 →
       Admitting (.switchAdmission n .ok) s s.internal fun t =>
         num t (0x4000 + n.val) 1 = 3 ∧ num t (0x4000 + n.val) 8 = epochOf s (num s (0x4000 + n.val) 2 % 0x10000) ∧ num t (0x4000 + n.val) 9 = 1 ∧
           num t (0x4000 + n.val) 0x0A = 0 ∧ (chanOf t n.val).switchAt = us ∧ FrameOut s t n.val (if st = 2 then 3 else 4) ∧
           OthersStand s t ([1, 8, 9, 0x0A, 0x0B, 0x12, 0x16].map fun k => (0x4000 + n.val, k))) ∧
     (∀ (c c' : Instr) (e : IntReq) (kind st dest : Nat),
       (c, c', e, kind, st, dest) ∈ [(.forcedRekey ⟨n, .ok⟩, .forcedRekey ⟨n, .store⟩, .forced n.val, 1, 3, 4),
         (.helloRekey ⟨n, .ok⟩, .helloRekey ⟨n, .store⟩, .hello n.val, 2, 3, 4), (.openAtStartup ⟨n, .ok⟩, .openAtStartup ⟨n, .store⟩, .openUp n.val, 7, 1, 2)] →
       s.internal = e :: rest → Inward s (Intern.chan s kind n.val) → num s (0x4000 + n.val) 1 = st →
       epochOf s (num s (0x4000 + n.val) 2 % 0x10000) < 0xFFFFFF → Unworn s →
       (dest = 2 → Room s ∧ num s 0xDC00 1 ≤ 1 ∧ num s (0x4000 + n.val) 4 ≠ 0 ∧ heartbeatLoad s + ceilRate (if num s (0x4000 + n.val) 13 ≠ 0 then num s (0x4000 + n.val) 13
         else num s (0x3000 + num s (0x4000 + n.val) 3) 1) ≤ 300000) →
       (Committing c s rest fun t => num t (0x4000 + n.val) 1 = dest ∧
         epochOf t (num s (0x4000 + n.val) 2 % 0x10000) = epochOf s (num s (0x4000 + n.val) 2 % 0x10000) + 1 ∧
         (chanOf t n.val).switchAt = (chanOf s n.val).switchAt ++ [s.seq.time + 8] ∧
         (dest = 2 → num t (0x4000 + n.val) 6 = 1 ∧ ∃ p ∈ t.pers.jour.recs, p.2.bytes.take 16 =
           [4, 0xFF, 0xFF, 6] ++ leBytes 2 (0x4000 + n.val) ++ [0, 0] ++ leBytes 8 (s.seq.adm + 1)) ∧
         OthersStand s t ((0x4000 + n.val, 1) :: if dest = 2 then [(0x4000 + n.val, 6)] else [])) ∧
       Admitting c' s rest fun t => num t (0x4000 + n.val) 1 = 1 ∧
         epochOf t (num s (0x4000 + n.val) 2 % 0x10000) = epochOf s (num s (0x4000 + n.val) 2 % 0x10000)) ∧
     (s.internal = .heartbeat n.val :: rest → (chanOf s n.val).beating = true → Inward s (Intern.chan s 3 n.val) → CanSend s n.val →
       num s (0x4000 + n.val) 1 = 3 ∨ num s (0x4000 + n.val) 1 = 4 →
       Admitted1 (.heartbeatDue n .ok) s fun t => num t (0x4000 + n.val) 9 = num s (0x4000 + n.val) 9 + 1 ∧ FrameOut s t n.val 2 ∧
         (chanOf t n.val).beating = false ∧ (chanOf t n.val).due = s.seq.time + 1000 * interval s n.val ∧
         OthersStand s t ([9, 0x0B, 0x12].map fun k => (0x4000 + n.val, k))) ∧
     (∀ v : Bytes, s.internal = .send n.val v :: rest → Inward s (Intern.chan s 5 n.val) → CanSend s n.val →
       v.length ≤ tmplAt s n.val 4 (num s (0x3000 + num s (0x4000 + n.val) 3) 5) → num s (0x4000 + n.val) 1 = 3 ∨ num s (0x4000 + n.val) 1 = 4 →
       Admitted1 (.queuedSend n .ok) s fun t => num t (0x4000 + n.val) 9 = num s (0x4000 + n.val) 9 + 1 ∧ FrameOut s t n.val 1 ∧
         (∃ x ∈ t.slots, x.acts = [.lane1 (.chfDown (sealFrame s n.val 1 (num s (0x4000 + n.val) 9) v))]) ∧
         OthersStand s t ([9, 0x12].map fun k => (0x4000 + n.val, k))) ∧
     (∀ (adm : Nat) (x : Slot), s.internal = .cut [(n.val, 1, adm)] :: rest →
       Inward s { internalIn 4 [] true with payload := Intern.cutPayload [(n.val, 1, adm)] } →
       s.slots.find? (cuts s (n.val, 1, adm)) = some x → x.id < s.seq.nextId →
       Admitting .cutAdmission s rest fun t =>
         (∀ y ∈ t.slots, y.id = x.id → y.code = 0x05020001 ∧ y.work = .none ∧ ∀ m, Act.lane1 m ∉ y.acts) ∧
           bit (num t (0x4000 + n.val) 0x0B) 5 = true ∧
           num t (0x4000 + n.val) 0x12 = (if num s (0x4000 + n.val) 0x12 = 0xFFFFFFFF then 0xFFFFFFFF else num s (0x4000 + n.val) 0x12 - 1) ∧
           OthersStand s t ([0x0B, 0x12].map fun k => (0x4000 + n.val, k)))) ∧
  (∀ (s : State) (rest : List IntReq),
     (Inward s (internalIn 8 [s.sinter.rtc] false) → internalTurn s = false → s.pers.cpTime / 1000000 < s.seq.time / 1000000 →
       Admitting .timeCheckpoint s s.internal fun t => t.pers.cpTime = s.seq.time ∧ t.pers.cpRtc = s.sinter.rtc ∧ num t 0xD810 1 = s.sinter.rtc ∧
         OthersStand s t [(0xD810, 1)]) ∧
     (Inward s (internalIn 9 ((Intern.changedStats s).flatMap fun p => [p.1, p.2]) false) → internalTurn s = false → Intern.changedStats s ≠ [] → s.seq.statAt / 1000 < s.seq.time / 1000 →
       SMap.wf s.hw = true → Committing .statisticsAdmission s s.internal fun t => t.seq.statAt = s.seq.time ∧
         ∀ (i k v : Nat), k < 256 → SMap.look s.hw (objKey i k) = some v → (Dict.find i k).2.isSome = true → bookkeeping i k = false →
           (i, k) ∉ [(0x2300, 1), (0x2300, 4), (0x2300, 5), (0xDC20, 5), (0xDC20, 6), (0xDC20, 7), (0xDC20, 8), (0xCA00, 9), (0xCF20, 8), (0xCF20, 9), (0xCF38, 5), (0xCF38, 6)] → num t i k = v) ∧
     (∀ q, Inward s (internalIn 10 [] false) → Unworn s → num s 0x2000 7 = 1 → num s 0x2000 10 + num s 0x2000 9 * 1000000 ≤ s.seq.time →
       (s.internal = .lapse :: q ∨
         (s.internal = q ∧ IntReq.lapse ∉ q ∧ (s.stage = 0x10 ∨ s.stage = 0x11) ∧ ∀ x ∈ s.slots, Act.lapse ∉ x.acts)) →
       Committing .provisionLapse s q fun t => num t 0x2000 7 = 0 ∧ OthersStand s t [(0x2000, 7)] ∧
         (journalFull s = false → num s 0xDC00 1 ≤ 1 →
           ∃ p ∈ t.pers.jour.recs, p.2.bytes.take 16 = [4, 0xFF, 0xFF, 7] ++ leBytes 2 0x2000 ++ [0, 0] ++ leBytes 8 (s.seq.adm + 1))) ∧
     (∀ a b c d e f : BitVec 20, Inward s (internalIn 13 ([a, b, c, d, e, f].map BitVec.toNat) false) → internalTurn s = false → Prf.due s = true →
       Admitting (.telemetryAdmission a b c d e f) s s.internal fun t =>
         num t 0xE300 2 = s20Ext a ∧ num t 0xE300 3 = s20Ext b ∧ num t 0xE300 4 = s20Ext c ∧ num t 0xE300 5 = s20Ext d ∧ num t 0xE300 6 = s20Ext e ∧
           num t 0xE300 7 = s20Ext f ∧ num t 0xE300 8 = s.seq.time ∧ OthersStand s t ([2, 3, 4, 5, 6, 7, 8, 9, 10].map fun k => (0xE300, k))) ∧
     (∀ (i k : Nat) (v : Val), s.internal = .report [(objKey i k, v)] none :: rest → Inward s (internalIn 11 [objKey i k, v.toNat] false) → k < 256 →
       (Dict.find i k).2.isSome = true → i ≠ 0xD800 → bookkeeping i k = false → Unworn s →
       Committing .backgroundReport s rest fun t => getObj t i k = v ∧ OthersStand s t [(i, k), (0xD800, 1), (0xD800, 5), (0xD800, 6)]) ∧
     (∀ w : Nat, s.internal = .clocks w :: rest → Inward s (internalIn 11 [objKey 0x2100 11, w] false) →
       Admitting .backgroundReport s rest fun t => num t 0x2100 11 = w ||| (num s 0x2100 11 &&& 0x80) ∧ OthersStand s t [(0x2100, 11)]) ∧
     (∀ region unit word : Nat, s.internal = .storeFault region unit word :: rest → Inward s (internalIn 12 [region, unit, word] false) → Unworn s →
       (region ∉ [4, 5, 7, 0x0C] → Committing .storeFaultReport s rest fun t => num t 0xDC20 3 = sat32 (num s 0xDC20 3) 1 ∧ OthersStand s t [(0xDC20, 3)]) ∧
       (∀ d : Desc, region = 4 → (Dict.find unit (word % 256)).2 = some d → d.pers = true → unit ≠ 0xDC20 → (unit, word % 256) ≠ (0x1030, 10) → bookkeeping unit (word % 256) = false →
         let older := getObj (loseObject s unit (word % 256)) unit (word % 256)
         Committing .storeFaultReport s rest fun t => num t 0xDC20 3 = sat32 (num s 0xDC20 3) 1 ∧
           getObj t unit (word % 256) = older ∧ OthersStand s t [(0xDC20, 3), (unit, word % 256), (0x1030, 10)] ∧
           num t 0x1030 10 = (if isCarried unit (word % 256) ∧ getObj s unit (word % 256) ≠ older then (num s 0x1030 10 + 1) % 2 ^ 32
             else num s 0x1030 10))) ∧
     (∀ w : BackWork, ∃ t, exec (.backgroundWindow w) s = .next t ∧ t.pers = { s.pers with rings := t.pers.rings, dlog := t.pers.dlog } ∧
       (∀ k, counterValue t k = counterValue s k) ∧ t.dict = s.dict ∧ t.seq.adm = s.seq.adm ∧ t.slots = s.slots ∧ t.sessions = s.sessions ∧ t.field = s.field ∧
       (s.stage = 0 ∨ 4 ≤ s.power ∨ s.seq.failing = true ∨ (2 ≤ s.power ∧ ∀ b, w ≠ .sramScrub b) → t = s)) ∧
     (s.stage ≠ 0 → s.power = 0 → s.seq.failing = false →
       exec (.backgroundWindow .idle) s = .next s ∧ exec (.backgroundWindow .adcCalibration) s = .next s ∧
       (s.tem.resp = none → exec (.backgroundWindow .compaction) s = .next { s with pers := { s.pers with dlog := compact s.pers.dlog } } ∧
         ∀ q, SMap.look (rebuild (compact s.pers.dlog)) q = SMap.look (rebuild s.pers.dlog) q) ∧
       (∀ (l : Fin 2) (k : Fin 3),
         exec (.backgroundWindow (.laneCheck l true)) s = .next { s with forced := s.forced.filter (· ≠ l.val) } ∧
         exec (.backgroundWindow (.dgeCheck true)) s = .next { s with forced := s.forced.filter (· ≠ 2) } ∧
         exec (.backgroundWindow (.pleCheck k true)) s = .next { s with forced := s.forced.filter (· ≠ 3 + k.val) } ∧
         (l.val ∈ s.forced → num s 0xCF20 (1 + l.val) ≠ 1 → ∃ t, exec (.backgroundWindow (.laneCheck l false)) s = .next t ∧ l.val ∉ t.forced ∧
           IntReq.report [(objKey 0xCF20 (1 + l.val), .num 1)] none ∈ t.internal)) ∧
       (∀ bad : List Nat, exec (.backgroundWindow (.paritySweep bad)) s = .next { s with cache := s.cache.filter fun e => isRoot e.node || !bad.contains e.node }) ∧
       (∀ k : Fin 2048, let r := ringOf s k.val
         let moves := (4 ≤ r.corrected ∨ r.bad ≠ []) ∧ ∃ i, i < 64 ∧ i ∉ s.pers.spares
         let e := IntReq.report [] (some (match r.spare with
           | some i => (4, 0x0C, k.val, i * 128)
           | none => (4, 5, k.val, k.val * 128)))
         (moves → exec (.backgroundWindow (.relocate k)) s = .next (if s.internal.contains e then s else { s with internal := s.internal ++ [e] })) ∧
           (¬moves → exec (.backgroundWindow (.relocate k)) s = .next s)) ∧
       (∀ (k : Nat) (rings : List (Fin 2048)) (done : Bool), ∃ t, exec (.backgroundWindow (.storeScrub k rings done)) s = .next t ∧
         t.seq = s.seq ∧ t.internal = s.internal ∧ t.otp = s.otp ∧
         (∀ x : Fin 2048, (ringOf t x.val).corrected = (ringOf s x.val).corrected + rings.count x) ∧
         (k ≠ 0 → counted t 0xDC20 2 = sat32 (counted s 0xDC20 2) k) ∧ (done = true → counted t 0xDC20 9 = sat32 (counted s 0xDC20 9) 1)) ∧
       (∀ (region : Fin 16) (unit word : Nat), region ≠ 0 → ∃ t, exec (.backgroundWindow (.storeLost region unit word)) s = .next t ∧
         t.internal = s.internal ++ [.storeFault region.val unit word] ∧ t.dict = s.dict ∧ t.pers.dict = s.pers.dict ∧ t.seq = s.seq)) ∧
     (∀ u, s.host.closing = some u → s.host.replies = [] ∨ u ≤ s.seq.time →
       exec .islandClose s = .next { s with host := { s.host with closed := true, closing := none } }))

/-! Monitors and the Sinter domain. -/

/-- Tamper monitoring on the core die (R72, R73, R474 to R490): a reading across a threshold, a mesh bit that differs, a window count outside its limits and a lost
clock are events, which 0x2100.0B shows (R79); the filter decides the fire, and the class of the sensor what it does; a low-side supply fire is held for 500 us; a fired sensor clears after a window
without events; the latch commit writes the class, the fires and the code that came in time for it, and resets with cause TAMPER; the admission of a NOTE or CHECK fire writes its pinned record and its
counts. The Sinter domain (R45, R493 to R496): while the schedule runs each sample counts the consecutive events of its sensor, light fires at the first, temperature
and meshes at the second, and a fire joins the log; the meshes are driven with new patterns. Without VBAT and VDDA_H the domain loses all it holds, and that is flagged.
The model's readings in it: log 9 (the payload of the admission), log 24 (what a record carries), log 25 (the pattern generator), log 26 (the counter after a loss), log 124 (the field clock), log 130 (a
commit that fails), log 135 (what comes in time). -/
def Obligations.tamper_and_sinter_complete : Prop :=
  (∀ s : State,
     (Watching s →
       (∀ (code : Byte) (r : BitVec 20),
         (Mon.byAdmission code.toNat = true → exec (.sensorEvent code r) s = .next s) ∧
         (Mon.byAdmission code.toNat = false → code ≠ 0x62 → code ≠ 0x60 ∨ s.boot.vddah = false ∨ num s 0xD810 4 = s20Ext r →
           (crosses s code.toNat (s20Ext r) = none → exec (.sensorEvent code r) s = .next s) ∧
           (∀ thr, crosses s code.toNat (s20Ext r) = some thr → Senses (.sensorEvent code r) s code.toNat (s20Ext r) thr fun t => t.boot.clock = s.boot.clock)) ∧
         (code = 0x60 → s.boot.vddah = true → num s 0xD810 4 ≠ s20Ext r → ∃ t, exec (.sensorEvent code r) s = .next t ∧ t.pers = s.pers ∧ t.dict = s.dict ∧
           t.internal.getLast? = some (.report [(objKey 0xD810 4, .num (s20Ext r))] none)) ∧
         (code = 0x62 → ∃ u t, exec (.sensorEvent code r) s = .next t ∧ Sensed s u 0x62 (s20Ext r) 0 ∧
           ShowsClock { u with sinter := { u.sinter with osc := false } } t 6 false)) ∧
       (Senses (.clockLost .monitor) s 0x1C 0 0 fun _ => True) ∧
       (∃ u, ShowsClock s u 0 false ∧ ∃ t, exec (.clockLost .tempo) s = .next t ∧ Sensed u t 0x1C 0 0) ∧
       (∃ u, ShowsClock s u 1 false ∧ ∃ t, exec (.clockLost .cipher) s = .next t ∧ Sensed u t 0x1C 0 0) ∧
       (∃ u, ShowsClock (draw s 1).2 u (draw s 1).1 false ∧ ∃ t, exec (.clockLost .pll) s = .next t ∧ Sensed u t 0x1C 0 0) ∧
       (∀ (row : Fin 5) (n : Nat), (row.val = 4 → s.field.run = true) →
         let e := [6144, 32768, 49152, 512, 40960].getD row.val 0
         let d := if e ≤ n then n - e else e - n
         (row.val < 4 →
           (crosses s (0x10 + row.val) d = none → ∃ u, ShowsClock s u (2 + row.val) true ∧ exec (.clockWindowCheck row n) s = .next u) ∧
           (∀ thr, crosses s (0x10 + row.val) d = some thr →
             ∃ u, ShowsClock s u (2 + row.val) false ∧ ∃ t, exec (.clockWindowCheck row n) s = .next t ∧ Sensed u t (0x10 + row.val) d thr)) ∧
         (row.val = 4 →
           (crosses s 0x14 d = none → exec (.clockWindowCheck row n) s = .next s) ∧
           (∀ thr, crosses s 0x14 d = some thr → Senses (.clockWindowCheck row n) s 0x14 d thr fun t => t.boot.clock = s.boot.clock))) ∧
       (∀ sensed : BitVec 16,
         (mismatches s.tem.lid sensed ≠ 0 → Senses (.lidMeshCompare sensed) s 0x30 (mismatches s.tem.lid sensed) 0 fun t => t.tem.lid = (meshPattern s).1) ∧
         (mismatches s.tem.lid sensed = 0 → ∃ t, exec (.lidMeshCompare sensed) s = .next t ∧ t.tem = { s.tem with lid := (meshPattern s).1 } ∧
           t.internal = s.internal ∧ t.dict = s.dict ∧ t.pers = s.pers) ∧
         ∀ m : Fin 4, let p := SMap.at' s.tem.mesh m.val 0#16
           (mismatches p sensed ≠ 0 → Senses (.enclosureMeshCompare m sensed) s (0x38 + m.val) (mismatches p sensed) 0 fun t =>
             SMap.look t.tem.mesh m.val = some (meshPattern s).1) ∧
           (mismatches p sensed = 0 → ∃ t, exec (.enclosureMeshCompare m sensed) s = .next t ∧ SMap.look t.tem.mesh m.val = some (meshPattern s).1 ∧
             t.internal = s.internal ∧ t.tem.sense = s.tem.sense ∧ t.tem.resp = none ∧ t.dict = s.dict ∧ t.pers = s.pers)) ∧
       (∀ (code : Byte) (h : Nat × Nat × Nat × Nat), s.seq.failing = false →
         s.tem.held.find? (fun x => decide (x.1 = code.toNat ∧ x.2.2.2 + 500 ≤ s.seq.time)) = some h → (sensorSet s code.toNat).1 ≠ 255 →
         ∃ t, exec (.supplyWindowHold code) s = .next t ∧ t.tem.held = s.tem.held.erase h ∧ Responds s t code.toNat h.2.1 h.2.2.1 ∧ t.pers = s.pers ∧
           t.dict = s.dict)) ∧
     (∀ code : Byte, (senseOf s code.toNat).fired = true → (senseOf s code.toNat).last + (sensorSet s code.toNat).2.2 ≤ s.seq.time →
       ∃ t, exec (.sensorWindowExpiry code) s = .next t ∧ senseOf t code.toNat = ⟨false, [], 0⟩ ∧ (∀ k, k ≠ code.toNat → senseOf t k = senseOf s k) ∧
         t.internal = s.internal ++ (if showsFired s code.toNat then [.report [(objKey (0xDA00 + code.toNat) 0x0B, .num 0)] none] else []) ∧
         t.dict = s.dict ∧ t.pers = s.pers) ∧
     (∀ r : Resp, s.tem.resp = some r → s.seq.failing = false →
       let w := match s.pers.latch with
         | none => r.word
         | some (c, n, k) => (max c r.word.1, min (n + r.word.2.1) 255,
             if r.word.1 < c then k else if c = r.word.1 then min k r.word.2.2 else r.word.2.2)
       let g := if s.boot.rails && s.boot.vddah && s.boot.lvds then 1 else 0
       ∃ t, exec .tamperLatchCommit s = .next t ∧ Restarted { s with pers := { s.pers with latch := some w } } t 3 g ∧ (g = 1 → t.sinter = s.sinter) ∧
         (g = 0 → t.boot.held = true)) ∧
     (∀ (k cls : Nat) (body : Bytes) (rest : List IntReq), s.internal = .tamper k cls body :: rest →
       Inward s { internalIn 17 [k, cls] true with payload := leBytes 2 k ++ leBytes 1 cls ++ body } → (Dict.sensor k).isSome = true → cls ≤ 1 → body.length = 24 →
       Committing .tamperAdmission s rest fun t =>
         num t (0xDA00 + k) 0x0A = leNat (body.take 4) ∧ num t (0xDA00 + k) 0x0B = (if isFixed k then 0 else 1) ∧
           num t (0xDA00 + k) 0x0C = min (num s (0xDA00 + k) 0x0C + 1) 65535 ∧
           num t (0xDA00 + k) 0x0D = s.seq.adm + 1 ∧ num t 0xD800 3 = k ∧ num t 0xD800 4 = s.seq.adm + 1 ∧
           (∃ p ∈ t.pers.jour.recs, p.2.bytes.take 16 = [2, 0xFF, 0xFF, BitVec.ofNat 8 cls] ++ leBytes 2 k ++ [0, 0] ++ leBytes 8 (s.seq.adm + 1)) ∧
           (∃ x ∈ t.slots, x.acts = [.fired k cls body] ∧ x.resp = none) ∧
           OthersStand s t ([0x0A, 0x0B, 0x0C, 0x0D].map (fun i => (0xDA00 + k, i)) ++ [1, 2, 3, 4, 5, 6, 8].map fun i => (0xD800, i)))) ∧
  (∀ s : State,
     (scheduleOn s = true →
       (∀ r : BitVec 20, let on := decide (s20Int (num s 0xDA20 5) < r.toInt)
         ∃ t, exec (.sinterLightCheck r) s = .next t ∧ Scheduled s t 0x20 on ∧ (on = false → t.sinter.log = s.sinter.log) ∧
           (on = true → SMap.at' s.sinter.hits 0x20 0 = 0 → s.sinter.log.length < 64 → num s 0xDA20 (if s.sinter.vigil then 6 else 1) ≠ 255 →
             ∃ e, t.sinter.log = s.sinter.log ++ [e] ∧ e.code = 0x20 ∧ e.time = s.sinter.rtc ∧ e.reading = s20Ext r ∧
               e.cls = num s 0xDA20 (if s.sinter.vigil then 6 else 1)) ∧
           t.dict = s.dict ∧ t.pers = s.pers ∧ t.field = s.field) ∧
       (∀ r : BitVec 20, let lo := decide (r.toInt < s20Int (num s 0xDA28 4))
         let hi := decide (s20Int (num s 0xDA29 5) < r.toInt)
         ∃ t, exec (.sinterTempCheck r) s = .next t ∧ Scheduled s t 0x28 lo ∧ Scheduled s t 0x29 hi ∧ (lo = false → hi = false → t.sinter.log = s.sinter.log) ∧
           (lo = true → hi = false → SMap.at' s.sinter.hits 0x28 0 = 1 → s.sinter.log.length < 64 → num s 0xDA28 (if s.sinter.vigil then 6 else 1) ≠ 255 →
             ∃ e, t.sinter.log = s.sinter.log ++ [e] ∧ e.code = 0x28 ∧ e.reading = s20Ext r) ∧
           t.dict = s.dict ∧ t.pers = s.pers ∧ t.field = s.field) ∧
       (∀ a b c d e : BitVec 16, ∃ t, exec (.sinterMeshCheck a b c d e) s = .next t ∧ t.dict = s.dict ∧ t.pers = s.pers ∧ t.field = s.field ∧
         ∀ j : Fin 5, let x := [a, b, c, d, e].getD j.val 0
           Scheduled s t (if j.val = 0 then 0x30 else 0x37 + j.val) (decide (mismatches (SMap.at' s.sinter.pats j.val 0#16) x ≠ 0)) ∧
             (SMap.look t.sinter.pats j.val).isSome = true)) ∧
     (s.boot.vddah = false → ∃ t, exec .vbatLoss s = .next t ∧ t.sinter.key = none ∧ t.sinter.log = [] ∧ t.sinter.overflow = 0 ∧ t.sinter.sealLatch = false ∧
       t.sinter.pend = none ∧ t.sinter.lost = true ∧ t.sinter.osc = false ∧ t.sinter.rtc < 2 ^ 48 ∧ t.pers = s.pers ∧ t.dict = s.dict ∧ t.otp = s.otp ∧ t.field = s.field))

/-! Time and power states. -/

/-- Device time and power states (R182, R517 to R523): a tick carries every clock a microsecond on, and only the Sinter counter and the field die's while the core die
is held in reset; work that is not due stays. The choice takes the deepest allowed state that fits, after its notice, and plans the wake; a wake restores RUN behind the
awake notice; HIBERNATE keeps its image, sealed under the key of node 0x0018 XOR the Sinter key (R350), asks through HELLO with B = 0, and a wake restores the image, with which nothing is served before every tiller is instantiated, or starts up with cause
HIBERNATE_LOST. The model's readings in
it: log 3 (no occasion, no effect), log 4 (a tick is a microsecond), log 20 (the image), log 74, log 126 (a wake
with the link down). -/
def Obligations.time_and_power_states_complete : Prop :=
  ∀ s : State,
    (s.sheaf.join = none →
      (s.stage = 0 → exec .deviceTimeTick s = .next { s with sinter := tickSinter s.sinter, field := { s.field with time := s.field.time + 1 } }) ∧
      (s.stage ≠ 0 → s.sheaf.out = [] → (∀ x ∈ s.slots, s.seq.time < x.due) → ∃ t, exec .deviceTimeTick s = .next t ∧
        t.seq.time = s.seq.time + 1 ∧ t.seq.adm = s.seq.adm ∧ t.seq.admTime = s.seq.admTime ∧ t.boot = { s.boot with since := s.boot.since + 1 } ∧
        t.sinter = tickSinter s.sinter ∧ t.field = { s.field with time := s.field.time + 1 } ∧ t.slots = s.slots ∧ t.internal = s.internal ∧
        t.pers = s.pers ∧ t.dict = s.dict ∧ t.otp = s.otp ∧ t.sessions = s.sessions)) ∧
    (s.power = 0 → staysInRun s = false → ∃ t st, exec .powerStateChoice s = .next t ∧ t.power = st ∧
      (st ≠ 0 → st ≤ effectiveCap s ∧ fits s st = true) ∧ (∀ k, st < k → k ≤ effectiveCap s → fits s k = false) ∧ (st = 0 → t = s) ∧
      (st ≠ 0 → t.modes.wakeAt = (nextEvent s).map (fun e => e - wakeTime.getD st 0) ∧
        (s.bar.up = true → t.bar.lane1 = s.bar.lane1 ++ [.power (if st = 4 then 2 else 1)])) ∧
      (3 ≤ st → t.rng.on = false) ∧
      (st = 4 → t.boot.toggle = false ∧ t.bar.up = false ∧ (∃ k, t.sinter.key = some k) ∧
        ∃ m, t.modes.image = some m ∧ m.adm = s.seq.adm ∧ m.dict = s.dict ∧ m.credit = s.credit ∧ m.budget = s.seq.budget ∧ m.cause = s.host.cause ∧
          m.reports = s.reports ∧ m.stager = s.twc.stager ∧ m.staged = s.twc.staged ∧
          ∀ k, t.sinter.key = some k →
            (m.cipher, m.tag) = gcmSeal (xorBytes (fitBytes 32 (nodeKey s 0x18)) k) ((0x82 : Byte) :: zeros 11) [] (imageBytes m)) ∧
      t.seq.adm = s.seq.adm ∧ t.seq.admTime = s.seq.admTime ∧ t.dict = s.dict ∧ t.pers = s.pers ∧ t.otp = s.otp ∧ t.field = s.field) ∧
    (1 ≤ s.power → s.power ≤ 3 →
      let woke := fun t : State => t.power = 0 ∧ t.modes.wakeAt = none ∧
        (s.bar.up = true → t.bar.lane1 = .power 0 :: s.bar.lane1.filter fun m => decide (m ≠ .power 1)) ∧
        (s.bar.up = false → t.bar = s.bar ∧ counted t 0x1030 9 = sat32 (counted s 0x1030 9) 1) ∧
        (s.power = 3 → s.entropyDown = false → t.rng.on = true ∧ t.rng.startup = 9 ∧ t.rng.trims.map (·.1) = s.rng.trims.map (·.1)) ∧
        t.seq = (if s.power = 3 then { s.seq with time := max (s.seq.admTime + 1) s.seq.time } else s.seq) ∧ t.dict = s.dict ∧ t.pers = s.pers ∧ t.otp = s.otp ∧ t.field = s.field ∧
        t.sessions = s.sessions ∧ t.slots = s.slots ∧ t.internal = s.internal
      (∃ t, exec .wakeRequest s = .next t ∧ woke t) ∧
      ∀ at', s.modes.wakeAt = some at' → (at' ≤ s.seq.time → ∃ t, exec .scheduledWake s = .next t ∧ woke t) ∧
        (s.seq.time < at' → exec .scheduledWake s = .next s)) ∧
    (s.field.run = true → s.field.notice = 2 → s.field.link = 0 →
      AtField .hibernateHelloTimer s fun g => g = { s.field with lane0 := g.lane0 } ∧
        g.lane0 = s.field.lane0 ++ if s.field.wake = [] ∧ s.field.events = [] then []
          else [.hello 0 (Config.fieldRomVersion % 2 ^ 32) s.field.gen s.field.cause]) ∧
    (s.power = 4 → s.seq.failing = true → ∀ readable : Bool, exec (.hibernateWake readable) s = .next s) ∧
    (s.power = 4 → s.seq.failing = false → ∀ readable : Bool,
      (∀ img k, readable = true → s.sinter.key = some k → s.modes.image = some img →
        gcmOpen (xorBytes (fitBytes 32 (nodeKey s 0x18)) k) ((0x82 : Byte) :: zeros 11) [] img.cipher img.tag = some (imageBytes img) →
        ∃ t, exec (.hibernateWake readable) s = .next t ∧ t.power = 0 ∧ t.stage = 0x11 ∧ t.seq.adm = img.adm ∧ t.seq.time = max (s.seq.admTime + 1) s.seq.time ∧
          t.dict = img.dict ∧ t.credit = img.credit ∧ t.seq.budget = img.budget ∧ t.host = { s.host with cause := img.cause } ∧ t.reports = img.reports ∧
          t.twc.stager = img.stager ∧ t.twc.staged = img.staged ∧ t.modes.image = none ∧ t.rng.on = true ∧
          t.rng.startup = 9 ∧ t.rng.trims.map (·.1) = s.rng.trims.map (·.1) ∧ t.rng.reseeds = s.rng.reseeds ∧ t.bar.b = s.bar.b ∧ t.bar.up = false ∧ t.bar.trying = false ∧ t.boot.woken = some s.seq.time ∧ t.boot.waking = true ∧ sequencerUp t = false ∧ t.pers = s.pers ∧ t.otp = s.otp ∧
          t.field = s.field ∧ t.sinter = s.sinter) ∧
      (readable = false ∨ s.modes.image = none ∨ (∀ img, s.modes.image = some img → imageOpens s img = false) →
        Restarts (.hibernateWake readable) s 8 (if s.boot.rails && s.boot.vddah && s.boot.lvds then 1 else 0) fun _ => True))

/-! The Sheaf pair. -/

/-- The Sheaf link (R527 to R529, R546, R534): a SEALED frame is taken where its counter is the next and its tag is right, it acknowledges what was kept, and its
messages wait in the inbox; any other is dropped, as where the compare unit raises its alarm (R285, R286). Kept frames go out again after 4 us without progress, and a frame goes out after 2 us of silence. Each of the four
signs of R528 and a deadline of R546 part the pair; a join out of time fails. The model's readings in it: log 3 (no occasion, no effect), log 68 (frame counters of a
join). -/
def Obligations.sheaf_link_complete : Prop :=
  ∀ s : State,
    (Shf.awake s = true → ∀ k, s.sheaf.key = some k →
      (∀ (f : Bytes) (p : Phys), let n := leNat ((f.drop 2).take 2)
        let ctr := leNat ((f.drop 4).take 8)
        let plain := gcmOpen k (Shf.nonce (1 - Shf.me s) ctr) (f.take 20) ((f.drop 20).take n) (f.drop (20 + n))
        f.length = 36 + n → n ≤ 256 → f.getD 0 0 = 2 →
          (ctr ≠ s.sheaf.got + 1 ∨ plain = none → exec (.sheafFrameReceive ⟨f, p⟩) s = .next s) ∧
          (∀ b, ctr = s.sheaf.got + 1 → plain = some b → p = .compare → ∃ t, exec (.sheafFrameReceive ⟨f, p⟩) s = .next t ∧ t.sheaf = s.sheaf ∧
            counted t 0xCF20 7 = sat32 (counted s 0xCF20 7) 1 ∧ t.slots = s.slots ∧ t.dict = s.dict ∧ pairFrame s t) ∧
          (∀ b, ctr = s.sheaf.got + 1 → plain = some b → p ≠ .compare → ∃ t, exec (.sheafFrameReceive ⟨f, p⟩) s = .next t ∧ t.sheaf.got = ctr ∧ t.sheaf.heard = s.seq.time ∧
            t.sheaf.kept = s.sheaf.kept.filter (fun p => decide (leNat ((f.drop 12).take 8) < p.1)) ∧ ShowsClock { s with sheaf := t.sheaf, perf := t.perf } t 8 true ∧
            (b = [] → t.sheaf.inbox = s.sheaf.inbox) ∧
            (s.sheaf.part = [] → ∀ ty m, m.length ≤ 252 → b = pairMessage ty m → t.sheaf.inbox = s.sheaf.inbox ++ [b]) ∧
            t.sheaf.key = s.sheaf.key ∧ t.sheaf.join = s.sheaf.join)) ∧
      (s.sheaf.kept = [] ∨ s.seq.time < s.sheaf.acked + 4 ∨ 8 ≤ s.sheaf.resends → exec .sheafResend s = .next s) ∧
      (s.sheaf.kept ≠ [] → s.sheaf.acked + 4 ≤ s.seq.time → s.sheaf.resends < 8 → ∃ t, exec .sheafResend s = .next t ∧
        t.sheaf = { s.sheaf with resends := s.sheaf.resends + 1, acked := s.seq.time, spoke := s.seq.time, line := s.sheaf.line ++ s.sheaf.kept.map (·.2) } ∧
        counted t 0xF000 12 = sat32 (counted s 0xF000 12) s.sheaf.kept.length ∧ t.dict = s.dict ∧ t.internal = s.internal ∧ t.slots = s.slots ∧ pairFrame s t) ∧
      (s.seq.time < s.sheaf.spoke + 2 → exec .sheafIdle s = .next s) ∧
      (s.sheaf.spoke + 2 ≤ s.seq.time → ∀ p : Bytes,
        (s.sheaf.out = [] ∧ p = []) ∨ (s.sheaf.out = [p] ∧ ∃ ty m, 0 < m.length ∧ m.length ≤ 252 ∧ p = pairMessage ty m) →
        ∃ t, exec .sheafIdle s = .next t ∧
          let h := [2, 0] ++ leBytes 2 p.length ++ leBytes 8 (s.sheaf.sent + 1) ++ leBytes 8 s.sheaf.got
          let c := gcmSeal k ([0x83, BitVec.ofNat 8 (Shf.me s), 0, 0] ++ beBytes 8 (s.sheaf.sent + 1)) h p
          t.sheaf.line = s.sheaf.line ++ [h ++ c.1 ++ c.2] ∧ t.sheaf.kept = s.sheaf.kept ++ [(s.sheaf.sent + 1, h ++ c.1 ++ c.2)] ∧
            t.sheaf.sent = s.sheaf.sent + 1 ∧ t.sheaf.spoke = s.seq.time ∧ t.sheaf.out = [] ∧ t.sheaf.got = s.sheaf.got ∧ t.sheaf.key = s.sheaf.key ∧
            t.dict = s.dict ∧ t.internal = s.internal ∧ t.slots = s.slots ∧ pairFrame s t)) ∧
    (∀ c : LinkLossCause, ∃ t, exec (.sheafLinkLoss c) s = .next t ∧ t.pers = s.pers ∧ t.otp = s.otp ∧ t.seq = s.seq ∧ t.sessions = s.sessions ∧ t.twc = s.twc ∧
      t.field = s.field ∧ OthersStand s t [(0x2100, 11)]) ∧
    (s.stage ≠ 0 → s.sheaf.key.isSome = true → s.sheaf.join = none → joined s = true → IntReq.partition ∉ s.internal →
      (s.sheaf.heard + 20 ≤ s.seq.time → Parts (.sheafLinkLoss .silence) s fun _ => True) ∧
      (s.seq.time < s.sheaf.heard + 20 → exec (.sheafLinkLoss .silence) s = .next s) ∧
      (8 ≤ s.sheaf.resends → Parts (.sheafLinkLoss .resends) s fun _ => True) ∧
      (s.sheaf.resends < 8 → exec (.sheafLinkLoss .resends) s = .next s) ∧
      Parts (.sheafLinkLoss .lock) s (fun t => t.boot.clock = setBit s.boot.clock 8 false) ∧
      (s.boot.lvds = false → Parts (.sheafLinkLoss .vddLvds) s fun t => t.boot.clock = setBit s.boot.clock 8 false) ∧
      (s.boot.lvds = true → exec (.sheafLinkLoss .vddLvds) s = .next s) ∧
      ∀ n : Nat, ((∃ w ∈ s.sheaf.awaits, w.adm = n ∧ w.due ≤ s.seq.time) → Parts (.sheafDeadline n) s fun _ => True) ∧
        ((∀ w ∈ s.sheaf.awaits, w.adm = n → s.seq.time < w.due) → exec (.sheafDeadline n) s = .next s)) ∧
    (∀ j, s.sheaf.join = some j →
      let late := (bit s.boot.clock 8 = false ∧ j.t0 + 1000 ≤ s.seq.time) ∨ (j.hello = none ∧ j.t0 + 100000 ≤ s.seq.time) ∨ j.t0 + 1950000 ≤ s.seq.time
      (late → JoinFails .joinTimeout s j Abt.partnerAbsent) ∧ (¬late → exec .joinTimeout s = .next s))

/-- A join (R532 to R538): HELLO is answered with this unit's proof, in its own join or in one that it takes part in; a wrong partner, a wrong proof or an alarm at
its compare fails the join; matching proofs install the link key; items are kept until the cut-over; passes send what changed and SYNC_END; C makes both units
JOINED under SHEAF and applies what was kept, or fails the join where its commit fails. A join that begins or ends outside an admission shows in 0xF000.01 through the one that it puts on the queue. The model's
readings in it: log 32 (the items), log 48, log 49, log 69, log 72, log 130 (a commit that fails), log 138 (what C raises). -/
def Obligations.join_completes : Prop :=
  ∀ s : State,
    (∀ (j : JoinRun) (m : JoinHello), s.sheaf.join = some j → j.hello = none →
      let bad := m.partner.toNat ≠ 1 - Shf.me s ∨ m.firmware.toNat ≠ runningVersion s ∨ m.revision.toNat ≠ num s 0x1000 5
      (bad → JoinFails (.sheafHello m) s j Abt.valueConflict) ∧
      (¬bad → ∃ t, exec (.sheafHello m) s = .next t ∧
        t.sheaf.join = some { j with hello := some (fitBytes 16 m.serial, fitBytes 16 m.nonce, m.lastAdm, fitBytes 32 m.chain, m.restarted) } ∧
        t.sheaf.out = s.sheaf.out ++ [pairMessage 0x02 (cmac (kdf ((pairSecretOf s).getD []) 0x44 1 (ascii "SHEAF-JOIN") 0 0 0 256)
          (if Shf.me s = 0 then 0x4C :: (serialBytes ++ fitBytes 16 m.serial ++ j.own ++ fitBytes 16 m.nonce ++ beBytes 4 (runningVersion s))
           else 0x46 :: (fitBytes 16 m.serial ++ serialBytes ++ fitBytes 16 m.nonce ++ j.own ++ beBytes 4 (runningVersion s))))] ∧
        t.sheaf.key = s.sheaf.key ∧ t.dict = s.dict ∧ t.internal = s.internal ∧ t.slots = s.slots ∧ pairFrame s t)) ∧
    (∀ m : JoinHello, s.sheaf.join = none →
      let part := Shf.mayJoin s = true ∧ m.partner.toNat = 1 - Shf.me s ∧ oct s 0xF000 3 = fitBytes 16 m.serial ∧ s.pers.pair.isSome = true ∧ s.entropyDown = false
      (part → m.firmware.toNat = runningVersion s → m.revision.toNat = num s 0x1000 5 → ∃ t j, exec (.sheafHello m) s = .next t ∧
        t.internal = s.internal ++ [.pairState 1] ∧ t.sheaf.join = some j ∧ j.prev = pairState s ∧ j.t0 = s.seq.time ∧ j.slot = none ∧ j.proved = false ∧
        j.hello = some (fitBytes 16 m.serial, fitBytes 16 m.nonce, m.lastAdm, fitBytes 32 m.chain, m.restarted) ∧
        (∃ p, t.sheaf.out = [pairMessage 0x01 (helloBody s j.own), pairMessage 0x02 p]) ∧ t.sheaf.key = none ∧ t.pers = s.pers ∧ t.seq.adm = s.seq.adm ∧
        t.slots = s.slots ∧ t.field = s.field ∧ OthersStand s t []) ∧
      (¬part → ∃ t, exec (.sheafHello m) s = .next t ∧ t = { s with sheaf := { s.sheaf with inbox := t.sheaf.inbox } })) ∧
    (∀ (j : JoinRun) (serial nonce chain : Bytes) (xf : Nat) (re : Bool) (p : Bytes), s.sheaf.join = some j → j.hello = some (serial, nonce, xf, chain, re) →
      j.proved = false →
      let text := if Shf.me s = 0 then (0x46 : Byte) :: (serialBytes ++ serial ++ j.own ++ nonce ++ beBytes 4 (runningVersion s))
        else 0x4C :: (serial ++ serialBytes ++ nonce ++ j.own ++ beBytes 4 (runningVersion s))
      let right := cmac (kdf ((pairSecretOf s).getD []) 0x44 1 (ascii "SHEAF-JOIN") 0 0 0 256) text
      (∀ x : Phys, x ≠ .compare → p ≠ right → JoinFails (.sheafProof ⟨p, x⟩) s j Abt.authFail) ∧
      (∃ t, exec (.sheafProof ⟨p, .compare⟩) s = .next t ∧ t.sheaf.join = none ∧ t.sheaf.key = none ∧ t.internal.getLast? = some (.pairState j.prev) ∧
        (∀ x ∈ t.slots, j.slot = some x.adm → x.numbered = true → x.long = true → x.code = Abt.compareFault) ∧
        counted t 0xCF20 7 = sat32 (counted s 0xCF20 7) 1 ∧ pairFrame s t ∧ OthersStand s t []) ∧
      (∀ x : Phys, x ≠ .compare → p = right → ∃ t, exec (.sheafProof ⟨p, x⟩) s = .next t ∧
        t.sheaf.key = some (kdf ((pairSecretOf s).getD []) 0x45 1 (if Shf.me s = 0 then j.own ++ nonce else nonce ++ j.own) 0 0 0 256) ∧
        t.sheaf.join = some { j with proved := true } ∧ t.sheaf.sent = 0 ∧ t.sheaf.got = 0 ∧ t.sheaf.kept = [] ∧
        (∀ k z, SMap.look s.sessions k = some z → onFollower z.origin = true → SMap.look t.sessions k = none) ∧
        t.pers = s.pers ∧ t.dict = s.dict ∧ t.seq = s.seq ∧ t.slots = s.slots ∧ t.internal = s.internal ∧ t.field = s.field)) ∧
    (∀ j : JoinRun, s.sheaf.join = some j → j.proved = true →
      (∀ (kind : Byte) (item stamp : Nat) (v : Bytes), ∃ t, exec (.sync kind item stamp v) s = .next t ∧
        t.sheaf.items = s.sheaf.items.filter (fun x => !decide (x.1 = kind.toNat ∧ x.2.1 = item)) ++ [(kind.toNat, item, stamp, v)] ∧
        t.sheaf.join = s.sheaf.join ∧ t.dict = s.dict ∧ t.internal = s.internal ∧ t.slots = s.slots ∧ pairFrame s t) ∧
      (∀ (pass : Byte) (n : Nat), ∃ t, exec (.syncEnd pass n) s = .next t ∧
        t.sheaf.join = some { j with theirs := true, pass := if Shf.me s = 1 then max j.pass 1 else j.pass } ∧ t.sheaf.items = s.sheaf.items ∧ t.dict = s.dict ∧
        t.internal = s.internal ∧ t.slots = s.slots ∧ pairFrame s t) ∧
      (s.sheaf.key.isSome = true → Shf.me s = 0 → j.pass ≠ 0 → let xs := (Shf.dirtyItems s).filter fun p => Shf.mirrored s p.1 p.2
        ∃ t, exec .transferPass s = .next t ∧
          t.sheaf.out = s.sheaf.out ++ xs.map (syncOf s) ++ [pairMessage 0x41 ([BitVec.ofNat 8 (j.pass + 1)] ++ leBytes 4 xs.length)] ∧ t.sheaf.dirty = [] ∧
          t.sheaf.join = some { j with pass := j.pass + 1, sent := xs.length } ∧ t.dict = s.dict ∧ t.internal = s.internal ∧ t.slots = s.slots ∧ pairFrame s t) ∧
      (s.sheaf.key.isSome = true → Shf.me s = 0 → j.pass ≠ 0 → j.theirs = true → sequencerUp s = true → auditHolds s (Shf.cutOverIn s) = false →
        ((Shf.dirtyItems s).filter fun p => Shf.mirrored s p.1 p.2).length < 4096 →
        Unworn s → ∃ t, exec .cutOver s = .next t ∧ t.seq.adm = s.seq.adm + 1 ∧ t.seq.admTime = s.seq.time ∧ t.otp = s.otp ∧ t.field = s.field ∧
          (commitFails s = false → num t 0xF000 1 = 2 ∧ num t 0x2000 2 = 1 ∧
            num t 0xF000 7 = s.seq.adm + 1 ∧ num t 0xF000 8 = 0 ∧ num t 0xF000 9 = 0 ∧ num t 0xF000 10 = sat32 (num s 0xF000 10) 1 ∧
            (∀ k : Fin 2048, num t (0xC000 + k.val) 8 = 0) ∧ t.sheaf.join = none ∧ t.sheaf.items = [] ∧ t.sheaf.delivery = [] ∧
            (∀ x ∈ t.slots, j.slot = some x.adm → x.numbered = true → x.long = true → x.code = 0)) ∧
          (commitFails s = true → num s 0xF000 10 < 4294967295 → t.sheaf.join = none ∧ t.sheaf.key = none ∧ t.internal = s.internal ++ [.pairState j.prev] ∧
            (∀ x ∈ t.slots, j.slot = some x.adm → x.numbered = true → x.long = true → x.code = Abt.storeFault) ∧ OthersStand s t []))) ∧
    (∀ rest, s.internal = .autoJoin :: rest → sequencerUp s = true → joined s = false → auditHolds s (internalIn 22 [] false) = false →
      let go := s.stage = 0x11 ∧ calderaOn s = false ∧ s.sheaf.join = none ∧ s.entropyDown = false
      ∃ t, exec .autoJoin s = .next t ∧ t.seq.adm = s.seq.adm + 1 ∧ t.seq.admTime = s.seq.time ∧ t.otp = s.otp ∧ t.field = s.field ∧
        (go → num t 0xF000 1 = 1 ∧ t.internal = rest.filter (fun e => match e with | .pairState _ => false | _ => true) ∧
          ∃ j, t.sheaf.join = some j ∧ j.prev = pairState s ∧ j.t0 = s.seq.time ∧ j.hello = none ∧
          t.sheaf.out = [pairMessage 0x01 (helloBody s j.own)] ∧ OthersStand s t [(0xF000, 1)]) ∧
        (¬go → t.sheaf.join = s.sheaf.join ∧ t.internal = rest ∧ OthersStand s t []))

/-- Messages that the partners exchange about their admissions (R539 to R545, R547): the follower takes the leader's next ADMIT under the leader's number and time, and
no other; the leader numbers what a REQUEST brings; a REFUSAL answers its requester; equal digests confirm an admission and unequal ones suspend; acknowledgements and
verdicts end what waited for them; reads go between the units. The model's readings in it: log 3 (no occasion, no effect), log 9 (the data of a VERDICT), log 66, log
70, log 71. -/
def Obligations.pair_messages_take_effect : Prop :=
  ∀ s : State,
    (∀ m : AdmitMsg, Follows s →
      (m.adm ≠ s.seq.adm + 1 → exec (.sheafAdmit m) s = .next s) ∧
      (m.adm = s.seq.adm + 1 →
        let here := fun t : State => t.seq.adm = m.adm ∧ t.seq.admTime = m.time ∧ t.seq.time = s.seq.time
        (m.kind = 2 → onFollower m.origin = false → ∃ t, exec (.sheafAdmit m) s = .next t ∧ here t ∧ awaitsVerdict t m.adm (s.seq.time + 4 + 6) ∧
          t.sessions = s.sessions ∧ t.field = s.field ∧ OthersStand s t [(0xF000, 7)]) ∧
        (m.kind = 2 → onFollower m.origin = true → ∃ t, exec (.sheafAdmit m) s = .next t ∧ t.sheaf.grant = some (m.adm, m.time, m.payload) ∧ t.dict = s.dict ∧
          pairFrame s t) ∧
        (m.kind = 4 → m.origin = 2 → ∃ t, exec (.sheafAdmit m) s = .next t ∧ t.sheaf.grant = some (m.adm, m.time, m.payload) ∧ t.dict = s.dict ∧ pairFrame s t) ∧
        (∀ r, r = parseRq m.origin m.payload → m.kind = 1 → r.svc = 2 → r.trailer = none → partnerRuns s r = true →
          ∃ t, exec (.sheafAdmit m) s = .next t ∧ here t ∧ awaitsVerdict t m.adm (s.seq.time + writeLat s r.idx r.sub r.value + 6) ∧
            (∃ x ∈ t.slots, x.adm = m.adm ∧ x.numbered = true ∧ x.origin = m.origin ∧ x.due = s.seq.time + writeLat s r.idx r.sub r.value + 10) ∧
            t.sessions = s.sessions ∧ t.field = s.field ∧ OthersStand s t [(0xF000, 7)]) ∧
        (∀ r d, r = parseRq m.origin m.payload → m.kind = 1 → r.svc ≠ 6 → partnerRuns s r = false →
          performDone (number { comeBack (Shf.take s 0x10 (Shf.admitBytes m)) m.origin m.payload with seq := { s.seq with time := m.time } }) r = some d → d.s.seq.adm = m.adm →
          d.s.seq.admTime = m.time →
          ∃ t, exec (.sheafAdmit m) s = .next t ∧ here t ∧ t.sessions = d.s.sessions ∧ OthersStand d.s t [(0xF000, 7)]))) ∧
    (∀ (origin : Nat) (kind : Byte) (payload : Bytes) (chan lat : Nat), Heads s → turn s 1 = true →
      (kind = 2 ∧ chan = (parseHdr payload).field ∧ lat = 4) ∨ (kind = 4 ∧ chan = 0xFFFF ∧ lat = 2) →
      auditHolds s ⟨kind.toNat, origin, chan, payload, false, false, 2⟩ = false → ∃ t, exec (.sheafRequest origin kind payload) s = .next t ∧
        t.seq.adm = s.seq.adm + 1 ∧ t.seq.admTime = s.seq.time ∧ awaitsVerdict t (s.seq.adm + 1) (s.seq.time + lat + 6) ∧
        pairMessage 0x10 ([kind, 0] ++ leBytes 2 origin ++ leBytes 2 chan ++ leBytes 8 (s.seq.adm + 1) ++ leBytes 8 s.seq.time ++ leBytes 2 payload.length ++
          [0, 0] ++ payload) ∈ t.sheaf.out ∧ t.sessions = s.sessions ∧ t.slots = s.slots ∧ t.field = s.field ∧ OthersStand s t [(0xF000, 7)]) ∧
    (∀ (origin : Nat) (code : Word) (header : Bytes), Follows s → homeHere s origin = true →
      ∃ t, exec (.sheafRefusal origin code header) s = .next t ∧
        (localOrigin origin = 1 → t.host.away = s.host.away.eraseP (fun m => decide (m.take 8 = header.take 8)) ∧ t.host.replies = s.host.replies ++
          [if code.toNat = Abt.busy then busyReply else fullReply ((parseRq origin header).response code.toNat [])]) ∧
        (localOrigin origin ≠ 1 → s.bar.up = true →
          t.bar.lane1 = s.bar.lane1 ++ [.bdpResp (localOrigin origin) ((parseRq origin header).response code.toNat [])]) ∧ t.dict = s.dict ∧ t.pers = s.pers ∧
        t.seq = s.seq ∧ t.slots = s.slots ∧ t.internal = s.internal ∧ t.field = s.field) ∧
    (s.sheaf.key.isSome = true → joined s = true → ∀ (n : Nat) (dg own : Bytes) (code : Nat), dg.length = 16 →
      (SMap.look s.sheaf.digests n = some (own, true, code) →
        (own = dg → ∃ t, exec (.sheafDigest n dg) s = .next t ∧ SMap.look t.sheaf.digests n = none ∧ (∀ w ∈ t.sheaf.awaits, ¬(w.adm = n ∧ w.kind = 0x20)) ∧
          num t 0xF000 7 = (match SMap.del s.sheaf.digests n with
            | [] => s.sheaf.lastPair
            | p :: _ => p.1 - 1) ∧ t.internal = s.internal ∧ t.slots = s.slots ∧ pairFrame s t ∧ OthersStand s t [(0xF000, 7)]) ∧
        (own ≠ dg → (∀ e ∈ s.internal, ∀ k, e ≠ .suspension k) → ∃ t, exec (.sheafDigest n dg) s = .next t ∧ t.internal = .suspension n :: s.internal ∧
          t.sheaf.digests = s.sheaf.digests ∧ t.dict = s.dict ∧ t.slots = s.slots ∧ pairFrame s t)) ∧
      (SMap.look s.sheaf.digests n = none → num s 0xF000 7 < n → ∃ t, exec (.sheafDigest n dg) s = .next t ∧ SMap.look t.sheaf.theirs n = some dg ∧
        t.dict = s.dict ∧ t.internal = s.internal ∧ t.slots = s.slots ∧ pairFrame s t)) ∧
    (∀ (n : Nat) (code : Word), ∃ t, exec (.commitAck n code) s = .next t ∧
      t.sheaf.awaits = s.sheaf.awaits.filter (fun w => !decide (w.adm = n ∧ w.kind = 0x21)) ∧ t.dict = s.dict ∧ t.internal = s.internal ∧ t.slots = s.slots ∧
      pairFrame s t) ∧
    (∀ m : VerdictMsg, s.seq.failing = false → m.code ≠ 0 → m.data = [] → (∃ w ∈ s.sheaf.awaits, w.adm = m.adm ∧ w.kind = 0x22) →
      SMap.look s.sheaf.theirs m.adm = none → (∀ x ∈ s.slots, x.adm = m.adm → x.numbered = true → ∀ i v, Act.setObj i v ∉ x.acts) → ∃ t, exec (.verdict m) s = .next t ∧
      t.sheaf.awaits = s.sheaf.awaits.filter (fun w => !decide (w.adm = m.adm ∧ w.kind = 0x22)) ∧
      (∀ x ∈ t.slots, x.adm = m.adm → x.numbered = true → x.code = m.code.toNat) ∧ t.slots.length = s.slots.length ∧
      (∀ good bad, SMap.look s.sheaf.owed m.adm = some (good, bad) → m.digests = [] → ∃ resp dg, dg = digestOf m.adm m.code.toNat bad resp ∧
        t.sheaf.out = s.sheaf.out ++ [pairMessage 0x20 (leBytes 8 m.adm ++ dg)] ∧ SMap.look t.sheaf.owed m.adm = none ∧
        (resp = none ↔ ∀ x, t.slots.find? (fun x => decide (x.adm = m.adm) && x.numbered) = some x → x.resp = none)) ∧
      t.dict = s.dict ∧ t.internal = s.internal ∧ pairFrame s t) ∧
    (∀ (m : VerdictMsg) (field bits : Nat) (r : RxRec), s.seq.failing = false → m.code = 0 → (∃ w ∈ s.sheaf.awaits, w.adm = m.adm ∧ w.kind = 0x22) → (∀ x ∈ s.slots, x.adm ≠ m.adm) →
      SMap.look s.sheaf.theirs m.adm = none → field < 65536 → bits < 4294967296 → r.payload.length < 65536 → r.epoch < 4294967296 → r.seq < 4294967296 → r.adm < 2 ^ 64 → r.time < 2 ^ 64 →
      m.data = leBytes 2 field ++ leBytes 4 bits ++ [1, 0] ++ leBytes 2 r.payload.length ++ leBytes 4 r.epoch ++ leBytes 4 r.seq ++ leBytes 8 r.adm ++
        leBytes 8 r.time ++ r.payload →
      let o := num s (0x4000 + field % 0x8000) (5 + 0x40 * (field / 0x8000))
      homeHere s o = true → localOrigin o = 1 → ∃ t, exec (.verdict m) s = .next t ∧
        SMap.at' t.sheaf.delivery field [] = SMap.at' s.sheaf.delivery field [] ++ [r] ∧ t.host.cause = s.host.cause ||| 0x80 ∧
        OthersStand s t [(0x3100, 2)] ∧ num t 0x3100 2 = num s 0x3100 2 - 1 ∧ (∃ p ∈ t.records, p.2.field = field ∧ p.2.adm = r.adm) ∧ t.pers = s.pers ∧ t.seq = s.seq ∧ t.slots = s.slots ∧ t.internal = s.internal) ∧
    (joined s = true → s.sheaf.key.isSome = true →
      (∀ (origin : Nat) (b : Bytes) (r : Rq) (d : Desc) (u : State), originCell origin = none → r = parseRq origin b → u = count (Shf.take s 0x30 (leBytes 2 origin ++ b)) 0 2 1 →
        serving s = true → homeHere s origin = false → r.svc = 1 → r.trailer = none → r.body = [] → Dict.find r.idx r.sub = (true, some d) → r.idx ≠ 0x2310 →
        d.ty ≠ .domain → d.ty ≠ .label → d.size ≤ 24 → objectChecks u (nobody r) false r.idx r.sub d none = 0 → readConflict u (nobody r) r.idx r.sub = 0 →
        ∃ t, exec (.readRelay origin b) s = .next t ∧ t.seq.adm = s.seq.adm ∧
          (∃ x ∈ t.slots, x.adm = s.seq.adm ∧ x.numbered = false ∧ x.origin = origin ∧ x.due = s.seq.time + 2 ∧ x.acts = [] ∧
            x.resp = some (r.response 0 (leBytes 2 (readBytes u (nobody r) r.idx r.sub d).length ++ readBytes u (nobody r) r.idx r.sub d))) ∧
          OthersStand s t [] ∧ t.pers = s.pers ∧ t.sessions = s.sessions) ∧
      (∀ (c : Fin 32) (b v : Bytes) (r : Rq) (d : Desc) (u : State), r = parseRq (0x100 + c.val) b → u = Shf.take s 0x30 (leBytes 2 (0x100 + c.val) ++ b) →
        serving s = true → homeHere s (0x100 + c.val) = false → Dict.find r.idx r.sub = (true, some d) → r.idx ≠ 0x2310 → d.ty ≠ .domain →
        Sys.checks u c.val false r.idx r.sub d none = 0 → readConflict u (Sys.ctx u c.val) r.idx r.sub = 0 → v = readBytes u (Sys.ctx u c.val) r.idx r.sub d →
        v.length < 65536 → ∃ t, exec (.readRelay (0x100 + c.val) b) s = .next t ∧ t.seq.adm = s.seq.adm ∧
          (∃ x ∈ t.slots, x.adm = s.seq.adm ∧ x.numbered = false ∧ x.origin = 0x100 + c.val ∧ x.due = s.seq.time + 2 ∧ x.acts = [] ∧
            x.resp = some (r.response 0 (leBytes 2 v.length ++ v))) ∧ OthersStand s t [] ∧ t.pers = s.pers ∧ t.sessions = s.sessions) ∧
      (∀ (origin : Nat) (b : Bytes), homeHere s origin = true →
        (∀ y, originCell origin = none → s.slots.find? (fun x => decide (x.origin = origin) && relayed x) = some y → ∃ t, exec (.readResult origin b) s = .next t ∧
          t.slots = s.slots.map (fun x => if x.id = y.id then { x with resp := some b } else x) ∧ t.dict = s.dict ∧ t.internal = s.internal ∧ pairFrame s t) ∧
        (∀ (c : Fin 32) (y : Slot) (addr room : Nat) (v h : Bytes), origin = 0x100 + c.val → (∀ x ∈ s.slots, x.id = y.id → x = y) →
          s.slots.find? (fun x => decide (x.origin = origin) && relayed x) = some y → y.bare = some (leBytes 4 addr ++ leBytes 4 room) → addr < 4294967296 →
          room < 4294967296 → v.length < 65536 → v.length ≤ room → h.length = 8 → b = h ++ zeros 4 ++ leBytes 2 v.length ++ v →
          ∃ t, exec (.readResult origin b) s = .next t ∧ t.slots = s.slots.map (fun x => if x.id = y.id then
            { x with bare := none, acts := [.cellRet c.val [(10, 0), (11, v.length)] [(addr, v)]] } else x) ∧ t.dict = s.dict ∧ pairFrame s t) ∧
        ((∀ x ∈ s.slots, x.origin = origin → relayed x = false) → exec (.readResult origin b) s = .next (Shf.take s 0x31 (leBytes 2 origin ++ b)))))

/-- What separates a pair (R548, R550, R551): the partition admission of either unit, numbered by the follower in its own sequence, and the suspension. The model's
readings in it: log 72 (the partition of the follower), log 116 (requests sent and not yet admitted), log 127 (reads left to the partner), log 130 (a commit that fails). -/
def Obligations.pair_separations_complete : Prop :=
  ∀ s : State,
    (∀ rest, s.internal = .partition :: rest → sequencerUp s = true → s.sheaf.key = none → s.sheaf.join = none →
      let after := fun t : State => t.seq.admTime = s.seq.time ∧ t.internal = rest ∧ t.otp = s.otp ∧ t.field = s.field ∧ t.sessions = s.sessions ∧
        (commitFails s = false → num t 0xF000 1 = 3 ∧ num t 0xF000 11 = sat32 (num s 0xF000 11) 1 ∧ num t 0xF000 8 = t.seq.adm ∧
          t.sheaf.awaits = [] ∧ t.sheaf.digests = [])
      (num s 0xF000 2 = 0 → ∃ t, exec .partitionAdmission s = .next t ∧ after t ∧ t.seq.adm = s.seq.adm + 1 ∧
        (commitFails s = false → (∀ k : Fin 2048, num t (0xC000 + k.val) 8 = s.seq.adm + 1) ∧ recordOf t 0x72 (s.seq.adm + 1) ∧
          ∀ x ∈ t.slots, relayed x = false)) ∧
      (num s 0xF000 2 = 1 → sheafOn s = true → ∃ t, exec .partitionAdmission s = .next t ∧ after t ∧
        t.seq.adm = (if 2 ^ 63 ≤ s.seq.adm then s.seq.adm + 1 else 2 ^ 63 + (s.pers.reserved + 1) * 1048576) ∧
        OthersStand s t [(0xF000, 1), (0xF000, 8), (0xF000, 11)] ∧
        (commitFails s = false → t.sheaf.apart = true ∧ t.host.away = [] ∧
          t.host.replies = s.host.replies ++ s.host.away.map (fun m => fullReply ((parseRq (pairOrigin s 1) m).response Abt.partnerAbsent []))))) ∧
    (∀ n rest, s.internal = .suspension n :: rest → Heads s → Admitting .suspensionAdmission s rest fun t =>
      t.otp = s.otp ∧ t.field = s.field ∧ t.sessions = s.sessions ∧
        OthersStand s t ([(0xF000, 1), (0xF000, 7), (0xF000, 9)] ++ [1, 2, 3, 4, 5, 6].map fun k => (0xD800, k)) ∧
        (commitFails s = false → num t 0xF000 1 = 4 ∧ num t 0xF000 9 = n ∧ recordOf t 0x71 (s.seq.adm + 1))) ∧
    (∀ n rest adm time, s.internal = .suspension n :: rest → sequencerUp s = true → num s 0xF000 2 = 1 → 0 < adm →
      s.sheaf.grant = some (adm, time, (Shf.suspensionIn n).payload) → ∃ t, exec .suspensionAdmission s = .next t ∧ t.seq.adm = adm ∧ t.seq.admTime = time ∧
        t.internal = rest ∧ t.sheaf.grant = none ∧ t.otp = s.otp ∧ t.field = s.field ∧
        (commitFails s = false → num t 0xF000 1 = 4 ∧ num t 0xF000 9 = n ∧ recordOf t 0x71 adm))
end

