-- ==== Sys2Proof/Laws/SMap.lean ====
section
/-! SUPPORT. Reading a sparse map after it changes, and the canonical form that every change keeps. -/

namespace Sys2Proof.Machine

namespace SMap

variable {α : Type}

@[simp] theorem look_nil (q : Nat) : look ([] : SMap α) q = none := rfl

theorem look_put_same (m : SMap α) (q : Nat) (v : α) : look (put m q v) q = some v := by
  induction m with
  | nil => simp [put, look]
  | cons p m ih =>
    obtain ⟨k, w⟩ := p
    unfold put
    split
    · simp [look]
    · split
      · simp [look]
      · rename_i h1 h2
        have : k ≠ q := fun h => h2 h.symm
        simp [look, this, ih]

theorem look_put_other (m : SMap α) {q r : Nat} (v : α) (h : r ≠ q) : look (put m q v) r = look m r := by
  induction m with
  | nil => simp [put, look, Ne.symm h]
  | cons p m ih =>
    obtain ⟨k, w⟩ := p
    unfold put
    split
    · simp [look, Ne.symm h]
    · split
      · rename_i h2
        subst h2
        simp [look, Ne.symm h]
      · by_cases hk : k = r <;> simp [look, hk, ih]

theorem look_put (m : SMap α) (q r : Nat) (v : α) : look (put m q v) r = if r = q then some v else look m r := by
  split
  · rename_i h; subst h; exact look_put_same m r v
  · rename_i h; exact look_put_other m v h

theorem look_del (m : SMap α) (q r : Nat) : look (del m q) r = if r = q then none else look m r := by
  induction m with
  | nil => simp [del]
  | cons p m ih =>
    obtain ⟨k, w⟩ := p
    unfold del
    by_cases hk : k = q
    · subst hk
      by_cases hr : r = k
      · subst hr; simp [ih]
      · simp [ih, look, hr, Ne.symm hr]
    · by_cases hr : r = q
      · subst hr; simp [look, hk, ih]
      · simp [look, hk, ih, hr]

theorem look_store [DecidableEq α] (m : SMap α) (q r : Nat) (v d : α) :
    look (store m q v d) r = if r = q then (if v = d then none else some v) else look m r := by
  unfold store
  split <;> simp [look_del, look_put, *]

/-- What a map reads as after a store: the default is never listed. -/
theorem at_store [DecidableEq α] (m : SMap α) (q r : Nat) (v d : α) :
    at' (store m q v d) r d = if r = q then v else at' m r d := by
  unfold at'
  rw [look_store]
  split
  · split
    · rename_i h; simp [h]
    · rfl
  · rfl

theorem at_put (m : SMap α) (q r : Nat) (v d : α) : at' (put m q v) r d = if r = q then v else at' m r d := by
  unfold at'
  rw [look_put]
  split <;> rfl

theorem at_del (m : SMap α) (q r : Nat) (d : α) : at' (del m q) r d = if r = q then d else at' m r d := by
  unfold at'
  rw [look_del]
  split <;> rfl

/-! The canonical form. -/

/-- Every key of m is above k. -/
def above (k : Nat) (m : SMap α) : Prop := ∀ p ∈ m, k < p.1

theorem wf_cons (k : Nat) (v : α) (m : SMap α) : wf ((k, v) :: m) = true ↔ above k m ∧ wf m = true := by
  induction m generalizing k v with
  | nil => simp [wf, above]
  | cons p m ih =>
    obtain ⟨l, w⟩ := p
    simp only [wf, Bool.and_eq_true, decide_eq_true_eq]
    constructor
    · intro ⟨h1, h2⟩
      refine ⟨?_, h2⟩
      intro q hq
      rcases List.mem_cons.mp hq with h | h
      · subst h; exact h1
      · exact Nat.lt_trans h1 (((ih l w).mp h2).1 q h)
    · intro ⟨h1, h2⟩
      exact ⟨h1 (l, w) (List.mem_cons_self), h2⟩

theorem above_put {k q : Nat} {m : SMap α} (v : α) (h : above k m) (hq : k < q) : above k (put m q v) := by
  induction m with
  | nil =>
    intro p hp
    simp [put] at hp
    subst hp; exact hq
  | cons p m ih =>
    obtain ⟨l, w⟩ := p
    have hl : k < l := h (l, w) (List.mem_cons_self)
    have hm : above k m := fun x hx => h x (List.mem_cons_of_mem _ hx)
    unfold put
    split
    · intro x hx
      rcases List.mem_cons.mp hx with e | e
      · subst e; exact hq
      · exact h x e
    · split
      · intro x hx
        rcases List.mem_cons.mp hx with e | e
        · subst e; exact hq
        · exact hm x e
      · intro x hx
        rcases List.mem_cons.mp hx with e | e
        · subst e; exact hl
        · exact ih hm x e

theorem above_del {k q : Nat} {m : SMap α} (h : above k m) : above k (del m q) := by
  induction m with
  | nil => simpa [del] using h
  | cons p m ih =>
    obtain ⟨l, w⟩ := p
    have hm : above k m := fun x hx => h x (List.mem_cons_of_mem _ hx)
    unfold del
    split
    · exact ih hm
    · intro x hx
      rcases List.mem_cons.mp hx with e | e
      · subst e; exact h (l, w) (List.mem_cons_self)
      · exact ih hm x e

theorem wf_put (m : SMap α) (q : Nat) (v : α) (h : wf m = true) : wf (put m q v) = true := by
  induction m with
  | nil => rfl
  | cons p m ih =>
    obtain ⟨l, w⟩ := p
    have hh := (wf_cons l w m).mp h
    unfold put
    split
    · rename_i hq
      refine (wf_cons q v _).mpr ⟨?_, h⟩
      intro x hx
      rcases List.mem_cons.mp hx with e | e
      · subst e; exact hq
      · exact Nat.lt_trans hq (hh.1 x e)
    · split
      · rename_i hq
        subst hq
        exact (wf_cons _ v m).mpr ⟨hh.1, hh.2⟩
      · rename_i h1 h2
        exact (wf_cons l w _).mpr ⟨above_put v hh.1 (by omega), ih hh.2⟩

theorem wf_del (m : SMap α) (q : Nat) (h : wf m = true) : wf (del m q) = true := by
  induction m with
  | nil => rfl
  | cons p m ih =>
    obtain ⟨l, w⟩ := p
    have hh := (wf_cons l w m).mp h
    unfold del
    split
    · exact ih hh.2
    · exact (wf_cons l w _).mpr ⟨above_del hh.1, ih hh.2⟩

theorem wf_store [DecidableEq α] (m : SMap α) (q : Nat) (v d : α) (h : wf m = true) : wf (store m q v d) = true := by
  unfold store
  split
  · exact wf_del m q h
  · exact wf_put m q v h

end SMap

end Sys2Proof.Machine
end

