-- ==== Sys2Proof/Laws/State.lean ====
section
/-! SUPPORT. What each named update of the state leaves as it was, field by field. -/

namespace Sys2Proof.Machine

@[simp] theorem updTwc_pending (s : State) (f : Twc → Twc) : (updTwc s f).pending = s.pending := rfl
@[simp] theorem updTwc_otp (s : State) (f : Twc → Twc) : (updTwc s f).otp = s.otp := rfl
@[simp] theorem updTwc_pers (s : State) (f : Twc → Twc) : (updTwc s f).pers = s.pers := rfl
@[simp] theorem updTwc_seq (s : State) (f : Twc → Twc) : (updTwc s f).seq = s.seq := rfl
@[simp] theorem updTwc_host (s : State) (f : Twc → Twc) : (updTwc s f).host = s.host := rfl
@[simp] theorem updTwc_dict (s : State) (f : Twc → Twc) : (updTwc s f).dict = s.dict := rfl
@[simp] theorem updTwc_hw (s : State) (f : Twc → Twc) : (updTwc s f).hw = s.hw := rfl
@[simp] theorem updTwc_sessions (s : State) (f : Twc → Twc) : (updTwc s f).sessions = s.sessions := rfl
@[simp] theorem updTwc_lockouts (s : State) (f : Twc → Twc) : (updTwc s f).lockouts = s.lockouts := rfl
@[simp] theorem updTwc_access (s : State) (f : Twc → Twc) : (updTwc s f).access = s.access := rfl
@[simp] theorem updTwc_transfers (s : State) (f : Twc → Twc) : (updTwc s f).transfers = s.transfers := rfl
@[simp] theorem updTwc_slots (s : State) (f : Twc → Twc) : (updTwc s f).slots = s.slots := rfl
@[simp] theorem updTwc_internal (s : State) (f : Twc → Twc) : (updTwc s f).internal = s.internal := rfl
@[simp] theorem updTwc_chans (s : State) (f : Twc → Twc) : (updTwc s f).chans = s.chans := rfl
@[simp] theorem updTwc_inflight (s : State) (f : Twc → Twc) : (updTwc s f).inflight = s.inflight := rfl
@[simp] theorem updTwc_records (s : State) (f : Twc → Twc) : (updTwc s f).records = s.records := rfl
@[simp] theorem updTwc_cores (s : State) (f : Twc → Twc) : (updTwc s f).cores = s.cores := rfl
@[simp] theorem updTwc_forced (s : State) (f : Twc → Twc) : (updTwc s f).forced = s.forced := rfl
@[simp] theorem updTwc_streams (s : State) (f : Twc → Twc) : (updTwc s f).streams = s.streams := rfl
@[simp] theorem updTwc_ples (s : State) (f : Twc → Twc) : (updTwc s f).ples = s.ples := rfl
@[simp] theorem updTwc_secrets (s : State) (f : Twc → Twc) : (updTwc s f).secrets = s.secrets := rfl
@[simp] theorem updTwc_reports (s : State) (f : Twc → Twc) : (updTwc s f).reports = s.reports := rfl
@[simp] theorem updTwc_cache (s : State) (f : Twc → Twc) : (updTwc s f).cache = s.cache := rfl
@[simp] theorem updTwc_credit (s : State) (f : Twc → Twc) : (updTwc s f).credit = s.credit := rfl
@[simp] theorem updTwc_exportRun (s : State) (f : Twc → Twc) : (updTwc s f).exportRun = s.exportRun := rfl
@[simp] theorem updTwc_entropyDown (s : State) (f : Twc → Twc) : (updTwc s f).entropyDown = s.entropyDown := rfl
@[simp] theorem updTwc_rng (s : State) (f : Twc → Twc) : (updTwc s f).rng = s.rng := rfl
@[simp] theorem updTwc_stage (s : State) (f : Twc → Twc) : (updTwc s f).stage = s.stage := rfl
@[simp] theorem updTwc_unitFaults (s : State) (f : Twc → Twc) : (updTwc s f).unitFaults = s.unitFaults := rfl
@[simp] theorem updTwc_audit (s : State) (f : Twc → Twc) : (updTwc s f).audit = s.audit := rfl
@[simp] theorem updTwc_sheaf (s : State) (f : Twc → Twc) : (updTwc s f).sheaf = s.sheaf := rfl
@[simp] theorem updTwc_power (s : State) (f : Twc → Twc) : (updTwc s f).power = s.power := rfl
@[simp] theorem updTwc_tem (s : State) (f : Twc → Twc) : (updTwc s f).tem = s.tem := rfl
@[simp] theorem updTwc_sinter (s : State) (f : Twc → Twc) : (updTwc s f).sinter = s.sinter := rfl
@[simp] theorem updTwc_boot (s : State) (f : Twc → Twc) : (updTwc s f).boot = s.boot := rfl
@[simp] theorem updTwc_bar (s : State) (f : Twc → Twc) : (updTwc s f).bar = s.bar := rfl
@[simp] theorem updTwc_field (s : State) (f : Twc → Twc) : (updTwc s f).field = s.field := rfl
@[simp] theorem updTwc_modes (s : State) (f : Twc → Twc) : (updTwc s f).modes = s.modes := rfl
@[simp] theorem updTwc_perf (s : State) (f : Twc → Twc) : (updTwc s f).perf = s.perf := rfl

@[simp] theorem updBar_pending (s : State) (f : Bar → Bar) : (updBar s f).pending = s.pending := rfl
@[simp] theorem updBar_otp (s : State) (f : Bar → Bar) : (updBar s f).otp = s.otp := rfl
@[simp] theorem updBar_pers (s : State) (f : Bar → Bar) : (updBar s f).pers = s.pers := rfl
@[simp] theorem updBar_seq (s : State) (f : Bar → Bar) : (updBar s f).seq = s.seq := rfl
@[simp] theorem updBar_host (s : State) (f : Bar → Bar) : (updBar s f).host = s.host := rfl
@[simp] theorem updBar_dict (s : State) (f : Bar → Bar) : (updBar s f).dict = s.dict := rfl
@[simp] theorem updBar_hw (s : State) (f : Bar → Bar) : (updBar s f).hw = s.hw := rfl
@[simp] theorem updBar_sessions (s : State) (f : Bar → Bar) : (updBar s f).sessions = s.sessions := rfl
@[simp] theorem updBar_lockouts (s : State) (f : Bar → Bar) : (updBar s f).lockouts = s.lockouts := rfl
@[simp] theorem updBar_access (s : State) (f : Bar → Bar) : (updBar s f).access = s.access := rfl
@[simp] theorem updBar_transfers (s : State) (f : Bar → Bar) : (updBar s f).transfers = s.transfers := rfl
@[simp] theorem updBar_slots (s : State) (f : Bar → Bar) : (updBar s f).slots = s.slots := rfl
@[simp] theorem updBar_internal (s : State) (f : Bar → Bar) : (updBar s f).internal = s.internal := rfl
@[simp] theorem updBar_chans (s : State) (f : Bar → Bar) : (updBar s f).chans = s.chans := rfl
@[simp] theorem updBar_inflight (s : State) (f : Bar → Bar) : (updBar s f).inflight = s.inflight := rfl
@[simp] theorem updBar_records (s : State) (f : Bar → Bar) : (updBar s f).records = s.records := rfl
@[simp] theorem updBar_cores (s : State) (f : Bar → Bar) : (updBar s f).cores = s.cores := rfl
@[simp] theorem updBar_forced (s : State) (f : Bar → Bar) : (updBar s f).forced = s.forced := rfl
@[simp] theorem updBar_streams (s : State) (f : Bar → Bar) : (updBar s f).streams = s.streams := rfl
@[simp] theorem updBar_ples (s : State) (f : Bar → Bar) : (updBar s f).ples = s.ples := rfl
@[simp] theorem updBar_secrets (s : State) (f : Bar → Bar) : (updBar s f).secrets = s.secrets := rfl
@[simp] theorem updBar_reports (s : State) (f : Bar → Bar) : (updBar s f).reports = s.reports := rfl
@[simp] theorem updBar_cache (s : State) (f : Bar → Bar) : (updBar s f).cache = s.cache := rfl
@[simp] theorem updBar_credit (s : State) (f : Bar → Bar) : (updBar s f).credit = s.credit := rfl
@[simp] theorem updBar_exportRun (s : State) (f : Bar → Bar) : (updBar s f).exportRun = s.exportRun := rfl
@[simp] theorem updBar_entropyDown (s : State) (f : Bar → Bar) : (updBar s f).entropyDown = s.entropyDown := rfl
@[simp] theorem updBar_rng (s : State) (f : Bar → Bar) : (updBar s f).rng = s.rng := rfl
@[simp] theorem updBar_stage (s : State) (f : Bar → Bar) : (updBar s f).stage = s.stage := rfl
@[simp] theorem updBar_unitFaults (s : State) (f : Bar → Bar) : (updBar s f).unitFaults = s.unitFaults := rfl
@[simp] theorem updBar_audit (s : State) (f : Bar → Bar) : (updBar s f).audit = s.audit := rfl
@[simp] theorem updBar_twc (s : State) (f : Bar → Bar) : (updBar s f).twc = s.twc := rfl
@[simp] theorem updBar_sheaf (s : State) (f : Bar → Bar) : (updBar s f).sheaf = s.sheaf := rfl
@[simp] theorem updBar_power (s : State) (f : Bar → Bar) : (updBar s f).power = s.power := rfl
@[simp] theorem updBar_tem (s : State) (f : Bar → Bar) : (updBar s f).tem = s.tem := rfl
@[simp] theorem updBar_sinter (s : State) (f : Bar → Bar) : (updBar s f).sinter = s.sinter := rfl
@[simp] theorem updBar_boot (s : State) (f : Bar → Bar) : (updBar s f).boot = s.boot := rfl
@[simp] theorem updBar_field (s : State) (f : Bar → Bar) : (updBar s f).field = s.field := rfl
@[simp] theorem updBar_modes (s : State) (f : Bar → Bar) : (updBar s f).modes = s.modes := rfl
@[simp] theorem updBar_perf (s : State) (f : Bar → Bar) : (updBar s f).perf = s.perf := rfl

@[simp] theorem setCell_pending (s : State) (c : Nat) (x : Cell) : (setCell s c x).pending = s.pending := rfl
@[simp] theorem setCell_otp (s : State) (c : Nat) (x : Cell) : (setCell s c x).otp = s.otp := rfl
@[simp] theorem setCell_pers (s : State) (c : Nat) (x : Cell) : (setCell s c x).pers = s.pers := rfl
@[simp] theorem setCell_seq (s : State) (c : Nat) (x : Cell) : (setCell s c x).seq = s.seq := rfl
@[simp] theorem setCell_host (s : State) (c : Nat) (x : Cell) : (setCell s c x).host = s.host := rfl
@[simp] theorem setCell_dict (s : State) (c : Nat) (x : Cell) : (setCell s c x).dict = s.dict := rfl
@[simp] theorem setCell_hw (s : State) (c : Nat) (x : Cell) : (setCell s c x).hw = s.hw := rfl
@[simp] theorem setCell_sessions (s : State) (c : Nat) (x : Cell) : (setCell s c x).sessions = s.sessions := rfl
@[simp] theorem setCell_lockouts (s : State) (c : Nat) (x : Cell) : (setCell s c x).lockouts = s.lockouts := rfl
@[simp] theorem setCell_access (s : State) (c : Nat) (x : Cell) : (setCell s c x).access = s.access := rfl
@[simp] theorem setCell_transfers (s : State) (c : Nat) (x : Cell) : (setCell s c x).transfers = s.transfers := rfl
@[simp] theorem setCell_slots (s : State) (c : Nat) (x : Cell) : (setCell s c x).slots = s.slots := rfl
@[simp] theorem setCell_internal (s : State) (c : Nat) (x : Cell) : (setCell s c x).internal = s.internal := rfl
@[simp] theorem setCell_chans (s : State) (c : Nat) (x : Cell) : (setCell s c x).chans = s.chans := rfl
@[simp] theorem setCell_inflight (s : State) (c : Nat) (x : Cell) : (setCell s c x).inflight = s.inflight := rfl
@[simp] theorem setCell_records (s : State) (c : Nat) (x : Cell) : (setCell s c x).records = s.records := rfl
@[simp] theorem setCell_cores (s : State) (c : Nat) (x : Cell) : (setCell s c x).cores = s.cores := rfl
@[simp] theorem setCell_forced (s : State) (c : Nat) (x : Cell) : (setCell s c x).forced = s.forced := rfl
@[simp] theorem setCell_streams (s : State) (c : Nat) (x : Cell) : (setCell s c x).streams = s.streams := rfl
@[simp] theorem setCell_ples (s : State) (c : Nat) (x : Cell) : (setCell s c x).ples = s.ples := rfl
@[simp] theorem setCell_secrets (s : State) (c : Nat) (x : Cell) : (setCell s c x).secrets = s.secrets := rfl
@[simp] theorem setCell_reports (s : State) (c : Nat) (x : Cell) : (setCell s c x).reports = s.reports := rfl
@[simp] theorem setCell_cache (s : State) (c : Nat) (x : Cell) : (setCell s c x).cache = s.cache := rfl
@[simp] theorem setCell_credit (s : State) (c : Nat) (x : Cell) : (setCell s c x).credit = s.credit := rfl
@[simp] theorem setCell_exportRun (s : State) (c : Nat) (x : Cell) : (setCell s c x).exportRun = s.exportRun := rfl
@[simp] theorem setCell_entropyDown (s : State) (c : Nat) (x : Cell) : (setCell s c x).entropyDown = s.entropyDown := rfl
@[simp] theorem setCell_rng (s : State) (c : Nat) (x : Cell) : (setCell s c x).rng = s.rng := rfl
@[simp] theorem setCell_stage (s : State) (c : Nat) (x : Cell) : (setCell s c x).stage = s.stage := rfl
@[simp] theorem setCell_unitFaults (s : State) (c : Nat) (x : Cell) : (setCell s c x).unitFaults = s.unitFaults := rfl
@[simp] theorem setCell_audit (s : State) (c : Nat) (x : Cell) : (setCell s c x).audit = s.audit := rfl
@[simp] theorem setCell_sheaf (s : State) (c : Nat) (x : Cell) : (setCell s c x).sheaf = s.sheaf := rfl
@[simp] theorem setCell_power (s : State) (c : Nat) (x : Cell) : (setCell s c x).power = s.power := rfl
@[simp] theorem setCell_tem (s : State) (c : Nat) (x : Cell) : (setCell s c x).tem = s.tem := rfl
@[simp] theorem setCell_sinter (s : State) (c : Nat) (x : Cell) : (setCell s c x).sinter = s.sinter := rfl
@[simp] theorem setCell_boot (s : State) (c : Nat) (x : Cell) : (setCell s c x).boot = s.boot := rfl
@[simp] theorem setCell_bar (s : State) (c : Nat) (x : Cell) : (setCell s c x).bar = s.bar := rfl
@[simp] theorem setCell_field (s : State) (c : Nat) (x : Cell) : (setCell s c x).field = s.field := rfl
@[simp] theorem setCell_modes (s : State) (c : Nat) (x : Cell) : (setCell s c x).modes = s.modes := rfl
@[simp] theorem setCell_perf (s : State) (c : Nat) (x : Cell) : (setCell s c x).perf = s.perf := rfl

@[simp] theorem pushSlot_pending (s : State) (x : Slot) : (pushSlot s x).pending = s.pending := rfl
@[simp] theorem pushSlot_otp (s : State) (x : Slot) : (pushSlot s x).otp = s.otp := rfl
@[simp] theorem pushSlot_pers (s : State) (x : Slot) : (pushSlot s x).pers = s.pers := rfl
@[simp] theorem pushSlot_host (s : State) (x : Slot) : (pushSlot s x).host = s.host := rfl
@[simp] theorem pushSlot_dict (s : State) (x : Slot) : (pushSlot s x).dict = s.dict := rfl
@[simp] theorem pushSlot_hw (s : State) (x : Slot) : (pushSlot s x).hw = s.hw := rfl
@[simp] theorem pushSlot_sessions (s : State) (x : Slot) : (pushSlot s x).sessions = s.sessions := rfl
@[simp] theorem pushSlot_lockouts (s : State) (x : Slot) : (pushSlot s x).lockouts = s.lockouts := rfl
@[simp] theorem pushSlot_access (s : State) (x : Slot) : (pushSlot s x).access = s.access := rfl
@[simp] theorem pushSlot_transfers (s : State) (x : Slot) : (pushSlot s x).transfers = s.transfers := rfl
@[simp] theorem pushSlot_internal (s : State) (x : Slot) : (pushSlot s x).internal = s.internal := rfl
@[simp] theorem pushSlot_chans (s : State) (x : Slot) : (pushSlot s x).chans = s.chans := rfl
@[simp] theorem pushSlot_inflight (s : State) (x : Slot) : (pushSlot s x).inflight = s.inflight := rfl
@[simp] theorem pushSlot_records (s : State) (x : Slot) : (pushSlot s x).records = s.records := rfl
@[simp] theorem pushSlot_cores (s : State) (x : Slot) : (pushSlot s x).cores = s.cores := rfl
@[simp] theorem pushSlot_forced (s : State) (x : Slot) : (pushSlot s x).forced = s.forced := rfl
@[simp] theorem pushSlot_streams (s : State) (x : Slot) : (pushSlot s x).streams = s.streams := rfl
@[simp] theorem pushSlot_ples (s : State) (x : Slot) : (pushSlot s x).ples = s.ples := rfl
@[simp] theorem pushSlot_secrets (s : State) (x : Slot) : (pushSlot s x).secrets = s.secrets := rfl
@[simp] theorem pushSlot_reports (s : State) (x : Slot) : (pushSlot s x).reports = s.reports := rfl
@[simp] theorem pushSlot_cache (s : State) (x : Slot) : (pushSlot s x).cache = s.cache := rfl
@[simp] theorem pushSlot_credit (s : State) (x : Slot) : (pushSlot s x).credit = s.credit := rfl
@[simp] theorem pushSlot_exportRun (s : State) (x : Slot) : (pushSlot s x).exportRun = s.exportRun := rfl
@[simp] theorem pushSlot_entropyDown (s : State) (x : Slot) : (pushSlot s x).entropyDown = s.entropyDown := rfl
@[simp] theorem pushSlot_rng (s : State) (x : Slot) : (pushSlot s x).rng = s.rng := rfl
@[simp] theorem pushSlot_stage (s : State) (x : Slot) : (pushSlot s x).stage = s.stage := rfl
@[simp] theorem pushSlot_unitFaults (s : State) (x : Slot) : (pushSlot s x).unitFaults = s.unitFaults := rfl
@[simp] theorem pushSlot_audit (s : State) (x : Slot) : (pushSlot s x).audit = s.audit := rfl
@[simp] theorem pushSlot_twc (s : State) (x : Slot) : (pushSlot s x).twc = s.twc := rfl
@[simp] theorem pushSlot_sheaf (s : State) (x : Slot) : (pushSlot s x).sheaf = s.sheaf := rfl
@[simp] theorem pushSlot_power (s : State) (x : Slot) : (pushSlot s x).power = s.power := rfl
@[simp] theorem pushSlot_tem (s : State) (x : Slot) : (pushSlot s x).tem = s.tem := rfl
@[simp] theorem pushSlot_sinter (s : State) (x : Slot) : (pushSlot s x).sinter = s.sinter := rfl
@[simp] theorem pushSlot_boot (s : State) (x : Slot) : (pushSlot s x).boot = s.boot := rfl
@[simp] theorem pushSlot_bar (s : State) (x : Slot) : (pushSlot s x).bar = s.bar := rfl
@[simp] theorem pushSlot_field (s : State) (x : Slot) : (pushSlot s x).field = s.field := rfl
@[simp] theorem pushSlot_modes (s : State) (x : Slot) : (pushSlot s x).modes = s.modes := rfl
@[simp] theorem pushSlot_perf (s : State) (x : Slot) : (pushSlot s x).perf = s.perf := rfl

@[simp] theorem pushFront_pending (s : State) (e : IntReq) : (pushFront s e).pending = s.pending := rfl
@[simp] theorem pushFront_otp (s : State) (e : IntReq) : (pushFront s e).otp = s.otp := rfl
@[simp] theorem pushFront_pers (s : State) (e : IntReq) : (pushFront s e).pers = s.pers := rfl
@[simp] theorem pushFront_seq (s : State) (e : IntReq) : (pushFront s e).seq = s.seq := rfl
@[simp] theorem pushFront_host (s : State) (e : IntReq) : (pushFront s e).host = s.host := rfl
@[simp] theorem pushFront_dict (s : State) (e : IntReq) : (pushFront s e).dict = s.dict := rfl
@[simp] theorem pushFront_hw (s : State) (e : IntReq) : (pushFront s e).hw = s.hw := rfl
@[simp] theorem pushFront_sessions (s : State) (e : IntReq) : (pushFront s e).sessions = s.sessions := rfl
@[simp] theorem pushFront_lockouts (s : State) (e : IntReq) : (pushFront s e).lockouts = s.lockouts := rfl
@[simp] theorem pushFront_access (s : State) (e : IntReq) : (pushFront s e).access = s.access := rfl
@[simp] theorem pushFront_transfers (s : State) (e : IntReq) : (pushFront s e).transfers = s.transfers := rfl
@[simp] theorem pushFront_slots (s : State) (e : IntReq) : (pushFront s e).slots = s.slots := rfl
@[simp] theorem pushFront_chans (s : State) (e : IntReq) : (pushFront s e).chans = s.chans := rfl
@[simp] theorem pushFront_inflight (s : State) (e : IntReq) : (pushFront s e).inflight = s.inflight := rfl
@[simp] theorem pushFront_records (s : State) (e : IntReq) : (pushFront s e).records = s.records := rfl
@[simp] theorem pushFront_cores (s : State) (e : IntReq) : (pushFront s e).cores = s.cores := rfl
@[simp] theorem pushFront_forced (s : State) (e : IntReq) : (pushFront s e).forced = s.forced := rfl
@[simp] theorem pushFront_streams (s : State) (e : IntReq) : (pushFront s e).streams = s.streams := rfl
@[simp] theorem pushFront_ples (s : State) (e : IntReq) : (pushFront s e).ples = s.ples := rfl
@[simp] theorem pushFront_secrets (s : State) (e : IntReq) : (pushFront s e).secrets = s.secrets := rfl
@[simp] theorem pushFront_reports (s : State) (e : IntReq) : (pushFront s e).reports = s.reports := rfl
@[simp] theorem pushFront_cache (s : State) (e : IntReq) : (pushFront s e).cache = s.cache := rfl
@[simp] theorem pushFront_credit (s : State) (e : IntReq) : (pushFront s e).credit = s.credit := rfl
@[simp] theorem pushFront_exportRun (s : State) (e : IntReq) : (pushFront s e).exportRun = s.exportRun := rfl
@[simp] theorem pushFront_entropyDown (s : State) (e : IntReq) : (pushFront s e).entropyDown = s.entropyDown := rfl
@[simp] theorem pushFront_rng (s : State) (e : IntReq) : (pushFront s e).rng = s.rng := rfl
@[simp] theorem pushFront_stage (s : State) (e : IntReq) : (pushFront s e).stage = s.stage := rfl
@[simp] theorem pushFront_unitFaults (s : State) (e : IntReq) : (pushFront s e).unitFaults = s.unitFaults := rfl
@[simp] theorem pushFront_audit (s : State) (e : IntReq) : (pushFront s e).audit = s.audit := rfl
@[simp] theorem pushFront_twc (s : State) (e : IntReq) : (pushFront s e).twc = s.twc := rfl
@[simp] theorem pushFront_sheaf (s : State) (e : IntReq) : (pushFront s e).sheaf = s.sheaf := rfl
@[simp] theorem pushFront_power (s : State) (e : IntReq) : (pushFront s e).power = s.power := rfl
@[simp] theorem pushFront_tem (s : State) (e : IntReq) : (pushFront s e).tem = s.tem := rfl
@[simp] theorem pushFront_sinter (s : State) (e : IntReq) : (pushFront s e).sinter = s.sinter := rfl
@[simp] theorem pushFront_boot (s : State) (e : IntReq) : (pushFront s e).boot = s.boot := rfl
@[simp] theorem pushFront_bar (s : State) (e : IntReq) : (pushFront s e).bar = s.bar := rfl
@[simp] theorem pushFront_field (s : State) (e : IntReq) : (pushFront s e).field = s.field := rfl
@[simp] theorem pushFront_modes (s : State) (e : IntReq) : (pushFront s e).modes = s.modes := rfl
@[simp] theorem pushFront_perf (s : State) (e : IntReq) : (pushFront s e).perf = s.perf := rfl

@[simp] theorem pushBack_pending (s : State) (e : IntReq) : (pushBack s e).pending = s.pending := rfl
@[simp] theorem pushBack_otp (s : State) (e : IntReq) : (pushBack s e).otp = s.otp := rfl
@[simp] theorem pushBack_pers (s : State) (e : IntReq) : (pushBack s e).pers = s.pers := rfl
@[simp] theorem pushBack_seq (s : State) (e : IntReq) : (pushBack s e).seq = s.seq := rfl
@[simp] theorem pushBack_host (s : State) (e : IntReq) : (pushBack s e).host = s.host := rfl
@[simp] theorem pushBack_dict (s : State) (e : IntReq) : (pushBack s e).dict = s.dict := rfl
@[simp] theorem pushBack_hw (s : State) (e : IntReq) : (pushBack s e).hw = s.hw := rfl
@[simp] theorem pushBack_sessions (s : State) (e : IntReq) : (pushBack s e).sessions = s.sessions := rfl
@[simp] theorem pushBack_lockouts (s : State) (e : IntReq) : (pushBack s e).lockouts = s.lockouts := rfl
@[simp] theorem pushBack_access (s : State) (e : IntReq) : (pushBack s e).access = s.access := rfl
@[simp] theorem pushBack_transfers (s : State) (e : IntReq) : (pushBack s e).transfers = s.transfers := rfl
@[simp] theorem pushBack_slots (s : State) (e : IntReq) : (pushBack s e).slots = s.slots := rfl
@[simp] theorem pushBack_chans (s : State) (e : IntReq) : (pushBack s e).chans = s.chans := rfl
@[simp] theorem pushBack_inflight (s : State) (e : IntReq) : (pushBack s e).inflight = s.inflight := rfl
@[simp] theorem pushBack_records (s : State) (e : IntReq) : (pushBack s e).records = s.records := rfl
@[simp] theorem pushBack_cores (s : State) (e : IntReq) : (pushBack s e).cores = s.cores := rfl
@[simp] theorem pushBack_forced (s : State) (e : IntReq) : (pushBack s e).forced = s.forced := rfl
@[simp] theorem pushBack_streams (s : State) (e : IntReq) : (pushBack s e).streams = s.streams := rfl
@[simp] theorem pushBack_ples (s : State) (e : IntReq) : (pushBack s e).ples = s.ples := rfl
@[simp] theorem pushBack_secrets (s : State) (e : IntReq) : (pushBack s e).secrets = s.secrets := rfl
@[simp] theorem pushBack_reports (s : State) (e : IntReq) : (pushBack s e).reports = s.reports := rfl
@[simp] theorem pushBack_cache (s : State) (e : IntReq) : (pushBack s e).cache = s.cache := rfl
@[simp] theorem pushBack_credit (s : State) (e : IntReq) : (pushBack s e).credit = s.credit := rfl
@[simp] theorem pushBack_exportRun (s : State) (e : IntReq) : (pushBack s e).exportRun = s.exportRun := rfl
@[simp] theorem pushBack_entropyDown (s : State) (e : IntReq) : (pushBack s e).entropyDown = s.entropyDown := rfl
@[simp] theorem pushBack_rng (s : State) (e : IntReq) : (pushBack s e).rng = s.rng := rfl
@[simp] theorem pushBack_stage (s : State) (e : IntReq) : (pushBack s e).stage = s.stage := rfl
@[simp] theorem pushBack_unitFaults (s : State) (e : IntReq) : (pushBack s e).unitFaults = s.unitFaults := rfl
@[simp] theorem pushBack_audit (s : State) (e : IntReq) : (pushBack s e).audit = s.audit := rfl
@[simp] theorem pushBack_twc (s : State) (e : IntReq) : (pushBack s e).twc = s.twc := rfl
@[simp] theorem pushBack_sheaf (s : State) (e : IntReq) : (pushBack s e).sheaf = s.sheaf := rfl
@[simp] theorem pushBack_power (s : State) (e : IntReq) : (pushBack s e).power = s.power := rfl
@[simp] theorem pushBack_tem (s : State) (e : IntReq) : (pushBack s e).tem = s.tem := rfl
@[simp] theorem pushBack_sinter (s : State) (e : IntReq) : (pushBack s e).sinter = s.sinter := rfl
@[simp] theorem pushBack_boot (s : State) (e : IntReq) : (pushBack s e).boot = s.boot := rfl
@[simp] theorem pushBack_bar (s : State) (e : IntReq) : (pushBack s e).bar = s.bar := rfl
@[simp] theorem pushBack_field (s : State) (e : IntReq) : (pushBack s e).field = s.field := rfl
@[simp] theorem pushBack_modes (s : State) (e : IntReq) : (pushBack s e).modes = s.modes := rfl
@[simp] theorem pushBack_perf (s : State) (e : IntReq) : (pushBack s e).perf = s.perf := rfl

@[simp] theorem joinReply_pending (s : State) (b : Bytes) : (joinReply s b).pending = s.pending := rfl
@[simp] theorem joinReply_otp (s : State) (b : Bytes) : (joinReply s b).otp = s.otp := rfl
@[simp] theorem joinReply_pers (s : State) (b : Bytes) : (joinReply s b).pers = s.pers := rfl
@[simp] theorem joinReply_seq (s : State) (b : Bytes) : (joinReply s b).seq = s.seq := rfl
@[simp] theorem joinReply_dict (s : State) (b : Bytes) : (joinReply s b).dict = s.dict := rfl
@[simp] theorem joinReply_hw (s : State) (b : Bytes) : (joinReply s b).hw = s.hw := rfl
@[simp] theorem joinReply_sessions (s : State) (b : Bytes) : (joinReply s b).sessions = s.sessions := rfl
@[simp] theorem joinReply_lockouts (s : State) (b : Bytes) : (joinReply s b).lockouts = s.lockouts := rfl
@[simp] theorem joinReply_access (s : State) (b : Bytes) : (joinReply s b).access = s.access := rfl
@[simp] theorem joinReply_transfers (s : State) (b : Bytes) : (joinReply s b).transfers = s.transfers := rfl
@[simp] theorem joinReply_slots (s : State) (b : Bytes) : (joinReply s b).slots = s.slots := rfl
@[simp] theorem joinReply_internal (s : State) (b : Bytes) : (joinReply s b).internal = s.internal := rfl
@[simp] theorem joinReply_chans (s : State) (b : Bytes) : (joinReply s b).chans = s.chans := rfl
@[simp] theorem joinReply_inflight (s : State) (b : Bytes) : (joinReply s b).inflight = s.inflight := rfl
@[simp] theorem joinReply_records (s : State) (b : Bytes) : (joinReply s b).records = s.records := rfl
@[simp] theorem joinReply_cores (s : State) (b : Bytes) : (joinReply s b).cores = s.cores := rfl
@[simp] theorem joinReply_forced (s : State) (b : Bytes) : (joinReply s b).forced = s.forced := rfl
@[simp] theorem joinReply_streams (s : State) (b : Bytes) : (joinReply s b).streams = s.streams := rfl
@[simp] theorem joinReply_ples (s : State) (b : Bytes) : (joinReply s b).ples = s.ples := rfl
@[simp] theorem joinReply_secrets (s : State) (b : Bytes) : (joinReply s b).secrets = s.secrets := rfl
@[simp] theorem joinReply_reports (s : State) (b : Bytes) : (joinReply s b).reports = s.reports := rfl
@[simp] theorem joinReply_cache (s : State) (b : Bytes) : (joinReply s b).cache = s.cache := rfl
@[simp] theorem joinReply_credit (s : State) (b : Bytes) : (joinReply s b).credit = s.credit := rfl
@[simp] theorem joinReply_exportRun (s : State) (b : Bytes) : (joinReply s b).exportRun = s.exportRun := rfl
@[simp] theorem joinReply_entropyDown (s : State) (b : Bytes) : (joinReply s b).entropyDown = s.entropyDown := rfl
@[simp] theorem joinReply_rng (s : State) (b : Bytes) : (joinReply s b).rng = s.rng := rfl
@[simp] theorem joinReply_stage (s : State) (b : Bytes) : (joinReply s b).stage = s.stage := rfl
@[simp] theorem joinReply_unitFaults (s : State) (b : Bytes) : (joinReply s b).unitFaults = s.unitFaults := rfl
@[simp] theorem joinReply_audit (s : State) (b : Bytes) : (joinReply s b).audit = s.audit := rfl
@[simp] theorem joinReply_twc (s : State) (b : Bytes) : (joinReply s b).twc = s.twc := rfl
@[simp] theorem joinReply_sheaf (s : State) (b : Bytes) : (joinReply s b).sheaf = s.sheaf := rfl
@[simp] theorem joinReply_power (s : State) (b : Bytes) : (joinReply s b).power = s.power := rfl
@[simp] theorem joinReply_tem (s : State) (b : Bytes) : (joinReply s b).tem = s.tem := rfl
@[simp] theorem joinReply_sinter (s : State) (b : Bytes) : (joinReply s b).sinter = s.sinter := rfl
@[simp] theorem joinReply_boot (s : State) (b : Bytes) : (joinReply s b).boot = s.boot := rfl
@[simp] theorem joinReply_bar (s : State) (b : Bytes) : (joinReply s b).bar = s.bar := rfl
@[simp] theorem joinReply_field (s : State) (b : Bytes) : (joinReply s b).field = s.field := rfl
@[simp] theorem joinReply_modes (s : State) (b : Bytes) : (joinReply s b).modes = s.modes := rfl
@[simp] theorem joinReply_perf (s : State) (b : Bytes) : (joinReply s b).perf = s.perf := rfl

@[simp] theorem touchSession_pending (s : State) (k t n : Nat) (b : Bool) : (touchSession s k t n b).pending = s.pending := rfl
@[simp] theorem touchSession_otp (s : State) (k t n : Nat) (b : Bool) : (touchSession s k t n b).otp = s.otp := rfl
@[simp] theorem touchSession_pers (s : State) (k t n : Nat) (b : Bool) : (touchSession s k t n b).pers = s.pers := rfl
@[simp] theorem touchSession_seq (s : State) (k t n : Nat) (b : Bool) : (touchSession s k t n b).seq = s.seq := rfl
@[simp] theorem touchSession_host (s : State) (k t n : Nat) (b : Bool) : (touchSession s k t n b).host = s.host := rfl
@[simp] theorem touchSession_dict (s : State) (k t n : Nat) (b : Bool) : (touchSession s k t n b).dict = s.dict := rfl
@[simp] theorem touchSession_hw (s : State) (k t n : Nat) (b : Bool) : (touchSession s k t n b).hw = s.hw := rfl
@[simp] theorem touchSession_lockouts (s : State) (k t n : Nat) (b : Bool) : (touchSession s k t n b).lockouts = s.lockouts := rfl
@[simp] theorem touchSession_access (s : State) (k t n : Nat) (b : Bool) : (touchSession s k t n b).access = s.access := rfl
@[simp] theorem touchSession_transfers (s : State) (k t n : Nat) (b : Bool) : (touchSession s k t n b).transfers = s.transfers := rfl
@[simp] theorem touchSession_slots (s : State) (k t n : Nat) (b : Bool) : (touchSession s k t n b).slots = s.slots := rfl
@[simp] theorem touchSession_internal (s : State) (k t n : Nat) (b : Bool) : (touchSession s k t n b).internal = s.internal := rfl
@[simp] theorem touchSession_chans (s : State) (k t n : Nat) (b : Bool) : (touchSession s k t n b).chans = s.chans := rfl
@[simp] theorem touchSession_inflight (s : State) (k t n : Nat) (b : Bool) : (touchSession s k t n b).inflight = s.inflight := rfl
@[simp] theorem touchSession_records (s : State) (k t n : Nat) (b : Bool) : (touchSession s k t n b).records = s.records := rfl
@[simp] theorem touchSession_cores (s : State) (k t n : Nat) (b : Bool) : (touchSession s k t n b).cores = s.cores := rfl
@[simp] theorem touchSession_forced (s : State) (k t n : Nat) (b : Bool) : (touchSession s k t n b).forced = s.forced := rfl
@[simp] theorem touchSession_streams (s : State) (k t n : Nat) (b : Bool) : (touchSession s k t n b).streams = s.streams := rfl
@[simp] theorem touchSession_ples (s : State) (k t n : Nat) (b : Bool) : (touchSession s k t n b).ples = s.ples := rfl
@[simp] theorem touchSession_secrets (s : State) (k t n : Nat) (b : Bool) : (touchSession s k t n b).secrets = s.secrets := rfl
@[simp] theorem touchSession_reports (s : State) (k t n : Nat) (b : Bool) : (touchSession s k t n b).reports = s.reports := rfl
@[simp] theorem touchSession_cache (s : State) (k t n : Nat) (b : Bool) : (touchSession s k t n b).cache = s.cache := rfl
@[simp] theorem touchSession_credit (s : State) (k t n : Nat) (b : Bool) : (touchSession s k t n b).credit = s.credit := rfl
@[simp] theorem touchSession_exportRun (s : State) (k t n : Nat) (b : Bool) : (touchSession s k t n b).exportRun = s.exportRun := rfl
@[simp] theorem touchSession_entropyDown (s : State) (k t n : Nat) (b : Bool) : (touchSession s k t n b).entropyDown = s.entropyDown := rfl
@[simp] theorem touchSession_rng (s : State) (k t n : Nat) (b : Bool) : (touchSession s k t n b).rng = s.rng := rfl
@[simp] theorem touchSession_stage (s : State) (k t n : Nat) (b : Bool) : (touchSession s k t n b).stage = s.stage := rfl
@[simp] theorem touchSession_unitFaults (s : State) (k t n : Nat) (b : Bool) : (touchSession s k t n b).unitFaults = s.unitFaults := rfl
@[simp] theorem touchSession_audit (s : State) (k t n : Nat) (b : Bool) : (touchSession s k t n b).audit = s.audit := rfl
@[simp] theorem touchSession_twc (s : State) (k t n : Nat) (b : Bool) : (touchSession s k t n b).twc = s.twc := rfl
@[simp] theorem touchSession_sheaf (s : State) (k t n : Nat) (b : Bool) : (touchSession s k t n b).sheaf = s.sheaf := rfl
@[simp] theorem touchSession_power (s : State) (k t n : Nat) (b : Bool) : (touchSession s k t n b).power = s.power := rfl
@[simp] theorem touchSession_tem (s : State) (k t n : Nat) (b : Bool) : (touchSession s k t n b).tem = s.tem := rfl
@[simp] theorem touchSession_sinter (s : State) (k t n : Nat) (b : Bool) : (touchSession s k t n b).sinter = s.sinter := rfl
@[simp] theorem touchSession_boot (s : State) (k t n : Nat) (b : Bool) : (touchSession s k t n b).boot = s.boot := rfl
@[simp] theorem touchSession_bar (s : State) (k t n : Nat) (b : Bool) : (touchSession s k t n b).bar = s.bar := rfl
@[simp] theorem touchSession_field (s : State) (k t n : Nat) (b : Bool) : (touchSession s k t n b).field = s.field := rfl
@[simp] theorem touchSession_modes (s : State) (k t n : Nat) (b : Bool) : (touchSession s k t n b).modes = s.modes := rfl
@[simp] theorem touchSession_perf (s : State) (k t n : Nat) (b : Bool) : (touchSession s k t n b).perf = s.perf := rfl

@[simp] theorem setChan_pending (s : State) (n : Nat) (c : Chan) : (setChan s n c).pending = s.pending := rfl
@[simp] theorem setChan_otp (s : State) (n : Nat) (c : Chan) : (setChan s n c).otp = s.otp := rfl
@[simp] theorem setChan_pers (s : State) (n : Nat) (c : Chan) : (setChan s n c).pers = s.pers := rfl
@[simp] theorem setChan_seq (s : State) (n : Nat) (c : Chan) : (setChan s n c).seq = s.seq := rfl
@[simp] theorem setChan_host (s : State) (n : Nat) (c : Chan) : (setChan s n c).host = s.host := rfl
@[simp] theorem setChan_dict (s : State) (n : Nat) (c : Chan) : (setChan s n c).dict = s.dict := rfl
@[simp] theorem setChan_hw (s : State) (n : Nat) (c : Chan) : (setChan s n c).hw = s.hw := rfl
@[simp] theorem setChan_sessions (s : State) (n : Nat) (c : Chan) : (setChan s n c).sessions = s.sessions := rfl
@[simp] theorem setChan_lockouts (s : State) (n : Nat) (c : Chan) : (setChan s n c).lockouts = s.lockouts := rfl
@[simp] theorem setChan_access (s : State) (n : Nat) (c : Chan) : (setChan s n c).access = s.access := rfl
@[simp] theorem setChan_transfers (s : State) (n : Nat) (c : Chan) : (setChan s n c).transfers = s.transfers := rfl
@[simp] theorem setChan_slots (s : State) (n : Nat) (c : Chan) : (setChan s n c).slots = s.slots := rfl
@[simp] theorem setChan_internal (s : State) (n : Nat) (c : Chan) : (setChan s n c).internal = s.internal := rfl
@[simp] theorem setChan_streams (s : State) (n : Nat) (c : Chan) : (setChan s n c).streams = s.streams := rfl
@[simp] theorem setChan_ples (s : State) (n : Nat) (c : Chan) : (setChan s n c).ples = s.ples := rfl
@[simp] theorem setChan_secrets (s : State) (n : Nat) (c : Chan) : (setChan s n c).secrets = s.secrets := rfl
@[simp] theorem setChan_reports (s : State) (n : Nat) (c : Chan) : (setChan s n c).reports = s.reports := rfl
@[simp] theorem setChan_cache (s : State) (n : Nat) (c : Chan) : (setChan s n c).cache = s.cache := rfl
@[simp] theorem setChan_credit (s : State) (n : Nat) (c : Chan) : (setChan s n c).credit = s.credit := rfl
@[simp] theorem setChan_exportRun (s : State) (n : Nat) (c : Chan) : (setChan s n c).exportRun = s.exportRun := rfl
@[simp] theorem setChan_entropyDown (s : State) (n : Nat) (c : Chan) : (setChan s n c).entropyDown = s.entropyDown := rfl
@[simp] theorem setChan_rng (s : State) (n : Nat) (c : Chan) : (setChan s n c).rng = s.rng := rfl
@[simp] theorem setChan_stage (s : State) (n : Nat) (c : Chan) : (setChan s n c).stage = s.stage := rfl
@[simp] theorem setChan_unitFaults (s : State) (n : Nat) (c : Chan) : (setChan s n c).unitFaults = s.unitFaults := rfl
@[simp] theorem setChan_audit (s : State) (n : Nat) (c : Chan) : (setChan s n c).audit = s.audit := rfl
@[simp] theorem setChan_twc (s : State) (n : Nat) (c : Chan) : (setChan s n c).twc = s.twc := rfl
@[simp] theorem setChan_sheaf (s : State) (n : Nat) (c : Chan) : (setChan s n c).sheaf = s.sheaf := rfl
@[simp] theorem setChan_power (s : State) (n : Nat) (c : Chan) : (setChan s n c).power = s.power := rfl
@[simp] theorem setChan_tem (s : State) (n : Nat) (c : Chan) : (setChan s n c).tem = s.tem := rfl
@[simp] theorem setChan_sinter (s : State) (n : Nat) (c : Chan) : (setChan s n c).sinter = s.sinter := rfl
@[simp] theorem setChan_boot (s : State) (n : Nat) (c : Chan) : (setChan s n c).boot = s.boot := rfl
@[simp] theorem setChan_bar (s : State) (n : Nat) (c : Chan) : (setChan s n c).bar = s.bar := rfl
@[simp] theorem setChan_field (s : State) (n : Nat) (c : Chan) : (setChan s n c).field = s.field := rfl
@[simp] theorem setChan_modes (s : State) (n : Nat) (c : Chan) : (setChan s n c).modes = s.modes := rfl
@[simp] theorem setChan_perf (s : State) (n : Nat) (c : Chan) : (setChan s n c).perf = s.perf := rfl

@[simp] theorem setStream_pending (s : State) (n : Nat) (x : Stream) : (setStream s n x).pending = s.pending := rfl
@[simp] theorem setStream_otp (s : State) (n : Nat) (x : Stream) : (setStream s n x).otp = s.otp := rfl
@[simp] theorem setStream_pers (s : State) (n : Nat) (x : Stream) : (setStream s n x).pers = s.pers := rfl
@[simp] theorem setStream_seq (s : State) (n : Nat) (x : Stream) : (setStream s n x).seq = s.seq := rfl
@[simp] theorem setStream_host (s : State) (n : Nat) (x : Stream) : (setStream s n x).host = s.host := rfl
@[simp] theorem setStream_dict (s : State) (n : Nat) (x : Stream) : (setStream s n x).dict = s.dict := rfl
@[simp] theorem setStream_hw (s : State) (n : Nat) (x : Stream) : (setStream s n x).hw = s.hw := rfl
@[simp] theorem setStream_sessions (s : State) (n : Nat) (x : Stream) : (setStream s n x).sessions = s.sessions := rfl
@[simp] theorem setStream_lockouts (s : State) (n : Nat) (x : Stream) : (setStream s n x).lockouts = s.lockouts := rfl
@[simp] theorem setStream_access (s : State) (n : Nat) (x : Stream) : (setStream s n x).access = s.access := rfl
@[simp] theorem setStream_transfers (s : State) (n : Nat) (x : Stream) : (setStream s n x).transfers = s.transfers := rfl
@[simp] theorem setStream_slots (s : State) (n : Nat) (x : Stream) : (setStream s n x).slots = s.slots := rfl
@[simp] theorem setStream_internal (s : State) (n : Nat) (x : Stream) : (setStream s n x).internal = s.internal := rfl
@[simp] theorem setStream_chans (s : State) (n : Nat) (x : Stream) : (setStream s n x).chans = s.chans := rfl
@[simp] theorem setStream_inflight (s : State) (n : Nat) (x : Stream) : (setStream s n x).inflight = s.inflight := rfl
@[simp] theorem setStream_records (s : State) (n : Nat) (x : Stream) : (setStream s n x).records = s.records := rfl
@[simp] theorem setStream_cores (s : State) (n : Nat) (x : Stream) : (setStream s n x).cores = s.cores := rfl
@[simp] theorem setStream_forced (s : State) (n : Nat) (x : Stream) : (setStream s n x).forced = s.forced := rfl
@[simp] theorem setStream_ples (s : State) (n : Nat) (x : Stream) : (setStream s n x).ples = s.ples := rfl
@[simp] theorem setStream_secrets (s : State) (n : Nat) (x : Stream) : (setStream s n x).secrets = s.secrets := rfl
@[simp] theorem setStream_reports (s : State) (n : Nat) (x : Stream) : (setStream s n x).reports = s.reports := rfl
@[simp] theorem setStream_cache (s : State) (n : Nat) (x : Stream) : (setStream s n x).cache = s.cache := rfl
@[simp] theorem setStream_credit (s : State) (n : Nat) (x : Stream) : (setStream s n x).credit = s.credit := rfl
@[simp] theorem setStream_exportRun (s : State) (n : Nat) (x : Stream) : (setStream s n x).exportRun = s.exportRun := rfl
@[simp] theorem setStream_entropyDown (s : State) (n : Nat) (x : Stream) : (setStream s n x).entropyDown = s.entropyDown := rfl
@[simp] theorem setStream_rng (s : State) (n : Nat) (x : Stream) : (setStream s n x).rng = s.rng := rfl
@[simp] theorem setStream_stage (s : State) (n : Nat) (x : Stream) : (setStream s n x).stage = s.stage := rfl
@[simp] theorem setStream_unitFaults (s : State) (n : Nat) (x : Stream) : (setStream s n x).unitFaults = s.unitFaults := rfl
@[simp] theorem setStream_audit (s : State) (n : Nat) (x : Stream) : (setStream s n x).audit = s.audit := rfl
@[simp] theorem setStream_twc (s : State) (n : Nat) (x : Stream) : (setStream s n x).twc = s.twc := rfl
@[simp] theorem setStream_sheaf (s : State) (n : Nat) (x : Stream) : (setStream s n x).sheaf = s.sheaf := rfl
@[simp] theorem setStream_power (s : State) (n : Nat) (x : Stream) : (setStream s n x).power = s.power := rfl
@[simp] theorem setStream_tem (s : State) (n : Nat) (x : Stream) : (setStream s n x).tem = s.tem := rfl
@[simp] theorem setStream_sinter (s : State) (n : Nat) (x : Stream) : (setStream s n x).sinter = s.sinter := rfl
@[simp] theorem setStream_boot (s : State) (n : Nat) (x : Stream) : (setStream s n x).boot = s.boot := rfl
@[simp] theorem setStream_bar (s : State) (n : Nat) (x : Stream) : (setStream s n x).bar = s.bar := rfl
@[simp] theorem setStream_field (s : State) (n : Nat) (x : Stream) : (setStream s n x).field = s.field := rfl
@[simp] theorem setStream_modes (s : State) (n : Nat) (x : Stream) : (setStream s n x).modes = s.modes := rfl
@[simp] theorem setStream_perf (s : State) (n : Nat) (x : Stream) : (setStream s n x).perf = s.perf := rfl

@[simp] theorem setPle_pending (s : State) (n : Nat) (x : Ple) : (setPle s n x).pending = s.pending := rfl
@[simp] theorem setPle_otp (s : State) (n : Nat) (x : Ple) : (setPle s n x).otp = s.otp := rfl
@[simp] theorem setPle_pers (s : State) (n : Nat) (x : Ple) : (setPle s n x).pers = s.pers := rfl
@[simp] theorem setPle_seq (s : State) (n : Nat) (x : Ple) : (setPle s n x).seq = s.seq := rfl
@[simp] theorem setPle_host (s : State) (n : Nat) (x : Ple) : (setPle s n x).host = s.host := rfl
@[simp] theorem setPle_dict (s : State) (n : Nat) (x : Ple) : (setPle s n x).dict = s.dict := rfl
@[simp] theorem setPle_hw (s : State) (n : Nat) (x : Ple) : (setPle s n x).hw = s.hw := rfl
@[simp] theorem setPle_sessions (s : State) (n : Nat) (x : Ple) : (setPle s n x).sessions = s.sessions := rfl
@[simp] theorem setPle_lockouts (s : State) (n : Nat) (x : Ple) : (setPle s n x).lockouts = s.lockouts := rfl
@[simp] theorem setPle_access (s : State) (n : Nat) (x : Ple) : (setPle s n x).access = s.access := rfl
@[simp] theorem setPle_transfers (s : State) (n : Nat) (x : Ple) : (setPle s n x).transfers = s.transfers := rfl
@[simp] theorem setPle_slots (s : State) (n : Nat) (x : Ple) : (setPle s n x).slots = s.slots := rfl
@[simp] theorem setPle_internal (s : State) (n : Nat) (x : Ple) : (setPle s n x).internal = s.internal := rfl
@[simp] theorem setPle_chans (s : State) (n : Nat) (x : Ple) : (setPle s n x).chans = s.chans := rfl
@[simp] theorem setPle_inflight (s : State) (n : Nat) (x : Ple) : (setPle s n x).inflight = s.inflight := rfl
@[simp] theorem setPle_records (s : State) (n : Nat) (x : Ple) : (setPle s n x).records = s.records := rfl
@[simp] theorem setPle_cores (s : State) (n : Nat) (x : Ple) : (setPle s n x).cores = s.cores := rfl
@[simp] theorem setPle_forced (s : State) (n : Nat) (x : Ple) : (setPle s n x).forced = s.forced := rfl
@[simp] theorem setPle_streams (s : State) (n : Nat) (x : Ple) : (setPle s n x).streams = s.streams := rfl
@[simp] theorem setPle_secrets (s : State) (n : Nat) (x : Ple) : (setPle s n x).secrets = s.secrets := rfl
@[simp] theorem setPle_reports (s : State) (n : Nat) (x : Ple) : (setPle s n x).reports = s.reports := rfl
@[simp] theorem setPle_cache (s : State) (n : Nat) (x : Ple) : (setPle s n x).cache = s.cache := rfl
@[simp] theorem setPle_credit (s : State) (n : Nat) (x : Ple) : (setPle s n x).credit = s.credit := rfl
@[simp] theorem setPle_exportRun (s : State) (n : Nat) (x : Ple) : (setPle s n x).exportRun = s.exportRun := rfl
@[simp] theorem setPle_entropyDown (s : State) (n : Nat) (x : Ple) : (setPle s n x).entropyDown = s.entropyDown := rfl
@[simp] theorem setPle_rng (s : State) (n : Nat) (x : Ple) : (setPle s n x).rng = s.rng := rfl
@[simp] theorem setPle_stage (s : State) (n : Nat) (x : Ple) : (setPle s n x).stage = s.stage := rfl
@[simp] theorem setPle_unitFaults (s : State) (n : Nat) (x : Ple) : (setPle s n x).unitFaults = s.unitFaults := rfl
@[simp] theorem setPle_audit (s : State) (n : Nat) (x : Ple) : (setPle s n x).audit = s.audit := rfl
@[simp] theorem setPle_twc (s : State) (n : Nat) (x : Ple) : (setPle s n x).twc = s.twc := rfl
@[simp] theorem setPle_sheaf (s : State) (n : Nat) (x : Ple) : (setPle s n x).sheaf = s.sheaf := rfl
@[simp] theorem setPle_power (s : State) (n : Nat) (x : Ple) : (setPle s n x).power = s.power := rfl
@[simp] theorem setPle_tem (s : State) (n : Nat) (x : Ple) : (setPle s n x).tem = s.tem := rfl
@[simp] theorem setPle_sinter (s : State) (n : Nat) (x : Ple) : (setPle s n x).sinter = s.sinter := rfl
@[simp] theorem setPle_boot (s : State) (n : Nat) (x : Ple) : (setPle s n x).boot = s.boot := rfl
@[simp] theorem setPle_bar (s : State) (n : Nat) (x : Ple) : (setPle s n x).bar = s.bar := rfl
@[simp] theorem setPle_field (s : State) (n : Nat) (x : Ple) : (setPle s n x).field = s.field := rfl
@[simp] theorem setPle_modes (s : State) (n : Nat) (x : Ple) : (setPle s n x).modes = s.modes := rfl
@[simp] theorem setPle_perf (s : State) (n : Nat) (x : Ple) : (setPle s n x).perf = s.perf := rfl

@[simp] theorem incHw_pending (s : State) (i k n : Nat) : (incHw s i k n).pending = s.pending := rfl
@[simp] theorem incHw_otp (s : State) (i k n : Nat) : (incHw s i k n).otp = s.otp := rfl
@[simp] theorem incHw_pers (s : State) (i k n : Nat) : (incHw s i k n).pers = s.pers := rfl
@[simp] theorem incHw_seq (s : State) (i k n : Nat) : (incHw s i k n).seq = s.seq := rfl
@[simp] theorem incHw_host (s : State) (i k n : Nat) : (incHw s i k n).host = s.host := rfl
@[simp] theorem incHw_dict (s : State) (i k n : Nat) : (incHw s i k n).dict = s.dict := rfl
@[simp] theorem incHw_sessions (s : State) (i k n : Nat) : (incHw s i k n).sessions = s.sessions := rfl
@[simp] theorem incHw_lockouts (s : State) (i k n : Nat) : (incHw s i k n).lockouts = s.lockouts := rfl
@[simp] theorem incHw_access (s : State) (i k n : Nat) : (incHw s i k n).access = s.access := rfl
@[simp] theorem incHw_transfers (s : State) (i k n : Nat) : (incHw s i k n).transfers = s.transfers := rfl
@[simp] theorem incHw_slots (s : State) (i k n : Nat) : (incHw s i k n).slots = s.slots := rfl
@[simp] theorem incHw_internal (s : State) (i k n : Nat) : (incHw s i k n).internal = s.internal := rfl
@[simp] theorem incHw_chans (s : State) (i k n : Nat) : (incHw s i k n).chans = s.chans := rfl
@[simp] theorem incHw_inflight (s : State) (i k n : Nat) : (incHw s i k n).inflight = s.inflight := rfl
@[simp] theorem incHw_records (s : State) (i k n : Nat) : (incHw s i k n).records = s.records := rfl
@[simp] theorem incHw_cores (s : State) (i k n : Nat) : (incHw s i k n).cores = s.cores := rfl
@[simp] theorem incHw_forced (s : State) (i k n : Nat) : (incHw s i k n).forced = s.forced := rfl
@[simp] theorem incHw_streams (s : State) (i k n : Nat) : (incHw s i k n).streams = s.streams := rfl
@[simp] theorem incHw_ples (s : State) (i k n : Nat) : (incHw s i k n).ples = s.ples := rfl
@[simp] theorem incHw_secrets (s : State) (i k n : Nat) : (incHw s i k n).secrets = s.secrets := rfl
@[simp] theorem incHw_reports (s : State) (i k n : Nat) : (incHw s i k n).reports = s.reports := rfl
@[simp] theorem incHw_cache (s : State) (i k n : Nat) : (incHw s i k n).cache = s.cache := rfl
@[simp] theorem incHw_credit (s : State) (i k n : Nat) : (incHw s i k n).credit = s.credit := rfl
@[simp] theorem incHw_exportRun (s : State) (i k n : Nat) : (incHw s i k n).exportRun = s.exportRun := rfl
@[simp] theorem incHw_entropyDown (s : State) (i k n : Nat) : (incHw s i k n).entropyDown = s.entropyDown := rfl
@[simp] theorem incHw_rng (s : State) (i k n : Nat) : (incHw s i k n).rng = s.rng := rfl
@[simp] theorem incHw_stage (s : State) (i k n : Nat) : (incHw s i k n).stage = s.stage := rfl
@[simp] theorem incHw_unitFaults (s : State) (i k n : Nat) : (incHw s i k n).unitFaults = s.unitFaults := rfl
@[simp] theorem incHw_audit (s : State) (i k n : Nat) : (incHw s i k n).audit = s.audit := rfl
@[simp] theorem incHw_twc (s : State) (i k n : Nat) : (incHw s i k n).twc = s.twc := rfl
@[simp] theorem incHw_sheaf (s : State) (i k n : Nat) : (incHw s i k n).sheaf = s.sheaf := rfl
@[simp] theorem incHw_power (s : State) (i k n : Nat) : (incHw s i k n).power = s.power := rfl
@[simp] theorem incHw_tem (s : State) (i k n : Nat) : (incHw s i k n).tem = s.tem := rfl
@[simp] theorem incHw_sinter (s : State) (i k n : Nat) : (incHw s i k n).sinter = s.sinter := rfl
@[simp] theorem incHw_boot (s : State) (i k n : Nat) : (incHw s i k n).boot = s.boot := rfl
@[simp] theorem incHw_bar (s : State) (i k n : Nat) : (incHw s i k n).bar = s.bar := rfl
@[simp] theorem incHw_field (s : State) (i k n : Nat) : (incHw s i k n).field = s.field := rfl
@[simp] theorem incHw_modes (s : State) (i k n : Nat) : (incHw s i k n).modes = s.modes := rfl
@[simp] theorem incHw_perf (s : State) (i k n : Nat) : (incHw s i k n).perf = s.perf := rfl

@[simp] theorem sheafQueue_pending (s : State) (n : Nat) (b : Bytes) : (sheafQueue s n b).pending = s.pending := rfl
@[simp] theorem sheafQueue_otp (s : State) (n : Nat) (b : Bytes) : (sheafQueue s n b).otp = s.otp := rfl
@[simp] theorem sheafQueue_pers (s : State) (n : Nat) (b : Bytes) : (sheafQueue s n b).pers = s.pers := rfl
@[simp] theorem sheafQueue_seq (s : State) (n : Nat) (b : Bytes) : (sheafQueue s n b).seq = s.seq := rfl
@[simp] theorem sheafQueue_host (s : State) (n : Nat) (b : Bytes) : (sheafQueue s n b).host = s.host := rfl
@[simp] theorem sheafQueue_dict (s : State) (n : Nat) (b : Bytes) : (sheafQueue s n b).dict = s.dict := rfl
@[simp] theorem sheafQueue_hw (s : State) (n : Nat) (b : Bytes) : (sheafQueue s n b).hw = s.hw := rfl
@[simp] theorem sheafQueue_sessions (s : State) (n : Nat) (b : Bytes) : (sheafQueue s n b).sessions = s.sessions := rfl
@[simp] theorem sheafQueue_lockouts (s : State) (n : Nat) (b : Bytes) : (sheafQueue s n b).lockouts = s.lockouts := rfl
@[simp] theorem sheafQueue_access (s : State) (n : Nat) (b : Bytes) : (sheafQueue s n b).access = s.access := rfl
@[simp] theorem sheafQueue_transfers (s : State) (n : Nat) (b : Bytes) : (sheafQueue s n b).transfers = s.transfers := rfl
@[simp] theorem sheafQueue_slots (s : State) (n : Nat) (b : Bytes) : (sheafQueue s n b).slots = s.slots := rfl
@[simp] theorem sheafQueue_internal (s : State) (n : Nat) (b : Bytes) : (sheafQueue s n b).internal = s.internal := rfl
@[simp] theorem sheafQueue_chans (s : State) (n : Nat) (b : Bytes) : (sheafQueue s n b).chans = s.chans := rfl
@[simp] theorem sheafQueue_inflight (s : State) (n : Nat) (b : Bytes) : (sheafQueue s n b).inflight = s.inflight := rfl
@[simp] theorem sheafQueue_records (s : State) (n : Nat) (b : Bytes) : (sheafQueue s n b).records = s.records := rfl
@[simp] theorem sheafQueue_cores (s : State) (n : Nat) (b : Bytes) : (sheafQueue s n b).cores = s.cores := rfl
@[simp] theorem sheafQueue_forced (s : State) (n : Nat) (b : Bytes) : (sheafQueue s n b).forced = s.forced := rfl
@[simp] theorem sheafQueue_streams (s : State) (n : Nat) (b : Bytes) : (sheafQueue s n b).streams = s.streams := rfl
@[simp] theorem sheafQueue_ples (s : State) (n : Nat) (b : Bytes) : (sheafQueue s n b).ples = s.ples := rfl
@[simp] theorem sheafQueue_secrets (s : State) (n : Nat) (b : Bytes) : (sheafQueue s n b).secrets = s.secrets := rfl
@[simp] theorem sheafQueue_reports (s : State) (n : Nat) (b : Bytes) : (sheafQueue s n b).reports = s.reports := rfl
@[simp] theorem sheafQueue_cache (s : State) (n : Nat) (b : Bytes) : (sheafQueue s n b).cache = s.cache := rfl
@[simp] theorem sheafQueue_credit (s : State) (n : Nat) (b : Bytes) : (sheafQueue s n b).credit = s.credit := rfl
@[simp] theorem sheafQueue_exportRun (s : State) (n : Nat) (b : Bytes) : (sheafQueue s n b).exportRun = s.exportRun := rfl
@[simp] theorem sheafQueue_entropyDown (s : State) (n : Nat) (b : Bytes) : (sheafQueue s n b).entropyDown = s.entropyDown := rfl
@[simp] theorem sheafQueue_rng (s : State) (n : Nat) (b : Bytes) : (sheafQueue s n b).rng = s.rng := rfl
@[simp] theorem sheafQueue_stage (s : State) (n : Nat) (b : Bytes) : (sheafQueue s n b).stage = s.stage := rfl
@[simp] theorem sheafQueue_unitFaults (s : State) (n : Nat) (b : Bytes) : (sheafQueue s n b).unitFaults = s.unitFaults := rfl
@[simp] theorem sheafQueue_audit (s : State) (n : Nat) (b : Bytes) : (sheafQueue s n b).audit = s.audit := rfl
@[simp] theorem sheafQueue_twc (s : State) (n : Nat) (b : Bytes) : (sheafQueue s n b).twc = s.twc := rfl
@[simp] theorem sheafQueue_power (s : State) (n : Nat) (b : Bytes) : (sheafQueue s n b).power = s.power := rfl
@[simp] theorem sheafQueue_tem (s : State) (n : Nat) (b : Bytes) : (sheafQueue s n b).tem = s.tem := rfl
@[simp] theorem sheafQueue_sinter (s : State) (n : Nat) (b : Bytes) : (sheafQueue s n b).sinter = s.sinter := rfl
@[simp] theorem sheafQueue_boot (s : State) (n : Nat) (b : Bytes) : (sheafQueue s n b).boot = s.boot := rfl
@[simp] theorem sheafQueue_bar (s : State) (n : Nat) (b : Bytes) : (sheafQueue s n b).bar = s.bar := rfl
@[simp] theorem sheafQueue_field (s : State) (n : Nat) (b : Bytes) : (sheafQueue s n b).field = s.field := rfl
@[simp] theorem sheafQueue_modes (s : State) (n : Nat) (b : Bytes) : (sheafQueue s n b).modes = s.modes := rfl
@[simp] theorem sheafQueue_perf (s : State) (n : Nat) (b : Bytes) : (sheafQueue s n b).perf = s.perf := rfl

@[simp] theorem setObj_pending (s : State) (i k : Nat) (v : Val) : (setObj s i k v).pending = s.pending := by
  unfold setObj; split <;> [rfl; (split <;> rfl)]
@[simp] theorem setObj_otp (s : State) (i k : Nat) (v : Val) : (setObj s i k v).otp = s.otp := by
  unfold setObj; split <;> [rfl; (split <;> rfl)]
@[simp] theorem setObj_seq (s : State) (i k : Nat) (v : Val) : (setObj s i k v).seq = s.seq := by
  unfold setObj; split <;> [rfl; (split <;> rfl)]
@[simp] theorem setObj_host (s : State) (i k : Nat) (v : Val) : (setObj s i k v).host = s.host := by
  unfold setObj; split <;> [rfl; (split <;> rfl)]
@[simp] theorem setObj_hw (s : State) (i k : Nat) (v : Val) : (setObj s i k v).hw = s.hw := by
  unfold setObj; split <;> [rfl; (split <;> rfl)]
@[simp] theorem setObj_sessions (s : State) (i k : Nat) (v : Val) : (setObj s i k v).sessions = s.sessions := by
  unfold setObj; split <;> [rfl; (split <;> rfl)]
@[simp] theorem setObj_lockouts (s : State) (i k : Nat) (v : Val) : (setObj s i k v).lockouts = s.lockouts := by
  unfold setObj; split <;> [rfl; (split <;> rfl)]
@[simp] theorem setObj_access (s : State) (i k : Nat) (v : Val) : (setObj s i k v).access = s.access := by
  unfold setObj; split <;> [rfl; (split <;> rfl)]
@[simp] theorem setObj_transfers (s : State) (i k : Nat) (v : Val) : (setObj s i k v).transfers = s.transfers := by
  unfold setObj; split <;> [rfl; (split <;> rfl)]
@[simp] theorem setObj_slots (s : State) (i k : Nat) (v : Val) : (setObj s i k v).slots = s.slots := by
  unfold setObj; split <;> [rfl; (split <;> rfl)]
@[simp] theorem setObj_internal (s : State) (i k : Nat) (v : Val) : (setObj s i k v).internal = s.internal := by
  unfold setObj; split <;> [rfl; (split <;> rfl)]
@[simp] theorem setObj_chans (s : State) (i k : Nat) (v : Val) : (setObj s i k v).chans = s.chans := by
  unfold setObj; split <;> [rfl; (split <;> rfl)]
@[simp] theorem setObj_inflight (s : State) (i k : Nat) (v : Val) : (setObj s i k v).inflight = s.inflight := by
  unfold setObj; split <;> [rfl; (split <;> rfl)]
@[simp] theorem setObj_records (s : State) (i k : Nat) (v : Val) : (setObj s i k v).records = s.records := by
  unfold setObj; split <;> [rfl; (split <;> rfl)]
@[simp] theorem setObj_cores (s : State) (i k : Nat) (v : Val) : (setObj s i k v).cores = s.cores := by
  unfold setObj; split <;> [rfl; (split <;> rfl)]
@[simp] theorem setObj_forced (s : State) (i k : Nat) (v : Val) : (setObj s i k v).forced = s.forced := by
  unfold setObj; split <;> [rfl; (split <;> rfl)]
@[simp] theorem setObj_streams (s : State) (i k : Nat) (v : Val) : (setObj s i k v).streams = s.streams := by
  unfold setObj; split <;> [rfl; (split <;> rfl)]
@[simp] theorem setObj_ples (s : State) (i k : Nat) (v : Val) : (setObj s i k v).ples = s.ples := by
  unfold setObj; split <;> [rfl; (split <;> rfl)]
@[simp] theorem setObj_secrets (s : State) (i k : Nat) (v : Val) : (setObj s i k v).secrets = s.secrets := by
  unfold setObj; split <;> [rfl; (split <;> rfl)]
@[simp] theorem setObj_reports (s : State) (i k : Nat) (v : Val) : (setObj s i k v).reports = s.reports := by
  unfold setObj; split <;> [rfl; (split <;> rfl)]
@[simp] theorem setObj_cache (s : State) (i k : Nat) (v : Val) : (setObj s i k v).cache = s.cache := by
  unfold setObj; split <;> [rfl; (split <;> rfl)]
@[simp] theorem setObj_credit (s : State) (i k : Nat) (v : Val) : (setObj s i k v).credit = s.credit := by
  unfold setObj; split <;> [rfl; (split <;> rfl)]
@[simp] theorem setObj_exportRun (s : State) (i k : Nat) (v : Val) : (setObj s i k v).exportRun = s.exportRun := by
  unfold setObj; split <;> [rfl; (split <;> rfl)]
@[simp] theorem setObj_entropyDown (s : State) (i k : Nat) (v : Val) : (setObj s i k v).entropyDown = s.entropyDown := by
  unfold setObj; split <;> [rfl; (split <;> rfl)]
@[simp] theorem setObj_rng (s : State) (i k : Nat) (v : Val) : (setObj s i k v).rng = s.rng := by
  unfold setObj; split <;> [rfl; (split <;> rfl)]
@[simp] theorem setObj_stage (s : State) (i k : Nat) (v : Val) : (setObj s i k v).stage = s.stage := by
  unfold setObj; split <;> [rfl; (split <;> rfl)]
@[simp] theorem setObj_unitFaults (s : State) (i k : Nat) (v : Val) : (setObj s i k v).unitFaults = s.unitFaults := by
  unfold setObj; split <;> [rfl; (split <;> rfl)]
@[simp] theorem setObj_audit (s : State) (i k : Nat) (v : Val) : (setObj s i k v).audit = s.audit := by
  unfold setObj; split <;> [rfl; (split <;> rfl)]
@[simp] theorem setObj_twc (s : State) (i k : Nat) (v : Val) : (setObj s i k v).twc = s.twc := by
  unfold setObj; split <;> [rfl; (split <;> rfl)]
@[simp] theorem setObj_sheaf (s : State) (i k : Nat) (v : Val) : (setObj s i k v).sheaf = s.sheaf := by
  unfold setObj; split <;> [rfl; (split <;> rfl)]
@[simp] theorem setObj_power (s : State) (i k : Nat) (v : Val) : (setObj s i k v).power = s.power := by
  unfold setObj; split <;> [rfl; (split <;> rfl)]
@[simp] theorem setObj_tem (s : State) (i k : Nat) (v : Val) : (setObj s i k v).tem = s.tem := by
  unfold setObj; split <;> [rfl; (split <;> rfl)]
@[simp] theorem setObj_sinter (s : State) (i k : Nat) (v : Val) : (setObj s i k v).sinter = s.sinter := by
  unfold setObj; split <;> [rfl; (split <;> rfl)]
@[simp] theorem setObj_boot (s : State) (i k : Nat) (v : Val) : (setObj s i k v).boot = s.boot := by
  unfold setObj; split <;> [rfl; (split <;> rfl)]
@[simp] theorem setObj_bar (s : State) (i k : Nat) (v : Val) : (setObj s i k v).bar = s.bar := by
  unfold setObj; split <;> [rfl; (split <;> rfl)]
@[simp] theorem setObj_field (s : State) (i k : Nat) (v : Val) : (setObj s i k v).field = s.field := by
  unfold setObj; split <;> [rfl; (split <;> rfl)]
@[simp] theorem setObj_modes (s : State) (i k : Nat) (v : Val) : (setObj s i k v).modes = s.modes := by
  unfold setObj; split <;> [rfl; (split <;> rfl)]
@[simp] theorem setObj_perf (s : State) (i k : Nat) (v : Val) : (setObj s i k v).perf = s.perf := by
  unfold setObj; split <;> [rfl; (split <;> rfl)]

@[simp] theorem setNum_pending (s : State) (i k n : Nat) : (setNum s i k n).pending = s.pending := setObj_pending s i k _
@[simp] theorem setNum_otp (s : State) (i k n : Nat) : (setNum s i k n).otp = s.otp := setObj_otp s i k _
@[simp] theorem setNum_seq (s : State) (i k n : Nat) : (setNum s i k n).seq = s.seq := setObj_seq s i k _
@[simp] theorem setNum_host (s : State) (i k n : Nat) : (setNum s i k n).host = s.host := setObj_host s i k _
@[simp] theorem setNum_hw (s : State) (i k n : Nat) : (setNum s i k n).hw = s.hw := setObj_hw s i k _
@[simp] theorem setNum_sessions (s : State) (i k n : Nat) : (setNum s i k n).sessions = s.sessions := setObj_sessions s i k _
@[simp] theorem setNum_lockouts (s : State) (i k n : Nat) : (setNum s i k n).lockouts = s.lockouts := setObj_lockouts s i k _
@[simp] theorem setNum_access (s : State) (i k n : Nat) : (setNum s i k n).access = s.access := setObj_access s i k _
@[simp] theorem setNum_transfers (s : State) (i k n : Nat) : (setNum s i k n).transfers = s.transfers := setObj_transfers s i k _
@[simp] theorem setNum_slots (s : State) (i k n : Nat) : (setNum s i k n).slots = s.slots := setObj_slots s i k _
@[simp] theorem setNum_internal (s : State) (i k n : Nat) : (setNum s i k n).internal = s.internal := setObj_internal s i k _
@[simp] theorem setNum_chans (s : State) (i k n : Nat) : (setNum s i k n).chans = s.chans := setObj_chans s i k _
@[simp] theorem setNum_inflight (s : State) (i k n : Nat) : (setNum s i k n).inflight = s.inflight := setObj_inflight s i k _
@[simp] theorem setNum_records (s : State) (i k n : Nat) : (setNum s i k n).records = s.records := setObj_records s i k _
@[simp] theorem setNum_cores (s : State) (i k n : Nat) : (setNum s i k n).cores = s.cores := setObj_cores s i k _
@[simp] theorem setNum_forced (s : State) (i k n : Nat) : (setNum s i k n).forced = s.forced := setObj_forced s i k _
@[simp] theorem setNum_streams (s : State) (i k n : Nat) : (setNum s i k n).streams = s.streams := setObj_streams s i k _
@[simp] theorem setNum_ples (s : State) (i k n : Nat) : (setNum s i k n).ples = s.ples := setObj_ples s i k _
@[simp] theorem setNum_secrets (s : State) (i k n : Nat) : (setNum s i k n).secrets = s.secrets := setObj_secrets s i k _
@[simp] theorem setNum_reports (s : State) (i k n : Nat) : (setNum s i k n).reports = s.reports := setObj_reports s i k _
@[simp] theorem setNum_cache (s : State) (i k n : Nat) : (setNum s i k n).cache = s.cache := setObj_cache s i k _
@[simp] theorem setNum_credit (s : State) (i k n : Nat) : (setNum s i k n).credit = s.credit := setObj_credit s i k _
@[simp] theorem setNum_exportRun (s : State) (i k n : Nat) : (setNum s i k n).exportRun = s.exportRun := setObj_exportRun s i k _
@[simp] theorem setNum_entropyDown (s : State) (i k n : Nat) : (setNum s i k n).entropyDown = s.entropyDown := setObj_entropyDown s i k _
@[simp] theorem setNum_rng (s : State) (i k n : Nat) : (setNum s i k n).rng = s.rng := setObj_rng s i k _
@[simp] theorem setNum_stage (s : State) (i k n : Nat) : (setNum s i k n).stage = s.stage := setObj_stage s i k _
@[simp] theorem setNum_unitFaults (s : State) (i k n : Nat) : (setNum s i k n).unitFaults = s.unitFaults := setObj_unitFaults s i k _
@[simp] theorem setNum_audit (s : State) (i k n : Nat) : (setNum s i k n).audit = s.audit := setObj_audit s i k _
@[simp] theorem setNum_twc (s : State) (i k n : Nat) : (setNum s i k n).twc = s.twc := setObj_twc s i k _
@[simp] theorem setNum_sheaf (s : State) (i k n : Nat) : (setNum s i k n).sheaf = s.sheaf := setObj_sheaf s i k _
@[simp] theorem setNum_power (s : State) (i k n : Nat) : (setNum s i k n).power = s.power := setObj_power s i k _
@[simp] theorem setNum_tem (s : State) (i k n : Nat) : (setNum s i k n).tem = s.tem := setObj_tem s i k _
@[simp] theorem setNum_sinter (s : State) (i k n : Nat) : (setNum s i k n).sinter = s.sinter := setObj_sinter s i k _
@[simp] theorem setNum_boot (s : State) (i k n : Nat) : (setNum s i k n).boot = s.boot := setObj_boot s i k _
@[simp] theorem setNum_bar (s : State) (i k n : Nat) : (setNum s i k n).bar = s.bar := setObj_bar s i k _
@[simp] theorem setNum_field (s : State) (i k n : Nat) : (setNum s i k n).field = s.field := setObj_field s i k _
@[simp] theorem setNum_modes (s : State) (i k n : Nat) : (setNum s i k n).modes = s.modes := setObj_modes s i k _
@[simp] theorem setNum_perf (s : State) (i k n : Nat) : (setNum s i k n).perf = s.perf := setObj_perf s i k _

@[simp] theorem incObj_pending (s : State) (i k : Nat) : (incObj s i k).pending = s.pending := setObj_pending s i k _
@[simp] theorem incObj_otp (s : State) (i k : Nat) : (incObj s i k).otp = s.otp := setObj_otp s i k _
@[simp] theorem incObj_seq (s : State) (i k : Nat) : (incObj s i k).seq = s.seq := setObj_seq s i k _
@[simp] theorem incObj_host (s : State) (i k : Nat) : (incObj s i k).host = s.host := setObj_host s i k _
@[simp] theorem incObj_hw (s : State) (i k : Nat) : (incObj s i k).hw = s.hw := setObj_hw s i k _
@[simp] theorem incObj_sessions (s : State) (i k : Nat) : (incObj s i k).sessions = s.sessions := setObj_sessions s i k _
@[simp] theorem incObj_lockouts (s : State) (i k : Nat) : (incObj s i k).lockouts = s.lockouts := setObj_lockouts s i k _
@[simp] theorem incObj_access (s : State) (i k : Nat) : (incObj s i k).access = s.access := setObj_access s i k _
@[simp] theorem incObj_transfers (s : State) (i k : Nat) : (incObj s i k).transfers = s.transfers := setObj_transfers s i k _
@[simp] theorem incObj_slots (s : State) (i k : Nat) : (incObj s i k).slots = s.slots := setObj_slots s i k _
@[simp] theorem incObj_internal (s : State) (i k : Nat) : (incObj s i k).internal = s.internal := setObj_internal s i k _
@[simp] theorem incObj_chans (s : State) (i k : Nat) : (incObj s i k).chans = s.chans := setObj_chans s i k _
@[simp] theorem incObj_inflight (s : State) (i k : Nat) : (incObj s i k).inflight = s.inflight := setObj_inflight s i k _
@[simp] theorem incObj_records (s : State) (i k : Nat) : (incObj s i k).records = s.records := setObj_records s i k _
@[simp] theorem incObj_cores (s : State) (i k : Nat) : (incObj s i k).cores = s.cores := setObj_cores s i k _
@[simp] theorem incObj_forced (s : State) (i k : Nat) : (incObj s i k).forced = s.forced := setObj_forced s i k _
@[simp] theorem incObj_streams (s : State) (i k : Nat) : (incObj s i k).streams = s.streams := setObj_streams s i k _
@[simp] theorem incObj_ples (s : State) (i k : Nat) : (incObj s i k).ples = s.ples := setObj_ples s i k _
@[simp] theorem incObj_secrets (s : State) (i k : Nat) : (incObj s i k).secrets = s.secrets := setObj_secrets s i k _
@[simp] theorem incObj_reports (s : State) (i k : Nat) : (incObj s i k).reports = s.reports := setObj_reports s i k _
@[simp] theorem incObj_cache (s : State) (i k : Nat) : (incObj s i k).cache = s.cache := setObj_cache s i k _
@[simp] theorem incObj_credit (s : State) (i k : Nat) : (incObj s i k).credit = s.credit := setObj_credit s i k _
@[simp] theorem incObj_exportRun (s : State) (i k : Nat) : (incObj s i k).exportRun = s.exportRun := setObj_exportRun s i k _
@[simp] theorem incObj_entropyDown (s : State) (i k : Nat) : (incObj s i k).entropyDown = s.entropyDown := setObj_entropyDown s i k _
@[simp] theorem incObj_rng (s : State) (i k : Nat) : (incObj s i k).rng = s.rng := setObj_rng s i k _
@[simp] theorem incObj_stage (s : State) (i k : Nat) : (incObj s i k).stage = s.stage := setObj_stage s i k _
@[simp] theorem incObj_unitFaults (s : State) (i k : Nat) : (incObj s i k).unitFaults = s.unitFaults := setObj_unitFaults s i k _
@[simp] theorem incObj_audit (s : State) (i k : Nat) : (incObj s i k).audit = s.audit := setObj_audit s i k _
@[simp] theorem incObj_twc (s : State) (i k : Nat) : (incObj s i k).twc = s.twc := setObj_twc s i k _
@[simp] theorem incObj_sheaf (s : State) (i k : Nat) : (incObj s i k).sheaf = s.sheaf := setObj_sheaf s i k _
@[simp] theorem incObj_power (s : State) (i k : Nat) : (incObj s i k).power = s.power := setObj_power s i k _
@[simp] theorem incObj_tem (s : State) (i k : Nat) : (incObj s i k).tem = s.tem := setObj_tem s i k _
@[simp] theorem incObj_sinter (s : State) (i k : Nat) : (incObj s i k).sinter = s.sinter := setObj_sinter s i k _
@[simp] theorem incObj_boot (s : State) (i k : Nat) : (incObj s i k).boot = s.boot := setObj_boot s i k _
@[simp] theorem incObj_bar (s : State) (i k : Nat) : (incObj s i k).bar = s.bar := setObj_bar s i k _
@[simp] theorem incObj_field (s : State) (i k : Nat) : (incObj s i k).field = s.field := setObj_field s i k _
@[simp] theorem incObj_modes (s : State) (i k : Nat) : (incObj s i k).modes = s.modes := setObj_modes s i k _
@[simp] theorem incObj_perf (s : State) (i k : Nat) : (incObj s i k).perf = s.perf := setObj_perf s i k _

@[simp] theorem perfSet_pending (s : State) (b i v : Nat) : (perfSet s b i v).pending = s.pending := rfl
@[simp] theorem perfSet_otp (s : State) (b i v : Nat) : (perfSet s b i v).otp = s.otp := rfl
@[simp] theorem perfSet_pers (s : State) (b i v : Nat) : (perfSet s b i v).pers = s.pers := rfl
@[simp] theorem perfSet_seq (s : State) (b i v : Nat) : (perfSet s b i v).seq = s.seq := rfl
@[simp] theorem perfSet_host (s : State) (b i v : Nat) : (perfSet s b i v).host = s.host := rfl
@[simp] theorem perfSet_dict (s : State) (b i v : Nat) : (perfSet s b i v).dict = s.dict := rfl
@[simp] theorem perfSet_hw (s : State) (b i v : Nat) : (perfSet s b i v).hw = s.hw := rfl
@[simp] theorem perfSet_sessions (s : State) (b i v : Nat) : (perfSet s b i v).sessions = s.sessions := rfl
@[simp] theorem perfSet_lockouts (s : State) (b i v : Nat) : (perfSet s b i v).lockouts = s.lockouts := rfl
@[simp] theorem perfSet_access (s : State) (b i v : Nat) : (perfSet s b i v).access = s.access := rfl
@[simp] theorem perfSet_transfers (s : State) (b i v : Nat) : (perfSet s b i v).transfers = s.transfers := rfl
@[simp] theorem perfSet_slots (s : State) (b i v : Nat) : (perfSet s b i v).slots = s.slots := rfl
@[simp] theorem perfSet_internal (s : State) (b i v : Nat) : (perfSet s b i v).internal = s.internal := rfl
@[simp] theorem perfSet_chans (s : State) (b i v : Nat) : (perfSet s b i v).chans = s.chans := rfl
@[simp] theorem perfSet_inflight (s : State) (b i v : Nat) : (perfSet s b i v).inflight = s.inflight := rfl
@[simp] theorem perfSet_records (s : State) (b i v : Nat) : (perfSet s b i v).records = s.records := rfl
@[simp] theorem perfSet_cores (s : State) (b i v : Nat) : (perfSet s b i v).cores = s.cores := rfl
@[simp] theorem perfSet_forced (s : State) (b i v : Nat) : (perfSet s b i v).forced = s.forced := rfl
@[simp] theorem perfSet_streams (s : State) (b i v : Nat) : (perfSet s b i v).streams = s.streams := rfl
@[simp] theorem perfSet_ples (s : State) (b i v : Nat) : (perfSet s b i v).ples = s.ples := rfl
@[simp] theorem perfSet_secrets (s : State) (b i v : Nat) : (perfSet s b i v).secrets = s.secrets := rfl
@[simp] theorem perfSet_reports (s : State) (b i v : Nat) : (perfSet s b i v).reports = s.reports := rfl
@[simp] theorem perfSet_cache (s : State) (b i v : Nat) : (perfSet s b i v).cache = s.cache := rfl
@[simp] theorem perfSet_credit (s : State) (b i v : Nat) : (perfSet s b i v).credit = s.credit := rfl
@[simp] theorem perfSet_exportRun (s : State) (b i v : Nat) : (perfSet s b i v).exportRun = s.exportRun := rfl
@[simp] theorem perfSet_entropyDown (s : State) (b i v : Nat) : (perfSet s b i v).entropyDown = s.entropyDown := rfl
@[simp] theorem perfSet_rng (s : State) (b i v : Nat) : (perfSet s b i v).rng = s.rng := rfl
@[simp] theorem perfSet_stage (s : State) (b i v : Nat) : (perfSet s b i v).stage = s.stage := rfl
@[simp] theorem perfSet_unitFaults (s : State) (b i v : Nat) : (perfSet s b i v).unitFaults = s.unitFaults := rfl
@[simp] theorem perfSet_audit (s : State) (b i v : Nat) : (perfSet s b i v).audit = s.audit := rfl
@[simp] theorem perfSet_twc (s : State) (b i v : Nat) : (perfSet s b i v).twc = s.twc := rfl
@[simp] theorem perfSet_sheaf (s : State) (b i v : Nat) : (perfSet s b i v).sheaf = s.sheaf := rfl
@[simp] theorem perfSet_power (s : State) (b i v : Nat) : (perfSet s b i v).power = s.power := rfl
@[simp] theorem perfSet_tem (s : State) (b i v : Nat) : (perfSet s b i v).tem = s.tem := rfl
@[simp] theorem perfSet_sinter (s : State) (b i v : Nat) : (perfSet s b i v).sinter = s.sinter := rfl
@[simp] theorem perfSet_boot (s : State) (b i v : Nat) : (perfSet s b i v).boot = s.boot := rfl
@[simp] theorem perfSet_bar (s : State) (b i v : Nat) : (perfSet s b i v).bar = s.bar := rfl
@[simp] theorem perfSet_field (s : State) (b i v : Nat) : (perfSet s b i v).field = s.field := rfl
@[simp] theorem perfSet_modes (s : State) (b i v : Nat) : (perfSet s b i v).modes = s.modes := rfl

@[simp] theorem count_pending (s : State) (b i n : Nat) : (count s b i n).pending = s.pending := by
  unfold count; dsimp only; split <;> [rfl; (split <;> [(split <;> rfl); (split <;> rfl)])]
@[simp] theorem count_otp (s : State) (b i n : Nat) : (count s b i n).otp = s.otp := by
  unfold count; dsimp only; split <;> [rfl; (split <;> [(split <;> rfl); (split <;> rfl)])]
@[simp] theorem count_pers (s : State) (b i n : Nat) : (count s b i n).pers = s.pers := by
  unfold count; dsimp only; split <;> [rfl; (split <;> [(split <;> rfl); (split <;> rfl)])]
@[simp] theorem count_seq (s : State) (b i n : Nat) : (count s b i n).seq = s.seq := by
  unfold count; dsimp only; split <;> [rfl; (split <;> [(split <;> rfl); (split <;> rfl)])]
@[simp] theorem count_host (s : State) (b i n : Nat) : (count s b i n).host = s.host := by
  unfold count; dsimp only; split <;> [rfl; (split <;> [(split <;> rfl); (split <;> rfl)])]
@[simp] theorem count_dict (s : State) (b i n : Nat) : (count s b i n).dict = s.dict := by
  unfold count; dsimp only; split <;> [rfl; (split <;> [(split <;> rfl); (split <;> rfl)])]
@[simp] theorem count_hw (s : State) (b i n : Nat) : (count s b i n).hw = s.hw := by
  unfold count; dsimp only; split <;> [rfl; (split <;> [(split <;> rfl); (split <;> rfl)])]
@[simp] theorem count_sessions (s : State) (b i n : Nat) : (count s b i n).sessions = s.sessions := by
  unfold count; dsimp only; split <;> [rfl; (split <;> [(split <;> rfl); (split <;> rfl)])]
@[simp] theorem count_lockouts (s : State) (b i n : Nat) : (count s b i n).lockouts = s.lockouts := by
  unfold count; dsimp only; split <;> [rfl; (split <;> [(split <;> rfl); (split <;> rfl)])]
@[simp] theorem count_access (s : State) (b i n : Nat) : (count s b i n).access = s.access := by
  unfold count; dsimp only; split <;> [rfl; (split <;> [(split <;> rfl); (split <;> rfl)])]
@[simp] theorem count_transfers (s : State) (b i n : Nat) : (count s b i n).transfers = s.transfers := by
  unfold count; dsimp only; split <;> [rfl; (split <;> [(split <;> rfl); (split <;> rfl)])]
@[simp] theorem count_slots (s : State) (b i n : Nat) : (count s b i n).slots = s.slots := by
  unfold count; dsimp only; split <;> [rfl; (split <;> [(split <;> rfl); (split <;> rfl)])]
@[simp] theorem count_internal (s : State) (b i n : Nat) : (count s b i n).internal = s.internal := by
  unfold count; dsimp only; split <;> [rfl; (split <;> [(split <;> rfl); (split <;> rfl)])]
@[simp] theorem count_chans (s : State) (b i n : Nat) : (count s b i n).chans = s.chans := by
  unfold count; dsimp only; split <;> [rfl; (split <;> [(split <;> rfl); (split <;> rfl)])]
@[simp] theorem count_inflight (s : State) (b i n : Nat) : (count s b i n).inflight = s.inflight := by
  unfold count; dsimp only; split <;> [rfl; (split <;> [(split <;> rfl); (split <;> rfl)])]
@[simp] theorem count_records (s : State) (b i n : Nat) : (count s b i n).records = s.records := by
  unfold count; dsimp only; split <;> [rfl; (split <;> [(split <;> rfl); (split <;> rfl)])]
@[simp] theorem count_cores (s : State) (b i n : Nat) : (count s b i n).cores = s.cores := by
  unfold count; dsimp only; split <;> [rfl; (split <;> [(split <;> rfl); (split <;> rfl)])]
@[simp] theorem count_forced (s : State) (b i n : Nat) : (count s b i n).forced = s.forced := by
  unfold count; dsimp only; split <;> [rfl; (split <;> [(split <;> rfl); (split <;> rfl)])]
@[simp] theorem count_streams (s : State) (b i n : Nat) : (count s b i n).streams = s.streams := by
  unfold count; dsimp only; split <;> [rfl; (split <;> [(split <;> rfl); (split <;> rfl)])]
@[simp] theorem count_ples (s : State) (b i n : Nat) : (count s b i n).ples = s.ples := by
  unfold count; dsimp only; split <;> [rfl; (split <;> [(split <;> rfl); (split <;> rfl)])]
@[simp] theorem count_secrets (s : State) (b i n : Nat) : (count s b i n).secrets = s.secrets := by
  unfold count; dsimp only; split <;> [rfl; (split <;> [(split <;> rfl); (split <;> rfl)])]
@[simp] theorem count_reports (s : State) (b i n : Nat) : (count s b i n).reports = s.reports := by
  unfold count; dsimp only; split <;> [rfl; (split <;> [(split <;> rfl); (split <;> rfl)])]
@[simp] theorem count_cache (s : State) (b i n : Nat) : (count s b i n).cache = s.cache := by
  unfold count; dsimp only; split <;> [rfl; (split <;> [(split <;> rfl); (split <;> rfl)])]
@[simp] theorem count_credit (s : State) (b i n : Nat) : (count s b i n).credit = s.credit := by
  unfold count; dsimp only; split <;> [rfl; (split <;> [(split <;> rfl); (split <;> rfl)])]
@[simp] theorem count_exportRun (s : State) (b i n : Nat) : (count s b i n).exportRun = s.exportRun := by
  unfold count; dsimp only; split <;> [rfl; (split <;> [(split <;> rfl); (split <;> rfl)])]
@[simp] theorem count_entropyDown (s : State) (b i n : Nat) : (count s b i n).entropyDown = s.entropyDown := by
  unfold count; dsimp only; split <;> [rfl; (split <;> [(split <;> rfl); (split <;> rfl)])]
@[simp] theorem count_rng (s : State) (b i n : Nat) : (count s b i n).rng = s.rng := by
  unfold count; dsimp only; split <;> [rfl; (split <;> [(split <;> rfl); (split <;> rfl)])]
@[simp] theorem count_stage (s : State) (b i n : Nat) : (count s b i n).stage = s.stage := by
  unfold count; dsimp only; split <;> [rfl; (split <;> [(split <;> rfl); (split <;> rfl)])]
@[simp] theorem count_unitFaults (s : State) (b i n : Nat) : (count s b i n).unitFaults = s.unitFaults := by
  unfold count; dsimp only; split <;> [rfl; (split <;> [(split <;> rfl); (split <;> rfl)])]
@[simp] theorem count_audit (s : State) (b i n : Nat) : (count s b i n).audit = s.audit := by
  unfold count; dsimp only; split <;> [rfl; (split <;> [(split <;> rfl); (split <;> rfl)])]
@[simp] theorem count_twc (s : State) (b i n : Nat) : (count s b i n).twc = s.twc := by
  unfold count; dsimp only; split <;> [rfl; (split <;> [(split <;> rfl); (split <;> rfl)])]
@[simp] theorem count_sheaf (s : State) (b i n : Nat) : (count s b i n).sheaf = s.sheaf := by
  unfold count; dsimp only; split <;> [rfl; (split <;> [(split <;> rfl); (split <;> rfl)])]
@[simp] theorem count_power (s : State) (b i n : Nat) : (count s b i n).power = s.power := by
  unfold count; dsimp only; split <;> [rfl; (split <;> [(split <;> rfl); (split <;> rfl)])]
@[simp] theorem count_tem (s : State) (b i n : Nat) : (count s b i n).tem = s.tem := by
  unfold count; dsimp only; split <;> [rfl; (split <;> [(split <;> rfl); (split <;> rfl)])]
@[simp] theorem count_sinter (s : State) (b i n : Nat) : (count s b i n).sinter = s.sinter := by
  unfold count; dsimp only; split <;> [rfl; (split <;> [(split <;> rfl); (split <;> rfl)])]
@[simp] theorem count_boot (s : State) (b i n : Nat) : (count s b i n).boot = s.boot := by
  unfold count; dsimp only; split <;> [rfl; (split <;> [(split <;> rfl); (split <;> rfl)])]
@[simp] theorem count_bar (s : State) (b i n : Nat) : (count s b i n).bar = s.bar := by
  unfold count; dsimp only; split <;> [rfl; (split <;> [(split <;> rfl); (split <;> rfl)])]
@[simp] theorem count_field (s : State) (b i n : Nat) : (count s b i n).field = s.field := by
  unfold count; dsimp only; split <;> [rfl; (split <;> [(split <;> rfl); (split <;> rfl)])]
@[simp] theorem count_modes (s : State) (b i n : Nat) : (count s b i n).modes = s.modes := by
  unfold count; dsimp only; split <;> [rfl; (split <;> [(split <;> rfl); (split <;> rfl)])]

@[simp] theorem claimMasks_pending (s : State) (k : Nat) : (claimMasks s k).pending = s.pending := rfl
@[simp] theorem claimMasks_otp (s : State) (k : Nat) : (claimMasks s k).otp = s.otp := rfl
@[simp] theorem claimMasks_pers (s : State) (k : Nat) : (claimMasks s k).pers = s.pers := rfl
@[simp] theorem claimMasks_seq (s : State) (k : Nat) : (claimMasks s k).seq = s.seq := rfl
@[simp] theorem claimMasks_host (s : State) (k : Nat) : (claimMasks s k).host = s.host := rfl
@[simp] theorem claimMasks_dict (s : State) (k : Nat) : (claimMasks s k).dict = s.dict := rfl
@[simp] theorem claimMasks_hw (s : State) (k : Nat) : (claimMasks s k).hw = s.hw := rfl
@[simp] theorem claimMasks_sessions (s : State) (k : Nat) : (claimMasks s k).sessions = s.sessions := rfl
@[simp] theorem claimMasks_lockouts (s : State) (k : Nat) : (claimMasks s k).lockouts = s.lockouts := rfl
@[simp] theorem claimMasks_access (s : State) (k : Nat) : (claimMasks s k).access = s.access := rfl
@[simp] theorem claimMasks_transfers (s : State) (k : Nat) : (claimMasks s k).transfers = s.transfers := rfl
@[simp] theorem claimMasks_slots (s : State) (k : Nat) : (claimMasks s k).slots = s.slots := rfl
@[simp] theorem claimMasks_internal (s : State) (k : Nat) : (claimMasks s k).internal = s.internal := rfl
@[simp] theorem claimMasks_chans (s : State) (k : Nat) : (claimMasks s k).chans = s.chans := rfl
@[simp] theorem claimMasks_inflight (s : State) (k : Nat) : (claimMasks s k).inflight = s.inflight := rfl
@[simp] theorem claimMasks_records (s : State) (k : Nat) : (claimMasks s k).records = s.records := rfl
@[simp] theorem claimMasks_streams (s : State) (k : Nat) : (claimMasks s k).streams = s.streams := rfl
@[simp] theorem claimMasks_ples (s : State) (k : Nat) : (claimMasks s k).ples = s.ples := rfl
@[simp] theorem claimMasks_secrets (s : State) (k : Nat) : (claimMasks s k).secrets = s.secrets := rfl
@[simp] theorem claimMasks_reports (s : State) (k : Nat) : (claimMasks s k).reports = s.reports := rfl
@[simp] theorem claimMasks_cache (s : State) (k : Nat) : (claimMasks s k).cache = s.cache := rfl
@[simp] theorem claimMasks_credit (s : State) (k : Nat) : (claimMasks s k).credit = s.credit := rfl
@[simp] theorem claimMasks_exportRun (s : State) (k : Nat) : (claimMasks s k).exportRun = s.exportRun := rfl
@[simp] theorem claimMasks_entropyDown (s : State) (k : Nat) : (claimMasks s k).entropyDown = s.entropyDown := rfl
@[simp] theorem claimMasks_stage (s : State) (k : Nat) : (claimMasks s k).stage = s.stage := rfl
@[simp] theorem claimMasks_unitFaults (s : State) (k : Nat) : (claimMasks s k).unitFaults = s.unitFaults := rfl
@[simp] theorem claimMasks_cores (s : State) (k : Nat) : (claimMasks s k).cores = s.cores := rfl
@[simp] theorem claimMasks_forced (s : State) (k : Nat) : (claimMasks s k).forced = s.forced := rfl
@[simp] theorem claimMasks_audit (s : State) (k : Nat) : (claimMasks s k).audit = s.audit := rfl
@[simp] theorem claimMasks_twc (s : State) (k : Nat) : (claimMasks s k).twc = s.twc := rfl
@[simp] theorem claimMasks_sheaf (s : State) (k : Nat) : (claimMasks s k).sheaf = s.sheaf := rfl
@[simp] theorem claimMasks_power (s : State) (k : Nat) : (claimMasks s k).power = s.power := rfl
@[simp] theorem claimMasks_tem (s : State) (k : Nat) : (claimMasks s k).tem = s.tem := rfl
@[simp] theorem claimMasks_sinter (s : State) (k : Nat) : (claimMasks s k).sinter = s.sinter := rfl
@[simp] theorem claimMasks_boot (s : State) (k : Nat) : (claimMasks s k).boot = s.boot := rfl
@[simp] theorem claimMasks_bar (s : State) (k : Nat) : (claimMasks s k).bar = s.bar := rfl
@[simp] theorem claimMasks_field (s : State) (k : Nat) : (claimMasks s k).field = s.field := rfl
@[simp] theorem claimMasks_modes (s : State) (k : Nat) : (claimMasks s k).modes = s.modes := rfl
@[simp] theorem claimMasks_perf (s : State) (k : Nat) : (claimMasks s k).perf = s.perf := rfl

end Sys2Proof.Machine
end

