-- ==== Sys2Proof/Laws/Objects.lean ====
section
/-! SUPPORT. Reading dictionary objects after the state changes. -/

namespace Sys2Proof.Machine

/-- The dictionary is all that an object's stored value depends on. -/
theorem getObj_congr {a b : State} (h : a.dict = b.dict) (hp : a.pers.dict = b.pers.dict) (i k : Nat) : getObj a i k = getObj b i k := by
  unfold getObj
  rw [h, hp]

theorem num_congr {a b : State} (h : a.dict = b.dict) (hp : a.pers.dict = b.pers.dict) (i k : Nat) : num a i k = num b i k := by
  unfold num
  rw [getObj_congr h hp]

theorem oct_congr {a b : State} (h : a.dict = b.dict) (hp : a.pers.dict = b.pers.dict) (i k : Nat) : oct a i k = oct b i k := by
  unfold oct
  rw [getObj_congr h hp]

theorem objKey_inj {i k i' k' : Nat} (hk : k < 256) (hk' : k' < 256) : objKey i k = objKey i' k' ↔ i = i' ∧ k = k' := by
  unfold objKey
  omega

@[simp] theorem Pers.write_dict (p : Pers) (key : Nat) (v dflt : Val) : (p.write key v dflt).dict = SMap.store p.dict key v dflt := rfl

/-- A write is read back; every other object reads as before. -/
theorem getObj_setObj (s : State) {i k i' k' : Nat} (v : Val) (hk : k < 256) (hk' : k' < 256) :
    getObj (setObj s i k v) i' k' = if i' = i ∧ k' = k ∧ (Dict.find i k).2.isSome then v else getObj s i' k' := by
  unfold setObj
  cases hd : (Dict.find i k).2 with
  | none => simp
  | some d =>
    simp only [Option.isSome_some, and_true]
    by_cases he : i' = i ∧ k' = k
    · obtain ⟨rfl, rfl⟩ := he
      unfold getObj
      rw [hd]
      by_cases hp : d.pers <;> simp [hp, SMap.at_store]
    · rw [if_neg he]
      have hne : objKey i' k' ≠ objKey i k := fun h => he ((objKey_inj hk' hk).mp h)
      unfold getObj
      cases hd' : (Dict.find i' k').2 with
      | none => rfl
      | some d' =>
        by_cases hp : d.pers <;> by_cases hp' : d'.pers <;> simp [hp, hp', SMap.at', SMap.look_store, hne]

theorem num_setObj (s : State) {i k i' k' : Nat} (v : Val) (hk : k < 256) (hk' : k' < 256) :
    num (setObj s i k v) i' k' = if i' = i ∧ k' = k ∧ (Dict.find i k).2.isSome then v.toNat else num s i' k' := by
  unfold num
  rw [getObj_setObj s v hk hk']
  split <;> rfl

theorem num_setNum (s : State) {i k i' k' : Nat} (n : Nat) (hk : k < 256) (hk' : k' < 256) :
    num (setNum s i k n) i' k' = if i' = i ∧ k' = k ∧ (Dict.find i k).2.isSome then n else num s i' k' := num_setObj s (.num n) hk hk'

/-- Objects do not depend on counts, hardware statistics or the sequencer. -/
@[simp] theorem getObj_count (s : State) (b j n i k : Nat) : getObj (count s b j n) i k = getObj s i k :=
  getObj_congr (count_dict s b j n) (by rw [count_pers]) i k
@[simp] theorem num_count (s : State) (b j n i k : Nat) : num (count s b j n) i k = num s i k := by unfold num; rw [getObj_count]
@[simp] theorem getObj_incHw (s : State) (a b n i k : Nat) : getObj (incHw s a b n) i k = getObj s i k := rfl
@[simp] theorem num_incHw (s : State) (a b n i k : Nat) : num (incHw s a b n) i k = num s i k := rfl
@[simp] theorem getObj_pushSlot (s : State) (x : Slot) (i k : Nat) : getObj (pushSlot s x) i k = getObj s i k := rfl
@[simp] theorem num_pushSlot (s : State) (x : Slot) (i k : Nat) : num (pushSlot s x) i k = num s i k := rfl
@[simp] theorem getObj_touchSession (s : State) (a t n : Nat) (b : Bool) (i k : Nat) : getObj (touchSession s a t n b) i k = getObj s i k := rfl
@[simp] theorem getObj_calledBy (s : State) (c : Ctx) (i k : Nat) : getObj (calledBy s c) i k = getObj s i k := rfl
@[simp] theorem num_calledBy (s : State) (c : Ctx) (i k : Nat) : num (calledBy s c) i k = num s i k := rfl
@[simp] theorem num_touchSession (s : State) (a t n : Nat) (b : Bool) (i k : Nat) : num (touchSession s a t n b) i k = num s i k := rfl
@[simp] theorem num_updTwc (s : State) (f : Twc → Twc) (i k : Nat) : num (updTwc s f) i k = num s i k := rfl
@[simp] theorem num_updBar (s : State) (f : Bar → Bar) (i k : Nat) : num (updBar s f) i k = num s i k := rfl

/-- Numbering an admission leaves the dictionary. -/
@[simp] theorem number_dict (s : State) : (number s).dict = s.dict := by unfold number; dsimp only; split <;> simp
@[simp] theorem number_pers_dict (s : State) : (number s).pers.dict = s.pers.dict := by unfold number; dsimp only; split <;> simp
@[simp] theorem getObj_number (s : State) (i k : Nat) : getObj (number s) i k = getObj s i k :=
  getObj_congr (number_dict s) (number_pers_dict s) i k
@[simp] theorem num_number (s : State) (i k : Nat) : num (number s) i k = num s i k := by unfold num; rw [getObj_number]

@[simp] theorem number_adm (s : State) : (number s).seq.adm = s.seq.adm + 1 := by unfold number; dsimp only; split <;> simp
@[simp] theorem number_admTime (s : State) : (number s).seq.admTime = s.seq.time := by unfold number; dsimp only; split <;> simp
@[simp] theorem number_time (s : State) : (number s).seq.time = s.seq.time := by unfold number; dsimp only; split <;> simp

end Sys2Proof.Machine
end

