-- ==== Sys2Proof/Laws/Admit.lean ====
section
/-! SUPPORT. What the end of an admission keeps of the state that its effect came to. -/

namespace Sys2Proof.Machine

theorem Settled.refl (a : State) : Settled a a := ⟨rfl, fun _ _ _ _ => rfl, .inl rfl⟩

theorem Settled.trans {a b c : State} (h : Settled a b) (g : Settled b c) : Settled a c :=
  ⟨g.rest.trans h.rest, fun i k hk hb => (g.objects i k hk hb).trans (h.objects i k hk hb), by
    rcases g.run with e | e
    · rw [e]; exact h.run
    · exact .inr e⟩

theorem Settled.num {a t : State} (h : Settled a t) {i k : Nat} (hk : k < 256) (hb : bookkeeping i k = false) :
    Machine.num t i k = Machine.num a i k := by unfold Machine.num; rw [h.objects i k hk hb]

theorem Settled.oct {a t : State} (h : Settled a t) {i k : Nat} (hk : k < 256) (hb : bookkeeping i k = false) :
    Machine.oct t i k = Machine.oct a i k := by unfold Machine.oct; rw [h.objects i k hk hb]

theorem count_perf (s : State) (b i n : Nat) : ∃ p, count s b i n = { s with perf := p } := by
  unfold count
  dsimp only
  split
  · exact ⟨_, rfl⟩
  · split <;> split <;> exact ⟨_, rfl⟩

theorem settled_count (s : State) (b i n : Nat) : Settled s (count s b i n) := by
  obtain ⟨p, h⟩ := count_perf s b i n
  rw [h]
  exact ⟨rfl, fun _ _ _ _ => rfl, .inl rfl⟩

/-- A write changes the dictionary and its log alone. -/
theorem setObj_dict (s : State) (i k : Nat) (v : Val) :
    ∃ d p l, setObj s i k v = { s with dict := d, pers := { s.pers with dict := p, dlog := l } } := by
  unfold setObj
  split
  · exact ⟨_, _, _, rfl⟩
  · split <;> exact ⟨_, _, _, rfl⟩

theorem settled_setObj (s : State) {i k : Nat} (v : Val) (hk : k < 256) (hb : bookkeeping i k = true) : Settled s (setObj s i k v) := by
  refine ⟨?_, ?_, ?_⟩
  · obtain ⟨d, p, l, h⟩ := setObj_dict s i k v
    rw [h]; rfl
  · intro i' k' hk' hb'
    rw [getObj_setObj s v hk hk', if_neg]
    rintro ⟨rfl, rfl, -⟩
    rw [hb] at hb'; cases hb'
  · obtain ⟨d, p, l, h⟩ := setObj_dict s i k v
    rw [h]; exact .inl rfl

theorem settled_setNum (s : State) {i k : Nat} (n : Nat) (hk : k < 256) (hb : bookkeeping i k = true) : Settled s (setNum s i k n) :=
  settled_setObj s (.num n) hk hb

theorem settled_incHw (s : State) (i k n : Nat) : Settled s (incHw s i k n) := ⟨rfl, fun _ _ _ _ => rfl, .inl rfl⟩

/-- The entry of a ring commit changes the commit ring and the laps alone. -/
theorem ringEntry_pers (a b : State) (n : Nat) : ∃ c l, ringEntry a b n = { b with pers := { b.pers with cring := c, laps := l } } := by
  unfold ringEntry
  split
  · dsimp only
    split <;> exact ⟨_, _, rfl⟩
  · exact ⟨_, _, rfl⟩

theorem settled_budget (s : State) : Settled s (drawBudget s) := by
  unfold drawBudget
  refine Settled.trans ?_ (settled_count _ 8 1 1)
  exact ⟨rfl, fun _ _ _ _ => rfl, .inl rfl⟩

theorem settled_token (a b : State) : Settled b (takeToken a b) := by
  unfold takeToken
  split
  · exact settled_budget b
  · exact Settled.refl b

theorem settled_commit (a b : State) : Settled b (noteCommit a b) := by
  unfold noteCommit
  split
  · exact Settled.refl b
  · obtain ⟨c, l, h⟩ := ringEntry_pers a b b.seq.adm
    dsimp only
    rw [h]
    exact ⟨rfl, fun _ _ _ _ => rfl, .inl rfl⟩

theorem settled_log (a : State) (i : AdmIn) (d : Done) : Settled d.s (appendLog a i d) := by
  unfold appendLog
  dsimp only
  split
  · exact Settled.refl _
  · split
    · exact Settled.refl _
    · split
      · split
        · exact Settled.trans (settled_setNum _ 0 (i := 0xDC80) (k := 6) (by omega) rfl) ⟨rfl, fun _ _ _ _ => rfl, .inl rfl⟩
        · exact ⟨rfl, fun _ _ _ _ => rfl, .inl rfl⟩
      · split
        · exact Settled.refl _
        · exact Settled.trans (settled_setNum _ _ (by omega) rfl) (settled_setNum _ _ (by omega) rfl)

theorem settled_counters (i : AdmIn) (a b : State) : Settled b (noteCounters i a b) := by
  unfold noteCounters
  dsimp only
  split
  · exact Settled.refl b
  · exact ⟨rfl, fun _ _ _ _ => rfl, .inl rfl⟩

theorem Settled.push {a b : State} (h : Settled a b) (y : Slot) : Settled (pushSlot a y) (pushSlot b y) :=
  ⟨congrArg (fun u => pushSlot u y) h.rest, h.objects, h.run⟩

theorem settled_masks (s : State) (k : Nat) : Settled s (claimMasks s k) := ⟨rfl, fun _ _ _ _ => rfl, .inl rfl⟩

theorem settled_tags (s : State) (r : Rq) (x : SessRes) (e : Eff) : Settled s (claimTags s r x e) := by
  unfold claimTags
  split
  · exact settled_masks s _
  · exact Settled.refl s

theorem settled_dirty (a b : State) : Settled b (markDirty a b) := by
  unfold markDirty
  split
  · exact ⟨rfl, fun _ _ _ _ => rfl, .inl rfl⟩
  · exact Settled.refl b

theorem settled_queue (s : State) (k : Nat) (b : Bytes) : Settled s (sheafQueue s k b) := ⟨rfl, fun _ _ _ _ => rfl, .inl rfl⟩

theorem settled_if {a b : State} (c : Prop) [Decidable c] (h : Settled a b) : Settled a (if c then b else a) := by
  split
  · exact h
  · exact Settled.refl a

theorem settled_unless {a b : State} (c : Prop) [Decidable c] (h : Settled a b) : Settled a (if c then a else b) := by
  split
  · exact Settled.refl a
  · exact h

/-- What is owed to a partner touches the Sheaf link alone, where the partner's digest has not come before. -/
theorem settled_sheaf (a : State) (i : AdmIn) (d : Done) (h : SMap.look d.s.sheaf.theirs d.s.seq.adm = none) : Settled d.s (sheafAfter a i d) := by
  have hd := settled_dirty a d.s
  have ht : (markDirty a d.s).sheaf.theirs = d.s.sheaf.theirs := by unfold markDirty; split <;> rfl
  have hq : (markDirty a d.s).seq = d.s.seq := by unfold markDirty; split <;> rfl
  refine Settled.trans hd ?_
  unfold sheafAfter
  dsimp only
  generalize markDirty a d.s = s at ht hq ⊢
  rw [← ht, ← hq] at h
  clear hd ht hq
  rw [h]
  dsimp only
  split
  · exact Settled.refl s
  · have h1 := settled_if (leads s = true) (settled_queue s 0x10 (admitMsg i s false))
    have h2 := h1.trans (settled_if (i.alone = 1) (settled_queue _ 0x22 (verdictBody a i.chan d)))
    have h3 := h2.trans (settled_if ((!(counterEffects a s).isEmpty) = true) (settled_queue _ 0x21 (leBytes 8 s.seq.adm ++ leBytes 4 d.code)))
    have h4 := h3.trans (settled_unless (i.alone = 2) (settled_queue _ 0x20 (leBytes 8 s.seq.adm ++ resultDigest a d)))
    split
    · exact h4
    · split
      · exact h3.trans ⟨rfl, fun _ _ _ _ => rfl, .inl rfl⟩
      · exact (h3.trans (settled_queue _ 0x20 (leBytes 8 s.seq.adm ++ resultDigest a d))).trans ⟨rfl, fun _ _ _ _ => rfl, .inl rfl⟩

/-- An admission that the log does not hold: its effect stands, but for bookkeeping. -/
theorem admit_settled (s : State) (i : AdmIn) (f : State → Done) (h : auditHolds s i = false)
    (ht : SMap.look (f (number s)).s.sheaf.theirs (f (number s)).s.seq.adm = none) :
    ∃ d, admitOne s i f = some d ∧ Settled (f (number s)).s d.s := by
  unfold admitOne
  rw [h]
  refine ⟨_, rfl, ?_⟩
  dsimp only
  generalize hd : f (number s) = d at ht ⊢
  have h0 := Settled.trans (settled_token (number s) d.s) (settled_commit s (takeToken (number s) d.s))
  have h1 := Settled.trans h0 (settled_counters i s _)
  have h2 := Settled.trans h1 (settled_log (number s) i { d with s := noteCounters i s (noteCommit s (takeToken (number s) d.s)) })
  have hs := congrArg (fun x => x.sheaf.theirs) h2.rest
  have hq := congrArg (fun x => x.seq.adm) h2.rest
  refine Settled.trans h2 (settled_sheaf (number s) i ⟨appendLog (number s) i _, d.code, d.resp, d.random⟩ ?_)
  exact (congr (congrArg SMap.look hs) hq).trans ht

end Sys2Proof.Machine
end

