-- ==== Sys2Proof/Laws/Aes.lean ====
section
/-! SUPPORT. What AES, CMAC and key wrap give back (R250, R276): decryption inverts encryption, and unwrapping gives what was wrapped. -/

namespace Sys2Proof.Machine
namespace Aes

theorem invSub_sub (x : Byte) : invSub (sub x) = x := by
  have h : ∀ n : Fin 256, invSub (sub (BitVec.ofFin n)) = BitVec.ofFin n := by decide +kernel
  exact h x.toFin

theorem xor_left (a b c : Byte) : a ^^^ (b ^^^ c) = b ^^^ (a ^^^ c) := by rw [← BitVec.xor_assoc, BitVec.xor_comm a b, BitVec.xor_assoc]
theorem xor_cancel (a b : Byte) : a ^^^ (a ^^^ b) = b := by rw [← BitVec.xor_assoc, BitVec.xor_self, BitVec.zero_xor]

theorem xtime_xor (a b : Byte) : xtime (a ^^^ b) = xtime a ^^^ xtime b := by
  have e : (a ^^^ b) <<< 1 = (a <<< 1) ^^^ (b <<< 1) := BitVec.shiftLeft_xor_distrib a b 1
  unfold xtime
  rw [BitVec.msb_xor, e]
  cases a.msb <;> cases b.msb <;> simp [BitVec.xor_assoc, xor_left, BitVec.xor_comm]

theorem mix_first (a b c d : Byte) : let t := a ^^^ b ^^^ c ^^^ d
    let p := a ^^^ t ^^^ xtime (a ^^^ b) ^^^ xtime (xtime (a ^^^ c ^^^ xtime t))
    let q := b ^^^ t ^^^ xtime (b ^^^ c) ^^^ xtime (xtime (b ^^^ d ^^^ xtime t))
    p ^^^ t ^^^ xtime (p ^^^ q) = a := by
  simp only [xtime_xor]
  generalize xtime (xtime (xtime (xtime a))) = a4
  generalize xtime (xtime (xtime (xtime b))) = b4
  generalize xtime (xtime (xtime (xtime c))) = c4
  generalize xtime (xtime (xtime (xtime d))) = d4
  generalize xtime (xtime (xtime a)) = a3
  generalize xtime (xtime (xtime b)) = b3
  generalize xtime (xtime (xtime c)) = c3
  generalize xtime (xtime (xtime d)) = d3
  generalize xtime (xtime a) = a2
  generalize xtime (xtime b) = b2
  generalize xtime (xtime c) = c2
  generalize xtime (xtime d) = d2
  generalize xtime a = a1
  generalize xtime b = b1
  generalize xtime c = c1
  generalize xtime d = d1
  simp only [BitVec.xor_assoc, xor_left, BitVec.xor_comm, xor_cancel, BitVec.xor_self, BitVec.xor_zero]

theorem invMixCol_mixCol (s : Bytes) : invMixCol (mixCol s) = s := by
  match s with
  | [] => rfl
  | [_] => rfl
  | [_, _] => rfl
  | [_, _, _] => rfl
  | [a, b, c, d] =>
    have r : ∀ a b c d : Byte, b ^^^ c ^^^ d ^^^ a = a ^^^ b ^^^ c ^^^ d := fun a b c d => by simp only [xor_left, BitVec.xor_comm]
    have m1 := mix_first a b c d
    have m2 := mix_first b c d a
    have m3 := mix_first c d a b
    have m4 := mix_first d a b c
    simp only [r a b c d, r b c d a, r c d a b, BitVec.xor_comm c a, BitVec.xor_comm d b] at m1 m2 m3 m4
    generalize ht : a ^^^ b ^^^ c ^^^ d = t at m1 m2 m3 m4
    have hu : (a ^^^ t ^^^ xtime (a ^^^ b)) ^^^ (c ^^^ t ^^^ xtime (c ^^^ d)) = a ^^^ c ^^^ xtime t := by
      rw [← ht]; simp only [xtime_xor, BitVec.xor_assoc, xor_left, BitVec.xor_comm, xor_cancel, BitVec.xor_self, BitVec.xor_zero]
    have hv : (b ^^^ t ^^^ xtime (b ^^^ c)) ^^^ (d ^^^ t ^^^ xtime (d ^^^ a)) = b ^^^ d ^^^ xtime t := by
      rw [← ht]; simp only [xtime_xor, BitVec.xor_assoc, xor_left, BitVec.xor_comm, xor_cancel, BitVec.xor_self, BitVec.xor_zero]
    simp only [mixCol, invMixCol, ht, hu, hv]
    generalize xtime (xtime (a ^^^ c ^^^ xtime t)) = u at m1 m2 m3 m4 ⊢
    generalize xtime (xtime (b ^^^ d ^^^ xtime t)) = v at m1 m2 m3 m4 ⊢
    have hT : (a ^^^ t ^^^ xtime (a ^^^ b) ^^^ u) ^^^ (b ^^^ t ^^^ xtime (b ^^^ c) ^^^ v) ^^^ (c ^^^ t ^^^ xtime (c ^^^ d) ^^^ u) ^^^
        (d ^^^ t ^^^ xtime (d ^^^ a) ^^^ v) = t := by
      conv => rhs; rw [← ht]
      simp only [xtime_xor, BitVec.xor_assoc, xor_left, BitVec.xor_comm, xor_cancel, BitVec.xor_self, BitVec.xor_zero]
    rw [hT, m1, m2, m3, m4]
  | _ :: _ :: _ :: _ :: _ :: _ => rfl

theorem mixCol_length (s : Bytes) : (mixCol s).length = s.length := by
  unfold mixCol; split <;> rfl

theorem xorBytes_length (a b : Bytes) (h : a.length = b.length) : (xorBytes a b).length = b.length := by simp [xorBytes, h]

theorem xorBytes_twice (a b : Bytes) (h : a.length = b.length) : xorBytes (xorBytes a b) b = a := by
  induction a generalizing b with
  | nil => simp [xorBytes]
  | cons x xs ih =>
    cases b with
    | nil => simp at h
    | cons y ys =>
      have := ih ys (by simpa using h)
      simp only [xorBytes, List.zipWith_cons_cons] at this ⊢
      rw [this, BitVec.xor_assoc, BitVec.xor_self, BitVec.xor_zero]

theorem list16 (s : Bytes) (h : s.length = 16) : ∃ a b c d e f g i j k l m n o p q, s = [a, b, c, d, e, f, g, i, j, k, l, m, n, o, p, q] := by
  match s, h with
  | [a, b, c, d, e, f, g, i, j, k, l, m, n, o, p, q], _ => exact ⟨a, b, c, d, e, f, g, i, j, k, l, m, n, o, p, q, rfl⟩

theorem invShiftRows_shiftRows (s : Bytes) (h : s.length = 16) : invShiftRows (shiftRows s) = s := by
  obtain ⟨a, b, c, d, e, f, g, i, j, k, l, m, n, o, p, q, rfl⟩ := list16 s h
  rfl

theorem unmix (s : Bytes) (h : s.length = 16) : (chunks 4 ((chunks 4 s).flatMap mixCol)).flatMap invMixCol = s := by
  obtain ⟨a, b, c, d, e, f, g, i, j, k, l, m, n, o, p, q, rfl⟩ := list16 s h
  show invMixCol (mixCol [a, b, c, d]) ++ (invMixCol (mixCol [e, f, g, i]) ++ (invMixCol (mixCol [j, k, l, m]) ++ (invMixCol (mixCol [n, o, p, q]) ++ []))) = _
  simp [invMixCol_mixCol]

theorem mixed_length (s : Bytes) (h : s.length = 16) : ((chunks 4 s).flatMap mixCol).length = 16 := by
  obtain ⟨a, b, c, d, e, f, g, i, j, k, l, m, n, o, p, q, rfl⟩ := list16 s h
  rfl

theorem unsub (s : Bytes) : (s.map sub).map invSub = s := by simp [List.map_map, Function.comp_def, invSub_sub]

theorem dec_enc_go : ∀ (ks R : List Bytes) (s : Bytes), ks ≠ [] → R ≠ [] → (∀ k ∈ ks, k.length = 16) → s.length = 16 →
    decGo (ks.dropLast.reverse ++ R) (xorBytes (encGo ks s) (ks.getLastD [])) = decGo R (shiftRows (s.map sub))
  | [], _, _, h, _, _, _ => absurd rfl h
  | [k], R, s, _, _, hk, hs => by
    have : (shiftRows (s.map sub)).length = k.length := by simp [shiftRows, hk k (by simp)]
    simp [encGo, xorBytes_twice _ _ this]
  | k :: l :: ks, R, s, _, hR, hk, hs => by
    have h1 : (shiftRows (s.map sub)).length = 16 := by simp [shiftRows]
    have h2 := mixed_length _ h1
    have hk' : k.length = 16 := hk k (by simp)
    have h3 : (xorBytes ((chunks 4 (shiftRows (s.map sub))).flatMap mixCol) k).length = 16 := by rw [xorBytes_length _ _ (h2.trans hk'.symm), hk']
    have ih := dec_enc_go (l :: ks) (k :: R) _ (by simp) (by simp) (fun x hx => hk x (by simp_all)) h3
    have e : (k :: l :: ks).dropLast.reverse ++ R = (l :: ks).dropLast.reverse ++ k :: R := by simp
    rw [e, show (k :: l :: ks).getLastD [] = (l :: ks).getLastD [] from rfl, encGo, ih]
    · obtain ⟨r, R, rfl⟩ := List.exists_cons_of_ne_nil hR
      rw [decGo, invShiftRows_shiftRows _ (by simpa using h3), unsub, xorBytes_twice _ _ (h2.trans hk'.symm), unmix _ h1]
      simp
    · simp

theorem encGo_length : ∀ (ks : List Bytes) (s : Bytes), ks ≠ [] → (∀ k ∈ ks, k.length = 16) → (encGo ks s).length = 16
  | [], _, h, _ => absurd rfl h
  | [k], s, _, h => by simp [encGo, xorBytes, shiftRows, h k (by simp)]
  | _ :: k :: ks, s, _, h => by
    rw [encGo]
    · exact encGo_length (k :: ks) _ (by simp) fun x hx => h x (by simp_all)
    · simp

end Aes

/-- The round keys of a key are at least two, of 16 bytes each, as they are for the key lengths of R250. -/
def KeyFits (key : Bytes) : Prop := 2 ≤ (Aes.roundKeys key).length ∧ ∀ k ∈ Aes.roundKeys key, k.length = 16

theorem aesEnc_length {key : Bytes} (h : KeyFits key) (b : Bytes) : (aesEnc key b).length = 16 := by
  obtain ⟨h, hk⟩ := h
  unfold aesEnc
  generalize Aes.roundKeys key = ks at h hk
  match ks, h with
  | _ :: k :: ks, _ => exact Aes.encGo_length (k :: ks) _ (by simp) fun x hx => hk x (by simp_all)

theorem cmac_length {key : Bytes} (h : KeyFits key) (m : Bytes) : (cmac key m).length = 16 := aesEnc_length h _


/-- The inverse block takes an encrypted block back. -/
theorem aesDec_aesEnc {key : Bytes} (h : KeyFits key) (b : Bytes) (hb : b.length = 16) : aesDec key (aesEnc key b) = b := by
  obtain ⟨h, hk⟩ := h
  unfold aesDec aesEnc
  generalize Aes.roundKeys key = rs at h hk
  match rs, h with
  | k0 :: l :: ks, _ =>
    have h0 : k0.length = 16 := hk k0 (by simp)
    have hx : (xorBytes b k0).length = 16 := by rw [Aes.xorBytes_length _ _ (hb.trans h0.symm), h0]
    have e : (k0 :: l :: ks).reverse = (l :: ks).getLastD [] :: ((l :: ks).dropLast.reverse ++ [k0]) := by
      have : l :: ks = (l :: ks).dropLast ++ [(l :: ks).getLastD []] := by
        rw [List.getLastD_eq_getLast?, List.getLast?_eq_some_getLast (by simp)]
        exact (List.dropLast_append_getLast (by simp)).symm
      conv => lhs; rw [List.reverse_cons, this, List.reverse_append]
      rfl
    rw [e]
    show Aes.decGo ((l :: ks).dropLast.reverse ++ [k0]) (xorBytes (Aes.encGo (l :: ks) (xorBytes b k0)) ((l :: ks).getLastD [])) = b
    rw [Aes.dec_enc_go _ _ _ (by simp) (by simp) (fun x hx => hk x (by simp_all)) hx, Aes.decGo, Aes.invShiftRows_shiftRows _ (by simpa using hx), Aes.unsub,
      Aes.xorBytes_twice _ _ (hb.trans h0.symm)]

/-! Key wrap (SP 800-38F). -/

theorem leBytes_length (n x : Nat) : (leBytes n x).length = n := by
  induction n generalizing x with
  | zero => rfl
  | succ n ih => simp [leBytes, ih]

theorem beBytes_length (n x : Nat) : (beBytes n x).length = n := by simp [beBytes, leBytes_length]

/-- Pieces of n bytes, put together, come apart again. -/
theorem chunksAux_flatten (n : Nat) (hn : 0 < n) : ∀ (l : List Bytes) (f : Nat), l.length ≤ f → (∀ b ∈ l, b.length = n) → chunksAux n f l.flatten = l
  | [], 0, _, _ => rfl
  | [], f + 1, _, _ => by simp [chunksAux]
  | b :: l, 0, h, _ => by simp at h
  | b :: l, f + 1, h, hb => by
    have e : b.length = n := hb b (by simp)
    have hne : (b ++ l.flatten).isEmpty = false := by
      cases b with
      | nil => simp at e; omega
      | cons => rfl
    rw [List.flatten_cons, chunksAux, hne]
    simp only [Bool.false_eq_true, if_false, ← e, List.take_left, List.drop_left]
    rw [e, chunksAux_flatten n hn l f (by simpa using h) fun x hx => hb x (by simp [hx])]

theorem flatten_length {n : Nat} {l : List Bytes} (h : ∀ b ∈ l, b.length = n) : l.flatten.length = n * l.length := by
  induction l with
  | nil => rfl
  | cons b l ih =>
    rw [List.flatten_cons, List.length_append, h b (by simp), ih fun x hx => h x (by simp [hx]), List.length_cons, Nat.mul_succ, Nat.add_comm]

theorem chunks_flatten {n : Nat} (hn : 0 < n) {l : List Bytes} (h : ∀ b ∈ l, b.length = n) : chunks n l.flatten = l := by
  have : l.length ≤ l.flatten.length := by
    rw [flatten_length h]
    exact Nat.le_mul_of_pos_left _ hn
  exact chunksAux_flatten n hn l _ this h

/-- The unwrapping goes round: a full turn of the list stands at its beginning. -/
theorem kwUnwrapGo_turn (key : Bytes) (t : Nat) (a : Bytes) (d : List Bytes) : kwUnwrapGo key t a d [] = kwUnwrapGo key t a [] d.reverse := by
  cases t with
  | zero => simp [kwUnwrapGo]
  | succ t =>
    cases h : d.reverse with
    | nil => simp [kwUnwrapGo, h]
    | cons r rs => simp [kwUnwrapGo, h]

/-- Each step of the wrapping is undone by one of the unwrapping. -/
theorem kwWrapGo_undone {key : Bytes} (hk : KeyFits key) : ∀ (f t : Nat) (a : Bytes) (d r : List Bytes), a.length = 8 → (∀ b ∈ d ++ r, b.length = 8) → d ++ r ≠ [] →
    ∃ (d' r' : List Bytes), (kwWrapGo key f (t + 1) a d r).2 = d'.reverse ++ r' ∧ (kwWrapGo key f (t + 1) a d r).1.length = 8 ∧ (∀ b ∈ d' ++ r', b.length = 8) ∧
      d'.length + r'.length = d.length + r.length ∧ d'.length % (d.length + r.length) = (d.length + f) % (d.length + r.length) ∧
      kwUnwrapGo key (t + f) (kwWrapGo key f (t + 1) a d r).1 r' d' = kwUnwrapGo key t a r d
  | 0, t, a, d, r, ha, hb, _ => ⟨d, r, rfl, ha, hb, rfl, rfl, rfl⟩
  | f + 1, t, a, d, r, ha, hb, hne => by
    have step : ∀ (x : Bytes), x.length = 8 → let c := aesEnc key (a ++ x)
        (xorBytes (c.take 8) (beBytes 8 (t + 1))).length = 8 ∧ (c.drop 8).length = 8 ∧
          aesDec key (xorBytes (xorBytes (c.take 8) (beBytes 8 (t + 1))) (beBytes 8 (t + 1)) ++ c.drop 8) = a ++ x := by
      intro x hx c
      have h1 := aesDec_aesEnc hk (a ++ x) (by simp [ha, hx])
      have h2 := aesEnc_length hk (a ++ x)
      have h3 : (c.take 8).length = (beBytes 8 (t + 1)).length := by simp [c, h2, beBytes_length]
      refine ⟨by rw [Aes.xorBytes_length _ _ h3, beBytes_length], by simp [c, h2], ?_⟩
      rw [Aes.xorBytes_twice _ _ h3, List.take_append_drop, h1]
    match r with
    | x :: r =>
      obtain ⟨s1, s2, s3⟩ := step x (hb x (by simp))
      obtain ⟨d', r', e1, e2, e3, e4, e5, e6⟩ := kwWrapGo_undone hk f (t + 1) _ ((aesEnc key (a ++ x)).drop 8 :: d) r s1
        (by intro b hx; simp only [List.cons_append, List.mem_cons] at hx; rcases hx with rfl | hx
            · exact s2
            · exact hb b (by simp_all; tauto)) (by simp)
      refine ⟨d', r', e1, e2, e3, by simp at e4 ⊢; omega, ?_, ?_⟩
      · simp only [List.length_cons] at e5 ⊢
        rw [show d.length + (r.length + 1) = d.length + 1 + r.length by omega, e5]
        congr 1; omega
      · rw [kwWrapGo, show t + (f + 1) = t + 1 + f by omega, e6, kwUnwrapGo, s3]
        simp [← ha]
    | [] =>
      cases hd : d.reverse with
      | nil => simp at hd; simp [hd] at hne
      | cons x r =>
        have hm : ∀ b ∈ x :: r, b.length = 8 := fun b h => hb b (by simp; rw [← List.mem_reverse, hd]; exact h)
        have hl : d.length = r.length + 1 := by rw [← List.length_reverse, hd]; rfl
        obtain ⟨s1, s2, s3⟩ := step x (hm x (by simp))
        obtain ⟨d', r', e1, e2, e3, e4, e5, e6⟩ := kwWrapGo_undone hk f (t + 1) _ [(aesEnc key (a ++ x)).drop 8] r s1
          (by intro b hx; simp only [List.singleton_append, List.mem_cons] at hx; rcases hx with rfl | hx
              · exact s2
              · exact hm b (by simp [hx])) (by simp)
        have eq : kwWrapGo key (f + 1) (t + 1) a d [] = kwWrapGo key f (t + 2) (xorBytes ((aesEnc key (a ++ x)).take 8) (beBytes 8 (t + 1)))
            [(aesEnc key (a ++ x)).drop 8] r := by rw [kwWrapGo]; simp only [hd]
        rw [eq]
        refine ⟨d', r', e1, e2, e3, by simp at e4 ⊢; omega, ?_, ?_⟩
        · simp only [List.length_cons, List.length_nil, Nat.zero_add, Nat.add_zero] at e5 ⊢
          rw [hl, show r.length + 1 = 1 + r.length by omega, e5, show 1 + r.length + (f + 1) = (1 + f) + (1 + r.length) by omega, Nat.add_mod_right]
        · rw [show t + (f + 1) = t + 1 + f by omega, e6, kwUnwrapGo, s3, ← List.reverse_reverse d, hd, ← kwUnwrapGo_turn]
          simp [← ha]

/-- Unwrapping gives back what was wrapped. -/
theorem kwUnW_kwW {key : Bytes} (hk : KeyFits key) (a : Bytes) (r : List Bytes) (ha : a.length = 8) (hb : ∀ b ∈ r, b.length = 8) (hne : r ≠ []) :
    kwUnW key (kwW key a r) = (a, r.flatten) := by
  obtain ⟨d, q, e1, e2, e3, e4, e5, e6⟩ := kwWrapGo_undone hk (6 * r.length) 0 a [] r ha (by simpa using hb) (by simpa using hne)
  have hx : ∀ b ∈ (kwWrapGo key (6 * r.length) 1 a [] r).2, b.length = 8 := by
    rw [e1]; intro b h; exact e3 b (by simpa using h)
  have hl : (kwWrapGo key (6 * r.length) 1 a [] r).2.length = r.length := by rw [e1]; simp at e4 ⊢; omega
  unfold kwUnW kwW
  simp only [← e2, List.drop_left, List.take_left]
  rw [chunks_flatten (by rw [e2]; decide) (by rw [e2]; exact hx), List.length_reverse, hl]
  have : kwUnwrapGo key (6 * r.length) (kwWrapGo key (6 * r.length) 1 a [] r).1 [] (kwWrapGo key (6 * r.length) 1 a [] r).2.reverse = (a, r) := by
    simp only [List.length_nil, Nat.zero_add, Nat.mul_mod_left] at e4 e5
    have g : d = [] ∨ q = [] := by
      by_cases h : d.length = r.length
      · exact .inr (List.length_eq_zero_iff.mp (by omega))
      · exact .inl (List.length_eq_zero_iff.mp (by rw [Nat.mod_eq_of_lt (by omega)] at e5; exact e5))
    rw [e1]
    have e7 : kwUnwrapGo key 0 a r [] = (a, r) := by simp [kwUnwrapGo]
    rw [← e7, ← e6, Nat.zero_add]
    rcases g with rfl | rfl
    · rw [kwUnwrapGo_turn]; simp
    · simp
  rw [this]

theorem kwWrap_length {key : Bytes} (hk : KeyFits key) (p : Bytes) (hp : ∀ b ∈ chunks 8 p, b.length = 8) (hne : chunks 8 p ≠ []) :
    (kwWrap key p).length = 8 + 8 * (chunks 8 p).length := by
  obtain ⟨d, q, e1, e2, e3, e4, -, -⟩ := kwWrapGo_undone hk (6 * (chunks 8 p).length) 0 kwIcv [] (chunks 8 p) rfl (by simpa using hp) (by simpa using hne)
  have hx : ∀ b ∈ d.reverse ++ q, b.length = 8 := by intro b h; exact e3 b (by simpa using h)
  unfold kwWrap kwW
  rw [List.length_append, e2, e1, flatten_length hx]
  simp at e4 ⊢
  omega

theorem kwUnwrap_kwWrap {key : Bytes} (hk : KeyFits key) (p : Bytes) (hp : ∀ b ∈ chunks 8 p, b.length = 8) (hf : (chunks 8 p).flatten = p) (hne : chunks 8 p ≠ []) :
    kwUnwrap key (kwWrap key p) = (p, true) := by
  unfold kwUnwrap kwWrap
  rw [kwUnW_kwW hk _ _ rfl hp hne, hf]
  simp
end Sys2Proof.Machine
end

