-- ==== Sys2Proof/Laws/Dictionary.lean ====
section
/-! SUPPORT. Where the objects of a family stand (R95): the table that a symbolic index finds. -/

namespace Sys2Proof.Machine

theorem look_absent {α : Type} (m : SMap α) (q : Nat) (h : ∀ p ∈ m, p.1 ≠ q) : SMap.look m q = none := by
  induction m with
  | nil => rfl
  | cons p m ih =>
    obtain ⟨k, v⟩ := p
    unfold SMap.look
    rw [if_neg (h (k, v) (List.mem_cons_self ..))]
    exact ih fun p hp => h p (List.mem_cons_of_mem _ hp)

/-- No single index lies in the range lo to hi. -/
theorem single_absent {lo hi i : Nat} (h : (Dict.single.all fun p => decide (p.1 < lo ∨ hi ≤ p.1)) = true) (hl : lo ≤ i) (hh : i < hi) :
    SMap.look Dict.single i = none := by
  apply look_absent
  intro p hp he
  have := List.all_eq_true.mp h p hp
  simp only [decide_eq_true_eq] at this
  omega

theorem find_can {n : Nat} (h : n < 4) (k : Nat) : Dict.find (0x1200 + n) k = (true, SMap.look Dict.tCan k) := by
  unfold Dict.find
  rw [single_absent (lo := 0x1200) (hi := 0x1204) (by rfl) (by omega) (by omega)]
  simp only [Dict.families, Dict.familyTable]
  rw [if_pos (by omega)]

theorem find_template {n : Nat} (h : n < 64) (k : Nat) : Dict.find (0x3000 + n) k = (true, SMap.look Dict.tTemplate k) := by
  unfold Dict.find
  rw [single_absent (lo := 0x3000) (hi := 0x3040) (by rfl) (by omega) (by omega)]
  simp only [Dict.families, Dict.familyTable]
  rw [if_neg (by omega), if_pos (by omega)]

theorem find_channel {n : Nat} (h : n < 32768) (k : Nat) : Dict.find (0x4000 + n) k = (true, SMap.look Dict.tChannelAll k) := by
  unfold Dict.find
  rw [single_absent (lo := 0x4000) (hi := 0xC000) (by rfl) (by omega) (by omega)]
  simp only [Dict.families, Dict.familyTable]
  rw [if_neg (by omega), if_neg (by omega), if_pos (by omega)]

theorem find_counter {n : Nat} (h : n < 2048) (k : Nat) : Dict.find (0xC000 + n) k = (true, SMap.look Dict.tCounter k) := by
  unfold Dict.find
  rw [single_absent (lo := 0xC000) (hi := 0xC800) (by rfl) (by omega) (by omega)]
  simp only [Dict.families, Dict.familyTable]
  rw [if_neg (by omega), if_neg (by omega), if_neg (by omega), if_pos (by omega)]

theorem find_stream {n : Nat} (h : n < 16) (k : Nat) : Dict.find (0xCF00 + n) k = (true, SMap.look Dict.tStream k) := by
  unfold Dict.find
  rw [single_absent (lo := 0xCF00) (hi := 0xCF10) (by rfl) (by omega) (by omega)]
  simp only [Dict.families, Dict.familyTable]
  rw [if_neg (by omega), if_neg (by omega), if_neg (by omega), if_neg (by omega), if_pos (by omega)]

theorem find_ple {n : Nat} (h : n < 8) (k : Nat) : Dict.find (0xCF30 + n) k = (true, SMap.look Dict.tPle k) := by
  unfold Dict.find
  rw [single_absent (lo := 0xCF30) (hi := 0xCF38) (by rfl) (by omega) (by omega)]
  simp only [Dict.families, Dict.familyTable]
  rw [if_neg (by omega), if_neg (by omega), if_neg (by omega), if_neg (by omega), if_neg (by omega), if_pos (by omega)]

theorem find_cell {n : Nat} (h : n < 32) (k : Nat) : Dict.find (0xD000 + n) k = (true, SMap.look Dict.tCell k) := by
  unfold Dict.find
  rw [single_absent (lo := 0xD000) (hi := 0xD020) (by rfl) (by omega) (by omega)]
  simp only [Dict.families, Dict.familyTable]
  rw [if_neg (by omega), if_neg (by omega), if_neg (by omega), if_neg (by omega), if_neg (by omega), if_neg (by omega), if_pos (by omega)]

theorem find_output {n : Nat} (h : n < 8) (k : Nat) : Dict.find (0xDB00 + n) k = (true, SMap.look Dict.tOutput k) := by
  unfold Dict.find
  rw [single_absent (lo := 0xDB00) (hi := 0xDB08) (by rfl) (by omega) (by omega)]
  simp only [Dict.families, Dict.familyTable]
  rw [if_neg (by omega), if_neg (by omega), if_neg (by omega), if_neg (by omega), if_neg (by omega), if_neg (by omega), if_neg (by omega),
    if_pos (by omega)]

theorem find_perf {n : Nat} (h : n < 14) (k : Nat) : Dict.find (0xE000 + n) k = (true, SMap.look (Dict.tPerfOf n) k) := by
  unfold Dict.find
  rw [single_absent (lo := 0xE000) (hi := 0xE00E) (by rfl) (by omega) (by omega)]
  simp only [Dict.families, Dict.familyTable]
  rw [if_neg (by omega), if_neg (by omega), if_neg (by omega), if_neg (by omega), if_neg (by omega), if_neg (by omega), if_neg (by omega),
    if_neg (by omega), if_neg (by omega), if_neg (by omega)]
  dsimp only
  rw [if_neg (by omega), if_neg (by omega), if_neg (by omega), if_neg (by omega), if_pos (by omega)]
  rw [show 0xE000 + n - 0xE000 = n by omega]

end Sys2Proof.Machine
end

