-- ==== Sys2Proof/Laws/Memory.lean ====
section
/-! SUPPORT. The memory of a cell (R428): every operation on it keeps its canonical form, and what is read after a store. -/

namespace Sys2Proof.Machine

namespace SMap

variable {α : Type}

/-- The canonical form as an order of the whole list. -/
theorem wf_iff_pairwise (m : SMap α) : wf m = true ↔ m.Pairwise fun p q => p.1 < q.1 := by
  induction m with
  | nil => simp [wf]
  | cons p m ih =>
    obtain ⟨k, v⟩ := p
    rw [wf_cons, List.pairwise_cons, ih]
    rfl

theorem mem_put {m : SMap α} {q : Nat} {v : α} {p : Nat × α} (h : p ∈ put m q v) : p = (q, v) ∨ p ∈ m := by
  induction m with
  | nil => simpa [put] using h
  | cons x m ih =>
    obtain ⟨k, w⟩ := x
    unfold put at h
    split at h
    · exact (List.mem_cons.mp h).imp id id
    · split at h
      · exact (List.mem_cons.mp h).imp id (List.mem_cons_of_mem _)
      · rcases List.mem_cons.mp h with e | e
        · exact .inr (e ▸ List.mem_cons_self)
        · exact (ih e).imp id (List.mem_cons_of_mem _)

theorem mem_del {m : SMap α} {q : Nat} {p : Nat × α} (h : p ∈ del m q) : p ∈ m := by
  induction m with
  | nil => simp [del] at h
  | cons x m ih =>
    obtain ⟨k, w⟩ := x
    unfold del at h
    split at h
    · exact List.mem_cons_of_mem _ (ih h)
    · exact (List.mem_cons.mp h).elim (fun e => e ▸ List.mem_cons_self) fun e => List.mem_cons_of_mem _ (ih e)

end SMap

theorem Memory.wf_iff (m : SMap Byte) : Memory.wf m = true ↔ SMap.wf m = true ∧ ∀ p ∈ m, p.2 ≠ 0 := by
  simp [Memory.wf]

theorem Memory.wf_nil : Memory.wf [] = true := rfl

/-- One byte written keeps the canonical form. -/
theorem Memory.wf_store (m : SMap Byte) (a : Nat) (v : Byte) (h : Memory.wf m = true) : Memory.wf (SMap.store m a v 0) = true := by
  rw [Memory.wf_iff] at h ⊢
  refine ⟨SMap.wf_store m a v 0 h.1, ?_⟩
  intro p hp
  unfold SMap.store at hp
  split at hp
  · exact h.2 p (SMap.mem_del hp)
  · rename_i hv
    rcases SMap.mem_put hp with e | e
    · subst e; exact hv
    · exact h.2 p e

/-- A store of any length keeps the canonical form. -/
theorem storeBytes_wf (x : Cell) (a : Nat) (b : Bytes) (h : Memory.wf x.mem = true) : Memory.wf (storeBytes x a b).mem = true := by
  unfold storeBytes
  dsimp only
  generalize (List.range b.length).zip b = ps
  generalize x.mem = m at h
  induction ps generalizing m with
  | nil => exact h
  | cons p ps ih => exact ih _ (Memory.wf_store m _ _ h)

/-- Bytes written from address a up. -/
def storeRun : SMap Byte → Nat → Bytes → SMap Byte
  | m, _, [] => m
  | m, a, v :: b => storeRun (SMap.store m a v 0) (a + 1) b

/-- A store is one byte after another, from its first address up. -/
theorem storeFold_eq (m : SMap Byte) (a n : Nat) (b : Bytes) :
    ((List.range' n b.length).zip b).foldl (fun m p => SMap.store m (a + p.1) p.2 0) m = storeRun m (a + n) b := by
  induction b generalizing m n with
  | nil => rfl
  | cons v b ih => exact ih (SMap.store m (a + n) v 0) (n + 1)

theorem at_storeRun (m : SMap Byte) (a k : Nat) (b : Bytes) :
    SMap.at' (storeRun m a b) k 0 = if a ≤ k ∧ k < a + b.length then b.getD (k - a) 0 else SMap.at' m k 0 := by
  induction b generalizing m a with
  | nil => simp [storeRun]
  | cons v b ih =>
    rw [storeRun, ih, SMap.at_store]
    by_cases h1 : k = a
    · subst h1
      simp
    · by_cases h2 : a + 1 ≤ k ∧ k < a + 1 + b.length
      · rw [if_pos h2, if_pos ⟨by omega, by simp; omega⟩]
        obtain ⟨n, rfl⟩ : ∃ n, k = a + 1 + n := ⟨k - (a + 1), by omega⟩
        rw [show a + 1 + n - (a + 1) = n by omega, show a + 1 + n - a = n + 1 by omega]
        rfl
      · rw [if_neg h2, if_neg h1, if_neg (by simp; omega)]

/-- What a byte reads as after a store: the byte stored there, or what it read as before. -/
theorem loadByte_storeBytes (x : Cell) (a k : Nat) (b : Bytes) :
    loadByte (storeBytes x a b) k = if a ≤ k ∧ k < a + b.length then b.getD (k - a) 0 else loadByte x k := by
  unfold loadByte storeBytes
  dsimp only
  rw [List.range_eq_range', storeFold_eq x.mem a 0 b]
  exact at_storeRun x.mem a k b

/-- A store leaves everything of a cell but its memory alone. -/
theorem storeBytes_frame (x : Cell) (a : Nat) (b : Bytes) : storeBytes x a b = { x with mem := (storeBytes x a b).mem } := rfl

theorem mem_memFrom {base : Nat} {b : Bytes} {p : Nat × Byte} (h : p ∈ memFrom base b) : base ≤ p.1 ∧ p.1 < base + b.length ∧ p.2 ≠ 0 := by
  unfold memFrom at h
  obtain ⟨x, hx, he⟩ := List.mem_filterMap.mp h
  have := (List.of_mem_zip hx).1
  rw [List.mem_range] at this
  split at he
  · cases he
  · cases he; exact ⟨by simp, by simp; omega, ‹_›⟩

/-- Bytes loaded as a memory are in canonical form. -/
theorem memFrom_wf (base : Nat) (b : Bytes) : Memory.wf (memFrom base b) = true := by
  rw [Memory.wf_iff, SMap.wf_iff_pairwise]
  refine ⟨?_, fun p hp => (mem_memFrom hp).2.2⟩
  unfold memFrom
  refine List.Pairwise.filterMap (R := fun p q : Nat × Byte => p.1 < q.1) _ ?_ ?_
  · intro p q hpq x hx y hy
    split at hx <;> cases hx
    split at hy <;> cases hy
    show base + p.1 < base + q.1
    omega
  · have h := List.pairwise_lt_range (n := b.length)
    have h2 : (((List.range b.length).zip b).map Prod.fst).Pairwise (· < ·) := by
      rw [List.map_fst_zip (by simp)]; exact h
    exact List.pairwise_map.mp h2

/-- Two memories one above the other are one in canonical form. -/
theorem Memory.wf_append {m n : SMap Byte} {top : Nat} (hm : Memory.wf m = true) (hn : Memory.wf n = true) (h1 : ∀ p ∈ m, p.1 < top)
    (h2 : ∀ p ∈ n, top ≤ p.1) : Memory.wf (m ++ n) = true := by
  rw [Memory.wf_iff, SMap.wf_iff_pairwise] at hm hn ⊢
  refine ⟨List.pairwise_append.mpr ⟨hm.1, hn.1, fun p hp q hq => Nat.lt_of_lt_of_le (h1 p hp) (h2 q hq)⟩, ?_⟩
  intro p hp
  exact (List.mem_append.mp hp).elim (hm.2 p) (hn.2 p)

/-- A cell as its load sets it up has its memory in canonical form (R428). -/
theorem loadedCell_wf (m : Bytes) (c reason : Nat) : Memory.wf (loadedCell m c reason).mem = true := by
  refine Memory.wf_append (top := codeTop m) (memFrom_wf _ _) (memFrom_wf _ _) ?_ fun p hp => (mem_memFrom hp).1
  intro p hp
  have := (mem_memFrom hp).2.1
  have hl := List.length_take_le (mf m 0x20 4) (m.drop 128)
  have ht : mf m 0x20 4 ≤ codeTop m := by unfold codeTop; omega
  omega

/-- No cell of the machine at reset has memory: the canonical form holds of every one. -/
theorem reset_memory_wf : ∀ p ∈ State.reset.twc.cells, Memory.wf p.2.mem = true := by simp [State.reset, State.start]

/-- A cell without an applet running has no memory. -/
theorem cell0_wf : Memory.wf cell0.mem = true := rfl

end Sys2Proof.Machine
end

