-- ==== Sys2Proof/Laws/Requests.lean ====
section
/-! SUPPORT. What a request that meets nothing in its way leaves: its effect, its response, and bookkeeping. -/

namespace Sys2Proof.Machine

theorem takeInput_cases (s : State) (r : Rq) : ∃ h b, takeInput s r = { s with host := h, bar := b } := by
  unfold takeInput takeBuffered updBar
  dsimp only
  split
  · exact ⟨_, _, rfl⟩
  · split <;> exact ⟨_, _, rfl⟩

/-- The key of a node depends on its cache entry, the node records, the epochs, the pair secret and the UDS path alone. -/
theorem keyGo_congr {u s : State} (hc : u.cache = s.cache) (hn : u.pers.nodes = s.pers.nodes) (he : u.pers.epochs = s.pers.epochs) (ho : u.otp = s.otp)
    (p : Option Bytes) (f n : Nat) : keyGo u p f n = keyGo s p f n := by
  induction f generalizing n with
  | zero => rfl
  | succ f ih => simp only [keyGo, cachedKey, nodeOf, udsPath, epochOf, hc, hn, he, ho, ih]

/-- The keys of a session at its use, in states that differ in none of these (R318). -/
theorem keys_congr {u s : State} (hc : u.cache = s.cache) (hn : u.pers.nodes = s.pers.nodes) (he : u.pers.epochs = s.pers.epochs)
    (hp : u.pers.pair = s.pers.pair) (ho : u.otp = s.otp) (k : Nat) (z : Session) : Session.keys u k z = Session.keys s k z := by
  have h : pairSecretOf u = pairSecretOf s := by unfold pairSecretOf; rw [hp]; split <;> simp only [keyGo_congr hc hn he ho]
  simp only [Session.keys, nodeKey, h, keyGo_congr hc hn he ho]

theorem number_seq (s : State) : (number s).seq = { s.seq with adm := s.seq.adm + 1, admTime := s.seq.time, who := (0xFF, 0xFF, 0) } := by
  unfold number
  dsimp only
  split <;> simp

theorem number_cases (s : State) : ∃ n f, number s =
    { s with
      seq := { s.seq with adm := s.seq.adm + 1, admTime := s.seq.time, who := (0xFF, 0xFF, 0) }, pers := { s.pers with reserved := n }, perf := f } := by
  unfold number
  obtain ⟨f, hf⟩ := count_perf { s with seq := { s.seq with adm := s.seq.adm + 1, admTime := s.seq.time, who := (0xFF, 0xFF, 0) } } 0 1 1
  dsimp only
  rw [hf]
  split
  · exact ⟨_, f, rfl⟩
  · exact ⟨s.pers.reserved, f, rfl⟩

/-- A numbered request changes the input buffers, the number and its time, the block reservation and the counters. -/
theorem numberedIn_cases (s : State) (r : Rq) : ∃ h b n f, numberedIn s r =
    { s with
      host := h, bar := b, seq := { s.seq with adm := s.seq.adm + 1, admTime := s.seq.time, who := (0xFF, 0xFF, 0) }
      pers := { s.pers with reserved := n }, perf := f } := by
  obtain ⟨h, b, e⟩ := takeInput_cases s r
  obtain ⟨n, f, e2⟩ := number_cases (takeInput s r)
  refine ⟨h, b, n, f, ?_⟩
  unfold numberedIn
  rw [e2, e]

@[simp] theorem getObj_numberedIn (s : State) (r : Rq) (i k : Nat) : getObj (numberedIn s r) i k = getObj s i k := by
  obtain ⟨h, b, n, f, e⟩ := numberedIn_cases s r
  rw [e]; rfl
@[simp] theorem num_numberedIn (s : State) (r : Rq) (i k : Nat) : num (numberedIn s r) i k = num s i k := by
  unfold num; rw [getObj_numberedIn]
@[simp] theorem oct_numberedIn (s : State) (r : Rq) (i k : Nat) : oct (numberedIn s r) i k = oct s i k := by
  unfold oct; rw [getObj_numberedIn]
@[simp] theorem getObj_admittedIn (s : State) (r : Rq) (tr : Trailer) (i k : Nat) : getObj (admittedIn s r tr) i k = getObj s i k := by
  unfold admittedIn; rw [getObj_touchSession, getObj_calledBy, getObj_numberedIn]
@[simp] theorem num_admittedIn (s : State) (r : Rq) (tr : Trailer) (i k : Nat) : num (admittedIn s r tr) i k = num s i k := by
  unfold num; rw [getObj_admittedIn]
@[simp] theorem oct_admittedIn (s : State) (r : Rq) (tr : Trailer) (i k : Nat) : oct (admittedIn s r tr) i k = oct s i k := by
  unfold oct; rw [getObj_admittedIn]

/-- The session of an authentic request after it (R120). -/
def renewed (s : State) (tr : Trailer) : SMap Session :=
  s.sessions.map fun p => if p.1 = tr.slot then (p.1, { p.2 with time := s.seq.time, last := tr.counter }) else p

/-- An authentic request also renews its session, under whose name its records go. -/
theorem admittedIn_cases (s : State) (r : Rq) (tr : Trailer) : ∃ h b n f, admittedIn s r tr =
    { s with
      host := h, bar := b, seq := { s.seq with adm := s.seq.adm + 1, admTime := s.seq.time, who := (callerNow s r tr).who }
      pers := { s.pers with reserved := n }, perf := f, sessions := renewed s tr } := by
  obtain ⟨h, b, n, f, e⟩ := numberedIn_cases s r
  refine ⟨h, b, n, f, ?_⟩
  unfold admittedIn
  rw [e]
  rfl

/-- Check 4 passes for an authentic request (R107), wherever the sessions and the units stand as they did. -/
theorem sessionCheck_ok {s u : State} {r : Rq} {tr : Trailer} {z : Session} (h : Authentic s r tr z) {t : Nat} (ht : t ≤ s.seq.time)
    (hs : u.sessions = s.sessions) (hk : Session.keys u tr.slot z = Session.keys s tr.slot z) (hi : idleLimit u = idleLimit s) (he : entropyOk u = true) (hc : cipherUp u = true) :
    sessionCheck u r t = ⟨0, callerOf r tr z, some tr.slot, false⟩ := by
  unfold sessionCheck
  rw [h.trailer]
  dsimp only
  rw [hs, h.slot]
  dsimp only
  rw [hi, hk]
  have h1 := h.origin
  have h2 := ht.trans h.intime
  have h3 := h.fresh
  have h4 := h.more
  have h5 : tr.tag ≠ [] := fun e => by simpa [e] using h.whole
  have h6 : (cmac ((Session.keys s tr.slot z).take 32) (0 :: r.signed)).take 8 = fitBytes 8 tr.tag := h.tag.symm
  simp [h.bound, h.live, h.sound, he, hc, h.whole, h1, h5, callerOf, Nat.not_lt.mpr h2, Nat.not_le.mpr h3, h4]
  exact h6

theorem sessionCheck_none {u : State} {r : Rq} (h : r.trailer = none) (t : Nat) : sessionCheck u r t = ⟨0, nobody r, none, false⟩ := by
  unfold sessionCheck; rw [h]; rfl

/-- The key that seals the responses of request r. -/
def sealKey (s : State) (r : Rq) : Bytes := trailerKey s (r.trailer.map (·.slot))

/-- It is the same wherever the sessions and their keys are. -/
theorem trailerKey_congr {u s : State} (hs : u.sessions = s.sessions) (hk : ∀ k z, Session.keys u k z = Session.keys s k z) (o : Option Nat) :
    trailerKey u o = trailerKey s o := by
  unfold trailerKey; rw [hs]; simp only [hk]

theorem sealKey_of {s : State} {r : Rq} {tr : Trailer} {z : Session} (ht : r.trailer = some tr) (hz : SMap.look s.sessions tr.slot = some z) :
    sealKey s r = sessionKey s tr.slot z := by
  unfold sealKey trailerKey sessionKey; rw [ht]; simp [hz]

/-- What a numbered request in state u, under the name of caller c, has before its service: its session after it. -/
def beforeService (u : State) (r : Rq) (x : SessRes) : State := afterSession (calledBy u x.ctx) r x

/-- The service of a numbered request past check 4 comes to e: what the admission performs. -/
theorem perform_ok {s : State} {r : Rq} {x : SessRes} {e : Eff} (hx : sessionCheck (numberedIn s r) r s.seq.time = x) (h0 : x.code = 0)
    (h1 : x.ends = false) (hv : ¬(x.ctx.role = some 3 ∧ x.ctx.slot.isSome ∧ serviceOn s ∧ vigilOn s))
    (hread : recordedRead (numberedIn s r) r = false)
    (he : service (beforeService (numberedIn s r) r x) x.ctx r true = .out e) (hkeep : keptOut (beforeService (numberedIn s r) r x) r e = e) :
    perform (numberedIn s r) r = some (e, x, sealKey s r) := by
  obtain ⟨h, b, n, f, eq⟩ := numberedIn_cases s r
  have ht : (numberedIn s r).seq.admTime = s.seq.time := by rw [eq]
  have hk : trailerKey (numberedIn s r) (r.trailer.map (·.slot)) = sealKey s r :=
    trailerKey_congr (by rw [eq]) (fun k z => by rw [eq]; exact keys_congr rfl rfl rfl rfl rfl k z) _
  have hf : ∀ k, modeFlag (beforeService (numberedIn s r) r x) k = modeFlag s k := by
    intro k
    have : num (beforeService (numberedIn s r) r x) 0x2000 k = num s 0x2000 k := by
      unfold beforeService afterSession; split <;> simp
    unfold modeFlag; rw [this]
  unfold perform
  dsimp only
  rw [ht, hx, hk]
  have hno : ¬(x.ctx.role = some 3 ∧ x.ctx.slot.isSome = true ∧ serviceOn (beforeService (numberedIn s r) r x) = true ∧
      vigilOn (beforeService (numberedIn s r) r x) = true) := by
    unfold serviceOn vigilOn; rw [hf, hf]; exact hv
  have hrec : recordRead (calledBy (numberedIn s r) x.ctx) r x = calledBy (numberedIn s r) x.ctx := by
    have h2 : needsRecord (calledBy (numberedIn s r) x.ctx) r = false := by
      have h3 : ∀ u c, recordedRead (calledBy u c) r = recordedRead u r := by
        intro u c
        have h4 : (calledBy u c).sessions = u.sessions := rfl
        have h5 : ∀ n, serviceChannel (calledBy u c) n = serviceChannel u n := fun _ => rfl
        simp only [recordedRead, serviceOn, vigilOn, auditOn, modeFlag, num_calledBy, h4, h5]
        rfl
      unfold needsRecord; rw [h3, hread]; rfl
    unfold recordRead; rw [h2]; simp
  have hrs : recordService (beforeService (numberedIn s r) r x) x = beforeService (numberedIn s r) r x := by unfold recordService; rw [if_neg hno]
  have hb : afterSession (calledBy (numberedIn s r) x.ctx) r x = beforeService (numberedIn s r) r x := rfl
  rw [hrec, if_neg (by simp [h0]), hb, hrs, he]
  dsimp only
  rw [hkeep, h1]
  simp

/-- A request reaches the admission point of a unit in READY and RUN. -/
theorem request_serves {s : State} {r : Rq} (hr : Ready s) (h : Sound s r) : request s r = serveRequest s r := by
  have hw : wake s = s := by unfold wake; rw [hr.run]; simp
  have hpo : pairOrigin s r.origin = r.origin := by unfold pairOrigin; rw [hr.leads]; simp
  have hserv : serving s = true := by unfold serving; rw [hr.stage]; rfl
  have hst : started s = true := by unfold started; rw [hr.stage]; rfl
  have hup : sequencerUp s = true := by unfold sequencerUp; rw [hst, hr.powered, hr.taking, hr.run, hr.calm, hr.woken, hr.kept]; rfl
  unfold request
  rw [hw]
  dsimp only
  simp only [hpo]
  rw [h.reach, hr.stage, hr.run, hserv, hup, hr.woken, h.oldest, h.turn]
  simp

/-- The state after an INIT's discard of an open transfer, or as it was. -/
def initDiscard (s : State) (r : Rq) : State := if r.svc = 3 ∨ r.svc = 5 then replaceTransfer s r.origin else s

theorem initDiscard_same {s : State} {r : Rq} (h : transferOf s r.origin = none ∨ (r.svc ≠ 3 ∧ r.svc ≠ 5)) : initDiscard s r = s := by
  unfold initDiscard
  split
  · rename_i h0
    rcases h with h | h
    · unfold replaceTransfer; rw [h]
    · rcases h0 with h0 | h0
      · exact absurd h0 h.1
      · exact absurd h0 h.2
  · rfl

/-- A numbered request past check 4 whose service comes to e, with no code that a unit's fault leaves. -/
theorem request_admits {s : State} {r : Rq} {x : SessRes} {e : Eff} (hr : Ready s) (h : Sound s r) (hn : isNumbered s r = true)
    (hi : transferOf s r.origin = none ∨ (r.svc ≠ 3 ∧ r.svc ≠ 5))
    (hread : recordedRead (numberedIn s r) r = false) (hx : sessionCheck (numberedIn s r) r s.seq.time = x) (h0 : x.code = 0)
    (h1 : x.ends = false) (hv : ¬(x.ctx.role = some 3 ∧ x.ctx.slot.isSome ∧ serviceOn s ∧ vigilOn s))
    (he : service (beforeService (numberedIn s r) r x) x.ctx r true = .out e) (hkeep : keptOut (beforeService (numberedIn s r) r x) r e = e)
    (hc : e.code ≠ Abt.compareFault ∧ e.code ≠ Abt.resultCheck) (hq : e.s.seq.adm = s.seq.adm + 1)
    (hth : e.s.sheaf.theirs = s.sheaf.theirs) :
    Settled (pushSlot e.s (slotFor e.s r x (sealKey s r) true e)) (request s r) := by
  have hd : performDone (numberedIn s r) r = some ⟨pushSlot (claimTags e.s r x e) (slotFor e.s r x (sealKey s r) true e), e.code,
      (slotFor e.s r x (sealKey s r) true e).resp, e.random⟩ := by
    unfold performDone
    rw [perform_ok hx h0 h1 hv hread he hkeep]
    dsimp only
    have hf : ∀ u a, raiseFault u e.code r.phys a = u := by
      intro u a
      unfold raiseFault
      rw [h.sound]
      simp [hc.1, hc.2]
    simp [hf]
  rw [request_serves hr h]
  obtain ⟨hh, bb, et⟩ := takeInput_cases s r
  have hfw : forwards s r = false := by unfold forwards; rw [hr.leads]; simp
  have hpr : partnerRuns (takeInput s r) r = false := by
    have := h.here
    rw [et]; exact this
  have hs2 : (if r.svc = 3 ∨ r.svc = 5 then replaceTransfer (takeInput s r) r.origin else takeInput s r) = takeInput s r := by
    refine initDiscard_same (s := takeInput s r) ?_
    rw [et]; exact hi
  have hau : auditHolds (takeInput s r) (requestIn (takeInput s r) r) = false := by
    have := h.log
    rw [et]; exact this
  have hdn : performDone (number (takeInput s r)) r = _ := hd
  have hfd : ((performDone (number (takeInput s r)) r).getD ⟨number (takeInput s r), 0, none, false⟩) =
      ⟨pushSlot (claimTags e.s r x e) (slotFor e.s r x (sealKey s r) true e), e.code, (slotFor e.s r x (sealKey s r) true e).resp, e.random⟩ := by rw [hdn]; rfl
  obtain ⟨d, ed, es⟩ := admit_settled (takeInput s r) (requestIn (takeInput s r) r) (fun t => (performDone t r).getD ⟨t, 0, none, false⟩) hau (by
    rw [hfd]
    have h2 : (claimTags e.s r x e).sheaf = e.s.sheaf ∧ (claimTags e.s r x e).seq = e.s.seq := by unfold claimTags; split <;> exact ⟨rfl, rfl⟩
    dsimp only [pushSlot]
    rw [h2.1, h2.2, hth, hq]
    exact hr.first)
  rw [hfd] at es
  dsimp only at es
  have es : Settled (pushSlot e.s (slotFor e.s r x (sealKey s r) true e)) d.s := by
    exact Settled.trans ((settled_tags e.s r x e).push _) es
  have hbud : capacityHolds (takeInput s r) d.s = false := by
    have h1 : (number (takeInput s r)).seq = (number s).seq := by rw [number_seq, number_seq, et]
    have h2 : ¬ budgetNow (number (takeInput s r)) < 4000 := by
      have h3 := hr.token
      unfold budgetNow at h3 ⊢
      rw [h1]; omega
    have h3 : ¬ 100000 ≤ countedNow (number (takeInput s r)) := by
      have h4 := hr.pace
      unfold countedNow at h4 ⊢
      rw [h1]; omega
    unfold capacityHolds
    simp [h2, h3]
  have hall : admitRequest (takeInput s r) r = d.s := by
    unfold admitRequest
    rw [hdn]
    dsimp only
    rw [ed]
    dsimp only
    rw [if_neg (by rw [hbud]; decide)]
  have hadm : d.s.seq.adm = e.s.seq.adm := congrArg (fun x => x.seq.adm) es.rest
  have hsv : serveRequest s r = d.s := by
    unfold serveRequest
    dsimp only
    rw [hn, h.head, hfw, h.free, hs2, hpr, hall, hadm, hq]
    simp
  rw [hsv]
  exact es

/-- A request that takes no number, past check 4, whose service comes to e: it is ordered (R18). -/
theorem request_orders {s : State} {r : Rq} {x : SessRes} {e : Eff} (hr : Ready s) (h : Sound s r) (hn : isNumbered s r = false)
    (hx' : sessionCheck (initDiscard (takeInput s r) r) r (initDiscard (takeInput s r) r).seq.admTime = x)
    (h0 : x.code = 0)
    (hw : service (initDiscard (takeInput s r) r) x.ctx r false ≠ .wait)
    (hpr : partnerRuns (initDiscard (takeInput s r) r) r = false)
    (he : service (count (initDiscard (takeInput s r) r) 0 2 1) x.ctx r false = .out e) :
    request s r = pushSlot (claimTags e.s r x e) (slotFor e.s r x (sealKey (initDiscard (takeInput s r) r) r) false e) := by
  rw [request_serves hr h]
  have hfw : forwards s r = false := by unfold forwards; rw [hr.leads]; simp
  unfold serveRequest
  dsimp only
  rw [hn, h.head, hfw, h.free]
  have hrw : readWaits (initDiscard (takeInput s r) r) r = false := by
    unfold readWaits
    dsimp only
    rw [hx']
    revert hw
    cases service (initDiscard (takeInput s r) r) x.ctx r false with
    | wait => intro hw; exact absurd rfl hw
    | out e => intro _; simp
  have hor : orderRequest (initDiscard (takeInput s r) r) r = pushSlot (claimTags e.s r x e) (slotFor e.s r x (sealKey (initDiscard (takeInput s r) r) r) false e) := by
    unfold orderRequest sealKey
    dsimp only
    rw [hx']
    rw [if_neg (by simp [h0]), he]
  unfold initDiscard at hpr hrw hor ⊢
  simp only [ne_eq, not_true_eq_false, Bool.false_eq_true, ↓reduceIte]
  rw [hpr, hrw]
  simp only [Bool.false_eq_true, ↓reduceIte]
  exact hor

theorem slot_pushed (s : State) (y : Slot) : { y with id := s.seq.nextId } ∈ (pushSlot s y).slots := by unfold pushSlot; simp

/-- A settled admission shows its response slot, its number and its time. -/
theorem admitted_of {s t : State} {r : Rq} {x : SessRes} {e : Eff} {z : Option Session} {key : Bytes} (hs : Settled (pushSlot e.s (slotFor e.s r x key true e)) t)
    (hq : e.s.seq.adm = s.seq.adm + 1) (ht : e.s.seq.admTime = s.seq.time)
    (hz : (if x.sealBy.isSome then r.sealed key e.code e.body else r.response e.code e.body) = answer s r z e.code e.body) :
    Admitted s t r z e.lat e.code e.body e.acts := by
  have h1 : t.seq.adm = e.s.seq.adm := congrArg (fun x => x.seq.adm) hs.rest
  have h2 : t.seq.admTime = e.s.seq.admTime := congrArg (fun x => x.seq.admTime) hs.rest
  have h3 : t.slots = (pushSlot e.s (slotFor e.s r x key true e)).slots := congrArg (fun x => x.slots) hs.rest
  refine ⟨by rw [h1, hq], by rw [h2, ht], _, by rw [h3]; exact slot_pushed _ _, ?_⟩
  dsimp only [slotFor]
  rw [hq, ht]
  exact ⟨rfl, rfl, rfl, rfl, rfl, rfl, congrArg some hz⟩

/-- A numbered request on a session: its effect is settled and its response waits. -/
theorem authentic_admits {s : State} {r : Rq} {tr : Trailer} {z : Session} {e : Eff} (hr : Ready s) (h : Authentic s r tr z)
    (hn : isNumbered s r = true) (hi : transferOf s r.origin = none ∨ (r.svc ≠ 3 ∧ r.svc ≠ 5)) (hread : recordedRead (numberedIn s r) r = false)
    (hv : z.role = 3 → serviceOn s = false ∨ vigilOn s = false)
    (he : service (admittedIn s r tr) (callerOf r tr z) r true = .out e) (hkeep : keptOut (admittedIn s r tr) r e = e) (hc : e.code ≠ Abt.compareFault ∧ e.code ≠ Abt.resultCheck)
    (hq : e.s.seq.adm = s.seq.adm + 1) (ht : e.s.seq.admTime = s.seq.time) (hth : e.s.sheaf.theirs = s.sheaf.theirs) :
    ∃ y, Settled (pushSlot e.s y) (request s r) ∧ Admitted s (request s r) r (some z) e.lat e.code e.body e.acts := by
  obtain ⟨hh, b, n, f, eq⟩ := numberedIn_cases s r
  have hx : sessionCheck (numberedIn s r) r s.seq.time = ⟨0, callerOf r tr z, some tr.slot, false⟩ := by
    apply sessionCheck_ok h (Nat.le_refl _)
    · rw [eq]
    · rw [eq]; exact keys_congr rfl rfl rfl rfl rfl _ _
    · unfold idleLimit; rw [num_numberedIn]
    · unfold entropyOk; rw [num_numberedIn, eq]; simp [hr.source, hr.entropy]
    · unfold cipherUp; rw [num_numberedIn, hr.lane]; rfl
  have hcn : callerNow s r tr = callerOf r tr z := by unfold callerNow; rw [h.slot]; rfl
  have ha : beforeService (numberedIn s r) r ⟨0, callerOf r tr z, some tr.slot, false⟩ = admittedIn s r tr := by
    unfold beforeService afterSession admittedIn
    rw [h.trailer, eq, hcn]
    rfl
  have hs := request_admits hr h.toSound hn hi hread hx rfl rfl (by
    rintro ⟨h1, -, h2, h3⟩
    have h1' : z.role = 3 := by simpa [callerOf] using h1
    rcases hv h1' with h4 | h4
    · rw [h2] at h4; cases h4
    · rw [h3] at h4; cases h4) (by rw [ha]; exact he) (by rw [ha]; exact hkeep) hc hq hth
  refine ⟨_, hs, admitted_of hs hq ht ?_⟩
  rw [sealKey_of h.trailer h.slot]
  unfold answer
  rw [h.trailer]
  rfl

/-- A numbered request without a session. -/
theorem anonymous_admits {s : State} {r : Rq} {e : Eff} (hr : Ready s) (h : Anonymous s r)
    (hn : isNumbered s r = true) (hi : transferOf s r.origin = none ∨ (r.svc ≠ 3 ∧ r.svc ≠ 5)) (hread : recordedRead (numberedIn s r) r = false)
    (he : service (calledBy (numberedIn s r) (nobody r)) (nobody r) r true = .out e)
    (hkeep : keptOut (calledBy (numberedIn s r) (nobody r)) r e = e) (hc : e.code ≠ Abt.compareFault ∧ e.code ≠ Abt.resultCheck)
    (hq : e.s.seq.adm = s.seq.adm + 1) (ht : e.s.seq.admTime = s.seq.time) (hth : e.s.sheaf.theirs = s.sheaf.theirs) :
    ∃ y, Settled (pushSlot e.s y) (request s r) ∧ Admitted s (request s r) r none e.lat e.code e.body e.acts := by
  have ha : beforeService (numberedIn s r) r ⟨0, nobody r, none, false⟩ = calledBy (numberedIn s r) (nobody r) := by
    unfold beforeService afterSession; rw [h.trailer]
  have hs := request_admits hr h.toSound hn hi hread (sessionCheck_none h.trailer _) rfl rfl (by simp [nobody]) (by rw [ha]; exact he) (by rw [ha]; exact hkeep) hc hq hth
  exact ⟨_, hs, admitted_of hs hq ht rfl⟩

/-- A read or transfer step on a session that takes no number, with no transfer open. -/
theorem authentic_orders {s : State} {r : Rq} {tr : Trailer} {z : Session} {e : Eff} (hr : Ready s) (h : Authentic s r tr z)
    (hn : isNumbered s r = false) (hi : transferOf s r.origin = none ∨ (r.svc ≠ 3 ∧ r.svc ≠ 5)) (hlate : s.seq.admTime ≤ s.seq.time)
    (hw : service (takeInput s r) (callerOf r tr z) r false ≠ .wait)
    (he : service (count (takeInput s r) 0 2 1) (callerOf r tr z) r false = .out e) :
    ∃ y n, request s r = pushSlot (claimMasks e.s n) y ∧ y.adm = e.s.seq.adm ∧ y.numbered = false ∧ y.origin = r.origin ∧ y.due = e.s.seq.time + e.lat ∧
      y.code = e.code ∧ y.acts = e.acts ∧ y.resp = some (answer s r (some z) e.code e.body) := by
  obtain ⟨hh, b, eq⟩ := takeInput_cases s r
  have hid : initDiscard (takeInput s r) r = takeInput s r := initDiscard_same (by rw [eq]; exact hi)
  have hnum : ∀ i k, num (takeInput s r) i k = num s i k := by intro i k; rw [eq]; rfl
  have hx : sessionCheck (takeInput s r) r (takeInput s r).seq.admTime = ⟨0, callerOf r tr z, some tr.slot, false⟩ := by
    apply sessionCheck_ok h
    · rw [eq]; exact hlate
    · rw [eq]
    · rw [eq]; exact keys_congr rfl rfl rfl rfl rfl _ _
    · unfold idleLimit; rw [hnum]
    · unfold entropyOk; rw [hnum, eq]; simp [hr.source, hr.entropy]
    · unfold cipherUp; rw [hnum, hr.lane]; rfl
  have hpr : partnerRuns (takeInput s r) r = false := by have := h.here; rw [eq]; exact this
  have := request_orders (x := ⟨0, callerOf r tr z, some tr.slot, false⟩) hr h.toSound hn (by rw [hid]; exact hx) rfl (by rw [hid]; exact hw) (by rw [hid]; exact hpr) (by rw [hid]; exact he)
  refine ⟨_, _, this, rfl, rfl, rfl, rfl, rfl, rfl, ?_⟩
  have hk : sealKey (initDiscard (takeInput s r) r) r = sessionKey s tr.slot z := by
    rw [hid, ← sealKey_of h.trailer h.slot]
    exact trailerKey_congr (by rw [eq]) (fun k z => by rw [eq]; exact keys_congr rfl rfl rfl rfl rfl k z) _
  rw [hk]
  unfold answer
  rw [h.trailer]
  rfl

/-- The same without a session. -/
theorem anonymous_orders {s : State} {r : Rq} {e : Eff} (hr : Ready s) (h : Anonymous s r)
    (hn : isNumbered s r = false) (hi : transferOf s r.origin = none ∨ (r.svc ≠ 3 ∧ r.svc ≠ 5))
    (hw : service (takeInput s r) (nobody r) r false ≠ .wait) (he : service (count (takeInput s r) 0 2 1) (nobody r) r false = .out e) :
    ∃ y, request s r = pushSlot e.s y ∧ y.adm = e.s.seq.adm ∧ y.numbered = false ∧ y.origin = r.origin ∧ y.due = e.s.seq.time + e.lat ∧
      y.code = e.code ∧ y.acts = e.acts ∧ y.resp = some (answer s r none e.code e.body) := by
  obtain ⟨hh, b, eq⟩ := takeInput_cases s r
  have hid : initDiscard (takeInput s r) r = takeInput s r := initDiscard_same (by rw [eq]; exact hi)
  have hpr : partnerRuns (takeInput s r) r = false := by have := h.here; rw [eq]; exact this
  have := request_orders hr h.toSound hn (sessionCheck_none h.trailer _) rfl (by rw [hid]; exact hw) (by rw [hid]; exact hpr) (by rw [hid]; exact he)
  exact ⟨_, this, rfl, rfl, rfl, rfl, rfl, rfl, rfl⟩

end Sys2Proof.Machine
end

