-- ==== Sys2Proof/Laws/Writes.lean ====
section
/-! SUPPORT. What an accepted write of a value leaves (R107, R108, R123). -/

namespace Sys2Proof.Machine

theorem settled_jour (s : State) (j : Journal) : Settled s { s with pers := { s.pers with jour := j } } := ⟨rfl, fun _ _ _ _ => rfl, .inl rfl⟩

theorem settled_noExport (s : State) : Settled s { s with exportRun := none } := ⟨rfl, fun _ _ _ _ => rfl, .inr rfl⟩

theorem settled_laps (s : State) (w : Laps) : Settled s { s with pers := { s.pers with laps := w } } := ⟨rfl, fun _ _ _ _ => rfl, .inl rfl⟩

theorem settled_cancel (s : State) (j : Journal) : Settled s (cancelExport s j) := by
  unfold cancelExport
  split
  · split
    · exact (settled_noExport s).trans (settled_setNum _ 2 (by omega) rfl)
    · exact Settled.refl s
  · exact Settled.refl s

/-- A journal record touches the journal, its objects and the counters alone. -/
theorem settled_journalAt (s : State) (pl : Place) (pin : Bool) (h : RecHead) (body : Bytes) : Settled s (journalAt s pl pin h body) := by
  unfold journalAt journalNo
  dsimp only
  split
  · exact Settled.refl s
  · rename_i j lost _
    generalize hg : (if lost.isEmpty = true then j else _) = j1
    generalize hp : (pin && _ : Bool) = p1
    refine Settled.trans ?_ (settled_count _ 8 2 _)
    refine Settled.trans ?_ (settled_jour _ _)
    have h1 := settled_cancel s j
    generalize cancelExport s j = s1 at h1 ⊢
    have hl := h1.trans (settled_if (Jour.newLap s1.pers.jour j = true) (settled_laps s1 { s1.pers.laps with jour := s1.pers.laps.jour + 1 }))
    generalize (if Jour.newLap s1.pers.jour j = true then { s1 with pers := { s1.pers with laps := { s1.pers.laps with jour := s1.pers.laps.jour + 1 } } }
      else s1) = s2 at hl ⊢
    have h3 : Settled s (if lost.isEmpty = true then s2 else setNum s2 0xDC00 5 (Machine.num s2 0xDC00 5 + lost.length)) := by
      split
      · exact hl
      · exact hl.trans (settled_setNum _ _ (by omega) rfl)
    generalize (if lost.isEmpty = true then s2 else setNum s2 0xDC00 5 (Machine.num s2 0xDC00 5 + lost.length)) = s3 at h3 ⊢
    split
    · exact h3.trans (settled_setNum _ _ (by omega) rfl)
    · exact h3

/-- A write on a settled state is settled on the write. -/
theorem Settled.setObj {a b : State} (h : Settled a b) (i k : Nat) (v : Val) : Settled (setObj a i k v) (setObj b i k v) := by
  obtain ⟨d, p, l, ha⟩ := setObj_dict a i k v
  obtain ⟨d', p', l', hb⟩ := setObj_dict b i k v
  refine ⟨?_, fun i' k' hk hn => ?_, ?_⟩
  · rw [ha, hb]; exact h.rest
  · have := h.objects i' k' hk hn
    unfold getObj at this ⊢
    unfold Machine.setObj
    cases hd' : (Dict.find i' k').2 with
    | none => rfl
    | some d' =>
      rw [hd'] at this
      dsimp only at this ⊢
      cases hd : (Dict.find i k).2 with
      | none => exact this
      | some d =>
        dsimp only
        by_cases hp : d.pers <;> by_cases hp' : d'.pers <;> simp only [hp, hp', ↓reduceIte, Bool.false_eq_true] at this ⊢ <;>
          simp only [Pers.write_dict, SMap.at', SMap.look_store] at this ⊢ <;>
            first | exact this | (split <;> first | rfl | exact this)
  · rw [ha, hb]; exact h.run

/-- The value that a write of v leaves in an object of a type other than DOMAIN is v as it decodes. -/
theorem not_woDomain {i k : Nat} {d : Desc} (hf : Dict.find i k = (true, some d)) (hl : d.ty ≠ .domain) : isWoDomain i k = false := by
  unfold isWoDomain; rw [hf]; simp [hl]

/-- The state after an accepted write with effect e, but for bookkeeping. -/
theorem settled_commit_write (s : State) (c : Ctx) {i k : Nat} {d : Desc} (v : Bytes) (e : Eff) (hf : Dict.find i k = (true, some d))
    (hl : d.ty ≠ .domain) (hp : roleInForce s true i k d ≠ .pair) (hq : ¬(i = 0x2000 ∧ k = 7 ∧ sheafOn s = true))
    (hc : isCarried i k = false) (hs : isSensorSetting i k = false) (hg : e.acts.any stagesEffect = false) :
    ∃ t, commitWrite s c i k d v e = { e with s := t, acts := e.acts ++ [] } ∧ Settled (setObj e.s i k (d.decode v)) t := by
  unfold commitWrite
  dsimp only
  rw [not_woDomain hf hl, hc, hs, hg]
  refine ⟨setObj (journalDigests e.s c i k (oldDigest s i k d) (digest16 v)) i k (d.decode v), ?_, Settled.setObj (settled_journalAt _ _ _ _ _) _ _ _⟩
  simp [hp, hq]

/-- Checks 13 to 15 pass (R107, R124, R397). -/
theorem capacity_ok {s : State} (h : Room s) {i : Nat} {d : Desc} (hlong : d.longOp = true → longRuns s = false) : capacityCheck s i d = 0 := by
  have hw : wornRegion s d = false := by
    unfold wornRegion; simp [Nat.not_le.mpr h.wear.1, Nat.not_le.mpr h.wear.2.1, Nat.not_le.mpr h.wear.2.2]
  unfold capacityCheck
  rw [h.journal, hw]
  cases hd : d.longOp
  · simp
  · rw [hlong hd]; simp

theorem room_of {s u : State} (h : Room s) (hn : ∀ i k, Machine.num u i k = Machine.num s i k) (hj : u.pers.jour = s.pers.jour)
    (hl : u.pers.laps = s.pers.laps) : Room u := by
  refine ⟨?_, ?_⟩
  · have := h.journal
    unfold journalFull noRoom at this ⊢
    rw [hn, hj]; exact this
  · unfold Unworn; rw [hl]; exact h.wear

theorem room_admitted {s : State} (h : Room s) (r : Rq) (tr : Trailer) : Room (admittedIn s r tr) := by
  obtain ⟨hh, b, n, f, e⟩ := admittedIn_cases s r tr
  exact room_of h (fun i k => num_admittedIn s r tr i k) (by rw [e]) (by rw [e])

theorem leNat_two (n : Nat) (h : n < 65536) : leNat (leBytes 2 n) = n := by
  simp [leBytes, leNat]
  omega

theorem recordedRead_write {s : State} {r : Rq} (h : r.svc ≠ 1 ∧ r.svc ≠ 3) : recordedRead s r = false := by
  unfold recordedRead; simp [h.1, h.2]

/-- An expedited write that every check passes and whose effect e0 has no code: it is numbered, the value stands, and e0's
state is settled. -/
theorem write_admits {s : State} {h : Hdr} {tr : Trailer} {z : Session} {i k : Nat} {v : Bytes} {d : Desc} {e0 : Eff}
    (hr : Ready s) (hm : Room s) (ha : Authentic s (rqWrite h i k v) tr z)
    (hf : Dict.find i k = (true, some d)) (hl : d.ty ≠ .domain ∧ d.ty ≠ .label ∧ v.length = d.size ∧ d.size ≤ 24)
    (hlong : d.longOp = true → longRuns s = false)
    (hchk : objectChecks (admittedIn s (rqWrite h i k v) tr) (callerOf (rqWrite h i k v) tr z) true i k d (some (some v)) = 0)
    (hv : z.role = 3 → serviceOn s = false ∨ vigilOn s = false)
    (hp : roleInForce (admittedIn s (rqWrite h i k v) tr) true i k d ≠ .pair) (hq : ¬(i = 0x2000 ∧ k = 7 ∧ sheafOn s = true))
    (hc : isCarried i k = false) (hs : isSensorSetting i k = false)
    (hw : writeValue (admittedIn s (rqWrite h i k v) tr) (callerOf (rqWrite h i k v) tr z) i k d v .ok = e0) (h0 : e0.code = 0)
    (hg : e0.acts.any stagesEffect = false)
    (hadm : e0.s.seq.adm = s.seq.adm + 1) (ht : e0.s.seq.admTime = s.seq.time) (hth : e0.s.sheaf.theirs = s.sheaf.theirs) :
    ∃ y, Settled (pushSlot (setObj e0.s i k (d.decode v)) y) (request s (rqWrite h i k v)) ∧
      Admitted s (request s (rqWrite h i k v)) (rqWrite h i k v) (some z) e0.lat 0 e0.body e0.acts := by
  obtain ⟨hh, b, n, f, eu⟩ := admittedIn_cases s (rqWrite h i k v) tr
  have hsh : ¬(i = 0x2000 ∧ k = 7 ∧ sheafOn (admittedIn s (rqWrite h i k v) tr) = true) := by
    intro hx; apply hq; refine ⟨hx.1, hx.2.1, ?_⟩
    have := hx.2.2
    unfold sheafOn modeFlag at this ⊢
    rw [num_admittedIn] at this; exact this
  obtain ⟨t, hct, hst⟩ := settled_commit_write (admittedIn s (rqWrite h i k v) tr) (callerOf (rqWrite h i k v) tr z) v e0 hf hl.1 hp hsh hc hs hg
  have hphys : (rqWrite h i k v).phys = .ok := ha.sound
  have hbody : (rqWrite h i k v).body = leBytes 2 v.length ++ v := rfl
  have hlong' : d.longOp = true → longRuns (admittedIn s (rqWrite h i k v) tr) = false := by
    intro hd
    have := hlong hd
    unfold longRuns longOps at this ⊢
    rw [eu]; exact this
  have hcap := capacity_ok (i := i) (room_admitted hm (rqWrite h i k v) tr) hlong'
  have hlen : writeLengthCheck d (leBytes 2 v.length ++ v) = 0 := by
    have h2 : (leBytes 2 v.length).length = 2 := by simp [leBytes]
    have hlt : v.length ≤ 24 := by omega
    unfold writeLengthCheck
    dsimp only
    rw [List.take_left' h2, List.drop_left' h2, leNat_two _ (by omega)]
    have h3 : ¬ (leBytes 2 v.length ++ v).length < 2 := by rw [List.length_append, h2]; omega
    rw [if_neg h3, if_neg (by simp [hl.1, hl.2.1]; omega), if_neg (by omega), if_neg (by omega)]
  have hdrop : (leBytes 2 v.length ++ v).drop 2 = v := List.drop_left' (by simp [leBytes])
  have hserv : service (admittedIn s (rqWrite h i k v) tr) (callerOf (rqWrite h i k v) tr z) (rqWrite h i k v) true =
      .out { e0 with s := t, acts := e0.acts ++ [] } := by
    have : service (admittedIn s (rqWrite h i k v) tr) (callerOf (rqWrite h i k v) tr z) (rqWrite h i k v) true =
        .out (writeOp (admittedIn s (rqWrite h i k v) tr) (callerOf (rqWrite h i k v) tr z) i k (leBytes 2 v.length ++ v) (rqWrite h i k v).phys) := rfl
    rw [this, hphys]
    unfold writeOp
    dsimp only
    have hfo : findObj i k = .ok d := by unfold findObj; rw [hf]
    rw [hfo]
    dsimp only
    rw [if_neg hl.1, hdrop, hchk, hlen]
    simp only [ne_eq, not_true_eq_false, ↓reduceIte]
    unfold performWrite
    dsimp only
    rw [hw, h0, hcap]
    have hacc : accepted e0 = true := by unfold accepted; rw [h0]; rfl
    rw [hacc]
    simp only [Bool.not_true, Bool.false_eq_true, and_false, false_and, ↓reduceIte, ne_eq, not_true_eq_false]
    rw [if_neg (by simp)]
    rw [hct, h0]
  have hqa : t.seq.adm = s.seq.adm + 1 := by
    rw [← hadm]
    have := congrArg (fun x => x.seq.adm) hst.rest
    obtain ⟨a, p, l, he⟩ := setObj_dict e0.s i k (d.decode v)
    rw [he] at this; exact this
  have hqt : t.seq.admTime = s.seq.time := by
    rw [← ht]
    have := congrArg (fun x => x.seq.admTime) hst.rest
    obtain ⟨a, p, l, he⟩ := setObj_dict e0.s i k (d.decode v)
    rw [he] at this; exact this
  have hqh : t.sheaf.theirs = s.sheaf.theirs := by
    rw [← hth]
    have := congrArg (fun x => x.sheaf.theirs) hst.rest
    obtain ⟨a, p, l, he⟩ := setObj_dict e0.s i k (d.decode v)
    rw [he] at this; exact this
  obtain ⟨y, h1, h2⟩ := authentic_admits hr ha (by rfl) (.inr ⟨by simp [rqWrite, hdrRq], by simp [rqWrite, hdrRq]⟩)
    (recordedRead_write ⟨by simp [rqWrite, hdrRq], by simp [rqWrite, hdrRq]⟩) hv hserv (by unfold keptOut; simp [rqWrite, hdrRq])
    (by rw [h0]; decide) hqa hqt hqh
  refine ⟨y, Settled.trans ?_ h1, ?_⟩
  · exact ⟨congrArg (fun x => { pushSlot x y with dict := [] }) hst.rest, hst.objects, hst.run⟩
  · have := h2
    simp only [List.append_nil, h0] at this
    exact this

/-- Checks 6 to 10 of a write pass (R99, R107, R108) outside a pair. -/
theorem write_checks {s : State} {r : Rq} {tr : Trailer} {z : Session} {i k : Nat} {d : Desc} {v : Option (Option Bytes)} (hr : Ready s)
    (hz : roleServes d.role z.role = true) (hp : r.origin < 0x100 ∨ 0x120 ≤ r.origin) (hs : Machine.num s 0x2000 2 = 0)
    (hc : Machine.num s 0xD802 1 = 0 ∨ d.role = .service) (ha : d.acc ≠ .const ∧ d.acc ≠ .ro)
    (hl : lifecycleCheck (admittedIn s r tr) true i k = 0) (ho : ownerCheck (admittedIn s r tr) (callerOf r tr z) true i k = 0)
    (hm : modeCheck (admittedIn s r tr) (callerOf r tr z) true i k d = 0) (hx : ¬(i = 0xCA20 ∧ k = 1)) :
    objectChecks (admittedIn s r tr) (callerOf r tr z) true i k d v = 0 := by
  have hsh : sheafOn (admittedIn s r tr) = false := by unfold sheafOn modeFlag; rw [num_admittedIn, hs]; rfl
  have hst : (admittedIn s r tr).stage = 0x11 := by
    obtain ⟨hh, b, n, f, e⟩ := admittedIn_cases s r tr
    rw [e]; exact hr.stage
  have h2 : stateCheck (admittedIn s r tr) true i k d = 0 := by
    unfold stateCheck
    have hg : pairGate (admittedIn s r tr) i k = 0 := by unfold pairGate; rw [hsh]; rfl
    dsimp only
    rw [if_pos rfl, hg, hst]
    have : ¬(calderaOn (admittedIn s r tr) = true ∧ True ∧ d.role ≠ .service) := by
      rintro ⟨h1, -, h3⟩
      rcases hc with hc | hc
      · unfold calderaOn at h1; rw [num_admittedIn, hc] at h1; exact absurd h1 (by decide)
      · exact h3 hc
    simp only [ne_eq, not_true_eq_false, ↓reduceIte]
    rw [if_neg (by simp), if_neg this]
  have h3 : accessCheck true d = 0 := by unfold accessCheck; simp [ha.1, ha.2]
  have h4 : roleCheck (admittedIn s r tr) (callerOf r tr z) true i k d v = 0 := by
    have happ : isApplet (callerOf r tr z) = false := by
      unfold isApplet callerOf
      simp only [decide_eq_false_iff_not]
      omega
    have hrf : roleInForce (admittedIn s r tr) true i k d = d.role := by unfold roleInForce; rw [hsh]; rfl
    have hrole : (callerOf r tr z).role = some z.role := rfl
    have hne : (if i = 0xCA20 ∧ k = 1 ∧ true = true then Role.owner else d.role) = d.role := if_neg (fun h => hx ⟨h.1, h.2.1⟩)
    unfold roleCheck
    dsimp only
    rw [happ, hrf, if_neg (by simp), if_neg (by intro h; exact hx ⟨h.1, h.2.1⟩), hne, hrole, ho]
    unfold roleServes at hz
    split
    · rfl
    · revert hz
      cases hd : d.role <;> intro hz <;> simp_all
  unfold objectChecks
  rw [hl, h2, h3, h4, hm]
  rfl

/-- Outside a pair the role required is the object's. -/
theorem role_alone {s : State} {r : Rq} {tr : Trailer} {z : Session} {d : Desc} (hs : Machine.num s 0x2000 2 = 0) (hz : roleServes d.role z.role = true)
    (i k : Nat) : roleInForce (admittedIn s r tr) true i k d ≠ .pair := by
  have hsh : sheafOn (admittedIn s r tr) = false := by unfold sheafOn modeFlag; rw [num_admittedIn, hs]; rfl
  unfold roleInForce
  rw [hsh]
  intro h
  simp only [Bool.not_false, ↓reduceIte] at h
  rw [h] at hz
  cases hz

/-- A client's accepted write, outside a pair: the state after it is settled on the effect with the value in place. -/
theorem client_writes {s : State} {h : Hdr} {tr : Trailer} {z : Session} {i k : Nat} {v : Bytes} {d : Desc} {e0 : Eff}
    (hf : Dict.find i k = (true, some d)) (hcl : Client s (rqWrite h i k v) tr z d.role) (hm : Room s) (hs : Machine.num s 0x2000 2 = 0)
    (hc : Machine.num s 0xD802 1 = 0 ∨ d.role = .service)
    (hl : d.ty ≠ .domain ∧ d.ty ≠ .label ∧ v.length = d.size ∧ d.size ≤ 24) (ha : d.acc ≠ .const ∧ d.acc ≠ .ro)
    (hlong : d.longOp = true → longRuns s = false)
    (hlc : lifecycleCheck (admittedIn s (rqWrite h i k v) tr) true i k = 0)
    (ho : ownerCheck (admittedIn s (rqWrite h i k v) tr) (callerOf (rqWrite h i k v) tr z) true i k = 0)
    (hmo : modeCheck (admittedIn s (rqWrite h i k v) tr) (callerOf (rqWrite h i k v) tr z) true i k d = 0) (hx : ¬(i = 0xCA20 ∧ k = 1))
    (hca : isCarried i k = false) (hse : isSensorSetting i k = false)
    (hw : writeValue (admittedIn s (rqWrite h i k v) tr) (callerOf (rqWrite h i k v) tr z) i k d v .ok = e0) (h0 : e0.code = 0)
    (hg : e0.acts.any stagesEffect = false)
    (hadm : e0.s.seq.adm = s.seq.adm + 1) (ht : e0.s.seq.admTime = s.seq.time) (hth : e0.s.sheaf.theirs = s.sheaf.theirs) :
    ∃ y, Settled (pushSlot (setObj e0.s i k (d.decode v)) y) (request s (rqWrite h i k v)) ∧
      Admitted s (request s (rqWrite h i k v)) (rqWrite h i k v) (some z) e0.lat 0 e0.body e0.acts := by
  refine write_admits hcl.ready hm hcl.authentic hf hl hlong ?_ hcl.unrecorded (role_alone hs hcl.role i k) ?_ hca hse hw h0 hg hadm ht hth
  · exact write_checks hcl.ready hcl.role hcl.person hs hc ha hlc ho hmo hx
  · rintro ⟨-, -, h3⟩
    unfold sheafOn modeFlag at h3
    rw [hs] at h3
    exact absurd h3 (by decide)

/-- The number, its time, what the partner sent ahead, the queue of commands and the fuses of a state in which an effect ends. -/
structure Steady (s u : State) : Prop where
  adm : u.seq.adm = s.seq.adm + 1
  time : u.seq.admTime = s.seq.time
  first : u.sheaf.theirs = s.sheaf.theirs
  queue : u.pending = s.pending
  fuses : u.otp = s.otp

theorem steady_admitted (s : State) (r : Rq) (tr : Trailer) : Steady s (admittedIn s r tr) := by
  obtain ⟨hh, b, n, f, e⟩ := admittedIn_cases s r tr
  rw [e]
  exact ⟨rfl, rfl, rfl, rfl, rfl⟩

theorem steady_numbered (s : State) (r : Rq) : Steady s (numberedIn s r) := by
  obtain ⟨hh, b, n, f, e⟩ := numberedIn_cases s r
  rw [e]
  exact ⟨rfl, rfl, rfl, rfl, rfl⟩

theorem Steady.setObj {s u : State} (h : Steady s u) (i k : Nat) (v : Val) : Steady s (setObj u i k v) := by
  obtain ⟨d, p, l, e⟩ := setObj_dict u i k v
  rw [e]
  exact ⟨h.adm, h.time, h.first, h.queue, h.fuses⟩

theorem Steady.setNum {s u : State} (h : Steady s u) (i k n : Nat) : Steady s (setNum u i k n) := h.setObj i k (.num n)

/-- A settled end of a steady effect keeps the queue and the fuses, so a command that runs it answers it as it is. -/
theorem coreCmd_settled {s a t : State} {y : Slot} {f : State → State} (hf : f s = t) (h : Settled (pushSlot a y) t) (ha : Steady s a) :
    coreCmd f s = .next t := by
  have h1 : t.pending = s.pending := (congrArg (fun x => x.pending) h.rest).trans ha.queue
  have h2 : t.otp = s.otp := (congrArg (fun x => x.otp) h.rest).trans ha.fuses
  unfold coreCmd
  rw [hf, ← h1, ← h2]

/-- A client's write command completes, and its state is settled. -/
theorem client_completes {s : State} {h : Hdr} {tr : Trailer} {z : Session} {i k : Nat} {v : Bytes} {d : Desc} {e0 : Eff} {c : Instr}
    {P : State → Prop} (hexec : exec c s = coreCmd (fun s => request s (rqWrite h i k v)) s)
    (hf : Dict.find i k = (true, some d)) (hcl : Client s (rqWrite h i k v) tr z d.role) (hm : Room s) (hs : Machine.num s 0x2000 2 = 0)
    (hc : Machine.num s 0xD802 1 = 0 ∨ d.role = .service)
    (hl : d.ty ≠ .domain ∧ d.ty ≠ .label ∧ v.length = d.size ∧ d.size ≤ 24) (ha : d.acc ≠ .const ∧ d.acc ≠ .ro)
    (hlong : d.longOp = true → longRuns s = false)
    (hlc : lifecycleCheck (admittedIn s (rqWrite h i k v) tr) true i k = 0)
    (ho : ownerCheck (admittedIn s (rqWrite h i k v) tr) (callerOf (rqWrite h i k v) tr z) true i k = 0)
    (hmo : modeCheck (admittedIn s (rqWrite h i k v) tr) (callerOf (rqWrite h i k v) tr z) true i k d = 0) (hx : ¬(i = 0xCA20 ∧ k = 1))
    (hca : isCarried i k = false) (hse : isSensorSetting i k = false)
    (hw : writeValue (admittedIn s (rqWrite h i k v) tr) (callerOf (rqWrite h i k v) tr z) i k d v .ok = e0) (h0 : e0.code = 0) (hg : e0.acts.any stagesEffect = false)
    (hst : Steady s e0.s) (hP : ∀ y t, Settled (pushSlot (setObj e0.s i k (d.decode v)) y) t → P t) (hb : e0.body = []) :
    Completes c s (rqWrite h i k v) z e0.lat e0.acts P := by
  obtain ⟨y, h1, h2⟩ := client_writes hf hcl hm hs hc hl ha hlong hlc ho hmo hx hca hse hw h0 hg hst.adm hst.time hst.first
  refine ⟨request s (rqWrite h i k v), ?_, by rw [← hb]; exact h2, hP y _ h1⟩
  rw [hexec]
  exact coreCmd_settled rfl h1 (hst.setObj i k _)

/-- Objects after a settled write. -/
theorem settled_getObj {a t : State} {y : Slot} {i k : Nat} {v : Val} (h : Settled (pushSlot (setObj a i k v) y) t) (hk : k < 256)
    {i' k' : Nat} (hk' : k' < 256) (hb : bookkeeping i' k' = false) :
    getObj t i' k' = if i' = i ∧ k' = k ∧ (Dict.find i k).2.isSome then v else getObj a i' k' := by
  rw [h.objects i' k' hk' hb, getObj_pushSlot, getObj_setObj a v hk hk']

end Sys2Proof.Machine
end

