-- ==== Sys2Proof/Machine/Balls.lean ====
section
/-! DEFINITION. What the balls of both dies drive (R31, R32, R92, R150, R473), as functions of the state: running, in reset, and
unpowered. A die counts as unpowered while it is held in reset with a rail out of range (log 92). -/

namespace Sys2Proof.Machine

/-- The level of an output ball. -/
inductive Level where
  | low
  | high
  | hiZ            -- high impedance
  | released       -- open drain, not pulled
  | off            -- off, with its pull-down
  | active         -- driven by the function it serves
  | terminated     -- an input across its 100 ohm termination
deriving DecidableEq, Repr

namespace Ball

/-- The core die is unpowered: it does not run, and a host rail is out of range. -/
def coreDark (s : State) : Bool := decide (s.stage = 0) && !(s.boot.rails && s.boot.vddah)

/-- The field die is unpowered: it does not run, and one of its rails is out of range. -/
def fieldDark (s : State) : Bool := !s.field.run && !s.field.rails

def lowIf (b : Bool) : Level := if b then .low else .high

/-! Host balls (R31, R92). -/

/-- BUSY_N. -/
def busyN (s : State) : Level := if coreDark s then .hiZ else lowIf (Hl.busyLow s)

/-- HIRQ_N: driven high in reset and up to the end of MODES. -/
def hirqN (s : State) : Level := if coreDark s then .hiZ else lowIf (Hl.hirqLow s)

/-- ALARM_N, open drain: held low in reset, released unpowered and while no alarm stands. -/
def alarmN (s : State) : Level := if !coreDark s && alarmLow s then .low else .released

/-- QSPI_IO0 to QSPI_IO3: high impedance in reset and unpowered, and while the link gives no answer (R134, R505). -/
def qspiIo (s : State) : Level := if Hl.serves s && decide (s.host.out ≠ []) then .active else .hiZ

/-- XTAL_HO: the 25 MHz oscillator stands while the core die is in reset or hibernates. It runs from CLEAR on, whose PLLs lock to it
(R79), also where the table's column for a booting die says off (log 92). -/
def xtal (s : State) : Level := if s.stage = 0 ∨ s.power = 4 then .off else .active

/-- SHF_TX0 and SHF_TX1: high impedance in reset, while the core die boots or has halted, unpowered, and without VDD_LVDS (R39). -/
def sheafTx (s : State) : Level := if serving s && s.boot.lvds then .active else .hiZ

/-- SHF_RX0 and SHF_RX1: terminated, and high impedance unpowered. -/
def sheafRx (s : State) : Level := if coreDark s || !s.boot.lvds then .hiZ else .terminated

/-- The enclosure-mesh drive, of the Sinter domain: it drives while VBAT or VDDA_H is present. -/
def meshDrive (s : State) : Level := if s.sinter.osc || s.boot.vddah then .active else .hiZ

/-! Field balls (R32). -/

/-- GO0 to GO7: off, unless the output conducts. -/
def guardOut (s : State) (n : Fin 8) : Level := if s.field.run && (Fld.outOf s.field n.val).conducting then .high else .off

/-- PERMIT_OUT: driven low in reset, pulled down unpowered. -/
def permitOut (s : State) : Level := if fieldDark s then .off else lowIf !(s.field.run && s.field.permitOut)

/-- AREF_OUT (R473). -/
def aref (s : State) : Level := if Fld.arefOut s.field then .active else .off

/-- CANn_TX: recessive in reset and while the controller is off the bus. -/
def canTx (s : State) (n : Fin 4) : Level := if fieldDark s then .hiZ else if Fld.canOn s.field n.val then .active else .high

/-- CANn_STB: low while the controller is enabled, high while it is disabled or in reset (R150). -/
def canStb (s : State) (n : Fin 4) : Level := if fieldDark s then .hiZ else lowIf !(Fld.canStb s.field n.val)

/-- T1Sn_P and T1Sn_N: the PHY is off in reset. -/
def t1s (s : State) (n : Fin 2) : Level := if Fld.portOn s.field (4 + n.val) then .active else .hiZ

/-- RMII_TXEN, RMII_TXD0 and RMII_TXD1, and ENET_MDC: driven low in reset. -/
def rmiiTx (s : State) : Level := if fieldDark s then .hiZ else if Fld.portOn s.field 6 then .active else .low

/-- ENET_MDIO: high impedance in reset and unpowered. -/
def mdio (s : State) : Level := if Fld.portOn s.field 6 then .active else .hiZ

/-- ENET_PHY_RST_N: driven low in reset; the external PHY runs while the field die does. -/
def phyReset (s : State) : Level := if fieldDark s then .hiZ else lowIf !s.field.run

end Ball

end Sys2Proof.Machine
end

