-- ==== Sys2Proof/WellFormed.lean ====
section
/-! DEFINITION. Well-formed commands: operands that the fields of the spec can carry. A meaning is total; an ill-formed command
is one that nothing outside the block can send. -/

namespace Sys2Proof

namespace Wf

/-- A 16-bit, 8-bit, 24-bit, 32-bit or 64-bit field. -/
def u8 (n : Nat) : Bool := decide (n < 256)
def u16 (n : Nat) : Bool := decide (n < 65536)
def u24 (n : Nat) : Bool := decide (n < 16777216)
def u32 (n : Nat) : Bool := decide (n < 4294967296)
def u64 (n : Nat) : Bool := decide (n < 18446744073709551616)

/-- A value of exactly n bytes. -/
def len (n : Nat) (b : Bytes) : Bool := decide (b.length = n)

/-- A session trailer (R119): slot, 3 reserved bytes, a 32-bit counter and an 8-byte tag; or SESSION set without room for one,
as slot 0xFF without a tag (log 90). -/
def trailer (t : Trailer) : Bool :=
  u8 t.slot && u24 t.rsv && u32 t.counter && (len 8 t.tag || decide (t.slot = 0xFF ∧ t.rsv = 0 ∧ t.counter = 0 ∧ t.tag = []))

/-- The header bits and the origin of a request (R102, R103); bit 0 of the flags says that a trailer follows. -/
def hdr (h : Hdr) : Bool :=
  u16 h.origin && u8 h.flags && decide (h.flags % 2 = 0) && u16 h.txn && u8 h.rsv && (match h.trailer with
    | some t => trailer t
    | none => true)

/-- A request: its payload never exceeds 1,536 bytes (R203). -/
def req (r : Req) : Bool :=
  hdr r.h && u16 r.idx && u8 r.sub && decide (r.body.length ≤ 1536) && (match r.h.trailer with
    | some t => decide (t.tag ≠ [] ∨ r.body.length < 16)
    | none => true)

/-- The body of a WRITE_SEG (R105). -/
def seg (g : Seg) : Bool := u16 g.num && u8 g.flags && u8 g.rsv && u16 g.len && decide (g.data.length ≤ 1536)

/-- A cell register that a compressed form names in 3 bits: x8 to x15. -/
def low (r : Fin 32) : Bool := decide (8 ≤ r.val ∧ r.val < 16)

/-- A register other than x0. -/
def nz (r : Fin 32) : Bool := decide (r.val ≠ 0)

/-- An offset in halfwords; an unsigned offset in words. -/
def even {w : Nat} (b : BitVec w) : Bool := decide (b.toNat % 2 = 0)
def word {w : Nat} (b : BitVec w) : Bool := decide (b.toNat % 4 = 0)

/-- A CAN FD node (R147) and the bytes of one frame. -/
def can (node : Nat) (data : Bytes) : Bool := decide (1 ≤ node ∧ node ≤ 127) && decide (data.length ≤ 64)

end Wf

/-- Every operand fits its field. -/
def Instr.wf : Instr → Bool
  | .send frame _ | .clear frame _ => decide (frame.length ≤ 2048)
  | .fetch _ | .refetch _ | .status | .unknownOpcodeFrame _ => true
  | .read r | .write r | .readSegInit r | .readSeg r | .writeSegInit r | .writeSeg r | .abortTransfer r | .bindRequest r
  | .bindResponse r | .unbind r | .describe r | .unknownService _ r => Wf.req r
  | .randomRead h _ | .coreResetRequest h | .fieldDieResetRequest h | .verify h | .activate h | .raiseFloor h _ | .fullSelfTest h
  | .recoverNow h _ | .channelOpen h _ | .channelClose h _ | .rekey h _ | .flagClear h _ _ | .keyNodeWrite h _ _
  | .heartbeatIntervalWrite h _ _ | .receiveRelease h _ _ => Wf.hdr h
  | .loadImage h g | .channelSend h _ g | .streamInput h _ g | .unpark h _ g | .pleInput h _ g | .createNode h g
  | .takeOwnership h g | .recoverOwner h g | .pairSecret h g | .loadManifest h g => Wf.hdr h && Wf.seg g
  | .beginStream h _ v | .attest h v | .exportStart h v | .mailboxIn h _ v | .sensorConfigWrite h _ _ v | .concur h v =>
    Wf.hdr h && decide (v.length ≤ 24)
  | .endOfData h _ | .park h _ | .slotRelease h _ | .pleSlotRun h _ | .pleSlotRelease h _ | .removeNode h _ | .bump h _ _
  | .exportKey h _ _ | .pairSecretClear h | .retire h | .serviceRetire h | .increment h _ _ | .advance h _ _
  | .journalReleaseThrough h _ | .exportClose h | .logReleaseThrough h _ | .install h _ | .appletRemove h _ | .controlStart h _
  | .controlStop h _ | .controlRestart h _ | .guardOn h _ | .guardOff h _ | .permitRunStart h | .permitRunStop h | .outputSet h _ _
  | .ownerAcknowledge h _ | .serviceAcknowledge h _ | .calderaLeave h | .serviceSet h | .serviceClear h | .islandSet h
  | .islandClear h | .vigilSet h | .vigilClear h | .auditSet h | .auditClear h | .provisionSet h | .provisionClear h
  | .serviceAllowedWrite h _ | .provisionLapseWrite h _ | .join h | .joinFullCopy h | .sheafLeave h | .resetPartner h
  | .counterControlWrite h _ _ | .counterClear h _ _ | .snapshot h | .taggingEnable h _ => Wf.hdr h
  | .retireFuseBlow => true
  | .syscallRead _ _ | .syscallWrite _ _ | .sysTime _ | .sysNotify _ | .sysStop _ | .sysWait _ | .waitDeadline _ | .ctrIncrement _ _
  | .ctrAdvance _ _ | .chSend _ _ | .chRecv _ | .keyCreate _ | .keyRemove _ | .keyRevoke _ | .streamBegin _ | .streamData _ _
  | .streamRelease _ | .pleLoad _ | .pleRun _ _ | .syscallUnknown _ | .rngDataRead _ | .rngDataStallTimeout _ | .cellLoadComplete _
  | .quantumExpiry | .budgetFault _ | .faultAdmission _ | .illegalInstruction _ => true
  | .jal _ _ off => Wf.even off
  | .beq _ _ _ off | .bne _ _ _ off | .blt _ _ _ off | .bge _ _ _ off | .bltu _ _ _ off | .bgeu _ _ _ off => Wf.even off
  | .lui _ _ _ | .auipc _ _ _ | .jalr _ _ _ _ | .lb _ _ _ _ | .lh _ _ _ _ | .lw _ _ _ _ | .lbu _ _ _ _ | .lhu _ _ _ _ | .sb _ _ _ _
  | .sh _ _ _ _ | .sw _ _ _ _ | .addi _ _ _ _ | .slti _ _ _ _ | .sltiu _ _ _ _ | .xori _ _ _ _ | .ori _ _ _ _ | .andi _ _ _ _
  | .slli _ _ _ _ | .srli _ _ _ _ | .srai _ _ _ _ | .add _ _ _ _ | .sub _ _ _ _ | .sll _ _ _ _ | .slt _ _ _ _ | .sltu _ _ _ _
  | .xor _ _ _ _ | .srl _ _ _ _ | .sra _ _ _ _ | .or _ _ _ _ | .and _ _ _ _ | .fence _ | .mul _ _ _ _ | .mulh _ _ _ _
  | .mulhsu _ _ _ _ | .mulhu _ _ _ _ | .div _ _ _ _ | .divu _ _ _ _ | .rem _ _ _ _ | .remu _ _ _ _ => true
  | .cAddi4spn _ rd u => Wf.low rd && Wf.word u && decide (u ≠ 0)
  | .cLw _ rd rs1 u => Wf.low rd && Wf.low rs1 && Wf.word u
  | .cSw _ rs1 rs2 u => Wf.low rs1 && Wf.low rs2 && Wf.word u
  | .cNop _ => true
  | .cAddi _ rd _ => Wf.nz rd
  | .cLi _ _ _ => true
  | .cJal _ off | .cJ _ off => Wf.even off
  | .cAddi16sp _ imm => decide (imm.toNat % 16 = 0) && decide (imm ≠ 0)
  | .cLui _ rd imm => decide (rd.val ≠ 2) && decide (imm ≠ 0)
  | .cSrli _ rd k | .cSrai _ rd k => Wf.low rd && decide (k.toNat < 32)
  | .cAndi _ rd _ => Wf.low rd
  | .cSub _ rd rs2 | .cXor _ rd rs2 | .cOr _ rd rs2 | .cAnd _ rd rs2 => Wf.low rd && Wf.low rs2
  | .cBeqz _ rs1 off | .cBnez _ rs1 off => Wf.low rs1 && Wf.even off
  | .cSlli _ _ k => decide (k.toNat < 32)
  | .cLwsp _ rd u => Wf.nz rd && Wf.word u
  | .cJr _ rs1 | .cJalr _ rs1 => Wf.nz rs1
  | .cMv _ _ rs2 | .cAdd _ _ rs2 => Wf.nz rs2
  | .cSwsp _ _ u => Wf.word u
  | .barrierCellReceive _ cell => Wf.len 32 cell.op
  | .cellDropLimit _ | .bringupStart | .coreHello _ _ | .fieldHello _ _ _ _ => true
  | .keyCell key _ tag => Wf.len 16 key && Wf.len 4 tag
  | .keyAck _ tag => Wf.len 4 tag.op
  | .bringupTimeout | .bringupRetry | .idleCell _ | .idleTimer _ | .fieldBarrierTimeout | .coreBarrierTimeout | .fieldStateAdmission => true
  | .bdpReq origin msg | .bdpResp origin msg => Wf.u16 origin && decide (msg.length ≤ 1536)
  | .chfUp _ node frame | .channelReceive _ node frame _ => decide (node ≤ 127) && decide (frame.length ≤ 240)
  | .chfDown frame => decide (frame.length ≤ 240)
  | .route _ | .guardSet _ _ _ | .netConfigCommit _ | .powerNotice _ | .busOffRecoveryRequest _ => true
  | .netConfig i k v => Wf.u16 i && Wf.u8 k && decide (v.length ≤ 24)
  | .fieldReport _ | .netStatus _ => true
  | .inputEvent entries => decide (entries ≠ [])
  | .outputSense current | .outputSensePeriod current => decide (current.length = 8)
  | .analogSense reading _ => decide (reading.length = 4)
  | .analogReportPeriod samples _ => decide (samples.length = 4)
  | .fieldReportPeriod | .netStatusPeriod | .guardInputSample _ | .eventWindowClose _ | .stuckTimeExpiry _ | .pulseExpiry _
  | .outputTrip _ | .retryIntervalExpiry _ | .faultClearTimer _ | .permitToggleAbsent | .permitToggleLive
  | .toggleRecordAdmission | .vguardUndervoltage _ | .vguardRecovery _ => true
  | .canSingle _ node data | .canFirst _ node data | .canConsecutive _ node data | .canChannelFrame _ node data => Wf.can node data
  | .reassemblyTimeout _ node => decide (1 ≤ node ∧ node ≤ 127)
  | .busOffAutoRecovery _ => true
  | .ethBdpFrame _ frame | .ethChannelFrame _ frame => decide (14 ≤ frame.length)
  | .coreResetRelease | .fieldResetRelease | .powerFail _ | .powerFailReset | .fieldSupplyFail _ | .resetNAssert _ | .resetNRelease
  | .frstNAssert _ | .frstNRelease | .fieldClockLoss | .clockLost _ | .lockstepMismatch | .watchdogExpiry | .stageOverrun
  | .deferredCoreReset | .deferredFieldReset | .clearStage | .clocksStage _ | .firmwareStage | .recoverStage | .tamperEvalStage
  | .appletsStage | .barrierStage | .modesStage | .conditionedBlock _ | .tillerInstantiate _ | .tillerReseed _ | .tillerRefill _ => true
  | .balanceWindow _ ones => decide (ones ≤ 4096)
  | .entropyFailure _ _ | .entropyFailureAdmission | .deviceTimeTick | .responseRelease _ | .heartbeatDue _ _ | .switchAdmission _ _
  | .forcedRekey _ | .helloRekey _ | .cutAdmission | .queuedSend _ _ | .openAtStartup _ | .timeCheckpoint | .statisticsAdmission
  | .provisionLapse | .islandClose | .backgroundWindow _ | .backgroundReport | .storeFaultReport | .telemetryAdmission _ _ _ _ _ _
  | .sensorEvent _ _ | .tamperLatchCommit | .sensorWindowExpiry _ | .supplyWindowHold _ | .lidMeshCompare _
  | .enclosureMeshCompare _ _ | .clockWindowCheck _ _ | .tamperAdmission | .sinterMeshCheck _ _ _ _ _ | .sinterLightCheck _
  | .sinterTempCheck _ | .powerStateChoice | .scheduledWake | .wakeRequest | .hibernateHelloTimer | .hibernateWake _ => true
  | .sheafFrameReceive frame => decide (frame.op.length ≤ 292)
  | .sheafResend | .sheafIdle | .sheafLinkLoss _ | .sheafDeadline _ => true
  | .sheafHello m => Wf.len 16 m.serial && Wf.len 16 m.nonce && Wf.len 32 m.chain && Wf.u64 m.lastAdm
  | .sheafProof proof => Wf.len 16 proof.op
  | .sheafAdmit m => Wf.u16 m.origin && Wf.u16 m.channel && Wf.u64 m.adm && Wf.u64 m.time
  | .sheafRequest origin _ _ | .sheafRefusal origin _ _ | .readRelay origin _ | .readResult origin _ => Wf.u16 origin
  | .sheafDigest adm digest => Wf.u64 adm && Wf.len 16 digest
  | .commitAck adm _ => Wf.u64 adm
  | .verdict m => Wf.u64 m.adm
  | .sync _ item stamp _ => Wf.u32 item && Wf.u64 stamp
  | .syncEnd _ items => Wf.u32 items
  | .transferPass | .cutOver | .autoJoin | .partitionAdmission | .suspensionAdmission | .vbatLoss | .netStateChange _ _ _ _
  | .permitOutHalfPeriod | .joinTimeout | .cacheFill _ | .maskReserveRefill _ _ => true

end Sys2Proof
end

