-- ==== Sys2Proof/Tests/Slice0.lean ====
section
/-! SUPPORT. The model's own tests: for each statement with hypotheses a state and operands that meet them, words of the cells' instructions that
decode as the spec's encodings say, known answers of the primitives, and ill-formed commands that the check refuses. -/

open Sys2Proof Sys2Proof.Machine

namespace Sys2Proof.Tests.Slice0

set_option maxRecDepth 100000
set_option Elab.async false

/-- A session of this role on an origin, with credential 0. -/
def sess (o role : Nat) : Session := ⟨o, role, 0, true, zeros 16, zeros 16, 1900000, 5, false, 0, [], 0, []⟩

/-- An operational unit in READY and RUN, 2 s after its start, with sessions 0 OWNER, 1 SERVICE and 2 OPERATOR on the host link. -/
def unit : State :=
  let s := State.reset
  { s with
    otp := ⟨0x5A, false, 0⟩
    stage := 0x11
    seq := { s.seq with adm := 100, admTime := 1990000, time := 2000000, budget := 40000, budgetAt := 1990000 }
    boot := { s.boot with admitted := true, recovered := true, since := 2000000 }
    rng := { s.rng with on := true, tillers := (List.range 16).map fun k => (k, ⟨some ⟨zeros 32, zeros 16, 1⟩, []⟩) }
    sessions := [(0, sess 1 2), (1, sess 1 3), (2, sess 1 1)]
    cache := [0x40, 0x50, 0x60].map fun n => ⟨n, 1, [], []⟩ }

/-- K_sess of session z in slot k, whose credential the cache holds with an empty key. -/
def keyOf (k : Nat) (z : Session) : Bytes := (sessionKeys [] z.epoch z.role z.cred k z.origin z.nonce z.chal).take 32
def zOf (k : Nat) : Session := sess 1 ([2, 3, 1].getD k 0)

/-- The header of a request in session k with these contents, under its right tag. -/
def hdr (k svc i sub : Nat) (body : Bytes) : Hdr :=
  let h : Hdr := ⟨1, 0, 7, 0, none, .ok⟩
  let t : Trailer := ⟨k, 0, 6, zeros 8⟩
  { h with trailer := some { t with tag := (cmac (keyOf k (zOf k)) (0 :: (hdrRq { h with trailer := some t } svc i sub body).signed)).take 8 } }

def wh (k i sub : Nat) (v : Bytes) : Hdr := hdr k 2 i sub (leBytes 2 v.length ++ v)

/-- A request of segment g. -/
def sh (k i sub : Nat) (g : Seg) : Hdr := hdr k 6 i sub (segBody g)
/-- The header of a request without a session. -/
def bareHdr : Hdr := ⟨1, 0, 7, 0, none, .ok⟩
def trl (h : Hdr) : Trailer := h.trailer.getD ⟨0, 0, 0, []⟩
def sessOf (s : State) (k : Nat) : Session := (SMap.look s.sessions k).getD (sess 0 0)
def seg (n fin : Nat) (d : Bytes) : Seg := ⟨n, fin, 0, d.length, d⟩
def withNum (s : State) (i k v : Nat) : State := setNum s i k v
def descOf (i k : Nat) : Desc := (Dict.find i k).2.getD ⟨.u8, 1, .ro, .any, false, false, .num 0⟩
def rq0 (i k : Nat) (body : Bytes) : Req := ⟨bareHdr, i, k, body⟩
/-- The unit with an open transfer of its host link: a write of session k to object i.sub, n bytes long, b received. -/
def wtr (k i sub n : Nat) (b : Bytes) (next : Nat) : Transfer := ⟨1, some k, true, i, sub, n, b.length, next, [], b, 1999000, false⟩
def withTr (s : State) (x : Transfer) : State := { s with transfers := [x] }
/-- A request of session k with body b for service svc and object i.sub. -/
def rqOf (k svc i sub : Nat) (b : Bytes) : Req := ⟨hdr k svc i sub b, i, sub, b⟩

/-- A unit whose only release has these acts and is due. -/
def owing (acts : List Act) : Slot := ⟨0, 100, true, 1, 2000000, none, none, 0, true, .none, none, [], acts⟩
def due (s : State) (acts : List Act) : State := { s with slots := [owing acts] }
def provisioned (s : State) : State := setNum s 0x2000 7 1

/-- A cell at the last word of its code, an ECALL of system call n with arguments a, and these bytes from 0x100 on. -/
def atEcall (n : Nat) (a : List Nat) (m : Bytes) : Cell :=
  let x := { cell0 with code := 256, pc := 252, mem := [(252, 0x73)] }
  let y := (a.zipIdx).foldl (fun x p => setReg x (Fin.ofNat 32 (10 + p.2)) (BitVec.ofNat 32 p.1)) (setReg x 17 (BitVec.ofNat 32 n))
  storeBytes y 0x100 m
/-- Cell 31, of role OWNER, holds the pair on this unit with state x. -/
def running31 (s : State) (x : Cell) : State :=
  let s := setNum (setNum s 0xD01F 1 3) 0xD01F 5 2
  { s with twc := { s.twc with cells := [(31, x)], current := some 31 }
           pers := { s.pers with nodes := SMap.put s.pers.nodes 0x3F ⟨1, 2, 3, 0, 0, [65], 0⟩ } }
def six (a : List Nat) : List Nat := (List.range 6).map fun i => a.getD i 0
def calls31 (s : State) (n : Nat) (a : List Nat) (m : Bytes) : State := running31 s (atEcall n a m)

/-! What a statement asks of a unit, a caller or a transfer, as a test that runs. -/

def readyB (s : State) : Bool :=
  decide (s.stage = 0x11 ∧ s.power = 0 ∧ s.seq.failing = false ∧ s.seq.retiring = false ∧ s.tem.resp = none ∧ pairNo s = 0 ∧
    SMap.look s.sheaf.theirs (s.seq.adm + 1) = none ∧ s.entropyDown = false ∧ num s 0x2300 1 ≠ 3 ∧ num s 0xCF20 1 = 0 ∧ 4000 ≤ budgetNow (number s) ∧
    s.boot.waking = false ∧ countedNow (number s) < 100000 ∧ s.otp.retired = false)

theorem ready_of {s : State} (h : readyB s = true) : Ready s := by
  obtain ⟨a, b, c, d, e, f, g, i, j, k, l, m, n, o⟩ := of_decide_eq_true h
  exact ⟨a, b, c, d, e, m, o, f, g, i, j, k, l, n⟩

def soundB (s : State) (r : Rq) : Bool :=
  decide (r.phys = .ok ∧ r.check2 = 0 ∧ busy s r.origin = false ∧ closedTo s r.origin = false ∧ auditHolds s (requestIn s r) = false ∧
    partnerRuns s r = false ∧ atHead s r = true ∧ turn s (if localOrigin r.origin = 1 then 3 else 2) = true)

theorem sound_of {s : State} {r : Rq} (h : soundB s r = true) : Sound s r := by
  obtain ⟨a, b, c, d, e, f, g, i⟩ := of_decide_eq_true h
  exact ⟨a, b, g, i, c, d, e, f⟩

/-- The key of the session is one of AES. -/
abbrev wholeKeys (k : Nat) (z : Session) : Prop := KeyFits (keyOf k z)

theorem fit_take {b : Bytes} (h : b.length = 16) : fitBytes 8 (b.take 8) = b.take 8 := by
  simp [fitBytes, h, zeros]

theorem sessionKey_of {s : State} {k : Nat} {z : Session} (h : cachedKey s (credNode z.role z.cred) = some []) : sessionKey s k z = keyOf k z := by
  simp [sessionKey, Session.keys, nodeKey, keyGo, h, keyOf]

def clientB (s : State) (r : Rq) (tr : Trailer) (z : Session) (need : Role) : Bool :=
  readyB s && soundB s r &&
    decide ((SMap.look s.sessions tr.slot = some z ∧ z.origin = r.origin ∧ z.bound = true ∧ z.orphaned = false ∧
      s.seq.time ≤ z.time + idleLimit s ∧ cachedKey s (credNode z.role z.cred) = some [] ∧ z.last < tr.counter ∧ tr.counter ≠ 0xFFFFFFFF) ∧
      roleServes need z.role = true ∧ (z.role = 3 → serviceOn s = false ∨ vigilOn s = false) ∧ (r.origin < 0x100 ∨ 0x120 ≤ r.origin))

theorem client_of {s : State} {r : Rq} {tr : Trailer} {z : Session} {need : Role} (h : clientB s r tr z need = true) (ht : r.trailer = some tr)
    (hk : wholeKeys tr.slot z) (hg : tr.tag = (cmac (keyOf tr.slot z) (0 :: r.signed)).take 8) : Client s r tr z need := by
  simp only [clientB, Bool.and_eq_true] at h
  obtain ⟨⟨a, b⟩, c⟩ := h
  obtain ⟨⟨t2, t3, t4, t5, t6, t7, t9, t10⟩, d, e, f⟩ := of_decide_eq_true c
  have hl := cmac_length hk (0 :: r.signed)
  exact ⟨ready_of a, ⟨sound_of b, ht, t2, t3, t4, t5, t6, by rw [sessionKey_of t7, hg, fit_take hl], by rw [hg, List.length_take, hl]; rfl, t9, t10⟩, d, e, f⟩

/-- What K_sess of a session is made of. -/
def keyPart (z : Session) : Nat × Nat × Nat × Nat × Bytes × Bytes := (z.epoch, z.role, z.cred, z.origin, z.nonce, z.chal)

theorem keyOf_congr {y z : Session} (k : Nat) (h : keyPart y = keyPart z) : keyOf k y = keyOf k z := by
  simp only [keyPart, Prod.mk.injEq] at h
  simp only [keyOf, h]

theorem wholeKeys_small : ∀ k, k < 3 → wholeKeys k (zOf k) := by unfold wholeKeys KeyFits; decide +kernel

/-- Session k of s is one of unit's, as far as its key goes. -/
def ownB (s : State) (k : Nat) : Bool := decide (k < 3 ∧ keyPart (sessOf s k) = keyPart (zOf k))

theorem hdr_client {s : State} {k svc i sub : Nat} {body : Bytes} {need : Role}
    (h : (clientB s (hdrRq (hdr k svc i sub body) svc i sub body) (trl (hdr k svc i sub body)) (sessOf s k) need && ownB s k) = true) :
    Client s (hdrRq (hdr k svc i sub body) svc i sub body) (trl (hdr k svc i sub body)) (sessOf s k) need := by
  simp only [Bool.and_eq_true] at h
  obtain ⟨a, b⟩ := of_decide_eq_true h.2
  have e := keyOf_congr k b
  refine client_of h.1 rfl ?_ ?_
  · show KeyFits (keyOf k (sessOf s k))
    rw [e]; exact wholeKeys_small k a
  · show (cmac (keyOf k (zOf k)) _).take 8 = (cmac (keyOf k (sessOf s k)) _).take 8
    rw [e]; rfl

def anonB (s : State) (r : Rq) : Bool := readyB s && soundB s r && decide (r.trailer = none)

theorem anon_of {s : State} {r : Rq} (h : anonB s r = true) : Ready s ∧ Anonymous s r := by
  simp only [anonB, Bool.and_eq_true] at h
  exact ⟨ready_of h.1.1, ⟨sound_of h.1.2, of_decide_eq_true h.2⟩⟩

def openB (s : State) : Bool :=
  decide (journalFull s = false ∧ (s.pers.laps.commit < lapLimit ∧ s.pers.laps.dict < lapLimit ∧ s.pers.laps.jour < lapLimit) ∧ s.otp.lifecycle = 0x5A ∧
    s.otp.retired = false ∧ num s 0x2000 2 = 0 ∧ num s 0xD802 1 = 0)

theorem open_of {s : State} (h : openB s = true) : Open s := by
  obtain ⟨a, b, c, d, e, f⟩ := of_decide_eq_true h
  exact ⟨⟨a, b⟩, c, d, e, f⟩

def roomB (s : State) : Bool :=
  decide (journalFull s = false ∧ s.pers.laps.commit < lapLimit ∧ s.pers.laps.dict < lapLimit ∧ s.pers.laps.jour < lapLimit)

theorem room_of {s : State} (h : roomB s = true) : Room s := ⟨(of_decide_eq_true h).1, (of_decide_eq_true h).2⟩

def unwornB (s : State) : Bool := decide (s.pers.laps.commit < lapLimit ∧ s.pers.laps.dict < lapLimit ∧ s.pers.laps.jour < lapLimit)

theorem unworn_of {s : State} (h : unwornB s = true) : Unworn s := by unfold Unworn; exact of_decide_eq_true h

def nextB (s : State) (r : Rq) (k : Option Nat) (i j : Nat) (g : Seg) (x : Transfer) : Bool :=
  decide (transferOf s r.origin = some x ∧ x.writing = true ∧ x.idx = i ∧ x.sub = j ∧ (x.sess = none ∨ x.sess = k) ∧
    (if isNumbered s r then s.seq.time else s.seq.admTime) ≤ x.time + 1000000 ∧
    g.num = x.next ∧ g.num < 65536 ∧ g.len = g.data.length ∧ 0 < g.len ∧ g.len ≤ 1024 ∧ x.got + g.len ≤ x.total ∧
    g.flags = if x.got + g.len = x.total then 1 else 0)

theorem next_of {s : State} {r : Rq} {k : Option Nat} {i j : Nat} {g : Seg} {x : Transfer} (h : nextB s r k i j g x = true) :
    NextSegment s r k i j g x := by
  obtain ⟨a, b, c, d, e, f, p, q, t, u, v, w, y⟩ := of_decide_eq_true h
  exact ⟨a, b, c, d, e, f, p, q, t, u, v, w, y⟩

/-- Session k of s writes v to object i.sub as a client with this role. -/
abbrev Writes (s : State) (k i sub : Nat) (v : Bytes) (need : Role) : Prop :=
  Client s (rqWrite (wh k i sub v) i sub v) (trl (wh k i sub v)) (sessOf s k) need

/-- Session k of s sends segment g of object i.sub as such a client, and it is the one that transfer x expects. -/
abbrev Sends (s : State) (k i sub : Nat) (g : Seg) (x : Transfer) (need : Role) : Prop :=
  Client s (rqSeg (sh k i sub g) i sub g) (trl (sh k i sub g)) (sessOf s k) need ∧
    NextSegment s (rqSeg (sh k i sub g) i sub g) (some k) i sub g x

theorem writes_of {s : State} {k i sub : Nat} {v : Bytes} {need : Role}
    (h : (clientB s (rqWrite (wh k i sub v) i sub v) (trl (wh k i sub v)) (sessOf s k) need && ownB s k) = true) : Writes s k i sub v need := hdr_client h

theorem sends_of {s : State} {k i sub : Nat} {g : Seg} {x : Transfer} {need : Role}
    (h : ((clientB s (rqSeg (sh k i sub g) i sub g) (trl (sh k i sub g)) (sessOf s k) need && ownB s k) &&
      nextB s (rqSeg (sh k i sub g) i sub g) (some k) i sub g x) = true) : Sends s k i sub g x need := by
  have h' := (Bool.and_eq_true _ _).mp h
  exact ⟨hdr_client h'.1, next_of h'.2⟩

/-- Session k of s asks for a service as a client with this role. -/
abbrev Asks (s : State) (k svc i sub : Nat) (b : Bytes) (need : Role) : Prop :=
  Client s (reqRq (rqOf k svc i sub b) svc) (trl (hdr k svc i sub b)) (sessOf s k) need

theorem asks_of {s : State} {k svc i sub : Nat} {b : Bytes} {need : Role}
    (h : (clientB s (reqRq (rqOf k svc i sub b) svc) (trl (hdr k svc i sub b)) (sessOf s k) need && ownB s k) = true) : Asks s k svc i sub b need := hdr_client h

def callsB (s : State) (c : Fin 32) (x : Cell) (n : Nat) (a : List Nat) : Bool :=
  readyB s && decide (num s 0x2000 2 = 0 ∧ running s c = some x ∧ fetch x = some 0x73 ∧ (reg x 17).toNat = n ∧ Sys.args x = a ∧
    Sys.early s c.val x n a = 0 ∧ turn s 4 = true ∧ Sys.cellTurn s c.val = true ∧ auditHolds s (Sys.callIn s c.val n a (callBytes x n a)) = false)

theorem calls_of {s : State} {c : Fin 32} {x : Cell} {n : Nat} {a : List Nat} (h : callsB s c x n a = true) : Calls s c x n a := by
  simp only [callsB, Bool.and_eq_true] at h
  obtain ⟨b, d, e, f, g, i, j, k, l⟩ := of_decide_eq_true h.2
  exact ⟨ready_of h.1, b, d, e, f, g, i, j, k, l⟩

/-- Cell 31 of unit s makes system call n with arguments a and buffer m. -/
abbrev Makes (s : State) (n : Nat) (a : List Nat) (m : Bytes) : Prop := Calls (calls31 s n a m) 31 (atEcall n a m) n (six a)

theorem makes_of {s : State} {n : Nat} {a : List Nat} {m : Bytes} (h : callsB (calls31 s n a m) 31 (atEcall n a m) n (six a) = true) : Makes s n a m :=
  calls_of h

theorem inward_of {s : State} {i : AdmIn} (h : decide (sequencerUp s = true ∧ num s 0x2000 2 = 0 ∧ auditHolds s i = false) = true) : Inward s i := by
  obtain ⟨a, b, c⟩ := of_decide_eq_true h
  exact ⟨a, b, c⟩

theorem online_of {f : Field} (h : decide (f.run = true ∧ f.link = 2 ∧ f.notice ≠ 1) = true) : OnLine f := by
  obtain ⟨a, b, c⟩ := of_decide_eq_true h
  exact ⟨a, b, c⟩

/-! The host link and BDP requests. -/

theorem test_send_taken : takesSend unit ∧ 8 ≤ (zeros 8).length ∧ (zeros 1054).length ≤ 1054 := by
  unfold takesSend; decide +kernel

theorem test_link_open : Hl.openFor unit = true ∧ Hl.early unit = false ∧ (0x11 : Byte).toNat ∉ [0x5A, 0xA5, 0xA6, 0x3C, 0xC3] ∧
    ({ unit with host := { unit.host with replies := [[1, 2]] } } : State).host.replies = [1, 2] :: [] := by decide +kernel

/-- A frame without its opcode is none of the layout. -/
theorem test_send_refused : takesSend unit ∧ ¬∃ m : Bytes, 8 ≤ m.length ∧ m.length ≤ 1054 ∧ [] = sendWire m ∧ true = true := by
  refine ⟨by unfold takesSend; decide +kernel, ?_⟩
  rintro ⟨m, -, -, h, -⟩
  simp [sendWire] at h

theorem test_read : let q := reqRq (rq0 0x1000 1 []) 1
    (Ready unit ∧ Anonymous unit q) ∧ isNumbered unit q = false ∧ Dict.find 0x1000 1 = (true, some (descOf 0x1000 1)) ∧
      objectChecks (orderedIn unit q) (nobody q) false 0x1000 1 (descOf 0x1000 1) none = 0 ∧ (descOf 0x1000 1).ty ≠ .domain ∧
      (descOf 0x1000 1).ty ≠ .label ∧ (descOf 0x1000 1).size ≤ 24 ∧ readConflict (orderedIn unit q) (nobody q) 0x1000 1 = 0 :=
  ⟨anon_of (by decide +kernel), by decide +kernel⟩

theorem test_describe : (Ready unit ∧ Anonymous unit (reqRq (rq0 0x1000 7 []) 0x20)) ∧ Dict.find 0x1000 7 = (true, some (descOf 0x1000 7)) :=
  ⟨anon_of (by decide +kernel), by decide +kernel⟩

/-- Tillers 48 to 50 with a state and a full buffer. -/
def wild : State := { unit with rng := { unit.rng with tillers := (List.range 64).map fun k => (k, ⟨some ⟨zeros 32, zeros 16, 1⟩, zeros 1024⟩) } }

theorem test_random_read (sub : Fin 3) : let h := hdr 0 (if sub = 2 then 3 else 1) 0x2310 (sub.val + 1) []
    Client wild (hdrRq h (if sub = 2 then 3 else 1) 0x2310 (sub.val + 1) []) (trl h) (sessOf wild 0) .operator ∧
      num wild 0x2000 2 = 0 ∧ wild.seq.admTime ≤ wild.seq.time ∧ transferOf wild 1 = none ∧ wild.transfers.length < 16 ∧
      instantiated wild 48 = true ∧
      (takeBuffer (orderedIn wild (hdrRq h (if sub = 2 then 3 else 1) 0x2310 (sub.val + 1) [])) 48
        (if sub = 0 then 16 else if sub = 1 then 24 else 1024)).isSome = true := by
  refine ⟨hdr_client ?_, ?_⟩ <;> revert sub <;> decide +kernel

theorem test_snapshot : (Ready unit ∧ Anonymous unit (hdrRq bareHdr 3 0xE100 1 [])) ∧ transferOf unit 1 = none ∧ unit.transfers.length < 16 :=
  ⟨anon_of (by decide +kernel), by decide +kernel⟩

/-- The last segment of a read of four bytes, and one of a longer value, as late as R109 allows. -/
def reading (n : Nat) : State := withTr unit ⟨1, none, false, 0x1000, 7, n, 0, 0, [], zeros n, 990000, false⟩

/-- An INIT while the origin has a transfer open. -/
theorem test_read_seg_init : let q := reqRq (rq0 0x1000 3 []) 3
    let s := reading 4
    (Ready s ∧ Anonymous s q) ∧ isNumbered s q = false ∧ (transferOf s 1).isSome = true ∧ (initIn s q).transfers.length < 16 ∧
      Dict.find 0x1000 3 = (true, some (descOf 0x1000 3)) ∧ objectChecks (initOrdered s q) (nobody q) false 0x1000 3 (descOf 0x1000 3) none = 0 ∧
      readConflict (initOrdered s q) (nobody q) 0x1000 3 = 0 := ⟨anon_of (by decide +kernel), by decide +kernel⟩

theorem test_read_seg : (∀ n ∈ [4, 1025], (Ready (reading n) ∧ Anonymous (reading n) (reqRq (rq0 0x1000 7 (leBytes 2 0 ++ [0, 0])) 4)) ∧
    ∃ x, transferOf (reading n) 1 = some x ∧ x.writing = false ∧ x.sess = none ∧ unit.seq.admTime ≤ x.time + 1000000 ∧ x.next = 0) := by
  intro n h
  fin_cases h <;> exact ⟨anon_of (by decide +kernel), _, rfl, by decide +kernel⟩

theorem test_write : let v : Bytes := [10, 0, 0, 0]
    Asks unit 0 2 0x1010 3 (leBytes 2 4 ++ v) (descOf 0x1010 3).role ∧ Open unit ∧
      Dict.find 0x1010 3 = (true, some (descOf 0x1010 3)) ∧ (descOf 0x1010 3).acc = .rw ∧ (descOf 0x1010 3).ty ≠ .domain ∧ (descOf 0x1010 3).ty ≠ .label ∧ v.length = (descOf 0x1010 3).size ∧ encodingCheck (descOf 0x1010 3) v = 0 ∧
      plainCheck (admittedIn unit (reqRq (rqOf 0 2 0x1010 3 (leBytes 2 4 ++ v)) 2) (trl (hdr 0 2 0x1010 3 (leBytes 2 4 ++ v)))) 0x1010 3 (leNat v) v = 0 :=
  ⟨asks_of (by decide +kernel), open_of (by decide +kernel), by decide +kernel⟩

/-- A label of 32 characters is being written: its first byte has come. -/
def labelling : State := withTr unit (wtr 0 0x1000 7 33 [32] 1)
/-- An INIT of session 0 for n bytes of an object. -/
def initOf (i k n : Nat) : Rq := reqRq (rqOf 0 5 i k (leBytes 4 n)) 5
def initTr (i k n : Nat) : Trailer := trl (hdr 0 5 i k (leBytes 4 n))
/-- A domain takes an INIT, and a transfer slot is free then. -/
def initRuns (s : State) (i k n : Nat) : Bool :=
  match domainInit (initAdmitted s (initOf i k n) (initTr i k n)) (callerOf (initOf i k n) (initTr i k n) (sess 1 2)) i k n with
  | .ok u => decide (u.transfers.length < 16)
  | .error _ => false

/-- A label, and an image of the full size, in place of the transfer that was open. -/
theorem test_write_init : Open labelling ∧
    (Asks labelling 0 5 0x1000 7 (leBytes 4 33) (descOf 0x1000 7).role ∧ Dict.find 0x1000 7 = (true, some (descOf 0x1000 7)) ∧ (descOf 0x1000 7).ty = .label ∧
      33 ≤ (descOf 0x1000 7).size ∧ (initIn labelling (initOf 0x1000 7 33)).transfers.length < 16 ∧
      objectChecks (initOrdered labelling (initOf 0x1000 7 33)) (callerOf (initOf 0x1000 7 33) (initTr 0x1000 7 33) (sess 1 2)) true 0x1000 7 (descOf 0x1000 7) none = 0) ∧
    (let n := (descOf 0x1100 1).size
     Asks labelling 0 5 0x1100 1 (leBytes 4 n) (descOf 0x1100 1).role ∧ Dict.find 0x1100 1 = (true, some (descOf 0x1100 1)) ∧ (descOf 0x1100 1).ty = .domain ∧ n ≠ 0 ∧
      n < 4294967296 ∧
      objectChecks (initAdmitted labelling (initOf 0x1100 1 n) (initTr 0x1100 1 n)) (callerOf (initOf 0x1100 1 n) (initTr 0x1100 1 n) (sess 1 2)) true 0x1100 1
        (descOf 0x1100 1) (some none) = 0 ∧ initRuns labelling 0x1100 1 n = true) :=
  ⟨open_of (by decide +kernel), ⟨asks_of (by decide +kernel), by decide +kernel⟩, asks_of (by decide +kernel), by decide +kernel⟩

def part (n fin : Nat) (d : Bytes) : Bytes := segBody (seg n fin d)

/-- A segment before the last byte, and the one with it; a transfer that was opened without a session takes it too. -/
theorem test_label_segment : Asks labelling 0 6 0x1000 7 (part 1 0 (zeros 31)) .any ∧ Asks labelling 0 6 0x1000 7 (part 1 1 (zeros 32)) .any ∧
    NextSegment labelling (reqRq (rqOf 0 6 0x1000 7 (part 1 0 (zeros 31))) 6) (some 0) 0x1000 7 (seg 1 0 (zeros 31)) (wtr 0 0x1000 7 33 [32] 1) ∧
    NextSegment labelling (reqRq (rqOf 0 6 0x1000 7 (part 1 1 (zeros 32))) 6) (some 0) 0x1000 7 (seg 1 1 (zeros 32)) (wtr 0 0x1000 7 33 [32] 1) ∧
    (let x := { wtr 0 0x1000 7 33 [32] 1 with sess := none }
     NextSegment (withTr unit x) (reqRq (rqOf 0 6 0x1000 7 (part 1 1 (zeros 32))) 6) (some 0) 0x1000 7 (seg 1 1 (zeros 32)) x) ∧
    Open labelling ∧ encodingCheck (descOf 0x1000 7) ([32] ++ zeros 32) = 0 ∧
    plainCheck (admittedIn labelling (reqRq (rqOf 0 6 0x1000 7 (part 1 1 (zeros 32))) 6) (trl (hdr 0 6 0x1000 7 (part 1 1 (zeros 32))))) 0x1000 7
      (leNat ([32] ++ zeros 32)) ([32] ++ zeros 32) = 0 :=
  ⟨asks_of (by decide +kernel), asks_of (by decide +kernel), next_of (by decide +kernel), next_of (by decide +kernel), next_of (by decide +kernel),
    open_of (by decide +kernel), by decide +kernel⟩

/-- The END of an object that only holds its value, and a segment of a DOMAIN before its last byte. -/
theorem test_segments : (let x := wtr 0 0x1010 3 4 [1] 1
      Asks (withTr unit x) 0 6 0x1010 3 (part 1 1 [0, 0, 0]) .any ∧
        NextSegment (withTr unit x) (reqRq (rqOf 0 6 0x1010 3 (part 1 1 [0, 0, 0])) 6) (some 0) 0x1010 3 (seg 1 1 [0, 0, 0]) x ∧ holdsOnly 0x1010 = true) ∧
    (let x := wtr 0 0x1100 1 3377 [9] 1
     let q := reqRq (rqOf 0 6 0x1100 1 (part 1 0 [7])) 6
     Asks (withTr unit x) 0 6 0x1100 1 (part 1 0 [7]) .any ∧ NextSegment (withTr unit x) q (some 0) 0x1100 1 (seg 1 0 [7]) x ∧
       (domainData (setTransfer (admittedIn (withTr unit x) q (trl (hdr 0 6 0x1100 1 (part 1 0 [7])))) (x.took (seg 1 0 [7]) unit.seq.time)) 0x1100 1 [7] .ok).code = 0) :=
  ⟨⟨asks_of (by decide +kernel), next_of (by decide +kernel), rfl⟩, asks_of (by decide +kernel), next_of (by decide +kernel), by decide +kernel⟩

/-- The end of a read, and of an image being loaded. -/
theorem test_abort : (let s := withTr unit ⟨1, some 0, false, 0x1000, 7, 4, 0, 0, [], zeros 4, 1999000, false⟩
      Asks s 0 7 0 0 (leBytes 4 0xFFFFFFFF) .any ∧ num s 0xD802 1 = 0 ∧ s.seq.admTime ≤ s.seq.time ∧ (transferOf s 1).isSome = true) ∧
    (let s := withTr unit (wtr 0 0x1100 1 3377 [9] 1)
     Asks s 0 7 0 0 (leBytes 4 0xFFFFFFFF) .any ∧ num s 0xD802 1 = 0 ∧ isDomain 0x1100 1 = true ∧ (transferOf s 1).isSome = true) :=
  ⟨⟨asks_of (by decide +kernel), by decide +kernel⟩, asks_of (by decide +kernel), by decide +kernel⟩

theorem test_bind_request (role : Fin 3) : let q := reqRq (rq0 0 0 ([BitVec.ofNat 8 (role.val + 1), 15, 0, 0] ++ zeros 16)) 0x10
    (Ready unit ∧ Anonymous unit q) ∧ SMap.look (expirePending (numberedIn unit q)).sessions 3 = none ∧
      (∀ j, j < 3 → (SMap.look (expirePending (numberedIn unit q)).sessions j).isSome) ∧ slotsHeld (expirePending (numberedIn unit q)) 1 < 4 ∧ reserveFull unit = false := by
  refine ⟨anon_of ?_, ?_⟩ <;> revert role <;> decide +kernel

/-- The owner's session waits for its proof. -/
def pendingUnit : State := { unit with sessions := [(0, { sess 1 2 with bound := false })] }

theorem test_bind_response : let q := reqRq (rq0 0 0 ([0, 0, 0, 0] ++ bindProof (nodeKey (numberedIn pendingUnit (reqRq (rq0 0 0 []) 0x11)) (credNode 2 0)) 0x43 { sess 1 2 with bound := false } 0)) 0x11
    (Ready pendingUnit ∧ Anonymous pendingUnit q) ∧ SMap.look pendingUnit.sessions 0 = some { sess 1 2 with bound := false } ∧
      pendingUnit.seq.time ≤ 1900000 + 2000000 ∧ SMap.look pendingUnit.lockouts 1 = none ∧ reserveFull pendingUnit = false := ⟨anon_of (by decide +kernel), by decide +kernel⟩

theorem test_unbind : Asks unit 0 0x12 0 0 [] .any ∧ reserveFull unit = false := ⟨asks_of (by decide +kernel), by decide +kernel⟩

/-- The service waits at the head of the host link's buffer. -/
theorem test_unknown_service : Ready unit ∧ closedTo unit 1 = false ∧ turn unit 3 = true ∧
    atHead { unit with host := { unit.host with buf := [(reqRq (rq0 0x1000 1 []) 0x13).bytes] } } (reqRq (rq0 0x1000 1 []) 0x13) = true ∧ (0x13 : Byte).toNat ∉ [1, 2, 3, 4, 5, 6, 7, 0x10, 0x11, 0x12, 0x20] :=
  ⟨ready_of (by decide +kernel), by decide +kernel⟩

/-! System, firmware and channels. -/

theorem test_system_actions : Open unit ∧ Writes unit 0 0x2100 0x0C [1] .owner ∧ Writes unit 0 0x2100 0x0D [1] .owner ∧ Writes unit 0 0xE800 1 [1] .owner ∧
    longRuns unit = false :=
  ⟨open_of (by decide +kernel), writes_of (by decide +kernel), writes_of (by decide +kernel), writes_of (by decide +kernel), by decide +kernel⟩

/-- Bus-off recovery by command, at CAN controllers 0 to 3. -/
def manualOff : State := (List.range 4).foldl (fun s c => setNum s (0x1200 + c) 7 1) unit

theorem test_recover_now (can : Fin 4) : Open manualOff ∧ Writes manualOff 0 (0x1200 + can.val) 8 [1] .owner ∧ num manualOff (0x1200 + can.val) 7 ≠ 0 := by
  refine ⟨open_of ?_, writes_of ?_, ?_⟩ <;> revert can <;> decide +kernel

def loading : State := withTr unit (wtr 0 0x1100 1 3377 (zeros 16 ++ [1] ++ zeros 3355) 4)
theorem test_load_image (n : Fin 2) : let g := seg 4 n.val (zeros (4 + n.val)) 
    Open loading ∧ num loading 0x2100 4 ≤ 1 ∧ Sends loading 0 0x1100 1 g (wtr 0 0x1100 1 3377 (zeros 16 ++ [1] ++ zeros 3355) 4) .owner ∧
      (n = 1 → (zeros 16 ++ [1] ++ zeros 3355 ++ g.data).length = 3376 + leNat (((zeros 16 ++ [1] ++ zeros 3355 ++ g.data).drop 16).take 4)) := by
  refine ⟨open_of ?_, ?_, sends_of ?_, ?_⟩ <;> revert n <;> decide +kernel

theorem test_verify : Open unit ∧ Writes unit 0 0x1100 3 [1] .owner ∧ longRuns unit = false ∧ num unit 0xCF20 3 = 0 ∧ num unit 0xCF38 3 = 0 :=
  ⟨open_of (by decide +kernel), writes_of (by decide +kernel), by decide +kernel⟩

theorem test_activate : let s := setNum unit 0x1100 2 3
    Open s ∧ num s 0x2100 4 ≤ 1 ∧ Writes s 0 0x1100 4 [1] .owner ∧ num s 0x1100 2 = 3 :=
  ⟨open_of (by decide +kernel), by decide +kernel, writes_of (by decide +kernel), by decide +kernel⟩

/-- The image runs at version 2, and the floor is 1. -/
def second : State := { setNum unit 0x2100 5 2 with otp := ⟨0x5A, false, 1⟩ }

theorem test_raise_floor (v : Fin 4) : Open second ∧ longRuns second = false ∧ Writes second 0 0x1100 5 (leBytes 4 v.val) .owner ∧
    (v.val = 2 → v.val = num second 0x2100 5 ∧ second.otp.floor < v.val) ∧ (v.val ≠ 2 → v.val ≠ num second 0x2100 5 ∨ v.val ≤ second.otp.floor) := by
  refine ⟨open_of ?_, ?_, writes_of ?_, ?_⟩ <;> revert v <;> decide +kernel


/-- The acts of a held write of key (R23) at a release that is due, before act a. -/
def heldActs (key : Nat) (a : Act) : List Act := [.setObj key (.num 1), a]
def heldDue (a : Act) : Bool :=
  let s := due unit (heldActs 0x110005 a)
  decide (s.slots.find? (fun y => decide (y.id = 0)) = some (owing (heldActs 0x110005 a)) ∧ (owing (heldActs 0x110005 a)).due ≤ s.seq.time ∧ s.tem.resp = none ∧
    s.seq.failing = false)

theorem test_burn : heldDue (.burnFloor 3) = true := by decide +kernel

theorem test_below_floor : leNat ((((⟨zeros 12, false, false, false⟩ : Image).bytes).drop 8).take 4) < second.otp.floor := by decide +kernel

/-- The owner's group 0x100 with channel node 0x101. -/
def keyed : State := { unit with pers := { unit.pers with nodes := [(0x100, ⟨1, 2, 4, 0, 0, [65], 0⟩), (0x101, ⟨0x100, 3, 0x11, 0, 0, [65], 0⟩)] } }

/-- Channel 5 in state st, keyed by node 0x101 and with a route. -/
def chan (st : Nat) : State :=
  setNum (setNum (setNum (setNum keyed 0x4005 1 st) 0x4005 2 0x30101) 0x4005 4 0x0405) 0x4005 5 1
def top : Fin 32768 := 32767

theorem test_channel_open : Open (chan 1) ∧ Writes (chan 1) 2 0x4005 6 [1] .operator ∧ num (chan 1) 0x4005 1 = 1 ∧ num (chan 1) 0x4005 4 ≠ 0 ∧
    epochOf (chan 1) (num (chan 1) 0x4005 2 % 0x10000) < 0xFFFFFF ∧
    heartbeatLoad (chan 1) + ceilRate (if num (chan 1) 0x4005 13 ≠ 0 then num (chan 1) 0x4005 13 else num (chan 1) (0x3000 + num (chan 1) 0x4005 3) 1) ≤ 300000 :=
  ⟨open_of (by decide +kernel), writes_of (by decide +kernel), by decide +kernel⟩

/-- From OPENING, OPEN and REKEYING. -/
theorem test_channel_close (k : Fin 3) : let s := chan (k.val + 2)
    Open s ∧ Writes s 2 0x4005 6 [0] .operator ∧ num s 0x4005 1 = k.val + 2 ∧ num s 0x4005 9 < 0xFFFFFFFF := by
  refine ⟨open_of ?_, writes_of ?_, ?_⟩ <;> revert k <;> decide +kernel

theorem test_rekey : Open (chan 3) ∧ Writes (chan 3) 2 0x4005 7 [1] .operator ∧ num (chan 3) 0x4005 1 = 3 ∧
    epochOf (chan 3) (num (chan 3) 0x4005 2 % 0x10000) < 0xFFFFFF :=
  ⟨open_of (by decide +kernel), writes_of (by decide +kernel), by decide +kernel⟩

theorem test_flag_clear : Writes unit 2 0xBFFF 0x0C (leBytes 4 127) .operator ∧ (127#32).toNat < 128 := ⟨writes_of (by decide +kernel), by decide +kernel⟩

/-- Key node 0 at the last channel, and a live channel node that no other channel is keyed by. -/
theorem test_key_node : Writes unit 0 0xBFFF 2 (leBytes 4 0) .owner ∧ num unit 0xBFFF 1 ∉ [2, 3, 4] ∧
    (let s := setNum (chan 1) 0x4005 2 0
     let n := handleOf s 0x101
     Writes s 0 0x4005 2 (leBytes 4 n) .owner ∧ num s 0x4005 1 ∉ [2, 3, 4] ∧ nodeByHandle s n = some 0x101 ∧
       (nodeOf s 0x101).any (fun x => decide (x.level = 3 ∧ x.kind = 0x11)) = true ∧ domainOf s 4 0x101 = 1 ∧ live s 0x101 = true ∧
       keySet s (fun p => decide (p = n)) = false) :=
  ⟨writes_of (by decide +kernel), by decide +kernel, writes_of (by decide +kernel), by decide +kernel⟩

/-- The bounds of a heartbeat interval, on a closed channel and on an open one. -/
theorem test_heartbeat_interval (k : Fin 3) : let v := [0, 10, 10000].getD k.val 0
    Writes (chan 1) 2 0x4005 0x0D (leBytes 2 v) .operator ∧ num (chan 1) 0x4005 1 ∉ [2, 3, 4] ∧
      Writes (chan 3) 2 0x4005 0x0D (leBytes 2 v) .operator ∧ num (chan 3) 0x4005 1 ∈ [2, 3, 4] ∧
      (v ≠ 0 → heartbeatLoad (chan 3) + ceilRate v ≤ 300000 + ceilRate (interval (chan 3) 5)) := by
  refine ⟨writes_of ?_, ?_, writes_of ?_, ?_⟩ <;> revert k <;> decide +kernel

/-- A received frame waits in channel 5. -/
def received : State :=
  let s := setNum (setNum (chan 3) 0x4005 0x11 1) 0x3100 2 9
  { s with chans := [(5, { chanOf s 5 with queue := [⟨1, 77, 50, 1000000, [1, 2]⟩] })] }

theorem test_receive_release : Writes received 2 0x4005 0x10 (leBytes 4 77) .operator ∧ num received 0x2000 3 = 0 ∧ num received 0x4005 5 = 1 ∧
    (chanOf received 5).queue = ⟨1, 77, 50, 1000000, [1, 2]⟩ :: [] := ⟨writes_of (by decide +kernel), by decide +kernel⟩

theorem test_channel_send : let x := wtr 2 0x4005 0x0E 3 [1] 1
    Sends (withTr (chan 3) x) 2 0x4005 0x0E (seg 1 1 [2, 3]) x .operator ∧ x.got + 2 = x.total ∧ num (chan 3) 0x4005 5 = 1 ∧
      num (chan 3) 0x4005 1 = 3 ∧ num (chan 3) 0x4005 9 < 0xFFFFFFFF := ⟨sends_of (by decide +kernel), by decide +kernel⟩

/-! Modes. -/

def served : State := setNum (setNum unit 0x2000 8 1) 0x2000 3 1

theorem test_modes_set : Open unit ∧ Writes (setNum unit 0x2000 8 1) 1 0x2000 3 [1] .service ∧ num (setNum unit 0x2000 8 1) 0x2000 8 ≠ 0 ∧
    Writes unit 0 0x2000 4 [1] .owner ∧ num unit 0x2000 4 = 0 ∧ Writes unit 2 0x2000 5 [1] .operator ∧ Writes unit 0 0x2000 6 [1] .owner ∧
    Writes unit 0 0x2000 7 [1] .owner :=
  ⟨open_of (by decide +kernel), writes_of (by decide +kernel), by decide +kernel, writes_of (by decide +kernel), by decide +kernel,
    writes_of (by decide +kernel), writes_of (by decide +kernel), writes_of (by decide +kernel)⟩

/-- In ISLAND the requests come from a field node. -/
def fieldHdr (i k : Nat) (v : Bytes) : Hdr :=
  let h : Hdr := ⟨0x8005, 0, 7, 0, none, .ok⟩
  let t : Trailer := ⟨0, 0, 6, zeros 8⟩
  { h with trailer := some { t with tag := (cmac (keyOf 0 (sess 0x8005 2)) (0 :: (rqWrite { h with trailer := some t } i k v).signed)).take 8 } }
def island : State :=
  { setNum unit 0x2000 4 1 with
    sessions := [(0, sess 0x8005 2)]
    bar := { unit.bar with up := true, input := [.bdpReq 0x8005 (rqWrite (fieldHdr 0x2000 4 [0]) 0x2000 4 [0]).bytes] } }

theorem test_modes_clear : Open served ∧ Writes served 1 0x2000 3 [0] .service ∧ num served 0x2000 3 ≠ 0 ∧
    Client island (rqWrite (fieldHdr 0x2000 4 [0]) 0x2000 4 [0]) (trl (fieldHdr 0x2000 4 [0])) (sess 0x8005 2) .owner ∧ num island 0x2000 4 ≠ 0 ∧
    Writes unit 2 0x2000 5 [0] .operator ∧ Writes unit 0 0x2000 6 [0] .owner ∧ num unit 0x2000 5 = 0 ∧ Writes unit 0 0x2000 7 [0] .owner :=
  ⟨open_of (by decide +kernel), writes_of (by decide +kernel), by decide +kernel, client_of (by decide +kernel) rfl (by unfold wholeKeys KeyFits; decide +kernel) rfl, by decide +kernel,
    writes_of (by decide +kernel), writes_of (by decide +kernel), by decide +kernel, writes_of (by decide +kernel)⟩

theorem test_mode_settings : Writes unit 0 0x2000 8 [0] .owner ∧ Writes unit 0 0x2000 8 [1] .owner ∧ Writes unit 0 0x2000 9 (leBytes 4 60) .owner ∧
    Writes unit 0 0x2000 9 (leBytes 4 86400) .owner :=
  ⟨writes_of (by decide +kernel), writes_of (by decide +kernel), writes_of (by decide +kernel), writes_of (by decide +kernel)⟩

/-! Streams and PLE slots. -/

/-- Session secret 0 of session 2, of an empty key. -/
def secretive (s : State) : State := { s with secrets := [(0, ⟨[], 2, 0, false⟩)] }
def begun (m tag : Nat) (dec : Bool) (key aad data : Nat) : Bytes :=
  [BitVec.ofNat 8 m, if dec then 1 else 0, BitVec.ofNat 8 tag, 0] ++ leBytes 4 key ++ leBytes 4 aad ++ leBytes 4 data ++ zeros 8

/-- Of the lengths that R258 allows: a digest, the longest AES-KW, and GCM that decrypts as much as staging holds. -/
theorem test_begin (k : Fin 3) :
    let p : Nat × Nat × Bool × Nat × Nat := [(0x10, 0, false, 0, 5), (6, 0, true, 0x800000, 1024), (1, 16, true, 0x800000, 32768)].getD k.val default
    let s := secretive unit
    let v := begun p.1 p.2.1 p.2.2.1 p.2.2.2.1 0 p.2.2.2.2
    Writes s 2 0xCF00 2 v .operator ∧ (streamOf s 0).state = 0 ∧ Str.known p.1 = true ∧ Str.tagOk p.1 p.2.1 = true ∧
      Str.lenOk p.1 p.2.2.1 0 p.2.2.2.2 32768 = true ∧
      (p.1 ≠ 0x10 → keyForHandle s 0x800000 (callerOf (rqWrite (wh 2 0xCF00 2 v) 0xCF00 2 v) (trl (wh 2 0xCF00 2 v)) (sess 1 1)).caller true
        (fun x => usageOk x p.1 p.2.2.1 1) = 0) := by
  refine ⟨writes_of ?_, ?_⟩ <;> revert k <;> decide +kernel

def sha5 : SCtx := ⟨0x10, false, 0, 0, 0, 0, 5, 0, 0, [], 0, [], zeros 200, false, 100, 1, 2, 0⟩
/-- Stream slot 15 computes a digest of five bytes for session 2. -/
def hashing : State := { unit with streams := [(15, { stream0 with state := 1, ctx := some sha5, ownOrigin := 1, ownSess := 2, remain := 5 })] }

theorem test_slot_ends : Writes hashing 2 0xCF0F 10 [1] .operator ∧ Writes hashing 2 0xCF0F 11 [1] .operator ∧ Writes hashing 2 0xCF0F 13 [1] .operator ∧
    (streamOf hashing 15).ownOrigin = 1 ∧ (streamOf hashing 15).ownSess = 2 ∧ (streamOf hashing 15).state = 1 ∧ (streamOf hashing 15).remain ≠ 0 ∧
    (streamOf hashing 15).ctx = some sha5 ∧ (streamOf hashing 15).staged = [] ∧ inputOpen hashing 0xCF0F 3 = false ∧ (sess 1 1).parked.length < 16 :=
  ⟨writes_of (by decide +kernel), writes_of (by decide +kernel), writes_of (by decide +kernel), by decide +kernel⟩

def kept : SCtx := { sha5 with parkAdm := 90 }
/-- K_cw of session 2. -/
def cwKey : Bytes := (sessionKeys [] (sess 1 1).epoch 1 0 2 1 (zeros 16) (zeros 16)).drop 32
def wrapped : Bytes := kwWrap cwKey kept.bytes
def unparking : State :=
  { withTr unit (wtr 2 0xCF00 12 424 (wrapped.take 420) 1) with sessions := [(0, sess 1 2), (2, { sess 1 1 with parked := [90] })] }

theorem kept_pieces : (∀ b ∈ chunks 8 kept.bytes, b.length = 8) ∧ (chunks 8 kept.bytes).flatten = kept.bytes ∧ (chunks 8 kept.bytes).length = 52 := by decide +kernel

theorem cwKey_fits : KeyFits cwKey := by unfold KeyFits; decide +kernel

theorem wrapped_length : wrapped.length = 424 := by
  unfold wrapped
  rw [kwWrap_length cwKey_fits _ kept_pieces.1 (by intro h; have := kept_pieces.2.2; simp [h] at this), kept_pieces.2.2]

theorem test_unpark : let x := wtr 2 0xCF00 12 424 (wrapped.take 420) 1
    Sends unparking 2 0xCF00 12 (seg 1 1 (wrapped.drop 420)) x .operator ∧ x.got + 4 = x.total ∧ (streamOf unparking 0).state = 0 ∧
      kwUnwrap ((Session.keys unparking 2 { sess 1 1 with parked := [90] }).drop 32) (wrapped.take 420 ++ wrapped.drop 420) = (kept.bytes, true) ∧ kept.bytes.head? = some 1 ∧ (parseCtx kept.bytes).parkAdm = 90 ∧
      (parseCtx kept.bytes).epoch = handleEpoch unparking 0 ∧ (parseCtx kept.bytes).handle = 0 :=
by
  have h : (wrapped.take 420).length = 420 ∧ (wrapped.drop 420).length = 4 := by simp [wrapped_length]
  have e : (Session.keys unparking 2 { sess 1 1 with parked := [90] }).drop 32 = cwKey := by decide +kernel
  refine ⟨⟨hdr_client (by decide +kernel), rfl, rfl, rfl, rfl, .inr rfl, by decide +kernel, rfl, by decide, rfl, ?_, ?_, ?_, ?_⟩, ?_, by decide +kernel, ?_, by decide +kernel⟩
  · show 0 < (wrapped.drop 420).length
    omega
  · show (wrapped.drop 420).length ≤ 1024
    omega
  · show (wrapped.take 420).length + (wrapped.drop 420).length ≤ 424
    omega
  · show 1 = if (wrapped.take 420).length + (wrapped.drop 420).length = 424 then 1 else 0
    rw [h.1, h.2]; rfl
  · show (wrapped.take 420).length + 4 = 424
    omega
  · rw [e, List.take_append_drop]
    exact kwUnwrap_kwWrap cwKey_fits _ kept_pieces.1 kept_pieces.2.1 (by intro g; have := kept_pieces.2.2; simp [g] at this)

/-- The Input of a slot, n bytes long. -/
def inputOf (n : Nat) : State := withTr hashing (wtr 2 0xCF0F 3 n [] 0)

/-- A segment before the last byte of the data, and the last one. -/
theorem test_stream_input : Sends (inputOf 4) 2 0xCF0F 3 (seg 0 1 [1, 2, 3, 4]) (wtr 2 0xCF0F 3 4 [] 0) .operator ∧
    Sends (inputOf 5) 2 0xCF0F 3 (seg 0 1 [1, 2, 3, 4, 5]) (wtr 2 0xCF0F 3 5 [] 0) .operator ∧ (streamOf (inputOf 5) 15).state = 1 ∧
    (streamOf (inputOf 5) 15).remain = 5 ∧ sha5.dec = false ∧ Str.isKw sha5.mode = false ∧ num (inputOf 5) 0xCF20 3 = 0 :=
  ⟨sends_of (by decide +kernel), sends_of (by decide +kernel), by decide +kernel⟩

/-- GCM decryption under the session secret whose data is empty: nonce and tag are the input. -/
def gcm0 : SCtx := ⟨1, true, 16, 0x800000, 0, 0, 0, 0, 0, [], 0, [], zeros 200, false, 100, 1, 2, 0⟩
def tag0 : Bytes := gcmTag [] (zeros 12) 0 0 0
def opening : State :=
  { withTr (secretive unit) (wtr 2 0xCF0F 3 28 [] 0) with
    streams := [(15, { stream0 with state := 1, ctx := some gcm0, ownOrigin := 1, ownSess := 2, remain := 28 })] }

theorem test_stream_opens : let g := seg 0 1 (zeros 12 ++ tag0)
    Sends opening 2 0xCF0F 3 g (wtr 2 0xCF0F 3 28 [] 0) .operator ∧ g.len = (streamOf opening 15).remain ∧ gcm0.dec = true ∧
      Str.finish (streamSegment gcm0 [] (handleKey opening 0x800000) g.data).1 (handleKey opening 0x800000) =
        (streamSegment gcm0 [] (handleKey opening 0x800000) g.data).2.1 := ⟨sends_of (by decide +kernel), by decide +kernel⟩

/-- A digest of nothing to compare: the digest is the input. And the first segment of a CBC encryption under the session secret. -/
def shaV : SCtx := { sha5 with dec := true, dataLen := 0 }
def cbc5 : SCtx := ⟨4, false, 0, 0x800000, 0, 0, 32, 0, 0, [], 0, zeros 16, zeros 200, false, 100, 1, 2, 0⟩
def slotWith (c : SCtx) (n : Nat) : State :=
  { withTr (secretive unit) (wtr 2 0xCF0F 3 n [] 0) with
    streams := [(15, { stream0 with state := 1, ctx := some c, ownOrigin := 1, ownSess := 2, remain := n })] }

theorem test_stream_compares : let g := seg 0 1 (sha256 [])
    Sends (slotWith shaV 32) 2 0xCF0F 3 g (wtr 2 0xCF0F 3 32 [] 0) .operator ∧ shaV.dec = true ∧ Str.isSha shaV.mode = true ∧ num (slotWith shaV 32) 0xCF20 3 = 0 ∧
      Str.finish (streamSegment shaV [] (handleKey (slotWith shaV 32) 0) g.data).1 (handleKey (slotWith shaV 32) 0) =
        (streamSegment shaV [] (handleKey (slotWith shaV 32) 0) g.data).2.1 ∧
    Sends (slotWith cbc5 32) 2 0xCF0F 3 { seg 0 1 (zeros 32) with flags := 1 } (wtr 2 0xCF0F 3 32 [] 0) .operator ∧ cbc5.started = false :=
  ⟨sends_of (by decide +kernel), by decide +kernel, by decide +kernel, by decide +kernel, by decide +kernel, sends_of (by decide +kernel), rfl⟩

def plInput : Bytes := [8, 0, 0, 0] ++ zeros 12 ++ zeros 1952 ++ zeros 3309
/-- PLE slot 7 of session 2 holds a verification under a public key of zeros. -/
def asked : State := { unit with ples := [(7, { ple0 with state := 2, ownOrigin := 1, ownSess := 2, input := plInput })] }

theorem test_ple_input : let x := wtr 2 0xCF37 2 3 [8] 1
    Sends (withTr asked x) 2 0xCF37 2 (seg 1 1 [0, 0]) x .operator ∧ x.got + 2 = x.total := ⟨sends_of (by decide +kernel), by decide +kernel⟩

/-- A run that ends with its operation, without a shared secret to keep. -/
def runs (r : PleRun) : Bool := match r with | .ran _ o => o.secret.isNone | .refused _ => false

theorem test_ple_run : let q := rqWrite (wh 2 0xCF37 3 [1]) 0xCF37 3 [1]
    Writes asked 2 0xCF37 3 [1] .operator ∧ Writes asked 2 0xCF37 9 [1] .operator ∧ (pleOf asked 7).ownOrigin = 1 ∧ (pleOf asked 7).ownSess = 2 ∧
      (pleOf asked 7).state = 2 ∧
      runs (pleRunOp (admittedIn asked q (trl (wh 2 0xCF37 3 [1]))) (pleOf asked 7).input (callerOf q (trl (wh 2 0xCF37 3 [1])) (sess 1 1)).caller .ok) = true :=
  ⟨writes_of (by decide +kernel), writes_of (by decide +kernel), by decide +kernel⟩

/-! Keys, ownership and attestation. -/

def newNode (len : Nat) : Bytes := leBytes 4 0x10001 ++ [4, 0, 0, 0, BitVec.ofNat 8 len] ++ fitBytes 32 (List.replicate len 66) ++ [0, 0, 0]
def creating (len : Nat) : State := withTr (provisioned keyed) (wtr 0 0xCA00 1 44 ((newNode len).take 43) 1)

theorem test_create (k : Fin 2) : let len := [1, 32].getD k.val 0
    let s := creating len
    Open s ∧ num s 0x2000 7 ≠ 0 ∧ num s 0x2000 4 = 0 ∧ Sends s 0 0xCA00 1 (seg 1 1 [0]) (wtr 0 0xCA00 1 44 ((newNode len).take 43) 1) .owner ∧
      (newNode len).take 43 ++ [0] = newNode len ∧ nodeByHandle s 0x10001 = some 1 ∧ (nodeOf s 1).isSome = true ∧ live s 1 = true ∧
      atOrBelow s 2 1 = false ∧ kindAllowed s 1 4 false = true ∧ attrsAllowed 4 0 0 = true ∧
      (∀ q ∈ s.pers.nodes, q.2.parent = 1 → q.2.kind = 4 → q.2.alg = 0 → q.2.label = List.replicate len 66 → live s q.1 = false) := by
  refine ⟨open_of ?_, ?_, ?_, sends_of ?_, ?_⟩ <;> revert k <;> decide +kernel

/-- No fixed node has kind 0x04. -/
theorem test_fixed_kinds : ∀ n y, fixedNode n = some y → y.kind ≠ 4 := by
  intro n y h
  by_cases g : n < 0x80
  · have f : ∀ k : Fin 0x80, (fixedNode k.val).all (fun y => decide (y.kind ≠ 4)) = true := by decide +kernel
    have e := f ⟨n, g⟩
    simp only [h, Option.all_some, decide_eq_true_eq] at e
    exact e
  · unfold fixedNode at h
    dsimp only at h
    split at h <;> first | omega | (split at h <;> first | omega | cases h)

theorem test_free_node : freeNode (creating 1) = some 0x102 := by decide +kernel

/-- Node 0x101 under the group, whose epoch has risen. -/
def orphaned : State := { provisioned keyed with pers := { keyed.pers with epochs := [(0x100, 1)] } }

theorem test_remove_node : let n := leBytes 4 0x30101
    Open orphaned ∧ num orphaned 0x2000 7 ≠ 0 ∧ num orphaned 0x2000 4 = 0 ∧ nodeByHandle orphaned 0x30101 = some 0x101 ∧
      (nodeOf orphaned 0x101).isSome = true ∧ Writes orphaned 0 0xCA00 3 n .owner ∧ live orphaned 0x101 = false ∧ childCount orphaned 0x101 = 0 ∧
      keyDomainOk orphaned 0 0x101 = true ∧ keySet orphaned (fun k => decide (k % 0x10000 = 0x101)) = false := ⟨open_of (by decide +kernel), by decide +kernel, by decide +kernel, by decide +kernel, by decide +kernel, writes_of (by decide +kernel), by decide +kernel⟩

theorem test_bump : let s := provisioned keyed
    Open s ∧ nodeByHandle s 0x20100 = some 0x100 ∧ (nodeOf s 0x100).all (fun x => decide (x.kind = 4)) = true ∧
      Writes s 0 0xCA00 4 (leBytes 4 0x20100 ++ leBytes 4 0) .owner ∧ keyDomainOk s 0 0x100 = true ∧ keySet s (fun k => decide (k = 0x20100)) = false ∧
      epochOf s 0x100 < 0xFFFFFF ∧ num s 0x2000 7 ≠ 0 ∧ num s 0x2000 4 = 0 :=
  ⟨open_of (by decide +kernel), by decide +kernel, by decide +kernel, writes_of (by decide +kernel), by decide +kernel⟩

def exporting : State := { provisioned keyed with secrets := [(0, ⟨[], 0, 0, false⟩)] }

theorem test_export : let v := leBytes 4 0x30101 ++ leBytes 4 0x800000
    Open exporting ∧ nodeByHandle exporting 0x30101 = some 0x101 ∧ Writes exporting 0 0xCA00 5 v .owner ∧
      secretByHandle exporting 0x800000 = some (0, ⟨[], 0, 0, false⟩) ∧ live exporting 0x101 = true ∧ keyDomainOk exporting 0 0x101 = true ∧
      (nodeOf exporting 0x101).all (fun x => decide (x.kind = 0x11)) = true :=
  ⟨open_of (by decide +kernel), by decide +kernel, writes_of (by decide +kernel), by decide +kernel⟩

/-- CALDERA. -/
def caldera (s : State) : State := setNum s 0xD802 1 2
def taking (s : State) (k : Nat) (sl : Nat) : State := withTr s (wtr sl 0xCA20 k 1088 (zeros 1087) 2)

theorem test_ownership : (let x := wtr 0 0xCA20 1 1088 (zeros 1087) 2
      let s := taking unit 1 0
      Open s ∧ longRuns s = false ∧ num s 0xCF38 3 = 0 ∧ Sends s 0 0xCA20 1 (seg 2 1 [0]) x .owner ∧
        ∀ j ∈ [1, 2], epochOf s j < 0xFFFFFF) ∧
    (let x := wtr 1 0xCA20 7 1088 (zeros 1087) 2
      let s := taking (caldera unit) 7 1
      Room s ∧ num s 0x2000 2 = 0 ∧ num s 0xD802 1 ≠ 0 ∧ longRuns s = false ∧ num s 0xCF38 3 = 0 ∧ Sends s 1 0xCA20 7 (seg 2 1 [0]) x .service) :=
  ⟨⟨open_of (by decide +kernel), by decide +kernel, by decide +kernel, sends_of (by decide +kernel), by decide +kernel⟩,
    room_of (by decide +kernel), by decide +kernel, by decide +kernel, by decide +kernel, by decide +kernel, sends_of (by decide +kernel)⟩

theorem test_owner_release : heldDue (.takeOwner (zeros 32) true) = true ∧ heldDue (.takeOwner (zeros 32) false) = true ∧ epochOf unit 1 < 0xFFFFFF ∧
    epochOf unit 2 < 0xFFFFFF := by decide +kernel

def wrap40 : Bytes := leBytes 4 0x800000 ++ kwWrap [] (zeros 32)
def pairing : State := withTr exporting (wtr 0 0xCA20 3 44 (wrap40.take 43) 1)

theorem test_pair_secret : let x := wtr 0 0xCA20 3 44 (wrap40.take 43) 1
    Open pairing ∧ longRuns pairing = false ∧ num pairing 0x2000 7 ≠ 0 ∧ Sends pairing 0 0xCA20 3 (seg 1 1 (wrap40.drop 43)) x .owner ∧
      secretByHandle pairing (leNat ((x.buf ++ wrap40.drop 43).take 4)) = some (0, ⟨[], 0, 0, false⟩) ∧
      kwUnwrap [] ((x.buf ++ wrap40.drop 43).drop 4) = (zeros 32, true) ∧ Writes (provisioned unit) 0 0xCA20 4 [1] .owner ∧
      epochOf pairing 1 < 0xFFFFFF ∧ epochOf pairing 2 < 0xFFFFFF :=
  ⟨open_of (by decide +kernel), by decide +kernel, by decide +kernel, sends_of (by decide +kernel), by decide +kernel, by decide +kernel, writes_of (by decide +kernel),
    by decide +kernel⟩

theorem test_retire : Open unit ∧ longRuns unit = false ∧ Writes unit 0 0xCA20 5 (leBytes 4 0x52455449) .owner ∧
    Writes (caldera unit) 1 0xCA20 8 (leBytes 4 0x52455449) .service ∧ num (caldera unit) 0xD802 1 ≠ 0 ∧
    (let a : State := { due unit (heldActs 0xCA2005 .retireReset) with seq := { unit.seq with retiring := true } }
     a.seq.retiring = true ∧ a.seq.failing = false ∧ a.tem.resp = none ∧
       ∀ x ∈ a.slots, ∃ key w, x.acts = [.setObj key w, .retireReset] ∨ x.acts = [.retireReset]) :=
  ⟨open_of (by decide +kernel), by decide +kernel, writes_of (by decide +kernel), writes_of (by decide +kernel), by decide +kernel, rfl, rfl, rfl,
    fun x h => by cases List.mem_singleton.mp h; exact ⟨_, _, .inl rfl⟩⟩

/-- A MAC node of the owner that authenticates reports. -/
def attesting : State := { unit with pers := { unit.pers with nodes := [(0x101, ⟨0x15, 3, 0x16, 0, 8, [65], 0⟩)] } }
def attestV (h : Nat) (signed : Bool) : Bytes := leBytes 4 h ++ [if signed then 1 else 0, 0, 0, 0] ++ zeros 16

theorem test_attest : Open attesting ∧ Writes attesting 0 0xCA10 1 (attestV 0x30101 false) .any ∧ Writes attesting 0 0xCA10 1 (attestV 0 true) .any ∧
    nodeByHandle attesting 0x30101 = some 0x101 ∧ live attesting 0x101 = true ∧
    (nodeOf attesting 0x101).all (fun x => decide (x.kind = 0x16) && bit x.attrs 3) = true ∧ num attesting 0xCF38 3 = 0 :=
  ⟨open_of (by decide +kernel), writes_of (by decide +kernel), writes_of (by decide +kernel), by decide +kernel⟩

/-! Counters, the journal and applets. -/

/-- Counter 2047 stands at v, and its credit was used up 30 ms ago where short. -/
def counting (v : Nat) (short : Bool) : State :=
  { provisioned unit with
    pers := { unit.pers with rings := [(2047, ⟨[(v % 128, v)], [], 0, none, none⟩)] }
    credit := if short then [(2047, (0, 1970000))] else [] }

theorem test_increment : ∀ k : Fin 2, let s := counting 0xFFFFFFFFFFFFFFFE (decide (k = 1))
    Open s ∧ Writes s 2 0xC7FF 2 (leBytes 8 0xFFFFFFFFFFFFFFFF) .operator ∧ Writes s 2 0xC7FF 2 (leBytes 8 0xFFFFFFFFFFFFFFFE) .operator ∧
      counterValue s 2047 = 0xFFFFFFFFFFFFFFFE ∧ num s 0xC7FF 4 = 0 ∧ SMap.wf (ringOf s 2047).words = true ∧ (ringOf s 2047).bad = [] ∧
      (if k = 1 then creditNow (number s) 2047 < 40000 else 40000 ≤ creditNow (number s) 2047) := by
  intro k
  refine ⟨open_of ?_, writes_of ?_, writes_of ?_, ?_⟩ <;> revert k <;> decide +kernel

theorem test_advance : ∀ k : Fin 2, let s := counting 5 (decide (k = 1))
    Open s ∧ Writes s 0 0xC7FF 3 (leBytes 8 0xFFFFFFFFFFFFFFFF) .owner ∧ num s 0x2000 7 ≠ 0 ∧ num s 0x2000 4 = 0 ∧ counterValue s 2047 = 5 ∧
      num s 0xC7FF 4 = 0 ∧ SMap.wf (ringOf s 2047).words = true ∧ (ringOf s 2047).bad = [] ∧
      (if k = 1 then creditNow (number s) 2047 < 40000 else 40000 ≤ creditNow (number s) 2047) := by
  intro k
  refine ⟨open_of ?_, writes_of ?_, ?_⟩ <;> revert k <;> decide +kernel

/-- A journal with one held record, of admission 7. -/
def recorded : State :=
  { unit with pers := { unit.pers with jour := ⟨[(0, ⟨zeros 8 ++ leBytes 8 7 ++ zeros 48, true, false, true⟩)], 1, genesis, [], [0], none⟩ } }
def accepted (x : Except Nat (List Nat)) : Bool := match x with | .ok _ => true | .error _ => false

theorem test_export_start : let v := leBytes 8 7 ++ zeros 8
    Open recorded ∧ Writes recorded 0 0xDC10 1 v .owner ∧ longRuns recorded = false ∧ num recorded 0xCF38 3 = 0 ∧ num recorded 0xCF20 3 = 0 ∧
      accepted (exportStartOp (admittedIn recorded (rqWrite (wh 0 0xDC10 1 v) 0xDC10 1 v) (trl (wh 0 0xDC10 1 v))) v) = true :=
  ⟨open_of (by decide +kernel), writes_of (by decide +kernel), by decide +kernel⟩

def run7 : ExportRun := ⟨[], [0], 7, 7⟩

theorem test_export_opens : (due recorded [.openExport run7]).slots.find? (fun y => decide (y.id = 0)) = some (owing [.openExport run7]) ∧
    (owing [.openExport run7]).due ≤ recorded.seq.time ∧ recorded.tem.resp = none := by decide +kernel

def exported : State := { setOct (setNum recorded 0xDC10 3 1) 0xDC10 4 (leBytes 8 7 ++ leBytes 8 7) with exportRun := some run7 }

theorem test_journal_release : Open exported ∧ Writes exported 0 0xDC10 5 (leBytes 8 7) .owner ∧ num exported 0xDC00 7 ≤ 7 ∧
    7 ≤ leNat ((oct exported 0xDC10 4).drop 8) ∧ 7 ≤ exported.seq.adm ∧ exported.seq.adm < 2 ^ 63 ∧ Writes exported 0 0xDC10 6 [1] .owner :=
  ⟨open_of (by decide +kernel), writes_of (by decide +kernel), by decide +kernel, by decide +kernel, by decide +kernel, by decide +kernel, writes_of (by decide +kernel)⟩

def audited : State := { setNum unit 0x2000 6 1 with audit := ⟨[⟨98, zeros 40, false⟩, ⟨99, zeros 40, true⟩], false, 0⟩ }

theorem test_log_release : Open audited ∧ Writes audited 0 0xDC80 2 (leBytes 8 99) .owner ∧ num audited 0x2000 6 ≠ 0 ∧ num audited 0xDC80 2 ≤ 99 ∧
    99 ≤ (audited.audit.recs.getLast?.map fun p => p.adm).getD 0 ∧ 99 ≤ audited.seq.adm :=
  ⟨open_of (by decide +kernel), writes_of (by decide +kernel), by decide +kernel⟩

def staging : State := withTr unit (wtr 0 0xD100 1 6753 (zeros 32 ++ [1] ++ zeros 6716) 7)

theorem test_load_manifest : let x := wtr 0 0xD100 1 6753 (zeros 32 ++ [1] ++ zeros 6716) 7
    Open staging ∧ Sends staging 0 0xD100 1 (seg 7 0 (zeros 3)) x .owner ∧ Sends staging 0 0xD100 1 (seg 7 1 (zeros 4)) x .owner ∧
      (x.buf ++ zeros 4).length = 6752 + mf (x.buf ++ zeros 4) 0x20 4 + mf (x.buf ++ zeros 4) 0x24 4 :=
  ⟨open_of (by decide +kernel), sends_of (by decide +kernel), sends_of (by decide +kernel), by decide +kernel⟩

def loaded : State := setOct (setNum unit 0xD100 2 2) 0xD100 6 [1]

theorem test_install : Open loaded ∧ Writes loaded 0 0xD100 3 [31] .owner ∧ num loaded 0xD100 2 = 2 ∧ oct loaded 0xD100 6 ≠ [] ∧ longRuns loaded = false ∧ num loaded 0xCF20 3 = 0 ∧ num loaded 0xCF38 3 = 0 :=
  ⟨open_of (by decide +kernel), writes_of (by decide +kernel), by decide +kernel⟩

/-- Cell 31 in state st, with its root node. -/
def celled (st : Nat) : State :=
  { setNum unit 0xD01F 1 st with pers := { unit.pers with nodes := [(0x3F, ⟨1, 2, 3, 0, 0, [65], 0⟩), (0x101, ⟨0x3F, 3, 0x12, 0, 0, [65], 0⟩)] } }

theorem test_remove : Writes (celled 1) 0 0xD100 4 [31] .owner ∧ num (celled 1) 0xD01F 1 ≠ 0 ∧ installRuns (celled 1) = false ∧
    (SMap.look (celled 1).pers.nodes 0x3F).isSome = true ∧ epochOf (celled 1) 0x3F < 0xFFFFFF ∧ Writes (celled 0) 0 0xD100 4 [31] .owner ∧
    num (celled 0) 0xD01F 1 = 0 ∧ Open (celled 1) := ⟨writes_of (by decide +kernel), by decide +kernel, by decide +kernel, by decide +kernel, by decide +kernel,
      writes_of (by decide +kernel), by decide +kernel, open_of (by decide +kernel)⟩

/-- Cell 31 STOPPED, its root at the last epoch. -/
def spentCell : State := { celled 1 with pers := { (celled 1).pers with epochs := [(0x3F, 0xFFFFFF)] } }

theorem test_remove_spent : Open spentCell ∧ Writes spentCell 0 0xD100 4 [31] .owner ∧ num spentCell 0xD01F 1 ≠ 0 ∧ installRuns spentCell = false ∧
    rootSpent spentCell 31 = true ∧ rootSpent (celled 1) 31 = false :=
  ⟨open_of (by decide +kernel), writes_of (by decide +kernel), by decide +kernel, by decide +kernel, by decide +kernel, by decide +kernel⟩

theorem test_control : Writes (celled 1) 0 0xD01F 9 [1] .owner ∧ Writes (celled 2) 0 0xD01F 9 [2] .owner ∧ Writes (celled 3) 0 0xD01F 9 [3] .owner ∧
    Writes (celled 3) 2 0xD01F 0x0B (zeros 24) .operator ∧ num (celled 3) 0xD01F 1 = 3 :=
  ⟨writes_of (by decide +kernel), writes_of (by decide +kernel), writes_of (by decide +kernel), writes_of (by decide +kernel), by decide +kernel⟩

/-! The guard, tamper, Sheaf and performance objects. -/

/-- The permit toggle is recorded as driven. -/
def toggling : State := setNum unit 0xDB30 6 1

theorem test_guard_output (n : Fin 8) : Writes toggling 2 (0xDB00 + n.val) 1 [1] .operator ∧ Writes toggling 2 (0xDB00 + n.val) 1 [0] .operator ∧
    num toggling 0xDB30 6 ≠ 0 := by
  refine ⟨writes_of ?_, writes_of ?_, ?_⟩ <;> revert n <;> decide +kernel

theorem test_guard_set : Open toggling ∧ Writes toggling 2 0xDB30 1 [1] .operator ∧ Writes toggling 2 0xDB30 1 [0] .operator ∧
    Writes toggling 2 0xDB30 3 [0x81, 0x81] .operator ∧ Writes unit 2 0xDB30 3 [0x0F, 0xF0] .operator ∧ (0xF0 : Byte) &&& 0x0F = 0 :=
  ⟨open_of (by decide +kernel), writes_of (by decide +kernel), writes_of (by decide +kernel), writes_of (by decide +kernel), writes_of (by decide +kernel),
    by decide +kernel⟩

/-- Tamper status waits: the newest pinned record is that of admission 7. -/
def alarmed : State :=
  { setNum (setNum unit 0xD800 1 1) 0xD800 5 7 with
    pers := { unit.pers with jour := ⟨[(0, ⟨zeros 8 ++ leBytes 8 7 ++ zeros 48, true, true, true⟩)], 1, genesis, [], [0], none⟩ } }

theorem test_acknowledge : Room alarmed ∧ Writes alarmed 0 0xD801 1 (leBytes 8 7) .owner ∧ Writes alarmed 1 0xD801 2 (leBytes 8 7) .service ∧
    num alarmed 0xD802 1 = 0 ∧ num alarmed 0x2000 2 = 0 ∧ num alarmed 0xD800 5 = 7 :=
  ⟨room_of (by decide +kernel), writes_of (by decide +kernel), writes_of (by decide +kernel), by decide +kernel⟩

theorem test_caldera_leave : Writes (caldera unit) 1 0xD802 4 [1] .service ∧ num (caldera unit) 0xD802 1 = 2 ∧ bit (num (caldera unit) 0xD800 1) 0 = false :=
  ⟨writes_of (by decide +kernel), by decide +kernel⟩

/-- The filter count of the light sensor at its lower bound. -/
theorem test_sensor_config : let v := fitBytes (descOf 0xDA20 2).size [1]
    Writes unit 0 0xDA20 2 v .owner ∧ Dict.find 0xDA20 2 = (true, some (descOf 0xDA20 2)) ∧ (descOf 0xDA20 2).acc = .rw ∧ v.length = (descOf 0xDA20 2).size ∧
      encodingCheck (descOf 0xDA20 2) v = 0 ∧
      sensorWriteCheck unit 0x20 2 (leNat v) (provisionFor unit (callerOf (rqWrite (wh 0 0xDA20 2 v) 0xDA20 2 v) (trl (wh 0 0xDA20 2 v)) (sess 1 2))) = 0 :=
  ⟨writes_of (by decide +kernel), by decide +kernel⟩

/-- A unit with a pair secret and a partner of serial 1. -/
def paired : State := setOct (setNum unit 0xCA20 6 1) 0xF000 3 (zeros 15 ++ [1])

theorem test_join (full : Bool) : Writes paired 0 0xF000 4 [if full then 2 else 1] .owner ∧ Room paired ∧ num paired 0x2000 2 = 0 ∧ num paired 0xF000 1 ≠ 2 ∧
    num paired 0xCA20 6 ≠ 0 ∧ oct paired 0xF000 3 ≠ zeros 16 ∧ paired.sheaf.join = none ∧ longRuns paired = false := by
  refine ⟨writes_of ?_, room_of ?_, ?_⟩ <;> revert full <;> decide +kernel

/-- Under SHEAF, in Sheaf state st. -/
def sheafed (st : Nat) : State := setNum (setNum paired 0x2000 2 1) 0xF000 1 st
def followed : State := { sheafed 2 with sessions := [(0, sess 0x4001 2)] }
def followerHdr (i k : Nat) (v : Bytes) : Hdr :=
  let h : Hdr := ⟨0x4001, 0, 7, 0, none, .ok⟩
  let t : Trailer := ⟨0, 0, 6, zeros 8⟩
  { h with trailer := some { t with tag := (cmac (keyOf 0 (sess 0x4001 2)) (0 :: (rqWrite { h with trailer := some t } i k v).signed)).take 8 } }
/-- A concurrence for a write of the OWNER's Bump. -/
def concurV : Bytes := leBytes 2 0xCA00 ++ [4, 0] ++ zeros 16 ++ zeros 4

theorem test_sheaf_objects : Writes (sheafed 3) 0 0xF000 5 [1] .owner ∧ num (sheafed 3) 0x2000 2 = 1 ∧ num (sheafed 3) 0xF000 1 ≠ 2 ∧
    Client followed (rqWrite (followerHdr 0xF000 6 [1]) 0xF000 6 [1]) (trl (followerHdr 0xF000 6 [1])) (sess 0x4001 2) .owner ∧
    num followed 0xF000 1 = 2 ∧ bit 0x4001 14 = true ∧ Writes (sheafed 3) 0 0xF000 0x0E concurV .owner ∧ num (sheafed 3) 0xF000 1 ≠ 4 ∧
    Dict.find 0xCA00 4 = (true, some (descOf 0xCA00 4)) ∧ roleInForce (sheafed 3) true 0xCA00 4 (descOf 0xCA00 4) = .pair ∧
    (pendingConcur (number (sheafed 3))).length < 4 :=
  ⟨writes_of (by decide +kernel), by decide +kernel, by decide +kernel, client_of (by decide +kernel) rfl (by unfold wholeKeys KeyFits; decide +kernel) rfl, by decide +kernel, by decide +kernel,
    writes_of (by decide +kernel), by decide +kernel⟩

theorem test_performance (b : Fin 14) : let m := leBytes 4 (Prf.controlMask b.val)
    let k := leBytes 4 (Prf.clearMask b.val)
    Writes unit 0 (0xE000 + b.val) 13 m .owner ∧ Writes unit 0 (0xE000 + b.val) 15 k .owner ∧ Prf.controlMask b.val < 2 ^ 32 ∧ Prf.clearMask b.val < 2 ^ 32 ∧
      clearBits (Prf.controlMask b.val) (Prf.controlMask b.val) = 0 ∧ clearBits (Prf.clearMask b.val) (Prf.clearMask b.val) = 0 := by
  refine ⟨writes_of ?_, writes_of ?_, ?_⟩ <;> revert b <;> decide +kernel

theorem test_tagging : Writes served 1 0xE200 1 [0] .service ∧ Writes served 1 0xE200 1 [1] .service ∧ num served 0x2000 3 ≠ 0 :=
  ⟨writes_of (by decide +kernel), writes_of (by decide +kernel), by decide +kernel⟩

/-! System calls. -/

theorem test_cell_calls : Makes unit 3 [0x2FFF0] [] ∧ Makes unit 4 [0x2FFE8] [] ∧ Makes unit 5 [] [] ∧
    Makes unit 6 [16, 0, 0] [] := ⟨makes_of (by decide +kernel), makes_of (by decide +kernel), makes_of (by decide +kernel), makes_of (by decide +kernel)⟩

/-- The last counter, assigned to the cell, at 5. -/
def cellCounter : State := setNum (counting 5 false) 0xC7FF 4 0x11F

theorem test_counter_calls : Makes cellCounter 0x10 [2047, 5, 0] [] ∧ Makes cellCounter 0x10 [2047, 0xFFFFFFFF, 0xFFFFFFFF] [] ∧
    Makes cellCounter 0x11 [2047, 0xFFFFFFFF, 0xFFFFFFFF] [] ∧ num cellCounter 0xD802 1 = 0 ∧ num cellCounter 0xC7FF 4 = 0x100 + 31 ∧
    counterValue cellCounter 2047 = 5 ∧ SMap.wf (ringOf cellCounter 2047).words = true ∧ (ringOf cellCounter 2047).bad = [] ∧
    40000 ≤ creditNow (number (calls31 cellCounter 0x11 [2047, 6, 0] [])) 2047 :=
  ⟨makes_of (by decide +kernel), makes_of (by decide +kernel), makes_of (by decide +kernel), by decide +kernel⟩

/-- A cell that waits for bit 0 until 2 s, and a call that nobody knows. -/
def waiter : Cell := { atEcall 6 [1, 0, 0] [] with pc := 256, waiting := some (1, 2000000) }

theorem test_waits : Makes unit 6 [0x1F, 0, 0] [] ∧ SMap.wf (calls31 unit 6 [0x1F, 0, 0] []).twc.cells = true ∧
    (let x := { atEcall 6 [0x1F, 0, 0] [] with events := 0x10 }
     Calls (running31 unit x) 31 x 6 (six [0x1F, 0, 0]) ∧ x.events &&& 0x1F ≠ 0) ∧
    SMap.look (running31 unit waiter).twc.cells 31 = some waiter ∧ num (running31 unit waiter) 0xD01F 1 = 3 ∧
    running (calls31 unit 7 [] []) 31 = some (atEcall 7 [] []) ∧ fetch (atEcall 7 [] []) = some 0x73 ∧ (reg (atEcall 7 [] []) 17).toNat ∉ Sys.known :=
  ⟨makes_of (by decide +kernel), by decide +kernel, ⟨calls_of (by decide +kernel), by decide +kernel⟩, by decide +kernel⟩

theorem test_read_call : let a := [0x1000, 1, 0x2FFE8, 24]
    let s := calls31 unit 1 a []
    let u := callState s 31 (atEcall 1 a [])
    Makes unit 1 a [] ∧ Dict.find 0x1000 1 = (true, some (descOf 0x1000 1)) ∧ (descOf 0x1000 1).ty ≠ .domain ∧
      Sys.checks u 31 false 0x1000 1 (descOf 0x1000 1) none = 0 ∧ (readBytes u (Sys.ctx u 31) 0x1000 1 (descOf 0x1000 1)).length ≤ 24 ∧
      readConflict u (Sys.ctx u 31) 0x1000 1 = 0 := ⟨makes_of (by decide +kernel), by decide +kernel⟩

/-- The cell may write objects 0x3000 to 0x3000. -/
def writing : State := setOct unit 0xD01F 15 ([0, 0x30, 0, 0x30] ++ zeros 28)

theorem test_write_call : let v : Bytes := fitBytes (descOf 0x3000 1).size [100]
    let a := [0x3000, 1, 0x100, v.length]
    let s := calls31 writing 2 a v
    Makes writing 2 a v ∧ Room s ∧ callBytes (atEcall 2 a v) 2 a = v ∧ (descOf 0x3000 1).ty ≠ .label ∧ v.length = (descOf 0x3000 1).size ∧
      Sys.checks s 31 true 0x3000 1 (descOf 0x3000 1) (some (some v)) = 0 ∧ encodingCheck (descOf 0x3000 1) v = 0 ∧ plainCheck s 0x3000 1 (leNat v) v = 0 :=
  ⟨makes_of (by decide +kernel), room_of (by decide +kernel), by decide +kernel⟩

/-- Channel 5 is open and the cell's; a frame of it has come. -/
def cellChan : State := setNum received 0x4005 5 0x11F

theorem test_channel_calls : let len := tmplAt cellChan 5 4 (num cellChan (0x3000 + num cellChan 0x4005 3) 5)
    num cellChan 0x2000 3 = 0 ∧ Makes cellChan 0x20 [5, 0x100, len] [1] ∧ num cellChan 0x4005 5 = 0x100 + 31 ∧ num cellChan 0x4005 1 = 3 ∧
      num cellChan 0x4005 9 < 0xFFFFFFFF ∧ Makes cellChan 0x21 [5, 0x2FF0C] [] ∧ (chanOf cellChan 5).queue = ⟨1, 77, 50, 1000000, [1, 2]⟩ :: [] :=
  ⟨by decide +kernel, makes_of (by decide +kernel), by decide +kernel, by decide +kernel, by decide +kernel, makes_of (by decide +kernel), by decide +kernel⟩

def keyV : Bytes := [0x12, 0, 2, 0, 32, 0, 0, 0] ++ List.replicate 32 66

theorem test_key_create : let s := calls31 unit 0x30 [0x100] keyV
    Makes unit 0x30 [0x100] keyV ∧ Unworn s ∧ callBytes (atEcall 0x30 [0x100] keyV) 0x30 [0x100] = keyV ∧ SMap.look s.pers.nodes 0x3F = some ⟨1, 2, 3, 0, 0, [65], 0⟩ ∧
      live s 0x3F = true ∧ attrsAllowed 0x12 0 2 = true ∧ bit 2 5 = false ∧
      (s.pers.nodes.filter fun q => decide (q.2.parent = 0x3F)).length < 64 ∧ (freeNode s).isSome = true ∧
      ∀ q ∈ s.pers.nodes, q.2.parent = 0x3F → q.2.kind = 0x12 → q.2.label = List.replicate 32 66 → live s q.1 = false :=
  ⟨makes_of (by decide +kernel), unworn_of (by decide +kernel), by decide +kernel⟩

/-- An orphaned node under the cell's root. -/
def cellNode : State := { unit with pers := { unit.pers with nodes := [(0x101, ⟨0x3F, 3, 0x12, 0, 0, [65], 0⟩)], epochs := [(0x3F, 1)] } }

theorem test_key_calls : let s := calls31 cellNode 0x31 [0x30101] []
    Makes cellNode 0x31 [0x30101] [] ∧ nodeByHandle s 0x30101 = some 0x101 ∧ below s 0x3F 0x101 = true ∧ live s 0x101 = false ∧ childCount s 0x101 = 0 ∧
      keySet s (fun k => decide (k % 0x10000 = 0x101)) = false ∧ Unworn s ∧ Makes cellNode 0x32 [] [] ∧ epochOf cellNode 0x3F < 0xFFFFFF :=
  ⟨makes_of (by decide +kernel), by decide +kernel, by decide +kernel, by decide +kernel, by decide +kernel, by decide +kernel, unworn_of (by decide +kernel), makes_of (by decide +kernel), by decide +kernel⟩

/-- The cell's second stream computes a digest, and its PLE input is a verification. -/
def cellEngines : State :=
  { unit with streams := [(0x13F, { stream0 with state := 1, ctx := some { sha5 with owner := 0x11F, sess := 0xFF }, ownOrigin := 0x11F, ownSess := 0xFF, remain := 5 })]
              ples := [(0x11F, { ple0 with input := plInput })] }

theorem test_stream_calls : let v := begun 0x10 0 false 0 0 5
    Makes unit 0x40 [1, 0x100] v ∧ callBytes (atEcall 0x40 [1, 0x100] v) 0x40 [1, 0x100] = v ∧ (streamOf unit 0x13F).state ≠ 1 ∧
      Makes cellEngines 0x41 [1, 0x100, 4, 0x200, 68] [1, 2, 3, 4] ∧ Makes cellEngines 0x42 [1] [] ∧ (streamOf cellEngines 0x13F).state = 1 ∧
      num cellEngines 0xCF20 3 = 0 :=
  ⟨makes_of (by decide +kernel), by decide +kernel, by decide +kernel, makes_of (by decide +kernel), makes_of (by decide +kernel), by decide +kernel⟩

theorem test_ple_calls : let s := calls31 cellEngines 0x49 [0x100, 8192] []
    Makes cellEngines 0x48 [0x100, 1, 1] [8] ∧ Makes cellEngines 0x48 [0x100, 1024, 0] (zeros 1024) ∧ Makes cellEngines 0x49 [0x100, 8192] [] ∧
      (pleOf s 0x11F).input = plInput ∧ Sys.outLen (PleReq.parse plInput) ≤ 8192 ∧
      runs (pleRunOp (calledState s 31 (atEcall 0x49 [0x100, 8192] [])) plInput (Sys.ctx s 31).caller .ok) = true :=
  ⟨makes_of (by decide +kernel), makes_of (by decide +kernel), makes_of (by decide +kernel), by decide +kernel⟩

/-! The instructions of the cells: words put together from the fields of the RISC-V encodings, with rd = x8, rs1 = x9 and rs2 = x10, decode to the
instruction that they stand for. -/

def decodes (l : List (Nat × Instr)) : Bool := l.all fun p => decide (Rv.decode 31 p.1 = .insn p.2)

theorem test_decode_immediates : decodes [
  (0xABCDE437, .lui 31 8 0xABCDE), (0xABCDE417, .auipc 31 8 0xABCDE), (0xFFB48413, .addi 31 8 9 0xFFB), (0xFFB4A413, .slti 31 8 9 0xFFB),
  (0xFFB4B413, .sltiu 31 8 9 0xFFB), (0xFFB4C413, .xori 31 8 9 0xFFB), (0xFFB4E413, .ori 31 8 9 0xFFB), (0xFFB4F413, .andi 31 8 9 0xFFB),
  (0x349413, .slli 31 8 9 3), (0x34D413, .srli 31 8 9 3), (0x4034D413, .srai 31 8 9 3), (0xFF0000F, .fence 31)] = true := by decide +kernel

theorem test_decode_registers : decodes [
  (0xA48433, .add 31 8 9 10), (0x40A48433, .sub 31 8 9 10), (0xA49433, .sll 31 8 9 10), (0xA4A433, .slt 31 8 9 10),
  (0xA4B433, .sltu 31 8 9 10), (0xA4C433, .xor 31 8 9 10), (0xA4D433, .srl 31 8 9 10), (0x40A4D433, .sra 31 8 9 10),
  (0xA4E433, .or 31 8 9 10), (0xA4F433, .and 31 8 9 10), (0x2A48433, .mul 31 8 9 10), (0x2A49433, .mulh 31 8 9 10),
  (0x2A4A433, .mulhsu 31 8 9 10), (0x2A4B433, .mulhu 31 8 9 10), (0x2A4C433, .div 31 8 9 10), (0x2A4D433, .divu 31 8 9 10),
  (0x2A4E433, .rem 31 8 9 10), (0x2A4F433, .remu 31 8 9 10)] = true := by decide +kernel

theorem test_decode_jumps : decodes [
  (0xFF9FF46F, .jal 31 8 0x1FFFF8), (0xFFB48467, .jalr 31 8 9 0xFFB), (0xFEA488E3, .beq 31 9 10 0x1FF0), (0xFEA498E3, .bne 31 9 10 0x1FF0),
  (0xFEA4C8E3, .blt 31 9 10 0x1FF0), (0xFEA4D8E3, .bge 31 9 10 0x1FF0), (0xFEA4E8E3, .bltu 31 9 10 0x1FF0),
  (0xFEA4F8E3, .bgeu 31 9 10 0x1FF0), (0x3FE5, .cJal 31 0xFF8), (0xBFE5, .cJ 31 0xFF8), (0xDCE5, .cBeqz 31 9 0x1F8),
  (0xFCE5, .cBnez 31 9 0x1F8), (0x8482, .cJr 31 9), (0x9482, .cJalr 31 9)] = true := by decide +kernel

theorem test_decode_compressed : decodes [
  (0x1, .cNop 31), (0x146D, .cAddi 31 8 0x3B), (0x546D, .cLi 31 8 0x3B), (0x746D, .cLui 31 8 0x3B), (0x40E, .cSlli 31 8 3),
  (0x1FE0, .cAddi4spn 31 8 0x3FC), (0x713D, .cAddi16sp 31 0x3E0), (0x800D, .cSrli 31 8 3), (0x840D, .cSrai 31 8 3),
  (0x986D, .cAndi 31 8 0x3B), (0x8C09, .cSub 31 8 10), (0x8C29, .cXor 31 8 10), (0x8C49, .cOr 31 8 10), (0x8C69, .cAnd 31 8 10),
  (0x842A, .cMv 31 8 10), (0x942A, .cAdd 31 8 10)] = true := by decide +kernel

theorem test_decode_memory : decodes [
  (0x448403, .lb 31 8 9 4), (0x449403, .lh 31 8 9 4), (0x44A403, .lw 31 8 9 4), (0x44C403, .lbu 31 8 9 4), (0x44D403, .lhu 31 8 9 4),
  (0xA48223, .sb 31 9 10 4), (0xA49223, .sh 31 9 10 4), (0xA4A223, .sw 31 9 10 4), (0x40C0, .cLw 31 8 9 4), (0xC0C8, .cSw 31 9 10 4),
  (0x4412, .cLwsp 31 8 4), (0xC22A, .cSwsp 31 10 4)] = true := by decide +kernel

/-- Cell 31 at the last word w of its code, with these values of x2, x9 and x10. -/
def atWord (w sp a b : Nat) : Cell :=
  let x := [(2, sp), (9, a), (10, b)].foldl (fun x p => setReg x (Fin.ofNat 32 p.1) (BitVec.ofNat 32 p.2)) { cell0 with code := 256, pc := 252 }
  storeBytes x 252 (leBytes (if w % 4 = 3 then 4 else 2) w)

theorem test_fetched : ∀ w ∈ [0xFFB48413, 0x9, 0xFFFFFFFF, 0], let x := atWord w 0 0 0
    running (running31 unit x) 31 = some x ∧ fetch x = some w := by decide +kernel

/-- Loads and stores at both ends of the data region, and just past them. -/
theorem test_access_bounds : ∀ k ∈ [1, 2, 4], let first := reg (atWord 0 0 0xFC 0) 9 + 4
    let last := reg (atWord 0 0 (0x30000 - k - 4) 0) 9 + 4
    first.toNat % k = 0 ∧ 256 ≤ first.toNat ∧ last.toNat % k = 0 ∧ last.toNat + k = 0x30000 := by decide +kernel

theorem test_window_bounds : ∀ w : Fin 4, reg (atWord 0 0 (0x40000 + 4 * w.val) 0) 9 + (4 : BitVec 12).signExtend 32 = BitVec.ofNat 32 (0x40004 + 4 * w.val) := by decide +kernel

theorem test_fault_bounds : let at' := fun a : Nat => (reg (atWord 0 0 a 0) 9 + (4 : BitVec 12).signExtend 32).toNat
    at' 1 % 2 ≠ 0 ∧ at' 2 % 4 ≠ 0 ∧ 0x30000 ≤ at' 0x2FFFC ∧ at' 0x40010 % 4 = 0 ∧ ¬(0x40000 ≤ at' 0x40010 ∧ at' 0x40010 < 0x40014) ∧ at' 0xF8 < 256 ∧
      (reg (atWord 0 1 0 0) 2 + (4 : BitVec 8).setWidth 32).toNat % 4 ≠ 0 ∧ Rv.decode 31 0xFFFFFFFF = .illegal ∧ Rv.decode 31 0 = .illegal ∧
      fetch { atWord 9 0 0 0 with pc := 256 } = none ∧ running (running31 unit { atWord 9 0 0 0 with pc := 256 }) 31 = some { atWord 9 0 0 0 with pc := 256 } := by
  decide +kernel

/-! The events of the cells. -/

/-- Cell 31, of RANDOM kind where so, at a read of RNG_DATA; its tiller has n bytes at hand. -/
def drawing (random : Bool) (n : Nat) : State :=
  let s := running31 unit (atWord 0x4A403 0 0x40000 0)
  { setNum s 0xD01F 6 (if random then 1 else 0) with rng := { unit.rng with tillers := [(47, ⟨some ⟨zeros 32, zeros 16, 1⟩, zeros n⟩)] } }

theorem test_rng_read : let x := atWord 0x4A403 0 0x40000 0
    running (drawing true 4) 31 = some x ∧ fetch x = some 0x4A403 ∧ rngLoad 31 x 0x4A403 = some (.lw 31 8 9 0, 4, 8) ∧ isRandom (drawing true 4) 31 = true ∧
      isRandom (drawing false 4) 31 = false ∧ (drawing true 4).entropyDown = false ∧ 4 ≤ (tillerOf (drawing true 4) 47).buf.length ∧
      (tillerOf (drawing true 3) 47).buf.length < 4 ∧ ({ drawing true 3 with entropyDown := true } : State).entropyDown = true := by decide +kernel

/-- A stall that has just reached its bound. -/
theorem test_stall : SMap.look (running31 unit { cell0 with stalled := some 1999995 }).twc.cells 31 = some { cell0 with stalled := some 1999995 } ∧
    1999995 + 5 ≤ (running31 unit cell0).seq.time := by decide +kernel

def manifest : Bytes := zeros 32 ++ [4, 0, 0, 0, 2] ++ zeros 91 ++ [1, 2, 3, 4, 5, 6]
/-- Cell 31 starts with a stored applet. -/
def starting : State :=
  let s := setNum (drawing false 4) 0xD01F 1 2
  { s with pers := { s.pers with applets := [(31, ⟨manifest, true⟩)] } }

theorem test_load_complete : mayLoad starting 31 = true ∧ (SMap.look starting.twc.cells 31).isSome = true ∧ storedManifest starting 31 = some manifest ∧
    Inward starting (internalIn 24 [31] false) ∧ internalTurn starting = false :=
  ⟨by decide +kernel, by decide +kernel, by decide +kernel, inward_of (by decide +kernel), by decide +kernel⟩

/-- The cell's quantum is over, and so is its budget. -/
def spent : State :=
  let s := running31 unit { cell0 with retired := 2 ^ 28 }
  { s with twc := { s.twc with cycles := 8000 } }

theorem test_quantum : spent.twc.current = some 31 ∧ SMap.look spent.twc.cells 31 = some { cell0 with retired := 2 ^ 28 } ∧ 8000 ≤ spent.twc.cycles ∧
    runnable spent 31 = true ∧ spent.power = 0 ∧ spent.stage ≠ 0 ∧ 2 ^ 28 ≤ (2 ^ 28 : Nat) := by decide +kernel

def faulted (st : Nat) : State := { setNum (running31 unit { cell0 with dead := true }) 0xD01F 1 st with internal := [.cellFault 31 5 252] }

theorem test_fault_admission : Inward (faulted 3) (internalIn 18 [31, 5, 252] false) ∧ Inward (faulted 1) (internalIn 18 [31, 5, 252] false) ∧
    num (faulted 3) 0xD01F 1 = 3 ∧ num (faulted 1) 0xD01F 1 ≠ 3 ∧ Unworn (faulted 3) ∧ Unworn (faulted 1) :=
  ⟨inward_of (by decide +kernel), inward_of (by decide +kernel), by decide +kernel, by decide +kernel, unworn_of (by decide +kernel), unworn_of (by decide +kernel)⟩

/-! The field die. -/

/-- The field die is on line, at 1 s. -/
def fielded : State := { unit with field := { unit.field with link := 2, time := 1000000, toggle := true, key := some [] } }
def withField (f : Field → Field) : State := { fielded with field := f fielded.field }

theorem test_reports : OnLine fielded.field ∧ (List.replicate 8 (0 : BitVec 20)).length = 8 ∧
    (let f := fielded.field
     f.due.report + 1000 ≤ f.time ∧ f.due.net + 100000 ≤ f.time ∧ f.due.sense + 10000 ≤ f.time ∧ f.time % 50 = 0 ∧ f.due.tick ≤ f.time / 50) ∧
    (let f := (withField fun f => { f with due := ⟨0, 999001, 990001, 0, 900001⟩ }).field
     f.time < f.due.report + 1000 ∧ f.time < f.due.net + 100000 ∧ f.time < f.due.sense + 10000) ∧
    (let f := (withField fun f => { f with notice := 1 }).field
     f.run = true ∧ f.link = 2 ∧ f.notice = 1) := ⟨online_of (by decide +kernel), by decide +kernel⟩

/-- An analog interval, and one in which the calibration takes its last sample. -/
theorem test_analog : ∀ k : Fin 2, let f := (withField fun f => { f with time := if k = 1 then 10000000 else 1000000, due := { f.due with analog := if k = 1 then 9900000 else 0 } }).field
    let ms := fset f 0xDB30 4
    f.due.analog + ms * 1000 ≤ f.time ∧ 0 < 4 * ms ∧ decide (f.time / 10000000 ≠ f.due.analog / 10000000) = decide (k = 1) := by decide +kernel

/-- Input 15 is up since tick 0 with its window open; input 0 is on its way up. -/
def inputs : State := withField fun f => { f with ins := [(0, ⟨false, false, 4, none, false, none, false⟩), (15, ⟨true, true, 0, some 0, true, some 0, false⟩)]
                                                  nv := [(objKey 0xDB1F 5, [1, 0])] }

theorem test_guard_inputs : OnLine inputs.field ∧ SMap.look inputs.field.ins 15 = some ⟨true, true, 0, some 0, true, some 0, false⟩ ∧
    fset inputs.field 0xDB1F 4 * 20 ≤ ticksSince inputs.field 0 ∧ fset inputs.field 0xDB1F 5 ≠ 0 ∧ fset inputs.field 0xDB1F 5 * 20000 ≤ ticksSince inputs.field 0 ∧
    fset inputs.field 0xDB10 3 ≤ 4 + 1 := ⟨online_of (by decide +kernel), by decide +kernel⟩

/-- Output 7 is on with a pulse of 1 ms; it tripped, or conducts, since 0.5 s. -/
def outputs (o : FOut) : State := withField fun f => { f with outs := [(7, o)], nv := [(objKey 0xDB07 2, [1, 0, 0, 0])], permitCmd := true }

theorem test_guard_outputs :
    (let f := (outputs ⟨true, true, true, 0, some 0, some 500000, none⟩).field
     f.run = true ∧ (Fld.outOf f 7).first = some 0 ∧ fset f 0xDB07 2 ≠ 0 ∧ 0 + fset f 0xDB07 2 * 1000 ≤ f.time ∧ (Fld.outOf f 7).conducting = true ∧
       (Fld.outOf f 7).since = some 500000 ∧ (Fld.outOf f 7).fault = true ∧ 500000 + 100000 ≤ f.time) ∧
    (let f := (outputs ⟨true, false, true, 0, some 0, none, some 0⟩).field
     (Fld.outOf f 7).tripped = some 0 ∧ (Fld.outOf f 7).on = true ∧ 0 + fset f 0xDB07 4 * 1000 ≤ f.time) ∧
    (let f := (outputs ⟨false, false, false, 0, none, none, none⟩).field
     f.permitCmd = true ∧ f.toggle = true ∧ f.link = 2 ∧ f.vguardOk = true ∧ f.wave = false ∧ f.time % 1000 = 0 ∧ f.time % 500 = 0 ∧
       ({ f with wave := true } : Field).wave = true) ∧
    ({ unit with boot := { unit.boot with toggle := true } } : State).boot.toggle = true := by decide +kernel

/-! Networks. -/

def on : List (Nat × Bytes) := [(objKey 0x1200 1, [1]), (objKey 0x1203 1, [1]), (objKey 0x1220 1, [1]), (objKey 0x1220 2, [2, 0, 0, 0, 0, 1]), (objKey 0x1232 127, [2, 0, 0, 0, 0, 2])]
/-- Controllers 0 and 3 and the Ethernet port are on; node 0x7F of controller 3 sends a message. -/
def netted (x : Reasm) : State := withField fun f => { f with nv := on, reasm := [(3 * 256 + 0x7F, x)], routes := [(5, 3 * 256 + 0x7F), (6, 6 * 256 + 0x7F)],
                                                                ports := [(0, { Fld.port0 0 with state := 0 }), (3, { Fld.port0 3 with state := 0 })] }
def frame28 (n : Nat) : Bytes := [0x41, 28] ++ leBytes 2 n ++ zeros 24

theorem test_can_frames : let f := (netted ⟨70, zeros 61, 1, 980000⟩).field
    takesFrames f 0 ∧ takesFrames f 3 ∧ SMap.look f.reasm (3 * 256 + 0x7F) = some ⟨70, zeros 61, 1, 980000⟩ ∧ f.time ≤ 980000 + 20000 ∧ f.reasm.length < 32 ∧
      70 = (zeros 61).length + (zeros 9).length ∧
      (let g := (netted ⟨1054, zeros 61, 15, 979999⟩).field
       takesFrames g 3 ∧ 979999 + 20000 < g.time) ∧
      (let g := (netted ⟨1054, zeros 61, 15, 980000⟩).field
       takesFrames g 3 ∧ g.time ≤ 980000 + 20000 ∧ (zeros 61).length + 63 < 1054) ∧ (frame28 5).length = 28 ∧ ((frame28 5).getD 1 0).toNat = 28 :=
  ⟨⟨online_of (by decide +kernel), by decide +kernel⟩, ⟨online_of (by decide +kernel), by decide +kernel⟩, by decide +kernel, by decide +kernel, by decide +kernel, by decide +kernel,
    ⟨⟨online_of (by decide +kernel), by decide +kernel⟩, by decide +kernel⟩, ⟨⟨online_of (by decide +kernel), by decide +kernel⟩, by decide +kernel⟩, by decide +kernel⟩

theorem test_ethernet : let f := (netted ⟨70, zeros 61, 1, 980000⟩).field
    takesFrames f 6 ∧ fsetBytes f (Fld.portIdx 6) 2 = [2, 0, 0, 0, 0, 1] ∧ Fld.nodeOfMac f 6 [2, 0, 0, 0, 0, 2] = some 127 :=
  ⟨⟨online_of (by decide +kernel), by decide +kernel⟩, by decide +kernel⟩

theorem test_port_change : let f := (withField fun f => { f with nv := on, ports := [(3, { Fld.port0 3 with state := 2 })] }).field
    OnLine f ∧ Fld.portOn f 3 = true ∧ (Fld.portOf f 3).state = 2 ∧ fset f 0x1203 7 = 0 := ⟨online_of (by decide +kernel), by decide +kernel⟩

/-- Message m waits on lane 1 behind an older one of a later rank. -/
def laned (m : Lane1) : State := { fielded with bar := { fielded.bar with lane1 := [.recover 0, m] } }

/-- One message of each kind, at the head of what the field die has assembled or the next that the core die sends (R169). -/
theorem test_lane_1 : fielded.field.run = true ∧ fielded.field.link = 2 ∧ isCarried 0x1200 1 = true ∧ (2 : Byte).toNat ≤ 2 ∧
    (0x077F : BitVec 16) &&& 0xF880 = 0 ∧
    (∀ m ∈ [Lane1.chfDown (zeros 28), .guardSet 255 255 0xFF, .guardSet 0 0 0, .route [(0x8005, 0x077F)], .power 0], crosses1 (laned m) m = true) ∧
    ∀ m ∈ [Lane1.bdpResp 0x8005 (zeros 8), .netConfig 0x1200 1 [1], .netCommit 3, .power 2, .recover 3],
      crosses1 (laned m) m = false ∧ crosses1 (withField fun f => { f with ready := [m, .recover 0] }) m = true := by decide +kernel

/-! What the core die makes of the barrier. -/

/-- The link is up at the core die, and a fault of output 0 is recorded. -/
def linked : State := { setNum (setNum unit 0xDB00 2 1) 0xDB00 1 1 with bar := { unit.bar with up := true, faults := 1, key := some [], rx := ⟨1, 3, [(0x11, [9])]⟩ } }
def faultReport : FieldReport := ⟨0, 3, 0, 5, 6, 4, 7, 8, 9⟩
def someEntries : List InputEntry := [⟨0, 1, 3⟩, ⟨1, 2, 3⟩, ⟨2, 3, 3⟩, ⟨15, 4, 3⟩]

/-- Message m is the next that the field die sends, or waits at the head of the barrier input already. -/
def reporting (m : Lane0) : State := { linked with field := { linked.field with link := 2, lane0 := [m] } }
def reported (m : Lane0) : State := { linked with bar := { linked.bar with input := [m] } }

theorem reports_of {s : State} {m : Lane0} (h : decide ((sequencerUp s = true ∧ num s 0x2000 2 = 0 ∧ keepsLog s = false) ∧ (atInput s m).bar.input.head? = some m ∧
    turn s 2 = true) = true) : Reports s m := by
  obtain ⟨⟨a, b, c⟩, d, e⟩ := of_decide_eq_true h
  exact ⟨⟨a, b, by simp [auditHolds, c]⟩, d, e⟩

theorem test_reports_in : (∀ m ∈ [Lane0.fieldReport faultReport, .inputEvent someEntries,
      .outputSense (([1, 2, 3, 4, 5, 6, 7, 0xFFFFF] : List (BitVec 20)).map BitVec.toNat),
      .analogSense (([1, 2, 3, 0x80000] : List (BitVec 20)).map BitVec.toNat) (8 : Byte).toNat, .netStatus ⟨3, 1, 2, 3, 4, 5, 6⟩, .netStatus ⟨6, 1, 0, 0, 4, 5, 6⟩],
      Reports (reporting m) m ∧ Reports (reported m) m) ∧
    (someEntries.map fun e => e.input).Nodup ∧ ([1, 2, 3, 4, 5, 6, 7, 0xFFFFF] : List (BitVec 20)).length = 8 ∧ ([1, 2, 3, 0x80000] : List (BitVec 20)).length = 4 := by
  refine ⟨fun m h => ⟨reports_of ?_, reports_of ?_⟩, by decide +kernel, rfl, rfl⟩ <;> revert m <;> decide +kernel

/-- A message that crosses, where the input has room and where it is full. -/
theorem test_requests_in : let m := Lane0.bdpReq 0x8005 (zeros 8)
    let full : State := { reporting m with bar := { linked.bar with input := List.replicate 1024 (.chfUp []) } }
    crosses0 (reporting m) m = true ∧ (reporting m).bar.input.length < 1024 ∧ crosses0 (reporting (.chfUp [1])) (.chfUp [1]) = true ∧ crosses0 full m = true ∧
      ¬ full.bar.input.length < 1024 := by decide +kernel

/-- Channel 5 is open on a route to node 5 of controller 4, and a frame of it without payload waits at the head of the barrier input. -/
def upHead : Bytes := [0x41, 28] ++ leBytes 2 5 ++ zeros 4 ++ leBytes 4 77
def upSeal (s : State) : Bytes := let k := gcmSeal (msgKey (nodeKey s (keyNodeOf s 5)) 0 77 2) (frameNonce s 5 0 77 2) upHead []
  upHead ++ k.1 ++ k.2
def upChan : State := setNum (chan 3) 0x4005 2 0
def upFrame : Bytes := upSeal upChan
def uplink : State := { upChan with bar := { upChan.bar with up := true, input := [.chfUp upFrame] } }

theorem test_channel_receive : let s := uplink
    let f := upFrame
    s.bar.input.head? = some (.chfUp f) ∧ turn s 2 = true ∧ masksReady s = true ∧ Inward s ⟨2, 0x8000 + (4 : Fin 7).val * 256 + 5, 5, f, false, false, 1⟩ ∧ (parseHdr f).field = 5 ∧ (parseHdr f).ctl = 0x41 ∧
      upFormOk s 5 f = true ∧ num s 0x4005 4 = (4 : Fin 7).val * 256 + 5 ∧ num s 0x4005 1 = 3 ∧ (parseHdr f).epoch = num s 0x4005 8 ∧
      bit (num s 0x4005 0x0B) 0 = false ∧ entropyOk s = true ∧ cipherUp s = true ∧
      gcmOpen (msgKey (nodeKey s (keyNodeOf s 5)) (parseHdr f).epoch (parseHdr f).seq 2) (frameNonce s 5 (parseHdr f).epoch (parseHdr f).seq 2)
         (f.take 12) ((f.drop 12).take (f.length - 28)) (f.drop (f.length - 16)) = some [] ∧ num s 0x4005 0x11 < tmplAt s 5 3 4 ∧ num s 0x3100 2 ≠ 0 :=
  ⟨by decide +kernel, by decide +kernel, by decide +kernel, inward_of (by decide +kernel), by decide +kernel⟩

def told (e : IntReq) : State := { linked with internal := [e] }

theorem test_link_records : (∀ st : Fin 4, let s := told (.fieldState st.val (some (3, 2, 1, 4)))
      Inward s { internalIn 14 [] false with payload := Config.internalPayload 14 [st.val] ++ helloBytes (some (3, 2, 1, 4)) }) ∧
    ∀ on : Bool, Inward (told (.toggle on)) (internalIn 15 [if on then 1 else 0] false) := by
  refine ⟨fun st => ?_, fun on => inward_of ?_⟩
  · have h : ∀ st : Fin 4, sequencerUp (told (.fieldState st.val (some (3, 2, 1, 4)))) = true ∧ num (told (.fieldState st.val (some (3, 2, 1, 4)))) 0x2000 2 = 0 ∧
      keepsLog (told (.fieldState st.val (some (3, 2, 1, 4)))) = false := by decide +kernel
    exact ⟨(h st).1, (h st).2.1, by simp [auditHolds, (h st).2.2]⟩
  · revert on; decide +kernel

/-- A whole cell of lane l under the empty key. -/
def cellOf (l type pos x : Nat) (p : Bytes) : Bytes :=
  let b := [BitVec.ofNat 8 type, BitVec.ofNat 8 (pos * 64 + p.length)] ++ leBytes 2 x ++ fitBytes 24 p
  b ++ Bar.tag [] x l b

theorem good_of {c key : Bytes} {lane : Nat} {l : Lane} {d : Nat} (h : decide (c.length = 32 ∧ d < 1024 ∧ (Bar.parse c).seq = (l.exp + d) % 65536 ∧
    (Bar.parse c).tag = Bar.tag key (l.exp + d) lane (c.take 28) ∧ 1 ≤ (Bar.parse c).len ∧ (Bar.parse c).len ≤ 24 ∧ (Bar.parse c).rsv = 0 ∧
    (Bar.parse c).pad.all (· = 0) = true) = true) : GoodCell c key lane l d := by
  obtain ⟨a, b, e, f, g, i, j, k⟩ := of_decide_eq_true h
  exact ⟨a, b, e, f, g, i, j, k⟩

/-- A report cell at both ends of the window, the parts of a message, and a cell under another tag. -/
theorem test_core_cells : (∀ d : Fin 2, let c := cellOf 0 0x33 0 (1 + 1023 * d.val) (zeros 24)
      GoodCell c [] 0 linked.bar.rx (1023 * d.val) ∧ (Bar.parse c).type ∈ [0x31, 0x32, 0x33, 0x34, 0x35] ∧ (Bar.parse c).pos = 0 ∧
        (Bar.msg0 (Bar.parse c)).isSome = true) ∧
    (let c := cellOf 0 0x11 1 1 (zeros 24)
     GoodCell c [] 0 linked.bar.rx 0 ∧ (Bar.parse c).type ∈ [0x11, 0x21] ∧ (Bar.parse c).pos = 1 ∧ 2 ≤ (Bar.parse c).len) ∧
    (let c := cellOf 0 0x11 3 1 [1, 2]
     let s := { linked with bar := { linked.bar with rx := ⟨1, 0, [(0x11, leBytes 2 9 ++ [0x41, 6] ++ zeros 20)]⟩ } }
     GoodCell c [] 0 s.bar.rx 0 ∧ (Bar.parse c).pos = 3 ∧ (SMap.look s.bar.rx.parts (Bar.parse c).type).isSome = true ∧
       (Bar.asLane0 (Bar.parse c) (leBytes 2 9 ++ [0x41, 6] ++ zeros 20 ++ (Bar.parse c).payload)).isSome = true) ∧
    (let c := (cellOf 0 0x11 3 1023 []).take 28 ++ [1, 2, 3, 4]
     c.length = 32 ∧ (Bar.parse c).seq = (linked.bar.rx.exp + 1022) % 65536 ∧ (Bar.parse c).tag ≠ Bar.tag [] (linked.bar.rx.exp + 1022) 0 (c.take 28)) := by
  refine ⟨fun d => ⟨good_of ?_, ?_⟩, ⟨good_of (by decide +kernel), by decide +kernel⟩, ⟨good_of (by decide +kernel), by decide +kernel⟩, by decide +kernel⟩ <;> revert d <;> decide +kernel

theorem test_field_cells : fielded.field.run = true ∧ fielded.field.key = some [] ∧
    (∀ d : Fin 2, let c := cellOf 1 0xB1 0 (1 + 1023 * d.val) [1, 0, 1]
      GoodCell c [] 1 fielded.field.rx (1023 * d.val) ∧ (Bar.parse c).type ∈ [0xA2, 0xB1, 0xC1] ∧ (Bar.parse c).pos = 0 ∧
        (Bar.msg1 (Bar.parse c)).isSome = true) ∧
    (let c := (cellOf 1 0xB1 0 1023 [1, 0, 1]).take 28 ++ [1, 2, 3, 4]
     c.length = 32 ∧ (Bar.parse c).seq = (fielded.field.rx.exp + 1022) % 65536 ∧ (Bar.parse c).tag ≠ Bar.tag [] (fielded.field.rx.exp + 1022) 1 (c.take 28)) := by
  refine ⟨rfl, rfl, fun d => ⟨good_of ?_, ?_⟩, by decide +kernel⟩ <;> revert d <;> decide +kernel

/-- IDLE cells on their way, and 10 us of silence on either lane. -/
theorem test_idle : linked.bar.ready = [] ∧ linked.bar.up = true ∧ crosses0 (reporting .idle) .idle = true ∧ fielded.field.ready = [] ∧
    crosses1 { fielded with bar := { fielded.bar with lane1 := [.idle] } } .idle = true ∧ fielded.field.link = 2 ∧
    (let f := (withField fun f => { f with spoke := 999990 }).field
     f.run = true ∧ f.link = 2 ∧ f.lane0 = [] ∧ f.spoke + 10 ≤ f.time) ∧
    (let s : State := { linked with bar := { linked.bar with spoke := 1999990 } }
     s.bar.up = true ∧ s.bar.lane1 = [] ∧ s.bar.spoke + 10 ≤ s.boot.since) := by
  decide +kernel

/-- A bring-up with number 3 after the field die's HELLO. -/
def bringing : State := { fielded with bar := { fielded.bar with b := 3, trying := true, key := some [], hello := some (1, 2, 3) }
                                       field := { fielded.field with link := 1, b := 3 } }

/-- The bring-up with message m on its lane. -/
def bringing1 (m : Lane1) : State := { bringing with bar := { bringing.bar with lane1 := [m] } }
def bringing0 (m : Lane0) : State := { bringing with field := { bringing.field with lane0 := [m] } }
def keyTag (k : Bytes) : Bytes := Bar.tag k 1 1 (Bar.cell28 0x82 1 (k ++ leBytes 4 3))
def ackTag (k : Bytes) : Bytes := Bar.tag k 1 0 (Bar.cell28 0x03 1 (leBytes 4 3))

/-- A first attempt and one after 10 ms; its four messages; an attempt without answer, and both ends of a lost link. -/
theorem test_bringup : (unit.bar.up = false ∧ unit.bar.trying = false ∧ unit.power < 3 ∧ unit.boot.waking = false ∧ unit.bar.tryAt = none ∧
      unit.stage ∈ [7, 8, 0x10, 0x11]) ∧
    (∀ t0 ∈ (some 1990000 : Option Nat), t0 + 10000 ≤ unit.boot.since) ∧ crosses1 (bringing1 (.hello 3 2)) (.hello 3 2) = true ∧
    (let m := Lane0.hello 3 2 1 4
     let s := { bringing0 m with bar := { bringing.bar with hello := none } }
     crosses0 s m = true ∧ s.bar.up = false ∧ s.bar.trying = true ∧ (3 : Word).toNat = s.bar.b ∧ s.bar.hello = none ∧ s.entropyDown = false ∧
       s.tem.resp = none ∧ s.power ≠ 4) ∧
    (let m := Lane1.key (zeros 16) 3 (keyTag (zeros 16))
     crosses1 (bringing1 m) m = true ∧ bringing.field.run = true ∧ bringing.field.link = 1 ∧ (3 : Word).toNat = bringing.field.b ∧ (zeros 16).length = 16) ∧
    (let m := Lane0.keyAck 3 (ackTag [])
     crosses0 (bringing0 m) m = true ∧ bringing.bar.key = some [] ∧ bringing.bar.hello = some (1, 2, 3) ∧ bringing.bar.up = false ∧ bringing.bar.trying = true ∧
       bringing.stage = 0x11 ∧ bringing.tem.resp = none ∧ num bringing 0xD802 1 = 0 ∧ bringing.seq.retiring = false ∧ bringing.seq.failing = false) ∧
    (let s : State := { bringing with bar := { bringing.bar with tryAt := some 1999000 } }
     s.bar.trying = true ∧ s.bar.tryAt.getD 0 + 1000 ≤ s.boot.since) ∧
    (let f := (withField fun f => { f with heard := 999900 }).field
     f.run = true ∧ f.link ≠ 0 ∧ f.heard + 100 ≤ f.time) ∧
    (let s : State := { linked with bar := { linked.bar with heard := 1999900 } }
     s.bar.up = true ∧ s.bar.heard + 100 ≤ s.boot.since) ∧
    (16 ≤ ({ linked with bar := { linked.bar with rx := ⟨1, 16, []⟩ } } : State).bar.rx.drops) ∧
    16 ≤ (withField fun f => { f with rx := ⟨1, 16, []⟩ }).field.rx.drops := by decide +kernel

/-! Supplies, resets and start-up. -/

theorem test_supplies : ({ State.reset with stage := 0 } : State).stage = 0 ∧ Rail.vddah ∈ [Rail.vcore, .vddah, .vddps, .vddioh] ∧
    ({ unit with seq := { unit.seq with failing := true } } : State).seq.failing = true ∧
    (let s := { State.reset with boot := { State.reset.boot with pinLow := true, deferred := some (0, 6), deferredField := some 0 } }
     s.boot.pinLow = true ∧ s.stage ≠ 0 ∧ s.stage ≤ 8 ∧ s.seq.failing = false ∧ s.boot.deferred = some (0, 6) ∧ s.boot.deferredField = some 0 ∧ 0 ≤ s.seq.time ∧ s.field.run = true) ∧
    Rail.vfio ∈ [Rail.vfcore, .vfio, .vddaf] ∧ fielded.field.run = true ∧
    (let f := (withField fun f => { f with run := false }).field
     f.run = false ∧ f.pinLow = false) ∧
    (let f := (withField fun f => { f with run := false, pinLow := true }).field
     f.pinLow = true ∧ f.rails = true) ∧
    (let f := (withField fun f => { f with run := false, pinLow := true, rails := false }).field
     f.pinLow = true ∧ f.rails = false) := by decide +kernel

/-- The unit in start-up stage n, from its shipped image; a, b: which image scrub has found bad. -/
def booting (n : Nat) (a b : Bool) : State :=
  { State.reset with
    stage := n
    pers := { State.reset.pers with imageA := ⟨zeros 12, true, true, a⟩, imageB := ⟨zeros 12, true, true, b⟩ }
    rng := { State.reset.rng with on := true, tillers := (List.range 16).map fun k => (k, ⟨some ⟨zeros 32, zeros 16, 1⟩, []⟩) } }

/-- Both images valid, where the free alarms decide which runs, and whether one does; only the other one; and none. -/
theorem test_firmware_images : (booting 3 false false).seq.failing = false ∧ (booting 3 false false).boot.verified = false ∧ seeded (booting 3 false false) = true ∧
    (∃ x back, let s := booting 3 false false
      let alarm := (draw s 1).1 = 1
      let again := (draw (draw s 1).2 1).1 = 1
      (x = s.pers.preferred ∧ back = 0 ∧ imageCode s (imageOf s x) = 0 ∧ ¬alarm) ∨
        ((imageCode s (imageOf s s.pers.preferred) ≠ 0 ∨ alarm) ∧ x = 1 - s.pers.preferred ∧ back = 1 ∧ imageCode s (imageOf s x) = 0 ∧ ¬again) ∨
        (alarm ∧ again)) ∧
    (let s := booting 3 true false
     imageCode s (imageOf s s.pers.preferred) ≠ 0 ∧ imageCode s (imageOf s (1 - s.pers.preferred)) = 0) ∧
    (let s := booting 3 true true
     imageCode s (imageOf s s.pers.preferred) ≠ 0 ∧ imageCode s (imageOf s (1 - s.pers.preferred)) ≠ 0) := by
  refine ⟨by decide +kernel, by decide +kernel, by decide +kernel, ?_, by decide +kernel, by decide +kernel⟩
  have h : ∀ x ∈ [0, 1], imageCode (booting 3 false false) (imageOf (booting 3 false false) x) = 0 := by decide +kernel
  by_cases a : (draw (booting 3 false false) 1).1 = 1
  · by_cases b : (draw (draw (booting 3 false false) 1).2 1).1 = 1
    · exact ⟨1, 1, .inr (.inr ⟨a, b⟩)⟩
    · exact ⟨1, 1, .inr (.inl ⟨.inr a, rfl, rfl, h 1 (by simp), b⟩)⟩
  · exact ⟨0, 0, .inl ⟨rfl, rfl, h 0 (by simp), a⟩⟩

theorem test_stages : (booting 4 false false).stage = 4 ∧ (booting 4 false false).seq.failing = false ∧ (booting 4 false false).tem.resp = none ∧ State.reset.tem.resp = none ∧
    (let s := booting 5 false false
     s.stage = 5 ∧ s.boot.cause = 1 ∧ s.sinter.osc = true ∧ (s.pers.dict.map Prod.fst).Nodup ∧ s.otp.retired = false ∧ s.sinter.lost = false ∧ s.sinter.log = [] ∧ s.sinter.pend = none ∧ s.sinter.sealLatch = false ∧
       s.pers.latch = none ∧ s.pers.jour.broken = none ∧ num s 0x2000 2 = 0) ∧
    (let s := booting 7 false false
     s.bar.up = false ∧ s.bar.trying = false ∧ s.power < 3 ∧ s.boot.waking = false ∧ s.bar.tryAt = none) ∧
    ({ booting 7 false false with bar := { State.reset.bar with trying := true } } : State).bar.trying = true ∧
    num (booting 8 false false) 0x2000 2 = 0 := by decide +kernel

/-! Entropy. -/

/-- The source runs: four blocks in the pool, tillers 0 to 15 and 16 instantiated, tiller 16 due to reseed. -/
def noisy : State :=
  { unit with
    cache := [⟨0x9000, 3, [], []⟩]
    pers := keyed.pers
    rng := { unit.rng with on := true, pool := List.replicate 4 (zeros 16), masks := [0, 4000], trims := [(32, 0), (63, 3), (0, 2), (1, 3)], stale := [0], health := List.replicate 4 Health.start
                           tillers := (List.range 17).map fun k => (k, ⟨some ⟨zeros 32, zeros 16, if k = 1 then 2 ^ 20 + 1 else 1⟩, []⟩) } }
def fresh0 : Drbg := ⟨zeros 32, zeros 16, 1⟩

theorem test_entropy : (noisy.rng.on = true ∧ noisy.entropyDown = false ∧ noisy.rng.pool.length < 16 ∧ 4 ≤ noisy.rng.pool.length ∧
    instantiated noisy 17 = false ∧ (∀ j, j < 17 → instantiated noisy j = true) ∧
    (tillerOf noisy 0).drbg = some fresh0 ∧ (0 : Fin 64).val ∈ noisy.rng.stale ∧
    (tillerOf noisy 1).drbg = some { fresh0 with count := 2 ^ 20 + 1 } ∧ (tillerOf noisy 16).drbg = some fresh0 ∧ (tillerOf noisy 16).buf.length ≤ 512 ∧
    noisy.rng.trims.length = 4 ∧ noisy.rng.trims.getD 0 (0, 0) = (32, 0) ∧ noisy.rng.trims.getD 1 (0, 0) = (63, 3) ∧ noisy.rng.masks.length = 2 ∧
    noisy.rng.masks.getD 0 0 < 4096 ∧ (tillerOf noisy 2).drbg = some fresh0 ∧ 2 ∉ noisy.rng.stale ∧ noisy.stage ≠ 0 ∧
    cacheable noisy 0x100 = true ∧ (noisy.cache.filter fun e => !isRoot e.node).length ≤ 251) ∧ Inward { noisy with internal := [.entropy 0x100] } (internalIn 16 [0x100] true) :=
  ⟨by decide +kernel, inward_of (by decide +kernel)⟩

/-- Raw bits in which Fumarole 0 repeats one bit 128 times and the others change with every sample, and some without a run. -/
def sameBits : BitVec 512 := BitVec.ofNat 512 (leNat (List.replicate 64 0x07))
def changing : BitVec 512 := BitVec.ofNat 512 (leNat (List.replicate 64 0x0F))

/-- The tests of Fumarole 0 in a run of one bit, and in the last block of a window. -/
def tested : List Health := [⟨some false, 1, false, 698, 896⟩, Health.start, Health.start, Health.start]

/-- A wake from HIBERNATE waits for its last tiller. -/
def seeding : State :=
  { unit with boot := { unit.boot with waking := true }
              rng := { unit.rng with on := true, pool := List.replicate 4 (zeros 16), tillers := (List.range 63).map fun k => (k, ⟨some fresh0, []⟩) } }

theorem test_entropy_ends : noisy.boot.waking = false ∧ (judged noisy.rng.health changing).2 = 0 ∧ (judged noisy.rng.health sameBits).2 ≠ 0 ∧
    noisy.rng.health.length = 4 ∧ (∀ i : Fin 81, sameBits.getMsbD (4 * (47 + i.val) + 0) = false) ∧ tested[0]? = some (⟨some false, 1, false, 698, 896⟩ : Health) ∧
    81 ≤ 1 + 80 ∧ (∀ i : Fin 80, sameBits.getMsbD (4 * i.val + 0) = false) ∧ 0 < 896 ∧ 896 + 128 ≤ 1024 ∧
    826 ≤ 698 + ((List.range 128).filter fun i => sameBits.getMsbD (4 * i + 0) = false).length ∧
    (seeding.rng.on = true ∧ seeding.entropyDown = false ∧ 4 ≤ seeding.rng.pool.length ∧ instantiated seeding 63 = false ∧
      (∀ j, j < 63 → instantiated seeding j = true) ∧ seeding.boot.waking = true ∧ seeding.stage = 0x11 ∧ seeding.power = 0 ∧ seeding.seq.failing = false ∧
      seeding.seq.retiring = false ∧ seeding.tem.resp = none ∧ seeding.otp.retired = false ∧ seeding.bar.up = false ∧ seeding.bar.trying = false ∧ seeding.bar.tryAt = none) ∧
    (let s : State := { booting 3 false false with
                          boot := { State.reset.boot with verified := true }
                          rng := { noisy.rng with tillers := (List.range 15).map fun k => (k, ⟨some fresh0, []⟩) } }
     s.rng.on = true ∧ s.entropyDown = false ∧ 4 ≤ s.rng.pool.length ∧ instantiated s 15 = false ∧ (∀ j, j < 15 → instantiated s j = true) ∧ s.stage = 3 ∧
       s.boot.verified = true ∧ s.boot.waking = false) := by decide +kernel

/-! Internal admissions and background work. -/

/-- Channel 5 in state st with this at the head of the internal queue; its switch was due at 1.5 s. -/
def chanWith (st : Nat) (q : List IntReq) : State :=
  { chan st with internal := q, chans := [(5, { chanOf (chan st) 5 with switchAt := [1500000, 3000000], beating := true })] }

theorem test_can_send (st : Fin 4) : CanSend (chanWith (st.val + 1) [.heartbeat 5]) 5 := by
  refine ⟨?_, ?_, ?_⟩ <;> revert st <;> decide +kernel

theorem test_switch (k : Fin 2) : let s := chanWith (2 + 2 * k.val) []
    Inward s (Intern.chan s 6 5) ∧ (chanOf s 5).switchAt = 1500000 :: [3000000] ∧ 1500000 ≤ s.seq.time ∧ num s 0x4005 1 = 2 + 2 * k.val := by
  refine ⟨inward_of ?_, ?_⟩ <;> revert k <;> decide +kernel

theorem test_rekeys : (let s := chanWith 3 [.forced 5]
     Inward s (Intern.chan s 1 5) ∧ num s 0x4005 1 = 3 ∧ epochOf s (num s 0x4005 2 % 0x10000) < 0xFFFFFF ∧ Unworn s) ∧
    (let s := chanWith 3 [.hello 5]
     Inward s (Intern.chan s 2 5) ∧ num s 0x4005 1 = 3 ∧ Unworn s) ∧
    (let s := chanWith 1 [.openUp 5]
     Inward s (Intern.chan s 7 5) ∧ Room s ∧ num s 0xDC00 1 ≤ 1 ∧ num s 0x4005 1 = 1 ∧ num s 0x4005 4 ≠ 0 ∧
       heartbeatLoad s + ceilRate (if num s 0x4005 13 ≠ 0 then num s 0x4005 13 else num s (0x3000 + num s 0x4005 3) 1) ≤ 300000) :=
  ⟨⟨inward_of (by decide +kernel), by decide +kernel, by decide +kernel, unworn_of (by decide +kernel)⟩,
    ⟨inward_of (by decide +kernel), by decide +kernel, unworn_of (by decide +kernel)⟩, inward_of (by decide +kernel), room_of (by decide +kernel), by decide +kernel⟩

theorem test_sends : (let s := chanWith 3 [.heartbeat 5]
     Inward s (Intern.chan s 3 5) ∧ (chanOf s 5).beating = true) ∧
    (let s := chanWith 4 [.send 5 [1, 2]]
     Inward s (Intern.chan s 5 5) ∧ num s 0x4005 1 = 4 ∧ [1, 2].length ≤ tmplAt s 5 4 (num s (0x3000 + num s 0x4005 3) 5)) :=
  ⟨⟨inward_of (by decide +kernel), by decide +kernel⟩, inward_of (by decide +kernel), by decide +kernel⟩

/-- A frame of admission 100 has not left when its epoch ends. -/
def cutting : State :=
  let s := { chanWith 3 [.cut [(5, 1, 100)]] with slots := [{ owing [.lane1 (.chfDown [])] with due := 2000001, work := .frameDown 5 }] }
  { s with seq := { s.seq with nextId := 1 } }

theorem test_cut : Inward cutting { internalIn 4 [] true with payload := Intern.cutPayload [(5, 1, 100)] } ∧
    (∃ x ∈ cutting.slots, cutting.slots.find? (cuts cutting (5, 1, 100)) = some x ∧ x.id < cutting.seq.nextId) := ⟨inward_of (by decide +kernel), by decide +kernel⟩

/-- Counter 2047's ring has an unreadable word. -/
def damaged : State := { unit with pers := { unit.pers with rings := [(2047, ⟨[(5, 5)], [6], 0, none, none⟩)] } }

theorem test_background_work : ((ringOf damaged 2047).bad ≠ [] ∧ 0 ∉ damaged.pers.spares) ∧ ¬(4 ≤ (ringOf unit 2047).corrected ∨ (ringOf unit 2047).bad ≠ []) ∧
    (let s := { unit with forced := [0, 2] }
     (0 : Fin 2).val ∈ s.forced ∧ num s 0xCF20 (1 + 0) ≠ 1) ∧ unit.stage ≠ 0 ∧ unit.power = 0 ∧ unit.seq.failing = false ∧ unit.tem.resp = none ∧
    (let s := { unit with host := { unit.host with closing := some 3000000 } }
     s.host.closing = some 3000000 ∧ s.host.replies = []) := by decide +kernel

theorem test_lapse : ∀ q ∈ [[IntReq.lapse], []], Unworn unit ∧ (q = [IntReq.lapse] ∨ (q = [] ∧ IntReq.lapse ∉ q ∧ unit.stage = 0x11 ∧ ∀ x ∈ unit.slots, Act.lapse ∉ x.acts)) :=
  fun q h => ⟨unworn_of (by decide +kernel), by revert q; decide +kernel⟩

/-- 1 ms of statistics wait, a report and a lost word, and PROVISION has lasted its time. -/
def lapsing (q : List IntReq) : State := { setNum unit 0x2000 7 1 with internal := q, hw := [(objKey 0x1020 2, 5)], seq := { unit.seq with time := 3600000000 } }

theorem test_background : (let s := lapsing []
     internalTurn s = false ∧ Inward s (internalIn 8 [s.sinter.rtc] false) ∧ s.pers.cpTime / 1000000 < s.seq.time / 1000000 ∧
       Inward s (internalIn 9 ((Intern.changedStats s).flatMap fun p => [p.1, p.2]) false) ∧ Intern.changedStats s ≠ [] ∧ s.seq.statAt / 1000 < s.seq.time / 1000 ∧
       SMap.wf s.hw = true ∧ Inward s (internalIn 10 [] false) ∧ num s 0x2000 7 = 1 ∧ num s 0x2000 10 + num s 0x2000 9 * 1000000 ≤ s.seq.time ∧
       Inward s (internalIn 13 (([1, 2, 3, 4, 5, 0xFFFFF] : List (BitVec 20)).map BitVec.toNat) false) ∧ Prf.due s = true ∧ s.stage ≠ 0 ∧ s.power = 0 ∧ s.seq.failing = false) ∧
    (let s := lapsing [.report [(objKey 0xDA01 0x0B, .num 0)] none]
     Inward s (internalIn 11 [objKey 0xDA01 0x0B, (Val.num 0).toNat] false) ∧ (Dict.find 0xDA01 0x0B).2.isSome = true ∧ bookkeeping 0xDA01 0x0B = false) ∧
    (let s := lapsing [.clocks 0x1FF]
     Inward s (internalIn 11 [objKey 0x2100 11, 0x1FF] false)) ∧ Inward (lapsing [.lapse]) (internalIn 10 [] false) ∧
    (let s := lapsing [.storeFault 6 1 2]
     Inward s (internalIn 12 [6, 1, 2] false) ∧ 6 ∉ [4, 5, 7, 0x0C]) ∧
    (let s := lapsing [.storeFault 4 0x4005 2]
     Inward s (internalIn 12 [4, 0x4005, 2] false) ∧ (Dict.find 0x4005 (2 % 256)).2 = some (descOf 0x4005 2) ∧ (descOf 0x4005 2).pers = true ∧
       bookkeeping 0x4005 (2 % 256) = false) :=
  ⟨⟨by decide +kernel, inward_of (by decide +kernel), by decide +kernel, inward_of (by decide +kernel), by decide +kernel, by decide +kernel, by decide +kernel, inward_of (by decide +kernel),
    by decide +kernel, by decide +kernel, inward_of (by decide +kernel), by decide +kernel⟩, ⟨inward_of (by decide +kernel), by decide +kernel⟩,
    inward_of (by decide +kernel), inward_of (by decide +kernel), ⟨inward_of (by decide +kernel), by decide +kernel⟩, inward_of (by decide +kernel), by decide +kernel⟩

/-! Monitors and the Sinter domain. -/

/-- Three events of the light sensor have come within its window, and seven of the VCORE sensor; sensor 0x38 fired long ago. -/
def primed : State :=
  { unit with
    boot := { unit.boot with toggle := true }
    tem := { unit.tem with sense := [(0, ⟨false, List.replicate 7 1999995, 1999995⟩), (0x20, ⟨false, List.replicate 3 1999999, 1999999⟩), (0x38, ⟨true, [1000000], 1000000⟩)]
                           mesh := [(0, 0xFFFF)], held := [(0, 7000, 7800, 1999500)] } }

theorem test_watching : Watching unit ∧ Watching primed := by constructor <;> constructor <;> decide +kernel

/-- Readings on both sides of a threshold, and what fires. -/
theorem test_crossings : Mon.byAdmission (0x20 : Byte).toNat = false ∧ crosses unit 0x20 (s20Ext 2000) = none ∧ crosses unit 0x20 (s20Ext 2001) = some 2000 ∧
    crosses unit 0 (s20Ext 7799) = some (threshold unit 0 4) ∧ firesNow unit 0x20 = false ∧ firesNow primed 0x20 = true ∧ firesNow primed 0 = true ∧
    firesNow unit 0x1C = true ∧ crosses unit 0x14 2048 = none ∧ crosses unit 0x14 2049 = some 2048 ∧ unit.field.run = true ∧
    mismatches unit.tem.lid 1 ≠ 0 ∧ mismatches unit.tem.lid 0 = 0 ∧ mismatches (SMap.at' primed.tem.mesh 0 0#16) 0xFFFF = 0 ∧
    mismatches (SMap.at' primed.tem.mesh 0 0#16) 0x7FFF ≠ 0 ∧ Mon.byAdmission 0x61 = true ∧ Mon.byAdmission 0x60 = false ∧ unit.boot.vddah = true ∧
    num unit 0xD810 4 ≠ s20Ext 3000 ∧ num unit 0xD810 4 = s20Ext (BitVec.ofNat 20 (num unit 0xD810 4)) := by decide +kernel

theorem test_holds : primed.seq.failing = false ∧
    primed.tem.held.find? (fun x => decide (x.1 = (0 : Byte).toNat ∧ x.2.2.2 + 500 ≤ primed.seq.time)) = some (0, 7000, 7800, 1999500) ∧ (sensorSet primed 0).1 ≠ 255 ∧
    (senseOf primed 0x38).fired = true ∧ (senseOf primed 0x38).last + (sensorSet primed 0x38).2.2 ≤ primed.seq.time := by decide +kernel

/-- A response of class PURGE, whose latch commit knows of one fire. -/
def resp0 : Resp := ⟨3, 1, 0x20, 1999990, 1999990, 0x20, (3, 1, 0x20)⟩

theorem test_latch : let s := { unit with tem := { unit.tem with resp := some resp0 } }
    s.tem.resp = some resp0 ∧ s.seq.failing = false := by decide +kernel

theorem test_tamper_admission (cls : Fin 2) : let s := { unit with internal := [.tamper 0x28 cls.val (zeros 24)] }
    Inward s { internalIn 17 [0x28, cls.val] true with payload := leBytes 2 0x28 ++ leBytes 1 cls.val ++ zeros 24 } ∧ (Dict.sensor 0x28).isSome = true ∧ cls.val ≤ 1 ∧ (zeros 24).length = 24 :=
  ⟨inward_of (by revert cls; decide +kernel), by revert cls; decide +kernel⟩

/-- The schedule of the Sinter domain runs while the core die is without VDDA_H; one cold sample has come. -/
def scheduled : State := { unit with stage := 0, boot := { unit.boot with vddah := false }, sinter := { unit.sinter with hits := [(0x28, 1)], key := some [1] } }

theorem test_schedule : scheduleOn scheduled = true ∧ decide (s20Int (num scheduled 0xDA20 5) < (2001 : BitVec 20).toInt) = true ∧
    SMap.at' scheduled.sinter.hits 0x20 0 = 0 ∧ scheduled.sinter.log.length < 64 ∧ num scheduled 0xDA20 (if scheduled.sinter.vigil then 6 else 1) ≠ 255 ∧
    decide ((-50001 : BitVec 20).toInt < s20Int (num scheduled 0xDA28 4)) = true ∧ decide (s20Int (num scheduled 0xDA29 5) < (-50001 : BitVec 20).toInt) = false ∧
    SMap.at' scheduled.sinter.hits 0x28 0 = 1 ∧ num scheduled 0xDA28 (if scheduled.sinter.vigil then 6 else 1) ≠ 255 ∧ scheduled.boot.vddah = false := by decide +kernel

/-! Time and power states. -/

theorem test_tick : unit.sheaf.join = none ∧ unit.stage ≠ 0 ∧ unit.sheaf.out = [] ∧ (∀ x ∈ unit.slots, unit.seq.time < x.due) ∧
    (∀ x ∈ [{ owing [] with due := 2000001 }], unit.seq.time < x.due) := by decide +kernel

/-- An image of a unit that holds nothing, sealed under a key of zeros. -/
def image0 : HibImage :=
  let x : HibImage := ⟨100, 2000000, [], [], 40000, 0, [], none, [], [], []⟩
  let c := gcmSeal (zeros 32) ((0x82 : Byte) :: zeros 11) [] (imageBytes x)
  { x with cipher := c.1, tag := c.2 }

/-- A unit without sessions in power state p, with its HIBERNATE image and key. -/
def sleeping (p : Nat) : State :=
  { unit with
    power := p
    sessions := []
    sinter := { unit.sinter with key := some (zeros 32) }
    cache := ⟨0x18, 1, [], []⟩ :: unit.cache
    modes := { unit.modes with wakeAt := some 3000000, image := some image0 } }

theorem test_power_states : staysInRun (sleeping 0) = false ∧ 1 ≤ (sleeping 1).power ∧ (sleeping 3).power ≤ 3 ∧ (sleeping 2).modes.wakeAt = some 3000000 ∧
    (let f := (withField fun f => { f with notice := 2, link := 0 }).field
     f.run = true ∧ f.notice = 2 ∧ f.link = 0) ∧
    (sleeping 4).seq.failing = false ∧ ({ sleeping 4 with seq := { unit.seq with failing := true } } : State).seq.failing = true := by
  decide +kernel

theorem test_hibernate_wake : (sleeping 4).sinter.key = some (zeros 32) ∧ (sleeping 4).modes.image = some image0 ∧
    gcmOpen (xorBytes (fitBytes 32 (nodeKey (sleeping 4) 0x18)) (zeros 32)) ((0x82 : Byte) :: zeros 11) [] image0.cipher image0.tag = some (imageBytes image0) ∧
    (let s := { sleeping 4 with sinter := { unit.sinter with key := some (List.replicate 32 1) } }
     imageOpens s image0 = false) := ⟨rfl, rfl, by decide +kernel, by decide +kernel⟩

/-! The Sheaf pair. -/

/-- A joined unit under an empty link key; n is its number in the pair. -/
def pairOf (n : Nat) : State :=
  let s := setNum (sheafed 2) 0xF000 2 n
  { s with sheaf := { s.sheaf with key := some [], heard := 1999990, spoke := 1999998, acked := 1999996, kept := [(1, [9])], sent := 1 } }
/-- A SEALED frame from its partner with this payload. -/
def partnerFrame (n ctr ack : Nat) (p : Bytes) : Bytes :=
  let h := [2, 0] ++ leBytes 2 p.length ++ leBytes 8 ctr ++ leBytes 8 ack
  let c := gcmSeal [] (Shf.nonce (1 - n) ctr) h p
  h ++ c.1 ++ c.2

/-- The next frame with a message and without, one out of order, and one under another key. -/
theorem test_sheaf_frames : Shf.awake (pairOf 0) = true ∧ (pairOf 0).sheaf.key = some [] ∧ (pairOf 0).sheaf.part = [] ∧
    (let f := partnerFrame 0 1 1 (pairMessage 0x21 (zeros 12))
     f.length = 36 + 16 ∧ f.getD 0 0 = 2 ∧ leNat ((f.drop 2).take 2) = 16 ∧ leNat ((f.drop 4).take 8) = (pairOf 0).sheaf.got + 1 ∧
       gcmOpen [] (Shf.nonce (1 - Shf.me (pairOf 0)) 1) (f.take 20) ((f.drop 20).take 16) (f.drop (20 + 16)) = some (pairMessage 0x21 (zeros 12))) ∧
    (let f := partnerFrame 0 2 1 []
     leNat ((f.drop 4).take 8) ≠ (pairOf 0).sheaf.got + 1) ∧
    (pairOf 0).sheaf.kept ≠ [] ∧ (pairOf 0).sheaf.acked + 4 ≤ (pairOf 0).seq.time ∧ (pairOf 0).sheaf.resends < 8 ∧
    (pairOf 0).sheaf.spoke + 2 ≤ (pairOf 0).seq.time ∧ (pairOf 0).sheaf.out = [] := by decide +kernel

/-- The four signs of a lost partner, and a deadline. -/
def losing : State :=
  { pairOf 0 with
    boot := { unit.boot with lvds := false }
    sheaf := { (pairOf 0).sheaf with heard := 1999980, resends := 8, awaits := [⟨100, 0x22, 2000000⟩, ⟨101, 0x20, 2000001⟩] } }

theorem test_partner_loss : losing.stage ≠ 0 ∧ losing.sheaf.key.isSome = true ∧ losing.sheaf.join = none ∧ joined losing = true ∧ IntReq.partition ∉ losing.internal ∧
    losing.sheaf.heard + 20 ≤ losing.seq.time ∧ (pairOf 0).seq.time < (pairOf 0).sheaf.heard + 20 ∧ 8 ≤ losing.sheaf.resends ∧ losing.boot.lvds = false ∧
    (∃ w ∈ losing.sheaf.awaits, w.adm = 100 ∧ w.due ≤ losing.seq.time) ∧ (∀ w ∈ losing.sheaf.awaits, w.adm = 101 → losing.seq.time < w.due) := by decide +kernel

/-! A join. -/

def run0 : JoinRun := ⟨0, 1999000, false, zeros 16, none, false, 0, 0, false, none, 0⟩
def partnerHello : JoinHello := ⟨1, zeros 15 ++ [1], 2, zeros 16, 0, zeros 32, false, 0x4201⟩
/-- A unit with a wrapped pair secret that runs firmware 2. -/
def ready2 : State := { paired with pers := { paired.pers with imageA := ⟨zeros 12 ++ [2, 0, 0, 0], true, true, false⟩, pair := some (zeros 48) } }
/-- A unit in a join: the partner's HELLO has come, its proof too where b. -/
def joining (b : Bool) : State :=
  let s := setNum ready2 0xF000 1 1
  { s with sheaf := { s.sheaf with key := if b then some [] else none, dirty := [(4294967296 + 0xD00001, 5), (4294967296 + 0x300001, 6)]
                                   join := some { run0 with hello := some (zeros 15 ++ [1], zeros 16, 0, zeros 32, false), proved := b, pass := if b then 1 else 0, theirs := b } } }

theorem test_join_hello : (let s := { joining false with sheaf := { unit.sheaf with join := some run0 } }
     s.sheaf.join = some run0 ∧ run0.hello = none ∧ partnerHello.partner.toNat = 1 - Shf.me s ∧ partnerHello.firmware.toNat = runningVersion s ∧
       { partnerHello with partner := 0 }.partner.toNat ≠ 1 - Shf.me s) ∧
    ready2.sheaf.join = none ∧ Shf.mayJoin ready2 = true ∧ oct ready2 0xF000 3 = fitBytes 16 partnerHello.serial ∧ ready2.pers.pair.isSome = true ∧
    ready2.entropyDown = false ∧ partnerHello.revision.toNat = num ready2 0x1000 5 := by decide +kernel

theorem test_join_proof : ∃ j, (joining false).sheaf.join = some j ∧ j.hello = some (zeros 15 ++ [1], zeros 16, 0, zeros 32, false) ∧ j.proved = false := ⟨_, rfl, rfl, rfl⟩

theorem test_join_items : ∃ j, (joining true).sheaf.join = some j ∧ j.proved = true ∧ (joining true).sheaf.key.isSome = true ∧ Shf.me (joining true) = 0 ∧
    j.pass ≠ 0 ∧ j.theirs = true ∧ sequencerUp (joining true) = true ∧ auditHolds (joining true) (Shf.cutOverIn (joining true)) = false ∧
    ((Shf.dirtyItems (joining true)).filter fun p => Shf.mirrored (joining true) p.1 p.2).length < 4096 ∧ Unworn (joining true) ∧
    num (joining true) 0xF000 10 < 4294967295 :=
  ⟨_, rfl, rfl, rfl, by decide +kernel, by decide +kernel, rfl, by decide +kernel, by decide +kernel, by decide +kernel, unworn_of (by decide +kernel), by decide +kernel⟩

/-- Lanes not trained, no HELLO, no end in time; and a join in time. -/
theorem test_join_late : bit (num paired 0x2100 11) 8 = false ∧ run0.t0 + 1000 ≤ paired.seq.time ∧ run0.hello = none ∧ 1900000 + 100000 ≤ paired.seq.time ∧
    50000 + 1950000 ≤ paired.seq.time ∧ ¬(1999001 + 1000 ≤ paired.seq.time) ∧ ¬(1999001 + 1950000 ≤ paired.seq.time) := by decide +kernel

theorem test_auto_join : let s := { paired with internal := [.autoJoin] }
    sequencerUp s = true ∧ joined s = false ∧ auditHolds s (internalIn 22 [] false) = false ∧ s.stage = 0x11 ∧ calderaOn s = false ∧ s.sheaf.join = none ∧
      s.entropyDown = false := by decide +kernel

/-! What the partners exchange. -/

def following : State := { pairOf 1 with sheaf := { (pairOf 1).sheaf with kept := [] } }

theorem test_follows : Follows following := by constructor <;> decide +kernel
theorem test_heads : Heads (pairOf 0) := by constructor <;> decide +kernel

/-- A request in its wire form, from the leader's host link. -/
def wire (svc i k : Nat) (b : Bytes) : Bytes := [BitVec.ofNat 8 svc, 0, 7, 0] ++ leBytes 2 i ++ [BitVec.ofNat 8 k, 0] ++ b
def admitted (kind : Byte) (origin : Nat) (p : Bytes) : AdmitMsg := ⟨kind, 0, origin, 0xFFFF, 101, 2000003, p⟩
/-- A write of the leader's channel object, and one that both units execute. -/
def theirWrite : Rq := parseRq 1 (wire 2 0x4005 7 (leBytes 2 1 ++ [1]))
def bothWrite : Rq := parseRq 1 (wire 2 0x3000 1 (leBytes 2 1 ++ [1]))
def bothState : State :=
  let m := admitted 1 1 (wire 2 0x3000 1 (leBytes 2 1 ++ [1]))
  { comeBack (Shf.take following 0x10 (Shf.admitBytes m)) m.origin m.payload with seq := { following.seq with time := 2000003 } }

theorem test_admits : (admitted 2 0x8005 []).adm = following.seq.adm + 1 ∧ onFollower 0x8005 = false ∧ onFollower 0x4001 = true ∧
    theirWrite.svc = 2 ∧ theirWrite.trailer = none ∧ partnerRuns following theirWrite = true ∧ bothWrite.svc ≠ 6 ∧ partnerRuns following bothWrite = false ∧
    ((performDone (number bothState) bothWrite).any fun d => decide (d.s.seq.adm = 101 ∧ d.s.seq.admTime = 2000003)) = true := by decide +kernel

theorem test_requests : turn (pairOf 0) 1 = true ∧ auditHolds (pairOf 0) ⟨2, 0x4005, (parseHdr upHead).field, upHead, false, false, 2⟩ = false ∧
    auditHolds (pairOf 0) ⟨4, 2, 0xFFFF, [1, 5, 0, 0], false, false, 2⟩ = false := by decide +kernel

/-- Own digests of admissions 90 and 91, and waits for the partner. -/
def comparing : State := { pairOf 0 with sheaf := { (pairOf 0).sheaf with digests := [(90, zeros 16, true, 0), (91, zeros 16, true, 0)], awaits := [⟨90, 0x20, 2000010⟩, ⟨90, 0x21, 2000010⟩, ⟨90, 0x22, 2000010⟩], owed := [(90, [[1]], [])] } }

theorem test_digests : comparing.sheaf.key.isSome = true ∧ joined comparing = true ∧ (zeros 16).length = 16 ∧
    SMap.look comparing.sheaf.digests 90 = some (zeros 16, true, 0) ∧ List.replicate 16 (1 : Byte) ≠ zeros 16 ∧ (List.replicate 16 (1 : Byte)).length = 16 ∧
    (∀ e ∈ comparing.internal, e ≠ .suspension 90) ∧ SMap.look comparing.sheaf.digests 92 = none ∧ num comparing 0xF000 7 < 92 ∧
    (∃ w ∈ comparing.sheaf.awaits, w.adm = 90 ∧ w.kind = 0x22) ∧ SMap.look comparing.sheaf.theirs 90 = none ∧
    SMap.look comparing.sheaf.owed 90 = some ([[1]], []) ∧ (∀ x ∈ comparing.slots, x.adm ≠ 90) ∧ comparing.seq.failing = false ∧
    (∀ x ∈ comparing.slots, x.adm = 90 → x.numbered = true → ∀ a ∈ x.acts, stagesEffect a = false) := by decide +kernel

/-- A receive record for channel 5, whose owner has its home here. -/
theorem test_verdict_record : let r : RxRec := ⟨1, 77, 90, 1000000, [1, 2]⟩
    homeHere comparing (num comparing (0x4000 + 5 % 0x8000) (5 + 0x40 * (5 / 0x8000))) = homeHere comparing 0 ∧
      (let s := setNum comparing 0x4005 5 1
       homeHere s (num s (0x4000 + 5 % 0x8000) (5 + 0x40 * (5 / 0x8000))) = true ∧ localOrigin (num s 0x4005 5) = 1) ∧
      r.payload.length < 65536 := by decide +kernel

/-- A read from the partner's host link. -/
theorem test_read_relay : let b := wire 1 0x1000 3 []
    let r := parseRq 0x4001 b
    let u := count (Shf.take comparing 0x30 (leBytes 2 0x4001 ++ b)) 0 2 1
    serving comparing = true ∧ homeHere comparing 0x4001 = false ∧ r.svc = 1 ∧ r.trailer = none ∧ r.body = [] ∧
      Dict.find r.idx r.sub = (true, some (descOf 0x1000 3)) ∧ r.idx ≠ 0x2310 ∧ (descOf 0x1000 3).ty ≠ .domain ∧ (descOf 0x1000 3).ty ≠ .label ∧
      (descOf 0x1000 3).size ≤ 24 ∧ objectChecks u (nobody r) false r.idx r.sub (descOf 0x1000 3) none = 0 ∧ readConflict u (nobody r) r.idx r.sub = 0 ∧
      homeHere comparing 1 = true ∧ originCell 0x4001 = none := by decide +kernel

/-- A read of the leader's cell 0, ordered on the follower, and its answer on the leader. -/
theorem test_cell_read : (let b := wire 1 0x1000 4 []
     let r := parseRq 0x100 b
     let u := Shf.take following 0x30 (leBytes 2 0x100 ++ b)
     joined following = true ∧ following.sheaf.key.isSome = true ∧ serving following = true ∧ homeHere following 0x100 = false ∧
       Dict.find r.idx r.sub = (true, some (descOf 0x1000 4)) ∧ r.idx ≠ 0x2310 ∧ (descOf 0x1000 4).ty ≠ .domain ∧
       Sys.checks u 0 false r.idx r.sub (descOf 0x1000 4) none = 0 ∧ readConflict u (Sys.ctx u 0) r.idx r.sub = 0 ∧
       (readBytes u (Sys.ctx u 0) r.idx r.sub (descOf 0x1000 4)).length < 65536) ∧
    (let y : Slot := { owing [] with numbered := false, bare := some (leBytes 4 0x20000 ++ leBytes 4 16), origin := 0x100 }
     let s := { comparing with slots := [y] }
     homeHere s 0x100 = true ∧ (∀ x ∈ s.slots, x.id = y.id → x = y) ∧
       s.slots.find? (fun x => decide (x.origin = 0x100) && relayed x) = some y ∧ (zeros 8).length = 8 ∧ ([1, 2] : Bytes).length ≤ 16) := by decide +kernel

/-- A read of the host that waits for its READ_RESULT. -/
def relaying : State := { comparing with slots := [{ owing [] with numbered := false, bare := some [1], origin := 1 }] }

theorem test_read_result : homeHere relaying 1 = true ∧
    relaying.slots.find? (fun x => decide (x.origin = 1) && relayed x) = some { owing [] with numbered := false, bare := some [1], origin := 1 } ∧
    (∀ x ∈ comparing.slots, x.origin = 1 → relayed x = false) := by decide +kernel

/-! Separation. -/

/-- Unit n of a pair with this at the head of its internal queue, after its link has gone down. -/
def parting (n : Nat) (e : IntReq) : State :=
  let s := pairOf n
  { s with internal := [e], sheaf := { s.sheaf with key := none, kept := [] } }

theorem test_partitions (n : Fin 2) : let s := parting n.val .partition
    sequencerUp s = true ∧ s.sheaf.key = none ∧ s.sheaf.join = none ∧ num s 0xF000 2 = n.val ∧ sheafOn s = true := by revert n; decide +kernel

theorem test_suspensions : (let s := { pairOf 0 with internal := [.suspension 90] }
     Heads s ∧ s.internal = .suspension 90 :: []) ∧
    (let s := { following with internal := [.suspension 90], sheaf := { following.sheaf with grant := some (101, 2000003, (Shf.suspensionIn 90).payload) } }
     sequencerUp s = true ∧ num s 0xF000 2 = 1 ∧ s.sheaf.grant = some (101, 2000003, (Shf.suspensionIn 90).payload)) :=
  ⟨⟨by constructor <;> decide +kernel, rfl⟩, by decide +kernel, by decide +kernel, rfl⟩

/-! The queue, the fuses and reset. -/

/-- A command waits and the block idles; the commands of a fuse: Raise floor's release and a tick. -/
theorem test_step : Sys2Proof.Machine.step { unit with pending := [.idleTimer 0] } = exec (.idleTimer 0) unit ∧ Sys2Proof.Machine.step unit = .next unit ∧
    unit.pending = [] ∧ (Dict.find 0x3000 1).2 = some (descOf 0x3000 1) ∧
    Sys2Proof.core.run 1 { unit with pending := [.clearStage, .idleTimer 0] } = .next { unit with pending := [.idleTimer 0] } := ⟨rfl, rfl, rfl, by decide +kernel, rfl⟩

/-! Known answers: CRC-32C of the digits 1 to 9, FIPS 197 C.3, FIPS 180-4, FIPS 202, RFC 4231 case 2, SP 800-38B, and the GCM specification's case 13. -/

def iota (n : Nat) : Bytes := (List.range n).map (BitVec.ofNat 8)

/-- The first 80 primes, in order. -/
def primes80 : List Nat := (List.range 410).filter fun n => decide (2 ≤ n) && (List.range 21).all fun d => decide (d < 2 ∨ n ≤ d) || decide (n % d ≠ 0)

/-- Whether k is the first 64 bits behind the point of the n-th root of p, whose whole part is c. -/
def isRoot (n p c k : Nat) : Bool := decide ((c * 2 ^ 64 + k) ^ n ≤ p * 2 ^ (64 * n)) && decide (p * 2 ^ (64 * n) < (c * 2 ^ 64 + k + 1) ^ n)

/-- The constants of SHA-2 are roots of primes (FIPS 180-4). -/
theorem test_sha_constants : primes80.length = 80 ∧ primes80.getLast? = some 409 ∧ Sha.k512.length = 80 ∧ Sha.iv512.length = 8 ∧ Sha.iv384.length = 8 ∧
    ((primes80.zip Sha.k512).all fun p => (List.range 8).any fun c => isRoot 3 p.1 c p.2) = true ∧
    (((primes80.take 16).zip (Sha.iv512 ++ Sha.iv384)).all fun p => (List.range 8).any fun c => isRoot 2 p.1 c p.2) = true := by decide +kernel

theorem test_crc : crc32c (ascii "123456789") = 0xE3069283 := by decide +kernel
theorem test_aes : aesEnc (iota 32) ((List.range 16).map fun i => BitVec.ofNat 8 (17 * i)) = beBytes 16 0x8ea2b7ca516745bfeafc49904b496089 ∧
    aesDec (iota 32) (beBytes 16 0x8ea2b7ca516745bfeafc49904b496089) = (List.range 16).map fun i => BitVec.ofNat 8 (17 * i) := by decide +kernel
theorem test_sha256 : sha256 (ascii "abc") = beBytes 32 0xba7816bf8f01cfea414140de5dae2223b00361a396177a9cb410ff61f20015ad := by decide +kernel
theorem test_sha384 : (sha384 (ascii "abc")).take 16 = beBytes 16 0xcb00753f45a35e8bb5a03d699ac65007 := by decide +kernel
theorem test_sha512 : (sha512 (ascii "abc")).take 16 = beBytes 16 0xddaf35a193617abacc417349ae204131 := by decide +kernel
theorem test_sha3 : sha3_256 [] = beBytes 32 0xa7ffc6f8bf1ed76651c14756a061d662f580ff4de43b49fa82d80a4b80f8434a := by decide +kernel
theorem test_shake : shake128 16 [] = beBytes 16 0x7f9c2ba4e88f827d616045507605853e ∧ shake256 16 [] = beBytes 16 0x46b9dd2b0ba88d13233b3feb743eeb24 := by
  decide +kernel
theorem test_hmac : hmacSha256 (ascii "Jefe") (ascii "what do ya want for nothing?") =
    beBytes 32 0x5bdcc146bf60754e6a042426089575c75a003f089d2739839dec58b964ec3843 := by decide +kernel
theorem test_cmac : cmac (beBytes 32 0x603deb1015ca71be2b73aef0857d77811f352c073b6108d72d9810a30914dff4) [] = beBytes 16 0x028962f61b7bf89efc6b551f4667d983 := by
  decide +kernel
theorem test_gcm : gcmSeal (zeros 32) (zeros 12) [] [] = ([], beBytes 16 0x530f8afbc74536b9a963b4f1c4cb738b) := by decide +kernel
theorem test_kw : kwWrap (iota 32) (beBytes 16 0x00112233445566778899AABBCCDDEEFF) = beBytes 24 0x64E8C3F9CE0F5BA263E9777905818A2A93C8191E7D6E8AE7 := by
  decide +kernel

/-! Ill-formed commands, one for each check of a form, beside a well-formed one. -/

theorem test_wf_host : (Instr.send (zeros 2049) true).wf = false ∧ (Instr.send (zeros 2048) true).wf = true ∧ (Instr.clear (zeros 2049) true).wf = false := by
  decide +kernel

/-- Header fields, trailer fields, object fields and body. -/
theorem test_wf_request : (Instr.read (rq0 0x1000 1 [])).wf = true ∧ (Instr.read (rq0 0x10000 1 [])).wf = false ∧ (Instr.read (rq0 0x1000 256 [])).wf = false ∧
    (Instr.write (rq0 0x1000 1 (zeros 1537))).wf = false ∧ (Instr.retire { bareHdr with origin := 65536 }).wf = false ∧
    (Instr.retire { bareHdr with flags := 256 }).wf = false ∧ (Instr.retire { bareHdr with flags := 1 }).wf = false ∧
    (Instr.retire { bareHdr with txn := 65536 }).wf = false ∧ (Instr.retire { bareHdr with rsv := 256 }).wf = false ∧
    (Instr.retire { bareHdr with trailer := some ⟨256, 0, 6, zeros 8⟩ }).wf = false ∧ (Instr.retire { bareHdr with trailer := some ⟨0, 16777216, 6, zeros 8⟩ }).wf = false ∧
    (Instr.retire { bareHdr with trailer := some ⟨0, 0, 4294967296, zeros 8⟩ }).wf = false ∧ (Instr.retire { bareHdr with trailer := some ⟨0, 0, 6, zeros 7⟩ }).wf = false ∧
    (Instr.retire (hdr 0 2 0xCA30 2 [])).wf = true := by decide +kernel

/-- SESSION set with 15 bytes behind the header, too few for a trailer (log 90): the message keeps its bytes and fails at its tag. -/
def shortMessage : Bytes := [2, 1, 7, 0, 0, 0x10, 1, 0] ++ zeros 15

theorem test_short_trailer : let r := parseRq 1 shortMessage
    r.bytes = shortMessage ∧ sessionCheck unit r 2000000 = ⟨Abt.authFail, nobody r, none, false⟩ ∧
    (Instr.write ⟨{ bareHdr with trailer := some ⟨0xFF, 0, 0, []⟩ }, 0x1000, 1, zeros 15⟩).wf = true ∧
    (Instr.write ⟨{ bareHdr with trailer := some ⟨0xFF, 0, 0, []⟩ }, 0x1000, 1, zeros 16⟩).wf = false := by decide +kernel

theorem test_wf_segments : (Instr.loadImage bareHdr (seg 0 1 [7])).wf = true ∧ (Instr.loadImage bareHdr (seg 65536 1 [7])).wf = false ∧
    (Instr.createNode bareHdr (seg 0 256 [7])).wf = false ∧ (Instr.pairSecret bareHdr { seg 0 1 [7] with rsv := 256 }).wf = false ∧
    (Instr.loadManifest bareHdr { seg 0 1 [7] with len := 65536 }).wf = false ∧ (Instr.takeOwnership bareHdr (seg 0 1 (zeros 1537))).wf = false ∧
    (Instr.attest bareHdr (zeros 25)).wf = false ∧ (Instr.attest bareHdr (zeros 24)).wf = true := by decide +kernel

theorem test_wf_cells : (Instr.jal 0 1 1).wf = false ∧ (Instr.beq 0 1 2 3).wf = false ∧ (Instr.cAddi4spn 0 7 4).wf = false ∧ (Instr.cAddi4spn 0 8 2).wf = false ∧
    (Instr.cAddi4spn 0 8 0).wf = false ∧ (Instr.cLw 0 16 8 0).wf = false ∧ (Instr.cLw 0 8 16 0).wf = false ∧ (Instr.cLw 0 8 8 1).wf = false ∧
    (Instr.cSw 0 8 8 1).wf = false ∧ (Instr.cAddi 0 0 1).wf = false ∧ (Instr.cJ 0 1).wf = false ∧ (Instr.cAddi16sp 0 8).wf = false ∧
    (Instr.cAddi16sp 0 0).wf = false ∧ (Instr.cLui 0 2 1).wf = false ∧ (Instr.cLui 0 1 0).wf = false ∧ (Instr.cSrli 0 8 32).wf = false ∧
    (Instr.cSrli 0 7 1).wf = false ∧ (Instr.cAndi 0 7 1).wf = false ∧ (Instr.cSub 0 7 8).wf = false ∧ (Instr.cSub 0 8 7).wf = false ∧
    (Instr.cBeqz 0 7 2).wf = false ∧ (Instr.cBeqz 0 8 1).wf = false ∧ (Instr.cSlli 0 1 32).wf = false ∧ (Instr.cLwsp 0 0 4).wf = false ∧
    (Instr.cLwsp 0 1 2).wf = false ∧ (Instr.cJr 0 0).wf = false ∧ (Instr.cMv 0 1 0).wf = false ∧ (Instr.cSwsp 0 1 2).wf = false ∧
    (Instr.cSwsp 0 1 4).wf = true := by decide +kernel

theorem test_wf_barrier : (Instr.barrierCellReceive 0 ⟨zeros 31, .ok⟩).wf = false ∧ (Instr.keyCell (zeros 15) 0 (zeros 4)).wf = false ∧
    (Instr.keyCell (zeros 16) 0 (zeros 3)).wf = false ∧ (Instr.keyAck 0 ⟨zeros 5, .ok⟩).wf = false ∧ (Instr.bdpReq 65536 []).wf = false ∧
    (Instr.bdpReq 1 (zeros 1537)).wf = false ∧ (Instr.chfUp 0 128 []).wf = false ∧ (Instr.chfUp 0 1 (zeros 241)).wf = false ∧
    (Instr.chfDown (zeros 241)).wf = false ∧ (Instr.netConfig 65536 1 []).wf = false ∧ (Instr.netConfig 1 256 []).wf = false ∧
    (Instr.netConfig 1 1 (zeros 25)).wf = false ∧ (Instr.inputEvent []).wf = false ∧ (Instr.outputSense [0]).wf = false ∧ (Instr.analogSense [0] 0).wf = false := by
  decide +kernel

theorem test_wf_field : (Instr.outputSensePeriod [0]).wf = false ∧ (Instr.analogReportPeriod [[0]] none).wf = false ∧ (Instr.canSingle 0 0 []).wf = false ∧
    (Instr.canSingle 0 128 []).wf = false ∧ (Instr.canFirst 0 1 (zeros 65)).wf = false ∧ (Instr.reassemblyTimeout 0 0).wf = false ∧
    (Instr.ethBdpFrame 0 (zeros 13)).wf = false ∧ (Instr.balanceWindow 0 4097).wf = false ∧ (Instr.balanceWindow 0 4096).wf = true := by decide +kernel

theorem test_wf_pair : (Instr.sheafFrameReceive ⟨zeros 293, .ok⟩).wf = false ∧ (Instr.sheafHello { partnerHello with serial := [] }).wf = false ∧
    (Instr.sheafHello { partnerHello with nonce := [] }).wf = false ∧ (Instr.sheafHello { partnerHello with chain := [] }).wf = false ∧
    (Instr.sheafHello { partnerHello with lastAdm := 2 ^ 64 }).wf = false ∧ (Instr.sheafHello partnerHello).wf = true ∧ (Instr.sheafProof ⟨[], .ok⟩).wf = false ∧
    (Instr.sheafAdmit { admitted 1 1 [] with origin := 65536 }).wf = false ∧ (Instr.sheafAdmit { admitted 1 1 [] with channel := 65536 }).wf = false ∧
    (Instr.sheafAdmit { admitted 1 1 [] with adm := 2 ^ 64 }).wf = false ∧ (Instr.sheafAdmit { admitted 1 1 [] with time := 2 ^ 64 }).wf = false ∧
    (Instr.sheafRequest 65536 1 []).wf = false ∧ (Instr.sheafDigest (2 ^ 64) (zeros 16)).wf = false ∧ (Instr.sheafDigest 1 []).wf = false ∧
    (Instr.commitAck (2 ^ 64) 0).wf = false ∧ (Instr.verdict ⟨2 ^ 64, 0, [], []⟩).wf = false ∧ (Instr.sync 1 (2 ^ 32) 0 []).wf = false ∧
    (Instr.sync 1 0 (2 ^ 64) []).wf = false ∧ (Instr.syncEnd 1 (2 ^ 32)).wf = false := by decide +kernel

/-- No word of the table spells a command. -/
theorem test_words : Sys2Proof.decodeTableWord 8 0x5A = none ∧ State.reset.withFetchWord 8 0x5A = State.reset := ⟨rfl, rfl⟩

end Sys2Proof.Tests.Slice0
end

section
/-! SUPPORT. Fuses are only ever blown, whatever the command (R131, R354, R359). -/

namespace Sys2Proof.Machine

/-- Fuses burnt with themselves stand. -/
theorem Otp.burn_self (o : Otp) : Otp.burn o o = o := by
  unfold Otp.burn
  rw [Bool.or_self, Nat.max_self, if_neg (by rintro ⟨h1, h2⟩; rw [h1] at h2; exact absurd h2 (by decide))]

/-- A command whose outcome is o leaves the fuses of s, or those with more of them blown (R131, R354, R359). -/
def BurnsOnly (s : State) (o : Host.Outcome State Fault Refusal) : Prop := ∀ t, o = .next t → ∃ f, t.otp = Otp.burn s.otp f

theorem burnsOnly_of_burn {s t : State} {f : Otp} {o : Host.Outcome State Fault Refusal} (ho : o = .next t) (h : t.otp = Otp.burn s.otp f) :
    BurnsOnly s o := by
  subst ho
  rintro _ ⟨⟩
  exact ⟨f, h⟩

theorem burnsOnly_of_same {s t : State} {o : Host.Outcome State Fault Refusal} (ho : o = .next t) (h : t.otp = s.otp) : BurnsOnly s o :=
  burnsOnly_of_burn ho (h.trans (Otp.burn_self s.otp).symm)

/-- Five commands may blow fuses; every other leaves them. -/
theorem exec_burnsOnly (i : Instr) (s : State) : BurnsOnly s (exec i s) := by
  cases i with
  | retireFuseBlow | deviceTimeTick | responseRelease | storeFaultReport | tamperEvalStage => exact burnsOnly_of_burn rfl rfl
  | _ => exact burnsOnly_of_same rfl rfl

theorem step_burnsOnly (s : State) : BurnsOnly s (step s) := by
  unfold step
  cases s.pending with
  | nil => exact burnsOnly_of_same rfl rfl
  | cons c rest => exact exec_burnsOnly c { s with pending := rest }

/-- No step takes the floor down (R131). -/
theorem step_floor {s t : State} (h : step s = .next t) : s.otp.floor ≤ t.otp.floor := by
  obtain ⟨f, hf⟩ := step_burnsOnly s t h
  rw [hf]
  exact Nat.le_max_left _ _

end Sys2Proof.Machine
end

section
/-! SUPPORT. An expedited write by its parts: its length, its refusal at check 12, its commit where the effect waits for the release, and
what a client is answered. -/

namespace Sys2Proof.Machine

theorem leNat_leBytes (n x : Nat) (h : x < 256 ^ n) : leNat (leBytes n x) = x := by
  induction n generalizing x with
  | zero => simp at h; simp [leBytes, leNat, h]
  | succ n ih =>
    have hq : x / 256 < 256 ^ n := by rw [Nat.pow_succ] at h; omega
    rw [leBytes, leNat, ih _ hq, BitVec.toNat_ofNat]
    omega

/-- The value of an expedited write is as long as its object (R106). -/
theorem writeLengthCheck_ok {d : Desc} {v : Bytes} (h : d.ty ≠ .domain ∧ d.ty ≠ .label ∧ v.length = d.size ∧ d.size ≤ 24) :
    writeLengthCheck d (leBytes 2 v.length ++ v) = 0 := by
  obtain ⟨hdom, hlab, hsize, hsmall⟩ := h
  have h2 : (leBytes 2 v.length).length = 2 := leBytes_length 2 _
  have hlen : (leBytes 2 v.length ++ v).length = 2 + v.length := by rw [List.length_append, h2]
  unfold writeLengthCheck
  dsimp only
  rw [List.take_left' h2, List.drop_left' h2, leNat_two _ (by omega), hlen, if_neg hlab, if_neg (by omega), if_neg (by simp [hdom]; omega),
    if_neg (by omega), if_neg (by omega)]

/-- An expedited write past checks 5 to 11 is the write of its value. -/
theorem service_rqWrite {u : State} {c : Ctx} {h : Hdr} {i k : Nat} {d : Desc} {v : Bytes} {p : Phys}
    (hp : (rqWrite h i k v).phys = p) (hf : Dict.find i k = (true, some d))
    (hl : d.ty ≠ .domain ∧ d.ty ≠ .label ∧ v.length = d.size ∧ d.size ≤ 24) (hchk : objectChecks u c true i k d (some (some v)) = 0) :
    service u c (rqWrite h i k v) true = .out (performWrite u c i k d v p) := by
  have hdrop : (leBytes 2 v.length ++ v).drop 2 = v := List.drop_left' (leBytes_length 2 _)
  have hfo : findObj i k = .ok d := by unfold findObj; rw [hf]
  show ReadOut.out (writeOp u c i k (leBytes 2 v.length ++ v) (rqWrite h i k v).phys) = _
  unfold writeOp
  rw [hp, hfo]
  dsimp only
  rw [if_neg hl.1, hdrop, hchk, if_neg (by simp), writeLengthCheck_ok hl, if_neg (by simp)]

/-- A value that check 12 refuses: the write does nothing, and reports its code (R107). -/
theorem performWrite_refused {u t : State} {c : Ctx} {i k : Nat} {d : Desc} {v : Bytes} {p : Phys} {lat code : Nat}
    (hw : writeValue u c i k d v p = Eff.fail t lat code) (h12 : atCheck12 code = true) (h0 : code ≠ 0) (hk : countsUp i k = false) :
    performWrite u c i k d v p = Eff.fail u lat code := by
  have hacc : accepted (Eff.fail t lat code) = false := by simp [accepted, Eff.fail, h0]
  unfold performWrite
  rw [hw]
  dsimp only
  rw [hacc, hk]
  exact if_pos ⟨h12, rfl, rfl⟩

/-- A write that succeeds, with room for it, commits its value (R107, R123). -/
theorem performWrite_accepted {u : State} {c : Ctx} {i k : Nat} {d : Desc} {v : Bytes} {e : Eff} (hw : writeValue u c i k d v .ok = e)
    (h0 : e.code = 0) (hcap : capacityCheck u i d = 0) : performWrite u c i k d v .ok = commitWrite u c i k d v e := by
  have hacc : accepted e = true := by simp [accepted, h0]
  unfold performWrite
  rw [hw]
  dsimp only
  rw [hacc, hcap, if_neg (by simp), if_neg (by simp), if_neg (by simp), if_neg (by simp)]

/-- The commit of a write whose persistent effects wait for its release: the value waits with them, and only the CHANGE record is
written at once (R23, R123). -/
theorem commitWrite_held (u : State) (c : Ctx) {i k : Nat} {d : Desc} (v : Bytes) {e : Eff} (hg : e.acts.any stagesEffect = true)
    (hf : Dict.find i k = (true, some d)) (hp : roleInForce u true i k d ≠ .pair) (hm : ¬(i = 0x2000 ∧ k = 7 ∧ sheafOn u = true))
    (hc : isCarried i k = false) (hs : isSensorSetting i k = false) :
    ∃ t, commitWrite u c i k d v e = { e with s := t, acts := heldWrite i k v ++ e.acts } ∧ Settled e.s t := by
  refine ⟨journalDigests e.s c i k (oldDigest u i k d) (digest16 v), ?_, settled_journalAt _ _ _ _ _⟩
  unfold commitWrite heldWrite
  rw [hg, hc, hs, hf]
  simp [hp, hm]

theorem admittedIn_otp (s : State) (r : Rq) (tr : Trailer) : (admittedIn s r tr).otp = s.otp := (steady_admitted s r tr).fuses

theorem longRuns_admittedIn (s : State) (r : Rq) (tr : Trailer) : longRuns (admittedIn s r tr) = longRuns s := by
  obtain ⟨hh, b, n, f, e⟩ := admittedIn_cases s r tr
  rw [e]
  rfl

/-- An expedited write of a client past its checks, whose effect leaves the state but for bookkeeping: it is admitted with that effect's
answer, and no object changes. -/
theorem client_answered {s : State} {h : Hdr} {tr : Trailer} {z : Session} {i k : Nat} {v : Bytes} {d : Desc} {e : Eff} {c : Instr}
    (hexec : exec c s = coreCmd (fun s => request s (rqWrite h i k v)) s) (hcl : Client s (rqWrite h i k v) tr z d.role)
    (hf : Dict.find i k = (true, some d)) (hl : d.ty ≠ .domain ∧ d.ty ≠ .label ∧ v.length = d.size ∧ d.size ≤ 24)
    (hchk : objectChecks (admittedIn s (rqWrite h i k v) tr) (callerOf (rqWrite h i k v) tr z) true i k d (some (some v)) = 0)
    (hw : performWrite (admittedIn s (rqWrite h i k v) tr) (callerOf (rqWrite h i k v) tr z) i k d v .ok = e)
    (hc : e.code ≠ Abt.compareFault ∧ e.code ≠ Abt.resultCheck) (hs : Settled (admittedIn s (rqWrite h i k v) tr) e.s) :
    ∃ t, exec c s = .next t ∧ Admitted s t (rqWrite h i k v) (some z) e.lat e.code e.body e.acts ∧ OthersStand s t [] := by
  have hst := steady_admitted s (rqWrite h i k v) tr
  have hserv := (service_rqWrite hcl.authentic.sound hf hl hchk).trans (congrArg ReadOut.out hw)
  have hadm : e.s.seq.adm = s.seq.adm + 1 := (congrArg (fun x => x.seq.adm) hs.rest).trans hst.adm
  have htime : e.s.seq.admTime = s.seq.time := (congrArg (fun x => x.seq.admTime) hs.rest).trans hst.time
  have hfirst : e.s.sheaf.theirs = s.sheaf.theirs := (congrArg (fun x => x.sheaf.theirs) hs.rest).trans hst.first
  have hsvc : (rqWrite h i k v).svc = 2 := rfl
  obtain ⟨y, hset, hans⟩ := authentic_admits hcl.ready hcl.authentic rfl (.inr (by simp [hsvc])) (recordedRead_write (by simp [hsvc]))
    hcl.unrecorded hserv (by simp [keptOut, hsvc]) hc hadm htime hfirst
  have hall := (hs.push y).trans hset
  refine ⟨_, hexec.trans (coreCmd_settled rfl hall hst), hans, ?_⟩
  intro i' k' hk' hb _
  rw [hall.objects i' k' hk' hb, getObj_pushSlot, getObj_admittedIn]

end Sys2Proof.Machine
end

section
/-! SUPPORT. What a release leaves of the fuses (R131, R186). -/

namespace Sys2Proof.Machine

@[simp] theorem sendLane1_otp (s : State) (m : Lane1) : (sendLane1 s m).otp = s.otp := by
  unfold sendLane1
  split <;> rfl

@[simp] theorem deliver_otp (s : State) (n : Bool) (o : Nat) (m : Bytes) : (deliver s n o m).otp = s.otp := by
  unfold deliver
  dsimp only
  split_ifs <;> simp

@[simp] theorem endFrame_otp (s : State) (x : Slot) : (endFrame s x).otp = s.otp := by
  unfold endFrame
  split <;> rfl

@[simp] theorem ringEntry_otp (a b : State) (n : Nat) : (ringEntry a b n).otp = b.otp := by
  obtain ⟨c, l, h⟩ := ringEntry_pers a b n
  rw [h]

@[simp] theorem markDirty_otp (a b : State) : (markDirty a b).otp = b.otp := by
  unfold markDirty
  split <;> rfl

/-- A slot that waits for nothing of the partner, and whose acts cannot spend an epoch, is released as it is. -/
theorem asReleased_self {s : State} {x : Slot} (he : exhausts s x = false) (ha : awaitsPartner s x = false) : asReleased s x = (s, x) := by
  unfold asReleased
  rw [he, ha]
  rfl

theorem awaitsPartner_none {s : State} {x : Slot} (h : ∀ w ∈ s.sheaf.awaits, w.adm ≠ x.adm) : awaitsPartner s x = false := by
  have hany : ∀ k : Nat, s.sheaf.awaits.any (fun w => decide (w.adm = x.adm ∧ w.kind = k)) = false := fun k =>
    List.any_eq_false.mpr fun w hw he => h w hw (of_decide_eq_true he).1
  unfold awaitsPartner awaitsCode
  rw [hany, hany]
  simp

/-- The fuses after a release are those that its acts leave, from a state with the fuses before it. -/
theorem releaseSlot_otp {s : State} {x : Slot} (h : asReleased s x = (s, x)) :
    ∃ u, u.otp = s.otp ∧ (releaseSlot s x).otp = (x.acts.foldl (runAct x) u).otp := by
  unfold releaseSlot
  rw [h]
  dsimp only
  rw [markDirty_otp, ringEntry_otp]
  refine ⟨_, ?_, rfl⟩
  split <;> simp

/-- The release of Raise floor burns the floor (R131). -/
theorem releaseSlot_floor {s : State} {x : Slot} {key v : Nat} {w : Val} (ha : x.acts = [.setObj key w, .burnFloor v])
    (hw : awaitsPartner s x = false) : (releaseSlot s x).otp.floor = max s.otp.floor v := by
  have he : exhausts s x = false := by unfold exhausts; rw [ha]; rfl
  obtain ⟨u, hu, hr⟩ := releaseSlot_otp (asReleased_self he hw)
  rw [hr, ha]
  show max (setObj u (key / 256) (key % 256) w).otp.floor v = _
  rw [setObj_otp, hu]

theorem responseRelease_burns_floor {s : State} {x : Slot} {key v : Nat} {w : Val} (hx : s.slots.find? (fun y => decide (y.id = x.id)) = some x)
    (hdue : x.due ≤ s.seq.time) (hcalm : s.tem.resp = none) (hpow : s.seq.failing = false) (hw : ∀ w ∈ s.sheaf.awaits, w.adm ≠ x.adm)
    (ha : x.acts = [.setObj key w, .burnFloor v]) : ∃ t, exec (.responseRelease x.id) s = .next t ∧ t.otp.floor = max s.otp.floor v := by
  have hawait := awaitsPartner_none hw
  have hmay : mayRelease s x = true := by
    have hrel : relayed x = false := by unfold relayed; rw [ha]; simp
    unfold mayRelease
    rw [hcalm, hpow, hawait, hrel]
    rfl
  have hrun : releaseById s x.id = releaseSlot s x := by
    unfold releaseById
    rw [hx]
    exact if_pos ⟨hdue, hmay⟩
  refine ⟨_, rfl, ?_⟩
  show max s.otp.floor (releaseById s x.id).otp.floor = _
  rw [hrun, releaseSlot_floor ha hawait, ← Nat.max_assoc, Nat.max_self]

end Sys2Proof.Machine
end

section
/-! SUPPORT. The security version floor (R131): the command that raises it, and the images below it. -/

namespace Sys2Proof.Machine

/-- Raise floor as the dictionary describes it (R128). -/
def raiseFloorDesc : Desc := ⟨.u32, 4, .rwx, .owner, false, true, .num 0⟩

theorem find_raiseFloor : Dict.find 0x1100 5 = (true, some raiseFloorDesc) := rfl

section
variable {u : State} {c : Ctx} {v : Bytes}

/-- Raise floor takes the running version above the floor: the value and the fuses wait for the release (R23, R131). -/
theorem performWrite_raiseFloor_ok (hv : leNat v = num u 0x2100 5) (hf : u.otp.floor < leNat v) (hm : Room u) (hlong : longRuns u = false)
    (hp : roleInForce u true 0x1100 5 raiseFloorDesc ≠ .pair) :
    ∃ t, performWrite u c 0x1100 5 raiseFloorDesc v .ok =
      { Eff.ok t 10000 with acts := heldWrite 0x1100 5 v ++ [.burnFloor (leNat v)], long := true } ∧ Settled u t := by
  have hval : writeValue u c 0x1100 5 raiseFloorDesc v .ok = { Eff.ok u 10000 with acts := [.burnFloor (leNat v)], long := true } := by
    show firmwareWrite u 5 (leNat v) .ok = _
    exact if_neg (by omega)
  obtain ⟨t, hcommit, hset⟩ := commitWrite_held u c v (e := { Eff.ok u 10000 with acts := [.burnFloor (leNat v)], long := true }) rfl
    find_raiseFloor hp (by simp) rfl rfl
  exact ⟨t, (performWrite_accepted hval rfl (capacity_ok hm fun _ => hlong)).trans hcommit, hset⟩

/-- Any other value is a conflict (R131). -/
theorem performWrite_raiseFloor_conflict (h : leNat v ≠ num u 0x2100 5 ∨ leNat v ≤ u.otp.floor) :
    performWrite u c 0x1100 5 raiseFloorDesc v .ok = Eff.fail u Lat.write Abt.valueConflict := by
  have hval : writeValue u c 0x1100 5 raiseFloorDesc v .ok = Eff.fail u Lat.write Abt.valueConflict := by
    show firmwareWrite u 5 (leNat v) .ok = _
    exact if_pos h
  exact performWrite_refused hval (by decide) (by decide) rfl

end

section
variable {s : State} {h : Hdr} {v : Word} {tr : Trailer} {z : Session}

/-- The request that Raise floor to v sends. -/
abbrev raiseFloorRq (h : Hdr) (v : Word) : Rq := rqWrite h 0x1100 5 (leBytes 4 v.toNat)

/-- An owner's Raise floor passes checks 5 to 11 on a unit in the field, so the command answers what the write of its value comes to. -/
theorem raiseFloor_answered {e : Eff} (ho : Open s) (hcl : Client s (raiseFloorRq h v) tr z .owner)
    (hw : performWrite (admittedIn s (raiseFloorRq h v) tr) (callerOf (raiseFloorRq h v) tr z) 0x1100 5 raiseFloorDesc (leBytes 4 v.toNat) .ok = e)
    (hc : e.code ≠ Abt.compareFault ∧ e.code ≠ Abt.resultCheck) (hs : Settled (admittedIn s (raiseFloorRq h v) tr) e.s) :
    ∃ t, exec (.raiseFloor h v) s = .next t ∧ Admitted s t (raiseFloorRq h v) (some z) e.lat e.code e.body e.acts ∧ OthersStand s t [] :=
  client_answered rfl hcl find_raiseFloor ⟨by decide, by decide, leBytes_length 4 _, by decide⟩
    (write_checks hcl.ready hcl.role hcl.person ho.single (.inl ho.caldera) (by decide) rfl rfl rfl (by decide)) hw hc hs

/-- Raise floor with the running version above the floor is admitted, and burns the fuses at its release (R131). -/
theorem raiseFloor_completes (ho : Open s) (hlong : longRuns s = false) (hcl : Client s (raiseFloorRq h v) tr z .owner)
    (hv : v.toNat = num s 0x2100 5) (hf : s.otp.floor < v.toNat) :
    Completes (.raiseFloor h v) s (raiseFloorRq h v) z 10000
      (heldWrite 0x1100 5 (leBytes 4 v.toNat) ++ [.burnFloor v.toNat]) fun t => OthersStand s t [] := by
  have hn : leNat (leBytes 4 v.toNat) = v.toNat := leNat_leBytes 4 _ v.isLt
  obtain ⟨t, hperf, hset⟩ := performWrite_raiseFloor_ok (u := admittedIn s (raiseFloorRq h v) tr)
    (c := callerOf (raiseFloorRq h v) tr z) (v := leBytes 4 v.toNat) (by rw [hn, num_admittedIn, hv])
    (by rw [hn, admittedIn_otp]; exact hf) (room_admitted ho.toRoom _ tr) (by rw [longRuns_admittedIn]; exact hlong)
    (role_alone ho.single hcl.role _ _)
  rw [hn] at hperf
  exact raiseFloor_answered ho hcl hperf (show 0 ≠ Abt.compareFault ∧ 0 ≠ Abt.resultCheck by decide) hset

/-- Raise floor with any other value is refused with ABT_VALUE_CONFLICT, and does nothing (R131). -/
theorem raiseFloor_conflicts (ho : Open s) (hcl : Client s (raiseFloorRq h v) tr z .owner)
    (hv : v.toNat ≠ num s 0x2100 5 ∨ v.toNat ≤ s.otp.floor) :
    ∃ t, exec (.raiseFloor h v) s = .next t ∧ Admitted s t (raiseFloorRq h v) (some z) 10 0x03020001 [] [] ∧ OthersStand s t [] := by
  have hn : leNat (leBytes 4 v.toNat) = v.toNat := leNat_leBytes 4 _ v.isLt
  have hperf := performWrite_raiseFloor_conflict (u := admittedIn s (raiseFloorRq h v) tr)
    (c := callerOf (raiseFloorRq h v) tr z) (v := leBytes 4 v.toNat) (by rw [hn, num_admittedIn, admittedIn_otp]; exact hv)
  exact raiseFloor_answered ho hcl hperf (show Abt.valueConflict ≠ Abt.compareFault ∧ Abt.valueConflict ≠ Abt.resultCheck by decide)
    (Settled.refl _)

end

/-- An image below the floor is invalid, whatever else holds of it (R131). -/
theorem imageCode_below_floor {s : State} {x : Image} (h : leNat ((x.bytes.drop 8).take 4) < s.otp.floor) : imageCode s x ≠ 0 := by
  unfold imageCode
  dsimp only
  rw [if_pos h]
  split_ifs <;> decide

/-- Settles O14: Raise floor is its write's effect past the checks, its release runs the act that burns the fuses, every command either
keeps the fuses or blows more of them, and each verdict on an image below the floor is a code. -/
theorem raiseFloorIsExactAndFinal : Obligations.raise_floor_is_exact_and_final := by
  unfold Obligations.raise_floor_is_exact_and_final
  refine ⟨fun s h v tr z ho hlong hcl => ⟨fun hv hf => raiseFloor_completes ho hlong hcl hv hf, fun hv => raiseFloor_conflicts ho hcl hv⟩, ?_, ?_, ?_⟩
  · exact fun s x v key w hx hdue hcalm hpow hw ha => responseRelease_burns_floor hx hdue hcalm hpow hw ha
  · exact fun s t h => step_floor h
  · exact fun s x h => imageCode_below_floor h

end Sys2Proof.Machine
end

section
/-! SUPPORT. A SEND frame carries a message exactly where it is that message's wire form (R135, R137). -/

namespace Sys2Proof.Machine

/-- Two bytes spell the number that they hold. -/
theorem leBytes_leNat_two {b : Bytes} (h : b.length = 2) : leBytes 2 (leNat b) = b := by
  obtain ⟨x, y, rfl⟩ := List.length_eq_two.mp h
  have hx := x.isLt
  have hy := y.isLt
  simp only [leNat, leBytes, List.cons.injEq, and_true]
  exact ⟨by bv_omega, by bv_omega⟩

/-- The bytes of a SEND frame that its CRC covers (R135). -/
def sendBody (m : Bytes) : Bytes := 0x5A :: (leBytes 2 m.length ++ m)

theorem sendBody_length (m : Bytes) : (sendBody m).length = m.length + 3 := by
  simp only [sendBody, List.length_cons, List.length_append, leBytes_length]
  omega

theorem sendWire_eq (m : Bytes) : sendWire m = sendBody m ++ leBytes 4 (crc32c (sendBody m)) := rfl

/-- A frame that starts with the opcode is the opcode, its length field, and the rest of the body. -/
theorem take_eq_sendBody {f : Bytes} {l : Nat} (hop : f.head? = some 0x5A) (hl : leNat ((f.drop 1).take 2) = l) (hlen : f.length = l + 7) :
    f.take (l + 3) = sendBody ((f.drop 3).take l) := by
  obtain ⟨rest, rfl⟩ : ∃ rest, f = 0x5A :: rest := List.head?_eq_some_iff.mp hop
  rw [List.length_cons] at hlen
  have hfield : leBytes 2 l = rest.take 2 := by
    rw [← hl]
    exact leBytes_leNat_two (by rw [List.length_take, List.drop_one, List.tail_cons]; omega)
  have hm : ((rest.drop 2).take l).length = l := by rw [List.length_take, List.length_drop]; omega
  show 0x5A :: rest.take (l + 2) = 0x5A :: (leBytes 2 ((rest.drop 2).take l).length ++ (rest.drop 2).take l)
  rw [hm, hfield, Nat.add_comm l 2, List.take_add]

namespace Hl

/-- The wire form of a message within the limits of R135 carries it. -/
theorem message_sendWire {m : Bytes} (hmin : 8 ≤ m.length) (hmax : m.length ≤ 1054) : message (sendWire m) true = some m := by
  have htake : (sendWire m).take (m.length + 3) = sendBody m := List.take_left' (sendBody_length m)
  have hdrop : (sendWire m).drop (m.length + 3) = leBytes 4 (crc32c (sendBody m)) := List.drop_left' (sendBody_length m)
  have hlen : (sendWire m).length = m.length + 7 := by rw [sendWire_eq, List.length_append, sendBody_length, leBytes_length]
  have hfield : leNat (((sendWire m).drop 1).take 2) = m.length := leNat_two _ (by omega)
  have hmsg : ((sendWire m).drop 3).take m.length = m := List.take_left
  unfold message
  dsimp only
  rw [hfield, htake, hdrop, hmsg, if_pos ⟨rfl, hmin, hmax, hlen, rfl, rfl⟩]

/-- A frame carries no message but one whose wire form it is (R137). -/
theorem eq_sendWire_of_message {f m : Bytes} {whole : Bool} (h : message f whole = some m) :
    8 ≤ m.length ∧ m.length ≤ 1054 ∧ f = sendWire m ∧ whole = true := by
  unfold message at h
  dsimp only at h
  generalize hl : leNat ((f.drop 1).take 2) = l at h
  obtain ⟨⟨hwhole, hmin, hmax, hlen, hop, hcrc⟩, hm⟩ := Option.ite_none_right_eq_some.mp h
  have hm : (f.drop 3).take l = m := Option.some.inj hm
  have hbody := take_eq_sendBody hop hl hlen
  have hml : m.length = l := by rw [← hm, List.length_take, List.length_drop]; omega
  refine ⟨hml ▸ hmin, hml ▸ hmax, ?_, hwhole⟩
  calc f = f.take (l + 3) ++ f.drop (l + 3) := (List.take_append_drop _ f).symm
    _ = sendWire m := by rw [hcrc, hbody, hm, sendWire_eq]

end Hl

end Sys2Proof.Machine
end

section
/-! SUPPORT. A SEND frame that the link takes: its message is buffered, or LINK_ERROR answers it (R137, R138). -/

namespace Sys2Proof.Machine

@[simp] theorem wake_host (s : State) : (wake s).host = s.host := by
  unfold wake
  dsimp only
  split_ifs <;> rfl

/-- A cause bit that is set reads as set. -/
theorem bit_or_two_pow (n i : Nat) : bit (n ||| 2 ^ i) i = true := by
  rw [bit, Nat.testBit_or, Nat.testBit_two_pow_self, Bool.or_true]

namespace Hl

/-- A link that has clocked a SEND frame in: it drives nothing, and the performance counters stand at p (R134). -/
def clockedIn (s : State) (p : Perf) : State := { s with host := { s.host with out := [] }, perf := p }

/-- The frame counted as accepted (R138). -/
def acceptedSend (s : State) (p : Perf) : State := incHw (clockedIn s p) 0x1020 1 1

theorem takesSend_clockedIn {s : State} (h : takesSend s) (p : Perf) : takesSend (clockedIn s p) := h
theorem takesSend_acceptedSend {s : State} (h : takesSend s) (p : Perf) : takesSend (acceptedSend s p) := h

/-- An accepted frame without a message (R137). -/
def answerLinkError (s : State) : State := setCause (linkError (joinReply s linkErrorReply)) 0x40

/-- An accepted frame's message joins the buffer (R138). -/
def bufferMessage (s : State) (m : Bytes) : State := wake { s with host := { s.host with buf := s.host.buf ++ [m] } }

/-- A link that takes a frame accepts it, and then asks for its message alone (R137, R138). -/
theorem send_of_takesSend {s : State} (h : takesSend s) (f : Bytes) (whole : Bool) :
    ∃ p, send s f whole = (message f whole).elim (answerLinkError (acceptedSend s p)) (bufferMessage (acceptedSend s p)) := by
  obtain ⟨p, hp⟩ : ∃ p, { clocks s f.length 0 false with host := { s.host with out := [] } } = clockedIn s p := by
    obtain ⟨p, hp⟩ := count_perf s 11 0 (2 * f.length + 2 * 0 + 0)
    exact ⟨p, congrArg (fun t : State => { t with host := { s.host with out := [] } }) hp⟩
  obtain ⟨q, hq⟩ : ∃ q, count (clockedIn s p) 11 1 1 = clockedIn s q := count_perf (clockedIn s p) 11 1 1
  obtain ⟨-, hearly, hbuf, hout, -⟩ := takesSend_clockedIn h p
  obtain ⟨-, -, -, -, hidle⟩ := takesSend_acceptedSend h q
  obtain ⟨hopen, -⟩ := h
  refine ⟨q, ?_⟩
  unfold send
  rw [if_neg (by simp [hopen]), hp, if_neg (ne_true_of_eq_false hearly), hq, if_neg (by omega)]
  cases message f whole with
  | none => rfl
  | some m => exact if_neg (ne_true_of_eq_false hidle)

/-- A frame with a message: the message is buffered, and the link answers nothing (R138). -/
theorem send_host_of_message {s : State} (h : takesSend s) {f m : Bytes} {whole : Bool} (hm : message f whole = some m) :
    (send s f whole).host = { s.host with out := [], buf := s.host.buf ++ [m] } := by
  obtain ⟨p, hsend⟩ := send_of_takesSend h f whole
  rw [hsend, hm]
  exact wake_host _

/-- A frame without a message: LINK_ERROR joins the replies and sets its cause bit (R137, R138). -/
theorem send_host_of_message_none {s : State} (h : takesSend s) {f : Bytes} {whole : Bool} (hm : message f whole = none) :
    (send s f whole).host =
      { s.host with out := [], replies := s.host.replies ++ [linkErrorReply], cause := s.host.cause ||| 0x40 } := by
  obtain ⟨p, hsend⟩ := send_of_takesSend h f whole
  rw [hsend, hm]
  rfl

/-- A frame without a message counts one link error, apart from its count as accepted (R137). -/
theorem send_linkErrors {s : State} (h : takesSend s) {f : Bytes} {whole : Bool} (hm : message f whole = none) :
    SMap.look (send s f whole).hw (objKey 0x1020 2) = some (sat32 (SMap.at' s.hw (objKey 0x1020 2) (num s 0x1020 2)) 1) := by
  obtain ⟨p, hsend⟩ := send_of_takesSend h f whole
  have hhw : (send s f whole).hw = SMap.upd (acceptedSend s p).hw (objKey 0x1020 2) (num s 0x1020 2) fun x => sat32 x 1 := by
    rw [hsend, hm]
    rfl
  have hold : SMap.at' (acceptedSend s p).hw (objKey 0x1020 2) (num s 0x1020 2) = SMap.at' s.hw (objKey 0x1020 2) (num s 0x1020 2) :=
    (SMap.at_put _ _ _ _ _).trans (if_neg (by decide))
  rw [hhw, SMap.upd, SMap.look_put_same, hold]

end Hl

/-- The command changes the link and the hardware's statistics as the controller does. -/
theorem exec_send (f : Bytes) (whole : Bool) (s : State) :
    ∃ t, exec (.send f whole) s = .next t ∧ t.host = (Hl.send s f whole).host ∧ t.hw = (Hl.send s f whole).hw := ⟨_, rfl, rfl, rfl⟩

/-- Settles O5: a frame carries a message exactly where it is a wire form within the limits, and a link that takes the frame acts on that
message alone. -/
theorem sendFramesFollowTheirLayout : Obligations.send_frames_follow_their_layout := by
  unfold Obligations.send_frames_follow_their_layout
  refine ⟨fun s m h hmin hmax => ?_, fun s f whole h hnot => ?_⟩
  · obtain ⟨t, hexec, hhost, -⟩ := exec_send (sendWire m) true s
    rw [Hl.send_host_of_message h (Hl.message_sendWire hmin hmax)] at hhost
    exact ⟨t, hexec, by rw [hhost], by rw [hhost], by rw [hhost]⟩
  · have hm : Hl.message f whole = none :=
      Option.eq_none_iff_forall_ne_some.mpr fun m hm => hnot ⟨m, Hl.eq_sendWire_of_message hm⟩
    obtain ⟨t, hexec, hhost, hhw⟩ := exec_send f whole s
    rw [Hl.send_host_of_message_none h hm] at hhost
    exact ⟨t, hexec, by rw [hhost], by rw [hhost], by rw [hhost]; exact bit_or_two_pow _ 6, hhw ▸ Hl.send_linkErrors h hm⟩

end Sys2Proof.Machine
end

section
/-! SUPPORT. What a bump of one node (R335), and a cell that leaves the pair (R433), change of the state. -/

namespace Sys2Proof.Machine

/-- State t is s but for the values of objects. -/
def ObjectsOnly (s t : State) : Prop := ∃ d p l, t = { s with dict := d, pers := { s.pers with dict := p, dlog := l } }

theorem ObjectsOnly.refl (s : State) : ObjectsOnly s s := ⟨_, _, _, rfl⟩

theorem ObjectsOnly.setObj {s t : State} (h : ObjectsOnly s t) (i k : Nat) (v : Val) : ObjectsOnly s (setObj t i k v) := by
  obtain ⟨d, p, l, rfl⟩ := h
  obtain ⟨d', p', l', e⟩ := setObj_dict { s with dict := d, pers := { s.pers with dict := p, dlog := l } } i k v
  exact ⟨d', p', l', e⟩

theorem ObjectsOnly.setNum {s t : State} (h : ObjectsOnly s t) (i k n : Nat) : ObjectsOnly s (setNum t i k n) := h.setObj i k (.num n)

theorem ObjectsOnly.setOct {s t : State} (h : ObjectsOnly s t) (i k : Nat) (b : Bytes) : ObjectsOnly s (setOct t i k b) := h.setObj i k (.oct b)

/-- The channels that a bump orphans change in their State objects alone (R236). -/
theorem objectsOnly_orphans {s t : State} (h : ObjectsOnly s t) (p : Nat × Nat → Bool) (l : List (Nat × Nat)) :
    ObjectsOnly s (l.foldl (fun t x => if p x = true ∧ chanState t x.1 ≠ 0 then setC t x.1 1 Ch.orphaned else t) t) := by
  induction l generalizing t with
  | nil => exact h
  | cons x l ih =>
    refine ih ?_
    dsimp only
    split
    · exact h.setNum _ _ _
    · exact h

/-- The consequences of a bump: objects, streams, sessions, secrets, the key cache and the internal queue. -/
theorem afterBump_cases (s : State) (xs : List Nat) : ∃ u st se sc ca q, ObjectsOnly s u ∧
    afterBump s xs = { u with streams := st, sessions := se, secrets := sc, cache := ca, internal := q } :=
  ⟨_, _, _, _, _, _, objectsOnly_orphans (.refl s) (fun x => xs.any fun y => below s y (x.2 % 0x10000)) (keyedChans s), rfl⟩

/-- A bump of a node that does not take the pair secret with it raises that node's epoch, with the consequences of R335. -/
theorem bumpNodes_one (s : State) {n : Nat} (h : n ≠ 4) : ∃ u st se sc ca q b e f, ObjectsOnly s u ∧
    bumpNodes s [n] =
      { u with
        streams := st, sessions := se, secrets := sc, cache := ca, internal := q, perf := f
        pers := { u.pers with epochs := SMap.put s.pers.epochs n (epochOf s n + 1), badCopies := b, badEpochs := e } } := by
  have hc : ¬([n].contains 4 = true ∧ s.pers.pair.isSome = true) := by simp [Ne.symm h]
  have hw : withPair s [n] = [n] := if_neg hc
  have hl : ∀ t, losePair t [n] = t := fun t => if_neg (by simp [Ne.symm h])
  obtain ⟨u, st, se, sc, ca, q, hu, ha⟩ := afterBump_cases s [n]
  obtain ⟨d, p, l, rfl⟩ := hu
  unfold bumpNodes
  rw [hw, hl, ha]
  unfold raiseEpochs
  obtain ⟨f, hf⟩ := count_perf _ 8 0 [n].length
  rw [hf]
  exact ⟨_, st, se, sc, ca, q, _, _, f, ⟨d, p, l, rfl⟩, rfl⟩

/-- A free pair may take a cell; the cells stand (R429). -/
theorem dispatch_cases (s : State) : ∃ c l y f, dispatch s = { s with twc := { s.twc with current := c, last := l, cycles := y }, perf := f } := by
  unfold dispatch
  split
  · exact ⟨_, _, _, _, rfl⟩
  · split
    · exact ⟨_, _, _, _, rfl⟩
    · rename_i c _
      obtain ⟨f, hf⟩ := count_perf (updTwc s fun t => { t with current := some c, last := c, cycles := 0 }) 2 3 1
      exact ⟨_, _, _, f, hf⟩

theorem leavePair_cases (s : State) (c : Nat) :
    ∃ o l y f, leavePair s c = { s with twc := { s.twc with current := o, last := l, cycles := y }, perf := f } := by
  unfold leavePair
  split
  · exact dispatch_cases (updTwc s fun t => { t with current := none })
  · exact dispatch_cases s

/-- A cell that leaves loses its context, and what it had out with the engines and the releases (R433). -/
theorem leaveCell_cases (s : State) (c : Nat) : ∃ st pl sc sl o l y f, leaveCell s c =
    { s with
      streams := st, ples := pl, secrets := sc, slots := sl, perf := f
      twc := { s.twc with cells := SMap.del s.twc.cells c, current := o, last := l, cycles := y } } := by
  obtain ⟨o, l, y, f, h⟩ := leavePair_cases (updTwc (stripCell s c) fun t => { t with cells := SMap.del t.cells c }) c
  exact ⟨_, _, _, _, o, l, y, f, h⟩

end Sys2Proof.Machine
end

section
/-! SUPPORT. What Remove leaves (R440): the root bumped, no node below it, and the cell EMPTY. -/

namespace Sys2Proof.Machine

theorem SMap.ne_of_mem_del {α : Type} {m : SMap α} {q : Nat} {p : Nat × α} (h : p ∈ SMap.del m q) : p.1 ≠ q := by
  induction m with
  | nil => simp [SMap.del] at h
  | cons x m ih =>
    obtain ⟨k, w⟩ := x
    unfold SMap.del at h
    split at h
    · exact ih h
    · rcases List.mem_cons.mp h with e | e
      · exact e ▸ ‹k ≠ q›
      · exact ih e

/-- The objects of a cell that say what applet it holds, as an EMPTY cell reads them (R441). -/
def emptyObjects : List (Nat × Val) :=
  [(1, .num 0), (2, .oct (zeros 16)), (3, .num 0), (4, .oct (zeros 32)), (5, .num 0), (6, .num 0), (15, .oct (zeros 32))]

/-- A write to an object of a cell, seen from the objects of that cell. -/
theorem getObj_setObj_cell (s : State) {c k k' : Nat} (v : Val) (hc : c < 32) (hk : k < 256) (hk' : k' < 256)
    (hd : (SMap.look Dict.tCell k).isSome = true) :
    getObj (setObj s (0xD000 + c) k v) (0xD000 + c) k' = if k' = k then v else getObj s (0xD000 + c) k' := by
  rw [getObj_setObj s v hk hk', find_cell hc]
  simp [hd]

theorem getObj_emptyCell (s : State) {c : Nat} (hc : c < 32) : ∀ p ∈ emptyObjects, getObj (emptyCell s c) (0xD000 + c) p.1 = p.2 := by
  simp [emptyObjects, emptyCell, setCellState, setHeader, setNum, setOct, getObj_setObj_cell, hc, SMap.look, Dict.tCell]

/-- Emptying a cell changes objects, and the applet in its store slot. -/
theorem emptyCell_cases (s : State) (c : Nat) :
    ObjectsOnly { s with pers := { s.pers with applets := SMap.del s.pers.applets c } } (emptyCell s c) := by
  unfold emptyCell setHeader setCellState
  dsimp only
  rw [if_neg (by decide)]
  exact ((((((((ObjectsOnly.refl _).setOct _ _ _).setNum _ _ _).setOct _ _ _).setNum _ _ _).setNum _ _ _).setOct _ _ _).setNum _ _ _).setNum _ _ _

/-- Cell c without its applet in t, as Remove of a unit in state s leaves it (R440). -/
structure Removed (s t : State) (c : Nat) : Prop where
  bumped : (SMap.look s.pers.nodes (rootOf c)).isSome = true → epochOf t (rootOf c) = epochOf s (rootOf c) + 1
  freed : ∀ p ∈ t.pers.nodes, p.2.parent ≠ rootOf c ∧ p.1 ≠ rootOf c
  objects : ∀ p ∈ emptyObjects, getObj t (0xD000 + c) p.1 = p.2
  image : SMap.look t.pers.applets c = none
  cell : SMap.look t.twc.cells c = none

/-- The root of a cell bumped where it is listed, and not spent (R329, R440). -/
theorem bumpRoot_cases {s : State} {c : Nat} (hspent : rootSpent s c = false) : ∃ u st se sc ca q b e f ep, ObjectsOnly s u ∧
    bumpRoot s c =
      { u with
        streams := st, sessions := se, secrets := sc, cache := ca, internal := q, perf := f
        pers := { u.pers with epochs := ep, badCopies := b, badEpochs := e } } ∧
    ((SMap.look s.pers.nodes (rootOf c)).isSome = true → SMap.at' ep (rootOf c) 0 = epochOf s (rootOf c) + 1) := by
  unfold bumpRoot
  by_cases hlist : (SMap.look s.pers.nodes (rootOf c)).isSome = true
  · have hlow : epochOf s (rootOf c) < 0xFFFFFF := by
      unfold rootSpent at hspent
      rw [hlist, Bool.true_and] at hspent
      exact Nat.not_le.mp (of_decide_eq_false hspent)
    obtain ⟨u, st, se, sc, ca, q, b, e, f, hu, hb⟩ := bumpNodes_one s (n := rootOf c) (by unfold rootOf; omega)
    rw [if_pos ⟨hlist, hlow⟩]
    exact ⟨u, st, se, sc, ca, q, b, e, f, _, hu, hb, fun _ => (SMap.at_put _ _ _ _ _).trans (if_pos rfl)⟩
  · rw [if_neg fun h => hlist h.1]
    exact ⟨s, _, _, _, _, _, _, _, _, _, .refl s, rfl, fun h => absurd h hlist⟩

/-- The state in which Remove empties the cell: its context gone, its root bumped, and no node at or below the root. -/
def uprooted (s : State) (c : Nat) : State :=
  let t := freeChildren (bumpRoot (leaveCell s c) c) c
  { t with pers := { t.pers with nodes := SMap.del t.pers.nodes (rootOf c) } }

/-- Remove of a cell that holds an applet, while no Install runs and its root is not spent (R440). -/
theorem removeApplet_eq {s : State} {c : Nat} (hc : c ≤ 31) (hst : num s (0xD000 + c) 1 ≠ 0) (hrun : installRuns s = false)
    (hspent : rootSpent s c = false) : removeApplet s c = (emptyCell (uprooted s c) c, 0) := by
  unfold removeApplet cellState
  rw [if_neg (by omega), if_neg (by simp [hst, hrun]), hspent, if_neg (by simp)]
  rfl

/-- Remove of a cell without an applet, or while an Install runs, does nothing (R440). -/
theorem removeApplet_conflict {s : State} {c : Nat} (hc : c ≤ 31) (h : num s (0xD000 + c) 1 = 0 ∨ installRuns s = true) :
    removeApplet s c = (s, Abt.valueConflict) := by
  unfold removeApplet cellState
  rw [if_neg (by omega), if_pos h]

/-- What uprooting a cell leaves of the sequencer, the nodes, the epochs and the cells. -/
theorem uprooted_cases {s : State} {c : Nat} (hspent : rootSpent s c = false) :
    (∀ s0, Steady s0 s → Steady s0 (uprooted s c)) ∧
    ((SMap.look s.pers.nodes (rootOf c)).isSome = true → epochOf (uprooted s c) (rootOf c) = epochOf s (rootOf c) + 1) ∧
    (uprooted s c).pers.nodes = SMap.del (s.pers.nodes.filter fun p => decide (p.2.parent ≠ rootOf c)) (rootOf c) ∧
    (uprooted s c).twc.cells = SMap.del s.twc.cells c := by
  obtain ⟨st, pl, sc, sl, o, l, y, f, hleave⟩ := leaveCell_cases s c
  have hspent' : rootSpent (leaveCell s c) c = false := by rw [hleave]; exact hspent
  obtain ⟨u, st', se, sc', ca, q, b, e, f', ep, ⟨d, p, l', hu⟩, hbump, hep⟩ := bumpRoot_cases hspent'
  unfold uprooted freeChildren
  rw [hbump, hu]
  rw [hleave] at hep ⊢
  exact ⟨fun s0 h => ⟨h.adm, h.time, h.first, h.queue, h.fuses⟩, hep, rfl, rfl⟩

/-- The emptied cell of an uprooted state is one that Remove left (R440). -/
theorem removed_uprooted {s : State} {c : Nat} (hc : c ≤ 31) (hspent : rootSpent s c = false) : Removed s (emptyCell (uprooted s c) c) c := by
  obtain ⟨-, hepoch, hnodes, hcells⟩ := uprooted_cases hspent
  have hobjs := getObj_emptyCell (uprooted s c) (c := c) (by omega)
  obtain ⟨d, p, l, he⟩ := emptyCell_cases (uprooted s c) c
  rw [he] at hobjs ⊢
  refine ⟨hepoch, ?_, hobjs, ?_, ?_⟩
  · intro x hx
    have hx : x ∈ (uprooted s c).pers.nodes := hx
    rw [hnodes] at hx
    exact ⟨of_decide_eq_true (List.mem_filter.mp (SMap.mem_del hx)).2, SMap.ne_of_mem_del hx⟩
  · exact (SMap.look_del _ _ _).trans (if_pos rfl)
  · show SMap.look (uprooted s c).twc.cells c = none
    rw [hcells]
    exact (SMap.look_del _ _ _).trans (if_pos rfl)

/-- Remove keeps what the end of an admission rests on. -/
theorem steady_emptied {s s0 : State} {c : Nat} (hspent : rootSpent s c = false) (h : Steady s0 s) :
    Steady s0 (emptyCell (uprooted s c) c) := by
  obtain ⟨hsteady, -⟩ := uprooted_cases hspent
  obtain ⟨d, p, l, he⟩ := emptyCell_cases (uprooted s c) c
  have hu := hsteady s0 h
  rw [he]
  exact ⟨hu.adm, hu.time, hu.first, hu.queue, hu.fuses⟩

/-- A Remove stays done through the write of its object and the end of the admission. -/
theorem Removed.settled {s a t : State} {c i k : Nat} {v : Val} {y : Slot} (h : Removed s a c) (hc : c < 32) (hk : k < 256)
    (hi : i < 0xD000 ∨ 0xD020 ≤ i) (ht : Settled (pushSlot (setObj a i k v) y) t) : Removed s t c := by
  obtain ⟨d, p, l, he⟩ := setObj_dict a i k v
  have hrest := ht.rest
  rw [he] at hrest
  have hepochs : t.pers.epochs = a.pers.epochs := congrArg (fun x => x.pers.epochs) hrest
  have hnodes : t.pers.nodes = a.pers.nodes := congrArg (fun x => x.pers.nodes) hrest
  have happlets : t.pers.applets = a.pers.applets := congrArg (fun x => x.pers.applets) hrest
  have hcells : t.twc.cells = a.twc.cells := congrArg (fun x => x.twc.cells) hrest
  refine ⟨?_, hnodes ▸ h.freed, ?_, happlets ▸ h.image, hcells ▸ h.cell⟩
  · unfold epochOf
    rw [hepochs]
    exact h.bumped
  · intro x hx
    have hsub : x.1 < 256 := (by decide : ∀ x ∈ emptyObjects, x.1 < 256) x hx
    have hbook : bookkeeping (0xD000 + c) x.1 = false := by
      simp [bookkeeping]
      omega
    rw [settled_getObj ht hk hsub hbook, if_neg (by omega)]
    exact h.objects x hx

end Sys2Proof.Machine
end

section
/-! SUPPORT. The command that removes an applet (R440): its write of 0xD100.04, done or refused. -/

namespace Sys2Proof.Machine

/-- Remove as the dictionary describes it (R437). -/
def removeDesc : Desc := ⟨.u8, 1, .rwx, .owner, false, false, .num 0⟩

theorem find_remove : Dict.find 0xD100 4 = (true, some removeDesc) := rfl

/-- The write of a cell's number to Remove is the Remove of that cell (R440). -/
theorem writeValue_remove (u : State) (c : Ctx) (cell : Byte) (p : Phys) :
    writeValue u c 0xD100 4 removeDesc [cell] p = Eff.of Lat.write (removeApplet u cell.toNat) := rfl

theorem installRuns_admittedIn (s : State) (r : Rq) (tr : Trailer) : installRuns (admittedIn s r tr) = installRuns s := by
  obtain ⟨hh, b, n, f, e⟩ := admittedIn_cases s r tr
  rw [e]
  rfl

theorem rootSpent_admittedIn (s : State) (r : Rq) (tr : Trailer) (c : Nat) : rootSpent (admittedIn s r tr) c = rootSpent s c := by
  obtain ⟨hh, b, n, f, e⟩ := admittedIn_cases s r tr
  rw [e]
  rfl

/-- A Remove in an admission counts from the state before it. -/
theorem Removed.of_admitted {s t : State} {r : Rq} {tr : Trailer} {c : Nat} (h : Removed (admittedIn s r tr) t c) : Removed s t c := by
  obtain ⟨hh, b, n, f, e⟩ := admittedIn_cases s r tr
  rw [e] at h
  exact ⟨h.bumped, h.freed, h.objects, h.image, h.cell⟩

/-- A client's refused write of a value leaves the whole state of its admission, and not its objects alone, but for bookkeeping and
its response. -/
theorem client_refused {s : State} {h : Hdr} {tr : Trailer} {z : Session} {i k : Nat} {v : Bytes} {d : Desc} {lat code : Nat} {c : Instr}
    (hexec : exec c s = coreCmd (fun s => request s (rqWrite h i k v)) s) (hcl : Client s (rqWrite h i k v) tr z d.role)
    (hf : Dict.find i k = (true, some d)) (hl : d.ty ≠ .domain ∧ d.ty ≠ .label ∧ v.length = d.size ∧ d.size ≤ 24)
    (hchk : objectChecks (admittedIn s (rqWrite h i k v) tr) (callerOf (rqWrite h i k v) tr z) true i k d (some (some v)) = 0)
    (hw : performWrite (admittedIn s (rqWrite h i k v) tr) (callerOf (rqWrite h i k v) tr z) i k d v .ok =
      Eff.fail (admittedIn s (rqWrite h i k v) tr) lat code)
    (hc : code ≠ Abt.compareFault ∧ code ≠ Abt.resultCheck) :
    ∃ t y, exec c s = .next t ∧ Admitted s t (rqWrite h i k v) (some z) lat code [] [] ∧
      Settled (pushSlot (admittedIn s (rqWrite h i k v) tr) y) t := by
  have hst := steady_admitted s (rqWrite h i k v) tr
  have hserv := (service_rqWrite hcl.authentic.sound hf hl hchk).trans (congrArg ReadOut.out hw)
  have hsvc : (rqWrite h i k v).svc = 2 := rfl
  obtain ⟨y, hset, hans⟩ := authentic_admits hcl.ready hcl.authentic rfl (.inr (by simp [hsvc])) (recordedRead_write (by simp [hsvc]))
    hcl.unrecorded hserv (by simp [keptOut, hsvc]) hc hst.adm hst.time hst.first
  exact ⟨_, y, hexec.trans (coreCmd_settled rfl hset hst), hans, hset⟩

section
variable {s : State} {h : Hdr} {cell : Byte} {tr : Trailer} {z : Session}

/-- The request that Remove of a cell sends. -/
abbrev removeRq (h : Hdr) (cell : Byte) : Rq := rqWrite h 0xD100 4 [cell]

theorem lifecycle_admittedIn_open (ho : Open s) (r : Rq) : lifecycle (admittedIn s r tr) = 0x5A := by
  unfold lifecycle
  rw [admittedIn_otp, ho.kept, ho.life]
  rfl

/-- Check 6 of Remove passes in the field (R437). -/
theorem lifecycleCheck_remove (ho : Open s) (r : Rq) : lifecycleCheck (admittedIn s r tr) true 0xD100 4 = 0 := by
  unfold lifecycleCheck
  rw [lifecycle_admittedIn_open ho r]
  rfl

/-- An owner's Remove of a cell that holds an applet is done in its admission (R440). -/
theorem appletRemove_completes (ho : Open s) (hcl : Client s (removeRq h cell) tr z .owner) (hcell : cell.toNat ≤ 31)
    (hst : num s (0xD000 + cell.toNat) 1 ≠ 0) (hrun : installRuns s = false) (hspent : rootSpent s cell.toNat = false) :
    Completes (.appletRemove h cell) s (removeRq h cell) z 10 [] fun t => Removed s t cell.toNat := by
  have hspent' : rootSpent (admittedIn s (removeRq h cell) tr) cell.toNat = false := by rw [rootSpent_admittedIn, hspent]
  have hremove := removeApplet_eq hcell (by rw [num_admittedIn]; exact hst) (by rw [installRuns_admittedIn, hrun]) hspent'
  exact client_completes (d := removeDesc)
    (e0 := Eff.ok (emptyCell (uprooted (admittedIn s (removeRq h cell) tr) cell.toNat) cell.toNat) Lat.write)
    rfl find_remove hcl ho.toRoom ho.single (.inl ho.caldera) ⟨by decide, by decide, rfl, by decide⟩ (by decide) (by simp [removeDesc])
    (lifecycleCheck_remove ho _) rfl rfl (by decide) rfl rfl ((writeValue_remove _ _ _ _).trans (congrArg (Eff.of Lat.write) hremove)) rfl rfl
    (steady_emptied hspent' (steady_admitted _ _ _))
    (fun y t ht => ((removed_uprooted hcell hspent').settled (by omega) (by omega) (by omega) ht).of_admitted) rfl

/-- A Remove of an EMPTY cell, or while an Install runs, is refused and does nothing (R440). -/
theorem appletRemove_conflicts (ho : Open s) (hcl : Client s (removeRq h cell) tr z .owner) (hcell : cell.toNat ≤ 31)
    (hno : num s (0xD000 + cell.toNat) 1 = 0 ∨ installRuns s = true) :
    ∃ t, exec (.appletRemove h cell) s = .next t ∧ Admitted s t (removeRq h cell) (some z) 10 0x03020001 [] [] ∧ OthersStand s t [] ∧
      t.pers.nodes = s.pers.nodes := by
  have hremove := removeApplet_conflict (s := admittedIn s (removeRq h cell) tr) hcell (by rw [num_admittedIn, installRuns_admittedIn]; exact hno)
  have hval : writeValue (admittedIn s (removeRq h cell) tr) (callerOf (removeRq h cell) tr z) 0xD100 4 removeDesc [cell] .ok =
      Eff.fail (admittedIn s (removeRq h cell) tr) Lat.write Abt.valueConflict :=
    (writeValue_remove _ _ cell .ok).trans (congrArg (Eff.of Lat.write) hremove)
  have hperf := performWrite_refused hval (by decide) (by decide) rfl
  obtain ⟨t, y, hexec, hans, hset⟩ := client_refused (c := .appletRemove h cell) rfl hcl find_remove ⟨by decide, by decide, rfl, by decide⟩
    (write_checks hcl.ready hcl.role hcl.person ho.single (.inl ho.caldera) (by decide) (lifecycleCheck_remove ho _) rfl rfl (by decide)) hperf
    (by decide)
  refine ⟨t, hexec, hans, ?_, ?_⟩
  · intro i k hk hb _
    rw [hset.objects i k hk hb, getObj_pushSlot, getObj_admittedIn]
  · obtain ⟨hh, b, n, f, e⟩ := admittedIn_cases s (removeRq h cell) tr
    rw [e] at hset
    exact congrArg (fun x => x.pers.nodes) hset.rest

end

/-- Settles O28: past its checks the write of Remove is the model's Remove, whose parts (the cell leaves, its root is bumped, nodes go, its
objects are emptied) give each clause; a conflict stops it before any of them. -/
theorem removeEmptiesTheCell : Obligations.remove_empties_the_cell := by
  unfold Obligations.remove_empties_the_cell
  rintro s h cell tr z q rfl ho hcl hcell
  refine ⟨fun hst hrun hspent => ?_, fun hno => appletRemove_conflicts ho hcl hcell hno⟩
  obtain ⟨t, hexec, hans, hrem⟩ := appletRemove_completes ho hcl hcell hst hrun hspent
  have hnum : ∀ k n, (k, Val.num n) ∈ emptyObjects → num t (0xD000 + cell.toNat) k = n := fun k n hx => congrArg Val.toNat (hrem.objects _ hx)
  have hoct : ∀ k b, (k, Val.oct b) ∈ emptyObjects → oct t (0xD000 + cell.toNat) k = b := fun k b hx => congrArg Val.toBytes (hrem.objects _ hx)
  exact ⟨t, hexec, hans, hrem.bumped, hrem.freed, hoct 2 _ (by decide), hnum 3 _ (by decide), hoct 4 _ (by decide), hnum 5 _ (by decide),
    hnum 6 _ (by decide), hoct 15 _ (by decide), hnum 1 _ (by decide), hrem.image, hrem.cell⟩

end Sys2Proof.Machine
end

section
/-! SUPPORT. How a command runs, the queue, the fuses, and reset. -/

namespace Sys2Proof.Machine

/-- No command adds to the queue or takes from it. -/
theorem exec_pending (i : Instr) (s t : State) (h : exec i s = .next t) : t.pending = s.pending := by
  cases i with
  | _ => cases h; rfl

theorem step_pending {s t : State} (h : step s = .next t) : t.pending = s.pending.tail := by
  unfold step at h
  cases hq : s.pending with
  | nil => rw [hq] at h; cases h; rw [hq]; rfl
  | cons c rest => rw [hq] at h; exact exec_pending c _ t h

/-- Where each step of a machine takes the front of a queue, a run of n steps takes the first n entries. -/
theorem run_drops {M : Host.Core} {α : Type} (q : M.State → List α) (hq : ∀ s t, M.step s = .next t → q t = (q s).tail) (n : Nat)
    (s t : M.State) (h : M.run n s = .next t) : q t = (q s).drop n := by
  induction n generalizing s with
  | zero => cases h; rfl
  | succ n ih =>
    unfold Host.Core.run at h
    split at h
    next u hu => rw [ih u h, hq s u hu, List.drop_tail]
    next => cases h
    next => cases h

/-- The lifecycle code after a burn is the old one, or OPERATIONAL over PERSONALISED (R354). -/
theorem Otp.burn_lifecycle (o f : Otp) :
    (Otp.burn o f).lifecycle = o.lifecycle ∨ (o.lifecycle = 0xA5 ∧ (Otp.burn o f).lifecycle = 0x5A) := by
  unfold Otp.burn
  dsimp only
  split
  · rename_i h; exact .inr ⟨h.1, rfl⟩
  · exact .inl rfl

/-- Nothing is stored at reset, so an object reads as its default (R98, R100). -/
theorem getObj_reset {i k : Nat} {d : Desc} (h : (Dict.find i k).2 = some d) : getObj State.reset i k = dfltOf i k d := by
  have hd : State.reset.dict = [] := rfl
  have hp : State.reset.pers.dict = [] := rfl
  unfold getObj
  rw [h, hd, hp]
  simp [SMap.at']


/-- Settles O1: both clauses are the step's definition on a queue that is not empty, and on one that is. -/
theorem stepRunsFrontCommand : Obligations.step_runs_front_command := by
  unfold Obligations.step_runs_front_command
  refine ⟨fun c rest s => rfl, fun s h => ?_⟩
  unfold Machine.step
  rw [h]

/-- Settles O2: the fields of the state at reset, and an empty store. -/
theorem resetStateAsGiven : Obligations.reset_state_as_given := by
  unfold Obligations.reset_state_as_given
  exact ⟨⟨rfl, rfl, rfl, rfl, rfl, rfl, rfl, rfl, rfl, rfl, rfl, rfl, rfl, rfl, rfl, rfl, rfl, rfl, rfl, rfl, rfl, rfl, rfl, rfl, rfl, rfl, rfl,
    rfl⟩, fun _ _ _ h => getObj_reset h⟩

/-- Settles O3: every command answers with the queue that it was run with, and the step has taken the front. -/
theorem queueIsConsumedInOrder : Obligations.queue_is_consumed_in_order := by
  unfold Obligations.queue_is_consumed_in_order
  exact ⟨fun _ _ h => step_pending h, run_drops (M := Sys2Proof.core) State.pending fun _ _ h => step_pending h⟩

/-- Settles O4: whatever the command, the fuses after a step are those before it with some of them burnt. -/
theorem fusesAreOneWay : Obligations.fuses_are_one_way := by
  unfold Obligations.fuses_are_one_way
  intro s t h
  obtain ⟨f, hf⟩ := step_burnsOnly s t h
  refine ⟨step_floor h, fun hr => ?_, ?_⟩
  · rw [hf]
    simp [Otp.burn, hr]
  · rw [hf]
    exact Otp.burn_lifecycle _ _

end Sys2Proof.Machine
end

section
/-! SUPPORT. What an instruction of a cell does (R421 to R434): what a retirement leaves, and where it faults. -/

namespace Sys2Proof.Machine

/-- State u is s but for the performance unit and the random source, whose tillers other than the tagger's stand (R565, R566). -/
structure Tagged (s u : State) : Prop where
  rest : ∃ p r, u = { s with perf := p, rng := r }
  tillers : ∀ t, t ≠ 60 → tillerOf u t = tillerOf s t

theorem Tagged.refl (s : State) : Tagged s s := ⟨⟨_, _, rfl⟩, fun _ _ => rfl⟩

theorem Tagged.trans {a b c : State} (h : Tagged a b) (g : Tagged b c) : Tagged a c := by
  obtain ⟨p, r, rfl⟩ := h.rest
  obtain ⟨p', r', rfl⟩ := g.rest
  exact ⟨⟨p', r', rfl⟩, fun t ht => (g.tillers t ht).trans (h.tillers t ht)⟩

theorem Tagged.perf {s u : State} (h : Tagged s u) (p : Perf) : Tagged s { u with perf := p } := by
  obtain ⟨q, r, rfl⟩ := h.rest
  exact ⟨⟨p, r, rfl⟩, h.tillers⟩

theorem tagged_count (s : State) (b i n : Nat) : Tagged s (count s b i n) := by
  obtain ⟨p, h⟩ := count_perf s b i n
  rw [h]
  exact (Tagged.refl s).perf p

/-- A tiller after another is set. -/
theorem tillerOf_setTiller (s : State) (t k : Nat) (x : Tiller) : tillerOf (setTiller s t x) k = if k = t then x else tillerOf s k :=
  SMap.at_store _ _ _ _ _

theorem takeBuffer_some {s u : State} {t n : Nat} {b : Bytes} (h : takeBuffer s t n = some (b, u)) :
    n ≤ (tillerOf s t).buf.length ∧ b = (tillerOf s t).buf.take n ∧ u = setTiller s t { tillerOf s t with buf := (tillerOf s t).buf.drop n } := by
  unfold takeBuffer at h
  dsimp only at h
  split at h
  · cases h
  · cases h
    exact ⟨by omega, rfl, rfl⟩

theorem takeBuffer_none {s : State} {t n : Nat} : takeBuffer s t n = none ↔ (tillerOf s t).buf.length < n := by
  unfold takeBuffer
  dsimp only
  split <;> simp_all

/-- The tagger's interval takes bytes of its own tiller alone. -/
theorem tagged_interval {s u : State} {e n f : Nat} (h : Prf.interval s e f = some (n, u)) : Tagged s u := by
  induction f generalizing s with
  | zero => cases h
  | succ f ih =>
    unfold Prf.interval at h
    split at h
    · cases h
    · rename_i b s1 hb
      have h1 : Tagged s s1 := by
        split at hb
        · cases hb
        · obtain ⟨-, -, rfl⟩ := takeBuffer_some hb
          exact ⟨⟨_, _, rfl⟩, fun t ht => by rw [tillerOf_setTiller, if_neg ht]⟩
      dsimp only at h
      split at h
      · exact h1.trans (ih h)
      · cases h
        exact h1

theorem tagged_arm (s : State) : Tagged s (Prf.arm s) := by
  unfold Prf.arm
  split
  · rename_i h
    exact (tagged_interval h).perf _
  · exact (Tagged.refl s).perf _

theorem tagged_tag (s : State) (c pc insn flags cyc : Nat) : Tagged s (Prf.tag s c pc insn flags cyc) :=
  ((Tagged.refl s).perf _).trans (tagged_arm _)

theorem tagged_retire (s : State) (c pc insn flags cyc : Nat) : Tagged s (Prf.retire s c pc insn flags cyc) := by
  have harm : Tagged s (if s.perf.stuck = true then Prf.arm s else s) := by
    split
    · exact tagged_arm s
    · exact Tagged.refl s
  unfold Prf.retire
  dsimp only
  generalize (if s.perf.stuck = true then Prf.arm s else s) = u at harm ⊢
  split
  · exact Tagged.refl s
  · split
    · exact harm
    · split
      · exact harm.perf _
      · exact harm.trans (tagged_tag _ _ _ _ _ _)

theorem tagged_faulted (s : State) (c pc insn cyc : Nat) : Tagged s (Prf.faulted s c pc insn cyc) := by
  unfold Prf.faulted
  split
  · exact tagged_tag _ _ _ _ _ _
  · exact Tagged.refl s

/-- A retirement changes its cell, the cycles of the quantum, the counts and the tag. -/
theorem tagged_retired (s : State) (c lat pc insn : Nat) (ecall : Bool) (y : Cell) :
    Tagged (updTwc s fun t => { t with
      cells := SMap.put t.cells c { y with retired := y.retired + 1, stalled := none }, cycles := s.twc.cycles + lat })
      (retired s c lat pc insn ecall y) :=
  ((tagged_count _ 2 0 lat).trans (tagged_count _ 2 1 1)).trans (tagged_retire _ _ _ _ _ _)

/-- A command whose meaning keeps the queue and the fuses answers with it as it is. -/
theorem coreCmd_next {f : State → State} {s t : State} (hf : f s = t) (hq : t.pending = s.pending) (ho : t.otp = s.otp) :
    coreCmd f s = .next t := by
  unfold coreCmd
  rw [hf, ← hq, ← ho]

/-- An instruction whose command is a step of its cell. -/
def StepsAs (i : Instr) (c : Fin 32) (lat : Nat) (g : State → Cell → RvOut) : Prop := ∀ s, exec i s = coreCmd (fun s => rvStep s c i lat g) s

/-- The command of an instruction that finds it at its cell's pc, and comes to a new cell. -/
theorem rvStep_done {s u : State} {c : Fin 32} {i : Instr} {lat w : Nat} {g : State → Cell → RvOut} {x y : Cell} (hrun : running s c = some x)
    (hf : fetch x = some w) (hd : Rv.decode c w = .insn i) (hg : g s x = .done u y) :
    rvStep s c i lat g = retired u c.val lat x.pc.toNat w false y := by
  unfold rvStep
  rw [hrun]
  dsimp only
  rw [hf]
  dsimp only
  rw [hd, hg]
  simp

theorem rvStep_trap {s : State} {c : Fin 32} {i : Instr} {lat w cause : Nat} {g : State → Cell → RvOut} {x : Cell} (hrun : running s c = some x)
    (hf : fetch x = some w) (hd : Rv.decode c w = .insn i) (hg : g s x = .trap cause) :
    rvStep s c i lat g = faultCell (Prf.faulted s c.val x.pc.toNat w s.twc.cycles) c.val cause x.pc := by
  unfold rvStep
  rw [hrun]
  dsimp only
  rw [hf]
  dsimp only
  rw [hd, hg]
  simp

theorem rvStep_stall {s : State} {c : Fin 32} {i : Instr} {lat w : Nat} {g : State → Cell → RvOut} {x : Cell} (hrun : running s c = some x)
    (hf : fetch x = some w) (hd : Rv.decode c w = .insn i) (hg : g s x = .stall) :
    rvStep s c i lat g = setCell s c.val { x with stalled := some (x.stalled.getD s.seq.time) } := by
  unfold rvStep
  rw [hrun]
  dsimp only
  rw [hf]
  dsimp only
  rw [hd, hg]
  simp

/-- An instruction that comes to the cell f makes retires so, where f leaves the instruction count. -/
theorem retires_of {i : Instr} {c : Fin 32} {lat : Nat} {ok : Cell → Prop} {f : State → Cell → Cell} {g : State → Cell → RvOut}
    (hexec : StepsAs i c lat g) (hg : ∀ s x, ok x → g s x = .done s (f s x)) (hn : ∀ s x, (f s x).retired = x.retired) : Retires i c lat ok f := by
  intro s x w hrun hf hd hok
  obtain ⟨p, r, hr⟩ := (tagged_retired s c.val lat x.pc.toNat w false (f s x)).rest
  have hstep := (rvStep_done hrun hf hd (hg s x hok)).trans hr
  refine ⟨_, (hexec s).trans (coreCmd_next hstep rfl rfl), ?_, fun k hk => SMap.look_put_other _ _ hk, rfl, rfl, rfl, rfl, rfl, rfl, rfl, rfl, rfl⟩
  show SMap.look (SMap.put s.twc.cells c.val _) c.val = _
  rw [SMap.look_put_same, hn]

theorem setReg_retired (x : Cell) (r : Fin 32) (v : Word) : (setReg x r v).retired = x.retired := by
  unfold setReg
  split <;> rfl

@[simp] theorem setReg_zero (x : Cell) (v : Word) : setReg x 0 v = x := rfl

/-- Writing a register result v' that is v. -/
theorem sets_of {i : Instr} {c rd : Fin 32} {n lat : Nat} {v v' : Cell → Word} (hexec : StepsAs i c lat (rvSet n rd v')) (hv : ∀ x, v' x = v x) :
    Sets i c n lat rd v :=
  retires_of hexec (fun s x _ => by unfold rvSet; rw [hv]; rfl) fun _ x => setReg_retired x rd _

/-- A jump sets its link and goes to its target. -/
theorem jumps_of_jump {i : Instr} {c rd : Fin 32} {n : Nat} {v pc target : Cell → Word} (hexec : StepsAs i c 2 (rvJump n rd target))
    (hv : ∀ x, pcNext x n = v x) (hp : ∀ x, target x = pc x) : Jumps i c rd v pc :=
  retires_of hexec (fun s x _ => by unfold rvJump; rw [hv, hp]) fun _ x => setReg_retired x rd _

/-- A jump that discards its link. -/
theorem jumps_unlinked {i : Instr} {c : Fin 32} {n : Nat} {v pc target : Cell → Word} (hexec : StepsAs i c 2 (rvJump n 0 target))
    (hp : ∀ x, target x = pc x) : Jumps i c 0 v pc :=
  retires_of hexec (fun s x _ => by unfold rvJump; rw [hp]; rfl) fun _ x => setReg_retired x 0 _

/-- A branch goes to its target where it is taken. -/
theorem jumps_of_branch {i : Instr} {c : Fin 32} {n : Nat} {v pc : Cell → Word} {taken : Cell → Bool} {off : Word}
    (hexec : StepsAs i c 2 (rvBranch n taken off)) (hp : ∀ x, (if taken x then x.pc + off else pcNext x n) = pc x) : Jumps i c 0 v pc :=
  retires_of hexec (fun s x _ => by unfold rvBranch; rw [hp]; rfl) fun _ x => setReg_retired x 0 _

theorem storeBytes_retired (x : Cell) (a : Nat) (b : Bytes) : (storeBytes x a b).retired = x.retired := rfl

theorem stores_of {i : Instr} {c rs2 : Fin 32} {n k : Nat} {addr addr' : Cell → Word} (hexec : StepsAs i c 1 (rvStore n rs2 addr' k))
    (ha : ∀ x, addr' x = addr x) : Stores i c n k addr rs2 := by
  refine retires_of hexec (fun s x hok => ?_) fun _ x => rfl
  obtain ⟨hal, hlo, hhi⟩ := hok
  unfold rvStore
  rw [ha]
  dsimp only
  rw [if_neg (by omega), if_pos (by unfold inData memTop; simp; omega)]
  rfl

theorem loads_of {i : Instr} {c rd : Fin 32} {n k : Nat} {addr addr' : Cell → Word} {v : Bytes → Word} {ext : Nat → Word}
    (hexec : StepsAs i c 2 (rvLoad n c rd addr' k ext)) (ha : ∀ x, addr' x = addr x) (hv : ∀ x a, ext (leNat (loadBytes x a k)) = v (loadBytes x a k)) :
    Loads i c n k addr rd v := by
  refine retires_of hexec (fun s x hok => ?_) fun _ x => setReg_retired x rd _
  obtain ⟨hal, hhi⟩ := hok
  unfold rvLoad
  rw [ha]
  dsimp only
  rw [if_neg (by omega), if_pos (by unfold inMemory memTop; simp; omega), hv]
  rfl

end Sys2Proof.Machine
end

section
/-! SUPPORT. The arithmetic of RV32I and M as bit vectors (R424, R425). -/

namespace Sys2Proof.Machine

theorem reg_zero (x : Cell) : reg x 0 = 0 := rfl

theorem reg_setReg_same (x : Cell) {r : Fin 32} (v : Word) (h : r ≠ 0) : reg (setReg x r v) r = v := by
  unfold reg setReg
  rw [if_neg h, if_neg h]
  exact (SMap.at_store _ _ _ _ _).trans (if_pos rfl)

theorem reg_setReg_other (x : Cell) {r q : Fin 32} (v : Word) (h : q ≠ r) : reg (setReg x r v) q = reg x q := by
  unfold reg setReg
  by_cases hr : r = 0
  · rw [if_pos hr]
  · rw [if_neg hr]
    split
    · rfl
    · exact (SMap.at_store _ _ _ _ _).trans (if_neg fun e => h (Fin.ext e))

theorem upper_immediate (u : BitVec 20) : zext u <<< 12 = u ++ 0#12 := by
  apply BitVec.eq_of_toNat_eq
  have hu := u.isLt
  show _ = (u ++ 0#12 : BitVec (20 + 12)).toNat
  rw [BitVec.toNat_append]
  simp [zext, Nat.shiftLeft_eq]
  omega

theorem compressed_upper_immediate (i : BitVec 6) : sext i <<< 12 = i.signExtend 20 ++ 0#12 := by
  rw [← upper_immediate]
  apply BitVec.eq_of_getLsbD_eq
  intro k hk
  unfold sext zext
  simp only [BitVec.getLsbD_shiftLeft, BitVec.getLsbD_setWidth, BitVec.getLsbD_signExtend]
  by_cases h : k < 12
  · simp [h]
  · have h1 : k - 12 < 20 := by omega
    have h2 : k - 12 < 32 := by omega
    simp [h, h1, h2]

/-- The shift amount of a register shift is its low five bits. -/
theorem shift_amount (b : Word) : (b.extractLsb' 0 5).toNat = b.toNat % 32 := by simp [BitVec.extractLsb'_toNat]

theorem Alu.sll_eq (a b : Word) : Alu.sll a b = a <<< b.extractLsb' 0 5 := by unfold Alu.sll; rw [BitVec.shiftLeft_eq', shift_amount]
theorem Alu.srl_eq (a b : Word) : Alu.srl a b = a >>> b.extractLsb' 0 5 := by unfold Alu.srl; rw [BitVec.ushiftRight_eq', shift_amount]
theorem Alu.sra_eq (a b : Word) : Alu.sra a b = a.sshiftRight (b.extractLsb' 0 5).toNat := by unfold Alu.sra; rw [shift_amount]

theorem Alu.slt_eq (a b : Word) : Alu.slt a b = if a.toInt < b.toInt then 1 else 0 := by simp [Alu.slt, BitVec.slt]
theorem Alu.sltu_eq (a b : Word) : Alu.sltu a b = if a.toNat < b.toNat then 1 else 0 := by simp [Alu.sltu, BitVec.ult]

/-- The high word of a 64-bit product. -/
theorem high_word {p : BitVec 64} {z : Int} (h : p = BitVec.ofInt 64 z) : p.extractLsb' 32 32 = BitVec.ofInt 32 (z / 4294967296) := by
  subst h
  apply BitVec.eq_of_toNat_eq
  simp [BitVec.extractLsb'_toNat, BitVec.toNat_ofInt, Nat.shiftRight_eq_div_pow]
  omega

theorem signExtend_ofInt (a : Word) : a.signExtend 64 = BitVec.ofInt 64 a.toInt := rfl
theorem setWidth_ofInt (a : Word) : a.setWidth 64 = BitVec.ofInt 64 a.toNat := by
  apply BitVec.eq_of_toNat_eq
  simp

theorem Alu.mulh_eq (a b : Word) : Alu.mulh a b = (a.signExtend 64 * b.signExtend 64).extractLsb' 32 32 :=
  (high_word (by rw [signExtend_ofInt, signExtend_ofInt, BitVec.ofInt_mul])).symm
theorem Alu.mulhsu_eq (a b : Word) : Alu.mulhsu a b = (a.signExtend 64 * b.setWidth 64).extractLsb' 32 32 :=
  (high_word (by rw [signExtend_ofInt, setWidth_ofInt, BitVec.ofInt_mul])).symm
theorem Alu.mulhu_eq (a b : Word) : Alu.mulhu a b = (a.setWidth 64 * b.setWidth 64).extractLsb' 32 32 := by
  rw [high_word (z := a.toNat * b.toNat) (by rw [setWidth_ofInt, setWidth_ofInt, BitVec.ofInt_mul])]
  unfold Alu.mulhu
  apply BitVec.eq_of_toNat_eq
  simp [BitVec.toNat_ofInt]
  omega

theorem Alu.div_eq (a b : Word) : Alu.div a b = if b = 0 then 0xFFFFFFFF
    else if a = 0x80000000 ∧ b = 0xFFFFFFFF then 0x80000000 else BitVec.ofInt 32 (a.toInt.tdiv b.toInt) := by
  unfold Alu.div
  split
  · rfl
  · split
    · rename_i h; obtain ⟨rfl, rfl⟩ := h; rfl
    · rfl
theorem Alu.rem_eq (a b : Word) : Alu.rem a b = if b = 0 then a
    else if a = 0x80000000 ∧ b = 0xFFFFFFFF then 0 else BitVec.ofInt 32 (a.toInt.tmod b.toInt) := by
  unfold Alu.rem
  split
  · rfl
  · split
    · rename_i h; obtain ⟨rfl, rfl⟩ := h; rfl
    · rfl
theorem Alu.divu_eq (a b : Word) : Alu.divu a b = if b = 0 then 0xFFFFFFFF else a / b := by
  unfold Alu.divu
  split
  · rfl
  · apply BitVec.eq_of_toNat_eq
    have := Nat.div_le_self a.toNat b.toNat
    have := a.isLt
    simp
    omega
theorem Alu.remu_eq (a b : Word) : Alu.remu a b = if b = 0 then a else a % b := by
  unfold Alu.remu
  split
  · rfl
  · apply BitVec.eq_of_toNat_eq
    have := Nat.mod_le a.toNat b.toNat
    have := a.isLt
    simp
    omega

/-- The bytes of a memory load. -/
theorem loadBytes_one (x : Cell) (a : Nat) : loadBytes x a 1 = [loadByte x a] := rfl
theorem loadBytes_two (x : Cell) (a : Nat) : loadBytes x a 2 = [loadByte x a, loadByte x (a + 1)] := rfl
theorem loadBytes_four (x : Cell) (a : Nat) : loadBytes x a 4 = [loadByte x a, loadByte x (a + 1), loadByte x (a + 2), loadByte x (a + 3)] := rfl

theorem toNat_append_byte {w : Nat} (a : BitVec w) (b : Byte) : (a ++ b).toNat = a.toNat * 256 + b.toNat := by
  have := b.isLt
  rw [BitVec.toNat_append, Nat.shiftLeft_eq, show (2 : Nat) ^ 8 = 256 by rfl, Nat.mul_comm a.toNat, ← Nat.two_pow_add_eq_or_of_lt (i := 8) b.isLt]

theorem leNat_bytes_one (a : Byte) : BitVec.ofNat 8 (leNat [a]) = a := by
  apply BitVec.eq_of_toNat_eq
  have := a.isLt
  simp [leNat]
theorem leNat_bytes_two (a b : Byte) : BitVec.ofNat 16 (leNat [a, b]) = b ++ a := by
  apply BitVec.eq_of_toNat_eq
  have := a.isLt
  have := b.isLt
  show _ = (b ++ a : BitVec (8 + 8)).toNat
  rw [toNat_append_byte]
  simp [leNat]
  omega
theorem leNat_bytes_four (a b c d : Byte) : BitVec.ofNat 32 (leNat [a, b, c, d]) = d ++ c ++ b ++ a := by
  apply BitVec.eq_of_toNat_eq
  have := a.isLt
  have := b.isLt
  have := c.isLt
  have := d.isLt
  show _ = (d ++ c ++ b ++ a : BitVec (8 + 8 + 8 + 8)).toNat
  rw [toNat_append_byte, toNat_append_byte, toNat_append_byte]
  simp [leNat]
  omega
theorem leNat_bytes_one_zext (a : Byte) : BitVec.ofNat 32 (leNat [a]) = a.setWidth 32 := by
  apply BitVec.eq_of_toNat_eq
  have := a.isLt
  simp [leNat]
theorem leNat_bytes_two_zext (a b : Byte) : BitVec.ofNat 32 (leNat [a, b]) = (b ++ a).setWidth 32 := by
  apply BitVec.eq_of_toNat_eq
  have := a.isLt
  have := b.isLt
  rw [BitVec.toNat_setWidth, toNat_append_byte]
  simp [leNat]
  omega

end Sys2Proof.Machine
end

section
/-! The register instructions, jumps, loads and stores of the cells. -/

namespace Sys2Proof.Machine

/-- Settles O39: each instruction is a step that sets its register, to a value that the arithmetic lemmas give. -/
theorem baseRegisterInstructions : Obligations.base_register_instructions := by
  unfold Obligations.base_register_instructions
  refine ⟨fun x r q v => ⟨rfl, rfl, reg_setReg_same x v, reg_setReg_other x v⟩, fun c rd a b u i sh => ?_⟩
  exact ⟨sets_of (fun _ => rfl) fun x => upper_immediate u, sets_of (fun _ => rfl) fun x => congrArg (x.pc + ·) (upper_immediate u),
    sets_of (fun _ => rfl) fun x => rfl,
    sets_of (fun _ => rfl) fun x => (Alu.slt_eq _ _).trans (by simp only [sext, BitVec.toInt_signExtend_of_le (show 12 ≤ 32 by decide)]),
    sets_of (fun _ => rfl) fun x => Alu.sltu_eq _ _,
    sets_of (fun _ => rfl) fun x => rfl, sets_of (fun _ => rfl) fun x => rfl, sets_of (fun _ => rfl) fun x => rfl,
    sets_of (fun _ => rfl) fun x => rfl, sets_of (fun _ => rfl) fun x => rfl, sets_of (fun _ => rfl) fun x => rfl,
    sets_of (fun _ => rfl) fun x => rfl, sets_of (fun _ => rfl) fun x => rfl, sets_of (fun _ => rfl) fun x => Alu.sll_eq _ _,
    sets_of (fun _ => rfl) fun x => Alu.slt_eq _ _, sets_of (fun _ => rfl) fun x => Alu.sltu_eq _ _, sets_of (fun _ => rfl) fun x => rfl,
    sets_of (fun _ => rfl) fun x => Alu.srl_eq _ _, sets_of (fun _ => rfl) fun x => Alu.sra_eq _ _, sets_of (fun _ => rfl) fun x => rfl,
    sets_of (fun _ => rfl) fun x => rfl, retires_of (fun _ => rfl) (fun _ _ _ => rfl) (fun _ _ => rfl), sets_of (fun _ => rfl) fun x => rfl,
    sets_of (fun _ => rfl) fun x => Alu.mulh_eq _ _, sets_of (fun _ => rfl) fun x => Alu.mulhsu_eq _ _,
    sets_of (fun _ => rfl) fun x => Alu.mulhu_eq _ _, sets_of (fun _ => rfl) fun x => Alu.div_eq _ _,
    sets_of (fun _ => rfl) fun x => Alu.divu_eq _ _, sets_of (fun _ => rfl) fun x => Alu.rem_eq _ _,
    sets_of (fun _ => rfl) fun x => Alu.remu_eq _ _⟩

/-- Settles O40: each compressed instruction is a step of two bytes that sets its register. -/
theorem compressedRegisterInstructions : Obligations.compressed_register_instructions := by
  unfold Obligations.compressed_register_instructions
  intro c rd b u i
  exact ⟨sets_of (fun _ => rfl) fun x => rfl, retires_of (fun _ => rfl) (fun _ _ _ => rfl) (fun _ _ => rfl), sets_of (fun _ => rfl) fun x => rfl,
    sets_of (fun _ => rfl) fun x => rfl, sets_of (fun _ => rfl) fun x => rfl, sets_of (fun _ => rfl) fun x => compressed_upper_immediate i,
    sets_of (fun _ => rfl) fun x => rfl, sets_of (fun _ => rfl) fun x => rfl, sets_of (fun _ => rfl) fun x => rfl, sets_of (fun _ => rfl) fun x => rfl,
    sets_of (fun _ => rfl) fun x => rfl, sets_of (fun _ => rfl) fun x => rfl, sets_of (fun _ => rfl) fun x => rfl, sets_of (fun _ => rfl) fun x => rfl,
    sets_of (fun _ => rfl) fun x => rfl, sets_of (fun _ => rfl) fun x => rfl⟩

/-- A branch taken where its condition holds, or where it does not. -/
theorem branch_target {p : Prop} [Decidable p] (x : Cell) (off : Word) (n : Nat) :
    (if decide p = true then x.pc + off else pcNext x n) = x.pc + if p then off else BitVec.ofNat 32 n := by
  by_cases h : p <;> simp [h, pcNext]
theorem branch_untaken {p : Prop} [Decidable p] (x : Cell) (off : Word) (n : Nat) :
    (if (!decide p) = true then x.pc + off else pcNext x n) = x.pc + if p then BitVec.ofNat 32 n else off := by
  by_cases h : p <;> simp [h, pcNext]

/-- Settles O41: jumps link and go to their targets, branches go to theirs or on. -/
theorem jumpsAndBranches : Obligations.jumps_and_branches := by
  unfold Obligations.jumps_and_branches
  intro c rd a b j i o cj cb
  exact ⟨jumps_of_jump (fun _ => rfl) (fun _ => rfl) fun _ => rfl, jumps_of_jump (fun _ => rfl) (fun _ => rfl) fun _ => rfl,
    jumps_of_branch (fun _ => rfl) fun x => branch_target x _ 4,
    jumps_of_branch (fun _ => rfl) fun x => by rw [decide_not]; exact branch_untaken x _ 4,
    jumps_of_branch (fun _ => rfl) fun x => branch_target x _ 4, jumps_of_branch (fun _ => rfl) fun x => branch_untaken x _ 4,
    jumps_of_branch (fun _ => rfl) fun x => branch_target x _ 4, jumps_of_branch (fun _ => rfl) fun x => branch_untaken x _ 4,
    jumps_of_jump (fun _ => rfl) (fun _ => rfl) fun _ => rfl, jumps_unlinked (fun _ => rfl) fun _ => rfl,
    jumps_of_branch (fun _ => rfl) fun x => branch_target x _ 2,
    jumps_of_branch (fun _ => rfl) fun x => by rw [decide_not]; exact branch_untaken x _ 2,
    jumps_unlinked (fun _ => rfl) fun _ => rfl, jumps_of_jump (fun _ => rfl) (fun _ => rfl) fun _ => rfl⟩

/-- A word load from the system window gives its word (R427). -/
theorem window_load {s : State} {c rd a : Fin 32} {i : BitVec 12} {w : Fin 4} {x : Cell} (h : reg x a + i.signExtend 32 = BitVec.ofNat 32 (0x40004 + 4 * w.val)) :
    rvLoad 4 c rd (fun x => reg x a + sext i) 4 (fun v => BitVec.ofNat 32 v) s x = .done s { setReg x rd
      (BitVec.ofNat 32 ([c.val, num s (0xD000 + c.val) 5, num s (0xD000 + c.val) 3, x.events].getD w.val 0)) with pc := pcNext x 4 } := by
  have ha : reg x a + sext i = BitVec.ofNat 32 (0x40004 + 4 * w.val) := h
  unfold rvLoad
  simp only [ha]
  fin_cases w <;> rfl

/-- Settles O42: loads and stores are steps of their cell, and what a byte reads as after a store is one lemma on its memory. -/
theorem loadsAndStores : Obligations.loads_and_stores := by
  unfold Obligations.loads_and_stores
  refine ⟨fun c rd a b i u v => ?_, fun c rd a i w => ?_, fun x a b q => ⟨loadByte_storeBytes x a q b, storeBytes_wf x a b⟩⟩
  · exact ⟨loads_of (fun _ => rfl) (fun _ => rfl) fun x a => by rw [loadBytes_one, leNat_bytes_one]; rfl,
      loads_of (fun _ => rfl) (fun _ => rfl) fun x a => by rw [loadBytes_two, leNat_bytes_two]; rfl,
      loads_of (fun _ => rfl) (fun _ => rfl) fun x a => by rw [loadBytes_four, leNat_bytes_four]; rfl,
      loads_of (fun _ => rfl) (fun _ => rfl) fun x a => by rw [loadBytes_one, leNat_bytes_one_zext]; rfl,
      loads_of (fun _ => rfl) (fun _ => rfl) fun x a => by rw [loadBytes_two, leNat_bytes_two_zext]; rfl,
      loads_of (fun _ => rfl) (fun _ => rfl) fun x a => by rw [loadBytes_four, leNat_bytes_four]; rfl,
      loads_of (fun _ => rfl) (fun _ => rfl) fun x a => by rw [loadBytes_four, leNat_bytes_four]; rfl,
      stores_of (fun _ => rfl) fun _ => rfl, stores_of (fun _ => rfl) fun _ => rfl, stores_of (fun _ => rfl) fun _ => rfl,
      stores_of (fun _ => rfl) fun _ => rfl, stores_of (fun _ => rfl) fun _ => rfl⟩
  · exact retires_of (fun _ => rfl) (fun s x h => window_load h) fun _ x => setReg_retired x rd _

end Sys2Proof.Machine
end

section
/-! SUPPORT. Internal admissions outside a pair (R179, R194, R394): what one leaves, where it commits and where its commit fails. -/

namespace Sys2Proof.Machine

/-- State s with its count of free values at n (log 26). -/
def redrawn (s : State) (n : Nat) : State := { s with seq := { s.seq with draws := n } }

@[simp] theorem getObj_redrawn (s : State) (n i k : Nat) : getObj (redrawn s n) i k = getObj s i k := rfl
@[simp] theorem num_redrawn (s : State) (n i k : Nat) : num (redrawn s n) i k = num s i k := rfl
@[simp] theorem oct_redrawn (s : State) (n i k : Nat) : oct (redrawn s n) i k = oct s i k := rfl

theorem redrawn_self (s : State) : redrawn s s.seq.draws = s := rfl

theorem Settled.redrawn {a b : State} (h : Settled a b) (n : Nat) : Settled (Machine.redrawn a n) (Machine.redrawn b n) :=
  ⟨congrArg (fun u => Machine.redrawn u n) h.rest, h.objects, h.run⟩

/-- A settled end keeps what its command keeps of the queue and the fuses. -/
theorem Settled.next {a s t : State} {f : State → State} (h : Settled a t) (hf : f s = t) (hq : a.pending = s.pending) (ho : a.otp = s.otp) :
    coreCmd f s = .next t :=
  coreCmd_next hf ((congrArg (fun x => x.pending) h.rest).trans hq) ((congrArg (fun x => x.otp) h.rest).trans ho)

theorem Settled.others {s a t : State} {xs : List (Nat × Nat)} (h : Settled a t) (ha : OthersStand s a xs) : OthersStand s t xs :=
  fun i k hk hb hx => (h.objects i k hk hb).trans (ha i k hk hb hx)

/-- An admission that its own effect leaves outside a pair: settled, whatever partner digests wait. -/
theorem admitOne_settled (s : State) (i : AdmIn) (f : State → Done) (h : auditHolds s i = false) (ha : sheafOn s = false)
    (hf : num (f (number s)).s 0x2000 2 = 0) : ∃ d, admitOne s i f = some d ∧ Settled (f (number s)).s d.s := by
  unfold admitOne
  rw [h]
  refine ⟨_, rfl, ?_⟩
  dsimp only
  generalize hd : f (number s) = d at hf ⊢
  have h2 := (((settled_token (number s) d.s).trans (settled_commit s (takeToken (number s) d.s))).trans (settled_counters i s _)).trans
    (settled_log (number s) i { d with s := noteCounters i s (noteCommit s (takeToken (number s) d.s)) })
  have h3 := h2.trans (settled_dirty (number s) _)
  have hwas : sheafOn (number s) = false := by
    unfold sheafOn modeFlag at ha ⊢
    rw [num_number]
    exact ha
  have hnow : sheafOn (markDirty (number s) (appendLog (number s) i { d with s := noteCounters i s (noteCommit s (takeToken (number s) d.s)) })) = false := by
    unfold sheafOn modeFlag
    rw [h3.num (by decide) rfl, hf]
    rfl
  unfold sheafAfter
  dsimp only
  rw [hwas, hnow]
  exact h3

/-- The effect of an internal admission stands, or its commit fails and nothing of it does. -/
theorem ringCommit_cases (e : Bool) (r : State × Nat) (u : State) :
    (∃ n, (ringCommit e r u).1 = redrawn r.1 n) ∨ ∃ n, (ringCommit e r u).1 = redrawn u n := by
  unfold ringCommit
  split
  · exact .inl ⟨_, (redrawn_self r.1).symm⟩
  · split
    · exact .inr ⟨_, (redrawn_self u).symm⟩
    · split
      · exact .inr ⟨_, rfl⟩
      · exact .inl ⟨_, rfl⟩

/-- It stands where the store is not worn out, or wear does not refuse it, and the write of its entry holds (R194, R397). -/
theorem ringCommit_stands {e : Bool} (r : State × Nat) {u : State} (hw : e = true ∨ Unworn u) (hc : commitFails u = false) :
    ∃ n, (ringCommit e r u).1 = redrawn r.1 n := by
  have hno : (!e && wears u r.1) = false := by
    rcases hw with rfl | hw
    · rfl
    · obtain ⟨h1, h2, h3⟩ := hw
      have : wears u r.1 = false := by
        unfold wears
        simp [Nat.not_le.mpr h1, Nat.not_le.mpr h2, Nat.not_le.mpr h3]
      rw [this]
      simp
  unfold ringCommit
  rw [hno, hc]
  split
  · exact ⟨_, (redrawn_self r.1).symm⟩
  · exact ⟨_, rfl⟩

theorem number_pers (s : State) : ∃ n, (number s).pers = { s.pers with reserved := n } := by
  obtain ⟨n, f, e⟩ := number_cases s
  exact ⟨n, by rw [e]⟩

theorem commitFails_number (s : State) : commitFails (number s) = commitFails s := by
  unfold commitFails draw
  rw [number_seq]

theorem unworn_number {s : State} (h : Unworn s) : Unworn (number s) := by
  obtain ⟨n, e⟩ := number_pers s
  unfold Unworn
  rw [e]
  exact h

/-- An internal admission that the unit performs at once: its effect, through its commit, is settled. -/
theorem admitInternal_settled {s : State} {i : AdmIn} {f : State → State × Nat} (h : Inward s i) (hs : num (f (number s)).1 0x2000 2 = 0) :
    Settled (ringCommit i.excepted (f (number s)) (number s)).1 (admitInternal s i f) := by
  have hsh : sheafOn s = false := by unfold sheafOn modeFlag; rw [h.single]; rfl
  have hn : num (ringCommit i.excepted (f (number s)) (number s)).1 0x2000 2 = 0 := by
    rcases ringCommit_cases i.excepted (f (number s)) (number s) with ⟨n, e⟩ | ⟨n, e⟩
    · rw [e]; exact hs
    · rw [e, num_redrawn, num_number]; exact h.single
  obtain ⟨d, hd, hset⟩ := admitOne_settled s i (fun t => ⟨(ringCommit i.excepted (f t) t).1, (ringCommit i.excepted (f t) t).2, none, false⟩) h.log hsh hn
  unfold admitInternal
  rw [hsh]
  simp only [Bool.false_eq_true, false_and, ↓reduceIte]
  unfold admitOwn
  rw [h.up]
  dsimp only
  rw [hd]
  exact hset.trans (settled_count _ 0 5 1)

/-- The steady numbered state of an internal admission. -/
theorem steady_number (s : State) : Steady s (number s) := by
  obtain ⟨n, f, e⟩ := number_cases s
  rw [e]
  exact ⟨rfl, rfl, rfl, rfl, rfl⟩

@[simp] theorem number_internal (s : State) : (number s).internal = s.internal := by
  obtain ⟨n, f, e⟩ := number_cases s
  rw [e]

/-- What the effect of an internal admission keeps: numbering, the queues and the fuses, and the unit stays alone. -/
structure Inner (s : State) (q : List IntReq) (u : State) : Prop extends Steady s u where
  internal : u.internal = q
  single : num u 0x2000 2 = 0

theorem inner_number {s : State} (h : num s 0x2000 2 = 0) : Inner s s.internal (number s) :=
  ⟨steady_number s, number_internal s, by rw [num_number]; exact h⟩

/-- What keeps everything but bookkeeping keeps these. -/
theorem Inner.settled {s a b : State} {q : List IntReq} (h : Inner s q a) (g : Settled a b) : Inner s q b :=
  ⟨⟨(congrArg (fun x => x.seq.adm) g.rest).trans h.adm, (congrArg (fun x => x.seq.admTime) g.rest).trans h.time,
    (congrArg (fun x => x.sheaf.theirs) g.rest).trans h.first, (congrArg (fun x => x.pending) g.rest).trans h.queue,
    (congrArg (fun x => x.otp) g.rest).trans h.fuses⟩, (congrArg (fun x => x.internal) g.rest).trans h.internal,
    (g.num (by decide) rfl).trans h.single⟩

theorem Inner.redrawn {s a : State} {q : List IntReq} (h : Inner s q a) (n : Nat) : Inner s q (Machine.redrawn a n) :=
  ⟨⟨h.adm, h.time, h.first, h.queue, h.fuses⟩, h.internal, h.single⟩

theorem Inner.setObj {s a : State} {q : List IntReq} (h : Inner s q a) {i k : Nat} (v : Val) (hk : k < 256) (hne : ¬(i = 0x2000 ∧ k = 2)) :
    Inner s q (setObj a i k v) := by
  refine ⟨h.toSteady.setObj i k v, ?_, ?_⟩
  · obtain ⟨d, p, l, e⟩ := setObj_dict a i k v
    rw [e]
    exact h.internal
  · rw [num_setObj a v hk (by decide), if_neg (fun e => hne ⟨e.1.symm, e.2.1.symm⟩)]
    exact h.single

theorem Inner.setNum {s a : State} {q : List IntReq} (h : Inner s q a) {i k : Nat} (n : Nat) (hk : k < 256) (hne : ¬(i = 0x2000 ∧ k = 2)) :
    Inner s q (setNum a i k n) := h.setObj (.num n) hk hne

/-- An internal admission whose effect r may be a ring commit. -/
theorem admitInternal_commits {s : State} {q : List IntReq} {i : AdmIn} {f : State → State × Nat} (h : Inward s i) (hr : Inner s q (f (number s)).1)
    (hw : i.excepted = true ∨ Unworn s) : ∃ n, (commitFails s = false → Settled (redrawn (f (number s)).1 n) (admitInternal s i f)) ∧
      (Settled (redrawn (f (number s)).1 n) (admitInternal s i f) ∨ Settled (redrawn (number s) n) (admitInternal s i f)) := by
  have hset := admitInternal_settled h hr.single
  by_cases hc : commitFails s = false
  · obtain ⟨n, e⟩ := ringCommit_stands (e := i.excepted) (f (number s)) (hw.imp id unworn_number) (by rw [commitFails_number]; exact hc)
    rw [e] at hset
    exact ⟨n, fun _ => hset, .inl hset⟩
  · rcases ringCommit_cases i.excepted (f (number s)) (number s) with ⟨n, e⟩ | ⟨n, e⟩ <;> rw [e] at hset
    · exact ⟨n, fun h => absurd h hc, .inl hset⟩
    · exact ⟨n, fun h => absurd h hc, .inr hset⟩

theorem othersStand_number (s : State) (xs : List (Nat × Nat)) : OthersStand s (number s) xs := fun i k _ _ _ => getObj_number s i k

theorem committing_of {c : Instr} {s : State} {q : List IntReq} {i : AdmIn} {f : State → State × Nat} {P : State → Prop}
    (hexec : exec c s = coreCmd (fun s => admitInternal s i f) s) (h : Inward s i) (hw : i.excepted = true ∨ Unworn s) (hi : s.internal = q)
    (hr : Inner s q (f (number s)).1) (hP : ∀ n t, Settled (redrawn (f (number s)).1 n) t → P t) : Committing c s q P := by
  obtain ⟨n, hgood, hor⟩ := admitInternal_commits h hr hw
  have hnum : Inner s q (number s) := by have := inner_number h.single; rwa [hi] at this
  have hin : Inner s q (admitInternal s i f) := hor.elim (hr.redrawn n).settled (hnum.redrawn n).settled
  refine ⟨_, hexec.trans (coreCmd_next rfl hin.queue hin.fuses), hin.adm, hin.time, hin.internal, fun hc => hP n _ (hgood hc), ?_⟩
  exact hor.imp (hP n _) fun hset => hset.others (othersStand_number s [])

/-- The entry at the head of the queue, where it is the one a command names. -/
theorem admitHead_first {s : State} {e : IntReq} {q : List IntReq} {ok : IntReq → Bool} {i : IntReq → AdmIn} {f : IntReq → State → State × Nat}
    (hq : s.internal = e :: q) (hok : ok e = true) (hne : (admitInternal { s with internal := q } (i e) (f e)).seq.adm ≠ s.seq.adm) :
    admitHead s ok i f = admitInternal { s with internal := q } (i e) (f e) := by
  unfold admitHead popInternal
  rw [hq]
  dsimp only
  rw [if_pos hok]
  dsimp only
  rw [if_neg hne]

theorem Inward.popped {s : State} {i : AdmIn} (h : Inward s i) (q : List IntReq) : Inward { s with internal := q } i := ⟨h.up, h.single, h.log⟩

/-- The admission of the entry at the head of the queue: its effect, through its commit, is settled. -/
theorem head_settled {s : State} {e : IntReq} {q : List IntReq} {ok : IntReq → Bool} {i : IntReq → AdmIn} {f : IntReq → State → State × Nat}
    (hq : s.internal = e :: q) (hok : ok e = true) (h : Inward s (i e)) (hr : Inner s q (f e (number { s with internal := q })).1) :
    ∃ n, Settled (redrawn (f e (number { s with internal := q })).1 n) (admitHead s ok i f) ∨
      Settled (redrawn (number { s with internal := q }) n) (admitHead s ok i f) := by
  have hset := admitInternal_settled (h.popped q) (s := { s with internal := q }) hr.single
  have hnum : Inner s q (number { s with internal := q }) := by
    have hn := inner_number (s := { s with internal := q }) h.single
    exact ⟨⟨hn.adm, hn.time, hn.first, hn.queue, hn.fuses⟩, hn.internal, hn.single⟩
  have hadm : (admitInternal { s with internal := q } (i e) (f e)).seq.adm ≠ s.seq.adm := by
    rcases ringCommit_cases (i e).excepted (f e (number { s with internal := q })) (number { s with internal := q }) with ⟨n, he⟩ | ⟨n, he⟩ <;> rw [he] at hset
    · rw [((hr.redrawn n).settled hset).adm]; omega
    · rw [((hnum.redrawn n).settled hset).adm]; omega
  rw [admitHead_first hq hok hadm]
  rcases ringCommit_cases (i e).excepted (f e (number { s with internal := q })) (number { s with internal := q }) with ⟨n, he⟩ | ⟨n, he⟩ <;> rw [he] at hset
  · exact ⟨n, .inl hset⟩
  · exact ⟨n, .inr hset⟩

theorem head_committing {c : Instr} {s : State} {e : IntReq} {q : List IntReq} {ok : IntReq → Bool} {i : IntReq → AdmIn} {f : IntReq → State → State × Nat}
    {P : State → Prop} (hexec : exec c s = coreCmd (fun s => admitHead s ok i f) s) (hq : s.internal = e :: q) (hok : ok e = true) (h : Inward s (i e))
    (hw : (i e).excepted = true ∨ Unworn s) (hr : Inner s q (f e (number { s with internal := q })).1)
    (hP : ∀ n t, Settled (redrawn (f e (number { s with internal := q })).1 n) t → P t) : Committing c s q P := by
  obtain ⟨n, hgood, hor⟩ := admitInternal_commits (h.popped q) (s := { s with internal := q }) (q := q)
    ⟨⟨hr.adm, hr.time, hr.first, hr.queue, hr.fuses⟩, hr.internal, hr.single⟩ hw
  have hnum : Inner s q (number { s with internal := q }) := by
    have hn := inner_number (s := { s with internal := q }) h.single
    exact ⟨⟨hn.adm, hn.time, hn.first, hn.queue, hn.fuses⟩, hn.internal, hn.single⟩
  have hin : Inner s q (admitInternal { s with internal := q } (i e) (f e)) := hor.elim (hr.redrawn n).settled (hnum.redrawn n).settled
  have hhead := admitHead_first (ok := ok) (i := i) (f := f) hq hok (by rw [hin.adm]; omega)
  refine ⟨_, hexec.trans (coreCmd_next hhead hin.queue hin.fuses), hin.adm, hin.time, hin.internal, fun hc => hP n _ (hgood hc), ?_⟩
  exact hor.imp (hP n _) fun hset => hset.others fun i k hk hb hx => othersStand_number { s with internal := q } [] i k hk hb hx

end Sys2Proof.Machine
end

section
/-! SUPPORT. Faults of the cells and the turns of the pair (R429, R433, R434). -/

namespace Sys2Proof.Machine

/-- The pair, where it is free, takes the next runnable cell. -/
theorem dispatch_free {s : State} (h : s.twc.current = none) : ∃ tw p, dispatch s = { s with twc := tw, perf := p } ∧ tw.cells = s.twc.cells ∧
    tw.current = nextCell s ∧ ∀ d, nextCell s = some d → tw.last = d ∧ tw.cycles = 0 := by
  unfold dispatch nextCell
  rw [h]
  dsimp only
  split
  · rename_i hn
    exact ⟨s.twc, s.perf, rfl, rfl, by rw [h, hn], fun d hd => by rw [hn] at hd; cases hd⟩
  · rename_i c hc
    obtain ⟨p, hp⟩ := count_perf (updTwc s fun t => { t with current := some c, last := c, cycles := 0 }) 2 3 1
    refine ⟨_, p, hp, rfl, hc.symm, fun d hd => ?_⟩
    rw [hc] at hd
    cases hd
    exact ⟨rfl, rfl⟩

/-- The next cell is runnable. -/
theorem runnable_nextCell {s : State} {d : Nat} (h : nextCell s = some d) : runnable s d = true := List.find?_some (p := fun c => runnable s c) h

/-- Cell c leaves the pair: what runs after it is another. -/
theorem leavePair_frees (s : State) (c : Nat) (hc : runnable s c = false) :
    ∃ tw p, leavePair s c = { s with twc := tw, perf := p } ∧ tw.cells = s.twc.cells ∧ tw.current ≠ some c := by
  have hne : ∀ d, runnable s d = true → d ≠ c := by
    rintro d hd rfl
    rw [hc] at hd
    cases hd
  unfold leavePair
  split
  · obtain ⟨tw, p, h1, h2, h3, -⟩ := dispatch_free (s := updTwc s fun t => { t with current := none }) rfl
    refine ⟨tw, p, h1, h2, ?_⟩
    rw [h3]
    exact fun hd => hne c (runnable_nextCell hd) rfl
  · rename_i hcur
    cases hs : s.twc.current with
    | some d =>
      refine ⟨s.twc, s.perf, ?_, rfl, hcur⟩
      unfold dispatch
      rw [hs]
    | none =>
      obtain ⟨tw, p, h1, h2, h3, -⟩ := dispatch_free hs
      refine ⟨tw, p, h1, h2, ?_⟩
      rw [h3]
      exact fun hd => hne c (runnable_nextCell hd) rfl

/-- A fault after a tag, or without one. -/
theorem faults_of {s u : State} {f : State → State} {c : Fin 32} {cause : Nat} {pc : Word} (hf : f s = faultCell u c.val cause pc) (h : Tagged s u) :
    ∃ t, coreCmd f s = .next t ∧ Faults s t c cause pc := by
  obtain ⟨p, r, rfl⟩ := h.rest
  unfold faultCell at hf
  dsimp only at hf
  obtain ⟨p', hp⟩ := count_perf (setCell (stripCell { s with perf := p, rng := r } c.val) c.val { cell0 with dead := true }) 2 7 1
  rw [hp] at hf
  have hdead : runnable (pushFront { setCell (stripCell { s with perf := p, rng := r } c.val) c.val { cell0 with dead := true } with perf := p' }
      (.cellFault c.val cause pc.toNat)) c.val = false := by
    unfold runnable
    show (match SMap.look (SMap.put s.twc.cells c.val { cell0 with dead := true }) c.val with | none => false | some x => _) = false
    rw [SMap.look_put_same]
    simp
  obtain ⟨tw, q, he, hcells, hcur⟩ := leavePair_frees _ _ hdead
  rw [he] at hf
  refine ⟨_, coreCmd_next hf rfl rfl, rfl, ?_, hcur, rfl, rfl, rfl, rfl, rfl⟩
  show SMap.look tw.cells c.val = _
  rw [hcells]
  exact SMap.look_put_same _ _ _

theorem traps_of {i : Instr} {c : Fin 32} {lat cause : Nat} {bad : Cell → Prop} {g : State → Cell → RvOut} (hexec : StepsAs i c lat g)
    (hg : ∀ s x, bad x → g s x = .trap cause) : Traps i c cause bad := by
  intro s x w hrun hf hd hbad
  obtain ⟨t, ht, hfault⟩ := faults_of (f := fun s => rvStep s c i lat g) (rvStep_trap hrun hf hd (hg s x hbad))
    (tagged_faulted s c.val x.pc.toNat w s.twc.cycles)
  exact ⟨t, (hexec s).trans ht, hfault⟩

/-- A misaligned load or store (R426, log 45). -/
theorem rvLoad_misaligned {n k : Nat} {c rd : Fin 32} {addr : Cell → Word} {ext : Nat → Word} {s : State} {x : Cell} (h : (addr x).toNat % k ≠ 0) :
    rvLoad n c rd addr k ext s x = .trap 5 := if_pos h
theorem rvStore_misaligned {n k : Nat} {rs2 : Fin 32} {addr : Cell → Word} {s : State} {x : Cell} (h : (addr x).toNat % k ≠ 0) :
    rvStore n rs2 addr k s x = .trap 5 := if_pos h

/-- A byte load outside the regions (R426). -/
theorem rvLoad_byte_outside {n : Nat} {c rd : Fin 32} {addr : Cell → Word} {ext : Nat → Word} {s : State} {x : Cell} (h : 0x30000 ≤ (addr x).toNat) :
    rvLoad n c rd addr 1 ext s x = .trap 3 := by
  unfold rvLoad
  dsimp only
  rw [if_neg (by omega), if_neg (by unfold inMemory memTop; simp; omega), if_pos (by decide)]

/-- A word load outside the regions and the window (R426, R427). -/
theorem rvLoad_word_outside {n : Nat} {c rd : Fin 32} {addr : Cell → Word} {ext : Nat → Word} {s : State} {x : Cell} (hal : (addr x).toNat % 4 = 0)
    (hlo : 0x30000 ≤ (addr x).toNat) (hno : ¬(0x40000 ≤ (addr x).toNat ∧ (addr x).toNat < 0x40014)) : rvLoad n c rd addr 4 ext s x = .trap 3 := by
  have hw : windowWord s c x (addr x).toNat = none := by
    unfold windowWord
    split <;> first | rfl | omega
  unfold rvLoad
  dsimp only
  rw [if_neg (by omega), if_neg (by unfold inMemory memTop; simp; omega), if_neg (by decide), if_neg (by omega), hw]

/-- A store outside the data region (R426). -/
theorem rvStore_outside {n k : Nat} {rs2 : Fin 32} {addr : Cell → Word} {s : State} {x : Cell} (hal : (addr x).toNat % k = 0)
    (h : (addr x).toNat < x.code ∨ 0x30000 < (addr x).toNat + k) : rvStore n rs2 addr k s x = .trap 4 := by
  unfold rvStore
  dsimp only
  rw [if_neg (by omega), if_neg (by unfold inData memTop; simp; omega)]

/-- Settles O43: an access out of line or out of place is a trap of its step; an encoding or a pc that is none faults the cell. -/
theorem cellsFaultByCause : Obligations.cells_fault_by_cause := by
  unfold Obligations.cells_fault_by_cause
  refine ⟨fun c rd a b i u v => ?_, fun s c x hrun => ⟨fun w hf hd => ?_, fun hf => ?_⟩⟩
  · exact ⟨traps_of (fun _ => rfl) fun _ _ h => rvLoad_misaligned h, traps_of (fun _ => rfl) fun _ _ h => rvLoad_misaligned h,
      traps_of (fun _ => rfl) fun _ _ h => rvLoad_misaligned h, traps_of (fun _ => rfl) fun _ _ h => rvLoad_misaligned h,
      traps_of (fun _ => rfl) fun _ _ h => rvLoad_misaligned h, traps_of (fun _ => rfl) fun _ _ h => rvStore_misaligned h,
      traps_of (fun _ => rfl) fun _ _ h => rvStore_misaligned h, traps_of (fun _ => rfl) fun _ _ h => rvStore_misaligned h,
      traps_of (fun _ => rfl) fun _ _ h => rvStore_misaligned h, traps_of (fun _ => rfl) fun _ _ h => rvLoad_byte_outside h,
      traps_of (fun _ => rfl) fun _ _ h => rvLoad_byte_outside h,
      traps_of (fun _ => rfl) fun _ _ h => rvLoad_word_outside h.1 h.2.1 h.2.2,
      traps_of (fun _ => rfl) fun _ _ h => rvStore_outside (Nat.mod_one _) (h.imp id Nat.lt_succ_of_le),
      traps_of (fun _ => rfl) fun _ _ h => rvStore_outside h.1 (h.2.imp id fun h => by have : (0x30000 : Nat) ≤ _ := h; exact Nat.lt_add_right 3 (Nat.lt_succ_of_le h))⟩
  · refine faults_of (f := fun s => illegalAt s c) (u := Prf.faulted s c.val x.pc.toNat w s.twc.cycles) ?_ (tagged_faulted _ _ _ _ _)
    unfold illegalAt
    simp only [hrun, hf]
    exact if_pos hd
  · refine faults_of (f := fun s => illegalAt s c) (u := s) ?_ (Tagged.refl s)
    unfold illegalAt
    simp only [hrun, hf]

end Sys2Proof.Machine
end

section
/-! SUPPORT. A store whose epoch table is listed twice, which the canonical form of a sparse map rules out and the type of State does not: every
admission over it is a ring commit of two words, and at the endurance limit none is applied (R393, R397). -/

namespace Sys2Proof.Machine

/-- Two listings of the epoch of node 1, in a store whose commit ring is worn out. -/
def twiceListed (p : Pers) : Pers := { p with epochs := [(1, 1), (1, 2)], rings := [], laps := ⟨lapLimit, 0, 0⟩ }

theorem commitForm_twiceListed (p : Pers) : commitForm (twiceListed p) (twiceListed p) = .ring := by
  have hw : wordsChanged (twiceListed p) (twiceListed p) = 2 := by
    unfold wordsChanged
    simp only [ne_eq, not_true_eq_false, or_self, decide_false, Bool.false_eq_true, ↓reduceIte, Nat.add_zero]
    rfl
  unfold commitForm
  rw [hw]
  simp

/-- Over it an internal admission that keeps the store does nothing (R397). -/
theorem ringCommit_twiceListed {r : State × Nat} {u : State} {p : Pers} (hu : u.pers = twiceListed p) (hr : r.1.pers = u.pers) :
    (ringCommit false r u).1 = u := by
  have hform : commitForm u.pers r.1.pers = .ring := by rw [hr, hu]; exact commitForm_twiceListed p
  have hwear : wears u r.1 = true := by
    unfold wears
    rw [hform, hu]
    rfl
  unfold ringCommit
  rw [hform, hwear]
  simp

/-- Cell 0 STARTING in READY, with its tiller and its applet, over such a store. -/
def wornStart : State :=
  let s := setNum State.reset 0xD000 1 2
  { s with
    stage := 0x11
    rng := { s.rng with tillers := [(16, ⟨some ⟨[], [], 1⟩, []⟩)] }
    twc := { s.twc with cells := [(0, cell0)] }
    pers := twiceListed { s.pers with applets := [(0, ⟨[], true⟩)] } }

theorem wornStart_inward (n : Nat) : Inward wornStart (internalIn n [0] false) := ⟨by decide, by decide, rfl⟩

theorem wornStart_mayLoad : mayLoad wornStart 0 = true := by decide

theorem num_loadAdmission_wornStart : num (Intern.loadAdmission wornStart 0) 0xD000 1 = 2 := by
  have hrun : Intern.loadAdmission wornStart 0 = admitInternal wornStart (internalIn 24 [0] false) fun u => (loadComplete u 0, 0) :=
    if_pos ⟨wornStart_mayLoad, rfl⟩
  have hset := admitInternal_settled (f := fun u => (loadComplete u 0, 0)) (wornStart_inward 24) (by decide)
  have hstay : (ringCommit false (loadComplete (number wornStart) 0, 0) (number wornStart)).1 = number wornStart :=
    ringCommit_twiceListed (p := { State.reset.pers with applets := [(0, ⟨[], true⟩)] }) rfl rfl
  have hin : (internalIn 24 [0] false).excepted = false := rfl
  rw [hin, hstay] at hset
  rw [hrun, hset.num (by decide) rfl, num_number]
  decide

/-- Refutes O44: the load of a cell over a store whose epoch table is listed twice, at the endurance limit of the commit ring, is admitted with
ABT_WEAR_LIMIT, and the cell stays STARTING. -/
theorem not_cellEventsComplete : ¬ Obligations.cell_events_complete := by
  unfold Obligations.cell_events_complete
  intro h
  obtain ⟨-, -, hload, -⟩ := h wornStart 0 cell0
  obtain ⟨t, hexec, -, -, -, -, hstate, -⟩ := hload [] wornStart_mayLoad rfl rfl (wornStart_inward 24) rfl
  cases hexec
  exact absurd (num_loadAdmission_wornStart.symm.trans hstate) (by decide)

end Sys2Proof.Machine
end

section
/-! SUPPORT. The frames of the host link other than SEND (R134, R137, R139, R141). -/

namespace Sys2Proof.Machine

/-- What a frame changes: the link's own state, its counters and its statistics. -/
theorem linkFrame_of {s : State} {h : HostLink} {w : SMap Nat} {p : Perf} : linkFrame s { s with host := h, hw := w, perf := p } :=
  ⟨rfl, rfl, rfl, rfl, rfl, rfl, rfl, rfl, rfl⟩

namespace Hl

theorem clocks_perf (s : State) (n m : Nat) (dummy : Bool) : ∃ p, clocks s n m dummy = { s with perf := p } := count_perf s 11 0 _

theorem serves_of_openFor {s : State} (h : openFor s = true) : serves s = true := (Bool.and_eq_true_iff.mp h).1

/-- FETCH drives the head of the queue, which leaves it where it was clocked whole (R139). -/
theorem fetch_reply {s : State} (hs : openFor s = true) (he : early s = false) (n : Nat) {r : Bytes} {rest : List Bytes} (hr : s.host.replies = r :: rest) :
    ∃ p, fetch s n = { s with perf := p, host :=
      if r.length ≤ n then { s.host with out := (r ++ List.replicate n 0xFF).take n, replies := rest, last := some r }
      else { s.host with out := (r ++ List.replicate n 0xFF).take n } } := by
  obtain ⟨p, hp⟩ := clocks_perf s 1 n true
  obtain ⟨q, hq⟩ := count_perf { s with perf := p } 11 2 1
  have he' : early { s with perf := p } = false := he
  have hh : head { s with perf := p } = r := by unfold head; rw [hr]; rfl
  refine ⟨q, ?_⟩
  unfold fetch
  rw [serves_of_openFor hs]
  dsimp only
  rw [hp, he', hq, hh]
  conv_lhs => rw [hr]
  simp only [Bool.not_true, Bool.false_eq_true, ↓reduceIte]
  by_cases hl : r.length ≤ n
  · rw [if_pos hl, if_pos hl]; rfl
  · rw [if_neg hl, if_neg hl]; rfl

theorem fetch_empty {s : State} (hs : openFor s = true) (he : early s = false) (n : Nat) (hr : s.host.replies = []) :
    ∃ p, fetch s n = { s with perf := p, host := { s.host with out := (emptyReply ++ List.replicate n 0xFF).take n } } := by
  obtain ⟨p, hp⟩ := clocks_perf s 1 n true
  obtain ⟨q, hq⟩ := count_perf { s with perf := p } 11 2 1
  have he' : early { s with perf := p } = false := he
  have hh : head { s with perf := p } = emptyReply := by unfold head; rw [hr]; rfl
  refine ⟨q, ?_⟩
  unfold fetch
  rw [serves_of_openFor hs]
  dsimp only
  rw [hp, he', hq, hh]
  conv_lhs => rw [hr]
  rfl

theorem refetch_last {s : State} (hs : openFor s = true) (he : early s = false) (n : Nat) :
    ∃ p, refetch s n = { s with perf := p, host := { s.host with out := (s.host.last.getD emptyReply ++ List.replicate n 0xFF).take n } } := by
  obtain ⟨p, hp⟩ := clocks_perf s 1 n true
  have he' : early { s with perf := p } = false := he
  refine ⟨p, ?_⟩
  unfold refetch
  rw [serves_of_openFor hs]
  dsimp only
  rw [hp, he']
  rfl

theorem statusBlock_length (s : State) : (statusBlock s).length = 12 := by
  unfold statusBlock
  simp only [List.length_append, leBytes_length, List.length_cons, List.length_nil]

/-- STATUS drives the twelve bytes of the status block (R141). -/
theorem status_block {s : State} (hs : openFor s = true) (he : early s = false) :
    ∃ p, status s = { s with perf := p, host := { s.host with out := statusBlock s } } := by
  obtain ⟨p, hp⟩ := clocks_perf s 1 12 true
  have he' : early { s with perf := p } = false := he
  have hb : (statusBlock { s with perf := p } ++ List.replicate 12 0xFF).take 12 = statusBlock s := List.take_left' (statusBlock_length s)
  refine ⟨p, ?_⟩
  unfold status
  rw [hs]
  dsimp only
  rw [hp, he']
  simp only [Bool.not_true, Bool.false_eq_true, ↓reduceIte]
  unfold drive
  rw [hb]

/-- A CLEAR frame in its form carries its mask (R137). -/
theorem clearMask_wire (mask : Word) : clearMask ([0xC3] ++ leBytes 4 mask.toNat ++ leBytes 4 (crc32c ([0xC3] ++ leBytes 4 mask.toNat))) true = some mask.toNat := by
  have h4 : ∀ x, (leBytes 4 x).length = 4 := leBytes_length 4
  have h5 : ([0xC3] ++ leBytes 4 mask.toNat : Bytes).length = 5 := by simp [h4]
  have hm : (([0xC3] ++ leBytes 4 mask.toNat ++ leBytes 4 (crc32c ([0xC3] ++ leBytes 4 mask.toNat)) : Bytes).drop 1).take 4 = leBytes 4 mask.toNat := by
    rw [List.append_assoc, List.singleton_append, List.drop_succ_cons, List.drop_zero, List.take_left' (h4 _)]
  unfold clearMask
  rw [hm, List.drop_left' h5, List.take_left' h5, if_pos ⟨rfl, by rw [List.length_append, h5, h4], by simp, rfl⟩, leNat_leBytes 4 _ mask.isLt]

theorem clear_mask {s : State} (hs : openFor s = true) (he : early s = false) {f : Bytes} {m : Nat} (hf : clearMask f true = some m) :
    ∃ p, clear s f true = { s with perf := p, host := { s.host with out := [], cause := clearBits s.host.cause (m &&& 0x1F2) } } := by
  obtain ⟨p, hp⟩ := clocks_perf s f.length 0 false
  have he' : early { s with perf := p, host := { s.host with out := [] } } = false := he
  refine ⟨p, ?_⟩
  unfold clear
  rw [hs]
  dsimp only
  rw [hp, he', hf]
  rfl

/-- A frame with an opcode that is not listed is one more link error (R134). -/
theorem unknown_error {s : State} (hs : openFor s = true) {op : Byte} (ho : op.toNat ∉ Hl.opcodes) :
    ∃ p, unknown s op = { s with
      perf := p
      host := { s.host with out := [] }
      hw := SMap.upd s.hw (objKey 0x1020 2) (num s 0x1020 2) (fun x => sat32 x 1) } := by
  obtain ⟨p, hp⟩ := clocks_perf s 1 0 false
  refine ⟨p, ?_⟩
  unfold unknown
  rw [hs, if_neg (by simpa using ho), hp]
  rfl

end Hl

/-- Settles O6: each frame changes the link's own state, its counters and its statistics, by the lemma about it. -/
theorem linkFramesComplete : Obligations.link_frames_complete := by
  unfold Obligations.link_frames_complete
  intro s hs he
  refine ⟨fun n r rest hr => ?_, fun n hr => ?_, fun n => ?_, ?_, fun mask => ?_, fun op ho => ?_⟩
  · obtain ⟨p, h⟩ := Hl.fetch_reply hs he n hr
    refine ⟨_, coreCmd_next (f := fun s => Hl.fetch s n) h rfl rfl, ?_, fun hl => ?_, fun hl => ?_, linkFrame_of⟩
    · show (if _ then _ else _ : HostLink).out = _
      split <;> rfl
    · show (if _ then _ else _ : HostLink).replies = _ ∧ (if _ then _ else _ : HostLink).last = _
      rw [if_pos hl]
      exact ⟨rfl, rfl⟩
    · show (if _ then _ else _ : HostLink).replies = _ ∧ (if _ then _ else _ : HostLink).last = _
      rw [if_neg (Nat.not_le.mpr hl)]
      exact ⟨hr, rfl⟩
  · obtain ⟨p, h⟩ := Hl.fetch_empty hs he n hr
    exact ⟨_, coreCmd_next (f := fun s => Hl.fetch s n) h rfl rfl, rfl, hr, linkFrame_of⟩
  · obtain ⟨p, h⟩ := Hl.refetch_last hs he n
    exact ⟨_, coreCmd_next (f := fun s => Hl.refetch s n) h rfl rfl, rfl, rfl, linkFrame_of⟩
  · obtain ⟨p, h⟩ := Hl.status_block hs he
    exact ⟨_, coreCmd_next (f := fun s => Hl.status s) h rfl rfl, linkFrame_of, rfl, _, rfl, rfl⟩
  · obtain ⟨p, h⟩ := Hl.clear_mask hs he (Hl.clearMask_wire mask)
    exact ⟨_, coreCmd_next (f := fun s => Hl.clear s _ true) h rfl rfl, rfl, rfl, linkFrame_of⟩
  · obtain ⟨p, h⟩ := Hl.unknown_error hs ho
    exact ⟨_, coreCmd_next (f := fun s => Hl.unknown s op) h rfl rfl, rfl, linkFrame_of, SMap.look_put_same _ _ _⟩

end Sys2Proof.Machine
end

section
/-! SUPPORT. A numbered request from any input state: with the transfer that an INIT discards, and with the effect that a commit which
cannot be made keeps out (R109, R397). -/

namespace Sys2Proof.Machine

/-- The work of a numbered request past check 4, in the state u of its number. -/
theorem perform_kept {u : State} {r : Rq} {x : SessRes} {e0 e : Eff} (hx : sessionCheck u r u.seq.admTime = x) (h0 : x.code = 0) (h1 : x.ends = false)
    (hv : ¬(x.ctx.role = some 3 ∧ x.ctx.slot.isSome ∧ serviceOn u ∧ vigilOn u)) (hread : recordedRead u r = false)
    (he : service (beforeService u r x) x.ctx r true = .out e0) (hkeep : keptOut (beforeService u r x) r e0 = e) :
    perform u r = some (e, x, trailerKey u (r.trailer.map (·.slot))) := by
  have hf : ∀ k, modeFlag (beforeService u r x) k = modeFlag u k := by
    intro k
    have : num (beforeService u r x) 0x2000 k = num u 0x2000 k := by
      unfold beforeService afterSession
      split <;> simp
    unfold modeFlag
    rw [this]
  have hrec : recordRead (calledBy u x.ctx) r x = calledBy u x.ctx := by
    have h3 : recordedRead (calledBy u x.ctx) r = recordedRead u r := by
      have h4 : (calledBy u x.ctx).sessions = u.sessions := rfl
      have h5 : ∀ n, serviceChannel (calledBy u x.ctx) n = serviceChannel u n := fun _ => rfl
      simp only [recordedRead, serviceOn, vigilOn, auditOn, modeFlag, num_calledBy, h4, h5]
      rfl
    unfold recordRead needsRecord
    rw [h3, hread]
    simp
  have hrs : recordService (beforeService u r x) x = beforeService u r x := by
    unfold recordService
    rw [if_neg]
    unfold serviceOn vigilOn at hv ⊢
    rw [hf, hf]
    exact hv
  have hb : afterSession (calledBy u x.ctx) r x = beforeService u r x := rfl
  unfold perform
  dsimp only
  rw [hx, hrec, if_neg (by simp [h0]), hb, hrs, he]
  dsimp only
  rw [hkeep, h1]
  simp

/-- Numbering is judged for want of capacity by the sequencer alone. -/
theorem capacityHolds_ready {s w t : State} (hr : Ready s) (hw : w.seq = s.seq) : capacityHolds w t = false := by
  have h1 : (number w).seq = (number s).seq := by rw [number_seq, number_seq, hw]
  have h2 : ¬ budgetNow (number w) < 4000 := by
    have h3 := hr.token
    unfold budgetNow at h3 ⊢
    rw [h1]
    omega
  have h3 : ¬ 100000 ≤ countedNow (number w) := by
    have h4 := hr.pace
    unfold countedNow at h4 ⊢
    rw [h1]
    omega
  unfold capacityHolds
  simp [h2, h3]

/-- A numbered request whose work comes to e, from the state w of its input, where what stops it does not stand in w either: the admission that it
makes, and what that settles. D is what its effect leaves, with the fault that its code shows (R255, R298). -/
theorem request_runs_at {s w D : State} {r : Rq} {x : SessRes} {e : Eff} {key : Bytes} (hr : Ready s) (h : Sound s r) (hn : isNumbered s r = true)
    (hw : initDiscard (takeInput s r) r = w) (hseq : w.seq = s.seq) (hpr : partnerRuns w r = false) (hau : auditHolds w (requestIn w r) = false)
    (hp : perform (number w) r = some (e, x, key))
    (hD : raiseFault (pushSlot (claimTags e.s r x e) (slotFor e.s r x key true e)) e.code r.phys (objectNeeds (number w) r.idx r.sub (parseSeg r.body).data.length) = D)
    (hq : D.seq.adm = s.seq.adm + 1) (hth : SMap.look D.sheaf.theirs D.seq.adm = none) :
    ∃ d, admitOne w (requestIn w r) (fun t => (performDone t r).getD ⟨t, 0, none, false⟩) = some d ∧
      performDone (number w) r = some ⟨D, e.code, (slotFor e.s r x key true e).resp, e.random⟩ ∧ request s r = d.s ∧ Settled D d.s := by
  have hd : performDone (number w) r = some ⟨D, e.code, (slotFor e.s r x key true e).resp, e.random⟩ := by
    unfold performDone
    rw [hp]
    dsimp only
    rw [hD]
  obtain ⟨d, ed, es⟩ := admit_settled w (requestIn w r) (fun t => (performDone t r).getD ⟨t, 0, none, false⟩) hau (by
    rw [hd]
    exact hth)
  rw [hd] at es
  have hadmit : admitRequest w r = d.s := by
    unfold admitRequest
    rw [hd]
    dsimp only
    rw [ed]
    dsimp only
    rw [if_neg (by rw [capacityHolds_ready hr hseq]; decide)]
  have hadm : d.s.seq.adm = D.seq.adm := congrArg (fun x => x.seq.adm) es.rest
  have hfw : forwards s r = false := by unfold forwards; rw [hr.leads]; simp
  have hserve : serveRequest s r = d.s := by
    unfold initDiscard at hw
    unfold serveRequest
    dsimp only
    rw [hn, h.head, hfw, h.free, hw, hpr, hadmit, hadm, hq]
    simp
  exact ⟨d, ed, hd, (request_serves hr h).trans hserve, es⟩

/-- The same, where the effect leaves the partner's digests. -/
theorem request_runs {s w D : State} {r : Rq} {x : SessRes} {e : Eff} {key : Bytes} (hr : Ready s) (h : Sound s r) (hn : isNumbered s r = true)
    (hw : initDiscard (takeInput s r) r = w) (hseq : w.seq = s.seq) (hpr : partnerRuns w r = false) (hau : auditHolds w (requestIn w r) = false)
    (hp : perform (number w) r = some (e, x, key))
    (hD : raiseFault (pushSlot (claimTags e.s r x e) (slotFor e.s r x key true e)) e.code r.phys (objectNeeds (number w) r.idx r.sub (parseSeg r.body).data.length) = D)
    (hq : D.seq.adm = s.seq.adm + 1) (hth : D.sheaf.theirs = s.sheaf.theirs) :
    ∃ d, admitOne w (requestIn w r) (fun t => (performDone t r).getD ⟨t, 0, none, false⟩) = some d ∧
      performDone (number w) r = some ⟨D, e.code, (slotFor e.s r x key true e).resp, e.random⟩ ∧ request s r = d.s ∧ Settled D d.s :=
  request_runs_at hr h hn hw hseq hpr hau hp hD hq (by rw [hth, hq]; exact hr.first)

/-- The same, with a code that is no fault of a unit. -/
theorem request_runs_from_at {s w : State} {r : Rq} {x : SessRes} {e : Eff} {key : Bytes} (hr : Ready s) (h : Sound s r) (hn : isNumbered s r = true)
    (hw : initDiscard (takeInput s r) r = w) (hseq : w.seq = s.seq) (hpr : partnerRuns w r = false) (hau : auditHolds w (requestIn w r) = false)
    (hp : perform (number w) r = some (e, x, key)) (hc : e.code ≠ Abt.compareFault ∧ e.code ≠ Abt.resultCheck) (hq : e.s.seq.adm = s.seq.adm + 1)
    (hth : SMap.look e.s.sheaf.theirs e.s.seq.adm = none) :
    ∃ d, admitOne w (requestIn w r) (fun t => (performDone t r).getD ⟨t, 0, none, false⟩) = some d ∧
      performDone (number w) r = some ⟨pushSlot (claimTags e.s r x e) (slotFor e.s r x key true e), e.code, (slotFor e.s r x key true e).resp, e.random⟩ ∧
      request s r = d.s ∧ Settled (pushSlot e.s (slotFor e.s r x key true e)) d.s := by
  have hfault : ∀ u a, raiseFault u e.code r.phys a = u := by
    intro u a
    unfold raiseFault
    rw [h.sound]
    simp [hc.1, hc.2]
  have hct : (claimTags e.s r x e).sheaf = e.s.sheaf ∧ (claimTags e.s r x e).seq = e.s.seq := by unfold claimTags; split <;> exact ⟨rfl, rfl⟩
  obtain ⟨d, ed, hd, hrun, es⟩ := request_runs_at hr h hn hw hseq hpr hau hp (hfault _ _) (by dsimp only [pushSlot]; rw [hct.2, hq])
    (by dsimp only [pushSlot]; rw [hct.1, hct.2, hth])
  exact ⟨d, ed, hd, hrun, Settled.trans ((settled_tags e.s r x e).push (slotFor e.s r x key true e)) es⟩

/-- The same, where the effect leaves the partner's digests. -/
theorem request_runs_from {s w : State} {r : Rq} {x : SessRes} {e : Eff} {key : Bytes} (hr : Ready s) (h : Sound s r) (hn : isNumbered s r = true)
    (hw : initDiscard (takeInput s r) r = w) (hseq : w.seq = s.seq) (hpr : partnerRuns w r = false) (hau : auditHolds w (requestIn w r) = false)
    (hp : perform (number w) r = some (e, x, key)) (hc : e.code ≠ Abt.compareFault ∧ e.code ≠ Abt.resultCheck) (hq : e.s.seq.adm = s.seq.adm + 1)
    (hth : e.s.sheaf.theirs = s.sheaf.theirs) :
    ∃ d, admitOne w (requestIn w r) (fun t => (performDone t r).getD ⟨t, 0, none, false⟩) = some d ∧
      performDone (number w) r = some ⟨pushSlot (claimTags e.s r x e) (slotFor e.s r x key true e), e.code, (slotFor e.s r x key true e).resp, e.random⟩ ∧
      request s r = d.s ∧ Settled (pushSlot e.s (slotFor e.s r x key true e)) d.s :=
  request_runs_from_at hr h hn hw hseq hpr hau hp hc hq (by rw [hth, hq]; exact hr.first)

/-- What such a request settles. -/
theorem request_admits_from {s w : State} {r : Rq} {x : SessRes} {e : Eff} {key : Bytes} (hr : Ready s) (h : Sound s r) (hn : isNumbered s r = true)
    (hw : initDiscard (takeInput s r) r = w) (hseq : w.seq = s.seq) (hpr : partnerRuns w r = false) (hau : auditHolds w (requestIn w r) = false)
    (hp : perform (number w) r = some (e, x, key)) (hc : e.code ≠ Abt.compareFault ∧ e.code ≠ Abt.resultCheck) (hq : e.s.seq.adm = s.seq.adm + 1)
    (hth : e.s.sheaf.theirs = s.sheaf.theirs) : Settled (pushSlot e.s (slotFor e.s r x key true e)) (request s r) := by
  obtain ⟨d, -, -, hrun, hset⟩ := request_runs_from hr h hn hw hseq hpr hau hp hc hq hth
  rw [hrun]
  exact hset

end Sys2Proof.Machine
end

section
/-! SUPPORT. Where the words of R114 to R121 do not hold: a bind over a store that is listed twice and worn out. -/

namespace Sys2Proof.Machine

theorem cacheUse_frame (s : State) (n : Nat) : (cacheUse s n).pers = s.pers ∧ (cacheUse s n).seq = s.seq ∧ (cacheUse s n).sheaf = s.sheaf ∧ (cacheUse s n).slots = s.slots := by
  unfold cacheUse
  dsimp only
  split
  · exact ⟨rfl, rfl, rfl, rfl⟩
  · split <;> simp

theorem warm_frame (s : State) (n : Nat) : (warm s n).pers = s.pers ∧ (warm s n).seq = s.seq ∧ (warm s n).sheaf = s.sheaf ∧ (warm s n).slots = s.slots := by
  unfold warm
  dsimp only
  split
  · exact cacheUse_frame s _
  · exact ⟨rfl, rfl, rfl, rfl⟩

/-- A unit in READY without sessions, over such a store. -/
def wornUnit : State := { State.reset with stage := 0x11, pers := twiceListed State.reset.pers }

/-- A BIND_REQUEST of the host link for role OPERATOR. -/
def wornBind : Req := ⟨⟨1, 0, 0, 0, none, .ok⟩, 0, 0, [1, 0, 0, 0] ++ zeros 16⟩

theorem wornUnit_ready : Ready wornUnit :=
  ⟨rfl, rfl, rfl, rfl, rfl, rfl, rfl, by decide, rfl, rfl, by decide, by decide, by decide, by decide⟩

theorem wornBind_anonymous : Anonymous wornUnit (reqRq wornBind 0x10) :=
  { sound := rfl, head := by decide, oldest := by decide, turn := by decide, free := by decide, reach := by decide, log := by decide, here := by decide,
    trailer := rfl }

/-- A BIND_REQUEST that its checks let pass opens a pending session, and keeps the store (R117). -/
theorem bindRequestOp_ok {u : State} {o k : Nat} {body : Bytes} (hlen : body.length = 20) (hrole : 1 ≤ (body.getD 0 0).toNat ∧ (body.getD 0 0).toNat ≤ 3)
    (hcred : (body.getD 1 0).toNat ≤ 15) (hj : reserveFull (expirePending u) = false) (hk : freeSlot (expirePending u) = some k)
    (hs : slotsHeld (expirePending u) o < 4) (hf : bindFault (expirePending u) .ok = 0) :
    (bindRequestOp u o body .ok).code = 0 ∧ (bindRequestOp u o body .ok).s.pers = u.pers := by
  unfold bindRequestOp
  dsimp only
  rw [if_neg (by omega), if_neg (by omega), if_neg (by omega), hj, hk, hf]
  dsimp only
  rw [if_neg (by decide), if_neg (Nat.not_le.mpr hs), if_neg (by decide)]
  exact ⟨rfl, (warm_frame _ _).1⟩

/-- An effect over such a store that keeps the store is kept out (R397). -/
theorem keptOut_twiceListed {u : State} {r : Rq} {e : Eff} {p : Pers} (hu : u.pers = twiceListed p) (he : e.s.pers = u.pers) (h0 : e.code = 0)
    (hr : r.svc ≠ 2 ∧ r.svc ≠ 6) : keptOut u r e = Eff.fail u e.lat Abt.wearLimit := by
  have hform : commitForm u.pers e.s.pers = .ring := by rw [he, hu]; exact commitForm_twiceListed p
  have hwear : wears u e.s = true := by
    unfold wears
    rw [hform, hu]
    rfl
  unfold keptOut
  rw [hform, hwear]
  simp [h0, hr.1, hr.2]

/-- The numbered state in which the bind is served. -/
def wornServed : State := calledBy (number wornUnit) (nobody (reqRq wornBind 0x10))

theorem wornServed_pers : wornServed.pers = twiceListed State.reset.pers := by
  show (number wornUnit).pers = _
  unfold number
  dsimp only
  rw [if_neg (by decide), count_pers]
  rfl

/-- Its admission is refused with ABT_WEAR_LIMIT: the pending session, which is volatile, is lost to a commit that writes nothing. -/
theorem wornBind_refused : ∃ lat y, y.code = Abt.wearLimit ∧
    Settled (pushSlot (Eff.fail wornServed lat Abt.wearLimit).s y) (request wornUnit (reqRq wornBind 0x10)) := by
  have hw : initDiscard (takeInput wornUnit (reqRq wornBind 0x10)) (reqRq wornBind 0x10) = wornUnit := by
    rw [initDiscard_same (.inl rfl)]
    rfl
  have hcheck := sessionCheck_none (u := number wornUnit) wornBind_anonymous.trailer (number wornUnit).seq.admTime
  obtain ⟨hcode, hpers⟩ := bindRequestOp_ok (u := wornServed) (o := 1) (k := 0) (body := wornBind.body) (by decide) (by decide) (by decide)
    (by decide) (by decide) (by decide) (by decide)
  have hperf := perform_kept (r := reqRq wornBind 0x10) hcheck rfl rfl (by simp [nobody]) (by decide)
    (show service wornServed (nobody (reqRq wornBind 0x10)) (reqRq wornBind 0x10) true = .out (bindRequestOp wornServed 1 wornBind.body .ok) from rfl)
    (keptOut_twiceListed wornServed_pers hpers hcode (by decide))
  have hset := request_admits_from wornUnit_ready wornBind_anonymous.toSound rfl hw rfl (by decide) (by decide) hperf (by decide) (by decide) (by decide)
  exact ⟨_, _, rfl, hset⟩

/-- Refutes O11: over a store whose epoch table is listed twice, at the endurance limit of the commit ring, a BIND_REQUEST that meets every hypothesis is
answered ABT_WEAR_LIMIT. -/
theorem not_sessionServicesComplete : ¬ Obligations.session_services_complete := by
  unfold Obligations.session_services_complete
  rintro ⟨⟨hbind, -⟩, -⟩
  obtain ⟨t, hexec, ⟨-, -, x, hx, -, -, -, -, hcode, -⟩, -⟩ := hbind wornUnit wornBind 1 0 (zeros 16) 0 _ _ rfl wornUnit_ready wornBind_anonymous rfl (by decide)
    (by decide) (by decide) (by decide) rfl (by decide) (by decide) (by decide) (by decide) (by decide)
  obtain ⟨lat, y, hy, hset⟩ := wornBind_refused
  cases hexec
  have hslots : (request wornUnit (reqRq wornBind 0x10)).slots = [{ y with id := wornServed.seq.nextId }] := by
    have hrest := congrArg (fun u => u.slots) hset.rest
    exact hrest.trans rfl
  have hx' : x ∈ (request wornUnit (reqRq wornBind 0x10)).slots := hx
  rw [hslots, List.mem_singleton] at hx'
  rw [hx'] at hcode
  exact absurd (hy.symm.trans hcode) (by decide)

end Sys2Proof.Machine
end

section
/-! SUPPORT. Internal admissions over a store whose commit ring is worn out (R397): none that must be a ring commit has an effect. -/

namespace Sys2Proof.Machine

theorem number_twiceListed {s : State} {p : Pers} (h : s.pers = twiceListed p) : ∃ q, (number s).pers = twiceListed q := by
  obtain ⟨n, e⟩ := number_pers s
  exact ⟨{ p with reserved := n }, by rw [e, h]; rfl⟩

/-- The entry at the head of the queue, admitted without effect where this would be a ring commit that keeps the store. -/
theorem head_worn {s : State} {p : Pers} {e : IntReq} {q : List IntReq} {ok : IntReq → Bool} {i : IntReq → AdmIn} {f : IntReq → State → State × Nat}
    (hp : s.pers = twiceListed p) (hq : s.internal = e :: q) (hok : ok e = true) (h : Inward s (i e)) (hx : (i e).excepted = false)
    (hkeep : (f e (number { s with internal := q })).1.pers = (number { s with internal := q }).pers)
    (hs : num (f e (number { s with internal := q })).1 0x2000 2 = 0) : Settled (number { s with internal := q }) (admitHead s ok i f) := by
  have hset := admitInternal_settled (h.popped q) (s := { s with internal := q }) hs
  obtain ⟨r, hr⟩ := number_twiceListed (s := { s with internal := q }) hp
  rw [hx, ringCommit_twiceListed hr hkeep] at hset
  have hadm : (number { s with internal := q }).seq.adm = s.seq.adm + 1 := by rw [number_seq]
  have hne : (admitInternal { s with internal := q } (i e) (f e)).seq.adm ≠ s.seq.adm := by
    have : (admitInternal { s with internal := q } (i e) (f e)).seq.adm = (number { s with internal := q }).seq.adm := congrArg (fun x => x.seq.adm) hset.rest
    rw [this, hadm]
    omega
  rw [admitHead_first hq hok hne]
  exact hset

/-- A unit in READY over such a store, with entry e alone on its internal queue. -/
def wornQueue (e : IntReq) : State := { State.reset with stage := 0x11, internal := [e], pers := twiceListed State.reset.pers }

/-- Refutes O49: a start of the toggle, recorded over a store whose epoch table is listed twice, at the endurance limit of the commit ring, leaves
0xDB30.06 as it was. -/
theorem not_lane0MessagesAreAdmitted : ¬ Obligations.lane_0_messages_are_admitted := by
  unfold Obligations.lane_0_messages_are_admitted
  rintro ⟨-, h⟩
  obtain ⟨-, -, -, htoggle⟩ := h (wornQueue (.toggle true))
  obtain ⟨t, hexec, -, -, -, hon, -⟩ := htoggle true [] rfl ⟨by decide, by decide, rfl⟩
  obtain ⟨hset, -⟩ := hon rfl
  have hstay := head_worn (s := wornQueue (.toggle true)) (ok := fun e => match e with | .toggle _ => true | _ => false)
    (i := fun e => match e with | .toggle b => internalIn 15 [if b then 1 else 0] false | _ => internalIn 15 [] false)
    (f := fun e u => match e with | .toggle b => (toggleOp u b, 0) | _ => (u, 0)) rfl rfl rfl ⟨by decide, by decide, rfl⟩ rfl rfl (by decide)
  cases hexec
  have hnum := hstay.num (i := 0xDB30) (k := 6) (by decide) rfl
  rw [num_number] at hnum
  exact absurd (hnum.symm.trans hset) (by decide)

/-- Refutes O54: a clock monitor status reported over such a store leaves 0x2100.0B as it was. -/
theorem not_internalAdmissionsComplete : ¬ Obligations.internal_admissions_complete := by
  unfold Obligations.internal_admissions_complete
  rintro ⟨-, h⟩
  obtain ⟨-, -, -, -, -, hclocks, -⟩ := h (wornQueue (.clocks 2)) []
  obtain ⟨t, hexec, -, -, -, hset, -⟩ := hclocks 2 rfl ⟨by decide, by decide, rfl⟩
  have hstay : Settled (number { wornQueue (.clocks 2) with internal := [] }) (Intern.backgroundReport (wornQueue (.clocks 2))) := by
    unfold Intern.backgroundReport
    refine head_worn rfl rfl rfl ⟨?_, ?_, rfl⟩ rfl rfl ?_ <;> decide
  cases hexec
  have hnum := hstay.num (i := 0x2100) (k := 11) (by decide) rfl
  rw [num_number] at hnum
  exact absurd (hnum.symm.trans hset) (by decide)

/-- Refutes O58: over such a store the admission of an automatic join starts none. -/
theorem not_joinCompletes : ¬ Obligations.join_completes := by
  unfold Obligations.join_completes
  intro h
  obtain ⟨-, -, -, -, hauto⟩ := h (wornQueue .autoJoin)
  obtain ⟨t, hexec, -, -, -, -, hgo, -⟩ := hauto [] rfl (by decide) (by decide) rfl
  obtain ⟨hset, -⟩ := hgo ⟨by decide, by decide, by decide, by decide⟩
  have hstay : Settled (number { wornQueue .autoJoin with internal := [] }) (Shf.autoJoin (wornQueue .autoJoin)) :=
    head_worn (s := wornQueue .autoJoin) rfl rfl (by decide) ⟨by decide, by decide, rfl⟩ rfl rfl (by decide)
  cases hexec
  have hnum := hstay.num (i := 0xF000) (k := 1) (by decide) rfl
  rw [num_number] at hnum
  exact absurd (hnum.symm.trans hset) (by decide)

end Sys2Proof.Machine
end

section
/-! SUPPORT. Where the words of R147 to R149 do not hold: a data field of a length that no DLC gives (log 95). -/

namespace Sys2Proof.Machine

/-- A field die on line with CAN FD controller 0 enabled, and one reassembly open for node 1 of it. -/
def assembling : Field := { State.reset.field with run := true, link := 2, notice := 0, nv := [(objKey 0x1200 1, [1])], ports := [(0, ⟨0, 0, 0, 0, 0, 0, false⟩)],
                                                   reasm := [(1, ⟨100, [], 1, 0⟩)] }

theorem look_assembling : SMap.look assembling.reasm ((0 : Fin 4).val * 256 + 1) = some ⟨100, [], 1, 0⟩ := by decide +kernel

theorem assembling_takes : takesFrames assembling (0 : Fin 4).val :=
  ⟨⟨rfl, rfl, Nat.zero_ne_one⟩, by decide +kernel, fun _ => by decide +kernel⟩

/-- A CONSECUTIVE of nine bytes out of sequence: no data length code gives nine bytes. -/
def nineBytes : Bytes := 0x82 :: zeros 8

theorem canBdpIn_badLength (f : Field) (c node : Nat) {d : Bytes} (hd : Fld.dlcOk d.length = false) : (Fld.canBdpIn f c node d).reasm = f.reasm := by
  unfold Fld.canBdpIn
  rw [hd]
  simp only [Bool.not_false, ↓reduceIte]
  split <;> rfl

theorem reportChange_reasm (g f : Field) : (Fld.reportChange g f).reasm = f.reasm := by
  unfold Fld.reportChange Fld.send
  repeat' split
  all_goals rfl

/-- Refutes O47: a CONSECUTIVE out of sequence whose data field has nine bytes is dropped and counted, and leaves the reassembly open. -/
theorem not_networkFramesAreCarried : ¬ Obligations.network_frames_are_carried := by
  unfold Obligations.network_frames_are_carried
  intro h
  obtain ⟨hcan, -⟩ := h { State.reset with field := assembling }
  obtain ⟨-, -, hconsecutive, -⟩ := hcan 0 1 assembling_takes (by decide) (by decide)
  obtain ⟨-, -, hbad, -⟩ := hconsecutive _ look_assembling
  obtain ⟨g, hexec, ⟨-, hnone, -⟩, -⟩ := hbad nineBytes (by decide) (by decide)
  cases hexec
  have hstay : (Fld.reportChange assembling (Fld.canBdpIn assembling 0 1 nineBytes)).reasm = assembling.reasm :=
    (reportChange_reasm _ _).trans (canBdpIn_badLength _ _ _ (by decide))
  change SMap.look (Fld.reportChange assembling (Fld.canBdpIn assembling 0 1 nineBytes)).reasm 1 = none at hnone
  rw [hstay] at hnone
  cases hnone

end Sys2Proof.Machine
end

section
/-! SUPPORT. Expedited writes of a client to a unit in the field (R106 to R108, R188): what the objects read after one. -/

namespace Sys2Proof.Machine

section
variable {s : State} {tr : Trailer}

theorem sheafOn_alone (h : num s 0x2000 2 = 0) : sheafOn s = false := by
  unfold sheafOn modeFlag
  rw [h]
  rfl

theorem sheafOn_admittedIn (h : num s 0x2000 2 = 0) (r : Rq) : sheafOn (admittedIn s r tr) = false := sheafOn_alone (by rw [num_admittedIn, h])

theorem othersStand_admittedIn (s : State) (r : Rq) (tr : Trailer) (xs : List (Nat × Nat)) : OthersStand s (admittedIn s r tr) xs :=
  fun i k _ _ _ => getObj_admittedIn s r tr i k

theorem OthersStand.widen {s t : State} {xs ys : List (Nat × Nat)} (h : OthersStand s t xs) (hxy : ∀ p ∈ xs, p ∈ ys) : OthersStand s t ys :=
  fun i k hk hb hn => h i k hk hb fun hx => hn (hxy _ hx)

theorem OthersStand.setObj {s t : State} {xs : List (Nat × Nat)} (h : OthersStand s t xs) {i k : Nat} (v : Val) (hk : k < 256) (hx : (i, k) ∈ xs) :
    OthersStand s (setObj t i k v) xs := by
  intro i' k' hk' hb hn
  rw [getObj_setObj t v hk hk', if_neg, h i' k' hk' hb hn]
  rintro ⟨rfl, rfl, -⟩
  exact hn hx

theorem OthersStand.setNum {s t : State} {xs : List (Nat × Nat)} (h : OthersStand s t xs) {i k : Nat} (n : Nat) (hk : k < 256) (hx : (i, k) ∈ xs) :
    OthersStand s (setNum t i k n) xs := h.setObj (.num n) hk hx

end

section
variable {s a t : State} {i k : Nat} {v : Val} {y : Slot} {xs : List (Nat × Nat)}

/-- After a settled write nothing changes but the object written and what its effect changed. -/
theorem written_others (h : Settled (pushSlot (setObj a i k v) y) t) (hk : k < 256) (ha : OthersStand s a xs) (hx : (i, k) ∈ xs) : OthersStand s t xs := by
  intro i' k' hk' hb hn
  rw [settled_getObj h hk hk' hb, if_neg, ha i' k' hk' hb hn]
  rintro ⟨rfl, rfl, -⟩
  exact hn hx

theorem written_value (h : Settled (pushSlot (setObj a i k v) y) t) (hk : k < 256) (hb : bookkeeping i k = false) (hf : (Dict.find i k).2.isSome = true) :
    getObj t i k = v := by
  rw [settled_getObj h hk hk hb, if_pos ⟨rfl, rfl, hf⟩]

theorem written_num {n : Nat} (h : Settled (pushSlot (setObj a i k v) y) t) (hk : k < 256) (hb : bookkeeping i k = false)
    (hf : (Dict.find i k).2.isSome = true) (hv : v.toNat = n) : num t i k = n := by
  unfold num
  rw [written_value h hk hb hf, hv]

theorem written_otherNum (h : Settled (pushSlot (setObj a i k v) y) t) (hk : k < 256) {i' k' : Nat} (hk' : k' < 256) (hb : bookkeeping i' k' = false)
    (hne : ¬(i' = i ∧ k' = k)) : num t i' k' = num a i' k' := by
  unfold num
  rw [settled_getObj h hk hk' hb, if_neg (fun e => hne ⟨e.1, e.2.1⟩)]

end

theorem lifecycleCheck_elsewhere {u : State} {w : Bool} {i k : Nat} (h : i ≠ 0xCA00 ∧ i ≠ 0xD100 ∧ i ≠ 0xF000) : lifecycleCheck u w i k = 0 := by
  unfold lifecycleCheck
  simp [h.1, h.2.1, h.2.2]

theorem ownerCheck_elsewhere {u : State} {c : Ctx} {w : Bool} {i k : Nat} (h : i < 0x4000 ∨ (0xC000 ≤ i ∧ i < 0xCF00) ∨ 0xCF38 ≤ i) : ownerCheck u c w i k = 0 := by
  unfold ownerCheck isSendRecv
  have h1 : ¬(0x4000 ≤ i ∧ i < 0xC000) := by omega
  have h2 : ¬(0xCF00 ≤ i ∧ i < 0xCF10 ∧ (k = 2 ∨ k = 3 ∨ k = 4 ∨ k ≥ 6)) := by omega
  have h3 : ¬(0xCF30 ≤ i ∧ i < 0xCF38 ∧ (k = 2 ∨ k = 3 ∨ k = 4 ∨ k ≥ 6)) := by omega
  simp only [decide_eq_false h1, Bool.false_and, Bool.false_eq_true, ↓reduceIte, if_neg h2, if_neg h3]

/-- Outside a pair check 10 asks nothing of a write but in the families that it names (R107). -/
theorem modeCheck_elsewhere {u : State} {c : Ctx} {i k : Nat} {d : Desc} (hs : sheafOn u = false) (h1 : i < 0x4000 ∨ 0xC800 ≤ i)
    (h2 : ¬(0xE000 ≤ i ∧ i < 0xF000 ∧ d.role = .service)) (h3 : i ∉ [0xDC80, 0xCA00, 0xCA20, 0xD100, 0xF000]) : modeCheck u c true i k d = 0 := by
  simp only [List.mem_cons, List.not_mem_nil, or_false, not_or] at h3
  obtain ⟨hlog, hkeys, hown, happlet, hpair⟩ := h3
  have hc : ¬(0x4000 ≤ i ∧ i < 0xC000) := by omega
  have hcn : ¬(0xC000 ≤ i ∧ i < 0xC800) := by omega
  have hn : needsProvision u i k = false := by unfold needsProvision; simp [hkeys, hown, happlet, hpair, hcn]
  have hsr : isSendRecv i k = false := by unfold isSendRecv; rw [decide_eq_false hc]; rfl
  have he : ¬(0xE000 ≤ i ∧ i < 0xF000 ∧ d.role = .service ∧ (!serviceOn u) = true) := fun h => h2 ⟨h.1, h.2.1, h.2.2.1⟩
  unfold modeCheck
  rw [if_neg (fun h => hc ⟨h.1, h.2.1⟩), hsr, if_neg (by simp), if_neg he, hn, hs]
  simp [hlog, hown]

/-- A client's expedited write on a unit in the field (R9) outside a pair and CALDERA, whose effect e0 has no code. -/
theorem open_completes {s : State} {h : Hdr} {tr : Trailer} {z : Session} {i k : Nat} {v : Bytes} {d : Desc} {e0 : Eff} {c : Instr}
    {P : State → Prop} (ho : Open s) (hcl : Client s (rqWrite h i k v) tr z d.role) (hexec : exec c s = coreCmd (fun s => request s (rqWrite h i k v)) s)
    (hf : Dict.find i k = (true, some d)) (hl : d.ty ≠ .domain ∧ d.ty ≠ .label ∧ v.length = d.size ∧ d.size ≤ 24) (ha : d.acc ≠ .const ∧ d.acc ≠ .ro)
    (hlong : d.longOp = true → longRuns s = false)
    (hlc : ∀ u, lifecycle u = 0x5A → lifecycleCheck u true i k = 0)
    (how : ∀ c, c.origin = h.origin → c.slot = some tr.slot → ownerCheck (admittedIn s (rqWrite h i k v) tr) c true i k = 0)
    (hmo : ∀ c, sheafOn (admittedIn s (rqWrite h i k v) tr) = false → c.origin = h.origin → modeCheck (admittedIn s (rqWrite h i k v) tr) c true i k d = 0)
    (hx : ¬(i = 0xCA20 ∧ k = 1)) (hca : isCarried i k = false) (hse : isSensorSetting i k = false)
    (hw : writeValue (admittedIn s (rqWrite h i k v) tr) (callerOf (rqWrite h i k v) tr z) i k d v .ok = e0) (h0 : e0.code = 0)
    (hg : e0.acts.any stagesEffect = false) (hb : e0.body = []) (hst : Steady s e0.s)
    (hP : ∀ y t, Settled (pushSlot (setObj e0.s i k (d.decode v)) y) t → P t) : Completes c s (rqWrite h i k v) z e0.lat e0.acts P :=
  client_completes hexec hf hcl ho.toRoom ho.single (.inl ho.caldera) hl ha hlong (hlc _ (lifecycle_admittedIn_open ho _)) (how _ rfl rfl)
    (hmo _ (sheafOn_admittedIn ho.single _) rfl) hx hca hse hw h0 hg hst hP hb

end Sys2Proof.Machine
end

section
/-! SUPPORT. The system actions (R80, R127, R156). -/

namespace Sys2Proof.Machine

/-- A self-clearing action of one byte that only an owner takes. -/
def actionDesc (long : Bool) : Desc := ⟨.u8, 1, .rwx, .owner, false, long, .num 0⟩

/-- An action whose effect is its acts alone. -/
theorem action_completes {s : State} {h : Hdr} {tr : Trailer} {z : Session} {i k lat : Nat} {long lo : Bool} {acts : List Act} {c : Instr} (ho : Open s)
    (hcl : Client s (rqWrite h i k [1]) tr z .owner) (hexec : exec c s = coreCmd (fun s => request s (rqWrite h i k [1])) s) (hk : k < 256)
    (hf : Dict.find i k = (true, some (actionDesc long))) (hlong : long = true → longRuns s = false) (hlc : ∀ u, lifecycle u = 0x5A → lifecycleCheck u true i k = 0)
    (how : ∀ u c, ownerCheck u c true i k = 0) (hmo : ∀ u c, sheafOn u = false → modeCheck u c true i k (actionDesc long) = 0) (hx : ¬(i = 0xCA20 ∧ k = 1))
    (hca : isCarried i k = false) (hse : isSensorSetting i k = false)
    (hw : writeValue (admittedIn s (rqWrite h i k [1]) tr) (callerOf (rqWrite h i k [1]) tr z) i k (actionDesc long) [1] .ok =
      { Eff.ok (admittedIn s (rqWrite h i k [1]) tr) lat with acts := acts, long := lo }) (hg : acts.any stagesEffect = false) :
    Completes c s (rqWrite h i k [1]) z lat acts fun t => OthersStand s t [(i, k)] :=
  open_completes (d := actionDesc long) ho hcl hexec hf ⟨by simp [actionDesc], by simp [actionDesc], rfl, by simp [actionDesc]⟩ (by simp [actionDesc]) hlong hlc
    (fun c _ _ => how _ c) (fun c hs _ => hmo _ c hs) hx hca hse hw rfl hg rfl (steady_admitted s _ tr)
    fun _ _ ht => written_others ht hk (othersStand_admittedIn s _ tr [(i, k)]) (List.mem_singleton_self _)

/-- Recover now asks the field die, where recovery is not automatic (R156). -/
theorem writeValue_recover {u : State} {c : Ctx} {n : Nat} (hn : n < 4) (hman : num u (0x1200 + n) 7 ≠ 0) :
    writeValue u c (0x1200 + n) 8 (actionDesc false) [1] .ok = { Eff.ok u Lat.write with acts := [.lane1 (.recover n)] } := by
  unfold writeValue
  dsimp only
  rw [if_neg (by decide), if_neg (by omega), if_neg (by omega), if_neg (by omega), if_neg (by omega), if_neg (by omega), if_neg (by omega),
    if_neg (by omega), if_neg (by omega), if_pos (by omega), decide_eq_false hman, show 0x1200 + n - 0x1200 = n by omega]
  rfl

/-- Settles O12: each action is a write of 1 whose effect is its acts alone. -/
theorem systemActionsComplete : Obligations.system_actions_complete := by
  unfold Obligations.system_actions_complete
  intro s h tr z ho
  refine ⟨fun hcl => ?_, fun hcl => ?_, fun hcl hlong => ?_, fun can hcl hman => ?_⟩
  · exact action_completes (long := false) (lo := false) ho hcl rfl (by decide) rfl (by simp) (fun _ _ => rfl) (fun _ _ => rfl)
      (fun u c hs => by simp [modeCheck, hs, needsProvision, isSendRecv]) (by decide) rfl rfl rfl rfl
  · exact action_completes (long := false) (lo := false) ho hcl rfl (by decide) rfl (by simp) (fun _ _ => rfl) (fun _ _ => rfl)
      (fun u c hs => by simp [modeCheck, hs, needsProvision, isSendRecv]) (by decide) rfl rfl rfl rfl
  · exact action_completes (long := true) (lo := true) ho hcl rfl (by decide) rfl (fun _ => hlong) (fun _ _ => rfl) (fun _ _ => rfl)
      (fun u c hs => by simp [modeCheck, actionDesc, needsProvision, isSendRecv]) (by decide) rfl rfl rfl rfl
  · have hc := can.isLt
    exact action_completes (long := false) (lo := false) ho hcl rfl (by decide) (find_can hc 8) (by simp) (fun _ _ => lifecycleCheck_elsewhere (by omega))
      (fun _ _ => ownerCheck_elsewhere (by omega)) (fun u c hs => modeCheck_elsewhere hs (by omega) (by simp [actionDesc]) (by simp; omega)) (by omega)
      (by simp [isCarried]; omega) (by simp [isSensorSetting]; omega) (writeValue_recover hc (by rw [num_admittedIn]; exact hman)) rfl

end Sys2Proof.Machine
end

section
/-! SUPPORT. Objects that only hold their value (R106 to R108, R123). -/

namespace Sys2Proof.Machine

theorem SMap.mem_of_look {α : Type} {m : SMap α} {q : Nat} {v : α} (h : SMap.look m q = some v) : (q, v) ∈ m := by
  induction m with
  | nil => cases h
  | cons p m ih =>
    obtain ⟨k, w⟩ := p
    unfold SMap.look at h
    split at h
    · rename_i hk
      cases h
      rw [hk]
      exact List.mem_cons_self ..
    · exact List.mem_cons_of_mem _ (ih h)

theorem all_of_look {α : Type} {m : SMap α} {q : Nat} {v : α} {p : Nat → α → Bool} (hall : (m.all fun e => p e.1 e.2) = true) (h : SMap.look m q = some v) :
    p q v = true := List.all_eq_true.mp hall (q, v) (SMap.mem_of_look h)

theorem holdsOnly_iff (i : Nat) : holdsOnly i = true ↔ (i = 0x1010 ∨ i = 0x1020 ∨ i = 0x2010 ∨ i = 0xDC00 ∨ i = 0xE300) ∨ (0x3000 ≤ i ∧ i < 0x3040) := by
  unfold holdsOnly
  simp

/-- What a description says of an object that only holds its value: no long operation, and nothing for SERVICE or PAIR; none that the end of an admission counts in is written. -/
def heldPlainly (i k : Nat) (d : Desc) : Bool :=
  !d.longOp && decide (d.role ≠ .service ∧ d.role ≠ .pair) && (decide (d.acc = .const ∨ d.acc = .ro) || !bookkeeping i k)

theorem heldPlainly_of {i k : Nat} {d : Desc} (h : holdsOnly i = true) (hf : Dict.find i k = (true, some d)) : heldPlainly i k d = true := by
  rcases (holdsOnly_iff i).mp h with (rfl | rfl | rfl | rfl | rfl) | hi
  · exact all_of_look (m := Dict.tSessions) (p := heldPlainly 0x1010) (by decide) (congrArg Prod.snd hf)
  · exact all_of_look (m := Dict.tHostLink) (p := heldPlainly 0x1020) (by decide) (congrArg Prod.snd hf)
  · exact all_of_look (m := Dict.tPower) (p := heldPlainly 0x2010) (by decide) (congrArg Prod.snd hf)
  · exact all_of_look (m := Dict.tJournal) (p := heldPlainly 0xDC00) (by decide) (congrArg Prod.snd hf)
  · exact all_of_look (m := Dict.tTelemetry) (p := heldPlainly 0xE300) (by decide) (congrArg Prod.snd hf)
  · obtain ⟨n, rfl⟩ := Nat.exists_eq_add_of_le hi.1
    rw [find_template (by omega)] at hf
    have htable := all_of_look (m := Dict.tTemplate) (p := heldPlainly 0x3000) (by decide) (congrArg Prod.snd hf)
    have hb : ∀ n, n < 64 → bookkeeping (0x3000 + n) k = false := by
      intro n hn
      simp only [bookkeeping, Bool.or_eq_false_iff, Bool.and_eq_false_iff, decide_eq_false_iff_not]
      omega
    unfold heldPlainly at htable ⊢
    rw [hb n (by omega)]
    rwa [hb 0 (by omega)] at htable

/-- What a write to such an object comes to, where its value is well formed (R107). -/
theorem writeValue_holdsOnly {u : State} {c : Ctx} {i k : Nat} {d : Desc} {v : Bytes} {p : Phys} (h : holdsOnly i = true) (henc : encodingCheck d v = 0) :
    writeValue u c i k d v p = Eff.when u (plainCheck u i k (leNat v) v) u [] := by
  have hi := (holdsOnly_iff i).mp h
  unfold writeValue
  dsimp only
  rw [henc, if_neg (by decide), if_neg (by omega), if_neg (by omega), if_neg (by omega), if_neg (by omega), if_neg (by omega), if_neg (by omega),
    if_neg (by omega), if_neg (by omega), if_neg (by omega)]
  split
  any_goals omega
  rfl

theorem reqRq_write {r : Req} {v : Bytes} (h : r.body = leBytes 2 v.length ++ v) : reqRq r 2 = rqWrite r.h r.idx r.sub v := by
  unfold reqRq rqWrite hdrRq
  rw [h]

/-- Settles O9: past its checks such a write has no effect but its value. -/
theorem writeStoresItsValue : Obligations.write_stores_its_value := by
  unfold Obligations.write_stores_its_value
  rintro s r tr z d v q rfl hcl ho hf hsub hacc hdom hlabel hlen hsize hbody hholds henc hplain
  rw [reqRq_write hbody] at hcl hplain ⊢
  have hi := (holdsOnly_iff r.idx).mp hholds
  have hp := heldPlainly_of hholds hf
  have hrw : d.acc ≠ .const ∧ d.acc ≠ .ro := by rcases hacc with h | h <;> rw [h] <;> decide
  unfold heldPlainly at hp
  simp only [Bool.and_eq_true, Bool.not_eq_true', decide_eq_true_eq, Bool.or_eq_true, hrw.1, hrw.2, or_false, false_or] at hp
  obtain ⟨⟨hlong, hrole⟩, hbook⟩ := hp
  have hwrite : writeValue (admittedIn s (rqWrite r.h r.idx r.sub v) tr) (callerOf (rqWrite r.h r.idx r.sub v) tr z) r.idx r.sub d v .ok =
      Eff.ok (admittedIn s (rqWrite r.h r.idx r.sub v) tr) Lat.write := by
    rw [writeValue_holdsOnly hholds henc, hplain]
    rfl
  obtain ⟨t, hexec, hans, hval, hothers⟩ := open_completes (c := .write r) (P := fun t => getObj t r.idx r.sub = d.decode v ∧ OthersStand s t [(r.idx, r.sub)])
    ho hcl (by rw [← reqRq_write hbody]; rfl) hf ⟨hdom, hlabel, hlen, hsize⟩ hrw (by simp [hlong]) (fun _ _ => lifecycleCheck_elsewhere (by omega))
    (fun _ _ _ => ownerCheck_elsewhere (by omega))
    (fun _ hs _ => modeCheck_elsewhere hs (by omega) (fun h => hrole.1 h.2.2) (by simp only [List.mem_cons, List.not_mem_nil, or_false]; omega)) (by omega)
    (by unfold isCarried; simp; omega) (by unfold isSensorSetting; simp; omega) hwrite rfl rfl rfl (steady_admitted s _ tr) fun y t ht =>
      ⟨written_value ht hsub hbook (by rw [hf]; rfl), written_others ht hsub (othersStand_admittedIn s _ tr _) (List.mem_singleton_self _)⟩
  exact ⟨t, hexec, hans, hval, hothers⟩

end Sys2Proof.Machine
end

section
/-! SUPPORT. The guard output commands (R457, R459, R462, R473). -/

namespace Sys2Proof.Machine

theorem writeValue_output {u : State} {c : Ctx} {i k : Nat} {d : Desc} {v : Bytes} {p : Phys} (henc : encodingCheck d v = 0)
    (hi : (0xDB00 ≤ i ∧ i < 0xDB08 ∧ k = 1) ∨ (i = 0xDB30 ∧ (k = 1 ∨ k = 3))) : writeValue u c i k d v p = outputWrite u i k v := by
  unfold writeValue
  dsimp only
  rw [henc, if_neg (by decide), if_neg (by omega), if_neg (by omega), if_neg (by omega), if_neg (by omega), if_neg (by omega), if_neg (by omega), if_pos hi]

theorem getObj_updBar (s : State) (f : Bar → Bar) (i k : Nat) : getObj (updBar s f) i k = getObj s i k := rfl

theorem OthersStand.updBar {s u : State} {xs : List (Nat × Nat)} (h : OthersStand s u xs) (f : Bar → Bar) : OthersStand s (updBar u f) xs := h

theorem Steady.updBar {s u : State} (h : Steady s u) (f : Bar → Bar) : Steady s (updBar u f) := ⟨h.adm, h.time, h.first, h.queue, h.fuses⟩

theorem toggleStopped_false {u : State} (h : num u 0xDB30 6 ≠ 0) : toggleStopped u = false := by
  unfold toggleStopped
  exact decide_eq_false h

section
variable {s : State} {h : Hdr} {tr : Trailer} {z : Session} {i k : Nat} {v : Bytes} {d : Desc} {c : Instr} {P : State → Prop} {b : State} {acts : List Act}

/-- A guard command that its value and the toggle allow. -/
theorem output_completes (ho : Open s) (hcl : Client s (rqWrite h i k v) tr z d.role) (hexec : exec c s = coreCmd (fun s => request s (rqWrite h i k v)) s)
    (hf : Dict.find i k = (true, some d)) (hd : d.ty ≠ .domain ∧ d.ty ≠ .label ∧ v.length = d.size ∧ d.size ≤ 24) (ha : d.acc ≠ .const ∧ d.acc ≠ .ro)
    (hlong : d.longOp = false) (hi : (0xDB00 ≤ i ∧ i < 0xDB08 ∧ k = 1) ∨ (i = 0xDB30 ∧ (k = 1 ∨ k = 3))) (henc : encodingCheck d v = 0)
    (hw : outputWrite (admittedIn s (rqWrite h i k v) tr) i k v = { Eff.ok b Lat.write with acts := acts }) (hg : acts.any stagesEffect = false)
    (hst : Steady s b) (hP : ∀ y t, Settled (pushSlot (setObj b i k (d.decode v)) y) t → P t) : Completes c s (rqWrite h i k v) z 10 acts P :=
  open_completes ho hcl hexec hf hd ha (by simp [hlong]) (fun _ _ => lifecycleCheck_elsewhere (by omega)) (fun _ _ _ => ownerCheck_elsewhere (by omega))
    (fun _ hs _ => modeCheck_elsewhere hs (by omega) (by omega) (by simp only [List.mem_cons, List.not_mem_nil, or_false]; omega)) (by omega)
    (by unfold isCarried; simp; omega) (by unfold isSensorSetting; simp; omega) ((writeValue_output henc hi).trans hw) rfl hg rfl hst hP

end

/-- The value of an output's Command. -/
def commandDesc : Desc := ⟨.u8, 1, .rwx, .operator, false, false, .num 0⟩

theorem outputWrite_command {u : State} {n b m : Nat} {v : Byte} (hn : n < 8) (hv : leNat [v] = b) (hb : b ≤ 1) (ht : b = 1 → num u 0xDB30 6 ≠ 0)
    (hm : (if b = 1 then 2 ^ n else 0) = m) :
    outputWrite u (0xDB00 + n) 1 [v] = { Eff.ok (if b = 1 then updBar u fun x => { x with cmdAt := SMap.put x.cmdAt n (u.seq.admTime + Lat.write) } else u) Lat.write with
      acts := [.lane1 (.guardSet (2 ^ n) m 0xFF)] } := by
  have hc : conflictIf (decide (b = 1) && toggleStopped u) = 0 := by
    by_cases h1 : b = 1
    · rw [toggleStopped_false (ht h1), Bool.and_false]
      rfl
    · rw [decide_eq_false h1]
      rfl
  unfold outputWrite
  dsimp only
  rw [if_neg (by omega), if_neg (by omega), hv, hc, decide_eq_true hb, show 0xDB00 + n - 0xDB00 = n by omega, hm]
  rfl

theorem command_completes {s : State} {h : Hdr} {tr : Trailer} {z : Session} {n b m : Nat} {v : Byte} {c : Instr} (ho : Open s) (hn : n < 8)
    (hv : leNat [v] = b) (hb : b ≤ 1) (hm : (if b = 1 then 2 ^ n else 0) = m)
    (hcl : Client s (rqWrite h (0xDB00 + n) 1 [v]) tr z .operator) (ht : b = 1 → num s 0xDB30 6 ≠ 0)
    (hexec : exec c s = coreCmd (fun s => request s (rqWrite h (0xDB00 + n) 1 [v])) s) :
    Completes c s (rqWrite h (0xDB00 + n) 1 [v]) z 10 [.lane1 (.guardSet (2 ^ n) m 0xFF)] fun t =>
      num t (0xDB00 + n) 1 = b ∧ OthersStand s t [(0xDB00 + n, 1)] := by
  have hst := steady_admitted s (rqWrite h (0xDB00 + n) 1 [v]) tr
  refine output_completes (d := commandDesc) ho hcl hexec ((find_output hn 1).trans rfl) ⟨by decide, by decide, rfl, by decide⟩ (by decide) rfl (.inl (by omega)) rfl
    (outputWrite_command hn hv hb (by simpa using ht) hm) rfl ?_ fun y t hset => ⟨?_, ?_⟩
  · split
    · exact hst.updBar _
    · exact hst
  · refine written_num hset (by decide) ?_ (by rw [find_output hn]; rfl) ?_
    · simp [bookkeeping]
    · exact hv
  · refine written_others hset (by decide) ?_ (List.mem_singleton_self _)
    split
    · exact (othersStand_admittedIn s (rqWrite h (0xDB00 + n) 1 [v]) tr _).updBar _
    · exact othersStand_admittedIn s (rqWrite h (0xDB00 + n) 1 [v]) tr _

/-- The Commands that an Output set of value on under mask gives (R457). -/
def setCommands (mask on : Nat) (u : State) (os : List Nat) : State :=
  os.foldl (fun t o => if bit mask o then setNum t (0xDB00 + o) 1 (if bit on o then 1 else 0) else t) u

theorem num_setCommands (mask on : Nat) {n : Nat} (hn : n < 8) (os : List Nat) (u : State) :
    num (setCommands mask on u os) (0xDB00 + n) 1 = if n ∈ os ∧ bit mask n = true then (if bit on n then 1 else 0) else num u (0xDB00 + n) 1 := by
  induction os generalizing u with
  | nil => simp [setCommands]
  | cons o os ih =>
    have hstep : setCommands mask on u (o :: os) = setCommands mask on (if bit mask o then setNum u (0xDB00 + o) 1 (if bit on o then 1 else 0) else u) os := rfl
    rw [hstep, ih]
    by_cases ho : n = o
    · subst ho
      by_cases hb : bit mask n = true
      · rw [if_pos hb]
        have hset : num (setNum u (0xDB00 + n) 1 (if bit on n then 1 else 0)) (0xDB00 + n) 1 = if bit on n then 1 else 0 := by
          rw [setNum, num_setObj u _ (by decide) (by decide), if_pos ⟨rfl, rfl, by rw [find_output hn]; rfl⟩]
          rfl
        rw [hset]
        simp [hb]
      · rw [if_neg hb]
        simp [hb]
    · have hother : num (if bit mask o then setNum u (0xDB00 + o) 1 (if bit on o then 1 else 0) else u) (0xDB00 + n) 1 = num u (0xDB00 + n) 1 := by
        split
        · rw [setNum, num_setObj u _ (by decide) (by decide), if_neg (by omega)]
        · rfl
      rw [hother]
      simp [ho]

theorem othersStand_setCommands {s u : State} {xs : List (Nat × Nat)} (mask on : Nat) (os : List Nat) (hx : ∀ o ∈ os, (0xDB00 + o, 1) ∈ xs)
    (hu : OthersStand s u xs) : OthersStand s (setCommands mask on u os) xs := by
  induction os generalizing u with
  | nil => exact hu
  | cons o os ih =>
    refine ih (fun p hp => hx p (List.mem_cons_of_mem _ hp)) ?_
    dsimp only
    split
    · exact hu.setNum _ (by decide) (hx o (List.mem_cons_self ..))
    · exact hu

theorem steady_setCommands {s u : State} (mask on : Nat) (os : List Nat) (hu : Steady s u) : Steady s (setCommands mask on u os) := by
  induction os generalizing u with
  | nil => exact hu
  | cons o os ih =>
    refine ih ?_
    dsimp only
    split
    · exact hu.setObj _ _ _
    · exact hu

theorem and_byte_eq_zero {a b : Byte} (h : a &&& b = 0) : a.toNat &&& b.toNat = 0 := by
  rw [← BitVec.toNat_and, h]
  rfl

/-- The value of Output set. -/
def outputSetDesc : Desc := ⟨.octets, 2, .rwx, .operator, false, false, .oct (zeros 2)⟩

theorem outputWrite_set {u : State} {mask on : Byte} (ht : on.toNat &&& mask.toNat = 0 ∨ num u 0xDB30 6 ≠ 0) :
    outputWrite u 0xDB30 3 [mask, on] = { Eff.ok (updBar (setCommands mask.toNat (on.toNat &&& mask.toNat) u (List.range 8)) fun b =>
        { b with cmdAt := (List.range 8).foldl (fun m o => if bit (on.toNat &&& mask.toNat) o then SMap.put m o (u.seq.admTime + Lat.write) else m) b.cmdAt })
      Lat.write with acts := [.lane1 (.guardSet mask.toNat (on.toNat &&& mask.toNat) 0xFF)] } := by
  have hc : conflictIf (decide (on.toNat &&& mask.toNat ≠ 0) && toggleStopped u) = 0 := by
    rcases ht with h | h
    · rw [h]
      rfl
    · rw [toggleStopped_false h, Bool.and_false]
      rfl
  exact (congrArg (fun x => Eff.when u x _ _) hc).trans rfl

theorem outputWrite_permit {u : State} {b : Nat} {v : Byte} (hv : leNat [v] = b) (hb : b ≤ 1) (ht : b = 1 → num u 0xDB30 6 ≠ 0) :
    outputWrite u 0xDB30 1 [v] = { Eff.ok u Lat.write with acts := [.lane1 (.guardSet 0 0 b)] } := by
  have hc : conflictIf (decide (b = 1) && toggleStopped u) = 0 := by
    by_cases h1 : b = 1
    · rw [toggleStopped_false (ht h1), Bool.and_false]
      rfl
    · rw [decide_eq_false h1]
      rfl
  unfold outputWrite
  dsimp only
  rw [if_pos ⟨rfl, rfl⟩, hv, hc, decide_eq_true hb]
  rfl

theorem permit_completes {s : State} {h : Hdr} {tr : Trailer} {z : Session} {b : Nat} {v : Byte} {c : Instr} (ho : Open s) (hv : leNat [v] = b) (hb : b ≤ 1)
    (hcl : Client s (rqWrite h 0xDB30 1 [v]) tr z .operator) (ht : b = 1 → num s 0xDB30 6 ≠ 0)
    (hexec : exec c s = coreCmd (fun s => request s (rqWrite h 0xDB30 1 [v])) s) :
    Completes c s (rqWrite h 0xDB30 1 [v]) z 10 [.lane1 (.guardSet 0 0 b)] fun t => num t 0xDB30 1 = b ∧ OthersStand s t [(0xDB30, 1)] := by
  refine output_completes (d := commandDesc) ho hcl hexec rfl ⟨by decide, by decide, rfl, by decide⟩ (by decide) rfl (.inr (by decide)) rfl
    (outputWrite_permit hv hb (by simpa using ht)) rfl (steady_admitted s _ tr) fun y t hset => ⟨?_, ?_⟩
  · exact written_num hset (by decide) rfl rfl hv
  · exact written_others hset (by decide) (othersStand_admittedIn s _ tr _) (List.mem_singleton_self _)

/-- Settles O30: a command that the toggle allows is a write whose effect is one GUARD_SET. -/
theorem guardCommandsComplete : Obligations.guard_commands_complete := by
  unfold Obligations.guard_commands_complete
  intro s h tr z ho
  refine ⟨fun n hcl ht => ?_, fun n hcl => ?_, fun hcl ht => ?_, fun hcl => ?_, fun mask on hcl ht => ?_⟩
  · exact command_completes ho n.isLt rfl (Nat.le_refl 1) (if_pos rfl) hcl (fun _ => ht) rfl
  · exact command_completes ho n.isLt rfl (Nat.zero_le 1) (if_neg Nat.zero_ne_one) hcl (fun h => absurd h (by decide)) rfl
  · exact permit_completes ho rfl (Nat.le_refl 1) hcl (fun _ => ht) rfl
  · exact permit_completes ho rfl (Nat.zero_le 1) hcl (fun h => absurd h (by decide)) rfl
  · have hst := steady_admitted s (rqWrite h 0xDB30 3 [mask, on]) tr
    have hs := steady_setCommands mask.toNat (on.toNat &&& mask.toNat) (List.range 8) hst
    have hxs : ∀ o ∈ List.range 8, (0xDB00 + o, 1) ∈ (0xDB30, 3) :: (List.range 8).map fun n => (0xDB00 + n, 1) := fun o ho =>
      List.mem_cons_of_mem _ (List.mem_map_of_mem ho)
    refine output_completes (d := outputSetDesc) ho hcl rfl rfl ⟨by decide, by decide, rfl, by decide⟩ (by decide) rfl (.inr (by decide)) rfl
      (outputWrite_set (ht.imp and_byte_eq_zero (by simp))) rfl (hs.updBar _) fun y t hset => ⟨fun n hn => ?_, ?_⟩
    · rw [written_otherNum hset (by decide) (by decide) (by simp [bookkeeping]) (by omega)]
      refine (num_setCommands _ _ hn (List.range 8) _).trans ?_
      rw [num_admittedIn]
      by_cases hb : bit mask.toNat n = true
      · have hboth : bit (on.toNat &&& mask.toNat) n = bit on.toNat n := by
          unfold bit at hb ⊢
          rw [Nat.testBit_and, hb, Bool.and_true]
        rw [if_pos ⟨List.mem_range.mpr hn, hb⟩, if_pos hb, hboth]
      · rw [if_neg (fun e => hb e.2), if_neg hb]
    · exact written_others hset (by decide) ((othersStand_setCommands _ _ _ hxs (othersStand_admittedIn s _ tr _)).updBar _) (List.mem_cons_self ..)

end Sys2Proof.Machine
end

section
/-! SUPPORT. Control and mailbox of the cells (R432, R441, R442, R448). -/

namespace Sys2Proof.Machine

section
variable {s a t u : State} {i k c : Nat} {v : Val} {y : Slot} {xs : List (Nat × Nat)}

/-- A settled write keeps whatever the end of an admission and its object do not touch. -/
theorem written_rest (h : Settled (pushSlot (setObj a i k v) y) t) : bare t = bare (pushSlot a y) := by
  obtain ⟨d, p, l, e⟩ := setObj_dict a i k v
  have hrest := h.rest
  rw [e] at hrest
  exact hrest

theorem written_twc (h : Settled (pushSlot (setObj a i k v) y) t) : t.twc = a.twc := congrArg (fun x => x.twc) (written_rest h)

theorem written_sessions (h : Settled (pushSlot (setObj a i k v) y) t) : t.sessions = a.sessions := congrArg (fun x => x.sessions) (written_rest h)

theorem written_modes (h : Settled (pushSlot (setObj a i k v) y) t) : t.modes = a.modes := congrArg (fun x => x.modes) (written_rest h)

theorem Steady.setCell (h : Steady s u) (c : Nat) (x : Cell) : Steady s (setCell u c x) := ⟨h.adm, h.time, h.first, h.queue, h.fuses⟩

theorem OthersStand.setCell (h : OthersStand s u xs) (c : Nat) (x : Cell) : OthersStand s (setCell u c x) xs := h

theorem Steady.setCellState (h : Steady s u) (c n : Nat) : Steady s (setCellState u c n) := by
  unfold Machine.setCellState
  dsimp only
  split
  · exact h.setObj _ _ _
  · exact (h.setObj _ _ _).setObj _ _ _

theorem OthersStand.setCellState (h : OthersStand s u xs) {c n : Nat} (h1 : (0xD000 + c, 1) ∈ xs) (h7 : (0xD000 + c, 7) ∈ xs) :
    OthersStand s (setCellState u c n) xs := by
  unfold Machine.setCellState
  dsimp only
  split
  · exact h.setNum _ (by decide) h1
  · exact (h.setNum _ (by decide) h1).setNum _ (by decide) h7

theorem Steady.leaveCell (h : Steady s u) (c : Nat) : Steady s (leaveCell u c) := by
  obtain ⟨st, pl, sc, sl, o, l, y, f, e⟩ := leaveCell_cases u c
  rw [e]
  exact ⟨h.adm, h.time, h.first, h.queue, h.fuses⟩

theorem OthersStand.leaveCell (h : OthersStand s u xs) (c : Nat) : OthersStand s (leaveCell u c) xs := by
  obtain ⟨st, pl, sc, sl, o, l, y, f, e⟩ := leaveCell_cases u c
  rw [e]
  exact h

theorem leaveCell_cells (u : State) (c : Nat) : (leaveCell u c).twc.cells = SMap.del u.twc.cells c := by
  obtain ⟨st, pl, sc, sl, o, l, y, f, e⟩ := leaveCell_cases u c
  rw [e]

theorem setCellState_twc (u : State) (c n : Nat) : (setCellState u c n).twc = u.twc := by
  unfold Machine.setCellState
  dsimp only
  split <;> simp [setNum]

theorem num_setCellState (u : State) {c n : Nat} (hc : c < 32) : num (setCellState u c n) (0xD000 + c) 1 = n := by
  have h1 : num (setNum u (0xD000 + c) 1 n) (0xD000 + c) 1 = n := by
    unfold num setNum
    rw [getObj_setObj_cell u _ hc (by decide) (by decide) rfl]
    rfl
  unfold Machine.setCellState
  dsimp only
  split
  · exact h1
  · unfold num at h1 ⊢
    rw [setNum, getObj_setObj_cell _ _ hc (by decide) (by decide) rfl]
    exact h1

end

/-- A write whose effect is refused past the checks of its value, with room for it, answers that refusal (R107). -/
theorem performWrite_spent {u t : State} {c : Ctx} {i k : Nat} {d : Desc} {v : Bytes} {lat code : Nat} (hw : writeValue u c i k d v .ok = Eff.fail t lat code)
    (h12 : atCheck12 code = false) (h0 : code ≠ 0) (hcap : capacityCheck u i d = 0) : performWrite u c i k d v .ok = Eff.fail t lat code := by
  have hacc : accepted (Eff.fail t lat code) = false := by simp [accepted, Eff.fail, h0]
  unfold performWrite
  rw [hw]
  dsimp only
  rw [hacc, hcap, if_neg (by simp [Eff.fail, h12]), if_neg (by decide), if_neg (by simp)]
  rfl

/-- The value of a cell's Control. -/
def controlDesc : Desc := ⟨.u8, 1, .rwx, .owner, false, false, .num 0⟩

section
variable {s : State} {h : Hdr} {tr : Trailer} {z : Session} {c k : Nat} {v : Bytes} {d : Desc} {e0 : Eff} {i : Instr} {P : State → Prop}

/-- A write to an object of cell c, whose effect is cellWrite (R441). -/
theorem cell_completes (ho : Open s) (hc : c < 32) (hcl : Client s (rqWrite h (0xD000 + c) k v) tr z d.role)
    (hexec : exec i s = coreCmd (fun s => request s (rqWrite h (0xD000 + c) k v)) s) (hf : SMap.look Dict.tCell k = some d)
    (hd : d.ty ≠ .domain ∧ d.ty ≠ .label ∧ v.length = d.size ∧ d.size ≤ 24) (ha : d.acc ≠ .const ∧ d.acc ≠ .ro) (hlong : d.longOp = false)
    (henc : encodingCheck d v = 0) (hw : cellWrite (admittedIn s (rqWrite h (0xD000 + c) k v) tr) c k (leNat v) = e0) (h0 : e0.code = 0)
    (hg : e0.acts.any stagesEffect = false) (hb : e0.body = []) (hst : Steady s e0.s)
    (hP : ∀ y t, Settled (pushSlot (setObj e0.s (0xD000 + c) k (d.decode v)) y) t → P t) : Completes i s (rqWrite h (0xD000 + c) k v) z e0.lat e0.acts P := by
  have hwrite : ∀ u x p, writeValue u x (0xD000 + c) k d v p = cellWrite u c k (leNat v) := by
    intro u x p
    unfold writeValue
    dsimp only
    rw [henc, if_neg (by decide), if_neg (by omega), if_neg (by omega), if_neg (by omega), if_neg (by omega), if_pos (by omega),
      show 0xD000 + c - 0xD000 = c by omega]
  exact open_completes ho hcl hexec ((find_cell hc k).trans (by rw [hf])) hd ha (by simp [hlong]) (fun _ _ => lifecycleCheck_elsewhere (by omega))
    (fun _ _ _ => ownerCheck_elsewhere (by omega))
    (fun _ hs _ => modeCheck_elsewhere hs (by omega) (by omega) (by simp only [List.mem_cons, List.not_mem_nil, or_false]; omega)) (by omega)
    (by unfold isCarried; simp; omega) (by unfold isSensorSetting; simp; omega) ((hwrite _ _ _).trans hw) h0 hg hb hst hP

/-- A Control that leaves cell c in state st, with x as its context. -/
theorem control_completes {b : State} {w : Byte} {st : Nat} {x : Option Cell} (ho : Open s) (hc : c < 32)
    (hcl : Client s (rqWrite h (0xD000 + c) 9 [w]) tr z .owner) (hexec : exec i s = coreCmd (fun s => request s (rqWrite h (0xD000 + c) 9 [w])) s)
    (hw : controlOp (admittedIn s (rqWrite h (0xD000 + c) 9 [w]) tr) c w.toNat = (setCellState b c st, 0)) (hst : Steady s b)
    (hb : OthersStand s b [(0xD000 + c, 1), (0xD000 + c, 7), (0xD000 + c, 9)]) (hx : SMap.look b.twc.cells c = x) :
    Completes i s (rqWrite h (0xD000 + c) 9 [w]) z 10 [] fun t => num t (0xD000 + c) 1 = st ∧ SMap.look t.twc.cells c = x ∧
      OthersStand s t [(0xD000 + c, 1), (0xD000 + c, 7), (0xD000 + c, 9)] := by
  refine cell_completes (d := controlDesc) (e0 := Eff.ok (setCellState b c st) Lat.write) ho hc hcl hexec rfl ⟨by decide, by decide, rfl, by decide⟩
    (by decide) rfl rfl (congrArg (Eff.of Lat.write) hw) rfl rfl rfl (hst.setCellState c st) fun y t ht => ⟨?_, ?_, ?_⟩
  · exact (written_otherNum ht (by decide) (by decide) (by simp [bookkeeping]) (by omega)).trans (num_setCellState b hc)
  · exact (congrArg (fun w => SMap.look w.cells c) ((written_twc ht).trans (setCellState_twc b c st))).trans hx
  · exact written_others ht (by decide) (hb.setCellState (by simp) (by simp)) (by simp)

end

section
variable {u : State} {c : Nat}

theorem controlOp_start (hs : sheafOn u = false) (h : num u (0xD000 + c) 1 = 1 ∨ (num u (0xD000 + c) 1 = 4 ∧ num u (0xD000 + c) 7 ≠ 9)) :
    controlOp u c 1 = (startCell u c 2, 0) := by
  unfold controlOp cellState
  dsimp only
  rw [hs]
  rcases h with h | ⟨h, h7⟩
  · simp [h]
  · simp [h, h7]

theorem controlOp_stop (h : num u (0xD000 + c) 1 = 2 ∨ num u (0xD000 + c) 1 = 3) : controlOp u c 2 = (setCellState (leaveCell u c) c 1, 0) := by
  unfold controlOp cellState
  dsimp only
  rcases h with h | h <;> simp [h]

theorem controlOp_restart (hs : sheafOn u = false) (h : 1 ≤ num u (0xD000 + c) 1) (hno : ¬(num u (0xD000 + c) 1 = 4 ∧ num u (0xD000 + c) 7 = 9)) :
    controlOp u c 3 = (startCell (leaveCell u c) c 2, 0) := by
  unfold controlOp cellState
  dsimp only
  rw [hs, if_neg (by decide), if_neg (by omega), if_neg (by simp [hno]), if_neg (by simp)]
  rfl

end

theorem look_setCell (u : State) (c : Nat) (x : Cell) : SMap.look (setCell u c x).twc.cells c = some x := SMap.look_put_same _ _ _

/-- The value of a cell's Mailbox in. -/
def mailboxDesc : Desc := ⟨.octets, 24, .rw, .operator, false, false, .oct (zeros 24)⟩

/-- Settles O29. -/
theorem cellsControlledAndMailed : Obligations.cells_controlled_and_mailed := by
  unfold Obligations.cells_controlled_and_mailed
  intro s h c tr z ho
  have hc := c.isLt
  have hsh : ∀ r, sheafOn (admittedIn s r tr) = false := fun r => sheafOn_admittedIn ho.single r
  have hnum : ∀ r i k, num (admittedIn s r tr) i k = num s i k := fun r i k => num_admittedIn s r tr i k
  have hst : ∀ r, Steady s (admittedIn s r tr) := fun r => steady_admitted s r tr
  have hothers : ∀ r xs, OthersStand s (admittedIn s r tr) xs := fun r xs => othersStand_admittedIn s r tr xs
  refine ⟨fun hcl hcell => ?_, fun hcl hcell => ?_, fun hcl hcell hno => ?_, fun v hcl hlen hcell => ?_, fun cell hcl hcell hstate hrun hspent => ?_⟩
  · exact control_completes ho hc hcl rfl (controlOp_start (hsh _) (by simpa only [hnum] using hcell)) ((hst _).setCell _ _)
      ((hothers _ _).setCell _ _) (look_setCell _ _ _)
  · exact control_completes ho hc hcl rfl (controlOp_stop (by simpa only [hnum] using hcell)) ((hst _).leaveCell _)
      ((hothers _ _).leaveCell _) (by rw [leaveCell_cells, SMap.look_del, if_pos rfl])
  · exact control_completes ho hc hcl rfl (controlOp_restart (hsh _) (by simpa only [hnum] using hcell) (by simpa only [hnum] using hno))
      (((hst _).leaveCell _).setCell _ _) (((hothers _ _).leaveCell _).setCell _ _) (look_setCell _ _ _)
  · have hmail : ∀ u, num u (0xD000 + c.val) 1 = 2 ∨ num u (0xD000 + c.val) 1 = 3 →
        cellWrite u c.val 0x0B (leNat v) = { Eff.ok u Lat.write with acts := [.event c.val 4] } := by
      intro u hu
      unfold cellWrite cellState
      dsimp only
      rw [if_neg (by omega), if_neg (by omega)]
      rfl
    refine cell_completes (d := mailboxDesc) ho hc hcl rfl rfl ⟨by decide, by decide, hlen, by decide⟩ (by decide) rfl rfl
      (hmail _ (by simpa only [hnum] using hcell)) rfl rfl rfl (hst _) fun y t ht => ⟨?_, written_others ht (by decide) (hothers _ _) (by simp)⟩
    exact congrArg Val.toBytes (written_value ht (by decide) (by simp [bookkeeping]) (by rw [find_cell hc]; rfl))
  · have hremove : removeApplet (admittedIn s (removeRq h cell) tr) cell.toNat = (admittedIn s (removeRq h cell) tr, Abt.epochExhausted) := by
      unfold removeApplet cellState
      rw [hnum, installRuns_admittedIn, rootSpent_admittedIn, if_neg (by omega), hrun, if_neg (by simpa using hstate), hspent]
      rfl
    have hval : writeValue (admittedIn s (removeRq h cell) tr) (callerOf (removeRq h cell) tr z) 0xD100 4 removeDesc [cell] .ok =
        Eff.fail (admittedIn s (removeRq h cell) tr) Lat.write Abt.epochExhausted :=
      (writeValue_remove _ _ cell .ok).trans (congrArg (Eff.of Lat.write) hremove)
    obtain ⟨t, y, hexec, hans, hset⟩ := client_refused (c := .appletRemove h cell) rfl hcl find_remove ⟨by decide, by decide, rfl, by decide⟩
      (write_checks hcl.ready hcl.role hcl.person ho.single (.inl ho.caldera) (by decide) (lifecycleCheck_remove ho _) rfl rfl (by decide))
      (performWrite_spent hval rfl (by decide) (capacity_ok (room_admitted ho.toRoom _ tr) (by simp [removeDesc]))) (by decide)
    refine ⟨t, hexec, hans, ?_, ?_⟩
    · intro i k hk hb _
      rw [hset.objects i k hk hb, getObj_pushSlot, getObj_admittedIn]
    · obtain ⟨hh, b, n, f, e⟩ := admittedIn_cases s (removeRq h cell) tr
      rw [e] at hset
      exact congrArg (fun x => x.pers.nodes) hset.rest

end Sys2Proof.Machine
end

section
/-! SUPPORT. What the alarm, the sensors' histories and the ends of sessions change (R121, R483, R491). -/

namespace Sys2Proof.Machine

section
variable {s u : State} {xs : List (Nat × Nat)}

theorem Steady.pushSlot (h : Steady s u) (x : Slot) : Steady s (pushSlot u x) := ⟨h.adm, h.time, h.first, h.queue, h.fuses⟩

theorem OthersStand.pushSlot (h : OthersStand s u xs) (x : Slot) : OthersStand s (pushSlot u x) xs := h

theorem Steady.updateAlarm (h : Steady s u) : Steady s (updateAlarm u) := by
  unfold Machine.updateAlarm
  dsimp only
  split
  · exact (h.setNum _ _ _).setNum _ _ _
  · exact (((h.setNum _ _ _).setNum _ _ _).setNum _ _ _).pushSlot _

theorem OthersStand.updateAlarm (h : OthersStand s u xs) (h1 : (0xD800, 1) ∈ xs) (h5 : (0xD800, 5) ∈ xs) (h6 : (0xD800, 6) ∈ xs) :
    OthersStand s (updateAlarm u) xs := by
  unfold Machine.updateAlarm
  dsimp only
  split
  · exact (h.setNum _ (by decide) h6).setNum _ (by decide) h5
  · exact (((h.setNum _ (by decide) h6).setNum _ (by decide) h5).setNum _ (by decide) h1).pushSlot _

theorem Steady.emptyHistory (h : Steady s u) (k : Nat) : Steady s (emptyHistory u k) := by
  have hs : ∀ x, Steady s (setSense u k x) := fun x => ⟨h.adm, h.time, h.first, h.queue, h.fuses⟩
  unfold Machine.emptyHistory
  split
  · exact (hs _).setNum _ _ _
  · exact hs _

theorem Steady.foldl {α : Type} {f : State → α → State} (hf : ∀ u a, Steady s u → Steady s (f u a)) (as : List α) (h : Steady s u) : Steady s (as.foldl f u) := by
  induction as generalizing u with
  | nil => exact h
  | cons a as ih => exact ih (hf u a h)

theorem OthersStand.foldl {α : Type} {f : State → α → State} (as : List α) (hf : ∀ u, ∀ a ∈ as, OthersStand s u xs → OthersStand s (f u a) xs)
    (h : OthersStand s u xs) : OthersStand s (as.foldl f u) xs := by
  induction as generalizing u with
  | nil => exact h
  | cons a as ih => exact ih (fun v b hb => hf v b (List.mem_cons_of_mem _ hb)) (hf u a (List.mem_cons_self ..) h)

theorem Steady.emptyHistories (h : Steady s u) : Steady s (emptyHistories u) := (h.foldl (fun _ k hv => hv.emptyHistory k) _).updateAlarm

theorem Steady.endSession (h : Steady s u) (k : Nat) : Steady s (endSession u k) := ⟨h.adm, h.time, h.first, h.queue, h.fuses⟩

theorem OthersStand.endSession (h : OthersStand s u xs) (k : Nat) : OthersStand s (endSession u k) xs := h

theorem Steady.endOrigin (h : Steady s u) (o : Nat) : Steady s (endOrigin u o) := h.foldl (fun _ k hv => hv.endSession k) _

theorem OthersStand.endOrigin (h : OthersStand s u xs) (o : Nat) : OthersStand s (endOrigin u o) xs := h.foldl _ fun _ k _ hv => hv.endSession k

end

/-- What is left of the sessions after the ends of those in slots ks. -/
theorem mem_sessions_endSession (ks : List Nat) (u : State) {p : Nat × Session} (h : p ∈ (ks.foldl endSession u).sessions) : p ∈ u.sessions ∧ p.1 ∉ ks := by
  induction ks generalizing u with
  | nil => exact ⟨h, List.not_mem_nil⟩
  | cons k ks ih =>
    obtain ⟨hmem, hnot⟩ := ih (endSession u k) h
    have hmem : p ∈ SMap.del u.sessions k := hmem
    exact ⟨SMap.mem_del hmem, fun he => (List.mem_cons.mp he).elim (SMap.ne_of_mem_del hmem) hnot⟩

theorem endOrigin_sessions (u : State) (o : Nat) : ∀ p ∈ (endOrigin u o).sessions, p.2.origin ≠ o := by
  intro p hp horigin
  obtain ⟨hmem, hnot⟩ := mem_sessions_endSession _ u hp
  exact hnot (List.mem_map_of_mem (List.mem_filter.mpr ⟨hmem, decide_eq_true horigin⟩))

end Sys2Proof.Machine
end

section
/-! SUPPORT. The mode flags (R502 to R510). -/

namespace Sys2Proof.Machine

section
variable {s u : State} {xs : List (Nat × Nat)}

theorem Steady.dropTransfers (h : Steady s u) (ok : Transfer → Bool) : Steady s (dropTransfers u ok) := by
  unfold Machine.dropTransfers
  dsimp only
  split
  · exact h
  · exact ⟨h.adm, h.time, h.first, h.queue, h.fuses⟩

theorem OthersStand.dropTransfers (h : OthersStand s u xs) (ok : Transfer → Bool) : OthersStand s (dropTransfers u ok) xs := by
  unfold Machine.dropTransfers
  dsimp only
  split <;> exact h

theorem Steady.stopTagging (h : Steady s u) : Steady s (stopTagging u) := by
  have hp : ∀ p, Steady s { u with perf := p } := fun p => ⟨h.adm, h.time, h.first, h.queue, h.fuses⟩
  exact (hp _).setNum _ _ _

theorem OthersStand.stopTagging (h : OthersStand s u xs) (ht : (0xE200, 1) ∈ xs) : OthersStand s (stopTagging u) xs := by
  have hp : ∀ p, OthersStand s { u with perf := p } xs := fun p => h
  exact (hp _).setNum _ (by decide) ht

theorem Steady.withAudit (h : Steady s u) (a : Audit) : Steady s { u with audit := a } := ⟨h.adm, h.time, h.first, h.queue, h.fuses⟩

theorem OthersStand.withAudit (h : OthersStand s u xs) (a : Audit) : OthersStand s { u with audit := a } xs := h

/-- The log's break is bookkeeping (R205). -/
theorem othersStand_break (h : OthersStand s u xs) : OthersStand s (setNum u 0xDC80 6 0) xs := by
  intro i k hk hb hn
  rw [setNum, getObj_setObj u _ (by decide) hk, if_neg, h i k hk hb hn]
  rintro ⟨rfl, rfl, -⟩
  exact absurd hb (by decide)

theorem Steady.clearService (h : Steady s u) : Steady s (clearService u) := ((h.dropTransfers _).setNum _ _ _).stopTagging

theorem OthersStand.clearService (h : OthersStand s u xs) (h3 : (0x2000, 3) ∈ xs) (ht : (0xE200, 1) ∈ xs) : OthersStand s (clearService u) xs :=
  ((h.dropTransfers _).setNum _ (by decide) h3).stopTagging ht

theorem num_stopTagging (u : State) {i k : Nat} (hk : k < 256) : num (stopTagging u) i k = if i = 0xE200 ∧ k = 1 then 0 else num u i k := by
  unfold Machine.stopTagging setNum
  rw [num_setObj _ _ (by decide) hk]
  have hf : (Dict.find 0xE200 1).2.isSome = true := rfl
  simp only [hf, and_true]
  rfl

theorem num_clearService (u : State) : num (clearService u) 0x2000 3 = 0 ∧ num (clearService u) 0xE200 1 = 0 := by
  unfold Machine.clearService
  refine ⟨?_, (num_stopTagging _ (by decide)).trans (if_pos ⟨rfl, rfl⟩)⟩
  refine (num_stopTagging _ (by decide)).trans ?_
  rw [if_neg (by decide), setNum, num_setObj _ _ (by decide) (by decide), if_pos ⟨rfl, rfl, rfl⟩]
  rfl

end

section
variable {s b : State} {h : Hdr} {tr : Trailer} {z : Session} {k n : Nat} {v : Bytes} {d : Desc} {c : Instr} {P : State → Prop} {acts : List Act}

/-- A write to the mode object, whose effect is modesWrite (R502). -/
theorem modes_completes (ho : Open s) (hcl : Client s (rqWrite h 0x2000 k v) tr z d.role)
    (hexec : exec c s = coreCmd (fun s => request s (rqWrite h 0x2000 k v)) s) (hf : SMap.look Dict.tModes k = some d)
    (hd : d.ty ≠ .domain ∧ d.ty ≠ .label ∧ v.length = d.size ∧ d.size ≤ 24) (ha : d.acc ≠ .const ∧ d.acc ≠ .ro) (hlong : d.longOp = false)
    (henc : encodingCheck d v = 0)
    (hw : modesWrite (admittedIn s (rqWrite h 0x2000 k v) tr) (callerOf (rqWrite h 0x2000 k v) tr z) k (leNat v) v = { Eff.ok b Lat.write with acts := acts })
    (hg : acts.any stagesEffect = false) (hst : Steady s b) (hP : ∀ y t, Settled (pushSlot (setObj b 0x2000 k (d.decode v)) y) t → P t) :
    Completes c s (rqWrite h 0x2000 k v) z 10 acts P := by
  have hwrite : ∀ u x p, writeValue u x 0x2000 k d v p = modesWrite u x k (leNat v) v := by
    intro u x p
    unfold writeValue
    dsimp only
    rw [henc]
    rfl
  exact open_completes ho hcl hexec (by rw [← hf]; rfl) hd ha (by simp [hlong]) (fun _ _ => lifecycleCheck_elsewhere (by decide))
    (fun _ _ _ => ownerCheck_elsewhere (by decide)) (fun _ hs _ => modeCheck_elsewhere hs (by decide) (by omega) (by decide)) (by omega) rfl rfl
    ((hwrite _ _ _).trans hw) rfl hg rfl hst hP

end

/-- The flag that a byte writes (R502). -/
def flagDesc (role : Role) (pers : Bool) : Desc := ⟨.u8, 1, .rwx, role, pers, false, .num 0⟩

/-- A write of 0 or 1 to a mode flag, past the range, outside a pair (R502, R510). -/
theorem modesWrite_flag {u : State} {x : Ctx} {k n : Nat} {v : Bytes} (hs : sheafOn u = false) (hk : k ≠ 8 ∧ k ≠ 9) : modesWrite u x k n v = modeWrite u x k n := by
  unfold modesWrite
  dsimp only
  rw [if_neg hk.1, if_neg hk.2, hs]
  simp

section
variable {s : State} {h : Hdr} {tr : Trailer} {z : Session} {k : Nat} {v : Byte} {role : Role} {pers : Bool} {c : Instr} {P : State → Prop} {acts : List Act}

/-- A flag that its rules let change: the state after its effect is some b with Q b, and the flag then takes the value (R502). -/
theorem flag_completes {Q : State → Prop} (ho : Open s) (hcl : Client s (rqWrite h 0x2000 k [v]) tr z role)
    (hexec : exec c s = coreCmd (fun s => request s (rqWrite h 0x2000 k [v])) s) (hf : SMap.look Dict.tModes k = some (flagDesc role pers))
    (hk : k ≠ 8 ∧ k ≠ 9)
    (hw : ∃ b, modeWrite (admittedIn s (rqWrite h 0x2000 k [v]) tr) (callerOf (rqWrite h 0x2000 k [v]) tr z) k v.toNat = { Eff.ok b Lat.write with acts := acts } ∧
      Steady s b ∧ Q b)
    (hg : acts.any stagesEffect = false) (hP : ∀ b y t, Q b → Settled (pushSlot (setObj b 0x2000 k (.num v.toNat)) y) t → P t) :
    Completes c s (rqWrite h 0x2000 k [v]) z 10 acts P := by
  obtain ⟨b, hw, hst, hq⟩ := hw
  have hv : leNat [v] = v.toNat := by simp [leNat]
  refine modes_completes (d := flagDesc role pers) ho hcl hexec hf ⟨by simp [flagDesc], by simp [flagDesc], rfl, by simp [flagDesc]⟩ (by simp [flagDesc]) rfl rfl
    ((modesWrite_flag (sheafOn_admittedIn ho.single _) hk).trans (by rw [hv]; exact hw)) hg hst fun y t ht => hP b y t hq ?_
  have hdec : (flagDesc role pers).decode [v] = .num v.toNat := congrArg Val.num hv
  rwa [hdec] at ht

/-- The flag then reads as written, and nothing else changes but what its effect did. -/
theorem flag_reads {b t : State} {y : Slot} {n : Nat} (ht : Settled (pushSlot (setObj b 0x2000 k (.num n)) y) t) (hk : k < 256)
    (hf : (SMap.look Dict.tModes k).isSome = true) : num t 0x2000 k = n :=
  written_num ht hk rfl hf rfl

end

section
variable {u : State} {x : Ctx}

theorem modeWrite_same {k n : Nat} (hn : n ≤ 1) (h : num u 0x2000 k = n) (hk : ¬(k = 7 ∧ n = 1)) : modeWrite u x k n = { Eff.ok u Lat.write with acts := [] } := by
  unfold modeWrite
  dsimp only
  rw [if_neg (by omega), if_pos h, if_neg hk]

theorem modeWrite_service (hs : sheafOn u = false) (h : num u 0x2000 3 ≠ 1) (ha : num u 0x2000 8 ≠ 0) :
    modeWrite u x 3 1 = { Eff.ok (setNum u 0x2000 3 1) Lat.write with acts := [] } := by
  unfold modeWrite
  dsimp only
  rw [if_neg (by decide), if_neg h, hs, if_neg (by simp), if_neg (by simp [ha])]
  rfl

theorem modeWrite_island (hl : lifecycle u = 0x5A) (h : num u 0x2000 4 = 0) :
    modeWrite u x 4 1 = { Eff.ok (setNum (endOrigin u 1) 0x2000 4 1) Lat.write with acts := [.hostClose] } := by
  unfold modeWrite
  dsimp only
  rw [if_neg (by decide), if_neg (by omega)]
  exact if_neg (fun hne => hne hl)

theorem modeWrite_vigil (h : num u 0x2000 5 ≠ 1) : modeWrite u x 5 1 = { Eff.ok (emptyHistories (setNum u 0x2000 5 1)) Lat.write with acts := [] } := by
  unfold modeWrite
  dsimp only
  rw [if_neg (by decide), if_neg h]
  rfl

theorem modeWrite_audit (h : num u 0x2000 6 ≠ 1) :
    modeWrite u x 6 1 = { Eff.ok (setNum { setNum u 0xDC80 6 0 with audit := ⟨[], false, 0⟩ } 0x2000 6 1) Lat.write with acts := [] } := by
  unfold modeWrite
  dsimp only
  rw [if_neg (by decide), if_neg h]
  rfl

/-- PROVISION set by a caller: its time and its origin are noted (R505, R510). -/
def provisioned (u : State) (x : Ctx) : State := { setNum u 0x2000 10 u.seq.admTime with modes := { u.modes with provBy := x.origin } }

/-- The same with the flag set, where it was not. -/
def provisionSet (u : State) (x : Ctx) : State :=
  if num u 0x2000 7 = 1 then provisioned u x
  else { setNum (setNum u 0x2000 10 u.seq.admTime) 0x2000 7 1 with modes := { u.modes with provBy := x.origin } }

theorem modeWrite_provision (hl : lifecycle u = 0x5A) :
    modeWrite u x 7 1 = { Eff.ok (provisionSet u x) Lat.write with acts := [] } := by
  unfold modeWrite provisionSet
  dsimp only
  rw [if_neg (by decide)]
  split
  · rfl
  · exact if_neg (fun hne => hne hl)

theorem modeWrite_serviceClear (h : num u 0x2000 3 ≠ 0) : modeWrite u x 3 0 = { Eff.ok (clearService u) Lat.write with acts := [] } := by
  unfold modeWrite
  dsimp only
  rw [if_neg (by decide), if_neg h]
  rfl

theorem modeWrite_islandClear (h : num u 0x2000 4 ≠ 0) :
    modeWrite u x 4 0 = { Eff.ok (setNum u 0x2000 4 0) Lat.write with acts := [.hostOpen, .cause 2] } := by
  unfold modeWrite
  dsimp only
  rw [if_neg (by decide), if_neg h]
  rfl

theorem modeWrite_vigilClear (hs : sheafOn u = false) (h : num u 0x2000 5 ≠ 0) :
    modeWrite u x 5 0 = { Eff.ok (emptyHistories (setNum u 0x2000 5 0)) Lat.write with acts := [] } := by
  unfold modeWrite
  dsimp only
  rw [if_neg (by decide), if_neg h, hs]
  rfl

theorem modeWrite_auditClear (hv : num u 0x2000 5 = 0) (h : num u 0x2000 6 ≠ 0) :
    modeWrite u x 6 0 = { Eff.ok (setNum { u with audit := ⟨[], false, 0⟩ } 0x2000 6 0) Lat.write with acts := [] } := by
  have hvigil : vigilOn u = false := by
    unfold vigilOn modeFlag
    rw [hv]
    rfl
  unfold modeWrite
  dsimp only
  rw [if_neg (by decide), if_neg h, hvigil]
  rfl

theorem modeWrite_provisionClear (h : num u 0x2000 7 ≠ 0) : modeWrite u x 7 0 = { Eff.ok (setNum u 0x2000 7 0) Lat.write with acts := [] } := by
  unfold modeWrite
  dsimp only
  rw [if_neg (by decide), if_neg h]
  rfl

end

section
variable {s u : State} {xs : List (Nat × Nat)}

theorem Steady.withModes (h : Steady s u) (m : Modes) : Steady s { u with modes := m } := ⟨h.adm, h.time, h.first, h.queue, h.fuses⟩

theorem steady_provisioned (h : Steady s u) (x : Ctx) : Steady s (provisionSet u x) := by
  unfold provisionSet
  split
  · exact (h.setNum _ _ _).withModes _
  · exact ((h.setNum _ _ _).setNum _ _ _).withModes _

theorem provisioned_reads {time : Nat} (h : OthersStand s u [(0x2000, 7), (0x2000, 10)]) (ht : u.seq.admTime = time) (x : Ctx) :
    num (provisionSet u x) 0x2000 10 = time ∧
    (provisionSet u x).modes.provBy = x.origin ∧
    OthersStand s (provisionSet u x) [(0x2000, 7), (0x2000, 10)] := by
  have hset : num (setNum u 0x2000 10 u.seq.admTime) 0x2000 10 = time := by
    rw [setNum, num_setObj u _ (by decide) (by decide), if_pos ⟨rfl, rfl, rfl⟩]
    exact ht
  unfold provisionSet
  have h10 := h.setNum (i := 0x2000) (k := 10) u.seq.admTime (by decide) (by simp)
  split
  · exact ⟨hset, rfl, h10⟩
  · refine ⟨?_, rfl, h10.setNum 1 (by decide) (by simp)⟩
    exact (num_setObj _ _ (by decide) (by decide)).trans ((if_neg (by decide)).trans hset)

end

/-- The value of Service allowed. -/
def allowedDesc : Desc := ⟨.bool, 1, .rw, .owner, true, false, .num 0⟩

/-- The value of Provision lapse. -/
def lapseDesc : Desc := ⟨.u32, 4, .rw, .owner, true, false, .num 0x384⟩

theorem num_serviceAllowedOp (u : State) {n : Nat} (h : n = 0) : num (serviceAllowedOp u n) 0x2000 3 = 0 := by
  unfold serviceAllowedOp
  by_cases hon : serviceOn u = true
  · rw [if_pos ⟨h, hon⟩]
    exact (num_clearService u).1
  · rw [if_neg (fun e => hon e.2)]
    simpa [serviceOn, modeFlag] using hon

theorem modesWrite_lapse {u : State} {x : Ctx} {n : Nat} {v : Bytes} {acts : List Act} (hlo : 60 ≤ n) (hhi : n ≤ 86400)
    (ha : (if provisionOn u ∧ num u 0x2000 10 + n * 1000000 ≤ u.seq.admTime then [.lapse] else []) = acts) :
    modesWrite u x 9 n v = { Eff.ok u Lat.write with acts := acts } := by
  unfold modesWrite
  rw [if_neg (by decide), if_pos rfl, ha]
  have hrange : plainCheck u 0x2000 9 n v = 0 := by
    show within (decide (60 ≤ n ∧ n ≤ 86400)) = 0
    rw [decide_eq_true ⟨hlo, hhi⟩]
    rfl
  rw [hrange]
  rfl

/-- Settles O17. -/
theorem modeFlagsSetAndClear : Obligations.mode_flags_set_and_clear := by
  unfold Obligations.mode_flags_set_and_clear
  refine ⟨fun s h tr z ho => ⟨fun hcl hallow => ?_, fun hcl hoff => ?_, fun hcl => ?_, fun hcl => ?_, fun hcl => ?_⟩, fun s h tr z ho =>
    ⟨fun hcl hon => ?_, fun hcl hon => ?_, fun hcl => ?_, fun hcl hvigil => ?_, fun hcl => ?_, fun value hcl hle => ?_, fun seconds hcl hlo hhi => ?_⟩⟩
  · refine flag_completes (role := .service) (pers := false) (Q := fun b => OthersStand s b [(0x2000, 3)]) ho hcl rfl rfl (by decide) ?_ rfl fun b y t hb ht =>
      ⟨flag_reads ht (by decide) rfl, written_others ht (by decide) hb (by simp)⟩
    by_cases hsame : num (admittedIn s (rqWrite h 0x2000 3 [1]) tr) 0x2000 3 = 1
    · exact ⟨_, modeWrite_same (by decide) hsame (by decide), steady_admitted s _ tr, othersStand_admittedIn s _ tr _⟩
    · exact ⟨_, modeWrite_service (sheafOn_admittedIn ho.single _) hsame (by rwa [num_admittedIn]), (steady_admitted s _ tr).setNum _ _ _,
        (othersStand_admittedIn s _ tr _).setNum _ (by decide) (by simp)⟩
  · refine flag_completes (role := .owner) (pers := true) (Q := fun b => (∀ p ∈ b.sessions, p.2.origin ≠ 1) ∧ OthersStand s b [(0x2000, 4)]) ho hcl rfl rfl (by decide)
      ⟨_, modeWrite_island (lifecycle_admittedIn_open ho _) (by rwa [num_admittedIn]), ((steady_admitted s _ tr).endOrigin 1).setNum _ _ _, ?_,
        ((othersStand_admittedIn s _ tr _).endOrigin 1).setNum _ (by decide) (by simp)⟩ rfl fun b y t hb ht =>
      ⟨flag_reads ht (by decide) rfl, ?_, written_others ht (by decide) hb.2 (by simp)⟩
    · rw [setNum, setObj_sessions]
      exact endOrigin_sessions _ 1
    · rw [written_sessions ht]
      exact hb.1
  · refine flag_completes (role := .operator) (pers := true) (Q := fun _ => True) ho hcl rfl rfl (by decide) ?_ rfl fun b y t _ ht => flag_reads ht (by decide) rfl
    by_cases hsame : num (admittedIn s (rqWrite h 0x2000 5 [1]) tr) 0x2000 5 = 1
    · exact ⟨_, modeWrite_same (by decide) hsame (by decide), steady_admitted s _ tr, trivial⟩
    · exact ⟨_, modeWrite_vigil hsame, ((steady_admitted s _ tr).setNum _ _ _).emptyHistories, trivial⟩
  · refine flag_completes (role := .owner) (pers := true) (Q := fun b => OthersStand s b [(0x2000, 6)]) ho hcl rfl rfl (by decide) ?_ rfl fun b y t hb ht =>
      ⟨flag_reads ht (by decide) rfl, written_others ht (by decide) hb (by simp)⟩
    by_cases hsame : num (admittedIn s (rqWrite h 0x2000 6 [1]) tr) 0x2000 6 = 1
    · exact ⟨_, modeWrite_same (by decide) hsame (by decide), steady_admitted s _ tr, othersStand_admittedIn s _ tr _⟩
    · refine ⟨_, modeWrite_audit hsame, ?_, ?_⟩
      · exact (((steady_admitted s _ tr).setNum _ _ _).withAudit _).setNum _ _ _
      · exact ((othersStand_break (othersStand_admittedIn s _ tr _)).withAudit _).setNum _ (by decide) (by simp)
  · refine flag_completes (role := .owner) (pers := false)
      (Q := fun b => num b 0x2000 10 = s.seq.time ∧ b.modes.provBy = h.origin ∧ OthersStand s b [(0x2000, 7), (0x2000, 10)]) ho hcl rfl rfl (by decide)
      ⟨_, modeWrite_provision (lifecycle_admittedIn_open ho _), ?_, ?_⟩ rfl fun b y t hb ht =>
      ⟨flag_reads ht (by decide) rfl, (written_otherNum ht (by decide) (by decide) rfl (by decide)).trans hb.1, (congrArg (fun m => m.provBy) (written_modes ht)).trans hb.2.1,
        written_others ht (by decide) hb.2.2 (by simp)⟩
    · exact steady_provisioned (steady_admitted s _ tr) _
    · exact provisioned_reads (othersStand_admittedIn s _ tr _) (steady_admitted s _ tr).time _
  · refine flag_completes (role := .service) (pers := false) (Q := fun b => num b 0xE200 1 = 0 ∧ OthersStand s b [(0x2000, 3), (0xE200, 1)]) ho hcl rfl rfl (by decide)
      ⟨_, modeWrite_serviceClear (by rwa [num_admittedIn]), (steady_admitted s _ tr).clearService, (num_clearService _).2,
        (othersStand_admittedIn s _ tr _).clearService (by simp) (by simp)⟩ rfl fun b y t hb ht =>
      ⟨flag_reads ht (by decide) rfl, (written_otherNum ht (by decide) (by decide) rfl (by decide)).trans hb.1, written_others ht (by decide) hb.2 (by simp)⟩
  · exact flag_completes (role := .owner) (pers := true) (Q := fun b => OthersStand s b [(0x2000, 4)]) ho hcl rfl rfl (by decide)
      ⟨_, modeWrite_islandClear (by rwa [num_admittedIn]), (steady_admitted s _ tr).setNum _ _ _, (othersStand_admittedIn s _ tr _).setNum _ (by decide) (by simp)⟩
      rfl fun b y t hb ht => ⟨flag_reads ht (by decide) rfl, written_others ht (by decide) hb (by simp)⟩
  · refine flag_completes (role := .operator) (pers := true) (Q := fun _ => True) ho hcl rfl rfl (by decide) ?_ rfl fun b y t _ ht => flag_reads ht (by decide) rfl
    by_cases hsame : num (admittedIn s (rqWrite h 0x2000 5 [0]) tr) 0x2000 5 = 0
    · exact ⟨_, modeWrite_same (by decide) hsame (by decide), steady_admitted s _ tr, trivial⟩
    · exact ⟨_, modeWrite_vigilClear (sheafOn_admittedIn ho.single _) hsame, ((steady_admitted s _ tr).setNum _ _ _).emptyHistories, trivial⟩
  · refine flag_completes (role := .owner) (pers := true) (Q := fun b => OthersStand s b [(0x2000, 6)]) ho hcl rfl rfl (by decide) ?_ rfl fun b y t hb ht =>
      ⟨flag_reads ht (by decide) rfl, written_others ht (by decide) hb (by simp)⟩
    by_cases hsame : num (admittedIn s (rqWrite h 0x2000 6 [0]) tr) 0x2000 6 = 0
    · exact ⟨_, modeWrite_same (by decide) hsame (by decide), steady_admitted s _ tr, othersStand_admittedIn s _ tr _⟩
    · exact ⟨_, modeWrite_auditClear (by rwa [num_admittedIn]) hsame, ((steady_admitted s _ tr).withAudit _).setNum _ _ _,
        ((othersStand_admittedIn s _ tr _).withAudit _).setNum _ (by decide) (by simp)⟩
  · refine flag_completes (role := .owner) (pers := false) (Q := fun b => OthersStand s b [(0x2000, 7)]) ho hcl rfl rfl (by decide) ?_ rfl fun b y t hb ht =>
      ⟨flag_reads ht (by decide) rfl, written_others ht (by decide) hb (by simp)⟩
    by_cases hsame : num (admittedIn s (rqWrite h 0x2000 7 [0]) tr) 0x2000 7 = 0
    · exact ⟨_, modeWrite_same (by decide) hsame (by decide), steady_admitted s _ tr, othersStand_admittedIn s _ tr _⟩
    · exact ⟨_, modeWrite_provisionClear hsame, (steady_admitted s _ tr).setNum _ _ _, (othersStand_admittedIn s _ tr _).setNum _ (by decide) (by simp)⟩
  · have hv : leNat [value] = value.toNat := by simp [leNat]
    have henc : encodingCheck allowedDesc [value] = 0 := by
      unfold encodingCheck allowedDesc
      dsimp only
      rw [hv, if_neg (by omega)]
    have hst : Steady s (serviceAllowedOp (admittedIn s (rqWrite h 0x2000 8 [value]) tr) value.toNat) := by
      unfold serviceAllowedOp
      split
      · exact (steady_admitted s _ tr).clearService
      · exact steady_admitted s _ tr
    refine modes_completes (d := allowedDesc) (acts := []) ho hcl rfl rfl ⟨by decide, by decide, rfl, by decide⟩ (by decide) rfl henc (by rw [hv]; rfl) rfl hst
      fun y t ht => ⟨written_num ht (by decide) rfl rfl hv, fun h0 => ?_⟩
    rw [written_otherNum ht (by decide) (by decide) rfl (by decide)]
    exact num_serviceAllowedOp _ (by rw [h0]; rfl)
  · have hv : leNat (leBytes 4 seconds.toNat) = seconds.toNat := leNat_leBytes 4 _ seconds.isLt
    have htime := (steady_admitted s (rqWrite h 0x2000 9 (leBytes 4 seconds.toNat)) tr).time
    refine modes_completes (d := lapseDesc) (b := admittedIn s (rqWrite h 0x2000 9 (leBytes 4 seconds.toNat)) tr) ho hcl rfl rfl ⟨by decide, by decide, leBytes_length 4 _, by decide⟩ (by decide) rfl rfl ?_ (by split <;> rfl)
      (steady_admitted s _ tr) fun y t ht => ⟨written_num ht (by decide) rfl rfl hv, written_others ht (by decide) (othersStand_admittedIn s _ tr _) (by simp)⟩
    rw [hv]
    refine modesWrite_lapse hlo hhi ?_
    unfold provisionOn modeFlag
    simp only [num_admittedIn, htime, decide_eq_true_eq]

end Sys2Proof.Machine
end

section
/-! SUPPORT. What the field die sends leaves it as it is but for its queues, and the rules of its guard outputs (R171, R459 to R464). -/

namespace Sys2Proof.Machine

/-- Field die g is f but for what waits to be sent, held or lost. -/
def SendsOnly (f g : Field) : Prop := ∃ l w d, g = { f with lane0 := l, wake := w, framesDropped := d }

theorem sendsOnly_send (f : Field) (m : Lane0) : SendsOnly f (Fld.send f m) := by
  unfold Fld.send
  dsimp only
  repeat' split
  all_goals exact ⟨_, _, _, rfl⟩

theorem sendsOnly_reportChange (f g : Field) : SendsOnly g (Fld.reportChange f g) := by
  unfold Fld.reportChange
  split
  · exact ⟨_, _, _, rfl⟩
  · exact sendsOnly_send _ _

/-- A change that no report byte shows sends nothing (R171). -/
theorem reportChange_unseen {f g : Field} (h : Fld.conducting f = Fld.conducting g ∧ Fld.faults f = Fld.faults g ∧ Fld.active f = Fld.active g ∧
    Fld.status f = Fld.status g) : Fld.reportChange f g = g := if_pos h

/-- A predicate of the field die that its queues do not touch holds after a command of it. -/
theorem atField_of_run {c : Instr} {s : State} {g : Field → Field} {P : Field → Prop} (hexec : exec c s = fieldCmd g s) (hrun : s.field.run = true)
    (hP : ∀ l w d, P { g s.field with lane0 := l, wake := w, framesDropped := d }) : AtField c s P := by
  obtain ⟨l, w, d, e⟩ := sendsOnly_reportChange s.field (g s.field)
  refine ⟨_, hexec, ?_⟩
  unfold whenField
  rw [if_pos hrun]
  dsimp only
  rw [e]
  exact hP l w d

/-- The same of a supply, which acts on a field die in reset too (R38). -/
theorem atField_of_vguard {c : Instr} {s : State} {g : Field → Field} {P : Field → Prop} (hexec : exec c s = vguardCmd g s)
    (hP : ∀ l w d, P { g s.field with lane0 := l, wake := w, framesDropped := d }) : AtField c s P := by
  by_cases hrun : s.field.run = true
  · obtain ⟨l, w, d, e⟩ := sendsOnly_reportChange s.field (g s.field)
    refine ⟨_, hexec, ?_⟩
    unfold whenField
    rw [if_pos hrun, if_pos hrun]
    dsimp only
    rw [e]
    exact hP l w d
  · refine ⟨_, hexec, ?_⟩
    rw [if_neg hrun]
    exact hP (g s.field).lane0 (g s.field).wake (g s.field).framesDropped

/-- A command that leaves the report bytes as they are changes the field die to just what it makes of it. -/
theorem exec_unseen {c : Instr} {s : State} {g : Field → Field} {f : Field} (hexec : exec c s = fieldCmd g s) (hrun : s.field.run = true) (hg : g s.field = f)
    (h : Fld.conducting s.field = Fld.conducting f ∧ Fld.faults s.field = Fld.faults f ∧ Fld.active s.field = Fld.active f ∧
      Fld.status s.field = Fld.status f) : exec c s = .next { s with field := f } := by
  rw [hexec]
  unfold fieldCmd whenField
  rw [if_pos hrun, hg, reportChange_unseen h]

theorem Fld.outOf_setOut (f : Field) (n k : Nat) (o : FOut) : Fld.outOf (Fld.setOut f n o) k = if k = n then o else Fld.outOf f k :=
  SMap.at_store f.outs n k o Fld.out0

/-- An output set, and what the die has to send beside it. -/
theorem outBecomes_setOut (f : Field) (n : Nat) (o : FOut) (l : List Lane0) (w : List Lane0) (d : Nat) :
    outBecomes f { Fld.setOut f n o with lane0 := l, wake := w, framesDropped := d } n o := by
  have hout : ∀ k, Fld.outOf { Fld.setOut f n o with lane0 := l, wake := w, framesDropped := d } k = if k = n then o else Fld.outOf f k :=
    fun k => Fld.outOf_setOut f n k o
  refine ⟨by rw [hout, if_pos rfl], fun k hk => by rw [hout, if_neg hk], rfl, rfl, rfl, ?_⟩
  exact ⟨rfl, rfl, rfl, rfl, rfl, rfl, rfl, rfl, rfl, rfl, rfl⟩

variable {f : Field} {n : Nat} {t : Nat}

theorem endPulse_due (hfirst : (Fld.outOf f n).first = some t) (hset : fset f (0xDB00 + n) 2 ≠ 0) (hdue : t + fset f (0xDB00 + n) 2 * 1000 ≤ f.time) :
    Fld.endPulse f n = Fld.setOut f n { Fld.outOf f n with on := false, conducting := false, first := none, since := none, tripped := none } := by
  unfold Fld.endPulse
  dsimp only
  rw [hfirst]
  exact if_neg (by omega)

theorem trip_conducting (h : (Fld.outOf f n).conducting = true) : Fld.trip f n = Fld.setOut f n { Fld.outOf f n with
    conducting := false, fault := true, since := none,
    tripped := if fset f (0xDB00 + n) 3 ≤ (Fld.outOf f n).retries then none else some f.time } := by
  unfold Fld.trip
  dsimp only
  rw [h]
  simp

theorem clearFault_due (hsince : (Fld.outOf f n).since = some t) (hfault : (Fld.outOf f n).fault = true) (hdue : t + 100000 ≤ f.time) :
    Fld.clearFault f n = Fld.setOut f n { Fld.outOf f n with fault := false, retries := 0 } := by
  unfold Fld.clearFault
  dsimp only
  rw [hsince, hfault]
  exact if_neg (by simp; omega)

/-- A retry that is due sets the output once to count it, and once to conduct again. -/
theorem retry_due (htrip : (Fld.outOf f n).tripped = some t) (hon : (Fld.outOf f n).on = true) (hdue : t + fset f (0xDB00 + n) 4 * 1000 ≤ f.time) :
    Fld.retry f n = Fld.setOut (Fld.setOut f n { Fld.outOf f n with retries := (Fld.outOf f n).retries + 1 }) n { Fld.outOf f n with
      retries := (Fld.outOf f n).retries + 1, conducting := true, first := some ((Fld.outOf f n).first.getD f.time), since := some f.time, tripped := none } := by
  unfold Fld.retry
  dsimp only
  rw [htrip]
  refine (if_neg ?_).trans ?_
  · simp [hon]
    omega
  · unfold Fld.conduct
    dsimp only
    rw [Fld.outOf_setOut, if_pos rfl]
    rfl

theorem outBecomes_setOut_twice (f : Field) (n : Nat) (o p : FOut) (l : List Lane0) (w : List Lane0) (d : Nat) :
    outBecomes f { Fld.setOut (Fld.setOut f n p) n o with lane0 := l, wake := w, framesDropped := d } n o := by
  obtain ⟨hself, hothers, hrest⟩ := outBecomes_setOut (Fld.setOut f n p) n o l w d
  refine ⟨hself, fun k hk => (hothers k hk).trans ?_, hrest⟩
  rw [Fld.outOf_setOut, if_neg hk]

theorem halfPeriod_turns (hcmd : f.permitCmd = true) (htog : f.toggle = true) (hlink : f.link = 2) (hok : f.vguardOk = true) :
    Fld.halfPeriod f = if f.wave then (if f.time % 500 = 0 then { f with permitOut := !f.permitOut } else f)
      else if f.time % 1000 = 0 then { f with wave := true, permitOut := true } else f := by
  unfold Fld.halfPeriod
  rw [if_neg (by simp [hcmd, htog, hlink, hok])]

section
variable {s : State}

theorem output_events (hrun : s.field.run = true) (n : Fin 8) (o : FOut) (ho : Fld.outOf s.field n.val = o) :
    (∀ t, o.first = some t → fset s.field (0xDB00 + n.val) 2 ≠ 0 → t + fset s.field (0xDB00 + n.val) 2 * 1000 ≤ s.field.time →
      AtField (.pulseExpiry n) s fun g =>
        outBecomes s.field g n.val { o with on := false, conducting := false, first := none, since := none, tripped := none }) ∧
    (o.conducting = true → AtField (.outputTrip n) s fun g =>
      outBecomes s.field g n.val { o with conducting := false, fault := true, since := none,
                                          tripped := if fset s.field (0xDB00 + n.val) 3 ≤ o.retries then none else some s.field.time }) ∧
    (∀ t, o.tripped = some t → o.on = true → t + fset s.field (0xDB00 + n.val) 4 * 1000 ≤ s.field.time →
      AtField (.retryIntervalExpiry n) s fun g =>
        outBecomes s.field g n.val { o with retries := o.retries + 1, conducting := true, first := some (o.first.getD s.field.time),
                                            since := some s.field.time, tripped := none }) ∧
    (∀ t, o.since = some t → o.fault = true → t + 100000 ≤ s.field.time →
      AtField (.faultClearTimer n) s fun g => outBecomes s.field g n.val { o with fault := false, retries := 0 }) := by
  subst ho
  refine ⟨fun t hfirst hset hdue => ?_, fun hcond => ?_, fun t htrip hon hdue => ?_, fun t hsince hfault hdue => ?_⟩
  · refine atField_of_run (g := fun f => Fld.endPulse f n.val) rfl hrun fun l w d => ?_
    rw [endPulse_due hfirst hset hdue]
    exact outBecomes_setOut ..
  · refine atField_of_run (g := fun f => Fld.trip f n.val) rfl hrun fun l w d => ?_
    rw [trip_conducting hcond]
    exact outBecomes_setOut ..
  · refine atField_of_run (g := fun f => Fld.retry f n.val) rfl hrun fun l w d => ?_
    rw [retry_due htrip hon hdue]
    exact outBecomes_setOut_twice ..
  · refine atField_of_run (g := fun f => Fld.clearFault f n.val) rfl hrun fun l w d => ?_
    rw [clearFault_due hsince hfault hdue]
    exact outBecomes_setOut ..

theorem permitToggleAbsent_cuts (hrun : s.field.run = true) : AtField .permitToggleAbsent s fun g => g.toggle = false ∧ g.outs = [] ∧ g.wave = false ∧
    g.permitOut = false ∧ g.permitCmd = false ∧ g.ins = s.field.ins ∧ guardFrame s.field g :=
  atField_of_run (g := Fld.toggleGone) rfl hrun fun l w d => by simp [guardFrame, Fld.toggleGone, Fld.cutAll, Fld.stopWave, Fld.cutOutputs]

theorem permitToggleLive_shows (hrun : s.field.run = true) (htog : s.boot.toggle = true) : AtField .permitToggleLive s fun g => g.toggle = true ∧
    g.outs = s.field.outs ∧ g.wave = s.field.wave ∧ g.ins = s.field.ins ∧ guardFrame s.field g :=
  atField_of_run (g := fun f => if s.boot.toggle then Fld.toggleBack f else f) rfl hrun fun l w d => by simp [guardFrame, Fld.toggleBack, htog]

theorem vguardUndervoltage_cuts (v : BitVec 20) : AtField (.vguardUndervoltage v) s fun g => g.vguardOk = false ∧ g.uv = true ∧ g.vguard = v ∧ g.outs = [] ∧
    g.wave = false ∧ g.permitOut = false ∧ g.permitCmd = s.field.permitCmd ∧ g.ins = s.field.ins ∧ guardFrame s.field g :=
  atField_of_vguard (g := fun f => Fld.undervoltage f v) rfl fun l w d => by simp [guardFrame, Fld.undervoltage, Fld.stopWave, Fld.cutOutputs]

theorem vguardRecovery_shows (v : BitVec 20) : AtField (.vguardRecovery v) s fun g => g.vguardOk = true ∧ g.uv = false ∧ g.vguard = v ∧
    g.outs = s.field.outs ∧ g.ins = s.field.ins ∧ guardFrame s.field g :=
  atField_of_vguard (g := fun f => Fld.recovery f v) rfl fun l w d => by simp [guardFrame, Fld.recovery]

theorem permitOut_turns (hrun : s.field.run = true) (hcmd : s.field.permitCmd = true) (htog : s.field.toggle = true) (hlink : s.field.link = 2)
    (hok : s.field.vguardOk = true) :
    (s.field.wave = true → s.field.time % 500 = 0 →
      exec .permitOutHalfPeriod s = .next { s with field := { s.field with permitOut := !s.field.permitOut } }) ∧
    (s.field.wave = false → s.field.time % 1000 = 0 →
      exec .permitOutHalfPeriod s = .next { s with field := { s.field with wave := true, permitOut := true } }) := by
  refine ⟨fun hwave hms => ?_, fun hwave hms => ?_⟩
  · exact exec_unseen (g := Fld.halfPeriod) rfl hrun ((halfPeriod_turns hcmd htog hlink hok).trans ((if_pos hwave).trans (if_pos hms))) ⟨rfl, rfl, rfl, rfl⟩
  · exact exec_unseen (g := Fld.halfPeriod) rfl hrun ((halfPeriod_turns hcmd htog hlink hok).trans ((if_neg (by simp [hwave])).trans (if_pos hms))) ⟨rfl, rfl, rfl, rfl⟩

end

/-- Settles O46: each event of a guard output sets that output alone; a missing toggle or supply cuts all of them. -/
theorem guardOutputsFollowTheirEvents : Obligations.guard_outputs_follow_their_events := by
  unfold Obligations.guard_outputs_follow_their_events
  exact ⟨fun s hrun => ⟨output_events hrun, permitToggleAbsent_cuts hrun, permitToggleLive_shows hrun, permitOut_turns hrun⟩,
    fun s v => ⟨vguardUndervoltage_cuts v, vguardRecovery_shows v⟩⟩

end Sys2Proof.Machine
end

section
/-! SUPPORT. What the field die sends on a link that is up, and its periodic reports (R171, R455, R471, R520). -/

namespace Sys2Proof.Machine

theorem send_onLine {f : Field} (hlink : f.link = 2) (hawake : f.notice ≠ 1) (m : Lane0) : Fld.send f m = { f with lane0 := f.lane0 ++ [m] } := by
  unfold Fld.send
  rw [if_neg (by simp [hawake]), if_pos hlink]

theorem foldl_send_onLine {f : Field} (hlink : f.link = 2) (hawake : f.notice ≠ 1) (ms : List Lane0) :
    ms.foldl Fld.send f = { f with lane0 := f.lane0 ++ ms } := by
  induction ms generalizing f with
  | nil => simp
  | cons m ms ih =>
    rw [List.foldl_cons, send_onLine hlink hawake, ih (f := { f with lane0 := f.lane0 ++ [m] }) hlink hawake]
    simp

/-- What a change sends joins the lane-0 queue (R171). -/
theorem reportChange_onLine {f g : Field} (hlink : g.link = 2) (hawake : g.notice ≠ 1) : ∃ q, Fld.reportChange f g = { g with lane0 := g.lane0 ++ q } := by
  unfold Fld.reportChange
  split
  · exact ⟨[], by simp⟩
  · exact ⟨_, send_onLine hlink hawake _⟩

/-- A predicate of the field die that what it sends after it does not touch. -/
theorem atField_onLine {c : Instr} {s : State} {g : Field → Field} {P : Field → Prop} (hexec : exec c s = fieldCmd g s) (hrun : s.field.run = true)
    (hlink : (g s.field).link = 2) (hawake : (g s.field).notice ≠ 1) (hP : ∀ q, P { g s.field with lane0 := (g s.field).lane0 ++ q }) : AtField c s P := by
  obtain ⟨q, e⟩ := reportChange_onLine (f := s.field) hlink hawake
  refine ⟨_, hexec, ?_⟩
  unfold whenField
  rw [if_pos hrun]
  dsimp only
  rw [e]
  exact hP q

section
variable {s : State}

theorem exec_fieldCmd_same {c : Instr} {g : Field → Field} (hexec : exec c s = fieldCmd g s) (h : g s.field = s.field) : exec c s = .next s := by
  rw [hexec]
  unfold fieldCmd whenField
  rw [h, reportChange_unseen ⟨rfl, rfl, rfl, rfl⟩]
  split <;> rfl

theorem dueAt_of_le {f : Field} {t p : Nat} (h : t + p ≤ f.time) : Fld.dueAt f t p = true := decide_eq_true h
theorem dueAt_of_lt {f : Field} {t p : Nat} (h : f.time < t + p) : Fld.dueAt f t p = false := decide_eq_false (by omega)

/-- The field die at its report period, with the readings that it takes. -/
def readAt (f : Field) : Field := Fld.readSelf { f with due := { f.due with report := f.time } }

theorem reportPeriod_due {f : Field} (h : f.due.report + 1000 ≤ f.time) :
    Fld.reportPeriod f = if f.notice = 1 then readAt f else Fld.send (readAt f) (.fieldReport (Fld.report (readAt f))) := by
  unfold Fld.reportPeriod
  rw [dueAt_of_le h]
  rfl

theorem netPeriod_due {f : Field} (h : f.due.net + 100000 ≤ f.time) : Fld.netPeriod f = if f.notice = 1 then { f with due := { f.due with net := f.time } }
    else ((List.range 7).filter (Fld.portOn f)).foldl (fun g p => Fld.send g (.netStatus (Fld.netStatus g (Fin.ofNat 7 p))))
      { f with due := { f.due with net := f.time } } := by
  unfold Fld.netPeriod
  rw [dueAt_of_le h]
  rfl

theorem foldl_netStatus_onLine {f : Field} (hlink : f.link = 2) (hawake : f.notice ≠ 1) (ps : List Nat) :
    ps.foldl (fun g p => Fld.send g (.netStatus (Fld.netStatus g (Fin.ofNat 7 p)))) f =
      { f with lane0 := f.lane0 ++ ps.map fun p => .netStatus (Fld.netStatus f (Fin.ofNat 7 p)) } := by
  induction ps generalizing f with
  | nil => simp
  | cons p ps ih =>
    rw [List.foldl_cons, send_onLine hlink hawake,
      ih (f := { f with lane0 := f.lane0 ++ [.netStatus (Fld.netStatus f (Fin.ofNat 7 p))] }) hlink hawake]
    simp only [List.append_assoc, List.map_cons, List.singleton_append]
    rfl

/-- An OUTPUT_SENSE of eight readings. -/
theorem senseOf_readings {xs : List (BitVec 20)} (h : xs.length = 8) : ((List.range 8).map fun n => (xs.getD n 0#20).toNat) = xs.map BitVec.toNat := by
  refine List.ext_getElem (by simp [h]) fun n h1 h2 => ?_
  have hn : n < xs.length := by simpa using h2
  simp [List.getD_eq_getElem?_getD, hn]

theorem sensePeriod_due {f : Field} {xs : List (BitVec 20)} (hlen : xs.length = 8) (h : f.due.sense + 10000 ≤ f.time) : Fld.sensePeriod f xs =
    if f.notice = 1 then (if Fld.conducting f = 0 ∨ f.link ≠ 2 then { f with due := { f.due with sense := f.time } }
      else { f with due := { f.due with sense := f.time }, lane0 := f.lane0 ++ [.outputSense (xs.map BitVec.toNat)] })
    else Fld.send { f with due := { f.due with sense := f.time } } (.outputSense (xs.map BitVec.toNat)) := by
  unfold Fld.sensePeriod
  rw [dueAt_of_le h]
  dsimp only
  rw [senseOf_readings hlen]
  rfl

theorem reports_awake (ho : OnLine s.field) :
    (s.field.due.report + 1000 ≤ s.field.time →
      exec .fieldReportPeriod s = .next { s with field := { readAt s.field with lane0 := s.field.lane0 ++ [.fieldReport (Fld.report (readAt s.field))] } }) ∧
    (s.field.due.net + 100000 ≤ s.field.time → exec .netStatusPeriod s = .next { s with field := { s.field with
      due := { s.field.due with net := s.field.time }
      lane0 := s.field.lane0 ++ ((List.range 7).filter (Fld.portOn s.field)).map fun p => .netStatus (Fld.netStatus s.field (Fin.ofNat 7 p)) } }) ∧
    (∀ xs : List (BitVec 20), xs.length = 8 → s.field.due.sense + 10000 ≤ s.field.time →
      exec (.outputSensePeriod xs) s = .next { s with field := { s.field with
        due := { s.field.due with sense := s.field.time }, lane0 := s.field.lane0 ++ [.outputSense (xs.map BitVec.toNat)] } }) := by
  obtain ⟨hrun, hlink, hawake⟩ := ho
  refine ⟨fun h => ?_, fun h => ?_, fun xs hlen h => ?_⟩
  · exact exec_unseen (g := Fld.reportPeriod) rfl hrun
      ((reportPeriod_due h).trans ((if_neg hawake).trans (send_onLine (f := readAt s.field) hlink hawake _))) ⟨rfl, rfl, rfl, rfl⟩
  · exact exec_unseen (g := Fld.netPeriod) rfl hrun
      ((netPeriod_due h).trans ((if_neg hawake).trans (foldl_netStatus_onLine (f := { s.field with due := { s.field.due with net := s.field.time } }) hlink hawake _)))
      ⟨rfl, rfl, rfl, rfl⟩
  · exact exec_unseen (g := fun f => Fld.sensePeriod f xs) rfl hrun
      ((sensePeriod_due hlen h).trans ((if_neg hawake).trans (send_onLine (f := { s.field with due := { s.field.due with sense := s.field.time } }) hlink hawake _)))
      ⟨rfl, rfl, rfl, rfl⟩

theorem reports_asleep (hrun : s.field.run = true) (hlink : s.field.link = 2) (hasleep : s.field.notice = 1) :
    (s.field.due.report + 1000 ≤ s.field.time → exec .fieldReportPeriod s = .next { s with field := readAt s.field }) ∧
    (s.field.due.net + 100000 ≤ s.field.time →
      exec .netStatusPeriod s = .next { s with field := { s.field with due := { s.field.due with net := s.field.time } } }) ∧
    (∀ xs : List (BitVec 20), xs.length = 8 → s.field.due.sense + 10000 ≤ s.field.time →
      exec (.outputSensePeriod xs) s = .next { s with field := { s.field with
        due := { s.field.due with sense := s.field.time }
        lane0 := s.field.lane0 ++ if Fld.conducting s.field = 0 then [] else [.outputSense (xs.map BitVec.toNat)] } }) := by
  refine ⟨fun h => ?_, fun h => ?_, fun xs hlen h => ?_⟩
  · exact exec_unseen (g := Fld.reportPeriod) rfl hrun ((reportPeriod_due h).trans (if_pos hasleep)) ⟨rfl, rfl, rfl, rfl⟩
  · exact exec_unseen (g := Fld.netPeriod) rfl hrun ((netPeriod_due h).trans (if_pos hasleep)) ⟨rfl, rfl, rfl, rfl⟩
  · refine exec_unseen (g := fun f => Fld.sensePeriod f xs) rfl hrun ((sensePeriod_due hlen h).trans ((if_pos hasleep).trans ?_)) ⟨rfl, rfl, rfl, rfl⟩
    by_cases hc : Fld.conducting s.field = 0
    · rw [if_pos (.inl hc), if_pos hc, List.append_nil]
    · rw [if_neg (by simp [hc, hlink]), if_neg hc]

theorem reports_early : (s.field.time < s.field.due.report + 1000 → exec .fieldReportPeriod s = .next s) ∧
    (s.field.time < s.field.due.net + 100000 → exec .netStatusPeriod s = .next s) ∧
    (∀ xs : List (BitVec 20), s.field.time < s.field.due.sense + 10000 → exec (.outputSensePeriod xs) s = .next s) := by
  refine ⟨fun h => ?_, fun h => ?_, fun xs h => ?_⟩
  · exact exec_fieldCmd_same (g := Fld.reportPeriod) rfl (by unfold Fld.reportPeriod; rw [dueAt_of_lt h]; rfl)
  · exact exec_fieldCmd_same (g := Fld.netPeriod) rfl (by unfold Fld.netPeriod; rw [dueAt_of_lt h]; rfl)
  · exact exec_fieldCmd_same (g := fun f => Fld.sensePeriod f xs) rfl (by unfold Fld.sensePeriod; rw [dueAt_of_lt h]; rfl)

end

end Sys2Proof.Machine
end

section
/-! SUPPORT. The analog inputs: what an interval reads (R471). -/

namespace Sys2Proof.Machine

theorem bit_maskOf_four (p : Nat → Bool) {n : Nat} (h : n < 4) : bit (Fld.maskOf 4 p) n = p n := by
  have hcases : Fld.maskOf 4 p = (if p 0 then 1 else 0) + ((if p 1 then 2 else 0) + ((if p 2 then 4 else 0) + (if p 3 then 8 else 0))) := by
    simp [Fld.maskOf, List.range, List.range.loop]
  rw [hcases]
  generalize h0 : p 0 = a
  generalize h1 : p 1 = b
  generalize h2 : p 2 = c
  generalize h3 : p 3 = d
  match n, h with
  | 0, _ => rw [h0]; clear * -; revert a b c d; decide
  | 1, _ => rw [h1]; clear * -; revert a b c d; decide
  | 2, _ => rw [h2]; clear * -; revert a b c d; decide
  | 3, _ => rw [h3]; clear * -; revert a b c d; decide

theorem maskOf_four_lt (p : Nat → Bool) : Fld.maskOf 4 p < 16 := by
  have h : Fld.maskOf 4 p = (if p 0 then 1 else 0) + ((if p 1 then 2 else 0) + ((if p 2 then 4 else 0) + (if p 3 then 8 else 0))) := by
    simp [Fld.maskOf, List.range, List.range.loop]
  rw [h]
  split <;> split <;> split <;> split <;> omega

theorem clampScale_ne (x : Int) : Fld.clampScale x ≠ x ↔ x < -524288 ∨ 524287 < x := by
  unfold Fld.clampScale
  omega

theorem overrange_iff (xs : List Int) : Fld.overrange xs = true ↔ ∃ x ∈ xs, x < -524288 ∨ 524287 < x := by
  simp [Fld.overrange, clampScale_ne]

/-- Without a calibration nothing is left out. -/
theorem kept_eq (cal : Option Nat) {xs : List Int} {m : Nat} (h : xs.length ≤ m) : Fld.kept cal xs = xs.eraseIdx (cal.getD m) := by
  cases cal with
  | none => exact (List.eraseIdx_of_length_le h).symm
  | some n => rfl

/-- An interval that has ended, in the terms of its statement. -/
theorem intervalEnds_of {f : Field} {samples : List (List Int)} {cal : Option Nat} (hdue : f.due.analog + fset f 0xDB30 4 * 1000 ≤ f.time)
    (hlen : ∀ xs ∈ samples, xs.length = 4 * fset f 0xDB30 4)
    (hcal : if f.time / 10000000 ≠ f.due.analog / 10000000 then ∃ n, cal = some n ∧ n < 4 * fset f 0xDB30 4 else cal = none) :
    Fld.intervalEnds f samples cal = true := by
  have hall : samples.all (fun xs => decide (xs.length = 4 * fset f 0xDB30 4)) = true := by simpa using hlen
  unfold Fld.intervalEnds
  dsimp only
  rw [dueAt_of_le hdue, hall]
  split at hcal
  next h =>
    obtain ⟨n, rfl, hn⟩ := hcal
    simp [h, hn]
  next h =>
    rw [hcal]
    simpa using h

/-- The reading of analog input n, of what the calibration leaves of its samples. -/
def reading (f : Field) (samples : List (List Int)) (cal : Option Nat) (n : Nat) : BitVec 20 :=
  if decide (fset f (0xDB20 + n) 2 = 1) then BitVec.ofInt 20 (Fld.mean (Fld.kept cal (samples.getD n []))) else 0#20

/-- Whether its interval was beyond full scale. -/
def beyond (f : Field) (samples : List (List Int)) (cal : Option Nat) (n : Nat) : Bool :=
  decide (fset f (0xDB20 + n) 2 = 1) && Fld.overrange (Fld.kept cal (samples.getD n []))

theorem analogPeriod_ended {f : Field} {samples : List (List Int)} {cal : Option Nat} (h : Fld.intervalEnds f samples cal = true) :
    Fld.analogPeriod f samples cal = Fld.send { f with due := { f.due with analog := f.time } }
      (.analogSense (((List.range 4).map (reading f samples cal)).map BitVec.toNat) (Fld.maskOf 4 (beyond f samples cal))) := by
  unfold Fld.analogPeriod
  rw [h, List.map_map]
  rfl

theorem analogReport_sent {s : State} (ho : OnLine s.field) (samples : List (List Int)) (cal : Option Nat)
    (hdue : s.field.due.analog + fset s.field 0xDB30 4 * 1000 ≤ s.field.time) (hfour : samples.length = 4)
    (hlen : ∀ xs ∈ samples, xs.length = 4 * fset s.field 0xDB30 4)
    (hcal : if s.field.time / 10000000 ≠ s.field.due.analog / 10000000 then ∃ n, cal = some n ∧ n < 4 * fset s.field 0xDB30 4 else cal = none) :
    ∃ (xs : List (BitVec 20)) (ovr : Nat), xs.length = 4 ∧ ovr < 16 ∧
      (∀ n, n < 4 → xs.getD n 0 = if fset s.field (0xDB20 + n) 2 = 1 then
        BitVec.ofInt 20 (((((samples.getD n []).eraseIdx (cal.getD (4 * fset s.field 0xDB30 4))).map fun x => max (-524288) (min 524287 x)).sum).tdiv
          ((samples.getD n []).eraseIdx (cal.getD (4 * fset s.field 0xDB30 4))).length) else 0) ∧
      (∀ n, n < 4 → (bit ovr n = true ↔ fset s.field (0xDB20 + n) 2 = 1 ∧
        ∃ x ∈ (samples.getD n []).eraseIdx (cal.getD (4 * fset s.field 0xDB30 4)), x < -524288 ∨ 524287 < x)) ∧
      exec (.analogReportPeriod samples cal) s = .next { s with field := { s.field with
        due := { s.field.due with analog := s.field.time }, lane0 := s.field.lane0 ++ [.analogSense (xs.map BitVec.toNat) ovr] } } := by
  obtain ⟨hrun, hlink, hawake⟩ := ho
  have hkept : ∀ n, n < 4 → Fld.kept cal (samples.getD n []) = (samples.getD n []).eraseIdx (cal.getD (4 * fset s.field 0xDB30 4)) := by
    intro n hn
    have hmem : samples.getD n [] ∈ samples := by
      rw [List.getD_eq_getElem _ _ (by omega)]
      exact List.getElem_mem _
    exact kept_eq cal (hlen _ hmem).le
  refine ⟨(List.range 4).map (reading s.field samples cal), Fld.maskOf 4 (beyond s.field samples cal), by simp, maskOf_four_lt _, fun n hn => ?_, fun n hn => ?_, ?_⟩
  · have hget : ((List.range 4).map (reading s.field samples cal)).getD n 0 = reading s.field samples cal n := by
      rw [List.getD_eq_getElem _ _ (by simpa using hn)]
      simp
    rw [hget, reading, hkept n hn]
    simp only [decide_eq_true_eq]
    rfl
  · rw [bit_maskOf_four _ hn, beyond, hkept n hn, Bool.and_eq_true, overrange_iff, decide_eq_true_eq]
  · exact exec_unseen (g := fun f => Fld.analogPeriod f samples cal) rfl hrun ((analogPeriod_ended (intervalEnds_of hdue hlen hcal)).trans
      (send_onLine (f := { s.field with due := { s.field.due with analog := s.field.time } }) hlink hawake _)) ⟨rfl, rfl, rfl, rfl⟩

end Sys2Proof.Machine
end

section
/-! SUPPORT. The guard inputs: what a sample, the close of a window and the stuck time make of an input, and the entries that they send (R466 to R468). -/

namespace Sys2Proof.Machine

theorem SMap.put_put {α : Type} (m : SMap α) (q : Nat) (v w : α) : SMap.put (SMap.put m q v) q w = SMap.put m q w := by
  induction m with
  | nil => simp [SMap.put]
  | cons p m ih =>
    obtain ⟨k, u⟩ := p
    by_cases h1 : q < k
    · simp [SMap.put, h1]
    · by_cases h2 : q = k
      · simp [SMap.put, h2]
      · simp [SMap.put, h1, h2, ih]

/-- The entry of input n at the present tick. -/
def entryNow (f : Field) (n : Fin 16) (e : Nat) : InputEntry := ⟨n, BitVec.ofNat 8 e, BitVec.ofNat 32 (Fld.tick f)⟩

theorem mem_entryCells {e : InputEntry} {k : Nat} {es : List InputEntry} (h : e ∈ es) (hk : es.length ≤ k) :
    ∃ xs, Lane0.inputEvent xs ∈ Fld.entryCells k es ∧ e ∈ xs := by
  induction k generalizing es with
  | zero =>
    rw [List.length_eq_zero_iff.mp (Nat.le_zero.mp hk)] at h
    exact absurd h List.not_mem_nil
  | succ k ih =>
    cases es with
    | nil => exact absurd h List.not_mem_nil
    | cons x xs =>
      have hcells : Fld.entryCells (k + 1) (x :: xs) = .inputEvent ((x :: xs).take 4) :: Fld.entryCells k ((x :: xs).drop 4) := rfl
      rw [hcells]
      rw [← List.take_append_drop 4 (x :: xs)] at h
      rcases List.mem_append.mp h with h | h
      · exact ⟨_, List.mem_cons_self, h⟩
      · obtain ⟨ys, hys, hmem⟩ := ih h (by rw [List.length_drop]; simp only [List.length_cons] at hk ⊢; omega)
        exact ⟨ys, List.mem_cons_of_mem _ hys, hmem⟩

/-- On a link that is up, what waits goes out, in cells of four entries. -/
theorem sendEvents_onLine {f : Field} (hlink : f.link = 2) (hawake : f.notice ≠ 1) :
    Fld.sendEvents f = { f with events := [], lane0 := f.lane0 ++ Fld.entryCells f.events.length f.events } := by
  unfold Fld.sendEvents
  by_cases h : f.events = []
  · rw [if_pos h]
    simp [h, Fld.entryCells]
    rw [← h]
  · rw [if_neg h, if_pos hlink, foldl_send_onLine (f := { f with events := [] }) hlink hawake]

/-- A command of the guard inputs that leaves inputs I and adds entries E, with the die otherwise as in f. -/
theorem atField_inputs {c : Instr} {s : State} {g : Field → Field} {P : Field → Prop} {f : Field} {I : SMap FIn} {E : List InputEntry}
    (hexec : exec c s = fieldCmd (fun f => Fld.sendEvents (g f)) s) (ho : OnLine s.field) (hg : g s.field = { f with ins := I, events := E })
    (hlink : f.link = 2) (hawake : f.notice ≠ 1)
    (hP : ∀ q, (∀ e ∈ E, ∃ es, Lane0.inputEvent es ∈ q ∧ e ∈ es) → P { f with ins := I, events := [], lane0 := f.lane0 ++ q }) : AtField c s P := by
  have hsent : Fld.sendEvents (g s.field) = { f with ins := I, events := [], lane0 := f.lane0 ++ Fld.entryCells E.length E } := by
    rw [hg]
    exact sendEvents_onLine (f := { f with ins := I, events := E }) hlink hawake
  refine atField_onLine hexec ho.run (by rw [hsent]; exact hlink) (by rw [hsent]; exact hawake) fun q => ?_
  dsimp only
  rw [hsent]
  dsimp only
  rw [List.append_assoc]
  refine hP _ fun e he => ?_
  obtain ⟨es, hes, hmem⟩ := mem_entryCells he le_rfl
  exact ⟨es, List.mem_append_left _ hes, hmem⟩

/-- The value that input n shows at a sample (R466). -/
def levelOf (f : Field) (levels : BitVec 16) (n : Fin 16) : Bool := levels.getLsbD n.val ^^ decide (fset f (0xDB10 + n.val) 6 = 1)

/-- The entries that a sample of input n raises (R467). -/
def raisedBy (f : Field) (levels : BitVec 16) (n : Fin 16) : List InputEntry :=
  let v := levelOf f levels n
  match SMap.look f.ins n.val with
  | none => []
  | some x => if v ≠ x.f ∧ fset f (0xDB10 + n.val) 3 ≤ x.run + 1 ∧ x.win = none then [entryNow f n (if v then 1 else 2)] else []

theorem sample_eq (f : Field) (levels : BitVec 16) (n : Fin 16) : Fld.sample f levels n =
    { f with ins := SMap.put f.ins n.val (sampled f n (levelOf f levels n) (SMap.look f.ins n.val)), events := f.events ++ raisedBy f levels n } := by
  unfold Fld.sample sampled raisedBy
  dsimp only
  rw [show (levels.getLsbD n.val ^^ decide (fset f (0xDB10 + n.val) 6 = 1)) = levelOf f levels n from rfl]
  generalize levelOf f levels n = v
  cases SMap.look f.ins n.val with
  | none => simp
  | some x =>
    dsimp only
    by_cases h1 : v = x.f
    · simp [h1]
    · by_cases h2 : x.run + 1 < fset f (0xDB10 + n.val) 3
      · simp [h1, h2]
      · rw [if_neg h1, if_neg h1, if_neg h2, if_neg h2]
        cases hw : x.win with
        | none =>
          have hraised : v ≠ x.f ∧ fset f (0xDB10 + n.val) 3 ≤ x.run + 1 ∧ (none : Option Nat) = none := ⟨h1, by omega, rfl⟩
          rw [if_pos hraised]
          unfold Fld.raise Fld.entry entryNow
          cases v <;> simp [SMap.put_put, Fld.tick]
        | some t => simp

/-- A tick of the sampler moves each input once, from what it was. -/
theorem foldl_sample (f : Field) (levels : BitVec 16) {ns : List (Fin 16)} (hns : ns.Nodup) : ∃ I E,
    ns.foldl (fun g n => Fld.sample g levels n) f = { f with ins := I, events := f.events ++ E } ∧
    (∀ n ∈ ns, SMap.look I n.val = some (sampled f n (levelOf f levels n) (SMap.look f.ins n.val)) ∧ ∀ e ∈ raisedBy f levels n, e ∈ E) ∧
    ∀ n ∉ ns, SMap.look I n.val = SMap.look f.ins n.val := by
  induction ns generalizing f with
  | nil => exact ⟨f.ins, [], by simp, by simp, fun _ _ => rfl⟩
  | cons n ns ih =>
    obtain ⟨hn, hns⟩ := List.nodup_cons.mp hns
    obtain ⟨I, E, hfold, hin, hout⟩ := ih (f := Fld.sample f levels n) hns
    rw [sample_eq] at hfold hin hout
    have hother : ∀ m : Fin 16, m ≠ n → SMap.look (SMap.put f.ins n.val (sampled f n (levelOf f levels n) (SMap.look f.ins n.val))) m.val = SMap.look f.ins m.val :=
      fun m hm => SMap.look_put_other _ _ fun h => hm (Fin.ext h)
    refine ⟨I, raisedBy f levels n ++ E, ?_, fun m hm => ?_, fun m hm => ?_⟩
    · rw [List.foldl_cons, sample_eq, hfold, List.append_assoc]
    · rcases List.mem_cons.mp hm with rfl | hm
      · refine ⟨(hout m hn).trans (SMap.look_put_same _ _ _), fun e he => List.mem_append_left _ he⟩
      · have hne : m ≠ n := fun h => hn (h ▸ hm)
        obtain ⟨hlook, hraised⟩ := hin m hm
        dsimp only at hlook hraised
        rw [hother m hne] at hlook
        refine ⟨hlook, fun e he => List.mem_append_right _ (hraised e ?_)⟩
        unfold raisedBy at he ⊢
        dsimp only
        rw [hother m hne]
        exact he
    · have hne : m ≠ n := fun h => hm (h ▸ List.mem_cons_self)
      exact (hout m fun h => hm (List.mem_cons_of_mem _ h)).trans (hother m hne)

theorem finRange_sixteen : (List.range 16).map (Fin.ofNat 16) = List.finRange 16 := by decide

theorem sampleAll_due {f : Field} (levels : BitVec 16) (hms : f.time % 50 = 0) (hdue : f.due.tick ≤ f.time / 50) :
    Fld.sampleAll f levels = Fld.sendEvents ((List.finRange 16).foldl (fun g n => Fld.sample g levels n) { f with due := { f.due with tick := f.time / 50 + 1 } }) := by
  unfold Fld.sampleAll
  rw [if_neg (by omega), ← finRange_sixteen, List.foldl_map]

section
variable {s : State}

theorem guardInputSample_moves (ho : OnLine s.field) (levels : BitVec 16) (hms : s.field.time % 50 = 0) (hdue : s.field.due.tick ≤ s.field.time / 50) :
    AtField (.guardInputSample levels) s fun g => g.due = { s.field.due with tick := s.field.time / 50 + 1 } ∧
      (∀ n : Fin 16, SMap.look g.ins n.val = some (sampled s.field n (levelOf s.field levels n) (SMap.look s.field.ins n.val)) ∧
        (∀ x, SMap.look s.field.ins n.val = some x → levelOf s.field levels n ≠ x.f → fset s.field (0xDB10 + n.val) 3 ≤ x.run + 1 → x.win = none →
          entrySent s.field g n (if levelOf s.field levels n then 1 else 2))) ∧
      g.outs = s.field.outs ∧ g.wave = s.field.wave ∧ g.permitOut = s.field.permitOut ∧ guardFrame s.field g := by
  obtain ⟨I, E, hfold, hin, -⟩ := foldl_sample { s.field with due := { s.field.due with tick := s.field.time / 50 + 1 } } levels (List.nodup_finRange 16)
  have hexec : exec (.guardInputSample levels) s = fieldCmd (fun f => Fld.sampleAll f levels) s := rfl
  have hwhen : (fieldCmd (fun f => Fld.sampleAll f levels) s) = fieldCmd (fun f => Fld.sendEvents ((List.finRange 16).foldl (fun g n => Fld.sample g levels n)
      { f with due := { f.due with tick := f.time / 50 + 1 } })) s := by
    unfold fieldCmd whenField
    dsimp only
    rw [sampleAll_due levels hms hdue]
  refine atField_inputs (hexec.trans hwhen) ho hfold ho.link ho.awake fun q hq => ?_
  refine ⟨rfl, fun n => ?_, rfl, rfl, rfl, rfl, rfl, rfl, rfl, rfl, rfl, rfl, rfl, rfl, rfl, rfl⟩
  obtain ⟨hlook, hraised⟩ := hin n (List.mem_finRange n)
  refine ⟨hlook, fun x hx hv hrun hwin => ?_⟩
  have hmem : entryNow s.field n (if levelOf s.field levels n then 1 else 2) ∈ E := by
    refine hraised _ ?_
    unfold raisedBy
    dsimp only
    rw [hx]
    dsimp only
    rw [if_pos ⟨hv, hrun, hwin⟩]
    exact List.mem_singleton.mpr rfl
  obtain ⟨es, hes, he⟩ := hq _ (List.mem_append_right _ hmem)
  refine ⟨es, List.mem_append_right _ hes, ?_⟩
  have hentry : entryNow s.field n (if levelOf s.field levels n then 1 else 2) =
      ⟨n, if levelOf s.field levels n then 1 else 2, BitVec.ofNat 32 (Fld.tick s.field)⟩ := by
    unfold entryNow
    cases levelOf s.field levels n <;> rfl
  rwa [hentry] at he

/-- What the close of its window makes of input x (R467). -/
def windowClosed (f : Field) (x : FIn) : FIn :=
  if x.f = x.r then { x with win := none, suppressed := false }
  else { x with r := x.f, win := some (Fld.tick f), suppressed := false, active := if x.f then some (Fld.tick f) else none, stuck := x.f && x.stuck }

theorem closeWindow_due {f : Field} {n : Fin 16} {x : FIn} {t : Nat} (hx : SMap.look f.ins n.val = some x) (hwin : x.win = some t)
    (hdue : fset f (0xDB10 + n.val) 4 * 20 ≤ ticksSince f t) : Fld.closeWindow f n = { f with
      ins := SMap.put f.ins n.val (windowClosed f x)
      events := f.events ++ ((if x.suppressed then [entryNow f n 4] else []) ++ if x.f = x.r then [] else [entryNow f n (if x.f then 1 else 2)]) } := by
  unfold ticksSince at hdue
  unfold Fld.closeWindow
  rw [hx]
  dsimp only
  rw [hwin]
  dsimp only
  rw [if_neg (by omega)]
  unfold windowClosed
  by_cases hlost : x.f = x.r
  · rw [if_neg (by simp [hlost]), if_pos hlost, if_pos hlost]
    cases x.suppressed <;> simp [Fld.entry, entryNow, Fld.tick]
  · rw [if_pos hlost, if_neg hlost, if_neg hlost]
    unfold Fld.raise
    cases x.suppressed <;> cases x.f <;> simp [Fld.entry, entryNow, SMap.put_put, Fld.tick]

/-- An input set, with the die otherwise as it was but for what it sends. -/
theorem inBecomes_put (f : Field) (n : Fin 16) (x : FIn) (es : List InputEntry) (l : List Lane0) :
    inBecomes f { f with ins := SMap.put f.ins n.val x, events := es, lane0 := l } n x :=
  ⟨SMap.look_put_same _ _ _, fun _ hk => SMap.look_put_other _ _ hk, rfl, rfl, rfl, rfl, rfl, rfl, rfl, rfl, rfl, rfl, rfl, rfl⟩

theorem eventWindowClose_completes (ho : OnLine s.field) (n : Fin 16) (x : FIn) (t : Nat) (hx : SMap.look s.field.ins n.val = some x) (hwin : x.win = some t)
    (hdue : fset s.field (0xDB10 + n.val) 4 * 20 ≤ ticksSince s.field t) : AtField (.eventWindowClose n) s fun g =>
      inBecomes s.field g n (windowClosed s.field x) ∧ (x.suppressed = true → entrySent s.field g n 4) ∧
        (x.f ≠ x.r → entrySent s.field g n (if x.f then 1 else 2)) := by
  refine atField_inputs (g := fun f => Fld.closeWindow f n) rfl ho (closeWindow_due hx hwin hdue) ho.link ho.awake fun q hq => ?_
  refine ⟨inBecomes_put .., fun hsup => ?_, fun hlost => ?_⟩
  · obtain ⟨es, hes, he⟩ := hq (entryNow s.field n 4) (by simp [hsup])
    exact ⟨es, List.mem_append_right _ hes, he⟩
  · obtain ⟨es, hes, he⟩ := hq (entryNow s.field n (if x.f then 1 else 2)) (by simp [hlost])
    refine ⟨es, List.mem_append_right _ hes, ?_⟩
    unfold entryNow at he
    cases hf : x.f <;> rw [hf] at he <;> exact he

theorem stuckTime_due {f : Field} {n : Fin 16} {x : FIn} {t : Nat} (hx : SMap.look f.ins n.val = some x) (hact : x.active = some t)
    (hset : fset f (0xDB10 + n.val) 5 ≠ 0) (hnot : x.stuck = false) (hr : x.r = true) (hdue : fset f (0xDB10 + n.val) 5 * 20000 ≤ ticksSince f t) :
    Fld.stuckTime f n = { f with ins := SMap.put f.ins n.val { x with stuck := true }, events := f.events ++ [entryNow f n 3] } := by
  unfold ticksSince at hdue
  unfold Fld.stuckTime
  dsimp only
  rw [hx]
  dsimp only
  rw [hact]
  dsimp only
  rw [if_neg (by simp [hset, hnot, hr]; omega)]
  rfl

theorem stuckTimeExpiry_completes (ho : OnLine s.field) (n : Fin 16) (x : FIn) (t : Nat) (hx : SMap.look s.field.ins n.val = some x) (hact : x.active = some t)
    (hset : fset s.field (0xDB10 + n.val) 5 ≠ 0) (hnot : x.stuck = false) (hr : x.r = true)
    (hdue : fset s.field (0xDB10 + n.val) 5 * 20000 ≤ ticksSince s.field t) :
    AtField (.stuckTimeExpiry n) s fun g => inBecomes s.field g n { x with stuck := true } ∧ entrySent s.field g n 3 := by
  refine atField_inputs (g := fun f => Fld.stuckTime f n) rfl ho (stuckTime_due hx hact hset hnot hr hdue) ho.link ho.awake fun q hq => ?_
  obtain ⟨es, hes, he⟩ := hq (entryNow s.field n 3) (by simp)
  exact ⟨inBecomes_put .., es, List.mem_append_right _ hes, he⟩

end

/-- Settles O45: the periodic reports join the lane-0 queue, and each event of a guard input sends its entry. -/
theorem fieldObservationsAreSent : Obligations.field_observations_are_sent := by
  unfold Obligations.field_observations_are_sent
  refine ⟨fun s => ⟨fun ho => ?_, reports_asleep, reports_early⟩, fun s ho => ⟨guardInputSample_moves ho, eventWindowClose_completes ho, stuckTimeExpiry_completes ho⟩⟩
  obtain ⟨hreport, hnet, hsense⟩ := reports_awake ho
  exact ⟨hreport, hnet, hsense, analogReport_sent ho⟩

end Sys2Proof.Machine
end

section
/-! SUPPORT. What a message of lane 1 changes at the field die: its ports, its outputs, its routes and its settings (R169 to R172). -/

namespace Sys2Proof.Machine

theorem SMap.look_store_other {α : Type} [DecidableEq α] (m : SMap α) {q r : Nat} (v d : α) (h : r ≠ q) : SMap.look (SMap.store m q v d) r = SMap.look m r := by
  unfold SMap.store
  split
  · rw [SMap.look_del, if_neg h]
  · exact SMap.look_put_other _ _ h

theorem portOf_setPort_same (f : Field) (p : Nat) (x : FPort) : Fld.portOf (Fld.setPort f p x) p = x :=
  (SMap.at_store f.ports p p x (Fld.port0 p)).trans (if_pos rfl)

theorem portOf_setPort_other (f : Field) {p q : Nat} (x : FPort) (h : q ≠ p) : Fld.portOf (Fld.setPort f p x) q = Fld.portOf f q :=
  congrArg (fun o => o.getD (Fld.port0 q)) (SMap.look_store_other f.ports x (Fld.port0 p) h)

/-- What a message on lane 1 does where it arrives at a field die on line: the guard lines stand, and what the report shows of them (R171). -/
def LinesStand (f g : Field) : Prop := guardStands f g ∧ g.uv = f.uv ∧ g.toggle = f.toggle

theorem LinesStand.unseen {f g : Field} (h : LinesStand f g) : Fld.reportChange f g = g := by
  obtain ⟨⟨houts, hins, -, -, -, -, hrun, -⟩, huv, htoggle⟩ := h
  refine reportChange_unseen ⟨?_, ?_, ?_, ?_⟩
  · simp only [Fld.conducting, Fld.outOf, houts]
  · simp only [Fld.faults, Fld.outOf, houts]
  · simp only [Fld.active, hins]
  · simp only [Fld.status, hrun, huv, htoggle]

/-- The field die as a message finds it when its cells have come. -/
def arrivedAt (f : Field) (ready : List Lane1) (rx : Lane) (heard : Nat) : Field := { f with ready := ready, rx := rx, heard := heard }

theorem sentCells_cases (s : State) (n : Nat) (b : Bool) : ∃ h p, sentCells s n b = { s with hw := h, perf := p } := by
  unfold sentCells
  obtain ⟨p, hp⟩ := count_perf (addHw s 0x1030 4 n) 10 1 n
  obtain ⟨q, hq⟩ := count_perf (count (addHw s 0x1030 4 n) 10 1 n) 10 4 (if b then n else 0)
  rw [hq, hp]
  exact ⟨_, _, rfl⟩

theorem dieFrame_sentBar (s : State) (g : Bar → Bar) (n : Nat) (b : Bool) (h : Field → Field) : dieFrame s (onField (sentCells (updBar s g) n b) h) ∧
    (onField (sentCells (updBar s g) n b) h).field = h s.field := by
  obtain ⟨w, p, hsent⟩ := sentCells_cases (updBar s g) n b
  rw [hsent]
  exact ⟨⟨rfl, rfl, rfl, rfl, rfl, rfl, rfl, rfl, rfl⟩, rfl⟩

theorem arrive1_cases {s : State} {m : Lane1} (hrun : s.field.run = true) (hlink : s.field.link = 2) (hm : Bar.isLink1 m = false) :
    dieFrame s (arrive1 s m) ∧ ∃ ready rx heard, (arrive1 s m).field = arrivedAt s.field ready rx heard := by
  unfold arrive1
  split
  · unfold cross1
    dsimp only
    rw [if_neg (by simp [hrun]), if_neg (by simp [hm]), if_neg (by simp [hlink])]
    obtain ⟨hframe, hfield⟩ := dieFrame_sentBar ..
    exact ⟨hframe, s.field.ready, _, _, hfield⟩
  · exact ⟨⟨rfl, rfl, rfl, rfl, rfl, rfl, rfl, rfl, rfl⟩, _, s.field.rx, s.field.heard, rfl⟩

/-- A message of lane 1 that leaves the guard lines alone is delivered: the die becomes just what the message makes of it. -/
theorem delivers_of {c : Instr} {s : State} {m : Lane1} {g : Field → Field} {P : Field → Prop} (hexec : exec c s = coreCmd (fun s => atField s m g) s)
    (hrun : s.field.run = true) (hlink : s.field.link = 2) (hm : Bar.isLink1 m = false)
    (hP : ∀ ready rx heard, LinesStand (arrivedAt s.field ready rx heard) (g (arrivedAt s.field ready rx heard)) ∧ P (g (arrivedAt s.field ready rx heard))) :
    Delivers c s m P := by
  intro hcross
  obtain ⟨hframe, ready, rx, heard, hfield⟩ := arrive1_cases hrun hlink hm
  obtain ⟨hlines, hp⟩ := hP ready rx heard
  have hrun' : (arrive1 s m).field.run = true := by rw [hfield]; exact hrun
  have hat : atField s m g = { arrive1 s m with field := g (arrivedAt s.field ready rx heard) } := by
    unfold atField
    rw [hcross]
    simp only [Bool.not_true, Bool.false_eq_true, ↓reduceIte, hlink]
    unfold whenField
    rw [if_pos hrun', hfield, hlines.unseen]
  refine ⟨_, hexec, ?_, ?_, ?_⟩ <;> dsimp only <;> rw [hat]
  · exact hp
  · exact hlines.1
  · obtain ⟨hpers, -, hseq, hdict, hsessions, hslots, hinternal, hhost, htwc⟩ := hframe
    exact ⟨hpers, rfl, hseq, hdict, hsessions, hslots, hinternal, hhost, htwc⟩

end Sys2Proof.Machine
end

section
/-! SUPPORT. What each message of lane 1 makes of the field die (R146 to R148, R151, R156, R170, R172, R457 to R459, R520). -/

namespace Sys2Proof.Machine

theorem linesStand_arrived (f : Field) (ready : List Lane1) (rx : Lane) (heard : Nat) (net : List NetFrame) (ports : SMap FPort) :
    LinesStand f { arrivedAt f ready rx heard with net := net, ports := ports } :=
  ⟨⟨rfl, rfl, rfl, rfl, rfl, rfl, rfl, rfl, rfl, rfl⟩, rfl, rfl⟩

/-- A transmission changes the ports and what has left on them. -/
theorem transmit_cases (f : Field) (p node id kind : Nat) (fields : List Bytes) (content : Bytes) :
    ∃ net ports, Fld.transmit f p node id kind fields content = { f with net := net, ports := ports } := by
  unfold Fld.transmit
  dsimp only
  repeat' split
  all_goals exact ⟨_, _, rfl⟩

/-- The frames of portFrames leave, and are counted (R146 to R148, R151). -/
theorem sentAt_transmit (f : Field) (p node id kind : Nat) (fields : List Bytes) (content : Bytes) :
    sentAt f (Fld.transmit f p node id kind fields content) p (portFrames f p node id kind fields content) := by
  have hnone : sentAt f f p [] := ⟨(List.append_nil _).symm, fun h => absurd rfl h⟩
  unfold Fld.transmit portFrames
  by_cases hp : p < 4
  · rw [if_pos hp, if_pos hp]
    by_cases hon : Fld.portOn f p = true ∧ (Fld.portOf f p).state ≠ 2
    · rw [if_pos (by simp [Fld.canOn, hon]), if_pos hon]
      refine ⟨rfl, fun _ => ?_⟩
      have hport := portOf_setPort_same f p { Fld.portOf f p with sent := sat32 (Fld.portOf f p).sent fields.length }
      rw [List.length_map]
      exact congrArg FPort.sent hport
    · rw [if_neg (by simpa [Fld.canOn] using hon), if_neg hon]
      exact hnone
  · rw [if_neg hp, if_neg hp]
    split
    · refine ⟨rfl, fun _ => ?_⟩
      exact congrArg FPort.sent (portOf_setPort_same f p { Fld.portOf f p with sent := sat32 (Fld.portOf f p).sent 1 })
    · exact hnone

theorem routeEntry_look (f : Field) {e : BitVec 16 × BitVec 16} (h : e.2 &&& 0xF880 = 0) (n : Nat) : SMap.look (Fld.routeEntry f e).routes n =
    if e.1.toNat % 0x8000 = n then (if e.1.getLsbD 15 then some (e.2.toNat / 256 * 256 + e.2.toNat % 128) else none) else SMap.look f.routes n := by
  have hsmall : e.2.toNat / 256 % 8 = e.2.toNat / 256 := by
    refine Nat.mod_eq_of_lt ?_
    have hand : e.2.toNat &&& 0xF880 = 0 := by simpa using congrArg BitVec.toNat h
    rw [← Nat.shiftRight_eq_div_pow e.2.toNat 8]
    refine Nat.lt_pow_two_of_testBit (n := 3) _ fun i hi => ?_
    rw [Nat.testBit_shiftRight]
    by_cases hbig : 8 ≤ i
    · exact Nat.testBit_eq_false_of_lt (e.2.isLt.trans_le (Nat.pow_le_pow_right (by decide) (by omega)))
    · have hbit := congrArg (fun x => Nat.testBit x (8 + i)) hand
      have hmask : Nat.testBit 0xF880 (8 + i) = true := by
        have : i = 3 ∨ i = 4 ∨ i = 5 ∨ i = 6 ∨ i = 7 := by omega
        rcases this with rfl | rfl | rfl | rfl | rfl <;> decide
      simpa [Nat.testBit_and, hmask] using hbit
  unfold Fld.routeEntry bit
  dsimp only
  rw [hsmall, ← BitVec.getLsbD]
  by_cases hn : e.1.toNat % 0x8000 = n
  · subst hn
    cases e.1.getLsbD 15 <;> simp [SMap.look_del, SMap.look_put]
  · rw [if_neg hn]
    cases e.1.getLsbD 15 <;> simp [SMap.look_del, SMap.look_put, Ne.symm hn]

/-- The last entry of a number counts. -/
theorem foldl_routeEntry (f : Field) {es : List (BitVec 16 × BitVec 16)} (h : ∀ e ∈ es, e.2 &&& 0xF880 = 0) : ∃ R,
    es.foldl Fld.routeEntry f = { f with routes := R } ∧ ∀ n, SMap.look R n = match es.reverse.find? (fun e => decide (e.1.toNat % 0x8000 = n)) with
      | none => SMap.look f.routes n
      | some e => if e.1.getLsbD 15 then some (e.2.toNat / 256 * 256 + e.2.toNat % 128) else none := by
  induction es using List.reverseRecOn with
  | nil => exact ⟨f.routes, rfl, fun _ => rfl⟩
  | append_singleton es e ih =>
    obtain ⟨R, hfold, hlook⟩ := ih fun x hx => h x (List.mem_append_left _ hx)
    refine ⟨(Fld.routeEntry { f with routes := R } e).routes, ?_, fun n => ?_⟩
    · rw [List.foldl_append, hfold]
      rfl
    · rw [routeEntry_look _ (h e (by simp)), List.reverse_append, List.reverse_singleton, List.singleton_append, List.find?_cons]
      by_cases hn : e.1.toNat % 0x8000 = n
      · simp [hn]
      · simpa [hn] using hlook n

theorem route_eq (f : Field) {es : List (BitVec 16 × BitVec 16)} (hmin : 1 ≤ es.length) (hmax : es.length ≤ 6) (h : ∀ e ∈ es, e.2 &&& 0xF880 = 0) :
    Fld.route f es = es.foldl Fld.routeEntry f := by
  have hall : es.all (fun e => decide (e.2.toNat &&& 0xF880 = 0)) = true := by
    rw [List.all_eq_true]
    intro e he
    exact decide_eq_true (by simpa using congrArg BitVec.toNat (h e he))
  unfold Fld.route
  rw [if_pos ⟨hmin, hmax, hall⟩]

theorem look_foldl_put {α : Type} (m : SMap α) (xs : List (Nat × α)) (q : Nat) :
    SMap.look (xs.foldl (fun m p => SMap.put m p.1 p.2) m) q = match xs.reverse.find? (fun e => decide (e.1 = q)) with
      | none => SMap.look m q
      | some e => some e.2 := by
  induction xs using List.reverseRecOn with
  | nil => rfl
  | append_singleton xs x ih =>
    rw [List.foldl_append, List.foldl_cons, List.foldl_nil, SMap.look_put, List.reverse_append, List.reverse_singleton, List.singleton_append, List.find?_cons]
    by_cases hx : x.1 = q
    · simp [hx]
    · rw [if_neg (Ne.symm hx), ih]
      simp [hx]

/-- Field die g is f but for its ports and what it sends, and its ports but those of ps stand. -/
def PortsOnly (f g : Field) (ps : List Nat) : Prop :=
  ∃ ports l w d, g = { f with ports := ports, lane0 := l, wake := w, framesDropped := d } ∧ ∀ p, p ∉ ps → Fld.portOf g p = Fld.portOf f p

/-- The state of a port that is off (R155, R157). -/
def offState (p : Nat) : Nat := if p < 4 then 3 else 0

theorem applyEnable_cases (f : Field) (p : Nat) : PortsOnly f (Fld.applyEnable f p) [p] ∧
    (fset f (Fld.portIdx p) 1 ≠ 1 → (Fld.portOf (Fld.applyEnable f p) p).state = offState p) := by
  unfold Fld.applyEnable
  dsimp only
  generalize hst : (if fset f (Fld.portIdx p) 1 ≠ 1 then (if p < 4 then 3 else 0)
    else if (Fld.portOf f p).state = (if p < 4 then 3 else 0) then Fld.startState f p else (Fld.portOf f p).state) = st
  split
  next h =>
    refine ⟨⟨_, _, _, _, rfl, fun _ _ => rfl⟩, fun hoff => ?_⟩
    rw [if_pos hoff] at hst
    rw [← h, ← hst]
    rfl
  next h =>
    obtain ⟨l, w, d, e⟩ := sendsOnly_send (Fld.setPort f p { Fld.portOf f p with state := st, recovering := false })
      (.netStatus (Fld.netStatus (Fld.setPort f p { Fld.portOf f p with state := st, recovering := false }) (Fin.ofNat 7 p)))
    rw [e]
    refine ⟨⟨_, _, _, _, rfl, fun q hq => portOf_setPort_other f _ (by simpa using hq)⟩, fun hoff => ?_⟩
    rw [if_pos hoff] at hst
    exact (congrArg FPort.state (portOf_setPort_same f p _)).trans hst.symm

theorem foldl_applyEnable (f : Field) {ps : List Nat} (hps : ps.Nodup) : PortsOnly f (ps.foldl Fld.applyEnable f) ps ∧
    ∀ p ∈ ps, fset f (Fld.portIdx p) 1 ≠ 1 → (Fld.portOf (ps.foldl Fld.applyEnable f) p).state = offState p := by
  induction ps generalizing f with
  | nil => exact ⟨⟨_, _, _, _, rfl, fun _ _ => rfl⟩, by simp⟩
  | cons p ps ih =>
    obtain ⟨hp, hps⟩ := List.nodup_cons.mp hps
    obtain ⟨⟨ports, l, w, d, e, hother⟩, hoff⟩ := applyEnable_cases f p
    obtain ⟨⟨ports', l', w', d', e', hother'⟩, hoff'⟩ := ih (f := Fld.applyEnable f p) hps
    rw [List.foldl_cons]
    refine ⟨⟨ports', l', w', d', ?_, fun q hq => ?_⟩, fun q hq hset => ?_⟩
    · rw [e', e]
    · rw [hother' q fun h => hq (List.mem_cons_of_mem _ h), hother q fun h => hq (by simp_all)]
    · rcases List.mem_cons.mp hq with rfl | hq
      · rw [hother' q hp]
        exact hoff hset
      · refine hoff' q hq ?_
        rw [e]
        exact hset

/-! GUARD_SET. -/

/-- Output o after it is commanded on, at field time now, where VGUARD is good or not (R459). -/
def turnedOn (ok : Bool) (now : Nat) (o : FOut) : FOut :=
  if (o.on && o.conducting) || !ok then { o with retries := 0, tripped := none } else ⟨true, true, false, 0, some now, some now, none⟩

theorem turnOn_cases (f : Field) (n : Nat) : ∃ O, Fld.turnOn f n = { f with outs := O } ∧
    ∀ k, Fld.outOf { f with outs := O } k = if k = n then turnedOn f.vguardOk f.time (Fld.outOf f n) else Fld.outOf f k := by
  unfold Fld.turnOn turnedOn
  dsimp only
  by_cases hon : (Fld.outOf f n).on = true ∧ (Fld.outOf f n).conducting = true
  · rw [if_pos hon, if_pos (by simp [hon])]
    exact ⟨_, rfl, fun k => Fld.outOf_setOut f n k _⟩
  · rw [if_neg hon]
    by_cases hok : f.vguardOk = true
    · rw [if_pos hok, if_neg (by simpa [hok] using hon)]
      refine ⟨_, rfl, fun k => ?_⟩
      refine (Fld.outOf_setOut _ n k _).trans ?_
      rw [Fld.outOf_setOut, if_pos rfl, Fld.outOf_setOut]
      split <;> rfl
    · rw [if_neg hok, if_pos (by simp [hok])]
      exact ⟨_, rfl, fun k => Fld.outOf_setOut f n k _⟩

/-- What GUARD_SET makes of output n (R457, R459). -/
def guarded (f : Field) (mask on : Nat) (n : Nat) : FOut :=
  if bit mask n = false then Fld.outOf f n
  else if bit on n = false then Fld.out0
  else if f.toggle = false then Fld.outOf f n
  else turnedOn f.vguardOk f.time (Fld.outOf f n)

theorem guardStep_cases (f : Field) (mask on n : Nat) : ∃ O,
    (if bit mask n then (if bit on n then (if f.toggle then Fld.turnOn f n else f) else Fld.turnOff f n) else f) = { f with outs := O } ∧
    ∀ k, Fld.outOf { f with outs := O } k = if k = n then guarded f mask on n else Fld.outOf f k := by
  have hsame : ∀ v, v = Fld.outOf f n → ∃ O, f = { f with outs := O } ∧ ∀ k, Fld.outOf { f with outs := O } k = if k = n then v else Fld.outOf f k :=
    fun v hv => ⟨f.outs, rfl, fun k => by split <;> simp_all⟩
  unfold guarded
  by_cases hm : bit mask n = true
  · have hm' : ¬bit mask n = false := by simp [hm]
    rw [if_pos hm, if_neg hm']
    by_cases ho : bit on n = true
    · have ho' : ¬bit on n = false := by simp [ho]
      rw [if_pos ho, if_neg ho']
      by_cases ht : f.toggle = true
      · have ht' : ¬f.toggle = false := by simp [ht]
        rw [if_pos ht, if_neg ht']
        exact turnOn_cases f n
      · rw [if_neg ht, if_pos (Bool.not_eq_true _ ▸ ht)]
        exact hsame _ rfl
    · rw [if_neg ho, if_pos (Bool.not_eq_true _ ▸ ho)]
      exact ⟨_, rfl, fun k => Fld.outOf_setOut f n k _⟩
  · rw [if_neg hm, if_pos (Bool.not_eq_true _ ▸ hm)]
    exact hsame _ rfl

theorem foldl_guardStep (f : Field) (mask on : Nat) {ns : List Nat} (hns : ns.Nodup) : ∃ O,
    ns.foldl (fun g n => if bit mask n then (if bit on n then (if f.toggle then Fld.turnOn g n else g) else Fld.turnOff g n) else g) f = { f with outs := O } ∧
    ∀ k, Fld.outOf { f with outs := O } k = if k ∈ ns then guarded f mask on k else Fld.outOf f k := by
  induction ns using List.reverseRecOn with
  | nil => exact ⟨f.outs, rfl, fun _ => rfl⟩
  | append_singleton ns n ih =>
    have hnodup := List.nodup_append.mp hns
    have hn : n ∉ ns := fun h => hnodup.2.2 n h n (by simp) rfl
    obtain ⟨O, hfold, hout⟩ := ih hnodup.1
    obtain ⟨O', hstep, hout'⟩ := guardStep_cases { f with outs := O } mask on n
    refine ⟨O', ?_, fun k => (hout' k).trans ?_⟩
    · rw [List.foldl_append, hfold]
      exact hstep
    · have hguard : guarded { f with outs := O } mask on n = guarded f mask on n := by
        unfold guarded
        rw [hout n, if_neg hn]
      rw [hguard, hout k]
      by_cases hk : k = n
      · simp [hk]
      · simp [hk]

theorem guardSet_cases {f : Field} (hrun : f.run = true) (hlink : f.link = 2) (mask on permit : Nat) : ∃ O,
    Fld.guardSet f mask on permit = (if permit = 0 then { f with outs := O, wave := false, permitOut := false, permitCmd := false }
      else { f with outs := O, permitCmd := if permit = 1 ∧ f.toggle = true then true else f.permitCmd }) ∧
    ∀ k, Fld.outOf { f with outs := O } k = if k < 8 then guarded f mask on k else Fld.outOf f k := by
  obtain ⟨O, hfold, hout⟩ := foldl_guardStep f mask on (ns := List.range 8) List.nodup_range
  refine ⟨O, ?_, fun k => by simpa using hout k⟩
  have hable : (f.toggle && decide (f.link = 2) && f.run) = f.toggle := by simp [hrun, hlink]
  unfold Fld.guardSet
  dsimp only
  rw [hable, hfold]
  by_cases h0 : permit = 0
  · rw [if_pos h0, if_pos h0]
    rfl
  · rw [if_neg h0, if_neg h0]
    split <;> rfl

section
variable {s : State} (hrun : s.field.run = true) (hlink : s.field.link = 2)
include hrun hlink

theorem guardSet_delivered (mask on permit : Byte) (hcross : crosses1 s (.guardSet mask.toNat on.toNat permit.toNat) = true)
    (hpermit : permit.toNat < 2 ∨ permit = 0xFF) :
    ∃ t, exec (.guardSet mask on permit) s = .next t ∧ dieFrame s t ∧ t.field.ins = s.field.ins ∧ t.field.link = 2 ∧ t.field.net = s.field.net ∧
      (∀ n, n < 8 → Fld.outOf t.field n = guarded s.field mask.toNat on.toNat n) ∧
      t.field.permitCmd = (if permit = 0 then false else if permit = 1 ∧ s.field.toggle = true then true else s.field.permitCmd) ∧
      (if permit = 0 then t.field.wave = false ∧ t.field.permitOut = false
        else t.field.wave = s.field.wave ∧ t.field.permitOut = s.field.permitOut) := by
  obtain ⟨⟨hpers, -, hseq, hdict, hsessions, hslots, hinternal, hhost, htwc⟩, ready, rx, heard, hfield⟩ :=
    arrive1_cases (m := .guardSet mask.toNat on.toNat permit.toNat) hrun hlink rfl
  have hrun' : (arrive1 s (.guardSet mask.toNat on.toNat permit.toNat)).field.run = true := by rw [hfield]; exact hrun
  obtain ⟨O, hset, hout⟩ := guardSet_cases (f := arrivedAt s.field ready rx heard) hrun hlink mask.toNat on.toNat permit.toNat
  obtain ⟨l, w, d, hsends⟩ := sendsOnly_reportChange (arrivedAt s.field ready rx heard)
    (Fld.guardSet (arrivedAt s.field ready rx heard) mask.toNat on.toNat permit.toNat)
  have hat : atField s (.guardSet mask.toNat on.toNat permit.toNat)
      (fun f => if permit.toNat < 2 ∨ permit = 0xFF then Fld.guardSet f mask.toNat on.toNat permit.toNat else f) =
      { arrive1 s (.guardSet mask.toNat on.toNat permit.toNat) with field := { Fld.guardSet (arrivedAt s.field ready rx heard) mask.toNat on.toNat permit.toNat
          with lane0 := l, wake := w, framesDropped := d } } := by
    unfold atField
    rw [hcross]
    simp only [Bool.not_true, Bool.false_eq_true, ↓reduceIte, hlink]
    unfold whenField
    rw [if_pos hrun', hfield]
    dsimp only
    rw [if_pos hpermit, hsends]
  have hzero : (permit.toNat = 0) = (permit = 0) := propext ⟨fun h => BitVec.eq_of_toNat_eq h, fun h => by rw [h]; rfl⟩
  have hone : (permit.toNat = 1) = (permit = 1) := propext ⟨fun h => BitVec.eq_of_toNat_eq h, fun h => by rw [h]; rfl⟩
  refine ⟨{ atField s (.guardSet mask.toNat on.toNat permit.toNat) (fun f => if permit.toNat < 2 ∨ permit = 0xFF then
    Fld.guardSet f mask.toNat on.toNat permit.toNat else f) with pending := s.pending, otp := s.otp }, rfl, ?_⟩
  rw [hat, hset]
  refine ⟨⟨hpers, rfl, hseq, hdict, hsessions, hslots, hinternal, hhost, htwc⟩, ?_⟩
  have hguard : ∀ n, n < 8 → Fld.outOf { arrivedAt s.field ready rx heard with outs := O } n = guarded s.field mask.toNat on.toNat n :=
    fun n hn => (hout n).trans (if_pos hn)
  by_cases h0 : permit = 0
  · rw [if_pos (hzero.mpr h0), if_pos h0, if_pos h0]
    exact ⟨rfl, hlink, rfl, hguard, rfl, rfl, rfl⟩
  · rw [if_neg (fun h => h0 (hzero.mp h)), if_neg h0, if_neg h0]
    simp only [hone]
    exact ⟨rfl, hlink, rfl, hguard, rfl, rfl, rfl⟩

end

end Sys2Proof.Machine
end

section
/-! SUPPORT. Each message of lane 1 delivered (R169 to R172, R519). -/

namespace Sys2Proof.Machine

section
variable {s : State} (hrun : s.field.run = true) (hlink : s.field.link = 2)
include hrun hlink

theorem bdpResp_delivered (origin : Nat) (m : Bytes) : Delivers (.bdpResp origin m) s (.bdpResp origin m) fun g =>
    if 0x8000 ≤ origin ∧ origin / 256 % 128 < 7 then
      sentAt s.field g (origin / 256 % 128) (portFrames s.field (origin / 256 % 128) (origin % 256) 0x300 1 (Fld.canBdp m) m)
    else g.net = s.field.net := by
  refine delivers_of rfl hrun hlink rfl fun ready rx heard => ?_
  unfold Fld.response
  split
  · obtain ⟨net, ports, e⟩ := transmit_cases (arrivedAt s.field ready rx heard) (origin / 256 % 128) (origin % 256) 0x300 1 (Fld.canBdp m) m
    have hsent := sentAt_transmit (arrivedAt s.field ready rx heard) (origin / 256 % 128) (origin % 256) 0x300 1 (Fld.canBdp m) m
    unfold Fld.sendBdp
    rw [e] at hsent ⊢
    exact ⟨linesStand_arrived .., hsent⟩
  · exact ⟨linesStand_arrived s.field ready rx heard s.field.net s.field.ports, rfl⟩

theorem chfDown_delivered (b : Bytes) : Delivers (.chfDown b) s (.chfDown b) fun g =>
    match SMap.look s.field.routes (leNat ((b.drop 2).take 2) % 0x8000) with
    | some r => sentAt s.field g (r / 256) (portFrames s.field (r / 256) (r % 256) 0x100 2 [fitBytes (Fld.canLen b.length) b] b)
    | none => g.net = s.field.net ∧ g.framesDropped = sat32 s.field.framesDropped 1 := by
  refine delivers_of rfl hrun hlink rfl fun ready rx heard => ?_
  have hout : Fld.frameOut (arrivedAt s.field ready rx heard) b = match SMap.look s.field.routes (leNat ((b.drop 2).take 2) % 0x8000) with
      | some r => Fld.sendFrame (arrivedAt s.field ready rx heard) (r / 256) (r % 256) b
      | none => { arrivedAt s.field ready rx heard with framesDropped := sat32 s.field.framesDropped 1 } := rfl
  rw [hout]
  cases SMap.look s.field.routes (leNat ((b.drop 2).take 2) % 0x8000) with
  | none => exact ⟨⟨⟨rfl, rfl, rfl, rfl, rfl, rfl, rfl, rfl, rfl, rfl⟩, rfl, rfl⟩, rfl, rfl⟩
  | some r =>
    obtain ⟨net, ports, e⟩ := transmit_cases (arrivedAt s.field ready rx heard) (r / 256) (r % 256) 0x100 2 [Fld.canPad b] b
    have hsent := sentAt_transmit (arrivedAt s.field ready rx heard) (r / 256) (r % 256) 0x100 2 [Fld.canPad b] b
    dsimp only
    unfold Fld.sendFrame
    rw [e] at hsent ⊢
    exact ⟨linesStand_arrived .., hsent⟩

theorem route_delivered (es : List (BitVec 16 × BitVec 16)) (hmin : 1 ≤ es.length) (hmax : es.length ≤ 6) (h : ∀ e ∈ es, e.2 &&& 0xF880 = 0) :
    Delivers (.route es) s (.route (es.map fun e => (e.1.toNat, e.2.toNat))) fun g =>
      g.net = s.field.net ∧ ∀ n, SMap.look g.routes n = match es.reverse.find? (fun e => decide (e.1.toNat % 0x8000 = n)) with
        | none => SMap.look s.field.routes n
        | some e => if e.1.getLsbD 15 then some (e.2.toNat / 256 * 256 + e.2.toNat % 128) else none := by
  refine delivers_of (g := fun f => Fld.route f es) rfl hrun hlink rfl fun ready rx heard => ?_
  obtain ⟨R, hfold, hlook⟩ := foldl_routeEntry (arrivedAt s.field ready rx heard) h
  rw [route_eq _ hmin hmax h, hfold]
  exact ⟨⟨⟨rfl, rfl, rfl, rfl, rfl, rfl, rfl, rfl, rfl, rfl⟩, rfl, rfl⟩, rfl, hlook⟩

theorem netConfig_delivered (i k : Nat) (v : Bytes) (hcar : isCarried i k = true) (hmin : 1 ≤ v.length) (hmax : v.length ≤ 20) :
    Delivers (.netConfig i k v) s (.netConfig i k v) fun g =>
      g.staged = s.field.staged ++ [(objKey i k, v)] ∧ g.nv = s.field.nv ∧ g.gen = s.field.gen ∧ g.ports = s.field.ports := by
  refine delivers_of (g := fun f => Fld.stage f i k v) rfl hrun hlink rfl fun ready rx heard => ?_
  unfold Fld.stage
  rw [if_pos ⟨hcar, hmin, hmax⟩]
  exact ⟨⟨⟨rfl, rfl, rfl, rfl, rfl, rfl, rfl, rfl, rfl, rfl⟩, rfl, rfl⟩, rfl, rfl, rfl, rfl⟩

theorem netConfigCommit_delivered (gen : Word) : Delivers (.netConfigCommit gen) s (.netCommit gen.toNat) fun g =>
    g.gen = gen.toNat ∧ g.staged = [] ∧
      (∀ q, SMap.look g.nv q = match s.field.staged.reverse.find? (fun e => decide (e.1 = q)) with
        | none => SMap.look s.field.nv q
        | some e => some e.2) ∧
      ∀ p, p < 7 → fset g (Fld.portIdx p) 1 ≠ 1 → (Fld.portOf g p).state = if p < 4 then 3 else 0 := by
  refine delivers_of (g := fun f => Fld.commit f gen.toNat) rfl hrun hlink rfl fun ready rx heard => ?_
  obtain ⟨⟨ports, l, w, d, e, -⟩, hoff⟩ := foldl_applyEnable { arrivedAt s.field ready rx heard with
    nv := s.field.staged.foldl (fun m p => SMap.put m p.1 p.2) s.field.nv, gen := gen.toNat, staged := [] } (ps := List.range 7) List.nodup_range
  have hcommit : Fld.commit (arrivedAt s.field ready rx heard) gen.toNat = (List.range 7).foldl Fld.applyEnable { arrivedAt s.field ready rx heard with
    nv := s.field.staged.foldl (fun m p => SMap.put m p.1 p.2) s.field.nv, gen := gen.toNat, staged := [] } := rfl
  rw [hcommit]
  rw [e] at hoff ⊢
  refine ⟨⟨⟨rfl, rfl, rfl, rfl, rfl, rfl, rfl, rfl, rfl, rfl⟩, rfl, rfl⟩, rfl, rfl, fun q => ?_, fun p hp hset => ?_⟩
  · refine (look_foldl_put s.field.nv s.field.staged q).trans ?_
    cases s.field.staged.reverse.find? (fun e => decide (e.1 = q)) <;> rfl
  · exact hoff p (List.mem_range.mpr hp) hset

theorem powerNotice_delivered (v : Byte) (hv : v.toNat ≤ 2) : Delivers (.powerNotice v) s (.power v.toNat) fun g =>
    g.notice = v.toNat ∧ g.ports = s.field.ports ∧
      (if v = 0 ∧ s.field.notice = 1 then g.wake = [] ∧ g.lane0 = s.field.lane0 ++ s.field.wake ++ [.fieldReport (Fld.report s.field)]
        else g.wake = s.field.wake ∧ g.lane0 = s.field.lane0) := by
  have hzero : (v.toNat = 0) = (v = 0) := propext ⟨fun h => BitVec.eq_of_toNat_eq h, fun h => by rw [h]; rfl⟩
  refine delivers_of (g := fun f => Fld.notice f v.toNat) rfl hrun hlink rfl fun ready rx heard => ?_
  have hnotice : (arrivedAt s.field ready rx heard).notice = s.field.notice := rfl
  unfold Fld.notice
  rw [if_neg (by omega), hnotice]
  by_cases hwake : v = 0 ∧ s.field.notice = 1
  · have hv0 : v.toNat = 0 := hzero.mpr hwake.1
    rw [if_pos (show v.toNat = 0 ∧ _ from ⟨hv0, hwake.2⟩), if_pos hwake]
    dsimp only
    rw [send_onLine (by exact hlink) (by simp)]
    exact ⟨⟨⟨rfl, rfl, rfl, rfl, rfl, rfl, rfl, rfl, rfl, rfl⟩, rfl, rfl⟩, hv0.symm, rfl, rfl, rfl⟩
  · rw [if_neg (fun h => hwake ⟨hzero.mp h.1, h.2⟩), if_neg hwake]
    exact ⟨⟨⟨rfl, rfl, rfl, rfl, rfl, rfl, rfl, rfl, rfl, rfl⟩, rfl, rfl⟩, rfl, rfl, rfl, rfl⟩

theorem recover_delivered (c : Fin 4) : Delivers (.busOffRecoveryRequest c) s (.recover c.val) fun g =>
    Fld.portOf g c.val = if (Fld.portOf s.field c.val).state = 2 then { Fld.portOf s.field c.val with recovering := true } else Fld.portOf s.field c.val := by
  refine delivers_of (g := fun f => Fld.recover f c.val) rfl hrun hlink rfl fun ready rx heard => ?_
  have hport : Fld.portOf (arrivedAt s.field ready rx heard) c.val = Fld.portOf s.field c.val := rfl
  unfold Fld.recover
  dsimp only
  rw [hport]
  split
  · exact ⟨linesStand_arrived .., portOf_setPort_same _ _ _⟩
  · exact ⟨linesStand_arrived s.field ready rx heard s.field.net s.field.ports, rfl⟩

end

/-- Settles O48: each message of lane 1, where it comes next, does at the field die what the rules say of it. -/
theorem lane1MessagesTakeEffect : Obligations.lane_1_messages_take_effect := by
  unfold Obligations.lane_1_messages_take_effect
  intro s f hrun hlink
  exact ⟨bdpResp_delivered hrun hlink, chfDown_delivered hrun hlink, guardSet_delivered hrun hlink, route_delivered hrun hlink, netConfig_delivered hrun hlink,
    netConfigCommit_delivered hrun hlink, powerNotice_delivered hrun hlink, recover_delivered hrun hlink⟩

end Sys2Proof.Machine
end

section
/-! SUPPORT. What the monitors leave alone, the clock monitor status, and the Sheaf link (R527 to R529, R534, R546). -/

namespace Sys2Proof.Machine

/-! What a sensor event leaves alone. -/

/-- State t is s but for the monitors, the Sinter domain, the start-up data, the internal queue and the counters. -/
def SensesOnly (s t : State) : Prop :=
  t = { s with tem := t.tem, sinter := t.sinter, boot := t.boot, internal := t.internal, perf := t.perf }

theorem SensesOnly.refl (s : State) : SensesOnly s s := rfl

theorem SensesOnly.trans {a b c : State} (h : SensesOnly a b) (g : SensesOnly b c) : SensesOnly a c := by
  unfold SensesOnly at *
  rw [g, h]

theorem sensesOnly_count (s : State) (b i n : Nat) : SensesOnly s (count s b i n) := by
  obtain ⟨p, hp⟩ := count_perf s b i n
  rw [hp]
  rfl

theorem sensesOnly_setSense (s : State) (k : Nat) (x : Sense) : SensesOnly s (setSense s k x) := rfl

theorem sensesOnly_showClear (s : State) (k : Nat) : SensesOnly s (showClear s k) := by
  unfold showClear
  split
  · rfl
  · exact .refl s

theorem sensesOnly_filter (s : State) (k t : Nat) : SensesOnly s (filter s k t).1 := by
  unfold filter
  dsimp only
  split_ifs
  · exact .refl s
  · exact .refl s
  · exact sensesOnly_setSense _ _ _
  · exact sensesOnly_setSense _ _ _
  · exact (sensesOnly_showClear _ _).trans (sensesOnly_setSense _ _ _)
  · exact sensesOnly_setSense _ _ _
  · exact sensesOnly_setSense _ _ _

theorem sensesOnly_keepFires (b : Bool) (fs : List (Nat × Nat × Bytes)) (s : State) : SensesOnly s (fs.foldl (keepFire b) s) := by
  induction fs generalizing s with
  | nil => exact .refl s
  | cons f fs ih => exact SensesOnly.trans (b := keepFire b s f) rfl (ih _)

theorem sensesOnly_respond (s : State) (k reading thr cls : Nat) : SensesOnly s (respond s k reading thr cls) := by
  unfold respond
  split
  · rfl
  · exact SensesOnly.trans (b := keepQueued s) ((sensesOnly_keepFires _ _ _).trans (sensesOnly_keepFires _ _ _)) rfl

theorem sensesOnly_fire (s : State) (k reading thr : Nat) : SensesOnly s (fire s k reading thr) := by
  unfold fire
  dsimp only
  split_ifs with h1 h2
  · exact .refl s
  · exact (sensesOnly_count s 9 2 1).trans (sensesOnly_respond _ _ _ _ _)
  · refine (sensesOnly_count s 9 2 1).trans ?_
    split
    · exact sensesOnly_respond _ _ _ _ _
    · rfl

/-- A sensor event touches the monitors, the Sinter domain, the start-up data, the internal queue and the counters alone. -/
theorem sensesOnly_sensorEvent (s : State) (k t reading thr : Nat) : SensesOnly s (sensorEvent s k t reading thr) := by
  have hf := (sensesOnly_count s 9 1 1).trans (sensesOnly_filter (count s 9 1 1) k t)
  unfold sensorEvent
  dsimp only
  split_ifs
  · exact hf
  · exact hf.trans rfl
  · exact hf.trans (sensesOnly_fire _ _ _ _)

/-! The clock monitor status (R79). -/

/-- A volatile object with a new value: the dictionary alone changes. -/
theorem setObj_volatile (s : State) {i k : Nat} {d : Desc} (v : Val) (hd : (Dict.find i k).2 = some d) (hp : d.pers = false) :
    setObj s i k v = { s with dict := (setObj s i k v).dict } := by
  unfold setObj
  rw [hd]
  simp [hp]

theorem find_clockWord : ∃ d, (Dict.find 0x2100 11).2 = some d ∧ d.pers = false := ⟨_, rfl, rfl⟩

theorem showClocks_dict (s : State) (w : Nat) : showClocks s w = { s with dict := (showClocks s w).dict } := by
  obtain ⟨d, hd, hp⟩ := find_clockWord
  exact setObj_volatile s _ hd hp

theorem num_showClocks (s : State) (w : Nat) : num (showClocks s w) 0x2100 11 = w ||| (num s 0x2100 11 &&& 0x80) := by
  obtain ⟨d, hd, _⟩ := find_clockWord
  unfold showClocks
  rw [num_setNum s _ (by decide) (by decide), if_pos ⟨rfl, rfl, by rw [hd]; rfl⟩]

/-- One object changes, and no other. -/
theorem othersStand_setNum (s : State) {i k : Nat} (n : Nat) (hk : k < 256) : OthersStand s (setNum s i k n) [(i, k)] := by
  intro i' k' hk' _ hne
  have : ¬(i' = i ∧ k' = k ∧ (Dict.find i k).2.isSome) := fun ⟨hi, hj, _⟩ => hne (by simp [hi, hj])
  exact (getObj_setObj s (.num n) hk hk').trans (if_neg this)

theorem showsClock_clockBit (s : State) (i : Nat) (b : Bool) : ShowsClock s (clockBit s i b) i b := by
  unfold clockBit ShowsClock
  dsimp only
  cases h : s.boot.admitted with
  | false =>
    rw [if_pos (by rfl)]
    refine ⟨?_, fun h' => (nomatch h'), fun _ => ⟨?_, num_showClocks _ _, ?_⟩⟩
    · exact showClocks_dict _ _
    · exact setNum_internal _ _ _ _
    · exact othersStand_setNum (i := 0x2100) (k := 11) { s with boot := { s.boot with clock := setBit s.boot.clock i b } } _ (by decide)
  | true =>
    have hw : clockWord { s with boot := { s.boot with clock := setBit s.boot.clock i b } } = clockWord s := rfl
    refine ⟨?_, fun _ => ?_, fun h' => (nomatch h')⟩
    · split_ifs <;> rfl
    · split_ifs <;> simp_all [pushBack]

end Sys2Proof.Machine
end

section
/-! SUPPORT. The Sheaf link: frames received, resent and sent (R527, R528). -/

namespace Sys2Proof.Machine

/-- A core-die command that finds no occasion. -/
theorem coreCmd_idle {f : State → State} {s : State} (h : f s = s) : coreCmd f s = .next s := coreCmd_next h rfl rfl

/-- A sealed frame at a unit that is awake, with the link up. -/
theorem receive_sealed {s : State} {f k : Bytes} (phys : Phys) (ha : Shf.awake s = true) (hk : s.sheaf.key = some k)
    (hl : f.length = 36 + leNat ((f.drop 2).take 2)) (hn : leNat ((f.drop 2).take 2) ≤ 256) (hd : f.getD 0 0 = 2) :
    Shf.receive s f phys =
      (if leNat ((f.drop 4).take 8) = s.sheaf.got + 1 then gcmOpen k (Shf.nonce (1 - Shf.me s) (leNat ((f.drop 4).take 8))) (f.take 20)
        ((f.drop 20).take (leNat ((f.drop 2).take 2))) (f.drop (20 + leNat ((f.drop 2).take 2))) else none).elim s
        fun b => if phys = .compare then compareAlarm s else Shf.accept s (leNat ((f.drop 4).take 8)) (leNat ((f.drop 12).take 8)) b := by
  unfold Shf.receive
  dsimp only
  rw [if_neg (by simp [ha]; omega), hd, hk]
  by_cases hc : leNat ((f.drop 4).take 8) = s.sheaf.got + 1
  · simp only [hc, decide_true, if_true]
    cases gcmOpen k (Shf.nonce (1 - Shf.me s) (s.sheaf.got + 1)) (f.take 20) ((f.drop 20).take (leNat ((f.drop 2).take 2)))
      (f.drop (20 + leNat ((f.drop 2).take 2))) <;> rfl
  · simp only [hc, decide_false, if_false]
    rfl

/-- What hardware counts between statistics admissions (R143). -/
theorem counted_incHw (s : State) (i k n : Nat) : counted (incHw s i k n) i k = sat32 (counted s i k) n := by
  unfold counted incHw SMap.upd
  exact (SMap.at_put _ _ _ _ _).trans (if_pos rfl)

/-- An alarm of the compare unit counts, and is an event of sensor 0x59 (R285, R286). -/
theorem compareAlarm_stands (s : State) : (compareAlarm s).sheaf = s.sheaf ∧ counted (compareAlarm s) 0xCF20 7 = sat32 (counted s 0xCF20 7) 1 ∧
    (compareAlarm s).slots = s.slots ∧ (compareAlarm s).dict = s.dict ∧ pairFrame s (compareAlarm s) ∧ (compareAlarm s).pending = s.pending := by
  have h : SensesOnly (incHw s 0xCF20 7 1) (compareAlarm s) := sensesOnly_sensorEvent _ _ _ _ _
  rw [h]
  exact ⟨rfl, counted_incHw s 0xCF20 7 1, rfl, rfl, ⟨rfl, rfl, rfl, rfl, rfl, rfl, rfl, rfl⟩, rfl⟩

/-- The length that a message of at most 252 bytes carries. -/
theorem messageLength (m : Bytes) (h : m.length ≤ 252) : leNat (leBytes 2 m.length) = m.length := leNat_leBytes 2 _ (by omega)

theorem pairMessage_length (ty : Byte) (m : Bytes) : (pairMessage ty m).length = 4 + m.length := by
  simp [pairMessage, leBytes_length]
  omega

theorem pairMessage_body (ty : Byte) (m : Bytes) : (pairMessage ty m).drop 4 = m := by
  unfold pairMessage
  rw [List.drop_append_of_le_length (by simp [leBytes_length])]
  simp [leBytes]

/-- One whole message in a payload of its own. -/
theorem messages_one (ty : Byte) (m : Bytes) (hm : m.length ≤ 252) :
    Shf.messages ((pairMessage ty m).length + 1) (pairMessage ty m) = [(false, pairMessage ty m)] := by
  have hl := pairMessage_length ty m
  have hn : leNat (((pairMessage ty m).drop 2).take 2) = m.length := by
    rw [show ((pairMessage ty m).drop 2).take 2 = leBytes 2 m.length by simp [pairMessage, leBytes]]
    exact messageLength m hm
  unfold Shf.messages
  rw [if_neg (by omega), hn]
  dsimp only
  rw [List.take_of_length_le (by omega), List.drop_of_length_le (by omega)]
  have hrest : Shf.messages (pairMessage ty m).length [] = [] := by
    cases (pairMessage ty m).length <;> rfl
  have hmore : bit ((pairMessage ty m).getD 1 0).toNat 0 = false := by
    change bit (0 : Byte).toNat 0 = false
    decide
  rw [hrest, hmore]

theorem takePiece_whole (h : Sheaf) (ty : Byte) (m : Bytes) (hp : h.part = []) :
    Shf.takePiece h (false, pairMessage ty m) = { h with part := [], inbox := h.inbox ++ [pairMessage ty m] } := by
  unfold Shf.takePiece
  rw [hp, pairMessage_body]
  rfl

/-- What an accepted frame leaves of the link: its key, its join, its counter and its acknowledgement (R527, R528). -/
theorem foldl_takePiece (ps : List (Bool × Bytes)) (h : Sheaf) :
    ∃ i p, ps.foldl Shf.takePiece h = { h with inbox := i, part := p } := by
  induction ps generalizing h with
  | nil => exact ⟨_, _, rfl⟩
  | cons q ps ih =>
    obtain ⟨i, p, hq⟩ : ∃ i p, Shf.takePiece h q = { h with inbox := i, part := p } := by
      unfold Shf.takePiece
      dsimp only
      split_ifs
      · exact ⟨_, _, rfl⟩
      · exact ⟨_, _, rfl⟩
    rw [List.foldl_cons, hq]
    exact ih _

/-- The link after an accepted frame. -/
def acceptedLink (s : State) (ctr ack : Nat) (payload : Bytes) : Sheaf :=
  let kept := s.sheaf.kept.filter fun p => decide (ack < p.1)
  let moved := decide (kept.length < s.sheaf.kept.length)
  (Shf.messages (payload.length + 1) payload).foldl Shf.takePiece { s.sheaf with
    got := ctr, heard := s.seq.time, kept := kept, resends := if moved then 0 else s.sheaf.resends
    acked := if moved then s.seq.time else s.sheaf.acked }

theorem acceptedLink_rest (s : State) (ctr ack : Nat) (b : Bytes) : (acceptedLink s ctr ack b).got = ctr ∧ (acceptedLink s ctr ack b).heard = s.seq.time ∧
    (acceptedLink s ctr ack b).kept = s.sheaf.kept.filter (fun p => decide (ack < p.1)) ∧ (acceptedLink s ctr ack b).key = s.sheaf.key ∧
    (acceptedLink s ctr ack b).join = s.sheaf.join := by
  obtain ⟨i, p, h⟩ := foldl_takePiece (Shf.messages (b.length + 1) b) { s.sheaf with
    got := ctr, heard := s.seq.time, kept := s.sheaf.kept.filter fun p => decide (ack < p.1)
    resends := if decide ((s.sheaf.kept.filter fun p => decide (ack < p.1)).length < s.sheaf.kept.length) then 0 else s.sheaf.resends
    acked := if decide ((s.sheaf.kept.filter fun p => decide (ack < p.1)).length < s.sheaf.kept.length) then s.seq.time else s.sheaf.acked }
  unfold acceptedLink
  dsimp only
  rw [h]
  exact ⟨rfl, rfl, rfl, rfl, rfl⟩

theorem acceptedLink_empty (s : State) (ctr ack : Nat) : (acceptedLink s ctr ack []).inbox = s.sheaf.inbox := rfl

theorem acceptedLink_message (s : State) (ctr ack : Nat) (ty : Byte) (m : Bytes) (hm : m.length ≤ 252) (hp : s.sheaf.part = []) :
    (acceptedLink s ctr ack (pairMessage ty m)).inbox = s.sheaf.inbox ++ [pairMessage ty m] := by
  unfold acceptedLink
  dsimp only
  rw [messages_one ty m hm]
  exact congrArg Sheaf.inbox (takePiece_whole _ ty m hp)

/-- An accepted frame: the link, and RX_LOCK (R79). -/
theorem accept_shows (s : State) (ctr ack : Nat) (b : Bytes) : ∃ p, ShowsClock { s with sheaf := acceptedLink s ctr ack b, perf := p }
    (Shf.accept s ctr ack b) 8 true := by
  obtain ⟨p, hp⟩ := count_perf s 12 1 1
  refine ⟨p, ?_⟩
  unfold Shf.accept Shf.setLock Shf.upd
  dsimp only
  rw [hp]
  exact showsClock_clockBit _ _ _

/-- A sealed frame is taken in its turn, or dropped (R527, R285). -/
theorem sealedFrame_received {s : State} {k f : Bytes} (p : Phys) (ha : Shf.awake s = true) (hk : s.sheaf.key = some k)
    (hl : f.length = 36 + leNat ((f.drop 2).take 2)) (hn : leNat ((f.drop 2).take 2) ≤ 256) (hd : f.getD 0 0 = 2) :
    let n := leNat ((f.drop 2).take 2)
    let ctr := leNat ((f.drop 4).take 8)
    let plain := gcmOpen k (Shf.nonce (1 - Shf.me s) ctr) (f.take 20) ((f.drop 20).take n) (f.drop (20 + n))
    (ctr ≠ s.sheaf.got + 1 ∨ plain = none → exec (.sheafFrameReceive ⟨f, p⟩) s = .next s) ∧
      (∀ b, ctr = s.sheaf.got + 1 → plain = some b → p = .compare → ∃ t, exec (.sheafFrameReceive ⟨f, p⟩) s = .next t ∧ t.sheaf = s.sheaf ∧
        counted t 0xCF20 7 = sat32 (counted s 0xCF20 7) 1 ∧ t.slots = s.slots ∧ t.dict = s.dict ∧ pairFrame s t) ∧
      (∀ b, ctr = s.sheaf.got + 1 → plain = some b → p ≠ .compare → ∃ t, exec (.sheafFrameReceive ⟨f, p⟩) s = .next t ∧ t.sheaf.got = ctr ∧ t.sheaf.heard = s.seq.time ∧
        t.sheaf.kept = s.sheaf.kept.filter (fun p => decide (leNat ((f.drop 12).take 8) < p.1)) ∧ ShowsClock { s with sheaf := t.sheaf, perf := t.perf } t 8 true ∧
        (b = [] → t.sheaf.inbox = s.sheaf.inbox) ∧
        (s.sheaf.part = [] → ∀ ty m, m.length ≤ 252 → b = pairMessage ty m → t.sheaf.inbox = s.sheaf.inbox ++ [b]) ∧
        t.sheaf.key = s.sheaf.key ∧ t.sheaf.join = s.sheaf.join) := by
  have hrec := receive_sealed p ha hk hl hn hd
  intro n ctr plain
  refine ⟨fun h => ?_, fun b hc hb hp => ?_, fun b hc hb hp => ?_⟩
  · have hnone : (if ctr = s.sheaf.got + 1 then plain else none) = none := by
      obtain h | h := h
      · exact if_neg h
      · rw [h, ite_self]
    exact coreCmd_idle (f := fun s => Shf.receive s f p) (hrec.trans (congrArg (Option.elim · s _) hnone))
  · have hsome : (if ctr = s.sheaf.got + 1 then plain else none) = some b := by rw [if_pos hc, hb]
    have hgo := hrec.trans ((congrArg (Option.elim · s _) hsome).trans (if_pos hp))
    obtain ⟨h1, h2, h3, h4, h5, h6⟩ := compareAlarm_stands s
    obtain ⟨-, ho, -⟩ := id h5
    exact ⟨_, coreCmd_next (f := fun s => Shf.receive s f p) hgo h6 ho, h1, h2, h3, h4, h5⟩
  · have hsome : (if ctr = s.sheaf.got + 1 then plain else none) = some b := by rw [if_pos hc, hb]
    have hgo := hrec.trans ((congrArg (Option.elim · s _) hsome).trans (if_neg hp))
    obtain ⟨q, hs⟩ := accept_shows s ctr (leNat ((f.drop 12).take 8)) b
    obtain ⟨hframe, -⟩ := id hs
    have hlink : (Shf.accept s ctr (leNat ((f.drop 12).take 8)) b).sheaf = acceptedLink s ctr (leNat ((f.drop 12).take 8)) b := by rw [hframe]
    have hperf : (Shf.accept s ctr (leNat ((f.drop 12).take 8)) b).perf = q := by rw [hframe]
    obtain ⟨h1, h2, h3, h4, h5⟩ := acceptedLink_rest s ctr (leNat ((f.drop 12).take 8)) b
    refine ⟨_, coreCmd_next (f := fun s => Shf.receive s f p) hgo (by rw [hframe]) (by rw [hframe]), ?_⟩
    rw [hlink, hperf]
    refine ⟨h1, h2, h3, hs, fun he => ?_, fun hpart ty m hm he => ?_, h4, h5⟩
    · rw [he]; exact acceptedLink_empty _ _ _
    · rw [he]; exact acceptedLink_message _ _ _ ty m hm hpart

/-! Resending and idling (R528). -/

theorem resend_idle {s : State} (h : s.sheaf.kept = [] ∨ s.seq.time < s.sheaf.acked + 4 ∨ 8 ≤ s.sheaf.resends) : Shf.resend s = s := by
  unfold Shf.resend
  exact if_pos (by tauto)

theorem keptFrames_resent {s : State} (ha : Shf.awake s = true) (hk : s.sheaf.kept ≠ []) (ht : s.sheaf.acked + 4 ≤ s.seq.time) (hr : s.sheaf.resends < 8) :
    ∃ t, exec .sheafResend s = .next t ∧
      t.sheaf = { s.sheaf with resends := s.sheaf.resends + 1, acked := s.seq.time, spoke := s.seq.time, line := s.sheaf.line ++ s.sheaf.kept.map (·.2) } ∧
      counted t 0xF000 12 = sat32 (counted s 0xF000 12) s.sheaf.kept.length ∧ t.dict = s.dict ∧ t.internal = s.internal ∧ t.slots = s.slots ∧ pairFrame s t := by
  let h' : Sheaf := { s.sheaf with resends := s.sheaf.resends + 1, acked := s.seq.time, spoke := s.seq.time, line := s.sheaf.line ++ s.sheaf.kept.map (·.2) }
  obtain ⟨p, hp⟩ := count_perf (incHw { s with sheaf := h' } 0xF000 12 s.sheaf.kept.length) 12 2 s.sheaf.kept.length
  have hgo : Shf.resend s = { incHw { s with sheaf := h' } 0xF000 12 s.sheaf.kept.length with perf := p } := by
    unfold Shf.resend
    rw [if_neg (by simp [hk, ha]; omega)]
    exact hp
  exact ⟨_, coreCmd_next hgo rfl rfl, rfl, counted_incHw _ _ _ _, rfl, rfl, rfl, rfl, rfl, rfl, rfl, rfl, rfl, rfl, rfl⟩

theorem idle_early {s : State} (h : s.seq.time < s.sheaf.spoke + 2) : Shf.idle s = s := by
  unfold Shf.idle
  exact if_pos (by tauto)

/-- The frame that goes out with this payload, under the link key (R527). -/
def sealedFrame (s : State) (k p : Bytes) : Bytes :=
  let h := [2, 0] ++ leBytes 2 p.length ++ leBytes 8 (s.sheaf.sent + 1) ++ leBytes 8 s.sheaf.got
  let c := gcmSeal k ([0x83, BitVec.ofNat 8 (Shf.me s), 0, 0] ++ beBytes 8 (s.sheaf.sent + 1)) h p
  h ++ c.1 ++ c.2

theorem frame_sealed {s : State} {k : Bytes} (hk : s.sheaf.key = some k) (p : Bytes) : Shf.frame s (s.sheaf.sent + 1) p = sealedFrame s k p := by
  unfold Shf.frame
  rw [hk]
  rfl

/-- A frame sent, and kept until it is acknowledged. -/
theorem transmit_link {s : State} {k : Bytes} (hk : s.sheaf.key = some k) (p : Bytes) : ∃ q a, Shf.transmit s p = { s with perf := q, sheaf := { s.sheaf with
    sent := s.sheaf.sent + 1, kept := s.sheaf.kept ++ [(s.sheaf.sent + 1, sealedFrame s k p)], line := s.sheaf.line ++ [sealedFrame s k p]
    spoke := s.seq.time, acked := a } } := by
  obtain ⟨q, hq⟩ := count_perf s 12 0 1
  refine ⟨q, if s.sheaf.kept = [] then s.seq.time else s.sheaf.acked, ?_⟩
  unfold Shf.transmit Shf.upd
  rw [hq]
  dsimp only
  rw [frame_sealed hk p]

theorem chunks_one (m : Bytes) (h0 : 0 < m.length) (h : m.length ≤ 252) : chunks 252 m = [m] := by
  unfold chunks
  obtain ⟨n, hn⟩ : ∃ n, m.length = n + 1 := ⟨m.length - 1, by omega⟩
  have hne : m.isEmpty = false := by cases m <;> simp_all
  rw [hn]
  unfold chunksAux
  rw [hne, if_neg (by simp), List.take_of_length_le h, List.drop_of_length_le h]
  cases n <;> rfl

theorem pieces_one (ty : Byte) (m : Bytes) (h0 : 0 < m.length) (h : m.length ≤ 252) : Shf.pieces (pairMessage ty m) = [pairMessage ty m] := by
  unfold Shf.pieces
  rw [pairMessage_body, chunks_one m h0 h]
  rfl

theorem pack_one {p : Bytes} (h0 : p ≠ []) (h : p.length ≤ 256) : Shf.pack [p] = [p] := by
  unfold Shf.pack
  simp [h, h0]

/-- One message that waits, sorted by its priority. -/
theorem sorted_one (p : Bytes) : ([1, 2, 3, 4].flatMap fun q => [p].filter fun m => decide (Shf.priority m = q)) = [p] := by
  have h : Shf.priority p ∈ [1, 2, 3, 4] := by
    unfold Shf.priority
    split <;> simp
  simp only [List.mem_cons, List.not_mem_nil, or_false] at h
  obtain h | h | h | h := h <;> simp [h]

theorem flush_one {s : State} {ty : Byte} {m : Bytes} (ha : Shf.awake s = true) (hk : s.sheaf.key.isSome = true) (ho : s.sheaf.out = [pairMessage ty m])
    (h0 : 0 < m.length) (h : m.length ≤ 252) : Shf.flush s = Shf.transmit { s with sheaf := { s.sheaf with out := [] } } (pairMessage ty m) := by
  have hl := pairMessage_length ty m
  have hne : pairMessage ty m ≠ [] := fun h' => by rw [h'] at hl; simp at hl; omega
  unfold Shf.flush
  rw [if_neg (by simp [ho, ha]), ho]
  simp only [List.filter_cons, hk, Bool.true_or, if_true, List.filter_nil]
  have hs := sorted_one (pairMessage ty m)
  simp only [List.filter_cons, List.filter_nil] at hs
  rw [hs]
  simp only [List.flatMap_cons, List.flatMap_nil, List.append_nil]
  rw [pieces_one ty m h0 h, pack_one hne (by omega)]
  rfl

/-- What waits goes out, or an empty frame (R528). -/
theorem idleFrame_sent {s : State} {k p : Bytes} (ha : Shf.awake s = true) (hk : s.sheaf.key = some k) (ht : s.sheaf.spoke + 2 ≤ s.seq.time)
    (hp : (s.sheaf.out = [] ∧ p = []) ∨ (s.sheaf.out = [p] ∧ ∃ ty m, 0 < m.length ∧ m.length ≤ 252 ∧ p = pairMessage ty m)) :
    ∃ t, exec .sheafIdle s = .next t ∧ t.sheaf.line = s.sheaf.line ++ [sealedFrame s k p] ∧
      t.sheaf.kept = s.sheaf.kept ++ [(s.sheaf.sent + 1, sealedFrame s k p)] ∧
      t.sheaf.sent = s.sheaf.sent + 1 ∧ t.sheaf.spoke = s.seq.time ∧ t.sheaf.out = [] ∧ t.sheaf.got = s.sheaf.got ∧ t.sheaf.key = s.sheaf.key ∧
      t.dict = s.dict ∧ t.internal = s.internal ∧ t.slots = s.slots ∧ pairFrame s t := by
  have hgo : Shf.idle s = Shf.transmit { s with sheaf := { s.sheaf with out := [] } } p := by
    unfold Shf.idle
    rw [if_neg (by simp [hk, ha]; omega)]
    obtain ⟨ho, rfl⟩ | ⟨ho, ty, m, h0, h, rfl⟩ := hp
    · rw [if_pos ho, ← ho]
    · rw [if_neg (by simp [ho])]
      exact flush_one ha (by simp [hk]) ho h0 h
  obtain ⟨q, a, ht⟩ := transmit_link (s := { s with sheaf := { s.sheaf with out := [] } }) hk p
  rw [ht] at hgo
  exact ⟨_, coreCmd_next hgo rfl rfl, rfl, rfl, rfl, rfl, rfl, rfl, rfl, rfl, rfl, rfl, rfl, rfl, rfl, rfl, rfl, rfl, rfl, rfl⟩

end Sys2Proof.Machine
end

section
/-! SUPPORT. The ends of the Sheaf link and of a join (R528, R534, R546), and the link's statement. -/

namespace Sys2Proof.Machine

/-- State t is s but for the link and what answers leave by. -/
def AnswersOnly (s t : State) : Prop :=
  t = { s with host := t.host, perf := t.perf, hw := t.hw, bar := t.bar, sheaf := t.sheaf, slots := t.slots }

theorem AnswersOnly.trans {a b c : State} (h : AnswersOnly a b) (g : AnswersOnly b c) : AnswersOnly a c := by
  unfold AnswersOnly at *
  rw [g, h]

theorem answersOnly_answerNow (s : State) (r : Rq) (code : Nat) : AnswersOnly s (answerNow s r code) := by
  obtain ⟨p, hp⟩ := count_perf s 0 3 1
  unfold answerNow sendLane1
  dsimp only
  rw [hp]
  split_ifs <;> rfl

theorem answersOnly_answerAway (s : State) : AnswersOnly s (Shf.answerAway s) := by
  have h : ∀ (ms : List Bytes) (t : State), AnswersOnly t (ms.foldl (fun t m => answerNow t (parseRq (pairOrigin s 1) m) Abt.partnerAbsent) t) := by
    intro ms
    induction ms with
    | nil => exact fun t => rfl
    | cons m ms ih => exact fun t => (answersOnly_answerNow _ _ _).trans (ih _)
  exact AnswersOnly.trans (b := answerRelayed { s with host := { s.host with away := [] } }) rfl (h _ _)

/-- The link with nothing on it. -/
def downLink (h : Sheaf) : Sheaf := { h with key := none, out := [], kept := [], resends := 0, inbox := [], part := [] }

/-- Partner loss on a joined unit: the link goes down, and the partition waits at the head of the queue (R550). -/
theorem lose_joined {s : State} (hj : s.sheaf.join = none) (h : joined s = true) (hp : IntReq.partition ∉ s.internal) :
    Shf.lose s = { s with sheaf := downLink s.sheaf, internal := .partition :: s.internal } := by
  have hc : (s.internal.contains .partition) = false := by simpa using hp
  unfold Shf.lose
  rw [if_neg (by simp [hj])]
  dsimp only
  rw [if_pos (by exact h), if_neg (by simpa [Shf.upd] using hp)]
  rfl

/-- The slots once the Join that a join answers has its code (R534). -/
def answeredSlots (s : State) (j : JoinRun) (code : Nat) : List Slot :=
  match j.slot with
  | none => s.slots
  | some n => s.slots.map fun x => if x.adm = n ∧ x.numbered ∧ x.long then recode s x code [] else x

theorem answerJoin_slots (s : State) (j : JoinRun) (code : Nat) : Shf.answerJoin s j code = { s with slots := answeredSlots s j code } := by
  unfold Shf.answerJoin answeredSlots
  cases j.slot <;> rfl

theorem answeredSlots_code {s : State} {j : JoinRun} {code : Nat} {x : Slot} (hx : x ∈ answeredSlots s j code) (hs : j.slot = some x.adm)
    (hn : x.numbered = true) (hl : x.long = true) : x.code = code := by
  unfold answeredSlots at hx
  rw [hs] at hx
  obtain ⟨y, _, hy⟩ := List.mem_map.mp hx
  by_cases h : y.adm = x.adm ∧ y.numbered ∧ y.long
  · rw [if_pos h] at hy
    rw [← hy]
    rfl
  · rw [if_neg h] at hy
    exact absurd (by rw [hy]; exact ⟨rfl, hn, hl⟩) h

/-- A join that fails goes back to what stood before it (R534). -/
theorem failJoin_eq {s : State} {j : JoinRun} (h : s.sheaf.join = some j) (code : Nat) : Shf.failJoin s code =
    { s with slots := answeredSlots s j code, internal := s.internal ++ [.pairState j.prev], sheaf := { downLink s.sheaf with join := none, items := [] } } := by
  unfold Shf.failJoin
  rw [h]
  dsimp only
  rw [answerJoin_slots]
  unfold abandonJoin
  dsimp only
  rw [h]
  rfl

theorem joinFails_of {c : Instr} {s : State} {j : JoinRun} {code : Nat} {f : State → State} (hexec : exec c s = coreCmd f s)
    (h : s.sheaf.join = some j) (hf : f s = Shf.failJoin s code) : JoinFails c s j code := by
  rw [failJoin_eq h code] at hf
  exact ⟨_, hexec.trans (coreCmd_next hf rfl rfl), rfl, rfl, rfl, rfl, rfl, rfl, fun x hx hs hn hl => answeredSlots_code hx hs hn hl, rfl,
    ⟨rfl, rfl, rfl, rfl, rfl, rfl, rfl, rfl⟩, fun _ _ _ _ _ => rfl⟩

/-- State u is s but for what it shows of the clocks (R79). -/
structure ClockShown (s u : State) : Prop where
  rest : u = { s with boot := u.boot, dict := u.dict, internal := u.internal }
  objects : OthersStand s u [(0x2100, 11)]
  queue : ∃ q, u.internal = s.internal ++ q ∧ ∀ e ∈ q, ∃ w, e = .clocks w

theorem ClockShown.refl (s : State) : ClockShown s s := ⟨rfl, fun _ _ _ _ _ => rfl, [], by simp, by simp⟩

theorem clockShown_clockBit (s : State) (i : Nat) (b : Bool) : ClockShown s (clockBit s i b) ∧ (clockBit s i b).boot = { s.boot with clock := setBit s.boot.clock i b } := by
  obtain ⟨hrest, hadm, hstart⟩ := showsClock_clockBit s i b
  have hboot : (clockBit s i b).boot = { s.boot with clock := setBit s.boot.clock i b } := by rw [hrest]
  refine ⟨⟨by rw [hboot]; exact hrest, ?_, ?_⟩, hboot⟩
  · cases h : s.boot.admitted with
    | true => exact fun i' k _ _ _ => getObj_congr (hadm h).1 (by rw [hrest]) i' k
    | false => exact (hstart h).2.2
  · cases h : s.boot.admitted with
    | true =>
      refine ⟨_, (hadm h).2, fun e he => ?_⟩
      split_ifs at he with hw
      · cases he
      · exact ⟨_, by simpa using he⟩
    | false => exact ⟨[], by rw [(hstart h).1, List.append_nil], by simp⟩

theorem ClockShown.joined {s u : State} (h : ClockShown s u) : Machine.joined u = Machine.joined s := by
  unfold Machine.joined num
  rw [h.objects 0xF000 1 (by decide) (by decide) (by decide)]

/-- A sign of partner loss parts a joined pair, whatever it has shown of the clocks (R79, R528). -/
theorem parts_of {c : Instr} {s u : State} {f : State → State} {P : State → Prop} (hexec : exec c s = coreCmd f s) (hf : f s = Shf.lose u)
    (hu : ClockShown s u) (hj : s.sheaf.join = none) (h : joined s = true) (hp : IntReq.partition ∉ s.internal)
    (hP : ∀ t : State, t.boot = u.boot → P t) : Parts c s P := by
  have hju := hu.joined
  obtain ⟨hrest, hobj, q, hq, hqc⟩ := hu
  have hpu : IntReq.partition ∉ u.internal := by
    rw [hq, List.mem_append, not_or]
    refine ⟨hp, fun hmem => ?_⟩
    obtain ⟨w, hw⟩ := hqc _ hmem
    exact nomatch hw
  have hgo := hf.trans (lose_joined (s := u) (by rw [hrest]; exact hj) (by rw [hju]; exact h) hpu)
  refine ⟨_, hexec.trans (coreCmd_next hgo (by rw [hrest]) (by rw [hrest])), rfl, rfl, rfl, rfl, rfl, ⟨q, ?_, hqc⟩, ?_, ?_, ?_, hP _ rfl⟩
  · show IntReq.partition :: u.internal = _
    rw [hq, List.cons_append]
  · show u.slots = s.slots
    rw [hrest]
  · rw [hrest]
    exact ⟨rfl, rfl, rfl, rfl, rfl, rfl, rfl, rfl⟩
  · exact fun i k hk hb hx => hobj i k hk hb hx

/-- State t is s but for the link, what is answered, what waits inside, and what the clocks show. -/
structure LossOnly (s t : State) : Prop where
  rest : t = { s with host := t.host, perf := t.perf, hw := t.hw, bar := t.bar, sheaf := t.sheaf, slots := t.slots, boot := t.boot, dict := t.dict, internal := t.internal }
  objects : OthersStand s t [(0x2100, 11)]

theorem LossOnly.refl (s : State) : LossOnly s s := ⟨rfl, fun _ _ _ _ _ => rfl⟩

theorem LossOnly.trans {a b c : State} (h : LossOnly a b) (g : LossOnly b c) : LossOnly a c := by
  obtain ⟨hr, ho⟩ := h
  obtain ⟨gr, go⟩ := g
  exact ⟨by rw [gr, hr], fun i k hk hb hx => (go i k hk hb hx).trans (ho i k hk hb hx)⟩

theorem AnswersOnly.loss {s t : State} (h : AnswersOnly s t) : LossOnly s t := by
  refine ⟨by rw [h], fun i k _ _ _ => ?_⟩
  rw [h]
  rfl

theorem ClockShown.loss {s t : State} (h : ClockShown s t) : LossOnly s t := ⟨by rw [h.rest], h.objects⟩

theorem lossOnly_failJoin (s : State) (code : Nat) : LossOnly s (Shf.failJoin s code) := by
  cases h : s.sheaf.join with
  | none =>
    have hid : Shf.failJoin s code = s := by
      unfold Shf.failJoin
      rw [h]
    rw [hid]
    exact .refl s
  | some j =>
    rw [failJoin_eq h]
    exact ⟨rfl, fun _ _ _ _ _ => rfl⟩

theorem lossOnly_lose (s : State) : LossOnly s (Shf.lose s) := by
  have hdown : LossOnly s { s with sheaf := downLink s.sheaf } := ⟨rfl, fun _ _ _ _ _ => rfl⟩
  unfold Shf.lose
  dsimp only
  split_ifs
  · exact lossOnly_failJoin _ _
  · exact hdown
  · exact hdown.trans ⟨rfl, fun _ _ _ _ _ => rfl⟩
  · exact hdown.trans (answersOnly_answerAway _).loss

theorem lossOnly_linkLost (c : LinkLossCause) (s : State) : LossOnly s (Shf.linkLost s c) := by
  have hlock : LossOnly s (Shf.lose (Shf.setLock s false)) := (clockShown_clockBit s 8 false).1.loss.trans (lossOnly_lose _)
  unfold Shf.linkLost
  by_cases hidle : s.stage = 0 ∨ (s.sheaf.key.isNone ∧ s.sheaf.join.isNone)
  · rw [if_pos hidle]
    exact .refl s
  rw [if_neg hidle]
  cases c with
  | silence =>
    dsimp only
    split_ifs
    · exact lossOnly_lose s
    · exact .refl s
  | resends =>
    dsimp only
    split_ifs
    · exact lossOnly_lose s
    · exact .refl s
  | lock => exact hlock
  | vddLvds =>
    dsimp only
    split_ifs
    · exact .refl s
    · exact hlock

/-- A loss of the link, on whatever occasion, leaves all but the link, what is answered, and what the clocks show. -/
theorem linkLoss_stands (c : LinkLossCause) (s : State) : ∃ t, exec (.sheafLinkLoss c) s = .next t ∧ t.pers = s.pers ∧ t.otp = s.otp ∧ t.seq = s.seq ∧
    t.sessions = s.sessions ∧ t.twc = s.twc ∧ t.field = s.field ∧ OthersStand s t [(0x2100, 11)] := by
  obtain ⟨hrest, hobj⟩ := lossOnly_linkLost c s
  refine ⟨_, coreCmd_next (f := fun s => Shf.linkLost s c) rfl (by rw [hrest]) (by rw [hrest]), ?_⟩
  rw [hrest] at hobj ⊢
  exact ⟨rfl, rfl, rfl, rfl, rfl, rfl, hobj⟩

/-- The signs of R528 and the deadlines of R546, each on its occasion. -/
theorem joinedPair_parts {s : State} (h0 : s.stage ≠ 0) (hk : s.sheaf.key.isSome = true) (hj : s.sheaf.join = none) (h : joined s = true)
    (hp : IntReq.partition ∉ s.internal) :
    (s.sheaf.heard + 20 ≤ s.seq.time → Parts (.sheafLinkLoss .silence) s fun _ => True) ∧
      (s.seq.time < s.sheaf.heard + 20 → exec (.sheafLinkLoss .silence) s = .next s) ∧
      (8 ≤ s.sheaf.resends → Parts (.sheafLinkLoss .resends) s fun _ => True) ∧
      (s.sheaf.resends < 8 → exec (.sheafLinkLoss .resends) s = .next s) ∧
      Parts (.sheafLinkLoss .lock) s (fun t => t.boot.clock = setBit s.boot.clock 8 false) ∧
      (s.boot.lvds = false → Parts (.sheafLinkLoss .vddLvds) s fun t => t.boot.clock = setBit s.boot.clock 8 false) ∧
      (s.boot.lvds = true → exec (.sheafLinkLoss .vddLvds) s = .next s) ∧
      ∀ n : Nat, ((∃ w ∈ s.sheaf.awaits, w.adm = n ∧ w.due ≤ s.seq.time) → Parts (.sheafDeadline n) s fun _ => True) ∧
        ((∀ w ∈ s.sheaf.awaits, w.adm = n → s.seq.time < w.due) → exec (.sheafDeadline n) s = .next s) := by
  have hlinked : ¬(s.stage = 0 ∨ (s.sheaf.key.isNone ∧ s.sheaf.join.isNone)) := by simp [h0, Option.isSome_iff_ne_none.mp hk]
  have hsilence : Shf.linkLost s .silence = if s.sheaf.key.isSome ∧ s.sheaf.heard + 20 ≤ s.seq.time then Shf.lose s else s := if_neg hlinked
  have hresends : Shf.linkLost s .resends = if s.sheaf.resends ≥ 8 then Shf.lose s else s := if_neg hlinked
  have hlock : Shf.linkLost s .lock = Shf.lose (clockBit s 8 false) := if_neg hlinked
  have hlvds : Shf.linkLost s .vddLvds = if s.boot.lvds then s else Shf.lose (clockBit s 8 false) := if_neg hlinked
  obtain ⟨hshown, hboot⟩ := clockShown_clockBit s 8 false
  have hclock : ∀ t : State, t.boot = (clockBit s 8 false).boot → t.boot.clock = setBit s.boot.clock 8 false := fun t ht => by rw [ht, hboot]
  refine ⟨fun ht => ?_, fun ht => ?_, fun ht => ?_, fun ht => ?_, ?_, fun hl => ?_, fun hl => ?_, fun n => ⟨fun ⟨w, hw, ha, hd⟩ => ?_, fun hall => ?_⟩⟩
  · exact parts_of (f := fun s => Shf.linkLost s .silence) rfl (hsilence.trans (if_pos ⟨hk, ht⟩)) (.refl s) hj h hp fun _ _ => trivial
  · exact coreCmd_idle (f := fun s => Shf.linkLost s .silence) (hsilence.trans (if_neg (by omega)))
  · exact parts_of (f := fun s => Shf.linkLost s .resends) rfl (hresends.trans (if_pos ht)) (.refl s) hj h hp fun _ _ => trivial
  · exact coreCmd_idle (f := fun s => Shf.linkLost s .resends) (hresends.trans (if_neg (by omega)))
  · exact parts_of (f := fun s => Shf.linkLost s .lock) rfl hlock hshown hj h hp hclock
  · exact parts_of (f := fun s => Shf.linkLost s .vddLvds) rfl (hlvds.trans (if_neg (by simp [hl]))) hshown hj h hp hclock
  · exact coreCmd_idle (f := fun s => Shf.linkLost s .vddLvds) (hlvds.trans (if_pos hl))
  · have hany : (s.sheaf.awaits.any fun w => decide (w.adm = n ∧ w.due ≤ s.seq.time)) = true := List.any_eq_true.mpr ⟨w, hw, by simp [ha, hd]⟩
    exact parts_of (f := fun s => Shf.deadline s n) rfl (if_pos hany) (.refl s) hj h hp fun _ _ => trivial
  · have hany : ¬(s.sheaf.awaits.any fun w => decide (w.adm = n ∧ w.due ≤ s.seq.time)) = true := by
      rw [List.any_eq_true]
      rintro ⟨w, hw, hd⟩
      have := hall w hw (of_decide_eq_true hd).1
      have := (of_decide_eq_true hd).2
      omega
    exact coreCmd_idle (f := fun s => Shf.deadline s n) (if_neg hany)

/-- A join that comes to none of its ends in time fails (R534). -/
theorem lateJoin_fails {s : State} {j : JoinRun} (h : s.sheaf.join = some j) :
    let late := (bit s.boot.clock 8 = false ∧ j.t0 + 1000 ≤ s.seq.time) ∨ (j.hello = none ∧ j.t0 + 100000 ≤ s.seq.time) ∨ j.t0 + 1950000 ≤ s.seq.time
    (late → JoinFails .joinTimeout s j Abt.partnerAbsent) ∧ (¬late → exec .joinTimeout s = .next s) := by
  intro late
  have hlate : Shf.joinLate s j = true ↔ late := by
    simp [Shf.joinLate, late, or_assoc]
  have hgo : Shf.joinTimeout s = if Shf.joinLate s j then Shf.failJoin s Abt.partnerAbsent else s := by
    unfold Shf.joinTimeout
    rw [h]
  exact ⟨fun hl => joinFails_of rfl h (hgo.trans (if_pos (hlate.mpr hl))), fun hl => coreCmd_idle (hgo.trans (if_neg fun h' => hl (hlate.mp h')))⟩

/-- Settles O57: a frame's branches, the frames that go out, and the signs and deadlines that end the link or a join, each on its own. -/
theorem sheafLinkComplete : Obligations.sheaf_link_complete := by
  intro s
  refine ⟨fun ha k hk => ⟨fun f p => ?_, fun h => coreCmd_idle (resend_idle h), keptFrames_resent ha, fun h => coreCmd_idle (idle_early h),
    fun ht p hp => idleFrame_sent ha hk ht hp⟩, fun c => linkLoss_stands c s, joinedPair_parts, fun j hj => lateJoin_fails hj⟩
  intro n ctr plain hl hn hd
  exact sealedFrame_received p ha hk hl hn hd

end Sys2Proof.Machine
end

section
/-! SUPPORT. What a microsecond counts, and the lapse of PROVISION that a tick may place on the internal queue (R506, R555). -/

namespace Sys2Proof.Machine

/-- State t is s but for the performance counters and the free values that they have taken. -/
def CountsOnly (s t : State) : Prop := t = { s with perf := t.perf, seq := { s.seq with draws := t.seq.draws } }

theorem CountsOnly.refl (s : State) : CountsOnly s s := rfl

theorem CountsOnly.trans {a b c : State} (h : CountsOnly a b) (g : CountsOnly b c) : CountsOnly a c := by
  unfold CountsOnly at *
  rw [g, h]

theorem countsOnly_count (s : State) (b i n : Nat) : CountsOnly s (count s b i n) := by
  obtain ⟨p, hp⟩ := count_perf s b i n
  rw [hp]
  rfl

theorem countsOnly_if {s t u : State} {c : Prop} [Decidable c] (ht : CountsOnly s t) (hu : CountsOnly s u) : CountsOnly s (if c then t else u) := by
  split
  · exact ht
  · exact hu

/-- A count of block activity that no rule fixes (R555). -/
theorem countsOnly_free (s : State) (b i n : Nat) : CountsOnly s (count { s with seq := { s.seq with draws := s.seq.draws + 1 } } b i n) :=
  CountsOnly.trans (b := { s with seq := { s.seq with draws := s.seq.draws + 1 } }) rfl (countsOnly_count _ _ _ _)

theorem countsOnly_prfTick (s : State) : CountsOnly s (Prf.tick s) := by
  have hc : ∀ {t : State} (b i n : Nat), CountsOnly s t → CountsOnly s (count t b i n) := fun b i n h => h.trans (countsOnly_count _ b i n)
  have hfold : ∀ (ps : List (Nat × Nat)) {t : State}, CountsOnly s t →
      CountsOnly s (ps.foldl (fun t p => count { t with seq := { t.seq with draws := t.seq.draws + 1 } } p.1 p.2 (Config.freeCount p.1 p.2 t.seq.draws)) t) := by
    intro ps
    induction ps with
    | nil => exact fun h => h
    | cons p ps ih => exact fun h => ih (h.trans (countsOnly_free _ _ _ _))
  unfold Prf.tick
  extract_lets free held run s1 s2 s3 s4 s5 stalls s6 s7 s8 s9 s10
  have h1 : CountsOnly s s1 := countsOnly_if (hc _ _ _ (.refl s)) (.refl s)
  have h2 : CountsOnly s s2 := hc _ _ _ h1
  have h3 : CountsOnly s s3 := countsOnly_if (hc _ _ _ h2) h2
  have h4 : CountsOnly s s4 := countsOnly_if (hc _ _ _ h3) h3
  have h5 : CountsOnly s s5 := countsOnly_if (h4.trans (countsOnly_free _ _ _ _)) h4
  have h6 : CountsOnly s s6 := countsOnly_if h5 (countsOnly_if (hc _ _ _ h5) (countsOnly_if (hc _ _ _ h5) h5))
  have h7 : CountsOnly s s7 := countsOnly_if h6 (hc _ _ _ h6)
  have h8 : CountsOnly s s8 := countsOnly_if (hc _ _ _ h7) h7
  have h9 : CountsOnly s s9 := countsOnly_if (hc _ _ _ h8) h8
  have h10 : CountsOnly s s10 := countsOnly_if (hc _ _ _ h9) h9
  exact countsOnly_if (hfold _ h10) h10

/-- PROVISION past its lapse: the lapse waits at the head of the internal queue (R506). -/
theorem placeLapse_due {s : State} (h : lapseDue s = true) (hp : s.power = 0) : placeLapse s = pushFront s .lapse := by
  have hw : wake (pushFront s .lapse) = pushFront s .lapse := if_neg (by show ¬(1 ≤ s.power ∧ s.power ≤ 3); omega)
  unfold placeLapse wakeIfQueued
  rw [if_pos h, hw, ite_self]

/-- A unit in READY, with nothing under way, on which PROVISION has stood since device time 0. -/
def lapsingUnit : State :=
  { State.reset with stage := 0x11, dict := [(objKey 0x2000 7, .num 1)], seq := { State.reset.seq with time := 1000000000000 } }

theorem CountsOnly.lapseDue {s t : State} (h : CountsOnly s t) : Machine.lapseDue t = Machine.lapseDue s := by
  rw [h]
  rfl

theorem CountsOnly.closeHost {s t : State} (h : CountsOnly s t) (hc : s.host.closing = none) : Machine.closeHost t = t := by
  unfold Machine.closeHost
  rw [h]
  dsimp only
  rw [hc]

theorem CountsOnly.raiseDeadlines {s t : State} (h : CountsOnly s t) (hc : s.twc.cells = []) : Machine.raiseDeadlines t = t := by
  unfold Machine.raiseDeadlines
  rw [h]
  dsimp only
  rw [hc]
  rfl

/-- A tick of a core die with no release, no cell and no close of the host link in time. -/
theorem tick_quiet {s : State} (h0 : s.stage ≠ 0) (hs : s.slots = []) (hc : s.host.closing = none) (ht : s.twc.cells = []) :
    ∃ u, CountsOnly { s with sinter := tickSinter s.sinter, field := { s.field with time := s.field.time + 1 }
                             seq := { s.seq with time := s.seq.time + 1 }, boot := { s.boot with since := s.boot.since + 1 } } u ∧
      tick s = placeLapse u := by
  have hc' := countsOnly_prfTick { s with sinter := tickSinter s.sinter, field := { s.field with time := s.field.time + 1 }
                                          seq := { s.seq with time := s.seq.time + 1 }, boot := { s.boot with since := s.boot.since + 1 } }
  refine ⟨_, hc', ?_⟩
  unfold tick tickCore
  dsimp only
  have hrel : ∀ (n : Nat) (t : State), t.slots = [] → releaseDue n t = t := by
    intro n t hn
    cases n with
    | zero => rfl
    | succ n =>
      unfold releaseDue
      rw [hn]
      rfl
  rw [if_neg h0, hrel _ _ (by exact hs), hc'.closeHost (by exact hc), hc'.raiseDeadlines (by exact ht)]

/-- Refutes O56: a tick that comes to the lapse of PROVISION puts it on the internal queue, though no join, no message and no release waits. -/
theorem not_timeAndPowerStatesComplete : ¬ Obligations.time_and_power_states_complete := by
  intro h
  obtain ⟨-, hrun⟩ := (h lapsingUnit).1 rfl
  obtain ⟨t, ht, -, -, -, -, -, -, -, hqueue, -⟩ := hrun (by decide) rfl (by intro x hx; cases hx)
  obtain ⟨u, hu, htick⟩ := tick_quiet (s := lapsingUnit) (by decide) rfl rfl rfl
  have hdue : lapseDue u = true := by
    rw [hu.lapseDue]
    decide +kernel
  have hjoin : (pushFront u .lapse).sheaf.join = none := by rw [hu]; rfl
  have hout : (pushFront u .lapse).sheaf.out = [] := by rw [hu]; rfl
  have hexpire : Shf.expire (pushFront u .lapse) = pushFront u .lapse := by
    unfold Shf.expire
    rw [hjoin]
  have hflush : Shf.flush (pushFront u .lapse) = pushFront u .lapse := if_pos (.inl hout)
  have hgo : Shf.flush (Shf.expire (tick lapsingUnit)) = pushFront u .lapse := by
    rw [htick, placeLapse_due hdue (by rw [hu]; rfl), hexpire, hflush]
  have hexec : exec .deviceTimeTick lapsingUnit = otpCmd (fun s => Shf.flush (Shf.expire (tick s))) lapsingUnit := rfl
  rw [hexec] at ht
  unfold otpCmd at ht
  dsimp only at ht
  rw [hgo] at ht
  injection ht with ht
  rw [← ht] at hqueue
  exact List.cons_ne_nil _ _ hqueue

end Sys2Proof.Machine
end

section
/-! SUPPORT. A READ_RESULT where two slots have one number (R544). -/

namespace Sys2Proof.Machine

/-- A read of the host link that the partner is to order. -/
def relayedRead : Slot := ⟨0, 0, false, 1, 0, none, some [], 0, false, .none, none, [], []⟩

/-- A slot of cell 0 with the same number. -/
def sameNumber : Slot := { relayedRead with origin := 0x100 }

/-- A joined unit with these two slots. -/
def twoReads : State :=
  { State.reset with dict := [(objKey 0xF000 1, .num 2)], sheaf := { State.reset.sheaf with key := some [] }, slots := [relayedRead, sameNumber] }

theorem readResult_twoReads : (Shf.readResult twoReads 1 []).slots.map (·.acts) = [[], [.cellRet 0 [(10, 0), (11, 0)] [(0, [])]]] := by decide +kernel

/-- Refutes O59: a READ_RESULT for the host link also answers a slot of a cell that has the number of the host's, with the return of the cell. -/
theorem not_pairMessagesTakeEffect : ¬ Obligations.pair_messages_take_effect := by
  intro h
  obtain ⟨-, -, -, -, -, -, -, hreads⟩ := h twoReads
  obtain ⟨-, -, hresult⟩ := hreads (by decide +kernel) rfl
  obtain ⟨hhost, -⟩ := hresult 1 [] (by decide +kernel)
  obtain ⟨t, ht, hslots, -⟩ := hhost relayedRead (by decide) (by decide +kernel)
  have hexec : exec (.readResult 1 []) twoReads = coreCmd (fun s => Shf.readResult s 1 []) twoReads := rfl
  rw [hexec] at ht
  injection ht with ht
  have hacts := readResult_twoReads
  have hsame : t.slots = (Shf.readResult twoReads 1 []).slots := by rw [← ht]
  rw [← hsame, hslots] at hacts
  exact absurd hacts (by decide)

end Sys2Proof.Machine
end

section
/-! SUPPORT. Reads and transfer steps that take no number (R18, R105, R106, R109 to R113). -/

namespace Sys2Proof.Machine

/-! The transfer of an origin. -/

@[simp] theorem transferOf_pushSlot (s : State) (y : Slot) (o : Nat) : transferOf (pushSlot s y) o = transferOf s o := rfl

/-- A transfer set is the open one of its origin. -/
theorem transferOf_setTransfer (s : State) (x : Transfer) : transferOf (setTransfer s x) x.origin = some x := by
  unfold transferOf setTransfer
  dsimp only
  rw [List.find?_append, List.find?_eq_none.mpr]
  · simp
  · intro y hy
    simpa using (List.mem_filter.mp hy).2

theorem transferOf_dropTransfer (s : State) (o : Nat) : transferOf (dropTransfer s o) o = none := by
  unfold transferOf dropTransfer
  refine List.find?_eq_none.mpr fun y hy => ?_
  simpa using (List.mem_filter.mp hy).2

/-- Room for one more transfer opens it. -/
theorem openTransfer_room {s : State} (h : s.transfers.length < 16) (x : Transfer) (lat : Nat) (body : Bytes) :
    openTransfer s x lat body = { Eff.ok (setTransfer s x) lat with body := body } := by
  have hr : reclaim s = s := if_pos h
  unfold openTransfer
  rw [hr]
  exact if_neg (by omega)

/-- State t is s but for its transfers and what the discard of one of them empties: a PLE slot, an image, the staging area (R111). -/
structure Discards (s t : State) : Prop where
  rest : ∃ a b, t = { s with transfers := t.transfers, ples := t.ples, dict := t.dict, twc := t.twc
                             pers := { s.pers with imageA := a, imageB := b, dict := t.pers.dict, dlog := t.pers.dlog } }
  objects : ∀ i k, k < 256 → (i, k) ∉ [(0x1100, 2), (0xD100, 2)] → getObj t i k = getObj s i k

theorem Discards.refl (s : State) : Discards s s := ⟨⟨_, _, rfl⟩, fun _ _ _ _ => rfl⟩

theorem Discards.trans {a b c : State} (h : Discards a b) (g : Discards b c) : Discards a c := by
  obtain ⟨⟨i, j, hr⟩, ho⟩ := h
  obtain ⟨⟨k, l, gr⟩, go⟩ := g
  exact ⟨⟨k, l, by rw [gr, hr]⟩, fun i k hk hx => (go i k hk hx).trans (ho i k hk hx)⟩

theorem setNum_rest (s : State) (i k n : Nat) : setNum s i k n =
    { s with dict := (setNum s i k n).dict, pers := { s.pers with dict := (setNum s i k n).pers.dict, dlog := (setNum s i k n).pers.dlog } } := by
  unfold setNum setObj
  split
  · rfl
  · split_ifs <;> rfl

theorem discards_setNum (s : State) {i k : Nat} (n : Nat) (hk : k < 256) (hx : (i, k) ∈ [(0x1100, 2), (0xD100, 2)]) : Discards s (setNum s i k n) := by
  refine ⟨⟨s.pers.imageA, s.pers.imageB, ?_⟩, fun i' k' hk' hx' => ?_⟩
  · exact (setNum_rest s i k n).trans (by rw [setNum_twc, setNum_transfers, setNum_ples])
  · unfold setNum
    rw [getObj_setObj s (.num n) hk hk', if_neg]
    rintro ⟨rfl, rfl, -⟩
    exact hx' hx

theorem discards_setImage (s : State) (x : Nat) (im : Image) : Discards s (setImage s x im) := by
  unfold setImage
  split
  · exact ⟨⟨_, _, rfl⟩, fun _ _ _ _ => rfl⟩
  · exact ⟨⟨_, _, rfl⟩, fun _ _ _ _ => rfl⟩

theorem discards_discarded (s : State) (x : Transfer) : Discards s (discarded s x none) := by
  unfold discarded
  split_ifs
  · exact .refl s
  · exact .refl s
  · exact .refl s
  · exact ⟨⟨_, _, rfl⟩, fun _ _ _ _ => rfl⟩
  · exact (discards_setImage _ _ _).trans (discards_setNum _ _ (by decide) (by simp))
  · exact Discards.trans (b := updTwc s fun t => { t with staged := [], stager := none }) ⟨⟨_, _, rfl⟩, fun _ _ _ _ => rfl⟩
      (discards_setNum _ _ (by decide) (by simp))
  · exact .refl s

theorem discards_replaceTransfer (s : State) (o : Nat) : Discards s (replaceTransfer s o) := by
  unfold replaceTransfer
  split
  · exact Discards.trans (b := dropTransfer s o) ⟨⟨_, _, rfl⟩, fun _ _ _ _ => rfl⟩ (discards_discarded _ _)
  · exact .refl s

/-- The state in which an INIT is served is s but for its input and what its discard empties. -/
theorem initIn_cases (s : State) (r : Rq) : ∃ h b, Discards { s with host := h, bar := b } (initIn s r) := by
  obtain ⟨h, b, e⟩ := takeInput_cases s r
  refine ⟨h, b, ?_⟩
  unfold initIn
  rw [e]
  exact discards_replaceTransfer _ _

theorem Discards.num {s t : State} (h : Discards s t) {i k : Nat} (hk : k < 256)
    (hx : (i, k) ∉ [(0x1100, 2), (0xD100, 2)]) : Machine.num t i k = Machine.num s i k := by
  unfold Machine.num
  rw [h.objects i k hk hx]

/-- The partner runs no more of an INIT for the discard of a transfer. -/
theorem partnerRuns_initIn {s : State} {r : Rq} (h5 : r.svc = 3 ∨ r.svc = 5) (h : partnerRuns s r = false) : partnerRuns (initIn s r) r = false := by
  obtain ⟨hh, b, hd⟩ := initIn_cases s r
  have hnum : ∀ k, k < 16 → Machine.num (initIn s r) 0x2000 k = Machine.num s 0x2000 k ∧ Machine.num (initIn s r) 0xF000 k = Machine.num s 0xF000 k := by
    intro k hk
    exact ⟨hd.num (by omega) (by simp), hd.num (by omega) (by simp)⟩
  have hsheaf : (initIn s r).sheaf = s.sheaf := by
    obtain ⟨a, b, e⟩ := hd.rest
    rw [e]
  have hw : ∀ u : State, writtenValue u r = none := by
    intro u
    unfold writtenValue
    dsimp only
    rw [if_neg (by omega), if_neg (by omega)]
  have hexec : executor (initIn s r) r = executor s r := by
    unfold executor objectPartner target
    rw [hw, hw, hsheaf]
    rfl
  have hon : sheafOn (initIn s r) = sheafOn s := by
    unfold sheafOn modeFlag
    rw [(hnum 2 (by decide)).1]
  have hj : joined (initIn s r) = joined s := by
    unfold joined
    rw [(hnum 1 (by decide)).2]
  have hp : pairNo (initIn s r) = pairNo s := by
    unfold pairNo
    rw [hon, (hnum 2 (by decide)).2]
  unfold partnerRuns at h ⊢
  rw [hon, hj, hexec, hp]
  exact h

/-! Services that take no number. -/

/-- A read past its checks hands its value on (R106, R111). -/
theorem readWith_value {s : State} {c : Ctx} {i k : Nat} {d : Desc} {seg : Bool} (lat : Nat) (ok : State → Bytes → Eff) (hd : Dict.find i k = (true, some d))
    (hc : objectChecks s c false i k d none = 0) (hz : seg = false → d.ty ≠ .domain ∧ d.ty ≠ .label ∧ d.size ≤ 24) (hi : i ≠ 0x2310)
    (hr : readConflict s c i k = 0) : readWith s c i k [] seg lat ok = .out (ok s (readBytes s c i k d)) := by
  unfold readWith findObj
  rw [hd]
  dsimp only
  have hsize : ¬((!seg) = true ∧ (d.ty = .domain ∨ (if d.ty = .label then (readBytes s c i k d).length else d.size) > 24)) := by
    cases seg with
    | true => simp
    | false =>
      obtain ⟨h1, h2, h3⟩ := hz rfl
      simp [h1, h2, Nat.not_lt.mpr h3]
  rw [if_neg (by simp [hc]), if_neg (by simp [hr]), if_neg hsize, if_neg (by simp), if_neg hi, if_neg (by simp [hr])]

/-- No read of another object waits (R385). -/
theorem readWith_ne_wait {s : State} {c : Ctx} {i k : Nat} {body : Bytes} {seg : Bool} {lat : Nat} {ok : State → Bytes → Eff} (hi : i ≠ 0x2310) :
    readWith s c i k body seg lat ok ≠ .wait := by
  unfold readWith
  cases findObj i k with
  | error e => simp
  | ok d =>
    dsimp only
    rw [if_neg hi]
    split_ifs <;> simp

/-- A request without a session that takes no number: its work comes to e, and its response waits (R18). -/
theorem anonymous_ordered {s : State} {r : Rq} {e : Eff} (hr : Ready s) (h : Anonymous s r) (hn : isNumbered s r = false)
    (hpr : partnerRuns (initDiscard (takeInput s r) r) r = false) (hw : service (initDiscard (takeInput s r) r) (nobody r) r false ≠ .wait)
    (he : service (count (initDiscard (takeInput s r) r) 0 2 1) (nobody r) r false = .out e) (hs : e.s.seq = s.seq) (ha : e.acts = []) :
    ∃ y, request s r = pushSlot e.s y ∧ Ordered s (pushSlot e.s y) r none e.lat e.code e.body := by
  have hgo := request_orders (x := ⟨0, nobody r, none, false⟩) hr h.toSound hn (sessionCheck_none h.trailer _) rfl hw hpr he
  refine ⟨_, hgo, ⟨?_, ?_, ⟨_, List.mem_append.mpr (.inr (List.mem_singleton.mpr rfl)), ?_⟩⟩⟩
  · show e.s.seq.adm = _
    rw [hs]
  · show e.s.seq.admTime = _
    rw [hs]
  · refine ⟨congrArg Seq.adm hs, rfl, rfl, ?_, rfl, ha, rfl⟩
    show e.s.seq.time + e.lat = _
    rw [hs]

/-- A command that carries such a request, where its work changes no more than w says. -/
theorem exec_ordered {i : Instr} {s : State} {r : Rq} {e : Eff} {y : Slot} (hexec : exec i s = coreCmd (fun s => request s r) s)
    (h : request s r = pushSlot e.s y) (hp : e.s.pending = s.pending) (ho : e.s.otp = s.otp) : exec i s = .next (pushSlot e.s y) :=
  hexec.trans (coreCmd_next h hp ho)

theorem service_readInit (s : State) (c : Ctx) (r : Req) : service s c (reqRq r 3) false = readInitOp s c r.idx r.sub r.body 2 := rfl

theorem service_readSeg (s : State) (c : Ctx) (r : Req) : service s c (reqRq r 4) false = .out (readSegOp s c r.idx r.sub r.body) := rfl

/-- A READ_SEG takes no number (R18). -/
theorem isNumbered_readSeg (s : State) (r : Req) : isNumbered s (reqRq r 4) = false := by
  show recordedRead s (reqRq r 4) = false
  simp [recordedRead, reqRq]

/-- A READ_SEG_INIT captures the value and opens its transfer (R109, R111). -/
theorem readSegInit_captures {s : State} {r : Req} {d : Desc} {q : Rq} {v : Bytes} (hq : q = reqRq r 3) (hr : Ready s) (h : Anonymous s q)
    (hn : isNumbered s q = false) (h16 : (initIn s q).transfers.length < 16) (hd : Dict.find r.idx r.sub = (true, some d))
    (hc : objectChecks (initOrdered s q) (nobody q) false r.idx r.sub d none = 0) (hb : r.body = []) (hi : r.idx ≠ 0x2310)
    (hf : readConflict (initOrdered s q) (nobody q) r.idx r.sub = 0) (hv : v = readBytes (initOrdered s q) (nobody q) r.idx r.sub d) :
    ∃ t, exec (.readSegInit r) s = .next t ∧ Ordered s t q none 2 0 (leBytes 4 v.length) ∧ OthersStand (initIn s q) t [] ∧
      transferOf t q.origin = some ⟨q.origin, none, false, r.idx, r.sub, v.length, 0, 0, [], v, s.seq.admTime, decide (r.idx = 0xDC10)⟩ := by
  obtain ⟨hh, b, hdis⟩ := initIn_cases s q
  obtain ⟨ia, ib, hrest⟩ := hdis.rest
  have hsvc : q.svc = 3 := by rw [hq]; rfl
  have hinit : initDiscard (takeInput s q) q = initIn s q := if_pos (.inl hsvc)
  have hseq : (initOrdered s q).seq = s.seq := by
    unfold initOrdered
    rw [count_seq, hrest]
  have htr : (initOrdered s q).transfers.length < 16 := by
    unfold initOrdered
    rw [count_transfers]
    exact h16
  let x : Transfer := ⟨q.origin, none, false, r.idx, r.sub, v.length, 0, 0, [], v, s.seq.admTime, decide (r.idx = 0xDC10)⟩
  have hgo : service (initOrdered s q) (nobody q) q false = readInitOp (initOrdered s q) (nobody q) r.idx r.sub [] 2 := by
    rw [hq, ← hb]
    exact service_readInit _ _ r
  have hserve : service (initOrdered s q) (nobody q) q false = .out { Eff.ok (setTransfer (initOrdered s q) x) 2 with body := leBytes 4 v.length } := by
    rw [hgo]
    unfold readInitOp
    rw [readWith_value _ _ hd hc (by simp) hi hf, ← hv, openTransfer_room htr, hseq]
    simp only [x, nobody]
  have hnowait : service (initIn s q) (nobody q) q false ≠ .wait := by
    have hgo' : service (initIn s q) (nobody q) q false = readInitOp (initIn s q) (nobody q) r.idx r.sub r.body 2 := by
      rw [hq]
      exact service_readInit _ _ r
    rw [hgo']
    exact readWith_ne_wait hi
  obtain ⟨y, hgo, hord⟩ := anonymous_ordered (e := { Eff.ok (setTransfer (initOrdered s q) x) 2 with body := leBytes 4 v.length }) hr h hn
    (by rw [hinit]; exact partnerRuns_initIn (.inl hsvc) h.here) (by rw [hinit]; exact hnowait) (by rw [hinit]; exact hserve) hseq rfl
  refine ⟨_, exec_ordered (by rw [hq]; rfl) hgo ?_ ?_, hord, ?_, transferOf_setTransfer (initOrdered s q) x⟩
  · show (initOrdered s q).pending = s.pending
    unfold initOrdered
    rw [count_pending, hrest]
  · show (initOrdered s q).otp = s.otp
    unfold initOrdered
    rw [count_otp, hrest]
  · exact fun i k _ _ _ => getObj_count _ _ _ _ i k

/-- The next segment of a value that is read (R110, R113). -/
theorem readSeg_continues {s : State} {r : Req} {q : Rq} {x : Transfer} {p : Bytes} (hq : q = reqRq r 4) (hr : Ready s) (h : Anonymous s q)
    (hx : transferOf s q.origin = some x) (hw : x.writing = false) (hi : x.idx = r.idx) (hk : x.sub = r.sub) (hs : x.sess = none)
    (ht : s.seq.admTime ≤ x.time + 1000000) (hn : x.next < 65536) (hb : r.body = leBytes 2 x.next ++ [0, 0]) (ho : x.next = 0 ∨ x.got ≠ x.total)
    (hhost : x.inHost = true → s.exportRun.map (fun e => e.stream) = some x.buf) (hp : p = (x.buf.drop x.got).take 1024) :
    ∃ t, exec (.readSeg r) s = .next t ∧
      Ordered s t q none 2 0 (leBytes 2 x.next ++ [if x.got + p.length = x.total then 1 else 0, 0] ++ leBytes 2 p.length ++ p) ∧
      transferOf t q.origin = some { x with got := x.got + p.length, next := x.next + 1, lastData := p, time := s.seq.admTime } ∧ OthersStand s t [] := by
  obtain ⟨hh, b, heq⟩ := takeInput_cases s q
  have hsvc : q.svc = 4 := by rw [hq]; rfl
  have hinit : initDiscard (takeInput s q) q = takeInput s q := if_neg (by omega)
  have hseq : (orderedIn s q).seq = s.seq := by
    unfold orderedIn
    rw [count_seq, heq]
  have htr : transferOf (orderedIn s q) q.origin = some x := by
    unfold orderedIn transferOf
    rw [count_transfers, heq]
    exact hx
  have hrun : (orderedIn s q).exportRun = s.exportRun := by
    unfold orderedIn
    rw [count_exportRun, heq]
  have horig : x.origin = q.origin := by simpa using List.find?_some hx
  let x1 : Transfer := { x with got := x.got + p.length, next := x.next + 1, lastData := p, time := s.seq.admTime }
  let e : Eff := { Eff.ok (setTransfer (orderedIn s q) x1) 2 with
    body := leBytes 2 x.next ++ [if x.got + p.length = x.total then 1 else 0, 0] ++ leBytes 2 p.length ++ p }
  have hnum : leNat ((leBytes 2 x.next ++ [0, 0]).take 2) = x.next := by
    rw [show (leBytes 2 x.next ++ [(0 : Byte), 0]).take 2 = leBytes 2 x.next by simp [leBytes]]
    exact leNat_leBytes 2 _ (by omega)
  have hctx : segContext (orderedIn s q) (nobody q) r.idx r.sub false x = 0 := by
    unfold segContext
    rw [if_neg (by simp [hw, hi, hk, hs]), if_neg (by rw [hseq]; omega)]
  have hop : readSegOp (orderedIn s q) (nobody q) r.idx r.sub r.body = e := by
    have hlen : (leBytes 2 x.next ++ [(0 : Byte), 0]).length = 4 := by simp [leBytes_length]
    unfold readSegOp
    rw [show (nobody q).origin = q.origin from rfl, htr, hb]
    dsimp only
    rw [hctx, hnum, hrun]
    have hagain : decide (x.next ≠ 0 ∧ x.next + 1 = x.next) = false := by simp
    rw [hagain, if_neg (by simp), if_neg (by omega), if_neg (by omega), if_neg (by rintro ⟨h1, h2⟩; exact h2 (hhost h1)),
      if_neg (by rintro ⟨-, h1 | ⟨h1, h2⟩⟩ <;> [exact h1 rfl; exact ho.elim h1 (fun h => h h2)])]
    rw [if_neg (by simp), ← hp, hseq]
    simp [e, x1, Lat.read]
  have hserve : service (orderedIn s q) (nobody q) q false = .out e := by
    rw [← hop, hq]
    exact service_readSeg _ _ r
  obtain ⟨y, hgo, hord⟩ := anonymous_ordered (e := e) hr h (by rw [hq]; exact isNumbered_readSeg s r) (by rw [hinit, heq]; exact h.here) (by rw [hinit, hq]; exact fun h => nomatch h)
    (by rw [hinit]; exact hserve) hseq rfl
  refine ⟨_, exec_ordered (by rw [hq]; rfl) hgo ?_ ?_, hord, ?_, ?_⟩
  · show (orderedIn s q).pending = s.pending
    unfold orderedIn
    rw [count_pending, heq]
  · show (orderedIn s q).otp = s.otp
    unfold orderedIn
    rw [count_otp, heq]
  · have := transferOf_setTransfer (orderedIn s q) x1
    rw [show x1.origin = q.origin from horig] at this
    exact this
  · exact fun i k _ _ _ => (getObj_count _ _ _ _ i k).trans (by rw [heq]; rfl)

/-- Settles O8: a read transfer holds what its INIT captured; each segment moves its place on. -/
theorem segmentedReadCompletes : Obligations.segmented_read_completes := by
  unfold Obligations.segmented_read_completes
  exact ⟨fun _ _ _ _ _ hq hr h hn h16 hd hc hb hi hf hv => readSegInit_captures hq hr h hn h16 hd hc hb hi hf hv,
    fun _ _ _ _ _ hq hr h hx hw hi hk hs ht hn hb ho hhost hp => readSeg_continues hq hr h hx hw hi hk hs ht hn hb ho hhost hp⟩

end Sys2Proof.Machine
end

section
/-! SUPPORT. Plain reads, descriptions, random reads and the snapshot (R18, R105, R106, R384, R564). -/

namespace Sys2Proof.Machine

theorem service_read (s : State) (c : Ctx) (r : Req) : service s c (reqRq r 1) false = readOp s c r.idx r.sub r.body 2 := rfl

theorem service_describe (s : State) (c : Ctx) (r : Req) : service s c (reqRq r 0x20) false = .out (describeOp s r.idx r.sub r.body) := rfl

/-- A DESCRIBE takes no number (R18). -/
theorem isNumbered_describe (s : State) (r : Req) : isNumbered s (reqRq r 0x20) = false := by
  show recordedRead s (reqRq r 0x20) = false
  simp [recordedRead, reqRq]

/-- A service other than the INITs discards no transfer (R109). -/
theorem initDiscard_other {s : State} {r : Rq} (h : r.svc ≠ 3 ∧ r.svc ≠ 5) : initDiscard s r = s := if_neg (by omega)

/-- The state in which a plain request is ordered is s but for its input and a count. -/
theorem orderedIn_cases (s : State) (r : Rq) : ∃ h b p, orderedIn s r = { s with host := h, bar := b, perf := p } := by
  obtain ⟨h, b, e⟩ := takeInput_cases s r
  obtain ⟨p, hp⟩ := count_perf (takeInput s r) 0 2 1
  exact ⟨h, b, p, hp.trans (by rw [e])⟩

/-- An anonymous request that changes nothing is answered, and leaves the objects, the store and the sessions (R18). -/
theorem ordered_answers {i : Instr} {s : State} {r : Rq} {body : Bytes} (hexec : exec i s = coreCmd (fun s => request s r) s) (hr : Ready s)
    (h : Anonymous s r) (hsvc : r.svc ≠ 3 ∧ r.svc ≠ 5) (hn : isNumbered s r = false) (hw : service (takeInput s r) (nobody r) r false ≠ .wait)
    (he : service (orderedIn s r) (nobody r) r false = .out { Eff.ok (orderedIn s r) 2 with body := body }) :
    ∃ t, exec i s = .next t ∧ Ordered s t r none 2 0 body ∧ OthersStand s t [] ∧ t.pers = s.pers ∧ t.sessions = s.sessions := by
  obtain ⟨hh, b, heq⟩ := takeInput_cases s r
  obtain ⟨hh, b, p, hin⟩ := orderedIn_cases s r
  obtain ⟨y, hgo, hord⟩ := anonymous_ordered (e := { Eff.ok (orderedIn s r) 2 with body := body }) hr h hn
    (by rw [initDiscard_other hsvc, heq]; exact h.here) (by rw [initDiscard_other hsvc]; exact hw) (by rw [initDiscard_other hsvc]; exact he)
    (by show (orderedIn s r).seq = s.seq; rw [hin]) rfl
  refine ⟨_, exec_ordered hexec hgo ?_ ?_, hord, ?_, ?_, ?_⟩
  · show (orderedIn s r).pending = s.pending
    rw [hin]
  · show (orderedIn s r).otp = s.otp
    rw [hin]
  · intro i k _ _ _
    show getObj (orderedIn s r) i k = _
    rw [hin]
    rfl
  · show (orderedIn s r).pers = s.pers
    rw [hin]
  · show (orderedIn s r).sessions = s.sessions
    rw [hin]

/-- READ (R106). -/
theorem read_answers {s : State} {r : Req} {d : Desc} {q : Rq} (hq : q = reqRq r 1) (hr : Ready s) (h : Anonymous s q) (hn : isNumbered s q = false)
    (hd : Dict.find r.idx r.sub = (true, some d)) (hc : objectChecks (orderedIn s q) (nobody q) false r.idx r.sub d none = 0)
    (hz : d.ty ≠ .domain ∧ d.ty ≠ .label ∧ d.size ≤ 24) (hb : r.body = []) (hi : r.idx ≠ 0x2310)
    (hf : readConflict (orderedIn s q) (nobody q) r.idx r.sub = 0) :
    ∃ t, exec (.read r) s = .next t ∧
      Ordered s t q none 2 0 (leBytes 2 (readBytes (orderedIn s q) (nobody q) r.idx r.sub d).length ++ readBytes (orderedIn s q) (nobody q) r.idx r.sub d) ∧
      OthersStand s t [] ∧ t.pers = s.pers ∧ t.sessions = s.sessions := by
  have hgo : ∀ u, service u (nobody q) q false = readOp u (nobody q) r.idx r.sub r.body 2 := by
    intro u
    rw [hq]
    exact service_read _ _ r
  refine ordered_answers (by rw [hq]; rfl) hr h (by rw [hq]; simp [reqRq]) hn ?_ ?_
  · rw [hgo]
    exact readWith_ne_wait hi
  · rw [hgo, hb]
    exact readWith_value 2 _ hd hc (fun _ => hz) hi hf

/-- DESCRIBE (R105). -/
theorem describe_answers {s : State} {r : Req} {d : Desc} {q : Rq} (hq : q = reqRq r 0x20) (hr : Ready s) (h : Anonymous s q)
    (hd : Dict.find r.idx r.sub = (true, some d)) (hb : r.body = []) :
    ∃ t, exec (.describe r) s = .next t ∧ Ordered s t q none 2 0 (Fld.describe d) ∧ OthersStand s t [] ∧ t.pers = s.pers ∧ t.sessions = s.sessions := by
  have hgo : ∀ u, service u (nobody q) q false = .out (describeOp u r.idx r.sub r.body) := by
    intro u
    rw [hq]
    exact service_describe _ _ r
  refine ordered_answers (by rw [hq]; rfl) hr h (by rw [hq]; simp [reqRq]) (by rw [hq]; exact isNumbered_describe s r) ?_ ?_
  · rw [hgo]
    simp
  · rw [hgo, hb]
    unfold describeOp findObj
    rw [hd]
    simp [Lat.read]

/-- A read of 0xE100.01 takes no number and passes its checks (R562, R564). -/
theorem isNumbered_snapshot (s : State) (h : Hdr) : isNumbered s (hdrRq h 3 0xE100 1 []) = false := by
  show recordedRead s (hdrRq h 3 0xE100 1 []) = false
  have h1 : (decide (((Dict.find 0xE100 1).2.map (·.role)) = some Role.service)) = false := by decide
  have h2 : isSendRecv 0xE100 1 = false := by decide
  unfold recordedRead hdrRq
  dsimp only
  rw [h1, h2]
  simp

/-- The objects of the snapshot (R564) and of the random reads (R384). -/
def snapshotDesc : Desc := ⟨.domain, 408, .ro, .any, false, false, .oct []⟩
def randomDesc (k : Nat) : Desc :=
  if k = 3 then ⟨.domain, 1024, .ro, .operator, false, false, .oct []⟩ else ⟨.octets, randomSize k, .ro, .operator, false, false, .oct (zeros (randomSize k))⟩

theorem find_snapshot : Dict.find 0xE100 1 = (true, some snapshotDesc) := by decide

theorem find_random {k : Nat} (hk : k = 1 ∨ k = 2 ∨ k = 3) : Dict.find 0x2310 k = (true, some (randomDesc k)) := by
  rcases hk with rfl | rfl | rfl <;> decide

/-- A read of an object that no check but that of its role concerns (R98, R99). -/
theorem objectChecks_read {s : State} {c : Ctx} {i k : Nat} {d : Desc} (hs : s.stage = 0x11) (ha : d.acc = .ro) (hl : lifecycleCheck s false i k = 0)
    (hr : roleCheck s c false i k d none = 0) (hm : modeCheck s c false i k d = 0) : objectChecks s c false i k d none = 0 := by
  have h2 : stateCheck s false i k d = 0 := by simp [stateCheck, hs]
  have h3 : accessCheck false d = 0 := by simp [accessCheck, ha]
  simp [objectChecks, hl, h2, h3, hr, hm]

theorem snapshot_checks {s : State} {c : Ctx} (hs : s.stage = 0x11) : objectChecks s c false 0xE100 1 snapshotDesc none = 0 :=
  objectChecks_read hs rfl (by simp [lifecycleCheck]) (by simp [roleCheck, roleInForce, snapshotDesc, isSendRecv, ownerCheck])
    (by simp [modeCheck, snapshotDesc, isSendRecv])

/-- The snapshot (R562, R564). -/
theorem snapshot_captures {s : State} {h : Hdr} {q : Rq} (hq : q = hdrRq h 3 0xE100 1 []) (hr : Ready s) (ha : Anonymous s q)
    (ht : transferOf s q.origin = none) (h16 : s.transfers.length < 16) :
    ∃ t, exec (.snapshot h) s = .next t ∧ Ordered s t q none 2 0 (leBytes 4 (Prf.snapshot (orderedIn s q)).length) ∧
      ∃ x, transferOf t q.origin = some x ∧ x.buf = Prf.snapshot (orderedIn s q) ∧ x.writing = false := by
  obtain ⟨hh, b, heq⟩ := takeInput_cases s q
  obtain ⟨hh', b', p, hin⟩ := orderedIn_cases s q
  have hdis : initDiscard (takeInput s q) q = takeInput s q := initDiscard_same (by rw [heq]; exact .inl ht)
  have hgo : ∀ u, service u (nobody q) q false = readInitOp u (nobody q) 0xE100 1 [] 2 := by
    intro u
    rw [hq]
    rfl
  have hbytes : readBytes (orderedIn s q) (nobody q) 0xE100 1 snapshotDesc = Prf.snapshot (orderedIn s q) := rfl
  have hstage : (orderedIn s q).stage = 0x11 := by rw [hin]; exact hr.stage
  let x : Transfer := ⟨q.origin, none, false, 0xE100, 1, (Prf.snapshot (orderedIn s q)).length, 0, 0, [], Prf.snapshot (orderedIn s q), (orderedIn s q).seq.admTime, false⟩
  have hserve : service (orderedIn s q) (nobody q) q false =
      .out { Eff.ok (setTransfer (orderedIn s q) x) 2 with body := leBytes 4 (Prf.snapshot (orderedIn s q)).length } := by
    rw [hgo]
    unfold readInitOp
    rw [readWith_value _ _ find_snapshot (snapshot_checks hstage) (by simp) (by decide) (by simp [readConflict]), hbytes,
      openTransfer_room (by rw [hin]; exact h16)]
    simp [x, nobody]
  obtain ⟨y, hreq, hord⟩ := anonymous_ordered (e := { Eff.ok (setTransfer (orderedIn s q) x) 2 with body := leBytes 4 (Prf.snapshot (orderedIn s q)).length }) hr ha
    (by rw [hq]; exact isNumbered_snapshot s h) (by rw [hdis, heq]; exact ha.here) (by rw [hdis, hgo]; exact readWith_ne_wait (by decide))
    (by rw [hdis]; exact hserve) (by show (orderedIn s q).seq = s.seq; rw [hin]) rfl
  refine ⟨_, exec_ordered (by rw [hq]; rfl) hreq ?_ ?_, hord, x, transferOf_setTransfer (orderedIn s q) x, rfl, rfl⟩
  · show (orderedIn s q).pending = s.pending
    rw [hin]
  · show (orderedIn s q).otp = s.otp
    rw [hin]

/-! Random reads. -/

/-- A read of a random object takes no number (R385). -/
theorem isNumbered_random (s : State) (h : Hdr) {svc k : Nat} (hs : svc = 1 ∨ svc = 3) : isNumbered s (hdrRq h svc 0x2310 k []) = false := by
  have hgo : isNumbered s (hdrRq h svc 0x2310 k []) = recordedRead s (hdrRq h svc 0x2310 k []) := by rcases hs with rfl | rfl <;> rfl
  rw [hgo]
  simp [recordedRead, hdrRq, isSendRecv]

/-- A buffer that holds enough gives its first bytes, and keeps the rest (R384). -/
theorem takeBuffer_cases {s u : State} {t n : Nat} {b : Bytes} (h : takeBuffer s t n = some (b, u)) : u = { s with rng := u.rng } := by
  unfold takeBuffer at h
  dsimp only at h
  split_ifs at h
  cases h
  rfl

theorem randomDesc_role {k : Nat} : (randomDesc k).role = .operator := by
  unfold randomDesc
  split_ifs <;> rfl

theorem randomDesc_acc {k : Nat} : (randomDesc k).acc = .ro := by
  unfold randomDesc
  split_ifs <;> rfl

theorem random_checks {s : State} {c : Ctx} {k n : Nat} (hs : s.stage = 0x11) (hc : c.role = some n) (hn : n = 1 ∨ n = 2) :
    objectChecks s c false 0x2310 k (randomDesc k) none = 0 := by
  refine objectChecks_read hs randomDesc_acc (by simp [lifecycleCheck]) ?_ ?_
  · have hin : roleInForce s false 0x2310 k (randomDesc k) = .operator := by simp [roleInForce, randomDesc_role]
    simp [roleCheck, hin, hc, hn, isSendRecv, ownerCheck]
  · simp [modeCheck, isSendRecv]

/-- A read of a random object past its checks: the first bytes of its tiller's buffer (R384, R385). -/
theorem readWith_random {s u : State} {c : Ctx} {k : Nat} {b : Bytes} {seg : Bool} {lat : Nat} {ok : State → Bytes → Eff} (hk : k = 1 ∨ k = 2 ∨ k = 3)
    (hc : objectChecks s c false 0x2310 k (randomDesc k) none = 0) (hseg : seg = false → k ≠ 3) (hup : s.entropyDown = false)
    (hi : instantiated s (48 + c.slot.getD 0 % 12) = true) (hb : takeBuffer s (48 + c.slot.getD 0 % 12) (randomSize k) = some (b, u)) :
    readWith s c 0x2310 k [] seg lat ok = .out { ok u b with random := true } := by
  have hdraw : randomRead s (c.slot.getD 0) (randomSize k) = some (.ok (b, u)) := by
    unfold randomRead
    rw [hup]
    dsimp only
    rw [if_neg (by simp), hi, hb]
    rfl
  have hsize : ¬((!seg) = true ∧ ((randomDesc k).ty = .domain ∨ (if (randomDesc k).ty = .label then (readBytes s c 0x2310 k (randomDesc k)).length else (randomDesc k).size) > 24)) := by
    cases seg with
    | true => simp
    | false => rcases hk with rfl | rfl | rfl <;> simp_all [randomDesc, randomSize]
  unfold readWith findObj
  rw [find_random hk]
  dsimp only
  rw [if_neg (by simp [hc]), if_neg (by simp), if_neg hsize, if_neg (by simp), if_pos rfl, hdraw]

/-- An authentic request that takes no number: its work comes to e, and its response waits (R18, R120). -/
theorem authentic_ordered {s : State} {r : Rq} {tr : Trailer} {z : Session} {e : Eff} (hr : Ready s) (h : Authentic s r tr z)
    (hn : isNumbered s r = false) (hi : transferOf s r.origin = none ∨ (r.svc ≠ 3 ∧ r.svc ≠ 5)) (hlate : s.seq.admTime ≤ s.seq.time)
    (hw : service (takeInput s r) (callerOf r tr z) r false ≠ .wait) (he : service (orderedIn s r) (callerOf r tr z) r false = .out e)
    (hs : e.s.seq = s.seq) (ha : e.acts = []) :
    ∃ y n, request s r = pushSlot (claimMasks e.s n) y ∧ Ordered s (pushSlot (claimMasks e.s n) y) r (some z) e.lat e.code e.body := by
  obtain ⟨y, n, hgo, hadm, hnum, horig, hdue, hcode, hacts, hresp⟩ := authentic_orders hr h hn hi hlate hw he
  refine ⟨y, n, hgo, ⟨?_, ?_, ⟨_, List.mem_append.mpr (.inr (List.mem_singleton.mpr rfl)), ?_⟩⟩⟩
  · show e.s.seq.adm = _
    rw [hs]
  · show e.s.seq.admTime = _
    rw [hs]
  · exact ⟨hadm.trans (congrArg Seq.adm hs), hnum, horig, hdue.trans (by rw [hs]), hcode, hacts.trans ha, hresp⟩

/-- What a random read leaves: its buffer drawn on, and nothing of the dictionary changed (R384, R385). -/
theorem random_answers {i : Instr} {s u : State} {q : Rq} {tr : Trailer} {z : Session} {e : Eff} {b : Bytes} {k : Nat} (hexec : exec i s = coreCmd (fun s => request s q) s)
    (hc : Client s q tr z .operator) (hn : isNumbered s q = false) (hlate : s.seq.admTime ≤ s.seq.time) (ht : transferOf s q.origin = none)
    (hb : takeBuffer (orderedIn s q) (48 + tr.slot % 12) (randomSize k) = some (b, u)) (hw : service (takeInput s q) (callerOf q tr z) q false ≠ .wait)
    (he : service (orderedIn s q) (callerOf q tr z) q false = .out e) (hs : e.s = { u with transfers := e.s.transfers }) (ha : e.acts = []) :
    ∃ t, exec i s = .next t ∧ t.rng = { u.rng with masks := t.rng.masks } ∧ OthersStand s t [] ∧ Ordered s t q (some z) e.lat e.code e.body ∧
      t.transfers = e.s.transfers := by
  obtain ⟨hh, b', p, hin⟩ := orderedIn_cases s q
  have hu := takeBuffer_cases hb
  rw [hin] at hu
  rw [hu] at hs
  obtain ⟨y, n, hgo, hord⟩ := authentic_ordered hc.ready hc.authentic hn (.inl ht) hlate hw he (by rw [hs]) ha
  refine ⟨_, hexec.trans (coreCmd_next hgo ?_ ?_), ?_, ?_, hord, rfl⟩
  · show e.s.pending = s.pending
    rw [hs]
  · show e.s.otp = s.otp
    rw [hs]
  · have hrng : e.s.rng = u.rng := by rw [hs]
    show (claimMasks e.s n).rng = { u.rng with masks := (claimMasks e.s n).rng.masks }
    rw [← hrng]
    rfl
  · intro i k _ _ _
    show getObj e.s i k = _
    rw [hs]
    rfl

theorem takeBuffer_congr {s v u : State} {t n : Nat} {b : Bytes} (h : v.rng = s.rng) (hb : takeBuffer s t n = some (b, u)) :
    ∃ u', takeBuffer v t n = some (b, u') := by
  have ht : tillerOf v t = tillerOf s t := by unfold tillerOf; rw [h]
  unfold takeBuffer at hb ⊢
  dsimp only at hb ⊢
  rw [ht]
  split_ifs at hb ⊢
  cases hb
  exact ⟨_, rfl⟩

section
variable {s u : State} {h : Hdr} {tr : Trailer} {z : Session} {b : Bytes} {q : Rq}

/-- The value of a random object in the state in which it is read, and before (R385). -/
theorem reads_random {k : Nat} {seg : Bool} {lat : Nat} {ok : State → Bytes → Eff} (hk : k = 1 ∨ k = 2 ∨ k = 3) (hseg : seg = false → k ≠ 3)
    (hc : Client s q tr z .operator) (hi : instantiated s (48 + tr.slot % 12) = true)
    (hb : takeBuffer (orderedIn s q) (48 + tr.slot % 12) (randomSize k) = some (b, u)) :
    readWith (takeInput s q) (callerOf q tr z) 0x2310 k [] seg lat ok ≠ .wait ∧
    readWith (orderedIn s q) (callerOf q tr z) 0x2310 k [] seg lat ok = .out { ok u b with random := true } := by
  obtain ⟨hh, b0, hin0⟩ := takeInput_cases s q
  obtain ⟨hh', b', p, hin⟩ := orderedIn_cases s q
  have hrole : z.role = 1 ∨ z.role = 2 := by simpa [roleServes] using hc.role
  obtain ⟨u', hb'⟩ := takeBuffer_congr (v := takeInput s q) (by rw [hin0, hin]) hb
  constructor
  · rw [readWith_random hk (random_checks (by rw [hin0]; exact hc.ready.stage) rfl hrole) hseg (by rw [hin0]; exact hc.ready.source)
      (by rw [hin0]; exact hi) hb']
    simp
  · exact readWith_random hk (random_checks (by rw [hin]; exact hc.ready.stage) rfl hrole) hseg (by rw [hin]; exact hc.ready.source)
      (by rw [hin]; exact hi) hb

/-- A short random read (R384). -/
theorem random_short {sub : Fin 3} (hsub : sub ≠ 2) (hq : q = hdrRq h 1 0x2310 (sub.val + 1) []) (hc : Client s q tr z .operator)
    (hlate : s.seq.admTime ≤ s.seq.time) (ht : transferOf s q.origin = none) (hi : instantiated s (48 + tr.slot % 12) = true)
    (hb : takeBuffer (orderedIn s q) (48 + tr.slot % 12) (randomSize (sub.val + 1)) = some (b, u)) :
    ∃ t, exec (.randomRead h sub) s = .next t ∧ t.rng = { u.rng with masks := t.rng.masks } ∧ OthersStand s t [] ∧
      Ordered s t q (some z) 2 0 (leBytes 2 b.length ++ b) := by
  have hk : sub.val + 1 = 1 ∨ sub.val + 1 = 2 ∨ sub.val + 1 = 3 := by omega
  have hgo : ∀ v, service v (callerOf q tr z) q false = readOp v (callerOf q tr z) 0x2310 (sub.val + 1) [] 2 := by
    intro v
    rw [hq]
    rfl
  obtain ⟨hw, he⟩ := reads_random (seg := false) (lat := 2) (ok := fun t v => { Eff.ok t 2 with body := leBytes 2 v.length ++ v }) hk
    (fun _ h3 => hsub (Fin.ext (by simpa using h3))) hc hi hb
  have hexec : exec (.randomRead h sub) s = coreCmd (fun s => request s q) s := by
    rw [hq]
    show coreCmd (fun s => request s (hdrRq h (if sub = 2 then 3 else 1) 0x2310 (sub.val + 1) [])) s = _
    rw [if_neg hsub]
  obtain ⟨t, h1, h2, h3, h4, -⟩ := random_answers (e := { Eff.ok u 2 with body := leBytes 2 b.length ++ b, random := true }) hexec hc
    (by rw [hq]; exact isNumbered_random s h (.inl rfl)) hlate ht hb (by rw [hgo]; exact hw) (by rw [hgo]; exact he) rfl rfl
  exact ⟨t, h1, h2, h3, h4⟩

/-- A random block is captured in a transfer (R384). -/
theorem random_block (hq : q = hdrRq h 3 0x2310 3 []) (hc : Client s q tr z .operator) (hlate : s.seq.admTime ≤ s.seq.time)
    (ht : transferOf s q.origin = none) (h16 : s.transfers.length < 16) (hi : instantiated s (48 + tr.slot % 12) = true)
    (hb : takeBuffer (orderedIn s q) (48 + tr.slot % 12) (randomSize 3) = some (b, u)) :
    ∃ t, exec (.randomRead h 2) s = .next t ∧ t.rng = { u.rng with masks := t.rng.masks } ∧ OthersStand s t [] ∧
      Ordered s t q (some z) 2 0 (leBytes 4 b.length) ∧ ∃ x, transferOf t q.origin = some x ∧ x.buf = b ∧ x.writing = false := by
  obtain ⟨hh', b', p, hin⟩ := orderedIn_cases s q
  have hu := takeBuffer_cases hb
  let x : Transfer := ⟨q.origin, some tr.slot, false, 0x2310, 3, b.length, 0, 0, [], b, u.seq.admTime, false⟩
  have hgo : ∀ v, service v (callerOf q tr z) q false = readInitOp v (callerOf q tr z) 0x2310 3 [] 2 := by
    intro v
    rw [hq]
    rfl
  obtain ⟨hw, he⟩ := reads_random (seg := true) (lat := 2) (ok := fun t v => openTransfer t ⟨q.origin, some tr.slot, false, 0x2310, 3, v.length, 0, 0, [], v,
    t.seq.admTime, false⟩ 2 (leBytes 4 v.length)) (.inr (.inr rfl)) (by simp) hc hi hb
  rw [openTransfer_room (by rw [hu, hin]; exact h16)] at he
  obtain ⟨t, h1, h2, h3, h4, h5⟩ := random_answers (e := { Eff.ok (setTransfer u x) 2 with body := leBytes 4 b.length, random := true })
    (i := .randomRead h 2) (by rw [hq]; rfl) hc (by rw [hq]; exact isNumbered_random s h (.inr rfl)) hlate ht hb (by rw [hgo]; exact hw)
    (by rw [hgo]; exact he) rfl rfl
  have hx : transferOf t q.origin = transferOf (setTransfer u x) x.origin := by unfold transferOf; rw [h5]; rfl
  exact ⟨t, h1, h2, h3, h4, x, hx.trans (transferOf_setTransfer u x), rfl, rfl⟩

end

/-- Settles O7: a read that takes no number shows the state in which it is ordered, and changes no object. -/
theorem orderedReadsComplete : Obligations.ordered_reads_complete := by
  unfold Obligations.ordered_reads_complete
  refine ⟨⟨?_, ?_⟩, ?_, ?_⟩
  · exact fun s r d q hq hr h hn hd hc h1 h2 h3 hb hi hf => read_answers hq hr h hn hd hc ⟨h1, h2, h3⟩ hb hi hf
  · exact fun s r d q hq hr h hd hb => describe_answers hq hr h hd hb
  · intro s h sub tr z q b u hq hc _ hlate ht h16 hi hb
    by_cases hsub : sub = 2
    · subst hsub
      obtain ⟨t, h1, h2, h3, h4, h5⟩ := random_block hq hc hlate ht h16 hi hb
      exact ⟨t, h1, h2, h3, fun hne => absurd rfl hne, fun _ => ⟨h4, h5⟩⟩
    · rw [if_neg hsub] at hq
      have hsize : randomSize (sub.val + 1) = if sub = 0 then 16 else if sub = 1 then 24 else 1024 := (by decide : ∀ x : Fin 3, randomSize (x.val + 1) = if x = 0 then 16 else if x = 1 then 24 else 1024) sub
      obtain ⟨t, h1, h2, h3, h4⟩ := random_short hsub hq hc hlate ht hi (by rw [hsize]; exact hb)
      exact ⟨t, h1, h2, h3, fun _ => h4, fun heq => absurd heq hsub⟩
  · exact fun s h q hq hr ha ht h16 => snapshot_captures hq hr ha ht h16

end Sys2Proof.Machine
end

section
/-! SUPPORT. The INIT of a segmented write (R109, R111). -/

namespace Sys2Proof.Machine

/-- The discard that an INIT brings keeps what check 4 looks at. -/
theorem Discards.checks {s t : State} (h : Discards s t) : t.sessions = s.sessions ∧ t.seq = s.seq ∧ t.entropyDown = s.entropyDown ∧ t.sheaf = s.sheaf ∧
    t.pending = s.pending ∧ t.otp = s.otp ∧ t.stage = s.stage ∧ t.audit = s.audit ∧ t.streams = s.streams ∧
    ∀ k z, Session.keys t k z = Session.keys s k z := by
  obtain ⟨⟨a, b, e⟩, -⟩ := h
  exact ⟨by rw [e], by rw [e], by rw [e], by rw [e], by rw [e], by rw [e], by rw [e], by rw [e], by rw [e],
    keys_congr (by rw [e]) (by rw [e]) (by rw [e]) (by rw [e]) (by rw [e])⟩

/-- Check 4 of an INIT in the state that its discard leaves, or in that of its number. -/
theorem sessionCheck_init {s u : State} {r : Rq} {tr : Trailer} {z : Session} {t : Nat} (hr : Ready s) (h : Authentic s r tr z) (ht : t ≤ s.seq.time)
    (hs : u.sessions = s.sessions) (hk : ∀ k z, Session.keys u k z = Session.keys s k z) (he : u.entropyDown = s.entropyDown)
    (hn : ∀ i k, k < 256 → (i, k) ∉ [(0x1100, 2), (0xD100, 2)] → num u i k = num s i k) :
    sessionCheck u r t = ⟨0, callerOf r tr z, some tr.slot, false⟩ := by
  apply sessionCheck_ok h ht hs (hk _ _)
  · unfold idleLimit
    rw [hn _ _ (by decide) (by decide)]
  · unfold entropyOk
    rw [hn _ _ (by decide) (by decide), he]
    simp [hr.source, hr.entropy]
  · unfold cipherUp
    rw [hn _ _ (by decide) (by decide), hr.lane]
    rfl

theorem service_writeInit (s : State) (c : Ctx) (r : Req) (n : Bool) : service s c (reqRq r 5) n = .out (writeInitOp s c r.idx r.sub r.body) := rfl

/-- The transfer that an INIT of n bytes opens on a session. -/
def openedBy (r : Rq) (tr : Trailer) (i k n now : Nat) : Transfer := ⟨r.origin, some tr.slot, true, i, k, n, 0, 0, [], [], now, false⟩

/-- The INIT of a write past its checks, where there is room and no concurrence is spent (R109). -/
theorem writeInit_opens {s u : State} {r : Rq} {tr : Trailer} {z : Session} {i k n : Nat} {d : Desc} (hd : Dict.find i k = (true, some d)) (hn : n < 4294967296)
    (h0 : n ≠ 0) (hc : objectChecks s (callerOf r tr z) true i k d (if d.ty = .domain then some none else none) = 0)
    (hsize : if d.ty = .domain ∨ d.ty = .label then n ≤ d.size else n = d.size) (hu : (if d.ty = .domain then domainInit s (callerOf r tr z) i k n else .ok s) = .ok u)
    (h16 : u.transfers.length < 16) (hp : roleInForce s true i k d ≠ .pair) :
    writeInitOp s (callerOf r tr z) i k (leBytes 4 n) = Eff.ok (setTransfer u (openedBy r tr i k n s.seq.admTime)) (initLat i k) := by
  have hlen : (leBytes 4 n).length = 4 := leBytes_length 4 n
  have hnum : leNat (leBytes 4 n) = n := leNat_leBytes 4 n hn
  unfold writeInitOp findObj
  rw [hd]
  simp only [hlen, hnum, decide_eq_true_eq, hc, hu, hp]
  have hs : (decide (n ≠ 0) && (if (decide (d.ty = .domain) || decide (d.ty = .label)) = true then decide (n ≤ d.size) else decide (n = d.size))) = true := by
    by_cases h : d.ty = .domain ∨ d.ty = .label
    · rw [if_pos h] at hsize
      simp [h, h0, hsize]
    · rw [if_neg h] at hsize
      simp [h, h0, ← hsize]
  simp only [hs]
  simp [Eff.ok, openedBy, callerOf, openTransfer_room h16]

/-- The INIT of an object that is no DOMAIN is ordered on its session, after the discard of what its origin had open (R18, R109). -/
theorem init_orders {s : State} {r : Rq} {tr : Trailer} {z : Session} {e : Eff} (hr : Ready s) (h : Authentic s r tr z) (h5 : r.svc = 5)
    (hn : isNumbered s r = false) (hlate : s.seq.admTime ≤ s.seq.time) (hw : service (initIn s r) (callerOf r tr z) r false ≠ .wait)
    (he : service (initOrdered s r) (callerOf r tr z) r false = .out e) (hs : e.s.seq = s.seq) (ha : e.acts = []) :
    ∃ y n, request s r = pushSlot (claimMasks e.s n) y ∧ Ordered s (pushSlot (claimMasks e.s n) y) r (some z) e.lat e.code e.body := by
  obtain ⟨hh, b, hdis⟩ := initIn_cases s r
  have hid : initDiscard (takeInput s r) r = initIn s r := if_pos (.inr h5)
  obtain ⟨hsess, hseq, hent, -, -, -, -, -, -, hkeys⟩ := hdis.checks
  have hx : sessionCheck (initDiscard (takeInput s r) r) r (initDiscard (takeInput s r) r).seq.admTime = ⟨0, callerOf r tr z, some tr.slot, false⟩ := by
    rw [hid]
    exact sessionCheck_init hr h (by rw [hseq]; exact hlate) hsess hkeys hent fun i k hk hx => hdis.num hk hx
  have hkey : sealKey (initDiscard (takeInput s r) r) r = sessionKey s tr.slot z := by
    rw [hid, ← sealKey_of h.trailer h.slot]
    exact trailerKey_congr hsess hkeys _
  have hgo := request_orders (x := ⟨0, callerOf r tr z, some tr.slot, false⟩) hr h.toSound hn hx rfl (by rw [hid]; exact hw)
    (by rw [hid]; exact partnerRuns_initIn (.inr h5) h.here) (by rw [hid]; exact he)
  rw [hkey] at hgo
  refine ⟨_, _, hgo, ⟨?_, ?_, ⟨_, List.mem_append.mpr (.inr (List.mem_singleton.mpr rfl)), ?_⟩⟩⟩
  · show e.s.seq.adm = _
    rw [hs]
  · show e.s.seq.admTime = _
    rw [hs]
  · refine ⟨congrArg Seq.adm hs, rfl, rfl, ?_, rfl, ha, ?_⟩
    · show e.s.seq.time + e.lat = _
      rw [hs]
    · show some _ = some (answer s r (some z) e.code e.body)
      unfold answer
      rw [h.trailer]
      rfl

section
variable {s u : State}

theorem Steady.withTransfers (h : Steady s u) (ts : List Transfer) : Steady s { u with transfers := ts } := ⟨h.adm, h.time, h.first, h.queue, h.fuses⟩
theorem Steady.withStreams (h : Steady s u) (x : SMap Stream) : Steady s { u with streams := x } := ⟨h.adm, h.time, h.first, h.queue, h.fuses⟩
theorem Steady.withPles (h : Steady s u) (x : SMap Ple) : Steady s { u with ples := x } := ⟨h.adm, h.time, h.first, h.queue, h.fuses⟩
theorem Steady.withTwc (h : Steady s u) (x : Twc) : Steady s { u with twc := x } := ⟨h.adm, h.time, h.first, h.queue, h.fuses⟩
theorem Steady.withPers (h : Steady s u) (p : Pers) : Steady s { u with pers := p } := ⟨h.adm, h.time, h.first, h.queue, h.fuses⟩
theorem Steady.withSessions (h : Steady s u) (x : SMap Session) : Steady s { u with sessions := x } := ⟨h.adm, h.time, h.first, h.queue, h.fuses⟩
theorem Steady.withRng (h : Steady s u) (x : Rng) : Steady s { u with rng := x } := ⟨h.adm, h.time, h.first, h.queue, h.fuses⟩
theorem Steady.withHw (h : Steady s u) (x : SMap Nat) : Steady s { u with hw := x } := ⟨h.adm, h.time, h.first, h.queue, h.fuses⟩

theorem Steady.setImage (h : Steady s u) (x : Nat) (im : Image) : Steady s (setImage u x im) := h.withPers _

theorem Steady.streamInit (h : Steady s u) (f n : Nat) : Steady s (streamInit u f n).1 := by
  unfold Machine.streamInit
  dsimp only
  split_ifs
  · exact h
  · exact h
  · exact h
  · exact h.withStreams _

/-- What an INIT of a DOMAIN does keeps the admission (R130, R274, R305, R437). -/
theorem Steady.domainInit {c : Ctx} {i k n : Nat} {v : State} (h : Steady s u) (hv : domainInit u c i k n = .ok v) : Steady s v := by
  unfold Machine.domainInit at hv
  dsimp only at hv
  by_cases hchan : 0x4000 ≤ i ∧ i < 0xC000
  · rw [if_pos hchan] at hv
    split_ifs at hv
    cases hv
    exact h
  by_cases hstream : 0xCF00 ≤ i ∧ i < 0xCF10
  · rw [if_neg hchan, if_pos hstream] at hv
    split_ifs at hv with hk hn h0
    · cases hv
      exact h
    · cases hv
      exact h.streamInit _ _
  by_cases hple : 0xCF30 ≤ i ∧ i < 0xCF38
  · rw [if_neg hchan, if_neg hstream, if_pos hple] at hv
    split_ifs at hv <;> cases hv
    · exact (((h.setNum _ _ _).setNum _ _ _).withTransfers _).withPles _
    · exact (h.withTransfers _).withPles _
  rw [if_neg hchan, if_neg hstream, if_neg hple] at hv
  split at hv
  · cases hv
    exact (h.setImage _ _).setNum _ _ _
  · split_ifs at hv
    cases hv
    exact (h.withTwc _).setNum _ _ _
  · cases hv
    exact h

end

/-- The log takes in an INIT after its discard as before it (R201). -/
theorem auditHolds_init {s : State} {r : Rq} (h5 : r.svc = 5) (h : auditHolds s (requestIn s r) = false) : auditHolds (initIn s r) (requestIn (initIn s r) r) = false := by
  obtain ⟨hh, b, hdis⟩ := initIn_cases s r
  obtain ⟨-, -, -, hsheaf, -, -, -, haudit, -, -⟩ := hdis.checks
  have hnum : ∀ i k, k < 256 → (i, k) ∉ [(0x1100, 2), (0xD100, 2)] → num (initIn s r) i k = num s i k :=
    fun i k hk hx => hdis.num hk hx
  have hlen : ∀ v, (requestIn v r).payload = r.bytes ∧ (requestIn v r).excepted = false := by
    intro v
    unfold requestIn auditPayload
    dsimp only
    rw [if_neg (by omega), if_neg (by omega)]
    exact ⟨rfl, by simp; omega⟩
  have hkeeps : keepsLog (initIn s r) = keepsLog s := by
    unfold keepsLog auditOn sheafOn modeFlag
    rw [hnum _ _ (by decide) (by decide), hnum _ _ (by decide) (by decide), hnum _ _ (by decide) (by decide)]
  have hbytes : auditBytes (initIn s r) = auditBytes s := by
    unfold auditBytes
    rw [haudit]
  have hhold : inHold (initIn s r) = inHold s := by
    unfold inHold
    rw [hkeeps, hnum _ _ (by decide) (by decide), haudit, hbytes]
  unfold auditHolds at h ⊢
  rw [hkeeps, hnum _ _ (by decide) (by decide), hhold, hbytes, (hlen _).1, (hlen _).2]
  rw [(hlen s).1, (hlen s).2] at h
  exact h

theorem isDomain_of {i k : Nat} {d : Desc} (hd : Dict.find i k = (true, some d)) : isDomain i k = decide (d.ty = .domain) := by
  unfold isDomain
  rw [hd]
  rfl

/-- Outside a pair no write of such a client needs a concurrence (R549). -/
theorem roleInForce_alone {u : State} {d : Desc} {n i k : Nat} (hs : num u 0x2000 2 = 0) (hz : roleServes d.role n = true) : roleInForce u true i k d ≠ .pair := by
  unfold roleInForce
  rw [sheafOn_alone hs]
  intro h
  simp only [Bool.not_false, ↓reduceIte] at h
  rw [h] at hz
  cases hz

section
variable {s : State} {r : Req} {tr : Trailer} {z : Session} {d : Desc} {n : Nat} {q : Rq}

/-- The INIT of an object that is no DOMAIN: ordered, and answered after 2 us (R18, R109). -/
theorem writeSegInit_orders (hq : q = reqRq r 5) (hc : Client s q tr z d.role) (ho : Open s) (hd : Dict.find r.idx r.sub = (true, some d))
    (hb : r.body = leBytes 4 n) (hn : n < 4294967296) (h0 : n ≠ 0) (hdom : d.ty ≠ .domain) (hlate : s.seq.admTime ≤ s.seq.time)
    (hsize : if d.ty = .label then n ≤ d.size else n = d.size) (hchk : objectChecks (initOrdered s q) (callerOf q tr z) true r.idx r.sub d none = 0)
    (h16 : (initIn s q).transfers.length < 16) :
    ∃ t, exec (.writeSegInit r) s = .next t ∧ Ordered s t q (some z) 2 0 [] ∧ OthersStand (initIn s q) t [] ∧
      transferOf t q.origin = some ⟨q.origin, some tr.slot, true, r.idx, r.sub, n, 0, 0, [], [], s.seq.admTime, false⟩ := by
  obtain ⟨hh, b, hdis⟩ := initIn_cases s q
  obtain ⟨-, hseq, -, -, hpend, hotp, -, -, -, -⟩ := hdis.checks
  have hsvc : q.svc = 5 := by rw [hq]; rfl
  have hidx : q.idx = r.idx := by rw [hq]; rfl
  have hsub : q.sub = r.sub := by rw [hq]; rfl
  have hdomain : isDomain r.idx r.sub = false := (isDomain_of hd).trans (by simp [hdom])
  have hnum : isNumbered s q = false := by
    unfold isNumbered
    rw [hsvc, hidx, hsub]
    exact hdomain
  have hoseq : (initOrdered s q).seq = s.seq := (count_seq _ _ _ _).trans hseq
  have hosheaf : num (initOrdered s q) 0x2000 2 = 0 := by
    unfold initOrdered
    rw [num_count, hdis.num (by decide) (by decide)]
    exact ho.single
  let x := openedBy q tr r.idx r.sub n (initOrdered s q).seq.admTime
  have hgo : ∀ u, service u (callerOf q tr z) q false = .out (writeInitOp u (callerOf q tr z) r.idx r.sub (leBytes 4 n)) := by
    intro u
    rw [hq, ← hb]
    exact service_writeInit _ _ r false
  have hopen : writeInitOp (initOrdered s q) (callerOf q tr z) r.idx r.sub (leBytes 4 n) = Eff.ok (setTransfer (initOrdered s q) x) (initLat r.idx r.sub) := by
    refine writeInit_opens hd hn h0 ?_ ?_ ?_ ?_ (roleInForce_alone hosheaf hc.role)
    · rw [if_neg hdom]
      exact hchk
    · simpa [hdom] using hsize
    · rw [if_neg hdom]
    · unfold initOrdered
      rw [count_transfers]
      exact h16
  have hlat : initLat r.idx r.sub = 2 := by
    unfold initLat
    rw [hdomain]
    rfl
  rw [hlat] at hopen
  obtain ⟨y, m, hreq, hord⟩ := init_orders (e := Eff.ok (setTransfer (initOrdered s q) x) 2) hc.ready hc.authentic hsvc hnum hlate
    (by rw [hgo]; simp) (by rw [hgo, hopen]) hoseq rfl
  refine ⟨_, ?_, hord, ?_, ?_⟩
  · have hexec : exec (.writeSegInit r) s = coreCmd (fun s => request s q) s := by rw [hq]; rfl
    refine hexec.trans (coreCmd_next hreq ?_ ?_)
    · exact (count_pending _ _ _ _).trans hpend
    · exact (count_otp _ _ _ _).trans hotp
  · exact fun i k _ _ _ => getObj_count _ _ _ _ i k
  · rw [← hoseq]
    exact transferOf_setTransfer (initOrdered s q) x

end

/-- The numbered state of an INIT. -/
theorem initAdmitted_cases (s : State) (r : Rq) (tr : Trailer) : ∃ n f, initAdmitted s r tr =
    { initIn s r with
      seq := { s.seq with adm := s.seq.adm + 1, admTime := s.seq.time, who := (callerNow s r tr).who }
      pers := { (initIn s r).pers with reserved := n }, perf := f, sessions := (initAdmitted s r tr).sessions } := by
  obtain ⟨hh, b, hdis⟩ := initIn_cases s r
  obtain ⟨-, hseq, -⟩ := hdis.checks
  obtain ⟨n, f, e⟩ := number_cases (initIn s r)
  refine ⟨n, f, ?_⟩
  unfold initAdmitted
  rw [e, hseq]
  rfl

theorem steady_initAdmitted (s : State) (r : Rq) (tr : Trailer) : Steady s (initAdmitted s r tr) := by
  obtain ⟨hh, b, hdis⟩ := initIn_cases s r
  obtain ⟨-, -, -, hsheaf, hpend, hotp, -, -, -, -⟩ := hdis.checks
  obtain ⟨n, f, e⟩ := initAdmitted_cases s r tr
  rw [e]
  exact ⟨rfl, rfl, congrArg Sheaf.theirs hsheaf, hpend, hotp⟩

/-- No commit of an unworn store is kept out for wear (R397). -/
theorem keptOut_unworn {u : State} {r : Rq} {e : Eff} (h : Unworn u) (hp : r.phys = .ok) : keptOut u r e = e := by
  obtain ⟨h1, h2, h3⟩ := h
  have hw : wears u e.s = false := by
    unfold wears
    simp [Nat.not_le.mpr h1, Nat.not_le.mpr h2, Nat.not_le.mpr h3]
  unfold keptOut
  rw [hw, hp]
  simp

theorem unworn_initAdmitted {s : State} (h : Unworn s) (r : Rq) (tr : Trailer) : Unworn (initAdmitted s r tr) := by
  obtain ⟨hh, b, hdis⟩ := initIn_cases s r
  obtain ⟨i, j, hrest⟩ := hdis.rest
  obtain ⟨n, f, e⟩ := initAdmitted_cases s r tr
  unfold Unworn
  rw [e]
  dsimp only
  rw [hrest]
  exact h

/-- The INIT of a DOMAIN is numbered on its session, after the discard of what its origin had open (R109, R188). -/
theorem init_admits {s : State} {r : Rq} {tr : Trailer} {z : Session} {e : Eff} (hr : Ready s) (h : Authentic s r tr z) (h5 : r.svc = 5)
    (hn : isNumbered s r = true) (hv : z.role = 3 → serviceOn s = false ∨ vigilOn s = false)
    (he : service (initAdmitted s r tr) (callerOf r tr z) r true = .out e) (hw : Unworn s) (hc : e.code ≠ Abt.compareFault ∧ e.code ≠ Abt.resultCheck)
    (hst : Steady s e.s) :
    ∃ y, Settled (pushSlot e.s y) (request s r) ∧ Admitted s (request s r) r (some z) e.lat e.code e.body e.acts := by
  obtain ⟨hh, b, hdis⟩ := initIn_cases s r
  obtain ⟨hsess, hseq, hent, -, -, -, -, -, -, hkeys⟩ := hdis.checks
  obtain ⟨n, f, hnum⟩ := number_cases (initIn s r)
  have hid : initDiscard (takeInput s r) r = initIn s r := if_pos (.inr h5)
  have hgetnum : ∀ i k, k < 256 → (i, k) ∉ [(0x1100, 2), (0xD100, 2)] → num (number (initIn s r)) i k = num s i k :=
    fun i k hk hx => (num_number _ i k).trans (hdis.num hk hx)
  have hx : sessionCheck (number (initIn s r)) r (number (initIn s r)).seq.admTime = ⟨0, callerOf r tr z, some tr.slot, false⟩ := by
    refine sessionCheck_init hr h ?_ ?_ ?_ ?_ hgetnum
    · rw [number_admTime, hseq]
    · rw [hnum]
      exact hsess
    · intro k z
      rw [hnum]
      exact (keys_congr rfl rfl rfl rfl rfl k z).trans (hkeys k z)
    · rw [hnum]
      exact hent
  have hcn : callerNow s r tr = callerOf r tr z := by unfold callerNow; rw [h.slot]; rfl
  have hb : beforeService (number (initIn s r)) r ⟨0, callerOf r tr z, some tr.slot, false⟩ = initAdmitted s r tr := by
    unfold beforeService afterSession initAdmitted
    rw [h.trailer, hcn]
    dsimp only
    rw [show (calledBy (number (initIn s r)) (callerOf r tr z)).seq.admTime = s.seq.time from (number_admTime _).trans (by rw [hseq])]
    rfl
  have hmode : ∀ k, k < 256 → modeFlag (number (initIn s r)) k = modeFlag s k := by
    intro k hk
    unfold modeFlag
    rw [hgetnum _ _ hk (by simp)]
  have hperf := perform_kept (r := r) hx rfl rfl (e0 := e) (e := e) ?_ (recordedRead_write (by omega)) (by rw [hb]; exact he)
    (by rw [hb]; exact keptOut_unworn (unworn_initAdmitted hw r tr) h.sound)
  · have hset := request_admits_from hr h.toSound hn hid hseq (partnerRuns_initIn (.inr h5) h.here) (auditHolds_init h5 h.log) hperf hc hst.adm hst.first
    refine ⟨_, hset, admitted_of hset hst.adm hst.time ?_⟩
    have hkey : trailerKey (number (initIn s r)) (r.trailer.map (·.slot)) = sessionKey s tr.slot z := by
      rw [← sealKey_of h.trailer h.slot]
      refine trailerKey_congr ?_ (fun k z => ?_) _
      · rw [hnum]
        exact hsess
      · rw [hnum]
        exact (keys_congr rfl rfl rfl rfl rfl k z).trans (hkeys k z)
    rw [hkey]
    unfold answer
    rw [h.trailer]
    rfl
  · rintro ⟨h1, -, h2, h3⟩
    have hrole : z.role = 3 := by simpa [callerOf] using h1
    have h2' : serviceOn s = true := (hmode 3 (by decide)).symm.trans h2
    have h3' : vigilOn s = true := (hmode 5 (by decide)).symm.trans h3
    rcases hv hrole with h4 | h4
    · rw [h2'] at h4
      cases h4
    · rw [h3'] at h4
      cases h4

/-- The INIT of a DOMAIN: numbered, and answered after 10 us (R109, R188). -/
theorem writeSegInit_admits {s u : State} {r : Req} {tr : Trailer} {z : Session} {d : Desc} {n : Nat} {q : Rq} (hq : q = reqRq r 5) (hc : Client s q tr z d.role)
    (ho : Open s) (hd : Dict.find r.idx r.sub = (true, some d)) (hb : r.body = leBytes 4 n) (hn : n < 4294967296) (h0 : n ≠ 0) (hdom : d.ty = .domain)
    (hsize : n ≤ d.size) (hchk : objectChecks (initAdmitted s q tr) (callerOf q tr z) true r.idx r.sub d (some none) = 0)
    (hu : domainInit (initAdmitted s q tr) (callerOf q tr z) r.idx r.sub n = .ok u) (h16 : u.transfers.length < 16) :
    ∃ t, exec (.writeSegInit r) s = .next t ∧ Admitted s t q (some z) 10 0 [] [] ∧ OthersStand u t [] ∧
      transferOf t q.origin = some ⟨q.origin, some tr.slot, true, r.idx, r.sub, n, 0, 0, [], [], s.seq.time, false⟩ := by
  have hsvc : q.svc = 5 := by rw [hq]; rfl
  have hidx : q.idx = r.idx := by rw [hq]; rfl
  have hsub : q.sub = r.sub := by rw [hq]; rfl
  have hdomain : isDomain r.idx r.sub = true := (isDomain_of hd).trans (by simp [hdom])
  have hnum : isNumbered s q = true := by
    unfold isNumbered
    rw [hsvc, hidx, hsub]
    exact hdomain
  have hst := steady_initAdmitted s q tr
  have hsingle : num (initAdmitted s q tr) 0x2000 2 = 0 := by
    obtain ⟨hh, b, hdis⟩ := initIn_cases s q
    have hget : num (initAdmitted s q tr) 0x2000 2 = num (initIn s q) 0x2000 2 := by
      unfold initAdmitted
      rw [num_touchSession, num_calledBy, num_number]
    rw [hget, hdis.num (by decide) (by decide)]
    exact ho.single
  let x := openedBy q tr r.idx r.sub n (initAdmitted s q tr).seq.admTime
  have hlat : initLat r.idx r.sub = 10 := by
    unfold initLat
    rw [hdomain]
    rfl
  have hopen : writeInitOp (initAdmitted s q tr) (callerOf q tr z) r.idx r.sub (leBytes 4 n) = Eff.ok (setTransfer u x) 10 := by
    rw [← hlat]
    refine writeInit_opens hd hn h0 ?_ ?_ ?_ h16 (roleInForce_alone hsingle hc.role)
    · rw [if_pos hdom]
      exact hchk
    · simpa [hdom] using hsize
    · rw [if_pos hdom]
      exact hu
  have hgo : service (initAdmitted s q tr) (callerOf q tr z) q true = .out (Eff.ok (setTransfer u x) 10) := by
    rw [← hopen, hq, ← hb]
    exact service_writeInit _ _ r true
  have hend : Steady s (setTransfer u x) := (hst.domainInit hu).withTransfers _
  obtain ⟨y, hset, hadm⟩ := init_admits hc.ready hc.authentic hsvc hnum hc.unrecorded hgo ho.wear (show (0 : Nat) ≠ Abt.compareFault ∧ (0 : Nat) ≠ Abt.resultCheck by decide) hend
  have hexec : exec (.writeSegInit r) s = coreCmd (fun s => request s q) s := by rw [hq]; rfl
  refine ⟨_, hexec.trans (coreCmd_settled rfl hset hend), hadm, ?_, ?_⟩
  · exact fun i k hk hb _ => (hset.objects i k hk hb).trans (getObj_pushSlot _ _ _ _)
  · have htr : (request s q).transfers = (setTransfer u x).transfers := congrArg (fun a => a.transfers) hset.rest
    have htime : (initAdmitted s q tr).seq.admTime = s.seq.time := hst.time
    unfold transferOf
    rw [htr, ← htime]
    exact transferOf_setTransfer u x

end Sys2Proof.Machine
end

section
/-! SUPPORT. Segments of a write, and the end of one (R110 to R112). -/

namespace Sys2Proof.Machine

/-- The transfer after segment g, in state u. -/
def afterSegment (u : State) (x : Transfer) (g : Seg) : Transfer := x.took g u.seq.admTime

/-- What a segment in its place comes to: the end of the write, a part of a DOMAIN, or a part that is kept. -/
def segmentWork (u : State) (c : Ctx) (i k : Nat) (d : Desc) (x : Transfer) (g : Seg) : Eff :=
  if x.got + g.len = x.total then segEnd u c (afterSegment u x g) d (x.buf ++ g.data) g.data (segLat u i k true) .ok
  else if d.ty = .domain then
    (if (domainData (setTransfer u (afterSegment u x g)) i k g.data .ok).code ≠ 0 then
      { domainData (setTransfer u (afterSegment u x g)) i k g.data .ok with
        s := dropTransfer (domainData (setTransfer u (afterSegment u x g)) i k g.data .ok).s c.origin }
    else domainData (setTransfer u (afterSegment u x g)) i k g.data .ok)
  else Eff.ok (setTransfer u (afterSegment u x g)) (segLat u i k false)

theorem parseSeg_segBody {g : Seg} (hn : g.num < 65536) (hl : g.len < 65536) :
    parseSeg (segBody g) = ⟨g.num, bit (BitVec.ofNat 8 g.flags).toNat 0, g.len, g.data⟩ := by
  have h2 : (leBytes 2 g.num).length = 2 := leBytes_length 2 _
  have h3 : (leBytes 2 g.len).length = 2 := leBytes_length 2 _
  have hnum : leNat (leBytes 2 g.num) = g.num := leNat_leBytes 2 _ (by omega)
  have hlen : leNat (leBytes 2 g.len) = g.len := leNat_leBytes 2 _ (by omega)
  unfold parseSeg segBody
  simp only [List.append_assoc]
  rw [List.take_left' h2, hnum]
  have hget : (leBytes 2 g.num ++ ([BitVec.ofNat 8 g.flags, BitVec.ofNat 8 g.rsv] ++ (leBytes 2 g.len ++ g.data))).getD 2 0 = BitVec.ofNat 8 g.flags := by
    simp [h2]
  have hdrop : (leBytes 2 g.num ++ ([BitVec.ofNat 8 g.flags, BitVec.ofNat 8 g.rsv] ++ (leBytes 2 g.len ++ g.data))).drop 4 = leBytes 2 g.len ++ g.data := by
    simp [List.drop_append, h2]
  have hdata : (leBytes 2 g.num ++ ([BitVec.ofNat 8 g.flags, BitVec.ofNat 8 g.rsv] ++ (leBytes 2 g.len ++ g.data))).drop 6 = g.data := by
    simp [List.drop_append, h2, h3]
  rw [hget, hdrop, hdata, List.take_left' h3, hlen]

/-- The END bit of a segment in its place is that of the last byte. -/
theorem fin_of {g : Seg} {p : Prop} [Decidable p] (h : g.flags = if p then 1 else 0) : bit (BitVec.ofNat 8 g.flags).toNat 0 = decide p := by
  rw [h]
  by_cases hp : p <;> simp [hp, bit]

/-- A segment in its place (R110). -/
theorem writeSegOp_next {u : State} {c : Ctx} {i k : Nat} {d : Desc} {x : Transfer} {g : Seg} (hx : transferOf u c.origin = some x)
    (hd : (Dict.find i k).2 = some d) (hc : segContext u c i k true x = 0) (ho : g.num = x.next) (hn : g.num < 65536) (hl : g.len = g.data.length)
    (h0 : 0 < g.len) (hm : g.len ≤ 1024) (hfit : x.got + g.len ≤ x.total) (hfin : g.flags = if x.got + g.len = x.total then 1 else 0) :
    writeSegOp u c i k (segBody g) .ok =
      if (segmentWork u c i k d x g).code = 0 then { segmentWork u c i k d x g with body := segReply g } else segmentWork u c i k d x g := by
  have hlen : ¬(segBody g).length < 6 := by simp [segBody, leBytes_length]; omega
  unfold writeSegOp
  rw [hx, hd, parseSeg_segBody hn (by omega), fin_of hfin]
  dsimp only
  rw [hc, if_neg (by decide), if_neg hlen, if_neg (by omega), if_neg (by omega), if_neg (by omega), if_neg (by omega),
    if_neg (by omega), if_neg (by omega)]
  unfold segmentWork afterSegment Transfer.took segReply
  by_cases hend : x.got + g.len = x.total
  · simp only [hend, decide_true, ↓reduceIte, ho, true_and, lt_irrefl]
  · simp only [hend, decide_false, Bool.false_eq_true, false_and, ↓reduceIte, ho]

theorem reqRq_segment {r : Req} {g : Seg} (h : r.body = segBody g) : reqRq r 6 = rqSeg r.h r.idx r.sub g := by
  unfold reqRq rqSeg hdrRq
  rw [h]

theorem service_writeSeg (s : State) (c : Ctx) (h : Hdr) (i k : Nat) (g : Seg) (n : Bool) (hp : h.phys = .ok) :
    service s c (rqSeg h i k g) n = .out (writeSegOp s c i k (segBody g) .ok) := by
  rw [← hp]
  rfl

section
variable {s : State} {h : Hdr} {tr : Trailer} {z : Session} {i k : Nat} {d : Desc} {g : Seg} {x : Transfer} {q : Rq} {sess : Option Nat}

/-- A segment in its place passes R110 in the state in which it is taken. -/
theorem context_next {u : State} {c : Ctx} (hn : NextSegment s q sess i k g x)
    (ht : u.seq.admTime = if isNumbered s q then s.seq.time else s.seq.admTime) (hc : c.slot = sess) : segContext u c i k true x = 0 := by
  have htime := hn.intime
  rw [← ht] at htime
  have hsess : ¬(x.sess.isSome ∧ x.sess ≠ c.slot) := by
    rintro ⟨h1, h2⟩
    rcases hn.sess with h3 | h3
    · rw [h3] at h1
      cases h1
    · exact h2 (h3.trans hc.symm)
  unfold segContext
  rw [if_neg (by simp only [hn.writes, hn.idx, hn.sub, ne_eq, not_true_eq_false, false_or]; exact hsess), if_neg (by omega)]

/-- The work of a segment in its place. -/
theorem work_next {u : State} {c : Ctx} (hn : NextSegment s q sess i k g x) (hd : (Dict.find i k).2 = some d)
    (hx : transferOf u c.origin = some x) (ht : u.seq.admTime = if isNumbered s q then s.seq.time else s.seq.admTime) (hc : c.slot = sess)
    (h0 : (segmentWork u c i k d x g).code = 0) : writeSegOp u c i k (segBody g) .ok = { segmentWork u c i k d x g with body := segReply g } :=
  (writeSegOp_next hx hd (context_next hn ht hc) hn.order hn.small hn.len hn.some hn.most hn.fits hn.fin).trans (if_pos h0)

/-- A numbered segment whose work comes to e is admitted with it (R110, R112, R188). -/
theorem segment_admits {e : Eff} {c : Instr} {need : Role} (hq : q = rqSeg h i k g) (hexec : exec c s = coreCmd (fun s => request s q) s) (hcl : Client s q tr z need)
    (hd : Dict.find i k = (true, some d)) (hn : NextSegment s q (some tr.slot) i k g x) (hnum : isNumbered s q = true)
    (he : segmentWork (admittedIn s q tr) (callerOf q tr z) i k d x g = e) (h0 : e.code = 0) (hst : Steady s e.s) :
    ∃ t y, exec c s = .next t ∧ Admitted s t q (some z) e.lat 0 (segReply g) e.acts ∧ Settled (pushSlot e.s y) t := by
  obtain ⟨hh, b, n, f, hin⟩ := admittedIn_cases s q tr
  have hphys : h.phys = .ok := by
    have := hcl.authentic.sound
    rw [hq] at this
    exact this
  have hwork := work_next hn (u := admittedIn s q tr) (c := callerOf q tr z) (by rw [hd]) (by rw [hin]; exact hn.isOpen) (by rw [hin, hnum]; rfl) rfl (by rw [he]; exact h0)
  rw [he] at hwork
  have hserve : service (admittedIn s q tr) (callerOf q tr z) q true = .out { e with body := segReply g } := by
    rw [← hwork, hq]
    exact service_writeSeg _ _ h i k g true hphys
  have hsvc : q.svc = 6 := by rw [hq]; rfl
  obtain ⟨y, hset, hadm⟩ := authentic_admits hcl.ready hcl.authentic hnum (.inr (by omega)) (recordedRead_write (by omega)) hcl.unrecorded hserve
    (by unfold keptOut; simp [hsvc]) (by rw [show ({ e with body := segReply g } : Eff).code = 0 from h0]; decide) hst.adm hst.time hst.first
  have hadm' : Admitted s (request s q) q (some z) e.lat 0 (segReply g) e.acts := by
    rw [← h0]
    exact hadm
  exact ⟨_, y, hexec.trans (coreCmd_settled rfl hset hst), hadm', hset⟩

/-- A segment that takes no number, of an object that is no DOMAIN, is kept (R110). -/
theorem segment_orders {c : Instr} {need : Role} (hq : q = rqSeg h i k g) (hexec : exec c s = coreCmd (fun s => request s q) s) (hcl : Client s q tr z need)
    (hd : Dict.find i k = (true, some d)) (hn : NextSegment s q (some tr.slot) i k g x) (hdom : d.ty ≠ .domain) (hpart : x.got + g.len < x.total)
    (hlate : s.seq.admTime ≤ s.seq.time) :
    ∃ t, exec c s = .next t ∧ Ordered s t q (some z) 2 0 (segReply g) ∧ OthersStand s t [] ∧ transferOf t q.origin = some (x.took g s.seq.admTime) := by
  obtain ⟨hh, b, p, hin⟩ := orderedIn_cases s q
  have hphys : h.phys = .ok := by
    have := hcl.authentic.sound
    rw [hq] at this
    exact this
  have hdomain : isDomain i k = false := (isDomain_of hd).trans (by simp [hdom])
  have hsvc : q.svc = 6 := by rw [hq]; rfl
  have hparse := parseSeg_segBody (g := g) hn.small (by have := hn.most; omega)
  have hfin : (parseSeg (segBody g)).fin = false := by
    rw [hparse]
    exact (fin_of hn.fin).trans (decide_eq_false (by omega))
  have hnum : isNumbered s q = false := by
    rw [hq]
    show (isDomain i k || (parseSeg (segBody g)).fin) = false
    rw [hdomain, hfin]
    rfl
  have hlat : segLat (orderedIn s q) i k false = 2 := by
    have h1 : ¬(0xCF00 ≤ i ∧ i < 0xCF10 ∧ k = 3) := by
      rintro ⟨h2, h3, rfl⟩
      obtain ⟨f, rfl⟩ := Nat.exists_eq_add_of_le h2
      rw [find_stream (by omega)] at hd
      exact hdom (by injection hd with _ hd; injection hd with hd; rw [← hd])
    unfold segLat
    rw [if_neg h1, hdomain]
    simp [Lat.step]
  have hwork : segmentWork (orderedIn s q) (callerOf q tr z) i k d x g = Eff.ok (setTransfer (orderedIn s q) (x.took g s.seq.admTime)) 2 := by
    unfold segmentWork afterSegment
    rw [if_neg (by omega), if_neg hdom, hlat, hin]
  have hop := work_next hn (u := orderedIn s q) (c := callerOf q tr z) (by rw [hd]) (by rw [hin]; exact hn.isOpen) (by rw [hin, hnum]; rfl) rfl (by rw [hwork]; rfl)
  rw [hwork] at hop
  have hgo : ∀ u, service u (callerOf q tr z) q false = .out (writeSegOp u (callerOf q tr z) i k (segBody g) .ok) := by
    intro u
    rw [hq]
    exact service_writeSeg _ _ h i k g false hphys
  obtain ⟨y, m, hreq, hord⟩ := authentic_ordered hcl.ready hcl.authentic hnum (.inr (by omega)) hlate (by rw [hgo]; simp) (by rw [hgo, hop])
    (by show (orderedIn s q).seq = s.seq; rw [hin]) rfl
  refine ⟨_, hexec.trans (coreCmd_next hreq ?_ ?_), hord, ?_, ?_⟩
  · show (orderedIn s q).pending = s.pending
    rw [hin]
  · show (orderedIn s q).otp = s.otp
    rw [hin]
  · intro i' k' _ _ _
    show getObj (orderedIn s q) i' k' = _
    rw [hin]
    rfl
  · have horig : x.origin = q.origin := by simpa using List.find?_some hn.isOpen
    rw [← horig]
    exact transferOf_setTransfer (orderedIn s q) (x.took g s.seq.admTime)

end

end Sys2Proof.Machine
end

section
/-! SUPPORT. A segment of a DOMAIN, the end of a held object, and ABORT_TRANSFER (R110 to R112). -/

namespace Sys2Proof.Machine

section
variable {s u : State}

theorem Steady.withPerf (h : Steady s u) (p : Perf) : Steady s { u with perf := p } := ⟨h.adm, h.time, h.first, h.queue, h.fuses⟩

theorem Steady.count (h : Steady s u) (b i n : Nat) : Steady s (count u b i n) := by
  obtain ⟨p, e⟩ := count_perf u b i n
  rw [e]
  exact h.withPerf p

theorem Steady.incHw (h : Steady s u) (i k n : Nat) : Steady s (incHw u i k n) := h.withHw _

theorem Steady.withCache (h : Steady s u) (x : List CacheEnt) : Steady s { u with cache := x } := ⟨h.adm, h.time, h.first, h.queue, h.fuses⟩

theorem Steady.cacheUse (h : Steady s u) (n : Nat) : Steady s (cacheUse u n) := by
  have hfill := ((h.incHw 0xCA00 8 1).count 3 6 1).count 6 2 1
  unfold Machine.cacheUse
  dsimp only
  split
  · exact h.withCache _
  · split
    · exact hfill.withCache _
    · exact (hfill.withCache _).count 6 3 1

theorem Steady.warm (h : Steady s u) (n : Nat) : Steady s (warm u n) := by
  unfold Machine.warm
  dsimp only
  split
  · exact h.cacheUse _
  · exact h

theorem Steady.claimMasks (h : Steady s u) (k : Nat) : Steady s (claimMasks u k) := ⟨h.adm, h.time, h.first, h.queue, h.fuses⟩

theorem Steady.updStream (h : Steady s u) (f : Nat) (g : Stream → Stream) : Steady s (updStream u f g) := h.withStreams _

theorem Steady.failStream (h : Steady s u) (f code : Nat) : Steady s (failStream u f code) := h.updStream _ _

theorem Steady.streamCompare (h : Steady s u) (f lat : Nat) (ns : List Nat) (good : Bool) (out : Option Bytes) :
    Steady s (streamCompare u f lat ns .ok good out).s := by
  unfold Machine.streamCompare
  dsimp only
  rw [if_neg (by decide)]
  split
  · exact h.withStreams _
  · exact (h.failStream _ _).withStreams _

/-- A segment of a stream's Input keeps the admission (R274 to R277). -/
theorem Steady.streamInputOp (h : Steady s u) (f : Nat) (d : Bytes) : Steady s (streamInputOp u f d .ok).s := by
  unfold Machine.streamInputOp
  extract_lets y rest last
  split
  · exact h
  extract_lets lat nodes needs fault v key uw w wrapped r nx late show' v1 staged kept shown t v2 ended
  have hv : Steady s v := by
    unfold v
    split
    · exact h
    · split
      · exact h.claimMasks _
      · exact (h.warm _).claimMasks _
  have hv2 : Steady s v2 := by
    unfold v2
    split
    · exact (hv.withStreams _).count 4 2 1
    · exact hv.withStreams _
  split
  · exact h
  split
  · exact h
  split
  · exact (h.failStream _ _).withStreams _
  split
  · split
    · exact (hv.failStream _ _).withStreams _
    · split
      · exact hv.streamCompare _ _ _ _ _
      · exact hv.withStreams _
  · split
    · split
      · exact (hv.withStreams _).withStreams _
      · exact hv.withStreams _
    · split
      · exact hv2.streamCompare _ _ _ _ _
      · split
        · exact hv2.streamCompare _ _ _ _ _
        · exact hv2.withStreams _

/-- A segment of a DOMAIN keeps the admission. -/
theorem Steady.domainData (h : Steady s u) (i k : Nat) (d : Bytes) : Steady s (domainData u i k d .ok).s := by
  unfold Machine.domainData
  split
  · split
    · exact h
    · exact h.streamInputOp _ _
  split
  · exact h.withPers _
  split
  · exact h.withTwc _
  · exact h

end

section
variable {s u : State} {c : Ctx} {i k : Nat} {d : Desc} {v : Bytes} {e0 : Eff}

/-- What a settled end leaves of a steady effect. -/
theorem Steady.settled {t : State} (h : Steady s u) (hs : Settled u t) : Steady s t :=
  ⟨(congrArg (fun a => a.seq.adm) hs.rest).trans h.adm, (congrArg (fun a => a.seq.admTime) hs.rest).trans h.time,
    (congrArg (fun a => a.sheaf.theirs) hs.rest).trans h.first, (congrArg (fun a => a.pending) hs.rest).trans h.queue,
    (congrArg (fun a => a.otp) hs.rest).trans h.fuses⟩

/-- An accepted write of a value, past the checks of its value and its room (R107). -/
theorem performWrite_settles (hf : Dict.find i k = (true, some d)) (hl : d.ty ≠ .domain) (hp : roleInForce u true i k d ≠ .pair)
    (hq : ¬(i = 0x2000 ∧ k = 7 ∧ sheafOn u = true)) (hc : isCarried i k = false) (hs : isSensorSetting i k = false)
    (hw : writeValue u c i k d v .ok = e0) (h0 : e0.code = 0) (hcap : capacityCheck u i d = 0) (hg : e0.acts.any stagesEffect = false) :
    ∃ t, performWrite u c i k d v .ok = { e0 with s := t, acts := e0.acts ++ [] } ∧ Settled (setObj e0.s i k (d.decode v)) t := by
  obtain ⟨t, hct, hst⟩ := settled_commit_write u c v e0 hf hl hp hq hc hs hg
  refine ⟨t, ?_, hst⟩
  have hacc : accepted e0 = true := by unfold accepted; rw [h0]; rfl
  unfold performWrite
  dsimp only
  rw [hw, hcap, hacc, if_neg (by simp), if_neg (by decide), if_neg (by simp), if_neg (by simp)]
  exact hct

/-- The END of a write of an object that is no DOMAIN and needs no concurrence is the write of its whole value (R112, R549). -/
theorem segEnd_writes {x : Transfer} {g : Bytes} {lat : Nat} (hl : d.ty ≠ .domain) (hp : roleInForce (dropTransfer u c.origin) true x.idx x.sub d ≠ .pair) :
    segEnd u c x d v g lat .ok = performWrite (dropTransfer u c.origin) c x.idx x.sub d v .ok := by
  unfold segEnd endPairCheck
  dsimp only
  rw [if_pos hl, if_neg hp]
  exact if_neg (by decide)

end

section
variable {s : State} {h : Hdr} {tr : Trailer} {z : Session} {i k : Nat} {d : Desc} {g : Seg} {x : Transfer} {q : Rq}

/-- The END of an object that only holds its value writes it, in its own admission (R112). -/
theorem heldEnd_completes {v : Bytes} (hq : q = rqSeg h i k g) {c : Instr} (hexec : exec c s = coreCmd (fun s => request s q) s) (hcl : Client s q tr z .any)
    (ho : Open s) (hd : Dict.find i k = (true, some d)) (hn : NextSegment s q (some tr.slot) i k g x) (hlast : x.got + g.len = x.total) (hv : v = x.buf ++ g.data)
    (hk : k < 256) (hdom : d.ty ≠ .domain) (hplain : d.longOp = false ∧ d.role ≠ .pair ∧ bookkeeping i k = false) (hca : isCarried i k = false)
    (hse : isSensorSetting i k = false) (hmode : i ≠ 0x2000)
    (hw : ∀ u c, plainCheck u i k (leNat v) v = 0 → writeValue u c i k d v .ok = Eff.ok u 10) (hpc : plainCheck (admittedIn s q tr) i k (leNat v) v = 0) :
    ∃ t, exec c s = .next t ∧ Admitted s t q (some z) 10 0 (segReply g) [] ∧ transferOf t q.origin = none ∧ getObj t i k = d.decode v ∧
      OthersStand s t [(i, k)] := by
  obtain ⟨hlong, hrole, hbook⟩ := hplain
  obtain ⟨hh, b, n, f, hin⟩ := admittedIn_cases s q tr
  let u := dropTransfer (admittedIn s q tr) q.origin
  have hsheaf : sheafOn u = false := sheafOn_admittedIn (tr := tr) ho.single q
  have hforce : roleInForce u true i k d ≠ .pair := by
    unfold roleInForce
    rw [hsheaf]
    exact hrole
  have hcap : capacityCheck u i d = 0 := capacity_ok (room_of ho.toRoom (fun i k => num_admittedIn s q tr i k) (by show (admittedIn s q tr).pers.jour = _; rw [hin])
    (by show (admittedIn s q tr).pers.laps = _; rw [hin])) (by simp [hlong])
  obtain ⟨t', hperf, hset'⟩ := performWrite_settles (u := u) (c := callerOf q tr z) hd hdom hforce (fun h => hmode h.1) hca hse (hw u _ hpc) rfl hcap rfl
  have hnum : isNumbered s q = true := by
    have hparse := parseSeg_segBody (g := g) hn.small (by have := hn.most; omega)
    have hfin : (parseSeg (segBody g)).fin = true := by
      rw [hparse]
      exact (fin_of hn.fin).trans (decide_eq_true hlast)
    rw [hq]
    show (isDomain i k || (parseSeg (segBody g)).fin) = true
    rw [hfin, Bool.or_true]
  have hwork : segmentWork (admittedIn s q tr) (callerOf q tr z) i k d x g = { Eff.ok u 10 with s := t' } := by
    have hend := segEnd_writes (u := admittedIn s q tr) (c := callerOf q tr z) (x := afterSegment (admittedIn s q tr) x g) (v := v) (g := g.data)
      (lat := segLat (admittedIn s q tr) i k true) hdom (by rw [show (afterSegment (admittedIn s q tr) x g).idx = i from hn.idx,
        show (afterSegment (admittedIn s q tr) x g).sub = k from hn.sub]; exact hforce)
    rw [show (afterSegment (admittedIn s q tr) x g).idx = i from hn.idx, show (afterSegment (admittedIn s q tr) x g).sub = k from hn.sub] at hend
    unfold segmentWork
    rw [if_pos hlast, ← hv]
    exact hend.trans hperf
  have hst : Steady s t' := (((steady_admitted s q tr).withTransfers _).setObj _ _ _).settled hset'
  obtain ⟨t, y, hrun, hadm, hset⟩ := segment_admits hq hexec hcl hd hn hnum hwork rfl hst
  have hall : Settled (pushSlot (setObj u i k (d.decode v)) y) t := (hset'.push y).trans hset
  refine ⟨t, hrun, hadm, ?_, written_value hall hk hbook (by rw [hd]; rfl), written_others hall hk (othersStand_admittedIn s q tr _) (List.mem_singleton_self _)⟩
  have htr : t.transfers = u.transfers := (congrArg (fun a => a.transfers) hall.rest).trans (setObj_transfers u i k _)
  have hnone := transferOf_dropTransfer (admittedIn s q tr) q.origin
  unfold transferOf at hnone ⊢
  rw [htr]
  exact hnone

end

end Sys2Proof.Machine
end

section
/-! SUPPORT. What the end of an admission leaves, and ABORT_TRANSFER (R110, R143). -/

namespace Sys2Proof.Machine

/-- The performance counters but those of the store, and the tagger, stand. -/
structure PerfKept (a t : State) : Prop where
  counts : ∀ b i, b ≠ 8 → i < 8 → perfAt t b i = perfAt a b i
  next : t.perf.next = a.perf.next
  tags : t.perf.tags = a.perf.tags

theorem PerfKept.of {a t : State} (h : t.perf = a.perf) : PerfKept a t := ⟨fun b i _ _ => by unfold perfAt; rw [h], by rw [h], by rw [h]⟩

theorem PerfKept.trans {a b c : State} (h : PerfKept a b) (g : PerfKept b c) : PerfKept a c :=
  ⟨fun k i hk hi => (g.counts k i hk hi).trans (h.counts k i hk hi), g.next.trans h.next, g.tags.trans h.tags⟩

/-- What the end of an admission leaves beyond what `Settled` says: the hardware counts, the journal and its open export, every object but those of the AUDIT
log, the log but for the record of the admission, the performance counters but those of the store, and what has been queued for a partner. -/
structure Ended (a t : State) : Prop where
  hw : t.hw = a.hw
  jour : t.pers.jour = a.pers.jour
  run : t.exportRun = a.exportRun
  objects : ∀ i k, k < 256 → i ≠ 0xDC80 → getObj t i k = getObj a i k
  log : ∀ p ∈ t.audit.recs, p ∈ a.audit.recs ∨ p.adm = a.seq.adm
  perf : PerfKept a t
  adm : t.seq.adm = a.seq.adm
  out : ∃ l, t.sheaf.out = a.sheaf.out ++ l

theorem Ended.refl (a : State) : Ended a a := ⟨rfl, rfl, rfl, fun _ _ _ _ => rfl, fun _ h => .inl h, .of rfl, rfl, [], (List.append_nil _).symm⟩

theorem Ended.trans {a b c : State} (h : Ended a b) (g : Ended b c) : Ended a c :=
  ⟨g.hw.trans h.hw, g.jour.trans h.jour, g.run.trans h.run, fun i k hk hi => (g.objects i k hk hi).trans (h.objects i k hk hi),
    fun p hp => (g.log p hp).elim (h.log p) fun he => .inr (he.trans h.adm), h.perf.trans g.perf, g.adm.trans h.adm,
    by
      obtain ⟨l, hl⟩ := h.out
      obtain ⟨m, hm⟩ := g.out
      exact ⟨l ++ m, by rw [hm, hl, List.append_assoc]⟩⟩

theorem ended_ite {a b : State} (c : Prop) [Decidable c] (h : Ended a b) : Ended a (if c then b else a) := by
  split
  · exact h
  · exact Ended.refl a

/-- A step that keeps all of these. -/
theorem ended_of {a t : State} (h : t = { a with seq := t.seq, sheaf := t.sheaf, rng := t.rng, pers := t.pers }) (hj : t.pers.jour = a.pers.jour) (hd : t.pers.dict = a.pers.dict)
    (hq : t.seq.adm = a.seq.adm) (ho : ∃ l, t.sheaf.out = a.sheaf.out ++ l) : Ended a t := by
  refine ⟨by rw [h], hj, by rw [h], fun i k _ _ => ?_, fun p hp => .inl (by rw [h] at hp; exact hp), PerfKept.of (by rw [h]), hq, ho⟩
  unfold getObj
  rw [hd, h]

theorem perfAt_perfSet (s : State) {b i v b' i' : Nat} (hb : b' ≠ b) (hi : i < 8) (hi' : i' < 8) : perfAt (perfSet s b i v) b' i' = perfAt s b' i' := by
  have hne : 8 * b' + i' ≠ 8 * b + i := by omega
  unfold perfSet perfAt
  split <;> exact (SMap.at_store _ _ _ _ _).trans (if_neg hne)

/-- A count of the store's block leaves every other block (R555). -/
theorem perfAt_count_store (s : State) {i n b' i' : Nat} (hb : b' ≠ 8) (hi : i < 7) (hi' : i' < 8) : perfAt (count s 8 i n) b' i' = perfAt s b' i' := by
  unfold count
  dsimp only
  split
  · rfl
  split
  · split
    · rfl
    · refine (perfAt_perfSet _ hb (by omega) hi').trans ?_
      exact (SMap.at_store _ _ _ _ _).trans (if_neg (by omega))
  split
  · exact perfAt_perfSet _ hb (by omega) hi'
  · rfl

/-- A count changes counters, and no more of the counters' state. -/
theorem count_tagger (s : State) (b i n : Nat) : (count s b i n).perf.next = s.perf.next ∧ (count s b i n).perf.tags = s.perf.tags := by
  have hset : ∀ (u : State) b i v, (perfSet u b i v).perf.next = u.perf.next ∧ (perfSet u b i v).perf.tags = u.perf.tags := fun u b i v => by
    unfold perfSet
    dsimp only
    split <;> exact ⟨rfl, rfl⟩
  unfold count
  dsimp only
  split
  · exact ⟨rfl, rfl⟩
  split
  · split
    · exact ⟨rfl, rfl⟩
    · exact hset _ _ _ _
  split
  · exact hset _ _ _ _
  · exact ⟨rfl, rfl⟩

/-- A count of the store's block keeps the others and the tagger (R555). -/
theorem perfKept_count (s : State) {i : Nat} (hi : i < 7) (n : Nat) : PerfKept s (count s 8 i n) :=
  ⟨fun _ _ hb hi' => perfAt_count_store s hb hi hi', (count_tagger s 8 i n).1, (count_tagger s 8 i n).2⟩

theorem ended_token (a b : State) : Ended b (takeToken a b) := by
  unfold takeToken
  split
  · unfold drawBudget
    obtain ⟨p, hp⟩ := count_perf { b with seq := { b.seq with budget := budgetNow b - 4000, budgetAt := b.seq.admTime } } 8 1 1
    refine ⟨by rw [hp], by rw [hp], by rw [hp], fun _ _ _ _ => by rw [hp]; rfl, fun q hq => .inl (by rw [hp] at hq; exact hq),
      PerfKept.trans (b := { b with seq := { b.seq with budget := budgetNow b - 4000, budgetAt := b.seq.admTime } }) (.of rfl) (perfKept_count _ (i := 1) (by decide) 1),
      by rw [hp], [], by rw [hp]; exact (List.append_nil _).symm⟩
  · exact Ended.refl b

theorem ended_commit (a b : State) : Ended b (noteCommit a b) := by
  unfold noteCommit
  split
  · exact Ended.refl b
  · obtain ⟨c, l, h⟩ := ringEntry_pers a b b.seq.adm
    dsimp only
    rw [h]
    exact ended_of rfl rfl rfl rfl ⟨[], (List.append_nil _).symm⟩

theorem ended_counters (i : AdmIn) (a b : State) : Ended b (noteCounters i a b) := by
  unfold noteCounters
  dsimp only
  split
  · exact Ended.refl b
  · exact ended_of rfl rfl rfl rfl ⟨[], (List.append_nil _).symm⟩

theorem ended_log (a : State) (i : AdmIn) (d : Done) : Ended d.s (appendLog a i d) := by
  have hset : ∀ u k n, k < 256 → Ended u (setNum u 0xDC80 k n) := fun u k n hk =>
    ⟨setNum_hw _ _ _ _, by obtain ⟨_, _, _, e⟩ := setObj_dict u 0xDC80 k (.num n); unfold setNum; rw [e], setNum_exportRun _ _ _ _, fun i' k' hk' hi => by
      unfold setNum
      rw [getObj_setObj u (.num n) hk hk', if_neg (fun h => hi h.1)], fun p hp => .inl (by rw [setNum_audit] at hp; exact hp),
      PerfKept.of (setNum_perf _ _ _ _), congrArg Seq.adm (setNum_seq _ _ _ _), [], by rw [setNum_sheaf]; exact (List.append_nil _).symm⟩
  have hrec : ∀ (u : State) (r : LogRec) x y, r.adm = u.seq.adm → Ended u { u with audit := ⟨u.audit.recs ++ [r], x, y⟩ } := by
    intro u r x y hr
    refine ⟨rfl, rfl, rfl, fun _ _ _ _ => rfl, fun p hp => ?_, .of rfl, rfl, [], (List.append_nil _).symm⟩
    have hp' : p ∈ u.audit.recs ++ [r] := hp
    rcases List.mem_append.mp hp' with h | h
    · exact .inl h
    · exact .inr ((congrArg LogRec.adm (List.mem_singleton.mp h)).trans hr)
  unfold appendLog
  dsimp only
  split
  · exact Ended.refl _
  split
  · exact Ended.refl _
  split
  · split
    · exact (hset _ _ _ (by decide)).trans (hrec _ _ _ _ (congrArg Seq.adm (setNum_seq _ _ _ _)).symm)
    · exact hrec _ _ _ _ rfl
  split
  · exact Ended.refl _
  · exact (hset _ _ _ (by decide)).trans (hset _ _ _ (by decide))

/-- What is owed to a partner, where the partner's digest has not come before. -/
theorem ended_sheaf (a : State) (i : AdmIn) (d : Done) (h : SMap.look d.s.sheaf.theirs d.s.seq.adm = none) : Ended d.s (sheafAfter a i d) := by
  have hd : Ended d.s (markDirty a d.s) := by
    unfold markDirty
    split
    · exact ended_of rfl rfl rfl rfl ⟨[], (List.append_nil _).symm⟩
    · exact Ended.refl _
  have ht : (markDirty a d.s).sheaf.theirs = d.s.sheaf.theirs := by unfold markDirty; split <;> rfl
  have hq : (markDirty a d.s).seq = d.s.seq := by unfold markDirty; split <;> rfl
  have hqueue : ∀ u k b, Ended u (sheafQueue u k b) := fun _ _ _ => ended_of rfl rfl rfl rfl ⟨_, rfl⟩
  refine hd.trans ?_
  unfold sheafAfter
  dsimp only
  generalize markDirty a d.s = s at ht hq hd ⊢
  rw [← ht, ← hq] at h
  rw [h]
  dsimp only
  split
  · exact Ended.refl s
  have h1 := ended_ite (leads s = true) (hqueue s 0x10 (admitMsg i s false))
  generalize (if leads s = true then sheafQueue s 0x10 (admitMsg i s false) else s) = s1 at h1 ⊢
  have h2 := h1.trans (ended_ite (i.alone = 1) (hqueue s1 0x22 (verdictBody a i.chan d)))
  generalize (if i.alone = 1 then sheafQueue s1 0x22 (verdictBody a i.chan d) else s1) = s2 at h2 ⊢
  have h3 := h2.trans (ended_ite ((!(counterEffects a s).isEmpty) = true) (hqueue s2 0x21 (leBytes 8 s.seq.adm ++ leBytes 4 d.code)))
  generalize (if (!(counterEffects a s).isEmpty) = true then sheafQueue s2 0x21 (leBytes 8 s.seq.adm ++ leBytes 4 d.code) else s2) = s3 at h3 ⊢
  have h4 := h3.trans (hqueue s3 0x20 (leBytes 8 s.seq.adm ++ resultDigest a d))
  split
  · split
    · exact h3
    · exact h4
  · split
    · exact h3.trans (ended_of rfl rfl rfl rfl ⟨[], (List.append_nil _).symm⟩)
    · exact h4.trans (ended_of rfl rfl rfl rfl ⟨[], (List.append_nil _).symm⟩)

/-- The end of an admission. -/
theorem admitOne_ended {s : State} {i : AdmIn} {f : State → Done} {d : Done} (h : admitOne s i f = some d)
    (ht : SMap.look (f (number s)).s.sheaf.theirs (f (number s)).s.seq.adm = none) : Ended (f (number s)).s d.s := by
  unfold admitOne at h
  split at h
  · cases h
  · cases h
    dsimp only
    have h0 := Settled.trans (settled_token (number s) (f (number s)).s) (settled_commit s (takeToken (number s) (f (number s)).s))
    have h1 := Settled.trans h0 (settled_counters i s _)
    have h2 := Settled.trans h1 (settled_log (number s) i { f (number s) with s := noteCounters i s (noteCommit s (takeToken (number s) (f (number s)).s)) })
    have hs := congrArg (fun x => x.sheaf.theirs) h2.rest
    have hq := congrArg (fun x => x.seq.adm) h2.rest
    have hlast := ended_sheaf (number s) i ⟨appendLog (number s) i { f (number s) with s := noteCounters i s (noteCommit s (takeToken (number s) (f (number s)).s)) },
      (f (number s)).code, (f (number s)).resp, (f (number s)).random⟩ ((congr (congrArg SMap.look hs) hq).trans ht)
    have hlog := ended_log (number s) i { f (number s) with s := noteCounters i s (noteCommit s (takeToken (number s) (f (number s)).s)) }
    exact ((((ended_token (number s) _).trans (ended_commit s _)).trans (ended_counters i s _)).trans hlog).trans hlast

/-- The work of a numbered request on a session, past check 4. -/
theorem authentic_performs {s : State} {r : Rq} {tr : Trailer} {z : Session} {e : Eff} (hr : Ready s) (h : Authentic s r tr z)
    (hread : recordedRead (numberedIn s r) r = false) (hv : z.role = 3 → serviceOn s = false ∨ vigilOn s = false)
    (he : service (admittedIn s r tr) (callerOf r tr z) r true = .out e) (hkeep : keptOut (admittedIn s r tr) r e = e) :
    perform (numberedIn s r) r = some (e, ⟨0, callerOf r tr z, some tr.slot, false⟩, sealKey s r) := by
  obtain ⟨hh, b, n, f, eq⟩ := numberedIn_cases s r
  have hx : sessionCheck (numberedIn s r) r s.seq.time = ⟨0, callerOf r tr z, some tr.slot, false⟩ := by
    apply sessionCheck_ok h (Nat.le_refl _)
    · rw [eq]
    · rw [eq]; exact keys_congr rfl rfl rfl rfl rfl _ _
    · unfold idleLimit; rw [num_numberedIn]
    · unfold entropyOk; rw [num_numberedIn, eq]; simp [hr.source, hr.entropy]
    · unfold cipherUp; rw [num_numberedIn, hr.lane]; rfl
  have hcn : callerNow s r tr = callerOf r tr z := by unfold callerNow; rw [h.slot]; rfl
  have ha : beforeService (numberedIn s r) r ⟨0, callerOf r tr z, some tr.slot, false⟩ = admittedIn s r tr := by
    unfold beforeService afterSession admittedIn
    rw [h.trailer, eq, hcn]
    rfl
  exact perform_ok hx rfl rfl (by
    rintro ⟨h1, -, h2, h3⟩
    have h1' : z.role = 3 := by simpa [callerOf] using h1
    rcases hv h1' with h4 | h4
    · rw [h2] at h4; cases h4
    · rw [h3] at h4; cases h4) hread (by rw [ha]; exact he) (by rw [ha]; exact hkeep)

/-- A numbered request on a session, ended on its effect. -/
theorem authentic_ended {s : State} {r : Rq} {tr : Trailer} {z : Session} {e : Eff} (hr : Ready s) (h : Authentic s r tr z)
    (hn : isNumbered s r = true) (hi : transferOf s r.origin = none ∨ (r.svc ≠ 3 ∧ r.svc ≠ 5)) (hread : recordedRead (numberedIn s r) r = false)
    (hv : z.role = 3 → serviceOn s = false ∨ vigilOn s = false)
    (he : service (admittedIn s r tr) (callerOf r tr z) r true = .out e) (hkeep : keptOut (admittedIn s r tr) r e = e) (hc : e.code ≠ Abt.compareFault ∧ e.code ≠ Abt.resultCheck)
    (hst : Steady s e.s) : Ended e.s (request s r) := by
  obtain ⟨hh', b', htake⟩ := takeInput_cases s r
  have hperf := authentic_performs hr h hread hv he hkeep
  have hid : initDiscard (takeInput s r) r = takeInput s r := initDiscard_same (by rw [htake]; exact hi)
  obtain ⟨d, hd, hdone, hgo, -⟩ := request_runs_from hr h.toSound hn hid (by rw [htake]) (by rw [htake]; exact h.here) (by rw [htake]; exact h.log)
    hperf hc hst.adm hst.first
  have htags : Ended e.s (claimTags e.s r ⟨0, callerOf r tr z, some tr.slot, false⟩ e) ∧
      (claimTags e.s r ⟨0, callerOf r tr z, some tr.slot, false⟩ e).sheaf = e.s.sheaf ∧
      (claimTags e.s r ⟨0, callerOf r tr z, some tr.slot, false⟩ e).seq = e.s.seq := by
    unfold claimTags
    split
    · exact ⟨ended_of rfl rfl rfl rfl ⟨[], (List.append_nil _).symm⟩, rfl, rfl⟩
    · exact ⟨Ended.refl _, rfl, rfl⟩
  have hend := admitOne_ended hd (by
    rw [hdone]
    dsimp only [Option.getD_some, pushSlot]
    rw [htags.2.1, htags.2.2, hst.first, hst.adm]
    exact hr.first)
  rw [hdone] at hend
  have hpush : ∀ u y, Ended u (pushSlot u y) := fun _ _ => ⟨rfl, rfl, rfl, fun _ _ _ _ => rfl, fun _ h => .inl h, .of rfl, rfl, [], (List.append_nil _).symm⟩
  rw [hgo]
  exact (htags.1.trans (hpush _ _)).trans hend

/-- What the discard of a transfer with a code leaves: that of one without, or a stream that has failed. -/
theorem discarded_code (s : State) (x : Transfer) (code : Nat) :
    discarded s x (some code) = discarded s x none ∨ ∃ f, discarded s x (some code) = failStream s f code := by
  unfold discarded
  dsimp only
  split
  · exact .inl rfl
  · split
    · split
      · exact .inr ⟨_, rfl⟩
      · exact .inl rfl
    · exact .inl rfl

/-- The discard of a transfer leaves the counts, the session services' objects and the queue of transfers. -/
theorem discarded_stands (s : State) (x : Transfer) (code : Nat) : (discarded s x (some code)).hw = s.hw ∧ (discarded s x (some code)).transfers = s.transfers ∧
    (∀ k, k < 256 → num (discarded s x (some code)) 0x1010 k = num s 0x1010 k) ∧ ∀ a, Steady a s → Steady a (discarded s x (some code)) := by
  rcases discarded_code s x code with h | ⟨f, h⟩
  · rw [h]
    have hd := discards_discarded s x
    obtain ⟨-, hseq, -, hsheaf, hpend, hotp, -⟩ := hd.checks
    refine ⟨?_, ?_, fun k hk => hd.num hk (by simp), fun a ha => ?_⟩
    · obtain ⟨i, j, e⟩ := hd.rest
      rw [e]
    · unfold discarded
      split_ifs
      · rfl
      · rfl
      · rfl
      · rfl
      · exact setNum_transfers _ _ _ _
      · exact setNum_transfers _ _ _ _
      · rfl
    · exact ⟨by rw [hseq]; exact ha.adm, by rw [hseq]; exact ha.time, by rw [hsheaf]; exact ha.first, hpend.trans ha.queue, hotp.trans ha.fuses⟩
  · rw [h]
    exact ⟨rfl, rfl, fun _ _ => rfl, fun a ha => ha.failStream _ _⟩

/-- A transfer that writes no DOMAIN is discarded without a trace (R111). -/
theorem discarded_plain {s : State} {x : Transfer} {o : Option Nat} (h : x.writing = false ∨ isDomain x.idx x.sub = false) : discarded s x o = s := by
  unfold discarded
  rcases h with h | h
  · rw [h]
    rfl
  split
  · rfl
  split
  · rename_i hs
    obtain ⟨f, hf⟩ := Nat.exists_eq_add_of_le hs.1
    rw [hs.2.2, hf, isDomain_of (find_stream (by omega) 3)] at h
    cases h
  split
  · rename_i hs
    obtain ⟨f, hf⟩ := Nat.exists_eq_add_of_le hs.1
    rw [hs.2.2, hf, isDomain_of (find_ple (by omega) 2)] at h
    cases h
  split
  · rename_i hs
    rw [hs.1, hs.2] at h
    cases h
  split
  · rename_i hs
    rw [hs.1, hs.2] at h
    cases h
  · rfl

/-- The state after an abort of transfer x by code n (R110, R122). -/
def abortedState (u : State) (x : Transfer) (n : Nat) : State :=
  { countDiscard (discarded (dropTransfer u x.origin) x (some 0x01020004)) with
    hw := SMap.put (countDiscard (discarded (dropTransfer u x.origin) x (some 0x01020004))).hw (objKey 0x1010 9) n }

theorem abortOp_aborts {u : State} {c : Ctx} {x : Transfer} {code : Word} (hx : transferOf u c.origin = some x) :
    abortOp u c (leBytes 4 code.toNat) = Eff.fail (abortedState u x code.toNat) (if x.writing ∧ isDomain x.idx x.sub then 10 else 2) 0x01020004 := by
  have hlen : (leBytes 4 code.toNat).length = 4 := leBytes_length 4 _
  have hnum : leNat (leBytes 4 code.toNat) = code.toNat := leNat_leBytes 4 _ (by have := code.isLt; omega)
  unfold abortOp
  rw [hx]
  dsimp only
  rw [hlen, hnum, if_neg (by decide), if_neg (by decide)]
  rfl

/-- An abort counts, and leaves its code (R122). -/
theorem abortedState_counts (u : State) (x : Transfer) (n : Nat) :
    counted (abortedState u x n) 0x1010 6 = sat32 (counted u 0x1010 6) 1 ∧ counted (abortedState u x n) 0x1010 9 = n := by
  obtain ⟨hhw, -, hnum, -⟩ := discarded_stands (dropTransfer u x.origin) x 0x01020004
  have hbefore : counted (discarded (dropTransfer u x.origin) x (some 0x01020004)) 0x1010 6 = counted u 0x1010 6 := by
    unfold counted
    rw [hhw, hnum _ (by decide)]
    rfl
  have hone := counted_incHw (discarded (dropTransfer u x.origin) x (some 0x01020004)) 0x1010 6 1
  rw [hbefore] at hone
  constructor
  · rw [← hone]
    unfold counted abortedState
    exact (SMap.at_put _ _ _ _ _).trans (if_neg (by decide))
  · unfold counted abortedState
    exact (SMap.at_put _ _ _ _ _).trans (if_pos rfl)

end Sys2Proof.Machine
end

section
/-! SUPPORT. The commands of a segmented write (R109 to R113). -/

namespace Sys2Proof.Machine

section
variable {s : State} {r : Req} {tr : Trailer} {z : Session} {x : Transfer} {code : Word} {q : Rq}

theorem service_abort (u : State) (c : Ctx) (n : Bool) (hs : u.stage = 0x11) (hc : num u 0xD802 1 = 0) :
    service u c (reqRq r 7) n = .out (abortOp u c r.body) := by
  have h0 : abortState u = 0 := by
    unfold abortState calderaOn
    rw [hs, hc]
    rfl
  show ReadOut.out (let code := abortState u; if code ≠ 0 then Eff.fail u (classLat u (reqRq r 7) n) code else abortOp u c r.body) = _
  dsimp only
  rw [h0]
  rfl

/-- An abort of a transfer that writes no DOMAIN is ordered (R110). -/
theorem abort_orders (hq : q = reqRq r 7) (hcl : Client s q tr z .any) (hcal : num s 0xD802 1 = 0) (hx : transferOf s q.origin = some x)
    (hb : r.body = leBytes 4 code.toNat) (hplain : x.writing = false ∨ isDomain x.idx x.sub = false) (hlate : s.seq.admTime ≤ s.seq.time) :
    ∃ t, exec (.abortTransfer r) s = .next t ∧ Ordered s t q (some z) 2 0x01020004 [] ∧ transferOf t q.origin = none ∧ OthersStand s t [] ∧
      counted t 0x1010 6 = sat32 (counted s 0x1010 6) 1 ∧ counted t 0x1010 9 = code.toNat := by
  obtain ⟨hh, b, p, hin⟩ := orderedIn_cases s q
  have hsvc : q.svc = 7 := by rw [hq]; rfl
  have horig : x.origin = q.origin := by simpa using List.find?_some hx
  have hnum : isNumbered s q = false := by
    unfold isNumbered
    rw [hsvc, hx]
    rcases hplain with h | h <;> simp [h]
  have hgo : ∀ u, u.stage = 0x11 → num u 0xD802 1 = 0 → service u (callerOf q tr z) q false = .out (abortOp u (callerOf q tr z) (leBytes 4 code.toNat)) := by
    intro u hs hc
    rw [hq, ← hb]
    exact service_abort u _ false hs hc
  have hop := abortOp_aborts (u := orderedIn s q) (c := callerOf q tr z) (x := x) (code := code) (by rw [hin]; exact hx)
  rw [if_neg (by rcases hplain with h | h <;> simp [h])] at hop
  have hstate : abortedState (orderedIn s q) x code.toNat = { dropTransfer (orderedIn s q) q.origin with hw := (abortedState (orderedIn s q) x code.toNat).hw } := by
    unfold abortedState
    rw [discarded_plain hplain, horig]
    rfl
  have hcount := abortedState_counts (orderedIn s q) x code.toNat
  obtain ⟨hh0, b0, htake⟩ := takeInput_cases s q
  obtain ⟨y, m, hreq, hord⟩ := authentic_ordered hcl.ready hcl.authentic hnum (.inr (by omega)) hlate
    (by rw [hgo _ (by rw [htake]; exact hcl.ready.stage) (by rw [htake]; exact hcal)]; simp)
    (by rw [hgo _ (by rw [hin]; exact hcl.ready.stage) (by rw [hin]; exact hcal), hop])
    (by show (abortedState (orderedIn s q) x code.toNat).seq = s.seq; rw [hstate, hin]; rfl) rfl
  have hexec : exec (.abortTransfer r) s = coreCmd (fun s => request s q) s := by rw [hq]; rfl
  refine ⟨_, hexec.trans (coreCmd_next hreq ?_ ?_), hord, ?_, ?_, ?_⟩
  · show (abortedState (orderedIn s q) x code.toNat).pending = s.pending
    rw [hstate, hin]
    rfl
  · show (abortedState (orderedIn s q) x code.toNat).otp = s.otp
    rw [hstate, hin]
    rfl
  · show transferOf (abortedState (orderedIn s q) x code.toNat) q.origin = none
    rw [hstate]
    exact transferOf_dropTransfer (orderedIn s q) q.origin
  · intro i k _ _ _
    show getObj (abortedState (orderedIn s q) x code.toNat) i k = _
    rw [hstate, hin]
    rfl
  · rw [show counted s 0x1010 6 = counted (orderedIn s q) 0x1010 6 by rw [hin]; rfl]
    exact hcount

/-- An abort of a DOMAIN's write is admitted, and ends what the object has taken (R110, R111). -/
theorem abort_admits (hq : q = reqRq r 7) (hcl : Client s q tr z .any) (hcal : num s 0xD802 1 = 0) (hx : transferOf s q.origin = some x)
    (hb : r.body = leBytes 4 code.toNat) (hw : x.writing = true) (hdom : isDomain x.idx x.sub = true) :
    ∃ t, exec (.abortTransfer r) s = .next t ∧ Admitted s t q (some z) 10 0x01020004 [] [] ∧ transferOf t q.origin = none ∧
      OthersStand (discarded (dropTransfer (admittedIn s q tr) q.origin) x (some 0x01020004)) t [] ∧
      counted t 0x1010 6 = sat32 (counted s 0x1010 6) 1 ∧ counted t 0x1010 9 = code.toNat := by
  obtain ⟨hh, b, n, f, hin⟩ := admittedIn_cases s q tr
  have hsvc : q.svc = 7 := by rw [hq]; rfl
  have horig : x.origin = q.origin := by simpa using List.find?_some hx
  have hnum : isNumbered s q = true := by
    unfold isNumbered
    rw [hsvc, hx]
    simp [hw, hdom]
  have hop := abortOp_aborts (u := admittedIn s q tr) (c := callerOf q tr z) (x := x) (code := code) (by rw [hin]; exact hx)
  rw [if_pos ⟨hw, hdom⟩] at hop
  have hserve : service (admittedIn s q tr) (callerOf q tr z) q true = .out (Eff.fail (abortedState (admittedIn s q tr) x code.toNat) 10 0x01020004) := by
    rw [← hop, ← hb, hq]
    exact service_abort _ _ true (by rw [← hq, hin]; exact hcl.ready.stage) (by rw [num_admittedIn]; exact hcal)
  obtain ⟨hhw, htr, hsess, hsteady⟩ := discarded_stands (dropTransfer (admittedIn s q tr) x.origin) x 0x01020004
  have hst : Steady s (abortedState (admittedIn s q tr) x code.toNat) := (((hsteady s ((steady_admitted s q tr).withTransfers _)).incHw _ _ _).withHw _)
  have hkeep : ∀ e : Eff, e.code ≠ 0 → keptOut (admittedIn s q tr) q e = e := fun e h => if_pos (.inl h)
  have hcode : (0x01020004 : Nat) ≠ Abt.compareFault ∧ (0x01020004 : Nat) ≠ Abt.resultCheck := by decide
  have hpass := hkeep (Eff.fail (abortedState (admittedIn s q tr) x code.toNat) 10 0x01020004) (by show (0x01020004 : Nat) ≠ 0; decide)
  obtain ⟨y, hset, hadm⟩ := authentic_admits hcl.ready hcl.authentic hnum (.inr (by omega)) (recordedRead_write (by omega)) hcl.unrecorded hserve hpass
    hcode hst.adm hst.time hst.first
  have hhwall : (request s q).hw = (abortedState (admittedIn s q tr) x code.toNat).hw := (authentic_ended hcl.ready hcl.authentic hnum (.inr (by omega)) (recordedRead_write (by omega))
    hcl.unrecorded hserve hpass hcode hst).hw
  have hexec : exec (.abortTransfer r) s = coreCmd (fun s => request s q) s := by rw [hq]; rfl
  refine ⟨_, hexec.trans (coreCmd_settled rfl hset hst), hadm, ?_, ?_, ?_⟩
  · have hall : (request s q).transfers = (dropTransfer (admittedIn s q tr) x.origin).transfers := (congrArg (fun a => a.transfers) hset.rest).trans htr
    have hnone := transferOf_dropTransfer (admittedIn s q tr) q.origin
    rw [horig] at hall
    unfold transferOf at hnone ⊢
    rw [hall]
    exact hnone
  · intro i k hk hbook _
    rw [hset.objects i k hk hbook, getObj_pushSlot, ← horig]
    rfl
  · obtain ⟨h6, h9⟩ := abortedState_counts (admittedIn s q tr) x code.toNat
    have hnum' : ∀ k, k < 256 → bookkeeping 0x1010 k = false → counted (request s q) 0x1010 k = counted (abortedState (admittedIn s q tr) x code.toNat) 0x1010 k := by
      intro k hk hbook
      unfold counted
      rw [hhwall]
      unfold num
      rw [hset.objects _ k hk hbook]
      rfl
    rw [hnum' 6 (by decide) (by decide), hnum' 9 (by decide) (by decide), h6, h9]
    refine ⟨?_, rfl⟩
    unfold counted
    rw [num_admittedIn, hin]

end

section
variable {s : State} {r : Req} {tr : Trailer} {z : Session} {d : Desc} {g : Seg} {x : Transfer} {q : Rq}

/-- A segment of a DOMAIN before its END is taken in an admission (R110, R112). -/
theorem domainSegment_admits {e : Eff} (hq : q = reqRq r 6) (hcl : Client s q tr z .any) (hd : Dict.find r.idx r.sub = (true, some d))
    (hb : r.body = segBody g) (hn : NextSegment s q (some tr.slot) r.idx r.sub g x) (hdom : d.ty = .domain) (hpart : x.got + g.len < x.total)
    (he : e = domainData (setTransfer (admittedIn s q tr) (x.took g s.seq.time)) r.idx r.sub g.data .ok) (h0 : e.code = 0) :
    ∃ t, exec (.writeSeg r) s = .next t ∧ Admitted s t q (some z) e.lat 0 (segReply g) e.acts ∧ OthersStand e.s t [] ∧ t.transfers = e.s.transfers := by
  have htime : (admittedIn s q tr).seq.admTime = s.seq.time := (steady_admitted s q tr).time
  have hnum : isNumbered s q = true := by
    rw [hq]
    show (isDomain r.idx r.sub || _) = true
    rw [isDomain_of hd, hdom]
    rfl
  have hwork : segmentWork (admittedIn s q tr) (callerOf q tr z) r.idx r.sub d x g = e := by
    unfold segmentWork afterSegment
    rw [if_neg (by omega), if_pos hdom, htime, ← he, if_neg (by simp [h0])]
  have hst : Steady s e.s := by
    rw [he]
    exact ((steady_admitted s q tr).withTransfers _).domainData _ _ _
  obtain ⟨t, y, hrun, hadm, hset⟩ := segment_admits (c := .writeSeg r) (by rw [hq]; exact reqRq_segment hb) (by rw [hq]; rfl) hcl hd hn hnum hwork h0 hst
  exact ⟨t, hrun, hadm, fun i k hk hbook _ => (hset.objects i k hk hbook).trans (getObj_pushSlot _ _ _ _), congrArg (fun a => a.transfers) hset.rest⟩

/-- The two kinds of object whose END only stores its value (R112). -/
theorem heldSegmentEnd_completes {v : Bytes} (hq : q = reqRq r 6) (hcl : Client s q tr z .any) (hd : Dict.find r.idx r.sub = (true, some d))
    (hb : r.body = segBody g) (hn : NextSegment s q (some tr.slot) r.idx r.sub g x) (ho : Open s) (hlast : x.got + g.len = x.total) (hv : v = x.buf ++ g.data)
    (hk : r.sub < 256) (hacc : d.acc = .rw ∨ d.acc = .wo) (hdom : d.ty ≠ .domain) (hheld : holdsOnly r.idx = true ∨ (r.idx = 0x1000 ∧ r.sub = 7))
    (henc : encodingCheck d v = 0) (hpc : plainCheck (admittedIn s q tr) r.idx r.sub (leNat v) v = 0) :
    ∃ t, exec (.writeSeg r) s = .next t ∧ Admitted s t q (some z) 10 0 (segReply g) [] ∧ transferOf t q.origin = none ∧
      getObj t r.idx r.sub = d.decode v ∧ OthersStand s t [(r.idx, r.sub)] := by
  have hrw : d.acc ≠ .const ∧ d.acc ≠ .ro := by rcases hacc with h | h <;> rw [h] <;> decide
  have hrun := fun hplain hca hse hmode hw => heldEnd_completes (c := .writeSeg r) (hq.trans (reqRq_segment hb)) (by rw [hq]; rfl) hcl ho hd hn hlast hv hk hdom hplain hca hse
    hmode hw hpc
  rcases hheld with hheld | ⟨hi, hsub⟩
  · have hi := (holdsOnly_iff r.idx).mp hheld
    have hp := heldPlainly_of hheld hd
    unfold heldPlainly at hp
    simp only [Bool.and_eq_true, Bool.not_eq_true', decide_eq_true_eq, Bool.or_eq_true, hrw.1, hrw.2, or_false, false_or] at hp
    obtain ⟨⟨hlong, -, hrole⟩, hbook⟩ := hp
    refine hrun ⟨hlong, hrole, hbook⟩ (by unfold isCarried; simp; omega) (by unfold isSensorSetting; simp; omega) (by omega) fun u c h => ?_
    rw [writeValue_holdsOnly hheld henc, h]
    rfl
  · have hdesc : d = ⟨.label, 33, .rw, .operator, true, false, .oct [0]⟩ := by
      rw [hi, hsub] at hd
      exact (Option.some.inj (congrArg Prod.snd hd)).symm
    refine hrun ⟨by rw [hdesc], by rw [hdesc]; decide, by rw [hi, hsub]; rfl⟩ (by rw [hi, hsub]; rfl) (by rw [hi, hsub]; rfl) (by rw [hi]; decide) fun u c h => ?_
    rw [hi, hsub] at h ⊢
    unfold writeValue
    dsimp only
    rw [henc, if_neg (by decide)]
    show Eff.when u (plainCheck u 0x1000 7 (leNat v) v) u [] = _
    rw [h]
    rfl

end

/-- Settles O10: the INIT opens, a segment is kept or taken by its DOMAIN, the END writes, and an abort ends a transfer. -/
theorem segmentedWriteCompletes : Obligations.segmented_write_completes := by
  unfold Obligations.segmented_write_completes
  refine ⟨?_, ?_, ?_⟩
  · intro s r tr z d n q hq hc ho hd hb hn h0
    exact ⟨fun hdom hlate hsize hchk h16 => writeSegInit_orders hq hc ho hd hb hn h0 hdom hlate hsize hchk h16,
      fun u hdom hsize hchk hu h16 => writeSegInit_admits hq hc ho hd hb hn h0 hdom hsize hchk hu h16⟩
  · intro s r tr z d g x q hq hc hd hb hn
    refine ⟨fun hdom hpart hlate => ?_, fun e hdom hpart he h0 => domainSegment_admits hq hc hd hb hn hdom hpart he h0,
      fun v ho hlast hv hk hacc hdom hheld henc hpc => heldSegmentEnd_completes hq hc hd hb hn ho hlast hv hk hacc hdom hheld henc hpc⟩
    exact segment_orders (c := .writeSeg r) (hq.trans (reqRq_segment hb)) (by rw [hq]; rfl) hc hd hn hdom hpart hlate
  · intro s r tr z x code q hq hc hcal hx hb
    exact ⟨fun hplain hlate => abort_orders hq hc hcal hx hb hplain hlate, fun hw hdom => abort_admits hq hc hcal hx hb hw hdom⟩

end Sys2Proof.Machine
end

section
/-! SUPPORT. Channel epochs and frames outside a pair (R211, R225, R230). -/

namespace Sys2Proof.Machine

theorem OthersStand.refl (s : State) : OthersStand s s [] := fun _ _ _ _ _ => rfl

theorem OthersStand.trans {a b c : State} {xs ys : List (Nat × Nat)} (h : OthersStand a b xs) (g : OthersStand b c ys) (hx : ∀ p ∈ xs, p ∈ ys) :
    OthersStand a c ys := fun i k hk hb hn => (g i k hk hb hn).trans (h.widen hx i k hk hb hn)

theorem OthersStand.num {a b : State} {xs : List (Nat × Nat)} (h : OthersStand a b xs) {i k : Nat} (hk : k < 256) (hb : bookkeeping i k = false) (hn : (i, k) ∉ xs) :
    Machine.num b i k = Machine.num a i k := congrArg Val.toNat (h i k hk hb hn)

/-- What a use of the key-node cache changes. -/
theorem warm_cases (u : State) (n : Nat) : ∃ h p x, warm u n = { u with hw := h, perf := p, cache := x } := by
  have hc : ∀ (v : State) b i m, (∃ h p x, v = { u with hw := h, perf := p, cache := x }) → ∃ h p x, count v b i m = { u with hw := h, perf := p, cache := x } := by
    rintro v b i m ⟨h, p, x, rfl⟩
    obtain ⟨p', e⟩ := count_perf { u with hw := h, perf := p, cache := x } b i m
    exact ⟨h, p', x, e⟩
  have hx : ∀ (v : State) y, (∃ h p x, v = { u with hw := h, perf := p, cache := x }) → ∃ h p x, { v with cache := y } = { u with hw := h, perf := p, cache := x } := by
    rintro v y ⟨h, p, x, rfl⟩
    exact ⟨h, p, y, rfl⟩
  have hfill := hc _ 6 2 1 (hc _ 3 6 1 ⟨(incHw u 0xCA00 8 1).hw, u.perf, u.cache, rfl⟩)
  unfold warm
  dsimp only
  split
  · unfold cacheUse
    dsimp only
    split
    · exact ⟨u.hw, u.perf, _, rfl⟩
    · split
      · exact hx _ _ hfill
      · exact hc _ 6 3 1 (hx _ _ hfill)
  · exact ⟨u.hw, u.perf, u.cache, rfl⟩

section
variable {u : State} {n k v : Nat}

theorem pairNo_alone (h : sheafOn u = false) : pairNo u = 0 := by
  unfold pairNo
  rw [h]
  rfl

theorem chSub_alone (h : sheafOn u = false) : chSub u k = k := by
  unfold chSub
  rw [pairNo_alone h]
  rfl

theorem cnum_alone (h : sheafOn u = false) : cnum u n k = num u (0x4000 + n) k := by
  unfold cnum
  rw [chSub_alone h]

theorem setC_alone (h : sheafOn u = false) : setC u n k v = setNum u (0x4000 + n) k v := by
  unfold setC
  rw [chSub_alone h]

theorem sheafOn_stands {w : State} {xs : List (Nat × Nat)} (h : OthersStand u w xs) (hx : (0x2000, 2) ∉ xs) : sheafOn w = sheafOn u := by
  unfold sheafOn modeFlag
  rw [h.num (by decide) (by decide) hx]

theorem bookkeeping_channel (hn : n < 32768) : bookkeeping (0x4000 + n) k = false := by
  unfold bookkeeping
  simp
  omega

theorem channel_listed (hn : n < 32768) (hk : (SMap.look Dict.tChannelAll k).isSome = true) : (Dict.find (0x4000 + n) k).2.isSome = true := by
  rw [find_channel hn]
  exact hk

/-- The one object that a channel's number is written to. -/
theorem num_setChannel {i' k' : Nat} (hn : n < 32768) (hk : (SMap.look Dict.tChannelAll k).isSome = true) (hk2 : k < 256) (hk' : k' < 256) :
    num (setNum u (0x4000 + n) k v) i' k' = if i' = 0x4000 + n ∧ k' = k then v else num u i' k' := by
  rw [num_setNum u v hk2 hk']
  simp [channel_listed hn hk]

theorem stands_setChannel (hk : k < 256) : OthersStand u (setNum u (0x4000 + n) k v) [(0x4000 + n, k)] := othersStand_setNum u v hk

theorem sheafOn_setChannel (hn : n < 32768) (hk : k < 256) : sheafOn (setNum u (0x4000 + n) k v) = sheafOn u :=
  sheafOn_stands (stands_setChannel hk) (by simp; omega)

theorem chanOf_setChan (u : State) (n : Nat) (x : Chan) : chanOf (setChan u n x) n = x := by
  unfold chanOf setChan
  exact (SMap.at_put _ _ _ _ _).trans (if_pos rfl)

theorem chanOf_updChan (u : State) (n : Nat) (f : Chan → Chan) : chanOf (updChan u n f) n = f (chanOf u n) := chanOf_setChan _ _ _

theorem switchAt_updChan {f : Chan → Chan} (hf : ∀ c, (f c).switchAt = c.switchAt) : (chanOf (updChan u n f) n).switchAt = (chanOf u n).switchAt := by
  rw [chanOf_updChan, hf]

theorem chanOf_congr {w : State} (h : w.chans = u.chans) (n : Nat) : chanOf w n = chanOf u n := by
  unfold chanOf
  rw [h]

theorem OthersStand.updChan {w : State} {xs : List (Nat × Nat)} (h : OthersStand u w xs) (n : Nat) (f : Chan → Chan) : OthersStand u (updChan w n f) xs := h

theorem Steady.updChan {s : State} (h : Steady s u) (n : Nat) (f : Chan → Chan) : Steady s (updChan u n f) := ⟨h.adm, h.time, h.first, h.queue, h.fuses⟩

/-- One epoch raised. -/
theorem raiseEpochs_one (u : State) (k : Nat) : ∃ p bc be, raiseEpochs u [k] = { u with
    perf := p, pers := { u.pers with epochs := SMap.put u.pers.epochs k (epochOf u k + 1), badCopies := bc, badEpochs := be } } := by
  obtain ⟨p, e⟩ := count_perf (writeEpoch u k (epochOf u k + 1)) 8 0 1
  exact ⟨p, _, _, e⟩

theorem epochOf_congr {w : State} (h : w.pers.epochs = u.pers.epochs) (k : Nat) : epochOf w k = epochOf u k := by
  unfold epochOf
  rw [h]

/-- The start of an Open or a rekey where an epoch is left (R211, R225). -/
theorem startEpoch_starts {dest : Nat} (hn : n < 32768) (ha : sheafOn u = false) (he : epochOf u (keyNodeOf u n) < 0xFFFFFF) :
    ∃ t, startEpoch u n dest .ok = (t, 0) ∧ num t (0x4000 + n) 1 = dest ∧ epochOf t (keyNodeOf u n) = epochOf u (keyNodeOf u n) + 1 ∧
      (chanOf t n).switchAt = (chanOf u n).switchAt ++ [u.seq.admTime + 8] ∧ OthersStand u t [(0x4000 + n, 1)] ∧ ∀ s, Steady s u → Steady s t := by
  obtain ⟨p, bc, be, hr⟩ := raiseEpochs_one u (keyNodeOf u n)
  refine ⟨_, (if_neg (by omega)).trans (if_neg (by decide)), ?_, ?_, ?_, ?_, fun s hs => ?_⟩
  all_goals rw [setC_alone (by rw [hr]; exact ha)]
  · exact (num_setChannel hn (by decide) (by decide) (by decide)).trans (if_pos ⟨rfl, rfl⟩)
  · rw [epochOf_congr (u := { u with pers := { u.pers with epochs := SMap.put u.pers.epochs (keyNodeOf u n) (epochOf u (keyNodeOf u n) + 1) } })
      (by
        obtain ⟨d, q, l, hset⟩ := setObj_dict (raiseEpochs u [keyNodeOf u n]) (0x4000 + n) 1 (.num dest)
        show (setObj (raiseEpochs u [keyNodeOf u n]) (0x4000 + n) 1 (.num dest)).pers.epochs = _
        rw [hset, hr])]
    exact (SMap.at_put _ _ _ _ _).trans (if_pos rfl)
  · rw [chanOf_updChan, chanOf_congr (setNum_chans _ _ _ _), hr]
    rfl
  · have h0 : OthersStand u (raiseEpochs u [keyNodeOf u n]) [(0x4000 + n, 1)] := by
      rw [hr]
      exact fun _ _ _ _ _ => rfl
    exact (h0.setNum _ (by decide) (List.mem_singleton_self _)).updChan _ _
  · refine (Steady.setNum ?_ _ _ _).updChan _ _
    rw [hr]
    exact ⟨hs.adm, hs.time, hs.first, hs.queue, hs.fuses⟩

end

/-- What the work of a frame keeps: every object outside xs, the channels' hidden contexts, the sequencer, and an admission that is under way. -/
structure Keeps (u w : State) (xs : List (Nat × Nat)) : Prop where
  objects : OthersStand u w xs
  chans : w.chans = u.chans
  seq : w.seq = u.seq
  down : w.entropyDown = u.entropyDown
  steady : ∀ s, Steady s u → Steady s w

section
variable {u w : State} {xs : List (Nat × Nat)}

theorem Keeps.refl (u : State) (xs : List (Nat × Nat)) : Keeps u u xs := ⟨fun _ _ _ _ _ => rfl, rfl, rfl, rfl, fun _ h => h⟩

theorem Keeps.setNum (h : Keeps u w xs) {i k : Nat} (v : Nat) (hk : k < 256) (hx : (i, k) ∈ xs) : Keeps u (setNum w i k v) xs :=
  ⟨h.objects.setNum v hk hx, (setNum_chans _ _ _ _).trans h.chans, (setNum_seq _ _ _ _).trans h.seq, (setNum_entropyDown _ _ _ _).trans h.down,
    fun s hs => (h.steady s hs).setNum _ _ _⟩

theorem Keeps.count (h : Keeps u w xs) (b i n : Nat) : Keeps u (count w b i n) xs := by
  obtain ⟨p, e⟩ := count_perf w b i n
  rw [e]
  exact ⟨h.objects, h.chans, h.seq, h.down, fun s hs => (h.steady s hs).withPerf p⟩

theorem Keeps.warm (h : Keeps u w xs) (n : Nat) : Keeps u (warm w n) xs := by
  have hs := fun s hs => (h.steady s hs).warm n
  obtain ⟨hh, p, x, e⟩ := warm_cases w n
  rw [e] at hs ⊢
  exact ⟨h.objects, h.chans, h.seq, h.down, hs⟩

theorem Keeps.claimMasks (h : Keeps u w xs) (k : Nat) : Keeps u (claimMasks w k) xs := ⟨h.objects, h.chans, h.seq, h.down, fun s hs => (h.steady s hs).claimMasks k⟩

theorem Keeps.forceIfHigh (h : Keeps u w xs) (n m : Nat) : Keeps u (forceIfHigh w n m) xs := by
  unfold Machine.forceIfHigh
  split
  · refine ⟨h.objects, h.chans, h.seq, h.down, fun s hs => ?_⟩
    have := h.steady s hs
    exact ⟨this.adm, this.time, this.first, this.queue, this.fuses⟩
  · exact h

theorem Keeps.alone (h : Keeps u w xs) (ha : sheafOn u = false) (hx : (0x2000, 2) ∉ xs) : sheafOn w = false := (sheafOn_stands h.objects hx).trans ha

end

/-- Frame f of channel n waits for its release at this time (R230). -/
def FrameWaits (t : State) (n due : Nat) (f : Bytes) : Prop := ∃ x ∈ t.slots, x.due = due ∧ x.work = .frameDown n ∧ x.acts = [.lane1 (.chfDown f)]

/-- A frame that can be sealed is sent with the next sequence (R230, R239). -/
theorem sendFrame_sends {u : State} {n kind : Nat} {body : Bytes} (ha : sheafOn u = false) (hseq : num u (0x4000 + n) 9 < 0xFFFFFFFF)
    (hent : num u 0x2300 1 ≠ 3) (hdown : u.entropyDown = false) (hlane : num u 0xCF20 1 = 0) :
    ∃ t, sendFrame u n kind body .ok = (t, 0) ∧ (chanOf t n).switchAt = (chanOf u n).switchAt ∧
      FrameWaits t n (u.seq.admTime + 4) (sealFrame u n kind (num u (0x4000 + n) 9) body) ∧
      OthersStand u t [(0x4000 + n, 9), (0x4000 + n, 0x12)] ∧ ∀ s, Steady s u → Steady s t := by
  unfold sendFrame
  rw [cnum_alone ha]
  extract_lets seq frame v w x y
  have hpair : (0x2000, 2) ∉ [(0x4000 + n, 9), (0x4000 + n, 0x12)] := by simp
  have hv : Keeps u v [(0x4000 + n, 9), (0x4000 + n, 0x12)] := ((Keeps.refl u _).warm _).claimMasks _
  have hw : Keeps u w [(0x4000 + n, 9), (0x4000 + n, 0x12)] := by
    unfold w
    rw [setC_alone (hv.alone ha hpair)]
    exact (hv.setNum _ (by decide) (by simp)).forceIfHigh _ _
  have hx : Keeps u x [(0x4000 + n, 9), (0x4000 + n, 0x12)] := by
    unfold x incC
    rw [setC_alone (hw.alone ha hpair)]
    exact (hw.setNum _ (by decide) (by simp)).count _ _ _
  have hup : cipherUp v = true := by
    unfold cipherUp
    rw [hv.objects.num (by decide) (by decide) (by simp), hlane]
    rfl
  rw [if_neg (by omega), if_neg hent, if_neg (by rw [hv.down, hdown]; decide), if_neg (by rw [hup]; decide)]
  refine ⟨_, rfl, ?_, ?_, hx.objects, fun s hs => ?_⟩
  · have hy : (chanOf y n).switchAt = (chanOf x n).switchAt := switchAt_updChan fun _ => rfl
    have hxu : (chanOf x n).switchAt = (chanOf u n).switchAt := by rw [chanOf_congr hx.chans]
    exact hy.trans hxu
  · refine ⟨_, List.mem_append_right _ (List.mem_singleton_self _), ?_, rfl, rfl⟩
    show y.seq.admTime + 4 = _
    rw [show y.seq = x.seq from rfl, hx.seq]
  · have := hx.steady s hs
    exact ⟨this.adm, this.time, this.first, this.queue, this.fuses⟩

end Sys2Proof.Machine
end

section
/-! SUPPORT. Writes of a channel's objects outside a pair (R211 to R214). -/

namespace Sys2Proof.Machine

section
variable {s : State} {h : Hdr} {tr : Trailer} {z : Session} {n k : Nat} {v : Bytes} {d : Desc} {e0 : Eff} {i : Instr} {P : State → Prop}

theorem encodingCheck_plain (hd : d.ty ≠ .bool ∧ d.ty ≠ .s20 ∧ d.ty ≠ .label) : encodingCheck d v = 0 := by
  unfold encodingCheck
  split
  · exact absurd ‹_› hd.1
  · exact absurd ‹_› hd.2.1
  · exact absurd ‹_› hd.2.2
  · rfl

theorem modeCheck_channel {u : State} {c : Ctx} (hn : n < 32768) (hk : k < 0x40) (hs : isSendRecv (0x4000 + n) k = true → serviceOn u = false) :
    modeCheck u c true (0x4000 + n) k d = 0 := by
  have hp : needsProvision u (0x4000 + n) k = false := by
    unfold needsProvision
    simp
    omega
  unfold modeCheck
  rw [if_neg (by omega), if_neg (by rintro ⟨h1, h2, -⟩; rw [hs h1] at h2; cases h2), if_neg (by omega), if_neg (by omega), if_neg (by decide),
    if_neg (by omega), if_neg (by omega), hp, if_neg (by simp), if_neg (by omega)]

theorem ownerCheck_channel {u : State} {c : Ctx} (hn : n < 32768) (hs : isSendRecv (0x4000 + n) k = true → c.origin = cnum u n 5) :
    ownerCheck u c true (0x4000 + n) k = 0 := by
  unfold ownerCheck
  split
  · rw [show 0x4000 + n - 0x4000 = n by omega]
    exact if_pos (.inr (hs ‹_›))
  · rw [if_neg (by omega), if_neg (by omega)]

/-- A write to an object of channel n, whose effect is chanWrite (R211). -/
theorem chan_completes (ho : Open s) (hn : n < 32768) (hk : k < 0x40) (hcl : Client s (rqWrite h (0x4000 + n) k v) tr z d.role)
    (hexec : exec i s = coreCmd (fun s => request s (rqWrite h (0x4000 + n) k v)) s) (hf : SMap.look Dict.tChannelAll k = some d)
    (hty : d.ty = .u8 ∨ d.ty = .u16 ∨ d.ty = .u32 ∨ d.ty = .handle) (hd : v.length = d.size ∧ d.size ≤ 24) (ha : d.acc ≠ .const ∧ d.acc ≠ .ro) (hlong : d.longOp = false)
    (hsend : isSendRecv (0x4000 + n) k = true → num s 0x2000 3 = 0 ∧ num s (0x4000 + n) 5 = h.origin)
    (hw : chanWrite (admittedIn s (rqWrite h (0x4000 + n) k v) tr) n k (leNat v) .ok = e0) (h0 : e0.code = 0)
    (hg : e0.acts.any stagesEffect = false) (hb : e0.body = []) (hst : Steady s e0.s)
    (hP : ∀ y t, Settled (pushSlot (setObj e0.s (0x4000 + n) k (d.decode v)) y) t → P t) : Completes i s (rqWrite h (0x4000 + n) k v) z e0.lat e0.acts P := by
  have hne : d.ty ≠ .bool ∧ d.ty ≠ .s20 ∧ d.ty ≠ .label ∧ d.ty ≠ .domain := by
    rcases hty with h | h | h | h <;> rw [h] <;> decide
  have hwrite : ∀ u x p, writeValue u x (0x4000 + n) k d v p = chanWrite u n k (leNat v) p := by
    intro u x p
    unfold writeValue
    dsimp only
    rw [encodingCheck_plain ⟨hne.1, hne.2.1, hne.2.2.1⟩, if_neg (by decide), if_pos (by omega), show 0x4000 + n - 0x4000 = n by omega,
      show chanBase k = k from Nat.mod_eq_of_lt hk]
  refine open_completes ho hcl hexec ((find_channel hn k).trans (by rw [hf])) ⟨hne.2.2.2, hne.2.2.1, hd⟩ ha (by simp [hlong])
    (fun _ _ => lifecycleCheck_elsewhere (by omega)) (fun c hc _ => ownerCheck_channel hn fun h => ?_) (fun c hs _ => modeCheck_channel hn hk fun h => ?_) (by omega)
    (by unfold isCarried; simp; omega) (by unfold isSensorSetting; simp; omega) ((hwrite _ _ _).trans hw) h0 hg hb hst hP
  · rw [hc, cnum_alone (sheafOn_admittedIn ho.single _), num_admittedIn]
    exact (hsend h).2.symm
  · unfold serviceOn modeFlag
    rw [num_admittedIn, (hsend h).1]
    rfl

end

section
variable {a t : State} {i k : Nat} {v : Val} {y : Slot}

theorem written_chans (h : Settled (pushSlot (setObj a i k v) y) t) (n : Nat) : chanOf t n = chanOf a n :=
  chanOf_congr (congrArg (fun x => x.chans) (written_rest h)) n

theorem written_epochs (h : Settled (pushSlot (setObj a i k v) y) t) (n : Nat) : epochOf t n = epochOf a n :=
  epochOf_congr (congrArg (fun x => x.pers.epochs) (written_rest h)) n

theorem written_slots (h : Settled (pushSlot (setObj a i k v) y) t) : ∀ x ∈ a.slots, x ∈ t.slots := by
  intro x hx
  rw [show t.slots = (pushSlot a y).slots from congrArg (fun x => x.slots) (written_rest h)]
  exact List.mem_append_left _ hx

end

/-- What the admission's start leaves of a channel. -/
theorem chan_admittedIn {s : State} {r : Rq} {tr : Trailer} (n : Nat) (ha : num s 0x2000 2 = 0) : chanState (admittedIn s r tr) n = num s (0x4000 + n) 1 ∧
    keyNodeOf (admittedIn s r tr) n = num s (0x4000 + n) 2 % 0x10000 ∧ chanOf (admittedIn s r tr) n = chanOf s n ∧ heartbeatLoad (admittedIn s r tr) = heartbeatLoad s ∧
      (∀ k, epochOf (admittedIn s r tr) k = epochOf s k) ∧ (admittedIn s r tr).entropyDown = s.entropyDown ∧ interval (admittedIn s r tr) n = interval s n := by
  have hs := sheafOn_admittedIn (tr := tr) ha r
  refine ⟨?_, ?_, ?_⟩
  · unfold chanState
    rw [cnum_alone hs, num_admittedIn]
  · unfold keyNodeOf
    rw [cnum_alone hs, num_admittedIn]
  · obtain ⟨hh, b, m, f, e⟩ := admittedIn_cases s r tr
    rw [e]
    exact ⟨rfl, rfl, fun _ => rfl, rfl, rfl⟩

/-- A closed channel with a route opens where the load allows it (R211, R216, R218). -/
theorem openChannel_starts {u : State} {n : Nat} (ha : sheafOn u = false) (h1 : num u (0x4000 + n) 1 = 1) (h4 : num u (0x4000 + n) 4 ≠ 0)
    (hload : heartbeatLoad u + ceilRate (if num u (0x4000 + n) 13 ≠ 0 then num u (0x4000 + n) 13 else num u (0x3000 + num u (0x4000 + n) 3) 1) ≤ 300000) :
    openChannel u n .ok = startEpoch (updChan u n fun c => { c with tmpl := tmplNow u n }) n 2 .ok := by
  have hint : interval (updChan u n fun c => { c with tmpl := tmplNow u n }) n =
      if num u (0x4000 + n) 13 ≠ 0 then num u (0x4000 + n) 13 else num u (0x3000 + num u (0x4000 + n) 3) 1 := by
    unfold interval tmplAt
    dsimp only
    rw [chanOf_updChan, show ∀ f, cnum (updChan u n f) n 13 = num u (0x4000 + n) 13 from fun f => cnum_alone ha]
    dsimp only [tmplNow, List.range, List.range.loop, List.map, List.getD, List.getElem?_cons_zero, Option.getD_some]
    rw [cnum_alone ha]
  unfold openChannel chanState
  rw [cnum_alone ha, cnum_alone ha, h1]
  dsimp only
  rw [hint, if_neg (by decide), if_neg (by decide), if_neg (by decide), if_neg (by decide), if_neg h4, if_neg (by omega)]
  rfl

/-- The Open object and the Rekey object of a channel. -/
def channelAction : Desc := ⟨.u8, 1, .rwx, .operator, false, false, .num 0⟩

section
variable {s : State} {h : Hdr} {tr : Trailer} {z : Session} {n : Nat} {q : Rq}

/-- Open with 0x01 (R211, R216, R218). -/
theorem channelOpen_completes {i : Instr} (ho : Open s) (hn : n < 32768) (hq : q = rqWrite h (0x4000 + n) 6 [1]) (hexec : exec i s = coreCmd (fun s => request s q) s)
    (hcl : Client s q tr z .operator) (h1 : num s (0x4000 + n) 1 = 1) (h4 : num s (0x4000 + n) 4 ≠ 0)
    (he : epochOf s (num s (0x4000 + n) 2 % 0x10000) < 0xFFFFFF)
    (hload : heartbeatLoad s + ceilRate (if num s (0x4000 + n) 13 ≠ 0 then num s (0x4000 + n) 13 else num s (0x3000 + num s (0x4000 + n) 3) 1) ≤ 300000) :
    Completes i s q z 10 [] fun t => num t (0x4000 + n) 1 = 2 ∧
      epochOf t (num s (0x4000 + n) 2 % 0x10000) = epochOf s (num s (0x4000 + n) 2 % 0x10000) + 1 ∧
        (chanOf t n).switchAt = (chanOf s n).switchAt ++ [s.seq.time + 8] ∧ OthersStand s t [(0x4000 + n, 1), (0x4000 + n, 6)] := by
  have hs : sheafOn (admittedIn s q tr) = false := sheafOn_admittedIn ho.single q
  have hu := steady_admitted s q tr
  obtain ⟨-, hnode, hchan, hsum, hepoch, -, -⟩ := chan_admittedIn (r := q) (tr := tr) n ho.single
  have hopen := openChannel_starts (n := n) hs (by rw [num_admittedIn, h1]) (by rw [num_admittedIn]; exact h4)
    (by rw [hsum, num_admittedIn, num_admittedIn, num_admittedIn]; exact hload)
  let w := updChan (admittedIn s q tr) n fun c => { c with tmpl := tmplNow (admittedIn s q tr) n }
  have hwnode : keyNodeOf w n = num s (0x4000 + n) 2 % 0x10000 := hnode
  have hwepoch : ∀ k, epochOf w k = epochOf s k := hepoch
  obtain ⟨t, ht, hstate, hnext, hswitch, hothers, hsteady⟩ := startEpoch_starts (dest := 2) hn (show sheafOn w = false from hs) (by rw [hwnode, hwepoch]; exact he)
  have hst := hsteady s (hu.updChan _ _)
  rw [hwnode, hwepoch] at hnext
  have hat : w.seq.admTime = s.seq.time := hu.time
  rw [switchAt_updChan (by exact fun _ => rfl), hchan, hat] at hswitch
  rw [hq] at hcl hexec ⊢
  refine chan_completes (d := channelAction) (e0 := Eff.ok t 10) ho hn (by decide) hcl hexec rfl (.inl rfl) ⟨rfl, by decide⟩ (by decide) rfl
    (fun h => ?_) ?_ rfl rfl rfl hst fun y t' hset => ⟨?_, ?_, ?_, ?_⟩
  · simp [isSendRecv, chanBase] at h
  · show Eff.of Lat.write (openChannel (admittedIn s _ tr) n .ok) = _
    rw [← hq, hopen, ht]
    rfl
  · exact (written_otherNum hset (by decide) (by decide) (bookkeeping_channel hn) (by omega)).trans hstate
  · rw [written_epochs hset]
    exact hnext
  · rw [written_chans hset]
    exact hswitch
  · exact written_others hset (by decide) ((othersStand_admittedIn s q tr []).trans (hothers.widen (by simp)) (by simp)) (by simp)

/-- Rekey with 0x01 (R211, R225). -/
theorem channelRekey_completes {i : Instr} (ho : Open s) (hn : n < 32768) (hq : q = rqWrite h (0x4000 + n) 7 [1]) (hexec : exec i s = coreCmd (fun s => request s q) s)
    (hcl : Client s q tr z .operator) (h1 : num s (0x4000 + n) 1 = 3) (he : epochOf s (num s (0x4000 + n) 2 % 0x10000) < 0xFFFFFF) :
    Completes i s q z 10 [] fun t => num t (0x4000 + n) 1 = 4 ∧
      epochOf t (num s (0x4000 + n) 2 % 0x10000) = epochOf s (num s (0x4000 + n) 2 % 0x10000) + 1 ∧
        (chanOf t n).switchAt = (chanOf s n).switchAt ++ [s.seq.time + 8] := by
  have hs : sheafOn (admittedIn s q tr) = false := sheafOn_admittedIn ho.single q
  have hu := steady_admitted s q tr
  obtain ⟨hstat, hnode, hchan, -, hepoch, -, -⟩ := chan_admittedIn (r := q) (tr := tr) n ho.single
  have hrekey : rekeyChannel (admittedIn s q tr) n .ok = startEpoch (admittedIn s q tr) n 4 .ok := by
    unfold rekeyChannel
    rw [hstat, h1]
    rfl
  obtain ⟨t, ht, hstate, hnext, hswitch, -, hsteady⟩ := startEpoch_starts (dest := 4) hn hs (by rw [hnode, hepoch]; exact he)
  rw [hnode, hepoch] at hnext
  rw [hchan, hu.time] at hswitch
  rw [hq] at hcl hexec ⊢
  refine chan_completes (d := channelAction) (e0 := Eff.ok t 10) ho hn (by decide) hcl hexec rfl (.inl rfl) ⟨rfl, by decide⟩ (by decide) rfl
    (fun h => ?_) ?_ rfl rfl rfl (hsteady s hu) fun y t' hset => ⟨?_, ?_, ?_⟩
  · simp [isSendRecv, chanBase] at h
  · show Eff.of Lat.write (rekeyChannel (admittedIn s _ tr) n .ok) = _
    rw [← hq, hrekey, ht]
    rfl
  · exact (written_otherNum hset (by decide) (by decide) (bookkeeping_channel hn) (by omega)).trans hstate
  · rw [written_epochs hset]
    exact hnext
  · rw [written_chans hset]
    exact hswitch

/-- The first bytes of a frame name its kind and its channel (R219). -/
theorem sealFrame_head {u : State} {kind seq : Nat} {body : Bytes} (hn : n < 32768) (ha : sheafOn u = false) (hk : 0x40 + kind < 256) :
    ((sealFrame u n kind seq body).headD 0).toNat = 0x40 + kind ∧ leNat (((sealFrame u n kind seq body).drop 2).take 2) = n := by
  have hfield : chanField u n = n := by
    unfold chanField
    rw [pairNo_alone ha]
    rfl
  constructor
  · show (BitVec.ofNat 8 (0x40 + kind)).toNat = _
    exact Nat.mod_eq_of_lt hk
  · have : ((sealFrame u n kind seq body).drop 2).take 2 = leBytes 2 (chanField u n) := by
      unfold sealFrame frameHead
      dsimp only
      simp only [List.append_assoc, List.cons_append, List.nil_append, List.drop_succ_cons, List.drop_zero]
      exact List.take_left' (leBytes_length 2 _)
    rw [this, hfield]
    exact leNat_leBytes 2 _ (by omega)

/-- A live channel is closed; where frames are sent, a CLOSE frame goes out (R211, R248). -/
theorem closeChannel_closes {u : State} (hn : n < 32768) (ha : sheafOn u = false) (hent : num u 0x2300 1 ≠ 3) (hdown : u.entropyDown = false) (hlane : num u 0xCF20 1 = 0)
    (h1 : num u (0x4000 + n) 1 = 2 ∨ ((num u (0x4000 + n) 1 = 3 ∨ num u (0x4000 + n) 1 = 4) ∧ num u (0x4000 + n) 9 < 0xFFFFFFFF)) :
    ∃ t, closeChannel u n .ok = t ∧ num t (0x4000 + n) 1 = 1 ∧ (chanOf t n).switchAt = (chanOf u n).switchAt ∧
      (num u (0x4000 + n) 1 ≠ 2 → ∃ f, FrameWaits t n (u.seq.admTime + 4) f ∧ (f.headD 0).toNat = 0x45 ∧ leNat ((f.drop 2).take 2) = n) ∧ ∀ s, Steady s u → Steady s t := by
  have hlive : closeChannel u n .ok = closeFrom u n .ok := by
    unfold closeChannel chanState
    rw [cnum_alone ha]
    exact if_pos (by rcases h1 with h | ⟨h | h, -⟩ <;> rw [h] <;> decide)
  refine ⟨_, rfl, ?_⟩
  rw [hlive]
  unfold closeFrom chanState
  rw [cnum_alone ha]
  by_cases h2 : num u (0x4000 + n) 1 = 2
  · rw [h2, if_neg (by decide), setC_alone ha]
    refine ⟨?_, ?_, fun h => absurd rfl h, fun s hs => hs.setNum _ _ _⟩
    · exact (num_setChannel hn (by decide) (by decide) (by decide)).trans (if_pos ⟨rfl, rfl⟩)
    · rw [chanOf_congr (setNum_chans _ _ _ _)]
  · obtain ⟨h34, h9⟩ := h1.resolve_left h2
    obtain ⟨t, ht, hswitch, ⟨x, hx, hdue, hwork, hacts⟩, hothers, hsteady⟩ :=
      sendFrame_sends (n := n) (kind := 5) (body := controlPayload u 0 false) ha h9 hent hdown hlane
    have hta : sheafOn t = false := (sheafOn_stands hothers (by simp)).trans ha
    dsimp only
    rw [if_pos (by rcases h34 with h | h <;> rw [h] <;> decide), ht, setC_alone hta]
    refine ⟨?_, ?_, fun _ => ⟨_, ⟨x, ?_, hdue, hwork, hacts⟩, sealFrame_head hn ha (by decide)⟩, fun s hs => (hsteady s hs).setNum _ _ _⟩
    · exact (num_setChannel hn (by decide) (by decide) (by decide)).trans (if_pos ⟨rfl, rfl⟩)
    · rw [chanOf_congr (setNum_chans _ _ _ _)]
      exact hswitch
    · rw [setNum_slots]
      exact hx

/-- Open with 0x00 (R211, R248). -/
theorem channelClose_completes {i : Instr} (ho : Open s) (hn : n < 32768) (hq : q = rqWrite h (0x4000 + n) 6 [0]) (hexec : exec i s = coreCmd (fun s => request s q) s)
    (hcl : Client s q tr z .operator)
    (h1 : num s (0x4000 + n) 1 = 2 ∨ ((num s (0x4000 + n) 1 = 3 ∨ num s (0x4000 + n) 1 = 4) ∧ num s (0x4000 + n) 9 < 0xFFFFFFFF)) :
    Completes i s q z 10 [] fun t => num t (0x4000 + n) 1 = 1 ∧ (chanOf t n).switchAt = (chanOf s n).switchAt ∧
      (num s (0x4000 + n) 1 ≠ 2 → ∃ x ∈ t.slots, x.due = s.seq.time + 4 ∧ x.work = .frameDown n ∧ ∃ f, x.acts = [.lane1 (.chfDown f)] ∧
        (f.headD 0).toNat = 0x45 ∧ leNat ((f.drop 2).take 2) = n) := by
  have hs : sheafOn (admittedIn s q tr) = false := sheafOn_admittedIn ho.single q
  have hu := steady_admitted s q tr
  obtain ⟨-, -, hchan, -, -, hdown, -⟩ := chan_admittedIn (r := q) (tr := tr) n ho.single
  obtain ⟨t, ht, hstate, hswitch, hframe, hsteady⟩ := closeChannel_closes hn hs (by rw [num_admittedIn]; exact hcl.ready.entropy) (hdown.trans hcl.ready.source)
    (by rw [num_admittedIn]; exact hcl.ready.lane) (by rw [num_admittedIn, num_admittedIn]; exact h1)
  rw [hchan] at hswitch
  rw [hu.time, num_admittedIn] at hframe
  rw [hq] at hcl hexec ⊢
  refine chan_completes (d := channelAction) (e0 := Eff.ok t 10) ho hn (by decide) hcl hexec rfl (.inl rfl) ⟨rfl, by decide⟩ (by decide) rfl
    (fun h => ?_) ?_ rfl rfl rfl (hsteady s hu) fun y t' hset => ⟨?_, ?_, fun h2 => ?_⟩
  · simp [isSendRecv, chanBase] at h
  · show Eff.ok (closeChannel (admittedIn s _ tr) n .ok) Lat.write = _
    rw [← hq, ht]
    rfl
  · exact (written_otherNum hset (by decide) (by decide) (bookkeeping_channel hn) (by omega)).trans hstate
  · rw [written_chans hset]
    exact hswitch
  · obtain ⟨f, ⟨x, hx, hdue, hwork, hacts⟩, hhead, hfield⟩ := hframe h2
    exact ⟨x, written_slots hset x hx, hdue, hwork, f, hacts, hhead, hfield⟩

end

/-- Settles O15: Open and Rekey raise the durable epoch and set the switch, Close ends the epoch with its frame. -/
theorem channelEpochsStartAndEnd : Obligations.channel_epochs_start_and_end := by
  unfold Obligations.channel_epochs_start_and_end
  intro s h n tr z ho
  exact ⟨fun hcl h1 h4 he hload => channelOpen_completes ho n.isLt rfl rfl hcl h1 h4 he hload, fun hcl h1 => channelClose_completes ho n.isLt rfl rfl hcl h1,
    fun hcl h1 he => channelRekey_completes ho n.isLt rfl rfl hcl h1 he⟩

end Sys2Proof.Machine
end

section
/-! SUPPORT. A write and its commit: what is stored, what waits for the release, and the END of a DOMAIN (R107, R112, R123). -/

namespace Sys2Proof.Machine

/-- The value that an accepted write leaves in its object (R98). -/
def storedValue (i k : Nat) (d : Desc) (v : Bytes) : Val := if isWoDomain i k then .oct (digest16 v) else d.decode v

/-- The state of effect e with the CHANGE record of its write (R123). -/
def recorded (u : State) (c : Ctx) (i k : Nat) (d : Desc) (v : Bytes) (e : Eff) : State := journalDigests e.s c i k (oldDigest u i k d) (digest16 v)

section
variable {s u : State} {c : Ctx} {i k : Nat} {d : Desc} {v : Bytes} {e : Eff}

theorem settled_recorded (u : State) (c : Ctx) (i k : Nat) (d : Desc) (v : Bytes) (e : Eff) : Settled e.s (recorded u c i k d v e) := settled_journalAt _ _ _ _ _

/-- The commit of a write whose effects stand with its admission. -/
theorem commitWrite_stored (hg : e.acts.any stagesEffect = false) (hp : roleInForce u true i k d ≠ .pair ∨ d.ty = .domain)
    (hm : ¬(i = 0x2000 ∧ k = 7 ∧ sheafOn u = true)) (hc : isCarried i k = false) (hs : isSensorSetting i k = false) :
    commitWrite u c i k d v e = { e with s := setObj (recorded u c i k d v e) i k (storedValue i k d v) } := by
  have hpair : ¬(roleInForce u true i k d = .pair ∧ d.ty ≠ .domain) := fun h => hp.elim (fun g => g h.1) fun g => h.2 g
  unfold commitWrite recorded storedValue
  dsimp only
  rw [hg, hc, hs, if_neg hpair, if_neg hm]
  simp

/-- The commit of a write whose persistent effects wait for its release (R23). -/
theorem commitWrite_waits (hg : e.acts.any stagesEffect = true) (hf : Dict.find i k = (true, some d)) (hp : roleInForce u true i k d ≠ .pair ∨ d.ty = .domain)
    (hm : ¬(i = 0x2000 ∧ k = 7 ∧ sheafOn u = true)) (hc : isCarried i k = false) (hs : isSensorSetting i k = false) :
    commitWrite u c i k d v e = { e with s := recorded u c i k d v e, acts := heldWrite i k v ++ e.acts } := by
  have hpair : ¬(roleInForce u true i k d = .pair ∧ d.ty ≠ .domain) := fun h => hp.elim (fun g => g h.1) fun g => h.2 g
  unfold commitWrite recorded heldWrite
  dsimp only
  rw [hg, hc, hs, hf, if_neg hpair, if_neg hm]
  simp

/-- A write that every check lets through commits its effect (R107, R125). -/
theorem performWrite_commits (hw : writeValue u c i k d v .ok = e) (ha : accepted e = true) (hcap : capacityCheck u i d = 0) :
    performWrite u c i k d v .ok = commitWrite u c i k d v e := by
  unfold performWrite
  rw [hw]
  dsimp only
  rw [ha, hcap, if_neg (by simp), if_neg (by simp), if_neg (by simp), if_neg (by simp)]

theorem not_pairRole (hs : sheafOn u = false) (hr : ∃ r, roleServes d.role r = true) : roleInForce u true i k d ≠ .pair := by
  unfold roleInForce
  rw [hs]
  rintro h
  obtain ⟨r, hr⟩ := hr
  rw [show d.role = .pair from h] at hr
  cases hr

end

section
variable {s : State} {h : Hdr} {tr : Trailer} {z : Session} {i k : Nat} {v : Bytes} {d : Desc} {e : Eff} {c : Instr} {q : Rq}

/-- An expedited write of a client past its checks is admitted with the effect that it comes to. -/
theorem client_performs (hq : q = rqWrite h i k v) (hexec : exec c s = coreCmd (fun s => request s q) s) (hcl : Client s q tr z d.role)
    (hf : Dict.find i k = (true, some d)) (hl : d.ty ≠ .domain ∧ d.ty ≠ .label ∧ v.length = d.size ∧ d.size ≤ 24)
    (hchk : objectChecks (admittedIn s q tr) (callerOf q tr z) true i k d (some (some v)) = 0)
    (hw : performWrite (admittedIn s q tr) (callerOf q tr z) i k d v .ok = e)
    (hc : e.code ≠ Abt.compareFault ∧ e.code ≠ Abt.resultCheck) (hst : Steady s e.s) :
    ∃ t y, exec c s = .next t ∧ Admitted s t q (some z) e.lat e.code e.body e.acts ∧ Settled (pushSlot e.s y) t ∧ Ended e.s t := by
  subst hq
  have hserv := (service_rqWrite hcl.authentic.sound hf hl hchk).trans (congrArg ReadOut.out hw)
  have hsvc : (rqWrite h i k v).svc = 2 := rfl
  have hkeep : keptOut (admittedIn s (rqWrite h i k v) tr) (rqWrite h i k v) e = e := by simp [keptOut, hsvc]
  have hread : recordedRead (numberedIn s (rqWrite h i k v)) (rqWrite h i k v) = false := recordedRead_write (by simp [hsvc])
  obtain ⟨y, hset, hans⟩ := authentic_admits hcl.ready hcl.authentic rfl (.inr (by simp [hsvc])) hread hcl.unrecorded hserv hkeep hc hst.adm hst.time hst.first
  exact ⟨_, y, hexec.trans (coreCmd_settled rfl hset hst), hans, hset,
    authentic_ended hcl.ready hcl.authentic rfl (.inr (by simp [hsvc])) hread hcl.unrecorded hserv hkeep hc hst⟩

/-- A write on a unit outside a pair and CALDERA passes the checks of its object that say nothing of the owner, the mode and the lifecycle. -/
theorem open_checks (ho : Open s) (hcl : Client s q tr z d.role) (ha : d.acc ≠ .const ∧ d.acc ≠ .ro) (hlc : ∀ u, lifecycle u = 0x5A → lifecycleCheck u true i k = 0)
    (how : ownerCheck (admittedIn s q tr) (callerOf q tr z) true i k = 0) (hmo : modeCheck (admittedIn s q tr) (callerOf q tr z) true i k d = 0)
    (hx : ¬(i = 0xCA20 ∧ k = 1)) : objectChecks (admittedIn s q tr) (callerOf q tr z) true i k d (some (some v)) = 0 :=
  write_checks hcl.ready hcl.role hcl.person ho.single (.inl ho.caldera) ha (hlc _ (lifecycle_admittedIn_open ho _)) how hmo hx

/-- A write whose effects stand with its admission, with the state that its end is settled on. -/
theorem client_stores_at (ho : Room s) (hrf : roleInForce (admittedIn s q tr) true i k d ≠ .pair) (hq : q = rqWrite h i k v) (hexec : exec c s = coreCmd (fun s => request s q) s) (hcl : Client s q tr z d.role)
    (hf : Dict.find i k = (true, some d)) (hl : d.ty ≠ .domain ∧ d.ty ≠ .label ∧ v.length = d.size ∧ d.size ≤ 24) (hlong : d.longOp = true → longRuns s = false)
    (hchk : objectChecks (admittedIn s q tr) (callerOf q tr z) true i k d (some (some v)) = 0)
    (hm : ¬(i = 0x2000 ∧ k = 7)) (hca : isCarried i k = false) (hse : isSensorSetting i k = false)
    (hw : writeValue (admittedIn s q tr) (callerOf q tr z) i k d v .ok = e) (hacc : accepted e = true) (hg : e.acts.any stagesEffect = false)
    (hc : e.code ≠ Abt.compareFault ∧ e.code ≠ Abt.resultCheck) (hst : Steady s e.s) :
    ∃ t y u, exec c s = .next t ∧ Admitted s t q (some z) e.lat e.code e.body e.acts ∧ u = setObj (recorded (admittedIn s q tr) (callerOf q tr z) i k d v e) i k (d.decode v) ∧
      Settled (pushSlot (setObj e.s i k (d.decode v)) y) t ∧ Ended u t := by
  have hval : storedValue i k d v = d.decode v := by
    unfold storedValue
    rw [not_woDomain hf hl.1]
    rfl
  have hcommit := commitWrite_stored (c := callerOf q tr z) (v := v) hg (.inl hrf) (fun h => hm ⟨h.1, h.2.1⟩) hca hse
  rw [hval] at hcommit
  have hperf := (performWrite_commits hw hacc (capacity_ok (room_admitted ho q tr) (by rw [longRuns_admittedIn]; exact hlong))).trans hcommit
  have hrec := settled_recorded (admittedIn s q tr) (callerOf q tr z) i k d v e
  obtain ⟨t, y, hrun, hadm, hset, hend⟩ := client_performs hq hexec hcl hf hl hchk hperf hc ((hst.settled hrec).setObj _ _ _)
  exact ⟨t, y, _, hrun, hadm, rfl, ((hrec.setObj i k (d.decode v)).push y).trans hset, hend⟩

/-- A write whose effects stand with its admission, outside a pair. -/
theorem client_stores (ho : Open s) (hq : q = rqWrite h i k v) (hexec : exec c s = coreCmd (fun s => request s q) s) (hcl : Client s q tr z d.role)
    (hf : Dict.find i k = (true, some d)) (hl : d.ty ≠ .domain ∧ d.ty ≠ .label ∧ v.length = d.size ∧ d.size ≤ 24) (hlong : d.longOp = true → longRuns s = false)
    (hchk : objectChecks (admittedIn s q tr) (callerOf q tr z) true i k d (some (some v)) = 0)
    (hm : ¬(i = 0x2000 ∧ k = 7)) (hca : isCarried i k = false) (hse : isSensorSetting i k = false)
    (hw : writeValue (admittedIn s q tr) (callerOf q tr z) i k d v .ok = e) (hacc : accepted e = true) (hg : e.acts.any stagesEffect = false)
    (hc : e.code ≠ Abt.compareFault ∧ e.code ≠ Abt.resultCheck) (hst : Steady s e.s) :
    ∃ t y u, exec c s = .next t ∧ Admitted s t q (some z) e.lat e.code e.body e.acts ∧ u = setObj (recorded (admittedIn s q tr) (callerOf q tr z) i k d v e) i k (d.decode v) ∧
      Settled (pushSlot (setObj e.s i k (d.decode v)) y) t ∧ Ended u t :=
  client_stores_at ho.toRoom (not_pairRole (sheafOn_admittedIn ho.single q) ⟨_, hcl.role⟩) hq hexec hcl hf hl hlong hchk hm hca hse hw hacc hg hc hst

/-- A write whose persistent effects wait for its release (R23), outside a pair. -/
theorem client_holds (ho : Room s) (hsingle : num s 0x2000 2 = 0) (hq : q = rqWrite h i k v) (hexec : exec c s = coreCmd (fun s => request s q) s) (hcl : Client s q tr z d.role)
    (hf : Dict.find i k = (true, some d)) (hl : d.ty ≠ .domain ∧ d.ty ≠ .label ∧ v.length = d.size ∧ d.size ≤ 24) (hlong : d.longOp = true → longRuns s = false)
    (hchk : objectChecks (admittedIn s q tr) (callerOf q tr z) true i k d (some (some v)) = 0)
    (hm : ¬(i = 0x2000 ∧ k = 7)) (hca : isCarried i k = false) (hse : isSensorSetting i k = false)
    (hw : writeValue (admittedIn s q tr) (callerOf q tr z) i k d v .ok = e) (hacc : accepted e = true) (hg : e.acts.any stagesEffect = true)
    (hc : e.code ≠ Abt.compareFault ∧ e.code ≠ Abt.resultCheck) (hst : Steady s e.s) :
    ∃ t y, exec c s = .next t ∧ Admitted s t q (some z) e.lat e.code e.body (heldWrite i k v ++ e.acts) ∧ Settled (pushSlot e.s y) t := by
  have hs : sheafOn (admittedIn s q tr) = false := sheafOn_admittedIn hsingle q
  have hcommit := commitWrite_waits (c := callerOf q tr z) (v := v) hg hf (.inl (not_pairRole hs ⟨_, hcl.role⟩)) (fun h => hm ⟨h.1, h.2.1⟩) hca hse
  have hperf := (performWrite_commits hw hacc (capacity_ok (room_admitted ho q tr) (by rw [longRuns_admittedIn]; exact hlong))).trans hcommit
  have hrec := settled_recorded (admittedIn s q tr) (callerOf q tr z) i k d v e
  obtain ⟨t, y, hrun, hadm, hset, -⟩ := client_performs hq hexec hcl hf hl hchk hperf hc (hst.settled hrec)
  exact ⟨t, y, hrun, hadm, (hrec.push y).trans hset⟩

/-- A write whose persistent effects wait for its release (R23). -/
theorem client_waits (ho : Open s) (hq : q = rqWrite h i k v) (hexec : exec c s = coreCmd (fun s => request s q) s) (hcl : Client s q tr z d.role)
    (hf : Dict.find i k = (true, some d)) (hl : d.ty ≠ .domain ∧ d.ty ≠ .label ∧ v.length = d.size ∧ d.size ≤ 24) (hlong : d.longOp = true → longRuns s = false)
    (hchk : objectChecks (admittedIn s q tr) (callerOf q tr z) true i k d (some (some v)) = 0)
    (hm : ¬(i = 0x2000 ∧ k = 7)) (hca : isCarried i k = false) (hse : isSensorSetting i k = false)
    (hw : writeValue (admittedIn s q tr) (callerOf q tr z) i k d v .ok = e) (hacc : accepted e = true) (hg : e.acts.any stagesEffect = true)
    (hc : e.code ≠ Abt.compareFault ∧ e.code ≠ Abt.resultCheck) (hst : Steady s e.s) :
    ∃ t y, exec c s = .next t ∧ Admitted s t q (some z) e.lat e.code e.body (heldWrite i k v ++ e.acts) ∧ Settled (pushSlot e.s y) t :=
  client_holds ho.toRoom ho.single hq hexec hcl hf hl hlong hchk hm hca hse hw hacc hg hc hst

end

section
variable {s : State} {h : Hdr} {tr : Trailer} {z : Session} {i k : Nat} {d : Desc} {g : Seg} {x : Transfer} {q : Rq} {need : Role} {c : Instr} {e : Eff}

theorem isNumbered_domain (hq : q = rqSeg h i k g) (hd : Dict.find i k = (true, some d)) (hdom : d.ty = .domain) : isNumbered s q = true := by
  rw [hq]
  show (isDomain i k || _) = true
  rw [isDomain_of hd, hdom]
  rfl

/-- The state in which the END of a DOMAIN takes effect: its transfer is over. -/
def endedIn (s : State) (q : Rq) (tr : Trailer) : State := dropTransfer (admittedIn s q tr) q.origin

theorem steady_endedIn (s : State) (q : Rq) (tr : Trailer) : Steady s (endedIn s q tr) := (steady_admitted s q tr).withTransfers _

/-- The END of a DOMAIN that completes commits its effect (R112). -/
theorem segEnd_commits {t : State} {c : Ctx} {v data : Bytes} {lat : Nat} (hdom : d.ty = .domain) (hcap : capacityCheck t x.idx d = 0)
    (he : domainEnd (dropTransfer t c.origin) c x.idx x.sub v data .ok = e) (h0 : e.code = 0) :
    segEnd t c x d v data lat .ok = commitWrite (dropTransfer t c.origin) c x.idx x.sub d v e := by
  unfold segEnd
  dsimp only
  rw [if_neg (by simp [hdom]), hcap, he, h0, if_neg (by simp), if_neg (by simp), if_neg (by simp)]

/-- The END segment of a DOMAIN comes to the commit of its effect. -/
theorem domainEnd_work {v : Bytes} (ho : Room s) (hdom : d.ty = .domain) (hn : NextSegment s q (some tr.slot) i k g x) (hlast : x.got + g.len = x.total)
    (hv : v = x.buf ++ g.data) (hlong : d.longOp = true → longRuns s = false)
    (he : domainEnd (endedIn s q tr) (callerOf q tr z) i k v g.data .ok = e) (h0 : e.code = 0) :
    segmentWork (admittedIn s q tr) (callerOf q tr z) i k d x g = commitWrite (endedIn s q tr) (callerOf q tr z) i k d v e := by
  have hidx : (afterSegment (admittedIn s q tr) x g).idx = i := hn.idx
  have hsub : (afterSegment (admittedIn s q tr) x g).sub = k := hn.sub
  have hcap := capacity_ok (i := i) (room_admitted ho q tr) (by rw [longRuns_admittedIn]; exact hlong)
  have hend := segEnd_commits (t := admittedIn s q tr) (c := callerOf q tr z) (x := afterSegment (admittedIn s q tr) x g) (v := v) (data := g.data)
    (lat := segLat (admittedIn s q tr) i k true) hdom (by rw [hidx]; exact hcap) (by rw [hidx, hsub]; exact he) h0
  rw [hidx, hsub] at hend
  subst hv
  exact (if_pos hlast).trans hend

/-- The END of a DOMAIN whose effect stands with its admission (R112). -/
theorem domainEnd_stores {v : Bytes} (ho : Room s) (hq : q = rqSeg h i k g) (hexec : exec c s = coreCmd (fun s => request s q) s) (hcl : Client s q tr z need)
    (hd : Dict.find i k = (true, some d)) (hdom : d.ty = .domain) (hn : NextSegment s q (some tr.slot) i k g x) (hlast : x.got + g.len = x.total)
    (hv : v = x.buf ++ g.data) (hlong : d.longOp = true → longRuns s = false) (hm : i ≠ 0x2000) (hca : isCarried i k = false) (hse : isSensorSetting i k = false)
    (he : domainEnd (endedIn s q tr) (callerOf q tr z) i k v g.data .ok = e) (h0 : e.code = 0) (hg : e.acts.any stagesEffect = false)
    (hst : Steady s e.s) :
    ∃ t y, exec c s = .next t ∧ Admitted s t q (some z) e.lat 0 (segReply g) e.acts ∧ Settled (pushSlot (setObj e.s i k (storedValue i k d v)) y) t := by
  have hcommit := commitWrite_stored (u := endedIn s q tr) (c := callerOf q tr z) (v := v) hg (.inr hdom) (fun h => hm h.1) hca hse
  have hrec := settled_recorded (endedIn s q tr) (callerOf q tr z) i k d v e
  obtain ⟨t, y, hrun, hadm, hset⟩ := segment_admits hq hexec hcl hd hn (isNumbered_domain hq hd hdom)
    ((domainEnd_work ho hdom hn hlast hv hlong he h0).trans hcommit) h0 ((hst.settled hrec).setObj _ _ _)
  exact ⟨t, y, hrun, hadm, ((hrec.setObj i k _).push y).trans hset⟩

/-- The END of a DOMAIN whose persistent effects wait for its release (R23, R112). -/
theorem domainEnd_waits {v : Bytes} (ho : Room s) (hq : q = rqSeg h i k g) (hexec : exec c s = coreCmd (fun s => request s q) s) (hcl : Client s q tr z need)
    (hd : Dict.find i k = (true, some d)) (hdom : d.ty = .domain) (hn : NextSegment s q (some tr.slot) i k g x) (hlast : x.got + g.len = x.total)
    (hv : v = x.buf ++ g.data) (hlong : d.longOp = true → longRuns s = false) (hm : i ≠ 0x2000) (hca : isCarried i k = false) (hse : isSensorSetting i k = false)
    (he : domainEnd (endedIn s q tr) (callerOf q tr z) i k v g.data .ok = e) (h0 : e.code = 0) (hg : e.acts.any stagesEffect = true)
    (hst : Steady s e.s) :
    ∃ t y, exec c s = .next t ∧ Admitted s t q (some z) e.lat 0 (segReply g) (heldWrite i k v ++ e.acts) ∧ Settled (pushSlot e.s y) t := by
  have hcommit := commitWrite_waits (u := endedIn s q tr) (c := callerOf q tr z) (v := v) hg hd (.inr hdom) (fun h => hm h.1) hca hse
  have hrec := settled_recorded (endedIn s q tr) (callerOf q tr z) i k d v e
  obtain ⟨t, y, hrun, hadm, hset⟩ := segment_admits hq hexec hcl hd hn (isNumbered_domain hq hd hdom)
    ((domainEnd_work ho hdom hn hlast hv hlong he h0).trans hcommit) h0 (hst.settled hrec)
  exact ⟨t, y, hrun, hadm, (hrec.push y).trans hset⟩

end

end Sys2Proof.Machine
end

section
/-! SUPPORT. The other objects of a channel outside a pair (R211 to R214, R218, R233, R240). -/

namespace Sys2Proof.Machine

/-- The Flag clear and the Receive release of a channel, its heartbeat interval, and its key node. -/
def channelWord : Desc := ⟨.u32, 4, .rwx, .operator, false, false, .num 0⟩
def channelInterval : Desc := ⟨.u16, 2, .rw, .operator, true, false, .num 0⟩
def channelKey : Desc := ⟨.handle, 4, .rw, .owner, true, false, .num 0⟩

section
variable {s : State} {h : Hdr} {tr : Trailer} {z : Session} {n : Nat} {q : Rq} {i : Instr}

/-- Flag clear clears the event bits that it names (R214). -/
theorem flagClear_completes {mask : Word} (ho : Open s) (hn : n < 32768) (hq : q = rqWrite h (0x4000 + n) 0x0C (leBytes 4 mask.toNat))
    (hexec : exec i s = coreCmd (fun s => request s q) s) (hcl : Client s q tr z .operator) (hm : mask.toNat < 128) :
    Completes i s q z 10 [] fun t => num t (0x4000 + n) 0x0B = clearBits (num s (0x4000 + n) 0x0B) (mask.toNat &&& 0x7C) ∧
      OthersStand s t [(0x4000 + n, 0x0B), (0x4000 + n, 0x0C)] := by
  have hs : sheafOn (admittedIn s q tr) = false := sheafOn_admittedIn ho.single q
  have hnat : leNat (leBytes 4 mask.toNat) = mask.toNat := leNat_leBytes 4 _ (by omega)
  rw [hq] at hcl hexec ⊢
  refine chan_completes (d := channelWord)
    (e0 := Eff.ok (setNum (admittedIn s q tr) (0x4000 + n) 0x0B (clearBits (num s (0x4000 + n) 0x0B) (mask.toNat &&& 0x7C))) 10) ho hn (by decide) hcl hexec rfl
    (.inr (.inr (.inl rfl))) ⟨leBytes_length 4 _, by decide⟩ (by decide) rfl (fun h => ?_) ?_ rfl rfl rfl ((steady_admitted s q tr).setNum _ _ _)
    fun y t hset => ⟨?_, ?_⟩
  · simp [isSendRecv, chanBase] at h
  · rw [← hq, hnat]
    show Eff.when _ (if mask.toNat / 128 ≠ 0 then _ else 0) (setC _ n 0x0B (clearBits (cnum _ n 0x0B) (mask.toNat &&& 0x7C))) [] = _
    rw [if_neg (by omega), setC_alone hs, cnum_alone hs, num_admittedIn]
    rfl
  · refine (written_otherNum hset (by decide) (by decide) (bookkeeping_channel hn) (by omega)).trans ?_
    exact (num_setChannel hn (by decide) (by decide) (by decide)).trans (if_pos ⟨rfl, rfl⟩)
  · exact written_others hset (by decide) ((othersStand_admittedIn s q tr _).setNum _ (by decide) (by simp)) (by simp)

/-- The heartbeat interval of a channel that is not live (R212, R240). -/
theorem heartbeatInterval_rests {ms : BitVec 16} (ho : Open s) (hn : n < 32768) (hq : q = rqWrite h (0x4000 + n) 0x0D (leBytes 2 ms.toNat))
    (hexec : exec i s = coreCmd (fun s => request s q) s) (hcl : Client s q tr z .operator) (hm : ms = 0 ∨ (10 ≤ ms.toNat ∧ ms.toNat ≤ 10000))
    (hst : num s (0x4000 + n) 1 ∉ [2, 3, 4]) :
    Completes i s q z 10 [] fun t => num t (0x4000 + n) 0x0D = ms.toNat ∧ OthersStand s t [(0x4000 + n, 0x0D)] := by
  have hnat : leNat (leBytes 2 ms.toNat) = ms.toNat := leNat_leBytes 2 _ ms.isLt
  obtain ⟨hstate, -⟩ := chan_admittedIn (r := q) (tr := tr) n ho.single
  have hlive : decide (chanState (admittedIn s q tr) n = Ch.opening ∨ chanState (admittedIn s q tr) n = Ch.isOpen ∨ chanState (admittedIn s q tr) n = Ch.rekeying) = false := by
    rw [hstate]
    have hnot : ¬(num s (0x4000 + n) 1 = 2 ∨ num s (0x4000 + n) 1 = 3 ∨ num s (0x4000 + n) 1 = 4) := by simpa using hst
    exact decide_eq_false hnot
  have hrange : within (decide (ms.toNat = 0) || decide (10 ≤ ms.toNat ∧ ms.toNat ≤ 10000)) = 0 := by
    rcases hm with rfl | h
    · rfl
    · simp [within, h]
  rw [hq] at hcl hexec ⊢
  refine chan_completes (d := channelInterval) (e0 := Eff.ok (admittedIn s q tr) 10) ho hn (by decide) hcl hexec rfl
    (.inr (.inl rfl)) ⟨leBytes_length 2 _, by decide⟩ (by decide) rfl (fun h => ?_) ?_ rfl rfl rfl (steady_admitted s q tr)
    fun y t hset => ⟨written_num hset (by decide) (bookkeeping_channel hn) (channel_listed hn (by decide)) hnat,
      written_others hset (by decide) (othersStand_admittedIn s q tr _) (by simp)⟩
  · simp [isSendRecv, chanBase] at h
  · rw [← hq, hnat]
    unfold chanWrite
    dsimp only
    rw [hlive, hrange]
    rfl

/-- The heartbeat interval of a live channel, whose next due time moves with it (R218, R240). -/
theorem heartbeatInterval_moves {ms : BitVec 16} (ho : Open s) (hn : n < 32768) (hq : q = rqWrite h (0x4000 + n) 0x0D (leBytes 2 ms.toNat))
    (hexec : exec i s = coreCmd (fun s => request s q) s) (hcl : Client s q tr z .operator) (hm : 10 ≤ ms.toNat) (hm2 : ms.toNat ≤ 10000)
    (hst : num s (0x4000 + n) 1 ∈ [2, 3, 4]) (hload : heartbeatLoad s + ceilRate ms.toNat ≤ 300000 + ceilRate (interval s n)) :
    Completes i s q z 10 [] fun t => num t (0x4000 + n) 0x0D = ms.toNat ∧ (chanOf t n).due = (chanOf s n).due + 1000 * ms.toNat - 1000 * interval s n := by
  have hnat : leNat (leBytes 2 ms.toNat) = ms.toNat := leNat_leBytes 2 _ ms.isLt
  obtain ⟨hstate, -, hchan, hsum, -, -, hint⟩ := chan_admittedIn (r := q) (tr := tr) n ho.single
  have hlive : decide (chanState (admittedIn s q tr) n = Ch.opening ∨ chanState (admittedIn s q tr) n = Ch.isOpen ∨ chanState (admittedIn s q tr) n = Ch.rekeying) = true := by
    rw [hstate]
    have hone : num s (0x4000 + n) 1 = 2 ∨ num s (0x4000 + n) 1 = 3 ∨ num s (0x4000 + n) 1 = 4 := by simpa using hst
    exact decide_eq_true hone
  have hrange : within (decide (ms.toNat = 0) || decide (10 ≤ ms.toNat ∧ ms.toNat ≤ 10000)) = 0 := by simp [within, hm, hm2]
  rw [hq] at hcl hexec ⊢
  refine chan_completes (d := channelInterval)
    (e0 := Eff.ok (updChan (admittedIn s q tr) n fun c => { c with due := c.due + 1000 * ms.toNat - 1000 * interval s n }) 10) ho hn (by decide) hcl hexec rfl
    (.inr (.inl rfl)) ⟨leBytes_length 2 _, by decide⟩ (by decide) rfl (fun h => ?_) ?_ rfl rfl rfl
    ((steady_admitted s q tr).updChan n fun c => { c with due := c.due + 1000 * ms.toNat - 1000 * interval s n })
    fun y t hset => ⟨written_num hset (by decide) (bookkeeping_channel hn) (channel_listed hn (by decide)) hnat, ?_⟩
  · simp [isSendRecv, chanBase] at h
  · rw [← hq, hnat]
    unfold chanWrite
    dsimp only
    rw [hlive, hrange, hsum, hint, if_pos (show ms.toNat ≠ 0 by omega), decide_eq_false (by omega : ¬heartbeatLoad s + ceilRate ms.toNat > 300000 + ceilRate (interval s n))]
    rfl
  · rw [written_chans hset]
    refine (congrArg Chan.due (chanOf_updChan _ n _)).trans ?_
    show (chanOf (admittedIn s q tr) n).due + _ - _ = _
    rw [hchan]

/-- The head record of a channel is freed (R209, R233). -/
theorem popRecord_pops {u : State} (hn : n < 32768) (ha : sheafOn u = false) :
    (chanOf (popRecord u n) n).queue = (chanOf u n).queue.tail ∧ num (popRecord u n) (0x4000 + n) 0x11 = num u (0x4000 + n) 0x11 - 1 ∧
      num (popRecord u n) 0x3100 2 = num u 0x3100 2 + 1 ∧ ∀ s, Steady s u → Steady s (popRecord u n) := by
  unfold popRecord
  extract_lets s0 s1 s2
  have h0 : OthersStand u s0 [] ∧ s0.chans = u.chans ∧ ∀ s, Steady s u → Steady s s0 := by
    unfold s0
    split
    · exact ⟨fun _ _ _ _ _ => rfl, rfl, fun s hs => ⟨hs.adm, hs.time, hs.first, hs.queue, hs.fuses⟩⟩
    · exact ⟨OthersStand.refl u, rfl, fun _ hs => hs⟩
  obtain ⟨hothers, hchans, hsteady⟩ := h0
  have ha0 : sheafOn s0 = false := (sheafOn_stands hothers (by simp)).trans ha
  have h1 : s1 = setNum (setNum s0 (0x4000 + n) 0x11 (num u (0x4000 + n) 0x11 - 1)) 0x3100 2 (num u 0x3100 2 + 1) := by
    unfold s1 freeCells
    rw [setC_alone ha0, cnum_alone ha0, hothers.num (by decide) (bookkeeping_channel hn) (by simp), num_setChannel hn (by decide) (by decide) (by decide),
      if_neg (by omega), hothers.num (by decide) (by decide) (by simp)]
  have hq : (chanOf s2 n).queue = (chanOf u n).queue.tail := by
    refine (congrArg Chan.queue (chanOf_updChan s1 n _)).trans ?_
    show (chanOf s1 n).queue.tail = _
    rw [chanOf_congr (u := u) (by rw [h1, setNum_chans, setNum_chans]; exact hchans)]
  have hdepth : num s2 (0x4000 + n) 0x11 = num u (0x4000 + n) 0x11 - 1 := by
    show num s1 _ _ = _
    rw [h1, num_setNum _ _ (by decide) (by decide), if_neg (by omega)]
    exact (num_setChannel hn (by decide) (by decide) (by decide)).trans (if_pos ⟨rfl, rfl⟩)
  have hfree : num s2 0x3100 2 = num u 0x3100 2 + 1 := by
    show num s1 0x3100 2 = _
    rw [h1, num_setNum _ _ (by decide) (by decide), if_pos ⟨rfl, rfl, rfl⟩]
  have ha2 : sheafOn s2 = false := by
    show sheafOn s1 = false
    rw [h1, sheafOn_stands (othersStand_setNum _ _ (by decide)) (by simp), sheafOn_setChannel hn (by decide), ha0]
  have hst2 : ∀ s, Steady s u → Steady s s2 := fun s hs => by
    unfold s2
    rw [h1]
    exact (((hsteady s hs).setNum _ _ _).setNum _ _ _).updChan _ _
  split
  · rw [setC_alone ha2, chanOf_congr (setNum_chans _ _ _ _), num_setChannel hn (by decide) (by decide) (by decide), if_neg (by omega),
      num_setChannel hn (by decide) (by decide) (by decide), if_neg (by omega)]
    exact ⟨hq, hdepth, hfree, fun s hs => (hst2 s hs).setNum _ _ _⟩
  · exact ⟨hq, hdepth, hfree, hst2⟩

/-- Receive release frees the head record for its owner (R233). -/
theorem receiveRelease_completes {seq : Word} {x : RxRec} {rest : List RxRec} (ho : Open s) (hn : n < 32768)
    (hq : q = rqWrite h (0x4000 + n) 0x10 (leBytes 4 seq.toNat)) (hexec : exec i s = coreCmd (fun s => request s q) s) (hcl : Client s q tr z .operator)
    (hserv : num s 0x2000 3 = 0) (hown : num s (0x4000 + n) 5 = h.origin) (hx : (chanOf s n).queue = x :: rest) (hseq : x.seq = seq.toNat) :
    Completes i s q z 10 [] fun t => (chanOf t n).queue = rest ∧ num t (0x4000 + n) 0x11 = num s (0x4000 + n) 0x11 - 1 ∧ num t 0x3100 2 = num s 0x3100 2 + 1 := by
  have hs : sheafOn (admittedIn s q tr) = false := sheafOn_admittedIn ho.single q
  have hnat : leNat (leBytes 4 seq.toNat) = seq.toNat := leNat_leBytes 4 _ seq.isLt
  obtain ⟨-, -, hchan, -⟩ := chan_admittedIn (r := q) (tr := tr) n ho.single
  obtain ⟨hqueue, hdepth, hfree, hsteady⟩ := popRecord_pops hn hs
  rw [hchan, hx] at hqueue
  rw [num_admittedIn] at hdepth hfree
  rw [hq] at hcl hexec ⊢
  refine chan_completes (d := channelWord) (e0 := Eff.ok (popRecord (admittedIn s q tr) n) 10) ho hn (by decide) hcl hexec rfl
    (.inr (.inr (.inl rfl))) ⟨leBytes_length 4 _, by decide⟩ (by decide) rfl (fun _ => ⟨hserv, hown⟩) ?_ rfl rfl rfl
    (hsteady s (steady_admitted s q tr)) fun y t hset => ⟨?_, ?_, ?_⟩
  · rw [← hq, hnat]
    unfold chanWrite
    dsimp only
    rw [hchan, hx]
    exact if_pos hseq.symm
  · rw [written_chans hset]
    exact hqueue
  · exact (written_otherNum hset (by decide) (by decide) (bookkeeping_channel hn) (by omega)).trans hdepth
  · exact (written_otherNum hset (by decide) (by decide) (by decide) (by omega)).trans hfree

/-- The receive queue of a channel emptied (R211, R233). -/
theorem emptyQueue_empties {u : State} (hn : n < 32768) (ha : sheafOn u = false) :
    (chanOf (emptyQueue u n) n).queue = [] ∧ num (emptyQueue u n) (0x4000 + n) 0x11 = 0 ∧ sheafOn (emptyQueue u n) = false ∧
      ∀ s, Steady s u → Steady s (emptyQueue u n) := by
  unfold emptyQueue
  extract_lets d s0 s1
  have h0 : ∀ s, Steady s u → Steady s s0 := fun s hs => ⟨hs.adm, hs.time, hs.first, hs.queue, hs.fuses⟩
  have ha0 : sheafOn s0 = false := ha
  have hdepth0 : num (setNum s0 (0x4000 + n) 0x11 0) (0x4000 + n) 0x11 = 0 :=
    (num_setChannel hn (by decide) (by decide) (by decide)).trans (if_pos ⟨rfl, rfl⟩)
  have h1 : s1 = setNum (setNum s0 (0x4000 + n) 0x11 0) 0x3100 2 (num (setNum s0 (0x4000 + n) 0x11 0) 0x3100 2 + d) := by
    unfold s1 freeCells
    rw [setC_alone ha0]
  have ha1 : sheafOn s1 = false := by
    rw [h1, sheafOn_stands (othersStand_setNum _ _ (by decide)) (by simp), sheafOn_setChannel hn (by decide), ha0]
  have hdepth1 : num s1 (0x4000 + n) 0x11 = 0 := by
    rw [h1, num_setNum _ _ (by decide) (by decide), if_neg (by omega)]
    exact hdepth0
  rw [setC_alone ha1]
  refine ⟨congrArg Chan.queue (chanOf_updChan _ n _), ?_, ?_, fun s hs => ?_⟩
  · exact (num_setChannel hn (by decide) (by decide) (by decide)).trans ((if_neg (by omega)).trans hdepth1)
  · exact (sheafOn_setChannel hn (by decide)).trans ha1
  · rw [h1]
    exact ((((h0 s hs).setNum _ _ _).setNum _ _ _).setNum _ _ _).updChan _ _

/-- A channel that is not live is bound to a key node that may be its own (R211, R213). -/
theorem writeKeyNode_binds {u : State} {w : Nat} (hn : n < 32768) (ha : sheafOn u = false) (hst : num u (0x4000 + n) 1 ∉ [2, 3, 4])
    (hok : w = 0 ∨ keyNodeCheck u n w = 0) :
    ∃ t, writeKeyNode u n w = (t, 0) ∧ num t (0x4000 + n) 2 = w ∧ num t (0x4000 + n) 1 = (if w = 0 then 0 else 1) ∧ (chanOf t n).queue = [] ∧
      num t (0x4000 + n) 0x11 = 0 ∧ ∀ s, Steady s u → Steady s t := by
  obtain ⟨hqueue, hdepth, hea, hsteady⟩ := emptyQueue_empties hn ha
  have hnot : ¬(num u (0x4000 + n) 1 = 2 ∨ num u (0x4000 + n) 1 = 3 ∨ num u (0x4000 + n) 1 = 4) := by simpa using hst
  have hcheck : (if w = 0 then 0 else keyNodeCheck u n w) = 0 := by
    rcases hok with h | h
    · rw [if_pos h]
    · rw [h, ite_self]
  unfold writeKeyNode chanState
  rw [cnum_alone ha]
  dsimp only
  rw [show Ch.opening = 2 from rfl, show Ch.isOpen = 3 from rfl, show Ch.rekeying = 4 from rfl, if_neg hnot, hcheck, if_neg (by decide), setC_alone hea, setC_alone ((sheafOn_setChannel hn (by decide)).trans hea)]
  refine ⟨_, rfl, ?_, ?_, ?_, ?_, fun s hs => ((hsteady s hs).setNum _ _ _).setNum _ _ _⟩
  · rw [num_setChannel hn (by decide) (by decide) (by decide), if_neg (by omega), num_setChannel hn (by decide) (by decide) (by decide), if_pos ⟨rfl, rfl⟩]
  · exact (num_setChannel hn (by decide) (by decide) (by decide)).trans (if_pos ⟨rfl, rfl⟩)
  · rw [chanOf_congr (setNum_chans _ _ _ _), chanOf_congr (setNum_chans _ _ _ _), hqueue]
  · rw [num_setChannel hn (by decide) (by decide) (by decide), if_neg (by omega), num_setChannel hn (by decide) (by decide) (by decide), if_neg (by omega), hdepth]

/-- A node that the checks of R213 accept. -/
theorem keyNodeCheck_passes {u : State} {w k : Nat} {x : Node} (ha : sheafOn u = false) (hw : nodeByHandle u w = some k) (hx : nodeOf u k = some x) (hlevel : x.level = 3)
    (hkind : x.kind = 0x11) (hdom : domainOf u 4 k = 1 ∨ domainOf u 4 k = 2) (hlive : live u k = true)
    (hfree : num u (0x4000 + n) 2 = w ∨ keySet u (fun p => decide (p = w)) = false) : keyNodeCheck u n w = 0 := by
  unfold keyNodeCheck
  rw [hw]
  dsimp only
  rw [hx]
  dsimp only
  rw [if_neg (by omega), hlive, if_neg (by decide), cnum_alone ha, if_neg (fun h => hfree.elim h.1 fun g => by rw [g] at h; exact absurd h.2 (by decide))]

theorem nodeOf_congr {a b : State} (h : a.pers.nodes = b.pers.nodes) (k : Nat) : nodeOf a k = nodeOf b k := by
  unfold nodeOf
  rw [h]

theorem domainOf_congr {a b : State} (h : a.pers.nodes = b.pers.nodes) (f k : Nat) : domainOf a f k = domainOf b f k := by
  induction f generalizing k with
  | zero => rfl
  | succ f ih =>
    unfold domainOf
    rw [nodeOf_congr h]
    cases nodeOf b k with
    | none => rfl
    | some x => exact if_congr Iff.rfl rfl (ih x.parent)

theorem liveGo_congr {a b : State} (h : a.pers.nodes = b.pers.nodes) (he : a.pers.epochs = b.pers.epochs) (f k : Nat) : liveGo a f k = liveGo b f k := by
  induction f generalizing k with
  | zero => rfl
  | succ f ih =>
    unfold liveGo
    rw [h]
    cases fixedNode k with
    | some x => rfl
    | none =>
      cases SMap.look b.pers.nodes k with
      | none => rfl
      | some x =>
        dsimp only
        rw [ih x.parent, epochOf_congr he]

theorem belowGo_congr {a b : State} (h : a.pers.nodes = b.pers.nodes) (x f k : Nat) : belowGo a x f k = belowGo b x f k := by
  induction f generalizing k with
  | zero => rfl
  | succ f ih =>
    unfold belowGo
    rw [nodeOf_congr h]
    cases nodeOf b k with
    | none => rfl
    | some r =>
      dsimp only
      rw [ih r.parent]

/-- What the start of an admission leaves of the node tree. -/
theorem nodes_admittedIn (s : State) (r : Rq) (tr : Trailer) : (∀ w, nodeByHandle (admittedIn s r tr) w = nodeByHandle s w) ∧
    (∀ k, nodeOf (admittedIn s r tr) k = nodeOf s k) ∧ (∀ f k, domainOf (admittedIn s r tr) f k = domainOf s f k) ∧ (∀ k, live (admittedIn s r tr) k = live s k) ∧
      ∀ p, keySet (admittedIn s r tr) p = keySet s p := by
  obtain ⟨hh, b, m, f, e⟩ := admittedIn_cases s r tr
  rw [e]
  exact ⟨fun _ => rfl, fun _ => rfl, domainOf_congr rfl, fun k => liveGo_congr rfl rfl 4 k, fun _ => rfl⟩

/-- The key node of a channel that is not live (R211, R213). -/
theorem keyNode_completes {handle : Word} (ho : Open s) (hn : n < 32768) (hq : q = rqWrite h (0x4000 + n) 2 (leBytes 4 handle.toNat))
    (hexec : exec i s = coreCmd (fun s => request s q) s) (hcl : Client s q tr z .owner) (hst : num s (0x4000 + n) 1 ∉ [2, 3, 4])
    (hok : handle = 0 ∨ ∃ k x, nodeByHandle s handle.toNat = some k ∧ nodeOf s k = some x ∧ x.level = 3 ∧ x.kind = 0x11 ∧
      (domainOf s 4 k = 1 ∨ domainOf s 4 k = 2) ∧ live s k = true ∧
        (num s (0x4000 + n) 2 = handle.toNat ∨ keySet s (fun p => decide (p = handle.toNat)) = false)) :
    Completes i s q z 10 [] fun t => num t (0x4000 + n) 2 = handle.toNat ∧ num t (0x4000 + n) 1 = (if handle = 0 then 0 else 1) ∧
      (chanOf t n).queue = [] ∧ num t (0x4000 + n) 0x11 = 0 := by
  have hs : sheafOn (admittedIn s q tr) = false := sheafOn_admittedIn ho.single q
  have hnat : leNat (leBytes 4 handle.toNat) = handle.toNat := leNat_leBytes 4 _ handle.isLt
  have hzero : handle.toNat = 0 ↔ handle = 0 := by simp [BitVec.toNat_eq]
  obtain ⟨hby, hnode, hdom, hlive, hset⟩ := nodes_admittedIn s q tr
  obtain ⟨t, ht, -, hstate, hqueue, hdepth, hsteady⟩ := writeKeyNode_binds (w := handle.toNat) hn hs (by rw [num_admittedIn]; exact hst) (by
    rcases hok with h | ⟨k, x, h1, h2, h3, h4, h5, h6, h7⟩
    · exact .inl (hzero.mpr h)
    · exact .inr (keyNodeCheck_passes hs (by rw [hby, h1]) (by rw [hnode, h2]) h3 h4 (by rw [hdom]; exact h5) (by rw [hlive, h6]) (by rw [num_admittedIn, hset]; exact h7)))
  rw [hq] at hcl hexec ⊢
  refine chan_completes (d := channelKey) (e0 := Eff.ok t 10) ho hn (by decide) hcl hexec rfl (.inr (.inr (.inr rfl))) ⟨leBytes_length 4 _, by decide⟩ (by decide) rfl
    (fun h => ?_) ?_ rfl rfl rfl (hsteady s (steady_admitted s q tr)) fun y t' hset =>
      ⟨written_num hset (by decide) (bookkeeping_channel hn) (channel_listed hn (by decide)) hnat, ?_, ?_, ?_⟩
  · simp [isSendRecv, chanBase] at h
  · rw [← hq, hnat]
    exact congrArg (Eff.of Lat.write) ht
  · refine (written_otherNum hset (by decide) (by decide) (bookkeeping_channel hn) (by omega)).trans (hstate.trans ?_)
    simp only [hzero]
  · rw [written_chans hset]
    exact hqueue
  · exact (written_otherNum hset (by decide) (by decide) (bookkeeping_channel hn) (by omega)).trans hdepth

/-- The END of a Send puts its frame at the head of the internal queue (R232). -/
theorem channelSend_replies {g : Seg} {x : Transfer} (ho : Open s) (hn : n < 32768) (hq : q = rqSeg h (0x4000 + n) 0x0E g)
    (hexec : exec i s = coreCmd (fun s => request s q) s) (hcl : Client s q tr z .operator) (hx : NextSegment s q (some tr.slot) (0x4000 + n) 0x0E g x)
    (hlast : x.got + g.len = x.total) (hown : num s (0x4000 + n) 5 = h.origin) (hst : num s (0x4000 + n) 1 = 3 ∨ num s (0x4000 + n) 1 = 4)
    (hseq : num s (0x4000 + n) 9 < 0xFFFFFFFF) :
    Replies i s q z 16 (segReply g) [] fun t => t.internal = .send n (x.buf ++ g.data) :: s.internal ∧ transferOf t h.origin = none := by
  have hs : sheafOn (endedIn s q tr) = false := sheafOn_admittedIn (tr := tr) ho.single q
  have hnum : ∀ i k, num (endedIn s q tr) i k = num s i k := fun i k => num_admittedIn s q tr i k
  have horigin : q.origin = h.origin := by rw [hq]; rfl
  have hsend : domainEnd (endedIn s q tr) (callerOf q tr z) (0x4000 + n) 0x0E (x.buf ++ g.data) g.data .ok =
      Eff.ok (pushFront (endedIn s q tr) (.send n (x.buf ++ g.data))) 16 := by
    unfold domainEnd
    rw [if_pos (by omega), show 0x4000 + n - 0x4000 = n by omega]
    unfold sendEnd chanState
    rw [Nat.add_comm n, ownerCheck_channel hn fun _ => by rw [cnum_alone hs, hnum, hown]; exact horigin, cnum_alone hs, cnum_alone hs, hnum, hnum]
    dsimp only
    rw [if_neg (by decide), if_neg (by rcases hst with h | h <;> rw [h] <;> decide), if_neg (by rcases hst with h | h <;> rw [h] <;> decide), if_neg (by omega)]
    rfl
  have hst' : Steady s (pushFront (endedIn s q tr) (.send n (x.buf ++ g.data))) := by
    have := steady_endedIn s q tr
    exact ⟨this.adm, this.time, this.first, this.queue, this.fuses⟩
  obtain ⟨t, y, hrun, hadm, hset⟩ := domainEnd_stores (d := ⟨.domain, 212, .wo, .operator, false, false, .oct []⟩) ho.toRoom hq hexec hcl
    ((find_channel hn 0x0E).trans rfl) rfl hx hlast rfl (by intro h; cases h) (by omega) (by unfold isCarried; simp; omega) (by unfold isSensorSetting; simp) hsend rfl rfl hst'
  have hrest := written_rest hset
  refine ⟨t, hrun, hadm, ?_, ?_⟩
  · refine (congrArg (fun a => a.internal) hrest).trans ?_
    show IntReq.send n (x.buf ++ g.data) :: (admittedIn s q tr).internal = _
    obtain ⟨hh, b, m, f, e⟩ := admittedIn_cases s q tr
    rw [e]
  · have hnone := transferOf_dropTransfer (admittedIn s q tr) q.origin
    have hall : t.transfers = (dropTransfer (admittedIn s q tr) q.origin).transfers := congrArg (fun a => a.transfers) hrest
    rw [← horigin]
    unfold transferOf at hnone ⊢
    rw [hall]
    exact hnone

end

/-- Settles O16: each of the channel's other objects has its effect on its own channel. -/
theorem channelObjectsComplete : Obligations.channel_objects_complete := by
  unfold Obligations.channel_objects_complete
  intro s h n tr z ho
  exact ⟨fun mask hcl hm => flagClear_completes ho n.isLt rfl rfl hcl hm, fun handle hcl hst hok => keyNode_completes ho n.isLt rfl rfl hcl hst hok,
    fun ms hcl hm hst => heartbeatInterval_rests ho n.isLt rfl rfl hcl hm hst, fun ms hcl h1 h2 hst hload => heartbeatInterval_moves ho n.isLt rfl rfl hcl h1 h2 hst hload,
    fun seq x rest hcl hserv hown hx hseq => receiveRelease_completes ho n.isLt rfl rfl hcl hserv hown hx hseq,
    fun g x hcl hx hlast hown hst hseq => channelSend_replies ho n.isLt rfl rfl hcl hx hlast hown hst hseq⟩

end Sys2Proof.Machine
end

section
/-! SUPPORT. Firmware images: their segments, Verify and Activate (R128 to R130). -/

namespace Sys2Proof.Machine

theorem imageOf_setImage_same (u : State) (x : Nat) (m : Image) : imageOf (setImage u x m) x = m := by
  unfold imageOf setImage
  by_cases hx : x = 0 <;> simp [hx]

theorem imageOf_setImage_other (u : State) {x y : Nat} (m : Image) (h : x = 0 ↔ y ≠ 0) : imageOf (setImage u x m) y = imageOf u y := by
  unfold imageOf setImage
  by_cases hx : x = 0
  · simp [hx, h.mp hx]
  · have hy : y = 0 := by
      by_contra hy
      exact hx (h.mpr hy)
    simp [hx, hy]

theorem imageOf_congr {a b : State} (hA : a.pers.imageA = b.pers.imageA) (hB : a.pers.imageB = b.pers.imageB) (x : Nat) : imageOf a x = imageOf b x := by
  unfold imageOf
  rw [hA, hB]

theorem OthersStand.setImage {s u : State} {xs : List (Nat × Nat)} (h : OthersStand s u xs) (x : Nat) (m : Image) : OthersStand s (setImage u x m) xs := by
  unfold Machine.setImage
  split <;> exact h

/-- Verify and Activate write their effect (R130). -/
theorem writeValue_firmware (u : State) (c : Ctx) (k : Nat) (long : Bool) : writeValue u c 0x1100 k (actionDesc long) [1] .ok = firmwareWrite u k 1 .ok := rfl

/-- What Verify comes to, where no unit faults (R130). -/
def verified (u : State) : Eff :=
  { Eff.fail (if imageCode u (imageOf u (inactive u)) = 0 then setImage u (inactive u) { imageOf u (inactive u) with valid := true } else u) 20000
      (imageCode u (imageOf u (inactive u))) with
    acts := [.setObj (objKey 0x1100 2) (.num (if imageCode u (imageOf u (inactive u)) = 0 then 3 else 4))], long := true }

/-- Verify by the fault of its units. -/
def verifiedUnder (u : State) (f : Nat) : Eff :=
  let code := if f ≠ 0 then f else imageCode u (imageOf u (inactive u))
  { Eff.fail (if code = 0 then setImage u (inactive u) { imageOf u (inactive u) with valid := true } else u) 20000 code with
    acts := if f ≠ 0 then [] else [.setObj (objKey 0x1100 2) (.num (if code = 0 then 3 else 4))], long := true }

theorem firmwareWrite_verify {u : State} (h : unitsFault u .ok ⟨false, true, 2⟩ false = 0) : firmwareWrite u 3 1 .ok = verified u := by
  have hf : firmwareWrite u 3 1 .ok = verifiedUnder u (unitsFault u .ok ⟨false, true, 2⟩ false) := rfl
  rw [hf, h]
  rfl

theorem firmwareWrite_activate {u : State} (h : num u 0x1100 2 = 3) :
    firmwareWrite u 4 1 .ok = { Eff.ok { u with pers := { u.pers with preferred := inactive u } } Lat.write with acts := [.coreReset 7] } := by
  have hif : firmwareWrite u 4 1 .ok = if num u 0x1100 2 ≠ 3 then Eff.fail u Lat.write Abt.valueConflict else
    { Eff.ok { u with pers := { u.pers with preferred := inactive u } } Lat.write with acts := [.coreReset 7] } := rfl
  rw [hif, if_neg (fun g => g h)]

section
variable {s : State} {h : Hdr} {tr : Trailer} {z : Session} {g : Seg} {x : Transfer} {q : Rq} {c : Instr} {i k : Nat} {v : Val}

theorem images_admittedIn (s : State) (q : Rq) (tr : Trailer) (n : Nat) : imageOf (admittedIn s q tr) n = imageOf s n := by
  obtain ⟨hh, b, m, f, e⟩ := admittedIn_cases s q tr
  rw [e]
  rfl

theorem inactive_of {u : State} (h : num u 0x2100 4 = num s 0x2100 4) : inactive u = inactive s := by
  unfold inactive
  rw [h]

/-- The running image and the inactive one stand in different slots (R128). -/
theorem inactive_other (h : num s 0x2100 4 ≤ 1) : inactive s = 0 ↔ num s 0x2100 4 ≠ 0 := by
  unfold inactive
  omega

theorem settled_images {a t : State} (h : Settled a t) (n : Nat) : imageOf t n = imageOf a n :=
  imageOf_congr (congrArg (fun u => u.pers.imageA) h.rest) (congrArg (fun u => u.pers.imageB) h.rest) n

theorem images_setObj (u : State) (i k : Nat) (v : Val) (n : Nat) : imageOf (setObj u i k v) n = imageOf u n := by
  obtain ⟨d, p, l, e⟩ := setObj_dict u i k v
  rw [e]
  rfl

/-- A segment of an image joins the inactive slot (R128). -/
theorem loadSegment_replies (hq : q = rqSeg h 0x1100 1 g) (hexec : exec c s = coreCmd (fun s => request s q) s) (hrun : num s 0x2100 4 ≤ 1)
    (hcl : Client s q tr z .owner) (hn : NextSegment s q (some tr.slot) 0x1100 1 g x) (hpart : x.got + g.len < x.total) :
    Replies c s q z 16 (segReply g) [] fun t => (imageOf t (inactive s)).bytes = (imageOf s (inactive s)).bytes ++ g.data ∧
      imageOf t (num s 0x2100 4) = imageOf s (num s 0x2100 4) := by
  let u := setTransfer (admittedIn s q tr) (afterSegment (admittedIn s q tr) x g)
  have hina : inactive u = inactive s := inactive_of (num_admittedIn s q tr 0x2100 4)
  have himg : ∀ n, imageOf u n = imageOf s n := images_admittedIn s q tr
  have hwork : segmentWork (admittedIn s q tr) (callerOf q tr z) 0x1100 1 ⟨.domain, 1048576, .wo, .owner, true, false, .oct []⟩ x g =
      Eff.ok (setImage u (inactive s) ⟨(imageOf s (inactive s)).bytes ++ g.data, false, false, false⟩) 16 := by
    have hdata : domainData u 0x1100 1 g.data .ok = Eff.ok (setImage u (inactive s) ⟨(imageOf s (inactive s)).bytes ++ g.data, false, false, false⟩) 16 := by
      rw [← himg, ← hina]
      rfl
    unfold segmentWork
    rw [if_neg (by omega), if_pos rfl, hdata, if_neg (by exact fun h => h rfl)]
  have hst : Steady s (setImage u (inactive s) ⟨(imageOf s (inactive s)).bytes ++ g.data, false, false, false⟩) :=
    ((steady_admitted s q tr).withTransfers _).setImage _ _
  obtain ⟨t, y, hex, hadm, hset⟩ := segment_admits hq hexec hcl rfl hn (isNumbered_domain hq (d := ⟨.domain, 1048576, .wo, .owner, true, false, .oct []⟩) rfl rfl) hwork rfl hst
  refine ⟨t, hex, hadm, ?_, ?_⟩
  · rw [settled_images hset]
    exact congrArg Image.bytes (imageOf_setImage_same u _ _)
  · rw [settled_images hset]
    exact (imageOf_setImage_other u _ (inactive_other hrun)).trans (himg _)

/-- The END of an image of the length that its header gives leaves it loaded (R128). -/
theorem loadEnd_replies (ho : Open s) (hq : q = rqSeg h 0x1100 1 g) (hexec : exec c s = coreCmd (fun s => request s q) s) (hrun : num s 0x2100 4 ≤ 1)
    (hcl : Client s q tr z .owner) (hn : NextSegment s q (some tr.slot) 0x1100 1 g x) (hlast : x.got + g.len = x.total)
    (hlen : (x.buf ++ g.data).length = 3376 + leNat (((x.buf ++ g.data).drop 16).take 4)) :
    Replies c s q z 16 (segReply g) [] fun t => num t 0x1100 2 = 2 ∧ imageOf t (inactive s) = ⟨x.buf ++ g.data, false, false, false⟩ ∧
      imageOf t (num s 0x2100 4) = imageOf s (num s 0x2100 4) ∧ transferOf t h.origin = none := by
  have hina : inactive (endedIn s q tr) = inactive s := inactive_of (num_admittedIn s q tr 0x2100 4)
  have himg : ∀ n, imageOf (endedIn s q tr) n = imageOf s n := images_admittedIn s q tr
  let u := setImage (endedIn s q tr) (inactive s) ⟨x.buf ++ g.data, false, false, false⟩
  have hend : domainEnd (endedIn s q tr) (callerOf q tr z) 0x1100 1 (x.buf ++ g.data) g.data .ok = Eff.ok (setNum u 0x1100 2 2) 16 := by
    unfold domainEnd
    rw [if_neg (by decide), if_neg (by decide), if_neg (by decide)]
    dsimp only
    rw [if_neg (by omega), if_neg (by omega), hina]
    rfl
  have hst : Steady s (setNum u 0x1100 2 2) := ((steady_endedIn s q tr).setImage _ _).setNum _ _ _
  obtain ⟨t, y, hex, hadm, hset⟩ := domainEnd_stores (d := ⟨.domain, 1048576, .wo, .owner, true, false, .oct []⟩) ho.toRoom hq hexec hcl rfl rfl hn hlast rfl
    (by intro h; cases h) (by decide) rfl rfl hend rfl rfl hst
  have himgt : ∀ n, imageOf t n = imageOf u n := fun n =>
    (settled_images hset n).trans ((images_setObj _ _ _ _ n).trans (images_setObj _ _ _ _ n))
  refine ⟨t, hex, hadm, ?_, ?_, ?_, ?_⟩
  · refine (written_otherNum hset (by decide) (by decide) (by decide) (by decide)).trans ?_
    show num (setNum u 0x1100 2 2) 0x1100 2 = 2
    rw [num_setNum u 2 (by decide) (by decide), if_pos ⟨rfl, rfl, rfl⟩]
  · rw [himgt]
    exact imageOf_setImage_same _ _ _
  · rw [himgt]
    exact (imageOf_setImage_other _ _ (inactive_other hrun)).trans (himg _)
  · have hnone := transferOf_dropTransfer (admittedIn s q tr) q.origin
    have hall : t.transfers = (dropTransfer (admittedIn s q tr) q.origin).transfers :=
      (congrArg (fun a => a.transfers) (written_rest hset)).trans (setNum_transfers u 0x1100 2 2)
    rw [show h.origin = q.origin by rw [hq]; rfl]
    unfold transferOf at hnone ⊢
    rw [hall]
    exact hnone

/-- The verdict on an image is none of the codes of a fault (R130). -/
theorem imageCode_cases (u : State) (m : Image) : imageCode u m ∈ [0, Abt.signatureInvalid, Abt.rollback, Abt.valueEncoding] := by
  unfold imageCode
  dsimp only
  split
  · simp
  split
  · split <;> simp
  split
  · simp
  split
  · simp
  split <;> simp

theorem imageCode_congr {a b : State} (h : a.otp = b.otp) (m : Image) : imageCode a m = imageCode b m := by
  unfold imageCode
  rw [h]

/-- Verify ends with the verdict on the inactive image (R130). -/
theorem verify_admits (ho : Open s) (hq : q = rqWrite h 0x1100 3 [1]) (hexec : exec c s = coreCmd (fun s => request s q) s) (hcl : Client s q tr z .owner)
    (hfree : longRuns s = false) (hdge : num s 0xCF20 3 = 0) (hcore : num s 0xCF38 3 = 0) :
    ∃ t, exec c s = .next t ∧ Admitted s t q (some z) 20000 (imageCode s (imageOf s (inactive s))) []
        [.setObj (objKey 0x1100 2) (.num (if imageCode s (imageOf s (inactive s)) = 0 then 3 else 4))] ∧ OthersStand s t [(0x1100, 3)] := by
  let u := admittedIn s q tr
  have hcode : imageCode u (imageOf u (inactive u)) = imageCode s (imageOf s (inactive s)) := by
    rw [inactive_of (num_admittedIn s q tr _ _), images_admittedIn, imageCode_congr (admittedIn_otp s q tr)]
  have hfault : unitsFault u .ok ⟨false, true, 2⟩ false = 0 := by
    have hup : coreUp u 2 = true := decide_eq_true ((num_admittedIn s q tr 0xCF38 3).trans hcore)
    unfold unitsFault
    rw [num_admittedIn, hdge]
    dsimp only
    rw [hup]
    rfl
  let e : Eff := verified u
  have hcodes : e.code = imageCode s (imageOf s (inactive s)) := hcode
  have hw : writeValue u (callerOf q tr z) 0x1100 3 (actionDesc true) [1] .ok = e := (writeValue_firmware u (callerOf q tr z) 3 true).trans (firmwareWrite_verify hfault)
  have hes : Steady s e.s ∧ OthersStand s e.s [(0x1100, 3)] := by
    have hu := othersStand_admittedIn s q tr [(0x1100, 3)]
    unfold e verified Eff.fail
    dsimp only
    split
    · exact ⟨(steady_admitted s q tr).setImage _ _, hu.setImage _ _⟩
    · exact ⟨steady_admitted s q tr, hu⟩
  have hfaults : e.code ≠ Abt.compareFault ∧ e.code ≠ Abt.resultCheck := by
    have hmem := imageCode_cases s (imageOf s (inactive s))
    simp only [List.mem_cons, List.not_mem_nil, or_false] at hmem
    rw [hcodes]
    rcases hmem with h | h | h | h <;> rw [h] <;> decide
  obtain ⟨t, y, -, hex, hadm, -, hset, -⟩ := client_stores (d := actionDesc true) (k := 3) ho hq hexec hcl rfl ⟨by decide, by decide, rfl, by decide⟩ (fun _ => hfree)
    (open_checks ho hcl (by decide) (fun _ _ => rfl) rfl
      (modeCheck_elsewhere (sheafOn_admittedIn ho.single q) (.inl (by decide)) (by decide) (by decide)) (by decide)) (by decide) rfl rfl hw (by simp [accepted, e, verified]) rfl hfaults hes.1
  have hacts : e.acts = [.setObj (objKey 0x1100 2) (.num (if imageCode s (imageOf s (inactive s)) = 0 then 3 else 4))] := by
    rw [← hcode]
    rfl
  rw [hcodes, hacts] at hadm
  exact ⟨t, hex, hadm, written_others hset (by decide) hes.2 (List.mem_singleton_self _)⟩

/-- Activate prefers the verified image and resets the core die (R130). -/
theorem activate_completes (ho : Open s) (hq : q = rqWrite h 0x1100 4 [1]) (hexec : exec c s = coreCmd (fun s => request s q) s) (hcl : Client s q tr z .owner)
    (hloaded : num s 0x1100 2 = 3) :
    Completes c s q z 10 [.coreReset 7] fun t => t.pers.preferred = inactive s ∧ OthersStand s t [(0x1100, 4)] := by
  have hina : inactive (admittedIn s q tr) = inactive s := inactive_of (num_admittedIn s q tr _ _)
  have hst := steady_admitted s q tr
  rw [hq] at hcl hexec ⊢
  refine open_completes (d := actionDesc false) (e0 := { Eff.ok { admittedIn s q tr with pers := { (admittedIn s q tr).pers with preferred := inactive s } } 10 with
    acts := [.coreReset 7] }) ho hcl hexec rfl ⟨by decide, by decide, rfl, by decide⟩ (by decide) (by intro h; cases h) (fun _ _ => rfl) (fun _ _ _ => rfl)
    (fun c hs _ => modeCheck_elsewhere hs (.inl (by decide)) (by decide) (by decide)) (by decide) rfl rfl ?_ rfl rfl rfl (hst.withPers _) fun y t hset => ⟨?_, ?_⟩
  · rw [← hq, writeValue_firmware, ← hina]
    exact firmwareWrite_activate ((num_admittedIn s q tr _ _).trans hloaded)
  · exact congrArg (fun a => a.pers.preferred) (written_rest hset)
  · exact written_others hset (by decide) (othersStand_admittedIn s q tr _) (List.mem_singleton_self _)

end

/-- Settles O13: a segment joins the inactive image, its END leaves it loaded, Verify ends with its verdict, and Activate prefers it. -/
theorem firmwareCommandsComplete : Obligations.firmware_commands_complete := by
  unfold Obligations.firmware_commands_complete
  intro s h tr z ho hrun
  refine ⟨fun g x hcl hn => ⟨fun hpart => ?_, fun hlast hlen => ?_⟩, fun hcl hfree hdge hcore => ?_, fun hcl hloaded => ?_⟩
  · exact loadSegment_replies rfl rfl hrun hcl hn hpart
  · exact loadEnd_replies ho rfl rfl hrun hcl hn hlast hlen
  · exact verify_admits ho rfl rfl hcl hfree hdge hcore
  · exact activate_completes ho rfl rfl hcl hloaded

end Sys2Proof.Machine
end

section
/-! SUPPORT. Manifests and Install (R437, R438). -/

namespace Sys2Proof.Machine

/-- The Load manifest object. -/
def manifestDesc : Desc := ⟨.domain, 203360, .wo, .owner, false, false, .oct []⟩

section
variable {s : State} {h : Hdr} {tr : Trailer} {z : Session} {g : Seg} {x : Transfer} {q : Rq} {i : Instr} {c : Nat} {m : Bytes}

theorem twc_admittedIn (s : State) (q : Rq) (tr : Trailer) : (admittedIn s q tr).twc = s.twc := by
  obtain ⟨hh, b, m, f, e⟩ := admittedIn_cases s q tr
  rw [e]

/-- A segment of a manifest joins the staging area (R437). -/
theorem manifestSegment_replies (hq : q = rqSeg h 0xD100 1 g) (hexec : exec i s = coreCmd (fun s => request s q) s)
    (hcl : Client s q tr z .owner) (hn : NextSegment s q (some tr.slot) 0xD100 1 g x) (hpart : x.got + g.len < x.total) :
    Replies i s q z 16 (segReply g) [] fun t => t.twc.staged = s.twc.staged ++ g.data ∧ OthersStand s t [] := by
  let u := setTransfer (admittedIn s q tr) (afterSegment (admittedIn s q tr) x g)
  have hwork : segmentWork (admittedIn s q tr) (callerOf q tr z) 0xD100 1 manifestDesc x g = Eff.ok (updTwc u fun t => { t with staged := t.staged ++ g.data }) 16 := by
    have hdata : domainData u 0xD100 1 g.data .ok = Eff.ok (updTwc u fun t => { t with staged := t.staged ++ g.data }) 16 := rfl
    unfold segmentWork
    rw [if_neg (by omega), if_pos (show manifestDesc.ty = .domain from rfl), hdata, if_neg (by exact fun h => h rfl)]
  have hst : Steady s (updTwc u fun t => { t with staged := t.staged ++ g.data }) := ((steady_admitted s q tr).withTransfers _).withTwc _
  obtain ⟨t, y, hex, hadm, hset⟩ := segment_admits hq hexec hcl rfl hn (isNumbered_domain hq (d := manifestDesc) rfl rfl) hwork rfl hst
  have hu : OthersStand s (updTwc u fun t => { t with staged := t.staged ++ g.data }) [] := othersStand_admittedIn s q tr []
  refine ⟨t, hex, hadm, ?_, fun i k hk hb hn => ?_⟩
  · have ht : t.twc.staged = (admittedIn s q tr).twc.staged ++ g.data := congrArg (fun a => a.twc.staged) hset.rest
    rw [ht, twc_admittedIn]
  · have hobj := hset.objects i k hk hb
    rw [getObj_pushSlot] at hobj
    exact hobj.trans (hu i k hk hb hn)

/-- The END of a manifest of the length that its header gives leaves it loaded (R437). -/
theorem manifestEnd_replies (ho : Open s) (hq : q = rqSeg h 0xD100 1 g) (hexec : exec i s = coreCmd (fun s => request s q) s)
    (hcl : Client s q tr z .owner) (hn : NextSegment s q (some tr.slot) 0xD100 1 g x) (hlast : x.got + g.len = x.total)
    (hlen : (x.buf ++ g.data).length = 6752 + mf (x.buf ++ g.data) 0x20 4 + mf (x.buf ++ g.data) 0x24 4) :
    Replies i s q z 16 (segReply g) [] fun t => t.twc.staged = x.buf ++ g.data ∧ num t 0xD100 2 = 2 ∧ OthersStand s t [(0xD100, 1), (0xD100, 2)] := by
  let u := updTwc (endedIn s q tr) fun t => { t with staged := x.buf ++ g.data }
  have hend : domainEnd (endedIn s q tr) (callerOf q tr z) 0xD100 1 (x.buf ++ g.data) g.data .ok = Eff.ok (setNum u 0xD100 2 2) 16 := by
    unfold domainEnd
    rw [if_neg (by decide), if_neg (by decide), if_neg (by decide)]
    exact if_neg (fun h => h hlen)
  have hst : Steady s (setNum u 0xD100 2 2) := ((steady_endedIn s q tr).withTwc _).setNum _ _ _
  obtain ⟨t, y, hex, hadm, hset⟩ := domainEnd_stores (d := manifestDesc) ho.toRoom hq hexec hcl rfl rfl hn hlast rfl (by intro h; cases h) (by decide) rfl rfl hend rfl rfl hst
  have hu : OthersStand s u [(0xD100, 1), (0xD100, 2)] := othersStand_admittedIn s q tr _
  refine ⟨t, hex, hadm, ?_, ?_, written_others hset (by decide) (hu.setNum 2 (by decide) (by simp)) (by simp)⟩
  · exact congrArg (fun a => a.staged) ((written_twc hset).trans (setNum_twc u 0xD100 2 2))
  · refine (written_otherNum hset (by decide) (by decide) (by decide) (by decide)).trans ?_
    show num (setNum u 0xD100 2 2) 0xD100 2 = 2
    rw [num_setNum u 2 (by decide) (by decide), if_pos ⟨rfl, rfl, rfl⟩]

/-- The checks of an Install end with none of the codes of a fault (R438). -/
theorem installCheck_cases (u : State) (c : Nat) (m : Bytes) :
    installCheck u c m ∈ [0, Abt.valueEncoding, Abt.appletMemory, Abt.valueConflict, Abt.valueRange, Abt.signatureInvalid, Abt.rollback, Abt.epochExhausted] := by
  unfold installCheck
  dsimp only
  split
  · simp
  split
  · simp
  split
  · simp
  split
  · simp
  split
  · simp
  split
  · simp
  split <;> simp

theorem installCheck_admittedIn (s : State) (q : Rq) (tr : Trailer) (c : Nat) (m : Bytes) : installCheck (admittedIn s q tr) c m = installCheck s c m := by
  have hlive : live (admittedIn s q tr) (rootOf c) = live s (rootOf c) := (nodes_admittedIn s q tr).2.2.2.1 _
  have hrun : runningVersion (admittedIn s q tr) = runningVersion s := by
    obtain ⟨hh, b, m, f, e⟩ := admittedIn_cases s q tr
    rw [e]
    rfl
  have hroot : rootSpent (admittedIn s q tr) c = rootSpent s c ∧ (admittedIn s q tr).pers.applets = s.pers.applets := by
    obtain ⟨hh, b, m, f, e⟩ := admittedIn_cases s q tr
    rw [e]
    exact ⟨rfl, rfl⟩
  unfold installCheck keepsRoot
  rw [hlive, hrun, hroot.1, hroot.2]
  simp only [oct_admittedIn, num_admittedIn]

/-- Install, where no unit faults: the cell stops, and the outcome of the checks waits for the release (R438, log 79). -/
theorem installOp_stages {u : State} (hc : c ≤ 31) (hload : num u 0xD100 2 = 2) (hkey : oct u 0xD100 6 ≠ []) (hdge : num u 0xCF20 3 = 0) (hcore : num u 0xCF38 3 = 0) :
    installOp u c .ok = { Eff.fail (setCellState (leaveCell u c) c 1) 25000 (installCheck u c u.twc.staged) with
      acts := [.install c u.twc.staged (installCheck u c u.twc.staged)], long := true } := by
  have hfault : unitsFault u .ok ⟨false, true, 2⟩ false = 0 := by
    have hup : coreUp u 2 = true := decide_eq_true hcore
    unfold unitsFault
    rw [hdge]
    dsimp only
    rw [hup]
    rfl
  have hempty : (oct u 0xD100 6).isEmpty = false := by
    cases hk : oct u 0xD100 6 with
    | nil => exact absurd hk hkey
    | cons _ _ => rfl
  unfold installOp
  rw [if_neg (by omega), hload, hempty, if_neg (by simp)]
  dsimp only
  rw [hfault, if_neg (show ¬(0 : Nat) ≠ 0 by decide), if_neg (show ¬(Phys.ok = Phys.compare) by decide), if_neg (show ¬(Phys.ok = Phys.store) by decide)]
  by_cases h0 : installCheck u c u.twc.staged = 0
  · rw [h0, if_neg (by decide)]
  · rw [if_pos h0]

/-- Install stops its cell and ends 25 ms later with the code of its checks (R438). -/
theorem install_admits {cell : Byte} (ho : Open s) (hq : q = rqWrite h 0xD100 3 [cell]) (hexec : exec i s = coreCmd (fun s => request s q) s) (hcl : Client s q tr z .owner)
    (hc : cell.toNat ≤ 31) (hload : num s 0xD100 2 = 2) (hkey : oct s 0xD100 6 ≠ []) (hfree : longRuns s = false) (hdge : num s 0xCF20 3 = 0) (hcore : num s 0xCF38 3 = 0) :
    ∃ t, exec i s = .next t ∧
      Admitted s t q (some z) 25000 (installCheck s cell.toNat s.twc.staged) []
        (heldWrite 0xD100 3 [cell] ++ [.install cell.toNat s.twc.staged (installCheck s cell.toNat s.twc.staged)]) ∧
      num t (0xD000 + cell.toNat) 1 = 1 ∧ SMap.look t.twc.cells cell.toNat = none ∧ OthersStand s t [(0xD000 + cell.toNat, 1), (0xD000 + cell.toNat, 7)] := by
  let u := admittedIn s q tr
  have hop := installOp_stages (u := u) (c := cell.toNat) hc (by rw [num_admittedIn, hload]) (by rw [oct_admittedIn]; exact hkey) (by rw [num_admittedIn, hdge])
    (by rw [num_admittedIn, hcore])
  have hcode : installCheck u cell.toNat u.twc.staged = installCheck s cell.toNat s.twc.staged := by rw [installCheck_admittedIn, twc_admittedIn]
  rw [hcode, twc_admittedIn] at hop
  have hw : writeValue u (callerOf q tr z) 0xD100 3 (actionDesc true) [cell] .ok = installOp u cell.toNat .ok := by
    have hone : leNat [cell] = cell.toNat := by simp [leNat]
    rw [← hone]
    rfl
  have hmem := installCheck_cases s cell.toNat s.twc.staged
  simp only [List.mem_cons, List.not_mem_nil, or_false] at hmem
  have hfaults : installCheck s cell.toNat s.twc.staged ≠ Abt.compareFault ∧ installCheck s cell.toNat s.twc.staged ≠ Abt.resultCheck := by
    rcases hmem with h | h | h | h | h | h | h | h <;> rw [h] <;> decide
  have hst : Steady s (setCellState (leaveCell u cell.toNat) cell.toNat 1) := ((steady_admitted s q tr).leaveCell _).setCellState _ _
  obtain ⟨t, y, hex, hadm, hset⟩ := client_waits (d := actionDesc true) ho hq hexec hcl rfl ⟨by decide, by decide, rfl, by decide⟩ (fun _ => hfree)
    (open_checks ho hcl (by decide) (fun u hl => by simp [lifecycleCheck, hl]) rfl
      (by simp [modeCheck, needsProvision, isSendRecv]) (by decide)) (by decide) rfl rfl (hw.trans hop) (by simp [accepted]) rfl hfaults hst
  refine ⟨t, hex, hadm, ?_, ?_, fun i' k hk hb hn => ?_⟩
  · exact (hset.num (by decide) (by unfold bookkeeping; simp)).trans (num_setCellState _ (by omega))
  · have htwc : t.twc.cells = SMap.del u.twc.cells cell.toNat :=
      (congrArg (fun a => a.twc.cells) hset.rest).trans ((congrArg Twc.cells (setCellState_twc (leaveCell u cell.toNat) cell.toNat 1)).trans (leaveCell_cells u cell.toNat))
    rw [htwc, SMap.look_del, if_pos rfl]
  · have hothers := ((othersStand_admittedIn s q tr [(0xD000 + cell.toNat, 1), (0xD000 + cell.toNat, 7)]).leaveCell cell.toNat).setCellState (n := 1) (c := cell.toNat) (by simp) (by simp)
    exact (hset.objects i' k hk hb).trans (hothers i' k hk hb hn)

end

/-- Settles O27: segments are staged, the END leaves the manifest loaded, and Install stages the outcome of its checks. -/
theorem appletsLoadAndInstall : Obligations.applets_load_and_install := by
  unfold Obligations.applets_load_and_install
  intro s h tr z ho
  refine ⟨fun g x hcl hn => ⟨fun hpart => ?_, fun hlast hlen => ?_⟩, fun cell hcl hc hload hkey hfree hdge hcore => ?_⟩
  · exact manifestSegment_replies rfl rfl hcl hn hpart
  · exact manifestEnd_replies ho rfl rfl hcl hn hlast hlen
  · exact install_admits ho rfl rfl hcl hc hload hkey hfree hdge hcore

end Sys2Proof.Machine
end

section
/-! SUPPORT. Stream slots: begun, ended, parked, unparked and released (R271, R272, R277 to R279). -/

namespace Sys2Proof.Machine

theorem SMap.look_map {α : Type} (m : SMap α) (k : Nat) (f : α → α) :
    SMap.look (m.map fun p => if p.1 = k then (p.1, f p.2) else p) k = (SMap.look m k).map f := by
  induction m with
  | nil => rfl
  | cons p m ih =>
    obtain ⟨j, x⟩ := p
    by_cases h : j = k
    · simp [SMap.look, h]
    · simpa [SMap.look, h] using ih

/-- The session of an authentic request in its admission (R120). -/
theorem session_admittedIn {s : State} {q : Rq} {tr : Trailer} {z : Session} (h : SMap.look s.sessions tr.slot = some z) :
    SMap.look (admittedIn s q tr).sessions tr.slot = some { z with time := s.seq.time, last := tr.counter } := by
  obtain ⟨hh, b, n, f, e⟩ := admittedIn_cases s q tr
  rw [e]
  exact (SMap.look_map s.sessions tr.slot fun z => { z with time := s.seq.time, last := tr.counter }).trans (congrArg (Option.map _) h)

theorem keys_admittedIn (s : State) (q : Rq) (tr : Trailer) (k : Nat) (z : Session) : Session.keys (admittedIn s q tr) k z = Session.keys s k z := by
  obtain ⟨hh, b, n, f, e⟩ := admittedIn_cases s q tr
  rw [e]
  exact keys_congr rfl rfl rfl rfl rfl k z

/-- The keys of a session do not depend on its time and its counter. -/
theorem keys_renewed (s : State) (k : Nat) (z : Session) (t n : Nat) : Session.keys s k { z with time := t, last := n } = Session.keys s k z := rfl

theorem keyForHandle_congr {a b : State} (hs : a.secrets = b.secrets) (hn : a.pers.nodes = b.pers.nodes) (he : a.pers.epochs = b.pers.epochs)
    (hl : a.pers.allocs = b.pers.allocs) (w : Nat) (c : Caller) (ok : Bool) (p : Node → Bool) : keyForHandle a w c ok p = keyForHandle b w c ok p := by
  have hsecret : secretByHandle a w = secretByHandle b w := by
    unfold secretByHandle
    rw [hs]
  have hnode : nodeByHandle a w = nodeByHandle b w := by
    unfold nodeByHandle handleOf
    rw [hl]
    simp only [nodeOf_congr hn]
  have hlive : ∀ n, live a n = live b n := liveGo_congr hn he 4
  have hdom : ∀ n, keyDomainOk a c.origin n = keyDomainOk b c.origin n := fun n => by
    unfold keyDomainOk below atOrBelow
    simp only [belowGo_congr hn]
  unfold keyForHandle
  rw [hsecret, hnode]
  simp only [hlive, hdom, nodeOf_congr hn]

theorem streamOf_setStream (u : State) (f : Nat) (x : Stream) : streamOf (setStream u f x) f = x := by
  unfold streamOf setStream
  exact (SMap.at_store _ _ _ _ _).trans (if_pos rfl)

theorem streamOf_congr {a b : State} (h : a.streams = b.streams) (f : Nat) : streamOf a f = streamOf b f := by
  unfold streamOf
  rw [h]

section
variable {a t : State} {i k : Nat} {v : Val} {y : Slot}

theorem written_streams (h : Settled (pushSlot (setObj a i k v) y) t) (f : Nat) : streamOf t f = streamOf a f :=
  streamOf_congr (congrArg (fun x => x.streams) (written_rest h)) f

theorem written_transfers (h : Settled (pushSlot (setObj a i k v) y) t) : t.transfers = a.transfers := congrArg (fun x => x.transfers) (written_rest h)

end

/-- A stream slot's self-clearing actions. -/
def streamAction : Desc := ⟨.u8, 1, .rwx, .operator, false, false, .num 0⟩
def streamBegin : Desc := ⟨.octets, 24, .rwx, .operator, false, false, .oct (zeros 24)⟩
def streamParked : Desc := ⟨.domain, 424, .rw, .operator, false, false, .oct []⟩

section
variable {s : State} {h : Hdr} {tr : Trailer} {z : Session} {f k : Nat} {v : Bytes} {d : Desc} {e0 : Eff} {i : Instr} {P : State → Prop} {q : Rq}

theorem streams_admittedIn (s : State) (q : Rq) (tr : Trailer) (f : Nat) : streamOf (admittedIn s q tr) f = streamOf s f := by
  obtain ⟨hh, b, n, f, e⟩ := admittedIn_cases s q tr
  rw [e]
  rfl

/-- The owner of a stream slot passes the owner check, and anyone does that begins one which is idle (R270). -/
theorem ownerCheck_stream {u : State} {c : Ctx} (hf : f < 16)
    (hown : ((streamOf u f).ownOrigin = c.origin ∧ some (streamOf u f).ownSess = c.slot ∧ (streamOf u f).state ≠ 0) ∨ ((streamOf u f).state = 0 ∧ k = 2)) :
    ownerCheck u c true (0xCF00 + f) k = 0 := by
  unfold ownerCheck
  rw [if_neg (by unfold isSendRecv; simp; omega)]
  split
  · rw [show 0xCF00 + f - 0xCF00 = f by omega]
    dsimp only
    rcases hown with ⟨ho, hs, hst⟩ | ⟨hst, hk⟩
    · rw [if_pos hst, if_pos (by simp [ho, hs])]
    · rw [if_neg (by simp [hst]), if_pos (by simp [hk])]
  · rw [if_neg (by omega)]

/-- A write to an object of stream slot f, whose effect is streamWrite (R270). -/
theorem stream_completes (ho : Open s) (hf : f < 16) (hq : q = rqWrite h (0xCF00 + f) k v) (hcl : Client s q tr z d.role)
    (hexec : exec i s = coreCmd (fun s => request s q) s) (hd : SMap.look Dict.tStream k = some d) (hty : d.ty = .u8 ∨ d.ty = .octets)
    (hl : v.length = d.size ∧ d.size ≤ 24) (ha : d.acc ≠ .const ∧ d.acc ≠ .ro) (hlong : d.longOp = false)
    (hown : ((streamOf s f).ownOrigin = h.origin ∧ (streamOf s f).ownSess = tr.slot ∧ (streamOf s f).state ≠ 0) ∨ ((streamOf s f).state = 0 ∧ k = 2))
    (hw : streamWrite (admittedIn s q tr) (callerOf q tr z) f k v .ok = e0) (h0 : e0.code = 0)
    (hg : e0.acts.any stagesEffect = false) (hb : e0.body = []) (hst : Steady s e0.s)
    (hP : ∀ y t, Settled (pushSlot (setObj e0.s (0xCF00 + f) k (d.decode v)) y) t → P t) : Completes i s q z e0.lat e0.acts P := by
  subst hq
  have hne : d.ty ≠ .bool ∧ d.ty ≠ .s20 ∧ d.ty ≠ .label ∧ d.ty ≠ .domain := by
    rcases hty with h | h <;> rw [h] <;> decide
  have hwrite : ∀ u x p, writeValue u x (0xCF00 + f) k d v p = streamWrite u x f k v p := by
    intro u x p
    unfold writeValue
    dsimp only
    rw [encodingCheck_plain ⟨hne.1, hne.2.1, hne.2.2.1⟩, if_neg (by decide), if_neg (by omega), if_neg (by omega), if_pos (by omega), show 0xCF00 + f - 0xCF00 = f by omega]
  exact open_completes ho hcl hexec ((find_stream hf k).trans (by rw [hd])) ⟨hne.2.2.2, hne.2.2.1, hl⟩ ha (by simp [hlong])
    (fun _ _ => lifecycleCheck_elsewhere (by omega)) (fun c hc hs => ownerCheck_stream hf (by rw [streams_admittedIn, hc, hs]; simpa using hown))
    (fun _ hs _ => modeCheck_elsewhere hs (by omega) (by omega) (by simp only [List.mem_cons, List.not_mem_nil, or_false]; omega)) (by omega)
    (by unfold isCarried; simp; omega) (by unfold isSensorSetting; simp; omega) ((hwrite _ _ _).trans hw) h0 hg hb hst hP

theorem streamWrite_endOfData (u : State) (c : Ctx) (f : Nat) : streamWrite u c f 10 [1] .ok =
    if (streamOf u f).state = 4 then Eff.fail u Lat.write Abt.keyOrphaned
    else if (streamOf u f).state ≠ 1 ∨ (streamOf u f).remain = 0 then Eff.fail u Lat.write Abt.valueConflict
    else Eff.ok (failStream (closeInput u (0xCF00 + f) 3) f Abt.lengthShort) Lat.write := rfl

/-- No Input transfer stands once it is closed. -/
theorem inputOpen_closed {u t : State} {j n : Nat} (h : t.transfers = (closeInput u j n).transfers) : inputOpen t j n = false := by
  unfold inputOpen
  rw [h]
  unfold closeInput
  rw [List.any_eq_false]
  intro x hx
  have hpass := (List.mem_filter.mp hx).2
  simp only [Bool.not_eq_true', Bool.and_eq_false_iff, decide_eq_false_iff_not] at hpass
  rcases hpass with h | h <;> simp [h]

/-- End of data on an active stream with bytes to come fails it (R274). -/
theorem endOfData_completes (ho : Open s) (hf : f < 16) (hq : q = rqWrite h (0xCF00 + f) 10 [1]) (hexec : exec i s = coreCmd (fun s => request s q) s)
    (hcl : Client s q tr z .operator) (ho1 : (streamOf s f).ownOrigin = h.origin) (ho2 : (streamOf s f).ownSess = tr.slot) (hstate : (streamOf s f).state = 1)
    (hrem : (streamOf s f).remain ≠ 0) :
    Completes i s q z 10 [] fun t => (streamOf t f).state = 3 ∧ (streamOf t f).ctx = none ∧ (streamOf t f).result = Abt.lengthShort ∧ OthersStand s t [(0xCF00 + f, 10)] := by
  let u := failStream (closeInput (admittedIn s q tr) (0xCF00 + f) 3) f Abt.lengthShort
  have hu : streamOf u f = _ := streamOf_setStream _ f _
  refine stream_completes (d := streamAction) (e0 := Eff.ok u 10) ho hf hq hcl hexec rfl (.inl rfl) ⟨rfl, by decide⟩ (by decide) rfl
    (.inl ⟨ho1, ho2, by omega⟩) ?_ rfl rfl rfl (((steady_admitted s q tr).withTransfers _).failStream _ _) fun y t hset => ?_
  · rw [streamWrite_endOfData, streams_admittedIn, if_neg (by omega), if_neg (by omega)]
    rfl
  · rw [written_streams hset, show (Eff.ok u 10).s = u from rfl, hu]
    exact ⟨rfl, rfl, rfl, written_others hset (by decide) (othersStand_admittedIn s q tr _) (List.mem_singleton_self _)⟩

/-- Release empties a slot (R278). -/
theorem slotRelease_completes (ho : Open s) (hf : f < 16) (hq : q = rqWrite h (0xCF00 + f) 13 [1]) (hexec : exec i s = coreCmd (fun s => request s q) s)
    (hcl : Client s q tr z .operator) (ho1 : (streamOf s f).ownOrigin = h.origin) (ho2 : (streamOf s f).ownSess = tr.slot) (hstate : (streamOf s f).state ≠ 0) :
    Completes i s q z 10 [] fun t => streamOf t f = stream0 ∧ inputOpen t (0xCF00 + f) 3 = false ∧ OthersStand s t [(0xCF00 + f, 13)] := by
  refine stream_completes (d := streamAction) (e0 := Eff.ok (releaseStream (closeInput (admittedIn s q tr) (0xCF00 + f) 3) f) 10) ho hf hq hcl hexec rfl (.inl rfl)
    ⟨rfl, by decide⟩ (by decide) rfl (.inl ⟨ho1, ho2, hstate⟩) rfl rfl rfl rfl (((steady_admitted s q tr).withTransfers _).withStreams _) fun y t hset => ⟨?_, ?_, ?_⟩
  · rw [written_streams hset]
    exact streamOf_setStream _ f _
  · have htr := written_transfers hset
    exact inputOpen_closed (u := admittedIn s q tr) htr
  · exact written_others hset (by decide) (othersStand_admittedIn s q tr _) (List.mem_singleton_self _)

theorem cipherFault_none {u : State} (hdown : u.entropyDown = false) (hent : num u 0x2300 1 ≠ 3) (hlane : num u 0xCF20 1 = 0) : cipherFault u .ok = 0 := by
  have hok : entropyOk u = true := by
    unfold entropyOk
    rw [hdown]
    simp [hent]
  have hup : cipherUp u = true := by
    unfold cipherUp
    rw [hlane]
    rfl
  unfold cipherFault unitsFault Needs.onLane coreUp
  rw [hok, hup]
  rfl

theorem cipherFault_admittedIn (hr : Ready s) : cipherFault (admittedIn s q tr) .ok = 0 := by
  refine cipherFault_none ?_ (by rw [num_admittedIn]; exact hr.entropy) (by rw [num_admittedIn]; exact hr.lane)
  obtain ⟨hh, b, n, f, e⟩ := admittedIn_cases s q tr
  rw [e]
  exact hr.source

end

end Sys2Proof.Machine
end

section
/-! SUPPORT. The Begin, the Park and the Unpark of a stream slot (R259, R271, R272, R279). -/

namespace Sys2Proof.Machine

/-- The 24-byte value of a Begin (R271). -/
def beginValue (m tag : Byte) (dec : Bool) (key aad data : Word) : Bytes :=
  [m, if dec then 1 else 0, tag, 0] ++ leBytes 4 key.toNat ++ leBytes 4 aad.toNat ++ leBytes 4 data.toNat ++ zeros 8

/-- The context that a Begin builds in admission adm (R259, R267). -/
def begunCtx (m tag : Byte) (dec : Bool) (key aad data : Word) (epoch adm origin slot : Nat) : SCtx :=
  ⟨m.toNat, dec, tag.toNat, key.toNat, epoch, aad.toNat, data.toNat, 0, 0, [], 0, if dec then [] else Str.buildNonce m.toNat adm, zeros 200, false, adm, origin, slot, 0⟩

section
variable {m tag : Byte} {dec : Bool} {key aad data : Word}

/-- What a Begin reads of its value. -/
theorem beginValue_fields : ((beginValue m tag dec key aad data).getD 0 0) = m ∧ ((beginValue m tag dec key aad data).getD 1 0) = (if dec then 1 else 0) ∧
    ((beginValue m tag dec key aad data).getD 2 0) = tag ∧ ((beginValue m tag dec key aad data).getD 3 0) = 0 ∧
    leNat (((beginValue m tag dec key aad data).drop 4).take 4) = key.toNat ∧ leNat (((beginValue m tag dec key aad data).drop 8).take 4) = aad.toNat ∧
    leNat (((beginValue m tag dec key aad data).drop 12).take 4) = data.toNat ∧ ((beginValue m tag dec key aad data).drop 16).all (· = 0) = true := by
  refine ⟨rfl, rfl, rfl, rfl, leNat_leBytes 4 _ key.isLt, leNat_leBytes 4 _ aad.isLt, leNat_leBytes 4 _ data.isLt, rfl⟩

/-- The slot after a Begin. -/
def begunStream (x : SCtx) : Stream :=
  ⟨1, some x, x.owner, x.sess, [], [], 0, 0, Str.total x.mode x.dec x.tagLen x.aadLen x.dataLen, fitBytes 16 (if x.mode = 4 then [] else x.iv), [], [],
    (x.dec && Str.isAead x.mode) || Str.isKw x.mode, x.mode⟩

/-- A Begin whose value passes (R271, R272). -/
theorem beginStreamOp_begins {u : State} {f cap : Nat} {c : Caller} (hst : (streamOf u f).state ≠ 1) (hk : Str.known m.toNat = true)
    (ht : Str.tagOk m.toNat tag.toNat = true) (hl : Str.lenOk m.toNat dec aad.toNat data.toNat cap = true)
    (hkey : if Str.isSha m.toNat = true then key = 0 else key ≠ 0 ∧
      keyForHandle u key.toNat c (decide (m.toNat ≤ 7) || decide (m.toNat = 0x18)) (fun x => usageOk x m.toNat dec c.role) = 0) :
    beginStreamOp u f c (beginValue m tag dec key aad data) cap =
      (setStream (stripStream u f) f (begunStream (begunCtx m tag dec key aad data (handleEpoch u key.toNat) u.seq.adm c.origin c.slot)), 0) := by
  obtain ⟨h0, h1, h2, h3, h4, h8, h12, h16⟩ := beginValue_fields (m := m) (tag := tag) (dec := dec) (key := key) (aad := aad) (data := data)
  have hdec : bit (if dec = true then (1 : Byte) else 0).toNat 0 = dec := by cases dec <;> rfl
  have hhalf : ¬((if dec = true then (1 : Byte) else 0).toNat / 2 ≠ 0) := by cases dec <;> decide
  have hcode : (if Str.isSha m.toNat = true then (if key.toNat = 0 then 0 else Abt.handleInvalid) else if key.toNat = 0 then Abt.handleInvalid
      else keyForHandle u key.toNat c (decide (m.toNat ≤ 7) || decide (m.toNat = 0x18)) (fun x => usageOk x m.toNat dec c.role)) = 0 := by
    split at hkey
    · rw [if_pos ‹_›, hkey]
      rfl
    · have hne : key.toNat ≠ 0 := fun h => hkey.1 (BitVec.eq_of_toNat_eq h)
      rw [if_neg ‹_›, if_neg hne, hkey.2]
  unfold beginStreamOp
  simp only [h0, h1, h2, h3, h4, h8, h12, h16, hdec, hk, ht, hl]
  rw [if_neg hst, if_neg (by simpa using hhalf), if_neg (by decide), if_neg (by rw [hcode]; decide)]
  rfl

end

section
variable {s : State} {h : Hdr} {tr : Trailer} {z : Session} {f : Nat} {i : Instr} {q : Rq}

/-- Begin on an idle slot (R259, R271, R272). -/
theorem beginStream_completes {m tag : Byte} {dec : Bool} {key aad data : Word} {v : Bytes} (ho : Open s) (hf : f < 16) (hv : v = beginValue m tag dec key aad data)
    (hq : q = rqWrite h (0xCF00 + f) 2 v) (hexec : exec i s = coreCmd (fun s => request s q) s) (hcl : Client s q tr z .operator) (hst : (streamOf s f).state = 0)
    (hk : Str.known m.toNat = true) (ht : Str.tagOk m.toNat tag.toNat = true) (hl : Str.lenOk m.toNat dec aad.toNat data.toNat 32768 = true)
    (hkey : if Str.isSha m.toNat = true then key = 0 else key ≠ 0 ∧
      keyForHandle s key.toNat (callerOf q tr z).caller (decide (m.toNat ≤ 7) || decide (m.toNat = 0x18)) (fun x => usageOk x m.toNat dec z.role) = 0) :
    Completes i s q z 10 [] fun t =>
      streamOf t f = begunStream (begunCtx m tag dec key aad data (handleEpoch s key.toNat) (s.seq.adm + 1) h.origin tr.slot) := by
  let u := setNum (setNum (setNum (admittedIn s q tr) (0xCF00 + f) 10 0) (0xCF00 + f) 11 0) (0xCF00 + f) 13 0
  have hu : Steady s u := (((steady_admitted s q tr).setNum _ _ _).setNum _ _ _).setNum _ _ _
  have hsame : u.streams = s.streams ∧ u.secrets = s.secrets ∧ u.pers.nodes = s.pers.nodes ∧ u.pers.epochs = s.pers.epochs ∧ u.pers.allocs = s.pers.allocs := by
    obtain ⟨hh, b, n, p, e⟩ := admittedIn_cases s q tr
    obtain ⟨d1, p1, l1, e1⟩ := setObj_dict (admittedIn s q tr) (0xCF00 + f) 10 (.num 0)
    obtain ⟨d2, p2, l2, e2⟩ := setObj_dict (setNum (admittedIn s q tr) (0xCF00 + f) 10 0) (0xCF00 + f) 11 (.num 0)
    obtain ⟨d3, p3, l3, e3⟩ := setObj_dict (setNum (setNum (admittedIn s q tr) (0xCF00 + f) 10 0) (0xCF00 + f) 11 0) (0xCF00 + f) 13 (.num 0)
    unfold u
    rw [setNum, e3, setNum, e2, setNum, e1, e]
    exact ⟨rfl, rfl, rfl, rfl, rfl⟩
  obtain ⟨hstreams, hsecrets, hnodes, hepochs, hallocs⟩ := hsame
  have hepoch : handleEpoch u key.toNat = handleEpoch s key.toNat := by
    unfold handleEpoch
    rw [epochOf_congr hepochs]
  have hstu : (streamOf u f).state = 0 := by rw [streamOf_congr hstreams, hst]
  have hbegin := beginStreamOp_begins (u := u) (f := f) (c := (callerOf q tr z).caller) (m := m) (tag := tag) (dec := dec) (key := key) (aad := aad) (data := data)
    (by omega) hk ht hl (by rw [keyForHandle_congr hsecrets hnodes hepochs hallocs]; exact hkey)
  have horigin : (callerOf q tr z).caller.origin = h.origin := by
    rw [hq]
    rfl
  rw [hepoch, hu.adm, horigin, show (callerOf q tr z).caller.slot = tr.slot from rfl] at hbegin
  refine stream_completes (d := streamBegin)
    (e0 := Eff.ok (setStream (stripStream u f) f (begunStream (begunCtx m tag dec key aad data (handleEpoch s key.toNat) (s.seq.adm + 1) h.origin tr.slot))) 10)
    ho hf hq hcl hexec rfl (.inr rfl) ⟨by rw [hv]; rfl, by decide⟩ (by decide) rfl (.inr ⟨hst, rfl⟩) ?_ rfl rfl rfl ⟨hu.adm, hu.time, hu.first, hu.queue, hu.fuses⟩ fun y t hset => ?_
  · have hbody : streamWrite (admittedIn s q tr) (callerOf q tr z) f 2 v .ok =
        if (beginStreamOp u f (callerOf q tr z).caller v 32768).2 = 0 then Eff.ok (beginStreamOp u f (callerOf q tr z).caller v 32768).1 10
        else Eff.fail (admittedIn s q tr) 10 (beginStreamOp u f (callerOf q tr z).caller v 32768).2 := by
      have hidle : (streamOf (admittedIn s q tr) f).state = 0 := by rw [streams_admittedIn, hst]
      unfold streamWrite
      dsimp only
      rw [if_pos hidle]
      rfl
    rw [hbody, hv, hbegin]
    rfl
  · rw [written_streams hset]
    exact streamOf_setStream _ f _

/-- The state after a Park of slot f that leaves w: its session z lists the admission (R279). -/
def parkedState (u : State) (f k : Nat) (z : Session) (y : Stream) : State :=
  { setStream (claimMasks u 312) f y with sessions := SMap.put u.sessions k { z with parked := u.seq.adm :: z.parked } }

theorem Steady.parkedState {s u : State} (h : Steady s u) (f k : Nat) (z : Session) (y : Stream) : Steady s (parkedState u f k z y) :=
  ⟨h.adm, h.time, h.first, h.queue, h.fuses⟩

theorem parkStream_parks {u : State} {y : Stream} {x : SCtx} {b : Bool} (hy : streamOf u f = y) (hx : y.ctx = some x) (hz : SMap.look u.sessions y.ownSess = some z) (hst : y.state = 1)
    (hstaged : y.staged = []) (hin : b = false) (hroom : z.parked.length < 16) (hfault : cipherFault u .ok = 0) :
    parkStream u f b .ok = Eff.ok (parkedState u f y.ownSess z { stream0 with
      parked := kwWrap ((Session.keys u y.ownSess z).drop 32) { x with parkAdm := u.seq.adm, pend := x.pend ++ y.hold }.bytes
      ownOrigin := y.ownOrigin, ownSess := y.ownSess }) 40 := by
  unfold parkStream
  rw [hy]
  dsimp only
  rw [hx, hz]
  dsimp only
  rw [hin, if_neg (by simp [hst, hstaged]; omega), hfault, if_neg (by decide)]
  rfl

/-- Park wraps the context under the session's key and leaves the slot idle (R279). -/
theorem park_completes {x : SCtx} (ho : Open s) (hf : f < 16) (hq : q = rqWrite h (0xCF00 + f) 11 [1]) (hexec : exec i s = coreCmd (fun s => request s q) s)
    (hcl : Client s q tr z .operator) (ho1 : (streamOf s f).ownOrigin = h.origin) (ho2 : (streamOf s f).ownSess = tr.slot) (hst : (streamOf s f).state = 1)
    (hx : (streamOf s f).ctx = some x) (hstaged : (streamOf s f).staged = []) (hin : inputOpen s (0xCF00 + f) 3 = false) (hroom : z.parked.length < 16) :
    Completes i s q z 40 [] fun t => (streamOf t f).state = 0 ∧
      (streamOf t f).parked = kwWrap ((Session.keys s tr.slot z).drop 32) { x with parkAdm := s.seq.adm + 1, pend := x.pend ++ (streamOf s f).hold }.bytes ∧
        ∃ y, SMap.look t.sessions tr.slot = some y ∧ y.parked = (s.seq.adm + 1) :: z.parked := by
  have hu := steady_admitted s q tr
  have hopen : inputOpen (admittedIn s q tr) (0xCF00 + f) 3 = false := by
    obtain ⟨hh, b, n, p, e⟩ := admittedIn_cases s q tr
    rw [e]
    exact hin
  have hpark := parkStream_parks (u := admittedIn s q tr) (z := { z with time := s.seq.time, last := tr.counter }) (streams_admittedIn s q tr f) hx
    (by rw [ho2]; exact session_admittedIn hcl.authentic.slot) hst hstaged hopen hroom (cipherFault_admittedIn hcl.ready)
  rw [keys_admittedIn, keys_renewed, hu.adm, ho2] at hpark
  refine stream_completes (d := streamAction) (e0 := Eff.ok (parkedState _ f tr.slot _ _) 40) ho hf hq hcl hexec rfl (.inl rfl) ⟨rfl, by decide⟩ (by decide) rfl
    (.inl ⟨ho1, ho2, by omega⟩) hpark rfl rfl rfl (hu.parkedState _ _ _ _) fun y t hset => ?_
  have hstream := (written_streams hset f).trans (streamOf_setStream (claimMasks (admittedIn s q tr) 312) f _)
  have hlook : SMap.look t.sessions tr.slot = some { z with time := s.seq.time, last := tr.counter, parked := (admittedIn s q tr).seq.adm :: z.parked } := by
    rw [written_sessions hset]
    exact SMap.look_put_same _ _ _
  rw [hu.adm] at hlook
  exact ⟨by rw [hstream]; rfl, by rw [hstream], _, hlook, rfl⟩

/-- The context that an Unpark takes up: what waits is held apart once the context is closed (R267, R279). -/
def unparkedCtx (p : SCtx) : SCtx := if Str.closed p then { p with pend := [] } else p

/-- The slot after an Unpark of context p by a session. -/
def unparkedStream (p : SCtx) (origin slot : Nat) : Stream :=
  ⟨1, some { unparkedCtx p with owner := origin, sess := slot }, origin, slot, [], [], 0, 0,
    Str.total (unparkedCtx p).mode (unparkedCtx p).dec (unparkedCtx p).tagLen (unparkedCtx p).aadLen (unparkedCtx p).dataLen - ((unparkedCtx p).aadDone + (unparkedCtx p).dataDone),
    fitBytes 16 (unparkedCtx p).iv, [], if Str.closed p then p.pend else [], ((unparkedCtx p).dec && Str.isAead (unparkedCtx p).mode) || Str.isKw (unparkedCtx p).mode,
    (unparkedCtx p).mode⟩

/-- The state after an Unpark of admission adm's context: session z lists it no more (R279). -/
def unparkedState (u : State) (f k adm : Nat) (z : Session) (y : Stream) : State :=
  setStream (stripStream { claimMasks u 312 with sessions := SMap.put u.sessions k { z with parked := z.parked.filter (· ≠ adm) } } f) f y

theorem Steady.unparkedState {s u : State} (h : Steady s u) (f k adm : Nat) (z : Session) (y : Stream) : Steady s (unparkedState u f k adm z y) :=
  ⟨h.adm, h.time, h.first, h.queue, h.fuses⟩

theorem unparkedCtx_same (p : SCtx) : (unparkedCtx p).parkAdm = p.parkAdm ∧ (unparkedCtx p).epoch = p.epoch ∧ (unparkedCtx p).handle = p.handle := by
  unfold unparkedCtx
  split <;> exact ⟨rfl, rfl, rfl⟩

theorem unparkStream_unparks {u : State} {k : Nat} {c : Caller} {v b : Bytes} (hz : SMap.look u.sessions k = some z) (hst : (streamOf u f).state = 0)
    (hfault : cipherFault u .ok = 0) (hw : kwUnwrap ((Session.keys u k z).drop 32) v = (b, true)) (hb : b.head? = some 1) (hin : (parseCtx b).parkAdm ∈ z.parked)
    (he : (parseCtx b).epoch = handleEpoch u (parseCtx b).handle)
    (hl : (parseCtx b).handle = 0 ∨ (parseCtx b).handle / 0x100000 % 16 = 8 ∨ live u ((parseCtx b).handle % 0x10000) = true) :
    unparkStream u f k c v .ok = Eff.ok (unparkedState u f k (parseCtx b).parkAdm z (unparkedStream (parseCtx b) c.origin c.slot)) 40 := by
  obtain ⟨hadm, hepoch, hhandle⟩ := unparkedCtx_same (parseCtx b)
  have hlive : live (claimMasks u 312) ((parseCtx b).handle % 0x10000) = live u ((parseCtx b).handle % 0x10000) := liveGo_congr rfl rfl 4 _
  have hepochs : handleEpoch (claimMasks u 312) (parseCtx b).handle = handleEpoch u (parseCtx b).handle := rfl
  unfold unparkStream
  rw [hz]
  dsimp only
  rw [hw, hfault, if_neg (by omega), if_neg (by decide), if_neg (by decide)]
  change (if (!true) = true then _ else if b.head? ≠ some 1 then _ else if (!z.parked.contains (unparkedCtx (parseCtx b)).parkAdm) = true then _
    else if (unparkedCtx (parseCtx b)).epoch ≠ handleEpoch (claimMasks u 312) (unparkedCtx (parseCtx b)).handle ∨ ((unparkedCtx (parseCtx b)).handle ≠ 0 ∧
      (unparkedCtx (parseCtx b)).handle / 0x100000 % 16 ≠ 8 ∧ (!live (claimMasks u 312) ((unparkedCtx (parseCtx b)).handle % 0x10000)) = true) then _
    else Eff.ok (unparkedState u f k (unparkedCtx (parseCtx b)).parkAdm z (unparkedStream (parseCtx b) c.origin c.slot)) 40) = _
  rw [hadm, hepoch, hhandle, hepochs, hlive, if_neg (by decide), if_neg (by simp [hb]), if_neg (by simp [hin]), if_neg]
  rintro (h | ⟨h1, h2, h3⟩)
  · exact h he
  · rcases hl with h | h | h
    · exact h1 h
    · exact h2 h
    · rw [h] at h3
      cases h3

theorem num_endedIn (s : State) (q : Rq) (tr : Trailer) (j n : Nat) : num (endedIn s q tr) j n = num s j n := num_admittedIn s q tr j n

/-- The END of a parked context takes it up in an idle slot (R279). -/
theorem unpark_replies {g : Seg} {x : Transfer} {b : Bytes} (ho : Open s) (hf : f < 16) (hq : q = rqSeg h (0xCF00 + f) 12 g)
    (hexec : exec i s = coreCmd (fun s => request s q) s) (hcl : Client s q tr z .operator) (hn : NextSegment s q (some tr.slot) (0xCF00 + f) 12 g x)
    (hlast : x.got + g.len = x.total) (hst : (streamOf s f).state = 0) (hw : kwUnwrap ((Session.keys s tr.slot z).drop 32) (x.buf ++ g.data) = (b, true)) (hb : b.head? = some 1)
    (hin : (parseCtx b).parkAdm ∈ z.parked) (he : (parseCtx b).epoch = handleEpoch s (parseCtx b).handle)
    (hl : (parseCtx b).handle = 0 ∨ (parseCtx b).handle / 0x100000 % 16 = 8 ∨ live s ((parseCtx b).handle % 0x10000) = true) :
    Replies i s q z 40 (segReply g) [] fun t => streamOf t f = unparkedStream (parseCtx b) h.origin tr.slot ∧
      ∃ y, SMap.look t.sessions tr.slot = some y ∧ (parseCtx b).parkAdm ∉ y.parked := by
  have hlive : ∀ n, live (endedIn s q tr) n = live s n := (nodes_admittedIn s q tr).2.2.2.1
  have hepoch : ∀ w, handleEpoch (endedIn s q tr) w = handleEpoch s w := fun w => by
    obtain ⟨hh, p, n, e, eq⟩ := admittedIn_cases s q tr
    unfold endedIn
    rw [eq]
    rfl
  have hidle : (streamOf (endedIn s q tr) f).state = 0 := (congrArg Stream.state (streams_admittedIn s q tr f)).trans hst
  have hsess : SMap.look (endedIn s q tr).sessions tr.slot = some { z with time := s.seq.time, last := tr.counter } := session_admittedIn hcl.authentic.slot
  have hfault : cipherFault (endedIn s q tr) .ok = 0 := cipherFault_none (by obtain ⟨hh, p, n, e, eq⟩ := admittedIn_cases s q tr; unfold endedIn; rw [eq]; exact hcl.ready.source)
    (by rw [num_endedIn]; exact hcl.ready.entropy) (by rw [num_endedIn]; exact hcl.ready.lane)
  have hkeys : Session.keys (endedIn s q tr) tr.slot { z with time := s.seq.time, last := tr.counter } = Session.keys s tr.slot z := keys_admittedIn s q tr tr.slot _
  have hunpark := unparkStream_unparks (c := (callerOf q tr z).caller) hsess hidle hfault (by rw [hkeys]; exact hw) hb hin (by rw [hepoch]; exact he) (by rw [hlive]; exact hl)
  rw [show (callerOf q tr z).caller.origin = h.origin by rw [hq]; rfl, show (callerOf q tr z).caller.slot = tr.slot from rfl] at hunpark
  have hend : domainEnd (endedIn s q tr) (callerOf q tr z) (0xCF00 + f) 12 (x.buf ++ g.data) g.data .ok = Eff.ok (unparkedState (endedIn s q tr) f tr.slot (parseCtx b).parkAdm
      { z with time := s.seq.time, last := tr.counter } (unparkedStream (parseCtx b) h.origin tr.slot)) 40 := by
    unfold domainEnd
    rw [if_neg (by omega), if_pos (by omega), if_pos rfl, show 0xCF00 + f - 0xCF00 = f by omega]
    exact hunpark
  obtain ⟨t, y, hrun, hadm, hset⟩ := domainEnd_stores (d := streamParked) ho.toRoom hq hexec hcl ((find_stream hf 12).trans rfl) rfl hn hlast rfl (by intro h; cases h) (by omega)
    (by unfold isCarried; simp; omega) (by unfold isSensorSetting; simp) hend rfl rfl ((steady_endedIn s q tr).unparkedState _ _ _ _ _)
  have hlook : SMap.look t.sessions tr.slot = some { z with time := s.seq.time, last := tr.counter, parked := z.parked.filter (· ≠ (parseCtx b).parkAdm) } := by
    rw [written_sessions hset]
    exact SMap.look_put_same _ _ _
  exact ⟨t, hrun, hadm, (written_streams hset f).trans (streamOf_setStream _ f _), _, hlook, by simp⟩

end

/-- Settles O18: Begin builds its context, End of data and Release end the slot, Park and Unpark carry the context through the session's key. -/
theorem streamSlotsBeginParkAndEnd : Obligations.stream_slots_begin_park_and_end := by
  unfold Obligations.stream_slots_begin_park_and_end
  intro s h f tr z ho
  refine ⟨fun m tag dec key aad data v hv hcl hst hk ht hl hkey => ?_, fun ho1 ho2 hne => ⟨fun hcl hst hrem => ?_, fun x hcl hst hx hstaged hin hroom => ?_, fun hcl => ?_⟩,
    fun g x u c hcl hn hlast hst hw hu hc hin he hl => ?_⟩
  · obtain ⟨t, hrun, hadm, ht⟩ := beginStream_completes (i := .beginStream h f v) ho f.isLt hv rfl rfl hcl hst hk ht hl hkey
    exact ⟨t, hrun, hadm, _, ht, rfl, rfl, rfl, rfl, rfl, rfl⟩
  · exact endOfData_completes ho f.isLt rfl rfl hcl ho1 ho2 hst hrem
  · exact park_completes ho f.isLt rfl rfl hcl ho1 ho2 hst hx hstaged hin hroom
  · exact slotRelease_completes ho f.isLt rfl rfl hcl ho1 ho2 hne
  · subst hc
    obtain ⟨t, hrun, hadm, ht, hsess⟩ := unpark_replies (i := .unpark h f g) ho f.isLt rfl rfl hcl hn hlast hst hw hu hin he hl
    exact ⟨t, hrun, hadm, by rw [ht]; rfl, by rw [ht]; rfl, by rw [ht]; rfl, hsess⟩

end Sys2Proof.Machine
end

section
/-! SUPPORT. A segment of a stream's Input (R273 to R276). -/

namespace Sys2Proof.Machine

/-- What the processing of a stream's Input reads of a state: the streams, the objects, the entropy source and the keys. -/
structure Alike (s u : State) : Prop where
  streams : u.streams = s.streams
  num : ∀ i k, Machine.num u i k = Machine.num s i k
  down : u.entropyDown = s.entropyDown
  keys : ∀ w, handleKey u w = handleKey s w

theorem handleKey_congr {a b : State} (hs : a.secrets = b.secrets) (hc : a.cache = b.cache) (hn : a.pers.nodes = b.pers.nodes) (he : a.pers.epochs = b.pers.epochs)
    (hp : a.pers.pair = b.pers.pair) (ho : a.otp = b.otp) (w : Nat) : handleKey a w = handleKey b w := by
  have hpair : pairSecretOf a = pairSecretOf b := by
    unfold pairSecretOf
    rw [hp]
    split <;> simp only [keyGo_congr hc hn he ho]
  unfold handleKey secretByHandle nodeKey
  rw [hs, hpair]
  simp only [keyGo_congr hc hn he ho]

theorem alike_admittedIn (s : State) (q : Rq) (tr : Trailer) : Alike s (admittedIn s q tr) := by
  have hnum := num_admittedIn s q tr
  obtain ⟨hh, b, n, f, e⟩ := admittedIn_cases s q tr
  rw [e] at hnum ⊢
  exact ⟨rfl, hnum, rfl, handleKey_congr rfl rfl rfl rfl rfl rfl⟩

theorem Alike.withTransfers {s u : State} (h : Alike s u) (x : List Transfer) : Alike s { u with transfers := x } :=
  ⟨h.streams, h.num, h.down, fun w => (handleKey_congr (b := u) rfl rfl rfl rfl rfl rfl w).trans (h.keys w)⟩

/-- The stream after a segment that came to r, with rest bytes to come. -/
def segmented (y : Stream) (c : SCtx) (r : SCtx × Bytes × Bytes) (rest : Nat) : Stream :=
  { y with ctx := some r.1, hold := r.2.1, remain := rest, result := 0, nonce := if decide (c.mode = 4 ∧ !c.dec) then y.nonce else fitBytes 16 r.1.iv }

/-- The act that shows the IV of a CBC encryption at the release of its first segment (R272). -/
def ivActs (f : Nat) (c : SCtx) (iv : Bytes) : List Act := if decide (c.mode = 4 ∧ !c.dec) ∧ !c.started then [.streamNonce f (fitBytes 16 iv)] else []

section
variable {u : State} {f : Nat} {y : Stream} {c : SCtx} {d key : Bytes} {r : SCtx × Bytes × Bytes}

theorem unitsFault_stream {last : Bool} (hdown : u.entropyDown = false) (hent : num u 0x2300 1 ≠ 3) (hlane : num u 0xCF20 1 = 0) (hdge : 16 ≤ c.mode → num u 0xCF20 3 = 0) :
    unitsFault u .ok (streamNeeds c last) false = 0 := by
  have hok : entropyOk u = true := by
    unfold entropyOk
    rw [hdown]
    simp [hent]
  have hup : cipherUp u = true := by
    unfold cipherUp
    rw [hlane]
    rfl
  unfold unitsFault streamNeeds
  rw [hok, hup]
  have hd : ¬(decide (c.mode ≥ 16) = true ∧ num u 0xCF20 3 ≠ 0) := by
    rintro ⟨h1, h2⟩
    exact h2 (hdge (of_decide_eq_true h1))
  rw [if_neg (by simp), if_neg (by simpa [coreUp] using hd), if_neg (by simp), if_neg (by simp)]

/-- What a segment of a stream outside the key-wrap modes comes to, before its own outcome. -/
def segmentOutcome (v : State) (f : Nat) (y : Stream) (c : SCtx) (key : Bytes) (ns : List Nat) (r : SCtx × Bytes × Bytes) (rest : Nat) : Eff :=
  let lat := streamLat c.mode
  let v1 := updStream v f fun z => segmented z c r rest
  if rest ≠ 0 then
    if c.dec && Str.isAead c.mode then { Eff.ok (updStream v1 f fun z => { z with staged := z.staged ++ r.2.2 }) lat with work := .segment f, nodes := ns }
    else { Eff.ok v1 lat with acts := ivActs f c r.1.iv ++ [.streamOut f r.2.2], work := .segment f, nodes := ns }
  else
    let v2 := if Str.isHmac c.mode then count v1 4 2 1 else v1
    if c.dec && Str.isAead c.mode then streamCompare v2 f lat ns .ok (decide (Str.finish r.1 key = r.2.1)) (some (y.staged ++ r.2.2))
    else if c.dec ∧ (Str.isMac c.mode ∨ Str.isSha c.mode) then streamCompare v2 f lat ns .ok (decide (Str.finish r.1 key = r.2.1)) none
    else { Eff.ok (updStream v2 f fun z => { z with state := 2, ctx := none }) lat with
           acts := ivActs f c r.1.iv ++ [.streamOut f (r.2.2 ++ Str.finish r.1 key)], work := .segment f, nodes := ns }

theorem streamInputOp_segment (hy : streamOf u f = y) (hst : y.state = 1) (hc : y.ctx = some c) (hkw : Str.isKw c.mode = false) (hd : d ≠ []) (hkey : key = handleKey u c.handle)
    (hfault : unitsFault u .ok (streamNeeds c (decide (y.remain - d.length = 0))) false = 0) :
    ∃ v ns, (v.streams = u.streams ∧ v.twc = u.twc ∧ ∀ i k, getObj v i k = getObj u i k) ∧ streamInputOp u f d .ok = segmentOutcome v f y c key ns (streamSegment c y.hold key d) (y.remain - d.length) := by
  subst hkey
  let v : State := if !(streamNeeds c (decide (y.remain - d.length = 0))).lane then u
    else claimMasks (if isSecretHandle c.handle then u else warm u (c.handle % 0x10000)) (segBlocks u c d.length (decide (y.remain - d.length = 0)))
  refine ⟨v, handleNodes u c.handle, ?_, ?_⟩
  · have hwarm : ∃ h p x, warm u (c.handle % 0x10000) = { u with hw := h, perf := p, cache := x } := warm_cases u _
    obtain ⟨h, p, x, e⟩ := hwarm
    unfold v
    rw [e]
    split
    · exact ⟨rfl, rfl, fun _ _ => rfl⟩
    · split
      · exact ⟨rfl, rfl, fun _ _ => rfl⟩
      · exact ⟨rfl, rfl, fun _ _ => rfl⟩
  · unfold streamInputOp
    rw [hy]
    dsimp only
    rw [hc]
    dsimp only
    rw [hfault, hkw, if_neg (by omega), if_neg hd, if_neg (by decide), if_neg (by decide)]
    rfl

end

section
variable {s : State} {h : Hdr} {tr : Trailer} {z : Session} {f : Nat} {i : Instr} {q : Rq} {g : Seg} {x : Transfer} {y : Stream} {c : SCtx}

def streamInputDesc : Desc := ⟨.domain, 32768, .wo, .operator, false, false, .oct []⟩

/-- A segment of Input is processed in its own admission, whether or not its transfer ends with it (R110, R112, R274). -/
theorem streamSegment_admits (ho : Open s) (hf : f < 16) (hq : q = rqSeg h (0xCF00 + f) 3 g) (hexec : exec i s = coreCmd (fun s => request s q) s)
    (hcl : Client s q tr z .operator) (hn : NextSegment s q (some tr.slot) (0xCF00 + f) 3 g x) (hy : streamOf s f = y) (hst : y.state = 1) (hc : y.ctx = some c)
    (hkw : Str.isKw c.mode = false) (hdge : 16 ≤ c.mode → num s 0xCF20 3 = 0) :
    ∃ v ns e, v.streams = s.streams ∧ e = segmentOutcome v f y c (handleKey s c.handle) ns (streamSegment c y.hold (handleKey s c.handle) g.data) (y.remain - g.len) ∧
      (e.code = 0 → e.acts.any stagesEffect = false →
        ∃ t, exec i s = .next t ∧ Admitted s t q (some z) e.lat 0 (segReply g) e.acts ∧ streamOf t f = streamOf e.s f) := by
  have hd : Dict.find (0xCF00 + f) 3 = (true, some streamInputDesc) := (find_stream hf 3).trans rfl
  have hdata : g.data ≠ [] := fun h => by
    have := hn.some
    rw [hn.len, h] at this
    exact absurd this (by decide)
  have hinput : ∀ u, domainData u (0xCF00 + f) 3 g.data .ok = streamInputOp u f g.data .ok := fun u => by
    unfold domainData
    rw [if_pos (by omega), if_neg (fun h => hdata h.1), show 0xCF00 + f - 0xCF00 = f by omega]
  have hop : ∀ u, Alike s u → ∃ v ns, v.streams = s.streams ∧ domainData u (0xCF00 + f) 3 g.data .ok =
      segmentOutcome v f y c (handleKey s c.handle) ns (streamSegment c y.hold (handleKey s c.handle) g.data) (y.remain - g.len) := fun u ha => by
    obtain ⟨v, ns, hv, he⟩ := streamInputOp_segment (u := u) (d := g.data) (key := handleKey s c.handle) ((streamOf_congr ha.streams f).trans hy) hst hc hkw hdata (ha.keys _).symm
      (unitsFault_stream (ha.down.trans hcl.ready.source) (by rw [ha.num]; exact hcl.ready.entropy) (by rw [ha.num]; exact hcl.ready.lane) (fun h => by rw [ha.num]; exact hdge h))
    rw [hn.len]
    exact ⟨v, ns, hv.1.trans ha.streams, (hinput u).trans he⟩
  have halike := alike_admittedIn s q tr
  by_cases hlast : x.got + g.len = x.total
  · obtain ⟨v, ns, hv, he⟩ := hop (endedIn s q tr) (halike.withTransfers _)
    have hend : domainEnd (endedIn s q tr) (callerOf q tr z) (0xCF00 + f) 3 (x.buf ++ g.data) g.data .ok = domainData (endedIn s q tr) (0xCF00 + f) 3 g.data .ok := by
      unfold domainEnd
      rw [if_neg (by omega), if_pos (by omega), if_neg (by decide)]
    refine ⟨v, ns, _, hv, rfl, fun h0 hg => ?_⟩
    obtain ⟨t, w, hrun, hadm, hset⟩ := domainEnd_stores (d := streamInputDesc) ho.toRoom hq hexec hcl hd rfl hn hlast rfl (by intro h; cases h) (by omega)
      (by unfold isCarried; simp; omega) (by unfold isSensorSetting; simp; omega) (hend.trans he) h0 hg (by rw [← he]; exact (steady_endedIn s q tr).domainData _ _ _)
    exact ⟨t, hrun, hadm, written_streams hset f⟩
  · have htaken := halike.withTransfers (setTransfer (admittedIn s q tr) (afterSegment (admittedIn s q tr) x g)).transfers
    obtain ⟨v, ns, hv, he⟩ := hop (setTransfer (admittedIn s q tr) (afterSegment (admittedIn s q tr) x g)) htaken
    refine ⟨v, ns, _, hv, rfl, fun h0 hg => ?_⟩
    have hwork : segmentWork (admittedIn s q tr) (callerOf q tr z) (0xCF00 + f) 3 streamInputDesc x g =
        segmentOutcome v f y c (handleKey s c.handle) ns (streamSegment c y.hold (handleKey s c.handle) g.data) (y.remain - g.len) := by
      unfold segmentWork
      rw [if_neg hlast, if_pos (show streamInputDesc.ty = .domain from rfl), he, if_neg (fun h => h h0)]
    obtain ⟨t, w, hrun, hadm, hset⟩ := segment_admits hq hexec hcl hd hn (isNumbered_domain hq hd rfl) hwork h0
      (by rw [← he]; exact ((steady_admitted s q tr).withTransfers _).domainData _ _ _)
    exact ⟨t, hrun, hadm, streamOf_congr (congrArg (fun a => a.streams) hset.rest) f⟩

end

section
variable (v : State) (f : Nat) (y : Stream) (c : SCtx) (key : Bytes) (ns : List Nat) (r : SCtx × Bytes × Bytes)

theorem ivActs_eq (iv : Bytes) : ivActs f c iv = if c.mode = 4 ∧ c.dec = false ∧ c.started = false then [.streamNonce f (fitBytes 16 iv)] else [] := by
  unfold ivActs
  simp [and_assoc]

theorem streamOf_updStream (u : State) (g : Stream → Stream) : streamOf (updStream u f g) f = g (streamOf u f) := streamOf_setStream u f _

/-- The state at the end of a stream: an HMAC counts its end. -/
def endedStream (rest : Nat) : State :=
  if Str.isHmac c.mode then count (updStream v f fun z => segmented z c r rest) 4 2 1 else updStream v f fun z => segmented z c r rest

theorem streamOf_endedStream (rest : Nat) : streamOf (endedStream v f c r rest) f = segmented (streamOf v f) c r rest := by
  unfold endedStream
  split
  · obtain ⟨p, e⟩ := count_perf (updStream v f fun z => segmented z c r rest) 4 2 1
    have hsame : (count (updStream v f fun z => segmented z c r rest) 4 2 1).streams = (updStream v f fun z => segmented z c r rest).streams := by rw [e]
    exact (streamOf_congr hsame f).trans (streamOf_updStream f v _)
  · exact streamOf_updStream f v _

/-- A segment after which bytes are still to come (R274, R275). -/
theorem segmentOutcome_continues {rest : Nat} (hr : rest ≠ 0) : segmentOutcome v f y c key ns r rest =
    if c.dec && Str.isAead c.mode then
      { Eff.ok (updStream (updStream v f fun z => segmented z c r rest) f fun z => { z with staged := z.staged ++ r.2.2 }) (streamLat c.mode) with work := .segment f, nodes := ns }
    else { Eff.ok (updStream v f fun z => segmented z c r rest) (streamLat c.mode) with acts := ivActs f c r.1.iv ++ [.streamOut f r.2.2], work := .segment f, nodes := ns } :=
  if_pos hr

/-- The last segment of a stream that checks nothing (R273). -/
theorem segmentOutcome_ends (hv : c.dec = false ∨ c.mode = 3 ∨ c.mode = 4) : segmentOutcome v f y c key ns r 0 =
    { Eff.ok (updStream (endedStream v f c r 0) f fun z => { z with state := 2, ctx := none }) (streamLat c.mode) with
      acts := ivActs f c r.1.iv ++ [.streamOut f (r.2.2 ++ Str.finish r.1 key)], work := .segment f, nodes := ns } := by
  have hplain : (c.dec && Str.isAead c.mode) = false ∧ ¬(c.dec = true ∧ (Str.isMac c.mode = true ∨ Str.isSha c.mode = true)) := by
    rcases hv with h | h | h
    · rw [h]
      exact ⟨rfl, fun h => by cases h.1⟩
    · rw [h]
      exact ⟨Bool.and_false _, fun h => absurd h.2 (by decide)⟩
    · rw [h]
      exact ⟨Bool.and_false _, fun h => absurd h.2 (by decide)⟩
  unfold segmentOutcome
  dsimp only
  rw [if_neg (by decide), hplain.1, if_neg (by decide), if_neg hplain.2]
  rfl

/-- The last segment of a stream that checks the tag or digest that came, where it is right (R273, R276). -/
theorem segmentOutcome_matches (hd : c.dec = true) (hm : (Str.isAead c.mode || Str.isMac c.mode || Str.isSha c.mode) = true) (ht : Str.finish r.1 key = r.2.1) :
    segmentOutcome v f y c key ns r 0 =
      { Eff.ok (updStream (endedStream v f c r 0) f fun z => { z with state := 2, ctx := none, staged := [], flags := 5, result := 0, remain := 0 }) (streamLat c.mode) with
        acts := if Str.isAead c.mode then [.streamOut f (y.staged ++ r.2.2)] else [], work := .segment f, nodes := ns } := by
  unfold segmentOutcome
  dsimp only
  rw [if_neg (by decide), hd, ht, decide_eq_true rfl]
  by_cases ha : Str.isAead c.mode = true
  · rw [if_pos (by simp [ha]), if_pos ha]
    rfl
  · rw [if_neg (by simp [ha]), if_pos ⟨rfl, by simpa [ha] using hm⟩, if_neg ha]
    rfl

end

/-- Settles O19: every segment is processed by streamSegment in its own admission, and the last one ends the stream. -/
theorem streamInputIsProcessed : Obligations.stream_input_is_processed := by
  unfold Obligations.stream_input_is_processed
  intro s h f tr z g x y c r iv ho hcl hn hy hst hc hkw hdge hr hiv
  obtain ⟨v, ns, e, hv, he, hrun⟩ := streamSegment_admits (i := .streamInput h f g) ho f.isLt rfl rfl hcl hn hy hst hc hkw hdge
  have hstream : streamOf v f.val = y := (streamOf_congr hv f.val).trans hy
  rw [← hr] at he
  rw [← ivActs_eq] at hiv
  subst hiv
  have hplain : (ivActs f.val c r.1.iv).any stagesEffect = false := by
    unfold ivActs
    split <;> rfl
  refine ⟨fun hlt => ?_, fun hlast hnone => ?_, fun hlast hdec haead ht => ?_, fun hlast hdec hmac ht => ?_⟩
  · rw [segmentOutcome_continues _ _ _ _ _ _ _ (by omega)] at he
    by_cases ha : (c.dec && Str.isAead c.mode) = true
    · rw [if_pos ha] at he
      subst he
      obtain ⟨t, hex, hadm, ht⟩ := hrun rfl rfl
      simp only [Eff.ok, streamOf_updStream, hstream] at ht
      refine ⟨t, hex, by rw [if_pos ha]; exact hadm, ?_⟩
      dsimp only
      rw [ht, if_pos ha]
      exact ⟨hst, rfl, rfl, rfl⟩
    · rw [if_neg ha] at he
      subst he
      obtain ⟨t, hex, hadm, ht⟩ := hrun rfl (by rw [List.any_append, hplain]; rfl)
      simp only [Eff.ok, streamOf_updStream, hstream] at ht
      refine ⟨t, hex, by rw [if_neg ha]; exact hadm, ?_⟩
      dsimp only
      rw [ht, if_neg ha]
      exact ⟨hst, rfl, rfl, rfl⟩
  · rw [show y.remain - g.len = 0 by omega, segmentOutcome_ends _ _ _ _ _ _ _ hnone] at he
    subst he
    obtain ⟨t, hex, hadm, ht⟩ := hrun rfl (by rw [List.any_append, hplain]; rfl)
    simp only [Eff.ok, streamOf_updStream, streamOf_endedStream, hstream] at ht
    exact ⟨t, hex, hadm, by rw [ht], by rw [ht], by rw [ht]; rfl⟩
  · rw [show y.remain - g.len = 0 by omega, segmentOutcome_matches _ _ _ _ _ _ _ hdec (by rw [haead]; rfl) ht, if_pos haead] at he
    subst he
    obtain ⟨t, hex, hadm, ht⟩ := hrun rfl rfl
    simp only [Eff.ok, streamOf_updStream] at ht
    exact ⟨t, hex, hadm, by rw [ht], by rw [ht]⟩
  · have hno : Str.isAead c.mode = false := by
      simp only [Str.isAead, Str.isMac, Str.isSha, Str.isHmac, Bool.or_eq_true, decide_eq_true_eq, decide_eq_false_iff_not] at hmac ⊢
      omega
    rw [show y.remain - g.len = 0 by omega, segmentOutcome_matches _ _ _ _ _ _ _ hdec (by rw [hno]; exact hmac) ht, hno, if_neg (by decide)] at he
    subst he
    obtain ⟨t, hex, hadm, ht⟩ := hrun rfl rfl
    simp only [Eff.ok, streamOf_updStream] at ht
    exact ⟨t, hex, hadm, by rw [ht], by rw [ht]⟩

end Sys2Proof.Machine
end

section
/-! SUPPORT. A write whose code shows the fault of a unit (R255, R256, R298): it completes as others do, and besides it raises the unit's sensor and its counters. -/

namespace Sys2Proof.Machine

/-- State t is s but for the monitors, the Sinter domain, the start-up data, the internal queue, the counts, the checks that units are due and the reserve of masks. -/
def FaultsOnly (s t : State) : Prop :=
  t = { s with tem := t.tem, sinter := t.sinter, boot := t.boot, internal := t.internal, perf := t.perf, hw := t.hw, unitFaults := t.unitFaults, forced := t.forced,
               rng := { s.rng with masks := t.rng.masks } }

theorem FaultsOnly.refl (s : State) : FaultsOnly s s := rfl

theorem FaultsOnly.trans {a b c : State} (h : FaultsOnly a b) (g : FaultsOnly b c) : FaultsOnly a c := by
  unfold FaultsOnly at *
  rw [g, h]

theorem SensesOnly.faults {a b : State} (h : SensesOnly a b) : FaultsOnly a b := by
  unfold SensesOnly FaultsOnly at *
  rw [h]

theorem faultsOnly_withdraw (s : State) (u : Nat) : FaultsOnly s (withdraw s u) := by
  unfold withdraw
  dsimp only
  split
  · exact .refl s
  · rfl

theorem faultsOnly_unitFault (s : State) (u : Nat) : FaultsOnly s (unitFault s u) := by
  have hchecked : FaultsOnly s { s with unitFaults := SMap.put s.unitFaults u [s.seq.time], forced := s.forced.filter (· ≠ u) ++ [u] } := rfl
  unfold unitFault
  dsimp only
  split
  · split
    · exact hchecked.trans (faultsOnly_withdraw _ u)
    · exact hchecked
  · exact hchecked

theorem faultsOnly_raiseFault (s : State) (code : Nat) (n : Needs) : FaultsOnly s (raiseFault s code .ok n) := by
  have hcount : ∀ i k, FaultsOnly s (incHw s i k 1) := fun _ _ => rfl
  unfold raiseFault
  rw [if_neg (by simp)]
  split
  · exact (hcount _ _).trans (sensesOnly_sensorEvent _ _ _ _ _).faults
  · split
    · exact (((hcount _ _).trans (sensesOnly_sensorEvent _ _ _ _ _).faults).trans (sensesOnly_count _ _ _ _).faults).trans (faultsOnly_unitFault _ _)
    · exact .refl s

theorem faultsOnly_claimTags (s : State) (r : Rq) (x : SessRes) (e : Eff) : FaultsOnly s (claimTags s r x e) := by
  unfold claimTags
  split
  · rfl
  · exact .refl s

theorem FaultsOnly.push {a b : State} (h : FaultsOnly a b) (y : Slot) : FaultsOnly (pushSlot a y) (pushSlot b y) := by
  unfold FaultsOnly at *
  unfold pushSlot
  rw [h]

theorem FaultsOnly.getObj {a b : State} (h : FaultsOnly a b) (i k : Nat) : getObj b i k = getObj a i k := by
  rw [h]
  rfl

theorem FaultsOnly.stands {a b : State} (h : FaultsOnly a b) : b.ples = a.ples ∧ b.rng.tillers = a.rng.tillers ∧ b.cores = a.cores := by
  rw [h]
  exact ⟨rfl, rfl, rfl⟩

section
variable {s : State} {h : Hdr} {tr : Trailer} {z : Session} {i k : Nat} {v : Bytes} {d : Desc} {q : Rq} {c : Instr} {e : Eff}

/-- A write whose effect is e, whatever its code: D is what it leaves before the end of its admission. -/
theorem client_faults (hq : q = rqWrite h i k v) (hexec : exec c s = coreCmd (fun s => request s q) s) (hcl : Client s q tr z d.role)
    (hf : Dict.find i k = (true, some d)) (hl : d.ty ≠ .domain ∧ d.ty ≠ .label ∧ v.length = d.size ∧ d.size ≤ 24)
    (hchk : objectChecks (admittedIn s q tr) (callerOf q tr z) true i k d (some (some v)) = 0)
    (hw : performWrite (admittedIn s q tr) (callerOf q tr z) i k d v .ok = e) (hst : Steady s e.s) :
    ∃ t D y, exec c s = .next t ∧ Admitted s t q (some z) e.lat e.code e.body e.acts ∧ FaultsOnly (pushSlot e.s y) D ∧ Settled D t := by
  have hphys : q.phys = .ok := hcl.authentic.sound
  subst hq
  let q := rqWrite h i k v
  let y := slotFor e.s q ⟨0, callerOf q tr z, some tr.slot, false⟩ (sealKey s q) true e
  let D := raiseFault (pushSlot (claimTags e.s q ⟨0, callerOf q tr z, some tr.slot, false⟩ e) y) e.code q.phys (objectNeeds (numberedIn s q) q.idx q.sub (parseSeg q.body).data.length)
  have hsvc : q.svc = 2 := rfl
  have hserv := (service_rqWrite hcl.authentic.sound hf hl hchk).trans (congrArg ReadOut.out hw)
  have hread : recordedRead (numberedIn s q) q = false := recordedRead_write (by simp [hsvc])
  have hperf := authentic_performs hcl.ready hcl.authentic hread hcl.unrecorded hserv (by simp [keptOut, show (rqWrite h i k v).svc = 2 from rfl])
  have hD : FaultsOnly (pushSlot e.s y) D := by
    unfold D
    rw [hphys]
    exact ((faultsOnly_claimTags _ _ _ _).push y).trans (faultsOnly_raiseFault _ _ _)
  obtain ⟨hh, b, htake⟩ := takeInput_cases s q
  have hid : initDiscard (takeInput s q) q = takeInput s q := initDiscard_same (.inr (by simp [hsvc]))
  have hseq : D.seq.adm = e.s.seq.adm ∧ D.seq.admTime = e.s.seq.admTime ∧ D.sheaf = e.s.sheaf ∧ D.pending = e.s.pending ∧ D.otp = e.s.otp ∧ D.slots = (pushSlot e.s y).slots := by
    rw [hD]
    exact ⟨rfl, rfl, rfl, rfl, rfl, rfl⟩
  obtain ⟨hadm, htime, hsheaf, hpend, hotp, hslots⟩ := hseq
  obtain ⟨w, -, -, hrun, hset⟩ := request_runs (D := D) hcl.ready hcl.authentic.toSound rfl hid (by rw [htake]) (by rw [htake]; exact hcl.authentic.here) (by rw [htake]; exact hcl.authentic.log)
    hperf rfl (by rw [hadm, hst.adm]) (by rw [hsheaf, hst.first])
  have hnext : exec c s = .next w.s := hexec.trans (coreCmd_next hrun ((congrArg (fun x => x.pending) hset.rest).trans (hpend.trans hst.queue))
    ((congrArg (fun x => x.otp) hset.rest).trans (hotp.trans hst.fuses)))
  refine ⟨w.s, D, y, hnext, ⟨?_, ?_, ?_⟩, hD, hset⟩
  · exact (congrArg (fun x => x.seq.adm) hset.rest).trans (hadm.trans hst.adm)
  · exact (congrArg (fun x => x.seq.admTime) hset.rest).trans (htime.trans hst.time)
  · have hmem : { y with id := e.s.seq.nextId } ∈ w.s.slots := by
      rw [show w.s.slots = D.slots from congrArg (fun x => x.slots) hset.rest, hslots]
      exact slot_pushed _ _
    have hresp : y.resp = some (answer s q (some z) e.code e.body) := by
      show some (if (some tr.slot).isSome then q.sealed (sealKey s q) e.code e.body else q.response e.code e.body) = _
      rw [sealKey_of hcl.authentic.trailer hcl.authentic.slot]
      unfold answer
      rw [hcl.authentic.trailer]
      rfl
    refine ⟨_, hmem, hst.adm, rfl, rfl, ?_, rfl, rfl, hresp⟩
    show e.s.seq.admTime + e.lat = _
    rw [hst.time]

/-- What such a write leaves where its effect stands with its admission: what the end of it may not change is that of the effect, but for a fault's. -/
structure FaultWritten (a : State) (i k : Nat) (t : State) : Prop where
  objects : ∀ i' k', k' < 256 → bookkeeping i' k' = false → (i', k') ≠ (i, k) → getObj t i' k' = getObj a i' k'
  ples : t.ples = a.ples
  tillers : t.rng.tillers = a.rng.tillers
  cores : t.cores = a.cores

/-- An accepted write whose effect is e, whatever its code (R125, R308). -/
theorem client_accepts (ho : Open s) (hq : q = rqWrite h i k v) (hexec : exec c s = coreCmd (fun s => request s q) s) (hcl : Client s q tr z d.role)
    (hf : Dict.find i k = (true, some d)) (hl : d.ty ≠ .domain ∧ d.ty ≠ .label ∧ v.length = d.size ∧ d.size ≤ 24) (hlong : d.longOp = true → longRuns s = false)
    (hchk : objectChecks (admittedIn s q tr) (callerOf q tr z) true i k d (some (some v)) = 0) (hk : k < 256)
    (hm : ¬(i = 0x2000 ∧ k = 7)) (hca : isCarried i k = false) (hse : isSensorSetting i k = false)
    (hw : writeValue (admittedIn s q tr) (callerOf q tr z) i k d v .ok = e) (hacc : accepted e = true) (hg : e.acts.any stagesEffect = false) (hst : Steady s e.s) :
    ∃ t, exec c s = .next t ∧ Admitted s t q (some z) e.lat e.code e.body e.acts ∧ FaultWritten e.s i k t := by
  have hs : sheafOn (admittedIn s q tr) = false := sheafOn_admittedIn ho.single q
  have hcommit := commitWrite_stored (c := callerOf q tr z) (v := v) hg (.inl (not_pairRole hs ⟨_, hcl.role⟩)) (fun h => hm ⟨h.1, h.2.1⟩) hca hse
  have hperf := (performWrite_commits hw hacc (capacity_ok (room_admitted ho.toRoom q tr) (by rw [longRuns_admittedIn]; exact hlong))).trans hcommit
  have hrec := settled_recorded (admittedIn s q tr) (callerOf q tr z) i k d v e
  obtain ⟨t, D, y, hrun, hadm, hD, hset⟩ := client_faults hq hexec hcl hf hl hchk hperf ((hst.settled hrec).setObj _ _ _)
  have hbase := (hrec.setObj i k (storedValue i k d v)).push y
  have hset0 : Settled (pushSlot (setObj e.s i k (storedValue i k d v)) y) (pushSlot (setObj (recorded (admittedIn s q tr) (callerOf q tr z) i k d v e) i k (storedValue i k d v)) y) := hbase
  have hrest := written_rest hset0
  obtain ⟨hples, htillers, hcores⟩ := hD.stands
  refine ⟨t, hrun, hadm, fun i' k' hk' hb hne => ?_, ?_, ?_, ?_⟩
  · rw [hset.objects i' k' hk' hb, hD.getObj, settled_getObj hset0 hk hk' hb, if_neg]
    rintro ⟨rfl, rfl, -⟩
    exact hne rfl
  · exact (congrArg (fun x => x.ples) hset.rest).trans (hples.trans (congrArg (fun x => x.ples) hrest))
  · exact (congrArg (fun x => x.rng.tillers) hset.rest).trans (htillers.trans (congrArg (fun x => x.rng.tillers) hrest))
  · exact (congrArg (fun x => x.cores) hset.rest).trans (hcores.trans (congrArg (fun x => x.cores) hrest))

end

end Sys2Proof.Machine
end

section
/-! SUPPORT. PLE slots (R304 to R311). -/

namespace Sys2Proof.Machine

/-- State a is u but for what engine work takes: the cores, the tillers with the reserve of masks, the cache of keys, the counts, and the free values. -/
def WorksOnly (u a : State) : Prop :=
  a = { u with cores := a.cores, rng := a.rng, cache := a.cache, hw := a.hw, perf := a.perf, seq := { u.seq with draws := a.seq.draws } }

theorem WorksOnly.refl (u : State) : WorksOnly u u := rfl

theorem WorksOnly.trans {a b c : State} (h : WorksOnly a b) (g : WorksOnly b c) : WorksOnly a c := by
  unfold WorksOnly at *
  rw [g, h]

theorem worksOnly_count (u : State) (b i n : Nat) : WorksOnly u (count u b i n) := by
  obtain ⟨p, hp⟩ := count_perf u b i n
  rw [hp]
  rfl

theorem worksOnly_warm (u : State) (n : Nat) : WorksOnly u (warm u n) := by
  obtain ⟨h, p, x, e⟩ := warm_cases u n
  rw [e]
  rfl

theorem worksOnly_claimMasks (u : State) (n : Nat) : WorksOnly u (claimMasks u n) := rfl
theorem worksOnly_draw (u : State) (n : Nat) : WorksOnly u (draw u n).2 := rfl
theorem worksOnly_setTiller (u : State) (t : Nat) (x : Tiller) : WorksOnly u (setTiller u t x) := rfl

theorem worksOnly_takeCore (u : State) (n : Nat) : WorksOnly u (takeCore u n) := by
  unfold takeCore
  dsimp only
  split <;> rfl

theorem worksOnly_takePool {u v : State} {k : Nat} {b : Bytes} (h : takePool u k = some (b, v)) : WorksOnly u v := by
  unfold takePool at h
  split at h
  · cases h
  · cases h
    rfl

theorem worksOnly_reseedTiller {u v : State} {t : Nat} (h : reseedTiller u t = some v) : WorksOnly u v := by
  unfold reseedTiller at h
  split at h
  · cases h
    have hpool := worksOnly_takePool ‹_›
    exact hpool.trans rfl
  · cases h

theorem worksOnly_readyTiller {u v : State} {t : Nat} (h : readyTiller u t = some v) : WorksOnly u v := by
  unfold readyTiller at h
  split at h
  · obtain ⟨w, hw, rfl⟩ := Option.map_eq_some_iff.mp h
    exact (worksOnly_reseedTiller hw).trans (worksOnly_count _ _ _ _)
  · cases h
    exact .refl u

theorem worksOnly_genOnce {u : State} {t n : Nat} {r : Bytes × State} (h : genOnce u t n = some r) : WorksOnly u r.2 := by
  unfold genOnce at h
  split at h
  · cases h
  · obtain ⟨v, hv, h⟩ := Option.bind_eq_some_iff.mp h
    obtain ⟨d, -, rfl⟩ := Option.map_eq_some_iff.mp h
    exact (worksOnly_readyTiller hv).trans (worksOnly_setTiller _ _ _)

theorem worksOnly_genTiller {u : State} {t n : Nat} {r : Bytes × State} (h : genTiller u t n = some r) : WorksOnly u r.2 := by
  have hgo : ∀ (ks : List Nat) (o : Option (Bytes × State)) r, (∀ q, o = some q → WorksOnly u q.2) →
      ks.foldl (fun r _ => r.bind fun p => (genOnce p.2 t 4096).map fun q => (p.1 ++ q.1, q.2)) o = some r → WorksOnly u r.2 := by
    intro ks
    induction ks with
    | nil => exact fun o r ho h => ho r h
    | cons k ks ih =>
      intro o r ho h
      refine ih _ r (fun q hq => ?_) h
      obtain ⟨p, hp, hq⟩ := Option.bind_eq_some_iff.mp hq
      obtain ⟨w, hw, rfl⟩ := Option.map_eq_some_iff.mp hq
      have hstep : WorksOnly p.2 w.2 := worksOnly_genOnce hw
      exact (ho p hp).trans hstep
  exact hgo _ _ r (fun q hq => worksOnly_genOnce hq) h

theorem worksOnly_drawTiller (u : State) (t n : Nat) : WorksOnly u (drawTiller t u n).2 := by
  unfold drawTiller
  split
  · exact worksOnly_genTiller (n := n) ‹_›
  · exact worksOnly_draw u (8 * n)

theorem worksOnly_blind (u : State) (t n : Nat) : WorksOnly u (blind u t n) := by
  unfold blind
  cases h : genTiller u t n with
  | none => exact .refl u
  | some r =>
    have hgen : WorksOnly u r.2 := worksOnly_genTiller h
    exact hgen

theorem worksOnly_pleStart (u : State) (h : PleHdr) : WorksOnly u (pleStart u h) := by
  have hcore : WorksOnly u (if coreOf (PleReq.algOf h) = 1 then takeCore u (coreCost h) else u) := by
    split
    · exact worksOnly_takeCore _ _
    · exact .refl u
  have hblind : ∀ v, WorksOnly v (pleBlind v h) := fun v => by
    unfold pleBlind
    dsimp only
    split
    · exact .refl v
    · exact worksOnly_blind _ _ _
  unfold pleStart
  dsimp only
  split
  · exact hcore.trans (hblind _)
  · exact ((hcore.trans (worksOnly_warm _ _)).trans (worksOnly_claimMasks _ _)).trans (hblind _)

/-- A Run that ran takes no more than engine work takes. -/
theorem worksOnly_pleRunOp {u a : State} {b : Bytes} {c : Caller} {o : PleOut} (h : pleRunOp u b c .ok = .ran a o) : WorksOnly u a := by
  have hdrawn : ∀ v n, WorksOnly v (if n = 0 then (([] : Bytes), v) else drawTiller (pleTiller (PleReq.parse b)) v n).2 := fun v n => by
    split
    · exact .refl v
    · exact worksOnly_drawTiller _ _ _
  unfold pleRunOp at h
  dsimp only at h
  split at h
  · cases h
  · split at h
    · cases h
      exact .refl u
    · split at h
      · cases h
      · rename_i hedged hseed
        have hall := (worksOnly_pleStart u (PleReq.parse b)).trans (hdrawn _ (pleDraws (PleReq.parse b) hedged))
        split at h
        · cases h
          exact hall
        · cases h
          exact hall.trans (worksOnly_count _ _ _ _)

/-- The compare flags of a Run touch the free values alone. -/
theorem pleFlags_draws (u : State) (op code : Nat) : ∃ n, (pleFlags u op code).2 = { u with seq := { u.seq with draws := n } } := by
  unfold pleFlags alarmPair
  split_ifs
  · exact ⟨_, rfl⟩
  · exact ⟨_, rfl⟩
  · exact ⟨_, rfl⟩
  · exact ⟨_, rfl⟩
  · exact ⟨_, rfl⟩

theorem WorksOnly.steady {s u a : State} (h : WorksOnly u a) (hu : Steady s u) : Steady s a := by
  rw [h]
  exact ⟨hu.adm, hu.time, hu.first, hu.queue, hu.fuses⟩

theorem pleOf_setPle (u : State) (f : Nat) (x : Ple) : pleOf (setPle u f x) f = x := by
  unfold pleOf setPle
  exact (SMap.at_store _ _ _ _ _).trans (if_pos rfl)

theorem pleOf_congr {a b : State} (h : a.ples = b.ples) (f : Nat) : pleOf a f = pleOf b f := by
  unfold pleOf
  rw [h]

theorem pleOf_admittedIn (s : State) (q : Rq) (tr : Trailer) (f : Nat) : pleOf (admittedIn s q tr) f = pleOf s f := by
  obtain ⟨hh, b, n, f, e⟩ := admittedIn_cases s q tr
  rw [e]
  rfl

theorem OthersStand.withTransfers {s u : State} {xs : List (Nat × Nat)} (h : OthersStand s u xs) (x : List Transfer) : OthersStand s { u with transfers := x } xs := h
theorem OthersStand.withPles {s u : State} {xs : List (Nat × Nat)} (h : OthersStand s u xs) (x : SMap Ple) : OthersStand s { u with ples := x } xs := h

section
variable {s : State} {h : Hdr} {tr : Trailer} {z : Session} {f k : Nat} {i : Instr} {q : Rq}

def pleInputDesc : Desc := ⟨.domain, 8192, .wo, .operator, false, false, .oct []⟩

/-- The END of a PLE slot's Input makes it ready (R305). -/
theorem pleInput_replies {g : Seg} {x : Transfer} (ho : Open s) (hf : f < 8) (hq : q = rqSeg h (0xCF30 + f) 2 g) (hexec : exec i s = coreCmd (fun s => request s q) s)
    (hcl : Client s q tr z .operator) (hn : NextSegment s q (some tr.slot) (0xCF30 + f) 2 g x) (hlast : x.got + g.len = x.total) :
    Replies i s q z 16 (segReply g) [] fun t => (pleOf t f).state = 2 ∧ (pleOf t f).input = x.buf ++ g.data ∧ transferOf t h.origin = none ∧
      OthersStand s t [(0xCF30 + f, 2)] := by
  have hend : domainEnd (endedIn s q tr) (callerOf q tr z) (0xCF30 + f) 2 (x.buf ++ g.data) g.data .ok =
      Eff.ok (updPle (endedIn s q tr) f fun y => { y with state := 2, input := x.buf ++ g.data }) 16 := by
    unfold domainEnd
    rw [if_neg (by omega), if_neg (by omega), if_pos (by omega), show 0xCF30 + f - 0xCF30 = f by omega]
    rfl
  obtain ⟨t, y, hrun, hadm, hset⟩ := domainEnd_stores (d := pleInputDesc) ho.toRoom hq hexec hcl ((find_ple hf 2).trans rfl) rfl hn hlast rfl (by intro h; cases h) (by omega)
    (by unfold isCarried; simp; omega) (by unfold isSensorSetting; simp; omega) hend rfl rfl ((steady_endedIn s q tr).withPles _)
  have hple : pleOf t f = { pleOf (endedIn s q tr) f with state := 2, input := x.buf ++ g.data } :=
    (pleOf_congr (congrArg (fun a => a.ples) (written_rest hset)) f).trans (pleOf_setPle _ f _)
  have hkept : (updPle (endedIn s q tr) f fun y => { y with state := 2, input := x.buf ++ g.data }).transfers = (dropTransfer (admittedIn s q tr) q.origin).transfers := rfl
  have htr := (written_transfers hset).trans hkept
  refine ⟨t, hrun, hadm, by rw [hple], by rw [hple], ?_, ?_⟩
  · have hnone := transferOf_dropTransfer (admittedIn s q tr) q.origin
    have horigin : q.origin = h.origin := by rw [hq]; rfl
    rw [← horigin]
    unfold transferOf at hnone ⊢
    rw [htr]
    exact hnone
  · exact written_others hset (by decide) (othersStand_admittedIn s q tr _) (List.mem_singleton_self _)

/-- The owner of a PLE slot passes the owner check (R304). -/
theorem ownerCheck_ple {u : State} {c : Ctx} (hf : f < 8) (ho : (pleOf u f).ownOrigin = c.origin) (hs : some (pleOf u f).ownSess = c.slot) (hst : (pleOf u f).state ≠ 0) :
    ownerCheck u c true (0xCF30 + f) k = 0 := by
  unfold ownerCheck
  rw [if_neg (by unfold isSendRecv; simp; omega), if_neg (by omega)]
  split
  · rw [show 0xCF30 + f - 0xCF30 = f by omega]
    dsimp only
    rw [if_pos hst, if_pos ⟨ho, hs⟩]
  · rfl

/-- A write of 1 to an action of PLE slot f comes to pleWrite. -/
theorem writeValue_ple (hf : f < 8) (u : State) (c : Ctx) (k : Nat) : writeValue u c (0xCF30 + f) k streamAction [1] .ok = pleWrite u c f k 1 .ok := by
  unfold writeValue
  dsimp only
  rw [encodingCheck_plain ⟨by decide, by decide, by decide⟩, if_neg (by decide), if_neg (by omega), if_neg (by omega), if_neg (by omega), if_pos (by omega), show 0xCF30 + f - 0xCF30 = f by omega]
  rfl

/-- Release empties the slot and its Input (R304). -/
theorem pleRelease_completes (ho : Open s) (hf : f < 8) (hq : q = rqWrite h (0xCF30 + f) 9 [1]) (hexec : exec i s = coreCmd (fun s => request s q) s)
    (hcl : Client s q tr z .operator) (ho1 : (pleOf s f).ownOrigin = h.origin) (ho2 : (pleOf s f).ownSess = tr.slot) (hst : (pleOf s f).state ≠ 0) :
    Completes i s q z 10 [] fun t => pleOf t f = ple0 ∧ inputOpen t (0xCF30 + f) 2 = false ∧ OthersStand s t [(0xCF30 + f, 9)] := by
  subst hq
  let u := admittedIn s (rqWrite h (0xCF30 + f) 9 [1]) tr
  have hw : writeValue u (callerOf (rqWrite h (0xCF30 + f) 9 [1]) tr z) (0xCF30 + f) 9 streamAction [1] .ok = Eff.ok (setPle (closeInput u (0xCF30 + f) 2) f ple0) 10 :=
    (writeValue_ple hf _ _ 9).trans rfl
  refine open_completes (d := streamAction) ho hcl hexec ((find_ple hf 9).trans rfl) ⟨by decide, by decide, rfl, by decide⟩ (by decide) (by intro h; cases h)
    (fun _ _ => lifecycleCheck_elsewhere (by omega))
    (fun c hc hs => ownerCheck_ple hf (by rw [pleOf_admittedIn, hc]; exact ho1) (by rw [pleOf_admittedIn, hs, ho2]) (by rw [pleOf_admittedIn]; exact hst))
    (fun _ hs _ => modeCheck_elsewhere hs (by omega) (by omega) (by simp only [List.mem_cons, List.not_mem_nil, or_false]; omega)) (by omega)
    (by unfold isCarried; simp; omega) (by unfold isSensorSetting; simp) hw rfl rfl rfl
    (((steady_admitted _ _ _).withTransfers _).withPles _) fun y t hset => ⟨?_, ?_, ?_⟩
  · exact (pleOf_congr (congrArg (fun a => a.ples) (written_rest hset)) f).trans (pleOf_setPle _ f _)
  · have htr := written_transfers hset
    exact inputOpen_closed (u := u) htr
  · have hothers : OthersStand s (setPle (closeInput u (0xCF30 + f) 2) f ple0) [(0xCF30 + f, 9)] :=
      ((othersStand_admittedIn s (rqWrite h (0xCF30 + f) 9 [1]) tr _).withTransfers _).withPles _
    exact written_others hset (by decide) hothers (List.mem_singleton_self _)

/-- What a Run that ran makes of slot f (R308). -/
def ranSlot (u a : State) (f : Nat) (o : PleOut) : State :=
  updPle (pleFlags a (PleReq.parse (pleOf u f).input).op o.code).2 f fun z =>
    { z with state := if o.code = 0 then 3 else 4, input := [], result := o.code, flags := (pleFlags a (PleReq.parse (pleOf u f).input).op o.code).1 }

/-- The effect of a Run that ran (R308, R310). -/
def ranEffect (u a : State) (f : Nat) (c : Caller) (o : PleOut) : Eff :=
  { Eff.fail (ranSlot u a f o) (pleLat (pleOf u f)) o.code with
    acts := [.pleOut f o.out (o.secret.map fun k => (k, c.holder, if (PleReq.parse (pleOf u f).input).op = 10 then (PleReq.parse (pleOf u f).input).handle % 0x10000 else 0))]
    work := .pleRun f, random := o.random, nodes := pleNodes u (PleReq.parse (pleOf u f).input) }

/-- What a Run leaves of its slot, and of the state past its work. -/
theorem ranSlot_leaves (u a : State) (f : Nat) (o : PleOut) :
    pleOf (ranSlot u a f o) f = { pleOf a f with state := if o.code = 0 then 3 else 4, input := [], result := o.code, flags := (pleFlags a (PleReq.parse (pleOf u f).input).op o.code).1 } ∧
    (∀ i k, getObj (ranSlot u a f o) i k = getObj a i k) ∧ (ranSlot u a f o).rng = a.rng ∧ (ranSlot u a f o).cores = a.cores ∧ ∀ s, Steady s a → Steady s (ranSlot u a f o) := by
  obtain ⟨n, hn⟩ := pleFlags_draws a (PleReq.parse (pleOf u f).input).op o.code
  unfold ranSlot
  rw [hn]
  exact ⟨pleOf_setPle _ f _, fun _ _ => rfl, rfl, rfl, fun s h => ⟨h.adm, h.time, h.first, h.queue, h.fuses⟩⟩

theorem pleSlotRunOp_runs {u a : State} {c : Caller} {o : PleOut} (hst : (pleOf u f).state = 2) (hr : pleRunOp u (pleOf u f).input c .ok = .ran a o) :
    pleSlotRunOp u f c .ok = ranEffect u a f c o := by
  unfold pleSlotRunOp
  dsimp only
  rw [hr, if_neg (by simp [hst])]
  rfl

/-- Run ends with the operation's own code and latency (R307, R308). -/
theorem pleRun_admits {a : State} {o : PleOut} (ho : Open s) (hf : f < 8) (hq : q = rqWrite h (0xCF30 + f) 3 [1]) (hexec : exec i s = coreCmd (fun s => request s q) s)
    (hcl : Client s q tr z .operator) (ho1 : (pleOf s f).ownOrigin = h.origin) (ho2 : (pleOf s f).ownSess = tr.slot) (hst : (pleOf s f).state = 2)
    (hr : pleRunOp (admittedIn s q tr) (pleOf s f).input (callerOf q tr z).caller .ok = .ran a o) :
    ∃ t, exec i s = .next t ∧
      Admitted s t q (some z) (PleReq.latency (PleReq.parse (pleOf s f).input).op) o.code [] (ranEffect s a f (callerOf q tr z).caller o).acts ∧
      (pleOf t f).state = (if o.code = 0 then 3 else 4) ∧ (pleOf t f).result = o.code ∧ (pleOf t f).input = [] ∧ t.rng.tillers = a.rng.tillers ∧ t.cores = a.cores ∧
      OthersStand s t [(0xCF30 + f, 3)] := by
  have hple := pleOf_admittedIn s q tr f
  have hwork := worksOnly_pleRunOp hr
  have hne : (pleOf s f).input ≠ [] := by
    intro hnil
    rw [hnil] at hr
    cases hr
  have hlat : pleLat (pleOf s f) = PleReq.latency (PleReq.parse (pleOf s f).input).op := by
    unfold pleLat
    rw [if_neg (by simp [hst, hne])]
  have hw : writeValue (admittedIn s q tr) (callerOf q tr z) (0xCF30 + f) 3 streamAction [1] .ok = ranEffect (admittedIn s q tr) a f (callerOf q tr z).caller o := by
    rw [writeValue_ple hf]
    exact pleSlotRunOp_runs (by rw [hple, hst]) (by rw [hple]; exact hr)
  obtain ⟨hslot, hobj, hrng, hcores, hsteady⟩ := ranSlot_leaves (admittedIn s q tr) a f o
  obtain ⟨t, hrun, hadm, hwr⟩ := client_accepts (d := streamAction) ho hq hexec hcl ((find_ple hf 3).trans rfl) ⟨by decide, by decide, rfl, by decide⟩ (by intro h; cases h)
    (open_checks ho hcl (by decide) (fun _ _ => lifecycleCheck_elsewhere (by omega))
      (ownerCheck_ple hf (by rw [hple, ho1, hq]; rfl) (by rw [hple, ho2]; rfl) (by rw [hple, hst]; decide))
      (modeCheck_elsewhere (sheafOn_admittedIn ho.single q) (by omega) (by omega) (by simp only [List.mem_cons, List.not_mem_nil, or_false]; omega)) (by omega))
    (by decide) (by omega) (by unfold isCarried; simp; omega) (by unfold isSensorSetting; simp; omega) hw (by simp [accepted, ranEffect]) rfl
    (hsteady s (hwork.steady (steady_admitted s q tr)))
  have hfinal := (pleOf_congr hwr.ples f).trans hslot
  have hacts : (ranEffect (admittedIn s q tr) a f (callerOf q tr z).caller o).acts = (ranEffect s a f (callerOf q tr z).caller o).acts := by
    unfold ranEffect
    rw [hple]
  refine ⟨t, hrun, ?_, by rw [hfinal], by rw [hfinal], by rw [hfinal], hwr.tillers.trans (congrArg Rng.tillers hrng), hwr.cores.trans hcores, fun i' k hk hb hx => ?_⟩
  · rw [← hacts, ← hlat, ← hple]
    exact hadm
  · rw [hwr.objects i' k hk hb (fun he => hx (by rw [he]; exact List.mem_singleton_self _))]
    refine (hobj i' k).trans ?_
    rw [hwork]
    exact getObj_admittedIn s q tr i' k

end

/-- Settles O20: Input makes a slot ready, Run ends with its operation's outcome, Release empties it. -/
theorem pleSlotsLoadAndRun : Obligations.ple_slots_load_and_run := by
  unfold Obligations.ple_slots_load_and_run
  intro s h f tr z ho
  refine ⟨fun g x hcl hn hlast => pleInput_replies ho f.isLt rfl rfl hcl hn hlast, fun ho1 ho2 => ⟨fun a o hcl hst hr => ?_, fun hcl hne => ?_⟩⟩
  · exact pleRun_admits ho f.isLt rfl rfl hcl ho1 ho2 hst hr
  · exact pleRelease_completes ho f.isLt rfl rfl hcl ho1 ho2 hne

end Sys2Proof.Machine
end

section
/-! SUPPORT. What a record leaves of the journal, and the journal's objects (R205, R410 to R418). -/

namespace Sys2Proof.Machine

/-- Every record of k stood in j, or is of admission n. -/
def OnlyAdds (n : Nat) (j k : Journal) : Prop := ∀ p ∈ k.recs, p ∈ j.recs ∨ Jour.admOf p.2 = n

theorem OnlyAdds.refl (n : Nat) (j : Journal) : OnlyAdds n j j := fun _ h => .inl h

theorem OnlyAdds.trans {n : Nat} {a b c : Journal} (h : OnlyAdds n a b) (g : OnlyAdds n b c) : OnlyAdds n a c :=
  fun p hp => (g p hp).elim (h p) .inr

theorem admOf_head56 (h : RecHead) {adm : Nat} (hadm : adm < 2 ^ 64) (time : Nat) (body c : Bytes) (b1 b2 b3 : Bool) :
    Jour.admOf ⟨(Jour.head56 h adm time body).take 56 ++ c, b1, b2, b3⟩ = adm := by
  have hbytes : (((Jour.head56 h adm time body).take 56 ++ c).drop 8).take 8 = leBytes 8 adm := rfl
  unfold Jour.admOf
  rw [hbytes, leNat_leBytes 8 adm (by omega)]

theorem onlyAdds_place (j : Journal) (h : RecHead) {adm : Nat} (hadm : adm < 2 ^ 64) (time : Nat) (body : Bytes) (pin : Bool) : OnlyAdds adm j (Jour.place j (Jour.head56 h adm time body) pin) := by
  intro p hp
  unfold Jour.place Jour.put at hp
  dsimp only at hp
  rcases SMap.mem_put hp with rfl | hp
  · exact .inr (admOf_head56 _ hadm _ _ _ _ _ _)
  · split at hp
    · exact .inl (List.mem_filter.mp hp).1
    · exact .inl hp

theorem onlyAdds_room {n : Nat} {j k : Journal} {o r l : Bool} {lost : List Nat} (h : Jour.room j o r l = .ok k lost) : OnlyAdds n j k := by
  have hsame : k.recs = j.recs ∨ k.recs = j.recs.filter fun p => p.1 / 64 ≠ Jour.nextBlock j := by
    unfold Jour.room Jour.discard at h
    dsimp only at h
    split at h
    · cases h
      exact .inl rfl
    · split at h
      · cases h
        exact .inl rfl
      · split at h
        · split at h
          · cases h
            exact .inl rfl
          · cases h
            exact .inr rfl
        · split at h
          · cases h
          · split at h
            · split at h
              · cases h
                exact .inl rfl
              · cases h
            · split at h
              · split at h
                · cases h
                  exact .inl rfl
                · cases h
              · split at h
                · cases h
                  exact .inr rfl
                · cases h
  intro p hp
  rcases hsame with he | he
  · exact .inl (he ▸ hp)
  · rw [he] at hp
    exact .inl (List.mem_filter.mp hp).1

/-- A record, with a GAP record before it where records were lost. -/
def placedWith (j : Journal) (lost : List Nat) (g h : RecHead) (adm time : Nat) (gap body : Bytes) (pin : Bool) : Journal :=
  Jour.place (if lost.isEmpty then j else Jour.place j (Jour.head56 g adm time gap) false) (Jour.head56 h adm time body) pin

/-- Records of an admission are all that it adds to the journal (R408). -/
theorem onlyAdds_journalNo (s : State) {adm : Nat} (hadm : adm < 2 ^ 64) (time : Nat) (pl : Place) (pin : Bool) (h : RecHead) (body : Bytes) :
    OnlyAdds adm s.pers.jour (journalNo s adm time pl pin h body).pers.jour := by
  unfold journalNo
  dsimp only
  split
  · exact .refl _ _
  · rename_i j lost hroom
    rw [count_pers]
    have hr : OnlyAdds adm s.pers.jour j := by
      split at hroom
      · cases hroom
      · exact onlyAdds_room hroom
    refine OnlyAdds.trans ?_ (onlyAdds_place _ h hadm time body _)
    split
    · exact hr
    · exact hr.trans (onlyAdds_place _ _ hadm time _ _)

/-- What a record leaves beside the journal: the AUDIT log and the Sheaf link, and, with no export open, every object but those of the journal. -/
structure Records (s t : State) : Prop where
  audit : t.audit = s.audit
  sheaf : t.sheaf = s.sheaf
  perf : PerfKept s t
  run : s.exportRun = none → t.exportRun = none
  objects : s.exportRun = none → ∀ i k, k < 256 → i ≠ 0xDC00 → getObj t i k = getObj s i k

theorem Records.refl (s : State) : Records s s := ⟨rfl, rfl, .of rfl, id, fun _ _ _ _ _ => rfl⟩

theorem Records.trans {a b c : State} (h : Records a b) (g : Records b c) : Records a c :=
  ⟨g.audit.trans h.audit, g.sheaf.trans h.sheaf, h.perf.trans g.perf, fun hn => g.run (h.run hn), fun hn i k hk hi => (g.objects (h.run hn) i k hk hi).trans (h.objects hn i k hk hi)⟩

theorem records_setNum (s : State) (k n : Nat) (hk : k < 256) : Records s (setNum s 0xDC00 k n) := by
  refine ⟨setNum_audit _ _ _ _, setNum_sheaf _ _ _ _, .of (setNum_perf _ _ _ _), fun h => (setNum_exportRun _ _ _ _).trans h, fun _ i' k' hk' hi => ?_⟩
  rw [setNum, getObj_setObj _ _ hk hk', if_neg (fun h => hi h.1)]

theorem records_count (s : State) {i : Nat} (hi : i < 7) (n : Nat) : Records s (count s 8 i n) := by
  refine ⟨count_audit _ _ _ _, count_sheaf _ _ _ _, perfKept_count s hi n, fun h => (count_exportRun _ _ _ _).trans h, fun _ i' k' _ _ => ?_⟩
  obtain ⟨p, e⟩ := count_perf s 8 i n
  rw [e]
  rfl

theorem records_jour (s : State) (j : Journal) : Records s { s with pers := { s.pers with jour := j } } := ⟨rfl, rfl, .of rfl, id, fun _ _ _ _ _ => rfl⟩
theorem records_laps (s : State) (l : Laps) : Records s { s with pers := { s.pers with laps := l } } := ⟨rfl, rfl, .of rfl, id, fun _ _ _ _ _ => rfl⟩

theorem records_cancel (s : State) (j : Journal) : Records s (cancelExport s j) := by
  unfold cancelExport
  cases hr : s.exportRun with
  | none => exact .refl s
  | some e =>
    dsimp only
    split
    · exact ⟨setNum_audit _ _ _ _, setNum_sheaf _ _ _ _, .of (setNum_perf _ _ _ _), fun h => (by rw [hr] at h; cases h), fun h => (by rw [hr] at h; cases h)⟩
    · exact .refl s

theorem records_if {a b : State} (c : Prop) [Decidable c] (h : Records a b) : Records a (if c then b else a) := by
  split
  · exact h
  · exact .refl a

theorem records_unless {a b : State} (c : Prop) [Decidable c] (h : Records a b) : Records a (if c then a else b) := by
  split
  · exact .refl a
  · exact h

theorem records_journalNo (s : State) (adm time : Nat) (pl : Place) (pin : Bool) (h : RecHead) (body : Bytes) : Records s (journalNo s adm time pl pin h body) := by
  unfold journalNo
  dsimp only
  split
  · exact .refl s
  · rename_i j lost _
    have hlap := (records_cancel s j).trans (records_if (Jour.newLap (cancelExport s j).pers.jour j = true) (records_laps _ { (cancelExport s j).pers.laps with jour := (cancelExport s j).pers.laps.jour + 1 }))
    generalize (if Jour.newLap (cancelExport s j).pers.jour j = true then _ else cancelExport s j) = s2 at hlap ⊢
    have hlost := hlap.trans (records_unless (lost.isEmpty = true) (records_setNum s2 5 (num s2 0xDC00 5 + lost.length) (by decide)))
    generalize (if lost.isEmpty = true then s2 else _) = s3 at hlost ⊢
    refine Records.trans (Records.trans (hlost.trans (records_if _ (records_setNum s3 10 _ (by decide)))) (records_jour _ _)) (records_count _ (by decide) _)

end Sys2Proof.Machine
end

section
/-! SUPPORT. The release of a slot: what leaves with its response, and what its acts leave (R186, R393). -/

namespace Sys2Proof.Machine

/-- State u is s but for the slots, the in-flight frames, and what has left on a transport. -/
def DeliversOnly (s u : State) : Prop :=
  u = { s with slots := u.slots, inflight := u.inflight, records := u.records, host := u.host, bar := u.bar, hw := u.hw, sheaf := { s.sheaf with out := u.sheaf.out } }

/-- State t is a but for the entry of a commit, what is owed to the partner, the queue and the fuses. -/
def EntryOnly (a t : State) : Prop :=
  t = { a with pers := { a.pers with cring := t.pers.cring, laps := t.pers.laps }, sheaf := t.sheaf, otp := t.otp, pending := t.pending }

theorem DeliversOnly.trans {a b c : State} (h : DeliversOnly a b) (g : DeliversOnly b c) : DeliversOnly a c := by
  unfold DeliversOnly at *
  rw [g, h]

theorem EntryOnly.trans {a b c : State} (h : EntryOnly a b) (g : EntryOnly b c) : EntryOnly a c := by
  unfold EntryOnly at *
  rw [g, h]

theorem EntryOnly.getObj {a t : State} (h : EntryOnly a t) (i k : Nat) : getObj t i k = getObj a i k := by
  rw [h]
  rfl

theorem DeliversOnly.getObj {a t : State} (h : DeliversOnly a t) (i k : Nat) : getObj t i k = getObj a i k := by
  rw [h]
  rfl

theorem deliversOnly_deliver (s : State) (n : Bool) (o : Nat) (m : Bytes) : DeliversOnly s (deliver s n o m) := by
  unfold deliver
  dsimp only
  split
  · split <;> rfl
  · split
    · split <;> rfl
    · split
      · unfold sendLane1
        split <;> rfl
      · rfl

theorem deliversOnly_endFrame (s : State) (x : Slot) : DeliversOnly s (endFrame s x) := by
  unfold endFrame
  split <;> rfl

theorem entryOnly_ringEntry (a b : State) (n : Nat) : EntryOnly b (ringEntry a b n) := by
  obtain ⟨c, l, h⟩ := ringEntry_pers a b n
  rw [h]
  rfl

theorem entryOnly_markDirty (a b : State) : EntryOnly b (markDirty a b) := by
  unfold markDirty
  split <;> rfl

/-- The release of a slot runs its acts on what has left with its response (R186). -/
theorem releaseSlot_runs {s : State} {x : Slot} (h : asReleased s x = (s, x)) :
    ∃ u, DeliversOnly s u ∧ EntryOnly (x.acts.foldl (runAct x) u) (releaseSlot s x) ∧ (releaseSlot s x).otp = (x.acts.foldl (runAct x) u).otp := by
  have hdrop : DeliversOnly s { s with slots := s.slots.filter fun y => decide (y.id ≠ x.id) } := rfl
  have hframe := hdrop.trans (deliversOnly_endFrame _ x)
  unfold releaseSlot
  rw [h]
  dsimp only
  refine ⟨_, ?_, (entryOnly_ringEntry _ _ _).trans (entryOnly_markDirty _ _), (markDirty_otp _ _).trans (ringEntry_otp _ _ _)⟩
  split
  · exact hframe.trans (deliversOnly_deliver _ _ _ _)
  · exact hframe

/-- The release of a due slot that waits for nothing. -/
theorem responseRelease_runs {s : State} {x : Slot} (hx : s.slots.find? (fun y => decide (y.id = x.id)) = some x) (hdue : x.due ≤ s.seq.time) (hcalm : s.tem.resp = none)
    (hpow : s.seq.failing = false ∨ x.acts.any stagesEffect = false) (hw : ∀ w ∈ s.sheaf.awaits, w.adm ≠ x.adm) (hacts : x.acts ≠ []) (he : exhausts s x = false) :
    ∃ u t, exec (.responseRelease x.id) s = .next t ∧ DeliversOnly s u ∧ EntryOnly (x.acts.foldl (runAct x) u) t ∧
      t.otp = Otp.burn s.otp (x.acts.foldl (runAct x) u).otp := by
  have hawait := awaitsPartner_none hw
  have hmay : mayRelease s x = true := by
    have hrel : relayed x = false := by
      unfold relayed
      cases hl : x.acts with
      | nil => exact absurd hl hacts
      | cons _ _ => simp
    unfold mayRelease
    rw [hcalm, hawait, hrel]
    rcases hpow with h | h <;> rw [h] <;> simp
  have hrun : releaseById s x.id = releaseSlot s x := by
    unfold releaseById
    rw [hx]
    exact if_pos ⟨hdue, hmay⟩
  obtain ⟨u, hu, ht, hotp⟩ := releaseSlot_runs (asReleased_self he hawait)
  refine ⟨u, { releaseById s x.id with pending := s.pending, otp := Otp.burn s.otp (releaseById s x.id).otp }, rfl, hu, ?_, ?_⟩
  · rw [hrun]
    exact ht.trans rfl
  · rw [hrun, hotp]

end Sys2Proof.Machine
end

section
/-! SUPPORT. The journal's export and release, and the release of the AUDIT log (R205, R415, R417). -/

namespace Sys2Proof.Machine

def exportStartDesc : Desc := ⟨.octets, 16, .rwx, .owner, false, true, .oct (zeros 16)⟩
def journalThroughDesc : Desc := ⟨.adm64, 8, .rwx, .owner, false, false, .num 0⟩
def exportCloseDesc : Desc := ⟨.u8, 1, .rwx, .owner, false, false, .num 0⟩
def logThroughDesc : Desc := ⟨.adm64, 8, .rw, .owner, false, false, .num 0⟩

/-- What a Start comes to whose units are in service (R415). -/
def exportEffect (u : State) : Option ExportRun → Eff
  | none => { Eff.fail (claimMasks (blind (warm u 0x14) 12 (blindBytes 7)) 12) 12000 Abt.resultCheck with long := true }
  | some run => { Eff.ok (claimMasks (blind (warm u 0x14) 12 (blindBytes 7)) 12) 12000 with acts := [.openExport run], long := true, nodes := [0x14] }

theorem unitsFault_sign {u : State} {n : Needs} {random : Bool} (hn : n.core = 2) (hdown : u.entropyDown = false) (hent : num u 0x2300 1 ≠ 3) (hlane : num u 0xCF20 1 = 0)
    (hdge : n.dge = true → num u 0xCF20 3 = 0) (hcore : num u 0xCF38 3 = 0) : unitsFault u .ok n random = 0 := by
  have hok : entropyOk u = true := by
    unfold entropyOk
    rw [hdown]
    simp [hent]
  have hup : cipherUp u = true := by
    unfold cipherUp
    rw [hlane]
    rfl
  have hpoly : coreUp u n.core = true := by
    rw [hn]
    unfold coreUp
    simp [hcore]
  unfold unitsFault
  rw [hok, hup, hpoly, if_neg (by simp), if_neg (by simpa using hdge), if_neg (by simp), if_neg (by simp)]

theorem journalWrite_start {u : State} {v : Bytes} {bs : List Nat} (hs : exportStartOp u v = .ok bs) (hf : unitsFault u .ok ⟨true, true, 2⟩ true = 0) :
    journalWrite u 0xDC10 1 v .ok = exportEffect u (exportStream u bs) := by
  unfold journalWrite
  dsimp only
  rw [hs]
  dsimp only
  rw [hf, if_neg (by decide)]
  cases exportStream u bs <;> rfl

theorem worksOnly_export (u : State) (o : Option ExportRun) : WorksOnly u (exportEffect u o).s := by
  have hwork : WorksOnly u (claimMasks (blind (warm u 0x14) 12 (blindBytes 7)) 12) :=
    ((worksOnly_warm u _).trans (worksOnly_blind _ _ _)).trans (worksOnly_claimMasks _ _)
  cases o <;> exact hwork

section
variable {s : State} {h : Hdr} {tr : Trailer} {z : Session} {q : Rq} {i : Instr}

/-- Start opens an export, or ends with ABT_RESULT_CHECK (R297, R415). -/
theorem exportStart_admits {v : Bytes} {bs : List Nat} {run : Option ExportRun} (ho : Open s) (hq : q = rqWrite h 0xDC10 1 v) (hexec : exec i s = coreCmd (fun s => request s q) s)
    (hcl : Client s q tr z .owner) (hv : v.length = 16) (hlong : longRuns s = false) (hcore : num s 0xCF38 3 = 0) (hdge : num s 0xCF20 3 = 0)
    (hstart : exportStartOp (admittedIn s q tr) v = .ok bs) (hrun : run = exportStream (admittedIn s q tr) bs) :
    ∃ t, exec i s = .next t ∧ OthersStand s t [(0xDC10, 1)] ∧
      Admitted s t q (some z) 12000 (if run.isSome then 0 else Abt.resultCheck) [] (run.elim [] fun e => [.openExport e]) := by
  have hfault : unitsFault (admittedIn s q tr) .ok ⟨true, true, 2⟩ true = 0 := unitsFault_sign rfl
    (by obtain ⟨hh, b, n, f, e⟩ := admittedIn_cases s q tr; rw [e]; exact hcl.ready.source) (by rw [num_admittedIn]; exact hcl.ready.entropy)
    (by rw [num_admittedIn]; exact hcl.ready.lane) (fun _ => by rw [num_admittedIn, hdge]) (by rw [num_admittedIn, hcore])
  have hw : writeValue (admittedIn s q tr) (callerOf q tr z) 0xDC10 1 exportStartDesc v .ok = exportEffect (admittedIn s q tr) run := by
    rw [hrun]
    exact journalWrite_start hstart hfault
  have hwork := worksOnly_export (admittedIn s q tr) run
  have hacc : accepted (exportEffect (admittedIn s q tr) run) = true ∧ (exportEffect (admittedIn s q tr) run).acts.any stagesEffect = false := by
    cases run <;> exact ⟨rfl, rfl⟩
  obtain ⟨t, hex, hadm, hwr⟩ := client_accepts (d := exportStartDesc) ho hq hexec hcl rfl ⟨by decide, by decide, hv, by decide⟩ (fun _ => hlong)
    (open_checks ho hcl (by decide) (fun _ _ => lifecycleCheck_elsewhere (by decide)) (ownerCheck_elsewhere (by decide))
      (modeCheck_elsewhere (sheafOn_admittedIn ho.single q) (by decide) (by decide) (by decide)) (by decide))
    (by decide) (by decide) rfl rfl hw hacc.1 hacc.2 (hwork.steady (steady_admitted s q tr))
  refine ⟨t, hex, fun i k hk hb hx => ?_, ?_⟩
  · rw [hwr.objects i k hk hb (fun he => hx (by rw [he]; exact List.mem_singleton_self _)), hwork]
    exact getObj_admittedIn s q tr i k
  · cases run <;> exact hadm

end

/-- The release of a Start opens its export (R415). -/
theorem responseRelease_opensExport {s : State} {x : Slot} {run : ExportRun} (hx : s.slots.find? (fun y => decide (y.id = x.id)) = some x) (hdue : x.due ≤ s.seq.time)
    (hcalm : s.tem.resp = none) (hw : ∀ w ∈ s.sheaf.awaits, w.adm ≠ x.adm) (ha : x.acts = [.openExport run]) :
    ∃ t, exec (.responseRelease x.id) s = .next t ∧ t.exportRun = some run ∧ num t 0xDC10 3 = 1 ∧ oct t 0xDC10 4 = leBytes 8 run.first ++ leBytes 8 run.last := by
  obtain ⟨u, t, hex, hu, ht, -⟩ := responseRelease_runs hx hdue hcalm (.inr (by rw [ha]; rfl)) hw (by rw [ha]; simp) (by unfold exhausts; rw [ha]; rfl)
  have hopen : EntryOnly (openExportNow u run) t := by
    rw [ha] at ht
    exact ht
  have hget := hopen.getObj
  refine ⟨t, hex, ?_, ?_, ?_⟩
  · rw [hopen]
    exact setObj_exportRun _ _ _ _
  · unfold num
    rw [hget]
    unfold openExportNow setOct setNum
    rw [getObj_setObj _ _ (by decide) (by decide), if_neg (by decide), getObj_setObj _ _ (by decide) (by decide), if_pos (by decide)]
    rfl
  · unfold oct
    rw [hget]
    unfold openExportNow setOct
    rw [getObj_setObj _ _ (by decide) (by decide), if_pos (by decide)]
    rfl

section
variable {s : State} {h : Hdr} {tr : Trailer} {z : Session} {q : Rq} {i : Instr} {u : State} {c : Ctx} {j k : Nat} {d : Desc} {v : Bytes} {e : Eff}

theorem num_setNum_self (s : State) {i k : Nat} (n : Nat) (hk : k < 256) (hf : (Dict.find i k).2.isSome = true) : num (setNum s i k n) i k = n :=
  (num_setNum s n hk hk).trans (if_pos ⟨rfl, rfl, hf⟩)

theorem records_recorded (u : State) (c : Ctx) (j k : Nat) (d : Desc) (v : Bytes) (e : Eff) : Records e.s (recorded u c j k d v e) := records_journalNo _ _ _ _ _ _ _

theorem onlyAdds_recorded (hadm : e.s.seq.adm < 2 ^ 64) : OnlyAdds e.s.seq.adm e.s.pers.jour (recorded u c j k d v e).pers.jour := onlyAdds_journalNo _ hadm _ _ _ _ _

theorem setObj_jour (s : State) (i k : Nat) (v : Val) : (setObj s i k v).pers.jour = s.pers.jour := by
  obtain ⟨d, p, l, e⟩ := setObj_dict s i k v
  rw [e]

/-- A write of a client to an object of the journal or of the AUDIT log, whose effect is e. -/
theorem journalWrite_stores (ho : Open s) (hq : q = rqWrite h j k v) (hexec : exec i s = coreCmd (fun s => request s q) s) (hcl : Client s q tr z d.role)
    (hj : j = 0xDC10 ∨ j = 0xDC80 ∧ num s 0x2000 6 ≠ 0) (hf : Dict.find j k = (true, some d)) (hl : d.ty ≠ .domain ∧ d.ty ≠ .label ∧ v.length = d.size ∧ d.size ≤ 24)
    (ha : d.acc ≠ .const ∧ d.acc ≠ .ro) (hlong : d.longOp = false) (hw : writeValue (admittedIn s q tr) (callerOf q tr z) j k d v .ok = e) (h0 : e.code = 0) (hacts : e.acts = [])
    (hst : Steady s e.s) :
    ∃ t y u, exec i s = .next t ∧ Admitted s t q (some z) e.lat 0 e.body [] ∧ u = setObj (recorded (admittedIn s q tr) (callerOf q tr z) j k d v e) j k (d.decode v) ∧
      Settled (pushSlot (setObj e.s j k (d.decode v)) y) t ∧ Ended u t := by
  have hsheaf : sheafOn (admittedIn s q tr) = false := sheafOn_admittedIn ho.single q
  have hmode : modeCheck (admittedIn s q tr) (callerOf q tr z) true j k d = 0 := by
    rcases hj with rfl | ⟨rfl, haudit⟩
    · exact modeCheck_elsewhere hsheaf (by omega) (by omega) (by decide)
    · have hon : auditOn (admittedIn s q tr) = true := by
        unfold auditOn modeFlag
        rw [num_admittedIn]
        simp [haudit]
      unfold modeCheck
      simp [isSendRecv, hon, needsProvision]
  obtain ⟨t, y, w, hrun, hadm, hu, hset, hend⟩ := client_stores (d := d) ho hq hexec hcl hf hl (by simp [hlong])
    (open_checks ho hcl ha (fun _ _ => lifecycleCheck_elsewhere (by omega)) (ownerCheck_elsewhere (by omega)) hmode (by omega)) (by omega)
    (by unfold isCarried; simp; omega) (by unfold isSensorSetting; simp; omega) hw (by simp [accepted, h0]) (by rw [hacts]; rfl) (by rw [h0]; decide) hst
  rw [h0, hacts] at hadm
  exact ⟨t, y, w, hrun, hadm, hu, hset, hend⟩

/-- Release through frees every unpinned record up to its number (R417). -/
theorem journalThrough_completes {x : BitVec 64} (ho : Open s) (hq : q = rqWrite h 0xDC10 5 (leBytes 8 x.toNat)) (hexec : exec i s = coreCmd (fun s => request s q) s)
    (hcl : Client s q tr z .owner) (h1 : num s 0xDC00 7 ≤ x.toNat) (h2 : x.toNat ≤ leNat ((oct s 0xDC10 4).drop 8)) (h3 : x.toNat ≤ s.seq.adm) (h4 : s.seq.adm < 2 ^ 63) :
    Completes i s q z 10 [] fun t => num t 0xDC00 7 = x.toNat ∧ (∀ p ∈ t.pers.jour.recs, Jour.admOf p.2 ≤ x.toNat → p.2.pinned = false → p.2.held = false) ∧
      OthersStand s t [(0xDC10, 5), (0xDC00, 7)] := by
  let u := admittedIn s q tr
  let a := { u with pers := { u.pers with jour := Jour.release u.pers.jour x.toNat } }
  have hx : leNat (leBytes 8 x.toNat) = x.toNat := leNat_leBytes 8 _ x.isLt
  have hsteady : Steady s (setNum a 0xDC00 7 x.toNat) := ((steady_admitted s q tr).withPers _).setNum _ _ _
  have hw : writeValue u (callerOf q tr z) 0xDC10 5 journalThroughDesc (leBytes 8 x.toNat) .ok = Eff.ok (setNum a 0xDC00 7 x.toNat) 10 := by
    have hval : writeValue u (callerOf q tr z) 0xDC10 5 journalThroughDesc (leBytes 8 x.toNat) .ok = Eff.of Lat.write (releaseThrough u (leNat (leBytes 8 x.toNat))) := rfl
    rw [hval, hx]
    unfold releaseThrough
    rw [num_admittedIn, oct_admittedIn, if_neg (by omega)]
    rfl
  obtain ⟨t, y, w, hrun, hadm, hu, hset, hend⟩ := journalWrite_stores (d := journalThroughDesc) ho hq hexec hcl (.inl rfl) rfl
    ⟨by decide, by decide, leBytes_length 8 _, by decide⟩ (by decide) rfl hw rfl rfl hsteady
  refine ⟨t, hrun, hadm, ?_, fun p hp hle hpin => ?_, ?_⟩
  · have hnum := written_otherNum hset (by decide) (i' := 0xDC00) (k' := 7) (by decide) (by decide) (by decide)
    rw [hnum]
    exact num_setNum_self (i := 0xDC00) (k := 7) a x.toNat (by decide) rfl
  · have hjour : t.pers.jour = (recorded u (callerOf q tr z) 0xDC10 5 journalThroughDesc (leBytes 8 x.toNat) (Eff.ok (setNum a 0xDC00 7 x.toNat) 10)).pers.jour := by
      rw [hend.jour, hu, setObj_jour]
    rw [hjour] at hp
    have hadds := onlyAdds_recorded (u := u) (c := callerOf q tr z) (j := 0xDC10) (k := 5) (d := journalThroughDesc) (v := leBytes 8 x.toNat)
      (e := Eff.ok (setNum a 0xDC00 7 x.toNat) 10) (by rw [show (Eff.ok (setNum a 0xDC00 7 x.toNat) 10).s = setNum a 0xDC00 7 x.toNat from rfl, hsteady.adm]; omega)
    rcases hadds p hp with hold | hnew
    · have hold' : p ∈ (Jour.release u.pers.jour x.toNat).recs := by
        rw [show (Eff.ok (setNum a 0xDC00 7 x.toNat) 10).s.pers.jour = Jour.release u.pers.jour x.toNat from setObj_jour a 0xDC00 7 _] at hold
        exact hold
      obtain ⟨r, hr, rfl⟩ := List.mem_map.mp hold'
      split at hle
      · rw [if_pos ‹_›]
      · rename_i hnot
        rw [if_neg hnot] at hpin ⊢
        exact absurd ⟨hle, by rw [hpin]; rfl⟩ hnot
    · rw [hnew] at hle
      have hnext : (setNum a 0xDC00 7 x.toNat).seq.adm = s.seq.adm + 1 := hsteady.adm
      rw [show (Eff.ok (setNum a 0xDC00 7 x.toNat) 10).s = setNum a 0xDC00 7 x.toNat from rfl, hnext] at hle
      omega
  · have hothers : OthersStand s a [(0xDC10, 5), (0xDC00, 7)] := othersStand_admittedIn s q tr _
    exact written_others hset (by decide) (hothers.setNum x.toNat (by decide) (by simp)) (by simp)

/-- Close ends the export (R415). -/
theorem exportClose_completes (ho : Open s) (hq : q = rqWrite h 0xDC10 6 [1]) (hexec : exec i s = coreCmd (fun s => request s q) s) (hcl : Client s q tr z .owner) :
    Completes i s q z 10 [] fun t => t.exportRun = none ∧ num t 0xDC10 3 = 0 := by
  let u := { admittedIn s q tr with exportRun := none }
  have hsteady : Steady s (setNum u 0xDC10 3 0) := by
    have hu := steady_admitted s q tr
    have hclosed : Steady s u := ⟨hu.adm, hu.time, hu.first, hu.queue, hu.fuses⟩
    exact hclosed.setNum _ _ _
  obtain ⟨t, y, w, hrun, hadm, hu, hset, hend⟩ := journalWrite_stores (d := exportCloseDesc) (e := Eff.ok (setNum u 0xDC10 3 0) 10) ho hq hexec hcl (.inl rfl) rfl
    ⟨by decide, by decide, rfl, by decide⟩ (by decide) rfl rfl rfl rfl hsteady
  have hnone : (setNum u 0xDC10 3 0).exportRun = none := setNum_exportRun _ _ _ _
  have hrec := records_recorded (admittedIn s q tr) (callerOf q tr z) 0xDC10 6 exportCloseDesc [1] (Eff.ok (setNum u 0xDC10 3 0) 10)
  refine ⟨t, hrun, hadm, ?_, ?_⟩
  · rw [hend.run, hu, setObj_exportRun]
    exact hrec.run hnone
  · unfold num
    rw [hend.objects _ _ (by decide) (by decide), hu, getObj_setObj _ _ (by decide) (by decide), if_neg (by decide), hrec.objects hnone _ _ (by decide) (by decide)]
    exact num_setNum_self (i := 0xDC10) (k := 3) u 0 (by decide) rfl

/-- A release of the AUDIT log drops the records up to its number (R205). -/
theorem logThrough_completes {x : BitVec 64} (ho : Open s) (hq : q = rqWrite h 0xDC80 2 (leBytes 8 x.toNat)) (hexec : exec i s = coreCmd (fun s => request s q) s)
    (hcl : Client s q tr z .owner) (haudit : num s 0x2000 6 ≠ 0) (h1 : num s 0xDC80 2 ≤ x.toNat) (h2 : x.toNat ≤ (s.audit.recs.getLast?.map fun p => p.adm).getD 0)
    (h3 : x.toNat ≤ s.seq.adm) :
    Completes i s q z 10 [] fun t => num t 0xDC80 2 = x.toNat ∧ ∀ p ∈ t.audit.recs, x.toNat < p.adm := by
  let u := admittedIn s q tr
  let a := { u with audit := { u.audit with recs := u.audit.recs.filter fun p => p.adm > x.toNat } }
  have hx : leNat (leBytes 8 x.toNat) = x.toNat := leNat_leBytes 8 _ x.isLt
  have hsame : u.audit = s.audit := by
    obtain ⟨hh, b, n, f, e⟩ := admittedIn_cases s q tr
    unfold u
    rw [e]
  have hu0 := steady_admitted s q tr
  have hsteady : Steady s a := ⟨hu0.adm, hu0.time, hu0.first, hu0.queue, hu0.fuses⟩
  have hw : writeValue u (callerOf q tr z) 0xDC80 2 logThroughDesc (leBytes 8 x.toNat) .ok = { Eff.ok a 10 with acts := [] } := by
    have hval : writeValue u (callerOf q tr z) 0xDC80 2 logThroughDesc (leBytes 8 x.toNat) .ok =
      Eff.when u (within (decide (num u 0xDC80 2 ≤ leNat (leBytes 8 x.toNat) ∧ leNat (leBytes 8 x.toNat) ≤ (u.audit.recs.getLast?.map fun p => p.adm).getD 0)))
        { u with audit := { u.audit with recs := u.audit.recs.filter fun p => p.adm > leNat (leBytes 8 x.toNat) } } [] := rfl
    have hin : decide (num u 0xDC80 2 ≤ x.toNat ∧ x.toNat ≤ (u.audit.recs.getLast?.map fun p => p.adm).getD 0) = true := by
      rw [num_admittedIn, hsame]
      exact decide_eq_true ⟨h1, h2⟩
    rw [hval, hx, hin]
    rfl
  obtain ⟨t, y, w, hrun, hadm, hu, hset, hend⟩ := journalWrite_stores (d := logThroughDesc) ho hq hexec hcl (.inr ⟨rfl, haudit⟩) rfl
    ⟨by decide, by decide, leBytes_length 8 _, by decide⟩ (by decide) rfl hw rfl rfl hsteady
  refine ⟨t, hrun, hadm, written_num hset (by decide) (by decide) rfl hx, fun p hp => ?_⟩
  have hrec := records_recorded u (callerOf q tr z) 0xDC80 2 logThroughDesc (leBytes 8 x.toNat) { Eff.ok a 10 with acts := [] }
  have hlog : w.audit = a.audit := by
    rw [hu, setObj_audit]
    exact hrec.audit
  have hnum : w.seq.adm = s.seq.adm + 1 := by
    rw [← hend.adm, hadm.number]
  rcases hend.log p hp with hold | hnew
  · rw [hlog] at hold
    exact of_decide_eq_true (List.mem_filter.mp hold).2
  · omega

end

/-- Settles O26: Start and its release, Release through, Close, and the release of the AUDIT log. -/
theorem journalAndLogReleased : Obligations.journal_and_log_released := by
  unfold Obligations.journal_and_log_released
  intro s h tr z ho
  refine ⟨fun v bs run hcl hv hlong hcore hdge hstart hrun => ?_, fun x run hx hdue hcalm hw ha => ?_, fun x hcl h1 h2 h3 h4 => ?_, fun hcl => ?_, fun x hcl haudit h1 h2 h3 => ?_⟩
  · obtain ⟨t, hex, hothers, hadm⟩ := exportStart_admits (i := .exportStart h v) ho rfl rfl hcl hv hlong hcore hdge hstart hrun
    refine ⟨t, hex, hothers, ?_⟩
    clear hrun
    cases run <;> exact hadm
  · exact responseRelease_opensExport hx hdue hcalm hw ha
  · exact journalThrough_completes (i := .journalReleaseThrough h x) ho rfl rfl hcl h1 h2 h3 h4
  · exact exportClose_completes (i := .exportClose h) ho rfl rfl hcl
  · exact logThrough_completes (i := .logReleaseThrough h x) ho rfl rfl hcl haudit h1 h2 h3

end Sys2Proof.Machine
end

section
/-! SUPPORT. Keys and epochs: what a bump of nodes leaves, and what the keys of nodes depend on (R318 to R340). -/

namespace Sys2Proof.Machine

/-- State b derives every key as a does: the nodes, their epochs and numbers, the pair secret, the cache and the cut of the UDS stand. -/
structure SameKeys (a b : State) : Prop where
  nodes : b.pers.nodes = a.pers.nodes
  allocs : b.pers.allocs = a.pers.allocs
  epochs : b.pers.epochs = a.pers.epochs
  pair : b.pers.pair = a.pers.pair
  cache : b.cache = a.cache
  retired : b.otp.retired = a.otp.retired

theorem SameKeys.refl (a : State) : SameKeys a a := ⟨rfl, rfl, rfl, rfl, rfl, rfl⟩

theorem SameKeys.trans {a b c : State} (h : SameKeys a b) (g : SameKeys b c) : SameKeys a c :=
  ⟨g.nodes.trans h.nodes, g.allocs.trans h.allocs, g.epochs.trans h.epochs, g.pair.trans h.pair, g.cache.trans h.cache, g.retired.trans h.retired⟩

theorem SameKeys.keyGo {a b : State} (h : SameKeys a b) (p : Option Bytes) (f n : Nat) : keyGo b p f n = keyGo a p f n := by
  induction f generalizing n with
  | zero => rfl
  | succ f ih => simp only [Machine.keyGo, cachedKey, nodeOf, udsPath, epochOf, h.nodes, h.epochs, h.cache, h.retired, ih]

theorem SameKeys.nodeKey {a b : State} (h : SameKeys a b) (n : Nat) : nodeKey b n = nodeKey a n := by
  have hpair : pairSecretOf b = pairSecretOf a := by
    unfold pairSecretOf
    rw [h.pair]
    split <;> simp only [h.keyGo]
  unfold Machine.nodeKey
  rw [hpair, h.keyGo]

theorem SameKeys.exportPlain {a b : State} (h : SameKeys a b) (n : Nat) : exportPlain b n = exportPlain a n := by
  have hnode : nodeOf b n = nodeOf a n := nodeOf_congr h.nodes n
  unfold Machine.exportPlain handleOf epochOf
  rw [hnode, h.nodeKey, h.epochs, h.allocs]

theorem sameKeys_setObj (s : State) (i k : Nat) (v : Val) : SameKeys s (setObj s i k v) := by
  obtain ⟨d, p, l, e⟩ := setObj_dict s i k v
  rw [e]
  exact ⟨rfl, rfl, rfl, rfl, rfl, rfl⟩

theorem sameKeys_deliver {s u : State} (h : DeliversOnly s u) : SameKeys s u := by
  rw [h]
  exact ⟨rfl, rfl, rfl, rfl, rfl, rfl⟩

theorem sameKeys_entry {a t : State} (h : EntryOnly a t) (hr : t.otp.retired = a.otp.retired) : SameKeys a t := by
  refine ⟨?_, ?_, ?_, ?_, ?_, hr⟩ <;> rw [h]

/-! Bumps. -/

/-- State t is s but for the values of its objects. -/
def ValuesOnly (s t : State) : Prop := ∃ d p l, t = { s with dict := d, pers := { s.pers with dict := p, dlog := l } }

theorem ValuesOnly.trans {a b c : State} (h : ValuesOnly a b) (g : ValuesOnly b c) : ValuesOnly a c := by
  obtain ⟨d, p, l, rfl⟩ := h
  obtain ⟨d', p', l', rfl⟩ := g
  exact ⟨d', p', l', rfl⟩

/-- The channels keyed below the nodes bumped are orphaned (R236). -/
def orphanChannels (s : State) (xs : List Nat) : State :=
  (keyedChans s).foldl (fun t p => if (xs.any fun y => below s y (p.2 % 0x10000)) = true ∧ chanState t p.1 ≠ 0 then setC t p.1 1 Ch.orphaned else t) s

theorem orphanChannels_objects (s : State) (xs : List Nat) : ValuesOnly s (orphanChannels s xs) := by
  have hgo : ∀ (ps : List (Nat × Nat)) (t : State), ValuesOnly s t →
      ValuesOnly s (ps.foldl (fun t p => if (xs.any fun y => below s y (p.2 % 0x10000)) = true ∧ chanState t p.1 ≠ 0 then setC t p.1 1 Ch.orphaned else t) t) := by
    intro ps
    induction ps with
    | nil => exact fun t h => h
    | cons p ps ih =>
      intro t ht
      refine ih _ ?_
      dsimp only
      split
      · exact ht.trans (setObj_dict _ _ _ _)
      · exact ht
  exact hgo _ s ⟨_, _, _, rfl⟩

/-- A bump touches the objects, the streams, sessions and secrets that hang on its nodes, the cache and the internal queue (R335). -/
theorem afterBump_leaves (s : State) (xs : List Nat) : ∃ d p l st se sc ca iq, afterBump s xs =
    { s with dict := d, pers := { s.pers with dict := p, dlog := l }, streams := st, sessions := se, secrets := sc, cache := ca, internal := iq } := by
  obtain ⟨d, p, l, e⟩ := orphanChannels_objects s xs
  have hdef : ∃ st se sc ca iq, afterBump s xs = { orphanChannels s xs with streams := st, sessions := se, secrets := sc, cache := ca, internal := iq } := ⟨_, _, _, _, _, rfl⟩
  obtain ⟨st, se, sc, ca, iq, h⟩ := hdef
  rw [e] at h
  exact ⟨d, p, l, st, se, sc, ca, iq, h⟩

/-- Epochs raised touch the epochs, their marks and the counters. -/
theorem raiseEpochs_leaves (s : State) (xs : List Nat) : ∃ e b1 b2 pf, raiseEpochs s xs = { s with pers := { s.pers with epochs := e, badCopies := b1, badEpochs := b2 }, perf := pf } := by
  have hgo : ∀ (xs : List Nat) (t : State), ∃ e b1 b2, xs.foldl (fun t n => writeEpoch t n (epochOf t n + 1)) t =
      { t with pers := { t.pers with epochs := e, badCopies := b1, badEpochs := b2 } } := by
    intro xs
    induction xs with
    | nil => exact fun t => ⟨_, _, _, rfl⟩
    | cons n xs ih =>
      intro t
      obtain ⟨e, b1, b2, h⟩ := ih (writeEpoch t n (epochOf t n + 1))
      exact ⟨e, b1, b2, h⟩
  obtain ⟨e, b1, b2, h⟩ := hgo xs s
  obtain ⟨pf, hc⟩ := count_perf (xs.foldl (fun t n => writeEpoch t n (epochOf t n + 1)) s) 8 0 xs.length
  refine ⟨e, b1, b2, pf, ?_⟩
  unfold raiseEpochs
  rw [hc, h]

theorem epochOf_writeEpoch (s : State) (n v k : Nat) : epochOf (writeEpoch s n v) k = if k = n then v else epochOf s k := SMap.at_put _ _ _ _ _

theorem foldl_raise (xs : List Nat) (hx : xs.Nodup) (s : State) (k : Nat) :
    epochOf (xs.foldl (fun t n => writeEpoch t n (epochOf t n + 1)) s) k = epochOf s k + if k ∈ xs then 1 else 0 := by
  induction xs generalizing s with
  | nil => rfl
  | cons n xs ih =>
    have hn := List.nodup_cons.mp hx
    rw [List.foldl_cons, ih hn.2, epochOf_writeEpoch]
    by_cases hk : k = n
    · subst hk
      simp [hn.1]
    · simp [hk]

/-- A bump that leaves the pair secret is the raise of its nodes, after its consequences (R329, R335). -/
theorem bumpNodes_plain {s : State} {xs : List Nat} (hp : ¬(xs.contains 4 = true ∧ s.pers.pair.isSome = true)) : bumpNodes s xs = raiseEpochs (afterBump s xs) xs := by
  have hwith : withPair s xs = xs := if_neg hp
  obtain ⟨d, p, l, st, se, sc, ca, iq, ha⟩ := afterBump_leaves s xs
  obtain ⟨e, b1, b2, pf, hr⟩ := raiseEpochs_leaves (afterBump s xs) xs
  have hpair : (raiseEpochs (afterBump s xs) xs).pers.pair = s.pers.pair := by rw [hr, ha]
  unfold bumpNodes losePair
  rw [hwith, hpair, if_neg hp]

/-- Such a bump raises each of its nodes by one (R329). -/
theorem epochOf_bumpNodes {s : State} {xs : List Nat} (hx : xs.Nodup) (hp : ¬(xs.contains 4 = true ∧ s.pers.pair.isSome = true)) (k : Nat) :
    epochOf (bumpNodes s xs) k = epochOf s k + if k ∈ xs then 1 else 0 := by
  obtain ⟨d, p, l, st, se, sc, ca, iq, ha⟩ := afterBump_leaves s xs
  have hafter : epochOf (afterBump s xs) k = epochOf s k := epochOf_congr (by rw [ha]) k
  have hcount : epochOf (raiseEpochs (afterBump s xs) xs) k = epochOf (xs.foldl (fun t n => writeEpoch t n (epochOf t n + 1)) (afterBump s xs)) k :=
    epochOf_congr (by unfold raiseEpochs; rw [count_pers]) k
  rw [bumpNodes_plain hp, hcount, foldl_raise xs hx, hafter]

end Sys2Proof.Machine
end

section
/-! SUPPORT. Ownership (R355, R356, R501). -/

namespace Sys2Proof.Machine

def takeOwnershipDesc : Desc := ⟨.domain, 1088, .rwx, .any, false, true, .oct []⟩
def recoverOwnerDesc : Desc := ⟨.domain, 1088, .rwx, .service, false, true, .oct []⟩

/-- The key that a ciphertext encapsulates under TRANSFER (R356). -/
def transferred (u : State) (ct : Bytes) : Bytes := Kem.decaps (Kem.keyGen ((nodeKey u 0x16).take 32) (((nodeKey u 0x16).drop 32).take 32)) ct

/-- The state after the work of a decapsulation under TRANSFER. -/
def decapsulated (u : State) : State := claimMasks (blind (warm u 0x16) 12 (blindBytes 10)) 12

theorem worksOnly_decapsulated (u : State) : WorksOnly u (decapsulated u) := ((worksOnly_warm u _).trans (worksOnly_blind _ _ _)).trans (worksOnly_claimMasks _ _)

theorem takeOwnershipOp_runs {u : State} {ct : Bytes} {b : Bool} {slot : Nat} (he : spentAny u (if b then [1, 2] else [1]) = false)
    (hf : unitsFault u .ok ⟨true, false, 2⟩ true = 0) :
    takeOwnershipOp u ct b slot .ok = Eff.longOp (decapsulated u) 10000 [.takeOwner (transferred u ct) b] [0x16] slot := by
  unfold takeOwnershipOp
  dsimp only
  rw [he, hf, if_neg (by decide), if_neg (by decide)]
  rfl

theorem WorksOnly.stands {u a : State} (h : WorksOnly u a) : a.transfers = u.transfers ∧ a.pers = u.pers ∧ ∀ i k, getObj a i k = getObj u i k := by
  rw [h]
  exact ⟨rfl, rfl, fun _ _ => rfl⟩

/-- What a settled admission keeps of the state that it is settled on. -/
theorem pushed_stands {a t : State} {y : Slot} (h : Settled (pushSlot a y) t) : t.transfers = a.transfers ∧ t.pers.epochs = a.pers.epochs ∧ t.pers.pair = a.pers.pair ∧
    ∀ i k, k < 256 → bookkeeping i k = false → getObj t i k = getObj a i k :=
  ⟨congrArg (fun a => a.transfers) h.rest, congrArg (fun a => a.pers.epochs) h.rest, congrArg (fun a => a.pers.pair) h.rest,
    fun i k hk hb => (h.objects i k hk hb).trans (getObj_pushSlot _ _ _ _)⟩

theorem sameKeys_admittedIn (s : State) (q : Rq) (tr : Trailer) : SameKeys s (admittedIn s q tr) := by
  obtain ⟨hh, b, n, f, e⟩ := admittedIn_cases s q tr
  rw [e]
  exact ⟨rfl, rfl, rfl, rfl, rfl, rfl⟩

theorem spentAny_none {u : State} {xs : List Nat} (h : ∀ j ∈ xs, epochOf u j < 0xFFFFFF) : spentAny u xs = false := by
  unfold spentAny
  rw [List.any_eq_false]
  intro j hj
  simpa using h j hj

section
variable {s : State} {h : Hdr} {tr : Trailer} {z : Session} {q : Rq} {i : Instr} {g : Seg} {x : Transfer} {k : Nat} {d : Desc} {need : Role}

/-- The END of a ciphertext of Take ownership or Recover owner decapsulates it (R356, R501). -/
theorem ownership_replies (hk : k = 1 ∨ k = 7) (ho : Room s) (hq : q = rqSeg h 0xCA20 k g) (hexec : exec i s = coreCmd (fun s => request s q) s)
    (hcl : Client s q tr z need) (hlong : longRuns s = false) (hcore : num s 0xCF38 3 = 0) (hn : NextSegment s q (some tr.slot) 0xCA20 k g x)
    (hlast : x.got + g.len = x.total) (hlen : (x.buf ++ g.data).length = 1088) (he : ∀ j ∈ (if k = 1 then [1, 2] else [1]), epochOf s j < 0xFFFFFF) :
    Replies i s q z 10000 (segReply g) (heldWrite 0xCA20 k (x.buf ++ g.data) ++ [.takeOwner (transferred s (x.buf ++ g.data)) (decide (k = 1))])
      fun t => transferOf t h.origin = none ∧ t.pers.epochs = s.pers.epochs ∧ OthersStand s t [] := by
  have hkeys := sameKeys_admittedIn s q tr
  have hsame : SameKeys s (endedIn s q tr) := ⟨hkeys.nodes, hkeys.allocs, hkeys.epochs, hkeys.pair, hkeys.cache, hkeys.retired⟩
  have hfault : unitsFault (endedIn s q tr) .ok ⟨true, false, 2⟩ true = 0 := unitsFault_sign rfl
    (by obtain ⟨hh, b, n, f, e⟩ := admittedIn_cases s q tr; unfold endedIn; rw [e]; exact hcl.ready.source) (by rw [num_endedIn]; exact hcl.ready.entropy)
    (by rw [num_endedIn]; exact hcl.ready.lane) (fun h => by cases h) (by rw [num_endedIn, hcore])
  have hspent : spentAny (endedIn s q tr) (if decide (k = 1) then [1, 2] else [1]) = false := by
    refine spentAny_none fun j hj => ?_
    rw [epochOf_congr (u := s) hsame.epochs]
    exact he j (by simpa using hj)
  have hkt : transferred (endedIn s q tr) (x.buf ++ g.data) = transferred s (x.buf ++ g.data) := by
    unfold transferred
    rw [hsame.nodeKey]
  have hop := takeOwnershipOp_runs (ct := x.buf ++ g.data) (slot := (callerOf q tr z).slot.getD 0xFF) hspent hfault
  rw [hkt] at hop
  have hend : domainEnd (endedIn s q tr) (callerOf q tr z) 0xCA20 k (x.buf ++ g.data) g.data .ok =
      Eff.longOp (decapsulated (endedIn s q tr)) 10000 [.takeOwner (transferred s (x.buf ++ g.data)) (decide (k = 1))] [0x16] ((callerOf q tr z).slot.getD 0xFF) := by
    rw [← hop]
    unfold domainEnd
    rw [if_neg (by omega), if_neg (by omega), if_neg (by omega)]
    exact if_neg (by simp only [hlen]; decide)
  have hwork := worksOnly_decapsulated (endedIn s q tr)
  have hd : ∃ d, Dict.find 0xCA20 k = (true, some d) ∧ d.ty = .domain := by
    rcases hk with rfl | rfl
    · exact ⟨takeOwnershipDesc, rfl, rfl⟩
    · exact ⟨recoverOwnerDesc, rfl, rfl⟩
  obtain ⟨d, hd, hdom⟩ := hd
  obtain ⟨t, y, hrun, hadm, hset⟩ := domainEnd_waits (d := d) ho hq hexec hcl hd hdom hn hlast rfl (fun _ => hlong) (by decide) (by rcases hk with rfl | rfl <;> rfl)
    (by rcases hk with rfl | rfl <;> rfl) hend rfl rfl (hwork.steady (steady_endedIn s q tr))
  obtain ⟨htransfers, hpers, hobj⟩ := hwork.stands
  obtain ⟨hkept, hkeptEpochs, -, hkeptObj⟩ := pushed_stands hset
  refine ⟨t, hrun, hadm, ?_, ?_, fun i' k' hk' hb _ => ?_⟩
  · have htr := hkept.trans htransfers
    have hnone := transferOf_dropTransfer (admittedIn s q tr) q.origin
    have horigin : q.origin = h.origin := by rw [hq]; rfl
    rw [← horigin]
    unfold transferOf at hnone ⊢
    rw [htr]
    exact hnone
  · exact hkeptEpochs.trans ((congrArg Pers.epochs hpers).trans hsame.epochs)
  · exact (hkeptObj i' k' hk' hb).trans ((hobj i' k').trans (getObj_admittedIn s q tr i' k'))

end

/-- The nodes that a take-over bumps (R356, R501). -/
def ownerNodes (svc : Bool) : List Nat := if svc then [1, 2] else [1]

/-- What a take-over leaves: the epochs of its nodes raised, and the owner credential, under the new keys (R356, R501). -/
theorem ownerNow_leaves (v : State) (kt : Bytes) (svc : Bool) :
    (∀ k, epochOf (ownerNow v kt svc) k = epochOf v k + if k ∈ ownerNodes svc then 1 else 0) ∧ oct (ownerNow v kt svc) 0xCA20 2 = kwWrap kt (exportPlain (ownerNow v kt svc) 0x50) ∧
      (svc = false → num (ownerNow v kt svc) 0xD802 1 = 2) ∧ (ownerNow v kt svc).otp.retired = v.otp.retired := by
  let w := bumpNodes v (ownerNodes svc)
  let a := setOct w 0xCA20 2 (kwWrap kt (exportPlain w 0x50))
  have hp : ¬((ownerNodes svc).contains 4 = true ∧ v.pers.pair.isSome = true) := by
    rintro ⟨h, -⟩
    cases svc <;> cases h
  have hnodup : (ownerNodes svc).Nodup := by cases svc <;> decide
  have hepoch := epochOf_bumpNodes (s := v) hnodup hp
  have hretired : w.otp.retired = v.otp.retired := by
    obtain ⟨d, p, l, st, se, sc, ca, iq, ha⟩ := afterBump_leaves v (ownerNodes svc)
    obtain ⟨e, b1, b2, pf, hr⟩ := raiseEpochs_leaves (afterBump v (ownerNodes svc)) (ownerNodes svc)
    unfold w
    rw [bumpNodes_plain hp, hr, ha]
  have hstored : oct a 0xCA20 2 = kwWrap kt (exportPlain w 0x50) := by
    unfold oct a setOct
    rw [getObj_setObj _ _ (by decide) (by decide), if_pos ⟨rfl, rfl, rfl⟩]
    rfl
  have hsame : SameKeys w a := sameKeys_setObj _ _ _ _
  have hall : SameKeys w (ownerNow v kt svc) ∧ oct (ownerNow v kt svc) 0xCA20 2 = oct a 0xCA20 2 ∧ (svc = false → num (ownerNow v kt svc) 0xD802 1 = 2) := by
    cases svc with
    | false =>
      have hdef : ownerNow v kt false = setNum a 0xD802 1 2 := rfl
      rw [hdef]
      refine ⟨hsame.trans (sameKeys_setObj _ _ _ _), ?_, fun _ => num_setNum_self a 2 (by decide) rfl⟩
      unfold oct setNum
      rw [getObj_setObj _ _ (by decide) (by decide), if_neg (by decide)]
    | true =>
      have hdef : ownerNow v kt true = if a.otp.lifecycle = 0xA5 then { a with otp := { a.otp with lifecycle := 0x5A } } else a := rfl
      rw [hdef]
      split
      · exact ⟨⟨hsame.nodes, hsame.allocs, hsame.epochs, hsame.pair, hsame.cache, hsame.retired⟩, rfl, fun h => by cases h⟩
      · exact ⟨hsame, rfl, fun h => by cases h⟩
  obtain ⟨hkeys, hoct, hcal⟩ := hall
  refine ⟨fun k => (epochOf_congr hkeys.epochs k).trans (hepoch k), ?_, hcal, hkeys.retired.trans hretired⟩
  rw [hoct, hstored, hkeys.exportPlain]

/-- The release of a take-over (R356, R501). -/
theorem responseRelease_takesOwner {s : State} {x : Slot} {kt : Bytes} {svc : Bool} {key : Nat} {w : Val} (he1 : epochOf s 1 < 0xFFFFFF) (he2 : epochOf s 2 < 0xFFFFFF)
    (hx : s.slots.find? (fun y => decide (y.id = x.id)) = some x) (hdue : x.due ≤ s.seq.time) (hcalm : s.tem.resp = none) (hpow : s.seq.failing = false)
    (hw : ∀ w ∈ s.sheaf.awaits, w.adm ≠ x.adm) (ha : x.acts = [.setObj key w, .takeOwner kt svc]) :
    ∃ t, exec (.responseRelease x.id) s = .next t ∧ (∀ k, epochOf t k = epochOf s k + if k ∈ ownerNodes svc then 1 else 0) ∧
      oct t 0xCA20 2 = kwWrap kt (exportPlain t 0x50) ∧ (svc = false → num t 0xD802 1 = 2) := by
  have hex : exhausts s x = false := by
    have hspent : spentAny s (ownerNodes svc) = false := spentAny_none fun j hj => by
      cases svc <;> simp [ownerNodes] at hj
      · rw [hj]; exact he1
      · rcases hj with rfl | rfl
        · exact he1
        · exact he2
    unfold exhausts
    rw [ha]
    simp only [List.any_cons, List.any_nil, Bool.or_false, Bool.false_or]
    exact hspent
  obtain ⟨u, t, hrun, hu, ht, hotp⟩ := responseRelease_runs hx hdue hcalm (.inl hpow) hw (by rw [ha]; simp) hex
  let v := setObj u (key / 256) (key % 256) w
  have hfold : x.acts.foldl (runAct x) u = ownerNow v kt svc := by
    rw [ha]
    rfl
  rw [hfold] at ht hotp
  obtain ⟨hepoch, hoct, hcal, hretired⟩ := ownerNow_leaves v kt svc
  have hv : SameKeys s v := (sameKeys_deliver hu).trans (sameKeys_setObj _ _ _ _)
  have hkeys : SameKeys (ownerNow v kt svc) t := by
    refine sameKeys_entry ht ?_
    rw [hotp]
    show (s.otp.retired || (ownerNow v kt svc).otp.retired) = _
    rw [hretired, hv.retired, Bool.or_self]
  have hget := ht.getObj
  refine ⟨t, hrun, fun k => ?_, ?_, fun h => ?_⟩
  · rw [epochOf_congr hkeys.epochs, hepoch, epochOf_congr hv.epochs]
  · rw [hkeys.exportPlain, ← hoct]
    unfold oct
    rw [hget]
  · rw [← hcal h]
    unfold num
    rw [hget]

/-- Settles O23: the END decapsulates and holds the take-over, and its release bumps and hands out the credential. -/
theorem ownershipIsTakenAndRecovered : Obligations.ownership_is_taken_and_recovered := by
  unfold Obligations.ownership_is_taken_and_recovered
  refine ⟨fun s h tr z k g x hk ho hs hcal hlife hlong hcore hcl hn hlast hlen he => ?_, fun s x kt svc key w he1 he2 hx hdue hcalm hpow hw ha => ?_⟩
  · exact ownership_replies hk ho rfl (by rcases hk with rfl | rfl <;> rfl) hcl hlong hcore hn hlast hlen he
  · obtain ⟨t, hrun, hepoch, hoct, hcal⟩ := responseRelease_takesOwner he1 he2 hx hdue hcalm hpow hw ha
    refine ⟨t, hrun, ?_, ?_, fun k h1 h2 => ?_, hoct, hcal⟩
    · rw [hepoch]
      cases svc <;> rfl
    · rw [hepoch]
      cases svc <;> rfl
    · rw [hepoch, if_neg]
      · rfl
      · cases svc <;> simp [ownerNodes, h1, h2]

end Sys2Proof.Machine
end

section
/-! SUPPORT. The END of a write of a value that has effects (R112): the effects stand with its admission, or wait for its release. -/

namespace Sys2Proof.Machine

section
variable {s : State} {h : Hdr} {tr : Trailer} {z : Session} {i k : Nat} {d : Desc} {g : Seg} {x : Transfer} {q : Rq} {need : Role} {c : Instr} {e : Eff} {v : Bytes}

/-- The END of a write is numbered (R183). -/
theorem isNumbered_end (hq : q = rqSeg h i k g) {sess : Option Nat} (hn : NextSegment s q sess i k g x) (hlast : x.got + g.len = x.total) : isNumbered s q = true := by
  have hparse := parseSeg_segBody (g := g) hn.small (by have := hn.most; omega)
  have hfin : (parseSeg (segBody g)).fin = true := by
    rw [hparse]
    exact (fin_of hn.fin).trans (decide_eq_true hlast)
  rw [hq]
  show (isDomain i k || (parseSeg (segBody g)).fin) = true
  rw [hfin, Bool.or_true]

/-- The END segment of a value comes to the commit of its effect. -/
theorem valueEnd_work (ho : Room s) (hdom : d.ty ≠ .domain) (hp : roleInForce (endedIn s q tr) true i k d ≠ .pair) (hn : NextSegment s q (some tr.slot) i k g x)
    (hlast : x.got + g.len = x.total) (hv : v = x.buf ++ g.data) (hlong : d.longOp = true → longRuns s = false)
    (hw : writeValue (endedIn s q tr) (callerOf q tr z) i k d v .ok = e) (hacc : accepted e = true) :
    segmentWork (admittedIn s q tr) (callerOf q tr z) i k d x g = commitWrite (endedIn s q tr) (callerOf q tr z) i k d v e := by
  have hidx : (afterSegment (admittedIn s q tr) x g).idx = i := hn.idx
  have hsub : (afterSegment (admittedIn s q tr) x g).sub = k := hn.sub
  obtain ⟨hh, b, n, f, hin⟩ := admittedIn_cases s q tr
  have hcap : capacityCheck (endedIn s q tr) i d = 0 := capacity_ok (room_of ho (fun i k => num_admittedIn s q tr i k)
    (by rw [hin]) (by rw [hin])) (fun hl => (longRuns_admittedIn s q tr).trans (hlong hl))
  have hend := segEnd_writes (u := admittedIn s q tr) (c := callerOf q tr z) (x := afterSegment (admittedIn s q tr) x g) (v := v) (g := g.data)
    (lat := segLat (admittedIn s q tr) i k true) hdom (by rw [hidx, hsub]; exact hp)
  rw [hidx, hsub] at hend
  unfold segmentWork
  rw [if_pos hlast, ← hv]
  exact hend.trans (performWrite_commits hw hacc hcap)

/-- The END of a value whose effects wait for its release (R23, R112). -/
theorem valueEnd_waits (ho : Room s) (hq : q = rqSeg h i k g) (hexec : exec c s = coreCmd (fun s => request s q) s) (hcl : Client s q tr z need)
    (hd : Dict.find i k = (true, some d)) (hdom : d.ty ≠ .domain) (hp : roleInForce (endedIn s q tr) true i k d ≠ .pair) (hn : NextSegment s q (some tr.slot) i k g x)
    (hlast : x.got + g.len = x.total) (hv : v = x.buf ++ g.data) (hlong : d.longOp = true → longRuns s = false) (hm : i ≠ 0x2000)
    (hca : isCarried i k = false) (hse : isSensorSetting i k = false) (hw : writeValue (endedIn s q tr) (callerOf q tr z) i k d v .ok = e) (h0 : e.code = 0)
    (hg : e.acts.any stagesEffect = true) (hst : Steady s e.s) :
    ∃ t y, exec c s = .next t ∧ Admitted s t q (some z) e.lat 0 (segReply g) (heldWrite i k v ++ e.acts) ∧ Settled (pushSlot e.s y) t := by
  have hcommit := commitWrite_waits (u := endedIn s q tr) (c := callerOf q tr z) (v := v) hg hd (.inl hp) (fun h => hm h.1) hca hse
  have hrec := settled_recorded (endedIn s q tr) (callerOf q tr z) i k d v e
  obtain ⟨t, y, hrun, hadm, hset⟩ := segment_admits hq hexec hcl hd hn (isNumbered_end hq hn hlast)
    ((valueEnd_work ho hdom hp hn hlast hv hlong hw (by unfold accepted; rw [h0]; rfl)).trans hcommit) h0 (hst.settled hrec)
  exact ⟨t, y, hrun, hadm, (hrec.push y).trans hset⟩

/-- The END of a value whose effects stand with its admission (R112). -/
theorem valueEnd_stores (ho : Room s) (hq : q = rqSeg h i k g) (hexec : exec c s = coreCmd (fun s => request s q) s) (hcl : Client s q tr z need)
    (hd : Dict.find i k = (true, some d)) (hdom : d.ty ≠ .domain) (hp : roleInForce (endedIn s q tr) true i k d ≠ .pair) (hn : NextSegment s q (some tr.slot) i k g x)
    (hlast : x.got + g.len = x.total) (hv : v = x.buf ++ g.data) (hlong : d.longOp = true → longRuns s = false) (hm : i ≠ 0x2000)
    (hca : isCarried i k = false) (hse : isSensorSetting i k = false) (hw : writeValue (endedIn s q tr) (callerOf q tr z) i k d v .ok = e) (h0 : e.code = 0)
    (hg : e.acts.any stagesEffect = false) (hst : Steady s e.s) :
    ∃ t y, exec c s = .next t ∧ Admitted s t q (some z) e.lat 0 (segReply g) e.acts ∧ Settled (pushSlot (setObj e.s i k (storedValue i k d v)) y) t := by
  have hcommit := commitWrite_stored (u := endedIn s q tr) (c := callerOf q tr z) (v := v) hg (.inl hp) (fun h => hm h.1) hca hse
  have hrec := settled_recorded (endedIn s q tr) (callerOf q tr z) i k d v e
  obtain ⟨t, y, hrun, hadm, hset⟩ := segment_admits hq hexec hcl hd hn (isNumbered_end hq hn hlast)
    ((valueEnd_work ho hdom hp hn hlast hv hlong hw (by unfold accepted; rw [h0]; rfl)).trans hcommit) h0 ((hst.settled hrec).setObj _ _ _)
  exact ⟨t, y, hrun, hadm, ((hrec.setObj i k _).push y).trans hset⟩

end

end Sys2Proof.Machine
end

section
/-! SUPPORT. The pair secret and the end of life (R357, R359). -/

namespace Sys2Proof.Machine

def pairSecretDesc : Desc := ⟨.octets, 44, .rwx, .owner, false, true, .oct (zeros 44)⟩
def pairClearDesc : Desc := ⟨.u8, 1, .rwx, .owner, false, true, .num 0⟩
def retireDesc (need : Role) : Desc := ⟨.u32, 4, .rwx, need, false, true, .num 0⟩

/-- The state after the work of a pair secret that is wrapped again under PAIR-STORE. -/
def rewrapped (u : State) : State := claimMasks (warm u 0x17) 60

theorem worksOnly_rewrapped (u : State) : WorksOnly u (rewrapped u) := (worksOnly_warm u _).trans (worksOnly_claimMasks _ _)

/-- A pair secret that unwraps under a session secret of its holder (R357). -/
theorem pairSecretOp_runs {u : State} {v w : Bytes} {slot i : Nat} {y : Secret} (hy : secretByHandle u (leNat (v.take 4)) = some (i, y)) (hhold : y.holder = slot)
    (hlive : y.dead = false) (he : spentAny u [1, 2] = false) (hf : cipherFault u .ok = 0) (hw : kwUnwrap y.key (v.drop 4) = (w, true)) :
    pairSecretOp u v slot .ok = Eff.longOp (rewrapped u) 10000 [.pairSet (kwWrap (nodeKey u 0x17) w)] [0x17] slot := by
  unfold pairSecretOp
  dsimp only
  rw [hy, hf, he]
  dsimp only
  rw [if_neg (by simp [hhold]), if_neg (by simp [hlive]), if_neg (by decide), if_neg (by decide), if_neg (by decide), hw]
  rfl

/-- The state of a unit in its end of life: it admits nothing more, and the toggle stops (R359, R457). -/
def endOfLife (u : State) : State := stopToggle { u with seq := { u.seq with retiring := true } }

theorem endOfLife_leaves (u : State) : ∃ b iq, endOfLife u = { u with seq := { u.seq with retiring := true }, boot := b, internal := iq } := by
  unfold endOfLife stopToggle
  split
  · exact ⟨_, _, rfl⟩
  · exact ⟨_, _, rfl⟩

theorem Steady.endOfLife {s u : State} (h : Steady s u) : Steady s (endOfLife u) := by
  obtain ⟨b, iq, e⟩ := endOfLife_leaves u
  rw [e]
  exact ⟨h.adm, h.time, h.first, h.queue, h.fuses⟩

theorem ownWrite_retires {u : State} {c : Ctx} {k : Nat} (hk : k = 5 ∨ k = 8) :
    writeValue u c 0xCA20 k (retireDesc (if k = 5 then .owner else .service)) (leBytes 4 0x52455449) .ok =
      Eff.longOp (endOfLife u) 10000 [.retireReset] [] (c.slot.getD 0xFF) := by
  have hv : leNat (leBytes 4 0x52455449) = 0x52455449 := leNat_leBytes 4 _ (by decide)
  have hown : ownWrite u c k (leBytes 4 0x52455449) .ok = Eff.longOp (endOfLife u) 10000 [.retireReset] [] (c.slot.getD 0xFF) := by
    unfold ownWrite
    dsimp only
    rw [hv]
    rcases hk with rfl | rfl <;> rfl
  rw [← hown]
  rcases hk with rfl | rfl <;> rfl

section
variable {s : State} {h : Hdr} {tr : Trailer} {z : Session} {q : Rq} {i : Instr} {g : Seg} {x : Transfer}

theorem secrets_endedIn (s : State) (q : Rq) (tr : Trailer) (w : Nat) : secretByHandle (endedIn s q tr) w = secretByHandle s w := by
  obtain ⟨hh, b, n, f, e⟩ := admittedIn_cases s q tr
  unfold endedIn
  rw [e]
  rfl

theorem sameKeys_endedIn (s : State) (q : Rq) (tr : Trailer) : SameKeys s (endedIn s q tr) := by
  have h := sameKeys_admittedIn s q tr
  exact ⟨h.nodes, h.allocs, h.epochs, h.pair, h.cache, h.retired⟩

theorem cipherFault_endedIn (hcl : Client s q tr z .owner) : cipherFault (endedIn s q tr) .ok = 0 :=
  cipherFault_none (by obtain ⟨hh, b, n, f, e⟩ := admittedIn_cases s q tr; unfold endedIn; rw [e]; exact hcl.ready.source)
    (by rw [num_endedIn]; exact hcl.ready.entropy) (by rw [num_endedIn]; exact hcl.ready.lane)

/-- The END of a pair secret wraps it again under PAIR-STORE (R357). -/
theorem pairSecret_replies (ho : Room s) (hsingle : num s 0x2000 2 = 0) (hq : q = rqSeg h 0xCA20 3 g) (hexec : exec i s = coreCmd (fun s => request s q) s)
    (hcl : Client s q tr z .owner) (hlong : longRuns s = false) (hn : NextSegment s q (some tr.slot) 0xCA20 3 g x) (hlast : x.got + g.len = x.total)
    (he1 : epochOf s 1 < 0xFFFFFF) (he2 : epochOf s 2 < 0xFFFFFF) {j : Nat} {y : Secret} {u : Bytes}
    (hy : secretByHandle s (leNat ((x.buf ++ g.data).take 4)) = some (j, y)) (hhold : y.holder = tr.slot) (hlive : y.dead = false)
    (hu : kwUnwrap y.key ((x.buf ++ g.data).drop 4) = (u, true)) :
    Replies i s q z 10000 (segReply g) (heldWrite 0xCA20 3 (x.buf ++ g.data) ++ [.pairSet (kwWrap (nodeKey s 0x17) u)])
      fun t => t.pers.pair = s.pers.pair ∧ transferOf t h.origin = none ∧ OthersStand s t [] := by
  have hkeys := sameKeys_endedIn s q tr
  have hspent : spentAny (endedIn s q tr) [1, 2] = false := spentAny_none fun j hj => by
    rw [epochOf_congr (u := s) hkeys.epochs]
    simp only [List.mem_cons, List.not_mem_nil, or_false] at hj
    rcases hj with rfl | rfl
    · exact he1
    · exact he2
  have hop := pairSecretOp_runs (slot := tr.slot) ((secrets_endedIn s q tr _).trans hy) hhold hlive hspent (cipherFault_endedIn hcl) hu
  rw [hkeys.nodeKey] at hop
  have hw : writeValue (endedIn s q tr) (callerOf q tr z) 0xCA20 3 pairSecretDesc (x.buf ++ g.data) .ok =
      Eff.longOp (rewrapped (endedIn s q tr)) 10000 [.pairSet (kwWrap (nodeKey s 0x17) u)] [0x17] tr.slot := hop
  have hpair : roleInForce (endedIn s q tr) true 0xCA20 3 pairSecretDesc ≠ .pair := not_pairRole (sheafOn_admittedIn (tr := tr) hsingle q) ⟨z.role, hcl.role⟩
  have hwork := worksOnly_rewrapped (endedIn s q tr)
  obtain ⟨t, a, hrun, hadm, hset⟩ := valueEnd_waits (d := pairSecretDesc) ho hq hexec hcl rfl (by decide) hpair hn hlast rfl (fun _ => hlong) (by decide) rfl rfl hw rfl rfl
    (hwork.steady (steady_endedIn s q tr))
  obtain ⟨htransfers, hpers, hobj⟩ := hwork.stands
  obtain ⟨hkept, -, hkeptPair, hkeptObj⟩ := pushed_stands hset
  refine ⟨t, hrun, hadm, ?_, ?_, fun i' k' hk' hb _ => ?_⟩
  · exact hkeptPair.trans ((congrArg Pers.pair hpers).trans hkeys.pair)
  · have htr := hkept.trans htransfers
    have hnone := transferOf_dropTransfer (admittedIn s q tr) q.origin
    have horigin : q.origin = h.origin := by rw [hq]; rfl
    rw [← horigin]
    unfold transferOf at hnone ⊢
    rw [htr]
    exact hnone
  · exact (hkeptObj i' k' hk' hb).trans ((hobj i' k').trans (getObj_admittedIn s q tr i' k'))

/-- The modes let a write of 0xCA20 through: under PROVISION, or one that needs none, and in CALDERA where it is for CALDERA. -/
theorem modeCheck_own {u : State} {c : Ctx} {k : Nat} {d : Desc} (hk : k ≠ 1)
    (hp : k = 3 ∨ k = 4 → provisionFor u c = true) (hcal : k = 7 ∨ k = 8 → calderaOn u = true) : modeCheck u c true 0xCA20 k d = 0 := by
  have hneeds : ¬(needsProvision u 0xCA20 k = true ∧ (!provisionFor u c) = true) := by
    rintro ⟨h1, h2⟩
    by_cases h3 : k = 3 ∨ k = 4
    · rw [hp h3] at h2
      cases h2
    · unfold needsProvision at h1
      simp [h3, hk] at h1
  have hin : ¬((k = 7 ∨ k = 8) ∧ (!calderaOn u) = true) := by
    rintro ⟨h1, h2⟩
    rw [hcal h1] at h2
    cases h2
  unfold modeCheck isSendRecv
  rw [if_neg (by omega), if_neg (by simp), if_neg (by omega), if_neg (by omega), if_neg (by simp), if_neg (by omega), if_neg (by omega), if_neg hneeds,
    if_neg (by simpa using hin)]

theorem provisionFor_admittedIn {c : Ctx} (hp : num s 0x2000 7 ≠ 0) (hi : num s 0x2000 4 = 0) : provisionFor (admittedIn s q tr) c = true := by
  unfold provisionFor provisionOn islandOn modeFlag
  rw [num_admittedIn, num_admittedIn, hi]
  simp [hp]

/-- The pair secret is cleared at the release (R357). -/
theorem pairClear_completes (ho : Open s) (hq : q = rqWrite h 0xCA20 4 [1]) (hexec : exec i s = coreCmd (fun s => request s q) s) (hcl : Client s q tr z .owner)
    (hlong : longRuns s = false) (hp : num s 0x2000 7 ≠ 0) (hi : num s 0x2000 4 = 0) (he1 : epochOf s 1 < 0xFFFFFF) (he2 : epochOf s 2 < 0xFFFFFF) :
    Completes i s q z 10000 (heldWrite 0xCA20 4 [1] ++ [.pairSet []]) fun t => t.pers.pair = s.pers.pair ∧ OthersStand s t [] := by
  have hkeys := sameKeys_admittedIn s q tr
  have hspent : spentAny (admittedIn s q tr) [1, 2] = false := spentAny_none fun j hj => by
    rw [epochOf_congr (u := s) hkeys.epochs]
    simp only [List.mem_cons, List.not_mem_nil, or_false] at hj
    rcases hj with rfl | rfl
    · exact he1
    · exact he2
  have hown : ownWrite (admittedIn s q tr) (callerOf q tr z) 4 [1] .ok = Eff.longOp (admittedIn s q tr) 10000 [.pairSet []] [] tr.slot := by
    unfold ownWrite
    dsimp only
    rw [hspent]
    rfl
  have hchk : objectChecks (admittedIn s q tr) (callerOf q tr z) true 0xCA20 4 pairClearDesc (some (some [1])) = 0 :=
    open_checks ho hcl ⟨by decide, by decide⟩ (fun _ _ => lifecycleCheck_elsewhere (by decide)) (ownerCheck_elsewhere (by decide))
      (modeCheck_own (by decide) (fun _ => provisionFor_admittedIn hp hi) (by omega)) (by decide)
  obtain ⟨t, y, hrun, hadm, hset⟩ := client_waits (d := pairClearDesc) ho hq hexec hcl rfl ⟨by decide, by decide, rfl, by decide⟩ (fun _ => hlong) hchk (by decide) rfl rfl
    hown rfl rfl ⟨nofun, nofun⟩ (steady_admitted s q tr)
  obtain ⟨-, -, hpair, hobj⟩ := pushed_stands hset
  exact ⟨t, hrun, hadm, hpair.trans hkeys.pair, fun i' k' hk' hb _ => (hobj i' k' hk' hb).trans (getObj_admittedIn s q tr i' k')⟩

/-- Retire, and Service retire in CALDERA: nothing more is admitted (R359). -/
theorem retire_completes {k : Nat} {need : Role} (hk : (k = 5 ∧ need = .owner ∧ num s 0xD802 1 = 0) ∨ (k = 8 ∧ need = .service ∧ num s 0xD802 1 ≠ 0)) (ho : Room s)
    (hsingle : num s 0x2000 2 = 0) (hq : q = rqWrite h 0xCA20 k (leBytes 4 0x52455449)) (hexec : exec i s = coreCmd (fun s => request s q) s)
    (hcl : Client s q tr z need) (hlong : longRuns s = false) :
    Completes i s q z 10000 (heldWrite 0xCA20 k (leBytes 4 0x52455449) ++ [.retireReset]) fun t => t.seq.retiring = true ∧ t.otp = s.otp := by
  have hcase : (k = 5 ∨ k = 8) ∧ need = if k = 5 then .owner else .service := by
    rcases hk with ⟨rfl, rfl, -⟩ | ⟨rfl, rfl, -⟩
    · exact ⟨.inl rfl, rfl⟩
    · exact ⟨.inr rfl, rfl⟩
  obtain ⟨hk58, rfl⟩ := hcase
  have hfind : Dict.find 0xCA20 k = (true, some (retireDesc (if k = 5 then .owner else .service))) := by rcases hk58 with rfl | rfl <;> rfl
  have hmode : modeCheck (admittedIn s q tr) (callerOf q tr z) true 0xCA20 k (retireDesc (if k = 5 then .owner else .service)) = 0 := by
    refine modeCheck_own (by omega) (by omega) fun h => ?_
    unfold calderaOn
    rw [num_admittedIn]
    rcases hk with ⟨rfl, -⟩ | ⟨-, -, hcal⟩
    · omega
    · simpa using hcal
  have hchk : objectChecks (admittedIn s q tr) (callerOf q tr z) true 0xCA20 k (retireDesc (if k = 5 then .owner else .service)) (some (some (leBytes 4 0x52455449))) = 0 := by
    refine write_checks hcl.ready hcl.role hcl.person hsingle ?_ ⟨nofun, nofun⟩ (lifecycleCheck_elsewhere (by decide)) (ownerCheck_elsewhere (by decide)) hmode (by omega)
    rcases hk with ⟨-, -, hcal⟩ | ⟨rfl, -, -⟩
    · exact .inl hcal
    · exact .inr rfl
  obtain ⟨t, y, hrun, hadm, hset⟩ := client_holds ho hsingle hq hexec hcl hfind ⟨nofun, nofun, rfl, Nat.le_of_ble_eq_true rfl⟩ (fun _ => hlong) hchk (by omega)
    (by rcases hk58 with rfl | rfl <;> rfl) (by rcases hk58 with rfl | rfl <;> rfl) (ownWrite_retires hk58) rfl rfl ⟨nofun, nofun⟩ (steady_admitted s q tr).endOfLife
  obtain ⟨b, iq, hret⟩ := endOfLife_leaves (admittedIn s q tr)
  refine ⟨t, hrun, hadm, ?_, ?_⟩
  · refine (congrArg (fun a => a.seq.retiring) hset.rest).trans ?_
    show (endOfLife (admittedIn s q tr)).seq.retiring = true
    rw [hret]
  · exact (congrArg (fun a => a.otp) hset.rest).trans (steady_admitted s q tr).endOfLife.fuses

end

end Sys2Proof.Machine
end

section
/-! SUPPORT. The retire fuse (R359). -/

namespace Sys2Proof.Machine

/-- The objects that a Retire left to its release are written before the fuse is blown (R23, R359). -/
def earlyActs (x : Slot) : List Act := x.acts.filter fun a => decide (a ≠ .retireReset)

theorem earlyActs_values {x : Slot} {s : State} (hx : ∃ key w, x.acts = [.setObj key w, .retireReset] ∨ x.acts = [.retireReset]) :
    ValuesOnly s ((earlyActs x).foldl (runAct x) s) := by
  obtain ⟨key, w, h | h⟩ := hx
  · have hacts : earlyActs x = [.setObj key w] := by
      unfold earlyActs
      rw [h]
      rfl
    rw [hacts]
    exact setObj_dict s _ _ _
  · have hacts : earlyActs x = [] := by
      unfold earlyActs
      rw [h]
      rfl
    rw [hacts]
    exact ⟨_, _, _, rfl⟩

theorem foldl_earlyActs {s : State} {xs : List Slot} (h : ∀ x ∈ xs, ∃ key w, x.acts = [.setObj key w, .retireReset] ∨ x.acts = [.retireReset]) :
    ValuesOnly s (xs.foldl (fun t x => (earlyActs x).foldl (runAct x) t) s) := by
  induction xs generalizing s with
  | nil => exact ⟨_, _, _, rfl⟩
  | cons x xs ih => exact (earlyActs_values (h x List.mem_cons_self)).trans (ih fun y hy => h y (List.mem_cons_of_mem _ hy))

/-- The fuse is blown, and the release of the Retire only resets. -/
def fuseBlown (t : State) : State := { t with otp := { t.otp with retired := true }, slots := t.slots.map fun x => { x with acts := [.retireReset] } }

/-- The fuse is blown when every other admission has been released (R359). -/
theorem retireFuseBlow_blows {a : State} (hr : a.seq.retiring = true) (hpow : a.seq.failing = false) (hcalm : a.tem.resp = none)
    (hs : ∀ x ∈ a.slots, ∃ key w, x.acts = [.setObj key w, .retireReset] ∨ x.acts = [.retireReset]) :
    ∃ t, exec .retireFuseBlow a = .next t ∧ t.otp = { a.otp with retired := true } ∧ (∀ x ∈ t.slots, x.acts = [.retireReset]) := by
  have hall : a.slots.all Bt.isRetire = true := List.all_eq_true.mpr fun x hx => by
    obtain ⟨key, w, h | h⟩ := hs x hx <;> (unfold Bt.isRetire; rw [h]; rfl)
  have hheld : Bt.commitsHeld a = false := by
    unfold Bt.commitsHeld
    rw [hpow, hcalm]
    rfl
  obtain ⟨d, p, l, hfold⟩ := foldl_earlyActs (s := a) hs
  have hblow : Bt.fuseBlow a = fuseBlown (a.slots.foldl (fun t x => (earlyActs x).foldl (runAct x) t) a) := by
    unfold Bt.fuseBlow
    rw [if_pos ⟨hr, by rw [hheld]; rfl, hall⟩]
    rfl
  rw [hfold] at hblow
  refine ⟨{ Bt.fuseBlow a with pending := a.pending, otp := Otp.burn a.otp (Bt.fuseBlow a).otp }, rfl, ?_, ?_⟩
  · rw [hblow]
    unfold Otp.burn fuseBlown
    rw [if_neg fun h => absurd (h.1.symm.trans h.2) (by decide), Bool.or_true, max_self]
  · rw [hblow]
    intro x hx
    obtain ⟨y, -, rfl⟩ := List.mem_map.mp hx
    rfl

end Sys2Proof.Machine
end

section
/-! SUPPORT. Attestation (R361 to R365). -/

namespace Sys2Proof.Machine

def attestDesc : Desc := ⟨.octets, 24, .rwx, .any, false, false, .oct (zeros 24)⟩

/-- A report authenticated by the CMAC of node n (R363). -/
def attestMac (u : State) (n w : Nat) (chal : Bytes) (origin : Nat) : Eff :=
  { Eff.ok (claimMasks (warm u n) 18) 10 with
    acts := [.attestReport origin (reportBody u w chal ++ cmac (nodeKey u n) ([0x41] ++ serialBytes ++ reportBody u w chal))], work := .attest, nodes := [n] }

/-- The identity signature of a report, where a candidate is accepted (R297, R363). -/
def identitySign (u : State) (b : Bytes) : Option Bytes := Dsa.sign (Dsa.keyGen ((nodeKey u 0x14).take 32)) (ascii "FL2820-ATT") (serialBytes ++ b) (zeros 32)

/-- The state after the work of an identity signature. -/
def attestWork (u : State) : State := claimMasks (warm (blind u 12 (blindBytes 7)) 0x14) 18

/-- A report signed by the identity key (R363). -/
def attestSign (u : State) (b : Bytes) (origin : Nat) : Option Bytes → Eff
  | none => Eff.fail (attestWork u) 1500 Abt.resultCheck
  | some x => { Eff.ok (count (attestWork u) 5 3 1) 1500 with acts := [.attestReport origin (b ++ x)], work := .attest, nodes := [0x14] }

theorem worksOnly_attestWork (u : State) : WorksOnly u (attestWork u) := ((worksOnly_blind _ _ _).trans (worksOnly_warm _ _)).trans (worksOnly_claimMasks _ _)

theorem worksOnly_attestSign (u : State) (b : Bytes) (origin : Nat) (o : Option Bytes) : WorksOnly u (attestSign u b origin o).s := by
  cases o with
  | none => exact worksOnly_attestWork u
  | some x => exact (worksOnly_attestWork u).trans (worksOnly_count (attestWork u) 5 3 1)

/-- The value of an Attest: the handle, whether the identity key signs, and the challenge (R361). -/
def attestValue (w : Word) (signed : Bool) (chal : Bytes) : Bytes := leBytes 4 w.toNat ++ [if signed then 1 else 0, 0, 0, 0] ++ chal

theorem attestValue_fields (w : Word) (signed : Bool) (chal : Bytes) :
    leNat ((attestValue w signed chal).take 4) = w.toNat ∧ ((attestValue w signed chal).getD 4 0).toNat = (if signed then 1 else 0) ∧
      leNat (((attestValue w signed chal).drop 5).take 3) = 0 ∧ (attestValue w signed chal).drop 8 = chal := by
  have h4 : (leBytes 4 w.toNat).length = 4 := leBytes_length 4 _
  unfold attestValue
  refine ⟨?_, ?_, ?_, ?_⟩
  · rw [List.append_assoc, List.take_left' h4]
    exact leNat_leBytes 4 _ w.isLt
  · rw [List.append_assoc, List.getD_append_right _ _ _ _ (by omega), h4]
    cases signed <;> rfl
  · rw [List.append_assoc, List.drop_append, h4, List.drop_eq_nil_of_le (by omega)]
    rfl
  · rw [List.append_assoc, List.drop_append, h4, List.drop_eq_nil_of_le (by omega)]
    rfl

section
variable {s : State} {h : Hdr} {tr : Trailer} {z : Session} {q : Rq} {i : Instr} {u : State} {w : Word} {chal : Bytes} {origin n : Nat} {x : Node}

theorem attestOp_mac (hs : sheafOn u = false) (hn : nodeByHandle u w.toNat = some n) (hlive : live u n = true) (hx : nodeOf u n = some x) (hkind : x.kind = 0x16)
    (hbit : bit x.attrs 3 = true) (hf : cipherFault u .ok = 0) : attestOp u (attestValue w false chal) origin .ok = attestMac u n w.toNat chal origin := by
  obtain ⟨h1, h2, h3, h4⟩ := attestValue_fields w false chal
  have hmod : w.toNat % 0x10000 = n := by
    unfold nodeByHandle at hn
    dsimp only at hn
    split at hn
    · exact Option.some.inj hn
    · cases hn
  unfold attestOp
  rw [h1, h2, h3, h4]
  dsimp only
  rw [if_neg (by simp), hs]
  simp only [hn, hlive, hx, hkind, hbit, hf, hmod, Bool.false_eq_true, Bool.not_true, false_and, and_self, ↓reduceIte, ne_eq]
  rfl

theorem attestOp_sign (hs : sheafOn u = false) (hf : unitsFault u .ok ⟨true, false, 2⟩ true = 0) :
    attestOp u (attestValue 0 true chal) origin .ok = attestSign u (reportBody u 0 chal) origin (identitySign u (reportBody u 0 chal)) := by
  obtain ⟨h1, h2, h3, h4⟩ := attestValue_fields 0 true chal
  have h1 : leNat ((attestValue 0 true chal).take 4) = 0 := h1
  unfold attestOp identitySign
  rw [h1, h2, h3, h4]
  dsimp only
  rw [if_neg (by simp), hs]
  simp only [hf, Bool.false_eq_true, false_and, ↓reduceIte, ne_eq]
  cases Dsa.sign (Dsa.keyGen ((nodeKey u 0x14).take 32)) (ascii "FL2820-ATT") (serialBytes ++ reportBody u 0 chal) (zeros 32) <;> rfl

theorem writeValue_attest (u : State) (c : Ctx) (v : Bytes) : writeValue u c 0xCA10 1 attestDesc v .ok = attestOp u v c.origin .ok := rfl

/-- The checks of a write of Attest. -/
theorem attest_checks {v : Bytes} (ho : Open s) (hcl : Client s q tr z .any) :
    objectChecks (admittedIn s q tr) (callerOf q tr z) true 0xCA10 1 attestDesc (some (some v)) = 0 :=
  open_checks ho hcl ⟨nofun, nofun⟩ (fun _ _ => lifecycleCheck_elsewhere (by decide)) (ownerCheck_elsewhere (by decide))
    (modeCheck_elsewhere (sheafOn_admittedIn ho.single q) (by decide) (by decide) (by decide)) (by decide)

theorem attestValue_length (hchal : chal.length = 16) (b : Bool) : (attestValue w b chal).length = 24 := by
  unfold attestValue
  simp [leBytes_length, hchal]

/-- An Attest by a live MAC node (R363). -/
theorem attest_completes (ho : Open s) (hq : q = rqWrite h 0xCA10 1 (attestValue w false chal)) (hexec : exec i s = coreCmd (fun s => request s q) s)
    (hcl : Client s q tr z .any) (hchal : chal.length = 16) (hn : nodeByHandle s w.toNat = some n) (hlive : live s n = true) (hx : nodeOf s n = some x)
    (hkind : x.kind = 0x16) (hbit : bit x.attrs 3 = true) :
    Completes i s q z 10 [.attestReport q.origin (reportBody (admittedIn s q tr) w.toNat chal ++ cmac (nodeKey s n) ([0x41] ++ serialBytes ++ reportBody (admittedIn s q tr) w.toNat chal))]
      fun t => OthersStand s t [(0xCA10, 1)] := by
  obtain ⟨hhandle, hnode, -, halive, -⟩ := nodes_admittedIn s q tr
  have hw : writeValue (admittedIn s q tr) (callerOf q tr z) 0xCA10 1 attestDesc (attestValue w false chal) .ok = attestMac (admittedIn s q tr) n w.toNat chal q.origin :=
    (writeValue_attest _ _ _).trans <| attestOp_mac (sheafOn_admittedIn ho.single q) ((hhandle _).trans hn) ((halive _).trans hlive) ((hnode _).trans hx) hkind hbit (cipherFault_admittedIn hcl.ready)
  have hwork : WorksOnly (admittedIn s q tr) (attestMac (admittedIn s q tr) n w.toNat chal q.origin).s := (worksOnly_warm _ _).trans (worksOnly_claimMasks _ _)
  obtain ⟨t, hrun, hadm, hwr⟩ := client_accepts (d := attestDesc) ho hq hexec hcl rfl ⟨nofun, nofun, attestValue_length hchal _, Nat.le_refl 24⟩ nofun (attest_checks ho hcl)
    (by decide) (by decide) rfl rfl hw rfl rfl (hwork.steady (steady_admitted s q tr))
  rw [← (sameKeys_admittedIn s q tr).nodeKey]
  refine ⟨t, hrun, hadm, fun i' k' hk' hb hx' => ?_⟩
  rw [hwr.objects i' k' hk' hb fun he => hx' (by rw [he]; exact List.mem_singleton_self _), hwork]
  exact getObj_admittedIn s q tr i' k'

/-- An Attest under the identity signature, or its end with ABT_RESULT_CHECK (R297, R363). -/
theorem attestSigned_admits {b : Bytes} (ho : Open s) (hq : q = rqWrite h 0xCA10 1 (attestValue 0 true chal)) (hexec : exec i s = coreCmd (fun s => request s q) s)
    (hcl : Client s q tr z .any) (hchal : chal.length = 16) (hcore : num s 0xCF38 3 = 0) (hb : b = reportBody (admittedIn s q tr) 0 chal) :
    ∃ t, exec i s = .next t ∧ OthersStand s t [(0xCA10, 1)] ∧
      Admitted s t q (some z) 1500 (if (identitySign s b).isSome then 0 else Abt.resultCheck) [] ((identitySign s b).elim [] fun x => [.attestReport q.origin (b ++ x)]) := by
  have hfault : unitsFault (admittedIn s q tr) .ok ⟨true, false, 2⟩ true = 0 := unitsFault_sign rfl
    (by obtain ⟨hh, b, n, f, e⟩ := admittedIn_cases s q tr; rw [e]; exact hcl.ready.source) (by rw [num_admittedIn]; exact hcl.ready.entropy)
    (by rw [num_admittedIn]; exact hcl.ready.lane) (fun h => by cases h) (by rw [num_admittedIn, hcore])
  have hsig : identitySign (admittedIn s q tr) b = identitySign s b := by
    unfold identitySign
    rw [(sameKeys_admittedIn s q tr).nodeKey]
  have hw : writeValue (admittedIn s q tr) (callerOf q tr z) 0xCA10 1 attestDesc (attestValue 0 true chal) .ok = attestSign (admittedIn s q tr) b q.origin (identitySign s b) := by
    rw [← hsig, hb]
    exact (writeValue_attest _ _ _).trans <| attestOp_sign (sheafOn_admittedIn ho.single q) hfault
  have hwork := worksOnly_attestSign (admittedIn s q tr) b q.origin (identitySign s b)
  have hsteady := hwork.steady (steady_admitted s q tr)
  have hobj : ∀ i k, getObj (attestSign (admittedIn s q tr) b q.origin (identitySign s b)).s i k = getObj s i k := fun i k =>
    (hwork.stands.2.2 i k).trans (getObj_admittedIn s q tr i k)
  cases ho' : identitySign s b with
  | none =>
    rw [ho'] at hw hsteady hobj
    have hperf : performWrite (admittedIn s q tr) (callerOf q tr z) 0xCA10 1 attestDesc (attestValue 0 true chal) .ok = attestSign (admittedIn s q tr) b q.origin none := by
      unfold performWrite
      rw [hw]
      dsimp only
      rw [capacity_ok (room_admitted ho.toRoom q tr) (by intro h; cases h)]
      rfl
    obtain ⟨t, D, y, hrun, hadm, hD, hset⟩ := client_faults (d := attestDesc) hq hexec hcl rfl ⟨nofun, nofun, attestValue_length hchal _, Nat.le_refl 24⟩ (attest_checks ho hcl)
      hperf hsteady
    refine ⟨t, hrun, fun i' k' hk' hb' _ => ?_, hadm⟩
    rw [hset.objects i' k' hk' hb', hD.getObj, getObj_pushSlot]
    exact hobj i' k'
  | some x =>
    rw [ho'] at hw hsteady hobj
    obtain ⟨t, hrun, hadm, hwr⟩ := client_accepts (d := attestDesc) ho hq hexec hcl rfl ⟨nofun, nofun, attestValue_length hchal _, Nat.le_refl 24⟩ nofun (attest_checks ho hcl)
      (by decide) (by decide) rfl rfl hw rfl rfl hsteady
    refine ⟨t, hrun, fun i' k' hk' hb' hx' => ?_, hadm⟩
    rw [hwr.objects i' k' hk' hb' fun he => hx' (by rw [he]; exact List.mem_singleton_self _)]
    exact hobj i' k'

end

/-- Settles O24: the pair secret and the end of life, and attestation. -/
theorem pairSecretRetirementAndAttestation : Obligations.pair_secret_retirement_and_attestation := by
  unfold Obligations.pair_secret_retirement_and_attestation
  refine ⟨fun s h tr z ho hsingle hlife hlong => ⟨fun hcal hp hi he1 he2 => ⟨?_, ?_⟩, ?_, ?_, ?_⟩, fun s h tr z w chal v b signed ho hchal hv hcl hb => ⟨?_, ?_⟩⟩
  · intro g x j y u hcl hn hlast hy hhold hlive hu
    exact pairSecret_replies (i := .pairSecret h g) ho hsingle rfl rfl hcl hlong hn hlast he1 he2 hy hhold hlive hu
  · intro hcl
    exact pairClear_completes (i := .pairSecretClear h) ⟨ho, hlife, hcl.ready.kept, hsingle, hcal⟩ rfl rfl hcl hlong hp hi he1 he2
  · intro hcal hcl
    exact retire_completes (i := .retire h) (.inl ⟨rfl, rfl, hcal⟩) ho hsingle rfl rfl hcl hlong
  · intro hcal hcl
    exact retire_completes (i := .serviceRetire h) (.inr ⟨rfl, rfl, hcal⟩) ho hsingle rfl rfl hcl hlong
  · intro a hr hpow hcalm hs
    exact retireFuseBlow_blows hr hpow hcalm hs
  · rintro n x rfl hn hlive hx hkind hbit
    subst hv hb
    exact attest_completes (i := .attest h (attestValue w false chal)) ho rfl rfl hcl hchal hn hlive hx hkind hbit
  · rintro rfl rfl hcore
    subst hv
    obtain ⟨t, hrun, hothers, hadm⟩ := attestSigned_admits (i := .attest h (attestValue 0 true chal)) ho rfl rfl hcl hchal hcore hb
    refine ⟨t, hrun, hothers, ?_⟩
    unfold identitySign at hadm
    generalize Dsa.sign (Dsa.keyGen ((nodeKey s 0x14).take 32)) (ascii "FL2820-ATT") (serialBytes ++ b) (zeros 32) = o at hadm ⊢
    cases o <;> exact hadm

end Sys2Proof.Machine
end

section
/-! SUPPORT. Create (R321, R345, R346). -/

namespace Sys2Proof.Machine

def createDesc : Desc := ⟨.octets, 44, .rwx, .owner, false, false, .oct (zeros 44)⟩

/-- The value of a Create (R345). -/
def createValue (ph : Word) (kind alg : Byte) (attrs : BitVec 16) (len : Byte) (label : Bytes) : Bytes :=
  leBytes 4 ph.toNat ++ [kind, alg] ++ leBytes 2 attrs.toNat ++ [len] ++ fitBytes 32 label ++ [0, 0, 0]

theorem fitBytes_short {n : Nat} {b : Bytes} (h : b.length ≤ n) : fitBytes n b = b ++ zeros (n - b.length) := by
  unfold fitBytes
  rw [List.take_of_length_le (by simp [zeros]; omega)]

theorem leNat_single (b : Byte) : leNat [b] = b.toNat := by
  unfold leNat
  simp [leNat]

section
variable (ph : Word) (kind alg : Byte) (attrs : BitVec 16) (len : Byte) (label : Bytes)

theorem createValue_fields (hl : label.length ≤ 32) (v : Bytes) (hv : v = createValue ph kind alg attrs len label) :
    leNat ((v.drop 0).take 4) = ph.toNat ∧ leNat ((v.drop 4).take 1) = kind.toNat ∧ leNat ((v.drop 5).take 1) = alg.toNat ∧ leNat ((v.drop 6).take 2) = attrs.toNat ∧
      leNat ((v.drop 8).take 1) = len.toNat ∧ (v.drop 9).take 32 = label ++ zeros (32 - label.length) ∧ leNat ((v.drop 41).take 3) = 0 := by
  have hfit := fitBytes_short hl
  have hlen : (label ++ zeros (32 - label.length)).length = 32 := by simp [zeros]; omega
  have h4 : leNat (leBytes 4 ph.toNat) = ph.toNat := leNat_leBytes 4 _ ph.isLt
  have h2 : leNat (leBytes 2 attrs.toNat) = attrs.toNat := leNat_leBytes 2 _ attrs.isLt
  obtain ⟨a0, a1, a2, a3, ha⟩ : ∃ a0 a1 a2 a3, leBytes 4 ph.toNat = [a0, a1, a2, a3] := ⟨_, _, _, _, rfl⟩
  obtain ⟨b0, b1, hb⟩ : ∃ b0 b1, leBytes 2 attrs.toNat = [b0, b1] := ⟨_, _, rfl⟩
  rw [ha] at h4
  rw [hb] at h2
  generalize label ++ zeros (32 - label.length) = f at hfit hlen
  have hshape : v = a0 :: a1 :: a2 :: a3 :: kind :: alg :: b0 :: b1 :: len :: (f ++ [0, 0, 0]) := by
    rw [hv]
    unfold createValue
    rw [ha, hb, hfit]
    simp
  rw [hshape]
  refine ⟨h4, leNat_single kind, leNat_single alg, h2, leNat_single len, ?_, ?_⟩
  · exact List.take_left' hlen
  · show leNat (((f ++ [0, 0, 0]).drop 32).take 3) = 0
    rw [List.drop_left' hlen]
    rfl

end

theorem attrs_small {kind alg attrs : Nat} (h : attrsAllowed kind alg attrs = true) : attrs < 256 := by
  have hclear : ∀ m, m < 256 → clearBits attrs m = 0 → attrs < 256 := fun m hm hc => by
    have hle : attrs &&& m ≤ m := Nat.and_le_right
    unfold clearBits at hc
    omega
  unfold attrsAllowed at h
  dsimp only at h
  split at h <;> simp only [Bool.and_eq_true, decide_eq_true_eq] at h
  · exact hclear 0xBF (by decide) h.2
  · exact hclear 0xC0 (by decide) h.1.2
  · exact hclear 0x80 (by decide) h.2
  · exact hclear 0x90 (by decide) h.2
  · exact hclear 0x8E (by decide) h.2
  · exact hclear 0x80 (by decide) h.2

/-- No live node below node p has this kind, algorithm and label (R346). -/
structure Unlike (u : State) (p kind alg : Nat) (label : Bytes) : Prop where
  created : ∀ q ∈ u.pers.nodes, q.2.parent = p → q.2.kind = kind → q.2.alg = alg → q.2.label = label → live u q.1 = false
  fixed : ∀ k y, fixedNode k = some y → y.parent = p → y.kind = kind → y.alg = alg → y.label = label → live u k = false

theorem Unlike.node {u : State} {p kind alg : Nat} {label : Bytes} (h : Unlike u p kind alg label) {n : Nat} {y : Node} (hn : nodeOf u n = some y)
    (hy : y.parent = p ∧ y.kind = kind ∧ y.alg = alg ∧ y.label = label) : live u n = false := by
  obtain ⟨h1, h2, h3, h4⟩ := hy
  unfold nodeOf at hn
  split at hn
  · cases hn
    exact h.fixed n _ ‹_› h1 h2 h3 h4
  · exact h.created (n, y) (SMap.mem_of_look hn) h1 h2 h3 h4

/-- What a Create asks of its value and of the tree (R345, R346). -/
structure Creatable (u : State) (ph kind alg attrs : Nat) (label : Bytes) (p : Node) (n : Nat) : Prop where
  handle : nodeByHandle u ph = some (ph % 0x10000)
  parent : nodeOf u (ph % 0x10000) = some p
  living : live u (ph % 0x10000) = true
  kindOk : kindAllowed u (ph % 0x10000) kind false = true
  attrsOk : attrsAllowed kind alg attrs = true
  unlike : Unlike u (ph % 0x10000) kind alg label
  free : freeNode u = some n

/-- The node that a Create makes (R345). -/
def createdNode (u : State) (ph kind alg attrs : Nat) (label : Bytes) (p : Node) : Node := ⟨ph % 0x10000, p.level + 1, kind, alg, attrs, label, epochOf u (ph % 0x10000)⟩

theorem createNodeOp_creates {u : State} {ph : Word} {kind alg len : Byte} {attrs : BitVec 16} {label v : Bytes} {p : Node} {n : Nat}
    (hv : v = createValue ph kind alg attrs len label) (hlen : label.length = len.toNat) (h1 : 1 ≤ len.toNat) (h32 : len.toNat ≤ 32)
    (hc : Creatable u ph.toNat kind.toNat alg.toNat attrs.toNat label p n) :
    createNodeOp u v none = (allocNode u n (createdNode u ph.toNat kind.toNat alg.toNat attrs.toNat label p), 0,
      handleOf (allocNode u n (createdNode u ph.toNat kind.toNat alg.toNat attrs.toNat label p)) n) := by
  obtain ⟨hph, hkind, halg, hattrs, hll, hfield, hrsv⟩ := createValue_fields ph kind alg attrs len label (by omega) v hv
  have hsmall := attrs_small hc.attrsOk
  have hpad : ((label ++ zeros (32 - label.length)).drop len.toNat).all (· = 0) = true := by
    rw [← hlen, List.drop_left]
    simp [zeros]
  have htake : (label ++ zeros (32 - label.length)).take len.toNat = label := by rw [← hlen, List.take_left]
  have hdup : ((fixedNumbers ++ u.pers.nodes.map fun q => q.1).any fun m => ((nodeOf u m).map fun y =>
      decide (y.parent = ph.toNat % 0x10000 ∧ y.kind = kind.toNat ∧ y.alg = alg.toNat ∧ y.label = label)).getD false && live u m) = false := by
    rw [List.any_eq_false]
    intro m _ hm
    obtain ⟨hy, hlive⟩ := Bool.and_eq_true_iff.mp hm
    cases hn : nodeOf u m with
    | none =>
      rw [hn] at hy
      cases hy
    | some y =>
      rw [hn] at hy
      rw [hc.unlike.node hn (of_decide_eq_true hy)] at hlive
      cases hlive
  have hnamed : (if len.toNat = 0 then 0x4E :: leBytes 8 u.seq.adm else label) = label := if_neg (by omega)
  unfold createNodeOp
  dsimp only
  simp only [hph, hkind, halg, hattrs, hll, hfield, hrsv]
  rw [if_neg (by rw [hpad]; simp; omega), if_neg (by omega), hc.handle, if_neg (by simp), hc.living, if_neg (by simp)]
  simp only [Option.isSome_none]
  rw [hc.kindOk, if_neg (by simp), hc.attrsOk, if_neg (by simp), htake]
  simp only [hnamed, hdup, Bool.false_eq_true, false_or, false_and, ↓reduceIte]
  rw [hc.free, hc.parent]
  rfl

/-- The sessions after a Create of session k: its created handle is w (R343). -/
def withCreated (u : State) (k w : Nat) : State := { u with sessions := u.sessions.map fun p => if p.1 = k then (p.1, { p.2 with created := w }) else p }

/-- The state after a Create of session k. -/
def created (u : State) (k n : Nat) (x : Node) : State := withCreated (allocNode u n x) k (handleOf (allocNode u n x) n)

theorem writeValue_key {u : State} {c : Ctx} {k : Nat} {d : Desc} {v : Bytes} (henc : encodingCheck d v = 0) : writeValue u c 0xCA00 k d v .ok = keyWrite u c k v .ok := by
  unfold writeValue
  dsimp only
  rw [henc]
  rfl

theorem keyWrite_creates {u : State} {c : Ctx} {k n : Nat} {v : Bytes} {x : Node} (hslot : c.slot = some k) (hc : createNodeOp u v none = (allocNode u n x, 0, handleOf (allocNode u n x) n))
    (hservice : atOrBelow u 2 (leNat ((v.drop 0).take 4) % 0x10000) = false) : keyWrite u c 1 v .ok = Eff.ok (created u k n x) 10 := by
  unfold keyWrite afterValue
  dsimp only
  rw [hc, hservice, hslot]
  rfl

/-- What a Create leaves: the node, and its handle in the session. -/
theorem created_leaves (u : State) (k n : Nat) (x : Node) : (created u k n x).pers.nodes = SMap.put u.pers.nodes n x ∧ epochOf (created u k n x) n = 0 ∧
    SMap.at' (created u k n x).pers.allocs n 0 = SMap.at' u.pers.allocs n 0 + 1 ∧ (∀ i k', getObj (created u k n x) i k' = getObj u i k') ∧
    (∀ y, SMap.look u.sessions k = some y → SMap.look (created u k n x).sessions k = some { y with created := handleOf (created u k n x) n }) := by
  refine ⟨rfl, ?_, ?_, fun _ _ => rfl, fun y hy => ?_⟩
  · exact (epochOf_writeEpoch u n 0 n).trans (if_pos rfl)
  · show SMap.at' (SMap.upd u.pers.allocs n 0 (· + 1)) n 0 = _
    unfold SMap.upd
    rw [SMap.at_put, if_pos rfl]
  · exact (SMap.look_map u.sessions k fun b => { b with created := handleOf (allocNode u n x) n }).trans (congrArg (Option.map _) hy)

theorem Steady.created {s u : State} (h : Steady s u) (k n : Nat) (x : Node) : Steady s (created u k n x) := ⟨h.adm, h.time, h.first, h.queue, h.fuses⟩

theorem handleOf_congr {a b : State} (hn : a.pers.nodes = b.pers.nodes) (hl : a.pers.allocs = b.pers.allocs) (n : Nat) : handleOf a n = handleOf b n := by
  unfold handleOf
  rw [nodeOf_congr hn, hl]

section
variable {s : State} {h : Hdr} {tr : Trailer} {z : Session} {q : Rq} {i : Instr} {g : Seg} {x : Transfer} {ph : Word} {kind alg len : Byte} {attrs : BitVec 16}
  {label v : Bytes} {p : Node} {n : Nat}

theorem Creatable.ended {k a b : Nat} {w : Nat} (hc : Creatable s w k a b label p n) : Creatable (endedIn s q tr) w k a b label p n := by
  have hkeys := sameKeys_endedIn s q tr
  have hlive : ∀ m, live (endedIn s q tr) m = live s m := liveGo_congr hkeys.nodes hkeys.epochs 4
  have hnode := fun m => nodeOf_congr hkeys.nodes m
  refine ⟨?_, (hnode _).trans hc.parent, (hlive _).trans hc.living, ?_, hc.attrsOk, ⟨fun y hy => ?_, fun m y hm => ?_⟩, ?_⟩
  · have := hc.handle
    unfold nodeByHandle at this ⊢
    dsimp only at this ⊢
    rw [handleOf_congr hkeys.nodes hkeys.allocs, hnode]
    exact this
  · have := hc.kindOk
    unfold kindAllowed at this ⊢
    rw [hnode]
    exact this
  · rw [hkeys.nodes] at hy
    rw [hlive]
    exact hc.unlike.created y hy
  · rw [hlive]
    exact hc.unlike.fixed m y hm
  · have := hc.free
    unfold freeNode at this ⊢
    rw [hkeys.nodes]
    exact this

/-- The END of a Create makes the node written, and leaves its handle in the session (R345, R346). -/
theorem create_replies (ho : Open s) (hq : q = rqSeg h 0xCA00 1 g) (hexec : exec i s = coreCmd (fun s => request s q) s) (hcl : Client s q tr z .owner)
    (hn : NextSegment s q (some tr.slot) 0xCA00 1 g x) (hlast : x.got + g.len = x.total) (hv : x.buf ++ g.data = createValue ph kind alg attrs len label)
    (hlen : label.length = len.toNat) (h1 : 1 ≤ len.toNat) (h32 : len.toNat ≤ 32) (hservice : atOrBelow s 2 (ph.toNat % 0x10000) = false)
    (hc : Creatable s ph.toNat kind.toNat alg.toNat attrs.toNat label p n) :
    Replies i s q z 10 (segReply g) [] fun t =>
      t.pers.nodes = SMap.put s.pers.nodes n (createdNode s ph.toNat kind.toNat alg.toNat attrs.toNat label p) ∧ epochOf t n = 0 ∧
        SMap.at' t.pers.allocs n 0 = SMap.at' s.pers.allocs n 0 + 1 ∧ (∃ y, SMap.look t.sessions tr.slot = some y ∧ y.created = handleOf t n) ∧ OthersStand s t [(0xCA00, 1)] := by
  have hkeys := sameKeys_endedIn s q tr
  let node := createdNode (endedIn s q tr) ph.toNat kind.toNat alg.toNat attrs.toNat label p
  have hnode : node = createdNode s ph.toNat kind.toNat alg.toNat attrs.toNat label p := by
    unfold node createdNode
    rw [epochOf_congr (u := s) hkeys.epochs]
  have hbelow : atOrBelow (endedIn s q tr) 2 (leNat (((x.buf ++ g.data).drop 0).take 4) % 0x10000) = false := by
    rw [(createValue_fields ph kind alg attrs len label (by omega) _ hv).1]
    unfold atOrBelow at hservice ⊢
    rw [belowGo_congr hkeys.nodes]
    exact hservice
  have hw : writeValue (endedIn s q tr) (callerOf q tr z) 0xCA00 1 createDesc (x.buf ++ g.data) .ok = Eff.ok (created (endedIn s q tr) tr.slot n node) 10 :=
    (writeValue_key rfl).trans (keyWrite_creates (k := tr.slot) rfl (createNodeOp_creates hv hlen h1 h32 hc.ended) hbelow)
  have hpair : roleInForce (endedIn s q tr) true 0xCA00 1 createDesc ≠ .pair := not_pairRole (sheafOn_admittedIn (tr := tr) ho.single q) ⟨z.role, hcl.role⟩
  have hsteady : Steady s (created (endedIn s q tr) tr.slot n node) := (steady_endedIn s q tr).created _ _ _
  have hmade := created_leaves (endedIn s q tr) tr.slot n node
  generalize created (endedIn s q tr) tr.slot n node = a at hw hsteady hmade
  obtain ⟨hnodes, hepoch, halloc, hobj, hsess⟩ := hmade
  have hmine := hsess _ (session_admittedIn (q := q) (tr := tr) hcl.authentic.slot)
  obtain ⟨t, y, hrun, hadm, hset⟩ := valueEnd_stores (d := createDesc) ho.toRoom hq hexec hcl rfl nofun hpair hn hlast rfl nofun (by decide) rfl rfl hw rfl rfl hsteady
  have hrest := written_rest hset
  have hnodesT : t.pers.nodes = a.pers.nodes := congrArg (fun b => b.pers.nodes) hrest
  have hallocsT : t.pers.allocs = a.pers.allocs := congrArg (fun b => b.pers.allocs) hrest
  refine ⟨t, hrun, hadm, ?_, ?_, ?_, ?_, ?_⟩
  · rw [hnodesT, hnodes, hkeys.nodes, hnode]
  · exact (written_epochs hset n).trans hepoch
  · rw [hallocsT, halloc, hkeys.allocs]
  · rw [written_sessions hset, handleOf_congr hnodesT hallocsT]
    exact ⟨_, hmine, rfl⟩
  · refine written_others hset (by decide) (fun i' k' _ _ _ => ?_) (List.mem_singleton_self _)
    exact (hobj i' k').trans (getObj_admittedIn s q tr i' k')

end

/-- Settles O21: the END of a Create makes the node written under the lowest free number. -/
theorem createAllocatesTheNodeWritten : Obligations.create_allocates_the_node_written := by
  unfold Obligations.create_allocates_the_node_written
  intro s h tr z g x kind alg len ph attrs label p n ho hcl _ _ hn hlast hv hlen h1 h32 hhandle hparent hlive hservice hkind hattrs hcreated hfixed hfree
  exact create_replies (i := .createNode h g) ho rfl rfl hcl hn hlast hv hlen h1 h32 hservice ⟨hhandle, hparent, hlive, hkind, hattrs, ⟨hcreated, hfixed⟩, hfree⟩

end Sys2Proof.Machine
end

section
/-! SUPPORT. Remove, Bump and Export (R347, R348, R352). -/

namespace Sys2Proof.Machine

def removeNodeDesc : Desc := ⟨.handle, 4, .rwx, .owner, false, false, .num 0⟩
def keyPairDesc : Desc := ⟨.octets, 8, .rwx, .owner, false, false, .oct (zeros 8)⟩

theorem belowGo_sameKeys {a b : State} (h : SameKeys a b) (x n : Nat) : atOrBelow b x n = atOrBelow a x n := belowGo_congr h.nodes x 5 n

theorem keyDomainOk_sameKeys {a b : State} (h : SameKeys a b) (o n : Nat) : keyDomainOk b o n = keyDomainOk a o n := by
  unfold keyDomainOk below
  simp only [belowGo_sameKeys h]

theorem nodeByHandle_sameKeys {a b : State} (h : SameKeys a b) (w : Nat) : nodeByHandle b w = nodeByHandle a w := by
  unfold nodeByHandle
  dsimp only
  rw [handleOf_congr h.nodes h.allocs, nodeOf_congr h.nodes]

theorem live_sameKeys {a b : State} (h : SameKeys a b) (n : Nat) : live b n = live a n := liveGo_congr h.nodes h.epochs 4 n

theorem handleOf_named {u : State} {w n : Nat} (h : nodeByHandle u w = some n) : handleOf u n = w := by
  unfold nodeByHandle at h
  dsimp only at h
  split at h
  · rename_i hw
    rw [← Option.some.inj h]
    exact hw.2.2
  · cases h

/-! Remove. -/

/-- The state without node n (R347). -/
def withoutNode (u : State) (n : Nat) : State := { u with pers := { u.pers with nodes := SMap.del u.pers.nodes n } }

theorem keyWrite_remove (u : State) (c : Ctx) (v : Bytes) :
    keyWrite u c 3 v .ok = Eff.of Lat.write (hostNodes u (leNat ((v.drop 0).take 4)) (removeNodeOp u (leNat ((v.drop 0).take 4)))) := rfl

theorem hostNodes_allowed {u : State} {w n : Nat} {r : State × Nat} (hn : nodeByHandle u w = some n) (hdom : keyDomainOk u 0 n = true) : hostNodes u w r = r := by
  unfold hostNodes
  rw [hn]
  exact if_pos hdom

theorem keyWrite_removes {u : State} {c : Ctx} {w : Word} {n : Nat} (hn : nodeByHandle u w.toNat = some n) (hdom : keyDomainOk u 0 n = true) (h100 : 0x100 ≤ n)
    (hdead : live u n = false) (hleaf : childCount u n = 0) (hfree : keySet u (fun k => decide (k % 0x10000 = n)) = false) :
    keyWrite u c 3 (leBytes 4 w.toNat) .ok = Eff.ok (withoutNode u n) 10 := by
  have hw : leNat (((leBytes 4 w.toNat).drop 0).take 4) = w.toNat := leNat_leBytes 4 _ w.isLt
  have hop : removeNodeOp u w.toNat = (withoutNode u n, 0) := by
    unfold removeNodeOp
    rw [hn]
    dsimp only
    rw [if_neg (by omega), if_neg (by simp [hdead, hleaf, hfree])]
    rfl
  rw [keyWrite_remove, hw, hop, hostNodes_allowed hn hdom]
  rfl

/-! Bump. -/

/-- The state after a bump of node n to epoch v (R329). -/
def bumped (u : State) (n v : Nat) : State := raiseEpochs (writeEpoch (afterBump u [n]) n v) []

/-- The epoch that a Bump aims at (R348). -/
def aimOf (u : State) (n target : Nat) : Nat := if target = 0 then epochOf u n + 1 else target

/-- What a Bump asks of its node and its target (R329, R348). -/
structure Bumpable (u : State) (w n target : Nat) (x : Node) : Prop where
  handle : nodeByHandle u w = some n
  node : nodeOf u n = some x
  domain : keyDomainOk u 0 n = true
  notRoot : n ≠ 3 ∧ n ≠ 5
  pair : n = 4 → u.pers.pair = none
  kind : x.kind ≠ 0x13 ∧ x.kind ≠ 0x14 ∧ x.kind ≠ 0x17
  unused : keySet u (fun k => decide (k = w)) = false
  range : if target = 0 then epochOf u n < 0xFFFFFF else epochOf u n < target ∧ target ≤ 0xFFFFFF

theorem bumped_leaves (u : State) (n v : Nat) : ∃ d p l e b1 b2 ca iq pf, bumped u n v =
    { u with dict := d, streams := (afterBump u [n]).streams, sessions := (afterBump u [n]).sessions, secrets := (afterBump u [n]).secrets, cache := ca, internal := iq, perf := pf,
             pers := { u.pers with dict := p, dlog := l, epochs := e, badCopies := b1, badEpochs := b2 } } := by
  obtain ⟨e, b1, b2, pf, hr⟩ := raiseEpochs_leaves (writeEpoch (afterBump u [n]) n v) []
  obtain ⟨d, p, l, st, se, sc, ca, iq, ha⟩ := afterBump_leaves u [n]
  refine ⟨d, p, l, e, b1, b2, ca, iq, pf, ?_⟩
  unfold bumped
  rw [hr]
  unfold writeEpoch
  rw [ha]

theorem bumpOp_bumps {u : State} {w n target : Nat} {x : Node} (h : Bumpable u w n target x) : bumpOp u w target = (bumped u n (aimOf u n target), 0) := by
  have hrange := h.range
  obtain ⟨h3, h5⟩ := h.notRoot
  obtain ⟨k13, k14, k17⟩ := h.kind
  have hnopair : ¬([n].contains 4 = true ∧ u.pers.pair.isSome = true) := by
    rintro ⟨h4, hp⟩
    rw [h.pair (by simpa [eq_comm] using h4)] at hp
    cases hp
  have hnopair' : ¬(n = 4 ∧ u.pers.pair.isSome = true ∧ spentAny u [1, 2] = true) := by
    rintro ⟨h4, hp, -⟩
    rw [h.pair h4] at hp
    cases hp
  have hwith : withPair u [n] = [n] := if_neg hnopair
  have hlose : losePair (bumped u n (aimOf u n target)) [n] = bumped u n (aimOf u n target) := by
    obtain ⟨d, p, l, e, b1, b2, ca, iq, pf, hb⟩ := bumped_leaves u n (aimOf u n target)
    unfold losePair
    rw [hb]
    exact if_neg hnopair
  have herase : ([n] : List Nat).erase n = [] := by simp
  unfold bumpOp
  rw [h.handle]
  dsimp only
  rw [h.node]
  dsimp only
  rw [if_neg (by simp [h3, h5, k13, k14, k17]), h.unused, if_neg (by decide), hwith, herase]
  by_cases ht : target = 0
  · rw [if_pos ht] at hrange
    rw [if_neg (by omega), if_neg (by omega), if_neg hnopair']
    exact congrArg (·, 0) hlose
  · rw [if_neg ht] at hrange
    rw [if_neg (by omega), if_neg (by omega), if_neg hnopair']
    exact congrArg (·, 0) hlose

theorem epochOf_bumped (u : State) (n v k : Nat) : epochOf (bumped u n v) k = if k = n then v else epochOf u k := by
  obtain ⟨d, p, l, st, se, sc, ca, iq, ha⟩ := afterBump_leaves u [n]
  have hafter : epochOf (afterBump u [n]) k = epochOf u k := epochOf_congr (by rw [ha]) k
  have hraise : epochOf (bumped u n v) k = epochOf (writeEpoch (afterBump u [n]) n v) k := epochOf_congr (by unfold bumped raiseEpochs; rw [count_pers]; rfl) k
  rw [hraise, epochOf_writeEpoch, hafter]

/-- The sessions and the streams before a bump are those that its consequences start from. -/
theorem orphanChannels_keeps (u : State) (xs : List Nat) : (orphanChannels u xs).sessions = u.sessions ∧ (orphanChannels u xs).streams = u.streams := by
  obtain ⟨d, p, l, e⟩ := orphanChannels_objects u xs
  rw [e]
  exact ⟨rfl, rfl⟩

/-- A bump orphans the sessions of the credentials at or below its node (R335). -/
theorem bumped_sessions {u : State} {n v : Nat} : ∀ p ∈ (bumped u n v).sessions, atOrBelow u n (credNode p.2.role p.2.cred) = true → p.2.orphaned = true := by
  have hs : (bumped u n v).sessions = (orphanChannels u [n]).sessions.map fun p =>
      if ([n].any fun z => atOrBelow u z (credNode p.2.role p.2.cred)) = true then (p.1, { p.2 with orphaned := true }) else p := by
    obtain ⟨d, p, l, e, b1, b2, ca, iq, pf, hb⟩ := bumped_leaves u n v
    rw [hb]
    rfl
  rw [hs]
  intro p hp hbelow
  obtain ⟨r, -, rfl⟩ := List.mem_map.mp hp
  by_cases hr : ([n].any fun z => atOrBelow u z (credNode r.2.role r.2.cred)) = true
  · rw [if_pos hr]
  · rw [if_neg hr] at hbelow
    exact absurd (by simpa using hbelow) hr

/-- A stream fails where it is active and its key is dead (R280). -/
def failedStream (p : Nat × Stream) (dead : Bool) : Nat × Stream :=
  if p.2.state = 1 ∧ dead then (p.1, { p.2 with state := 4, out := [], staged := p.2.staged ++ p.2.out }) else p

/-- The key of a stream is below one of the nodes bumped (R280, R311). -/
def streamDead (u : State) (xs : List Nat) (c : SCtx) : Bool :=
  if c.handle / 0x100000 % 16 = 8 then
    match SMap.look u.secrets (c.handle % 0x10000) with
    | some y => xs.any fun z => below u z y.source
    | none => false
  else xs.any fun z => below u z (streamNode c)

/-- A stream after a bump. -/
def bumpedStream (u : State) (xs : List Nat) (p : Nat × Stream) : Nat × Stream :=
  match p.2.ctx with
  | some c => failedStream p (streamDead u xs c)
  | none => p

theorem failedStream_ctx (p : Nat × Stream) (dead : Bool) : (failedStream p dead).2.ctx = p.2.ctx := by
  unfold failedStream
  split <;> rfl

theorem failedStream_active {p : Nat × Stream} {dead : Bool} (h : (failedStream p dead).2.state = 1) : dead = false := by
  unfold failedStream at h
  split at h
  · cases h
  · rename_i hstands
    exact Bool.eq_false_iff.mpr fun hd => hstands ⟨h, hd⟩

theorem bumped_streams_eq (u : State) (n v : Nat) : (bumped u n v).streams = u.streams.map (bumpedStream u [n]) := by
  obtain ⟨d, p, l, e, b1, b2, ca, iq, pf, hb⟩ := bumped_leaves u n v
  rw [hb, ← (orphanChannels_keeps u [n]).2]
  rfl

/-- A bump fails the streams of the nodes below its node (R280, R335). -/
theorem bumped_streams {u : State} {n v f : Nat} {y : Stream} {c : SCtx} (hy : SMap.look (bumped u n v).streams f = some y) (hc : y.ctx = some c)
    (hnode : c.handle / 0x100000 % 16 ≠ 8) (hbelow : below u n (streamNode c) = true) : y.state ≠ 1 := by
  have hmem := SMap.mem_of_look hy
  rw [bumped_streams_eq] at hmem
  obtain ⟨r, -, hr⟩ := List.mem_map.mp hmem
  obtain rfl : (bumpedStream u [n] r).2 = y := congrArg Prod.snd hr
  intro h1
  unfold bumpedStream at hc h1
  split at h1
  · rename_i c' hctx
    rw [hctx] at hc
    dsimp only at hc
    obtain rfl : c' = c := Option.some.inj (hctx.symm.trans ((failedStream_ctx _ _).symm.trans hc))
    have halive := failedStream_active h1
    unfold streamDead at halive
    rw [if_neg hnode] at halive
    simp [hbelow] at halive
  · rename_i hctx
    rw [hctx] at hc
    exact absurd (hctx.symm.trans hc) nofun

end Sys2Proof.Machine
end

section
/-! SUPPORT. Writes of the key nodes by a client (R343 to R352). -/

namespace Sys2Proof.Machine

section
variable {s : State} {h : Hdr} {tr : Trailer} {z : Session} {q : Rq} {i : Instr} {w : Word} {n : Nat} {x : Node} {u : State} {c : Ctx} {k : Nat} {d : Desc} {v : Bytes} {e : Eff}

theorem pairNumber_fields (w target : Word) :
    leNat (((leBytes 4 w.toNat ++ leBytes 4 target.toNat).drop 0).take 4) = w.toNat ∧ leNat (((leBytes 4 w.toNat ++ leBytes 4 target.toNat).drop 4).take 4) = target.toNat := by
  have h4 : ∀ w : Word, (leBytes 4 w.toNat).length = 4 := fun w => leBytes_length 4 _
  refine ⟨?_, ?_⟩
  · rw [List.drop_zero, List.take_left' (h4 w)]
    exact leNat_leBytes 4 _ w.isLt
  · rw [List.drop_left' (h4 w), List.take_of_length_le (by rw [h4])]
    exact leNat_leBytes 4 _ target.isLt

theorem keyWrite_bump (u : State) (c : Ctx) (v : Bytes) : keyWrite u c 4 v .ok =
    Eff.of Lat.write (afterValue u ((decide (leNat ((v.drop 0).take 4) % 0x10000 = 4) && sheafOn u) ||
      (decide (leNat ((v.drop 0).take 4) / 0x10000 % 16 = 1 ∨ leNat ((v.drop 4).take 4) ≠ 0) && !provisionFor u c))
      (hostNodes u (leNat ((v.drop 0).take 4)) (bumpOp u (leNat ((v.drop 0).take 4)) (leNat ((v.drop 4).take 4))))) := rfl

theorem keyWrite_bumps {target : Word} (hs : sheafOn u = false) (hp : provisionFor u c = true) (hb : Bumpable u w.toNat n target.toNat x) :
    keyWrite u c 4 (leBytes 4 w.toNat ++ leBytes 4 target.toNat) .ok = Eff.ok (bumped u n (aimOf u n target.toNat)) 10 := by
  obtain ⟨hw, ht⟩ := pairNumber_fields w target
  rw [keyWrite_bump, hw, ht, bumpOp_bumps hb, hostNodes_allowed hb.handle hb.domain, hs, hp]
  unfold afterValue
  rw [if_neg (by simp)]
  rfl

/-- The export of a node's key under a session secret (R352). -/
def exported (u : State) (n k : Nat) (b : Bytes) : Eff :=
  { Eff.ok (claimMasks (warm u n) 42) 10 with acts := [.exportResult k b], work := .output k, nodes := [n] }

theorem keyWrite_exports {secret : Word} {j : Nat} {y : Secret} (hn : nodeByHandle u w.toNat = some n) (hx : nodeOf u n = some x) (hdom : keyDomainOk u 0 n = true)
    (hy : secretByHandle u secret.toNat = some (j, y)) (hhold : c.slot = some y.holder) (hdead : y.dead = false) (hlive : live u n = true)
    (hkind : x.kind = 0x10 ∨ x.kind = 0x11 ∨ x.kind = 0x16 ∨ (x.kind = 0x12 ∧ bit x.attrs 5 = true)) (hf : cipherFault u .ok = 0) :
    keyWrite u c 5 (leBytes 4 w.toNat ++ leBytes 4 secret.toNat) .ok = exported u n y.holder (kwWrap y.key (exportPlain u n)) := by
  obtain ⟨hw, ht⟩ := pairNumber_fields w secret
  have hop : keyWrite u c 5 (leBytes 4 w.toNat ++ leBytes 4 secret.toNat) .ok =
      exportOp u (leNat (((leBytes 4 w.toNat ++ leBytes 4 secret.toNat).drop 0).take 4)) (leNat (((leBytes 4 w.toNat ++ leBytes 4 secret.toNat).drop 4).take 4)) (c.slot.getD 0xFF) .ok := rfl
  have hallowed : (decide (x.kind = 0x10 ∨ x.kind = 0x11 ∨ x.kind = 0x16) || (decide (x.kind = 0x12) && bit x.attrs 5)) = true := by
    rcases hkind with hk | hk | hk | ⟨hk, hb⟩
    · simp [hk]
    · simp [hk]
    · simp [hk]
    · simp [hk, hb]
  rw [hop, hw, ht, hhold]
  unfold exportOp
  rw [hn, hy]
  dsimp only
  rw [if_neg (by simp), hlive, if_neg (by simp [hdead]), hx]
  dsimp only
  rw [hallowed, hdom, hf]
  rfl

/-- A write of a client to an action of the key nodes whose effect stands with its admission. -/
theorem key_stores (hd : d.ty ≠ .domain ∧ d.ty ≠ .label ∧ d.acc = .rwx ∧ d.role = .owner ∧ d.longOp = false) (ho : Open s) (hq : q = rqWrite h 0xCA00 k v)
    (hexec : exec i s = coreCmd (fun s => request s q) s) (hcl : Client s q tr z .owner) (hf : Dict.find 0xCA00 k = (true, some d)) (hl : v.length = d.size ∧ d.size ≤ 24)
    (hp : num s 0x2000 7 ≠ 0) (hi : num s 0x2000 4 = 0) (hw : writeValue (admittedIn s q tr) (callerOf q tr z) 0xCA00 k d v .ok = e) (h0 : e.code = 0)
    (hg : e.acts.any stagesEffect = false) (hst : Steady s e.s) :
    ∃ t y, exec i s = .next t ∧ Admitted s t q (some z) e.lat 0 e.body e.acts ∧ Settled (pushSlot (setObj e.s 0xCA00 k (d.decode v)) y) t := by
  obtain ⟨hdom, hlab, hacc, hrole, hlong⟩ := hd
  have hmode : modeCheck (admittedIn s q tr) (callerOf q tr z) true 0xCA00 k d = 0 := by
    have hprov : provisionFor (admittedIn s q tr) (callerOf q tr z) = true := provisionFor_admittedIn hp hi
    unfold modeCheck isSendRecv
    rw [hprov]
    simp
  rw [← hrole] at hcl
  obtain ⟨t, y, a, hrun, hadm, -, hset, -⟩ := client_stores ho hq hexec hcl hf ⟨hdom, hlab, hl⟩ (by rw [hlong]; nofun)
    (open_checks ho hcl (by rw [hacc]; exact ⟨nofun, nofun⟩) (fun u hu => by unfold lifecycleCheck; simp [hu]) (ownerCheck_elsewhere (by decide)) hmode (by omega))
    (by omega) (by unfold isCarried; simp) rfl hw (by unfold accepted; rw [h0]; rfl) hg (by rw [h0]; decide) hst
  rw [h0] at hadm
  exact ⟨t, y, hrun, hadm, hset⟩

/-- Remove frees its node (R347). -/
theorem remove_completes (ho : Open s) (hq : q = rqWrite h 0xCA00 3 (leBytes 4 w.toNat)) (hexec : exec i s = coreCmd (fun s => request s q) s) (hcl : Client s q tr z .owner)
    (hp : num s 0x2000 7 ≠ 0) (hi : num s 0x2000 4 = 0) (hn : nodeByHandle s w.toNat = some n) (hdom : keyDomainOk s 0 n = true) (h100 : 0x100 ≤ n)
    (hdead : live s n = false) (hleaf : childCount s n = 0) (hfree : keySet s (fun k => decide (k % 0x10000 = n)) = false) :
    Completes i s q z 10 [] fun t => t.pers.nodes = SMap.del s.pers.nodes n ∧ t.pers.epochs = s.pers.epochs ∧ OthersStand s t [(0xCA00, 3)] := by
  have hkeys := sameKeys_admittedIn s q tr
  obtain ⟨-, -, -, -, hset⟩ := nodes_admittedIn s q tr
  have hchild : childCount (admittedIn s q tr) n = 0 := by
    unfold childCount at hleaf ⊢
    rw [hkeys.nodes]
    exact hleaf
  have hw : writeValue (admittedIn s q tr) (callerOf q tr z) 0xCA00 3 removeNodeDesc (leBytes 4 w.toNat) .ok = Eff.ok (withoutNode (admittedIn s q tr) n) 10 :=
    (writeValue_key rfl).trans <| keyWrite_removes ((nodeByHandle_sameKeys hkeys _).trans hn) ((keyDomainOk_sameKeys hkeys 0 n).trans hdom) h100
      ((live_sameKeys hkeys n).trans hdead) hchild ((hset _).trans hfree)
  obtain ⟨t, y, hrun, hadm, hset⟩ := key_stores (d := removeNodeDesc) ⟨nofun, nofun, rfl, rfl, rfl⟩ ho hq hexec hcl rfl ⟨leBytes_length 4 _, by decide⟩ hp hi hw rfl rfl
    ((steady_admitted s q tr).withPers _)
  have hrest := written_rest hset
  refine ⟨t, hrun, hadm, ?_, ?_, written_others hset (by decide) (othersStand_admittedIn s q tr _) (List.mem_singleton_self _)⟩
  · rw [← hkeys.nodes]
    exact congrArg (fun b => b.pers.nodes) hrest
  · rw [← hkeys.epochs]
    exact congrArg (fun b => b.pers.epochs) hrest

theorem Bumpable.admittedIn {k target : Nat} (hb : Bumpable s k n target x) : Bumpable (admittedIn s q tr) k n target x := by
  have hkeys := sameKeys_admittedIn s q tr
  obtain ⟨-, -, -, -, hset⟩ := nodes_admittedIn s q tr
  refine ⟨(nodeByHandle_sameKeys hkeys _).trans hb.handle, (nodeOf_congr hkeys.nodes n).trans hb.node, (keyDomainOk_sameKeys hkeys 0 n).trans hb.domain, hb.notRoot, fun h4 => ?_,
    hb.kind, (hset _).trans hb.unused, ?_⟩
  · rw [hkeys.pair]
    exact hb.pair h4
  · rw [epochOf_congr (u := s) hkeys.epochs]
    exact hb.range

/-- Bump raises the epoch of its node alone, and orphans and fails what depends on it (R329, R335, R348). -/
theorem bump_completes {target : Word} (ho : Open s) (hq : q = rqWrite h 0xCA00 4 (leBytes 4 w.toNat ++ leBytes 4 target.toNat)) (hexec : exec i s = coreCmd (fun s => request s q) s)
    (hcl : Client s q tr z .owner) (hp : num s 0x2000 7 ≠ 0) (hi : num s 0x2000 4 = 0) (hb : Bumpable s w.toNat n target.toNat x) :
    Completes i s q z 10 [] fun t => (∀ k, epochOf t k = if k = n then aimOf s n target.toNat else epochOf s k) ∧
      (∀ p ∈ t.sessions, atOrBelow s n (credNode p.2.role p.2.cred) = true → p.2.orphaned = true) ∧
      (∀ f y c, SMap.look t.streams f = some y → y.ctx = some c → c.handle / 0x100000 % 16 ≠ 8 → below s n (streamNode c) = true → y.state ≠ 1) := by
  let u := admittedIn s q tr
  let a := bumped u n (aimOf u n target.toNat)
  have hkeys : SameKeys s u := sameKeys_admittedIn s q tr
  have haim : aimOf u n target.toNat = aimOf s n target.toNat := by
    unfold aimOf
    rw [epochOf_congr (u := s) hkeys.epochs]
  have hw : writeValue u (callerOf q tr z) 0xCA00 4 keyPairDesc (leBytes 4 w.toNat ++ leBytes 4 target.toNat) .ok = Eff.ok a 10 :=
    (writeValue_key rfl).trans (keyWrite_bumps (sheafOn_admittedIn ho.single q) (provisionFor_admittedIn hp hi) hb.admittedIn)
  have hsteady : Steady s a := by
    have hu : Steady s u := steady_admitted s q tr
    obtain ⟨d, p, l, e, b1, b2, ca, iq, pf, hb⟩ := bumped_leaves u n (aimOf u n target.toNat)
    unfold a
    rw [hb]
    exact ⟨hu.adm, hu.time, hu.first, hu.queue, hu.fuses⟩
  obtain ⟨t, y, hrun, hadm, hset⟩ := key_stores (d := keyPairDesc) ⟨nofun, nofun, rfl, rfl, rfl⟩ ho hq hexec hcl rfl
    ⟨by rw [List.length_append, leBytes_length, leBytes_length]; rfl, by decide⟩ hp hi hw rfl rfl hsteady
  refine ⟨t, hrun, hadm, fun k => ?_, fun p hmem hbelow => ?_, fun f y c hy hc hnode hbelow => ?_⟩
  · rw [written_epochs hset k, show (Eff.ok a 10).s = bumped u n (aimOf u n target.toNat) from rfl, epochOf_bumped, haim, epochOf_congr (u := s) hkeys.epochs]
  · rw [written_sessions hset] at hmem
    exact bumped_sessions p hmem ((belowGo_sameKeys hkeys _ _).trans hbelow)
  · rw [show t.streams = a.streams from congrArg (fun b => b.streams) (written_rest hset)] at hy
    refine bumped_streams hy hc hnode ?_
    unfold below at hbelow ⊢
    rw [belowGo_sameKeys hkeys]
    exact hbelow

/-- Export leaves the wrapped key to the session at the release (R352). -/
theorem export_completes {secret : Word} {j : Nat} {y : Secret} (ho : Open s) (hq : q = rqWrite h 0xCA00 5 (leBytes 4 w.toNat ++ leBytes 4 secret.toNat))
    (hexec : exec i s = coreCmd (fun s => request s q) s) (hcl : Client s q tr z .owner) (hp : num s 0x2000 7 ≠ 0) (hi : num s 0x2000 4 = 0)
    (hn : nodeByHandle s w.toNat = some n) (hx : nodeOf s n = some x) (hdom : keyDomainOk s 0 n = true) (hy : secretByHandle s secret.toNat = some (j, y))
    (hhold : y.holder = tr.slot) (hdead : y.dead = false) (hlive : live s n = true)
    (hkind : x.kind = 0x10 ∨ x.kind = 0x11 ∨ x.kind = 0x16 ∨ (x.kind = 0x12 ∧ bit x.attrs 5 = true)) :
    Completes i s q z 10 [.exportResult tr.slot (kwWrap y.key (exportPlain s n))] fun t => OthersStand s t [(0xCA00, 5)] := by
  let u := admittedIn s q tr
  have hkeys : SameKeys s u := sameKeys_admittedIn s q tr
  have hsecret : secretByHandle u secret.toNat = some (j, y) := by
    rw [← hy]
    obtain ⟨hh, b, n, f, e⟩ := admittedIn_cases s q tr
    unfold u
    rw [e]
    rfl
  have hw : writeValue u (callerOf q tr z) 0xCA00 5 keyPairDesc (leBytes 4 w.toNat ++ leBytes 4 secret.toNat) .ok = exported u n y.holder (kwWrap y.key (exportPlain u n)) :=
    (writeValue_key rfl).trans (keyWrite_exports ((nodeByHandle_sameKeys hkeys _).trans hn) ((nodeOf_congr hkeys.nodes n).trans hx) ((keyDomainOk_sameKeys hkeys 0 n).trans hdom) hsecret
      (by rw [hhold]; rfl) hdead ((live_sameKeys hkeys n).trans hlive) hkind (cipherFault_admittedIn hcl.ready))
  rw [hkeys.exportPlain, hhold] at hw
  have hwork : WorksOnly u (claimMasks (warm u n) 42) := (worksOnly_warm _ _).trans (worksOnly_claimMasks _ _)
  obtain ⟨t, a, hrun, hadm, hset⟩ := key_stores (d := keyPairDesc) ⟨nofun, nofun, rfl, rfl, rfl⟩ ho hq hexec hcl rfl
    ⟨by rw [List.length_append, leBytes_length, leBytes_length]; rfl, by decide⟩ hp hi hw rfl rfl (hwork.steady (steady_admitted s q tr))
  refine ⟨t, hrun, hadm, written_others hset (by decide) (fun i' k' _ _ _ => ?_) (List.mem_singleton_self _)⟩
  exact (hwork.stands.2.2 i' k').trans (getObj_admittedIn s q tr i' k')

end

/-- Settles O22: Remove, Bump and Export act on their node alone. -/
theorem nodesRemovedBumpedAndExported : Obligations.nodes_removed_bumped_and_exported := by
  unfold Obligations.nodes_removed_bumped_and_exported
  intro s h w tr z n x ho hp hi hn hx hdom
  refine ⟨fun hcl h100 hdead hleaf hfree => ?_, fun target hcl h3 h5 h4 k13 k14 k17 hfree hrange => ?_, fun secret j y hcl hy hhold hdead hlive hkind => ?_⟩
  · exact remove_completes (i := .removeNode h w) ho rfl rfl hcl hp hi hn hdom h100 hdead hleaf hfree
  · have hzero : (target = 0) = (target.toNat = 0) := propext (BitVec.toNat_eq (y := 0#32))
    simp only [hzero] at hrange ⊢
    obtain ⟨t, hrun, hadm, hepoch, hsess, hstreams⟩ :=
      bump_completes (i := .bump h w target) ho rfl rfl hcl hp hi ⟨hn, hx, hdom, ⟨h3, h5⟩, h4, ⟨k13, k14, k17⟩, hfree, hrange⟩
    exact ⟨t, hrun, hadm, (hepoch n).trans (if_pos rfl), fun k hk => (hepoch k).trans (if_neg hk), hsess, hstreams⟩
  · obtain ⟨t, hrun, hadm, hothers⟩ := export_completes (i := .exportKey h w secret) ho rfl rfl hcl hp hi hn hx hdom hy hhold hdead hlive hkind
    have hplain : exportPlain s n = leBytes 4 w.toNat ++ leBytes 1 x.kind ++ leBytes 3 (epochOf s n) ++ fitBytes 32 (nodeKey s n) := by
      unfold exportPlain
      rw [hx, handleOf_named hn]
    rw [hplain] at hadm
    exact ⟨t, hrun, hadm, hothers⟩

end Sys2Proof.Machine
end

section
/-! SUPPORT. An acknowledgement and the Sinter log that 0xD810 shows (R492, R498). -/

namespace Sys2Proof.Machine

def ownerAckDesc : Desc := ⟨.adm64, 8, .rwx, .owner, false, false, .num 0⟩

/-- The state after an acknowledgement of x in READY (R492). -/
def acknowledged (u : State) (x : Nat) : State := updateAlarm (acknowledge u x)

theorem writeValue_acknowledge (u : State) (c : Ctx) (v : Bytes) : writeValue u c 0xD801 1 ownerAckDesc v .ok = tamperWrite u c 0xD801 1 (leNat v) := rfl

theorem acknowledge_stage (u : State) (x : Nat) : (acknowledge u x).stage = u.stage := by
  unfold acknowledge showSinter setOct
  rw [setNum_stage, setNum_stage, setObj_stage, setNum_stage]

theorem tamperWrite_acknowledges {u : State} {c : Ctx} {x : Nat} (hst : u.stage = 0x11) (h0 : x ≠ 0) (hx : x = num u 0xD800 5) :
    tamperWrite u c 0xD801 1 x = Eff.ok (acknowledged u x) 10 := by
  have hheld : leaveHeld (acknowledge u x) = (acknowledge u x, []) := by
    unfold leaveHeld
    rw [acknowledge_stage, hst]
    rfl
  unfold tamperWrite
  rw [if_pos rfl, if_neg (by rintro (h | h) <;> contradiction)]
  dsimp only
  rw [hheld]
  rfl

theorem Steady.acknowledged {s u : State} (h : Steady s u) (x : Nat) : Steady s (acknowledged u x) := by
  have hu : Steady s { u with pers := { u.pers with jour := unpin u.pers.jour x }, sinter := { u.sinter with log := [] }, tem := { u.tem with sticky := 0 } } :=
    ⟨h.adm, h.time, h.first, h.queue, h.fuses⟩
  exact ((((hu.setNum _ _ _).setObj _ _ _).setNum _ _ _).setNum _ _ _).updateAlarm

/-- An acknowledgement shows an empty Sinter log in 0xD810.03 (R492, R498). -/
theorem acknowledged_log (u : State) (x : Nat) : getObj (acknowledged u x) 0xD810 3 = .oct [] := by
  have halarm : getObj (acknowledged u x) 0xD810 3 = getObj (acknowledge u x) 0xD810 3 :=
    (((OthersStand.refl (acknowledge u x)).widen (ys := [(0xD800, 1), (0xD800, 5), (0xD800, 6)]) nofun).updateAlarm (by simp) (by simp) (by simp)) 0xD810 3
      (by decide) (by decide) (by decide)
  rw [halarm]
  unfold acknowledge showSinter setOct setNum
  rw [getObj_setObj _ _ (by decide) (by decide), if_neg (by decide), getObj_setObj _ _ (by decide) (by decide), if_neg (by decide),
    getObj_setObj _ _ (by decide) (by decide), if_pos (by decide)]
  rfl

/-- An owner acknowledgement of a client leaves the log shown empty. -/
theorem ownerAcknowledge_emptiesLog {s : State} {h : Hdr} {tr : Trailer} {z : Session} {x : BitVec 64} (ho : Open s)
    (hcl : Client s (rqWrite h 0xD801 1 (leBytes 8 x.toNat)) tr z .owner) (h0 : x.toNat ≠ 0) (hx : x.toNat = num s 0xD800 5) :
    ∃ t, exec (.ownerAcknowledge h x) s = .next t ∧ getObj t 0xD810 3 = .oct [] := by
  let q := rqWrite h 0xD801 1 (leBytes 8 x.toNat)
  let u := admittedIn s q tr
  have hst : u.stage = 0x11 := by
    obtain ⟨hh, b, n, f, e⟩ := admittedIn_cases s q tr
    unfold u
    rw [e]
    exact hcl.ready.stage
  have hw : writeValue u (callerOf q tr z) 0xD801 1 ownerAckDesc (leBytes 8 x.toNat) .ok = Eff.ok (acknowledged u x.toNat) 10 := by
    rw [writeValue_acknowledge, leNat_leBytes 8 _ x.isLt]
    exact tamperWrite_acknowledges hst h0 (by rw [num_admittedIn]; exact hx)
  obtain ⟨t, y, a, hrun, -, -, hset, -⟩ := client_stores (d := ownerAckDesc) (c := .ownerAcknowledge h x) ho rfl rfl hcl rfl ⟨by decide, by decide, leBytes_length 8 _, by decide⟩ nofun
    (open_checks ho hcl ⟨by decide, by decide⟩ (fun _ _ => lifecycleCheck_elsewhere (by decide)) (ownerCheck_elsewhere (by decide))
      (modeCheck_elsewhere (sheafOn_admittedIn ho.single _) (by decide) (by decide) (by decide)) (by decide))
    (by decide) rfl rfl hw rfl rfl ⟨nofun, nofun⟩ ((steady_admitted s q tr).acknowledged _)
  refine ⟨t, hrun, ?_⟩
  rw [settled_getObj hset (by decide) (by decide) (by decide), if_neg (by decide)]
  exact acknowledged_log u x.toNat

/-! A unit in READY whose Sinter domain logged a fire on battery: 0xD810 shows the entry, and the TAMPER record of admission 7 waits for its
acknowledgement. -/

def loggedFire : SLog := ⟨1000, 0x20, 1, 0, 5, 1, 4, 16000, true, false⟩
def pinnedRecord : JRec := ⟨2 :: (zeros 7 ++ leBytes 8 7 ++ zeros 48), true, true, true⟩
def ownerSession : Session := ⟨1, 2, 0, true, zeros 16, zeros 16, 0, 0, false, 0, [], 0, []⟩

def loggedUnit : State :=
  let s := setOct (setNum (setNum (setNum State.reset 0xD800 1 1) 0xD800 5 7) 0xD810 2 1) 0xD810 3 loggedFire.bytes
  { s with
    otp := ⟨0x5A, false, 0⟩
    stage := 0x11
    seq := { s.seq with adm := 7 }
    sinter := { s.sinter with log := [loggedFire] }
    pers := { s.pers with jour := { s.pers.jour with recs := [(0, pinnedRecord)] } }
    sessions := [(0, ownerSession)]
    cache := [⟨0x50, 1, [], []⟩] }

/-- The owner's acknowledgement of admission 7, under its right tag. -/
def ackUntagged : Hdr := ⟨1, 0, 1, 0, some ⟨0, 0, 1, []⟩, .ok⟩
def ackMac : Bytes := cmac (sessionKey loggedUnit 0 ownerSession) (0 :: (rqWrite ackUntagged 0xD801 1 (leBytes 8 (7#64).toNat)).signed)
def ackTrailer : Trailer := ⟨0, 0, 1, ackMac.take 8⟩
def ackHdr : Hdr := { ackUntagged with trailer := some ackTrailer }
def ackRq : Rq := rqWrite ackHdr 0xD801 1 (leBytes 8 (7#64).toNat)

theorem loggedUnit_open : Open loggedUnit := by
  refine ⟨⟨?_, ?_, ?_, ?_⟩, ?_, ?_, ?_, ?_⟩ <;> decide +kernel

theorem loggedUnit_ready : Ready loggedUnit := by constructor <;> decide +kernel

theorem ackRq_sound : Sound loggedUnit ackRq := by constructor <;> decide +kernel

theorem ackMac_length : ackMac.length = 16 := by decide +kernel

theorem ackTrailer_tag : ackTrailer.tag = ackMac.take 8 := by simp only [ackTrailer]

/-- The tag of a request is no part of what is signed (R119). -/
theorem signed_untagged (h : Hdr) (t : Trailer) (g : Bytes) (i k : Nat) (v : Bytes) :
    (rqWrite { h with trailer := some { t with tag := g } } i k v).signed = (rqWrite { h with trailer := some t } i k v).signed := rfl

theorem ackRq_signed : ackRq.signed = (rqWrite ackUntagged 0xD801 1 (leBytes 8 (7#64).toNat)).signed := by
  unfold ackRq ackHdr ackTrailer ackUntagged
  exact signed_untagged ⟨1, 0, 1, 0, none, .ok⟩ ⟨0, 0, 1, []⟩ (ackMac.take 8) 0xD801 1 (leBytes 8 (7#64).toNat)

theorem ackRq_authentic : Authentic loggedUnit ackRq ackTrailer ownerSession where
  toSound := ackRq_sound
  trailer := rfl
  slot := rfl
  origin := rfl
  bound := rfl
  live := rfl
  intime := Nat.zero_le _
  tag := by
    have hfit : fitBytes 8 (ackMac.take 8) = ackMac.take 8 := by simp [fitBytes, ackMac_length, zeros]
    rw [ackTrailer_tag, hfit, ackRq_signed]
    rfl
  whole := by
    rw [ackTrailer_tag, List.length_take, ackMac_length]
    rfl
  fresh := by decide
  more := by decide

theorem ackRq_client : Client loggedUnit ackRq ackTrailer ownerSession .owner := ⟨loggedUnit_ready, ackRq_authentic, rfl, nofun, .inl (by decide)⟩

/-- Refutes O31: an acknowledgement empties the Sinter log that 0xD810.03 shows, which is none of the objects said to change. -/
theorem not_tamperObjectsComplete : ¬ Obligations.tamper_objects_complete := by
  unfold Obligations.tamper_objects_complete
  intro h
  have hwaits : (7#64).toNat = num loggedUnit 0xD800 5 := by decide +kernel
  obtain ⟨hack, -⟩ := h loggedUnit ackHdr ackTrailer ownerSession loggedUnit_open.toRoom loggedUnit_open.single
  obtain ⟨t, hrun, -, -, -, -, hothers⟩ := hack 7#64 loggedUnit_open.caldera ackRq_client (by decide) hwaits
  obtain ⟨t', hrun', hlog⟩ := ownerAcknowledge_emptiesLog loggedUnit_open ackRq_client (by decide) hwaits
  obtain rfl : t = t' := by
    rw [hrun] at hrun'
    injection hrun'
  have hshown : getObj loggedUnit 0xD810 3 = .oct loggedFire.bytes := by decide +kernel
  have hstands := hothers 0xD810 3 (by decide) (by decide) (by decide)
  rw [hlog, hshown] at hstands
  exact absurd hstands (by decide)

end Sys2Proof.Machine
end

section
/-! SUPPORT. Performance counters and tagging (R557 to R566). -/

namespace Sys2Proof.Machine

/-- State t is s but for the performance counters and the tagger. -/
def PerfOnly (s t : State) : Prop := t = { s with perf := t.perf }

theorem PerfOnly.refl (s : State) : PerfOnly s s := rfl

theorem PerfOnly.trans {a b c : State} (h : PerfOnly a b) (g : PerfOnly b c) : PerfOnly a c := by
  unfold PerfOnly at *
  rw [g, h]

theorem perfOnly_zero (s : State) (b i : Nat) : PerfOnly s (perfZero s b i) := rfl

theorem PerfOnly.foldl {α : Type} {f : State → α → State} (hf : ∀ u a, PerfOnly u (f u a)) (as : List α) (s : State) : PerfOnly s (as.foldl f s) := by
  induction as generalizing s with
  | nil => exact .refl s
  | cons a as ih => exact (hf s a).trans (ih _)

theorem perfOnly_control (s : State) (b v : Nat) : PerfOnly s (Prf.control s b v) := by
  refine PerfOnly.foldl (fun u j => ?_) _ s
  split
  · exact (perfOnly_zero _ _ _).trans (perfOnly_zero _ _ _)
  · exact .refl u

/-- The other counter of a pair. -/
def mateOf (i : Nat) : Nat := if i % 2 = 0 then i + 1 else i - 1

/-- What a Clear does at counter i (R559). -/
def clearAt (ctl b v : Nat) (t : State) (i : Nat) : State :=
  if bit v i ∨ (bit ctl (8 + i / 2) ∧ bit v (mateOf i)) then perfZero t b i else t

theorem clear_eq (s : State) (b v : Nat) : Prf.clear s b v = (List.range 8).foldl (clearAt (num s (0xE000 + b) 13) b v) s := rfl

theorem perfOnly_clearAt (ctl b v : Nat) (s : State) (i : Nat) : PerfOnly s (clearAt ctl b v s i) := by
  unfold clearAt
  split
  · exact perfOnly_zero _ _ _
  · exact .refl s

theorem perfOnly_clear (s : State) (b v : Nat) : PerfOnly s (Prf.clear s b v) := PerfOnly.foldl (perfOnly_clearAt _ b v) _ s

theorem perfAt_zero (s : State) (b i j : Nat) : perfAt (perfZero s b i) b j = if j = i then 0 else perfAt s b j := by
  unfold perfAt perfZero SMap.at'
  dsimp only
  rw [SMap.look_del]
  by_cases hj : j = i
  · subst hj
    simp
  · rw [if_neg (by omega), if_neg hj]

/-- A Clear zeroes the counters that it names (R559). -/
theorem perfAt_clear (s : State) (b v : Nat) {i : Nat} (hi : i < 8) (hv : bit v i = true) : perfAt (Prf.clear s b v) b i = 0 := by
  have hkeep : ∀ ctl u j, perfAt u b i = 0 → perfAt (clearAt ctl b v u j) b i = 0 := fun ctl u j h => by
    unfold clearAt
    split
    · rw [perfAt_zero]
      split
      · rfl
      · exact h
    · exact h
  have hgo : ∀ ctl (js : List Nat) u, i ∈ js ∨ perfAt u b i = 0 → perfAt (js.foldl (clearAt ctl b v) u) b i = 0 := by
    intro ctl js
    induction js with
    | nil =>
      intro u h
      rcases h with h | h
      · cases h
      · exact h
    | cons j js ih =>
      intro u h
      refine ih _ ?_
      rcases h with h | h
      · rcases List.mem_cons.mp h with rfl | h
        · refine .inr ?_
          unfold clearAt
          rw [if_pos (.inl hv), perfAt_zero, if_pos rfl]
        · exact .inl h
      · exact .inr (hkeep _ _ _ h)
  rw [clear_eq]
  exact hgo _ _ _ (.inl (List.mem_range.mpr hi))

/-! Tagging. -/

/-- What the tagger's draw leaves: the counters, but for the interval to come, and everything but the entropy source. -/
structure Armed (s t : State) : Prop where
  rest : t = { s with perf := t.perf, rng := t.rng }
  tags : t.perf.tags = s.perf.tags

theorem armed_interval (e : Nat) : ∀ (f : Nat) {s t : State} {n : Nat}, Prf.interval s e f = some (n, t) → t = { s with rng := t.rng }
  | 0, _, _, _, h => by cases h
  | f + 1, s, t, n, h => by
    unfold Prf.interval at h
    split at h
    · cases h
    · rename_i b s1 hdraw
      have hs1 : s1 = { s with rng := s1.rng } := by
        split at hdraw
        · cases hdraw
        · unfold takeBuffer at hdraw
          dsimp only at hdraw
          split at hdraw
          · cases hdraw
          · injection hdraw with hdraw
            rw [← (Prod.mk.inj hdraw).2]
            rfl
      dsimp only at h
      split at h
      · have hrec := armed_interval e f h
        rw [hrec, hs1]
      · injection h with h
        rw [← (Prod.mk.inj h).2]
        exact hs1

theorem armed_arm (s : State) : Armed s (Prf.arm s) := by
  unfold Prf.arm
  split
  · rename_i u s1 hint
    have hs1 := armed_interval _ _ hint
    refine ⟨?_, ?_⟩
    · dsimp only
      rw [hs1]
    · dsimp only
      rw [hs1]
  · exact ⟨rfl, rfl⟩

/-- What a write of Enable leaves (R566). -/
structure Enabled (s t : State) (v : Nat) : Prop where
  rest : t = { s with perf := t.perf, rng := t.rng }
  off : v = 0 → t.perf.next = none
  on : v = 1 → num s 0xE200 1 = 0 → t.perf.tags = 0

theorem enabled_enable (s : State) (v : Nat) : Enabled s (Prf.enable s v) v := by
  unfold Prf.enable
  split
  · rename_i hv
    split
    · rename_i hon
      exact ⟨rfl, fun h => absurd (h.symm.trans hv) (by decide), fun _ h => absurd (h.symm.trans hon) (by decide)⟩
    · have h := armed_arm { s with perf := { s.perf with tags := 0 } }
      refine ⟨?_, fun h => absurd (h.symm.trans hv) (by decide), fun _ _ => h.tags⟩
      rw [h.rest]
  · rename_i hv
    exact ⟨rfl, fun _ => rfl, fun h => absurd h hv⟩

section
variable {s : State} {h : Hdr} {tr : Trailer} {z : Session} {q : Rq} {i : Instr} {b : Nat} {v : Word} {k : Nat} {d : Desc} {e : Eff}

/-- Control and Clear of a performance block. -/
def perfDesc (n : Nat) : Desc := ⟨.u32, 4, .rw, .owner, false, false, .num n⟩
def perfClearDesc : Desc := ⟨.u32, 4, .rwx, .owner, false, false, .num 0⟩
def taggingDesc : Desc := ⟨.u8, 1, .rw, .service, false, false, .num 0⟩

theorem find_control (hb : b < 14) : Dict.find (0xE000 + b) 13 = (true, some (perfDesc (2 ^ Dict.perfCount b - 1))) := by
  rw [find_perf hb]
  interval_cases b <;> rfl

theorem find_clear (hb : b < 14) : Dict.find (0xE000 + b) 15 = (true, some perfClearDesc) := by
  rw [find_perf hb]
  interval_cases b <;> rfl

/-- The counters after the end of the admission of a write: those of its effect, but for the store's. -/
theorem perfKept_stored {u a t : State} {c : Ctx} {w : Bytes} (ha : a = setObj (recorded u c k b d w e) k b (d.decode w)) (ht : Ended a t) : PerfKept e.s t := by
  have hset : PerfKept (recorded u c k b d w e) a := .of (by rw [ha, setObj_perf])
  exact ((records_recorded u c k b d w e).perf.trans hset).trans ht.perf

/-- A write of a client to an object of the performance counters or the tagger, whose effect is e. -/
theorem perf_stores {w : Bytes} (ho : Open s) (hq : q = rqWrite h k b w) (hexec : exec i s = coreCmd (fun s => request s q) s) (hcl : Client s q tr z d.role)
    (hk : 0xE000 ≤ k ∧ k < 0xE800) (hf : Dict.find k b = (true, some d)) (hl : d.ty ≠ .domain ∧ d.ty ≠ .label ∧ w.length = d.size ∧ d.size ≤ 24)
    (ha : d.acc ≠ .const ∧ d.acc ≠ .ro) (hlong : d.longOp = false) (hmode : d.role ≠ .service ∨ num s 0x2000 3 ≠ 0)
    (hw : writeValue (admittedIn s q tr) (callerOf q tr z) k b d w .ok = e) (h0 : e.code = 0) (hacts : e.acts = []) (hst : Steady s e.s) :
    ∃ t y, exec i s = .next t ∧ Admitted s t q (some z) e.lat 0 e.body [] ∧ Settled (pushSlot (setObj e.s k b (d.decode w)) y) t ∧ PerfKept e.s t := by
  have hsheaf : sheafOn (admittedIn s q tr) = false := sheafOn_admittedIn ho.single q
  have hon : num s 0x2000 3 ≠ 0 → serviceOn (admittedIn s q tr) = true := fun h => by
    unfold serviceOn modeFlag
    rw [num_admittedIn]
    simpa using h
  have hmc : modeCheck (admittedIn s q tr) (callerOf q tr z) true k b d = 0 := by
    have hservice : ¬(0xE000 ≤ k ∧ k < 0xF000 ∧ d.role = .service ∧ (!serviceOn (admittedIn s q tr)) = true) := by
      rintro ⟨-, -, hr, hoff⟩
      rcases hmode with h | h
      · exact h hr
      · rw [hon h] at hoff
        cases hoff
    have hneeds : needsProvision (admittedIn s q tr) k b = false := by
      unfold needsProvision
      simp
      omega
    unfold modeCheck isSendRecv
    rw [if_neg (by omega), if_neg (by simp; omega), if_neg hservice, if_neg (by omega), if_neg (by simp), if_neg (by omega), if_neg (by omega), hneeds, if_neg (by simp),
      if_neg (by omega)]
  obtain ⟨t, y, a, hrun, hadm, hu, hset, hend⟩ := client_stores (d := d) ho hq hexec hcl hf hl (by simp [hlong])
    (open_checks ho hcl ha (fun _ _ => lifecycleCheck_elsewhere (by omega)) (ownerCheck_elsewhere (by omega)) hmc (by omega)) (by omega)
    (by unfold isCarried; simp; omega) (by unfold isSensorSetting; simp; omega) hw (by simp [accepted, h0]) (by rw [hacts]; rfl) (by rw [h0]; decide) hst
  rw [h0, hacts] at hadm
  exact ⟨t, y, hrun, hadm, hset, perfKept_stored hu hend⟩

/-- A write of Control or Clear of block b is judged by its mask (R560). -/
theorem writeValue_perf {u : State} {c : Ctx} {w : Bytes} (hb : b < 14) (henc : encodingCheck d w = 0) : writeValue u c (0xE000 + b) k d w .ok =
    Eff.when u (if clearBits (leNat w) (if k = 13 then Prf.controlMask b else Prf.clearMask b) ≠ 0 then Abt.valueReserved else 0)
      (if k = 13 then Prf.control u b (leNat w) else Prf.clear u b (leNat w)) [] := by
  unfold writeValue
  dsimp only
  rw [henc, if_neg (by decide), if_neg (by omega), if_neg (by omega), if_neg (by omega), if_neg (by omega), if_neg (by omega), if_neg (by omega), if_neg (by omega), if_pos (by omega),
    show 0xE000 + b - 0xE000 = b by omega]

theorem PerfOnly.steady {u a : State} (hp : PerfOnly u a) (hs : Steady s u) : Steady s a := by
  rw [hp]
  exact hs.withPerf _

theorem PerfOnly.objects {u a : State} (hp : PerfOnly u a) (j l : Nat) : getObj a j l = getObj u j l := by
  rw [hp]
  rfl

/-- A Control write stores its value (R560). -/
theorem counterControl_completes (hb : b < 14) (ho : Open s) (hq : q = rqWrite h (0xE000 + b) 13 (leBytes 4 v.toNat)) (hexec : exec i s = coreCmd (fun s => request s q) s)
    (hcl : Client s q tr z .owner) (hmask : clearBits v.toNat (Prf.controlMask b) = 0) :
    Completes i s q z 10 [] fun t => num t (0xE000 + b) 13 = v.toNat ∧ OthersStand s t [(0xE000 + b, 13)] := by
  have hv : leNat (leBytes 4 v.toNat) = v.toNat := leNat_leBytes 4 _ v.isLt
  have hw : writeValue (admittedIn s q tr) (callerOf q tr z) (0xE000 + b) 13 (perfDesc (2 ^ Dict.perfCount b - 1)) (leBytes 4 v.toNat) .ok =
      Eff.ok (Prf.control (admittedIn s q tr) b v.toNat) 10 := by
    rw [writeValue_perf hb rfl, hv, if_pos rfl, if_pos rfl, hmask, if_neg (by decide)]
    rfl
  have honly := perfOnly_control (admittedIn s q tr) b v.toNat
  obtain ⟨t, y, hrun, hadm, hset, -⟩ := perf_stores (d := perfDesc (2 ^ Dict.perfCount b - 1)) ho hq hexec hcl (by omega) (find_control hb) ⟨nofun, nofun, leBytes_length 4 _, Nat.le_of_ble_eq_true rfl⟩
    ⟨nofun, nofun⟩ rfl (.inl nofun) hw rfl rfl (honly.steady (steady_admitted s q tr))
  refine ⟨t, hrun, hadm, written_num hset (by decide) (by unfold bookkeeping; simp) (by rw [find_control hb]; rfl) hv, ?_⟩
  exact written_others hset (by decide) (fun i' k' _ _ _ => (honly.objects i' k').trans (getObj_admittedIn s q tr i' k')) (List.mem_singleton_self _)

/-- A Clear write zeroes the counters that it names, but for the store's, which counts the record of the write (R559). -/
theorem counterClear_completes (hb : b < 14) (ho : Open s) (hq : q = rqWrite h (0xE000 + b) 15 (leBytes 4 v.toNat)) (hexec : exec i s = coreCmd (fun s => request s q) s)
    (hcl : Client s q tr z .owner) (hmask : clearBits v.toNat (Prf.clearMask b) = 0) :
    Completes i s q z 10 [] fun t => (b ≠ 8 → ∀ j, j < 8 → bit v.toNat j = true → perfAt t b j = 0) ∧ OthersStand s t [(0xE000 + b, 15)] := by
  have hv : leNat (leBytes 4 v.toNat) = v.toNat := leNat_leBytes 4 _ v.isLt
  have hw : writeValue (admittedIn s q tr) (callerOf q tr z) (0xE000 + b) 15 perfClearDesc (leBytes 4 v.toNat) .ok = Eff.ok (Prf.clear (admittedIn s q tr) b v.toNat) 10 := by
    rw [writeValue_perf hb rfl, hv, if_neg (show ¬(15 = 13) by decide), if_neg (show ¬(15 = 13) by decide), hmask, if_neg (by decide)]
    rfl
  have honly := perfOnly_clear (admittedIn s q tr) b v.toNat
  obtain ⟨t, y, hrun, hadm, hset, hkept⟩ := perf_stores (d := perfClearDesc) ho hq hexec hcl (by omega) (find_clear hb) ⟨nofun, nofun, leBytes_length 4 _, Nat.le_of_ble_eq_true rfl⟩
    ⟨nofun, nofun⟩ rfl (.inl nofun) hw rfl rfl (honly.steady (steady_admitted s q tr))
  refine ⟨t, hrun, hadm, fun h8 j hj hbit => (hkept.counts b j h8 hj).trans (perfAt_clear _ _ _ hj hbit), ?_⟩
  exact written_others hset (by decide) (fun i' k' _ _ _ => (honly.objects i' k').trans (getObj_admittedIn s q tr i' k')) (List.mem_singleton_self _)

/-- Enable starts or stops tagging (R566). -/
theorem taggingEnable_completes {w : Byte} (ho : Open s) (hq : q = rqWrite h 0xE200 1 [w]) (hexec : exec i s = coreCmd (fun s => request s q) s)
    (hcl : Client s q tr z .service) (hon : num s 0x2000 3 ≠ 0) (hle : w.toNat ≤ 1) :
    Completes i s q z 10 [] fun t => num t 0xE200 1 = w.toNat ∧ (w.toNat = 0 → t.perf.next = none) ∧ (w.toNat = 1 → num s 0xE200 1 = 0 → t.perf.tags = 0) ∧
      OthersStand s t [(0xE200, 1)] := by
  have hv : leNat [w] = w.toNat := leNat_single w
  have hval : ∀ u c, writeValue u c 0xE200 1 taggingDesc [w] .ok = Eff.when u (within (decide (leNat [w] ≤ 1))) (Prf.enable u (leNat [w])) [] := fun _ _ => rfl
  have hw : writeValue (admittedIn s q tr) (callerOf q tr z) 0xE200 1 taggingDesc [w] .ok = Eff.ok (Prf.enable (admittedIn s q tr) w.toNat) 10 := by
    rw [hval, hv, decide_eq_true hle]
    rfl
  have hen := enabled_enable (admittedIn s q tr) w.toNat
  have hsteady : Steady s (Prf.enable (admittedIn s q tr) w.toNat) := by
    have hu := steady_admitted s q tr
    rw [hen.rest]
    exact ⟨hu.adm, hu.time, hu.first, hu.queue, hu.fuses⟩
  obtain ⟨t, y, hrun, hadm, hset, hkept⟩ := perf_stores (d := taggingDesc) ho hq hexec hcl (by omega) rfl ⟨by decide, by decide, rfl, by decide⟩
    ⟨nofun, nofun⟩ rfl (.inr hon) hw rfl rfl hsteady
  refine ⟨t, hrun, hadm, written_num hset (by decide) (by decide) rfl hv, fun h0 => hkept.next.trans (hen.off h0), fun h1 hoff => hkept.tags.trans (hen.on h1 ?_), ?_⟩
  · rw [num_admittedIn]
    exact hoff
  · refine written_others hset (by decide) (fun i' k' _ _ _ => ?_) (List.mem_singleton_self _)
    refine Eq.trans ?_ (getObj_admittedIn s q tr i' k')
    show getObj (Prf.enable (admittedIn s q tr) w.toNat) i' k' = _
    rw [hen.rest]
    rfl

end

/-- Settles O33: Control, Clear and Enable take effect in their admissions. -/
theorem performanceObjectsComplete : Obligations.performance_objects_complete := by
  unfold Obligations.performance_objects_complete
  intro s h tr z ho
  refine ⟨fun b v hcl hmask => ?_, fun b v hcl hmask => ?_, fun v hcl hon hle => ?_⟩
  · exact counterControl_completes (i := .counterControlWrite h b v) b.isLt ho rfl rfl hcl hmask
  · exact counterClear_completes (i := .counterClear h b v) b.isLt ho rfl rfl hcl hmask
  · obtain ⟨t, hrun, hadm, hnum, hoff, hstart, hothers⟩ := taggingEnable_completes (i := .taggingEnable h v) ho rfl rfl hcl hon hle
    exact ⟨t, hrun, hadm, hnum, fun h0 => hoff (by rw [h0]; rfl), fun h1 => hstart (by rw [h1]; rfl), hothers⟩

end Sys2Proof.Machine
end

section
/-! SUPPORT. The pair's objects (R525, R533, R534, R549, R553). -/

namespace Sys2Proof.Machine

/-- The actions of the Sheaf objects: the long one, and those of one byte; and the concurrence. -/
def joinDesc : Desc := ⟨.u8, 1, .rwx, .owner, false, true, .num 0⟩
def pairActionDesc : Desc := ⟨.u8, 1, .rwx, .owner, false, false, .num 0⟩
def concurDesc : Desc := ⟨.octets, 24, .rwx, .owner, false, false, .oct (zeros 24)⟩

section
variable {s u : State} {h : Hdr} {q : Rq} {tr : Trailer} {z : Session} {k : Nat} {d : Desc} {v : Bytes}

theorem modeCheck_pairObject {c : Ctx} (hk : k ≠ 2 ∧ k ≠ 3) (hd : d.role = .owner) : modeCheck u c true 0xF000 k d = 0 := by
  have hn : needsProvision u 0xF000 k = false := by
    unfold needsProvision
    simp [hk.1, hk.2]
  have hsr : isSendRecv 0xF000 k = false := rfl
  unfold modeCheck
  rw [hn, hsr, hd]
  simp

theorem lifecycleCheck_pairObject (hl : lifecycle u = 0x5A) : lifecycleCheck u true 0xF000 k = 0 := by
  unfold lifecycleCheck
  simp [hl]

theorem writeValue_pairObject {u : State} {c : Ctx} (hk : 4 ≤ k) (henc : encodingCheck d v = 0) : writeValue u c 0xF000 k d v .ok = sheafWrite u c k v .ok := by
  have h0 : writeValue u c 0xF000 k d v .ok = if k ≤ 3 then Eff.when u (plainCheck u 0xF000 k (leNat v) v) u [] else sheafWrite u c k v .ok := by
    unfold writeValue
    dsimp only
    rw [henc]
    rfl
  rw [h0, if_neg (by omega)]

/-- In SHEAF the leader lets the owner write the pair's objects, but for a Leave of a JOINED pair, and a concurrence while the pair is suspended (R548, R553). -/
theorem pairObject_checks (hl : s.otp.lifecycle = 0x5A) (hcal : num s 0xD802 1 = 0) (hcl : Client s q tr z d.role) (hd : d.role = .owner) (ha : d.acc = .rwx)
    (hsheaf : num s 0x2000 2 = 1) (hk : k = 5 ∨ k = 6 ∨ k = 14) (h5 : k = 5 → num s 0xF000 1 ≠ 2) (h14 : k = 14 → num s 0xF000 1 ≠ 4) :
    roleInForce (admittedIn s q tr) true 0xF000 k d = .owner ∧ objectChecks (admittedIn s q tr) (callerOf q tr z) true 0xF000 k d (some (some v)) = 0 := by
  have hon : sheafOn (admittedIn s q tr) = true := by
    unfold sheafOn modeFlag
    rw [num_admittedIn, hsheaf]
    rfl
  have hlead : pairNo (admittedIn s q tr) = 0 := by
    have := hcl.ready.leads
    unfold pairNo sheafOn modeFlag at this ⊢
    rw [num_admittedIn, num_admittedIn]
    exact this
  have hjoined : joined (admittedIn s q tr) = joined s := by unfold joined; rw [num_admittedIn]
  have hstage : (admittedIn s q tr).stage = 0x11 := by
    obtain ⟨hh, b, n, f, e⟩ := admittedIn_cases s q tr
    rw [e]
    exact hcl.ready.stage
  have hrole : roleInForce (admittedIn s q tr) true 0xF000 k d = .owner := by
    unfold roleInForce
    rw [hon, hd, hjoined]
    have : ¬(k = 5 ∧ joined s = true) := fun h => h5 h.1 (by simpa [joined] using h.2)
    simp [this]
  have hgate : pairGate (admittedIn s q tr) 0xF000 k = 0 := by
    unfold pairGate
    rw [hon, num_admittedIn, hlead]
    rcases hk with rfl | rfl | rfl
    · simp [suspendExempt]
    · simp [suspendExempt]
    · simp [h14 rfl]
  have hstate : stateCheck (admittedIn s q tr) true 0xF000 k d = 0 := by
    have hc : calderaOn (admittedIn s q tr) = false := by
      unfold calderaOn
      rw [num_admittedIn, hcal]
      rfl
    unfold stateCheck
    dsimp only
    rw [if_pos rfl, hgate, hstage, hc]
    simp
  have hz : z.role = 2 := by
    have := hcl.role
    rw [hd] at this
    simpa [roleServes] using this
  have hrc : roleCheck (admittedIn s q tr) (callerOf q tr z) true 0xF000 k d (some (some v)) = 0 := by
    have hsr : isSendRecv 0xF000 k = false := rfl
    have hcode : (callerOf q tr z).role = some 2 := congrArg some hz
    have hown : ownerCheck (admittedIn s q tr) (callerOf q tr z) true 0xF000 k = 0 := ownerCheck_elsewhere (by decide)
    unfold roleCheck
    dsimp only
    rw [hrole, hsr, hcode, if_neg (by simp), if_neg (by simp), if_neg (by simp)]
    exact hown
  have hlife : lifecycle (admittedIn s q tr) = 0x5A := by
    have hfuse : (admittedIn s q tr).otp = s.otp := (steady_admitted s q tr).fuses
    unfold lifecycle
    rw [hfuse, hcl.ready.kept, hl]
    rfl
  refine ⟨hrole, ?_⟩
  unfold objectChecks
  rw [lifecycleCheck_pairObject hlife, hstate, hrc, modeCheck_pairObject (by omega) hd, show accessCheck true d = 0 by unfold accessCheck; rw [ha]; rfl]
  rfl

end

section
variable {s : State} {h : Hdr} {tr : Trailer} {z : Session} {q : Rq}

/-- Reset partner for a client of the partner (R553). -/
theorem resetPartner_completes (ho : Room s) (hl : s.otp.lifecycle = 0x5A) (hcal : num s 0xD802 1 = 0) (hq : q = rqWrite h 0xF000 6 [1]) (hcl : Client s q tr z .owner)
    (hsheaf : num s 0x2000 2 = 1) (hj : num s 0xF000 1 = 2) (hside : bit h.origin 14 = true) :
    Completes (.resetPartner h) s q z 10 [.coreReset 10] fun t => OthersStand s t [(0xF000, 6), (0xF000, 7)] := by
  obtain ⟨hrole, hchk⟩ := pairObject_checks (d := pairActionDesc) (v := [1]) hl hcal hcl rfl rfl hsheaf (.inr (.inl rfl)) nofun nofun
  have hon : sheafOn (admittedIn s q tr) = true := by
    unfold sheafOn modeFlag
    rw [num_admittedIn, hsheaf]
    rfl
  have hjoined : joined (admittedIn s q tr) = true := by
    unfold joined
    rw [num_admittedIn, hj]
    rfl
  have hhome : homeHere (admittedIn s q tr) (callerOf q tr z).origin = false := by
    have hlead : pairNo (admittedIn s q tr) = 0 := by
      have := hcl.ready.leads
      unfold pairNo sheafOn modeFlag at this ⊢
      rw [num_admittedIn, num_admittedIn]
      exact this
    have horigin : (callerOf q tr z).origin = h.origin := by rw [hq]; rfl
    unfold homeHere onFollower
    rw [hon, hlead, horigin, hside]
    simp
  have hw : writeValue (admittedIn s q tr) (callerOf q tr z) 0xF000 6 pairActionDesc [1] .ok = { Eff.ok (admittedIn s q tr) 10 with acts := [.coreReset 10] } := by
    rw [writeValue_pairObject (by decide) rfl]
    unfold sheafWrite
    dsimp only
    rw [hon, hjoined, hhome]
    rfl
  obtain ⟨t, y, -, hrun, hadm, -, hset, -⟩ := client_stores_at (d := pairActionDesc) (c := .resetPartner h) ho (by rw [hrole]; decide) hq (by rw [hq]; rfl) hcl rfl (by decide)
    (fun h => by cases h) hchk (by decide) rfl rfl hw rfl rfl ⟨nofun, nofun⟩ (steady_admitted s q tr)
  exact ⟨t, hrun, hadm, written_others hset (by decide) (othersStand_admittedIn s q tr _) (by simp)⟩

/-- The state of a unit with a concurrence more (R549). -/
def concurred (u : State) (i x : Nat) (dg : Bytes) (side : Bool) : State :=
  { u with sheaf := { u.sheaf with concur := pendingConcur u ++ [(u.seq.admTime, i, x, dg, side)] } }

/-- Concur for a PAIR action (R549). -/
theorem sheafWrite_concurs {u : State} {c : Ctx} {i : BitVec 16} {x : Byte} {dg v : Bytes} {d : Desc} (hv : v = leBytes 2 i.toNat ++ [x, 0] ++ dg ++ zeros 4)
    (hdg : dg.length = 16) (hd : Dict.find i.toNat x.toNat = (true, some d)) (hr : roleInForce u true i.toNat x.toNat d = .pair) (hroom : (pendingConcur u).length < 4) :
    sheafWrite u c 14 v .ok = Eff.ok (concurred u i.toNat x.toNat dg (onFollower c.origin)) 10 := by
  have hi : leNat (v.take 2) = i.toNat := by
    rw [hv]
    simp only [List.append_assoc]
    rw [List.take_left' (leBytes_length 2 _)]
    exact leNat_leBytes 2 _ i.isLt
  have htail : v.drop 2 = [x, 0] ++ dg ++ zeros 4 := by
    rw [hv]
    simp only [List.append_assoc]
    exact List.drop_left' (leBytes_length 2 _)
  have hx : ∀ n, v.getD (2 + n) 0 = ([x, 0] ++ dg ++ zeros 4).getD n 0 := fun n => by
    rw [← htail, List.getD_eq_getElem?_getD, List.getD_eq_getElem?_getD, List.getElem?_drop]
  have hdrop : ∀ n, v.drop (2 + n) = ([x, 0] ++ dg ++ zeros 4).drop n := fun n => by
    rw [← htail, List.drop_drop]
  have h2 : v.getD 2 0 = x := hx 0
  have h3 : v.getD 3 0 = 0 := hx 1
  have h4 : (v.drop 4).take 16 = dg := by
    rw [hdrop 2]
    exact List.take_left' hdg
  have h20 : (v.drop 20).any (· ≠ 0) = false := by
    have : v.drop 20 = zeros 4 := by
      rw [hdrop 18]
      exact List.drop_left' (by simp [hdg])
    rw [this]
    rfl
  unfold sheafWrite
  dsimp only
  rw [hi, h2, h3, h4, h20, hd]
  dsimp only
  rw [hr]
  simp only [decide_true, Bool.true_or, Bool.not_true, Bool.false_or, decide_eq_false (Nat.not_le.mpr hroom)]
  rfl

theorem Steady.concurred {u : State} (hu : Steady s u) (i x : Nat) (dg : Bytes) (side : Bool) : Steady s (concurred u i x dg side) :=
  ⟨hu.adm, hu.time, hu.first, hu.queue, hu.fuses⟩

theorem pendingConcur_admittedIn (s : State) (q : Rq) (tr : Trailer) : pendingConcur (admittedIn s q tr) = pendingConcur (number s) := by
  obtain ⟨n, f, en⟩ := number_cases s
  obtain ⟨hh, b, m, f', e⟩ := admittedIn_cases s q tr
  rw [en, e]
  rfl

theorem roleInForce_admittedIn (s : State) (q : Rq) (tr : Trailer) (w : Bool) (i k : Nat) (d : Desc) : roleInForce (admittedIn s q tr) w i k d = roleInForce s w i k d := by
  unfold roleInForce sheafOn modeFlag joined
  rw [num_admittedIn, num_admittedIn]

/-- Concur (R549). -/
theorem concur_completes {i : BitVec 16} {x : Byte} {dg v : Bytes} {d : Desc} (ho : Room s) (hl : s.otp.lifecycle = 0x5A) (hcal : num s 0xD802 1 = 0)
    (hv : v = leBytes 2 i.toNat ++ [x, 0] ++ dg ++ zeros 4) (hdg : dg.length = 16) (hq : q = rqWrite h 0xF000 14 v) (hcl : Client s q tr z .owner)
    (hsheaf : num s 0x2000 2 = 1) (hsus : num s 0xF000 1 ≠ 4) (hd : Dict.find i.toNat x.toNat = (true, some d)) (hr : roleInForce s true i.toNat x.toNat d = .pair)
    (hroom : (pendingConcur (number s)).length < 4) :
    Completes (.concur h v) s q z 10 [] fun t => t.sheaf.concur = pendingConcur (number s) ++ [(s.seq.time, i.toNat, x.toNat, dg, onFollower h.origin)] := by
  obtain ⟨hrole, hchk⟩ := pairObject_checks (d := concurDesc) (v := v) hl hcal hcl rfl rfl hsheaf (.inr (.inr rfl)) nofun fun _ => hsus
  have hu := steady_admitted s q tr
  have horigin : (callerOf q tr z).origin = h.origin := by rw [hq]; rfl
  have hlen : v.length = 24 := by
    rw [hv]
    simp [hdg, leBytes_length, zeros]
  have hw : writeValue (admittedIn s q tr) (callerOf q tr z) 0xF000 14 concurDesc v .ok =
      Eff.ok (concurred (admittedIn s q tr) i.toNat x.toNat dg (onFollower (callerOf q tr z).origin)) 10 := by
    rw [writeValue_pairObject (by decide) rfl]
    exact sheafWrite_concurs hv hdg hd (by rw [roleInForce_admittedIn, hr]) (by rw [pendingConcur_admittedIn]; exact hroom)
  obtain ⟨t, y, -, hrun, hadm, -, hset, -⟩ := client_stores_at (d := concurDesc) (c := .concur h v) ho (by rw [hrole]; decide) hq (by rw [hq]; rfl) hcl rfl
    ⟨nofun, nofun, hlen, by decide⟩ (fun h => by cases h) hchk (by decide) rfl rfl hw rfl rfl ⟨nofun, nofun⟩ (hu.concurred _ _ _ _)
  refine ⟨t, hrun, hadm, ?_⟩
  have hkept : t.sheaf.concur = _ := congrArg (fun a => a.sheaf.concur) (written_rest hset)
  refine hkept.trans ?_
  show pendingConcur (admittedIn s q tr) ++ [((admittedIn s q tr).seq.admTime, _)] = _
  rw [pendingConcur_admittedIn, hu.time, horigin]

theorem worksOnly_drawBuffer (u : State) (t n : Nat) : WorksOnly u (drawBuffer u t n).2 := by
  have htake : ∀ r, takeBuffer u t n = some r → WorksOnly u r.2 := fun r h => by
    unfold takeBuffer at h
    dsimp only at h
    split at h
    · cases h
    · cases h
      exact worksOnly_setTiller _ _ _
  unfold drawBuffer
  split
  · rename_i r hr
    split at hr
    · cases hr
    · exact htake r hr
  · exact worksOnly_drawTiller u t n

/-- What the start of a join leaves (R532, R534): HELLO alone waits for the partner, and the join runs. -/
theorem beginJoin_starts (u : State) (full : Bool) (t : Nat) (slot : Option Nat) :
    (∃ j, (beginJoin u full t slot).sheaf.join = some j ∧ j.full = full) ∧ (∃ m, (beginJoin u full t slot).sheaf.out = [m] ∧ m.head? = some 0x01) ∧
      (∀ i k, getObj (beginJoin u full t slot) i k = getObj u i k) ∧ ∀ a, Steady a u → Steady a (beginJoin u full t slot) := by
  have hwork := worksOnly_drawBuffer u 61 16
  have hget := hwork.stands.2.2
  have hst : ∀ a, Steady a u → Steady a (drawBuffer u 61 16).2 := fun a ha => hwork.steady ha
  unfold beginJoin
  dsimp only
  generalize drawBuffer u 61 16 = r at hget hst ⊢
  exact ⟨⟨_, rfl, rfl⟩, ⟨_, rfl, rfl⟩, hget, fun a ha => ⟨(hst a ha).adm, (hst a ha).time, (hst a ha).first, (hst a ha).queue, (hst a ha).fuses⟩⟩

/-- The same in the admission that starts it (R534). -/
theorem joining_starts (u : State) (full : Bool) (t : Nat) (slot : Option Nat) :
    num (joining (beginJoin u full t slot)) 0xF000 1 = 1 ∧ (∃ j, (joining (beginJoin u full t slot)).sheaf.join = some j ∧ j.full = full) ∧
      (∃ m, (joining (beginJoin u full t slot)).sheaf.out = [m] ∧ m.head? = some 0x01) ∧ OthersStand u (joining (beginJoin u full t slot)) [(0xF000, 1)] ∧
      ∀ a, Steady a u → Steady a (joining (beginJoin u full t slot)) := by
  obtain ⟨hjoin, hout, hget, hst⟩ := beginJoin_starts u full t slot
  generalize beginJoin u full t slot = w at hjoin hout hget hst ⊢
  have hsh : (joining w).sheaf = w.sheaf := setNum_sheaf _ _ _ _
  have hkeep : OthersStand u (dropPairState w) [(0xF000, 1)] := fun i k _ _ _ => hget i k
  refine ⟨num_setNum_self _ _ (by decide) rfl, by rw [hsh]; exact hjoin, by rw [hsh]; exact hout, hkeep.setNum _ (by decide) (by simp), fun a ha => ?_⟩
  have hw := hst a ha
  exact Steady.setNum (u := dropPairState w) ⟨hw.adm, hw.time, hw.first, hw.queue, hw.fuses⟩ _ _ _

/-- The effect of a Join (R533, R534). -/
def joinEffect (u : State) (c : Ctx) (full : Bool) : Eff :=
  { Eff.ok (joining (beginJoin u full u.seq.admTime (some u.seq.adm))) 2000000 with long := true, work := .output (c.slot.getD 0xFF), nodes := [0x17] }

/-- Join and its full copy (R533, R534). -/
theorem join_completes {full : Bool} {i : Instr} (ho : Room s) (hl : s.otp.lifecycle = 0x5A) (hcal : num s 0xD802 1 = 0)
    (hq : q = rqWrite h 0xF000 4 [if full then 2 else 1]) (hexec : exec i s = coreCmd (fun s => request s q) s) (hcl : Client s q tr z .owner)
    (hsingle : num s 0x2000 2 = 0) (hj : num s 0xF000 1 ≠ 2) (hsecret : num s 0xCA20 6 ≠ 0) (hserial : oct s 0xF000 3 ≠ zeros 16) (hnone : s.sheaf.join = none)
    (hlong : longRuns s = false) :
    Completes i s q z 2000000 [] fun t => num t 0xF000 1 = 1 ∧ (∃ j, t.sheaf.join = some j ∧ j.full = full) ∧ t.sheaf.out.head?.bind (·.head?) = some 0x01 ∧
      OthersStand s t [(0xF000, 1), (0xF000, 4)] := by
  have ho' : Open s := ⟨ho, hl, hcl.ready.kept, hsingle, hcal⟩
  have hlife := lifecycle_admittedIn_open (tr := tr) ho' q
  have hu := steady_admitted s q tr
  have hoct : oct (admittedIn s q tr) 0xF000 3 = oct s 0xF000 3 := by
    unfold oct
    rw [getObj_admittedIn]
  have hjoin : (admittedIn s q tr).sheaf.join = none := by
    obtain ⟨hh, b, n, f, e⟩ := admittedIn_cases s q tr
    rw [e]
    exact hnone
  have hw : writeValue (admittedIn s q tr) (callerOf q tr z) 0xF000 4 joinDesc [if full then 2 else 1] .ok = joinEffect (admittedIn s q tr) (callerOf q tr z) full := by
    have hjoined : joined (admittedIn s q tr) = false := by
      unfold joined
      rw [num_admittedIn]
      exact decide_eq_false hj
    have hn : leNat [if full then 2 else (1 : Byte)] = if full then 2 else 1 := by cases full <;> rfl
    rw [writeValue_pairObject (by decide) rfl]
    unfold sheafWrite
    dsimp only
    rw [hn, if_neg (by cases full <;> decide), if_neg (by rw [hjoined, num_admittedIn, hoct, hjoin]; simp [hsecret, hserial])]
    cases full <;> rfl
  obtain ⟨hone, ⟨j, hsome, hfull⟩, ⟨m, hout, hhead⟩, hothers, hst⟩ := joining_starts (admittedIn s q tr) full (admittedIn s q tr).seq.admTime (some (admittedIn s q tr).seq.adm)
  have hchk : objectChecks (admittedIn s q tr) (callerOf q tr z) true 0xF000 4 joinDesc (some (some [if full then 2 else 1])) = 0 :=
    write_checks (d := joinDesc) hcl.ready hcl.role hcl.person hsingle (.inl hcal) (by decide) (lifecycleCheck_pairObject hlife) (ownerCheck_elsewhere (by decide))
      (modeCheck_pairObject (by decide) rfl) (by decide)
  obtain ⟨t, y, a, hrun, hadm, ha, hset, hend⟩ := client_stores (d := joinDesc) (c := i) ho' hq hexec hcl rfl (by cases full <;> decide) (fun _ => hlong) hchk (by decide) rfl rfl
    hw rfl rfl ⟨nofun, nofun⟩ (hst s hu)
  refine ⟨t, hrun, hadm, ?_, ⟨j, ?_, hfull⟩, ?_, ?_⟩
  · exact (written_otherNum hset (by decide) (by decide) (by decide) (by decide)).trans hone
  · exact (congrArg (fun a => a.sheaf.join) (written_rest hset)).trans hsome
  · obtain ⟨l, hl'⟩ := hend.out
    have hsame : a.sheaf.out = [m] := by
      rw [ha, setObj_sheaf, (records_recorded _ _ _ _ _ _ _).sheaf]
      exact hout
    rw [hl', hsame]
    exact hhead
  · exact written_others hset (by decide) ((othersStand_admittedIn s q tr []).trans (hothers.widen (by simp)) (by simp)) (by simp)

theorem Steady.sendFrame {u : State} (hu : Steady s u) (n kind : Nat) (body : Bytes) : Steady s (sendFrame u n kind body .ok).1 := by
  have hforce : ∀ v m, Steady s v → Steady s (forceIfHigh v n m) := fun v m hv => by
    unfold forceIfHigh
    split
    · exact ⟨hv.adm, hv.time, hv.first, hv.queue, hv.fuses⟩
    · exact hv
  have hmask := (hu.warm (keyNodeOf u n)).claimMasks (frameBlocks body.length)
  have hnext := hforce _ (cnum u n 9 + 1) (hmask.setNum (0x4000 + n) (chSub (Machine.claimMasks (Machine.warm u (keyNodeOf u n)) (frameBlocks body.length)) 9) (cnum u n 9 + 1))
  have hhold : ∀ v a b c f, Steady s v → Steady s (holdFrame v a b c f) := fun v a b c f hv => ⟨hv.adm, hv.time, hv.first, hv.queue, hv.fuses⟩
  unfold Machine.sendFrame
  dsimp only
  split
  · exact hu
  split
  · exact hu
  split
  · exact hnext
  split
  · exact hnext
  · exact (hhold _ _ _ _ _ (((hnext.setNum _ _ _).count _ _ _).updChan _ _)).pushSlot _

theorem Steady.closeChannel {u : State} (hu : Steady s u) (n : Nat) : Steady s (closeChannel u n .ok) := by
  have hfrom : Steady s (closeFrom u n .ok) := by
    unfold closeFrom
    dsimp only
    split
    · exact (hu.sendFrame _ _ _).setNum _ _ _
    · exact hu.setNum _ _ _
  unfold Machine.closeChannel
  dsimp only
  split
  · exact hfrom
  · exact hu

/-- What an effect keeps that forgets the partner's digests. -/
structure Parted (s t : State) : Prop where
  adm : t.seq.adm = s.seq.adm + 1
  time : t.seq.admTime = s.seq.time
  first : t.sheaf.theirs = []
  queue : t.pending = s.pending
  fuses : t.otp = s.otp

theorem Parted.setNum {t : State} (h : Parted s t) (i k n : Nat) : Parted s (setNum t i k n) :=
  ⟨by rw [setNum_seq]; exact h.adm, by rw [setNum_seq]; exact h.time, by rw [setNum_sheaf]; exact h.first, by rw [setNum_pending]; exact h.queue,
    by rw [setNum_otp]; exact h.fuses⟩

theorem Parted.settled {t w : State} (h : Parted s t) (hs : Settled t w) : Parted s w :=
  ⟨(congrArg (fun a => a.seq.adm) hs.rest).trans h.adm, (congrArg (fun a => a.seq.admTime) hs.rest).trans h.time,
    (congrArg (fun a => a.sheaf.theirs) hs.rest).trans h.first, (congrArg (fun a => a.pending) hs.rest).trans h.queue,
    (congrArg (fun a => a.otp) hs.rest).trans h.fuses⟩

/-- What Leave leaves (R553). -/
theorem leavePair_parts {u : State} (hu : Steady s u) : Parted s (leavePair' u .ok) ∧ num (leavePair' u .ok) 0xF000 1 = 0 ∧ num (leavePair' u .ok) 0x2000 2 = 0 ∧
    (leavePair' u .ok).sheaf.join = none := by
  have hclosed : Steady s ((keyedChans u).foldl (fun t p => closeChannel t p.1 .ok) u) := Steady.foldl (fun _ p hv => hv.closeChannel p.1) _ hu
  unfold leavePair'
  dsimp only
  generalize (keyedChans u).foldl (fun t p => closeChannel t p.1 .ok) u = a at hclosed ⊢
  have hdrop : Steady s (dropPairState a) := ⟨hclosed.adm, hclosed.time, hclosed.first, hclosed.queue, hclosed.fuses⟩
  have hleft := (hdrop.setNum 0xF000 1 0).setNum 0x2000 2 0
  have hone : num (Machine.setNum (Machine.setNum (dropPairState a) 0xF000 1 0) 0x2000 2 0) 0xF000 1 = 0 := by
    rw [num_setNum _ _ (by decide) (by decide), if_neg (by decide)]
    exact num_setNum_self _ _ (by decide) rfl
  have htwo : num (Machine.setNum (Machine.setNum (dropPairState a) 0xF000 1 0) 0x2000 2 0) 0x2000 2 = 0 := num_setNum_self _ _ (by decide) rfl
  generalize Machine.setNum (Machine.setNum (dropPairState a) 0xF000 1 0) 0x2000 2 0 = w at hleft hone htwo ⊢
  have hbase : Parted s { answerRelayed w with sheaf := { w.sheaf with join := none, awaits := [], digests := [], theirs := [], owed := [], dirty := [], apart := false } } :=
    ⟨hleft.adm, hleft.time, rfl, hleft.queue, hleft.fuses⟩
  have hsame : ∀ i k, num { answerRelayed w with sheaf := { w.sheaf with join := none, awaits := [], digests := [], theirs := [], owed := [], dirty := [], apart := false } } i k = num w i k :=
    fun _ _ => rfl
  refine ⟨(hbase.setNum _ _ _).setNum _ _ _, ?_, ?_, by rw [setNum_sheaf, setNum_sheaf]⟩
  · rw [num_setNum _ _ (by decide) (by decide), if_neg (by decide), num_setNum _ _ (by decide) (by decide), if_neg (by decide), hsame, hone]
  · rw [num_setNum _ _ (by decide) (by decide), if_neg (by decide), num_setNum _ _ (by decide) (by decide), if_neg (by decide), hsame, htwo]

/-- A client's write whose effect forgets the partner's digests. -/
theorem client_parts {i k : Nat} {v : Bytes} {d : Desc} {e : Eff} {c : Instr} (hq : q = rqWrite h i k v) (hexec : exec c s = coreCmd (fun s => request s q) s)
    (hcl : Client s q tr z d.role) (hf : Dict.find i k = (true, some d)) (hl : d.ty ≠ .domain ∧ d.ty ≠ .label ∧ v.length = d.size ∧ d.size ≤ 24)
    (hchk : objectChecks (admittedIn s q tr) (callerOf q tr z) true i k d (some (some v)) = 0)
    (hw : performWrite (admittedIn s q tr) (callerOf q tr z) i k d v .ok = e)
    (hc : e.code ≠ Abt.compareFault ∧ e.code ≠ Abt.resultCheck) (hst : Parted s e.s) :
    ∃ t y, exec c s = .next t ∧ Admitted s t q (some z) e.lat e.code e.body e.acts ∧ Settled (pushSlot e.s y) t := by
  subst hq
  have hserv := (service_rqWrite hcl.authentic.sound hf hl hchk).trans (congrArg ReadOut.out hw)
  have hsvc : (rqWrite h i k v).svc = 2 := rfl
  obtain ⟨hh, b, htake⟩ := takeInput_cases s (rqWrite h i k v)
  have hperf := authentic_performs hcl.ready hcl.authentic (recordedRead_write (by simp [hsvc])) hcl.unrecorded hserv (by simp [keptOut, hsvc])
  have hid : initDiscard (takeInput s (rqWrite h i k v)) (rqWrite h i k v) = takeInput s (rqWrite h i k v) := initDiscard_same (.inr (by simp [hsvc]))
  obtain ⟨d', -, -, hgo, hset⟩ := request_runs_from_at hcl.ready hcl.authentic.toSound rfl hid (by rw [htake]) (by rw [htake]; exact hcl.authentic.here)
    (by rw [htake]; exact hcl.authentic.log) hperf hc hst.adm (by rw [hst.first]; rfl)
  refine ⟨d'.s, _, ?_, admitted_of hset hst.adm hst.time ?_, hset⟩
  · have hpend : d'.s.pending = s.pending := (congrArg (fun a => a.pending) hset.rest).trans hst.queue
    have hotp : d'.s.otp = s.otp := (congrArg (fun a => a.otp) hset.rest).trans hst.fuses
    rw [hexec]
    unfold coreCmd
    dsimp only
    rw [hgo, ← hpend, ← hotp]
  · rw [sealKey_of hcl.authentic.trailer hcl.authentic.slot]
    unfold answer
    rw [hcl.authentic.trailer]
    rfl

/-- Leave of a unit whose partner is lost (R553). -/
theorem sheafLeave_completes (ho : Room s) (hl : s.otp.lifecycle = 0x5A) (hcal : num s 0xD802 1 = 0) (hq : q = rqWrite h 0xF000 5 [1]) (hcl : Client s q tr z .owner)
    (hsheaf : num s 0x2000 2 = 1) (hj : num s 0xF000 1 ≠ 2) :
    Completes (.sheafLeave h) s q z 10 [] fun t => num t 0xF000 1 = 0 ∧ num t 0x2000 2 = 0 ∧ t.sheaf.join = none := by
  obtain ⟨hrole, hchk⟩ := pairObject_checks (d := pairActionDesc) (v := [1]) hl hcal hcl rfl rfl hsheaf (.inl rfl) (fun _ => hj) nofun
  have hon : sheafOn (admittedIn s q tr) = true := by
    unfold sheafOn modeFlag
    rw [num_admittedIn, hsheaf]
    rfl
  have hw : writeValue (admittedIn s q tr) (callerOf q tr z) 0xF000 5 pairActionDesc [1] .ok = Eff.ok (leavePair' (admittedIn s q tr) .ok) 10 := by
    rw [writeValue_pairObject (by decide) rfl]
    unfold sheafWrite
    dsimp only
    rw [hon]
    rfl
  obtain ⟨hparts, hone, htwo, hnone⟩ := leavePair_parts (steady_admitted s q tr)
  have hrec := settled_recorded (admittedIn s q tr) (callerOf q tr z) 0xF000 5 pairActionDesc [1] (Eff.ok (leavePair' (admittedIn s q tr) .ok) 10)
  have hcommit := (performWrite_commits hw rfl (capacity_ok (i := 0xF000) (d := pairActionDesc) (room_admitted ho q tr) nofun)).trans
    (commitWrite_stored (c := callerOf q tr z) (v := [1]) rfl (.inl (by rw [hrole]; decide)) (by simp) rfl rfl)
  obtain ⟨t, y, hrun, hadm, hset⟩ := client_parts (d := pairActionDesc) (c := .sheafLeave h) hq (by rw [hq]; rfl) hcl rfl (by decide) hchk hcommit ⟨nofun, nofun⟩
    ((hparts.settled hrec).setNum 0xF000 5 1)
  have hend : Settled (pushSlot (setObj (leavePair' (admittedIn s q tr) .ok) 0xF000 5 (.num 1)) y) t := ((hrec.setObj 0xF000 5 (.num 1)).push y).trans hset
  refine ⟨t, hrun, hadm, ?_, ?_, ?_⟩
  · exact (written_otherNum hend (by decide) (by decide) (by decide) (by decide)).trans hone
  · exact (written_otherNum hend (by decide) (by decide) (by decide) (by decide)).trans htwo
  · exact (congrArg (fun a => a.sheaf.join) (written_rest hend)).trans hnone

end

/-- Settles O32: a join starts with HELLO, Leave ends SHEAF, Reset partner resets this core die, Concur keeps its concurrence. -/
theorem sheafObjectsComplete : Obligations.sheaf_objects_complete := by
  unfold Obligations.sheaf_objects_complete
  intro s h tr z ho hl hcal
  refine ⟨fun full hcl hs hj hsecret hserial hnone hlong => join_completes ho hl hcal rfl ?_ hcl hs hj hsecret hserial hnone hlong,
    fun hcl hs hj => sheafLeave_completes ho hl hcal rfl hcl hs hj, fun hcl hs hj hside => resetPartner_completes ho hl hcal rfl hcl hs hj hside,
    fun i x dg d v hv hdg hcl hs hsus hd hr hroom => concur_completes ho hl hcal hv hdg rfl hcl hs hsus hd hr hroom⟩
  cases full <;> rfl

end Sys2Proof.Machine
end

section
/-! SUPPORT. The ECALL of a cell: what is left past it, and the calls that are not admitted (R429, R443, R448). -/

namespace Sys2Proof.Machine

/-- Cell x past its ECALL, before what the call makes of it. -/
def pastEcall (x : Cell) : Cell := { x with pc := x.pc + 4, retired := 0, stalled := none }

/-- State u is s but for the cells, which are m, the performance unit and the random source. -/
def OnlyCells (s u : State) (m : SMap Cell) : Prop := ∃ tw p r, u = { s with twc := tw, perf := p, rng := r } ∧ tw.cells = m

section
variable {s u : State} {m : SMap Cell}

theorem OnlyCells.refl (s : State) : OnlyCells s s s.twc.cells := ⟨s.twc, s.perf, s.rng, rfl, rfl⟩

theorem OnlyCells.cells (h : OnlyCells s u m) : u.twc.cells = m := by
  obtain ⟨tw, p, r, rfl, hm⟩ := h
  exact hm

theorem OnlyCells.tagged {w : State} (h : OnlyCells s u m) (g : Tagged u w) : OnlyCells s w m := by
  obtain ⟨tw, p, r, rfl, hm⟩ := h
  obtain ⟨p', r', rfl⟩ := g.rest
  exact ⟨tw, p', r', rfl, hm⟩

theorem OnlyCells.setCell (h : OnlyCells s u m) (c : Nat) (x : Cell) : OnlyCells s (setCell u c x) (SMap.put m c x) := by
  obtain ⟨tw, p, r, rfl, rfl⟩ := h
  exact ⟨{ tw with cells := SMap.put tw.cells c x }, p, r, rfl, rfl⟩

theorem OnlyCells.dispatch (h : OnlyCells s u m) : OnlyCells s (dispatch u) m := by
  obtain ⟨c, l, y, f, e⟩ := dispatch_cases u
  rw [e]
  obtain ⟨tw, p, r, rfl, rfl⟩ := h
  exact ⟨_, f, r, rfl, rfl⟩

theorem OnlyCells.yieldPair (h : OnlyCells s u m) : OnlyCells s (yieldPair u) m := by
  obtain ⟨tw, p, r, rfl, rfl⟩ := h
  exact OnlyCells.dispatch ⟨_, _, _, rfl, rfl⟩

theorem OnlyCells.retired (h : OnlyCells s u m) (c lat pc insn : Nat) (ecall : Bool) (y : Cell) :
    OnlyCells s (retired u c lat pc insn ecall y) (SMap.put m c { y with retired := y.retired + 1, stalled := none }) := by
  refine OnlyCells.tagged ?_ (tagged_retired u c lat pc insn ecall y)
  obtain ⟨tw, p, r, rfl, rfl⟩ := h
  exact ⟨_, p, r, rfl, rfl⟩

/-- The cells past an ECALL of cell c, which becomes y. -/
theorem past_cells (s : State) (c : Nat) (x : Cell) (f : Cell → Cell) : ∃ z, OnlyCells s (Sys.past s c x f) (SMap.put (SMap.put s.twc.cells c z) c (f (pastEcall x))) :=
  ⟨_, ((((OnlyCells.refl s).retired c 1 x.pc.toNat 0x73 true { x with pc := x.pc + 4 }).tagged (tagged_count _ 2 2 1)).setCell c (f (pastEcall x))).yieldPair⟩

/-- State u is s but for the cells, the performance unit and the random source; cell c is y, and no other cell changes. -/
structure PastEcall (s u : State) (c : Nat) (y : Cell) : Prop where
  rest : ∃ m, OnlyCells s u m
  own : SMap.look u.twc.cells c = some y
  others : ∀ k, k ≠ c → SMap.look u.twc.cells k = SMap.look s.twc.cells k
  wf : SMap.wf s.twc.cells = true → SMap.wf u.twc.cells = true

theorem past_ecall (s : State) (c : Nat) (x : Cell) (f : Cell → Cell) : PastEcall s (Sys.past s c x f) c (f (pastEcall x)) := by
  obtain ⟨z, h⟩ := past_cells s c x f
  refine ⟨⟨_, h⟩, ?_, fun k hk => ?_, fun hw => ?_⟩
  · rw [h.cells]
    exact SMap.look_put_same _ _ _
  · rw [h.cells]
    exact (SMap.look_put_other _ _ hk).trans (SMap.look_put_other _ _ hk)
  · rw [h.cells]
    exact SMap.wf_put _ _ _ (SMap.wf_put _ _ _ hw)

theorem OnlyCells.seq (h : OnlyCells s u m) : u.seq = s.seq ∧ u.slots = s.slots ∧ u.pending = s.pending ∧ u.otp = s.otp := by
  obtain ⟨tw, p, r, rfl, -⟩ := h
  exact ⟨rfl, rfl, rfl, rfl⟩

theorem OnlyCells.others (h : OnlyCells s u m) : OthersStand s u [] := by
  obtain ⟨tw, p, r, rfl, -⟩ := h
  exact fun _ _ _ _ _ => rfl

/-- A command whose meaning changes no more than the cells answers with it. -/
theorem OnlyCells.next {i : Instr} {f : State → State} {t : State} (h : OnlyCells s t m) (hexec : exec i s = coreCmd f s) (hf : f s = t) : exec i s = .next t :=
  hexec.trans (coreCmd_next hf h.seq.2.2.1 h.seq.2.2.2)

end

section
variable {s : State} {c : Fin 32} {x : Cell} {n : Nat} {a : List Nat} {want : Nat → Bool} {phys : Phys}

/-- A call that the cell at the pair makes, past what is refused before admission. -/
theorem call_submits (h : Calls s c x n a) (hn : n ≠ 6) (hw : want n = true) : Sys.call s c want phys =
    Sys.submit s (callState s c x) (Sys.past s c.val x fun y => { y with blocked := true, issued := true }) c.val x phys := by
  unfold Sys.call
  rw [h.cell]
  dsimp only
  rw [h.number, h.args, h.early, h.ecall, hw, if_neg (by simp), if_neg (by simp), if_neg hn]
  rfl

theorem call_waits (h : Calls s c x 6 a) (hw : want 6 = true) : Sys.call s c want phys = Sys.wait s c.val x a := by
  unfold Sys.call
  rw [h.cell]
  dsimp only
  rw [h.number, h.args, h.early, h.ecall, hw, if_neg (by simp), if_neg (by simp), if_pos rfl]

/-- A canonical map holds each of its entries at its key. -/
theorem SMap.look_of_mem {α : Type} {m : SMap α} {p : Nat × α} (hw : SMap.wf m = true) (h : p ∈ m) : SMap.look m p.1 = some p.2 := by
  induction m with
  | nil => cases h
  | cons q m ih =>
    obtain ⟨k, v⟩ := q
    obtain ⟨habove, hwf⟩ := (SMap.wf_cons k v m).mp hw
    rcases List.mem_cons.mp h with rfl | h
    · exact if_pos rfl
    · exact (if_neg (Nat.ne_of_lt (habove p h))).trans (ih hwf h)

theorem OnlyCells.trans {u w : State} {m m' : SMap Cell} (h : OnlyCells s u m) (g : OnlyCells u w m') : OnlyCells s w m' := by
  obtain ⟨tw, p, r, rfl, -⟩ := h
  obtain ⟨tw', p', r', rfl, hm⟩ := g
  exact ⟨tw', p', r', rfl, hm⟩

/-- Events raised in cell k change no other cell (R448). -/
theorem raiseEvents_others (u : State) (k bits : Nat) : ∃ m, OnlyCells u (raiseEvents u k bits) m ∧ ∀ j, j ≠ k → SMap.look m j = SMap.look u.twc.cells j := by
  have hput : ∀ z : Cell, ∃ m, OnlyCells u (setCell u k z) m ∧ ∀ j, j ≠ k → SMap.look m j = SMap.look u.twc.cells j := fun z =>
    ⟨_, (OnlyCells.refl u).setCell k z, fun _ hj => SMap.look_put_other _ _ hj⟩
  have hsame : ∃ m, OnlyCells u u m ∧ ∀ j, j ≠ k → SMap.look m j = SMap.look u.twc.cells j := ⟨_, OnlyCells.refl u, fun _ _ => rfl⟩
  unfold raiseEvents
  split
  · exact hsame
  split
  · exact hsame
  dsimp only
  split
  · split
    · obtain ⟨m, hm, hothers⟩ := hput _
      exact ⟨m, hm.dispatch, hothers⟩
    · exact hput _
  · exact hput _

/-- Deadlines that pass in other cells leave a cell that waits without one (R452). -/
theorem raiseDeadlines_keeps {u : State} {k mask : Nat} {y : Cell} (hw : SMap.wf u.twc.cells = true) (hy : SMap.look u.twc.cells k = some y) (hwait : y.waiting = some (mask, 0)) :
    ∃ m, OnlyCells u (raiseDeadlines u) m ∧ SMap.look m k = some y := by
  have hfold : ∀ (l : SMap Cell) (t : State), (∀ p ∈ l, p ∈ u.twc.cells) → (∃ m, OnlyCells u t m ∧ SMap.look m k = some y) →
      ∃ m, OnlyCells u (l.foldl (fun t p => match p.2.waiting with
        | some (_, d) => if d ≠ 0 ∧ d ≤ u.seq.time then raiseEvents t p.1 16 else t
        | none => t) t) m ∧ SMap.look m k = some y := by
    intro l
    induction l with
    | nil => exact fun t _ h => h
    | cons p l ih =>
      intro t hmem ht
      refine ih _ (fun q hq => hmem q (List.mem_cons_of_mem _ hq)) ?_
      dsimp only
      split
      · rename_i d hd
        split
        · rename_i hdue
          obtain ⟨m, hm, hk⟩ := ht
          have hne : k ≠ p.1 := by
            rintro rfl
            have hp := SMap.look_of_mem hw (hmem p (List.mem_cons_self ..))
            rw [hy] at hp
            cases hp
            rw [hwait] at hd
            cases hd
            exact hdue.1 rfl
          obtain ⟨m', hm', hothers⟩ := raiseEvents_others t p.1 16
          exact ⟨m', hm.trans hm', by rw [hothers k hne, hm.cells, hk]⟩
        · exact ht
      · exact ht
  exact hfold _ u (fun _ h => h) ⟨_, OnlyCells.refl u, hy⟩

/-- A cell at the pair waits for nothing (R429). -/
theorem running_ready (h : running s c = some x) : SMap.look s.twc.cells c.val = some x ∧ x.waiting = none ∧ x.blocked = false ∧ x.dead = false ∧
    num s (0xD000 + c.val) 1 = 3 := by
  unfold running at h
  split at h
  · cases h
  · rename_i y hy
    split at h
    · rename_i hr
      cases h
      have hrun := hr.2.1
      unfold runnable cellState at hrun
      rw [hy] at hrun
      simp only [Bool.and_eq_true, Bool.not_eq_true', Option.isNone_iff_eq_none, decide_eq_true_eq] at hrun
      obtain ⟨⟨⟨hstate, hblocked⟩, hwait⟩, hdead⟩ := hrun
      exact ⟨hy, hwait, hblocked, hdead, hstate⟩
    · cases h

/-- WAIT whose mask meets what is pending returns at once (R448). -/
theorem sysWait_returns {mask : Nat} (h : Calls s c x 6 a) (ha : a.getD 0 0 = mask) (hmet : x.events &&& mask ≠ 0) :
    ∃ t y, exec (.sysWait c) s = .next t ∧ SMap.look t.twc.cells c.val = some y ∧ reg y 10 = 0 ∧ reg y 11 = BitVec.ofNat 32 (x.events &&& mask) ∧
      y.events = clearBits x.events mask ∧ y.pc = x.pc + 4 ∧ y.waiting = none ∧ y.mem = x.mem ∧ t.seq = s.seq ∧ t.slots = s.slots ∧ OthersStand s t [] := by
  have hmask : mask ≠ 0 := by
    rintro rfl
    exact hmet (Nat.and_zero _)
  have hgo : Sys.call s c (fun k => decide (k = 6)) .ok = Sys.past s c.val x fun y =>
      { setReg (setReg y 10 0) 11 (BitVec.ofNat 32 (x.events &&& mask)) with events := clearBits x.events mask } := by
    rw [call_waits h rfl]
    unfold Sys.wait
    dsimp only
    rw [ha, if_neg (fun h => hmask h.1), if_pos hmet]
  have hp := past_ecall s c.val x fun y => { setReg (setReg y 10 0) 11 (BitVec.ofNat 32 (x.events &&& mask)) with events := clearBits x.events mask }
  obtain ⟨m, hm⟩ := hp.rest
  refine ⟨_, _, hm.next (f := fun s => Sys.call s c (fun k => decide (k = 6)) .ok) rfl hgo, hp.own, ?_, ?_, rfl, rfl, (running_ready h.cell).2.1, rfl, hm.seq.1, hm.seq.2.1, hm.others⟩
  · exact (reg_setReg_other (setReg (pastEcall x) 10 0) _ (by decide)).trans (reg_setReg_same _ _ (by decide))
  · exact reg_setReg_same (setReg (pastEcall x) 10 0) _ (by decide)

/-- WAIT whose mask meets nothing leaves the cell waiting (R448). -/
theorem sysWait_waits {mask : Nat} (h : Calls s c x 6 a) (ha : a.getD 0 0 = mask) (hmet : x.events &&& mask = 0) (hmask : mask ≠ 0) (h1 : a.getD 1 0 = 0) (h2 : a.getD 2 0 = 0)
    (hw : SMap.wf s.twc.cells = true) :
    ∃ t, exec (.sysWait c) s = .next t ∧
      SMap.look t.twc.cells c.val = some { x with pc := x.pc + 4, retired := 0, stalled := none, waiting := some (mask, 0) } ∧
      t.seq = s.seq ∧ t.slots = s.slots ∧ OthersStand s t [] := by
  have hgo : Sys.call s c (fun k => decide (k = 6)) .ok = raiseDeadlines (Sys.past s c.val x fun y => { y with waiting := some (mask, 0) }) := by
    rw [call_waits h rfl]
    unfold Sys.wait
    dsimp only
    rw [ha, h1, h2, if_neg (fun h => hmask h.1), if_neg (fun h => h hmet)]
  have hp := past_ecall s c.val x fun y => { y with waiting := some (mask, 0) }
  obtain ⟨m, hm⟩ := hp.rest
  obtain ⟨m', hm', hown⟩ := raiseDeadlines_keeps (hp.wf hw) hp.own rfl
  have hall := hm.trans hm'
  exact ⟨_, hall.next (f := fun s => Sys.call s c (fun k => decide (k = 6)) .ok) rfl hgo, by rw [hall.cells]; exact hown, hall.seq.1, hall.seq.2.1, hall.others⟩

/-- Cell x after the deadline of its WAIT with this mask (R448). -/
def woken (x : Cell) (mask : Nat) : Cell :=
  { x with
    regs := SMap.store (SMap.store x.regs 10 0#32 0#32) 11 (BitVec.ofNat 32 ((x.events ||| 16) &&& mask)) 0#32
    waiting := none
    events := clearBits (x.events ||| 16) mask }

/-- The deadline of a WAIT (R448, R452). -/
theorem waitDeadline_returns {mask d : Nat} (hx : SMap.look s.twc.cells c.val = some x) (hwait : x.waiting = some (mask, d)) (hd : d ≠ 0) (hdue : d ≤ s.seq.time)
    (hstate : num s (0xD000 + c.val) 1 = 3) (hdead : x.dead = false) :
    ∃ t y, exec (.waitDeadline c) s = .next t ∧ SMap.look t.twc.cells c.val = some y ∧ y.waiting = none ∧ reg y 10 = 0 ∧
      reg y 11 = BitVec.ofNat 32 ((x.events ||| 16) &&& mask) ∧ y.events = clearBits (x.events ||| 16) mask ∧ y.pc = x.pc ∧ y.mem = x.mem ∧
      t.seq = s.seq ∧ t.slots = s.slots ∧ OthersStand s t [] := by
  have hgo : cellDeadline s c = dispatch (setCell s c.val (woken x mask)) := by
    unfold cellDeadline
    rw [hx]
    dsimp only [Option.bind_some]
    rw [hwait]
    dsimp only
    rw [if_pos ⟨hd, hdue⟩]
    unfold raiseEvents
    rw [hx]
    dsimp only
    rw [if_neg (by unfold cellState; rw [hstate, hdead]; simp), hwait]
    dsimp only
    rw [if_pos (.inr ⟨rfl, hd⟩)]
    rfl
  have hm := ((OnlyCells.refl s).setCell c.val (woken x mask)).dispatch
  refine ⟨_, woken x mask, hm.next (f := fun s => cellDeadline s c) rfl hgo, by rw [hm.cells]; exact SMap.look_put_same _ _ _, rfl, ?_, ?_, rfl, rfl, rfl, hm.seq.1, hm.seq.2.1, hm.others⟩
  · exact (SMap.at_store _ _ _ _ _).trans ((if_neg (by decide)).trans ((SMap.at_store _ _ _ _ _).trans (if_pos rfl)))
  · exact (SMap.at_store _ _ _ _ _).trans (if_pos rfl)

/-- A call of an unknown number is refused before its admission (R443). -/
theorem syscallUnknown_returns (hrun : running s c = some x) (hf : fetch x = some 0x73) (hn : (reg x 17).toNat ∉ Sys.known) :
    ∃ t y, exec (.syscallUnknown c) s = .next t ∧ SMap.look t.twc.cells c.val = some y ∧ reg y 10 = 0x01010001 ∧ y.pc = x.pc + 4 ∧
      y.blocked = x.blocked ∧ y.mem = x.mem ∧ t.seq = s.seq ∧ t.slots = s.slots ∧ OthersStand s t [] := by
  have hknown : Sys.known.contains (reg x 17).toNat = false := by simpa using hn
  have hearly : Sys.early s c.val x (reg x 17).toNat (Sys.args x) = Abt.serviceUnknown := by
    unfold Sys.early
    dsimp only
    rw [hknown]
    rfl
  have hgo : Sys.call s c (fun k => !Sys.known.contains k) .ok = Sys.past s c.val x fun y => setReg y 10 (BitVec.ofNat 32 Abt.serviceUnknown) := by
    unfold Sys.call
    rw [hrun]
    dsimp only
    rw [hearly, hf, if_neg (by rw [hknown]; simp), if_pos (by decide)]
    rfl
  have hp := past_ecall s c.val x fun y => setReg y 10 (BitVec.ofNat 32 Abt.serviceUnknown)
  obtain ⟨m, hm⟩ := hp.rest
  exact ⟨_, _, hm.next (f := fun s => Sys.call s c (fun k => !Sys.known.contains k) .ok) rfl hgo, hp.own, reg_setReg_same (pastEcall x) _ (by decide), rfl, rfl, rfl, hm.seq.1, hm.seq.2.1, hm.others⟩

end

/-- Settles O35: WAIT returns with what its mask meets or waits, a deadline ends it, and an unknown number is refused before its admission. -/
theorem waitsAndUnknownCallsComplete : Obligations.waits_and_unknown_calls_complete := by
  unfold Obligations.waits_and_unknown_calls_complete
  exact ⟨fun s c x a mask h ha => ⟨fun hmet => sysWait_returns h ha hmet, fun hmet hmask h1 h2 hw => sysWait_waits h ha hmet hmask h1 h2 hw⟩,
    fun s c x mask d hx hwait hd hdue hstate hdead => waitDeadline_returns hx hwait hd hdue hstate hdead, fun s c x hrun hf hn => syscallUnknown_returns hrun hf hn⟩

end Sys2Proof.Machine
end

section
/-! SUPPORT. The admission of a system call, outside a pair (R443). -/

namespace Sys2Proof.Machine

section
variable {s : State} {c : Fin 32} {x : Cell} {n : Nat} {a : List Nat} {want : Nat → Bool} {phys : Phys}

theorem sequencerUp_ready (h : Ready s) : sequencerUp s = true := by
  have hst : started s = true := by
    unfold started
    rw [h.stage]
    rfl
  unfold sequencerUp
  rw [hst, h.powered, h.taking, h.run, h.calm, h.woken, h.kept]
  rfl

/-- What is left of a unit past an ECALL, in full. -/
theorem callState_cases (s : State) (c : Fin 32) (x : Cell) : ∃ tw p r, callState s c x = { s with twc := tw, perf := p, rng := r } := by
  obtain ⟨m, tw, p, r, e, -⟩ := (past_ecall s c.val x fun y => { y with blocked := true }).rest
  exact ⟨tw, p, r, e⟩

theorem callState_cell (s : State) (c : Fin 32) (x : Cell) : SMap.look (callState s c x).twc.cells c.val = some (calling x) :=
  (past_ecall s c.val x fun y => { y with blocked := true }).own

theorem cell_listed (c : Fin 32) {k : Nat} (hk : (SMap.look Dict.tCell k).isSome = true) : (Dict.find (0xD000 + c.val) k).2.isSome = true := by
  rw [find_cell c.isLt k]
  exact hk

/-- The state in which a call takes effect (R443). -/
theorem calledState_cases (s : State) (c : Fin 32) (x : Cell) : ∃ tw p r w d m, tw.cells = (callState s c x).twc.cells ∧ calledState s c x =
    { s with
      twc := tw, perf := p, rng := r, dict := d
      seq := { s.seq with adm := s.seq.adm + 1, admTime := s.seq.time, who := w }
      pers := { s.pers with reserved := m } } := by
  obtain ⟨tw, p, r, e⟩ := callState_cases s c x
  have hfind : (Dict.find (0xD000 + c.val) 13).2 = some ⟨.u32, 4, .ro, .any, false, false, .num 0⟩ := congrArg Prod.snd (find_cell c.isLt 13)
  unfold calledState
  dsimp only
  rw [e]
  obtain ⟨m, f, en⟩ := number_cases { s with twc := tw, perf := p, rng := r }
  rw [en]
  unfold incObj setNum
  rw [setObj_volatile _ _ hfind rfl]
  exact ⟨tw, f, r, _, _, m, rfl, rfl⟩

theorem steady_called (s : State) (c : Fin 32) (x : Cell) : Steady s (calledState s c x) := by
  obtain ⟨tw, p, r, w, d, m, -, e⟩ := calledState_cases s c x
  rw [e]
  exact ⟨rfl, rfl, rfl, rfl, rfl⟩

theorem called_cell (s : State) (c : Fin 32) (x : Cell) : SMap.look (calledState s c x).twc.cells c.val = some (calling x) := by
  obtain ⟨tw, p, r, w, d, m, hc, e⟩ := calledState_cases s c x
  rw [e]
  exact (congrArg (fun m => SMap.look m c.val) hc).trans (callState_cell s c x)

theorem num_callState (s : State) (c : Fin 32) (x : Cell) (i k : Nat) : num (number (callState s c x)) i k = num s i k := by
  obtain ⟨tw, p, r, e⟩ := callState_cases s c x
  rw [num_number, e]
  rfl

theorem getObj_callState (s : State) (c : Fin 32) (x : Cell) (i k : Nat) : getObj (number (callState s c x)) i k = getObj s i k := by
  obtain ⟨tw, p, r, e⟩ := callState_cases s c x
  obtain ⟨m, f, en⟩ := number_cases (callState s c x)
  rw [en, e]
  rfl

/-- A call counts in its cell (R432). -/
theorem called_others (s : State) (c : Fin 32) (x : Cell) : OthersStand s (calledState s c x) [(0xD000 + c.val, 13)] := by
  have h0 : OthersStand s (number (callState s c x)) [(0xD000 + c.val, 13)] := fun i k _ _ _ => getObj_callState s c x i k
  exact h0.setNum _ (by decide) (by simp)

theorem called_count (s : State) (c : Fin 32) (x : Cell) : num (calledState s c x) (0xD000 + c.val) 13 = sat32 (num s (0xD000 + c.val) 13) 1 := by
  have h0 : num (calledState s c x) (0xD000 + c.val) 13 = sat32 (num (number (callState s c x)) (0xD000 + c.val) 13) 1 :=
    num_setNum_self _ _ (by decide) (cell_listed c rfl)
  rw [h0, num_callState]

/-- The effect of a call in its admission (R443). -/
def callOut (s : State) (c : Fin 32) (x : Cell) (n : Nat) (a : List Nat) (phys : Phys) : Sys.Out := Sys.effect (calledState s c x) c.val n a (callBytes x n a) phys

theorem alone_single {u : State} (h : sheafOn u = false) (c n : Nat) (a : List Nat) : Sys.alone u c n a = 0 := by
  unfold Sys.alone
  dsimp only
  rw [h]
  rfl

/-- The units that a call needs (R254). -/
def callNeeds (u : State) (c n : Nat) (a : List Nat) : Needs :=
  if n = 0x41 then segNeeds u (Sys.streamKey c (a.getD 0 0 % 2)) (a.getD 2 0)
  else if n = 0x49 then pleNeeds (PleReq.parse (pleOf u (0x100 + c)).input)
  else if n = 2 then objectNeeds u (a.getD 0 0) (a.getD 1 0) 0
  else Needs.onLane

/-- Outside a pair a call comes to its effect and what it leaves to be released (R443). -/
theorem callPerform_single (hs : num s 0x2000 2 = 0) {o : Sys.Out} (ho : callOut s c x n a phys = o) :
    Sys.perform (number (callState s c x)) c.val n a (callBytes x n a) phys =
      ⟨raiseFault (Sys.leave o.e.s c.val n o true (decide (n = 0x20 ∧ o.e.code = 0 ∧ a.getD 0 0 / 0x8000 = 0))) o.e.code phys
        (callNeeds (number (callState s c x)) c.val n a), o.e.code, none, o.e.random⟩ := by
  have hsh : sheafOn (number (callState s c x)) = false := by
    unfold sheafOn modeFlag
    rw [num_callState, hs]
    rfl
  have heff : Sys.effect (calledBy (incObj (number (callState s c x)) (0xD000 + c.val) 13) (Sys.ctx (number (callState s c x)) c.val)) c.val n a (callBytes x n a) phys = o := ho
  unfold Sys.perform
  dsimp only
  rw [alone_single hsh, pairNo_alone hsh, heff]
  simp only [show decide (0 = 2) = false from rfl, Bool.false_eq_true, false_and, ↓reduceIte]
  rfl

theorem callIn_state (hs : num s 0x2000 2 = 0) (v : Bytes) :
    auditHolds (callState s c x) (Sys.callIn (callState s c x) c.val n a v) = auditHolds s (Sys.callIn s c.val n a v) := by
  have h0 : sheafOn s = false := by
    unfold sheafOn modeFlag
    rw [hs]
    rfl
  obtain ⟨tw, p, r, e⟩ := callState_cases s c x
  have h1 : sheafOn (callState s c x) = false := by
    rw [e]
    exact h0
  unfold Sys.callIn
  rw [alone_single h0, alone_single h1, e]
  rfl

/-- A call that is neither a READ nor a WAIT is admitted at once, and settled on what it leaves (R443). -/
theorem call_admits {o : Sys.Out} (h : Calls s c x n a) (hn : n ≠ 1 ∧ n ≠ 6) (hw : want n = true) (ho : callOut s c x n a phys = o)
    {D : State} (hD : raiseFault (Sys.leave o.e.s c.val n o true (decide (n = 0x20 ∧ o.e.code = 0 ∧ a.getD 0 0 / 0x8000 = 0))) o.e.code phys
      (callNeeds (number (callState s c x)) c.val n a) = D) (hsingle : num D 0x2000 2 = 0) : Settled D (Sys.call s c want phys) := by
  have hperf := callPerform_single (phys := phys) (n := n) (a := a) h.single ho
  rw [hD] at hperf
  obtain ⟨tw, p, r, e⟩ := callState_cases s c x
  have hseq : (callState s c x).seq = s.seq := by rw [e]
  have hsh : sheafOn (callState s c x) = false := by
    unfold sheafOn modeFlag
    rw [show num (callState s c x) 0x2000 2 = num s 0x2000 2 by rw [e]; rfl, h.single]
    rfl
  obtain ⟨d, hd, hset⟩ := admitOne_settled (callState s c x) (Sys.callIn (callState s c x) c.val n a (callBytes x n a))
    (fun t => Sys.perform t c.val n a (callBytes x n a) phys) ((callIn_state h.single _).trans h.log) hsh (by rw [hperf]; exact hsingle)
  rw [hperf] at hset
  rw [call_submits h hn.2 hw]
  have hread : Sys.isRead n = false := decide_eq_false hn.1
  have hadmit : Sys.admitCall (callState s c x) c.val x phys = some d.s := by
    unfold Sys.admitCall
    dsimp only
    rw [h.number, h.args, hread, if_neg (by simp), if_neg (by simp)]
    rw [show loadBytes x (Sys.inBuf n a).1 (Sys.taken n a) = callBytes x n a from rfl, hd]
    dsimp only
    rw [capacityHolds_ready h.ready hseq]
    rfl
  have hgo : Sys.submit s (callState s c x) (Sys.past s c.val x fun y => { y with blocked := true, issued := true }) c.val x phys = d.s := by
    unfold Sys.submit
    dsimp only
    rw [hadmit, sequencerUp_ready h.ready, h.turn, h.first, if_neg (by simp)]
  rw [hgo]
  exact hset

/-- The slot that a call leaves where it sent no frame (R443). -/
def callSlot (u : State) (c : Nat) (n : Nat) (o : Sys.Out) : Slot :=
  ⟨0, u.seq.adm, true, 0x100 + c, u.seq.admTime + o.e.lat, none, none, o.e.code, false, o.e.work, none, o.e.nodes,
    o.e.acts ++ if n = 5 then [] else [.cellRet c ((10, o.e.code) :: o.regs) o.mem]⟩

theorem raiseFault_sound (u : State) {code : Nat} (hc : code ≠ Abt.compareFault ∧ code ≠ Abt.resultCheck) (needs : Needs) : raiseFault u code .ok needs = u := by
  unfold raiseFault
  simp [hc.1, hc.2]

/-- A call that sends no frame, and whose code is no fault of a unit. -/
theorem call_leaves {o : Sys.Out} {i : Instr} (h : Calls s c x n a) (hn : n ∉ [1, 6, 0x20]) (hw : want n = true)
    (hexec : exec i s = coreCmd (fun s => Sys.call s c want .ok) s) (ho : callOut s c x n a .ok = o) (hc : o.e.code ≠ Abt.compareFault ∧ o.e.code ≠ Abt.resultCheck)
    (hst : Steady s o.e.s) (hsingle : num o.e.s 0x2000 2 = 0) :
    ∃ t, exec i s = .next t ∧ Settled (pushSlot o.e.s (callSlot o.e.s c.val n o)) t := by
  simp only [List.mem_cons, List.not_mem_nil, or_false, not_or] at hn
  have hleave : Sys.leave o.e.s c.val n o true (decide (n = 0x20 ∧ o.e.code = 0 ∧ a.getD 0 0 / 0x8000 = 0)) = pushSlot o.e.s (callSlot o.e.s c.val n o) := by
    rw [decide_eq_false (fun hs => hn.2.2 hs.1)]
    rfl
  have hset := call_admits (phys := .ok) h ⟨hn.1, hn.2.1⟩ hw ho ((raiseFault_sound _ hc _).trans hleave) hsingle
  exact ⟨_, hexec.trans (coreCmd_settled rfl hset hst), hset⟩

/-- What the slot of a call brings back (R443). -/
theorem returns_of {o : Sys.Out} {t : State} (hn : n ≠ 5) (hst : Steady s o.e.s) (hcount : num o.e.s (0xD000 + c.val) 13 = sat32 (num s (0xD000 + c.val) 13) 1)
    (hset : Settled (pushSlot o.e.s (callSlot o.e.s c.val n o)) t) : Returns s t c o.e.lat o.e.code o.regs o.mem o.e.acts := by
  refine ⟨(congrArg (fun u => u.seq.adm) hset.rest).trans hst.adm, (congrArg (fun u => u.seq.admTime) hset.rest).trans hst.time, ?_, ?_⟩
  · refine Eq.trans (congrArg Val.toNat (hset.objects _ 13 (by decide) ?_)) hcount
    unfold bookkeeping
    simp
  · have hslots : t.slots = (pushSlot o.e.s (callSlot o.e.s c.val n o)).slots := congrArg (fun u => u.slots) hset.rest
    refine ⟨_, by rw [hslots]; exact List.mem_append_right _ (List.mem_singleton_self _), hst.adm, rfl, ?_, ?_⟩
    · show o.e.s.seq.admTime + o.e.lat = _
      rw [hst.time]
    · show o.e.acts ++ (if n = 5 then [] else _) = _
      rw [if_neg hn]

/-- A call that returns, and whose effect changes no more than the objects of xs. -/
theorem call_returns {o : Sys.Out} {i : Instr} {xs : List (Nat × Nat)} (h : Calls s c x n a) (hn : n ∉ [1, 5, 6, 0x20]) (hw : want n = true)
    (hexec : exec i s = coreCmd (fun s => Sys.call s c want .ok) s) (ho : callOut s c x n a .ok = o) (hc : o.e.code ≠ Abt.compareFault ∧ o.e.code ≠ Abt.resultCheck)
    (hst : Steady s o.e.s) (hothers : OthersStand (calledState s c x) o.e.s xs) (hxs : (0x2000, 2) ∉ xs ∧ (0xD000 + c.val, 13) ∉ xs) :
    ∃ t, exec i s = .next t ∧ Returns s t c o.e.lat o.e.code o.regs o.mem o.e.acts ∧ Settled (pushSlot o.e.s (callSlot o.e.s c.val n o)) t ∧
      OthersStand s t (xs ++ [(0xD000 + c.val, 13)]) := by
  have hall : OthersStand s o.e.s (xs ++ [(0xD000 + c.val, 13)]) :=
    ((called_others s c x).widen (ys := xs ++ [(0xD000 + c.val, 13)]) (by simp)).trans (hothers.widen (ys := xs ++ [(0xD000 + c.val, 13)]) (by simp +contextual)) (by simp)
  simp only [List.mem_cons, List.not_mem_nil, or_false, not_or] at hn
  have hsingle : num o.e.s 0x2000 2 = 0 := by
    rw [hall.num (by decide) rfl (by simp [hxs.1]), h.single]
  have hcount : num o.e.s (0xD000 + c.val) 13 = sat32 (num s (0xD000 + c.val) 13) 1 :=
    (hothers.num (by decide) (by unfold bookkeeping; simp) hxs.2).trans (called_count s c x)
  obtain ⟨t, hrun, hset⟩ := call_leaves h (by simp [hn]) hw hexec ho hc hst hsingle
  exact ⟨t, hrun, returns_of hn.2.1 hst hcount hset, hset, fun i k hk hb hx => (hset.objects i k hk hb).trans (hall i k hk hb hx)⟩

/-- The cell past its call, where the effect leaves the cells. -/
theorem calling_after {o : Sys.Out} {t : State} (hset : Settled (pushSlot o.e.s (callSlot o.e.s c.val n o)) t) (htwc : o.e.s.twc = (calledState s c x).twc) :
    SMap.look t.twc.cells c.val = some (calling x) := by
  have hcells : t.twc = o.e.s.twc := congrArg (fun u => u.twc) hset.rest
  rw [hcells, htwc]
  exact called_cell s c x

end

end Sys2Proof.Machine
end

section
/-! SUPPORT. TIME, NOTIFY, STOP and the counter calls (R399, R402, R432, R441 to R444). -/

namespace Sys2Proof.Machine

section
variable {s : State} {c : Fin 32} {x : Cell} {a : List Nat}

theorem called_adm (s : State) (c : Fin 32) (x : Cell) : (calledState s c x).seq.adm = s.seq.adm + 1 ∧ (calledState s c x).seq.admTime = s.seq.time :=
  ⟨(steady_called s c x).adm, (steady_called s c x).time⟩

/-- TIME (R444). -/
theorem sysTime_returns (h : Calls s c x 3 a) : ∃ t, exec (.sysTime c) s = .next t ∧
    Returns s t c 2 0 [] [(a.getD 0 0, leBytes 8 (s.seq.adm + 1) ++ leBytes 8 s.seq.time)] [] ∧
    SMap.look t.twc.cells c.val = some (calling x) ∧ OthersStand s t [(0xD000 + c.val, 13)] := by
  obtain ⟨t, hrun, hret, hset, hothers⟩ := call_returns (o := callOut s c x 3 a .ok) (i := .sysTime c) (want := fun k => decide (k = 3)) h (by decide) rfl rfl rfl
    ⟨nofun, nofun⟩ (steady_called s c x) (OthersStand.refl _) ⟨by simp, by simp⟩
  have hmem : (callOut s c x 3 a .ok).mem = [(a.getD 0 0, leBytes 8 (s.seq.adm + 1) ++ leBytes 8 s.seq.time)] := by
    show [(_, leBytes 8 (calledState s c x).seq.adm ++ leBytes 8 (calledState s c x).seq.admTime)] = _
    rw [(called_adm s c x).1, (called_adm s c x).2]
  rw [hmem] at hret
  exact ⟨t, hrun, hret, calling_after hset rfl, hothers⟩

theorem callBytes_notify (x : Cell) (a : List Nat) : callBytes x 4 a = loadBytes x (a.getD 0 0) 24 := rfl

/-- NOTIFY (R444). -/
theorem sysNotify_returns (h : Calls s c x 4 a) : ∃ t, exec (.sysNotify c) s = .next t ∧ Returns s t c 10 0 [] [] [] ∧
    SMap.look t.twc.cells c.val = some (calling x) ∧ oct t (0xD000 + c.val) 12 = loadBytes x (a.getD 0 0) 24 ∧
    OthersStand s t [(0xD000 + c.val, 12), (0xD000 + c.val, 13)] := by
  have hothers : OthersStand (calledState s c x) (setOct (calledState s c x) (0xD000 + c.val) 12 (callBytes x 4 a)) [(0xD000 + c.val, 12)] :=
    (OthersStand.refl _ |>.widen (by simp)).setObj _ (by decide) (by simp)
  obtain ⟨t, hrun, hret, hset, hkeep⟩ := call_returns (o := callOut s c x 4 a .ok) (i := .sysNotify c) (want := fun k => decide (k = 4)) h (by decide) rfl rfl rfl
    ⟨nofun, nofun⟩ ((steady_called s c x).setObj _ _ _) hothers ⟨by simp, by simp⟩
  refine ⟨t, hrun, hret, calling_after hset (setObj_twc _ _ _ _), ?_, hkeep⟩
  have hget : getObj (setOct (calledState s c x) (0xD000 + c.val) 12 (callBytes x 4 a)) (0xD000 + c.val) 12 = .oct (callBytes x 4 a) := by
    unfold setOct
    rw [getObj_setObj _ _ (by decide) (by decide), if_pos ⟨rfl, rfl, cell_listed c rfl⟩]
  unfold oct
  rw [hset.objects _ _ (by decide) (by unfold bookkeeping; simp)]
  exact (congrArg Val.toBytes hget)

/-- STOP (R432, R444). -/
theorem sysStop_stops (h : Calls s c x 5 a) : ∃ t, exec (.sysStop c) s = .next t ∧ t.seq.adm = s.seq.adm + 1 ∧ t.seq.admTime = s.seq.time ∧
    (∃ y ∈ t.slots, y.adm = s.seq.adm + 1 ∧ y.numbered = true ∧ y.due = s.seq.time + 10 ∧ y.acts = []) ∧
    num t (0xD000 + c.val) 13 = sat32 (num s (0xD000 + c.val) 13) 1 ∧ SMap.look t.twc.cells c.val = none ∧ num t (0xD000 + c.val) 1 = 1 ∧
    OthersStand s t [(0xD000 + c.val, 1), (0xD000 + c.val, 7), (0xD000 + c.val, 13)] := by
  have hst : Steady s (setCellState (leaveCell (calledState s c x) c.val) c.val 1) := ((steady_called s c x).leaveCell _).setCellState _ _
  have hstop : OthersStand (calledState s c x) (setCellState (leaveCell (calledState s c x) c.val) c.val 1) [(0xD000 + c.val, 1), (0xD000 + c.val, 7)] :=
    (((OthersStand.refl _).widen (by simp)).leaveCell _).setCellState (by simp) (by simp)
  have hall : OthersStand s (setCellState (leaveCell (calledState s c x) c.val) c.val 1) [(0xD000 + c.val, 1), (0xD000 + c.val, 7), (0xD000 + c.val, 13)] :=
    ((called_others s c x).widen (ys := [(0xD000 + c.val, 1), (0xD000 + c.val, 7), (0xD000 + c.val, 13)]) (by simp)).trans
      (hstop.widen (ys := [(0xD000 + c.val, 1), (0xD000 + c.val, 7), (0xD000 + c.val, 13)]) (by simp)) (by simp)
  have hsingle : num (setCellState (leaveCell (calledState s c x) c.val) c.val 1) 0x2000 2 = 0 := by
    rw [hall.num (by decide) rfl (by simp), h.single]
  obtain ⟨t, hrun, hset⟩ := call_leaves (o := callOut s c x 5 a .ok) (i := .sysStop c) (want := fun k => decide (k = 5)) h (by decide) rfl rfl rfl ⟨nofun, nofun⟩ hst hsingle
  have hslots : t.slots = _ := congrArg (fun u => u.slots) hset.rest
  have hbook : ∀ k, k ≠ 5 → k ≠ 10 → k ≠ 3 → k < 256 → getObj t (0xD000 + c.val) k = getObj (setCellState (leaveCell (calledState s c x) c.val) c.val 1) (0xD000 + c.val) k :=
    fun k h5 h10 h3 hk => hset.objects _ _ hk (by unfold bookkeeping; simp; omega)
  refine ⟨t, hrun, (congrArg (fun u => u.seq.adm) hset.rest).trans hst.adm, (congrArg (fun u => u.seq.admTime) hset.rest).trans hst.time, ?_, ?_, ?_, ?_, ?_⟩
  · refine ⟨_, by rw [hslots]; exact List.mem_append_right _ (List.mem_singleton_self _), hst.adm, rfl, ?_, rfl⟩
    show (setCellState (leaveCell (calledState s c x) c.val) c.val 1).seq.admTime + 10 = _
    rw [hst.time]
  · unfold num
    rw [hbook 13 (by decide) (by decide) (by decide) (by decide)]
    exact (hstop.num (by decide) (by unfold bookkeeping; simp) (by simp)).trans (called_count s c x)
  · have htwc : t.twc = (setCellState (leaveCell (calledState s c x) c.val) c.val 1).twc := congrArg (fun u => u.twc) hset.rest
    rw [htwc, setCellState_twc, leaveCell_cells]
    exact (SMap.look_del _ _ _).trans (if_pos rfl)
  · unfold num
    rw [hbook 1 (by decide) (by decide) (by decide) (by decide)]
    exact num_setCellState _ c.isLt
  · exact fun i k hk hb hx => (hset.objects i k hk hb).trans (hall i k hk hb hx)

end

theorem foldl_max_ge (l : List Nat) (a : Nat) : a ≤ l.foldl max a ∧ ∀ x ∈ l, x ≤ l.foldl max a := by
  induction l generalizing a with
  | nil => exact ⟨Nat.le_refl _, nofun⟩
  | cons y l ih =>
    obtain ⟨h1, h2⟩ := ih (max a y)
    refine ⟨Nat.le_trans (Nat.le_max_left a y) h1, fun x hx => ?_⟩
    rcases List.mem_cons.mp hx with rfl | hx
    · exact Nat.le_trans (Nat.le_max_right a x) h1
    · exact h2 x hx

theorem foldl_max_le {l : List Nat} {a n : Nat} (ha : a ≤ n) (hl : ∀ x ∈ l, x ≤ n) : l.foldl max a ≤ n := by
  induction l generalizing a with
  | nil => exact ha
  | cons x l ih => exact ih (Nat.max_le.mpr ⟨ha, hl x (List.mem_cons_self ..)⟩) fun y hy => hl y (List.mem_cons_of_mem _ hy)

/-- A word above the value of a ring without unreadable ones becomes its value (R399). -/
theorem ringValue_put {r : Ring} {v : Nat} (hb : r.bad = []) (hv : ringValue r < v) :
    ringValue { r with words := SMap.put r.words (v % 128) v, bad := r.bad.filter (· ≠ v % 128) } = v := by
  have hall : ∀ m : SMap Nat, (m.filter fun p => !([] : List Nat).contains p.1) = m := fun m => List.filter_eq_self.mpr fun p _ => rfl
  unfold ringValue at hv ⊢
  rw [hb] at hv ⊢
  simp only [List.filter_nil, hall] at hv ⊢
  obtain ⟨haside, hwords⟩ := foldl_max_ge (r.words.map fun p => p.2) (r.aside.getD 0)
  refine Nat.le_antisymm (foldl_max_le (by omega) fun x hx => ?_) ?_
  · obtain ⟨p, hp, rfl⟩ := List.mem_map.mp hx
    rcases SMap.mem_put hp with rfl | hp
    · exact Nat.le_refl _
    · have := hwords _ (List.mem_map_of_mem hp)
      omega
  · exact (foldl_max_ge _ _).2 v (List.mem_map.mpr ⟨_, SMap.mem_of_look (SMap.look_put_same _ _ _), rfl⟩)

/-- The state after counter k has taken value n, with the credit drawn (R399, R402). -/
def incremented (u : State) (k n : Nat) : State := writeRing (setCredit u k (creditNow u k - 40000)) k n

theorem setCredit_pers (u : State) (k n : Nat) : (setCredit u k n).pers.rings = u.pers.rings := by
  unfold setCredit setNum
  obtain ⟨d, p, l, e⟩ := setObj_dict { u with credit := SMap.put u.credit k (n, u.seq.admTime) } (0xC000 + k) 5 (.num (n / 40000))
  rw [e]

theorem incremented_rings (u : State) (k n : Nat) : (incremented u k n).pers.rings =
    SMap.put u.pers.rings k { ringOf u k with words := SMap.put (ringOf u k).words (n % 128) n, bad := (ringOf u k).bad.filter (· ≠ n % 128) } := by
  have hset : ∀ (v : State) i j m, (setNum v i j m).pers.rings = v.pers.rings := fun v i j m => by
    unfold setNum
    obtain ⟨d, p, l, e⟩ := setObj_dict v i j (.num m)
    rw [e]
  have hring : ringOf (setCredit u k (creditNow u k - 40000)) k = ringOf u k := by
    unfold ringOf
    rw [setCredit_pers]
  unfold incremented writeRing
  dsimp only
  rw [hset, hset, hring, setCredit_pers]
  obtain ⟨p, e⟩ := count_perf { setCredit u k (creditNow u k - 40000) with
    pers := { (setCredit u k (creditNow u k - 40000)).pers with
      rings := SMap.put u.pers.rings k { ringOf u k with words := SMap.put (ringOf u k).words (n % 128) n, bad := (ringOf u k).bad.filter (· ≠ n % 128) } } } 8 0 1
  rw [e]

theorem counterValue_incremented {u : State} {k n : Nat} (hb : (ringOf u k).bad = []) (hn : counterValue u k < n) :
    counterValue (incremented u k n) k = n ∧ ∀ j, j ≠ k → counterValue (incremented u k n) j = counterValue u j := by
  constructor
  · unfold counterValue ringOf
    rw [incremented_rings]
    exact (congrArg ringValue ((SMap.at_put _ _ _ _ _).trans (if_pos rfl))).trans (ringValue_put hb hn)
  · intro j hj
    unfold counterValue ringOf
    rw [incremented_rings]
    exact congrArg ringValue ((SMap.at_put _ _ _ _ _).trans (if_neg hj))

theorem OthersStand.incremented (u : State) (k n : Nat) : OthersStand u (incremented u k n) [(0xC000 + k, 5), (0xC000 + k, 6), (0xC000 + k, 7)] := by
  have hcredit : OthersStand u (setCredit u k (creditNow u k - 40000)) [(0xC000 + k, 5), (0xC000 + k, 6), (0xC000 + k, 7)] :=
    OthersStand.setNum (t := { u with credit := SMap.put u.credit k (creditNow u k - 40000, u.seq.admTime) }) (fun _ _ _ _ _ => rfl) _ (by decide) (by simp)
  unfold Machine.incremented writeRing
  dsimp only
  generalize setCredit u k (creditNow u k - 40000) = w at hcredit ⊢
  refine OthersStand.setNum (OthersStand.setNum ?_ _ (by decide) (by simp)) _ (by decide) (by simp)
  intro i j hj hbk hx
  obtain ⟨p, e⟩ := count_perf { w with pers := { w.pers with rings := SMap.put w.pers.rings k { ringOf w k with words := SMap.put (ringOf w k).words (n % 128) n, bad := (ringOf w k).bad.filter (· ≠ n % 128) } } } 8 0 1
  rw [e]
  exact hcredit i j hj hbk hx

theorem Steady.incremented {s u : State} (h : Steady s u) (k n : Nat) : Steady s (incremented u k n) := by
  have hcredit : Steady s (setCredit u k (creditNow u k - 40000)) := Steady.setNum (u := { u with credit := SMap.put u.credit k (creditNow u k - 40000, u.seq.admTime) })
    ⟨h.adm, h.time, h.first, h.queue, h.fuses⟩ _ _ _
  unfold Machine.incremented writeRing
  dsimp only
  exact ((Steady.count (hcredit.withPers _) _ _ _).setNum _ _ _).setNum _ _ _

/-- An increment or an advance that every check lets pass (R401 to R405). -/
theorem counterOp_counts {u : State} {k o v n : Nat} {adv : Bool} (hcal : calderaOn u = false) (hb : (ringOf u k).bad = []) (hc : 40000 ≤ creditNow u k)
    (hmax : counterValue u k < 0xFFFFFFFFFFFFFFFF)
    (hn : if adv then n = v ∧ counterValue u k < n ∧ num u (0xC000 + k) 4 = o
      else n = counterValue u k + 1 ∧ (num u (0xC000 + k) 4 = 0 ∨ num u (0xC000 + k) 4 = o) ∧ (v = counterValue u k ∨ v = 0xFFFFFFFFFFFFFFFF)) :
    counterOp u k o adv v .ok = (incremented u k n, 0) := by
  have hskip : skips (ringOf u k) = false := by
    unfold skips
    rw [hb]
    rfl
  have hworn : wornOut u (ringOf u k) = false := by
    unfold wornOut
    rw [hb]
    rfl
  unfold counterOp
  dsimp only
  cases adv with
  | true =>
    obtain ⟨rfl, hlt, howner⟩ := hn
    have how : counterOwner u k o = true := by
      unfold counterOwner
      simp [howner]
    rw [hcal, how, hskip, hworn, if_neg (by simp), if_neg (by simp), if_neg (by simp), if_neg (by simp), if_neg (by simp; omega), if_neg (by simp [max64]; omega), if_neg (by omega),
      if_neg (by decide)]
    rfl
  | false =>
    obtain ⟨rfl, howner, hv⟩ := hn
    have how : counterOwner u k o = true := by
      unfold counterOwner
      rcases howner with h | h <;> simp [h]
    rw [hcal, how, hskip, hworn, if_neg (by simp), if_neg (by simp), if_neg (by simp), if_neg (by simp only [max64]; rintro ⟨-, h1, h2⟩; omega), if_neg (by simp),
      if_neg (by simp [max64]; omega), if_neg (by omega), if_neg (by decide)]
    rfl

section
variable {s : State} {c : Fin 32} {x : Cell} {a : List Nat}

theorem num_called (s : State) (c : Fin 32) (x : Cell) {i k : Nat} (hk : k < 256) (hb : bookkeeping i k = false) (hne : ¬(i = 0xD000 + c.val ∧ k = 13)) :
    num (calledState s c x) i k = num s i k := (called_others s c x).num hk hb (by simpa using hne)

/-- The counter calls (R447). -/
theorem ctr_returns {k n : Nat} {adv : Bool} {i : Instr} (h : Calls s c x (if adv then 0x11 else 0x10) a) (hcal : num s 0xD802 1 = 0) (hk : a.getD 0 0 = k) (hk2 : k < 2048)
    (hexec : exec i s = coreCmd (fun s => Sys.call s c (fun m => decide (m = if adv then 0x11 else 0x10)) .ok) s)
    (hn : if adv then n = a.getD 1 0 + a.getD 2 0 * 4294967296 ∧ counterValue s k < n ∧ num s (0xC000 + k) 4 = 0x100 + c.val
      else n = counterValue s k + 1 ∧ (num s (0xC000 + k) 4 = 0 ∨ num s (0xC000 + k) 4 = 0x100 + c.val) ∧
        (a.getD 1 0 + a.getD 2 0 * 4294967296 = counterValue s k ∨ a.getD 1 0 + a.getD 2 0 * 4294967296 = 0xFFFFFFFFFFFFFFFF))
    (hmax : counterValue s k < 0xFFFFFFFFFFFFFFFF) (hb : (ringOf s k).bad = []) (hcr : 40000 ≤ creditNow (number s) k) :
    ∃ t, exec i s = .next t ∧ Returns s t c 8 0 [(11, n % 4294967296), (12, n / 4294967296)] [] [] ∧ counterValue t k = n ∧
      (∀ j, j ≠ k → counterValue t j = counterValue s j) ∧ SMap.look t.twc.cells c.val = some (calling x) ∧
      OthersStand s t [(0xC000 + k, 5), (0xC000 + k, 6), (0xC000 + k, 7), (0xD000 + c.val, 13)] := by
  have hnum : ∀ i j, j < 256 → i ≠ 0xD000 + c.val → bookkeeping i j = false → num (calledState s c x) i j = num s i j :=
    fun i j hj hi hbk => num_called s c x hj hbk fun h => hi h.1
  have hring : ∀ j, ringOf (calledState s c x) j = ringOf s j := fun j => by
    obtain ⟨tw, p, r, w, d, m, -, e⟩ := calledState_cases s c x
    rw [e]
    rfl
  have hvalue : ∀ j, counterValue (calledState s c x) j = counterValue s j := fun j => congrArg ringValue (hring j)
  have hsh : sheafOn (calledState s c x) = false := by
    unfold sheafOn modeFlag
    rw [hnum _ _ (by decide) (by omega) rfl, h.single]
    rfl
  have hcal' : calderaOn (calledState s c x) = false := by
    unfold calderaOn
    rw [hnum _ _ (by decide) (by omega) rfl, hcal]
    rfl
  have hcredit : creditNow (calledState s c x) k = creditNow (number s) k := by
    have h1 : (calledState s c x).credit = (number s).credit := by
      obtain ⟨tw, p, r, w, d, m, -, e⟩ := calledState_cases s c x
      obtain ⟨m', f, en⟩ := number_cases s
      rw [e, en]
    unfold creditNow
    rw [h1, (called_adm s c x).2, hnum 0x2100 7 (by decide) (by omega) rfl, num_number, number_seq]
  have howner : num (calledState s c x) (0xC000 + k) 4 = num s (0xC000 + k) 4 := hnum _ _ (by decide) (by omega) (by unfold bookkeeping; simp)
  have hcount := counterOp_counts (u := calledState s c x) (k := k) (o := 0x100 + c.val) (v := a.getD 1 0 + a.getD 2 0 * 4294967296) (n := n) (adv := adv) hcal'
    (by rw [hring, hb]) (by rw [hcredit]; exact hcr) (by rw [hvalue]; exact hmax) (by rw [hvalue, howner]; exact hn)
  have hlt : counterValue s k < n := by
    cases adv
    · have := hn.1
      omega
    · exact hn.2.1
  obtain ⟨hown, hother⟩ := counterValue_incremented (u := calledState s c x) (k := k) (n := n) (by rw [hring, hb]) (by rw [hvalue]; exact hlt)
  have heff : callOut s c x (if adv then 0x11 else 0x10) a .ok = ⟨Eff.ok (incremented (calledState s c x) k n) 8, [(11, n % 4294967296), (12, n / 4294967296)], []⟩ := by
    have hop : callOut s c x (if adv then 0x11 else 0x10) a .ok = Sys.counter (calledState s c x) c.val adv a .ok := by cases adv <;> rfl
    rw [hop]
    unfold Sys.counter
    dsimp only
    have hgate : pairGate (calledState s c x) (0xC000 + k) (if adv = true then 3 else 2) = 0 := by
      unfold pairGate
      rw [hsh]
      rfl
    rw [hk, hgate, hcal', hcount, if_neg (by omega), if_neg (by simp), if_neg (by simp), if_neg (by
      rintro ⟨rfl, h2⟩
      rw [howner] at h2
      exact h2 hn.2.2)]
    dsimp only
    rw [hown]
    unfold Sys.ctrLat Sys.Out.regsIf
    rw [hsh]
    rfl
  obtain ⟨t, hrun, hret, hset, hothers⟩ := call_returns (i := i) (want := fun m => decide (m = if adv then 0x11 else 0x10)) h (by cases adv <;> decide) (by simp) hexec heff
    ⟨nofun, nofun⟩ ((steady_called s c x).incremented k n) (OthersStand.incremented _ k n) ⟨by simp, by simp⟩
  have hrings : ∀ j, counterValue t j = counterValue (incremented (calledState s c x) k n) j := fun j => by
    unfold counterValue ringOf
    rw [show t.pers.rings = (incremented (calledState s c x) k n).pers.rings from congrArg (fun u => u.pers.rings) hset.rest]
  have htwc : (incremented (calledState s c x) k n).twc = (calledState s c x).twc := by
    unfold incremented writeRing setCredit
    simp
  exact ⟨t, hrun, hret, (hrings k).trans hown, fun j hj => (hrings j).trans ((hother j hj).trans (hvalue j)), calling_after (s := s) (x := x) hset htwc, hothers⟩

end

/-- Settles O34: TIME, NOTIFY, STOP and the counter calls are admitted, and return at their release. -/
theorem cellCallsComplete : Obligations.cell_calls_complete := by
  unfold Obligations.cell_calls_complete
  intro s c x a
  refine ⟨sysTime_returns, sysNotify_returns, sysStop_stops, fun k n adv h hcal hk hk2 hn hmax _ hb hcr => ctr_returns h hcal hk hk2 ?_ hn hmax hb hcr⟩
  cases adv <;> rfl

end Sys2Proof.Machine
end

section
/-! SUPPORT. READ and WRITE of a cell (R443, R445). -/

namespace Sys2Proof.Machine

section
variable {s : State} {c : Fin 32} {x : Cell} {a : List Nat} {i k : Nat} {d : Desc}

theorem callState_single (h : num s 0x2000 2 = 0) (c : Fin 32) (x : Cell) : sheafOn (callState s c x) = false := by
  obtain ⟨tw, p, r, e⟩ := callState_cases s c x
  unfold sheafOn modeFlag
  rw [show num (callState s c x) 0x2000 2 = num s 0x2000 2 by rw [e]; rfl, h]
  rfl

/-- A READ is ordered, and comes back with its value (R18, R445). -/
theorem syscallRead_returns {u : State} {v : Bytes} (h : Calls s c x 1 a) (hu : u = callState s c x) (hi : a.getD 0 0 = i) (hk : a.getD 1 0 = k)
    (hd : Dict.find i k = (true, some d)) (hty : d.ty ≠ .domain) (hchk : Sys.checks u c.val false i k d none = 0) (hv : v = readBytes u (Sys.ctx u c.val) i k d)
    (hlen : v.length ≤ a.getD 3 0) (hconf : readConflict u (Sys.ctx u c.val) i k = 0) :
    ∃ t, exec (.syscallRead c .ok) s = .next t ∧ t.seq.adm = s.seq.adm ∧
      (∃ y ∈ t.slots, y.numbered = false ∧ y.due = s.seq.time + 2 ∧ y.acts = [.cellRet c.val [(10, 0), (11, v.length)] [(a.getD 2 0, v)]]) ∧
      SMap.look t.twc.cells c.val = some (calling x) ∧ OthersStand s t [] := by
  subst hi hk
  have hread : Sys.effect u c.val 1 a (callBytes x 1 a) .ok = ⟨Eff.ok u Lat.read, [(11, v.length)], [(a.getD 2 0, v)]⟩ := by
    have hfind : findObj (a.getD 0 0) (a.getD 1 0) = .ok d := by
      unfold findObj
      rw [hd]
    show Sys.read u c.val a = _
    unfold Sys.read
    dsimp only
    rw [hfind]
    dsimp only
    have hroom : ¬(d.ty = .domain ∨ v.length > a.getD 3 0) := by
      rintro (h1 | h1)
      · exact hty h1
      · omega
    rw [hchk, hconf, ← hv, if_neg (by simp), if_neg hroom, if_neg (by simp)]
  have hgo : Sys.call s c (fun n => decide (n = 1)) .ok =
      pushSlot (count u 0 2 1) ⟨0, s.seq.adm, false, 0x100 + c.val, s.seq.time + 2, none, none, 0, false, .none, none, [], [.cellRet c.val [(10, 0), (11, v.length)] [(a.getD 2 0, v)]]⟩ := by
    have hadmit : Sys.admitCall u c.val x .ok = some (Sys.leave (count u 0 2 1) c.val 1 ⟨Eff.ok u Lat.read, [(11, v.length)], [(a.getD 2 0, v)]⟩ false false) := by
      unfold Sys.admitCall
      dsimp only
      rw [h.number, h.args, hu, alone_single (callState_single h.single c x), ← hu, if_neg (by simp), if_pos (show Sys.isRead 1 = true from rfl)]
      rw [show loadBytes x (Sys.inBuf 1 a).1 (Sys.taken 1 a) = callBytes x 1 a from rfl, hread]
      rfl
    have hseq : (count u 0 2 1).seq = s.seq := by
      obtain ⟨tw, p, r, e⟩ := callState_cases s c x
      rw [count_seq, hu, e]
    rw [call_submits h (by decide) rfl, ← hu]
    unfold Sys.submit
    dsimp only
    rw [hadmit, sequencerUp_ready h.ready, h.turn, h.first, if_neg (by simp)]
    unfold Sys.leave
    rw [hseq]
    rfl
  obtain ⟨tw, p, r, e⟩ := callState_cases s c x
  obtain ⟨q, eq⟩ := count_perf u 0 2 1
  have hcell : SMap.look u.twc.cells c.val = some (calling x) := by
    rw [hu]
    exact callState_cell s c x
  rw [eq] at hgo
  refine ⟨_, (show exec (.syscallRead c .ok) s = coreCmd (fun s => Sys.call s c (fun n => decide (n = 1)) .ok) s from rfl).trans (coreCmd_next hgo ?_ ?_), ?_, ⟨_,
    List.mem_append_right _ (List.mem_singleton_self _), rfl, rfl, rfl⟩, hcell, ?_⟩
  all_goals rw [hu, e]
  · rfl
  · rfl
  · rfl
  · exact fun _ _ _ _ _ => rfl

/-- The granted role of a cell, and its write ranges, stand in its calls. -/
theorem getObj_called (s : State) (c : Fin 32) (x : Cell) {i k : Nat} (hk : k < 256) (hne : ¬(i = 0xD000 + c.val ∧ k = 13)) :
    getObj (calledState s c x) i k = getObj s i k := by
  have hset : getObj (calledState s c x) i k = getObj (setNum (number (callState s c x)) (0xD000 + c.val) 13
      (sat32 (num (number (callState s c x)) (0xD000 + c.val) 13) 1)) i k := rfl
  rw [hset, setNum, getObj_setObj _ _ (by decide) hk, if_neg (fun h => hne ⟨h.1, h.2.1⟩), getObj_callState]

theorem ctx_called (s : State) (c : Fin 32) (x : Cell) : Sys.ctx (calledState s c x) c.val = Sys.ctx s c.val := by
  have hrole : num (calledState s c x) (0xD000 + c.val) 5 = num s (0xD000 + c.val) 5 := congrArg Val.toNat (getObj_called s c x (by decide) (by simp))
  unfold Sys.ctx
  rw [hrole]

theorem modeFlag_called (s : State) (c : Fin 32) (x : Cell) {k : Nat} (hk : k < 256) : modeFlag (calledState s c x) k = modeFlag s k := by
  have hnum : num (calledState s c x) 0x2000 k = num s 0x2000 k := congrArg Val.toNat (getObj_called s c x hk (by omega))
  unfold modeFlag
  rw [hnum]

/-- What a role is refused with, of itself (R99). -/
def roleCode (need : Role) (role : Option Nat) : Nat :=
  match need, role with
  | .any, _ => 0
  | _, none => Abt.noSession
  | .operator, some r => if r = 1 ∨ r = 2 then 0 else Abt.role
  | .owner, some r => if r = 2 then 0 else Abt.role
  | .service, some r => if r = 3 then 0 else Abt.role
  | .pair, some _ => Abt.mode

/-- Outside a pair the role alone counts, where the object has no owner and is none of the modes or of the ownership (R99). -/
theorem roleCheck_alone {u : State} {y : Ctx} {v : Option (Option Bytes)} (hs : sheafOn u = false) (hi : i ≠ 0x2000 ∧ i ≠ 0xCA20) (hsr : isSendRecv i k = false)
    (ho : ownerCheck u y true i k = 0) : roleCheck u y true i k d v = roleCode d.role y.role := by
  have hrf : roleInForce u true i k d = d.role := by
    unfold roleInForce
    rw [hs]
    rfl
  have hz : ∀ m : Nat, (if m ≠ 0 then m else 0) = m := fun m => by split <;> omega
  unfold roleCheck roleCode
  dsimp only
  rw [hrf, hsr, ho, hs]
  simp only [hi.1, hi.2, false_and, and_false, ↓reduceIte, Bool.false_eq_true, Bool.not_false]
  refine (hz _).trans ?_
  cases d.role <;> cases y.role <;> rfl

/-- The checks of a WRITE to an object that only holds its value are those of the state before the call (R445). -/
theorem checks_called (h : Calls s c x 2 a) (hi : holdsOnly i = true) (hserv : d.role ≠ .service) (v : Bytes) :
    Sys.checks (calledState s c x) c.val true i k d (some (some v)) = Sys.checks s c.val true i k d (some (some v)) := by
  have hin := (holdsOnly_iff i).mp hi
  have hoff : sheafOn s = false := by
    unfold sheafOn modeFlag
    rw [h.single]
    rfl
  have hoff' : sheafOn (calledState s c x) = false := (modeFlag_called s c x (by decide)).trans hoff
  have hcal : calderaOn (calledState s c x) = calderaOn s := by
    have hnum : num (calledState s c x) 0xD802 1 = num s 0xD802 1 := congrArg Val.toNat (getObj_called s c x (by decide) (by simp))
    unfold calderaOn
    rw [hnum]
  have hstage : (calledState s c x).stage = s.stage := by
    obtain ⟨tw, p, r, w, d, m, -, e⟩ := calledState_cases s c x
    rw [e]
  have hstate : stateCheck (calledState s c x) true i k d = stateCheck s true i k d := by
    have hgate : ∀ u, sheafOn u = false → pairGate u i k = 0 := fun u hu => by
      unfold pairGate
      rw [hu]
      rfl
    unfold stateCheck
    rw [hgate _ hoff, hgate _ hoff', hcal, hstage]
  have hrange : Sys.inRange (calledState s c x) c.val i = Sys.inRange s c.val i := by
    have hoct : oct (calledState s c x) (0xD000 + c.val) 15 = oct s (0xD000 + c.val) 15 := congrArg Val.toBytes (getObj_called s c x (by decide) (by simp))
    unfold Sys.inRange
    rw [hoct]
  have hrole : roleCheck (calledState s c x) (Sys.ctx s c.val) true i k d (some (some v)) = roleCheck s (Sys.ctx s c.val) true i k d (some (some v)) := by
    have hsr : isSendRecv i k = false := by
      unfold isSendRecv
      simp
      omega
    rw [roleCheck_alone hoff (by omega) hsr (ownerCheck_elsewhere (by omega)), roleCheck_alone hoff' (by omega) hsr (ownerCheck_elsewhere (by omega))]
  have hmode : ∀ u c, sheafOn u = false → d.role ≠ .service → modeCheck u c true i k d = 0 := fun u c hu hs =>
    modeCheck_elsewhere hu (by omega) (fun h => hs h.2.2) (by simp only [List.mem_cons, List.not_mem_nil, or_false]; omega)
  have hm : modeCheck (calledState s c x) (Sys.ctx s c.val) true i k d = modeCheck s (Sys.ctx s c.val) true i k d := by
    rw [hmode _ _ hoff' hserv, hmode _ _ hoff hserv]
  have hlife : ∀ u, lifecycleCheck u true i k = 0 := fun u => lifecycleCheck_elsewhere (by omega)
  unfold Sys.checks
  dsimp only
  rw [ctx_called, hlife, hlife, hstate, hrange, hrole, hm]

theorem plainCheck_called (s : State) (c : Fin 32) (x : Cell) (hi : holdsOnly i = true) (n : Nat) (v : Bytes) :
    plainCheck (calledState s c x) i k n v = plainCheck s i k n v := by
  have hsh : sheafOn (calledState s c x) = sheafOn s := modeFlag_called s c x (by decide)
  have hno : pairNo (calledState s c x) = pairNo s := by
    unfold pairNo
    rw [hsh, show num (calledState s c x) 0xF000 2 = num s 0xF000 2 from congrArg Val.toNat (getObj_called s c x (by decide) (by omega))]
  have hroutes : routedChans (calledState s c x) = routedChans s := by
    have hpers : (calledState s c x).pers.dict = s.pers.dict := by
      obtain ⟨tw, p, r, w, d, m, -, e⟩ := calledState_cases s c x
      rw [e]
    unfold routedChans
    rw [hpers, hsh, show chSub (calledState s c x) 4 = chSub s 4 by rw [chSub, chSub, hno]]
    refine List.filterMap_congr fun p _ => ?_
    dsimp only
    split
    · rw [show num (calledState s c x) (p.1 / 256) (p.1 % 256 - 1) = num s (p.1 / 256) (p.1 % 256 - 1) from congrArg Val.toNat (getObj_called s c x (by omega) (by omega))]
    · trivial
  have htemplate : templateCheck (calledState s c x) i k n = templateCheck s i k n := by
    unfold templateCheck
    rw [hroutes]
  have hin := (holdsOnly_iff i).mp hi
  have hnet : ¬(0x1200 ≤ i ∧ i < 0x1233) := by omega
  have hfield : ¬(0xDB00 ≤ i ∧ i < 0xDC00) := by omega
  unfold plainCheck
  simp only [hnet, hfield, ↓reduceIte, hsh, htemplate]

theorem room_called (h : Room s) (c : Fin 32) (x : Cell) : Room (calledState s c x) := by
  have hnum : ∀ k, k < 256 → num (calledState s c x) 0xDC00 k = num s 0xDC00 k := fun k hk => congrArg Val.toNat (getObj_called s c x hk (by omega))
  obtain ⟨hj, hw⟩ := h
  obtain ⟨tw, p, r, w, d, m, -, e⟩ := calledState_cases s c x
  constructor
  · unfold journalFull noRoom at hj ⊢
    rw [hnum 1 (by decide)]
    rw [e]
    exact hj
  · rw [e]
    exact hw

theorem foldl_orElse_zero {l : List Nat} (h : l.foldl orElse 0 = 0) : ∀ n ∈ l, n = 0 := by
  have hgo : ∀ (l : List Nat) a, l.foldl orElse a = 0 → a = 0 ∧ ∀ n ∈ l, n = 0 := by
    intro l
    induction l with
    | nil => exact fun a h => ⟨h, nofun⟩
    | cons m l ih =>
      intro a h
      obtain ⟨hor, hl⟩ := ih _ h
      unfold orElse at hor
      split at hor
      · exact absurd hor ‹_›
      · exact ⟨Decidable.not_not.mp ‹_›, List.forall_mem_cons.mpr ⟨hor, hl⟩⟩
  exact (hgo l 0 h).2

/-- A WRITE of an object that only holds its value stores it in its admission (R445). -/
theorem syscallWrite_stores {v : Bytes} (h : Calls s c x 2 a) (hroom : Room s) (hi : a.getD 0 0 = i) (hk : a.getD 1 0 = k) (hd : Dict.find i k = (true, some d))
    (hty : d.ty ≠ .domain ∧ d.ty ≠ .label) (hsub : k < 256) (hsize : a.getD 3 0 = d.size ∧ d.size ≤ 256) (hv : v = callBytes x 2 a)
    (hchk : Sys.checks s c.val true i k d (some (some v)) = 0) (hholds : holdsOnly i = true) (henc : encodingCheck d v = 0) (hplain : plainCheck s i k (leNat v) v = 0) :
    ∃ t, exec (.syscallWrite c .ok) s = .next t ∧ Returns s t c 10 0 [] [] [] ∧ getObj t i k = d.decode v ∧
      SMap.look t.twc.cells c.val = some (calling x) ∧ OthersStand s t [(i, k), (0xD000 + c.val, 13)] := by
  have hin := (holdsOnly_iff _).mp hholds
  have hp := heldPlainly_of hholds hd
  unfold heldPlainly at hp
  have hacc : d.acc ≠ .const ∧ d.acc ≠ .ro := by
    have h1 := foldl_orElse_zero hchk (accessCheck true d) (by simp)
    unfold accessCheck at h1
    rw [if_pos rfl] at h1
    split at h1
    · exact absurd h1 (by decide)
    · exact not_or.mp ‹_›
  simp only [Bool.and_eq_true, Bool.not_eq_true', decide_eq_true_eq, Bool.or_eq_true, hacc.1, hacc.2, or_false, false_or] at hp
  obtain ⟨⟨hlong, hserv, hpair⟩, hbook⟩ := hp
  have hoff : sheafOn (calledState s c x) = false := (modeFlag_called s c x (by decide)).trans (sheafOn_alone h.single)
  have hforce : roleInForce (calledState s c x) true i k d ≠ .pair := by
    unfold roleInForce
    rw [hoff]
    exact hpair
  have hval : writeValue (calledState s c x) (Sys.ctx s c.val) i k d v .ok = Eff.ok (calledState s c x) 10 := by
    rw [writeValue_holdsOnly hholds henc, plainCheck_called s c x hholds, hplain]
    rfl
  obtain ⟨w, hperf, hset⟩ := performWrite_settles (e0 := Eff.ok (calledState s c x) 10) hd hty.1 hforce (by omega) (by unfold isCarried; simp; omega)
    (by unfold isSensorSetting; simp; omega) hval rfl (capacity_ok (room_called hroom c x) (by simp [hlong])) rfl
  have heff : callOut s c x 2 a .ok = .just { Eff.ok (calledState s c x) 10 with s := w } := by
    have hfind : findObj (a.getD 0 0) (a.getD 1 0) = .ok d := by
      unfold findObj
      rw [hi, hk, hd]
    have hcode : Sys.checks (calledState s c x) c.val true (a.getD 0 0) (a.getD 1 0) d (some (some v)) = 0 := by
      rw [hi, hk, checks_called h hholds hserv, hchk]
    have hwritten : performWrite (calledState s c x) (Sys.ctx s c.val) (a.getD 0 0) (a.getD 1 0) d v .ok = { Eff.ok (calledState s c x) 10 with s := w } := by
      rw [hi, hk]
      exact hperf
    show Sys.write (calledState s c x) c.val a (callBytes x 2 a) .ok = _
    unfold Sys.write
    dsimp only
    rw [hfind]
    dsimp only
    rw [if_neg hty.1, if_neg hty.2, ← hv, hcode, ctx_called, hwritten, if_neg (by simp), if_neg (by
      rintro (h1 | h1 | h1)
      · exact hty.1 h1
      · exact h1 hsize.1
      · omega)]
  have hst : Steady s w := ((steady_called s c x).setObj _ _ _).settled hset
  have hothers : OthersStand (calledState s c x) w [(i, k)] := fun i' k' hk' hb hx =>
    (hset.objects i' k' hk' hb).trans (((OthersStand.refl _).widen (by simp)).setObj _ hsub (List.mem_singleton_self _) i' k' hk' hb hx)
  obtain ⟨t, hrun, hret, hset', hkeep⟩ := call_returns (i := .syscallWrite c .ok) (want := fun k => decide (k = 2)) h (by decide) rfl rfl heff
    ⟨nofun, nofun⟩ hst hothers ⟨by simp; omega, by simp; omega⟩
  have htwc : w.twc = (calledState s c x).twc := (congrArg (fun u => u.twc) hset.rest).trans (setObj_twc _ _ _ _)
  refine ⟨t, hrun, hret, ?_, calling_after (s := s) (x := x) hset' htwc, hkeep⟩
  have hstored : getObj w i k = d.decode v := by
    rw [hset.objects _ _ hsub hbook]
    show getObj (setObj (calledState s c x) i k _) i k = _
    rw [getObj_setObj _ _ hsub hsub, if_pos ⟨rfl, rfl, by rw [hd]; rfl⟩]
  exact (hset'.objects _ _ hsub hbook).trans hstored

end

/-- Settles O36: a READ takes the value at its ordering point, a WRITE stores its value in its admission. -/
theorem dictionaryCallsComplete : Obligations.dictionary_calls_complete := by
  unfold Obligations.dictionary_calls_complete
  intro s c x a i k d hi hk hd hty
  refine ⟨fun u v h hu hchk hv hlen hconf => syscallRead_returns h hu hi hk hd hty hchk hv hlen hconf,
    fun v h hroom hv hlabel hsub hsize hmax hchk hholds henc hplain => ?_⟩
  have hin : holdsOnly i = true := (holdsOnly_iff i).mpr (by omega)
  exact syscallWrite_stores h hroom hi hk hd ⟨hty, hlabel⟩ hsub ⟨hsize, hmax⟩ hv hchk hin henc hplain

end Sys2Proof.Machine
end

section
/-! SUPPORT. Channel calls of a cell (R230, R233, R447). -/

namespace Sys2Proof.Machine

section
variable {s : State} {c : Fin 32} {x : Cell} {a : List Nat} {n : Nat}

theorem sameKeys_called (s : State) (c : Fin 32) (x : Cell) : SameKeys s (calledState s c x) := by
  obtain ⟨tw, p, r, w, d, m, -, e⟩ := calledState_cases s c x
  rw [e]
  exact ⟨rfl, rfl, rfl, rfl, rfl, rfl⟩

theorem called_alone (h : num s 0x2000 2 = 0) (c : Fin 32) (x : Cell) : sheafOn (calledState s c x) = false :=
  (modeFlag_called s c x (by decide)).trans (sheafOn_alone h)

theorem num_called_at (s : State) (c : Fin 32) (x : Cell) {i k : Nat} (hk : k < 256) (hi : i < 0xD000 ∨ 0xD020 ≤ i) : num (calledState s c x) i k = num s i k :=
  congrArg Val.toNat (getObj_called s c x hk (by omega))

theorem SameKeys.domainOf {a b : State} (h : SameKeys a b) (f n : Nat) : domainOf b f n = domainOf a f n := by
  induction f generalizing n with
  | zero => rfl
  | succ f ih => simp only [Machine.domainOf, nodeOf_congr h.nodes, ih]

/-- A frame is sealed under what the channel's own objects and its key node give (R220 to R223). -/
theorem sealFrame_congr {a b : State} (h : SameKeys a b) (ha : sheafOn a = false) (hb : sheafOn b = false) {n : Nat}
    (hnum : ∀ k, k < 256 → num b (0x4000 + n) k = num a (0x4000 + n) k) (kind seq : Nat) (v : Bytes) : sealFrame b n kind seq v = sealFrame a n kind seq v := by
  have hc : ∀ k, k < 256 → cnum b n k = cnum a n k := fun k hk => by rw [cnum_alone ha, cnum_alone hb, hnum k hk]
  have hf : chanField b n = chanField a n := by
    unfold chanField
    rw [pairNo_alone ha, pairNo_alone hb]
  have hk : keyNodeOf b n = keyNodeOf a n := by
    unfold keyNodeOf
    rw [hc 2 (by decide)]
  unfold sealFrame
  dsimp only
  unfold Machine.frameHead frameNonce
  rw [hc 8 (by decide), hf, hk, h.nodeKey, h.domainOf]

/-- What the send of a frame leaves: its slot, the last one numbered, and the sequence gone on by one (R230). -/
structure Sent (u t : State) (n : Nat) (f : Bytes) : Prop where
  slot : ∃ y ∈ t.slots, y.id + 1 = t.seq.nextId ∧ y.adm = u.seq.adm ∧ y.numbered = true ∧ y.due = u.seq.admTime + 4 ∧ y.acts = [.lane1 (.chfDown f)]
  others : OthersStand u t [(0x4000 + n, 9), (0x4000 + n, 0x12)]
  sequence : num t (0x4000 + n) 9 = num u (0x4000 + n) 9 + 1
  cells : t.twc = u.twc
  steady : ∀ s, Steady s u → Steady s t

theorem warm_twc (u : State) (n : Nat) : (warm u n).twc = u.twc := by
  obtain ⟨hh, p, x, e⟩ := warm_cases u n
  rw [e]

theorem forceIfHigh_leaves (u : State) (n m : Nat) : ∃ q, forceIfHigh u n m = { u with internal := q } := by
  unfold forceIfHigh
  split
  · exact ⟨_, rfl⟩
  · exact ⟨u.internal, rfl⟩

theorem sendFrame_sent {u : State} {kind : Nat} {body : Bytes} (hn : n < 0x8000) (ha : sheafOn u = false) (hseq : num u (0x4000 + n) 9 < 0xFFFFFFFF)
    (hent : num u 0x2300 1 ≠ 3) (hdown : u.entropyDown = false) (hlane : num u 0xCF20 1 = 0) :
    ∃ t, sendFrame u n kind body .ok = (t, 0) ∧ Sent u t n (sealFrame u n kind (num u (0x4000 + n) 9) body) := by
  unfold sendFrame
  rw [cnum_alone ha]
  extract_lets seq frame v w x y
  have hpair : (0x2000, 2) ∉ [(0x4000 + n, 9), (0x4000 + n, 0x12)] := by simp
  have hv : Keeps u v [(0x4000 + n, 9), (0x4000 + n, 0x12)] := ((Keeps.refl u _).warm _).claimMasks _
  have hup : cipherUp v = true := by
    unfold cipherUp
    rw [hv.objects.num (by decide) (by decide) (by simp), hlane]
    rfl
  have hwe : w = forceIfHigh (setNum v (0x4000 + n) 9 (seq + 1)) n (seq + 1) := by
    unfold w
    rw [setC_alone (hv.alone ha hpair)]
  have hw : Keeps u w [(0x4000 + n, 9), (0x4000 + n, 0x12)] := by
    rw [hwe]
    exact (hv.setNum _ (by decide) (by simp)).forceIfHigh _ _
  have hxe : x = count (setNum w (0x4000 + n) 0x12 (sat32 (cnum w n 0x12) 1)) 1 0 1 := by
    unfold x incC
    rw [setC_alone (hw.alone ha hpair)]
  have hx : Keeps u x [(0x4000 + n, 9), (0x4000 + n, 0x12)] := by
    rw [hxe]
    exact (hw.setNum _ (by decide) (by simp)).count _ _ _
  have hnine : num x (0x4000 + n) 9 = num u (0x4000 + n) 9 + 1 := by
    rw [hxe, num_count, num_setChannel hn rfl (by decide) (by decide), if_neg (by simp), hwe]
    obtain ⟨q, e⟩ := forceIfHigh_leaves (setNum v (0x4000 + n) 9 (seq + 1)) n (seq + 1)
    rw [e]
    exact (num_setChannel hn rfl (by decide) (by decide)).trans (if_pos ⟨rfl, rfl⟩)
  have htwc : x.twc = u.twc := by
    obtain ⟨q, e⟩ := forceIfHigh_leaves (setNum v (0x4000 + n) 9 (seq + 1)) n (seq + 1)
    rw [hxe, count_twc, setNum_twc, hwe, e]
    exact (setNum_twc _ _ _ _).trans (warm_twc _ _)
  rw [if_neg (by omega), if_neg hent, if_neg (by rw [hv.down, hdown]; decide), if_neg (by rw [hup]; decide)]
  refine ⟨_, rfl, ⟨_, List.mem_append_right _ (List.mem_singleton_self _), rfl, ?_, rfl, ?_, rfl⟩, hx.objects, hnine, htwc, fun s hs => ?_⟩
  · exact congrArg (fun q => q.adm) hx.seq
  · show y.seq.admTime + 4 = _
    rw [show y.seq = x.seq from rfl, hx.seq]
  · have := hx.steady s hs
    exact ⟨this.adm, this.time, this.first, this.queue, this.fuses⟩

/-- A call admitted, with the state that its admission is settled on (R443). -/
theorem call_settles {o : Sys.Out} {m : Nat} {want : Nat → Bool} {i : Instr} (h : Calls s c x m a) (hm : m ≠ 1 ∧ m ≠ 6) (hw : want m = true)
    (hexec : exec i s = coreCmd (fun s => Sys.call s c want .ok) s) (ho : callOut s c x m a .ok = o) (hc : o.e.code = 0) {D : State}
    (hD : Sys.leave o.e.s c.val m o true (decide (m = 0x20 ∧ a.getD 0 0 / 0x8000 = 0)) = D) (hsingle : num D 0x2000 2 = 0) (hst : Steady s D) :
    ∃ t, exec i s = .next t ∧ Settled D t := by
  have hleave : Sys.leave o.e.s c.val m o true (decide (m = 0x20 ∧ o.e.code = 0 ∧ a.getD 0 0 / 0x8000 = 0)) = D := by
    rw [← hD, hc]
    simp
  have hset := call_admits (want := want) (phys := .ok) h hm hw ho ((raiseFault_sound _ (by rw [hc]; exact ⟨nofun, nofun⟩) _).trans hleave) hsingle
  exact ⟨_, hexec.trans (coreCmd_next rfl ((congrArg (fun x => x.pending) hset.rest).trans hst.queue) ((congrArg (fun x => x.otp) hset.rest).trans hst.fuses)), hset⟩

theorem chanCheck_called (hs : num s 0x2000 3 = 0) (hn : n < 0x8000) (hown : num s (0x4000 + n) 5 = 0x100 + c.val) : Sys.chanCheck (calledState s c x) c.val n = 0 := by
  have hserv : serviceOn (calledState s c x) = false := by
    unfold serviceOn
    rw [modeFlag_called s c x (by decide)]
    unfold modeFlag
    rw [hs]
    rfl
  have hmod : n % 0x8000 = n ∧ n / 0x8000 = 0 := by omega
  unfold Sys.chanCheck
  dsimp only
  rw [hmod.1, hmod.2, num_called_at s c x (by decide) (by omega), hserv, if_neg (by omega), if_neg (by omega), if_neg (fun h => h hown), if_neg (by simp)]

theorem chanGate_called (hs : num s 0x2000 2 = 0) (n : Nat) : Sys.chanGate (calledState s c x) n = 0 := by
  unfold Sys.chanGate pairGate
  rw [called_alone hs]
  rfl

/-- The slots with a call's results behind the frame numbered last (R230, R443). -/
def withReturn (t : State) (ret : Act) : State :=
  { t with slots := t.slots.map fun y => if y.id + 1 = t.seq.nextId then { y with acts := y.acts ++ [ret] } else y }

/-- CH_SEND on an open channel (R230, R447). -/
theorem chSend_returns (hserv : num s 0x2000 3 = 0) (h : Calls s c x 0x20 a) (hf : a.getD 0 0 = n) (hn : n < 0x8000) (hown : num s (0x4000 + n) 5 = 0x100 + c.val)
    (hstate : num s (0x4000 + n) 1 = 3 ∨ num s (0x4000 + n) 1 = 4) (hlen : a.getD 2 0 ≤ tmplAt s n 4 (num s (0x3000 + num s (0x4000 + n) 3) 5))
    (hseq : num s (0x4000 + n) 9 < 0xFFFFFFFF) :
    ∃ t, exec (.chSend c .ok) s = .next t ∧
      Returns s t c 4 0 [(11, num s (0x4000 + n) 9)] [] [.lane1 (.chfDown (sealFrame s n 1 (num s (0x4000 + n) 9) (callBytes x 0x20 a)))] ∧
      num t (0x4000 + n) 9 = num s (0x4000 + n) 9 + 1 ∧ SMap.look t.twc.cells c.val = some (calling x) := by
  have hoff := called_alone h.single c x
  have hchan : ∀ k, k < 256 → num (calledState s c x) (0x4000 + n) k = num s (0x4000 + n) k := fun k hk => num_called_at s c x hk (by omega)
  have hdown : (calledState s c x).entropyDown = false := by
    obtain ⟨tw, p, r, w, d, m, -, e⟩ := calledState_cases s c x
    rw [e]
    exact h.ready.source
  obtain ⟨u, hsend, hsent⟩ := sendFrame_sent (u := calledState s c x) (kind := 1) (body := callBytes x 0x20 a) hn hoff (by rw [hchan 9 (by decide)]; exact hseq)
    (by rw [num_called_at s c x (by decide) (by decide)]; exact h.ready.entropy) hdown (by rw [num_called_at s c x (by decide) (by decide)]; exact h.ready.lane)
  have hseal := sealFrame_congr (sameKeys_called s c x) (sheafOn_alone h.single) hoff hchan 1 (num s (0x4000 + n) 9) (callBytes x 0x20 a)
  rw [hchan 9 (by decide), hseal] at hsent
  have hroom : ¬(a.getD 2 0 > tmplAt (calledState s c x) n 4 (num (calledState s c x) (0x3000 + cnum (calledState s c x) n 3) 5)) := by
    have htmpl : ∀ k, tmplAt (calledState s c x) n 4 k = tmplAt s n 4 k := fun k => by
      obtain ⟨tw, p, r, w, d, m, -, e⟩ := calledState_cases s c x
      rw [e]
      rfl
    have hmax : num (calledState s c x) (0x3000 + num s (0x4000 + n) 3) 5 = num s (0x3000 + num s (0x4000 + n) 3) 5 :=
      congrArg Val.toNat (getObj_called s c x (by decide) (by omega))
    rw [cnum_alone hoff, hchan 3 (by decide), htmpl, hmax]
    omega
  have hmod : n % 0x8000 = n ∧ n / 0x8000 = 0 := by omega
  have hopen : ¬(chanState (calledState s c x) n ≠ Ch.isOpen ∧ chanState (calledState s c x) n ≠ Ch.rekeying) ∧ chanState (calledState s c x) n ≠ Ch.orphaned := by
    unfold chanState
    rw [cnum_alone hoff, hchan 1 (by decide)]
    rcases hstate with e | e <;> rw [e] <;> decide
  have hout : callOut s c x 0x20 a .ok = .regsIf (Eff.of Lat.frame (u, 0)) [(11, num s (0x4000 + n) 9)] := by
    show Sys.chSend (calledState s c x) c.val a (callBytes x 0x20 a) .ok = _
    unfold Sys.chSend
    dsimp only
    rw [hf, hmod.1, hmod.2, chanCheck_called hserv hn hown, chanGate_called h.single, pairNo_alone hoff, if_neg (by decide), if_neg (fun h => hroom h.2), if_neg (by decide), if_neg (by decide), if_neg hopen.2,
      if_neg hopen.1, cnum_alone hoff, hchan 9 (by decide), hsend]
  have hleave : Sys.leave u c.val 0x20 (.regsIf (Eff.of Lat.frame (u, 0)) [(11, num s (0x4000 + n) 9)]) true (decide (0x20 = 0x20 ∧ a.getD 0 0 / 0x8000 = 0)) =
      withReturn u (.cellRet c.val ((10, 0) :: [(11, num s (0x4000 + n) 9)]) []) := by
    rw [hf, hmod.2]
    rfl
  have hsteady : Steady s u := hsent.steady s (steady_called s c x)
  have hobj : OthersStand (calledState s c x) (withReturn u (.cellRet c.val ((10, 0) :: [(11, num s (0x4000 + n) 9)]) [])) [(0x4000 + n, 9), (0x4000 + n, 0x12)] := hsent.others
  obtain ⟨t, hrun, hset⟩ := call_settles (i := .chSend c .ok) (want := fun k => decide (k = 0x20)) h (by decide) rfl rfl hout rfl hleave
    ((hobj.num (by decide) rfl (by simp)).trans ((num_called_at s c x (by decide) (by decide)).trans h.single))
    ⟨hsteady.adm, hsteady.time, hsteady.first, hsteady.queue, hsteady.fuses⟩
  refine ⟨t, hrun, ?_, ?_, ?_⟩
  · obtain ⟨y, hy, hid, hadm, hnum, hdue, hacts⟩ := hsent.slot
    refine ⟨(congrArg (fun u => u.seq.adm) hset.rest).trans hsteady.adm, (congrArg (fun u => u.seq.admTime) hset.rest).trans hsteady.time, ?_, ?_⟩
    · refine Eq.trans (congrArg Val.toNat (hset.objects _ 13 (by decide) ?_)) ((hobj.num (by decide) ?_ ?_).trans (called_count s c x))
      · unfold bookkeeping
        simp
      · unfold bookkeeping
        simp
      · simp
    · have hslots := congrArg (fun u => u.slots) hset.rest
      refine ⟨_, by rw [show t.slots = _ from hslots]; exact List.mem_map.mpr ⟨y, hy, rfl⟩, ?_⟩
      rw [if_pos hid]
      exact ⟨hadm.trans (called_adm s c x).1, hnum, by rw [show _ = y.due from rfl, hdue, (called_adm s c x).2], by rw [show _ = y.acts ++ _ from rfl, hacts]⟩
  · refine (congrArg Val.toNat (hset.objects _ 9 (by decide) (bookkeeping_channel hn))).trans ?_
    exact hsent.sequence.trans (by rw [hchan 9 (by decide)])
  · have hcells := congrArg (fun u => u.twc) hset.rest
    rw [show t.twc = _ from hcells]
    exact (congrArg (fun tw => SMap.look tw.cells c.val) hsent.cells).trans (called_cell s c x)

/-- What the head record of a channel leaves alone where it is taken (R233). -/
theorem popRecord_leaves {u : State} (ha : sheafOn u = false) :
    OthersStand u (popRecord u n) [(0x4000 + n, 0x11), (0x4000 + n, 0x0B), (0x3100, 2)] ∧ (popRecord u n).twc = u.twc := by
  unfold popRecord
  extract_lets s0 s1 s2
  have h0 : OthersStand u s0 [(0x4000 + n, 0x11), (0x4000 + n, 0x0B), (0x3100, 2)] ∧ s0.twc = u.twc := by
    unfold s0
    split
    · exact ⟨fun _ _ _ _ _ => rfl, rfl⟩
    · exact ⟨fun _ _ _ _ _ => rfl, rfl⟩
  have hoff : sheafOn s0 = false := (sheafOn_stands h0.1 (by simp)).trans ha
  have h2 : OthersStand u s2 [(0x4000 + n, 0x11), (0x4000 + n, 0x0B), (0x3100, 2)] ∧ s2.twc = u.twc := by
    unfold s2 s1 freeCells
    rw [setC_alone hoff]
    refine ⟨((h0.1.setNum _ (by decide) (by simp)).setNum _ (by decide) (by simp)).updChan _ _, ?_⟩
    show (setNum (setNum s0 _ _ _) _ _ _).twc = _
    rw [setNum_twc, setNum_twc, h0.2]
  have halone : sheafOn s2 = false := (sheafOn_stands h2.1 (by simp)).trans ha
  split
  · rw [setC_alone halone, setNum_twc]
    exact ⟨h2.1.setNum _ (by decide) (by simp), h2.2⟩
  · exact h2

/-- CH_RECV of a record that waits (R233, R447). -/
theorem chRecv_returns {r : RxRec} {rs : List RxRec} (hserv : num s 0x2000 3 = 0) (h : Calls s c x 0x21 a) (hf : a.getD 0 0 = n) (hn : n < 0x8000)
    (hown : num s (0x4000 + n) 5 = 0x100 + c.val) (hq : (chanOf s n).queue = r :: rs) :
    ∃ t, exec (.chRecv c) s = .next t ∧ Returns s t c 3 0 [(11, r.bytes.length)] [(a.getD 1 0, r.bytes)] [] ∧ (chanOf t n).queue = rs ∧
      num t 0x3100 2 = num s 0x3100 2 + 1 ∧ SMap.look t.twc.cells c.val = some (calling x) := by
  have hoff := called_alone h.single c x
  obtain ⟨hpop, -, hfreed, hsteady⟩ := popRecord_pops hn hoff
  obtain ⟨hothers, hcells⟩ := popRecord_leaves (n := n) hoff
  have hchans : (calledState s c x).chans = s.chans := by
    obtain ⟨tw, p, r, w, d, m, -, e⟩ := calledState_cases s c x
    rw [e]
  have hqueue : (chanOf (calledState s c x) n).queue = r :: rs := by rw [chanOf_congr hchans, hq]
  have hout : callOut s c x 0x21 a .ok = ⟨Eff.ok (popRecord (calledState s c x) n) 3, [(11, r.bytes.length)], [(a.getD 1 0, r.bytes)]⟩ := by
    show Sys.chRecv (calledState s c x) c.val a = _
    unfold Sys.chRecv
    dsimp only
    rw [hf, show n % 0x8000 = n by omega, show n / 0x8000 = 0 by omega, chanCheck_called hserv hn hown, chanGate_called h.single, pairNo_alone hoff, decide_eq_true rfl,
      if_pos rfl, hqueue]
    rfl
  obtain ⟨t, hrun, hret, hset, -⟩ := call_returns (i := .chRecv c) (want := fun k => decide (k = 0x21)) h (by decide) rfl rfl hout ⟨nofun, nofun⟩
    (hsteady s (steady_called s c x)) hothers ⟨by simp, by simp⟩
  refine ⟨t, hrun, hret, ?_, ?_, calling_after (s := s) (x := x) hset hcells⟩
  · rw [chanOf_congr (show t.chans = _ from congrArg (fun u => u.chans) hset.rest)]
    exact hpop.trans (by rw [hqueue]; rfl)
  · refine (congrArg Val.toNat (hset.objects _ 2 (by decide) rfl)).trans (hfreed.trans ?_)
    rw [num_called_at s c x (by decide) (by decide)]

end

end Sys2Proof.Machine
end

section
/-! SUPPORT. Key calls of a cell (R345, R347, R449). -/

namespace Sys2Proof.Machine

theorem fixedNode_root (c : Fin 32) : fixedNode (0x20 + c.val) = none := by
  have h : ∀ c : Fin 32, (fixedNode (0x20 + c.val)).isNone = true := by decide
  exact Option.isNone_iff_eq_none.mp (h c)

theorem fixedNode_parent {k : Nat} {y : Node} (h : fixedNode k = some y) : y.parent < 0x20 := by
  unfold fixedNode at h
  dsimp only at h
  split at h
  all_goals try (cases h; decide)
  split at h
  · cases h
    show 0x10 + (k - 0x40) / 16 < 0x20
    omega
  · cases h

theorem loadBytes_length (x : Cell) (i n : Nat) : (loadBytes x i n).length = n := by
  unfold loadBytes
  simp

/-- The fields of the value that a KEY_CREATE makes of its 40 bytes (R449). -/
theorem cellValue_fields {w : Nat} {v u : Bytes} (hw : w < 4294967296) (hv : v.length = 40)
    (hu : u = leBytes 4 w ++ v.take 5 ++ (v.drop 8).take 32 ++ (v.drop 5).take 3) :
    leNat ((u.drop 0).take 4) = w ∧ leNat ((u.drop 4).take 1) = (v.getD 0 0).toNat ∧ leNat ((u.drop 5).take 1) = (v.getD 1 0).toNat ∧
      leNat ((u.drop 6).take 2) = leNat ((v.drop 2).take 2) ∧ leNat ((u.drop 8).take 1) = (v.getD 4 0).toNat ∧ (u.drop 9).take 32 = (v.drop 8).take 32 ∧
      (u.drop 41).take 3 = (v.drop 5).take 3 := by
  have h4 : leNat (leBytes 4 w) = w := leNat_leBytes 4 _ hw
  obtain ⟨a0, a1, a2, a3, ha⟩ : ∃ a0 a1 a2 a3, leBytes 4 w = [a0, a1, a2, a3] := ⟨_, _, _, _, rfl⟩
  rw [ha] at h4 hu
  rcases v with _ | ⟨v0, _ | ⟨v1, _ | ⟨v2, _ | ⟨v3, _ | ⟨v4, _ | ⟨v5, _ | ⟨v6, _ | ⟨v7, f⟩⟩⟩⟩⟩⟩⟩⟩ <;> simp at hv
  have htake : f.take 32 = f := List.take_of_length_le (by omega)
  have hshape : u = a0 :: a1 :: a2 :: a3 :: v0 :: v1 :: v2 :: v3 :: v4 :: (f ++ [v5, v6, v7]) := by
    rw [hu]
    simp [htake]
  rw [hshape]
  refine ⟨h4, leNat_single v0, leNat_single v1, rfl, leNat_single v4, ?_, ?_⟩
  · show (f ++ [v5, v6, v7]).take 32 = f.take 32
    rw [htake]
    exact List.take_left' hv
  · show ((f ++ [v5, v6, v7]).drop 32).take 3 = [v5, v6, v7]
    rw [List.drop_left' hv]
    rfl

/-- What a KEY_CREATE asks of its value and of the tree below its root (R346, R449). -/
structure CellCreatable (u : State) (c : Fin 32) (kind alg attrs : Nat) (label : Bytes) (p : Node) (n : Nat) : Prop where
  root : SMap.look u.pers.nodes (0x20 + c.val) = some p
  applet : p.kind = 3 ∧ p.level < 16
  living : live u (0x20 + c.val) = true
  leaf : 0x12 ≤ kind ∧ kind ≤ 0x15
  attrsOk : attrsAllowed kind alg attrs = true
  kept : bit attrs 5 = false
  room : (u.pers.nodes.filter fun q => decide (q.2.parent = 0x20 + c.val)).length < 64
  unlike : ∀ q ∈ u.pers.nodes, q.2.parent = 0x20 + c.val → q.2.kind = kind → q.2.alg = alg → q.2.label = label → live u q.1 = false
  free : freeNode u = some n

theorem nodeOf_root (u : State) (c : Fin 32) : nodeOf u (0x20 + c.val) = SMap.look u.pers.nodes (0x20 + c.val) := by
  unfold nodeOf
  rw [fixedNode_root]

/-- A KEY_CREATE makes the node written below the root of its cell (R449). -/
theorem createNodeOp_cell {u : State} {c : Fin 32} {v label : Bytes} {p : Node} {n : Nat} (hlen : v.length = 40) (hrsv : (v.drop 5).take 3 = [0, 0, 0])
    (hl : 1 ≤ (v.getD 4 0).toNat ∧ (v.getD 4 0).toNat ≤ 32) (hlabel : label = ((v.drop 8).take 32).take (v.getD 4 0).toNat)
    (hpad : (((v.drop 8).take 32).drop (v.getD 4 0).toNat).all (· = 0) = true)
    (h : CellCreatable u c (v.getD 0 0).toNat (v.getD 1 0).toNat (leNat ((v.drop 2).take 2)) label p n) :
    createNodeOp u (leBytes 4 (handleOf u (0x20 + c.val)) ++ v.take 5 ++ (v.drop 8).take 32 ++ (v.drop 5).take 3) (some c.val) =
      (allocNode u n ⟨0x20 + c.val, p.level + 1, (v.getD 0 0).toNat, (v.getD 1 0).toNat, leNat ((v.drop 2).take 2), label, epochOf u (0x20 + c.val)⟩, 0,
        handleOf (allocNode u n ⟨0x20 + c.val, p.level + 1, (v.getD 0 0).toNat, (v.getD 1 0).toNat, leNat ((v.drop 2).take 2), label, epochOf u (0x20 + c.val)⟩) n) := by
  have hc := c.isLt
  have hroot : nodeOf u (0x20 + c.val) = some p := (nodeOf_root u c).trans h.root
  have hlevel := h.applet.2
  have hhandle : handleOf u (0x20 + c.val) = 0x20 + c.val + p.level * 0x10000 := by
    unfold handleOf
    rw [hroot]
    dsimp only
    rw [if_pos (by omega)]
    omega
  have hmod : handleOf u (0x20 + c.val) % 0x10000 = 0x20 + c.val := by omega
  have hnamed : nodeByHandle u (handleOf u (0x20 + c.val)) = some (0x20 + c.val) := by
    unfold nodeByHandle
    dsimp only
    rw [hmod, hroot, if_pos ⟨by omega, rfl, rfl⟩]
  obtain ⟨f0, f4, f5, f6, f8, f9, f41⟩ := cellValue_fields (w := handleOf u (0x20 + c.val)) (by omega) hlen rfl
  replace f41 := f41.trans hrsv
  have hkind : kindAllowed u (0x20 + c.val) (v.getD 0 0).toNat true = true := by
    unfold kindAllowed
    rw [hroot]
    dsimp only
    rw [if_neg (by omega), if_neg (by rw [h.applet.1]; decide), if_pos h.applet.1, decide_eq_true h.leaf]
    rfl
  have hdup : ((fixedNumbers ++ u.pers.nodes.map fun q => q.1).any fun m => ((nodeOf u m).map fun y =>
      decide (y.parent = 0x20 + c.val ∧ y.kind = (v.getD 0 0).toNat ∧ y.alg = (v.getD 1 0).toNat ∧ y.label = label)).getD false && live u m) = false := by
    rw [List.any_eq_false]
    intro m _ hm
    obtain ⟨hy, hlive⟩ := Bool.and_eq_true_iff.mp hm
    cases hn : nodeOf u m with
    | none =>
      rw [hn] at hy
      cases hy
    | some y =>
      rw [hn] at hy
      obtain ⟨hp, hk, ha, hlb⟩ := of_decide_eq_true hy
      unfold nodeOf at hn
      split at hn
      · have hfix := fixedNode_parent (y := y) (by rw [← hn]; assumption)
        omega
      · rw [h.unlike (m, y) (SMap.mem_of_look hn) hp hk ha hlb] at hlive
        cases hlive
  have hsmall := attrs_small h.attrsOk
  have hroom := h.room
  unfold createNodeOp
  dsimp only
  simp only [f0, f4, f5, f6, f8, f9, f41, hmod]
  rw [if_neg (by rw [hpad]; simp [leNat]; omega), if_neg (by omega), hnamed, if_neg (by simp), h.living, if_neg (by simp)]
  simp only [Option.isSome_some]
  rw [hkind, if_neg (by simp), h.attrsOk, h.kept, if_neg (by simp), ← hlabel, if_neg (by omega : ¬(v.getD 4 0).toNat = 0), hdup, if_neg (by simp; omega), h.free, hroot]

theorem storing_unworn {u : State} (h : Unworn u) (r : State × Nat) : Sys.storing u .ok r = r := by
  obtain ⟨hc, hd, hj⟩ := h
  have hw : wears u r.1 = false := by
    unfold wears
    rw [decide_eq_false (by omega : ¬lapLimit ≤ u.pers.laps.commit), decide_eq_false (by omega : ¬lapLimit ≤ u.pers.laps.dict), decide_eq_false (by omega : ¬lapLimit ≤ u.pers.laps.jour)]
    simp
  unfold Sys.storing
  rw [hw]
  split
  · rfl
  · rfl

section
variable {s : State} {c : Fin 32} {x : Cell} {a : List Nat} {n : Nat}

theorem unworn_called (h : Unworn s) (c : Fin 32) (x : Cell) : Unworn (calledState s c x) := by
  obtain ⟨tw, p, r, w, d, m, -, e⟩ := calledState_cases s c x
  rw [e]
  exact h

theorem CellCreatable.called {kind alg attrs : Nat} {label : Bytes} {p : Node} (h : CellCreatable s c kind alg attrs label p n) (x : Cell) :
    CellCreatable (calledState s c x) c kind alg attrs label p n := by
  have hkeys := sameKeys_called s c x
  refine ⟨by rw [hkeys.nodes]; exact h.root, h.applet, (live_sameKeys hkeys _).trans h.living, h.leaf, h.attrsOk, h.kept, by rw [hkeys.nodes]; exact h.room, fun q hq => ?_, ?_⟩
  · rw [hkeys.nodes] at hq
    rw [live_sameKeys hkeys]
    exact h.unlike q hq
  · have := h.free
    unfold freeNode at this ⊢
    rw [hkeys.nodes]
    exact this

/-- KEY_CREATE (R345, R449). -/
theorem keyCreate_returns {v label : Bytes} {p : Node} (h : Calls s c x 0x30 a) (hw : Unworn s) (hv : v = callBytes x 0x30 a) (hrsv : (v.drop 5).take 3 = [0, 0, 0])
    (hl : 1 ≤ (v.getD 4 0).toNat ∧ (v.getD 4 0).toNat ≤ 32) (hlabel : label = ((v.drop 8).take 32).take (v.getD 4 0).toNat)
    (hpad : (((v.drop 8).take 32).drop (v.getD 4 0).toNat).all (· = 0) = true)
    (hc : CellCreatable s c (v.getD 0 0).toNat (v.getD 1 0).toNat (leNat ((v.drop 2).take 2)) label p n) :
    ∃ t, exec (.keyCreate ⟨c, .ok⟩) s = .next t ∧ Returns s t c 10 0 [(11, handleOf t n)] [] [] ∧
      t.pers.nodes = SMap.put s.pers.nodes n ⟨0x20 + c.val, p.level + 1, (v.getD 0 0).toNat, (v.getD 1 0).toNat, leNat ((v.drop 2).take 2), label,
        epochOf s (0x20 + c.val)⟩ ∧ SMap.look t.twc.cells c.val = some (calling x) := by
  have hkeys := sameKeys_called s c x
  have hlen : v.length = 40 := by
    rw [hv]
    exact loadBytes_length _ _ _
  have hcreate := createNodeOp_cell (u := calledState s c x) (v := v) hlen hrsv hl hlabel hpad (hc.called x)
  rw [show epochOf (calledState s c x) (0x20 + c.val) = epochOf s (0x20 + c.val) from epochOf_congr hkeys.epochs _] at hcreate
  let node : Node := ⟨0x20 + c.val, p.level + 1, (v.getD 0 0).toNat, (v.getD 1 0).toNat, leNat ((v.drop 2).take 2), label, epochOf s (0x20 + c.val)⟩
  have hout : callOut s c x 0x30 a .ok = .regsIf (Eff.of Lat.write (allocNode (calledState s c x) n node, 0)) [(11, handleOf (allocNode (calledState s c x) n node) n)] := by
    show Sys.keyCreate (calledState s c x) c.val (callBytes x 0x30 a) .ok = _
    unfold Sys.keyCreate
    dsimp only
    rw [← hv, show rootOf c.val = 0x20 + c.val from rfl, hcreate, storing_unworn (unworn_called hw c x)]
  have hsteady : Steady s (allocNode (calledState s c x) n node) := (steady_called s c x).withPers _
  have hnodes : (allocNode (calledState s c x) n node).pers.nodes = SMap.put s.pers.nodes n node := congrArg (fun m => SMap.put m n node) hkeys.nodes
  have hcells : (allocNode (calledState s c x) n node).twc = (calledState s c x).twc := rfl
  have hothers : OthersStand (calledState s c x) (allocNode (calledState s c x) n node) [] := fun _ _ _ _ _ => rfl
  generalize allocNode (calledState s c x) n node = u at hout hsteady hnodes hcells hothers
  obtain ⟨t, hrun, hret, hset, -⟩ := call_returns (i := .keyCreate ⟨c, .ok⟩) (want := fun k => decide (k = 0x30)) h (by decide) rfl rfl hout ⟨nofun, nofun⟩
    hsteady hothers ⟨by simp, by simp⟩
  have hpers : t.pers.nodes = u.pers.nodes ∧ t.pers.allocs = u.pers.allocs :=
    ⟨congrArg (fun u => u.pers.nodes) hset.rest, congrArg (fun u => u.pers.allocs) hset.rest⟩
  rw [← handleOf_congr hpers.1 hpers.2] at hret
  exact ⟨t, hrun, hret, hpers.1.trans hnodes, calling_after (s := s) (x := x) hset hcells⟩

/-- KEY_REMOVE of an orphaned leaf (R347, R449). -/
theorem keyRemove_returns (h : Calls s c x 0x31 a) (hw : Unworn s) (hn : nodeByHandle s (a.getD 0 0) = some n) (hb : below s (0x20 + c.val) n = true) (h100 : 0x100 ≤ n)
    (hdead : live s n = false) (hleaf : childCount s n = 0) (hfree : keySet s (fun k => decide (k % 0x10000 = n)) = false) :
    ∃ t, exec (.keyRemove ⟨c, .ok⟩) s = .next t ∧ Returns s t c 10 0 [] [] [] ∧ t.pers.nodes = SMap.del s.pers.nodes n ∧
      SMap.look t.twc.cells c.val = some (calling x) := by
  have hkeys := sameKeys_called s c x
  have hnamed := (nodeByHandle_sameKeys hkeys (a.getD 0 0)).trans hn
  have hbelow : below (calledState s c x) (0x20 + c.val) n = true := by
    unfold below at hb ⊢
    rw [belowGo_sameKeys hkeys]
    exact hb
  have hchild : childCount (calledState s c x) n = 0 := by
    unfold childCount at hleaf ⊢
    rw [hkeys.nodes]
    exact hleaf
  have hunset : keySet (calledState s c x) (fun k => decide (k % 0x10000 = n)) = false := by
    have hdict : (calledState s c x).pers.dict = s.pers.dict := by
      obtain ⟨tw, p, r, w, d, m, -, e⟩ := calledState_cases s c x
      rw [e]
    unfold keySet at hfree ⊢
    rw [hdict, chSub_alone (called_alone h.single c x), called_alone h.single c x]
    rw [chSub_alone (sheafOn_alone h.single), sheafOn_alone h.single] at hfree
    exact hfree
  have hout : callOut s c x 0x31 a .ok = .just (Eff.of Lat.write (withoutNode (calledState s c x) n, 0)) := by
    show Sys.keyRemove (calledState s c x) c.val a .ok = _
    unfold Sys.keyRemove
    rw [hnamed]
    dsimp only
    rw [show rootOf c.val = 0x20 + c.val from rfl, if_pos hbelow, storing_unworn (unworn_called hw c x)]
    unfold removeNodeOp
    rw [hnamed]
    dsimp only
    rw [if_neg (by omega), if_neg (by rw [live_sameKeys hkeys, hdead, hchild, hunset]; simp)]
    rfl
  obtain ⟨t, hrun, hret, hset, -⟩ := call_returns (i := .keyRemove ⟨c, .ok⟩) (want := fun k => decide (k = 0x31)) h (by decide) rfl rfl hout ⟨nofun, nofun⟩
    ((steady_called s c x).withPers _) (xs := []) (fun _ _ _ _ _ => rfl) ⟨by simp, by simp⟩
  have hnodes : (withoutNode (calledState s c x) n).pers.nodes = SMap.del s.pers.nodes n := congrArg (fun m => SMap.del m n) hkeys.nodes
  exact ⟨t, hrun, hret, (congrArg (fun u => u.pers.nodes) hset.rest : t.pers.nodes = _).trans hnodes, calling_after (s := s) (x := x) hset rfl⟩

/-- A bump writes only objects of channels (R236). -/
theorem orphanChannels_num (u : State) (xs : List Nat) {i k : Nat} (hk : k < 256) (hi : i < 0x4000 ∨ 0xC000 ≤ i) : num (orphanChannels u xs) i k = num u i k := by
  have hkeyed : ∀ p ∈ keyedChans u, p.1 < 0x8000 := by
    intro p hp
    unfold keyedChans at hp
    obtain ⟨q, -, hq⟩ := List.mem_filterMap.mp hp
    split at hq
    · rw [← Option.some.inj hq]
      show q.1 / 256 - 0x4000 < 0x8000
      omega
    · cases hq
  have hgo : ∀ (ps : List (Nat × Nat)) (t : State), (∀ p ∈ ps, p.1 < 0x8000) →
      num (ps.foldl (fun t p => if (xs.any fun y => below u y (p.2 % 0x10000)) = true ∧ chanState t p.1 ≠ 0 then setC t p.1 1 Ch.orphaned else t) t) i k = num t i k := by
    intro ps
    induction ps with
    | nil => exact fun t _ => rfl
    | cons p ps ih =>
      intro t hp
      obtain ⟨hlt, hps⟩ := List.forall_mem_cons.mp hp
      refine (ih _ hps).trans ?_
      dsimp only
      split
      · have hsub : chSub t 1 < 256 := by
          unfold chSub pairNo
          split <;> omega
        exact (num_setNum _ _ hsub hk).trans (if_neg (by omega))
      · rfl
  exact hgo _ _ hkeyed

/-- A bump of one node writes only objects of channels, and leaves the cells (R236, R335). -/
theorem bumpNodes_leaves (u : State) {n : Nat} (hn : n ≠ 4) : (∀ s, Steady s u → Steady s (bumpNodes u [n])) ∧ (bumpNodes u [n]).twc = u.twc ∧
    ∀ {i k}, k < 256 → (i < 0x4000 ∨ 0xC000 ≤ i) → num (bumpNodes u [n]) i k = num u i k := by
  have hplain : ¬([n].contains 4 = true ∧ u.pers.pair.isSome = true) := by
    rintro ⟨h4, -⟩
    simp at h4
    omega
  have hobj : ∀ i k, num (afterBump u [n]) i k = num (orphanChannels u [n]) i k := fun _ _ => rfl
  obtain ⟨e, b1, b2, pf, hr⟩ := raiseEpochs_leaves (afterBump u [n]) [n]
  have hnum : ∀ i k, num (bumpNodes u [n]) i k = num (afterBump u [n]) i k := fun i k => by
    rw [bumpNodes_plain hplain, hr]
    rfl
  refine ⟨fun s hs => ?_, ?_, fun hk hi => (hnum _ _).trans ((hobj _ _).trans (orphanChannels_num u [n] hk hi))⟩
  all_goals
    obtain ⟨d, p, l, st, se, sc, ca, iq, ha⟩ := afterBump_leaves u [n]
    rw [bumpNodes_plain hplain, hr, ha]
  exact ⟨hs.adm, hs.time, hs.first, hs.queue, hs.fuses⟩

/-- KEY_REVOKE (R329, R449). -/
theorem keyRevoke_returns (h : Calls s c x 0x32 a) (he : epochOf s (0x20 + c.val) < 0xFFFFFF) :
    ∃ t, exec (.keyRevoke ⟨c, .ok⟩) s = .next t ∧ Returns s t c 10 0 [(11, epochOf s (0x20 + c.val) + 1)] [] [] ∧
      epochOf t (0x20 + c.val) = epochOf s (0x20 + c.val) + 1 ∧ SMap.look t.twc.cells c.val = some (calling x) := by
  have hkeys := sameKeys_called s c x
  have hepoch : epochOf (calledState s c x) (0x20 + c.val) = epochOf s (0x20 + c.val) := epochOf_congr hkeys.epochs _
  have hraised : epochOf (bumpNodes (calledState s c x) [0x20 + c.val]) (0x20 + c.val) = epochOf s (0x20 + c.val) + 1 := by
    rw [epochOf_bumpNodes (List.nodup_singleton _) (by simp; omega), hepoch]
    simp
  obtain ⟨hst, hcells, hnum⟩ := bumpNodes_leaves (calledState s c x) (n := 0x20 + c.val) (by omega)
  have hout : callOut s c x 0x32 a .ok = ⟨Eff.ok (bumpNodes (calledState s c x) [0x20 + c.val]) 10, [(11, epochOf s (0x20 + c.val) + 1)], []⟩ := by
    show Sys.keyRevoke (calledState s c x) c.val .ok = _
    unfold Sys.keyRevoke
    rw [show rootOf c.val = 0x20 + c.val from rfl, if_neg (by omega), if_neg (by decide)]
    dsimp only
    rw [hraised]
    rfl
  generalize bumpNodes (calledState s c x) [0x20 + c.val] = u at hout hraised hst hcells hnum
  have hsteady := hst s (steady_called s c x)
  obtain ⟨t, hrun, hset⟩ := call_leaves (i := .keyRevoke ⟨c, .ok⟩) (want := fun k => decide (k = 0x32)) h (by decide) rfl rfl hout ⟨nofun, nofun⟩ hsteady
    ((hnum (by decide) (by decide)).trans ((num_called_at s c x (by decide) (by decide)).trans h.single))
  refine ⟨t, hrun, returns_of (s := s) (c := c) (n := 0x32) (by decide) hsteady ((hnum (by decide) (by omega)).trans (called_count s c x)) hset, ?_, ?_⟩
  · exact (epochOf_congr (congrArg (fun u => u.pers.epochs) hset.rest) _).trans hraised
  · exact calling_after (s := s) (x := x) hset hcells

end

/-- Settles O37: channel calls act on the channel of their cell, key calls below its root. -/
theorem channelAndKeyCallsComplete : Obligations.channel_and_key_calls_complete := by
  unfold Obligations.channel_and_key_calls_complete
  intro s c x a hserv
  refine ⟨fun n h hf hn hown hstate hlen hseq => chSend_returns hserv h hf hn hown hstate hlen hseq, fun n r rs h hf hn hown hq => chRecv_returns hserv h hf hn hown hq, ?_,
    fun n h hw hn hb h100 hdead hleaf hfree => keyRemove_returns h hw hn hb h100 hdead hleaf hfree, keyRevoke_returns⟩
  intro n v label p h hw hv hk1 hk2 hrsv hl1 hl2 hlabel hpad hroot hkind hlevel hlive hattrs hkept hroom hunlike hfree
  exact keyCreate_returns h hw hv hrsv ⟨hl1, hl2⟩ hlabel hpad ⟨hroot, ⟨hkind, hlevel⟩, hlive, ⟨hk1, hk2⟩, hattrs, hkept, hroom, hunlike, hfree⟩

end Sys2Proof.Machine
end

section
/-! SUPPORT. Stream and PLE calls of a cell (R272, R274, R278, R308, R450, R451). -/

namespace Sys2Proof.Machine

section
variable {s : State} {c : Fin 32} {x : Cell} {a : List Nat} {f : Nat}

/-- The streams and the PLE inputs stand in a call's admission (R443). -/
theorem called_engines (s : State) (c : Fin 32) (x : Cell) : (calledState s c x).streams = s.streams ∧ (calledState s c x).ples = s.ples ∧
    (calledState s c x).secrets = s.secrets ∧ (calledState s c x).entropyDown = s.entropyDown := by
  obtain ⟨tw, p, r, w, d, m, -, e⟩ := calledState_cases s c x
  rw [e]
  exact ⟨rfl, rfl, rfl, rfl⟩

theorem streamOf_called (s : State) (c : Fin 32) (x : Cell) (f : Nat) : streamOf (calledState s c x) f = streamOf s f := streamOf_congr (called_engines s c x).1 f

theorem pleOf_called (s : State) (c : Fin 32) (x : Cell) (f : Nat) : pleOf (calledState s c x) f = pleOf s f := pleOf_congr (called_engines s c x).2.1 f

/-- Keys do not change in a call's admission (R443). -/
theorem handleKey_called (s : State) (c : Fin 32) (x : Cell) (w : Nat) : handleKey (calledState s c x) w = handleKey s w := by
  obtain ⟨tw, p, r, q, d, m, -, e⟩ := calledState_cases s c x
  rw [e]
  exact handleKey_congr rfl rfl rfl rfl rfl rfl w

/-- STREAM_BEGIN (R272, R450). -/
theorem streamBegin_returns {m tag : Byte} {dec : Bool} {key aad data : Word} (h : Calls s c x 0x40 a) (hi : a.getD 0 0 ≤ 1) (hf : f = 0x100 + 2 * c.val + a.getD 0 0)
    (hv : callBytes x 0x40 a = beginValue m tag dec key aad data) (hst : (streamOf s f).state ≠ 1)
    (hstaged : ((dec && Str.isAead m.toNat) || Str.isKw m.toNat) = true → Sys.isStaged (streamOf s (0x100 + 2 * c.val + (1 - a.getD 0 0))) = false)
    (hk : Str.known m.toNat = true) (ht : Str.tagOk m.toNat tag.toNat = true) (hl : Str.lenOk m.toNat dec aad.toNat data.toNat 8192 = true)
    (hkey : if Str.isSha m.toNat = true then key = 0 else key ≠ 0 ∧ keyForHandle s key.toNat (Sys.ctx s c.val).caller
      (decide (m.toNat ≤ 7) || decide (m.toNat = 0x18)) (fun y => usageOk y m.toNat dec (num s (0xD000 + c.val) 5)) = 0) :
    ∃ t, exec (.streamBegin c) s = .next t ∧ Returns s t c 10 0 [] [] [] ∧
      streamOf t f = begunStream (begunCtx m tag dec key aad data (handleEpoch s key.toNat) (s.seq.adm + 1) (0x100 + c.val) 0xFF) ∧
      SMap.look t.twc.cells c.val = some (calling x) ∧ OthersStand s t [(0xD000 + c.val, 13)] := by
  have hkeys := sameKeys_called s c x
  obtain ⟨hstreams, -, hsecrets, -⟩ := called_engines s c x
  let u := calledState s c x
  have hepoch : handleEpoch u key.toNat = handleEpoch s key.toNat := by
    unfold handleEpoch
    rw [epochOf_congr (u := s) hkeys.epochs]
  have hbegin := beginStreamOp_begins (u := u) (f := f) (c := (Sys.ctx s c.val).caller) (m := m) (tag := tag) (dec := dec) (key := key) (aad := aad) (data := data) (cap := 8192)
    (by rw [streamOf_called]; exact hst) hk ht hl (by rw [keyForHandle_congr (b := s) hsecrets hkeys.nodes hkeys.epochs hkeys.allocs]; exact hkey)
  rw [hepoch, (called_adm s c x).1, show (Sys.ctx s c.val).caller.origin = 0x100 + c.val from rfl, show (Sys.ctx s c.val).caller.slot = 0xFF from rfl] at hbegin
  let w := setStream (stripStream u f) f (begunStream (begunCtx m tag dec key aad data (handleEpoch s key.toNat) (s.seq.adm + 1) (0x100 + c.val) 0xFF))
  have hout : callOut s c x 0x40 a .ok = .just (Eff.of Lat.write (w, 0)) := by
    show Sys.streamBegin u c.val a (callBytes x 0x40 a) = _
    obtain ⟨h0, h1, -⟩ := beginValue_fields (m := m) (tag := tag) (dec := dec) (key := key) (aad := aad) (data := data)
    have hdec : bit (if dec = true then (1 : Byte) else 0).toNat 0 = dec := by cases dec <;> rfl
    unfold Sys.streamBegin
    dsimp only
    rw [hv, h0, h1, hdec, show Sys.streamKey c.val (1 - a.getD 0 0) = 0x100 + 2 * c.val + (1 - a.getD 0 0) from rfl, streamOf_called, if_neg (by omega),
      if_neg (by rintro ⟨h1, h2⟩; rw [hstaged h1] at h2; cases h2), show Sys.streamKey c.val (a.getD 0 0) = f from hf.symm, ctx_called, hbegin]
  obtain ⟨t, hrun, hret, hset, hothers⟩ := call_returns (i := .streamBegin c) (want := fun k => decide (k = 0x40)) (xs := []) h (by decide) rfl rfl hout ⟨nofun, nofun⟩
    ⟨(steady_called s c x).adm, (steady_called s c x).time, (steady_called s c x).first, (steady_called s c x).queue, (steady_called s c x).fuses⟩ (fun _ _ _ _ _ => rfl)
    ⟨by simp, by simp⟩
  refine ⟨t, hrun, hret, ?_, calling_after (s := s) (x := x) hset rfl, hothers⟩
  exact (streamOf_congr (congrArg (fun u => u.streams) hset.rest) f).trans (streamOf_setStream _ f _)

/-- STREAM_RELEASE (R278, R450). -/
theorem streamRelease_returns (h : Calls s c x 0x42 a) (hi : a.getD 0 0 ≤ 1) :
    ∃ t, exec (.streamRelease c) s = .next t ∧ Returns s t c 2 0 [] [] [] ∧ streamOf t (0x100 + 2 * c.val + a.getD 0 0) = stream0 ∧
      SMap.look t.twc.cells c.val = some (calling x) ∧ OthersStand s t [(0xD000 + c.val, 13)] := by
  have hout : callOut s c x 0x42 a .ok = .just (Eff.ok (releaseStream (calledState s c x) (0x100 + 2 * c.val + a.getD 0 0)) Lat.read) := by
    show Sys.streamRelease (calledState s c x) c.val a = _
    unfold Sys.streamRelease
    rw [if_neg (by omega)]
    rfl
  obtain ⟨t, hrun, hret, hset, hothers⟩ := call_returns (i := .streamRelease c) (want := fun k => decide (k = 0x42)) (xs := []) h (by decide) rfl rfl hout ⟨nofun, nofun⟩
    ((steady_called s c x).withStreams _) (fun _ _ _ _ _ => rfl) ⟨by simp, by simp⟩
  refine ⟨t, hrun, hret, ?_, calling_after (s := s) (x := x) hset rfl, hothers⟩
  exact (streamOf_congr (congrArg (fun u => u.streams) hset.rest) _).trans (streamOf_setStream _ _ _)

/-- PLE_LOAD (R451). -/
theorem pleLoad_returns {b v : Bytes} (h : Calls s c x 0x48 a) (h1 : 1 ≤ a.getD 1 0) (h2 : a.getD 1 0 ≤ 1024) (h3 : a.getD 2 0 ≤ 1) (hv : v = callBytes x 0x48 a)
    (hb : b = (if a.getD 2 0 = 1 then [] else (pleOf s (0x100 + c.val)).input) ++ v) (hlen : b.length ≤ 8192) :
    ∃ t, exec (.pleLoad c) s = .next t ∧ Returns s t c 16 0 [(11, b.length)] [] [] ∧ (pleOf t (0x100 + c.val)).input = b ∧
      SMap.look t.twc.cells c.val = some (calling x) ∧ OthersStand s t [(0xD000 + c.val, 13)] := by
  have hout : callOut s c x 0x48 a .ok = ⟨Eff.ok (updPle (calledState s c x) (0x100 + c.val) fun y => { y with input := b }) Lat.domain, [(11, b.length)], []⟩ := by
    show Sys.pleLoad (calledState s c x) c.val a (callBytes x 0x48 a) = _
    unfold Sys.pleLoad
    dsimp only
    rw [← hv, pleOf_called, if_neg (by omega), ← List.length_append, ← hb, if_neg (by omega)]
  obtain ⟨t, hrun, hret, hset, hothers⟩ := call_returns (i := .pleLoad c) (want := fun k => decide (k = 0x48)) (xs := []) h (by decide) rfl rfl hout ⟨nofun, nofun⟩
    ⟨(steady_called s c x).adm, (steady_called s c x).time, (steady_called s c x).first, (steady_called s c x).queue, (steady_called s c x).fuses⟩ (fun _ _ _ _ _ => rfl)
    ⟨by simp, by simp⟩
  refine ⟨t, hrun, hret, ?_, calling_after (s := s) (x := x) hset rfl, hothers⟩
  exact congrArg (fun y : Ple => y.input) ((pleOf_congr (congrArg (fun u => u.ples) hset.rest) _).trans (pleOf_setPle _ _ _))

/-- STREAM_DATA with bytes still to come (R274, R450). -/
theorem streamData_returns {y : Stream} {k : SCtx} {v : Bytes} {r : SCtx × Bytes × Bytes} (h : Calls s c x 0x41 a) (hi : a.getD 0 0 ≤ 1)
    (hf : f = 0x100 + 2 * c.val + a.getD 0 0) (h1 : 1 ≤ a.getD 2 0) (h2 : a.getD 2 0 ≤ 1024) (hv : v = callBytes x 0x41 a) (hy : streamOf s f = y) (hst : y.state = 1)
    (hk : y.ctx = some k) (hlt : v.length < y.remain) (hkw : Str.isKw k.mode = false) (hopen : (Str.isAead k.mode && k.dec) = false)
    (hdge : 16 ≤ k.mode → num s 0xCF20 3 = 0) (hr : r = streamSegment k y.hold (handleKey s k.handle) v) :
    ∃ t, exec (.streamData c .ok) s = .next t ∧ Returns s t c (streamLat k.mode) 0 [(11, r.2.2.length), (12, y.flags)] [(a.getD 3 0, r.2.2)] (ivActs f k r.1.iv) ∧
      (streamOf t f).ctx = some r.1 ∧ (streamOf t f).remain = y.remain - v.length ∧ SMap.look t.twc.cells c.val = some (calling x) ∧
      OthersStand s t [(0xD000 + c.val, 13)] := by
  have hnum : ∀ i k, k < 256 → i < 0xD000 → num (calledState s c x) i k = num s i k := fun i k hk hi => num_called_at s c x hk (.inl hi)
  have hsome : v ≠ [] := by
    rw [hv]
    intro hnil
    have hlen : (callBytes x 0x41 a).length = min (a.getD 2 0) 1024 := loadBytes_length _ _ _
    rw [hnil] at hlen
    simp only [List.length_nil] at hlen
    omega
  have hyc : streamOf (calledState s c x) f = y := (streamOf_called s c x f).trans hy
  obtain ⟨w, ns, ⟨hstreams, hcells, hobj⟩, hop⟩ := streamInputOp_segment (u := calledState s c x) (d := v) (key := handleKey s k.handle) hyc hst hk hkw hsome
    (handleKey_called s c x _).symm (unitsFault_stream ((called_engines s c x).2.2.2.trans h.ready.source) (by rw [hnum _ _ (by decide) (by decide)]; exact h.ready.entropy)
      (by rw [hnum _ _ (by decide) (by decide)]; exact h.ready.lane) (fun hm => by rw [hnum _ _ (by decide) (by decide)]; exact hdge hm))
  have hdec : (k.dec && Str.isAead k.mode) = false := by
    rw [Bool.and_comm]
    exact hopen
  rw [← hr, segmentOutcome_continues _ _ _ _ _ _ _ (by omega), hdec, if_neg (by simp)] at hop
  have hwy : streamOf w f = y := (streamOf_congr hstreams f).trans hyc
  let u := updStream w f fun z => segmented z k r (y.remain - v.length)
  have hu : streamOf u f = segmented y k r (y.remain - v.length) := (streamOf_updStream f w _).trans (by rw [hwy])
  have hsteady : Steady s u := by
    have := (steady_called s c x).streamInputOp f v
    rw [hop] at this
    exact this
  have hout : callOut s c x 0x41 a .ok = ⟨{ Eff.ok u (streamLat k.mode) with acts := ivActs f k r.1.iv, work := .segment f, nodes := ns },
      [(11, r.2.2.length), (12, y.flags)], [(a.getD 3 0, r.2.2)]⟩ := by
    show Sys.streamData (calledState s c x) c.val a (callBytes x 0x41 a) .ok = _
    unfold Sys.streamData
    dsimp only
    rw [show Sys.streamKey c.val (a.getD 0 0) = f from hf.symm, ← hv, hyc, if_neg (by omega), if_neg (by omega), hop]
    dsimp only [Eff.ok]
    rw [show (streamOf u f).flags = y.flags by rw [hu]; rfl]
    unfold ivActs
    split <;> simp [u]
  obtain ⟨t, hrun, hret, hset, hothers⟩ := call_returns (i := .streamData c .ok) (want := fun k => decide (k = 0x41)) (xs := []) h (by decide) rfl rfl hout ⟨nofun, nofun⟩
    hsteady (fun i k _ _ _ => hobj i k) ⟨by simp, by simp⟩
  have hfinal : streamOf t f = segmented y k r (y.remain - v.length) := (streamOf_congr (congrArg (fun u => u.streams) hset.rest) f).trans hu
  refine ⟨t, hrun, hret, by rw [hfinal]; rfl, by rw [hfinal]; rfl, calling_after (s := s) (x := x) hset hcells, hothers⟩

/-- A call whose code may be that of a fault, which its admission raises (R286, R297). -/
theorem call_faults {o : Sys.Out} {n : Nat} {want : Nat → Bool} {i : Instr} (h : Calls s c x n a) (hn : n ∉ [1, 5, 6, 0x20]) (hw : want n = true)
    (hexec : exec i s = coreCmd (fun s => Sys.call s c want .ok) s) (ho : callOut s c x n a .ok = o) (hst : Steady s o.e.s)
    (hothers : OthersStand (calledState s c x) o.e.s []) (hcells : o.e.s.twc = (calledState s c x).twc) :
    ∃ t, exec i s = .next t ∧ Returns s t c o.e.lat o.e.code o.regs o.mem o.e.acts ∧ t.ples = o.e.s.ples ∧ SMap.look t.twc.cells c.val = some (calling x) ∧
      OthersStand s t [(0xD000 + c.val, 13)] := by
  simp only [List.mem_cons, List.not_mem_nil, or_false, not_or] at hn
  have hleave : Sys.leave o.e.s c.val n o true (decide (n = 0x20 ∧ o.e.code = 0 ∧ a.getD 0 0 / 0x8000 = 0)) = pushSlot o.e.s (callSlot o.e.s c.val n o) := by
    rw [decide_eq_false (fun hs => hn.2.2.2 hs.1)]
    rfl
  let D := raiseFault (pushSlot o.e.s (callSlot o.e.s c.val n o)) o.e.code .ok (callNeeds (number (callState s c x)) c.val n a)
  have hD : FaultsOnly (pushSlot o.e.s (callSlot o.e.s c.val n o)) D := faultsOnly_raiseFault _ _ _
  have hall : OthersStand s D [(0xD000 + c.val, 13)] := fun i k hk hb hx =>
    (hD.getObj i k).trans ((hothers i k hk hb nofun).trans (called_others s c x i k hk hb hx))
  have hbare : D.seq = (pushSlot o.e.s (callSlot o.e.s c.val n o)).seq ∧ D.slots = (pushSlot o.e.s (callSlot o.e.s c.val n o)).slots ∧ D.pending = o.e.s.pending ∧
      D.otp = o.e.s.otp ∧ D.twc = o.e.s.twc ∧ D.ples = o.e.s.ples := by
    rw [hD]
    exact ⟨rfl, rfl, rfl, rfl, rfl, rfl⟩
  obtain ⟨hseq, hslots, hqueue, hfuses, htwc, hples⟩ := hbare
  have hset : Settled D (Sys.call s c want .ok) := call_admits (phys := .ok) h ⟨hn.1, hn.2.2.1⟩ hw ho (by rw [hleave]) (by
    rw [hall.num (by decide) rfl (by simp), h.single])
  have hrest := hset.rest
  refine ⟨_, hexec.trans (coreCmd_next rfl ((congrArg (fun x => x.pending) hrest).trans (hqueue.trans hst.queue))
    ((congrArg (fun x => x.otp) hrest).trans (hfuses.trans hst.fuses))), ⟨?_, ?_, ?_, ?_⟩, (congrArg (fun u => u.ples) hrest).trans hples, ?_,
    fun i k hk hb hx => (hset.objects i k hk hb).trans (hall i k hk hb hx)⟩
  · exact (congrArg (fun u => u.seq.adm) hrest).trans ((congrArg (fun q => q.adm) hseq).trans hst.adm)
  · exact (congrArg (fun u => u.seq.admTime) hrest).trans ((congrArg (fun q => q.admTime) hseq).trans hst.time)
  · have hbook : bookkeeping (0xD000 + c.val) 13 = false := by
      unfold bookkeeping
      simp
    refine (congrArg Val.toNat (hset.objects _ 13 (by decide) hbook)).trans ?_
    refine (congrArg Val.toNat (hD.getObj _ 13)).trans ?_
    exact (hothers.num (by decide) hbook nofun).trans (called_count s c x)
  · have hmine : (Sys.call s c want .ok).slots = o.e.s.slots ++ [{ callSlot o.e.s c.val n o with id := o.e.s.seq.nextId }] := (congrArg (fun u => u.slots) hrest).trans hslots
    refine ⟨_, by rw [hmine]; exact List.mem_append_right _ (List.mem_singleton_self _), hst.adm, rfl, ?_, ?_⟩
    · show o.e.s.seq.admTime + o.e.lat = _
      rw [hst.time]
    · show o.e.acts ++ (if n = 5 then [] else _) = _
      rw [if_neg hn.2.1]
  · have hmine : (Sys.call s c want .ok).twc = (calledState s c x).twc := (congrArg (fun u => u.twc) hrest).trans (htwc.trans hcells)
    rw [hmine]
    exact called_cell s c x

/-- The state after a Run of a cell without a secret: its input is used up (R308, R451). -/
def ranCell (q : State) (c : Fin 32) (h : PleHdr) (code : Nat) : State := updPle (pleFlags q h.op code).2 (0x100 + c.val) fun y => { y with input := [] }

/-- PLE_RUN without a secret in its output (R308, R451). -/
theorem pleRun_returns {b : Bytes} {q : State} {o : PleOut} (h : Calls s c x 0x49 a) (hb : b = (pleOf s (0x100 + c.val)).input) (hne : b ≠ [])
    (hroom : Sys.outLen (PleReq.parse b) ≤ a.getD 1 0) (hr : pleRunOp (calledState s c x) b (Sys.ctx s c.val).caller .ok = .ran q o) (hsecret : o.secret = none) :
    ∃ t, exec (.pleRun c .ok) s = .next t ∧
      Returns s t c (PleReq.latency (PleReq.parse b).op) o.code [(11, o.out.length), (12, (pleFlags q (PleReq.parse b).op o.code).1)] [(a.getD 0 0, o.out)] [] ∧
      (pleOf t (0x100 + c.val)).input = [] ∧ SMap.look t.twc.cells c.val = some (calling x) ∧ OthersStand s t [(0xD000 + c.val, 13)] := by
  have hwork := worksOnly_pleRunOp hr
  have hcheck : pleCheck (calledState s c x) b (Sys.ctx s c.val).caller = 0 := by
    unfold pleRunOp at hr
    dsimp only at hr
    split at hr
    · cases hr
    · exact Decidable.not_not.mp ‹_›
  have hout : callOut s c x 0x49 a .ok =
      ⟨{ Eff.fail (ranCell q c (PleReq.parse b) o.code) (PleReq.latency (PleReq.parse b).op) o.code with
           work := .pleRun (0x100 + c.val), nodes := pleNodes (calledState s c x) (PleReq.parse b), random := o.random },
        [(11, o.out.length), (12, (pleFlags q (PleReq.parse b).op o.code).1)], [(a.getD 0 0, o.out)]⟩ := by
    show Sys.pleRun (calledState s c x) c.val a .ok = _
    unfold Sys.pleRun
    dsimp only
    rw [pleOf_called, ← hb, ctx_called, hcheck, if_neg hne, if_neg (by simp), if_neg (by omega), hr, if_neg hne]
    dsimp only
    rw [hsecret]
    rfl
  obtain ⟨m, hflags⟩ := pleFlags_draws q (PleReq.parse b).op o.code
  have hsteady : Steady s (ranCell q c (PleReq.parse b) o.code) := by
    have hq := hwork.steady (steady_called s c x)
    unfold ranCell
    rw [hflags]
    exact ⟨hq.adm, hq.time, hq.first, hq.queue, hq.fuses⟩
  have hothers : OthersStand (calledState s c x) (ranCell q c (PleReq.parse b) o.code) [] := fun i k _ _ _ => by
    unfold ranCell
    rw [hflags, hwork]
    rfl
  have hcells : (ranCell q c (PleReq.parse b) o.code).twc = (calledState s c x).twc := by
    unfold ranCell
    rw [hflags, hwork]
    rfl
  have hples : (pleOf (ranCell q c (PleReq.parse b) o.code) (0x100 + c.val)).input = [] := congrArg (fun y : Ple => y.input) (pleOf_setPle _ _ _)
  generalize ranCell q c (PleReq.parse b) o.code = w at hout hsteady hothers hcells hples
  obtain ⟨t, hrun, hret, ht, hcell, hkeep⟩ := call_faults (i := .pleRun c .ok) (want := fun k => decide (k = 0x49)) h (by decide) rfl rfl hout hsteady hothers hcells
  exact ⟨t, hrun, hret, (congrArg (fun y : Ple => y.input) (pleOf_congr ht _)).trans hples, hcell, hkeep⟩

end

/-- Settles O38: the stream and PLE calls of a cell act on its own slots as the host's do on theirs. -/
theorem engineCallsComplete : Obligations.engine_calls_complete := by
  unfold Obligations.engine_calls_complete
  intro s c x a
  refine ⟨?_, ?_, streamRelease_returns, fun b v h h1 h2 h3 hv hb hlen => pleLoad_returns h h1 h2 h3 hv hb hlen, fun b q o h hb hne hroom hr hs => pleRun_returns h hb hne hroom hr hs⟩
  · intro m tag dec key aad data v f h hi hf hv hval hst hstaged hk ht hl hkey
    obtain ⟨t, hrun, hret, hstream, hcell, hothers⟩ := streamBegin_returns h hi hf (hv.symm.trans hval) hst hstaged hk ht hl hkey
    exact ⟨t, hrun, hret, by rw [hstream]; rfl, by rw [hstream]; rfl, hcell, hothers⟩
  · intro f y k v r h hi hf h1 h2 hv hy hst hk hlt hkw hopen hdge hr
    rw [← ivActs_eq]
    exact streamData_returns h hi hf h1 h2 hv hy hst hk hlt hkw hopen hdge hr

end Sys2Proof.Machine
end

section
/-! SUPPORT. Excepted internal admissions of a unit that may stand in a pair (R201, R541, R547). -/

namespace Sys2Proof.Machine

/-- What the end of an admission, its records and its objects leave alone: the number and the time, the queues, the fuses, the field die, the sessions and the host link. -/
def firm (s : State) : Nat × Nat × List IntReq × List Instr × Otp × Field × SMap Session × HostLink :=
  (s.seq.adm, s.seq.admTime, s.internal, s.pending, s.otp, s.field, s.sessions, s.host)

def Firm (a t : State) : Prop := firm t = firm a

theorem Firm.trans {a b c : State} (h : Firm a b) (g : Firm b c) : Firm a c := Eq.trans g h

theorem Firm.fields {a t : State} (h : Firm a t) : t.seq.adm = a.seq.adm ∧ t.seq.admTime = a.seq.admTime ∧ t.internal = a.internal ∧ t.pending = a.pending ∧ t.otp = a.otp ∧
    t.field = a.field ∧ t.sessions = a.sessions ∧ t.host = a.host := by
  simpa [Firm, firm] using h

theorem firm_settled {a t : State} (h : Settled a t) : Firm a t := by
  have hf := congrArg firm h.rest
  exact hf

theorem firm_setNum (s : State) (i k n : Nat) : Firm s (setNum s i k n) := by
  obtain ⟨d, p, l, e⟩ := setObj_dict s i k (.num n)
  unfold Firm setNum
  rw [e]
  rfl

theorem firm_updateAlarm (s : State) : Firm s (updateAlarm s) := by
  have h2 := (firm_setNum s 0xD800 6 ((pinnedTamper s).length % 65536)).trans (firm_setNum _ 0xD800 5 (((pinnedTamper s).map fun p => p.1).foldl max 0))
  unfold updateAlarm
  dsimp only
  split
  · exact h2
  · exact h2.trans (firm_setNum _ 0xD800 1 _)

/-! TAMPER records that stand for no sensor (R490). -/

/-- The last reserve block takes a record whatever the rest of the journal holds (R413). -/
theorem room_last (j : Journal) (over' : Bool) : ∃ k lost, Jour.room j over' true true = .ok k lost := by
  unfold Jour.room
  dsimp only
  split
  · exact ⟨_, _, rfl⟩
  split
  · exact ⟨_, _, rfl⟩
  split
  · split
    · exact ⟨_, _, rfl⟩
    · exact ⟨_, _, rfl⟩
  rw [if_neg (by simp)]
  split
  · exact ⟨_, _, if_pos (.inr rfl)⟩
  · split
    · exact ⟨_, _, if_pos (.inr rfl)⟩
    · exact ⟨_, _, rfl⟩

/-- A record put at the head of the journal stands in it (R408). -/
theorem mem_place (j : Journal) {b : Bytes} (pin : Bool) (hl : 16 ≤ b.length) : ∃ p ∈ (Jour.place j b pin).recs, p.2.bytes.take 16 = b.take 16 := by
  refine ⟨_, SMap.mem_of_look (SMap.look_put_same _ _ _), ?_⟩
  dsimp only
  rw [List.take_append_of_le_length (by rw [List.length_take]; omega), List.take_take, Nat.min_eq_left (by decide)]

theorem take_head56 (h : RecHead) (adm time : Nat) (body : Bytes) : 16 ≤ (Jour.head56 h adm time body).length ∧ (Jour.head56 h adm time body).take 16 =
    [BitVec.ofNat 8 h.type, BitVec.ofNat 8 h.rc, BitVec.ofNat 8 h.slot, BitVec.ofNat 8 h.sub] ++ leBytes 2 h.idx ++ leBytes 2 h.origin ++ leBytes 8 adm := by
  have hlen : ([BitVec.ofNat 8 h.type, BitVec.ofNat 8 h.rc, BitVec.ofNat 8 h.slot, BitVec.ofNat 8 h.sub] ++ leBytes 2 h.idx ++ leBytes 2 h.origin ++ leBytes 8 adm).length = 16 := by
    simp [leBytes_length]
  unfold Jour.head56
  rw [List.append_assoc _ (leBytes 8 time)]
  refine ⟨?_, List.take_left' hlen⟩
  rw [List.length_append, hlen]
  omega

/-- A record that may take the last reserve block stands in the journal after it (R408, R413). -/
theorem mem_journalAt (s : State) (pin : Bool) (h : RecHead) (body : Bytes) : ∃ p ∈ (journalAt s .last pin h body).pers.jour.recs,
    p.2.bytes.take 16 = [BitVec.ofNat 8 h.type, BitVec.ofNat 8 h.rc, BitVec.ofNat 8 h.slot, BitVec.ofNat 8 h.sub] ++ leBytes 2 h.idx ++ leBytes 2 h.origin ++ leBytes 8 s.seq.adm := by
  obtain ⟨hlen, htake⟩ := take_head56 h s.seq.adm s.seq.admTime body
  obtain ⟨k, lost, hroom⟩ := room_last s.pers.jour (decide (num s 0xDC00 1 = 0))
  unfold journalAt journalNo
  dsimp only
  rw [if_neg (by simp), show decide (Place.last ≠ Place.ring) = true from rfl, show decide (Place.last = Place.last) = true from rfl, hroom]
  dsimp only
  rw [count_pers, ← htake]
  exact mem_place _ _ hlen

/-- The objects of tamper status. -/
def statusObjects : List (Nat × Nat) := [1, 2, 3, 4, 5, 6].map fun k => (0xD800, k)

theorem setNum_jour (s : State) (i k n : Nat) : (setNum s i k n).pers.jour = s.pers.jour := by
  obtain ⟨d, p, l, e⟩ := setObj_dict s i k (.num n)
  unfold setNum
  rw [e]

theorem updateAlarm_leaves (s : State) : (updateAlarm s).pers.jour = s.pers.jour ∧ (updateAlarm s).sheaf = s.sheaf ∧
    ∀ x ∈ (updateAlarm s).slots, x ∈ s.slots ∨ x.numbered = true := by
  unfold updateAlarm
  dsimp only
  split
  · simp only [setNum_jour, setNum_sheaf, setNum_slots]
    exact ⟨trivial, trivial, fun _ h => .inl h⟩
  · unfold pushSlot
    dsimp only
    simp only [setNum_jour, setNum_sheaf, setNum_slots]
    refine ⟨trivial, trivial, fun x h => (List.mem_append.mp h).imp id fun hx => ?_⟩
    rw [List.mem_singleton.mp hx]
    rfl

/-- The state behind a record without a sensor, before the alarm follows it (R490). -/
def notedAt (u : State) (code adm : Nat) (hi : Nat) : State := setNum (setNum (setNum u 0xD800 2 hi) 0xD800 3 code) 0xD800 4 adm

theorem notedAt_leaves (u : State) (code adm hi : Nat) : Firm u (notedAt u code adm hi) ∧ (notedAt u code adm hi).pers.jour = u.pers.jour ∧
    (notedAt u code adm hi).sheaf = u.sheaf ∧ (notedAt u code adm hi).slots = u.slots ∧ OthersStand u (notedAt u code adm hi) statusObjects := by
  unfold notedAt
  refine ⟨((firm_setNum _ _ _ _).trans (firm_setNum _ _ _ _)).trans (firm_setNum _ _ _ _), ?_, ?_, ?_, ?_⟩
  · rw [setNum_jour, setNum_jour, setNum_jour]
  · rw [setNum_sheaf, setNum_sheaf, setNum_sheaf]
  · rw [setNum_slots, setNum_slots, setNum_slots]
  · exact ((OthersStand.setNum (fun _ _ _ _ _ => rfl) _ (by decide) (by decide)).setNum _ (by decide) (by decide)).setNum _ (by decide) (by decide)

theorem journalAt_leaves (s : State) (pl : Place) (pin : Bool) (h : RecHead) (body : Bytes) : (journalAt s pl pin h body).sheaf = s.sheaf ∧ (journalAt s pl pin h body).slots = s.slots :=
  ⟨(records_journalNo s s.seq.adm s.seq.admTime pl pin h body).sheaf, congrArg (fun u => u.slots) (settled_journalAt s pl pin h body).rest⟩

theorem noteRecord_notes (s : State) (code : Nat) : recordOf (noteRecord s code) code s.seq.adm ∧ Firm s (noteRecord s code) ∧ (noteRecord s code).sheaf = s.sheaf ∧
    OthersStand s (noteRecord s code) statusObjects ∧ ∀ x ∈ (noteRecord s code).slots, x ∈ s.slots ∨ x.numbered = true := by
  let body := zeros 9 ++ leBytes 1 (4 + if vigilSets s then 1 else 0) ++ zeros 6 ++ leBytes 2 s.sinter.overflow ++ zeros 6
  let u := journalAt s .last true ⟨2, 0xFF, 0xFF, 1, code, 0⟩ (leBytes 2 0 ++ leBytes 6 0 ++ body)
  obtain ⟨hi, hnote⟩ : ∃ hi, noteRecord s code = updateAlarm (notedAt u code s.seq.adm hi) := ⟨_, rfl⟩
  obtain ⟨hfirm, hjour, hsheaf, hslots, hothers⟩ := notedAt_leaves u code s.seq.adm hi
  obtain ⟨ajour, asheaf, aslots⟩ := updateAlarm_leaves (notedAt u code s.seq.adm hi)
  obtain ⟨usheaf, uslots⟩ := journalAt_leaves s .last true ⟨2, 0xFF, 0xFF, 1, code, 0⟩ (leBytes 2 0 ++ leBytes 6 0 ++ body)
  have hset : Settled s u := settled_journalAt _ _ _ _ _
  have hmem := mem_journalAt s true ⟨2, 0xFF, 0xFF, 1, code, 0⟩ (leBytes 2 0 ++ leBytes 6 0 ++ body)
  rw [hnote]
  refine ⟨?_, ((firm_settled hset).trans hfirm).trans (firm_updateAlarm _), asheaf.trans (hsheaf.trans usheaf), ?_, fun x hx => ?_⟩
  · unfold recordOf
    rw [ajour, hjour]
    obtain ⟨p, hp, htake⟩ := hmem
    refine ⟨p, hp, htake.trans ?_⟩
    rw [show leBytes 2 0 = [0, 0] from rfl]
    rfl
  · have hall : OthersStand s (notedAt u code s.seq.adm hi) statusObjects := fun i k hk hb hx => (hothers i k hk hb hx).trans (hset.objects i k hk hb)
    exact hall.updateAlarm (by decide) (by decide) (by decide)
  · have := aslots x hx
    rw [hslots] at this
    exact this.imp (fun h => uslots ▸ h) id

/-! The end of an admission that the partner does not check (R541, R547). -/

/-- What the end of an admission leaves of a unit that may be linked to its partner, where the admission is not compared: X_L alone follows the partner's digest. -/
structure PairEnded (a t : State) : Prop where
  firm : Firm a t
  slots : t.slots = a.slots
  jour : t.pers.jour = a.pers.jour
  grant : t.sheaf.grant = a.sheaf.grant
  objects : ∀ i k, k < 256 → bookkeeping i k = false → ¬(i = 0xF000 ∧ k = 7) → getObj t i k = getObj a i k
  unlinked : a.sheaf.key = none → (∃ m, t.sheaf = { a.sheaf with dirty := m }) ∧ getObj t 0xF000 7 = getObj a 0xF000 7

theorem PairEnded.refl (a : State) : PairEnded a a := ⟨rfl, rfl, rfl, rfl, fun _ _ _ _ _ => rfl, fun _ => ⟨⟨_, rfl⟩, rfl⟩⟩

theorem PairEnded.trans {a b c : State} (h : PairEnded a b) (g : PairEnded b c) : PairEnded a c := by
  refine ⟨h.firm.trans g.firm, g.slots.trans h.slots, g.jour.trans h.jour, g.grant.trans h.grant,
    fun i k hk hb hn => (g.objects i k hk hb hn).trans (h.objects i k hk hb hn), fun hn => ?_⟩
  obtain ⟨⟨m, hm⟩, h7⟩ := h.unlinked hn
  obtain ⟨⟨n, hn'⟩, g7⟩ := g.unlinked (by rw [hm]; exact hn)
  exact ⟨⟨n, by rw [hn', hm]⟩, g7.trans h7⟩

/-- A linked unit with more to send and with more to wait for. -/
def Links (a t : State) : Prop := ∃ h, t = { a with sheaf := h } ∧ h.grant = a.sheaf.grant ∧ h.theirs = a.sheaf.theirs

theorem Links.refl (a : State) : Links a a := ⟨a.sheaf, rfl, rfl, rfl⟩

theorem Links.trans {a b c : State} (h : Links a b) (g : Links b c) : Links a c := by
  obtain ⟨x, rfl, hx, hx'⟩ := h
  obtain ⟨y, rfl, hy, hy'⟩ := g
  exact ⟨y, rfl, hy.trans hx, hy'.trans hx'⟩

theorem links_queue (a : State) (type : Nat) (b : Bytes) : Links a (sheafQueue a type b) := ⟨_, rfl, rfl, rfl⟩

theorem links_ite {a b : State} (p : Prop) [Decidable p] (h : Links a b) : Links a (if p then b else a) := by
  split
  · exact h
  · exact Links.refl a

theorem Links.ended {a t : State} (h : Links a t) (hk : a.sheaf.key.isSome = true) : PairEnded a t := by
  obtain ⟨x, rfl, hx, -⟩ := h
  exact ⟨rfl, rfl, rfl, hx, fun _ _ _ _ _ => rfl, fun hn => by rw [hn] at hk; cases hk⟩

/-- The partner's digest of an admission that is not compared confirms it (R547). -/
theorem Links.confirmed {a t : State} (h : Links a t) (hk : a.sheaf.key.isSome = true) (n : Nat) {own : Bytes × Bool × Nat} (ho : own.2.1 = false) (dg : Bytes) :
    PairEnded a (compareDigest t n own dg) := by
  obtain ⟨x, rfl, hx, -⟩ := h
  have hmatch : ∃ y : Sheaf, ∃ v, compareDigest { a with sheaf := x } n own dg = setNum { a with sheaf := y } 0xF000 7 v ∧ y.grant = x.grant := by
    unfold compareDigest
    rw [ho]
    exact ⟨_, _, rfl, rfl⟩
  obtain ⟨y, v, hm, hg⟩ := hmatch
  rw [hm]
  refine ⟨firm_setNum { a with sheaf := y } _ _ _, setNum_slots _ _ _ _, setNum_jour _ _ _ _, ?_, fun i k hk hb hn => ?_, fun hn => by rw [hn] at hk; cases hk⟩
  · rw [setNum_sheaf]
    exact hg.trans hx
  · rw [setNum, getObj_setObj _ _ (by decide) hk, if_neg (fun h => hn ⟨h.1, h.2.1⟩)]
    rfl

theorem markDirty_leaves (a b : State) : ∃ m, markDirty a b = { b with sheaf := { b.sheaf with dirty := m } } := by
  unfold markDirty
  split
  · exact ⟨_, rfl⟩
  · exact ⟨b.sheaf.dirty, rfl⟩

theorem sheafAfter_ends (a : State) {i : AdmIn} (d : Done) (ha : i.alone ≠ 0) : PairEnded d.s (sheafAfter a i d) := by
  obtain ⟨m, hdirty⟩ := markDirty_leaves a d.s
  have hd : PairEnded d.s (markDirty a d.s) := by
    rw [hdirty]
    exact ⟨rfl, rfl, rfl, rfl, fun _ _ _ _ _ => rfl, fun _ => ⟨⟨m, rfl⟩, rfl⟩⟩
  refine hd.trans ?_
  unfold sheafAfter
  dsimp only
  generalize markDirty a d.s = s
  split
  · exact PairEnded.refl s
  rename_i hlinked
  have hk : s.sheaf.key.isSome = true := by
    simp only [Bool.not_eq_true', Bool.not_eq_false, Bool.and_eq_true] at hlinked
    exact hlinked.2
  have h1 := links_ite (leads s = true) (links_queue s 0x10 (admitMsg i s false))
  generalize (if leads s = true then sheafQueue s 0x10 (admitMsg i s false) else s) = s1 at h1 ⊢
  have h2 := h1.trans (links_ite (i.alone = 1) (links_queue s1 0x22 (verdictBody a i.chan d)))
  generalize (if i.alone = 1 then sheafQueue s1 0x22 (verdictBody a i.chan d) else s1) = s2 at h2 ⊢
  have h3 := h2.trans (links_ite ((!(counterEffects a s).isEmpty) = true) (links_queue s2 0x21 (leBytes 8 s.seq.adm ++ leBytes 4 d.code)))
  generalize (if (!(counterEffects a s).isEmpty) = true then sheafQueue s2 0x21 (leBytes 8 s.seq.adm ++ leBytes 4 d.code) else s2) = s3 at h3 ⊢
  have h4 : Links s (if i.alone = 2 then s3 else sheafQueue s3 0x20 (leBytes 8 s.seq.adm ++ resultDigest a d)) := by
    split
    · exact h3
    · exact h3.trans (links_queue s3 _ _)
  generalize (if i.alone = 2 then s3 else sheafQueue s3 0x20 (leBytes 8 s.seq.adm ++ resultDigest a d)) = s4 at h4 ⊢
  split
  · exact h4.ended hk
  have hl : ∀ x : Sheaf, x.grant = s4.sheaf.grant → x.theirs = s4.sheaf.theirs → Links s { s4 with sheaf := x } :=
    fun x hg ht => h4.trans ⟨x, rfl, hg, ht⟩
  split
  · refine Links.ended (t := { s4 with sheaf := _ }) ?_ hk
    exact hl _ rfl rfl
  · split
    · refine Links.confirmed (t := { s4 with sheaf := _ }) ?_ hk _ (decide_eq_false ha) _
      exact hl _ rfl rfl
    · refine Links.ended (t := { s4 with sheaf := _ }) ?_ hk
      exact hl _ rfl rfl

/-- A step of bookkeeping that keeps what is owed to the partner. -/
theorem pairEnded_of {a t : State} (h : Settled a t) (hj : t.pers.jour = a.pers.jour) (hs : t.sheaf = a.sheaf) : PairEnded a t :=
  ⟨firm_settled h, congrArg (fun u => u.slots) h.rest, hj, congrArg Sheaf.grant hs, fun i k hk hb _ => h.objects i k hk hb,
    fun _ => ⟨⟨a.sheaf.dirty, hs⟩, h.objects _ _ (by decide) rfl⟩⟩

theorem takeToken_sheaf (a b : State) : (takeToken a b).sheaf = b.sheaf := by
  unfold takeToken
  split
  · exact count_sheaf _ _ _ _
  · rfl

theorem noteCommit_sheaf (a b : State) : (noteCommit a b).sheaf = b.sheaf := by
  unfold noteCommit
  split
  · rfl
  · obtain ⟨c, l, h⟩ := ringEntry_pers a b b.seq.adm
    dsimp only
    rw [h]

theorem noteCounters_sheaf (i : AdmIn) (a b : State) : (noteCounters i a b).sheaf = b.sheaf := by
  unfold noteCounters
  dsimp only
  split <;> rfl

theorem appendLog_sheaf (a : State) (i : AdmIn) (d : Done) : (appendLog a i d).sheaf = d.s.sheaf := by
  unfold appendLog
  dsimp only
  split
  · rfl
  split
  · rfl
  split
  · split
    · exact setNum_sheaf _ _ _ _
    · rfl
  split
  · rfl
  · exact (incObj_sheaf _ _ _).trans (setNum_sheaf _ _ _ _)

/-- An admission that the log does not hold, and whose digest is not compared. -/
theorem admitOne_ends {s : State} {i : AdmIn} (f : State → Done) (hlog : auditHolds s i = false) (ha : i.alone ≠ 0) :
    ∃ d, admitOne s i f = some d ∧ PairEnded (f (number s)).s d.s := by
  unfold admitOne
  rw [hlog]
  refine ⟨_, rfl, ?_⟩
  dsimp only
  generalize f (number s) = d
  have h1 := pairEnded_of (settled_token (number s) d.s) (ended_token _ _).jour (takeToken_sheaf _ _)
  have h2 := h1.trans (pairEnded_of (settled_commit s _) (ended_commit _ _).jour (noteCommit_sheaf _ _))
  have h3 := h2.trans (pairEnded_of (settled_counters i s _) (ended_counters _ _ _).jour (noteCounters_sheaf _ _ _))
  let e : Done := { d with s := noteCounters i s (noteCommit s (takeToken (number s) d.s)) }
  have h4 := h3.trans (pairEnded_of (settled_log (number s) i e) (ended_log (number s) i e).jour (appendLog_sheaf (number s) i e))
  exact h4.trans (sheafAfter_ends (number s) { e with s := appendLog (number s) i e } ha)

/-- An excepted internal admission in this unit's own numbers. -/
theorem admitOwn_ends {s : State} {i : AdmIn} {f : State → State × Nat} (hup : sequencerUp s = true) (he : i.excepted = true) (ha : i.alone ≠ 0) :
    PairEnded (ringCommit true (f (number s)) (number s)).1 (admitOwn s i f) := by
  have hlog : auditHolds s i = false := by simp [auditHolds, he]
  obtain ⟨d, hd, hend⟩ := admitOne_ends (fun t => let r := ringCommit i.excepted (f t) t; ⟨r.1, r.2, none, false⟩) hlog ha
  unfold admitOwn
  rw [hup, hd]
  rw [he] at hend
  have hcount : PairEnded d.s (count d.s 0 5 1) := pairEnded_of (settled_count _ 0 5 1) (by rw [count_pers]) (count_sheaf _ _ _ _)
  exact hend.trans hcount

theorem pairEnded_redrawn (a : State) (n : Nat) : PairEnded a (redrawn a n) := ⟨rfl, rfl, rfl, rfl, fun _ _ _ _ _ => rfl, fun _ => ⟨⟨_, rfl⟩, rfl⟩⟩

/-- Its effect, through its commit (R194, R394, R397). -/
theorem admitOwn_commits {s : State} {i : AdmIn} {f : State → State × Nat} (hup : sequencerUp s = true) (he : i.excepted = true) (ha : i.alone ≠ 0) :
    (commitFails s = false → PairEnded (f (number s)).1 (admitOwn s i f)) ∧
      (PairEnded (f (number s)).1 (admitOwn s i f) ∨ PairEnded (number s) (admitOwn s i f)) := by
  have hend := admitOwn_ends (f := f) hup he ha
  by_cases hc : commitFails s = false
  · obtain ⟨n, e⟩ := ringCommit_stands (e := true) (f (number s)) (.inl rfl) (by rw [commitFails_number]; exact hc)
    rw [e] at hend
    have h := (pairEnded_redrawn _ n).trans hend
    exact ⟨fun _ => h, .inl h⟩
  · rcases ringCommit_cases true (f (number s)) (number s) with ⟨n, e⟩ | ⟨n, e⟩ <;> rw [e] at hend
    · exact ⟨fun h => absurd h hc, .inl ((pairEnded_redrawn _ n).trans hend)⟩
    · exact ⟨fun h => absurd h hc, .inr ((pairEnded_redrawn _ n).trans hend)⟩

end Sys2Proof.Machine
end

section
/-! SUPPORT. The suspension (R548). -/

namespace Sys2Proof.Machine

theorem recordOf_congr {a t : State} (h : t.pers.jour = a.pers.jour) {code n : Nat} (hr : recordOf a code n) : recordOf t code n := by
  unfold recordOf at hr ⊢
  rw [h]
  exact hr

theorem PairEnded.num {a t : State} (h : PairEnded a t) {i k : Nat} (hk : k < 256) (hb : bookkeeping i k = false) (hn : ¬(i = 0xF000 ∧ k = 7)) :
    num t i k = num a i k := by
  unfold Machine.num
  rw [h.objects i k hk hb hn]

theorem suspensionEffect_suspends (u : State) (n : Nat) : Firm u (Shf.suspensionEffect u n) ∧ (Shf.suspensionEffect u n).sheaf = u.sheaf ∧
    OthersStand u (Shf.suspensionEffect u n) ([(0xF000, 1), (0xF000, 9)] ++ statusObjects) ∧ num (Shf.suspensionEffect u n) 0xF000 1 = 4 ∧
    num (Shf.suspensionEffect u n) 0xF000 9 = n ∧ recordOf (Shf.suspensionEffect u n) 0x71 u.seq.adm := by
  obtain ⟨hrec, hfirm, hsheaf, hothers, -⟩ := noteRecord_notes u 0x71
  unfold Shf.suspensionEffect
  generalize noteRecord u 0x71 = v at *
  refine ⟨(hfirm.trans (firm_setNum _ _ _ _)).trans (firm_setNum _ _ _ _), ?_, ?_, ?_, ?_, recordOf_congr ?_ hrec⟩
  · rw [setNum_sheaf, setNum_sheaf, hsheaf]
  · exact ((hothers.widen (by decide)).setNum 4 (by decide) (by decide)).setNum n (by decide) (by decide)
  · rw [num_setNum _ _ (by decide) (by decide), if_neg (by decide)]
    exact num_setNum_self v 4 (by decide) (by decide)
  · exact num_setNum_self _ n (by decide) (by decide)
  · rw [setNum_jour, setNum_jour]

theorem number_sheaf (s : State) : (number s).sheaf = s.sheaf := by
  obtain ⟨_, _, e⟩ := number_cases s
  rw [e]

theorem suspensionIn_alone (n : Nat) : (Shf.suspensionIn n).alone ≠ 0 := by
  simp [Shf.suspensionIn]

/-- The suspension as this unit numbers it. -/
theorem suspension_admits {u : State} (n : Nat) (hup : sequencerUp u = true) :
    ∃ t, admitOwn u (Shf.suspensionIn n) (fun v => (Shf.suspensionEffect v n, 0)) = t ∧ Firm (number u) t ∧ t.sheaf.grant = u.sheaf.grant ∧
      OthersStand u t ([(0xF000, 1), (0xF000, 7), (0xF000, 9)] ++ statusObjects) ∧
      (commitFails u = false → num t 0xF000 1 = 4 ∧ num t 0xF000 9 = n ∧ recordOf t 0x71 (u.seq.adm + 1)) := by
  obtain ⟨hfirm, hsheaf, hothers, hstate, hat, hrec⟩ := suspensionEffect_suspends (number u) n
  obtain ⟨hgood, hor⟩ := admitOwn_commits (f := fun v => (Shf.suspensionEffect v n, 0)) hup (rfl : (Shf.suspensionIn n).excepted = true) (suspensionIn_alone n)
  generalize admitOwn u (Shf.suspensionIn n) (fun v => (Shf.suspensionEffect v n, 0)) = t at hgood hor
  dsimp only at hgood hor
  generalize Shf.suspensionEffect (number u) n = v at *
  refine ⟨t, rfl, ?_, ?_, ?_, fun hc => ?_⟩
  · exact hor.elim (fun h => hfirm.trans h.firm) fun h => h.firm
  · rw [← number_sheaf u]
    exact hor.elim (fun h => h.grant.trans (congrArg Sheaf.grant hsheaf)) fun h => h.grant
  · have hall : ∀ w, PairEnded w t → OthersStand u w ([(0xF000, 1), (0xF000, 9)] ++ statusObjects) →
        OthersStand u t ([(0xF000, 1), (0xF000, 7), (0xF000, 9)] ++ statusObjects) := by
      intro w h hw i k hk hb hx
      refine (h.objects i k hk hb fun he => hx ?_).trans (hw i k hk hb fun hm => hx ?_)
      · rw [he.1, he.2]
        decide
      · exact (show ∀ p ∈ [(0xF000, 1), (0xF000, 9)] ++ statusObjects, p ∈ [(0xF000, 1), (0xF000, 7), (0xF000, 9)] ++ statusObjects by decide) _ hm
    exact hor.elim (fun h => hall _ h fun i k hk hb hx => (hothers i k hk hb hx).trans (getObj_number u i k)) fun h => hall _ h (othersStand_number u _)
  · have h := hgood hc
    refine ⟨(h.num (by decide) rfl (by decide)).trans hstate, (h.num (by decide) rfl (by decide)).trans hat, ?_⟩
    rw [number_adm] at hrec
    exact recordOf_congr h.jour hrec

theorem firm_number {u t : State} (h : Firm (number u) t) : t.seq.adm = u.seq.adm + 1 ∧ t.seq.admTime = u.seq.time ∧ t.internal = u.internal ∧
    t.pending = u.pending ∧ t.otp = u.otp ∧ t.field = u.field ∧ t.sessions = u.sessions ∧ t.host = u.host := by
  obtain ⟨n, f, e⟩ := number_cases u
  have := h.fields
  rwa [e] at this

/-- The suspension at the head of the queue on the leader (R548). -/
theorem suspension_leads {s : State} {n : Nat} {rest : List IntReq} (hq : s.internal = .suspension n :: rest) (h : Heads s) :
    Admitting .suspensionAdmission s rest fun t => t.otp = s.otp ∧ t.field = s.field ∧ t.sessions = s.sessions ∧
      OthersStand s t ([(0xF000, 1), (0xF000, 7), (0xF000, 9)] ++ statusObjects) ∧
      (commitFails s = false → num t 0xF000 1 = 4 ∧ num t 0xF000 9 = n ∧ recordOf t 0x71 (s.seq.adm + 1)) := by
  let u : State := { s with internal := rest }
  have hup : sequencerUp u = true := h.up
  obtain ⟨t, ht, hfirm, -, hothers, hdone⟩ := suspension_admits n hup
  obtain ⟨hadm, htime, hint, hpend, hotp, hfield, hsess, -⟩ := firm_number hfirm
  have hlead : leads s = true := by simp [leads, h.leader]
  have hrun : Shf.suspension s = t := by
    unfold Shf.suspension popInternal
    rw [hq]
    dsimp only
    rw [if_pos rfl]
    dsimp only
    rw [hlead, if_pos rfl]
    exact (if_neg (by rw [ht, hadm]; exact Nat.succ_ne_self _)).trans ht
  exact ⟨t, coreCmd_next hrun hpend hotp, hadm, htime, hint, hotp, hfield, hsess, hothers, hdone⟩

/-- An admission under a number and a time that the leader gave, which the unit makes (R539). -/
theorem followAt_made {s w : State} {adm time : Nat} {f : State → State} (hf : f { s with seq := { s.seq with adm := adm - 1, time := time } } = w)
    (hadm : w.seq.adm = adm) : ∃ l a, followAt s adm time f = { w with
      seq := { w.seq with time := s.seq.time }, slots := l, sheaf := { w.sheaf with awaits := a } } := by
  unfold followAt
  dsimp only
  rw [hf, if_neg (by simp [hadm])]
  exact ⟨_, _, rfl⟩

/-- The suspension on the follower, under the number of the leader's ADMIT (R543, R548). -/
theorem suspension_follows {s : State} {n adm time : Nat} {rest : List IntReq} (hq : s.internal = .suspension n :: rest) (hup : sequencerUp s = true)
    (hfol : num s 0xF000 2 = 1) (hadm : 0 < adm) (hg : s.sheaf.grant = some (adm, time, (Shf.suspensionIn n).payload)) :
    ∃ t, exec .suspensionAdmission s = .next t ∧ t.seq.adm = adm ∧ t.seq.admTime = time ∧ t.internal = rest ∧ t.sheaf.grant = none ∧ t.otp = s.otp ∧
      t.field = s.field ∧ (commitFails s = false → num t 0xF000 1 = 4 ∧ num t 0xF000 9 = n ∧ recordOf t 0x71 adm) := by
  let p : State := { s with internal := rest, sheaf := { s.sheaf with grant := none } }
  let u : State := { p with seq := { p.seq with adm := adm - 1, time := time } }
  have hupu : sequencerUp u = true := hup
  obtain ⟨w, hw, hfirm, hgrant, -, hdone⟩ := suspension_admits n hupu
  obtain ⟨hwadm, htime, hint, hpend, hotp, hfield, -, -⟩ := firm_number hfirm
  have hn : u.seq.adm + 1 = adm := Nat.succ_pred_eq_of_pos hadm
  rw [hn] at hwadm hdone
  obtain ⟨l, a, hfollow⟩ := followAt_made (s := p) (f := fun v => admitOwn v (Shf.suspensionIn n) fun v => (Shf.suspensionEffect v n, 0)) hw hwadm
  have hlead : leads s = false := by simp [leads, hfol]
  have hrun : Shf.suspension s = { w with seq := { w.seq with time := p.seq.time }, slots := l, sheaf := { w.sheaf with awaits := a } } := by
    rw [← hfollow]
    unfold Shf.suspension popInternal
    rw [hq]
    dsimp only
    rw [if_pos rfl]
    dsimp only
    rw [hlead, if_neg Bool.false_ne_true, hg]
    dsimp only
    rw [if_pos rfl]
    rfl
  exact ⟨_, coreCmd_next hrun hpend hotp, hwadm, htime, hint, hgrant, hotp, hfield, hdone⟩

end Sys2Proof.Machine
end

section
/-! SUPPORT. What the partition admission does on either unit (R550, R551). -/

namespace Sys2Proof.Machine

theorem absentSlots_changes (s : State) (un : List Nat) : ∃ j l, Shf.absentSlots s un = { s with pers := { s.pers with jour := j }, slots := l } := by
  have hfold : ∀ (xs : List Slot) (u : State), ∃ j, xs.foldl unconfirmedRecord u = { u with pers := { u.pers with jour := j } } := by
    intro xs
    induction xs with
    | nil => exact fun u => ⟨u.pers.jour, rfl⟩
    | cons x xs ih =>
      intro u
      have hone : ∃ j, unconfirmedRecord u x = { u with pers := { u.pers with jour := j } } := by
        unfold unconfirmedRecord
        split
        · exact ⟨_, rfl⟩
        · exact ⟨u.pers.jour, rfl⟩
      obtain ⟨j, hj⟩ := hone
      obtain ⟨k, hk⟩ := ih (unconfirmedRecord u x)
      exact ⟨k, by rw [List.foldl_cons, hk, hj]⟩
  obtain ⟨j, hj⟩ := hfold (s.slots.filter fun x => un.contains x.adm && awaitsCode s x) s
  unfold Shf.absentSlots
  dsimp only
  rw [hj]
  exact ⟨_, _, rfl⟩

/-- The partition in the pair's own objects (R549). -/
def partitioned (u : State) : State := setNum (setNum (incObj u 0xF000 11) 0xF000 1 3) 0xF000 8 u.seq.adm

theorem partitioned_shows (u : State) : Firm u (partitioned u) ∧ (partitioned u).sheaf = u.sheaf ∧
    OthersStand u (partitioned u) [(0xF000, 1), (0xF000, 8), (0xF000, 11)] ∧ num (partitioned u) 0xF000 1 = 3 ∧
    num (partitioned u) 0xF000 11 = sat32 (num u 0xF000 11) 1 ∧ num (partitioned u) 0xF000 8 = u.seq.adm := by
  unfold partitioned incObj
  refine ⟨((firm_setNum _ _ _ _).trans (firm_setNum _ _ _ _)).trans (firm_setNum _ _ _ _), ?_, ?_, ?_, ?_, ?_⟩
  · rw [setNum_sheaf, setNum_sheaf, setNum_sheaf]
  · exact ((OthersStand.setNum (fun _ _ _ _ _ => rfl) _ (by decide) (by decide)).setNum _ (by decide) (by decide)).setNum _ (by decide) (by decide)
  · rw [num_setNum _ _ (by decide) (by decide), if_neg (by decide)]
    exact num_setNum_self _ _ (by decide) (by decide)
  · rw [num_setNum _ _ (by decide) (by decide), if_neg (by decide), num_setNum _ _ (by decide) (by decide), if_neg (by decide)]
    exact num_setNum_self _ _ (by decide) (by decide)
  · exact num_setNum_self _ _ (by decide) (by decide)

/-- The partition, up to the answers of what was left to the partner. -/
def cutApart (u : State) : State :=
  Shf.upd (Shf.absentSlots (partitioned u) (Shf.unconfirmed u)) fun h => { h with awaits := [], digests := [], theirs := [], owed := [], grant := none, asked := [] }

theorem partitionEffect_eq (u : State) : Shf.partitionEffect u =
    if leads u then noteRecord (Shf.setUnmirrored (answerRelayed (cutApart u)) u.seq.adm) 0x72
    else Shf.upd (Shf.answerAway (cutApart u)) fun h => { h with apart := true } := rfl

/-- What an admission leaves alone whose effects may reach the host link: the number and the time, the queues, the fuses, the field die and the sessions. -/
def calm (s : State) : Nat × Nat × List IntReq × List Instr × Otp × Field × SMap Session :=
  (s.seq.adm, s.seq.admTime, s.internal, s.pending, s.otp, s.field, s.sessions)

def Calm (a t : State) : Prop := calm t = calm a

theorem Firm.calm {a t : State} (h : Firm a t) : Calm a t := by
  obtain ⟨hadm, htime, hint, hpend, hotp, hfield, hsess, -⟩ := h.fields
  unfold Calm Machine.calm
  rw [hadm, htime, hint, hpend, hotp, hfield, hsess]

theorem Calm.trans {a b c : State} (h : Calm a b) (g : Calm b c) : Calm a c := Eq.trans g h

theorem Calm.adm {a t : State} (h : Calm a t) : t.seq.adm = a.seq.adm := congrArg Prod.fst h

theorem calm_number {u t : State} (h : Calm (number u) t) : t.seq.adm = u.seq.adm + 1 ∧ t.seq.admTime = u.seq.time ∧ t.internal = u.internal ∧
    t.pending = u.pending ∧ t.otp = u.otp ∧ t.field = u.field ∧ t.sessions = u.sessions := by
  obtain ⟨n, f, e⟩ := number_cases u
  rw [e] at h
  simpa [Calm, Machine.calm] using h

/-- What the partition leaves to every client and to the field die, and what it shows. -/
structure Cut (u v : State) : Prop where
  calm : Calm u v
  key : v.sheaf.key = u.sheaf.key
  awaits : v.sheaf.awaits = []
  digests : v.sheaf.digests = []
  state : num v 0xF000 1 = 3
  partitions : num v 0xF000 11 = sat32 (num u 0xF000 11) 1
  at' : num v 0xF000 8 = u.seq.adm

theorem cutApart_cuts (u : State) : Cut u (cutApart u) ∧ OthersStand u (cutApart u) [(0xF000, 1), (0xF000, 8), (0xF000, 11)] ∧ (cutApart u).host = u.host := by
  obtain ⟨hfirm, hsheaf, hothers, h1, h11, h8⟩ := partitioned_shows u
  obtain ⟨-, -, -, -, -, -, -, hhost⟩ := hfirm.fields
  obtain ⟨j, l, e⟩ := absentSlots_changes (partitioned u) (Shf.unconfirmed u)
  unfold cutApart
  rw [e]
  exact ⟨⟨hfirm.calm, (show (partitioned u).sheaf.key = u.sheaf.key from congrArg Sheaf.key hsheaf), rfl, rfl, h1, h11, h8⟩, hothers, hhost⟩

/-- A step that keeps the pair's own objects of the partition carries it on. -/
theorem Cut.kept {u v w : State} (h : Cut u v) (hf : Firm v w) (hs : w.sheaf = v.sheaf)
    (ho : ∀ k ∈ [1, 8, 11], getObj w 0xF000 k = getObj v 0xF000 k) : Cut u w := by
  have hn : ∀ k ∈ [1, 8, 11], num w 0xF000 k = num v 0xF000 k := fun k hk => by unfold num; rw [ho k hk]
  exact ⟨h.calm.trans hf.calm, by rw [hs]; exact h.key, by rw [hs]; exact h.awaits, by rw [hs]; exact h.digests, (hn _ (by decide)).trans h.state, (hn _ (by decide)).trans h.partitions,
    (hn _ (by decide)).trans h.at'⟩

/-! The leader (R538, R550). -/

/-- Counters' Unmirrored since, set one after the other. -/
theorem setNums_unmirrored (x : Nat) (ks : List Nat) (hks : ∀ i ∈ ks, 0xC000 ≤ i ∧ i < 0xC800) (u : State) :
    Firm u (ks.foldl (fun t i => setNum t i 8 x) u) ∧ (ks.foldl (fun t i => setNum t i 8 x) u).sheaf = u.sheaf ∧
    (ks.foldl (fun t i => setNum t i 8 x) u).slots = u.slots ∧
    (∀ i k, k < 256 → (i ∈ ks → k ≠ 8) → getObj (ks.foldl (fun t i => setNum t i 8 x) u) i k = getObj u i k) ∧
    (∀ i ∈ ks, num (ks.foldl (fun t i => setNum t i 8 x) u) i 8 = x) := by
  induction ks generalizing u with
  | nil => exact ⟨rfl, rfl, rfl, fun _ _ _ _ => rfl, fun _ h => absurd h List.not_mem_nil⟩
  | cons j js ih =>
    obtain ⟨hfirm, hsheaf, hslots, hothers, hset⟩ := ih (fun i hi => hks i (List.mem_cons_of_mem j hi)) (setNum u j 8 x)
    rw [List.foldl_cons]
    refine ⟨(firm_setNum u j 8 x).trans hfirm, hsheaf.trans (setNum_sheaf _ _ _ _), hslots.trans (setNum_slots _ _ _ _), fun i k hk hn => ?_, fun i hi => ?_⟩
    · rw [hothers i k hk fun h => hn (List.mem_cons_of_mem j h)]
      exact (getObj_setObj u (.num x) (by decide) hk).trans (if_neg fun ⟨hi, hk8, _⟩ => hn (hi ▸ List.mem_cons_self) hk8)
    · by_cases hj : i ∈ js
      · exact hset i hj
      · have hij : i = j := (List.mem_cons.mp hi).resolve_right hj
        obtain ⟨hlo, hhi⟩ := hks i hi
        have hfind : (Dict.find i 8).2.isSome = true := by
          rw [show i = 0xC000 + (i - 0xC000) by omega, find_counter (by omega)]
          rfl
        unfold num
        rw [hothers i 8 (by decide) fun h => absurd h hj, ← hij]
        exact num_setNum_self u x (by decide) hfind

/-- A read that the partner was to order is answered; no other waits so (R138, log 127). -/
theorem answerRelayed_none (s : State) : ∀ x ∈ (answerRelayed s).slots, relayed x = false := by
  intro x hx
  obtain ⟨y, -, rfl⟩ := List.mem_map.mp hx
  split
  · rename_i hr
    unfold readAbsent relayed at *
    simp only [Bool.and_eq_true] at hr
    obtain ⟨⟨⟨-, -⟩, hb⟩, -⟩ := hr
    split
    · rw [Option.isNone_eq_false_iff.mpr (by simpa using hb)]
      simp
    · simp
  · rename_i hr
    exact Bool.eq_false_iff.mpr hr

theorem partitionEffect_leads {u : State} (hl : leads u = true) (h0 : u.seq.adm ≠ 0) : Cut u (Shf.partitionEffect u) ∧
    (∀ k : Fin 2048, num (Shf.partitionEffect u) (0xC000 + k.val) 8 = u.seq.adm) ∧ recordOf (Shf.partitionEffect u) 0x72 u.seq.adm ∧
    ∀ x ∈ (Shf.partitionEffect u).slots, relayed x = false := by
  rw [partitionEffect_eq, if_pos hl]
  obtain ⟨hcut, -, -⟩ := cutApart_cuts u
  have hcut1 : Cut u (answerRelayed (cutApart u)) := ⟨hcut.calm, hcut.key, hcut.awaits, hcut.digests, hcut.state, hcut.partitions, hcut.at'⟩
  have hslots := answerRelayed_none (cutApart u)
  generalize answerRelayed (cutApart u) = v at hcut1 hslots
  have hset : Shf.setUnmirrored v u.seq.adm = ((List.range 2048).map (0xC000 + ·)).foldl (fun t i => setNum t i 8 u.seq.adm) v := by
    unfold Shf.setUnmirrored
    rw [if_neg h0, if_neg h0]
    dsimp only
    rw [List.append_nil]
  have hks : ∀ i ∈ (List.range 2048).map (0xC000 + ·), 0xC000 ≤ i ∧ i < 0xC800 := fun i hi => by
    obtain ⟨k, hk, rfl⟩ := List.mem_map.mp hi
    have := List.mem_range.mp hk
    omega
  obtain ⟨sfirm, ssheaf, sslots, sothers, sset⟩ := setNums_unmirrored u.seq.adm _ hks v
  rw [← hset] at sfirm ssheaf sslots sothers sset
  generalize Shf.setUnmirrored v u.seq.adm = w at *
  have hcut2 : Cut u w := hcut1.kept sfirm ssheaf fun k hk => sothers _ _ (by simp at hk; omega) fun hi => by have := hks _ hi; omega
  obtain ⟨hrec, nfirm, nsheaf, nothers, nslots⟩ := noteRecord_notes w 0x72
  refine ⟨hcut2.kept nfirm nsheaf fun k hk => nothers _ _ (by simp at hk; omega) rfl (by simp [statusObjects]), fun k => ?_, ?_, fun x hx => ?_⟩
  · have hmem : 0xC000 + k.val ∈ (List.range 2048).map (0xC000 + ·) := List.mem_map.mpr ⟨k.val, List.mem_range.mpr k.isLt, rfl⟩
    rw [OthersStand.num nothers (by decide) (by simp [bookkeeping]) (by simp [statusObjects])]
    exact sset _ hmem
  · rw [← hcut2.calm.adm]
    exact hrec
  · rcases nslots x hx with h | h
    · exact hslots x (sslots ▸ h)
    · simp [relayed, h]

/-! The follower (R551). -/

theorem pairOrigin_follower {s : State} (hs : sheafOn s = true) (hf : num s 0xF000 2 = 1) : pairOrigin s 1 = 0x4001 := by
  have hp : pairNo s = 1 := by simp [pairNo, hs, hf]
  unfold pairOrigin
  rw [if_pos ⟨hs, hp, .inl rfl, rfl⟩]

/-- The follower answers a message of its host link on that link. -/
theorem answerNow_follower {s : State} (hs : sheafOn s = true) (hf : num s 0xF000 2 = 1) (m : Bytes) (code : Nat) :
    ∃ p, answerNow s (parseRq 0x4001 m) code = joinReply { s with perf := p } (fullReply ((parseRq 0x4001 m).response code [])) := by
  have hp : pairNo s = 1 := by simp [pairNo, hs, hf]
  obtain ⟨p, hc⟩ := count_perf s 0 3 1
  have hh : homeHere s 0x4001 = true := by
    unfold homeHere
    rw [hp, show onFollower 0x4001 = true by decide]
    simp
  refine ⟨p, ?_⟩
  unfold answerNow
  dsimp only
  rw [hc, show (parseRq 0x4001 m).origin = 0x4001 from rfl, hh, if_neg (by decide), if_pos (by decide)]

theorem answerNow_all {s : State} (hs : sheafOn s = true) (hf : num s 0xF000 2 = 1) (ms : List Bytes) :
    ∃ p, ms.foldl (fun t m => answerNow t (parseRq 0x4001 m) Abt.partnerAbsent) s =
      { s with perf := p, host := { s.host with replies := s.host.replies ++ ms.map fun m => fullReply ((parseRq 0x4001 m).response Abt.partnerAbsent []) } } := by
  induction ms generalizing s with
  | nil => exact ⟨s.perf, by simp⟩
  | cons m ms ih =>
    obtain ⟨p, hp⟩ := answerNow_follower hs hf m Abt.partnerAbsent
    rw [List.foldl_cons, hp]
    obtain ⟨q, hq⟩ := ih (s := joinReply { s with perf := p } (fullReply ((parseRq 0x4001 m).response Abt.partnerAbsent []))) hs hf
    exact ⟨q, by rw [hq]; simp [joinReply]⟩

theorem answerAway_follower {s : State} (hs : sheafOn s = true) (hf : num s 0xF000 2 = 1) : ∃ p l, Shf.answerAway s =
    { s with
      perf := p
      slots := l
      host := { s.host with away := [], replies := (s.host.replies ++ s.host.away.map fun m => fullReply ((parseRq 0x4001 m).response Abt.partnerAbsent [])) } } := by
  unfold Shf.answerAway
  rw [pairOrigin_follower hs hf]
  obtain ⟨p, hp⟩ := answerNow_all (s := answerRelayed { s with host := { s.host with away := [] } }) hs hf s.host.away
  rw [hp]
  exact ⟨_, _, rfl⟩

theorem partitionEffect_follows {u : State} (hs : sheafOn u = true) (hf : num u 0xF000 2 = 1) : Cut u (Shf.partitionEffect u) ∧
    OthersStand u (Shf.partitionEffect u) [(0xF000, 1), (0xF000, 8), (0xF000, 11)] ∧ (Shf.partitionEffect u).sheaf.apart = true ∧
    (Shf.partitionEffect u).host.away = [] ∧ (Shf.partitionEffect u).host.replies = u.host.replies ++
      u.host.away.map fun m => fullReply ((parseRq (pairOrigin u 1) m).response Abt.partnerAbsent []) := by
  obtain ⟨hcut, hothers, hhost⟩ := cutApart_cuts u
  have hl : leads u = false := by simp [leads, hf]
  have hsc : sheafOn (cutApart u) = true := by
    unfold sheafOn modeFlag at hs ⊢
    rw [hothers.num (by decide) rfl (by decide)]
    exact hs
  have hfc : num (cutApart u) 0xF000 2 = 1 := (hothers.num (by decide) rfl (by decide)).trans hf
  rw [partitionEffect_eq, hl, if_neg Bool.false_ne_true, pairOrigin_follower hs hf, ← hhost]
  generalize cutApart u = c at *
  obtain ⟨p, l, e⟩ := answerAway_follower hsc hfc
  rw [e]
  exact ⟨⟨hcut.calm, hcut.key, hcut.awaits, hcut.digests, hcut.state, hcut.partitions, hcut.at'⟩, hothers, rfl, rfl, rfl⟩

end Sys2Proof.Machine
end

section
/-! SUPPORT. The partition admission (R550). -/

namespace Sys2Proof.Machine

/-- The state in which this unit admits the partition, its number still to be taken. -/
def ownAt (s : State) (rest : List IntReq) (a : Nat) : State := { s with internal := rest, seq := { s.seq with adm := a } }

def partitionIn (s : State) : AdmIn := { internalIn 20 [] true with payload := Shf.partitionPayload s }

/-- The number before that of the partition (R550). -/
def beforePartition (s : State) : Nat := if leads s ∨ 2 ^ 63 ≤ s.seq.adm then s.seq.adm else 2 ^ 63 + (s.pers.reserved + 1) * 1048576 - 1

/-- The partition at the head of the queue, in a unit that has lost its partner. -/
theorem partition_admits {s : State} {rest : List IntReq} (hq : s.internal = .partition :: rest) (hup : sequencerUp s = true)
    (hcut : Cut (number (ownAt s rest (beforePartition s))) (Shf.partitionEffect (number (ownAt s rest (beforePartition s))))) :
    ∃ t, exec .partitionAdmission s = .next t ∧ t.seq.adm = beforePartition s + 1 ∧ t.seq.admTime = s.seq.time ∧ t.internal = rest ∧ t.otp = s.otp ∧
      t.field = s.field ∧ t.sessions = s.sessions ∧
      (commitFails s = false → PairEnded (Shf.partitionEffect (number (ownAt s rest (beforePartition s)))) t) ∧
      (PairEnded (Shf.partitionEffect (number (ownAt s rest (beforePartition s)))) t ∨ PairEnded (number (ownAt s rest (beforePartition s))) t) := by
  let u : State := ownAt s rest (beforePartition s)
  have hupu : sequencerUp u = true := hup
  obtain ⟨hgood, hor⟩ := admitOwn_commits (f := fun v => (Shf.partitionEffect v, 0)) hupu (rfl : (partitionIn s).excepted = true) (Nat.one_ne_zero : (partitionIn s).alone ≠ 0)
  generalize ht : admitOwn u (partitionIn s) (fun v => (Shf.partitionEffect v, 0)) = t at hgood hor
  dsimp only at hgood hor
  have hends : Calm (number u) t := hor.elim (fun h => hcut.calm.trans h.firm.calm) fun h => h.firm.calm
  obtain ⟨hadm, htime, hint, hpend, hotp, hfield, hsess⟩ := calm_number hends
  have hown : (if leads s ∨ 2 ^ 63 ≤ s.seq.adm then ({ s with internal := rest } : State)
      else { s with internal := rest, seq := { s.seq with adm := 2 ^ 63 + (s.pers.reserved + 1) * 1048576 - 1 } }) = u := by
    unfold u ownAt beforePartition
    split <;> rfl
  have hrun : Shf.partition s = t := by
    unfold Shf.partition popInternal
    rw [hq]
    dsimp only
    rw [if_pos (by decide)]
    dsimp only
    rw [hown]
    exact (if_neg (by rw [← partitionIn, ht, hadm]; exact Nat.succ_ne_self _)).trans ht
  exact ⟨t, coreCmd_next hrun hpend hotp, hadm, htime, hint, hotp, hfield, hsess, hgood, hor⟩

/-- Without a link to the partner the end of the admission keeps every object outside bookkeeping. -/
theorem PairEnded.stands {s a t : State} (h : PairEnded a t) (hk : a.sheaf.key = none) {xs : List (Nat × Nat)} (ha : OthersStand s a xs) : OthersStand s t xs := by
  intro i k hk' hb hx
  refine Eq.trans ?_ (ha i k hk' hb hx)
  by_cases h7 : i = 0xF000 ∧ k = 7
  · rw [h7.1, h7.2]
    exact (h.unlinked hk).2
  · exact h.objects i k hk' hb h7

/-- What an unlinked unit shows of its partition, once its commit stands (R550). -/
theorem Cut.ended {u a t : State} (h : Cut u a) (hk : u.sheaf.key = none) (he : PairEnded a t) : num t 0xF000 1 = 3 ∧ num t 0xF000 11 = sat32 (num u 0xF000 11) 1 ∧
    num t 0xF000 8 = t.seq.adm ∧ t.sheaf.awaits = [] ∧ t.sheaf.digests = [] := by
  obtain ⟨⟨m, hm⟩, -⟩ := he.unlinked (h.key.trans hk)
  refine ⟨(he.num (by decide) rfl (by decide)).trans h.state, (he.num (by decide) rfl (by decide)).trans h.partitions, ?_, by rw [hm]; exact h.awaits, by rw [hm]; exact h.digests⟩
  rw [he.num (by decide) rfl (by decide), h.at', he.firm.calm.adm, h.calm.adm]

theorem num_ownAt (s : State) (rest : List IntReq) (a i k : Nat) : num (number (ownAt s rest a)) i k = num s i k := by
  rw [num_number]
  rfl

/-- Settles O60: an admission that is excepted and not compared ends without an effect of its own beyond bookkeeping and X_L, so that the partition, the suspension and
the answers to what was left to the partner stand as their effects make them. -/
theorem pairSeparationsComplete : Obligations.pair_separations_complete := by
  unfold Obligations.pair_separations_complete
  refine fun s => ⟨fun rest hq hup hkey hjoin => ⟨fun hlead => ?_, fun hfol hsheaf => ?_⟩, fun n rest hq h => suspension_leads hq h,
    fun n rest adm time hq hup hfol hadm hg => suspension_follows hq hup hfol hadm hg⟩
  · have hl : leads s = true := by simp [leads, hlead]
    have hb : beforePartition s = s.seq.adm := if_pos (.inl hl)
    have hlu : leads (number (ownAt s rest (beforePartition s))) = true := by
      unfold leads
      rw [num_ownAt]
      exact hl
    have hadmu : (number (ownAt s rest (beforePartition s))).seq.adm = s.seq.adm + 1 := by
      rw [number_adm, hb]
      rfl
    obtain ⟨hcut, hcounters, hrec, hslots⟩ := partitionEffect_leads hlu (by rw [hadmu]; exact Nat.succ_ne_zero _)
    obtain ⟨t, hexec, hadm, htime, hint, hotp, hfield, hsess, hgood, -⟩ := partition_admits hq hup hcut
    rw [hadmu] at hcounters hrec
    refine ⟨t, hexec, ⟨htime, hint, hotp, hfield, hsess, fun hc => ?_⟩, hadm.trans (by rw [hb]), fun hc => ?_⟩
    · have h := hcut.ended (by rw [number_sheaf]; exact hkey) (hgood hc)
      rwa [num_ownAt] at h
    · have h := hgood hc
      refine ⟨fun k => ?_, recordOf_congr h.jour hrec, fun x hx => hslots x (h.slots ▸ hx)⟩
      rw [h.num (by decide) (by simp [bookkeeping]) (by simp)]
      exact hcounters k
  · have hl : leads s = false := by simp [leads, hfol]
    have hfu : num (number (ownAt s rest (beforePartition s))) 0xF000 2 = 1 := (num_ownAt _ _ _ _ _).trans hfol
    have hsu : sheafOn (number (ownAt s rest (beforePartition s))) = true := by
      unfold sheafOn modeFlag
      rw [num_ownAt]
      exact hsheaf
    obtain ⟨hcut, hothers, hapart, haway, hreplies⟩ := partitionEffect_follows hsu hfu
    obtain ⟨t, hexec, hadm, htime, hint, hotp, hfield, hsess, hgood, hor⟩ := partition_admits hq hup hcut
    have hkeyu : (number (ownAt s rest (beforePartition s))).sheaf.key = none := by
      rw [number_sheaf]
      exact hkey
    have hhost : (number (ownAt s rest (beforePartition s))).host = s.host := by
      obtain ⟨_, _, e⟩ := number_cases (ownAt s rest (beforePartition s))
      rw [e]
      rfl
    have hown : ∀ i k, getObj (number (ownAt s rest (beforePartition s))) i k = getObj s i k := fun i k => (getObj_number _ i k).trans rfl
    refine ⟨t, hexec, ⟨htime, hint, hotp, hfield, hsess, fun hc => ?_⟩, hadm.trans ?_, ?_, fun hc => ?_⟩
    · have h := hcut.ended hkeyu (hgood hc)
      rwa [num_ownAt] at h
    · unfold beforePartition
      rw [hl]
      by_cases hown : 2 ^ 63 ≤ s.seq.adm
      · rw [if_pos hown, if_pos (.inr hown)]
      · rw [if_neg hown, if_neg fun h => h.elim Bool.false_ne_true hown]
        omega
    · exact hor.elim (fun h => h.stands (hcut.key.trans hkeyu) fun i k hk hb hx => (hothers i k hk hb hx).trans (hown i k))
        fun h => h.stands hkeyu fun i k _ _ _ => hown i k
    · have h := hgood hc
      obtain ⟨-, -, -, -, -, -, -, hh⟩ := h.firm.fields
      obtain ⟨⟨m, hm⟩, -⟩ := h.unlinked (hcut.key.trans hkeyu)
      refine ⟨by rw [hm]; exact hapart, by rw [hh]; exact haway, ?_⟩
      rw [hh, hreplies, hhost, pairOrigin_follower hsu hfu, pairOrigin_follower hsheaf hfol]

end Sys2Proof.Machine
end

section
/-! SUPPORT. Resets of the core die (R75, R76) and of the field die (R77, R93). -/

namespace Sys2Proof.Machine

/-! The core die. -/

/-- What a reset does to the store before the core die starts anew: what is not released is taken back (R23, R339, R439). -/
def takenBack (s : State) : State := if s.otp.retired then s else s.slots.foldl dropStaged (spoilInstalls s)

/-- What one act of a slot loses of the store (R439). -/
def spoilAct (t : State) (a : Act) : State :=
  match a with
  | .install c m 0 => spoil t c m
  | _ => t

theorem spoilAct_changes (s : State) (a : Act) : ∃ p n, spoilAct s a = { s with pers := p, seq := { s.seq with draws := n } } ∧ (stagesEffect a = false → p = s.pers) := by
  unfold spoilAct
  split
  · exact ⟨_, _, rfl, fun h => (nomatch h)⟩
  · exact ⟨s.pers, s.seq.draws, rfl, fun _ => rfl⟩

theorem spoilActs_changes (as : List Act) (s : State) : ∃ p n, as.foldl spoilAct s = { s with pers := p, seq := { s.seq with draws := n } } ∧
    ((∀ a ∈ as, stagesEffect a = false) → p = s.pers) := by
  induction as generalizing s with
  | nil => exact ⟨s.pers, s.seq.draws, rfl, fun _ => rfl⟩
  | cons a as ih =>
    obtain ⟨p, n, hone, hp⟩ := spoilAct_changes s a
    obtain ⟨q, m, hrest, hq⟩ := ih (spoilAct s a)
    refine ⟨q, m, by rw [List.foldl_cons, hrest, hone], fun hn => ?_⟩
    rw [hq fun b hb => hn b (List.mem_cons_of_mem a hb), hone]
    exact hp (hn a List.mem_cons_self)

theorem spoilInstalls_changes (s : State) : ∃ p n, spoilInstalls s = { s with pers := p, seq := { s.seq with draws := n } } ∧ (noStaged s → p = s.pers) := by
  obtain ⟨p, n, h, hp⟩ := spoilActs_changes (s.slots.flatMap fun x => x.acts) s
  refine ⟨p, n, h, fun hn => hp fun a ha => ?_⟩
  obtain ⟨x, hx, hax⟩ := List.mem_flatMap.mp ha
  exact hn x hx a hax

theorem dropStaged_changes (xs : List Slot) (s : State) : ∃ p, xs.foldl dropStaged s = { s with pers := p } ∧
    ((∀ x ∈ xs, ∀ a ∈ x.acts, stagesEffect a = false) → p = s.pers) := by
  induction xs generalizing s with
  | nil => exact ⟨s.pers, rfl, fun _ => rfl⟩
  | cons x xs ih =>
    rw [List.foldl_cons]
    by_cases hx : x.acts.any stagesEffect = true
    · obtain ⟨p, hp, -⟩ := ih (withdrawRecord s x.adm)
      refine ⟨p, ?_, fun hn => ?_⟩
      · rw [dropStaged, if_pos hx, hp]
        rfl
      · obtain ⟨a, ha, hs⟩ := List.any_eq_true.mp hx
        rw [hn x List.mem_cons_self a ha] at hs
        cases hs
    · obtain ⟨p, hp, hq⟩ := ih s
      exact ⟨p, by rw [dropStaged, if_neg hx, hp], fun hn => hq fun y hy => hn y (List.mem_cons_of_mem x hy)⟩

theorem takenBack_changes (s : State) : ∃ p n, takenBack s = { s with pers := p, seq := { s.seq with draws := n } } ∧ (noStaged s → p = s.pers) := by
  unfold takenBack
  split
  · exact ⟨s.pers, s.seq.draws, rfl, fun _ => rfl⟩
  · obtain ⟨p, n, hspoil, hp⟩ := spoilInstalls_changes s
    obtain ⟨q, hdrop, hq⟩ := dropStaged_changes s.slots (spoilInstalls s)
    refine ⟨q, n, by rw [hdrop, hspoil], fun hn => ?_⟩
    rw [hq hn, hspoil]
    exact hp hn

/-- What stands of the store where power fails (R23, R41). -/
theorem heldUp_cases (s : State) : Bt.heldUp s = s.pers ∨ ∃ c ∈ s.seq.commits, s.seq.time < c.1 + 8 ∧
    Bt.heldUp s = { c.2 with reserved := s.pers.reserved, laps := s.pers.laps, cring := (Bt.heldUp s).cring } := by
  unfold Bt.heldUp
  dsimp only
  split
  · exact .inl rfl
  · split
    · rename_i c hc
      obtain ⟨hmem, ht⟩ := List.mem_filter.mp (List.mem_of_getElem? hc)
      exact .inr ⟨c, hmem, by simpa using ht, rfl⟩
    · exact .inl rfl

/-- A core-die reset (R75, R76). -/
theorem restarted_coreReset (s : State) (cause stage : Nat) : Restarted s (Bt.coreReset s cause stage) cause stage := by
  obtain ⟨p, n, hback, hp⟩ := takenBack_changes s
  have hfail : (takenBack s).seq.failing = s.seq.failing := by rw [hback]
  have hpers : (Bt.coreReset s cause stage).pers = if s.seq.failing = true then Bt.heldUp (takenBack s) else p := by
    rw [← hfail, show p = (takenBack s).pers by rw [hback]]
    rfl
  refine ⟨rfl, rfl, ⟨rfl, rfl⟩, ⟨rfl, rfl, rfl, rfl, rfl⟩, ⟨rfl, rfl, rfl, rfl, rfl, rfl, rfl⟩, ⟨rfl, rfl⟩, ⟨rfl, rfl, rfl, rfl⟩, ⟨rfl, rfl, ?_, rfl⟩,
    ⟨rfl, rfl, rfl, rfl, rfl, rfl⟩, ?_, fun hf hn => ?_, fun hn => ?_, ?_⟩
  · show (takenBack s).bar.b = s.bar.b
    rw [hback]
  · show (takenBack s).otp = s.otp
    rw [hback]
  · rw [hpers, hf, if_neg Bool.false_ne_true]
    exact hp hn
  · rw [hpers]
    split
    · rcases heldUp_cases (takenBack s) with h | ⟨c, hc, ht, h⟩
      · refine .inl (h.trans ?_)
        rw [hback]
        exact hp hn
      · refine .inr ⟨c, by rw [hback] at hc; exact hc, by rw [hback] at ht; exact ht, h.trans ?_⟩
        rw [show (takenBack s).pers = s.pers by rw [hback]; exact hp hn]
    · exact .inl (hp hn)
  · show (takenBack s).field = s.field
    rw [hback]

/-- What else a reset of the core die leaves alone: the queue, the Sinter domain, and the supplies and the pin. -/
theorem coreReset_keeps (s : State) (cause stage : Nat) : (Bt.coreReset s cause stage).pending = s.pending ∧
    (stage ≠ 0 → (Bt.coreReset s cause stage).sinter = s.sinter) ∧ (Bt.coreReset s cause stage).sinter.key = s.sinter.key ∧
    (Bt.coreReset s cause stage).sinter.log = s.sinter.log := by
  obtain ⟨p, n, hback, -⟩ := takenBack_changes s
  have hs : (takenBack s).sinter = s.sinter := by rw [hback]
  have hsinter : (Bt.coreReset s cause stage).sinter =
      if stage = 0 ∧ (takenBack s).stage ≠ 0 then { (takenBack s).sinter with vigil := vigilOn (takenBack s), hits := [] } else (takenBack s).sinter := rfl
  refine ⟨?_, fun h => ?_, ?_, ?_⟩
  · show (takenBack s).pending = s.pending
    rw [hback]
  · rw [hsinter, if_neg fun h' => h h'.1, hs]
  · rw [hsinter, ← hs]
    split <;> rfl
  · rw [hsinter, ← hs]
    split <;> rfl

theorem Restarted.withBoot {s t : State} {cause stage : Nat} (h : Restarted s t cause stage) (b : Boot) (hc : b.cause = cause) (ht : b.toggle = false) :
    Restarted s { t with boot := b } cause stage :=
  ⟨hc, h.stage, h.objects, h.served, h.engines, h.cells, h.host, ⟨h.link.1, h.link.2.1, h.link.2.2.1, ht⟩, h.calm, h.fuses, h.store, h.heldUp, h.field⟩

/-- A reset of a state that differs in its monitors, its counters and its queues alone. -/
theorem Restarted.of_kept {s u t : State} {cause stage : Nat} (h : Restarted u t cause stage) (hb : u.bar = s.bar) (ho : u.otp = s.otp) (hp : u.pers = s.pers)
    (hq : u.seq = s.seq) (hl : u.slots = s.slots) (hf : u.field = s.field) : Restarted s t cause stage := by
  have hn : noStaged s → noStaged u := fun hn x hx => hn x (hl ▸ hx)
  refine ⟨h.cause, h.stage, h.objects, h.served, h.engines, h.cells, h.host, hb ▸ h.link, h.calm, h.fuses.trans ho,
    fun hfail hst => (h.store (by rw [hq]; exact hfail) (hn hst)).trans hp, fun hst => ?_, h.field.trans hf⟩
  have := h.heldUp (hn hst)
  rwa [hp, hq] at this

/-- A reset that runs at once: start-up begins where every host rail is in range, else the die is held (R75). -/
theorem restarted_resetRun (s : State) (cause : Nat) : let g := if s.boot.rails && s.boot.vddah && s.boot.lvds then 1 else 0
    Restarted s (Bt.resetRun s cause) cause g ∧ (Bt.resetRun s cause).pending = s.pending ∧ (g = 1 → (Bt.resetRun s cause).sinter = s.sinter) ∧
      (g = 0 → (Bt.resetRun s cause).boot.held = true) := by
  obtain ⟨hpend, hsinter, -, -⟩ := coreReset_keeps s cause 1
  obtain ⟨hpend0, -, -, -⟩ := coreReset_keeps s cause 0
  have hrails : hostRails s = (s.boot.rails && s.boot.vddah && s.boot.lvds) := rfl
  dsimp only
  rw [← hrails]
  unfold Bt.resetRun
  cases hostRails s with
  | true => exact ⟨restarted_coreReset s cause 1, hpend, fun _ => hsinter Nat.one_ne_zero, fun h => absurd h Nat.one_ne_zero⟩
  | false => exact ⟨(restarted_coreReset s cause 0).withBoot _ rfl rfl, hpend0, fun h => absurd h Nat.zero_ne_one, fun _ => rfl⟩

/-! The field die. -/

theorem send_unlinked {f : Field} (h : f.link = 0) (m : Lane0) : Fld.send f m = f := by
  unfold Fld.send
  rw [if_neg (by simp [h]), if_neg (by simp [h])]

/-- Ports as their settings have them, on a field die without a link: nothing but the ports changes. -/
theorem applyEnables_ports (ps : List Nat) (f : Field) (h : f.link = 0) : ∃ p, ps.foldl Fld.applyEnable f = { f with ports := p } := by
  induction ps generalizing f with
  | nil => exact ⟨f.ports, rfl⟩
  | cons n ns ih =>
    have hone : ∃ p, Fld.applyEnable f n = { f with ports := p } := by
      unfold Fld.applyEnable
      dsimp only
      refine iteInduction (motive := fun g : Field => ∃ p, g = { f with ports := p }) (fun _ => ⟨f.ports, rfl⟩) fun _ => ?_
      rw [send_unlinked (f := Fld.setPort f n _) h]
      exact ⟨_, rfl⟩
    obtain ⟨p, hp⟩ := hone
    obtain ⟨q, hq⟩ := ih (Fld.applyEnable f n) (by rw [hp]; exact h)
    exact ⟨q, by rw [List.foldl_cons, hq, hp]⟩

/-- A field die that runs after its reset: its ports are as its settings have them. -/
theorem reset_runs (f : Field) (cause : Nat) : ∃ p, Fld.reset f cause true = { Fld.reset f cause false with run := true, ports := p } :=
  applyEnables_ports (List.range 7) { Fld.reset f cause false with run := true } rfl

theorem fieldStarted_reset (f : Field) (cause : Nat) (run : Bool) : FieldStarted f (Fld.reset f cause run) cause run := by
  cases run with
  | false => exact ⟨rfl, rfl, rfl, ⟨rfl, rfl, rfl, rfl, rfl, rfl, rfl, rfl, rfl⟩, ⟨rfl, rfl, rfl, rfl, rfl, rfl⟩, ⟨rfl, rfl, rfl⟩, ⟨rfl, rfl⟩⟩
  | true =>
    obtain ⟨p, hp⟩ := reset_runs f cause
    rw [hp]
    exact ⟨rfl, rfl, rfl, ⟨rfl, rfl, rfl, rfl, rfl, rfl, rfl, rfl, rfl⟩, ⟨rfl, rfl, rfl, rfl, rfl, rfl⟩, ⟨rfl, rfl, rfl⟩, ⟨rfl, rfl⟩⟩

end Sys2Proof.Machine
end

section
/-! SUPPORT. Supplies, pins and losses (R37 to R40, R54, R73, R75, R80, R81, R93, R422). -/

namespace Sys2Proof.Machine

theorem respond_boot (s : State) (k reading thr cls : Nat) : ∃ b, (respond s k reading thr cls).boot = { s.boot with toggle := b } := by
  unfold respond
  split
  · exact ⟨s.boot.toggle, rfl⟩
  · have hfold : ∀ (j : Bool) (fs : List (Nat × Nat × Bytes)) (u : State), (fs.foldl (keepFire j) u).boot = u.boot := by
      intro j fs
      induction fs with
      | nil => exact fun _ => rfl
      | cons f fs ih => exact fun u => ih (keepFire j u f)
    refine ⟨false, ?_⟩
    show { (keepQueued s).boot with toggle := false } = _
    unfold keepQueued
    dsimp only
    rw [hfold, hfold]

theorem filter_boot (s : State) (k t : Nat) : (filter s k t).1.boot = s.boot := by
  have hshow : ∀ u : State, (showClear u k).boot = u.boot := fun u => by
    unfold showClear
    split <;> rfl
  unfold filter
  dsimp only
  split_ifs
  · rfl
  · rfl
  · rfl
  · rfl
  · exact hshow s
  · rfl
  · rfl

/-- An event of a sensor leaves the supplies and the pin as they are: it can stop the toggle alone (R486). -/
theorem sensorEvent_boot (s : State) (k t reading thr : Nat) : ∃ b, (sensorEvent s k t reading thr).boot = { s.boot with toggle := b } := by
  have hcount : ∀ (u : State) b i, (count u b i 1).boot = u.boot := fun u b i => by
    obtain ⟨p, hp⟩ := count_perf u b i 1
    rw [hp]
  have hf : (filter (count s 9 1 1) k t).1.boot = s.boot := by rw [filter_boot, hcount]
  unfold sensorEvent
  dsimp only
  split_ifs
  · exact ⟨s.boot.toggle, hf⟩
  · exact ⟨s.boot.toggle, hf⟩
  · generalize (filter (count s 9 1 1) k t).1 = u at hf
    rw [← hf]
    unfold fire
    dsimp only
    split_ifs
    · exact ⟨u.boot.toggle, rfl⟩
    · obtain ⟨b, hb⟩ := respond_boot (count u 9 2 1) k reading thr (sensorSet u k).1
      exact ⟨b, by rw [hb, hcount]⟩
    · split
      · obtain ⟨b, hb⟩ := respond_boot (count u 9 2 1) k reading thr (sensorSet u k).1
        exact ⟨b, by rw [hb, hcount]⟩
      · exact ⟨u.boot.toggle, hcount u 9 2⟩

theorem reseedPattern_changes (s : State) : ∃ r x, reseedPattern s = { s with rng := r, sinter := x } := by
  unfold reseedPattern
  split
  · rename_i b t h
    split at h
    · cases h
    · unfold takeBuffer at h
      dsimp only at h
      split at h
      · cases h
      · cases h
        exact ⟨_, _, rfl⟩
  · exact ⟨s.rng, s.sinter, rfl⟩

/-! The core die. -/

/-- The rails come into range for a die that is held in reset (R37, R496). -/
theorem release_held {s : State} (h0 : s.stage = 0) : ∃ t, exec .coreResetRelease s = .next t ∧ t.stage = (if s.boot.pinLow then 0 else 1) ∧ t.boot.rails = true ∧
    t.boot.vddah = true ∧ t.boot.lvds = true ∧ t.boot.held = false ∧ t.boot.since = 0 ∧ t.boot.cause = s.boot.cause ∧ t.pers = s.pers ∧
    t.sinter = { (if s.boot.cause = 1 ∧ (s.sinter.lost = true ∨ s.sinter.crcOk = false ∨ s.sinter.osc = false)
      then { s.sinter with log := [], key := none, sealLatch := false, lost := true, crcOk := true } else s.sinter) with
      osc := s.sinter.osc || s.sinter.lost } ∧ t.field = s.field := by
  have hup : (if s.boot.cause = 1 then Bt.sinterPowerUp s.sinter else s.sinter) =
      if s.boot.cause = 1 ∧ (s.sinter.lost = true ∨ s.sinter.crcOk = false ∨ s.sinter.osc = false)
      then { s.sinter with log := [], key := none, sealLatch := false, lost := true, crcOk := true } else s.sinter := by
    unfold Bt.sinterPowerUp
    by_cases hc : s.boot.cause = 1 <;> simp [hc]
  let t : State := { Bt.updBoot s fun b => { b with rails := true, vddah := true, lvds := true, held := false, since := 0 } with
    sinter := { (if s.boot.cause = 1 then Bt.sinterPowerUp s.sinter else s.sinter) with osc := s.sinter.osc || s.sinter.lost } }
  have hrun : Bt.release s = if s.boot.pinLow then t else { t with stage := 1 } := by
    unfold Bt.release
    rw [if_neg (by simp [h0])]
    rfl
  refine ⟨_, coreCmd_next hrun ?_ ?_, ?_⟩
  · split <;> rfl
  · split <;> rfl
  · rw [← hup]
    cases s.boot.pinLow with
    | true => exact ⟨h0, rfl, rfl, rfl, rfl, rfl, rfl, rfl, rfl, rfl⟩
    | false => exact ⟨rfl, rfl, rfl, rfl, rfl, rfl, rfl, rfl, rfl, rfl⟩

/-- A rail leaves its range (R39, R40, R476). -/
theorem powerFail_fails (s : State) (r : Rail) : ∃ t, exec (.powerFail r) s = .next t ∧ t.stage = s.stage ∧ t.pers = s.pers ∧ t.dict = s.dict ∧ t.slots = s.slots ∧
    t.field = s.field ∧
    (if r ∈ [Rail.vcore, .vddah, .vddps, .vddioh] then t.boot.rails = false ∧ t.boot.toggle = false ∧ t.boot.vddah = (s.boot.vddah && decide (r ≠ .vddah)) ∧
       t.seq.failing = decide (s.stage ≠ 0) ∧ (s.stage ≠ 0 → sequencerUp t = false) ∧ (s.stage = 0 → t.boot.held = true ∧ t.boot.cause = 1) ∧ t.tem.held = []
     else if r = .vddlvds then
       t = { s with boot := { s.boot with lvds := false, held := s.boot.held || decide (s.stage = 0) }, tem := { s.tem with held := [] } }
     else t = s) := by
  have hrail : Bt.isHostRail r = decide (r ∈ [Rail.vcore, .vddah, .vddps, .vddioh]) := by cases r <;> rfl
  by_cases hr : r ∈ [Rail.vcore, .vddah, .vddps, .vddioh]
  · have hhost : Bt.isHostRail r = true := hrail.trans (decide_eq_true hr)
    have hl : r ≠ .vddlvds := by rintro rfl; exact absurd hr (by decide)
    obtain ⟨g, x, hseed⟩ : ∃ g x, (if s.stage = 0 then s else reseedPattern s) = { s with rng := g, sinter := x } := by
      split
      · exact ⟨s.rng, s.sinter, rfl⟩
      · exact reseedPattern_changes s
    obtain ⟨y, hrun⟩ : ∃ y, Bt.powerFail s r = { s with
        rng := g, sinter := y, seq := { s.seq with failing := decide (s.stage ≠ 0) }, tem := { s.tem with held := [] }
        boot := { s.boot with rails := false, vddah := s.boot.vddah && decide (r ≠ .vddah), toggle := false, held := s.boot.held || decide (s.stage = 0)
                              cause := if s.stage = 0 then 1 else s.boot.cause } } := by
      unfold Bt.powerFail
      rw [if_neg hl, hhost, hseed, if_neg (by decide)]
      exact ⟨_, rfl⟩
    refine ⟨_, coreCmd_next (f := fun s => Bt.powerFail s r) hrun rfl rfl, rfl, rfl, rfl, rfl, rfl, ?_⟩
    rw [if_pos hr]
    refine ⟨rfl, rfl, rfl, rfl, fun h => ?_, fun h => ⟨?_, ?_⟩, rfl⟩
    · simp [sequencerUp, h]
    · simp [h]
    · simp [h]
  · by_cases hl : r = .vddlvds
    · subst hl
      exact ⟨_, coreCmd_next rfl rfl rfl, rfl, rfl, rfl, rfl, rfl, rfl⟩
    · have hhost : Bt.isHostRail r = false := hrail.trans (decide_eq_false hr)
      have hrun : Bt.powerFail s r = s := by
        unfold Bt.powerFail
        rw [if_neg hl, hhost]
        rfl
      refine ⟨s, coreCmd_next (f := fun s => Bt.powerFail s r) hrun rfl rfl, rfl, rfl, rfl, rfl, rfl, ?_⟩
      rw [if_neg hr, if_neg hl]

/-- The reset of R40 (R40). -/
theorem powerFailReset_restarts {s : State} (hf : s.seq.failing = true) :
    Restarts .powerFailReset s 1 0 fun t => t.boot.held = true ∧ t.sinter.key = s.sinter.key ∧ t.sinter.log = s.sinter.log := by
  obtain ⟨hpend, -, hkey, hlog⟩ := coreReset_keeps s 1 0
  have h := (restarted_coreReset s 1 0).withBoot { (Bt.coreReset s 1 0).boot with held := true } rfl rfl
  have hrun : Bt.powerFailReset s = { Bt.coreReset s 1 0 with boot := { (Bt.coreReset s 1 0).boot with held := true } } := if_pos hf
  exact ⟨_, coreCmd_next hrun hpend h.fuses, h, rfl, hkey, hlog⟩

/-- A pulse on RESET_N that acts (R54). -/
theorem resetN_restarts {s : State} {w : PulseWidth} (hw : Bt.acts w = true) :
    Restarts (.resetNAssert w) s 2 0 fun t => t.boot.pinLow = true ∧ t.sinter.key = s.sinter.key ∧ t.sinter.log = s.sinter.log := by
  obtain ⟨hpend, -, hkey, hlog⟩ := coreReset_keeps s 2 0
  have h := (restarted_coreReset s 2 0).withBoot { (Bt.coreReset s 2 0).boot with pinLow := true } rfl rfl
  have hrun : Bt.resetN s w = { Bt.coreReset s 2 0 with boot := { (Bt.coreReset s 2 0).boot with pinLow := true } } := if_pos hw
  exact ⟨_, coreCmd_next hrun hpend h.fuses, h, rfl, hkey, hlog⟩

/-- RESET_N rises (R54). -/
theorem resetNRise_releases {s : State} (hp : s.boot.pinLow = true) : let up := s.boot.rails && s.boot.vddah && s.boot.lvds
    ∃ t, exec .resetNRelease s = .next t ∧ t.boot.pinLow = false ∧ t.stage = (if up = true ∧ s.boot.held = false ∧ s.stage = 0 then 1 else s.stage) ∧
      t.boot.held = (s.boot.held || (decide (s.stage = 0) && !up)) ∧ t.boot.cause = s.boot.cause ∧ t.pers = s.pers ∧ t.field = s.field := by
  intro up
  let t : State := Bt.updBoot s fun b => { b with pinLow := false }
  have hup : hostRails t = up := rfl
  have hrun : Bt.resetNRise s = if s.stage ≠ 0 ∨ s.boot.held then t else if up then { t with stage := 1 } else Bt.updBoot t fun b => { b with held := true } := by
    unfold Bt.resetNRise
    rw [hp, if_neg (by decide), ← hup]
    rfl
  by_cases hstay : s.stage ≠ 0 ∨ s.boot.held = true
  · rw [if_pos hstay] at hrun
    refine ⟨t, coreCmd_next hrun rfl rfl, rfl, ?_, ?_, rfl, rfl, rfl⟩
    · rw [if_neg fun h => hstay.elim (fun h0 => h0 h.2.2) fun hh => by rw [h.2.1] at hh; cases hh]
      rfl
    · rcases hstay with h0 | hh
      · simp [t, Bt.updBoot, h0]
      · simp [t, Bt.updBoot, hh]
  · have h0 : s.stage = 0 := by_contra fun h => hstay (.inl h)
    have hh : s.boot.held = false := Bool.eq_false_iff.mpr fun h => hstay (.inr h)
    rw [if_neg hstay] at hrun
    cases hu : up with
    | true =>
      rw [hu, if_pos rfl] at hrun
      exact ⟨_, coreCmd_next hrun rfl rfl, rfl, (if_pos ⟨rfl, hh, h0⟩).symm, by simp [t, Bt.updBoot, hh], rfl, rfl, rfl⟩
    | false =>
      rw [hu, if_neg Bool.false_ne_true] at hrun
      exact ⟨_, coreCmd_next hrun rfl rfl, rfl, (if_neg fun h => Bool.false_ne_true h.1).symm, by simp [t, Bt.updBoot, h0], rfl, rfl, rfl⟩

/-- A reset of a core die that runs, outside a power failure (R75). -/
theorem resetNow_restarts {c : Instr} {s : State} {f : State → State} {cause : Nat} (hexec : exec c s = coreCmd f s) (hf : f s = Bt.resetNow s cause) (h0 : s.stage ≠ 0)
    (hq : s.seq.failing = false) : let g := if s.boot.rails && s.boot.vddah && s.boot.lvds then 1 else 0
    Restarts c s cause g fun t => (g = 1 → t.sinter = s.sinter) ∧ (g = 0 → t.boot.held = true) := by
  obtain ⟨h, hpend, hsinter, hheld⟩ := restarted_resetRun s cause
  have hrun : Bt.resetNow s cause = Bt.resetRun s cause := if_neg (by simp [h0, hq])
  exact ⟨_, hexec.trans (coreCmd_next (hf.trans hrun) hpend h.fuses), h, hsinter, hheld⟩

/-- LOCKSTEP_MISMATCH (R422). -/
theorem lockstep_restarts {s : State} (h0 : s.stage ≠ 0) (hq : s.seq.failing = false) : let g := if s.boot.rails && s.boot.vddah && s.boot.lvds then 1 else 0
    Restarts .lockstepMismatch s 4 g fun t => g = 0 → t.boot.held = true := by
  have hs := sensesOnly_sensorEvent s 0x5D s.seq.time 0 0
  obtain ⟨b, hb⟩ := sensorEvent_boot s 0x5D s.seq.time 0 0
  have hrun : Bt.lockstep s = Bt.resetNow (sensorEvent s 0x5D s.seq.time 0 0) 4 := if_neg h0
  generalize sensorEvent s 0x5D s.seq.time 0 0 = u at hs hb hrun
  unfold SensesOnly at hs
  obtain ⟨h, hpend, -, hheld⟩ := restarted_resetRun u 4
  have hr : Bt.resetNow u 4 = Bt.resetRun u 4 := if_neg (by rw [hs]; simp [h0, hq])
  have hg : (u.boot.rails && u.boot.vddah && u.boot.lvds) = (s.boot.rails && s.boot.vddah && s.boot.lvds) := by rw [hb]
  rw [hg] at h hheld
  have hks : Restarted s (Bt.resetRun u 4) 4 _ := h.of_kept (by rw [hs]) (by rw [hs]) (by rw [hs]) (by rw [hs]) (by rw [hs]) (by rw [hs])
  exact ⟨_, coreCmd_next (hrun.trans hr) (hpend.trans (by rw [hs])) hks.fuses, hks, hheld⟩

/-! The field die. -/

theorem FieldStarted.withRails {f g : Field} {cause : Nat} {run : Bool} (h : FieldStarted f g cause run) (b : Bool) : FieldStarted f { g with rails := b } cause run :=
  ⟨h.run, h.cause, h.time, h.link, h.lines, h.nets, h.kept⟩

theorem FieldStarted.withPin {f g : Field} {cause : Nat} {run : Bool} (h : FieldStarted f g cause run) (b : Bool) : FieldStarted f { g with pinLow := b } cause run :=
  ⟨h.run, h.cause, h.time, h.link, h.lines, h.nets, h.kept⟩

theorem reset_pinLow (f : Field) (cause : Nat) (run : Bool) : (Fld.reset f cause run).pinLow = f.pinLow := by
  cases run with
  | false => rfl
  | true =>
    obtain ⟨p, hp⟩ := reset_runs f cause
    rw [hp]
    rfl

/-- A change of the report bytes sends a report, and touches nothing of the guard lines (R171). -/
theorem reportChange_guards (f g : Field) : let h := Fld.reportChange f g
    h.outs = g.outs ∧ h.ins = g.ins ∧ h.wave = g.wave ∧ h.permitOut = g.permitOut ∧ h.run = g.run ∧ h.uv = g.uv ∧ h.vguardOk = g.vguardOk := by
  have hsend : ∀ m, let h := Fld.send g m
      h.outs = g.outs ∧ h.ins = g.ins ∧ h.wave = g.wave ∧ h.permitOut = g.permitOut ∧ h.run = g.run ∧ h.uv = g.uv ∧ h.vguardOk = g.vguardOk := by
    intro m
    unfold Fld.send
    dsimp only
    split_ifs <;> exact ⟨rfl, rfl, rfl, rfl, rfl, rfl, rfl⟩
  dsimp only
  unfold Fld.reportChange
  split
  · exact ⟨rfl, rfl, rfl, rfl, rfl, rfl, rfl⟩
  · exact hsend _

theorem field_alone (s : State) (g : Field) : ({ s with field := g } : State) = { s with field := ({ s with field := g } : State).field } := rfl

/-- A field supply leaves its range (R38, R39). -/
theorem fieldSupply_fails (s : State) (r : Rail) : ∃ t, exec (.fieldSupplyFail r) s = .next t ∧ t = { s with field := t.field } ∧
    (if r ∈ [Rail.vfcore, .vfio, .vddaf] then FieldStarted s.field t.field 1 false ∧ t.field.rails = false
     else if r = .vguard then t.field.vguardOk = false ∧ t.field.uv = true ∧ t.field.run = s.field.run ∧ t.field.ins = s.field.ins ∧
       (s.field.run = true → t.field.outs = [] ∧ t.field.wave = false ∧ t.field.permitOut = false)
     else t = s) := by
  have hdown := (fieldStarted_reset s.field 1 false).withRails false
  have hexec : ∀ g, Bt.fieldSupply s r = { s with field := g } → exec (.fieldSupplyFail r) s = .next { s with field := g } :=
    fun g hg => coreCmd_next (f := fun s => Bt.fieldSupply s r) hg rfl rfl
  by_cases hr : r ∈ [Rail.vfcore, .vfio, .vddaf]
  · have hrun : Bt.fieldSupply s r = { s with field := { Fld.reset s.field 1 false with rails := false } } := by
      simp only [List.mem_cons, List.not_mem_nil, or_false] at hr
      rcases hr with rfl | rfl | rfl <;> rfl
    refine ⟨_, hexec _ hrun, rfl, ?_⟩
    rw [if_pos hr]
    exact ⟨hdown, rfl⟩
  · by_cases hv : r = .vguard
    · subst hv
      cases h : s.field.run with
      | true =>
        obtain ⟨houts, hins, hwave, hpermit, hr', huv, hok⟩ := reportChange_guards s.field { Fld.stopWave (Fld.cutOutputs s.field) with vguardOk := false, uv := true }
        have hrun : Bt.fieldSupply s .vguard =
            { s with field := Fld.reportChange s.field { Fld.stopWave (Fld.cutOutputs s.field) with vguardOk := false, uv := true } } := by
          unfold Bt.fieldSupply whenField
          dsimp only
          rw [h]
          rfl
        refine ⟨_, hexec _ hrun, rfl, ?_⟩
        rw [if_neg (by decide), if_pos rfl]
        exact ⟨hok, huv, hr'.trans h, hins, fun _ => ⟨houts, hwave, hpermit⟩⟩
      | false =>
        have hrun : Bt.fieldSupply s .vguard = { s with field := { s.field with vguardOk := false, uv := true } } := by
          unfold Bt.fieldSupply
          dsimp only
          rw [h]
          rfl
        refine ⟨_, hexec _ hrun, rfl, ?_⟩
        rw [if_neg (by decide), if_pos rfl]
        exact ⟨rfl, rfl, h, rfl, fun h' => absurd h' Bool.false_ne_true⟩
    · have hrun : Bt.fieldSupply s r = { s with field := s.field } := by
        unfold Bt.fieldSupply
        split
        · exact absurd (by decide) hr
        · exact absurd (by decide) hr
        · exact absurd (by decide) hr
        · exact absurd rfl hv
        · rfl
      refine ⟨_, hexec _ hrun, rfl, ?_⟩
      rw [if_neg hr, if_neg hv]

/-- Settles O51: a reset keeps what it does not begin anew by construction; the rest is read off the branches of each occasion. -/
theorem suppliesAndResetsComplete : Obligations.supplies_and_resets_complete := by
  unfold Obligations.supplies_and_resets_complete
  refine fun s => ⟨release_held, fun h0 => coreCmd_next (f := Bt.release) (if_pos h0) rfl rfl, powerFail_fails s, powerFailReset_restarts, fun w => ?_, resetNRise_releases,
    fun h0 hq => ?_, fun hq => ?_, fieldSupply_fails s, fun hr hp => ?_, fun h => ?_, fun hp hr => ?_, fun hp hr => ?_, fun hr => ?_, fun u hu ht hr => ?_⟩
  · have hacts : Bt.acts w = decide (w = .long ∨ w = .between true) := by
      cases w with
      | between b => cases b <;> rfl
      | _ => rfl
    split
    · rename_i hw
      have ha : Bt.acts w = true := hacts.trans (decide_eq_true hw)
      have hrun : Bt.frstN s w = { s with field := { Fld.reset s.field 2 false with pinLow := true } } := if_pos ha
      exact ⟨resetN_restarts ha, _, coreCmd_next (f := fun s => Bt.frstN s w) hrun rfl rfl, (fieldStarted_reset _ _ _).withPin true, rfl, field_alone s _⟩
    · rename_i hw
      have ha : ¬Bt.acts w = true := by rw [hacts, decide_eq_false hw]; exact Bool.false_ne_true
      exact ⟨coreCmd_next (f := fun s => Bt.resetN s w) (if_neg ha) rfl rfl, coreCmd_next (f := fun s => Bt.frstN s w) (if_neg ha) rfl rfl⟩
  · refine ⟨resetNow_restarts (f := fun s => Bt.resetNow s 5) rfl rfl h0 hq, lockstep_restarts h0 hq, fun h8 => resetNow_restarts (f := Bt.overrun) rfl (if_pos ⟨by omega, h8⟩) h0 hq, fun u cause hd hu =>
      resetNow_restarts (f := Bt.deferredCore) rfl ?_ h0 hq⟩
    unfold Bt.deferredCore
    rw [hd]
    exact if_pos hu
  · have hnow : ∀ cause, Bt.resetNow s cause = s := fun _ => if_pos (.inr hq)
    refine ⟨coreCmd_next (f := fun s => Bt.resetNow s 5) (hnow 5) rfl rfl, coreCmd_next (f := Bt.overrun) ?_ rfl rfl, coreCmd_next (f := Bt.deferredCore) ?_ rfl rfl⟩
    · unfold Bt.overrun
      rw [hnow, ite_self]
    · unfold Bt.deferredCore
      split
      · rw [hnow, ite_self]
      · rfl
  · have hrun : Bt.fieldRelease s = { s with field := { Fld.reset s.field s.field.cause true with rails := true } } := if_neg (by simp [hr, hp])
    exact ⟨_, coreCmd_next (f := Bt.fieldRelease) hrun rfl rfl, (fieldStarted_reset _ _ _).withRails true, rfl, field_alone s _⟩
  · exact coreCmd_next (f := Bt.fieldRelease) (if_pos h) rfl rfl
  · have hrun : Bt.frstNRise s = { s with field := Fld.reset { s.field with pinLow := false } s.field.cause true } := by
      unfold Bt.frstNRise
      rw [hp, if_neg (by decide)]
      dsimp only
      rw [hr, if_pos rfl]
    have h := fieldStarted_reset { s.field with pinLow := false } s.field.cause true
    exact ⟨_, coreCmd_next (f := Bt.frstNRise) hrun rfl rfl, ⟨h.run, h.cause, h.time, h.link, h.lines, h.nets, h.kept⟩,
      reset_pinLow { s.field with pinLow := false } s.field.cause true, field_alone s _⟩
  · have hrun : Bt.frstNRise s = { s with field := { s.field with pinLow := false } } := by
      unfold Bt.frstNRise
      rw [hp, if_neg (by decide)]
      dsimp only
      rw [hr, if_neg Bool.false_ne_true]
    exact coreCmd_next (f := Bt.frstNRise) hrun rfl rfl
  · have hrun : Bt.fieldClockLoss s = { s with field := Fld.reset s.field 3 true } := if_pos hr
    have hf := fieldStarted_reset s.field 3 true
    generalize Fld.reset s.field 3 true = g at hrun hf
    exact ⟨_, coreCmd_next (f := Bt.fieldClockLoss) hrun rfl rfl, hf, field_alone s _⟩
  · have hrun : Bt.deferredField s = { s with boot := { s.boot with deferredField := none }, field := Fld.reset s.field 4 true } := by
      unfold Bt.deferredField
      rw [hu]
      dsimp only
      rw [if_pos ht, hr, if_pos rfl]
      rfl
    have hf := fieldStarted_reset s.field 4 true
    generalize Fld.reset s.field 4 true = g at hrun hf
    exact ⟨_, coreCmd_next (f := Bt.deferredField) hrun rfl rfl, hf, rfl, rfl, rfl, rfl, rfl⟩

end Sys2Proof.Machine
end

section
/-! SUPPORT. Events of the sensors on the core die (R474 to R489). -/

namespace Sys2Proof.Machine

/-! The filter (R479, R480). -/

/-- The state after the filter has taken an event: the history of the sensor, and the report that brings its State object back to CLEAR. -/
def filtered (s : State) (x : SMap Sense) (clears : Bool) (k : Nat) : State :=
  { s with tem := { s.tem with sense := x }, internal := s.internal ++ if clears then [clearReport k] else [] }

theorem filtered_quiet (s : State) (k : Nat) : filtered s s.tem.sense false k = s := by
  unfold filtered
  rw [if_neg Bool.false_ne_true, List.append_nil]

theorem filtered_setSense (s : State) (x : Sense) (b : Bool) (k : Nat) : filtered s (SMap.store s.tem.sense k x sense0) b k = setSense (filtered s s.tem.sense b k) k x := rfl

theorem showClear_filtered (s : State) (k : Nat) : showClear s k = filtered s s.tem.sense (showsFired s k) k := by
  unfold showClear
  cases h : showsFired s k with
  | true => rfl
  | false => exact (filtered_quiet s k).symm

/-- One event at the present time: whether it fires, and what it leaves. -/
theorem filter_now (s : State) (k : Nat) : ∃ x, filter s k s.seq.time = (filtered s x (!firesNow s k && unfires s k) k, firesNow s k) := by
  have hquiet : ∀ x, (setSense s k x : State) = filtered s (SMap.store s.tem.sense k x sense0) false k := fun x => by rw [filtered_setSense, filtered_quiet]
  unfold filter
  dsimp only
  by_cases hoff : (sensorSet s k).1 = 255
  · rw [if_pos hoff]
    have hf : firesNow s k = false := by simp [firesNow, hoff]
    have hu : unfires s k = false := by simp [unfires, hoff]
    exact ⟨s.tem.sense, by rw [hf, hu, Bool.and_false, filtered_quiet]⟩
  rw [if_neg hoff]
  by_cases hfix : isFixed k = true
  · rw [if_pos hfix]
    have hf : firesNow s k = true := by simp [firesNow, hoff, hfix]
    exact ⟨s.tem.sense, by rw [hf, Bool.not_true, Bool.false_and, filtered_quiet]⟩
  rw [if_neg hfix]
  have hfix' : isFixed k = false := Bool.eq_false_iff.mpr hfix
  by_cases hnow : (senseOf s k).fired = true ∧ s.seq.time < (senseOf s k).last + (sensorSet s k).2.2
  · rw [if_pos hnow]
    have hn : firedNow s k = true := by simp [firedNow, hnow.1, hnow.2]
    have hf : firesNow s k = false := by simp [firesNow, hfix', hn]
    have hu : unfires s k = false := by simp [unfires, hn]
    exact ⟨_, by rw [hf, hu, Bool.and_false, hquiet]⟩
  rw [if_neg hnow]
  have hn : firedNow s k = false := by
    unfold firedNow
    rw [Bool.and_eq_false_iff]
    by_cases hfd : (senseOf s k).fired = true
    · exact .inr (decide_eq_false fun h => hnow ⟨hfd, h⟩)
    · exact .inl (Bool.eq_false_iff.mpr hfd)
  generalize hts : (s.seq.time :: if (senseOf s k).fired = true then [] else (senseOf s k).times).take (sensorSet s k).2.1 = ts
  have hfire : firesNow s k = decide (ts.length = (sensorSet s k).2.1 ∧ s.seq.time ≤ ts.getLastD s.seq.time + (sensorSet s k).2.2) := by
    unfold firesNow
    dsimp only
    rw [hts, hfix', hn, decide_eq_true hoff]
    rfl
  by_cases hreach : ts.length = (sensorSet s k).2.1 ∧ s.seq.time ≤ ts.getLastD s.seq.time + (sensorSet s k).2.2
  · rw [if_pos hreach]
    rw [decide_eq_true hreach] at hfire
    exact ⟨_, by rw [hfire, Bool.not_true, Bool.false_and, hquiet]⟩
  · rw [if_neg hreach]
    rw [decide_eq_false hreach] at hfire
    have hu : unfires s k = ((senseOf s k).fired && showsFired s k) := by
      unfold unfires
      rw [hn, decide_eq_true hoff]
      simp
    refine ⟨SMap.store s.tem.sense k ⟨false, ts.take ((sensorSet s k).2.1 - 1), s.seq.time⟩ sense0, Prod.ext ?_ hfire.symm⟩
    dsimp only
    rw [hfire, hu, Bool.not_false, Bool.true_and]
    split
    · rename_i hfd
      rw [hfd, Bool.true_and, showClear_filtered]
      exact (filtered_setSense s _ _ k).symm
    · rename_i hfd
      rw [Bool.eq_false_iff.mpr hfd, Bool.false_and]
      exact hquiet _

/-! Fires (R484 to R489). -/

/-- What an event of a sensor leaves of the monitors: the patterns that they drive, and what the clock monitor has seen. -/
def monitorsKept (s t : State) : Prop := t.tem.lid = s.tem.lid ∧ t.tem.mesh = s.tem.mesh ∧ t.boot.clock = s.boot.clock

theorem keepFires_sinter (j : Bool) (fs : List (Nat × Nat × Bytes)) (u : State) : ∃ x, fs.foldl (keepFire j) u = { u with sinter := x } := by
  induction fs generalizing u with
  | nil => exact ⟨u.sinter, rfl⟩
  | cons f fs ih =>
    obtain ⟨x, hx⟩ := ih (keepFire j u f)
    exact ⟨x, by rw [List.foldl_cons, hx]; rfl⟩

theorem keepQueued_sinter (u : State) : ∃ x, keepQueued u = { u with sinter := x } := by
  obtain ⟨done, due, e⟩ : ∃ done due, keepQueued u = List.foldl (keepFire false) (List.foldl (keepFire true) u done) due := ⟨_, _, rfl⟩
  obtain ⟨x, hx⟩ := keepFires_sinter true done u
  obtain ⟨y, hy⟩ := keepFires_sinter false due { u with sinter := x }
  exact ⟨y, by rw [e, hx, hy]⟩

theorem sinterAct_acts (x : Sinter) (cls : Nat) : (sinterAct x cls).pend = x.pend ∧ (cls = 3 ∨ cls = 4 → (sinterAct x cls).key = none) ∧
    (cls = 4 → (sinterAct x cls).sealLatch = true) := by
  unfold sinterAct
  dsimp only
  refine ⟨?_, fun h => ?_, fun h => ?_⟩
  · split_ifs <;> rfl
  · rw [if_pos h]
    split <;> rfl
  · rw [if_pos h]

/-- A response begins (R486). -/
theorem respond_begins {u : State} (h : u.tem.resp = none) (k reading thr cls : Nat) : let t := respond u k reading thr cls
    t.tem = { u.tem with resp := some ⟨cls, 1, k, u.seq.time, u.seq.time, k, (cls, 1, k)⟩ } ∧ t.internal = u.internal ∧ t.boot = { u.boot with toggle := false } ∧
      t.sinter.pend ≠ none ∧ (cls = 3 ∨ cls = 4 → t.sinter.key = none) ∧ (cls = 4 → t.sinter.sealLatch = true) := by
  obtain ⟨x, hx⟩ := keepQueued_sinter u
  obtain ⟨y, hy⟩ : ∃ y, respond u k reading thr cls = { u with
      sinter := sinterAct (raisePend y cls) cls, tem := { u.tem with resp := some ⟨cls, 1, k, u.seq.time, u.seq.time, k, (cls, 1, k)⟩ }
      boot := { u.boot with toggle := false } } := by
    unfold respond
    rw [h]
    dsimp only
    rw [hx]
    exact ⟨_, rfl⟩
  obtain ⟨hpend, hkey, hseal⟩ := sinterAct_acts (raisePend y cls) cls
  dsimp only
  rw [hy]
  exact ⟨rfl, rfl, rfl, by rw [hpend]; exact Option.some_ne_none _, hkey, hseal⟩

/-- What a fire does where no response is under way. -/
theorem fire_responds {u : State} (h : u.tem.resp = none) {k : Nat} (hset : (sensorSet u k).1 ≠ 255) (reading thr : Nat) :
    Responds u (fire u k reading thr) k reading thr ∧ monitorsKept u (fire u k reading thr) ∧ (fire u k reading thr).tem.held = u.tem.held := by
  obtain ⟨p, hp⟩ := count_perf u 9 2 1
  unfold fire
  dsimp only
  rw [if_neg hset, if_neg hset, hp]
  by_cases hc : (sensorSet u k).1 ≥ 2
  · rw [if_pos hc]
    obtain ⟨htem, hint, hboot, hpend, hkey, hseal⟩ := respond_begins (u := { u with perf := p }) h k reading thr (sensorSet u k).1
    generalize respond { u with perf := p } k reading thr (sensorSet u k).1 = t at *
    refine ⟨⟨fun hl => absurd hl (Nat.not_lt.mpr hc), fun _ => ⟨by rw [htem], hint, by rw [hboot], hpend, hkey, hseal⟩⟩, ⟨by rw [htem], by rw [htem], by rw [hboot]⟩, by rw [htem]⟩
  · rw [if_neg hc, h]
    exact ⟨⟨fun _ => ⟨rfl, h, rfl⟩, fun hl => absurd hl hc⟩, ⟨rfl, rfl, rfl⟩, rfl⟩

/-! An event (R479, R518). -/

theorem wakeIfQueued_run {s : State} (h : s.power = 0) : wakeIfQueued s = s := by
  have hw : wake s = s := if_neg (by rw [h]; decide)
  unfold wakeIfQueued
  rw [hw, ite_self]

/-- An event of sensor k at the present time, in a core die that runs without a response. -/
theorem event_sensed {s : State} (hrun : s.power = 0) (hresp : s.tem.resp = none) (k reading thr : Nat) :
    Sensed s (Mon.event s k reading thr) k reading thr ∧ monitorsKept s (Mon.event s k reading thr) ∧ SensesOnly s (Mon.event s k reading thr) := by
  have honly := sensesOnly_sensorEvent s k s.seq.time reading thr
  have hpower : (sensorEvent s k s.seq.time reading thr).power = 0 := by rw [honly]; exact hrun
  unfold Mon.event
  rw [wakeIfQueued_run hpower]
  have hst : (sensorEvent s k s.seq.time reading thr).pers = s.pers ∧ (sensorEvent s k s.seq.time reading thr).dict = s.dict ∧
      (sensorEvent s k s.seq.time reading thr).seq.adm = s.seq.adm ∧ (sensorEvent s k s.seq.time reading thr).sessions = s.sessions ∧
      (sensorEvent s k s.seq.time reading thr).slots = s.slots ∧ (sensorEvent s k s.seq.time reading thr).field = s.field := by
    rw [honly]
    exact ⟨rfl, rfl, rfl, rfl, rfl, rfl⟩
  obtain ⟨hpers, hdict, hadm, hsess, hslots, hfield⟩ := hst
  obtain ⟨p, hp⟩ := count_perf s 9 1 1
  obtain ⟨x, hx⟩ := filter_now { s with perf := p } k
  have hfires : firesNow { s with perf := p } k = firesNow s k := rfl
  have hunfires : unfires { s with perf := p } k = unfires s k := rfl
  rw [hfires, hunfires] at hx
  have hev : sensorEvent s k s.seq.time reading thr =
      if firesNow s k = false then filtered { s with perf := p } x (!firesNow s k && unfires s k) k
      else if k ≤ 2 ∧ s20Int reading < s20Int thr then
        { filtered { s with perf := p } x (!firesNow s k && unfires s k) k with tem := { s.tem with sense := x, held := s.tem.held ++ [(k, reading, thr, s.seq.time)] } }
      else fire (filtered { s with perf := p } x (!firesNow s k && unfires s k) k) k reading thr := by
    unfold sensorEvent
    dsimp only
    rw [hp, hx]
    cases firesNow s k <;> rfl
  generalize sensorEvent s k s.seq.time reading thr = t at *
  cases hf : firesNow s k with
  | false =>
    rw [hf, if_pos rfl] at hev
    refine ⟨⟨hpers, hdict, hadm, hsess, hslots, hfield, fun _ => ?_, fun h => absurd (hf ▸ h) Bool.false_ne_true, fun h => absurd (hf ▸ h) Bool.false_ne_true⟩, ?_, honly⟩
    · rw [hev]
      exact ⟨rfl, hresp, rfl, rfl, rfl⟩
    · rw [hev]
      exact ⟨rfl, rfl, rfl⟩
  | true =>
    rw [hf, if_neg (by decide), Bool.not_true, Bool.false_and] at hev
    have hoff : (sensorSet s k).1 ≠ 255 := by
      intro h
      simp [firesNow, h] at hf
    obtain ⟨hfire, ⟨hlid, hmesh, hclock⟩, -⟩ := fire_responds (u := filtered { s with perf := p } x false k) hresp hoff reading thr
    have hint : (filtered { s with perf := p } x false k).internal = s.internal := List.append_nil _
    by_cases hlow : k ≤ 2 ∧ s20Int reading < s20Int thr
    · rw [if_pos hlow] at hev
      refine ⟨⟨hpers, hdict, hadm, hsess, hslots, hfield, fun h => absurd (hf ▸ h) Bool.false_ne_true.symm, fun _ _ _ => ?_, fun _ h => absurd hlow.2 (not_lt.mpr (h hlow.1))⟩, ?_, honly⟩
      · rw [hev]
        exact ⟨rfl, hint, hresp⟩
      · rw [hev]
        exact ⟨rfl, rfl, rfl⟩
    · rw [if_neg hlow] at hev
      refine ⟨⟨hpers, hdict, hadm, hsess, hslots, hfield, fun h => absurd (hf ▸ h) Bool.false_ne_true.symm, fun _ h2 hl => absurd ⟨h2, hl⟩ hlow, fun _ _ => ?_⟩, ?_, honly⟩
      · rw [hev]
        obtain ⟨hnote, hreset⟩ := hfire
        refine ⟨fun h => ?_, fun h => ?_⟩
        · obtain ⟨hi, hr, hb⟩ := hnote h
          rw [hint] at hi
          exact ⟨hi, hr, hb⟩
        · obtain ⟨hr, hi, hrest⟩ := hreset h
          exact ⟨hr, hi.trans hint, hrest⟩
      · rw [hev]
        exact ⟨hlid, hmesh, hclock⟩

end Sys2Proof.Machine
end

section
/-! SUPPORT. The monitors of the core die (R72, R73, R474 to R479). -/

namespace Sys2Proof.Machine

theorem Watching.runs {s : State} (h : Watching s) : Mon.runs s = true := by
  simp [Mon.runs, h.stage, h.run]

theorem SensesOnly.next {s t : State} {f : State → State} (h : SensesOnly s t) (hf : f s = t) : coreCmd f s = .next t :=
  coreCmd_next hf (by rw [h]) (by rw [h])

/-- An event that a command brings about at once. -/
theorem Watching.event {s : State} (h : Watching s) {c : Instr} {f : State → State} (hexec : exec c s = coreCmd f s) {k reading thr : Nat}
    (hf : f s = Mon.event s k reading thr) : ∃ t, exec c s = .next t ∧ Sensed s t k reading thr ∧ monitorsKept s t := by
  obtain ⟨hs, hk, honly⟩ := event_sensed h.run h.calm k reading thr
  exact ⟨_, hexec.trans (honly.next hf), hs, hk⟩

/-- The same, where the clock monitor status has changed before it. -/
theorem event_shown {s u : State} (h : Watching s) {i : Nat} {b : Bool} (hu : ShowsClock s u i b) {c : Instr} {f : State → State} (hexec : exec c s = coreCmd f s)
    {k reading thr : Nat} (hf : f s = Mon.event u k reading thr) : ∃ t, exec c s = .next t ∧ Sensed u t k reading thr := by
  obtain ⟨he, -, -⟩ := hu
  obtain ⟨hs, -, honly⟩ := event_sensed (s := u) (by rw [he]; exact h.run) (by rw [he]; exact h.calm) k reading thr
  refine ⟨_, hexec.trans (coreCmd_next hf ?_ ?_), hs⟩
  · rw [honly, he]
  · rw [honly, he]

/-! Readings (R474, R479). -/

/-- What a reading of sensor k does, before what it does for its own sensor alone. -/
def sensed (s : State) (k reading : Nat) : State :=
  match crosses s k reading with
  | some thr => Mon.event s k reading thr
  | none => s

theorem sensed_none {s : State} {k reading : Nat} (h : crosses s k reading = none) : sensed s k reading = s := by
  unfold sensed
  rw [h]

theorem sensed_some {s : State} {k reading thr : Nat} (h : crosses s k reading = some thr) : sensed s k reading = Mon.event s k reading thr := by
  unfold sensed
  rw [h]

theorem event_boot {s : State} (h : s.power = 0) (k reading thr : Nat) : ∃ b, (Mon.event s k reading thr).boot = { s.boot with toggle := b } := by
  have hpower : (sensorEvent s k s.seq.time reading thr).power = 0 := by
    rw [sensesOnly_sensorEvent s k s.seq.time reading thr]
    exact h
  unfold Mon.event
  rw [wakeIfQueued_run hpower]
  exact sensorEvent_boot s k s.seq.time reading thr

theorem sensed_kept {s : State} (h : Watching s) (k reading : Nat) : SensesOnly s (sensed s k reading) ∧
    (sensed s k reading).boot.vddah = s.boot.vddah := by
  unfold sensed
  split
  · rename_i thr _
    obtain ⟨-, -, honly⟩ := event_sensed h.run h.calm k reading thr
    obtain ⟨b, hb⟩ := event_boot h.run k reading thr
    exact ⟨honly, by rw [hb]⟩
  · exact ⟨.refl s, rfl⟩

theorem sensor_run {s : State} (h : Watching s) {k : Nat} (hk : Mon.byAdmission k = false) (r : BitVec 20) : Mon.sensor s k r =
    if k = 0x60 then Mon.vbatReport (sensed s k (s20Ext r)) (s20Ext r)
    else if k = 0x62 then clockBit { sensed s k (s20Ext r) with sinter := { (sensed s k (s20Ext r)).sinter with osc := false } } 6 false else sensed s k (s20Ext r) := by
  unfold Mon.sensor sensed
  rw [h.runs, hk]
  refine (if_neg (by decide)).trans ?_
  cases crosses s k (s20Ext r) <;> rfl

theorem byte_eq {b : Byte} {n : Nat} (h : b.toNat = n) : b = BitVec.ofNat 8 n := BitVec.eq_of_toNat_eq (by rw [h, BitVec.toNat_ofNat, Nat.mod_eq_of_lt (h ▸ b.isLt)])

/-- A VBAT sample that the dictionary shows, or that nothing measures, is not reported. -/
theorem vbatReport_shown {u : State} {v : Nat} (h : u.boot.vddah = false ∨ num u 0xD810 4 = v) : Mon.vbatReport u v = u :=
  if_neg fun ⟨h1, h2⟩ => h.elim (fun h' => by rw [h'] at h1; cases h1) h2

/-- The oscillator sensor of the Sinter domain has no thresholds (R474). -/
theorem oscillator_row : ∃ row, Dict.sensor 0x62 = some row ∧ row.lowB = none ∧ row.highB = none := ⟨_, rfl, rfl, rfl⟩

theorem sensor_reads {s : State} (h : Watching s) (code : Byte) (r : BitVec 20) :
    (Mon.byAdmission code.toNat = true → exec (.sensorEvent code r) s = .next s) ∧
    (Mon.byAdmission code.toNat = false → code ≠ 0x62 → code ≠ 0x60 ∨ s.boot.vddah = false ∨ num s 0xD810 4 = s20Ext r →
      (crosses s code.toNat (s20Ext r) = none → exec (.sensorEvent code r) s = .next s) ∧
      (∀ thr, crosses s code.toNat (s20Ext r) = some thr → Senses (.sensorEvent code r) s code.toNat (s20Ext r) thr fun t => t.boot.clock = s.boot.clock)) ∧
    (code = 0x60 → s.boot.vddah = true → num s 0xD810 4 ≠ s20Ext r → ∃ t, exec (.sensorEvent code r) s = .next t ∧ t.pers = s.pers ∧ t.dict = s.dict ∧
      t.internal.getLast? = some (.report [(objKey 0xD810 4, .num (s20Ext r))] none)) ∧
    (code = 0x62 → ∃ u t, exec (.sensorEvent code r) s = .next t ∧ Sensed s u 0x62 (s20Ext r) 0 ∧
      ShowsClock { u with sinter := { u.sinter with osc := false } } t 6 false) := by
  refine ⟨fun hb => coreCmd_next (f := fun s => Mon.sensor s code.toNat r) (if_pos (.inr hb)) rfl rfl, fun hb h62 h60 => ?_, fun hc hv hn => ?_, fun hc => ?_⟩
  · have hrun : Mon.sensor s code.toNat r = sensed s code.toNat (s20Ext r) := by
      rw [sensor_run h hb]
      by_cases hc : code.toNat = 0x60
      · obtain ⟨honly, hvd⟩ := sensed_kept h code.toNat (s20Ext r)
        rw [if_pos hc]
        refine vbatReport_shown ((h60.resolve_left fun hne => hne (byte_eq hc)).imp (fun hv => hvd.trans hv) fun hn => ?_)
        rw [honly]
        exact hn
      · rw [if_neg hc, if_neg fun h' => h62 (byte_eq h')]
    refine ⟨fun hn => coreCmd_next (f := fun s => Mon.sensor s code.toNat r) (hrun.trans (sensed_none hn)) rfl rfl, fun thr ht => ?_⟩
    obtain ⟨t, hexec, hs, -, -, hk⟩ := h.event (c := .sensorEvent code r) (f := fun s => Mon.sensor s code.toNat r) rfl (hrun.trans (sensed_some ht))
    exact ⟨t, hexec, hs, hk⟩
  · subst hc
    obtain ⟨honly, hvd⟩ := sensed_kept h 0x60 (s20Ext r)
    have hrun : Mon.sensor s 0x60 r = pushBack (sensed s 0x60 (s20Ext r)) (IntReq.report [(objKey 0xD810 4, .num (s20Ext r))] none) := by
      rw [sensor_run h rfl, if_pos rfl]
      exact if_pos ⟨hvd.trans hv, by rw [honly]; exact hn⟩
    refine ⟨_, coreCmd_next (f := fun s => Mon.sensor s 0x60 r) hrun ?_ ?_, ?_, ?_, List.getLast?_concat ..⟩
    · show (sensed s 0x60 (s20Ext r)).pending = s.pending
      rw [honly]
    · show (sensed s 0x60 (s20Ext r)).otp = s.otp
      rw [honly]
    · show (sensed s 0x60 (s20Ext r)).pers = s.pers
      rw [honly]
    · show (sensed s 0x60 (s20Ext r)).dict = s.dict
      rw [honly]
  · subst hc
    have hcross : crosses s 0x62 (s20Ext r) = some 0 := by
      obtain ⟨row, hrow, hlow, hhigh⟩ := oscillator_row
      unfold crosses
      rw [hrow]
      simp [hlow, hhigh]
    obtain ⟨hs, -, honly⟩ := event_sensed h.run h.calm 0x62 (s20Ext r) 0
    have hrun := sensor_run h (k := 0x62) rfl r
    rw [if_neg (by decide), if_pos rfl, sensed_some hcross] at hrun
    generalize Mon.event s 0x62 (s20Ext r) 0 = u at hs honly hrun
    have hshow := showsClock_clockBit { u with sinter := { u.sinter with osc := false } } 6 false
    refine ⟨u, _, coreCmd_next (f := fun s => Mon.sensor s 0x62 r) hrun ?_ ?_, hs, hshow⟩
    · rw [hshow.1]
      show u.pending = s.pending
      rw [honly]
    · rw [hshow.1]
      show u.otp = s.otp
      rw [honly]

/-! Clocks (R72, R73, R79). -/

theorem clockLost_run {s : State} (h : Watching s) (c : LostClock) : Mon.clockLost s c = Mon.event (match c with
    | .tempo => clockBit s 0 false
    | .cipher => clockBit s 1 false
    | .monitor => s
    | .pll => clockBit (draw s 1).2 (draw s 1).1 false) 0x1C 0 0 := by
  unfold Mon.clockLost
  rw [h.runs]
  refine (if_neg (by simp [h.run])).trans ?_
  cases c <;> rfl

theorem clocks_lost {s : State} (h : Watching s) : Senses (.clockLost .monitor) s 0x1C 0 0 (fun _ => True) ∧
    (∃ u, ShowsClock s u 0 false ∧ ∃ t, exec (.clockLost .tempo) s = .next t ∧ Sensed u t 0x1C 0 0) ∧
    (∃ u, ShowsClock s u 1 false ∧ ∃ t, exec (.clockLost .cipher) s = .next t ∧ Sensed u t 0x1C 0 0) ∧
    (∃ u, ShowsClock (draw s 1).2 u (draw s 1).1 false ∧ ∃ t, exec (.clockLost .pll) s = .next t ∧ Sensed u t 0x1C 0 0) := by
  refine ⟨?_, ⟨_, showsClock_clockBit s 0 false, ?_⟩, ⟨_, showsClock_clockBit s 1 false, ?_⟩, ⟨_, showsClock_clockBit (draw s 1).2 (draw s 1).1 false, ?_⟩⟩
  · obtain ⟨t, hexec, hs, -⟩ := h.event (c := .clockLost .monitor) (f := fun s => Mon.clockLost s .monitor) rfl (clockLost_run h .monitor)
    exact ⟨t, hexec, hs, trivial⟩
  · exact event_shown h (showsClock_clockBit s 0 false) (f := fun s => Mon.clockLost s .tempo) rfl (clockLost_run h .tempo)
  · exact event_shown h (showsClock_clockBit s 1 false) (f := fun s => Mon.clockLost s .cipher) rfl (clockLost_run h .cipher)
  · have hd : Watching (draw s 1).2 := ⟨h.stage, h.run, h.calm⟩
    have hrun := clockLost_run h .pll
    obtain ⟨he, -, -⟩ := showsClock_clockBit (draw s 1).2 (draw s 1).1 false
    obtain ⟨hs, -, honly⟩ := event_sensed (s := clockBit (draw s 1).2 (draw s 1).1 false) (by rw [he]; exact hd.run) (by rw [he]; exact hd.calm) 0x1C 0 0
    refine ⟨_, coreCmd_next (f := fun s => Mon.clockLost s .pll) hrun ?_ ?_, hs⟩
    · rw [honly, he]
      rfl
    · rw [honly, he]
      rfl

/-- The count of a window against the one expected (R72). -/
theorem clockWindow_run {s : State} (h : Watching s) (row : Fin 5) (n : Nat) (hf : row.val = 4 → s.field.run = true) {d : Nat}
    (hd : d = let e := [6144, 32768, 49152, 512, 40960].getD row.val 0; if e ≤ n then n - e else e - n) : Mon.clockWindow s row.val n =
      match crosses s (0x10 + row.val) d with
      | some t => Mon.event (if row.val < 4 then clockBit s (2 + row.val) false else s) (0x10 + row.val) d t
      | none => if row.val < 4 then clockBit s (2 + row.val) true else s := by
  have hdev : n - Mon.expected.getD row.val 0 + (Mon.expected.getD row.val 0 - n) = d := by
    rw [hd]
    show n - Mon.expected.getD row.val 0 + (Mon.expected.getD row.val 0 - n) = if Mon.expected.getD row.val 0 ≤ n then n - Mon.expected.getD row.val 0 else Mon.expected.getD row.val 0 - n
    split <;> omega
  unfold Mon.clockWindow
  dsimp only
  rw [hdev, h.runs]
  refine (if_neg (by simp only [h.run]; simpa using hf)).trans ?_
  cases crosses s (0x10 + row.val) d <;> rfl

theorem clockWindow_checks {s : State} (h : Watching s) (row : Fin 5) (n : Nat) (hf : row.val = 4 → s.field.run = true) :
    let e := [6144, 32768, 49152, 512, 40960].getD row.val 0
    let d := if e ≤ n then n - e else e - n
    (row.val < 4 →
      (crosses s (0x10 + row.val) d = none → ∃ u, ShowsClock s u (2 + row.val) true ∧ exec (.clockWindowCheck row n) s = .next u) ∧
      (∀ thr, crosses s (0x10 + row.val) d = some thr →
        ∃ u, ShowsClock s u (2 + row.val) false ∧ ∃ t, exec (.clockWindowCheck row n) s = .next t ∧ Sensed u t (0x10 + row.val) d thr)) ∧
    (row.val = 4 →
      (crosses s 0x14 d = none → exec (.clockWindowCheck row n) s = .next s) ∧
      (∀ thr, crosses s 0x14 d = some thr → Senses (.clockWindowCheck row n) s 0x14 d thr fun t => t.boot.clock = s.boot.clock)) := by
  intro e d
  have hrun := clockWindow_run h row n hf (d := d) rfl
  generalize d = d at hrun
  refine ⟨fun hr => ⟨fun hn => ?_, fun thr ht => ?_⟩, fun hr => ⟨fun hn => ?_, fun thr ht => ?_⟩⟩
  · rw [hn] at hrun
    dsimp only at hrun
    rw [if_pos hr] at hrun
    obtain ⟨he, hshow⟩ := showsClock_clockBit s (2 + row.val) true
    exact ⟨_, ⟨he, hshow⟩, coreCmd_next (f := fun s => Mon.clockWindow s row.val n) hrun (by rw [he]) (by rw [he])⟩
  · rw [ht] at hrun
    dsimp only at hrun
    rw [if_pos hr] at hrun
    exact ⟨_, showsClock_clockBit s (2 + row.val) false, event_shown h (showsClock_clockBit s (2 + row.val) false) (f := fun s => Mon.clockWindow s row.val n) rfl hrun⟩
  · rw [hr, hn] at hrun
    dsimp only at hrun
    exact coreCmd_next (f := fun s => Mon.clockWindow s row.val n) ((congrArg (fun r => Mon.clockWindow s r n) hr).trans hrun) rfl rfl
  · rw [hr, ht] at hrun
    dsimp only at hrun
    obtain ⟨t, hexec, hs, -, -, hk⟩ := h.event (c := .clockWindowCheck row n) (f := fun s => Mon.clockWindow s row.val n) rfl
      ((congrArg (fun r => Mon.clockWindow s r n) hr).trans hrun)
    exact ⟨t, hexec, hs, hk⟩

/-! Meshes (R477, R478). -/

/-- The next pattern takes bytes of tiller 62, or a step of the generator. -/
theorem meshPattern_changes (s : State) : ∃ r x, (meshPattern s).2 = { s with rng := r, sinter := { s.sinter with lfsr := x } } := by
  unfold meshPattern
  split
  · rename_i b t h
    split at h
    · cases h
    · unfold takeBuffer at h
      dsimp only at h
      split at h
      · cases h
      · cases h
        exact ⟨_, s.sinter.lfsr, rfl⟩
  · exact ⟨s.rng, _, rfl⟩

/-- An event of a mesh, whose next pattern is driven by then. -/
theorem mesh_sensed {s : State} (h : Watching s) {u : State} {r : Rng} {x : BitVec 64} {l : BitVec 16} {m : SMap (BitVec 16)}
    (hu : u = { s with rng := r, sinter := { s.sinter with lfsr := x }, tem := { s.tem with lid := l, mesh := m } }) (k n : Nat) :
    Sensed s (Mon.event u k n 0) k n 0 ∧ monitorsKept u (Mon.event u k n 0) ∧ (Mon.event u k n 0).pending = s.pending ∧ (Mon.event u k n 0).otp = s.otp := by
  subst hu
  obtain ⟨hs, hk, honly⟩ := event_sensed (s := { s with rng := r, sinter := { s.sinter with lfsr := x }, tem := { s.tem with lid := l, mesh := m } }) h.run h.calm k n 0
  exact ⟨hs, hk, by rw [honly], by rw [honly]⟩

/-- The lid mesh (R477). -/
theorem lidMesh_compares {s : State} (h : Watching s) (sensed : BitVec 16) :
    (mismatches s.tem.lid sensed ≠ 0 → Senses (.lidMeshCompare sensed) s 0x30 (mismatches s.tem.lid sensed) 0 fun t => t.tem.lid = (meshPattern s).1) ∧
    (mismatches s.tem.lid sensed = 0 → ∃ t, exec (.lidMeshCompare sensed) s = .next t ∧ t.tem = { s.tem with lid := (meshPattern s).1 } ∧
      t.internal = s.internal ∧ t.dict = s.dict ∧ t.pers = s.pers) := by
  obtain ⟨r, x, hp⟩ := meshPattern_changes s
  have hrun : Mon.lidMesh s sensed = if mismatches s.tem.lid sensed = 0 then { s with rng := r, sinter := { s.sinter with lfsr := x }, tem := { s.tem with lid := (meshPattern s).1 } }
      else Mon.event { s with rng := r, sinter := { s.sinter with lfsr := x }, tem := { s.tem with lid := (meshPattern s).1 } } 0x30 (mismatches s.tem.lid sensed) 0 := by
    unfold Mon.lidMesh
    dsimp only
    rw [h.runs, if_neg (by decide), hp]
  refine ⟨fun hm => ?_, fun hm => ?_⟩
  · rw [if_neg hm] at hrun
    obtain ⟨hs, ⟨hl, -, -⟩, hpend, hotp⟩ := mesh_sensed h (r := r) (x := x) (l := (meshPattern s).1) (m := s.tem.mesh) rfl 0x30 (mismatches s.tem.lid sensed)
    exact ⟨_, coreCmd_next (f := fun s => Mon.lidMesh s sensed) hrun hpend hotp, hs, hl⟩
  · rw [if_pos hm] at hrun
    exact ⟨_, coreCmd_next (f := fun s => Mon.lidMesh s sensed) hrun rfl rfl, rfl, rfl, rfl, rfl⟩

/-- An enclosure mesh (R478). -/
theorem enclosureMesh_compares {s : State} (h : Watching s) (sensed : BitVec 16) (m : Fin 4) : let p := SMap.at' s.tem.mesh m.val 0#16
    (mismatches p sensed ≠ 0 → Senses (.enclosureMeshCompare m sensed) s (0x38 + m.val) (mismatches p sensed) 0 fun t =>
      SMap.look t.tem.mesh m.val = some (meshPattern s).1) ∧
    (mismatches p sensed = 0 → ∃ t, exec (.enclosureMeshCompare m sensed) s = .next t ∧ SMap.look t.tem.mesh m.val = some (meshPattern s).1 ∧
      t.internal = s.internal ∧ t.tem.sense = s.tem.sense ∧ t.tem.resp = none ∧ t.dict = s.dict ∧ t.pers = s.pers) := by
  intro p
  obtain ⟨r, x, hp⟩ := meshPattern_changes s
  let drives : State := { s with rng := r, sinter := { s.sinter with lfsr := x }, tem := { s.tem with mesh := SMap.put s.tem.mesh m.val (meshPattern s).1 } }
  have hrun : Mon.mesh s m.val sensed = if mismatches p sensed = 0 then drives else Mon.event drives (0x38 + m.val) (mismatches p sensed) 0 := by
    unfold Mon.mesh
    dsimp only
    rw [h.runs, if_neg (by decide), hp]
  refine ⟨fun hm => ?_, fun hm => ?_⟩
  · rw [if_neg hm] at hrun
    obtain ⟨hs, ⟨-, hl, -⟩, hpend, hotp⟩ := mesh_sensed h (r := r) (x := x) (l := s.tem.lid) (m := SMap.put s.tem.mesh m.val (meshPattern s).1) rfl (0x38 + m.val) (mismatches p sensed)
    refine ⟨_, coreCmd_next (f := fun s => Mon.mesh s m.val sensed) hrun hpend hotp, hs, ?_⟩
    exact (congrArg (fun q => SMap.look q m.val) hl).trans (SMap.look_put_same _ _ _)
  · rw [if_pos hm] at hrun
    exact ⟨_, coreCmd_next (f := fun s => Mon.mesh s m.val sensed) hrun rfl rfl, SMap.look_put_same _ _ _, rfl, rfl, h.calm, rfl, rfl⟩

/-! Supplies, windows and latch commits (R476, R479, R487). -/

/-- A low-side fire that was held for 500 us (R476). -/
theorem supplyHold_responds {s : State} (h : Watching s) (code : Byte) {x : Nat × Nat × Nat × Nat} (hf : s.seq.failing = false)
    (hx : s.tem.held.find? (fun x => decide (x.1 = code.toNat ∧ x.2.2.2 + 500 ≤ s.seq.time)) = some x) (hset : (sensorSet s code.toNat).1 ≠ 255) :
    ∃ t, exec (.supplyWindowHold code) s = .next t ∧ t.tem.held = s.tem.held.erase x ∧ Responds s t code.toNat x.2.1 x.2.2.1 ∧ t.pers = s.pers ∧ t.dict = s.dict := by
  let u : State := { s with tem := { s.tem with held := s.tem.held.erase x } }
  obtain ⟨hr, -, hheld⟩ := fire_responds (u := u) h.calm hset x.2.1 x.2.2.1
  have honly := sensesOnly_fire u code.toNat x.2.1 x.2.2.1
  have hrun : Mon.supplyHold s code.toNat = fire u code.toNat x.2.1 x.2.2.1 := by
    unfold Mon.supplyHold
    rw [hx]
    dsimp only
    rw [hf, if_neg (by decide)]
    refine wakeIfQueued_run ?_
    rw [honly]
    exact h.run
  refine ⟨_, coreCmd_next (f := fun s => Mon.supplyHold s code.toNat) hrun (by rw [honly]) (by rw [honly]), hheld, hr, by rw [honly], by rw [honly]⟩

/-- A FIRED sensor without an event for its window (R479). -/
theorem windowExpiry_clears {s : State} (code : Byte) (hf : (senseOf s code.toNat).fired = true)
    (hw : (senseOf s code.toNat).last + (sensorSet s code.toNat).2.2 ≤ s.seq.time) :
    ∃ t, exec (.sensorWindowExpiry code) s = .next t ∧ senseOf t code.toNat = ⟨false, [], 0⟩ ∧ (∀ k, k ≠ code.toNat → senseOf t k = senseOf s k) ∧
      t.internal = s.internal ++ (if showsFired s code.toNat then [.report [(objKey (0xDA00 + code.toNat) 0x0B, .num 0)] none] else []) ∧
      t.dict = s.dict ∧ t.pers = s.pers := by
  have hrun : Mon.windowExpiry s code.toNat = filtered s (SMap.store s.tem.sense code.toNat sense0 sense0) (showsFired s code.toNat) code.toNat :=
    (if_pos ⟨hf, hw⟩).trans (showClear_filtered (setSense s code.toNat sense0) code.toNat)
  refine ⟨_, coreCmd_next (f := fun s => Mon.windowExpiry s code.toNat) hrun rfl rfl, ?_, fun k hk => ?_, rfl, rfl, rfl⟩
  · exact (SMap.at_store s.tem.sense code.toNat _ sense0 sense0).trans (if_pos rfl)
  · exact (SMap.at_store s.tem.sense code.toNat _ sense0 sense0).trans (if_neg hk)

/-- The latch commit of a response, and the reset with cause TAMPER (R487, R489). -/
theorem latchCommit_restarts {s : State} {r : Resp} (hr : s.tem.resp = some r) (hf : s.seq.failing = false) :
    let w := match s.pers.latch with
      | none => r.word
      | some (c, n, k) => (max c r.word.1, min (n + r.word.2.1) 255,
          if r.word.1 < c then k else if c = r.word.1 then min k r.word.2.2 else r.word.2.2)
    let g := if s.boot.rails && s.boot.vddah && s.boot.lvds then 1 else 0
    ∃ t, exec .tamperLatchCommit s = .next t ∧ Restarted { s with pers := { s.pers with latch := some w } } t 3 g ∧ (g = 1 → t.sinter = s.sinter) ∧
      (g = 0 → t.boot.held = true) := by
  intro w
  have hw : Mon.latchWord s.pers.latch r.word = w := by
    unfold Mon.latchWord w
    cases s.pers.latch <;> rfl
  let u : State := { s with pers := { s.pers with latch := some w } }
  obtain ⟨p, hp⟩ := count_perf u 8 0 1
  have hrun : Mon.latchCommit s = Bt.resetRun { u with perf := p } 3 := by
    unfold Mon.latchCommit
    rw [hr]
    dsimp only
    rw [hf, if_neg (by decide), hw, ← hp]
  obtain ⟨h, hpend, hsinter, hheld⟩ := restarted_resetRun { u with perf := p } 3
  exact ⟨_, coreCmd_next hrun hpend h.fuses, h.of_kept rfl rfl rfl rfl rfl rfl, hsinter, hheld⟩

end Sys2Proof.Machine
end

section
/-! SUPPORT. An excepted admission at the head of the queue whose record is looked up in the journal (R201, R485). -/

namespace Sys2Proof.Machine

theorem head_recorded {c : Instr} {s : State} {e : IntReq} {q : List IntReq} {ok : IntReq → Bool} {i : IntReq → AdmIn} {f : IntReq → State → State × Nat}
    {P : State → Prop} (hexec : exec c s = coreCmd (fun s => admitHead s ok i f) s) (hq : s.internal = e :: q) (hok : ok e = true) (h : Inward s (i e))
    (hx : (i e).excepted = true) (ha : (i e).alone ≠ 0) (hr : Inner s q (f e (number { s with internal := q })).1)
    (hP : ∀ n t, Settled (redrawn (f e (number { s with internal := q })).1 n) t → t.pers.jour = (f e (number { s with internal := q })).1.pers.jour → P t) :
    Committing c s q P := by
  let u : State := { s with internal := q }
  have hin : Inward u (i e) := h.popped q
  have hru : Inner u q (f e (number u)).1 := ⟨⟨hr.adm, hr.time, hr.first, hr.queue, hr.fuses⟩, hr.internal, hr.single⟩
  have hnum : Inner u q (number u) := inner_number hin.single
  have hset := admitInternal_settled hin hru.single
  have hend := admitOwn_ends (f := f e) hin.up hx ha
  have hown : admitInternal u (i e) (f e) = admitOwn u (i e) (f e) := by
    unfold admitInternal
    rw [sheafOn_alone hin.single]
    exact if_neg fun h => Bool.false_ne_true h.1
  rw [hx] at hset
  rw [← hown] at hend
  have hboth : ∃ n, (commitFails s = false → Settled (redrawn (f e (number u)).1 n) (admitInternal u (i e) (f e)) ∧
        (admitInternal u (i e) (f e)).pers.jour = (f e (number u)).1.pers.jour) ∧
      (Settled (redrawn (f e (number u)).1 n) (admitInternal u (i e) (f e)) ∧ (admitInternal u (i e) (f e)).pers.jour = (f e (number u)).1.pers.jour ∨
        Settled (redrawn (number u) n) (admitInternal u (i e) (f e))) := by
    by_cases hc : commitFails s = false
    · obtain ⟨n, hn⟩ := ringCommit_stands (e := true) (f e (number u)) (u := number u) (.inl rfl) (by rw [commitFails_number]; exact hc)
      rw [hn] at hset hend
      exact ⟨n, fun _ => ⟨hset, hend.jour⟩, .inl ⟨hset, hend.jour⟩⟩
    · rcases ringCommit_cases true (f e (number u)) (number u) with ⟨n, hn⟩ | ⟨n, hn⟩ <;> rw [hn] at hset hend
      · exact ⟨n, fun h => absurd h hc, .inl ⟨hset, hend.jour⟩⟩
      · exact ⟨n, fun h => absurd h hc, .inr hset⟩
  obtain ⟨n, hgood, hor⟩ := hboth
  have hdone : Inner u q (admitInternal u (i e) (f e)) := hor.elim (fun h => (hru.redrawn n).settled h.1) fun h => (hnum.redrawn n).settled h
  have hhead := admitHead_first (ok := ok) (i := i) (f := f) hq hok (by rw [hdone.adm]; exact Nat.succ_ne_self _)
  refine ⟨_, hexec.trans (coreCmd_next hhead hdone.queue hdone.fuses), hdone.adm, hdone.time, hdone.internal, fun hc => hP n _ (hgood hc).1 (hgood hc).2, ?_⟩
  exact hor.imp (fun h => hP n _ h.1 h.2) fun h => h.others fun i k hk hb hx => othersStand_number u [] i k hk hb hx

theorem Inner.firm {s v u : State} {q : List IntReq} (h : Inner s q v) (hf : Firm v u) (hs : u.sheaf = v.sheaf) (h2 : getObj u 0x2000 2 = getObj v 0x2000 2) : Inner s q u := by
  obtain ⟨hadm, htime, hint, hpend, hotp, -, -, -⟩ := hf.fields
  refine ⟨⟨hadm.trans h.adm, htime.trans h.time, (congrArg Sheaf.theirs hs).trans h.first, hpend.trans h.queue, hotp.trans h.fuses⟩, hint.trans h.internal, ?_⟩
  unfold num
  rw [h2]
  exact h.single

end Sys2Proof.Machine
end

section
/-! SUPPORT. The admission of a NOTE or CHECK fire (R485, R490). -/

namespace Sys2Proof.Machine

theorem sensor_index {k : Nat} (h : (Dict.sensor k).isSome = true) : k < 256 := by
  obtain ⟨r, hr⟩ := Option.isSome_iff_exists.mp h
  have hall : ∀ p ∈ Dict.sensors, p.1 < 256 := by decide
  exact hall _ (SMap.mem_of_look hr)

theorem find_sensor {k : Nat} (h : (Dict.sensor k).isSome = true) {j : Nat} (hj : j ∈ [0x0A, 0x0B, 0x0C, 0x0D]) : (Dict.find (0xDA00 + k) j).2.isSome = true := by
  have hk := sensor_index h
  obtain ⟨r, hr⟩ := Option.isSome_iff_exists.mp h
  have hfind : Dict.find (0xDA00 + k) j = (true, SMap.look (Dict.tSensorOf r) j) := by
    unfold Dict.find
    rw [single_absent (lo := 0xDA00) (hi := 0xDB00) (by rfl) (by omega) (by omega)]
    simp only [Dict.families, Dict.familyTable]
    rw [if_neg (by omega), if_neg (by omega), if_neg (by omega), if_neg (by omega), if_neg (by omega), if_neg (by omega), if_neg (by omega),
      if_neg (by omega), if_neg (by omega), if_neg (by omega)]
    dsimp only
    rw [if_neg (by omega), if_neg (by omega), if_neg (by omega), if_neg (by omega), if_neg (by omega), if_pos (by omega),
      show 0xDA00 + k - 0xDA00 = k by omega, hr]
  rw [hfind]
  simp only [List.mem_cons, List.not_mem_nil, or_false] at hj
  rcases hj with rfl | rfl | rfl | rfl <;> rfl

/-- The objects of the sensor that the admission of its fire writes before its record. -/
def firedObjects (u : State) (k : Nat) (body : Bytes) : State :=
  setNum (setNum (setNum u (0xDA00 + k) 0x0A (leNat (body.take 4))) (0xDA00 + k) 0x0B (if isFixed k then 0 else 1)) (0xDA00 + k) 0x0C (min (num u (0xDA00 + k) 0x0C + 1) 65535)

/-- The tamper status that it writes behind it, for the highest class hi. -/
def firedStatus (w : State) (k hi overflow adm : Nat) : State :=
  setNum (setNum (setNum (setNum (setNum w (0xDA00 + k) 0x0D adm) 0xD800 2 hi) 0xD800 3 k) 0xD800 4 adm) 0xD800 8 overflow

/-- The admission of a fire, step by step. -/
theorem tamperEffect_steps (u : State) (k cls : Nat) (body : Bytes) : ∃ b hi o, let w := journalAt (firedObjects u k body) .last true ⟨2, 0xFF, 0xFF, cls, k, 0⟩ b
    tamperEffect u k cls body = pushSlot (updateAlarm (firedStatus w k hi o u.seq.adm)) (actSlot (updateAlarm (firedStatus w k hi o u.seq.adm)) Lat.internal .none [] [.fired k cls body]) := by
  have hseq : (setNum (setNum u (0xDA00 + k) 0x0A (leNat (body.take 4))) (0xDA00 + k) 0x0B (if isFixed k then 0 else 1)).seq.adm = u.seq.adm := by
    rw [setNum_seq, setNum_seq]
  have hcount : num (setNum (setNum u (0xDA00 + k) 0x0A (leNat (body.take 4))) (0xDA00 + k) 0x0B (if isFixed k then 0 else 1)) (0xDA00 + k) 0x0C = num u (0xDA00 + k) 0x0C := by
    rw [num_setNum _ _ (by decide) (by decide), if_neg (by omega), num_setNum _ _ (by decide) (by decide), if_neg (by omega)]
  unfold tamperEffect tamperRecord
  dsimp only
  rw [hseq, hcount]
  exact ⟨_, _, _, rfl⟩

/-- The objects that the admission of a fire of sensor k can change (R485). -/
def fireObjects (k : Nat) : List (Nat × Nat) := ([0x0A, 0x0B, 0x0C, 0x0D].map fun i => (0xDA00 + k, i)) ++ [1, 2, 3, 4, 5, 6, 8].map fun i => (0xD800, i)

theorem mem_fireObjects_sensor (k : Nat) {j : Nat} (hj : j ∈ [0x0A, 0x0B, 0x0C, 0x0D]) : (0xDA00 + k, j) ∈ fireObjects k :=
  List.mem_append_left _ (List.mem_map_of_mem (f := fun i => (0xDA00 + k, i)) hj)

theorem mem_fireObjects_status (k : Nat) {j : Nat} (hj : j ∈ [1, 2, 3, 4, 5, 6, 8]) : (0xD800, j) ∈ fireObjects k :=
  List.mem_append_right _ (List.mem_map_of_mem (f := fun i => (0xD800, i)) hj)

theorem firedObjects_shows (u : State) {k : Nat} (hk : (Dict.sensor k).isSome = true) (body : Bytes) : let v := firedObjects u k body
    Firm u v ∧ v.sheaf = u.sheaf ∧ OthersStand u v ([0x0A, 0x0B, 0x0C].map fun i => (0xDA00 + k, i)) ∧ num v (0xDA00 + k) 0x0A = leNat (body.take 4) ∧
      num v (0xDA00 + k) 0x0B = (if isFixed k then 0 else 1) ∧ num v (0xDA00 + k) 0x0C = min (num u (0xDA00 + k) 0x0C + 1) 65535 := by
  intro v
  unfold v firedObjects
  refine ⟨((firm_setNum _ _ _ _).trans (firm_setNum _ _ _ _)).trans (firm_setNum _ _ _ _), ?_, ?_, ?_, ?_, ?_⟩
  · rw [setNum_sheaf, setNum_sheaf, setNum_sheaf]
  · exact ((OthersStand.setNum (fun _ _ _ _ _ => rfl) _ (by decide) (by simp)).setNum _ (by decide) (by simp)).setNum _ (by decide) (by simp)
  · rw [num_setNum _ _ (by decide) (by decide), if_neg (by omega), num_setNum _ _ (by decide) (by decide), if_neg (by omega)]
    exact num_setNum_self _ _ (by decide) (find_sensor hk (by decide))
  · rw [num_setNum _ _ (by decide) (by decide), if_neg (by omega)]
    exact num_setNum_self _ _ (by decide) (find_sensor hk (by decide))
  · exact num_setNum_self _ _ (by decide) (find_sensor hk (by decide))

theorem firedStatus_shows (w : State) {k : Nat} (hk : (Dict.sensor k).isSome = true) (hi o adm : Nat) : let x := firedStatus w k hi o adm
    Firm w x ∧ x.sheaf = w.sheaf ∧ x.pers.jour = w.pers.jour ∧ OthersStand w x [(0xDA00 + k, 0x0D), (0xD800, 2), (0xD800, 3), (0xD800, 4), (0xD800, 8)] ∧
      num x (0xDA00 + k) 0x0D = adm ∧ num x 0xD800 3 = k ∧ num x 0xD800 4 = adm := by
  intro x
  unfold x firedStatus
  refine ⟨((((firm_setNum _ _ _ _).trans (firm_setNum _ _ _ _)).trans (firm_setNum _ _ _ _)).trans (firm_setNum _ _ _ _)).trans (firm_setNum _ _ _ _), ?_, ?_, ?_, ?_, ?_, ?_⟩
  · rw [setNum_sheaf, setNum_sheaf, setNum_sheaf, setNum_sheaf, setNum_sheaf]
  · rw [setNum_jour, setNum_jour, setNum_jour, setNum_jour, setNum_jour]
  · exact ((((OthersStand.setNum (fun _ _ _ _ _ => rfl) _ (by decide) (by simp)).setNum _ (by decide) (by simp)).setNum _ (by decide) (by simp)).setNum _ (by decide) (by simp)).setNum
      _ (by decide) (by simp)
  · rw [num_setNum _ _ (by decide) (by decide), if_neg (by omega), num_setNum _ _ (by decide) (by decide), if_neg (by omega), num_setNum _ _ (by decide) (by decide), if_neg (by omega),
      num_setNum _ _ (by decide) (by decide), if_neg (by omega)]
    exact num_setNum_self _ _ (by decide) (find_sensor hk (by decide))
  · rw [num_setNum _ _ (by decide) (by decide), if_neg (by omega), num_setNum _ _ (by decide) (by decide), if_neg (by omega)]
    exact num_setNum_self _ _ (by decide) (by decide)
  · rw [num_setNum _ _ (by decide) (by decide), if_neg (by omega)]
    exact num_setNum_self _ _ (by decide) (by decide)

/-- What the admission of a fire comes to (R485, R490). -/
theorem tamperEffect_shows (u : State) {k : Nat} (hk : (Dict.sensor k).isSome = true) (cls : Nat) (body : Bytes) : let t := tamperEffect u k cls body
    Firm u t ∧ t.sheaf = u.sheaf ∧ OthersStand u t (fireObjects k) ∧
      num t (0xDA00 + k) 0x0A = leNat (body.take 4) ∧ num t (0xDA00 + k) 0x0B = (if isFixed k then 0 else 1) ∧
      num t (0xDA00 + k) 0x0C = min (num u (0xDA00 + k) 0x0C + 1) 65535 ∧ num t (0xDA00 + k) 0x0D = u.seq.adm ∧ num t 0xD800 3 = k ∧ num t 0xD800 4 = u.seq.adm ∧
      (∃ p ∈ t.pers.jour.recs, p.2.bytes.take 16 = [2, 0xFF, 0xFF, BitVec.ofNat 8 cls] ++ leBytes 2 k ++ [0, 0] ++ leBytes 8 u.seq.adm) ∧
      (∃ x ∈ t.slots, x.acts = [.fired k cls body] ∧ x.resp = none) := by
  intro t
  obtain ⟨b, hi, o, heff⟩ := tamperEffect_steps u k cls body
  unfold t
  rw [heff]
  obtain ⟨vfirm, vsheaf, vothers, va, vb, vc⟩ := firedObjects_shows u hk body
  generalize firedObjects u k body = v at *
  obtain ⟨wsheaf, -⟩ := journalAt_leaves v .last true ⟨2, 0xFF, 0xFF, cls, k, 0⟩ b
  have wset := settled_journalAt v .last true ⟨2, 0xFF, 0xFF, cls, k, 0⟩ b
  obtain ⟨p, hp, htake⟩ := mem_journalAt v true ⟨2, 0xFF, 0xFF, cls, k, 0⟩ b
  generalize journalAt v .last true ⟨2, 0xFF, 0xFF, cls, k, 0⟩ b = w at *
  obtain ⟨xfirm, xsheaf, xjour, xothers, xd, x3, x4⟩ := firedStatus_shows w hk hi o u.seq.adm
  generalize firedStatus w k hi o u.seq.adm = x at *
  obtain ⟨yjour, ysheaf, -⟩ := updateAlarm_leaves x
  have yfirm := firm_updateAlarm x
  have yothers : OthersStand x (updateAlarm x) [(0xD800, 1), (0xD800, 5), (0xD800, 6)] := OthersStand.updateAlarm (fun _ _ _ _ _ => rfl) (by decide) (by decide) (by decide)
  generalize updateAlarm x = y at *
  have hadm : v.seq.adm = u.seq.adm := vfirm.fields.1
  have hsensor : ∀ j ∈ [0x0A, 0x0B, 0x0C], num y (0xDA00 + k) j = num v (0xDA00 + k) j := by
    intro j hj
    have hlt : j < 256 := (by decide : ∀ j ∈ [0x0A, 0x0B, 0x0C], j < 256) j hj
    have hkeep : bookkeeping (0xDA00 + k) j = false := by
      have := sensor_index hk
      simp [bookkeeping]
      omega
    rw [yothers.num hlt hkeep (by simp; omega), xothers.num hlt hkeep (by simp at hj ⊢; omega)]
    exact wset.num hlt hkeep
  have hstatus : ∀ i j, j < 256 → bookkeeping i j = false → (i, j) ∉ [(0xD800, 1), (0xD800, 5), (0xD800, 6)] → num y i j = num x i j := fun i j hj hb hn => yothers.num hj hb hn
  refine ⟨((vfirm.trans (firm_settled wset)).trans xfirm).trans yfirm, ysheaf.trans (xsheaf.trans (wsheaf.trans vsheaf)), ?_, (hsensor _ (by decide)).trans va, (hsensor _ (by decide)).trans vb,
    (hsensor _ (by decide)).trans vc, ?_, (hstatus _ _ (by decide) rfl (by decide)).trans x3, (hstatus _ _ (by decide) rfl (by decide)).trans x4, ?_, ?_⟩
  · intro i j hj hb hn
    refine (yothers i j hj hb fun h => hn ?_).trans ((xothers i j hj hb fun h => hn ?_).trans ((wset.objects i j hj hb).trans (vothers i j hj hb fun h => hn ?_)))
    · simp only [List.mem_cons, List.not_mem_nil, or_false] at h
      rcases h with h | h | h <;> rw [h] <;> exact mem_fireObjects_status k (by decide)
    · simp only [List.mem_cons, List.not_mem_nil, or_false] at h
      rcases h with h | h | h | h | h <;> rw [h]
      · exact mem_fireObjects_sensor k (by decide)
      all_goals exact mem_fireObjects_status k (by decide)
    · obtain ⟨c, hc, h⟩ := List.mem_map.mp h
      rw [← h]
      exact mem_fireObjects_sensor k ((by decide : ∀ c ∈ [0x0A, 0x0B, 0x0C], c ∈ [0x0A, 0x0B, 0x0C, 0x0D]) c hc)
  · exact (hstatus _ _ (by decide) (by simp [bookkeeping]) (by simp)).trans xd
  · exact ⟨p, by rw [show (pushSlot y _).pers.jour = y.pers.jour from rfl, yjour, xjour]; exact hp, by rw [htake, hadm, ← show leBytes 2 0 = [0, 0] from rfl]; rfl⟩
  · exact ⟨_, List.mem_append_right _ List.mem_cons_self, rfl, rfl⟩

/-- The admission of a fire of a sensor, at the head of the queue (R485, R488). -/
theorem tamperAdmission_commits {s : State} {k cls : Nat} {body : Bytes} {rest : List IntReq} (hq : s.internal = .tamper k cls body :: rest)
    (h : Inward s { internalIn 17 [k, cls] true with payload := leBytes 2 k ++ leBytes 1 cls ++ body }) (hk : (Dict.sensor k).isSome = true) :
    Committing .tamperAdmission s rest fun t =>
      num t (0xDA00 + k) 0x0A = leNat (body.take 4) ∧ num t (0xDA00 + k) 0x0B = (if isFixed k then 0 else 1) ∧
        num t (0xDA00 + k) 0x0C = min (num s (0xDA00 + k) 0x0C + 1) 65535 ∧
        num t (0xDA00 + k) 0x0D = s.seq.adm + 1 ∧ num t 0xD800 3 = k ∧ num t 0xD800 4 = s.seq.adm + 1 ∧
        (∃ p ∈ t.pers.jour.recs, p.2.bytes.take 16 = [2, 0xFF, 0xFF, BitVec.ofNat 8 cls] ++ leBytes 2 k ++ [0, 0] ++ leBytes 8 (s.seq.adm + 1)) ∧
        (∃ x ∈ t.slots, x.acts = [.fired k cls body] ∧ x.resp = none) ∧ OthersStand s t (fireObjects k) := by
  let u : State := number { s with internal := rest }
  have hadm : u.seq.adm = s.seq.adm + 1 := number_adm _
  have hnum : Inner s rest u := by
    have hn := inner_number (s := { s with internal := rest }) h.single
    exact ⟨⟨hn.adm, hn.time, hn.first, hn.queue, hn.fuses⟩, hn.internal, hn.single⟩
  obtain ⟨w, hw⟩ : ∃ w, w = tamperEffect u k cls body := ⟨_, rfl⟩
  have hshows := tamperEffect_shows u hk cls body
  rw [← hw] at hshows
  obtain ⟨hfirm, hsheaf, hothers, ha, hb, hc, hd, h3, h4, ⟨p, hp, htake⟩, x, hx, hacts, hresp⟩ := hshows
  have hmode : (0x2000, 2) ∉ fireObjects k := by simp [fireObjects]
  have hidx := sensor_index hk
  have hkeep : ∀ j ∈ [0x0A, 0x0B, 0x0C, 0x0D], j < 256 ∧ bookkeeping (0xDA00 + k) j = false := by
    intro j hj
    refine ⟨(by decide : ∀ j ∈ [0x0A, 0x0B, 0x0C, 0x0D], j < 256) j hj, ?_⟩
    simp [bookkeeping]
    omega
  refine head_recorded (e := .tamper k cls body) rfl hq rfl h rfl Nat.one_ne_zero
    (show Inner s rest (tamperEffect u k cls body) from hw ▸ hnum.firm hfirm hsheaf (hothers _ _ (by decide) rfl hmode)) fun n t hset hjour => ?_
  change Settled (redrawn (tamperEffect u k cls body) n) t at hset
  change t.pers.jour = (tamperEffect u k cls body).pers.jour at hjour
  rw [← hw] at hset hjour
  have hsensor : ∀ j ∈ [0x0A, 0x0B, 0x0C, 0x0D], num t (0xDA00 + k) j = num w (0xDA00 + k) j :=
    fun j hj => (hset.num (hkeep j hj).1 (hkeep j hj).2).trans (num_redrawn _ _ _ _)
  have hslots : t.slots = w.slots := congrArg (fun v => v.slots) hset.rest
  rw [hadm] at hd h4 htake
  refine ⟨(hsensor _ (by decide)).trans ha, (hsensor _ (by decide)).trans hb, (hsensor _ (by decide)).trans (hc.trans ?_), (hsensor _ (by decide)).trans hd,
    (hset.num (by decide) rfl).trans h3, (hset.num (by decide) rfl).trans h4, ⟨p, by rw [hjour]; exact hp, htake⟩, ⟨x, by rw [hslots]; exact hx, hacts, hresp⟩, ?_⟩
  · rw [show num u (0xDA00 + k) 0x0C = num s (0xDA00 + k) 0x0C from num_number _ _ _]
  · exact fun i j hj hbk hn => (hset.objects i j hj hbk).trans ((hothers i j hj hbk hn).trans (getObj_number _ i j))

end Sys2Proof.Machine
end

section
/-! SUPPORT. The Sinter schedule (R493 to R496). -/

namespace Sys2Proof.Machine

/-! The log and the acts of a slot's fires. -/

theorem logSinter_leaves (x : Sinter) (e : SLog) : (logSinter x e).hits = x.hits ∧ (logSinter x e).pats = x.pats := by
  unfold logSinter
  split
  · exact ⟨rfl, rfl⟩
  · split <;> exact ⟨rfl, rfl⟩

theorem sinterAct_leaves (x : Sinter) (cls : Nat) : (sinterAct x cls).hits = x.hits ∧ (sinterAct x cls).pats = x.pats ∧ (sinterAct x cls).log = x.log := by
  unfold sinterAct
  dsimp only
  split_ifs <;> exact ⟨rfl, rfl, rfl⟩

/-- The entry of one fire in its slot (R495). -/
def slotEntry (s : State) (code : Nat) (f : Nat × Nat × Nat × Nat) : SLog :=
  ⟨s.sinter.rtc, f.1, scheduleClass s f.1, entryFlags s.sinter.vigil (if f.1 = code then scheduleClass s f.1 else 0) (heldInReset s) false, f.2.1, f.2.2.2, f.2.2.1,
    scheduleWindow f.1, decide (f.1 = code), false⟩

theorem slotEntry_cls (s : State) (code : Nat) (f : Nat × Nat × Nat × Nat) : (slotEntry s code f).cls = scheduleClass s f.1 := rfl

theorem foldl_log_leaves (s : State) (code : Nat) (fs : List (Nat × Nat × Nat × Nat)) (x : Sinter) :
    (fs.foldl (fun y f => logSinter y (slotEntry s code f)) x).hits = x.hits ∧ (fs.foldl (fun y f => logSinter y (slotEntry s code f)) x).pats = x.pats := by
  induction fs generalizing x with
  | nil => exact ⟨rfl, rfl⟩
  | cons f fs ih =>
    obtain ⟨h1, h2⟩ := ih (logSinter x (slotEntry s code f))
    obtain ⟨g1, g2⟩ := logSinter_leaves x (slotEntry s code f)
    exact ⟨h1.trans g1, h2.trans g2⟩

/-- The fires of one slot: they reach the Sinter domain alone, past the log. -/
theorem slotFires_sinter (s : State) (fires : List (Nat × Nat × Nat × Nat)) : ∃ y code, slotFires s fires = { s with sinter := y } ∧ y.hits = s.sinter.hits ∧ y.pats = s.sinter.pats ∧
    y.log = ((fires.filter fun f => decide (scheduleClass s f.1 ≠ 255)).foldl (fun x f => logSinter x (slotEntry s code f)) s.sinter).log := by
  let fs := fires.filter fun f => decide (scheduleClass s f.1 ≠ 255)
  let top := (fs.map fun f => scheduleClass s f.1).foldl max 0
  let code := ((fs.filter fun f => decide (scheduleClass s f.1 = top)).map fun f => f.1).foldl min 0xFFFF
  let sn := sinterAct (fs.foldl (fun x f => logSinter x (slotEntry s code f)) s.sinter) top
  have hfires : slotFires s fires = { s with sinter := if heldInReset s = true ∧ top ≥ 2 then raisePend sn top else sn } := rfl
  obtain ⟨hh, hp⟩ := foldl_log_leaves s code fs s.sinter
  obtain ⟨ah, ap, al⟩ := sinterAct_leaves (fs.foldl (fun x f => logSinter x (slotEntry s code f)) s.sinter) top
  refine ⟨_, code, hfires, ?_, ?_, ?_⟩
  · split <;> exact ah.trans hh
  · split <;> exact ap.trans hp
  · split <;> exact al

theorem slotFires_none (s : State) : ∃ y, slotFires s [] = { s with sinter := y } ∧ y.hits = s.sinter.hits ∧ y.pats = s.sinter.pats ∧ y.log = s.sinter.log := by
  obtain ⟨y, _, h, hh, hp, hl⟩ := slotFires_sinter s []
  exact ⟨y, h, hh, hp, hl⟩

/-- One fire of a sensor that is not off joins a log that has room. -/
theorem log_one (s : State) {f : Nat × Nat × Nat × Nat} (hoff : scheduleClass s f.1 ≠ 255) (hroom : s.sinter.log.length < 64) (code : Nat) :
    (([f].filter fun f => decide (scheduleClass s f.1 ≠ 255)).foldl (fun x f => logSinter x (slotEntry s code f)) s.sinter).log = s.sinter.log ++ [slotEntry s code f] := by
  have hone : ([f].filter fun f => decide (scheduleClass s f.1 ≠ 255)) = [f] := by simp [hoff]
  rw [hone]
  unfold List.foldl logSinter
  rw [if_pos hroom]
  rfl

/-! Samples (R494). -/

/-- One sample: the consecutive events of its sensor are counted. -/
theorem scheduleHit_hits (s : State) (k : Nat) (event : Bool) (need : Nat) : ∃ h, scheduleHit s k event need =
      ({ s with sinter := { s.sinter with hits := h } }, event && decide (SMap.at' s.sinter.hits k 0 + 1 = need)) ∧
    SMap.look h k = (if event then some (SMap.at' s.sinter.hits k 0 + 1) else none) ∧ ∀ j, j ≠ k → SMap.look h j = SMap.look s.sinter.hits j := by
  cases event with
  | true => exact ⟨_, rfl, SMap.look_put_same _ _ _, fun j hj => SMap.look_put_other _ _ hj⟩
  | false => exact ⟨_, rfl, (SMap.look_del _ _ _).trans (if_pos rfl), fun j hj => (SMap.look_del _ _ _).trans (if_neg hj)⟩

theorem scheduleClass_at (s : State) {i k : Nat} (h : 0xDA00 + k = i) : scheduleClass s k = num s i (if s.sinter.vigil then 6 else 1) := by
  rw [← h]
  rfl

/-- A sample of the light sensor (R493, R494). -/
theorem sinterLight_samples {s : State} (hon : scheduleOn s = true) (r : BitVec 20) : let on := decide (s20Int (num s 0xDA20 5) < r.toInt)
    ∃ t, exec (.sinterLightCheck r) s = .next t ∧ Scheduled s t 0x20 on ∧ (on = false → t.sinter.log = s.sinter.log) ∧
      (on = true → SMap.at' s.sinter.hits 0x20 0 = 0 → s.sinter.log.length < 64 → num s 0xDA20 (if s.sinter.vigil then 6 else 1) ≠ 255 →
        ∃ e, t.sinter.log = s.sinter.log ++ [e] ∧ e.code = 0x20 ∧ e.time = s.sinter.rtc ∧ e.reading = s20Ext r ∧
          e.cls = num s 0xDA20 (if s.sinter.vigil then 6 else 1)) ∧
      t.dict = s.dict ∧ t.pers = s.pers ∧ t.field = s.field := by
  intro on
  obtain ⟨h, hhit, hlook, -⟩ := scheduleHit_hits s 0x20 on 1
  let u : State := { s with sinter := { s.sinter with hits := h } }
  let f : Nat × Nat × Nat × Nat := (0x20, s20Ext r, num s 0xDA20 5, 1)
  have hrun : Mon.sinterLight s r = slotFires u (if (on && decide (SMap.at' s.sinter.hits 0x20 0 + 1 = 1)) = true then [f] else []) := by
    unfold Mon.sinterLight
    dsimp only
    rw [if_pos hon, show decide (r.toInt > s20Int (num s 0xDA20 5)) = on from rfl, hhit]
  obtain ⟨y, code, hy, hh, -, hl⟩ := slotFires_sinter u (if (on && decide (SMap.at' s.sinter.hits 0x20 0 + 1 = 1)) = true then [f] else [])
  refine ⟨_, coreCmd_next (f := fun s => Mon.sinterLight s r) (hrun.trans hy) rfl rfl, (congrArg (fun m => SMap.look m 0x20) hh).trans hlook, fun ho => ?_, fun ho h0 hroom hoff => ?_, rfl, rfl, rfl⟩
  · rw [hl, ho]
    rfl
  · have hclass : scheduleClass u f.1 = num s 0xDA20 (if s.sinter.vigil then 6 else 1) := scheduleClass_at u (k := 0x20) rfl
    refine ⟨slotEntry u code f, ?_, rfl, rfl, rfl, (slotEntry_cls u code f).trans hclass⟩
    have hfire : (on && decide (SMap.at' s.sinter.hits 0x20 0 + 1 = 1)) = true := by rw [ho, h0]; rfl
    rw [hl, if_pos hfire]
    exact log_one u (by rw [hclass]; exact hoff) hroom code

/-- A sample of the temperature sensors (R493, R494). -/
theorem sinterTemp_samples {s : State} (hon : scheduleOn s = true) (r : BitVec 20) : let lo := decide (r.toInt < s20Int (num s 0xDA28 4))
    let hi := decide (s20Int (num s 0xDA29 5) < r.toInt)
    ∃ t, exec (.sinterTempCheck r) s = .next t ∧ Scheduled s t 0x28 lo ∧ Scheduled s t 0x29 hi ∧ (lo = false → hi = false → t.sinter.log = s.sinter.log) ∧
      (lo = true → hi = false → SMap.at' s.sinter.hits 0x28 0 = 1 → s.sinter.log.length < 64 → num s 0xDA28 (if s.sinter.vigil then 6 else 1) ≠ 255 →
        ∃ e, t.sinter.log = s.sinter.log ++ [e] ∧ e.code = 0x28 ∧ e.reading = s20Ext r) ∧
      t.dict = s.dict ∧ t.pers = s.pers ∧ t.field = s.field := by
  intro lo hi
  obtain ⟨g, hlow, glook, gother⟩ := scheduleHit_hits s 0x28 lo 2
  obtain ⟨h, hhigh, hlook, hother⟩ := scheduleHit_hits { s with sinter := { s.sinter with hits := g } } 0x29 hi 2
  have hat : SMap.at' g 0x29 0 = SMap.at' s.sinter.hits 0x29 0 := congrArg (fun o => o.getD 0) (gother 0x29 (by decide))
  dsimp only at hhigh hlook hother
  rw [hat] at hhigh hlook
  let u : State := { s with sinter := { s.sinter with hits := h } }
  let f : Nat × Nat × Nat × Nat := (0x28, s20Ext r, num s 0xDA28 4, 2)
  let k : Nat × Nat × Nat × Nat := (0x29, s20Ext r, num s 0xDA29 5, 2)
  let fires := (if (lo && decide (SMap.at' s.sinter.hits 0x28 0 + 1 = 2)) = true then [f] else []) ++ if (hi && decide (SMap.at' s.sinter.hits 0x29 0 + 1 = 2)) = true then [k] else []
  have hrun : Mon.sinterTemp s r = slotFires u fires := by
    unfold Mon.sinterTemp
    dsimp only
    rw [if_pos hon, show decide (r.toInt > s20Int (num s 0xDA29 5)) = hi from rfl, hlow]
    dsimp only
    rw [hhigh]
  obtain ⟨y, code, hy, hh, -, hl⟩ := slotFires_sinter u fires
  have hhits : ∀ j, SMap.look y.hits j = SMap.look h j := fun j => congrArg (fun m => SMap.look m j) hh
  refine ⟨_, coreCmd_next (f := fun s => Mon.sinterTemp s r) (hrun.trans hy) rfl rfl, (hhits 0x28).trans ((hother 0x28 (by decide)).trans glook), (hhits 0x29).trans hlook,
    fun hlo hhi => ?_, fun hlo hhi h1 hroom hoff => ?_, rfl, rfl, rfl⟩
  · have hnone : fires = [] := by simp [fires, hlo, hhi]
    rw [hl, hnone]
    rfl
  · have hone : fires = [f] := by simp [fires, hlo, hhi, h1]
    have hclass : scheduleClass u f.1 = num s 0xDA28 (if s.sinter.vigil then 6 else 1) := scheduleClass_at u (k := 0x28) rfl
    refine ⟨slotEntry u code f, ?_, rfl, rfl⟩
    rw [hl, hone]
    exact log_one u (by rw [hclass]; exact hoff) hroom code

/-! Meshes (R493, R494). -/

/-- The sensor of mesh j of the schedule: the lid, then the enclosure meshes. -/
def meshSensor (j : Nat) : Nat := if j = 0 then 0x30 else 0x37 + j

theorem meshSensor_inj {i j : Nat} (hj : j < 5) (hi : i < 5) (h : meshSensor i = meshSensor j) : i = j := by
  unfold meshSensor at h
  split at h <;> split at h <;> omega

/-- Whether mesh j differs from what was sensed. -/
def meshEvent (s : State) (j : Nat) (x : BitVec 16) : Bool := decide (mismatches (SMap.at' s.sinter.pats j 0#16) x ≠ 0)

/-- One mesh of the schedule: its own count, and its next pattern. -/
theorem sinterMesh_samples (p : State × List (Nat × Nat × Nat × Nat)) (j : Nat) (x : BitVec 16) : ∃ h l c fs, Mon.sinterMesh p (j, x) =
      ({ p.1 with sinter := { p.1.sinter with hits := h, lfsr := l, pats := SMap.put p.1.sinter.pats j c } }, fs) ∧
    SMap.look h (meshSensor j) = (if meshEvent p.1 j x then some (SMap.at' p.1.sinter.hits (meshSensor j) 0 + 1) else none) ∧
    ∀ k, k ≠ meshSensor j → SMap.look h k = SMap.look p.1.sinter.hits k := by
  obtain ⟨h, hhit, hlook, hother⟩ := scheduleHit_hits p.1 (meshSensor j) (meshEvent p.1 j x) 2
  refine ⟨h, Config.lfsrNext p.1.sinter.lfsr, (Config.lfsrNext p.1.sinter.lfsr).truncate 16, p.2 ++ if (meshEvent p.1 j x && decide (SMap.at' p.1.sinter.hits (meshSensor j) 0 + 1 = 2)) = true
    then [(meshSensor j, mismatches (SMap.at' p.1.sinter.pats j 0#16) x, 0, 2)] else [], ?_, hlook, hother⟩
  unfold Mon.sinterMesh
  dsimp only
  rw [show scheduleHit p.1 (if j = 0 then 0x30 else 0x37 + j) (decide (mismatches (SMap.at' p.1.sinter.pats j 0#16) x ≠ 0)) 2 = _ from hhit]
  rfl

/-- The meshes of one slot, each once. -/
theorem sinterMesh_all (xs : List (Nat × BitVec 16)) (hd : (xs.map fun x => x.1).Nodup) (h5 : ∀ x ∈ xs, x.1 < 5) (p : State × List (Nat × Nat × Nat × Nat)) : ∃ h l q fs,
    xs.foldl Mon.sinterMesh p = ({ p.1 with sinter := { p.1.sinter with hits := h, lfsr := l, pats := q } }, fs) ∧
    (∀ x ∈ xs, SMap.look h (meshSensor x.1) = (if meshEvent p.1 x.1 x.2 then some (SMap.at' p.1.sinter.hits (meshSensor x.1) 0 + 1) else none) ∧ (SMap.look q x.1).isSome = true) ∧
    (∀ k, (∀ x ∈ xs, k ≠ meshSensor x.1) → SMap.look h k = SMap.look p.1.sinter.hits k) ∧ ∀ j, (∀ x ∈ xs, j ≠ x.1) → SMap.look q j = SMap.look p.1.sinter.pats j := by
  induction xs generalizing p with
  | nil => exact ⟨_, _, _, _, rfl, fun x h => absurd h List.not_mem_nil, fun _ _ => rfl, fun _ _ => rfl⟩
  | cons y ys ih =>
    obtain ⟨hy, hys⟩ := List.nodup_cons.mp hd
    obtain ⟨g, l, c, fs, hone, glook, gother⟩ := sinterMesh_samples p y.1 y.2
    obtain ⟨h, m, q, es, hrest, hlook, hhits, hpats⟩ := ih hys (fun x hx => h5 x (List.mem_cons_of_mem y hx))
      ({ p.1 with sinter := { p.1.sinter with hits := g, lfsr := l, pats := SMap.put p.1.sinter.pats y.1 c } }, fs)
    have hne : ∀ x ∈ ys, y.1 ≠ x.1 := fun x hx he => hy (List.mem_map.mpr ⟨x, hx, he.symm⟩)
    have hsensor : ∀ x ∈ ys, meshSensor y.1 ≠ meshSensor x.1 :=
      fun x hx he => hne x hx (meshSensor_inj (h5 x (List.mem_cons_of_mem y hx)) (h5 y List.mem_cons_self) he)
    refine ⟨h, m, q, es, ?_, fun x hx => ?_, fun k hk => ?_, fun j hj => ?_⟩
    · rw [List.foldl_cons, show Mon.sinterMesh p y = _ from hone, hrest]
    · rcases List.mem_cons.mp hx with rfl | hx
      · refine ⟨(hhits _ hsensor).trans glook, ?_⟩
        rw [hpats _ hne, SMap.look_put_same]
        rfl
      · obtain ⟨h1, h2⟩ := hlook x hx
        refine ⟨h1.trans ?_, h2⟩
        have hp : SMap.at' (SMap.put p.1.sinter.pats y.1 c) x.1 0#16 = SMap.at' p.1.sinter.pats x.1 0#16 :=
          congrArg (fun o => o.getD 0#16) (SMap.look_put_other _ _ (hne x hx).symm)
        have hh : SMap.at' g (meshSensor x.1) 0 = SMap.at' p.1.sinter.hits (meshSensor x.1) 0 := congrArg (fun o => o.getD 0) (gother _ (hsensor x hx).symm)
        unfold meshEvent
        dsimp only
        rw [hp, hh]
    · exact (hhits k fun x hx => hk x (List.mem_cons_of_mem y hx)).trans (gother k (hk y List.mem_cons_self))
    · exact (hpats j fun x hx => hj x (List.mem_cons_of_mem y hx)).trans (SMap.look_put_other _ _ (hj y List.mem_cons_self))

/-- A sample of the meshes (R493, R494). -/
theorem sinterMeshes_sample {s : State} (hon : scheduleOn s = true) (a b c d e : BitVec 16) : ∃ t, exec (.sinterMeshCheck a b c d e) s = .next t ∧ t.dict = s.dict ∧
    t.pers = s.pers ∧ t.field = s.field ∧
      ∀ j : Fin 5, let x := [a, b, c, d, e].getD j.val 0
        Scheduled s t (if j.val = 0 then 0x30 else 0x37 + j.val) (decide (mismatches (SMap.at' s.sinter.pats j.val 0#16) x ≠ 0)) ∧
          (SMap.look t.sinter.pats j.val).isSome = true := by
  obtain ⟨h, l, q, fs, hall, hlook, -, -⟩ := sinterMesh_all [(0, a), (1, b), (2, c), (3, d), (4, e)] (show [0, 1, 2, 3, 4].Nodup by decide) (by simp) (s, [])
  obtain ⟨y, _, hy, hh, hp, -⟩ := slotFires_sinter { s with sinter := { s.sinter with hits := h, lfsr := l, pats := q } } fs
  have hrun : Mon.sinterMeshes s [a, b, c, d, e] = { s with sinter := y } := by
    unfold Mon.sinterMeshes
    dsimp only
    rw [if_pos hon, show ((List.range [a, b, c, d, e].length).zip [a, b, c, d, e]).foldl Mon.sinterMesh (s, []) = _ from hall]
    exact hy
  refine ⟨_, coreCmd_next (f := fun s => Mon.sinterMeshes s [a, b, c, d, e]) hrun rfl rfl, rfl, rfl, rfl, fun j => ?_⟩
  have hmem : (j.val, [a, b, c, d, e].getD j.val 0) ∈ [(0, a), (1, b), (2, c), (3, d), (4, e)] := by
    match j with
    | 0 | 1 | 2 | 3 | 4 => simp
  obtain ⟨h1, h2⟩ := hlook _ hmem
  exact ⟨(congrArg (fun m => SMap.look m (meshSensor j.val)) hh).trans h1, (congrArg (fun m => (SMap.look m j.val).isSome) hp).trans h2⟩

/-- Settles O55: an event's state is that of its filter; what a fire does is said once, and each monitor brings about one event. -/
theorem tamperAndSinterComplete : Obligations.tamper_and_sinter_complete := by
  unfold Obligations.tamper_and_sinter_complete
  refine ⟨fun s => ⟨fun h => ?_, fun code hf hw => windowExpiry_clears code hf hw, fun r hr hf => latchCommit_restarts hr hf,
    fun k cls body rest hq hin hk _ _ => tamperAdmission_commits hq hin hk⟩, fun s => ⟨fun hon => ⟨sinterLight_samples hon, sinterTemp_samples hon, sinterMeshes_sample hon⟩, fun hv => ?_⟩⟩
  · obtain ⟨hmon, htempo, hcipher, hpll⟩ := clocks_lost h
    exact ⟨fun code r => sensor_reads h code r, hmon, htempo, hcipher, hpll, fun row n hf => clockWindow_checks h row n hf,
      fun sensed => ⟨(lidMesh_compares h sensed).1, (lidMesh_compares h sensed).2, fun m => enclosureMesh_compares h sensed m⟩,
      fun code x hf hx hset => supplyHold_responds h code hf hx hset⟩
  · have hrun : Mon.vbatLoss s = { (draw s 49).2 with sinter := { s.sinter with
        crcOk := bit (draw s 49).1 48, rtc := (draw s 49).1 % 2 ^ 48, frac := 0, key := none, log := [], overflow := 0, sealLatch := false, pend := none,
        lost := true, hits := [], osc := false } } := by
      unfold Mon.vbatLoss
      rw [hv]
      rfl
    exact ⟨_, coreCmd_next (f := Mon.vbatLoss) hrun rfl rfl, rfl, rfl, rfl, rfl, rfl, rfl, rfl, Nat.mod_lt _ (by decide), rfl, rfl, rfl, rfl⟩

end Sys2Proof.Machine
end

section
/-! SUPPORT. What the barrier link changes: its two ends and the counters of its cells (R163 to R168, R178). -/

namespace Sys2Proof.Machine

/-! What a cell or a link event leaves alone. -/

/-- State t is s but for the barrier link, the field die and the counters. -/
def LinkOnly (s t : State) : Prop := t = { s with bar := t.bar, field := t.field, hw := t.hw, perf := t.perf }

theorem LinkOnly.refl (s : State) : LinkOnly s s := rfl

theorem LinkOnly.trans {a b c : State} (h : LinkOnly a b) (g : LinkOnly b c) : LinkOnly a c := by
  unfold LinkOnly at *
  rw [g, h]

theorem LinkOnly.dieFrame {s t : State} (h : LinkOnly s t) : dieFrame s t := by
  rw [h]
  exact ⟨rfl, rfl, rfl, rfl, rfl, rfl, rfl, rfl, rfl⟩

theorem linkOnly_updBar (s : State) (f : Bar → Bar) : LinkOnly s (updBar s f) := rfl

theorem linkOnly_onField (s : State) (f : Field → Field) : LinkOnly s (onField s f) := rfl

theorem linkOnly_incHw (s : State) (i k n : Nat) : LinkOnly s (incHw s i k n) := rfl

theorem linkOnly_whenField (s : State) (f : Field → Field) : LinkOnly s (whenField s f) := by
  unfold whenField
  split <;> rfl

/-! The counts of hardware. -/

/-- State t is s but for its hardware counts and its performance counters. -/
def TalliesOnly (s t : State) : Prop := t = { s with hw := t.hw, perf := t.perf }

theorem TalliesOnly.refl (s : State) : TalliesOnly s s := rfl

theorem TalliesOnly.trans {a b c : State} (h : TalliesOnly a b) (g : TalliesOnly b c) : TalliesOnly a c := by
  unfold TalliesOnly at *
  rw [g, h]

theorem TalliesOnly.linkOnly {s t : State} (h : TalliesOnly s t) : LinkOnly s t := by
  rw [h]
  rfl

theorem TalliesOnly.ends {s t : State} (h : TalliesOnly s t) : t.bar = s.bar ∧ t.field = s.field := by
  rw [h]
  exact ⟨rfl, rfl⟩

theorem talliesOnly_count (s : State) (b i n : Nat) : TalliesOnly s (count s b i n) := by
  obtain ⟨p, hp⟩ := count_perf s b i n
  rw [hp]
  rfl

theorem talliesOnly_incHw (s : State) (i k n : Nat) : TalliesOnly s (incHw s i k n) := rfl

theorem talliesOnly_addHw (s : State) (i k n : Nat) : TalliesOnly s (addHw s i k n) := rfl

theorem talliesOnly_tookCells (s : State) (n : Nat) : TalliesOnly s (tookCells s n) := (talliesOnly_addHw s 0x1030 3 n).trans (talliesOnly_count _ _ _ _)

theorem talliesOnly_tagFailed (s : State) : TalliesOnly s (tagFailed s) := (talliesOnly_incHw s 0x1030 5 1).trans (talliesOnly_count _ _ _ _)

theorem talliesOnly_windowFailed (s : State) : TalliesOnly s (windowFailed s) := (talliesOnly_incHw s 0x1030 6 1).trans (talliesOnly_count _ _ _ _)

theorem talliesOnly_sentCells (s : State) (n : Nat) (b : Bool) : TalliesOnly s (sentCells s n b) :=
  (talliesOnly_addHw s 0x1030 4 n).trans ((talliesOnly_count _ _ _ _).trans (talliesOnly_count _ _ _ _))

@[simp] theorem counted_count (s : State) (b j n i k : Nat) : counted (count s b j n) i k = counted s i k := by
  obtain ⟨p, hp⟩ := count_perf s b j n
  rw [hp]
  rfl

theorem counted_incHw_other (s : State) {i k i' k' : Nat} (n : Nat) (h : objKey i k ≠ objKey i' k') : counted (incHw s i' k' n) i k = counted s i k := by
  unfold counted incHw SMap.upd
  exact (SMap.at_put _ _ _ _ _).trans (if_neg h)

theorem counted_addHw (s : State) (i k n : Nat) : counted (addHw s i k n) i k = counted s i k + n := by
  unfold counted addHw SMap.upd
  exact (SMap.at_put _ _ _ _ _).trans (if_pos rfl)

theorem counted_addHw_other (s : State) {i k i' k' : Nat} (n : Nat) (h : objKey i k ≠ objKey i' k') : counted (addHw s i' k' n) i k = counted s i k := by
  unfold counted addHw SMap.upd
  exact (SMap.at_put _ _ _ _ _).trans (if_neg h)

theorem counted_tookCells (s : State) (n : Nat) : counted (tookCells s n) 0x1030 3 = counted s 0x1030 3 + n :=
  (counted_count _ _ _ _ _ _).trans (counted_addHw s 0x1030 3 n)

theorem counted_tookCells_other (s : State) (n : Nat) {i k : Nat} (h : objKey i k ≠ objKey 0x1030 3) : counted (tookCells s n) i k = counted s i k :=
  (counted_count _ _ _ _ _ _).trans (counted_addHw_other s n h)

theorem counted_tagFailed (s : State) : counted (tagFailed s) 0x1030 5 = sat32 (counted s 0x1030 5) 1 :=
  (counted_count _ _ _ _ _ _).trans (counted_incHw s 0x1030 5 1)

theorem counted_tagFailed_other (s : State) {i k : Nat} (h : objKey i k ≠ objKey 0x1030 5) : counted (tagFailed s) i k = counted s i k :=
  (counted_count _ _ _ _ _ _).trans (counted_incHw_other s 1 h)

theorem counted_windowFailed_other (s : State) {i k : Nat} (h : objKey i k ≠ objKey 0x1030 6) : counted (windowFailed s) i k = counted s i k :=
  (counted_count _ _ _ _ _ _).trans (counted_incHw_other s 1 h)

theorem counted_sentCells (s : State) (n : Nat) (b : Bool) : counted (sentCells s n b) 0x1030 4 = counted s 0x1030 4 + n := by
  unfold sentCells
  rw [counted_count, counted_count, counted_addHw]

/-- An alarm of the compare unit leaves the other counts as they were (R285, R286). -/
theorem counted_compareAlarm_other (s : State) {i k : Nat} (h : objKey i k ≠ objKey 0xCF20 7) : counted (compareAlarm s) i k = counted s i k := by
  have hs : SensesOnly (incHw s 0xCF20 7 1) (compareAlarm s) := sensesOnly_sensorEvent _ _ _ _ _
  rw [hs]
  exact counted_incHw_other s 1 h

/-! A cell at its receiver (R166 to R168). -/

/-- A sequence in the window gives the place of its cell. -/
theorem windowPlace {seq exp d : Nat} (hd : d < 1024) (h : seq = (exp + d) % 65536) : (seq + 65536 - exp % 65536) % 65536 = d := by omega

/-- The lane past a cell that it takes. -/
def Bar.past (l : Lane) (d : Nat) : Lane := ⟨l.exp + d + 1, 0, if d = 0 then l.parts else []⟩

theorem rxCell_dropped {lane : Nat} {key c : Bytes} {l : Lane} {alarm : Bool} {d : Nat} (single : Bar.CellHdr → Bool) (hlen : c.length = 32) (hd : d < 1024)
    (hseq : (Bar.parse c).seq = (l.exp + d) % 65536) (hbad : alarm = true ∨ (Bar.parse c).tag ≠ Bar.tag key (l.exp + d) lane (c.take 28)) :
    Bar.rxCell lane key l c alarm single = ⟨Bar.dropped l, (Bar.parse c).type, none, false, true, false, 0, false, 0⟩ := by
  unfold Bar.rxCell
  dsimp only
  rw [windowPlace hd hseq, if_neg (by omega), if_pos hbad]

/-- What R163 to R167 ask of a cell before it is read. -/
structure Bar.Reads (lane : Nat) (h : Bar.CellHdr) (single : Bar.CellHdr → Bool) : Prop where
  listed : (if lane = 0 then [0x01, 0x03, 0x04, 0x11, 0x21, 0x31, 0x32, 0x33, 0x34, 0x35].contains h.type
      else [0x81, 0x82, 0x84, 0x91, 0xA1, 0xA2, 0xB1, 0xC1].contains h.type) = true
  shape : (if Bar.spans h.type then decide (h.type ≠ 0x11 ∧ h.type ≠ 0x91) || decide (h.pos ≥ 2 ∨ 2 ≤ h.len) else decide (h.pos = 0) && single h) = true

section
variable {lane : Nat} {key c : Bytes} {l : Lane} {d : Nat} {single : Bar.CellHdr → Bool}

/-- A whole message in one cell. -/
theorem rxCell_single (hg : GoodCell c key lane l d) (hr : Bar.Reads lane (Bar.parse c) single) (hs : Bar.spans (Bar.parse c).type = false) : ∃ n,
    Bar.rxCell lane key l c false single = ⟨Bar.past l d, (Bar.parse c).type, some (Bar.parse c, (Bar.parse c).payload), true, false, false, d, false, n⟩ := by
  unfold Bar.rxCell
  dsimp only
  rw [windowPlace hg.near hg.seq, if_neg (by have := hg.whole; have := hg.near; omega), if_neg (by simp [hg.tag]),
    if_neg (by rw [hr.listed, hr.shape, hg.pad]; simp [hg.some, hg.most, hg.reserved]), if_pos (by simp [hs])]
  exact ⟨_, rfl⟩

/-- The first part of a longer message. -/
theorem rxCell_first (hg : GoodCell c key lane l 0) (hr : Bar.Reads lane (Bar.parse c) single) (hs : Bar.spans (Bar.parse c).type = true)
    (hp : (Bar.parse c).pos = 1) : ∃ n, Bar.rxCell lane key l c false single =
      ⟨⟨l.exp + 1, 0, SMap.put l.parts (Bar.parse c).type (Bar.parse c).payload⟩, (Bar.parse c).type, none, true, false, false, 0, false, n⟩ := by
  unfold Bar.rxCell
  dsimp only
  rw [windowPlace hg.near hg.seq, if_neg (by have := hg.whole; omega), if_neg (by simp [hg.tag]),
    if_neg (by rw [hr.listed, hr.shape, hg.pad]; simp [hg.some, hg.most, hg.reserved]), if_neg (by simp [hs]), hp]
  exact ⟨_, rfl⟩

/-- The last part of a longer message. -/
theorem rxCell_last {b : Bytes} (hg : GoodCell c key lane l 0) (hr : Bar.Reads lane (Bar.parse c) single) (hs : Bar.spans (Bar.parse c).type = true)
    (hp : (Bar.parse c).pos = 3) (hb : SMap.look l.parts (Bar.parse c).type = some b) : ∃ n, Bar.rxCell lane key l c false single =
      ⟨⟨l.exp + 1, 0, SMap.del l.parts (Bar.parse c).type⟩, (Bar.parse c).type, some (Bar.parse c, b ++ (Bar.parse c).payload), true, false, false, 0, false, n⟩ := by
  unfold Bar.rxCell
  dsimp only
  rw [windowPlace hg.near hg.seq, if_neg (by have := hg.whole; omega), if_neg (by simp [hg.tag]),
    if_neg (by rw [hr.listed, hr.shape, hg.pad]; simp [hg.some, hg.most, hg.reserved]), if_neg (by simp [hs]), if_pos rfl, hp, hb]
  exact ⟨_, rfl⟩

end

end Sys2Proof.Machine
end

section
/-! SUPPORT. Cells at the receivers of both dies (R165 to R168, R174, R285, R286). -/

namespace Sys2Proof.Machine

/-! What the core die counts of a cell. -/

theorem TalliesOnly.ite {p : Prop} [Decidable p] {s a b : State} (ha : TalliesOnly s a) (hb : TalliesOnly s b) : TalliesOnly s (if p then a else b) := by
  split
  · exact ha
  · exact hb

theorem counted_ite {p : Prop} [Decidable p] {a b : State} {i k : Nat} (h : counted a i k = counted b i k) : counted (if p then a else b) i k = counted b i k := by
  split
  · exact h
  · rfl

/-- The cell counted as it was found (R166, R178). -/
def checked (s : State) (r : Bar.Rx) : State :=
  let a := tookCells s (if r.accepted ∧ !r.malformed then 1 else 0)
  let b := if r.badTag then tagFailed a else if r.outside then windowFailed a else a
  if r.lost = 0 then b else incHw b 0x1030 7 r.lost

/-- What a malformed cell and a message cut short count (R167, R168). -/
def discards (s : State) (r : Bar.Rx) : State :=
  let a := if r.malformed then incHw s 0x1030 8 1 else s
  if r.discarded = 0 then a else incHw a 0x1030 9 r.discarded

theorem talliesOnly_checked (s : State) (r : Bar.Rx) : TalliesOnly s (checked s r) := by
  have ha := talliesOnly_tookCells s (if r.accepted ∧ !r.malformed then 1 else 0)
  have hb := TalliesOnly.ite (p := r.badTag = true) (ha.trans (talliesOnly_tagFailed _)) (TalliesOnly.ite (p := r.outside = true) (ha.trans (talliesOnly_windowFailed _)) ha)
  exact .ite hb (hb.trans (talliesOnly_incHw _ _ _ _))

theorem talliesOnly_discards (s : State) (r : Bar.Rx) : TalliesOnly s (discards s r) := by
  have ha := TalliesOnly.ite (p := r.malformed = true) (talliesOnly_incHw s 0x1030 8 1) (.refl s)
  exact .ite ha (ha.trans (talliesOnly_incHw _ _ _ _))

/-- Such losses leave the counts of cells taken and of tags that failed. -/
theorem counted_discards (s : State) (r : Bar.Rx) {i k : Nat} (h8 : objKey i k ≠ objKey 0x1030 8) (h9 : objKey i k ≠ objKey 0x1030 9) :
    counted (discards s r) i k = counted s i k := by
  unfold discards
  dsimp only
  have ha : counted (if r.malformed = true then incHw s 0x1030 8 1 else s) i k = counted s i k := counted_ite (counted_incHw_other s 1 h8)
  split
  · exact ha
  · exact (counted_incHw_other _ _ h9).trans ha

theorem counted_checked_taken {s : State} {r : Bar.Rx} (ha : r.accepted = true) (hm : r.malformed = false) (hb : r.badTag = false) (ho : r.outside = false) :
    counted (checked s r) 0x1030 3 = counted s 0x1030 3 + 1 := by
  unfold checked
  rw [ha, hm, hb, ho]
  dsimp only
  have h : counted (tookCells s 1) 0x1030 3 = counted s 0x1030 3 + 1 := counted_tookCells s 1
  split
  · exact h
  · exact (counted_incHw_other _ _ (by decide)).trans h

theorem counted_checked_failed {s : State} {r : Bar.Rx} (hb : r.badTag = true) (hl : r.lost = 0) :
    counted (checked s r) 0x1030 5 = sat32 (counted s 0x1030 5) 1 ∧ counted (checked s r) 0xCF20 7 = counted s 0xCF20 7 := by
  unfold checked
  rw [hb, hl]
  exact ⟨(counted_tagFailed _).trans (congrArg (sat32 · 1) (counted_tookCells_other _ _ (by decide))),
    (counted_tagFailed_other _ (by decide)).trans (counted_tookCells_other _ _ (by decide))⟩

/-! The receiver of the core die. -/

/-- The messages that a cell leaves to be taken up: IDLE is none. -/
def Bar.keeps : Option Lane0 → List Lane0
  | some .idle => []
  | some m => [m]
  | none => []

/-- A message that has come whole leaves the queue of the field die. -/
def Bar.takenUp (t : State) : Option Lane0 → State
  | some x => onField t fun f => { f with lane0 := f.lane0.erase x }
  | none => t

/-- The core die's end, and the field die, after its receiver has made r and message m of a cell. -/
def tookIn (s : State) (r : Bar.Rx) (m : Option Lane0) : State :=
  Bar.takenUp (onField (updBar s fun x => { x with rx := r.lane, ready := x.ready ++ Bar.keeps m, heard := if r.accepted then s.boot.since else x.heard })
    fun f => { f with sent := if r.accepted then max f.sent (r.lane.exp - 1) else f.sent, spoke := if r.accepted then f.time else f.spoke }) m

theorem tookIn_parts (s : State) (r : Bar.Rx) (m : Option Lane0) : LinkOnly s (tookIn s r m) ∧
    (tookIn s r m).bar = { s.bar with rx := r.lane, ready := s.bar.ready ++ Bar.keeps m, heard := if r.accepted then s.boot.since else s.bar.heard } ∧
    guardStands s.field (tookIn s r m).field := by
  cases m <;> exact ⟨rfl, rfl, rfl, rfl, rfl, rfl, rfl, rfl, rfl, rfl, rfl, rfl⟩

theorem counted_tookIn (s : State) (r : Bar.Rx) (m : Option Lane0) (i k : Nat) : counted (tookIn s r m) i k = counted s i k := by
  cases m <;> rfl

/-- A cell that is no HELLO, tried under the link key. -/
theorem cellAtCore_keyed {s : State} {c key : Bytes} (hk : s.bar.key = some key)
    (hraw : (if (Bar.parse c).type = 1 ∧ Bar.helloCell (Bar.parse c) c then Bar.msg0 (Bar.parse c) else none) = none) (alarm : Bool) :
    let r := Bar.rxCell 0 key s.bar.rx c alarm fun h => (Bar.msg0 h).isSome
    let u := checked (tookIn s r (r.done.bind fun p => Bar.asLane0 p.1 p.2)) r
    cellAtCore s c alarm = discards (if alarm ∧ r.badTag then compareAlarm u else u) r := by
  unfold cellAtCore checked discards
  dsimp only
  rw [hraw, hk]
  dsimp only
  generalize (Bar.rxCell 0 key s.bar.rx c alarm fun h => (Bar.msg0 h).isSome) = r
  generalize hm : (r.done.bind fun p => Bar.asLane0 p.1 p.2) = m
  cases m with
  | none => rfl
  | some x => cases x <;> rfl

/-- The same where the compare unit raises no alarm. -/
theorem cellAtCore_calm {s : State} {c key : Bytes} (hk : s.bar.key = some key) (ht : (Bar.parse c).type ≠ 1) {r : Bar.Rx}
    (hr : Bar.rxCell 0 key s.bar.rx c false (fun h => (Bar.msg0 h).isSome) = r) {m : Option Lane0} (hm : (r.done.bind fun p => Bar.asLane0 p.1 p.2) = m) :
    cellAtCore s c false = discards (checked (tookIn s r m) r) r ∧ LinkOnly s (cellAtCore s c false) ∧
      (cellAtCore s c false).bar = (tookIn s r m).bar ∧ (cellAtCore s c false).field = (tookIn s r m).field := by
  have h := cellAtCore_keyed hk (if_neg fun h => ht h.1) false
  dsimp only at h
  rw [hr, hm, if_neg (by simp)] at h
  have htal := (talliesOnly_checked (tookIn s r m) r).trans (talliesOnly_discards _ r)
  rw [h]
  exact ⟨rfl, (tookIn_parts s r m).1.trans htal.linkOnly, htal.ends⟩

theorem tookIn_refused {s : State} {r : Bar.Rx} (ha : r.accepted = false) : tookIn s r none = { s with bar := { s.bar with rx := r.lane } } := by
  unfold tookIn Bar.takenUp Bar.keeps
  simp [ha, updBar, onField]

/-- A cell command at the core die. -/
theorem exec_receive0 (c : Bytes) (p : Phys) (s : State) : exec (.barrierCellReceive 0 ⟨c, p⟩) s = coreCmd (fun s => cellAtCore s c (decide (p = .compare))) s := rfl

theorem LinkOnly.exec {c : Instr} {f : State → State} {s : State} (h : LinkOnly s (f s)) (hexec : exec c s = coreCmd f s) : exec c s = .next (f s) := by
  refine hexec.trans (coreCmd_next rfl ?_ ?_) <;> rw [h]

/-- A cell that the receiver of lane 0 takes, with no alarm. -/
theorem cell0_taken {s : State} {c key : Bytes} {p : Phys} (hk : s.bar.key = some key) (ht : (Bar.parse c).type ≠ 1) (hp : p ≠ .compare) {l : Lane} {ty d n : Nat}
    {done : Option (Bar.CellHdr × Bytes)} {m : Option Lane0}
    (hr : Bar.rxCell 0 key s.bar.rx c false (fun h => (Bar.msg0 h).isSome) = ⟨l, ty, done, true, false, false, d, false, n⟩)
    (hm : (done.bind fun p => Bar.asLane0 p.1 p.2) = m) :
    ∃ t, exec (.barrierCellReceive 0 ⟨c, p⟩) s = .next t ∧ t.bar.rx = l ∧ t.bar.ready = s.bar.ready ++ Bar.keeps m ∧ t.bar.heard = s.boot.since ∧
      counted t 0x1030 3 = counted s 0x1030 3 + 1 ∧ dieFrame s t := by
  have hx := exec_receive0 c p s
  rw [show decide (p = Phys.compare) = false from decide_eq_false hp] at hx
  obtain ⟨heq, hlink, hbar, -⟩ := cellAtCore_calm hk ht hr hm
  refine ⟨_, hlink.exec (f := fun s => cellAtCore s c false) hx, ?_, ?_, ?_, ?_, hlink.dieFrame⟩
  · rw [hbar, (tookIn_parts ..).2.1]
  · rw [hbar, (tookIn_parts ..).2.1]
  · rw [hbar, (tookIn_parts ..).2.1]
    rfl
  · rw [heq, counted_discards _ _ (by decide) (by decide)]
    exact (counted_checked_taken rfl rfl rfl rfl).trans (congrArg (· + 1) (counted_tookIn ..))

/-- A cell of the window whose tag is wrong is dropped, and counted. -/
theorem cell0_dropped {s : State} {c key : Bytes} {p : Phys} {d : Nat} (hk : s.bar.key = some key) (ht : (Bar.parse c).type ≠ 1) (hp : p ≠ .compare)
    (hlen : c.length = 32) (hd : d < 1024) (hseq : (Bar.parse c).seq = (s.bar.rx.exp + d) % 65536)
    (hbad : (Bar.parse c).tag ≠ Bar.tag key (s.bar.rx.exp + d) 0 (c.take 28)) :
    ∃ t, exec (.barrierCellReceive 0 ⟨c, p⟩) s = .next t ∧ t.bar.rx = { s.bar.rx with drops := min (s.bar.rx.drops + 1) 16 } ∧
      t.bar.ready = s.bar.ready ∧ counted t 0x1030 5 = sat32 (counted s 0x1030 5) 1 ∧ dieFrame s t := by
  have hx := exec_receive0 c p s
  rw [show decide (p = Phys.compare) = false from decide_eq_false hp] at hx
  obtain ⟨heq, hlink, hbar, -⟩ := cellAtCore_calm hk ht (rxCell_dropped (fun h => (Bar.msg0 h).isSome) hlen hd hseq (.inr hbad)) rfl
  refine ⟨_, hlink.exec (f := fun s => cellAtCore s c false) hx, ?_, ?_, ?_, hlink.dieFrame⟩
  · rw [hbar]; rfl
  · rw [hbar]; exact List.append_nil _
  · rw [heq, counted_discards _ _ (by decide) (by decide)]
    exact (counted_checked_failed rfl rfl).1

/-- An alarm of the compare unit is a mismatch of the tag, and an event of its own (R285, R286). -/
theorem cell0_alarm {s : State} {c key : Bytes} {d : Nat} (hk : s.bar.key = some key) (ht : (Bar.parse c).type ≠ 1)
    (hlen : c.length = 32) (hd : d < 1024) (hseq : (Bar.parse c).seq = (s.bar.rx.exp + d) % 65536) :
    ∃ t, exec (.barrierCellReceive 0 ⟨c, .compare⟩) s = .next t ∧ t.bar.rx = { s.bar.rx with drops := min (s.bar.rx.drops + 1) 16 } ∧
      t.bar.ready = s.bar.ready ∧ counted t 0x1030 5 = sat32 (counted s 0x1030 5) 1 ∧ counted t 0xCF20 7 = sat32 (counted s 0xCF20 7) 1 ∧
      t.pers = s.pers ∧ t.slots = s.slots ∧ t.field = s.field := by
  set r : Bar.Rx := ⟨Bar.dropped s.bar.rx, (Bar.parse c).type, none, false, true, false, 0, false, 0⟩ with hrdef
  have hr : Bar.rxCell 0 key s.bar.rx c true (fun h => (Bar.msg0 h).isSome) = r := rxCell_dropped _ hlen hd hseq (.inl rfl)
  have h := cellAtCore_keyed hk (if_neg fun h => ht h.1) true
  dsimp only at h
  rw [hr, if_pos ⟨rfl, rfl⟩, show (r.done.bind fun p => Bar.asLane0 p.1 p.2) = none from rfl, tookIn_refused rfl] at h
  replace h : cellAtCore s c true = compareAlarm (checked { s with bar := { s.bar with rx := r.lane } } r) := h
  set u := checked { s with bar := { s.bar with rx := r.lane } } r with hu
  have htal : TalliesOnly { s with bar := { s.bar with rx := r.lane } } u := talliesOnly_checked _ r
  have hs : SensesOnly (incHw u 0xCF20 7 1) (compareAlarm u) := sensesOnly_sensorEvent _ _ _ _ _
  obtain ⟨h5, h7⟩ := counted_checked_failed (s := { s with bar := { s.bar with rx := r.lane } }) (r := r) rfl rfl
  refine ⟨compareAlarm u, (exec_receive0 c .compare s).trans (coreCmd_next h ?_ ?_), ?_, ?_, ?_, ?_, ?_, ?_, ?_⟩
  · rw [hs, htal]; rfl
  · rw [hs, htal]; rfl
  · rw [hs, htal]; rfl
  · rw [hs, htal]; rfl
  · rw [counted_compareAlarm_other u (by decide)]; exact h5
  · rw [(compareAlarm_stands u).2.1]; exact congrArg (sat32 · 1) h7
  · rw [hs, htal]; rfl
  · rw [hs, htal]; rfl
  · rw [hs, htal]; rfl

end Sys2Proof.Machine
end

section
/-! SUPPORT. Cells at the field die's receiver, and what a cell leaves alone at either end (R166 to R168, R178). -/

namespace Sys2Proof.Machine

/-! The receiver of the field die. -/

/-- The lane-1 messages that a cell leaves to be taken up: IDLE is none. -/
def Bar.keeps1 : Option Lane1 → List Lane1
  | some .idle => []
  | some m => [m]
  | none => []

/-- The field die after its receiver has made r and message m of a cell. -/
def fieldTook (f : Field) (r : Bar.Rx) (m : Option Lane1) : Field :=
  { f with rx := r.lane, ready := f.ready ++ Bar.keeps1 m, cellsDropped := sat32 f.cellsDropped (if r.malformed ∨ r.badTag ∨ r.outside then 1 else 0),
           heard := if r.accepted then f.time else f.heard }

theorem fieldTook_guards (f : Field) (r : Bar.Rx) (m : Option Lane1) : guardStands f (fieldTook f r m) := ⟨rfl, rfl, rfl, rfl, rfl, rfl, rfl, rfl, rfl, rfl⟩

/-- The state in which a cell of lane 1 has been counted as sent (R175, R178). -/
def cellSent (s : State) (c : Bytes) : State := updBar (sentCells s 1 (decide ((Bar.parse c).type = 0x84))) fun x => { x with spoke := s.boot.since }

theorem cellSent_parts (s : State) (c : Bytes) : LinkOnly s (cellSent s c) ∧ (cellSent s c).field = s.field ∧ (cellSent s c).bar = { s.bar with spoke := s.boot.since } ∧
    counted (cellSent s c) 0x1030 4 = counted s 0x1030 4 + 1 := by
  have h := talliesOnly_sentCells s 1 (decide ((Bar.parse c).type = 0x84))
  obtain ⟨hbar, hfield⟩ := h.ends
  exact ⟨h.linkOnly.trans rfl, hfield, congrArg (fun b : Bar => { b with spoke := s.boot.since }) hbar, counted_sentCells s 1 _⟩

/-- The receiver of lane 1 changes the field die as it says, and of the core die's end at most what waits there and what it has sent. -/
structure TakenAt (s : State) (f : Field) (t : State) : Prop where
  link : LinkOnly s t
  field : t.field = f
  received : t.bar.rx = s.bar.rx ∧ t.bar.ready = s.bar.ready
  sent : counted t 0x1030 4 = counted s 0x1030 4 + 1

theorem TakenAt.ends {s u : State} {f : Field} (h : TakenAt s f u) (g : Field → Field) (b : Bar → Bar) (hb : ∀ x : Bar, (b x).rx = x.rx ∧ (b x).ready = x.ready) :
    TakenAt s (g f) (updBar (onField u g) b) := by
  obtain ⟨hrx, hready⟩ := hb u.bar
  exact ⟨h.link.trans rfl, congrArg g h.field, ⟨hrx.trans h.received.1, hready.trans h.received.2⟩, h.sent⟩

theorem takenAt_cellSent (s : State) (c : Bytes) : TakenAt s s.field (cellSent s c) := by
  obtain ⟨hlink, hfield, hbar, hsent⟩ := cellSent_parts s c
  exact ⟨hlink, hfield, by rw [hbar]; exact ⟨rfl, rfl⟩, hsent⟩

/-- What the core die's end knows of a cell of message m (R175). -/
def barSent (r : Bar.Rx) (m : Option Lane1) (x : Bar) : Bar :=
  { x with lane1 := (match m with | some y => x.lane1.erase y | none => x.lane1), sent := if r.accepted then max x.sent (r.lane.exp - 1) else x.sent + 1 }

/-- A cell that is neither HELLO nor KEY, tried under the link key. -/
theorem cellAtField_keyed {s : State} {c key : Bytes} (hrun : s.field.run = true) (hk : s.field.key = some key) (h1 : (Bar.parse c).type ≠ 0x81)
    (h2 : (Bar.parse c).type ≠ 0x82) {r : Bar.Rx} (hr : Bar.rxCell 1 key s.field.rx c false (fun h => (Bar.msg1 h).isSome) = r) {m : Option Lane1}
    (hm : (r.done.bind fun p => Bar.asLane1 p.1 p.2) = m) : TakenAt s (fieldTook s.field r m) (cellAtField s c) := by
  have hu := takenAt_cellSent s c
  unfold cellAtField
  extract_lets u h keying raw
  replace hu : TakenAt s s.field u := hu
  have hraw : raw = none := if_neg (by simp [keying, h, h1, h2])
  clear_value raw keying u
  rw [hu.field, hrun, hraw, if_neg (by decide)]
  dsimp only
  rw [hk]
  dsimp only
  rw [hr, hm]
  have ht := hu.ends (fun f => fieldTook f r m) (barSent r m) fun x => ⟨rfl, rfl⟩
  cases m with
  | none => exact ht
  | some m => cases m <;> exact ht

/-- A cell command at the field die. -/
theorem exec_receive1 (c : Bytes) (p : Phys) (s : State) : exec (.barrierCellReceive 1 ⟨c, p⟩) s = coreCmd (fun s => cellAtField s c) s := rfl

/-- A cell that the receiver of lane 1 takes. -/
theorem cell1_taken {s : State} {c key : Bytes} (p : Phys) (hrun : s.field.run = true) (hk : s.field.key = some key) (h1 : (Bar.parse c).type ≠ 0x81)
    (h2 : (Bar.parse c).type ≠ 0x82) {l : Lane} {ty d n : Nat} {done : Option (Bar.CellHdr × Bytes)} {m : Option Lane1}
    (hr : Bar.rxCell 1 key s.field.rx c false (fun h => (Bar.msg1 h).isSome) = ⟨l, ty, done, true, false, false, d, false, n⟩)
    (hm : (done.bind fun p => Bar.asLane1 p.1 p.2) = m) :
    ∃ t, exec (.barrierCellReceive 1 ⟨c, p⟩) s = .next t ∧ t.field.rx = l ∧ t.field.ready = s.field.ready ++ Bar.keeps1 m ∧ t.field.heard = s.field.time ∧
      counted t 0x1030 4 = counted s 0x1030 4 + 1 ∧ dieFrame s t ∧ guardStands s.field t.field := by
  have ht := cellAtField_keyed hrun hk h1 h2 hr hm
  refine ⟨_, ht.link.exec (f := fun s => cellAtField s c) (exec_receive1 c p s), ?_, ?_, ?_, ht.sent, ht.link.dieFrame, ?_⟩
  · rw [ht.field]; rfl
  · rw [ht.field]; rfl
  · rw [ht.field]; rfl
  · rw [ht.field]; exact fieldTook_guards ..

/-- A cell of the window whose tag is wrong is dropped, and counted. -/
theorem cell1_dropped {s : State} {c key : Bytes} (p : Phys) {d : Nat} (hrun : s.field.run = true) (hk : s.field.key = some key) (h1 : (Bar.parse c).type ≠ 0x81)
    (h2 : (Bar.parse c).type ≠ 0x82) (hlen : c.length = 32) (hd : d < 1024) (hseq : (Bar.parse c).seq = (s.field.rx.exp + d) % 65536)
    (hbad : (Bar.parse c).tag ≠ Bar.tag key (s.field.rx.exp + d) 1 (c.take 28)) :
    ∃ t, exec (.barrierCellReceive 1 ⟨c, p⟩) s = .next t ∧ t.field.rx = { s.field.rx with drops := min (s.field.rx.drops + 1) 16 } ∧
      t.field.ready = s.field.ready ∧ t.field.cellsDropped = sat32 s.field.cellsDropped 1 ∧ dieFrame s t ∧ guardStands s.field t.field := by
  have ht := cellAtField_keyed hrun hk h1 h2 (rxCell_dropped (fun h => (Bar.msg1 h).isSome) hlen hd hseq (.inr hbad)) rfl
  refine ⟨_, ht.link.exec (f := fun s => cellAtField s c) (exec_receive1 c p s), ?_, ?_, ?_, ht.link.dieFrame, ?_⟩
  · rw [ht.field]; rfl
  · rw [ht.field]; exact List.append_nil _
  · rw [ht.field]; rfl
  · rw [ht.field]; exact fieldTook_guards ..

/-! What any cell leaves alone. -/

/-- The store, the fuses, sessions, releases, the host link, the cells of the applets and the guard lines stand. -/
def CellStands (s t : State) : Prop :=
  t.pers = s.pers ∧ t.otp = s.otp ∧ t.sessions = s.sessions ∧ t.slots = s.slots ∧ t.host = s.host ∧ t.twc = s.twc ∧ guardStands s.field t.field ∧ t.pending = s.pending

theorem LinkOnly.cellStands {s t : State} (h : LinkOnly s t) (hg : guardStands s.field t.field) : CellStands s t := by
  refine ⟨?_, ?_, ?_, ?_, ?_, ?_, hg, ?_⟩ <;> rw [h]

theorem CellStands.trans {a b c : State} (h : CellStands a b) (g : CellStands b c) : CellStands a c := by
  obtain ⟨h1, h2, h3, h4, h5, h6, ⟨k1, k2, k3, k4, k5, k6, k7, k8, k9, k10⟩, h8⟩ := h
  obtain ⟨g1, g2, g3, g4, g5, g6, ⟨l1, l2, l3, l4, l5, l6, l7, l8, l9, l10⟩, g8⟩ := g
  exact ⟨g1.trans h1, g2.trans h2, g3.trans h3, g4.trans h4, g5.trans h5, g6.trans h6, ⟨l1.trans k1, l2.trans k2, l3.trans k3, l4.trans k4, l5.trans k5,
    l6.trans k6, l7.trans k7, l8.trans k8, l9.trans k9, l10.trans k10⟩, g8.trans h8⟩

theorem guardStands_refl (f : Field) : guardStands f f := ⟨rfl, rfl, rfl, rfl, rfl, rfl, rfl, rfl, rfl, rfl⟩

theorem TalliesOnly.cellStands {s t : State} (h : TalliesOnly s t) : CellStands s t := h.linkOnly.cellStands (by rw [h.ends.2]; exact guardStands_refl _)

theorem cellStands_compareAlarm (s : State) : CellStands s (compareAlarm s) := by
  have hs : SensesOnly (incHw s 0xCF20 7 1) (compareAlarm s) := sensesOnly_sensorEvent _ _ _ _ _
  rw [hs]
  exact ⟨rfl, rfl, rfl, rfl, rfl, rfl, guardStands_refl _, rfl⟩

theorem cellStands_core (s : State) (c : Bytes) (alarm : Bool) : CellStands s (cellAtCore s c alarm) := by
  cases hraw : (if (Bar.parse c).type = 1 ∧ Bar.helloCell (Bar.parse c) c then Bar.msg0 (Bar.parse c) else none) with
  | some m =>
    have htook : CellStands s (tookCells (updBar s fun x => { x with ready := x.ready ++ [m], heard := s.boot.since }) 1) :=
      CellStands.trans ((linkOnly_updBar s _).cellStands (guardStands_refl _)) (talliesOnly_tookCells _ 1).cellStands
    unfold cellAtCore
    dsimp only
    rw [hraw]
    exact htook.trans ((linkOnly_onField _ _).cellStands ⟨rfl, rfl, rfl, rfl, rfl, rfl, rfl, rfl, rfl, rfl⟩)
  | none =>
    cases hk : s.bar.key with
    | none =>
      unfold cellAtCore
      dsimp only
      rw [hraw, hk]
      exact (LinkOnly.refl s).cellStands (guardStands_refl _)
    | some key =>
      rw [cellAtCore_keyed hk hraw alarm]
      generalize (Bar.rxCell 0 key s.bar.rx c alarm fun h => (Bar.msg0 h).isSome) = r
      obtain ⟨hlink, -, hguards⟩ := tookIn_parts s r (r.done.bind fun p => Bar.asLane0 p.1 p.2)
      have hu := (hlink.cellStands hguards).trans (talliesOnly_checked _ r).cellStands
      refine CellStands.trans ?_ (talliesOnly_discards _ r).cellStands
      split
      · exact hu.trans (cellStands_compareAlarm _)
      · exact hu

theorem TakenAt.cellStands {s t : State} {f : Field} (h : TakenAt s f t) (hg : guardStands s.field f) :
    CellStands s t ∧ t.bar.rx = s.bar.rx ∧ t.bar.ready = s.bar.ready :=
  ⟨h.link.cellStands (by rw [h.field]; exact hg), h.received⟩

theorem cellStands_field (s : State) (c : Bytes) : CellStands s (cellAtField s c) ∧ (cellAtField s c).bar.rx = s.bar.rx ∧ (cellAtField s c).bar.ready = s.bar.ready := by
  have hu := takenAt_cellSent s c
  have hsame := hu.cellStands (guardStands_refl _)
  unfold cellAtField
  extract_lets u h keying raw
  replace hu : TakenAt s s.field u := hu
  replace hsame : CellStands s u ∧ u.bar.rx = s.bar.rx ∧ u.bar.ready = s.bar.ready := hsame
  clear_value raw keying u
  split
  · exact hsame
  · cases raw with
    | some m => exact (hu.ends (fun f => { f with ready := f.ready ++ [m], heard := f.time }) (fun x => { x with lane1 := x.lane1.erase m })
        fun x => ⟨rfl, rfl⟩).cellStands ⟨rfl, rfl, rfl, rfl, rfl, rfl, rfl, rfl, rfl, rfl⟩
    | none =>
      dsimp only
      rw [hu.field]
      cases s.field.key with
      | none =>
        dsimp only
        split
        · exact (hu.ends (fun f => { f with cellsDropped := sat32 f.cellsDropped 1 }) id fun x => ⟨rfl, rfl⟩).cellStands ⟨rfl, rfl, rfl, rfl, rfl, rfl, rfl, rfl, rfl, rfl⟩
        · exact hsame
      | some key =>
        dsimp only
        generalize (Bar.rxCell 1 key s.field.rx c false fun h => (Bar.msg1 h).isSome) = r
        generalize (r.done.bind fun p => Bar.asLane1 p.1 p.2) = m
        have ht := (hu.ends (fun f => fieldTook f r m) (barSent r m) fun x => ⟨rfl, rfl⟩).cellStands (fieldTook_guards s.field r m)
        cases m with
        | none => exact ht
        | some m => cases m <;> exact ht

/-- Whatever a cell holds, it leaves these alone at either end. -/
theorem cell_stands (c : Bytes) (p : Phys) (s : State) (lane : Fin 2) : ∃ t, exec (.barrierCellReceive lane ⟨c, p⟩) s = .next t ∧ t.pers = s.pers ∧ t.otp = s.otp ∧
    t.sessions = s.sessions ∧ t.slots = s.slots ∧ t.host = s.host ∧ t.twc = s.twc ∧ guardStands s.field t.field ∧
    (lane = 1 → t.bar.rx = s.bar.rx ∧ t.bar.ready = s.bar.ready) := by
  obtain rfl | rfl : lane = 0 ∨ lane = 1 := by omega
  · obtain ⟨h1, h2, h3, h4, h5, h6, h7, h8⟩ := cellStands_core s c (decide (p = .compare))
    exact ⟨_, (exec_receive0 c p s).trans (coreCmd_next rfl h8 h2), h1, h2, h3, h4, h5, h6, h7, fun h => absurd h (by decide)⟩
  · obtain ⟨⟨h1, h2, h3, h4, h5, h6, h7, h8⟩, hbar⟩ := cellStands_field s c
    exact ⟨_, (exec_receive1 c p s).trans (coreCmd_next rfl h8 h2), h1, h2, h3, h4, h5, h6, h7, fun _ => hbar⟩

end Sys2Proof.Machine
end

section
/-! SUPPORT. The cells of messages that are no link cells, by their types (R163, R164, R168). -/

namespace Sys2Proof.Machine

theorem keeps_message {m : Lane0} (h : m ≠ .idle) : Bar.keeps (some m) = [m] := by
  unfold Bar.keeps
  grind

theorem keeps1_message {m : Lane1} (h : m ≠ .idle) : Bar.keeps1 (some m) = [m] := by
  unfold Bar.keeps1
  grind

/-- An IDLE message comes in a cell of its own type. -/
theorem msg0_idle {h : Bar.CellHdr} (hm : Bar.msg0 h = some .idle) : h.type = 4 := by
  unfold Bar.msg0 at hm
  grind

theorem msg1_idle {h : Bar.CellHdr} (hm : Bar.msg1 h = some .idle) : h.type = 0x84 := by
  unfold Bar.msg1 Bar.setting at hm
  grind

/-- The report cells of lane 0 (R171) come each in one cell. -/
theorem report_reads {h : Bar.CellHdr} {m : Lane0} (hty : h.type ∈ [0x31, 0x32, 0x33, 0x34, 0x35]) (hpos : h.pos = 0) (hm : Bar.msg0 h = some m) :
    Bar.Reads 0 h (fun h => (Bar.msg0 h).isSome) ∧ Bar.spans h.type = false ∧ Bar.asLane0 h h.payload = some m ∧ m ≠ .idle ∧ h.type ≠ 1 := by
  have hs : Bar.spans h.type = false := by
    unfold Bar.spans
    simp only [List.mem_cons, List.not_mem_nil, or_false] at hty
    exact decide_eq_false (by omega)
  have hne : h.type ≠ 1 ∧ h.type ≠ 4 ∧ h.type ≠ 0x11 ∧ h.type ≠ 0x21 := by
    simp only [List.mem_cons, List.not_mem_nil, or_false] at hty
    omega
  obtain ⟨h1, h4, h11, h21⟩ := hne
  refine ⟨⟨?_, ?_⟩, hs, ?_, ?_, h1⟩
  · rw [if_pos rfl, List.contains_iff_mem]
    exact List.mem_append_right [0x01, 0x03, 0x04, 0x11, 0x21] hty
  · rw [hs, hm]
    simp [hpos]
  · unfold Bar.asLane0
    rw [if_neg h11, if_neg h21, hm]
  · rintro rfl
    exact h4 (msg0_idle hm)

/-- The ROUTE, GUARD_SET and NET_CONFIG cells of lane 1 (R170, R172) come each in one cell. -/
theorem setting_reads {h : Bar.CellHdr} {m : Lane1} (hty : h.type ∈ [0xA2, 0xB1, 0xC1]) (hpos : h.pos = 0) (hm : Bar.msg1 h = some m) :
    Bar.Reads 1 h (fun h => (Bar.msg1 h).isSome) ∧ Bar.spans h.type = false ∧ Bar.asLane1 h h.payload = some m ∧ m ≠ .idle := by
  have hs : Bar.spans h.type = false := by
    unfold Bar.spans
    simp only [List.mem_cons, List.not_mem_nil, or_false] at hty
    exact decide_eq_false (by omega)
  have hne : h.type ≠ 0x84 ∧ h.type ≠ 0x91 ∧ h.type ≠ 0xA1 := by
    simp only [List.mem_cons, List.not_mem_nil, or_false] at hty
    omega
  obtain ⟨h84, h91, hA1⟩ := hne
  refine ⟨⟨?_, ?_⟩, hs, ?_, ?_⟩
  · rw [if_neg (by decide), List.contains_iff_mem]
    simp only [List.mem_cons, List.not_mem_nil, or_false] at hty ⊢
    omega
  · rw [hs, hm]
    simp [hpos]
  · unfold Bar.asLane1
    rw [if_neg h91, if_neg hA1, hm]
  · rintro rfl
    exact h84 (msg1_idle hm)

/-- BDP_REQ and CHF_UP span cells: any part but the first states no length of its own (R168). -/
theorem part_reads {h : Bar.CellHdr} (hty : h.type ∈ [0x11, 0x21]) (hlen : h.type = 0x11 → 2 ≤ h.pos ∨ 2 ≤ h.len) :
    Bar.Reads 0 h (fun h => (Bar.msg0 h).isSome) ∧ Bar.spans h.type = true := by
  have hs : Bar.spans h.type = true := by
    unfold Bar.spans
    simp only [List.mem_cons, List.not_mem_nil, or_false] at hty
    exact decide_eq_true (by omega)
  simp only [List.mem_cons, List.not_mem_nil, or_false] at hty
  refine ⟨⟨?_, ?_⟩, hs⟩
  · rw [if_pos rfl, List.contains_iff_mem]
    simp only [List.mem_cons, List.not_mem_nil, or_false]
    omega
  · rw [hs]
    simp only [↓reduceIte, Bool.or_eq_true, decide_eq_true_eq]
    by_cases h11 : h.type = 0x11
    · exact .inr (hlen h11)
    · exact .inl (by omega)

/-- What such parts make is a message, and no IDLE. -/
theorem asLane0_part {h : Bar.CellHdr} {b : Bytes} {m : Lane0} (hty : h.type ∈ [0x11, 0x21]) (hm : Bar.asLane0 h b = some m) : m ≠ .idle := by
  unfold Bar.asLane0 at hm
  simp only [List.mem_cons, List.not_mem_nil, or_false] at hty
  rintro rfl
  split_ifs at hm with h1 h2
  · cases hm
  · cases hm
  · exact hty.elim h1 h2

section
variable {s : State} {c key : Bytes} {p : Phys}

/-- Cells of lane 0 under a link key with no alarm (R165 to R168). -/
theorem cells0_checked (hk : s.bar.key = some key) (hp : p ≠ .compare) {d : Nat} {m : Lane0} (hg : GoodCell c key 0 s.bar.rx d)
    (hty : (Bar.parse c).type ∈ [0x31, 0x32, 0x33, 0x34, 0x35]) (hpos : (Bar.parse c).pos = 0) (hm : Bar.msg0 (Bar.parse c) = some m) :
    ∃ t, exec (.barrierCellReceive 0 ⟨c, p⟩) s = .next t ∧ t.bar.rx.exp = s.bar.rx.exp + d + 1 ∧ t.bar.rx.drops = 0 ∧
      t.bar.ready = s.bar.ready ++ [m] ∧ t.bar.heard = s.boot.since ∧ counted t 0x1030 3 = counted s 0x1030 3 + 1 ∧ dieFrame s t := by
  obtain ⟨hreads, hspan, has, hidle, h1⟩ := report_reads hty hpos hm
  obtain ⟨n, hr⟩ := rxCell_single hg hreads hspan
  obtain ⟨t, hexec, hrx, hready, hheard, hcount, hframe⟩ := cell0_taken hk h1 hp hr (m := some m) has
  exact ⟨t, hexec, by rw [hrx]; rfl, by rw [hrx]; rfl, by rw [hready, keeps_message hidle], hheard, hcount, hframe⟩

theorem firstPart_kept (hk : s.bar.key = some key) (hp : p ≠ .compare) (hg : GoodCell c key 0 s.bar.rx 0) (hty : (Bar.parse c).type ∈ [0x11, 0x21])
    (hpos : (Bar.parse c).pos = 1) (hlen : (Bar.parse c).type = 0x11 → 2 ≤ (Bar.parse c).len) :
    ∃ t, exec (.barrierCellReceive 0 ⟨c, p⟩) s = .next t ∧ t.bar.rx.exp = s.bar.rx.exp + 1 ∧ t.bar.ready = s.bar.ready ∧
      SMap.look t.bar.rx.parts (Bar.parse c).type = some (Bar.parse c).payload ∧ dieFrame s t := by
  obtain ⟨hreads, hspan⟩ := part_reads hty fun h => .inr (hlen h)
  obtain ⟨n, hr⟩ := rxCell_first hg hreads hspan hpos
  have h1 : (Bar.parse c).type ≠ 1 := fun h => by rw [h] at hty; revert hty; decide
  obtain ⟨t, hexec, hrx, hready, -, -, hframe⟩ := cell0_taken hk h1 hp hr (m := none) rfl
  exact ⟨t, hexec, by rw [hrx], by rw [hready]; exact List.append_nil _, by rw [hrx]; exact SMap.look_put_same .., hframe⟩

theorem lastPart_completes (hk : s.bar.key = some key) (hp : p ≠ .compare) (hg : GoodCell c key 0 s.bar.rx 0) (hty : (Bar.parse c).type ∈ [0x11, 0x21]) {b : Bytes}
    {m : Lane0} (hpos : (Bar.parse c).pos = 3) (hb : SMap.look s.bar.rx.parts (Bar.parse c).type = some b)
    (hm : Bar.asLane0 (Bar.parse c) (b ++ (Bar.parse c).payload) = some m) :
    ∃ t, exec (.barrierCellReceive 0 ⟨c, p⟩) s = .next t ∧ t.bar.rx.exp = s.bar.rx.exp + 1 ∧ t.bar.ready = s.bar.ready ++ [m] ∧
      SMap.look t.bar.rx.parts (Bar.parse c).type = none ∧ dieFrame s t := by
  obtain ⟨hreads, hspan⟩ := part_reads hty fun _ => .inl (by omega)
  obtain ⟨n, hr⟩ := rxCell_last hg hreads hspan hpos hb
  have h1 : (Bar.parse c).type ≠ 1 := fun h => by rw [h] at hty; revert hty; decide
  obtain ⟨t, hexec, hrx, hready, -, -, hframe⟩ := cell0_taken hk h1 hp hr (m := some m) hm
  exact ⟨t, hexec, by rw [hrx], by rw [hready, keeps_message (asLane0_part hty hm)], by rw [hrx, SMap.look_del, if_pos rfl], hframe⟩

/-- Cells of lane 1 under a link key (R165 to R168). -/
theorem cells1_checked (hrun : s.field.run = true) (hk : s.field.key = some key) {d : Nat} {m : Lane1} (hg : GoodCell c key 1 s.field.rx d)
    (hty : (Bar.parse c).type ∈ [0xA2, 0xB1, 0xC1]) (hpos : (Bar.parse c).pos = 0) (hm : Bar.msg1 (Bar.parse c) = some m) :
    ∃ t, exec (.barrierCellReceive 1 ⟨c, p⟩) s = .next t ∧ t.field.rx.exp = s.field.rx.exp + d + 1 ∧ t.field.rx.drops = 0 ∧
      t.field.ready = s.field.ready ++ [m] ∧ t.field.heard = s.field.time ∧ counted t 0x1030 4 = counted s 0x1030 4 + 1 ∧ dieFrame s t ∧
      guardStands s.field t.field := by
  obtain ⟨hreads, hspan, has, hidle⟩ := setting_reads hty hpos hm
  obtain ⟨n, hr⟩ := rxCell_single hg hreads hspan
  have h1 : (Bar.parse c).type ≠ 0x81 := fun h => by rw [h] at hty; revert hty; decide
  have h2 : (Bar.parse c).type ≠ 0x82 := fun h => by rw [h] at hty; revert hty; decide
  obtain ⟨t, hexec, hrx, hready, hheard, hcount, hframe, hguards⟩ := cell1_taken p hrun hk h1 h2 hr (m := some m) has
  exact ⟨t, hexec, by rw [hrx]; rfl, by rw [hrx]; rfl, by rw [hready, keeps1_message hidle], hheard, hcount, hframe, hguards⟩

end

end Sys2Proof.Machine
end

section
/-! SUPPORT. IDLE cells, the timers of the link, and its loss at either end (R166, R175, R176). -/

namespace Sys2Proof.Machine

theorem exec_whenField {c : Instr} {g : Field → Field} {s : State} (hexec : exec c s = coreCmd (fun s => whenField s g) s) (hrun : s.field.run = true) :
    exec c s = .next { s with field := Fld.reportChange s.field (g s.field) } := by
  have h : whenField s g = { s with field := Fld.reportChange s.field (g s.field) } := if_pos hrun
  exact hexec.trans (coreCmd_next h rfl rfl)

/-- Off the line a change of the report bytes sends nothing (R171). -/
theorem reportChange_offLine {f g : Field} (h : g.link ≠ 2) : Fld.reportChange f g = g := by
  unfold Fld.reportChange Fld.send
  rw [if_neg (c := g.notice = 1 ∧ g.link = 2) (fun hg => h hg.2), if_neg h, ite_self]

/-! IDLE cells (R175). -/

theorem idleCells (lane : Nat) (key : Bytes) (x : Nat) : (Bar.formCells lane key (x + 1) (if lane = 0 then 0x04 else 0x84) [0]).length = 1 := by
  unfold Bar.formCells
  rw [show chunks 24 ([0] : Bytes) = [[0]] from by decide]
  rfl

theorem takeCells_exp (l : Lane) (type x y : Nat) : (Bar.takeCells l type x y).1.exp = y := by
  unfold Bar.takeCells
  split <;> rfl

theorem idle0_sent (key : Bytes) (x : Nat) : Bar.sentAfter0 x (Bar.cells0 key x .idle).length .idle = x + 1 := congrArg (x + ·) (idleCells 0 key x)

theorem idle1_sent (key : Bytes) (x : Nat) : Bar.sentAfter1 x (Bar.cells1 key x .idle).length .idle = x + 1 := congrArg (x + ·) (idleCells 1 key x)

/-- What an IDLE cell does at the core die while the link is up. -/
theorem cross0_idle {s : State} (hup : s.bar.up = true) : ∃ u n k r, TalliesOnly (leave0 s .idle) u ∧ r.exp = s.field.sent + 2 ∧
    cross0 s .idle = incHw (incHw (updBar (updBar u fun x => { x with heard := s.boot.since }) fun x => { x with rx := r }) 0x1030 7 n) 0x1030 9 k := by
  unfold cross0
  dsimp only
  rw [if_neg (by simp [hup]), if_neg (by simp)]
  exact ⟨_, _, _, _, talliesOnly_tookCells _ _, (takeCells_exp _ _ _ _).trans (congrArg (· + 1) (idle0_sent _ _)), rfl⟩

/-- An IDLE cell crosses to the core die. -/
theorem idleCell0_crosses {s : State} (hup : s.bar.up = true) (hready : s.bar.ready = []) (hcross : crosses0 s .idle = true) :
    ∃ t, exec (.idleCell 0) s = .next t ∧ t.field.lane0 = s.field.lane0.erase .idle ∧ t.bar.rx.exp = s.field.sent + 2 ∧ t.bar.heard = s.boot.since ∧ dieFrame s t := by
  have hidle : Lnk.idle s 0 = cross0 s .idle := by
    unfold Lnk.idle arrive0
    rw [if_pos rfl, if_pos hcross, if_pos hready]
  obtain ⟨u, n, k, r, htal, hr, hc⟩ := cross0_idle hup
  obtain ⟨hbar, hfield⟩ := htal.ends
  have hlink : LinkOnly s (cross0 s .idle) := by
    rw [hc]
    exact (linkOnly_onField s _).trans (htal.linkOnly.trans ((linkOnly_updBar _ _).trans ((linkOnly_updBar _ _).trans ((linkOnly_incHw _ _ _ _).trans (linkOnly_incHw _ _ _ _)))))
  refine ⟨cross0 s .idle, (LinkOnly.exec (f := fun s => Lnk.idle s 0) (by rw [hidle]; exact hlink) rfl).trans (by rw [hidle]), ?_, ?_, ?_, hlink.dieFrame⟩
  · rw [hc]
    exact congrArg Field.lane0 hfield
  · rw [hc]
    exact hr
  · rw [hc]
    rfl

/-- What the cells of a lane-1 message do where they cross: they leave the queue, are counted, and reach a field die that runs. -/
theorem cross1_sends (s : State) (m : Lane1) : ∃ (b : Bar → Bar) (u : State), (∀ x : Bar, (b x).lane1 = x.lane1.erase m) ∧ TalliesOnly (updBar s b) u ∧
    cross1 s m = if !s.field.run then u
      else if Bar.isLink1 m ∧ m ≠ .idle then onField u fun f => { f with heard := f.time }
      else if s.field.link ≠ 2 then u
      else onField u fun f => { f with
        rx := (Bar.takeCells f.rx (Bar.type1 m) (s.bar.sent + 1) (Bar.sentAfter1 s.bar.sent (Bar.cells1 (s.bar.key.getD []) s.bar.sent m).length m + 1)).1
        heard := f.time } :=
  ⟨_, _, fun _ => rfl, talliesOnly_sentCells _ _ _, rfl⟩

/-- An IDLE cell crosses to the field die, which takes it where its link is up. -/
theorem idleCell1_crosses {s : State} (hready : s.field.ready = []) (hcross : crosses1 s .idle = true) :
    ∃ t, exec (.idleCell 1) s = .next t ∧ t.bar.lane1 = s.bar.lane1.erase .idle ∧
      (s.field.run = true → s.field.link = 2 → t.field.rx.exp = s.bar.sent + 2 ∧ t.field.heard = s.field.time) ∧ dieFrame s t := by
  have hidle : Lnk.idle s 1 = cross1 s .idle := by
    unfold Lnk.idle arrive1
    rw [if_neg (by decide), if_pos hcross, if_pos hready]
  obtain ⟨b, u, hb, htal, hc⟩ := cross1_sends s .idle
  obtain ⟨hbar, hfield⟩ := htal.ends
  have hu : LinkOnly s u := (linkOnly_updBar s b).trans htal.linkOnly
  rw [if_neg (c := Bar.isLink1 .idle = true ∧ Lane1.idle ≠ .idle) (by simp)] at hc
  have hlink : LinkOnly s (cross1 s .idle) ∧ (cross1 s .idle).bar.lane1 = s.bar.lane1.erase .idle := by
    have hlane : u.bar.lane1 = s.bar.lane1.erase .idle := by
      rw [hbar]
      exact hb s.bar
    rw [hc]
    split_ifs
    · exact ⟨hu, hlane⟩
    · exact ⟨hu, hlane⟩
    · exact ⟨hu.trans rfl, hlane⟩
  refine ⟨cross1 s .idle, (LinkOnly.exec (f := fun s => Lnk.idle s 1) (by rw [hidle]; exact hlink.1) rfl).trans (by rw [hidle]), hlink.2, ?_, hlink.1.dieFrame⟩
  intro hrun hup
  rw [hc, if_neg (by simp [hrun]), if_neg (by simp [hup])]
  refine ⟨?_, congrArg Field.time hfield⟩
  rw [idle1_sent]
  exact takeCells_exp _ _ _ _

/-! The timers of the link (R175). -/

theorem idleTimer0 {s : State} (hrun : s.field.run = true) (hlink : s.field.link = 2) (hq : s.field.lane0 = []) (ht : s.field.spoke + 10 ≤ s.field.time) :
    exec (.idleTimer 0) s = .next { s with field := { s.field with lane0 := [.idle] } } := by
  have hidle : Fld.idle s.field = { s.field with lane0 := [.idle] } := if_pos ⟨hlink, hq, ht⟩
  have hquiet : Fld.reportChange s.field (Fld.idle s.field) = { s.field with lane0 := [.idle] } := by
    rw [hidle]
    exact reportChange_unseen ⟨rfl, rfl, rfl, rfl⟩
  rw [exec_whenField (g := Fld.idle) rfl hrun, hquiet]

theorem idleTimer1 {s : State} (hup : s.bar.up = true) (hq : s.bar.lane1 = []) (ht : s.bar.spoke + 10 ≤ s.boot.since) :
    exec (.idleTimer 1) s = .next { s with bar := { s.bar with lane1 := [.idle] } } := by
  have h : Lnk.idleTimer s 1 = { s with bar := { s.bar with lane1 := [.idle] } } := (if_neg (by decide)).trans (if_pos ⟨hup, hq, ht⟩)
  exact coreCmd_next (f := fun s => Lnk.idleTimer s 1) h rfl rfl

/-! The link is lost (R175, R176). -/

theorem leaveLink_alone (f : Field) (n : Nat) : FieldAlone (Fld.leaveLink f n) := ⟨rfl, rfl, rfl, rfl, rfl, rfl, rfl, rfl⟩

theorem leaveLink_ins (f : Field) (n : Nat) : (Fld.leaveLink f n).ins = f.ins := rfl

/-- A command that ends the link at the field die. -/
theorem fieldLoses {c : Instr} {g : Field → Field} {s : State} (hexec : exec c s = .next { s with field := Fld.reportChange s.field (g s.field) })
    (hg : g s.field = Fld.leaveLink s.field 0) : AtField c s fun g => g.link = 0 ∧ g.lane0 = [] ∧ FieldAlone g ∧ g.ins = s.field.ins := by
  have hoff : (Fld.leaveLink s.field 0).link ≠ 2 := show 0 ≠ 2 by decide
  rw [hg, reportChange_offLine hoff] at hexec
  exact ⟨Fld.leaveLink s.field 0, hexec, rfl, rfl, leaveLink_alone s.field 0, leaveLink_ins s.field 0⟩

theorem fieldDropLimit_loses {s : State} (hrun : s.field.run = true) (hlink : s.field.link = 2) (hd : 16 ≤ s.field.rx.drops) :
    AtField (.cellDropLimit 1) s fun g => g.link = 0 ∧ g.lane0 = [] ∧ FieldAlone g ∧ g.ins = s.field.ins :=
  fieldLoses (g := Fld.dropLimit) (exec_whenField rfl hrun) (if_pos ⟨hlink, hd⟩)

theorem fieldTimeout_loses {s : State} (hrun : s.field.run = true) (hlink : s.field.link ≠ 0) (ht : s.field.heard + 100 ≤ s.field.time) :
    AtField .fieldBarrierTimeout s fun g => g.link = 0 ∧ g.lane0 = [] ∧ FieldAlone g ∧ g.ins = s.field.ins := by
  have hg : Fld.timeout s.field = Fld.leaveLink s.field 0 := if_neg (by simp only [hlink, false_or]; omega)
  refine fieldLoses (g := Fld.timeout) ?_ hg
  have h : whenField s Fld.timeout = { s with field := Fld.reportChange s.field (Fld.timeout s.field) } := if_pos hrun
  have hexec : exec .fieldBarrierTimeout s = fieldCmd Fld.timeout s := rfl
  rw [hexec]
  unfold fieldCmd
  rw [h]

theorem stopToggle_eq (s : State) : stopToggle s = { s with boot := { s.boot with toggle := false }, internal := s.internal ++ (if s.boot.toggle then [.toggle false] else []) } := by
  unfold stopToggle
  by_cases h : s.boot.toggle = true
  · rw [if_pos h, if_pos h]
    rfl
  · have hb : ({ s.boot with toggle := false } : Boot) = s.boot := by rw [← Bool.eq_false_of_not_eq_true h]
    rw [if_neg h, if_neg h, List.append_nil, hb]

/-- The end of the link at the core die (R176). -/
theorem losesLink_of {c : Instr} {f : State → State} {s : State} (hexec : exec c s = coreCmd f s) (hf : f s = linkLoss s) : LosesLink c s := by
  unfold linkLoss at hf
  dsimp only at hf
  rw [stopToggle_eq] at hf
  refine ⟨_, hexec.trans (coreCmd_next hf rfl rfl), rfl, rfl, rfl, rfl, rfl, rfl, rfl, ?_, ?_, ⟨rfl, rfl, rfl, rfl, rfl, rfl, rfl, rfl⟩, rfl⟩
  · exact (counted_incHw _ 0x1030 2 1).trans (congrArg (sat32 · 1) (counted_incHw_other _ _ (by decide)))
  · exact (counted_incHw_other _ 1 (by decide)).trans (counted_incHw _ 0x1030 9 _)

end Sys2Proof.Machine
end

section
/-! SUPPORT. The bring-up of the barrier link at both dies (R91, R174, R175). -/

namespace Sys2Proof.Machine

/-! The core die starts an attempt. -/

/-- What an attempt leaves (R174). -/
def Tries (s t : State) : Prop :=
  t.bar.b = (s.bar.b + 1) % 2 ^ 32 ∧ t.bar.trying = true ∧ t.bar.tryAt = some s.boot.since ∧ t.bar.key = none ∧
    t.bar.hello = none ∧ t.bar.lane1 = s.bar.lane1 ++ [.hello ((s.bar.b + 1) % 2 ^ 32) (runningVersion s)] ∧
    t.internal = .fieldState 1 none :: s.internal ∧ linkStands s t ∧ t.field = s.field

theorem bringup_tries {c : Instr} {s : State} (hexec : exec c s = coreCmd startBringup s) (hup : s.bar.up = false) (htry : s.bar.trying = false) (hp : s.power < 3)
    (hw : s.boot.waking = false) (ht : ∀ t0, s.bar.tryAt = some t0 → t0 + 10000 ≤ s.boot.since) (hs : s.stage ∈ [7, 8, 0x10, 0x11]) :
    ∃ t, exec c s = .next t ∧ Tries s t := by
  simp only [List.mem_cons, List.not_mem_nil, or_false] at hs
  have hstarted : started s = true := by
    unfold started
    simp only [Bool.or_eq_true, decide_eq_true_eq]
    omega
  have hdue : ¬s.boot.since < (s.bar.tryAt.map (· + 10000)).getD 0 := by
    cases h : s.bar.tryAt with
    | none => exact Nat.not_lt_zero _
    | some t0 => exact Nat.not_lt.mpr (ht t0 h)
  have hstart : startBringup s = pushFront (updBar s fun x => { x with b := (s.bar.b + 1) % 2 ^ 32, trying := true, tryAt := some s.boot.since, key := none, hello := none, lane1 := x.lane1 ++ [.hello ((s.bar.b + 1) % 2 ^ 32) (helloVersion s)] }) (.fieldState 1 none) :=
    if_neg (by rw [hup, htry, hw, hstarted]; simp only [Bool.false_eq_true, Bool.not_true, false_or]; omega)
  exact ⟨_, hexec.trans (coreCmd_next hstart rfl rfl), rfl, rfl, rfl, rfl, rfl, rfl, rfl, ⟨rfl, rfl, rfl, rfl, rfl, rfl, rfl, rfl⟩, rfl⟩

theorem bringupTimeout_ends {s : State} (htry : s.bar.trying = true) (ht : s.bar.tryAt.getD 0 + 1000 ≤ s.boot.since) :
    exec .bringupTimeout s = .next { s with bar := { s.bar with trying := false, key := none, hello := none },
                                            internal := (if s.bar.hello = none then [.fieldState 0 none] else []) ++ s.internal } := by
  have h : Lnk.fail s = { s with bar := { s.bar with trying := false, key := none, hello := none }, internal := (if s.bar.hello = none then [.fieldState 0 none] else []) ++ s.internal } := by
    unfold Lnk.fail
    rw [if_pos ⟨htry, ht⟩]
    cases h : s.bar.hello <;> rfl
  exact coreCmd_next (f := Lnk.fail) h rfl rfl

/-! The field die answers. -/

theorem linkOnly_cross1 (s : State) (m : Lane1) : LinkOnly s (cross1 s m) := by
  obtain ⟨b, u, -, htal, hc⟩ := cross1_sends s m
  have hu : LinkOnly s u := (linkOnly_updBar s b).trans htal.linkOnly
  rw [hc]
  split_ifs
  · exact hu
  · exact hu.trans rfl
  · exact hu
  · exact hu.trans rfl

/-- A link cell finds the field die as it was, but for what has come and when. -/
theorem arrive1_linkCell {s : State} {m : Lane1} (hrun : s.field.run = true) (hm : Bar.isLink1 m = true) (hi : m ≠ .idle) :
    LinkOnly s (arrive1 s m) ∧ ∃ ready heard, (arrive1 s m).field = arrivedAt s.field ready s.field.rx heard := by
  unfold arrive1
  split
  · refine ⟨linkOnly_cross1 s m, s.field.ready, s.field.time, ?_⟩
    obtain ⟨b, u, -, htal, hc⟩ := cross1_sends s m
    obtain ⟨-, hfield⟩ := htal.ends
    rw [hc, if_neg (by simp [hrun]), if_pos ⟨hm, hi⟩]
    exact congrArg (fun f : Field => { f with heard := f.time }) hfield
  · exact ⟨rfl, s.field.ready.tail, s.field.heard, rfl⟩

/-- A link cell that the field die takes. -/
theorem fieldTakes {c : Instr} {s : State} {m : Lane1} {g : Field → Field} (hexec : exec c s = coreCmd (fun s => if crosses1 s m then whenField (arrive1 s m) g else s) s)
    (hcross : crosses1 s m = true) (hrun : s.field.run = true) (hm : Bar.isLink1 m = true) (hi : m ≠ .idle) :
    ∃ t ready heard, exec c s = .next t ∧ dieFrame s t ∧ t.field = Fld.reportChange (arrivedAt s.field ready s.field.rx heard) (g (arrivedAt s.field ready s.field.rx heard)) := by
  obtain ⟨hlink, ready, heard, hfield⟩ := arrive1_linkCell hrun hm hi
  have hw : whenField (arrive1 s m) g = { arrive1 s m with field := Fld.reportChange (arrive1 s m).field (g (arrive1 s m).field) } := if_pos (by rw [hfield]; exact hrun)
  have hlink' : LinkOnly s (whenField (arrive1 s m) g) := hlink.trans (linkOnly_whenField _ _)
  have hf : (if crosses1 s m then whenField (arrive1 s m) g else s) = whenField (arrive1 s m) g := if_pos hcross
  refine ⟨_, ready, heard, hexec.trans (coreCmd_next hf (by rw [hlink']) (by rw [hlink'])), hlink'.dieFrame, ?_⟩
  rw [hw, hfield]

theorem coreHello_answered {s : State} (b fw : Word) (hrun : s.field.run = true) (hcross : crosses1 s (.hello b.toNat fw.toNat) = true) :
    ∃ t, exec (.coreHello b fw) s = .next t ∧ t.field.link = 1 ∧ t.field.b = b.toNat ∧ t.field.staged = [] ∧
      t.field.lane0 = [.hello b.toNat (Config.fieldRomVersion % 2 ^ 32) s.field.gen s.field.cause] ∧ FieldAlone t.field ∧ dieFrame s t := by
  obtain ⟨t, ready, heard, hexec, hframe, hfield⟩ := fieldTakes (g := fun f => Fld.hello f b.toNat) (m := .hello b.toNat fw.toNat) (c := .coreHello b fw) rfl hcross hrun rfl (by simp)
  have hoff : (Fld.hello (arrivedAt s.field ready s.field.rx heard) b.toNat).link ≠ 2 := show 1 ≠ 2 by decide
  rw [reportChange_offLine hoff] at hfield
  refine ⟨t, hexec, ?_, ?_, ?_, ?_, ?_, hframe⟩ <;> rw [hfield]
  · rfl
  · rfl
  · rfl
  · rfl
  · exact ⟨rfl, rfl, rfl, rfl, rfl, rfl, rfl, rfl⟩

/-- Field die g is f but for what waits to be sent, held or lost, and what waits on lane 0 still waits there. -/
def Queues (f g : Field) : Prop := ∃ l w d e, g = { f with lane0 := f.lane0 ++ l, wake := w, framesDropped := d, events := e }

theorem Queues.refl (f : Field) : Queues f f := ⟨[], f.wake, f.framesDropped, f.events, by rw [List.append_nil]⟩

theorem Queues.trans {f g h : Field} (a : Queues f g) (b : Queues g h) : Queues f h := by
  obtain ⟨l, w, d, e, rfl⟩ := a
  obtain ⟨l', w', d', e', rfl⟩ := b
  exact ⟨l ++ l', w', d', e', by rw [List.append_assoc]⟩

theorem queues_events (f : Field) (e : List InputEntry) : Queues f { f with events := e } := ⟨[], f.wake, f.framesDropped, e, by rw [List.append_nil]⟩

theorem queues_send (f : Field) (m : Lane0) : Queues f (Fld.send f m) := by
  unfold Fld.send
  dsimp only
  split_ifs
  · exact ⟨[], f.wake, _, f.events, by rw [List.append_nil]⟩
  · exact ⟨_, _, f.framesDropped, f.events, rfl⟩
  · exact ⟨[], _, f.framesDropped, f.events, by rw [List.append_nil]⟩
  · exact ⟨_, f.wake, f.framesDropped, f.events, rfl⟩
  · exact .refl f

theorem queues_sends (ms : List Lane0) (f : Field) : Queues f (ms.foldl Fld.send f) := by
  induction ms generalizing f with
  | nil => exact .refl f
  | cons m ms ih => exact (queues_send f m).trans (ih _)

theorem queues_sendEvents (f : Field) : Queues f (Fld.sendEvents f) := by
  unfold Fld.sendEvents
  split_ifs
  · exact .refl f
  · exact (queues_events f []).trans (queues_sends _ _)
  · exact queues_events f _
  · exact queues_events f _

theorem queues_reportChange (f g : Field) : Queues g (Fld.reportChange f g) := by
  unfold Fld.reportChange
  split
  · exact .refl g
  · exact queues_send _ _

theorem keyCell_taken {s : State} (k tag : Bytes) (b : Word) (hcross : crosses1 s (.key k b.toNat tag) = true) (hrun : s.field.run = true) (hlink : s.field.link = 1)
    (hb : b.toNat = s.field.b) (hk : k.length = 16) (ht : tag = Bar.tag k 1 1 (Bar.cell28 0x82 1 (k ++ leBytes 4 b.toNat))) :
    ∃ t, exec (.keyCell k b tag) s = .next t ∧ t.field.link = 2 ∧ t.field.key = some k ∧ t.field.routes = [] ∧
      Lane0.keyAck b.toNat (Bar.tag k 1 0 (Bar.cell28 0x03 1 (leBytes 4 b.toNat))) ∈ t.field.lane0 ∧ dieFrame s t := by
  obtain ⟨t, ready, heard, hexec, hframe, hfield⟩ := fieldTakes (g := fun f => Fld.keyed f k b.toNat tag) (m := .key k b.toNat tag) (c := .keyCell k b tag) rfl hcross hrun rfl (by simp)
  have hkeyed : Fld.keyed (arrivedAt s.field ready s.field.rx heard) k b.toNat tag = Fld.sendEvents { arrivedAt s.field ready s.field.rx heard with
      link := 2, key := some k, rx := ⟨2, 0, []⟩, sent := 1, routes := [], lane0 := s.field.lane0 ++ [.keyAck b.toNat (Bar.tag k 1 0 (Bar.cell28 0x03 1 (leBytes 4 b.toNat)))] } := by
    refine if_neg ?_
    show ¬(s.field.link ≠ 1 ∨ b.toNat ≠ s.field.b ∨ _)
    simp [hlink, hb, hk, ht]
  rw [hkeyed] at hfield
  obtain ⟨l, w, d, e, hq⟩ := (queues_sendEvents _).trans (queues_reportChange (arrivedAt s.field ready s.field.rx heard) _)
  rw [hq] at hfield
  refine ⟨t, hexec, ?_, ?_, ?_, ?_, hframe⟩ <;> rw [hfield]
  exact List.mem_append_left _ (List.mem_append_right _ (List.mem_singleton.mpr rfl))

end Sys2Proof.Machine
end

section
/-! SUPPORT. The link key, and the link up at the core die (R174, R176, R519). -/

namespace Sys2Proof.Machine

/-- Two states with one store and one dictionary read the same, and carry the same routes and settings. -/
theorem LinkOnly.objects {s t : State} (h : LinkOnly s t) : openRoutes t = openRoutes s ∧ fullConfig t = fullConfig s ∧ (∀ i k, num t i k = num s i k) ∧
    calderaOn t = calderaOn s := by
  rw [h]
  exact ⟨rfl, rfl, fun _ _ => rfl, rfl⟩

theorem linkOnly_leave0 (s : State) (m : Lane0) : LinkOnly s (leave0 s m) := linkOnly_onField s _

/-- A link cell finds the core die's end as it was, but for what has come and when. -/
theorem arrive0_linkCell {s : State} {m : Lane0} (hm : Bar.isLink0 m = true) (hi : m ≠ .idle) :
    LinkOnly s (arrive0 s m) ∧ ∃ ready heard, (arrive0 s m).bar = { s.bar with ready := ready, heard := heard } := by
  unfold arrive0
  split
  · have hc : cross0 s m = updBar (tookCells (leave0 s m) (Bar.cells0 (s.field.key.getD []) s.field.sent m).length) fun x => { x with heard := s.boot.since } := by
      unfold cross0
      dsimp only
      rw [if_neg fun h => hi h.1, if_pos ⟨hm, hi⟩]
    have htal := talliesOnly_tookCells (leave0 s m) (Bar.cells0 (s.field.key.getD []) s.field.sent m).length
    rw [hc]
    exact ⟨(linkOnly_leave0 s m).trans (htal.linkOnly.trans (linkOnly_updBar _ _)), s.bar.ready, s.boot.since,
      congrArg (fun b : Bar => { b with heard := s.boot.since }) htal.ends.1⟩
  · exact ⟨linkOnly_updBar s _, s.bar.ready.tail, s.bar.heard, rfl⟩

/-- An awaited HELLO of the field die draws the link key and sends it (R174). -/
theorem fieldHelloOp_keys {u : State} {b rom gen cause : Nat} (hup : u.bar.up = false) (htry : u.bar.trying = true) (hb : b = u.bar.b) (hh : u.bar.hello = none)
    (he : u.entropyDown = false) (hr : u.tem.resp = none) : let r := drawTiller 14 u 16
    fieldHelloOp u b rom gen cause = updBar r.2 fun x => { x with key := some r.1, hello := some (gen, rom, cause), rx := laneStart, sent := 1,
                                                                  lane1 := x.lane1 ++ [.key r.1 b (Bar.tag r.1 1 1 (Bar.cell28 0x82 1 (r.1 ++ leBytes 4 b)))] } := by
  unfold fieldHelloOp
  rw [if_neg (by simp [hup]), if_pos (by rw [hh, he, hr]; exact ⟨htry, hb, rfl, rfl, rfl⟩)]

theorem fieldHello_keys {s : State} (b rom gen : Word) (cause : Byte) : let m := Lane0.hello b.toNat rom.toNat gen.toNat cause.toNat
    crosses0 s m = true → s.bar.up = false → s.bar.trying = true → b.toNat = s.bar.b → s.bar.hello = none → s.entropyDown = false → s.tem.resp = none →
    s.power ≠ 4 →
    ∃ t k, exec (.fieldHello b rom gen cause) s = .next t ∧ k = (drawTiller 14 (arrive0 s m) 16).1 ∧
      t.bar.key = some k ∧ t.bar.hello = some (gen.toNat, rom.toNat, cause.toNat) ∧ t.bar.rx = ⟨1, 0, []⟩ ∧
      t.bar.lane1 = s.bar.lane1 ++ [.key k b.toNat (Bar.tag k 1 1 (Bar.cell28 0x82 1 (k ++ leBytes 4 b.toNat)))] ∧ t.bar.up = false ∧
      t.pers = s.pers ∧ t.dict = s.dict ∧ t.slots = s.slots ∧ t.internal = s.internal := by
  intro m hcross hup htry hb hh he hr hp
  obtain ⟨hlink, ready, heard, hbar⟩ := arrive0_linkCell (s := s) (m := m) rfl (by simp [m])
  have hkeys := fieldHelloOp_keys (u := arrive0 s m) (b := b.toNat) (rom := rom.toNat) (gen := gen.toNat) (cause := cause.toNat) (by rw [hbar]; exact hup)
    (by rw [hbar]; exact htry) (by rw [hbar]; exact hb) (by rw [hbar]; exact hh) (by rw [hlink]; exact he) (by rw [hlink]; exact hr)
  have hworks := worksOnly_drawTiller (arrive0 s m) 14 16
  generalize hd : drawTiller 14 (arrive0 s m) 16 = r at hkeys hworks
  have hc : ¬(!crosses0 s m) = true := by rw [hcross]; decide
  have hf : Lnk.fieldHello s b.toNat rom.toNat gen.toNat cause.toNat = _ := ((if_neg hc).trans (if_neg hp)).trans hkeys
  have hends : r.2.bar = (arrive0 s m).bar ∧ r.2.pers = s.pers ∧ r.2.dict = s.dict ∧ r.2.slots = s.slots ∧ r.2.internal = s.internal ∧ r.2.pending = s.pending ∧ r.2.otp = s.otp := by
    rw [hworks]
    refine ⟨rfl, ?_, ?_, ?_, ?_, ?_, ?_⟩ <;> dsimp only <;> rw [hlink]
  obtain ⟨hbar', hpers, hdict, hslots, hinternal, hpending, hotp⟩ := hends
  rw [hbar] at hbar'
  refine ⟨_, r.1, coreCmd_next (f := fun s => Lnk.fieldHello s b.toNat rom.toNat gen.toNat cause.toNat) hf hpending hotp, rfl, rfl, rfl, rfl, ?_, ?_, hpers, hdict, hslots, hinternal⟩
  · show r.2.bar.lane1 ++ _ = _
    rw [hbar']
  · show r.2.bar.up = false
    rw [hbar']
    exact hup

/-- The core die with the link up, these messages queued, and the record of it at the head of the internal queue (R78, R174). -/
def linkBrought (u : State) (q : List Lane1) (d : Nat × Nat × Nat × Nat) : State :=
  pushFront (incHw (updBar u fun x => { x with up := true, trying := false, rx := ⟨2, 0, []⟩, sent := 1, lane1 := q }) 0x1030 1 1) (.fieldState 2 (some d))

/-- The KEY_ACK that is waited for brings the link up (R174). -/
theorem keyAckOp_up {u : State} {b gen rom cause : Nat} {t : Bytes} {p : Phys} (hh : u.bar.hello = some (gen, rom, cause)) (hfit : ackFits u b t = true) (hp : p ≠ .compare) :
    keyAckOp u b t p = startToggle (linkBrought u (u.bar.lane1 ++ (if u.bar.told = 0 then [] else [.power 0]) ++ openRoutes u ++
      (if gen ≠ num u 0x1030 10 then fullConfig u else [])) (b, rom, gen, cause)) := by
  unfold keyAckOp
  rw [hh]
  dsimp only
  rw [hfit, if_neg (by decide), if_neg hp]
  rfl

theorem startToggle_cases (s : State) : (startToggle s = s ∨ startToggle s = { s with boot := { s.boot with toggle := true }, internal := s.internal ++ [.toggle true] }) ∧
    (s.bar.up = true → s.stage = 0x11 → s.tem.resp = none → calderaOn s = false → s.seq.retiring = false → s.seq.failing = false → (startToggle s).boot.toggle = true) := by
  unfold startToggle
  constructor
  · split
    · exact .inr rfl
    · exact .inl rfl
  · intro hup hstage hresp hcal hret hfail
    cases ht : s.boot.toggle with
    | true =>
      rw [if_neg (by simp)]
      exact ht
    | false =>
      rw [if_pos (by simp [hup, hstage, hresp, hcal, hret, hfail])]
      rfl

end Sys2Proof.Machine
end

section
/-! The barrier cells and link settled (R91, R162 to R168, R174 to R177, R285, R286). -/

namespace Sys2Proof.Machine

/-- The core die's end as a KEY_ACK leaves it that is taken but for its effect. -/
def keyAckTaken (s : State) (b : Nat) (tag : Bytes) (p : Phys) : State :=
  ackCell (if s.bar.ready = [] then leave0 s (.keyAck b tag) else updBar s fun x => { x with ready := x.ready.tail }) b tag p

theorem keyAck_crossing {s : State} {b : Nat} {tag : Bytes} (p : Phys) (hcross : crosses0 s (.keyAck b tag) = true) :
    Lnk.keyAck s b tag p = keyAckOp (keyAckTaken s b tag p) b tag p := if_pos hcross

section
variable {s : State} {k tag : Bytes} {b gen rom cause : Nat} (hk : s.bar.key = some k) (hh : s.bar.hello = some (gen, rom, cause)) (hup : s.bar.up = false)
  (htry : s.bar.trying = true) (hb : b = s.bar.b) (ht : tag = Bar.tag k 1 0 (Bar.cell28 0x03 1 (leBytes 4 b)))
include hk hh hup htry hb ht

/-- The KEY_ACK that the attempt of s waits for is still waited for where only what has come, and when, differs. -/
theorem ackFits_of {v : State} {ready : List Lane0} {heard : Nat} (hv : v.bar = { s.bar with ready := ready, heard := heard }) : ackFits v b tag = true := by
  unfold ackFits
  rw [hv]
  dsimp only
  rw [hk, hh, hup, htry]
  simp [hb, ht]

theorem keyAckTaken_parts {p : Phys} (hp : p ≠ .compare) : let v := keyAckTaken s b tag p
    LinkOnly s v ∧ (∃ ready heard, v.bar = { s.bar with ready := ready, heard := heard }) ∧ counted v 0x1030 1 = counted s 0x1030 1 := by
  unfold keyAckTaken
  have hu : ∃ u ready, (if s.bar.ready = [] then leave0 s (.keyAck b tag) else updBar s fun x => { x with ready := x.ready.tail }) = u ∧
      LinkOnly s u ∧ u.bar = { s.bar with ready := ready } ∧ counted u 0x1030 1 = counted s 0x1030 1 := by
    split
    · exact ⟨_, s.bar.ready, rfl, linkOnly_leave0 _ _, rfl, rfl⟩
    · exact ⟨_, s.bar.ready.tail, rfl, linkOnly_updBar _ _, rfl, rfl⟩
  obtain ⟨u, ready, hu, hlink, hbar, hcount⟩ := hu
  rw [hu]
  have hfits : ackFits u b tag = true := ackFits_of hk hh hup htry hb ht (heard := s.bar.heard) hbar
  have htook : ackCell u b tag p = tookCells (updBar u fun x => { x with heard := u.boot.since }) 1 := if_pos ⟨hfits, hp⟩
  have htal := talliesOnly_tookCells (updBar u fun x => { x with heard := u.boot.since }) 1
  dsimp only
  rw [htook]
  refine ⟨hlink.trans ((linkOnly_updBar _ _).trans htal.linkOnly), ⟨ready, u.boot.since, ?_⟩, (counted_tookCells_other _ _ (by decide)).trans hcount⟩
  rw [htal.ends.1]
  exact congrArg (fun x : Bar => { x with heard := u.boot.since }) hbar

/-- KEY_ACK brings the link up at the core die (R174, R176, R519). -/
theorem keyAckOp_brings {p : Phys} (hp : p ≠ .compare) : let t := keyAckOp (keyAckTaken s b tag p) b tag p
    t.bar.up = true ∧ t.bar.trying = false ∧ t.internal.head? = some (.fieldState 2 (some (b, rom, gen, cause))) ∧
      t.bar.lane1 = s.bar.lane1 ++ (if s.bar.told = 0 then [] else [.power 0]) ++ openRoutes s ++ (if gen ≠ num s 0x1030 10 then fullConfig s else []) ∧
      counted t 0x1030 1 = sat32 (counted s 0x1030 1) 1 ∧
      (s.stage = 0x11 → s.tem.resp = none → num s 0xD802 1 = 0 → s.seq.retiring = false → s.seq.failing = false → t.boot.toggle = true) ∧
      linkStands s t ∧ t.pending = s.pending := by
  obtain ⟨hlink, ⟨ready, heard, hbar⟩, hcount⟩ := keyAckTaken_parts hk hh hup htry hb ht hp
  obtain ⟨hroutes, hconfig, hnum, hcal⟩ := hlink.objects
  generalize keyAckTaken s b tag p = v at hlink hbar hcount hroutes hconfig hnum hcal
  have hop := keyAckOp_up (u := v) (by rw [hbar]; exact hh) (ackFits_of hk hh hup htry hb ht hbar) hp
  rw [hroutes, hconfig, hnum, hbar] at hop
  dsimp only at hop ⊢
  rw [hop]
  generalize s.bar.lane1 ++ (if s.bar.told = 0 then [] else [.power 0]) ++ openRoutes s ++ (if gen ≠ num s 0x1030 10 then fullConfig s else []) = q
  obtain ⟨hsame, htoggle⟩ := startToggle_cases (linkBrought v q (b, rom, gen, cause))
  have hstands : linkStands s (linkBrought v q (b, rom, gen, cause)) ∧ (linkBrought v q (b, rom, gen, cause)).pending = s.pending := by
    rw [hlink]
    exact ⟨⟨rfl, rfl, rfl, rfl, rfl, rfl, rfl, rfl⟩, rfl⟩
  have hone : counted (linkBrought v q (b, rom, gen, cause)) 0x1030 1 = sat32 (counted s 0x1030 1) 1 :=
    (counted_incHw _ 0x1030 1 1).trans (congrArg (sat32 · 1) hcount)
  have hlive : s.stage = 0x11 → s.tem.resp = none → num s 0xD802 1 = 0 → s.seq.retiring = false → s.seq.failing = false →
      (startToggle (linkBrought v q (b, rom, gen, cause))).boot.toggle = true := by
    intro h1 h2 h3 h4 h5
    have hc : calderaOn v = false := by
      rw [hcal]
      exact decide_eq_false (not_not.mpr h3)
    refine htoggle rfl ?_ ?_ hc ?_ ?_
    · exact (congrArg State.stage hlink).trans h1
    · exact (congrArg (fun u : State => u.tem.resp) hlink).trans h2
    · exact (congrArg (fun u : State => u.seq.retiring) hlink).trans h4
    · exact (congrArg (fun u : State => u.seq.failing) hlink).trans h5
  obtain h | h := hsame <;> rw [h] at hlive ⊢
  · exact ⟨rfl, rfl, rfl, rfl, hone, hlive, hstands⟩
  · exact ⟨rfl, rfl, rfl, rfl, hone, hlive, hstands⟩

end

theorem keyAck_brings {s : State} (k tag : Bytes) (b : Word) (gen rom cause : Nat) (p : Phys)
    (hcross : crosses0 s (.keyAck b.toNat tag) = true) (hk : s.bar.key = some k) (hh : s.bar.hello = some (gen, rom, cause)) (hup : s.bar.up = false)
    (htry : s.bar.trying = true) (hb : b.toNat = s.bar.b) (ht : tag = Bar.tag k 1 0 (Bar.cell28 0x03 1 (leBytes 4 b.toNat))) (hp : p ≠ .compare) :
    ∃ t, exec (.keyAck b ⟨tag, p⟩) s = .next t ∧ t.bar.up = true ∧ t.bar.trying = false ∧
      t.internal.head? = some (.fieldState 2 (some (b.toNat, rom, gen, cause))) ∧
      t.bar.lane1 = s.bar.lane1 ++ (if s.bar.told = 0 then [] else [.power 0]) ++ openRoutes s ++ (if gen ≠ num s 0x1030 10 then fullConfig s else []) ∧
      counted t 0x1030 1 = sat32 (counted s 0x1030 1) 1 ∧
      (s.stage = 0x11 → s.tem.resp = none → num s 0xD802 1 = 0 → s.seq.retiring = false → s.seq.failing = false → t.boot.toggle = true) ∧
      linkStands s t := by
  obtain ⟨h1, h2, h3, h4, h5, h6, h7, hpending⟩ := keyAckOp_brings hk hh hup htry hb ht hp
  have hotp := h7.2.1
  exact ⟨_, coreCmd_next (f := fun s => Lnk.keyAck s b.toNat tag p) (keyAck_crossing p hcross) hpending hotp, h1, h2, h3, h4, h5, h6, h7⟩

/-- Settles O50: each cell by the receiver's own cases, and each step of the link by the branch of its operation that its hypotheses select. -/
theorem barrierCellsAndLinkComplete : Obligations.barrier_cells_and_link_complete := by
  refine ⟨fun s c key p => ⟨fun hk h1 hp => ⟨fun d m hg hty hpos hm => cells0_checked hk hp hg hty hpos hm, fun hg hty =>
        ⟨fun hpos hlen => firstPart_kept hk hp hg hty hpos hlen, fun b m hpos hb hm => lastPart_completes hk hp hg hty hpos hb hm⟩,
      fun d hlen hd hseq hbad => cell0_dropped hk h1 hp hlen hd hseq hbad⟩,
    fun hk h1 d hlen hd hseq => cell0_alarm hk h1 hlen hd hseq, fun hrun hk hty hpos => ⟨fun d m hg hm => cells1_checked hrun hk hg hty hpos hm,
      fun d hlen hd hseq hbad => ?_⟩, cell_stands c p s⟩, fun s => ?_⟩
  · have h81 : (Bar.parse c).type ≠ 0x81 := fun h => by rw [h] at hty; revert hty; decide
    have h82 : (Bar.parse c).type ≠ 0x82 := fun h => by rw [h] at hty; revert hty; decide
    exact cell1_dropped p hrun hk h81 h82 hlen hd hseq hbad
  · exact ⟨idleCell0_crosses, idleCell1_crosses, idleTimer0, idleTimer1,
      fun hup hd => losesLink_of (f := fun s => Lnk.dropLimit s 0) rfl ((if_pos rfl).trans (if_pos ⟨hup, hd⟩)), fieldDropLimit_loses,
      fun hup htry hpow hw ht hs => ⟨bringup_tries rfl hup htry hpow hw ht hs, bringup_tries rfl hup htry hpow hw ht hs⟩,
      coreHello_answered, fieldHello_keys, fun k tag b => keyCell_taken k tag b,
      fun k tag b gen rom cause p hc hk hh hup htry hb ht hp => keyAck_brings k tag b gen rom cause p hc hk hh hup htry hb ht hp,
      bringupTimeout_ends, fieldTimeout_loses, fun hup ht => losesLink_of (f := Lnk.coreTimeout) rfl (if_pos ⟨hup, ht⟩)⟩

end Sys2Proof.Machine
end
